-- ==== Sys2Proof/Word.lean ====
section
/-! DEFINITION. Word types and the plain data types that the commands' operands and the state share. -/

namespace Sys2Proof

abbrev Byte := BitVec 8
abbrev W32 := BitVec 32
abbrev W64 := BitVec 64
abbrev W128 := BitVec 128

/-- Global strand ID (R6): cord × 1024 + ply × 16 + strand. -/
abbrev StrandId := BitVec 17
/-- Cord number 0–127 (R6). -/
abbrev CordId := BitVec 7
/-- Station ID (R95). -/
abbrev StnId := BitVec 8
/-- Lane number 0–1055 (R8). -/
abbrev LaneId := BitVec 11
/-- Master ID (R364). -/
abbrev MasterId := BitVec 8

/-- A unit's bytes in little-endian order (R10). -/
abbrev Bytes := List Byte

/-- A sparse map: keys strictly rising, no entry equal to what an unlisted key reads as. -/
abbrev SMap (α : Type) := List (Nat × α)

/-- Packet header flit and payload (R109); the OP is the command's row. -/
structure Packet where
  vn : BitVec 2 := 1
  cls : Bool := false
  route : Bool := false
  src : MasterId
  dstStn : StnId
  dstId : MasterId := 0
  addr : BitVec 48
  tag : BitVec 8 := 0
  len : BitVec 4 := 0
  status : BitVec 2 := 0
  be : W32 := 0xFFFFFFFF
  payload : List W128 := []
  /-- a request of the host through BAR2: `addr` is the offset in it (R359) -/
  bar2 : Bool := false
  deriving DecidableEq, Repr

/-- A master ID that R364 lists: the others are reserved, and no request carries them. -/
def masterOk (m : MasterId) : Bool :=
  m.toNat ≤ 3 || m == 0x10 || m == 0x20 || (0x30 ≤ m.toNat && m.toNat ≤ 0x72) || 0x80 ≤ m.toNat

/-- A decoded receive word with its markers (R171) and what the receiver measures with it: the KEEP bit of the capture
filter where the cast names no macrocell (R238), the short raw timestamps of its first wire bit and of its first start pattern
(R218), its bits of the recovered wire stream, the first received one in bit 0 (R227), the data as received where the FEC
corrected some, the end of a codeword with the symbols corrected in it (R191), and the gearbox and CDR phases (R202). -/
structure RxWord where
  data : W64
  ctlb : BitVec 8 := 0
  valid : Bool := true
  start : Bool := false
  codeErr : Bool := false
  fecMark : Bool := false
  keep : Bool := true
  raw : W64 := 0
  rawStart : W64 := 0
  wire : BitVec 80 := 0
  rcvd : Option W64 := none
  cwEnd : Bool := false
  corr : BitVec 10 := 0
  gb : W32 := 0
  cdr : W32 := 0
  deriving DecidableEq, Repr

/-- A transmit word presented by the edge fabric (R172) with its timestamp request (R219). -/
structure TxWord where
  data : W64
  ctlb : BitVec 8 := 0
  valid : Bool := true
  tsreq : Bool := false
  tstag : BitVec 16 := 0
  deriving DecidableEq, Repr

/-- Lane acquisition stages, in order (R205). -/
inductive LaneStage where
  | signal | cdr | pcs | fec | deskew
  deriving DecidableEq, Repr

/-- A calibration value (R197): offset of slicer 0–2, upper threshold, lower threshold. -/
inductive CalSel where
  | ofs0 | ofs1 | ofs2 | thr0 | thr2
  deriving DecidableEq, Repr

/-- Why a DATA block closes (R232). -/
inductive CloseReason where
  | full | filter | lockLoss | timeout | timeStep | stop
  deriving DecidableEq, Repr

/-- The bytes the loader reads of a cast before its sections (R271, R272, R279), and the record data of LANE and SPLICE, which the
checks before any section is written need (R145, R146, R196): the loader looks ahead at them. DEDUCED (log 45, 46). -/
structure CastHdr where
  outer : Bytes := []
  part : Bytes := []
  manifest : Bytes := []
  lanes : Bytes := []
  splice : Bytes := []
  deriving DecidableEq, Repr

/-- A HELLO record (R298). -/
structure Hello where
  role : BitVec 2
  imageId : BitVec 256
  lag : BitVec 7
  span : W32
  lockSrc : Bool
  serial : W64
  /-- one-way control-channel latency in ns measured at pairing -/
  latency : BitVec 16
  deriving DecidableEq, Repr

/-- A heartbeat (R299, R300): the line time of the boundary, the number of the turn it starts if one starts there, and the
digest of the last committed turn in the first heartbeat after its commit. -/
structure Heartbeat where
  boundary : Nat
  starts : Option W64
  digest : Option (W64 × W64)
  deriving DecidableEq, Repr

/-- A delay-list entry: list, flow, flag and the tick count at which it expires, or ticks left (R264, R300). -/
structure DelayEntry where
  flow : BitVec 12
  flag : BitVec 5
  at_ : Nat
  deriving DecidableEq, Repr

/-- A flow context delta of the mirror stream (R300). -/
structure FlowDelta where
  turn : W64
  flow : BitVec 12
  flags : W32
  mask : W32
  /-- V2–V9 -/
  v : List W64
  added : List (BitVec 2 × DelayEntry)
  removed : List (BitVec 2 × DelayEntry)
  deriving DecidableEq, Repr

/-- A mirrored time adjustment (R300). -/
inductive TimeAdj where
  | freq (v : W32)
  | step (p : W64)
  | slew (p : W64)
  | tod (t : BitVec 96)
  deriving DecidableEq, Repr

/-- What a partner-loss command reports (R304): no heartbeat for LOSS_T, or PARTNER_OK at the two-bit code
(P in bit 1, N in bit 0) for 1 µs. -/
inductive LossCause where
  | heartbeat
  | pins (code : BitVec 2)
  deriving DecidableEq, Repr

/-- A record offered to the trace unit (R345, R349). -/
inductive TraceRec where
  | txn (resp : Bool) (op : BitVec 4) (p : Packet) (src : Nat)
  | port (cmd : Bool) (cord : CordId) (q : BitVec 2) (mode : BitVec 3) (step : BitVec 16) (addr : BitVec 48)
      (be : Byte) (turn : BitVec 16) (data : W128)
  | probe (spec bight : Bool) (n : BitVec 6) (stn : StnId) (side : BitVec 3) (vn : BitVec 2) (b6 b7 : Byte)
      (addr : BitVec 48) (len : BitVec 4)
  | cancel (n : BitVec 6)
  deriving DecidableEq, Repr

/-- Private JTAG instructions (R387). -/
inductive PrivateInstr where
  | internalScan | fabricDebug | factoryTest
  deriving DecidableEq, Repr

/-- Input pins whose level changes reach a function (R398, R400). -/
inductive PinId where
  | gpio (n : BitVec 8)
  | pps | wake | partnerP | partnerN
  deriving DecidableEq, Repr

/-- What PIN_INPUT tells of a pin: a level that has come to its land, or one that has passed its glitch filter (R398). -/
structure PinLevel where
  level : Bool
  filtered : Bool
  deriving DecidableEq, Repr

/-- What WIRE_FAULT tells of a source: the invalid code that its pair has shown (R311), and whether a RELEASE write meets it (R317). -/
structure WirePair where
  code : BitVec 2
  release : Bool
  deriving DecidableEq, Repr

/-- The clock of an edge block (R170): the edge core clock, or the word clock of a lane set. -/
inductive EdgeClk where
  | core
  | laneSet (k : BitVec 7)
  deriving DecidableEq, Repr

/-- Two's complement value of the low bits of a word. -/
def sext {w : Nat} (x : BitVec w) : Int := x.toInt

/-- Little-endian number of a byte list (R10). -/
def leNat : Bytes → Nat
  | [] => 0
  | b :: bs => b.toNat + 256 * leNat bs

/-- The `n` little-endian bytes of a number (R10). -/
def leBytes : Nat → Nat → Bytes
  | 0, _ => []
  | n + 1, x => BitVec.ofNat 8 x :: leBytes n (x / 256)

/-- Bits `lo` to `lo + w - 1` of a number. -/
def field (x lo w : Nat) : Nat := x / 2 ^ lo % 2 ^ w

/-- Addition that stops at `top` (a saturating counter). -/
def satAdd (top x n : Nat) : Nat := if x + n ≤ top then x + n else top

end Sys2Proof
end

