-- ==== Sys2Proof/Syntax.lean ====
section
/-! DEFINITION. The commands of the device: one constructor for each row of spec/opcode_table.json. -/

namespace Sys2Proof

/-- The commands: operations and events of the table, in the table's order. -/
inductive Instr where
  -- strand steps (R52–R63): strand `g` executes its next schedule step
  | nop (g : StrandId)
  | eval (g : StrandId)
  | evalLatch (g : StrandId)
  | stateRead (g : StrandId)
  | evalSend (g : StrandId)
  | evalPort (g : StrandId)
  | evalCheck (g : StrandId)
  | turnEnd (g : StrandId)
  -- turn unit
  | commit
  | prefixStart
  | prefixCancel
  | turnBoundary
  | outputRelease
  | turnOverrun
  | scrubStep (cord : CordId)
  | anchorLost
  | halt (v : Bool)
  | singleStep
  | relock
  | realign
  | slackRst
  -- ring network
  | bightDelivery (stn : StnId) (dir : BitVec 3) (pos : BitVec 6)
  | read (p : Packet)
  | write (p : Packet)
  | postedWrite (p : Packet)
  | stream (p : Packet)
  | respData (p : Packet) (edges : Nat)
  | respAck (p : Packet) (edges : Nat)
  | g32BwRead (n : BitVec 3)
  | prbClr (n : BitVec 6)
  | stationDrainEnd (stn : StnId)
  | tableSwap (stn : StnId)
  -- design memories and banks
  | portAccess (cord : CordId) (q : BitVec 2)
  | bankDelayedAccess (cord : CordId) (q : BitVec 2)
  | portReturn (cord : CordId) (q : BitVec 2)
  | deferredDataArrival (cord : CordId) (q : BitVec 2)
  | bnkOwnWrite (bank : BitVec 6) (master : MasterId) (value : W32)
  | handoverComplete (bank : BitVec 6)
  -- turn buffers and lane words
  | turnInputWrite (die : Bool) (port : BitVec 5) (cord : CordId) (word : BitVec 11) (data : W128)
  | turnOutputRead (die : Bool) (port : BitVec 5) (cord : CordId) (word : BitVec 11)
  | laneRxWord (lane : LaneId) (w : RxWord)
  | laneTxWord (lane : LaneId) (w : TxWord)
  -- lanes
  | laneEnable (lane : LaneId)
  | laneDisable (lane : LaneId)
  | laneShutdownDone (lane : LaneId)
  | txSrc (lane : LaneId) (v : BitVec 2)
  | neLpbk (lane : LaneId) (v : Bool)
  | feLpbk (lane : LaneId) (v : Bool)
  | laneLock (lane : LaneId) (stage : LaneStage) (skew : BitVec 7) (wireBit : BitVec 40) (ts : W64)
  | laneLockLoss (lane : LaneId) (stage : LaneStage)
  | calMicroStep (lane : LaneId) (sel : CalSel) (up : Bool)
  | calApply (lane : LaneId) (wireBit : BitVec 40) (ts : W64)
  | calPin (lane : LaneId) (v : BitVec 2)
  | eyeScanStart (lane : LaneId)
  | eyeScanAbort (lane : LaneId)
  | eyeScanPoint (lane : LaneId) (mismatches : Nat)
  | chkClr (lane : LaneId)
  -- time unit
  | todArm
  | todCancel
  | phaseGo
  | slewDone
  | timeFreq (v : W32)
  | ppsEdge (pin : Bool)
  | ppsLoss
  | timeRefLost
  | refQualified
  | txqPop (k : BitVec 6)
  | toutEnable (n : BitVec 4)
  | toutDisable (n : BitVec 4)
  | toutPulse (n : BitVec 4)
  | toutPulseEnd (n : BitVec 4)
  | timeMark
  -- capture: a channel, or with `set` every channel of a capture set
  | capArm (set : Bool) (n : BitVec 10)
  | capTrig (set : Bool) (n : BitVec 10)
  | capStop (set : Bool) (n : BitVec 10)
  | capBlockClose (n : BitVec 10) (why : CloseReason)
  | capBlockWrite (n : BitVec 10)
  -- trigger engine
  | seqStart (n : BitVec 3)
  | seqStop (n : BitVec 3)
  | knotTransition (seqs : BitVec 8) (inputs : BitVec 256)
  | thaw
  | trgSoft (v : BitVec 8)
  | clr (c : BitVec 6)
  -- pattern channels
  | patEnable (n : BitVec 10)
  | patDisable (n : BitVec 10)
  | patShutdownDone (n : BitVec 10)
  | patSrc (n : BitVec 10) (v : BitVec 2)
  | patGo (n : BitVec 10)
  | patSourceSwitch (n : BitVec 10)
  | patDescFetch (n : BitVec 10)
  | patSegmentEnd (n : BitVec 10)
  | patUnderrun (n : BitVec 10)
  -- action plane
  | queuePost (master : MasterId) (q : BitVec 14) (item : W128)
  | hpost (w3 : W32)
  | dispatch (die : Bool)
  | affinityWaitExpiry (f : BitVec 12)
  | actEnd (u : BitVec 6)
  | movi (u : BitVec 6)
  | add (u : BitVec 6)
  | logic (u : BitVec 6)
  | shift (u : BitVec 6)
  | fieldNode (u : BitVec 6)
  | cmp (u : BitVec 6)
  | test (u : BitVec 6)
  | hash (u : BitVec 6)
  | now (u : BitVec 6)
  | load (u : BitVec 6)
  | store (u : BitVec 6)
  | count (u : BitVec 6)
  | build (u : BitVec 6)
  | patch (u : BitVec 6)
  | fcs (u : BitVec 6)
  | tsreq (u : BitVec 6)
  | sendp (u : BitVec 6)
  | sendt (u : BitVec 6)
  | post (u : BitVec 6)
  | event (u : BitVec 6)
  | delay (u : BitVec 6)
  | cancel (u : BitVec 6)
  | mask (u : BitVec 6)
  | clrf (u : BitVec 6)
  | actOpComplete (u : BitVec 6)
  | delayTick (d : BitVec 2)
  | actFlSet (f : BitVec 12) (v : W32)
  -- resets and loads
  | porN (asserted : Bool)
  | warmN (asserted : Bool)
  | bootLoad (dir : Option Bytes) (hdr : CastHdr)
  | cfgLoad (entry : BitVec 6)
  | nvmError
  | sectionEnd (stored : Bytes)
  | dict (idx : BitVec 16) (frame : Bytes)
  | frameWrite (faddr : W32) (frame : Bytes)
  | repl (idx : BitVec 16) (faddr : W32) (count : W32) (stride : W32)
  | zeroFrames (faddr : W32) (count : W32)
  | recs (data : Bytes)
  | scriptWrite
  | scriptWait
  | scriptPoll
  | scriptPollTimeout
  | scriptCommit
  | scriptEnd
  | chainIn (hdr : CastHdr)
  | chainFail
  | fwdFail
  | partGo
  | partHold
  | regionIsolate
  | regionRelease
  | nvmRead
  | nvmWrite
  | nvmErase
  | nvmDone (ok : Bool) (data : Bytes)
  -- redundant pairs
  | hello (h : Hello)
  | pairFail
  | heartbeat (h : Heartbeat)
  | mirrorWord (turn : W64) (idx : BitVec 32) (data : W128)
  | writtenFlags (turn : W64) (flags : List Bool)
  | flowContextDelta (d : FlowDelta)
  | timeAdjustment (a : TimeAdj)
  | partnerTrigOut (j : BitVec 3)
  | partTurnNumbers (release : Bool) (turn : W64)
  | partnerLoss (why : LossCause)
  | promotionComplete
  | relinquish
  | linkEn (v : Bool)
  -- fault collector
  | faultFetch (srcs : List (BitVec 10)) (release : Bool)
  | wireFault (src : BitVec 10) (pair : WirePair)
  | graceExpiry
  | ack
  | release
  | fltInjGo
  | fltInjWire
  | thermSample (sensor : BitVec 4) (milliC : Int)
  | railFault (rail : BitVec 3)
  | brownout
  -- power
  | pwrGo (target : BitVec 3)
  | pwrFlagRequest (flag : BitVec 3)
  | stepClockStop
  | wake (src : BitVec 2)
  | pwrExitComplete
  | deepSleepReload (hdr : CastHdr) (stored : List Bytes)
  | domainGate (d : BitVec 7)
  | domainGated (d : BitVec 7)
  | domainEnable (d : BitVec 7)
  -- trace
  | traceRecord (r : TraceRec)
  | tracePacketWrite
  | traceEnable
  | traceDisable
  | traceFlush
  | traceIdleFlush
  -- DMA
  | dmaTail (e : BitVec 4) (v : W32)
  | dmaDescriptorDone (e : BitVec 4) (desc : Bytes)
  | dmaEnable (e : BitVec 4)
  | dmaDisable (e : BitVec 4)
  -- security unit, fuses, JTAG
  | attestGo
  | attestDone
  | rbAdvance (i : BitVec 4)
  | fuseProgram (ctl : W32)
  | fuseProgramDone (took : W32)
  | bypass
  | idcode
  | samplePreload (pins : List Bool) (preload : List Bool)
  | extest (pins : List Bool)
  | clamp
  | highz
  | privateInstruction (k : PrivateInstr)
  | boardId (shift : BitVec 33)
  | lifetime
  | lifetimeWrite (milliC : Int)
  -- pins and registers
  | pinCfg (n : BitVec 8) (v : W32)
  | pinLock (v : W32)
  | pinInput (p : PinId) (level : PinLevel)
  | registerWrite (master : MasterId) (addr : W32) (v : W32) (bytes : BitVec 3)
  | blockClockEdge (die : Bool) (clk : EdgeClk)
  | registerRead (master : MasterId) (addr : W32) (bytes : BitVec 3)
  | domainPowered (d : BitVec 7)
  | chkLock (lane : LaneId) (locked : Bool)
  | feSlip (lane : LaneId)
  | partVerifyDone (hdr : CastHdr)
  | chainRdyN (level : Bool)
  | wireBadEnd (src : BitVec 10) (pair : BitVec 2)
  | traceShutdownDone
  | calibratorUpdate (k : BitVec 3) (taps : BitVec 10)
  | trstN (asserted : Bool)
  | pciePerstN (asserted : Bool)
  deriving DecidableEq, Repr

end Sys2Proof
end

