-- ==== Sys2Proof/Config.lean ====
section
/-! DEFINITION. What the spec leaves open: free values, the layout of the cast's settings that the spec does not give byte by
byte, and the results of the cryptographic standards it names. -/

namespace Sys2Proof

/-! ### Settings of the edge fabric (R156–R180) -/

/-- A signal of a block's input pool (R157); of the post ports' READY, port numbers within the die. -/
inductive EdgeSrc where
  | zero
  | mcell (m : Nat)
  | row (line : Nat)
  | col (line : Nat)
  | bmem (portB : Bool) (bit : Nat)
  | lane (lane bit : Nat)
  | bridge (bit : Nat)
  | out (port bit : Nat)
  | rel
  | relTurn (bit : Nat)
  | win
  | ready (port : Nat)
  | io (pin : Nat) (second : Bool)
  deriving DecidableEq, Repr

/-- Register modes of a macrocell (R161). -/
inductive MacroMode where
  | comb | d | t | sync
  deriving DecidableEq, Repr

/-- A macrocell's settings (R159–R161, R168): bit i of `steer` sends term 5m + i to its special function. -/
structure MacroCfg where
  mode : MacroMode := .comb
  steer : BitVec 5 := 0
  pol : Bool := false
  borrow : Nat := 0
  lends : Bool := false
  init : Bool := false
  row : Option Nat := none
  col : Option Nat := none
  deriving DecidableEq, Repr

/-- What a block does (R158, R162, R163); a block of a wide multiplexer group knows the group's size and its place in it. The modes
of macrocells 0–3 of the group's first block tell which of its outputs are registered. -/
inductive BlockMode where
  | logic
  | mux (g place : Nat)
  | ram
  deriving DecidableEq, Repr

/-- A configured logic block: `terms` are the 320 product-term masks over the 192 columns (R158, R275). -/
structure BlockCfg where
  mode : BlockMode := .logic
  clk : EdgeClk := .core
  ins : List EdgeSrc := []
  terms : List (BitVec 192) := []
  macros : List MacroCfg := []
  ram : SMap W64 := []
  deriving DecidableEq, Repr

/-- Block memory shapes (R164). -/
inductive MemShape where
  | row | half | lane | triad | bit
  deriving DecidableEq, Repr

/-- Write modes (R165). -/
inductive WriteMode where
  | prior | pass | keep
  deriving DecidableEq, Repr

/-- A block memory port's settings and the signals that drive it. -/
structure MemPortCfg where
  clk : EdgeClk := .core
  shape : MemShape := .row
  wmode : WriteMode := .prior
  outReg : Bool := false
  addr : List EdgeSrc := []
  data : List EdgeSrc := []
  we : List EdgeSrc := []
  deriving DecidableEq, Repr

structure MemCfg where
  a : MemPortCfg := {}
  b : MemPortCfg := {}
  /-- memory 2m of a pair; memory 2m + 1 of it -/
  paired : Bool := false
  upper : Bool := false
  deriving DecidableEq, Repr

/-- The settings of a block's frames k = 2 and 3: the block's own and those of the block memory beside it. -/
structure BlockSettings where
  block : BlockCfg
  mem : Option MemCfg
  deriving DecidableEq, Repr

/-- An I/O cell's clock and the macrocells behind its output and enable registers (R179). -/
structure IoCfg where
  clk : EdgeClk := .core
  out0 : Option Nat := none
  out1 : Option Nat := none
  oe0 : Option Nat := none
  oe1 : Option Nat := none
  deriving DecidableEq, Repr

/-- An action post port: the macrocells that drive VALID and QUEUE (R177). -/
structure PostCfg where
  valid : Option Nat := none
  queue : List Nat := []
  deriving DecidableEq, Repr

/-- Die-wide settings (R275): bridge bits by direction × 256 + bit, event wires, I/O cells, post ports by die × 16 + port,
the buffer words (cord × 2048 + word) that the fabric fills (R22, R173), the macrocells that drive WE of the turn-input ports, by
die × 32 + port, and VALID of the transmit words, by lane (R182), and the declared core clock. -/
structure DieCfg where
  bridge : SMap Nat := []
  wires : SMap Nat := []
  ios : SMap IoCfg := []
  /-- EDG_IOC_n values of the cells -/
  iocs : SMap W32 := []
  posts : SMap PostCfg := []
  tin : List Nat := []
  tinWe : SMap Nat := []
  txValid : SMap Nat := []
  mhz : Option Nat := none
  deriving DecidableEq, Repr

/-! ### Settings of the record sections that the spec gives as fields, not as bytes (R251–R264, R273) -/

/-- A flow's context as the cast gives it (R255). -/
structure FlowCtx where
  flags : W32 := 0
  mask : W32 := 0
  prio : Nat := 0
  graph : Nat := 0
  entry : List Nat := []
  v : List W64 := []
  deriving DecidableEq, Repr

/-- One setting of an ACTION, CAPTURE, FAULT or SPLICE section. -/
inductive Setting where
  /-- a register takes its cast value at commit -/
  | reg (addr : Nat) (v : W32)
  | queue (q : Nat) (flow flag k base : Nat)
  | flow (f : Nat) (c : FlowCtx)
  | node (i : Nat) (w : W128)
  /-- a buffer word (cord × 2048 + word) that an action unit fills (R22) -/
  | tin (unit word : Nat)
  /-- the queue that an assertion event is posted to (R62, R253) -/
  | eventQueue (e q : Nat)
  /-- the channel is armed at commit (R285) -/
  | arm (channel : Nat)
  /-- the macrocell whose output is the KEEP bit of a filtered lane (R238) -/
  | keep (channel mcell : Nat)
  deriving DecidableEq, Repr

/-- A port of the PORT section (R122): cord, port, mode, window. -/
structure PortRec where
  cord : Nat
  port : Nat
  mode : Nat
  base : Nat
  size : Nat
  deriving DecidableEq, Repr

/-- The REGION section (R134, R139): uses of granules, and owners of banks with CORDS. -/
structure RegionCfg where
  uses : SMap Nat := []
  owners : SMap (Nat × Bool) := []
  deriving DecidableEq, Repr

namespace Config

/-- A value the spec leaves open: the `n`-th one drawn in a run. -/
opaque freeValue : Nat → (w : Nat) → BitVec w

/-- Phase of TRC_CLK against the time clock that it is divided from (R391). -/
opaque trcPhase : Bool

/-- SPEED and WIDTH of the trained host link (R372). -/
opaque hostLink : Nat

/-- Codes of the TAP instructions that the spec gives no code (R387, R414). -/
opaque tapCode : Nat → BitVec 8

/-- What stands in for a byte of the key stream where the cast's key has been cleared (R387), by draw and offset. -/
opaque noKey : Nat → Nat → Byte

/-- The settings in a block's frames k = 2 and k = 3: the spec names their content (R275) and not its places. -/
opaque edgeBlock : Bytes → Bytes → Option BlockSettings

/-- The settings in the die-wide frames, by frame number (R275). -/
opaque dieSettings : SMap Bytes → Option DieCfg

/-- The settings in the record data of an ACTION or CAPTURE section, one for each entry in their order; `none` is an entry that is not
well formed (R273, R282). -/
opaque sectionSettings : Nat → Bytes → List (Option Setting)

/-- The records of a PORT section in their order; `none` is one with a reserved mode or a non-zero reserved field (R123). -/
opaque portRecords : Bytes → List (Option PortRec)

/-- The content of a REGION section, or the index of the first entry that is not well formed. -/
opaque regionRecords : Bytes → Except Nat RegionCfg

/-- Where the pattern that a TSPT code selects starts in a word of a PCS option, in wire bits, from the data and CTLB of the word
before it, if that was valid, and of the word; past the word's wire bits where it holds none. The standards that R217 names
define it. -/
opaque startBit : (tspt pcs : Nat) → Option (W64 × BitVec 8) → W64 × BitVec 8 → BitVec 7

/-- SM3 (GB/T 32905); the digest's first byte is the least significant one of the number. -/
opaque sm3 : Bytes → BitVec 256

/-- SM2 verification (GB/T 32918): public key, signer ID, message, signature. -/
opaque sm2Verify : Bytes → Bytes → Bytes → Bytes → Bool

/-- SM4 decryption of one block under a key (GB/T 32907), first byte least significant. -/
opaque sm4Decrypt : W128 → W128 → W128

/-- SM4 encryption of one block under a key, likewise. -/
opaque sm4Encrypt : W128 → W128 → W128

/-- The SM2 signature (r then s) of a message under a private key and a signer ID; the first argument stands for the fresh
random value (GB/T 32918). -/
opaque sm2Sign : Nat → Bytes → Bytes → Bytes → Bytes

/-- The responder's side of the SM2 key exchange (GB/T 32918 Part 3) with a fresh ephemeral key: from its private key and ID and
the initiator's ID, static and ephemeral keys to R_B, S_B and the agreed key; none where a point is not on the curve. -/
opaque sm2Exchange : Nat → Bytes → Bytes → Bytes → Bytes → Bytes → Option (Bytes × Bytes × W128)

end Config

end Sys2Proof
end

