-- ==== Sys2Proof/Machine/Fields.lean ====
section
/-! DEFINITION. Names of the registers and of their fields: `R.<REGISTER>` is an address, `F.<REGISTER>_<FIELD>` a field in one
32-bit word, `W.<REGISTER>[_<FIELD>]` a value of several words (R11), all from the spec's register tables. -/

namespace Sys2Proof.Machine

/-- A field of one register word: the word's address, lowest bit, width. -/
structure Fld where
  addr : Nat
  lo : Nat
  w : Nat
  deriving DecidableEq, Repr

/-- A value over consecutive words (R11): lowest address, number of words, width in bits. -/
structure Wide where
  addr : Nat
  nw : Nat
  w : Nat
  deriving DecidableEq, Repr

abbrev R.HST_ID : Nat := 0
abbrev F.HST_ID_PART : Fld := ⟨0, 16, 16⟩
abbrev F.HST_ID_STEP : Fld := ⟨0, 8, 8⟩
abbrev R.CRD_STAT (i : Nat) : Nat := 0x1000000 + i * 0x20000
abbrev F.CRD_STAT_HALTED (i : Nat) : Fld := ⟨0x1000000 + i * 0x20000, 0, 1⟩
abbrev F.CRD_STAT_INSTR_CLOSED (i : Nat) : Fld := ⟨0x1000000 + i * 0x20000, 1, 1⟩
abbrev F.CRD_STAT_REGION_LOAD (i : Nat) : Fld := ⟨0x1000000 + i * 0x20000, 2, 1⟩
abbrev F.CRD_STAT_WIN_REFUSED (i : Nat) : Fld := ⟨0x1000000 + i * 0x20000, 3, 1⟩
abbrev F.CRD_STAT_UE_PRESENT (i : Nat) : Fld := ⟨0x1000000 + i * 0x20000, 4, 1⟩
abbrev R.CRD_WIN_SEL (i : Nat) : Nat := 0x1000004 + i * 0x20000
abbrev F.CRD_WIN_SEL_PLY (i : Nat) : Fld := ⟨0x1000004 + i * 0x20000, 0, 6⟩
abbrev F.CRD_WIN_SEL_STEP_BLK (i : Nat) : Fld := ⟨0x1000004 + i * 0x20000, 8, 3⟩
abbrev R.CRD_SCRUB (i : Nat) : Nat := 0x1000008 + i * 0x20000
abbrev F.CRD_SCRUB_PTR (i : Nat) : Fld := ⟨0x1000008 + i * 0x20000, 0, 12⟩
abbrev F.CRD_SCRUB_EN (i : Nat) : Fld := ⟨0x1000008 + i * 0x20000, 16, 1⟩
abbrev R.CRD_SCRUB_PASS (i : Nat) : Nat := 0x100000C + i * 0x20000
abbrev F.CRD_SCRUB_PASS_PASSES (i : Nat) : Fld := ⟨0x100000C + i * 0x20000, 0, 32⟩
abbrev R.CRD_CE_EXEC (i : Nat) : Nat := 0x1000010 + i * 0x20000
abbrev F.CRD_CE_EXEC_COUNT (i : Nat) : Fld := ⟨0x1000010 + i * 0x20000, 0, 32⟩
abbrev R.CRD_CE_SCRUB (i : Nat) : Nat := 0x1000014 + i * 0x20000
abbrev F.CRD_CE_SCRUB_COUNT (i : Nat) : Fld := ⟨0x1000014 + i * 0x20000, 0, 32⟩
abbrev R.CRD_UE_CNT (i : Nat) : Nat := 0x1000018 + i * 0x20000
abbrev F.CRD_UE_CNT_COUNT (i : Nat) : Fld := ⟨0x1000018 + i * 0x20000, 0, 32⟩
abbrev R.CRD_CE_LOC (i : Nat) : Nat := 0x100001C + i * 0x20000
abbrev F.CRD_CE_LOC_STRAND (i : Nat) : Fld := ⟨0x100001C + i * 0x20000, 0, 10⟩
abbrev F.CRD_CE_LOC_STEP (i : Nat) : Fld := ⟨0x100001C + i * 0x20000, 10, 12⟩
abbrev F.CRD_CE_LOC_SYNDROME (i : Nat) : Fld := ⟨0x100001C + i * 0x20000, 22, 8⟩
abbrev F.CRD_CE_LOC_SRC (i : Nat) : Fld := ⟨0x100001C + i * 0x20000, 30, 1⟩
abbrev F.CRD_CE_LOC_VALID (i : Nat) : Fld := ⟨0x100001C + i * 0x20000, 31, 1⟩
abbrev R.CRD_UE_LOC (i : Nat) : Nat := 0x1000020 + i * 0x20000
abbrev F.CRD_UE_LOC_STRAND (i : Nat) : Fld := ⟨0x1000020 + i * 0x20000, 0, 10⟩
abbrev F.CRD_UE_LOC_STEP (i : Nat) : Fld := ⟨0x1000020 + i * 0x20000, 10, 12⟩
abbrev F.CRD_UE_LOC_SYNDROME (i : Nat) : Fld := ⟨0x1000020 + i * 0x20000, 22, 8⟩
abbrev F.CRD_UE_LOC_SRC (i : Nat) : Fld := ⟨0x1000020 + i * 0x20000, 30, 1⟩
abbrev F.CRD_UE_LOC_VALID (i : Nat) : Fld := ⟨0x1000020 + i * 0x20000, 31, 1⟩
abbrev R.TURN_CTL : Nat := 0x100000
abbrev F.TURN_CTL_HALT : Fld := ⟨0x100000, 0, 1⟩
abbrev F.TURN_CTL_STEP : Fld := ⟨0x100000, 1, 1⟩
abbrev F.TURN_CTL_EARLY_EN : Fld := ⟨0x100000, 2, 1⟩
abbrev F.TURN_CTL_RELOCK : Fld := ⟨0x100000, 3, 1⟩
abbrev F.TURN_CTL_REALIGN : Fld := ⟨0x100000, 4, 1⟩
abbrev F.TURN_CTL_SLACK_RST : Fld := ⟨0x100000, 5, 1⟩
abbrev R.TURN_STAT : Nat := 0x100004
abbrev F.TURN_STAT_LOCK_WAIT : Fld := ⟨0x100004, 0, 1⟩
abbrev F.TURN_STAT_RUNNING : Fld := ⟨0x100004, 1, 1⟩
abbrev F.TURN_STAT_HELD : Fld := ⟨0x100004, 2, 1⟩
abbrev F.TURN_STAT_HALTED : Fld := ⟨0x100004, 3, 1⟩
abbrev F.TURN_STAT_STEPPING : Fld := ⟨0x100004, 4, 1⟩
abbrev F.TURN_STAT_FLYWHEEL : Fld := ⟨0x100004, 5, 1⟩
abbrev F.TURN_STAT_ANCHOR_FAST : Fld := ⟨0x100004, 6, 1⟩
abbrev F.TURN_STAT_OVERRUN : Fld := ⟨0x100004, 8, 1⟩
abbrev F.TURN_STAT_CANCELLED : Fld := ⟨0x100004, 9, 1⟩
abbrev F.TURN_STAT_RELOCKED : Fld := ⟨0x100004, 10, 1⟩
abbrev R.TURN_HOLD_SRC : Nat := 0x100008
abbrev F.TURN_HOLD_SRC_FREEZE : Fld := ⟨0x100008, 0, 1⟩
abbrev F.TURN_HOLD_SRC_SAFE : Fld := ⟨0x100008, 1, 1⟩
abbrev F.TURN_HOLD_SRC_SPLICE : Fld := ⟨0x100008, 2, 1⟩
abbrev F.TURN_HOLD_SRC_HALT : Fld := ⟨0x100008, 3, 1⟩
abbrev F.TURN_HOLD_SRC_PWR : Fld := ⟨0x100008, 4, 1⟩
abbrev F.TURN_HOLD_SRC_LOCK : Fld := ⟨0x100008, 5, 1⟩
abbrev F.TURN_HOLD_SRC_PART : Fld := ⟨0x100008, 6, 1⟩
abbrev R.TURN_CFG : Nat := 0x10000C
abbrev F.TURN_CFG_L : Fld := ⟨0x10000C, 0, 13⟩
abbrev F.TURN_CFG_E : Fld := ⟨0x10000C, 16, 13⟩
abbrev F.TURN_CFG_LOCK_SRC : Fld := ⟨0x10000C, 29, 1⟩
abbrev R.TURN_ANCHOR : Nat := 0x100010
abbrev F.TURN_ANCHOR_LANE : Fld := ⟨0x100010, 0, 10⟩
abbrev F.TURN_ANCHOR_PPM : Fld := ⟨0x100010, 16, 16⟩
abbrev R.TURN_SPAN : Nat := 0x100014
abbrev F.TURN_SPAN_VALUE : Fld := ⟨0x100014, 0, 32⟩
abbrev R.TURN_DOUT : Nat := 0x100018
abbrev F.TURN_DOUT_VALUE : Fld := ⟨0x100018, 0, 32⟩
abbrev R.TURN_PHASE : Nat := 0x10001C
abbrev F.TURN_PHASE_VALUE : Fld := ⟨0x10001C, 0, 32⟩
abbrev R.TURN_NUM : Nat := 0x100020
abbrev W.TURN_NUM_TURN : Wide := ⟨0x100020, 2, 64⟩
abbrev R.TURN_T0 : Nat := 0x100028
abbrev W.TURN_T0_T0 : Wide := ⟨0x100028, 3, 96⟩
abbrev R.TURN_LT_OFFSET : Nat := 0x100038
abbrev W.TURN_LT_OFFSET_OFFSET : Wide := ⟨0x100038, 2, 64⟩
abbrev R.TURN_SLIP : Nat := 0x100040
abbrev F.TURN_SLIP_COUNT : Fld := ⟨0x100040, 0, 32⟩
abbrev R.TURN_OVR_CNT : Nat := 0x100044
abbrev F.TURN_OVR_CNT_COUNT : Fld := ⟨0x100044, 0, 32⟩
abbrev R.TURN_CANCEL_CNT : Nat := 0x100048
abbrev F.TURN_CANCEL_CNT_COUNT : Fld := ⟨0x100048, 0, 32⟩
abbrev R.TURN_IN_DROP : Nat := 0x10004C
abbrev F.TURN_IN_DROP_COUNT : Fld := ⟨0x10004C, 0, 32⟩
abbrev R.TURN_SLACK_MIN : Nat := 0x100050
abbrev F.TURN_SLACK_MIN_MIN : Fld := ⟨0x100050, 0, 13⟩
abbrev R.TURN_BIN_DROP : Nat := 0x100054
abbrev F.TURN_BIN_DROP_COUNT : Fld := ⟨0x100054, 0, 32⟩
abbrev R.NOC_CTL : Nat := 0x90000
abbrev F.NOC_CTL_ADAPT : Fld := ⟨0x90000, 0, 1⟩
abbrev R.NOC_STAT : Nat := 0x90004
abbrev F.NOC_STAT_PROFILE : Fld := ⟨0x90004, 0, 1⟩
abbrev F.NOC_STAT_CLOSED : Fld := ⟨0x90004, 1, 1⟩
abbrev F.NOC_STAT_RECONF : Fld := ⟨0x90004, 2, 1⟩
abbrev R.NOC_ASLEEP_RESP : Nat := 0x90008
abbrev F.NOC_ASLEEP_RESP_COUNT : Fld := ⟨0x90008, 0, 32⟩
abbrev R.NOC_ASLEEP_DROP : Nat := 0x9000C
abbrev F.NOC_ASLEEP_DROP_COUNT : Fld := ⟨0x9000C, 0, 32⟩
abbrev R.NOC_REROUTE : Nat := 0x90010
abbrev F.NOC_REROUTE_COUNT : Fld := ⟨0x90010, 0, 32⟩
abbrev R.STN_STAT (i : Nat) : Nat := 0x1003000 + i * 0x20000
abbrev F.STN_STAT_ACTIVE (i : Nat) : Fld := ⟨0x1003000 + i * 0x20000, 0, 1⟩
abbrev F.STN_STAT_SWAP_PEND (i : Nat) : Fld := ⟨0x1003000 + i * 0x20000, 1, 1⟩
abbrev F.STN_STAT_CLOSED (i : Nat) : Fld := ⟨0x1003000 + i * 0x20000, 2, 1⟩
abbrev F.STN_STAT_DRAINING (i : Nat) : Fld := ⟨0x1003000 + i * 0x20000, 3, 1⟩
abbrev F.STN_STAT_ASLEEP (i : Nat) : Fld := ⟨0x1003000 + i * 0x20000, 4, 1⟩
abbrev R.STN_STRAY (i : Nat) : Nat := 0x1003004 + i * 0x20000
abbrev F.STN_STRAY_COUNT (i : Nat) : Fld := ⟨0x1003004 + i * 0x20000, 0, 32⟩
abbrev R.STN_COLL (i : Nat) : Nat := 0x1003008 + i * 0x20000
abbrev F.STN_COLL_COUNT (i : Nat) : Fld := ⟨0x1003008 + i * 0x20000, 0, 32⟩
abbrev R.ESTN_STAT (i : Nat) : Nat := 0x98000 + i * 0x100
abbrev F.ESTN_STAT_ACTIVE (i : Nat) : Fld := ⟨0x98000 + i * 0x100, 0, 1⟩
abbrev F.ESTN_STAT_SWAP_PEND (i : Nat) : Fld := ⟨0x98000 + i * 0x100, 1, 1⟩
abbrev F.ESTN_STAT_CLOSED (i : Nat) : Fld := ⟨0x98000 + i * 0x100, 2, 1⟩
abbrev F.ESTN_STAT_DRAINING (i : Nat) : Fld := ⟨0x98000 + i * 0x100, 3, 1⟩
abbrev F.ESTN_STAT_ASLEEP (i : Nat) : Fld := ⟨0x98000 + i * 0x100, 4, 1⟩
abbrev R.ESTN_STRAY (i : Nat) : Nat := 0x98004 + i * 0x100
abbrev F.ESTN_STRAY_COUNT (i : Nat) : Fld := ⟨0x98004 + i * 0x100, 0, 32⟩
abbrev R.NOC_PRB_CTL (i : Nat) : Nat := 0x91000 + i * 0x40
abbrev F.NOC_PRB_CTL_EN (i : Nat) : Fld := ⟨0x91000 + i * 0x40, 0, 1⟩
abbrev F.NOC_PRB_CTL_CLR (i : Nat) : Fld := ⟨0x91000 + i * 0x40, 1, 1⟩
abbrev F.NOC_PRB_CTL_MODE (i : Nat) : Fld := ⟨0x91000 + i * 0x40, 2, 2⟩
abbrev F.NOC_PRB_CTL_VNMASK (i : Nat) : Fld := ⟨0x91000 + i * 0x40, 4, 4⟩
abbrev F.NOC_PRB_CTL_SIDE (i : Nat) : Fld := ⟨0x91000 + i * 0x40, 8, 3⟩
abbrev F.NOC_PRB_CTL_STATION (i : Nat) : Fld := ⟨0x91000 + i * 0x40, 16, 8⟩
abbrev F.NOC_PRB_CTL_OPMASK (i : Nat) : Fld := ⟨0x91000 + i * 0x40, 24, 6⟩
abbrev R.NOC_PRB_ID (i : Nat) : Nat := 0x91004 + i * 0x40
abbrev F.NOC_PRB_ID_SRC (i : Nat) : Fld := ⟨0x91004 + i * 0x40, 0, 8⟩
abbrev F.NOC_PRB_ID_SRC_MASK (i : Nat) : Fld := ⟨0x91004 + i * 0x40, 8, 8⟩
abbrev F.NOC_PRB_ID_DST (i : Nat) : Fld := ⟨0x91004 + i * 0x40, 16, 8⟩
abbrev F.NOC_PRB_ID_DST_MASK (i : Nat) : Fld := ⟨0x91004 + i * 0x40, 24, 8⟩
abbrev R.NOC_PRB_ALO (i : Nat) : Nat := 0x91008 + i * 0x40
abbrev W.NOC_PRB_ALO_ADDR (i : Nat) : Wide := ⟨0x91008 + i * 0x40, 2, 48⟩
abbrev R.NOC_PRB_AHI (i : Nat) : Nat := 0x91010 + i * 0x40
abbrev W.NOC_PRB_AHI_ADDR (i : Nat) : Wide := ⟨0x91010 + i * 0x40, 2, 48⟩
abbrev R.NOC_PRB_POS (i : Nat) : Nat := 0x91018 + i * 0x40
abbrev F.NOC_PRB_POS_POS (i : Nat) : Fld := ⟨0x91018 + i * 0x40, 0, 6⟩
abbrev F.NOC_PRB_POS_ALL_POS (i : Nat) : Fld := ⟨0x91018 + i * 0x40, 6, 1⟩
abbrev R.NOC_PRB_CNT (i : Nat) : Nat := 0x91020 + i * 0x40
abbrev W.NOC_PRB_CNT_COUNT (i : Nat) : Wide := ⟨0x91020 + i * 0x40, 2, 64⟩
abbrev R.NOC_PRB_BYTES (i : Nat) : Nat := 0x91028 + i * 0x40
abbrev W.NOC_PRB_BYTES_COUNT (i : Nat) : Wide := ⟨0x91028 + i * 0x40, 2, 64⟩
abbrev R.G32_INIT (i : Nat) : Nat := 0x92000 + i * 0x80
abbrev F.G32_INIT_EN (i : Nat) : Fld := ⟨0x92000 + i * 0x80, 0, 1⟩
abbrev F.G32_INIT_ID (i : Nat) : Fld := ⟨0x92000 + i * 0x80, 8, 8⟩
abbrev F.G32_INIT_SHIFT (i : Nat) : Fld := ⟨0x92000 + i * 0x80, 16, 4⟩
abbrev R.G32_BW (i : Nat) : Nat := 0x92004 + i * 0x80
abbrev F.G32_BW_BYTES (i : Nat) : Fld := ⟨0x92004 + i * 0x80, 0, 32⟩
abbrev R.G32_HIST (i : Nat) (j : Nat) : Nat := 0x92010 + i * 0x80 + j * 4
abbrev F.G32_HIST_COUNT (i : Nat) (j : Nat) : Fld := ⟨0x92010 + i * 0x80 + j * 4, 0, 16⟩
abbrev R.DMP_CFG (i : Nat) (j : Nat) : Nat := 0x100C000 + i * 0x20000 + j * 0x40
abbrev F.DMP_CFG_MODE (i : Nat) (j : Nat) : Fld := ⟨0x100C000 + i * 0x20000 + j * 0x40, 0, 3⟩
abbrev R.DMP_BASE (i : Nat) (j : Nat) : Nat := 0x100C004 + i * 0x20000 + j * 0x40
abbrev W.DMP_BASE_BASE (i : Nat) (j : Nat) : Wide := ⟨0x100C004 + i * 0x20000 + j * 0x40, 2, 48⟩
abbrev R.DMP_SIZE (i : Nat) (j : Nat) : Nat := 0x100C00C + i * 0x20000 + j * 0x40
abbrev W.DMP_SIZE_SIZE (i : Nat) (j : Nat) : Wide := ⟨0x100C00C + i * 0x20000 + j * 0x40, 2, 36⟩
abbrev R.DMP_STAT (i : Nat) (j : Nat) : Nat := 0x100C014 + i * 0x20000 + j * 0x40
abbrev F.DMP_STAT_RD_OUT (i : Nat) (j : Nat) : Fld := ⟨0x100C014 + i * 0x20000 + j * 0x40, 0, 4⟩
abbrev F.DMP_STAT_DEF_PEND (i : Nat) (j : Nat) : Fld := ⟨0x100C014 + i * 0x20000 + j * 0x40, 4, 1⟩
abbrev F.DMP_STAT_LATE (i : Nat) (j : Nat) : Fld := ⟨0x100C014 + i * 0x20000 + j * 0x40, 5, 1⟩
abbrev F.DMP_STAT_WR_TURN (i : Nat) (j : Nat) : Fld := ⟨0x100C014 + i * 0x20000 + j * 0x40, 6, 6⟩
abbrev R.DMP_LATE_DROP (i : Nat) (j : Nat) : Nat := 0x100C018 + i * 0x20000 + j * 0x40
abbrev F.DMP_LATE_DROP_COUNT (i : Nat) (j : Nat) : Fld := ⟨0x100C018 + i * 0x20000 + j * 0x40, 0, 32⟩
abbrev R.DMP_RDATA (i : Nat) (j : Nat) : Nat := 0x100C020 + i * 0x20000 + j * 0x40
abbrev W.DMP_RDATA_DATA (i : Nat) (j : Nat) : Wide := ⟨0x100C020 + i * 0x20000 + j * 0x40, 4, 128⟩
abbrev R.BNK_OWN (i : Nat) : Nat := 0x3300000 + i * 0x10
abbrev F.BNK_OWN_OWNER (i : Nat) : Fld := ⟨0x3300000 + i * 0x10, 0, 8⟩
abbrev F.BNK_OWN_CORDS (i : Nat) : Fld := ⟨0x3300000 + i * 0x10, 8, 1⟩
abbrev R.BNK_STAT (i : Nat) : Nat := 0x3300004 + i * 0x10
abbrev F.BNK_STAT_STATE (i : Nat) : Fld := ⟨0x3300004 + i * 0x10, 0, 2⟩
abbrev F.BNK_STAT_REFUSED (i : Nat) : Fld := ⟨0x3300004 + i * 0x10, 2, 1⟩
abbrev F.BNK_STAT_NONOWN_CNT (i : Nat) : Fld := ⟨0x3300004 + i * 0x10, 8, 16⟩
abbrev F.BNK_STAT_REF_ID (i : Nat) : Fld := ⟨0x3300004 + i * 0x10, 24, 8⟩
abbrev R.BNK_PORT_DELAY (i : Nat) : Nat := 0x3300008 + i * 0x10
abbrev F.BNK_PORT_DELAY_COUNT (i : Nat) : Fld := ⟨0x3300008 + i * 0x10, 0, 32⟩
abbrev R.BNK_GRN (i : Nat) : Nat := 0x3301000 + i * 4
abbrev F.BNK_GRN_USE (i : Nat) : Fld := ⟨0x3301000 + i * 4, 0, 3⟩
abbrev R.BNK_DRAM_DENIED : Nat := 0x3301600
abbrev F.BNK_DRAM_DENIED_COUNT : Fld := ⟨0x3301600, 0, 32⟩
abbrev R.EDG_STAT : Nat := 0x3400000
abbrev F.EDG_STAT_RESET_HELD : Fld := ⟨0x3400000, 0, 1⟩
abbrev F.EDG_STAT_BRIDGE_UP : Fld := ⟨0x3400000, 1, 1⟩
abbrev F.EDG_STAT_CONT : Fld := ⟨0x3400000, 2, 1⟩
abbrev F.EDG_STAT_REGION_ISO : Fld := ⟨0x3400000, 3, 1⟩
abbrev R.EDG_CLK : Nat := 0x3400004
abbrev F.EDG_CLK_MHZ : Fld := ⟨0x3400004, 0, 10⟩
abbrev R.EDG_CONT_CNT : Nat := 0x3400008
abbrev F.EDG_CONT_CNT_COUNT : Fld := ⟨0x3400008, 0, 15⟩
abbrev R.EDG_CONT_LINE : Nat := 0x340000C
abbrev F.EDG_CONT_LINE_LINE : Fld := ⟨0x340000C, 0, 14⟩
abbrev F.EDG_CONT_LINE_VALID : Fld := ⟨0x340000C, 31, 1⟩
abbrev R.EDG_TIN_UNASSIGNED (i : Nat) : Nat := 0x3400010 + i * 4
abbrev F.EDG_TIN_UNASSIGNED_COUNT (i : Nat) : Fld := ⟨0x3400010 + i * 4, 0, 32⟩
abbrev R.EDG_TIN_STBY : Nat := 0x3400018
abbrev F.EDG_TIN_STBY_COUNT : Fld := ⟨0x3400018, 0, 32⟩
abbrev R.EDG_POST_STALL (i : Nat) : Nat := 0x3400020 + i * 4
abbrev F.EDG_POST_STALL_COUNT (i : Nat) : Fld := ⟨0x3400020 + i * 4, 0, 32⟩
abbrev R.EDG_BM_COLL (i : Nat) : Nat := 0x3400028 + i * 4
abbrev F.EDG_BM_COLL_COUNT (i : Nat) : Fld := ⟨0x3400028 + i * 4, 0, 32⟩
abbrev R.EDG_CAL (i : Nat) : Nat := 0x3400100 + i * 4
abbrev F.EDG_CAL_TAPS (i : Nat) : Fld := ⟨0x3400100 + i * 4, 0, 10⟩
abbrev F.EDG_CAL_LOCKED (i : Nat) : Fld := ⟨0x3400100 + i * 4, 16, 1⟩
abbrev R.EDG_IOC (i : Nat) : Nat := 0x3401000 + i * 4
abbrev F.EDG_IOC_IDLY (i : Nat) : Fld := ⟨0x3401000 + i * 4, 0, 9⟩
abbrev F.EDG_IOC_ODLY (i : Nat) : Fld := ⟨0x3401000 + i * 4, 9, 9⟩
abbrev F.EDG_IOC_IN_DDR (i : Nat) : Fld := ⟨0x3401000 + i * 4, 18, 1⟩
abbrev F.EDG_IOC_OUT_DDR (i : Nat) : Fld := ⟨0x3401000 + i * 4, 19, 1⟩
abbrev F.EDG_IOC_OE_DDR (i : Nat) : Fld := ⟨0x3401000 + i * 4, 20, 1⟩
abbrev R.LANE_CFG (i : Nat) : Nat := 0x2000000 + i * 0x2000
abbrev F.LANE_CFG_CONFIGURED (i : Nat) : Fld := ⟨0x2000000 + i * 0x2000, 0, 1⟩
abbrev F.LANE_CFG_MOD (i : Nat) : Fld := ⟨0x2000000 + i * 0x2000, 1, 1⟩
abbrev F.LANE_CFG_PCS (i : Nat) : Fld := ⟨0x2000000 + i * 0x2000, 2, 3⟩
abbrev F.LANE_CFG_PLL (i : Nat) : Fld := ⟨0x2000000 + i * 0x2000, 5, 1⟩
abbrev F.LANE_CFG_DSK_W (i : Nat) : Fld := ⟨0x2000000 + i * 0x2000, 6, 3⟩
abbrev F.LANE_CFG_DSK_FIRST (i : Nat) : Fld := ⟨0x2000000 + i * 0x2000, 9, 4⟩
abbrev F.LANE_CFG_OPT (i : Nat) : Fld := ⟨0x2000000 + i * 0x2000, 13, 5⟩
abbrev F.LANE_CFG_TSPT (i : Nat) : Fld := ⟨0x2000000 + i * 0x2000, 18, 2⟩
abbrev R.LANE_RATE (i : Nat) : Nat := 0x2000004 + i * 0x2000
abbrev F.LANE_RATE_KBPS (i : Nat) : Fld := ⟨0x2000004 + i * 0x2000, 0, 32⟩
abbrev R.LANE_CTL (i : Nat) : Nat := 0x2000008 + i * 0x2000
abbrev F.LANE_CTL_EN (i : Nat) : Fld := ⟨0x2000008 + i * 0x2000, 0, 1⟩
abbrev F.LANE_CTL_TX_SRC (i : Nat) : Fld := ⟨0x2000008 + i * 0x2000, 1, 2⟩
abbrev F.LANE_CTL_NE_LPBK (i : Nat) : Fld := ⟨0x2000008 + i * 0x2000, 3, 1⟩
abbrev F.LANE_CTL_FE_LPBK (i : Nat) : Fld := ⟨0x2000008 + i * 0x2000, 4, 1⟩
abbrev R.LANE_STAT (i : Nat) : Nat := 0x200000C + i * 0x2000
abbrev F.LANE_STAT_SIG_DET (i : Nat) : Fld := ⟨0x200000C + i * 0x2000, 0, 1⟩
abbrev F.LANE_STAT_CDR_LOCK (i : Nat) : Fld := ⟨0x200000C + i * 0x2000, 1, 1⟩
abbrev F.LANE_STAT_PCS_LOCK (i : Nat) : Fld := ⟨0x200000C + i * 0x2000, 2, 1⟩
abbrev F.LANE_STAT_FEC_LOCK (i : Nat) : Fld := ⟨0x200000C + i * 0x2000, 3, 1⟩
abbrev F.LANE_STAT_ALIGNED (i : Nat) : Fld := ⟨0x200000C + i * 0x2000, 4, 1⟩
abbrev F.LANE_STAT_SHUTTING (i : Nat) : Fld := ⟨0x200000C + i * 0x2000, 5, 1⟩
abbrev F.LANE_STAT_PENDING_ENABLE (i : Nat) : Fld := ⟨0x200000C + i * 0x2000, 6, 1⟩
abbrev F.LANE_STAT_CAL_POLICY_CONFLICT (i : Nat) : Fld := ⟨0x200000C + i * 0x2000, 7, 1⟩
abbrev F.LANE_STAT_LOS_SEEN (i : Nat) : Fld := ⟨0x200000C + i * 0x2000, 8, 1⟩
abbrev F.LANE_STAT_LOCK_LOST (i : Nat) : Fld := ⟨0x200000C + i * 0x2000, 9, 1⟩
abbrev F.LANE_STAT_DSK_FAIL (i : Nat) : Fld := ⟨0x200000C + i * 0x2000, 10, 1⟩
abbrev F.LANE_STAT_FE_SLIP (i : Nat) : Fld := ⟨0x200000C + i * 0x2000, 11, 1⟩
abbrev R.LANE_PRBS (i : Nat) : Nat := 0x2000010 + i * 0x2000
abbrev F.LANE_PRBS_GEN_POLY (i : Nat) : Fld := ⟨0x2000010 + i * 0x2000, 0, 3⟩
abbrev F.LANE_PRBS_GEN_INV (i : Nat) : Fld := ⟨0x2000010 + i * 0x2000, 3, 1⟩
abbrev F.LANE_PRBS_CHK_POLY (i : Nat) : Fld := ⟨0x2000010 + i * 0x2000, 4, 3⟩
abbrev F.LANE_PRBS_CHK_INV (i : Nat) : Fld := ⟨0x2000010 + i * 0x2000, 7, 1⟩
abbrev F.LANE_PRBS_CHK_LOCK (i : Nat) : Fld := ⟨0x2000010 + i * 0x2000, 8, 1⟩
abbrev F.LANE_PRBS_CHK_CLR (i : Nat) : Fld := ⟨0x2000010 + i * 0x2000, 9, 1⟩
abbrev R.LANE_PRBS_BITS (i : Nat) : Nat := 0x2000018 + i * 0x2000
abbrev W.LANE_PRBS_BITS_COUNT (i : Nat) : Wide := ⟨0x2000018 + i * 0x2000, 2, 64⟩
abbrev R.LANE_FEC_CW (i : Nat) : Nat := 0x2000020 + i * 0x2000
abbrev W.LANE_FEC_CW_COUNT (i : Nat) : Wide := ⟨0x2000020 + i * 0x2000, 2, 64⟩
abbrev R.LANE_PRBS_ERR (i : Nat) : Nat := 0x2000014 + i * 0x2000
abbrev F.LANE_PRBS_ERR_COUNT (i : Nat) : Fld := ⟨0x2000014 + i * 0x2000, 0, 32⟩
abbrev R.LANE_FEC_CORR (i : Nat) : Nat := 0x2000028 + i * 0x2000
abbrev F.LANE_FEC_CORR_COUNT (i : Nat) : Fld := ⟨0x2000028 + i * 0x2000, 0, 32⟩
abbrev R.LANE_FEC_UNCORR (i : Nat) : Nat := 0x200002C + i * 0x2000
abbrev F.LANE_FEC_UNCORR_COUNT (i : Nat) : Fld := ⟨0x200002C + i * 0x2000, 0, 32⟩
abbrev R.LANE_CODE_ERR (i : Nat) : Nat := 0x2000030 + i * 0x2000
abbrev F.LANE_CODE_ERR_COUNT (i : Nat) : Fld := ⟨0x2000030 + i * 0x2000, 0, 32⟩
abbrev R.LANE_CAL_MARKS (i : Nat) : Nat := 0x2000084 + i * 0x2000
abbrev F.LANE_CAL_MARKS_COUNT (i : Nat) : Fld := ⟨0x2000084 + i * 0x2000, 0, 32⟩
abbrev R.LANE_DSK (i : Nat) : Nat := 0x2000034 + i * 0x2000
abbrev F.LANE_DSK_LAG (i : Nat) : Fld := ⟨0x2000034 + i * 0x2000, 0, 6⟩
abbrev F.LANE_DSK_DELAY (i : Nat) : Fld := ⟨0x2000034 + i * 0x2000, 8, 7⟩
abbrev R.LANE_EQ_TX (i : Nat) : Nat := 0x2000040 + i * 0x2000
abbrev F.LANE_EQ_TX_FFE (i : Nat) : Fld := ⟨0x2000040 + i * 0x2000, 0, 32⟩
abbrev R.LANE_EQ_RX (i : Nat) : Nat := 0x2000044 + i * 0x2000
abbrev F.LANE_EQ_RX_CTLE (i : Nat) : Fld := ⟨0x2000044 + i * 0x2000, 0, 5⟩
abbrev F.LANE_EQ_RX_ENTRY (i : Nat) : Fld := ⟨0x2000044 + i * 0x2000, 16, 16⟩
abbrev R.LANE_EQ_DFE (i : Nat) (j : Nat) : Nat := 0x2000048 + i * 0x2000 + j * 4
abbrev F.LANE_EQ_DFE_TAPS (i : Nat) (j : Nat) : Fld := ⟨0x2000048 + i * 0x2000 + j * 4, 0, 32⟩
abbrev R.LANE_CAL_PIN (i : Nat) : Nat := 0x2000060 + i * 0x2000
abbrev F.LANE_CAL_PIN_PIN_OFS (i : Nat) : Fld := ⟨0x2000060 + i * 0x2000, 0, 1⟩
abbrev F.LANE_CAL_PIN_PIN_THR (i : Nat) : Fld := ⟨0x2000060 + i * 0x2000, 1, 1⟩
abbrev R.LANE_CAL_OFS (i : Nat) : Nat := 0x2000064 + i * 0x2000
abbrev F.LANE_CAL_OFS_OFS_0 (i : Nat) : Fld := ⟨0x2000064 + i * 0x2000, 0, 7⟩
abbrev F.LANE_CAL_OFS_OFS_1 (i : Nat) : Fld := ⟨0x2000064 + i * 0x2000, 8, 7⟩
abbrev F.LANE_CAL_OFS_OFS_2 (i : Nat) : Fld := ⟨0x2000064 + i * 0x2000, 16, 7⟩
abbrev R.LANE_CAL_SH_OFS (i : Nat) : Nat := 0x200006C + i * 0x2000
abbrev F.LANE_CAL_SH_OFS_OFS_0 (i : Nat) : Fld := ⟨0x200006C + i * 0x2000, 0, 7⟩
abbrev F.LANE_CAL_SH_OFS_OFS_1 (i : Nat) : Fld := ⟨0x200006C + i * 0x2000, 8, 7⟩
abbrev F.LANE_CAL_SH_OFS_OFS_2 (i : Nat) : Fld := ⟨0x200006C + i * 0x2000, 16, 7⟩
abbrev R.LANE_CAL_AP_OFS (i : Nat) : Nat := 0x2000074 + i * 0x2000
abbrev F.LANE_CAL_AP_OFS_OFS_0 (i : Nat) : Fld := ⟨0x2000074 + i * 0x2000, 0, 7⟩
abbrev F.LANE_CAL_AP_OFS_OFS_1 (i : Nat) : Fld := ⟨0x2000074 + i * 0x2000, 8, 7⟩
abbrev F.LANE_CAL_AP_OFS_OFS_2 (i : Nat) : Fld := ⟨0x2000074 + i * 0x2000, 16, 7⟩
abbrev R.LANE_CAL_THR (i : Nat) : Nat := 0x2000068 + i * 0x2000
abbrev F.LANE_CAL_THR_THR_0 (i : Nat) : Fld := ⟨0x2000068 + i * 0x2000, 0, 8⟩
abbrev F.LANE_CAL_THR_THR_2 (i : Nat) : Fld := ⟨0x2000068 + i * 0x2000, 8, 8⟩
abbrev R.LANE_CAL_SH_THR (i : Nat) : Nat := 0x2000070 + i * 0x2000
abbrev F.LANE_CAL_SH_THR_THR_0 (i : Nat) : Fld := ⟨0x2000070 + i * 0x2000, 0, 8⟩
abbrev F.LANE_CAL_SH_THR_THR_2 (i : Nat) : Fld := ⟨0x2000070 + i * 0x2000, 8, 8⟩
abbrev R.LANE_CAL_AP_THR (i : Nat) : Nat := 0x2000078 + i * 0x2000
abbrev F.LANE_CAL_AP_THR_THR_0 (i : Nat) : Fld := ⟨0x2000078 + i * 0x2000, 0, 8⟩
abbrev F.LANE_CAL_AP_THR_THR_2 (i : Nat) : Fld := ⟨0x2000078 + i * 0x2000, 8, 8⟩
abbrev R.LANE_CAL_LIMIT (i : Nat) : Nat := 0x200007C + i * 0x2000
abbrev F.LANE_CAL_LIMIT_OFS_LIM (i : Nat) : Fld := ⟨0x200007C + i * 0x2000, 0, 7⟩
abbrev F.LANE_CAL_LIMIT_THR_LIM (i : Nat) : Fld := ⟨0x200007C + i * 0x2000, 8, 8⟩
abbrev R.LANE_CAL_DIST (i : Nat) : Nat := 0x2000080 + i * 0x2000
abbrev F.LANE_CAL_DIST_OFS (i : Nat) : Fld := ⟨0x2000080 + i * 0x2000, 0, 7⟩
abbrev F.LANE_CAL_DIST_THR (i : Nat) : Fld := ⟨0x2000080 + i * 0x2000, 8, 8⟩
abbrev R.LANE_RXLAT_GB (i : Nat) : Nat := 0x2000090 + i * 0x2000
abbrev F.LANE_RXLAT_GB_TERM (i : Nat) : Fld := ⟨0x2000090 + i * 0x2000, 0, 32⟩
abbrev R.LANE_RXLAT_CDR (i : Nat) : Nat := 0x2000094 + i * 0x2000
abbrev F.LANE_RXLAT_CDR_TERM (i : Nat) : Fld := ⟨0x2000094 + i * 0x2000, 0, 32⟩
abbrev R.LANE_ES_CTL (i : Nat) : Nat := 0x20000A0 + i * 0x2000
abbrev F.LANE_ES_CTL_START (i : Nat) : Fld := ⟨0x20000A0 + i * 0x2000, 0, 1⟩
abbrev F.LANE_ES_CTL_ABORT (i : Nat) : Fld := ⟨0x20000A0 + i * 0x2000, 1, 1⟩
abbrev F.LANE_ES_CTL_EYE (i : Nat) : Fld := ⟨0x20000A0 + i * 0x2000, 2, 2⟩
abbrev F.LANE_ES_CTL_STRIDE (i : Nat) : Fld := ⟨0x20000A0 + i * 0x2000, 4, 2⟩
abbrev F.LANE_ES_CTL_V_START (i : Nat) : Fld := ⟨0x20000A0 + i * 0x2000, 8, 8⟩
abbrev F.LANE_ES_CTL_DWELL (i : Nat) : Fld := ⟨0x20000A0 + i * 0x2000, 16, 5⟩
abbrev R.LANE_ES_STAT (i : Nat) : Nat := 0x20000A4 + i * 0x2000
abbrev F.LANE_ES_STAT_BUSY (i : Nat) : Fld := ⟨0x20000A4 + i * 0x2000, 0, 1⟩
abbrev F.LANE_ES_STAT_DONE (i : Nat) : Fld := ⟨0x20000A4 + i * 0x2000, 1, 1⟩
abbrev F.LANE_ES_STAT_ABORTED (i : Nat) : Fld := ⟨0x20000A4 + i * 0x2000, 2, 1⟩
abbrev F.LANE_ES_STAT_POINTS (i : Nat) : Fld := ⟨0x20000A4 + i * 0x2000, 3, 13⟩
abbrev F.LANE_ES_STAT_DISTURBED (i : Nat) : Fld := ⟨0x20000A4 + i * 0x2000, 16, 12⟩
abbrev R.TIME_CTL : Nat := 0x30000
abbrev F.TIME_CTL_REF_FREQ : Fld := ⟨0x30000, 0, 2⟩
abbrev F.TIME_CTL_PPS_SRC : Fld := ⟨0x30000, 2, 1⟩
abbrev F.TIME_CTL_TOD_ARM : Fld := ⟨0x30000, 3, 1⟩
abbrev F.TIME_CTL_TOD_CANCEL : Fld := ⟨0x30000, 4, 1⟩
abbrev F.TIME_CTL_PHASE_GO : Fld := ⟨0x30000, 5, 1⟩
abbrev F.TIME_CTL_PHASE_MODE : Fld := ⟨0x30000, 6, 1⟩
abbrev R.TIME_STAT : Nat := 0x30004
abbrev F.TIME_STAT_REF_OK : Fld := ⟨0x30004, 0, 1⟩
abbrev F.TIME_STAT_REF_LOSS : Fld := ⟨0x30004, 1, 1⟩
abbrev F.TIME_STAT_PPS_OK : Fld := ⟨0x30004, 2, 1⟩
abbrev F.TIME_STAT_PPS_LOSS : Fld := ⟨0x30004, 3, 1⟩
abbrev F.TIME_STAT_TOD_ARMED : Fld := ⟨0x30004, 4, 1⟩
abbrev F.TIME_STAT_TOD_DONE : Fld := ⟨0x30004, 5, 1⟩
abbrev F.TIME_STAT_TOD_BAD : Fld := ⟨0x30004, 6, 1⟩
abbrev F.TIME_STAT_PHASE_BUSY : Fld := ⟨0x30004, 7, 1⟩
abbrev F.TIME_STAT_PHASE_DISCARDED : Fld := ⟨0x30004, 8, 1⟩
abbrev F.TIME_STAT_FREQ_CLAMP : Fld := ⟨0x30004, 9, 1⟩
abbrev R.TIME_FREQ : Nat := 0x30008
abbrev F.TIME_FREQ_FREQ : Fld := ⟨0x30008, 0, 32⟩
abbrev R.TIME_STEP_CNT : Nat := 0x3000C
abbrev F.TIME_STEP_CNT_COUNT : Fld := ⟨0x3000C, 0, 32⟩
abbrev R.TIME_PPS_CNT : Nat := 0x3004C
abbrev F.TIME_PPS_CNT_COUNT : Fld := ⟨0x3004C, 0, 32⟩
abbrev R.TIME_NOW : Nat := 0x30010
abbrev W.TIME_NOW_TIME : Wide := ⟨0x30010, 3, 96⟩
abbrev R.TIME_TOD : Nat := 0x30020
abbrev W.TIME_TOD_TIME : Wide := ⟨0x30020, 3, 96⟩
abbrev R.TIME_PPS_CAP : Nat := 0x30040
abbrev W.TIME_PPS_CAP_TIME : Wide := ⟨0x30040, 3, 96⟩
abbrev R.TIME_PHASE : Nat := 0x30030
abbrev W.TIME_PHASE_P : Wide := ⟨0x30030, 2, 64⟩
abbrev R.TIME_PPS_DLY : Nat := 0x30050
abbrev F.TIME_PPS_DLY_DLY : Fld := ⟨0x30050, 0, 24⟩
abbrev R.TXQ_ENT (i : Nat) : Nat := 0x31000 + i * 0x20
abbrev F.TXQ_ENT_TAG (i : Nat) : Fld := ⟨0x31000 + i * 0x20, 0, 16⟩
abbrev F.TXQ_ENT_LANE (i : Nat) : Fld := ⟨0x31000 + i * 0x20, 16, 10⟩
abbrev F.TXQ_ENT_NOSTART (i : Nat) : Fld := ⟨0x31000 + i * 0x20, 26, 1⟩
abbrev F.TXQ_ENT_VALID (i : Nat) : Fld := ⟨0x31000 + i * 0x20, 31, 1⟩
abbrev W.TXQ_ENT_TS (i : Nat) : Wide := ⟨0x31000 + i * 0x20 + 4, 3, 96⟩
abbrev R.TXQ_STAT (i : Nat) : Nat := 0x31010 + i * 0x20
abbrev F.TXQ_STAT_LEVEL (i : Nat) : Fld := ⟨0x31010 + i * 0x20, 0, 6⟩
abbrev F.TXQ_STAT_OVF (i : Nat) : Fld := ⟨0x31010 + i * 0x20, 6, 1⟩
abbrev R.TXQ_DROP (i : Nat) : Nat := 0x31014 + i * 0x20
abbrev F.TXQ_DROP_COUNT (i : Nat) : Fld := ⟨0x31014 + i * 0x20, 0, 32⟩
abbrev R.TOUT_CTL (i : Nat) : Nat := 0x32000 + i * 0x20
abbrev F.TOUT_CTL_EN (i : Nat) : Fld := ⟨0x32000 + i * 0x20, 0, 1⟩
abbrev F.TOUT_CTL_MODE (i : Nat) : Fld := ⟨0x32000 + i * 0x20, 1, 1⟩
abbrev F.TOUT_CTL_POL (i : Nat) : Fld := ⟨0x32000 + i * 0x20, 2, 1⟩
abbrev F.TOUT_CTL_PENDING_ENABLE (i : Nat) : Fld := ⟨0x32000 + i * 0x20, 3, 1⟩
abbrev F.TOUT_CTL_LATE (i : Nat) : Fld := ⟨0x32000 + i * 0x20, 4, 1⟩
abbrev F.TOUT_CTL_DONE (i : Nat) : Fld := ⟨0x32000 + i * 0x20, 5, 1⟩
abbrev F.TOUT_CTL_BADCFG (i : Nat) : Fld := ⟨0x32000 + i * 0x20, 6, 1⟩
abbrev R.TOUT_START (i : Nat) : Nat := 0x32004 + i * 0x20
abbrev W.TOUT_START_START (i : Nat) : Wide := ⟨0x32004 + i * 0x20, 2, 64⟩
abbrev R.TOUT_PERIOD (i : Nat) : Nat := 0x3200C + i * 0x20
abbrev W.TOUT_PERIOD_PERIOD (i : Nat) : Wide := ⟨0x3200C + i * 0x20, 2, 48⟩
abbrev R.TOUT_WIDTH (i : Nat) : Nat := 0x32014 + i * 0x20
abbrev F.TOUT_WIDTH_WIDTH (i : Nat) : Fld := ⟨0x32014 + i * 0x20, 0, 32⟩
abbrev R.TRG_CTL : Nat := 0x3000000
abbrev F.TRG_CTL_THAW : Fld := ⟨0x3000000, 0, 1⟩
abbrev R.TRG_STAT : Nat := 0x3000004
abbrev F.TRG_STAT_FROZEN : Fld := ⟨0x3000004, 0, 1⟩
abbrev F.TRG_STAT_CONFLICT : Fld := ⟨0x3000004, 1, 1⟩
abbrev F.TRG_STAT_POST_REFUSED : Fld := ⟨0x3000004, 2, 1⟩
abbrev R.TRG_SOFT : Nat := 0x3000008
abbrev F.TRG_SOFT_PULSE : Fld := ⟨0x3000008, 0, 8⟩
abbrev R.CAP_SET (i : Nat) : Nat := 0x3000100 + i * 4
abbrev F.CAP_SET_ARM (i : Nat) : Fld := ⟨0x3000100 + i * 4, 0, 1⟩
abbrev F.CAP_SET_TRIG (i : Nat) : Fld := ⟨0x3000100 + i * 4, 1, 1⟩
abbrev F.CAP_SET_STOP (i : Nat) : Fld := ⟨0x3000100 + i * 4, 2, 1⟩
abbrev R.TRG_TOUT_CFG (i : Nat) : Nat := 0x3000200 + i * 4
abbrev F.TRG_TOUT_CFG_WIDTH (i : Nat) : Fld := ⟨0x3000200 + i * 4, 0, 16⟩
abbrev F.TRG_TOUT_CFG_POL (i : Nat) : Fld := ⟨0x3000200 + i * 4, 16, 1⟩
abbrev R.TRG_SEQ_CTL (i : Nat) : Nat := 0x3001000 + i * 0x200
abbrev F.TRG_SEQ_CTL_EN (i : Nat) : Fld := ⟨0x3001000 + i * 0x200, 0, 1⟩
abbrev F.TRG_SEQ_CTL_START (i : Nat) : Fld := ⟨0x3001000 + i * 0x200, 1, 1⟩
abbrev F.TRG_SEQ_CTL_STOP (i : Nat) : Fld := ⟨0x3001000 + i * 0x200, 2, 1⟩
abbrev R.TRG_SEQ_STAT (i : Nat) : Nat := 0x3001004 + i * 0x200
abbrev F.TRG_SEQ_STAT_KNOT (i : Nat) : Fld := ⟨0x3001004 + i * 0x200, 0, 4⟩
abbrev F.TRG_SEQ_STAT_RUNNING (i : Nat) : Fld := ⟨0x3001004 + i * 0x200, 4, 1⟩
abbrev F.TRG_SEQ_STAT_ENDED (i : Nat) : Fld := ⟨0x3001004 + i * 0x200, 5, 1⟩
abbrev R.TRG_KNOT (i : Nat) (j : Nat) : Nat := 0x3001100 + i * 0x200 + j * 0x10
abbrev F.TRG_KNOT_EV_A (i : Nat) (j : Nat) : Fld := ⟨0x3001100 + i * 0x200 + j * 0x10, 0, 8⟩
abbrev F.TRG_KNOT_EV_B (i : Nat) (j : Nat) : Fld := ⟨0x3001100 + i * 0x200 + j * 0x10, 8, 8⟩
abbrev F.TRG_KNOT_EV_C (i : Nat) (j : Nat) : Fld := ⟨0x3001100 + i * 0x200 + j * 0x10, 16, 8⟩
abbrev F.TRG_KNOT_EV_D (i : Nat) (j : Nat) : Fld := ⟨0x3001100 + i * 0x200 + j * 0x10, 24, 8⟩
abbrev F.TRG_KNOT_TERM_EN (i : Nat) (j : Nat) : Fld := ⟨0x3001100 + i * 0x200 + j * 0x10 + 4, 0, 4⟩
abbrev F.TRG_KNOT_INV (i : Nat) (j : Nat) : Fld := ⟨0x3001100 + i * 0x200 + j * 0x10 + 4, 4, 4⟩
abbrev F.TRG_KNOT_CNT (i : Nat) (j : Nat) : Fld := ⟨0x3001100 + i * 0x200 + j * 0x10 + 4, 8, 6⟩
abbrev F.TRG_KNOT_CNT_EN (i : Nat) (j : Nat) : Fld := ⟨0x3001100 + i * 0x200 + j * 0x10 + 4, 14, 1⟩
abbrev F.TRG_KNOT_OP (i : Nat) (j : Nat) : Fld := ⟨0x3001100 + i * 0x200 + j * 0x10 + 4, 15, 1⟩
abbrev F.TRG_KNOT_NEXT (i : Nat) (j : Nat) : Fld := ⟨0x3001100 + i * 0x200 + j * 0x10 + 4, 16, 4⟩
abbrev F.TRG_KNOT_CNT_RST (i : Nat) (j : Nat) : Fld := ⟨0x3001100 + i * 0x200 + j * 0x10 + 4, 20, 1⟩
abbrev F.TRG_KNOT_END (i : Nat) (j : Nat) : Fld := ⟨0x3001100 + i * 0x200 + j * 0x10 + 4, 21, 1⟩
abbrev F.TRG_KNOT_CAP (i : Nat) (j : Nat) : Fld := ⟨0x3001100 + i * 0x200 + j * 0x10 + 8, 0, 1⟩
abbrev F.TRG_KNOT_CAP_SET (i : Nat) (j : Nat) : Fld := ⟨0x3001100 + i * 0x200 + j * 0x10 + 8, 1, 4⟩
abbrev F.TRG_KNOT_MARK (i : Nat) (j : Nat) : Fld := ⟨0x3001100 + i * 0x200 + j * 0x10 + 8, 5, 1⟩
abbrev F.TRG_KNOT_PAT_OP (i : Nat) (j : Nat) : Fld := ⟨0x3001100 + i * 0x200 + j * 0x10 + 8, 6, 2⟩
abbrev F.TRG_KNOT_PAT_SET (i : Nat) (j : Nat) : Fld := ⟨0x3001100 + i * 0x200 + j * 0x10 + 8, 8, 4⟩
abbrev F.TRG_KNOT_TOUT (i : Nat) (j : Nat) : Fld := ⟨0x3001100 + i * 0x200 + j * 0x10 + 8, 12, 1⟩
abbrev F.TRG_KNOT_TOUT_SEL (i : Nat) (j : Nat) : Fld := ⟨0x3001100 + i * 0x200 + j * 0x10 + 8, 13, 3⟩
abbrev F.TRG_KNOT_FREEZE (i : Nat) (j : Nat) : Fld := ⟨0x3001100 + i * 0x200 + j * 0x10 + 8, 16, 1⟩
abbrev F.TRG_KNOT_THAW (i : Nat) (j : Nat) : Fld := ⟨0x3001100 + i * 0x200 + j * 0x10 + 8, 17, 1⟩
abbrev F.TRG_KNOT_FLAG (i : Nat) (j : Nat) : Fld := ⟨0x3001100 + i * 0x200 + j * 0x10 + 8, 18, 1⟩
abbrev F.TRG_KNOT_POST (i : Nat) (j : Nat) : Fld := ⟨0x3001100 + i * 0x200 + j * 0x10 + 8, 19, 1⟩
abbrev F.TRG_KNOT_QUEUE (i : Nat) (j : Nat) : Fld := ⟨0x3001100 + i * 0x200 + j * 0x10 + 0xC, 0, 14⟩
abbrev F.TRG_KNOT_MARK_CODE (i : Nat) (j : Nat) : Fld := ⟨0x3001100 + i * 0x200 + j * 0x10 + 0xC, 16, 16⟩
abbrev R.TRG_CNT_CFG (i : Nat) : Nat := 0x3002000 + i * 0x10
abbrev F.TRG_CNT_CFG_INPUT (i : Nat) : Fld := ⟨0x3002000 + i * 0x10, 0, 8⟩
abbrev F.TRG_CNT_CFG_MODE (i : Nat) : Fld := ⟨0x3002000 + i * 0x10, 8, 1⟩
abbrev F.TRG_CNT_CFG_EDGE (i : Nat) : Fld := ⟨0x3002000 + i * 0x10, 9, 1⟩
abbrev F.TRG_CNT_CFG_CLR (i : Nat) : Fld := ⟨0x3002000 + i * 0x10, 10, 1⟩
abbrev R.TRG_CNT_VAL (i : Nat) : Nat := 0x3002004 + i * 0x10
abbrev F.TRG_CNT_VAL_VAL (i : Nat) : Fld := ⟨0x3002004 + i * 0x10, 0, 32⟩
abbrev R.TRG_CNT_CMP (i : Nat) : Nat := 0x3002008 + i * 0x10
abbrev F.TRG_CNT_CMP_CMP (i : Nat) : Fld := ⟨0x3002008 + i * 0x10, 0, 32⟩
abbrev R.TRG_LAGG (i : Nat) : Nat := 0x3003000 + i * 4
abbrev F.TRG_LAGG_FIRST (i : Nat) : Fld := ⟨0x3003000 + i * 4, 0, 10⟩
abbrev F.TRG_LAGG_LAST (i : Nat) : Fld := ⟨0x3003000 + i * 4, 10, 10⟩
abbrev F.TRG_LAGG_COND (i : Nat) : Fld := ⟨0x3003000 + i * 4, 20, 3⟩
abbrev R.TRG_AEMAP (i : Nat) : Nat := 0x3004000 + i * 4
abbrev F.TRG_AEMAP_INPUT (i : Nat) : Fld := ⟨0x3004000 + i * 4, 0, 5⟩
abbrev F.TRG_AEMAP_EN (i : Nat) : Fld := ⟨0x3004000 + i * 4, 5, 1⟩
abbrev R.CAP_CFG (i : Nat) : Nat := 0x3010000 + i * 0x40
abbrev F.CAP_CFG_POINT (i : Nat) : Fld := ⟨0x3010000 + i * 0x40, 0, 1⟩
abbrev F.CAP_CFG_SET (i : Nat) : Fld := ⟨0x3010000 + i * 0x40, 1, 4⟩
abbrev F.CAP_CFG_FILTER (i : Nat) : Fld := ⟨0x3010000 + i * 0x40, 5, 1⟩
abbrev F.CAP_CFG_FILT_DLY (i : Nat) : Fld := ⟨0x3010000 + i * 0x40, 6, 4⟩
abbrev R.CAP_CTL (i : Nat) : Nat := 0x3010004 + i * 0x40
abbrev F.CAP_CTL_ARM (i : Nat) : Fld := ⟨0x3010004 + i * 0x40, 0, 1⟩
abbrev F.CAP_CTL_TRIG (i : Nat) : Fld := ⟨0x3010004 + i * 0x40, 1, 1⟩
abbrev F.CAP_CTL_STOP (i : Nat) : Fld := ⟨0x3010004 + i * 0x40, 2, 1⟩
abbrev R.CAP_STAT (i : Nat) : Nat := 0x3010008 + i * 0x40
abbrev F.CAP_STAT_STATE (i : Nat) : Fld := ⟨0x3010008 + i * 0x40, 0, 3⟩
abbrev F.CAP_STAT_WRAPPED (i : Nat) : Fld := ⟨0x3010008 + i * 0x40, 3, 1⟩
abbrev F.CAP_STAT_PENDING_ENABLE (i : Nat) : Fld := ⟨0x3010008 + i * 0x40, 4, 1⟩
abbrev F.CAP_STAT_BADRING (i : Nat) : Fld := ⟨0x3010008 + i * 0x40, 5, 1⟩
abbrev R.CAP_BASE (i : Nat) : Nat := 0x301000C + i * 0x40
abbrev W.CAP_BASE_BASE (i : Nat) : Wide := ⟨0x301000C + i * 0x40, 2, 48⟩
abbrev R.CAP_SIZE (i : Nat) : Nat := 0x3010014 + i * 0x40
abbrev F.CAP_SIZE_SIZE (i : Nat) : Fld := ⟨0x3010014 + i * 0x40, 0, 32⟩
abbrev R.CAP_POST (i : Nat) : Nat := 0x3010018 + i * 0x40
abbrev F.CAP_POST_POST (i : Nat) : Fld := ⟨0x3010018 + i * 0x40, 0, 32⟩
abbrev R.CAP_WPTR (i : Nat) : Nat := 0x301001C + i * 0x40
abbrev F.CAP_WPTR_WPTR (i : Nat) : Fld := ⟨0x301001C + i * 0x40, 0, 32⟩
abbrev R.CAP_TRIG_BLK (i : Nat) : Nat := 0x3010020 + i * 0x40
abbrev F.CAP_TRIG_BLK_BLK (i : Nat) : Fld := ⟨0x3010020 + i * 0x40, 0, 32⟩
abbrev R.CAP_TRIG_SLOT (i : Nat) : Nat := 0x3010024 + i * 0x40
abbrev F.CAP_TRIG_SLOT_SLOT (i : Nat) : Fld := ⟨0x3010024 + i * 0x40, 0, 6⟩
abbrev R.CAP_TRIG_TS (i : Nat) : Nat := 0x3010028 + i * 0x40
abbrev W.CAP_TRIG_TS_TS (i : Nat) : Wide := ⟨0x3010028 + i * 0x40, 2, 64⟩
abbrev R.CAP_BLKS (i : Nat) : Nat := 0x3010030 + i * 0x40
abbrev F.CAP_BLKS_COUNT (i : Nat) : Fld := ⟨0x3010030 + i * 0x40, 0, 32⟩
abbrev R.CAP_DROP (i : Nat) : Nat := 0x3010034 + i * 0x40
abbrev F.CAP_DROP_COUNT (i : Nat) : Fld := ⟨0x3010034 + i * 0x40, 0, 32⟩
abbrev R.CAP_SEQ (i : Nat) : Nat := 0x3010038 + i * 0x40
abbrev F.CAP_SEQ_SEQ (i : Nat) : Fld := ⟨0x3010038 + i * 0x40, 0, 20⟩
abbrev R.PAT_CFG (i : Nat) : Nat := 0x3100000 + i * 0x40
abbrev F.PAT_CFG_SET (i : Nat) : Fld := ⟨0x3100000 + i * 0x40, 0, 4⟩
abbrev F.PAT_CFG_ALT_SRC (i : Nat) : Fld := ⟨0x3100000 + i * 0x40, 4, 2⟩
abbrev R.PAT_CTL (i : Nat) : Nat := 0x3100004 + i * 0x40
abbrev F.PAT_CTL_EN (i : Nat) : Fld := ⟨0x3100004 + i * 0x40, 0, 1⟩
abbrev F.PAT_CTL_SRC (i : Nat) : Fld := ⟨0x3100004 + i * 0x40, 1, 2⟩
abbrev F.PAT_CTL_GO (i : Nat) : Fld := ⟨0x3100004 + i * 0x40, 3, 1⟩
abbrev R.PAT_STAT (i : Nat) : Nat := 0x3100008 + i * 0x40
abbrev F.PAT_STAT_ACT_SRC (i : Nat) : Fld := ⟨0x3100008 + i * 0x40, 0, 2⟩
abbrev F.PAT_STAT_SW_PEND (i : Nat) : Fld := ⟨0x3100008 + i * 0x40, 2, 1⟩
abbrev F.PAT_STAT_SHUTTING (i : Nat) : Fld := ⟨0x3100008 + i * 0x40, 3, 1⟩
abbrev F.PAT_STAT_PENDING_ENABLE (i : Nat) : Fld := ⟨0x3100008 + i * 0x40, 4, 1⟩
abbrev F.PAT_STAT_UNDERRUN (i : Nat) : Fld := ⟨0x3100008 + i * 0x40, 5, 1⟩
abbrev F.PAT_STAT_DESC_ERR (i : Nat) : Fld := ⟨0x3100008 + i * 0x40, 6, 1⟩
abbrev F.PAT_STAT_PROG_END (i : Nat) : Fld := ⟨0x3100008 + i * 0x40, 7, 1⟩
abbrev R.PAT_DESC_BASE (i : Nat) : Nat := 0x310000C + i * 0x40
abbrev W.PAT_DESC_BASE_BASE (i : Nat) : Wide := ⟨0x310000C + i * 0x40, 2, 48⟩
abbrev R.PAT_DESC (i : Nat) : Nat := 0x3100014 + i * 0x40
abbrev F.PAT_DESC_START (i : Nat) : Fld := ⟨0x3100014 + i * 0x40, 0, 16⟩
abbrev F.PAT_DESC_ALT (i : Nat) : Fld := ⟨0x3100014 + i * 0x40, 16, 16⟩
abbrev R.PAT_CUR (i : Nat) : Nat := 0x3100018 + i * 0x40
abbrev F.PAT_CUR_DESC (i : Nat) : Fld := ⟨0x3100018 + i * 0x40, 0, 16⟩
abbrev R.PAT_LOOP (i : Nat) : Nat := 0x310001C + i * 0x40
abbrev F.PAT_LOOP_LOOPS (i : Nat) : Fld := ⟨0x310001C + i * 0x40, 0, 32⟩
abbrev R.PAT_BLKS (i : Nat) : Nat := 0x3100020 + i * 0x40
abbrev W.PAT_BLKS_BLOCKS (i : Nat) : Wide := ⟨0x3100020 + i * 0x40, 2, 64⟩
abbrev R.PAT_UNDER (i : Nat) : Nat := 0x3100028 + i * 0x40
abbrev F.PAT_UNDER_COUNT (i : Nat) : Fld := ⟨0x3100028 + i * 0x40, 0, 32⟩
abbrev R.ACT_STAT : Nat := 0x3200000
abbrev F.ACT_STAT_INFLIGHT : Fld := ⟨0x3200000, 0, 12⟩
abbrev F.ACT_STAT_PEAK : Fld := ⟨0x3200000, 12, 12⟩
abbrev F.ACT_STAT_RUNNING : Fld := ⟨0x3200000, 24, 1⟩
abbrev R.ACT_HPOST_Q : Nat := 0x3200010
abbrev F.ACT_HPOST_Q_QUEUE : Fld := ⟨0x3200010, 0, 14⟩
abbrev R.ACT_HPOST_STAT : Nat := 0x3200014
abbrev F.ACT_HPOST_STAT_STATUS : Fld := ⟨0x3200014, 0, 2⟩
abbrev F.ACT_HPOST_STAT_DONE : Fld := ⟨0x3200014, 2, 1⟩
abbrev R.ACT_HPOST_ITEM : Nat := 0x3200020
abbrev W.ACT_HPOST_ITEM_ITEM : Wide := ⟨0x3200020, 4, 128⟩
abbrev R.ACT_AE_DROP : Nat := 0x3200030
abbrev F.ACT_AE_DROP_COUNT : Fld := ⟨0x3200030, 0, 32⟩
abbrev R.ACT_MOVE_CNT : Nat := 0x3200034
abbrev F.ACT_MOVE_CNT_COUNT : Fld := ⟨0x3200034, 0, 32⟩
abbrev R.ACT_BADQ : Nat := 0x3200038
abbrev F.ACT_BADQ_COUNT : Fld := ⟨0x3200038, 0, 32⟩
abbrev R.ACT_TIN_UNASSIGNED : Nat := 0x320003C
abbrev F.ACT_TIN_UNASSIGNED_COUNT : Fld := ⟨0x320003C, 0, 32⟩
abbrev R.ACT_DL_CFG (i : Nat) : Nat := 0x3200100 + i * 0x10
abbrev F.ACT_DL_CFG_TICK_NS (i : Nat) : Fld := ⟨0x3200100 + i * 0x10, 0, 20⟩
abbrev R.ACT_DL_STAT (i : Nat) : Nat := 0x3200104 + i * 0x10
abbrev F.ACT_DL_STAT_LEVEL (i : Nat) : Fld := ⟨0x3200104 + i * 0x10, 0, 13⟩
abbrev F.ACT_DL_STAT_FULL_SEEN (i : Nat) : Fld := ⟨0x3200104 + i * 0x10, 13, 1⟩
abbrev R.ACT_DL_NOW (i : Nat) : Nat := 0x3200108 + i * 0x10
abbrev F.ACT_DL_NOW_NOW (i : Nat) : Fld := ⟨0x3200108 + i * 0x10, 0, 32⟩
abbrev R.ACT_UNIT (i : Nat) : Nat := 0x3201000 + i * 4
abbrev F.ACT_UNIT_BUSY (i : Nat) : Fld := ⟨0x3201000 + i * 4, 0, 1⟩
abbrev F.ACT_UNIT_FLOW (i : Nat) : Fld := ⟨0x3201000 + i * 4, 1, 12⟩
abbrev F.ACT_UNIT_NODE (i : Nat) : Fld := ⟨0x3201000 + i * 4, 13, 6⟩
abbrev F.ACT_UNIT_SLOTS (i : Nat) : Fld := ⟨0x3201000 + i * 4, 19, 7⟩
abbrev R.ACT_Q_CFG (i : Nat) : Nat := 0x3210000 + i * 0x10
abbrev F.ACT_Q_CFG_EN (i : Nat) : Fld := ⟨0x3210000 + i * 0x10, 0, 1⟩
abbrev F.ACT_Q_CFG_FLOW (i : Nat) : Fld := ⟨0x3210000 + i * 0x10, 1, 12⟩
abbrev F.ACT_Q_CFG_FLAG (i : Nat) : Fld := ⟨0x3210000 + i * 0x10, 13, 5⟩
abbrev F.ACT_Q_CFG_K (i : Nat) : Fld := ⟨0x3210000 + i * 0x10, 18, 4⟩
abbrev R.ACT_Q_BASE (i : Nat) : Nat := 0x3210004 + i * 0x10
abbrev F.ACT_Q_BASE_BASE (i : Nat) : Fld := ⟨0x3210004 + i * 0x10, 0, 32⟩
abbrev R.ACT_Q_STAT (i : Nat) : Nat := 0x3210008 + i * 0x10
abbrev F.ACT_Q_STAT_LEVEL (i : Nat) : Fld := ⟨0x3210008 + i * 0x10, 0, 13⟩
abbrev R.ACT_Q_REFUSED (i : Nat) : Nat := 0x321000C + i * 0x10
abbrev F.ACT_Q_REFUSED_COUNT (i : Nat) : Fld := ⟨0x321000C + i * 0x10, 0, 32⟩
abbrev R.ACT_FL_FLAGS (i : Nat) : Nat := 0x3250000 + i * 0x20
abbrev F.ACT_FL_FLAGS_FLAGS (i : Nat) : Fld := ⟨0x3250000 + i * 0x20, 0, 32⟩
abbrev R.ACT_FL_MASK (i : Nat) : Nat := 0x3250004 + i * 0x20
abbrev F.ACT_FL_MASK_MASK (i : Nat) : Fld := ⟨0x3250004 + i * 0x20, 0, 32⟩
abbrev R.ACT_FL_SET (i : Nat) : Nat := 0x3250008 + i * 0x20
abbrev F.ACT_FL_SET_SET (i : Nat) : Fld := ⟨0x3250008 + i * 0x20, 0, 32⟩
abbrev R.ACT_FL_STAT (i : Nat) : Nat := 0x325000C + i * 0x20
abbrev F.ACT_FL_STAT_IN_SERVICE (i : Nat) : Fld := ⟨0x325000C + i * 0x20, 0, 1⟩
abbrev F.ACT_FL_STAT_WAIT_AFF (i : Nat) : Fld := ⟨0x325000C + i * 0x20, 1, 1⟩
abbrev F.ACT_FL_STAT_LAST_UNIT (i : Nat) : Fld := ⟨0x325000C + i * 0x20, 2, 6⟩
abbrev F.ACT_FL_STAT_PRIO (i : Nat) : Fld := ⟨0x325000C + i * 0x20, 8, 2⟩
abbrev F.ACT_FL_STAT_GRAPH (i : Nat) : Fld := ⟨0x325000C + i * 0x20, 10, 16⟩
abbrev R.CFG_STAT : Nat := 0x50000
abbrev F.CFG_STAT_STATE : Fld := ⟨0x50000, 0, 4⟩
abbrev F.CFG_STAT_ENC : Fld := ⟨0x50000, 4, 1⟩
abbrev F.CFG_STAT_GN32 : Fld := ⟨0x50000, 5, 1⟩
abbrev F.CFG_STAT_SOURCE : Fld := ⟨0x50000, 6, 2⟩
abbrev F.CFG_STAT_ENTRY : Fld := ⟨0x50000, 8, 6⟩
abbrev R.CFG_REFUSE : Nat := 0x50004
abbrev F.CFG_REFUSE_CODE : Fld := ⟨0x50004, 0, 8⟩
abbrev F.CFG_REFUSE_SECTION : Fld := ⟨0x50004, 8, 8⟩
abbrev R.CFG_REFUSE_FRAME : Nat := 0x50008
abbrev F.CFG_REFUSE_FRAME_FRAME : Fld := ⟨0x50008, 0, 32⟩
abbrev R.CFG_CTL : Nat := 0x5000C
abbrev F.CFG_CTL_LOAD : Fld := ⟨0x5000C, 0, 1⟩
abbrev F.CFG_CTL_LOAD_SEL : Fld := ⟨0x5000C, 8, 6⟩
abbrev R.CFG_PART_SEL : Nat := 0x50010
abbrev F.CFG_PART_SEL_ENTRY : Fld := ⟨0x50010, 0, 6⟩
abbrev R.CFG_PART_CTL : Nat := 0x50014
abbrev F.CFG_PART_CTL_GO : Fld := ⟨0x50014, 0, 1⟩
abbrev F.CFG_PART_CTL_HOLD : Fld := ⟨0x50014, 1, 1⟩
abbrev R.CFG_PART_STAT : Nat := 0x50018
abbrev F.CFG_PART_STAT_STATE : Fld := ⟨0x50018, 0, 3⟩
abbrev F.CFG_PART_STAT_PENDING_ENABLE : Fld := ⟨0x50018, 3, 1⟩
abbrev F.CFG_PART_STAT_BUSY_REFUSED : Fld := ⟨0x50018, 4, 1⟩
abbrev F.CFG_PART_STAT_CODE : Fld := ⟨0x50018, 8, 8⟩
abbrev R.CFG_PART_CORDS : Nat := 0x5001C
abbrev F.CFG_PART_CORDS_CORDS : Fld := ⟨0x5001C, 0, 16⟩
abbrev R.CFG_PART_EDGE : Nat := 0x50020
abbrev W.CFG_PART_EDGE_EDGE : Wide := ⟨0x50020, 2, 64⟩
abbrev R.CFG_LOAD_TIME : Nat := 0x50028
abbrev F.CFG_LOAD_TIME_MS : Fld := ⟨0x50028, 0, 32⟩
abbrev R.CFG_CHAIN : Nat := 0x5002C
abbrev F.CFG_CHAIN_IN_ACTIVE : Fld := ⟨0x5002C, 0, 1⟩
abbrev F.CFG_CHAIN_FORWARDING : Fld := ⟨0x5002C, 1, 1⟩
abbrev F.CFG_CHAIN_FWD_FAIL : Fld := ⟨0x5002C, 2, 1⟩
abbrev R.CFG_NVM_CTL : Nat := 0x50040
abbrev F.CFG_NVM_CTL_DEV : Fld := ⟨0x50040, 0, 2⟩
abbrev F.CFG_NVM_CTL_OP : Fld := ⟨0x50040, 2, 2⟩
abbrev F.CFG_NVM_CTL_GO : Fld := ⟨0x50040, 4, 1⟩
abbrev R.CFG_NVM_ADDR : Nat := 0x50044
abbrev W.CFG_NVM_ADDR_ADDR : Wide := ⟨0x50044, 2, 64⟩
abbrev R.CFG_NVM_LEN : Nat := 0x5004C
abbrev F.CFG_NVM_LEN_LEN : Fld := ⟨0x5004C, 0, 13⟩
abbrev R.CFG_NVM_STAT : Nat := 0x50050
abbrev F.CFG_NVM_STAT_BUSY : Fld := ⟨0x50050, 0, 1⟩
abbrev F.CFG_NVM_STAT_DONE : Fld := ⟨0x50050, 1, 1⟩
abbrev F.CFG_NVM_STAT_REFUSED : Fld := ⟨0x50050, 2, 1⟩
abbrev F.CFG_NVM_STAT_ERROR : Fld := ⟨0x50050, 3, 1⟩
abbrev R.CFG_NVM_BUF (i : Nat) : Nat := 0x51000 + i * 4
abbrev F.CFG_NVM_BUF_DATA (i : Nat) : Fld := ⟨0x51000 + i * 4, 0, 32⟩
abbrev R.SPL_CTL : Nat := 0x70000
abbrev F.SPL_CTL_RELINQUISH : Fld := ⟨0x70000, 0, 1⟩
abbrev F.SPL_CTL_DIV_POLICY : Fld := ⟨0x70000, 1, 1⟩
abbrev F.SPL_CTL_LINK_EN : Fld := ⟨0x70000, 2, 1⟩
abbrev R.SPL_STAT : Nat := 0x70004
abbrev F.SPL_STAT_STATE : Fld := ⟨0x70004, 0, 3⟩
abbrev F.SPL_STAT_DIVERGED : Fld := ⟨0x70004, 3, 1⟩
abbrev F.SPL_STAT_LINK_UP : Fld := ⟨0x70004, 4, 1⟩
abbrev F.SPL_STAT_PARTNER_PINS : Fld := ⟨0x70004, 5, 2⟩
abbrev F.SPL_STAT_PENDING_ENABLE : Fld := ⟨0x70004, 7, 1⟩
abbrev F.SPL_STAT_PAIR_FAIL : Fld := ⟨0x70004, 8, 1⟩
abbrev F.SPL_STAT_PARTNER_LOST : Fld := ⟨0x70004, 9, 1⟩
abbrev F.SPL_STAT_PROMOTED : Fld := ⟨0x70004, 10, 1⟩
abbrev R.SPL_CFG : Nat := 0x70008
abbrev F.SPL_CFG_ROLE : Fld := ⟨0x70008, 0, 2⟩
abbrev F.SPL_CFG_D : Fld := ⟨0x70008, 8, 7⟩
abbrev R.SPL_LAG : Nat := 0x7000C
abbrev F.SPL_LAG_LAG : Fld := ⟨0x7000C, 0, 7⟩
abbrev F.SPL_LAG_HELD : Fld := ⟨0x7000C, 8, 7⟩
abbrev R.SPL_LOST : Nat := 0x70010
abbrev F.SPL_LOST_COUNT : Fld := ⟨0x70010, 0, 32⟩
abbrev R.SPL_PROMO_TURN : Nat := 0x70018
abbrev W.SPL_PROMO_TURN_VALUE : Wide := ⟨0x70018, 2, 64⟩
abbrev R.SPL_DIGEST : Nat := 0x70030
abbrev W.SPL_DIGEST_VALUE : Wide := ⟨0x70030, 2, 64⟩
abbrev R.SPL_DIGEST_TURN : Nat := 0x70038
abbrev W.SPL_DIGEST_TURN_VALUE : Wide := ⟨0x70038, 2, 64⟩
abbrev R.SPL_DIV_TURN : Nat := 0x70040
abbrev W.SPL_DIV_TURN_VALUE : Wide := ⟨0x70040, 2, 64⟩
abbrev R.SPL_PROMO_TIME : Nat := 0x70020
abbrev W.SPL_PROMO_TIME_TIME : Wide := ⟨0x70020, 3, 96⟩
abbrev R.SPL_LINK_LAT : Nat := 0x70048
abbrev F.SPL_LINK_LAT_NS : Fld := ⟨0x70048, 0, 16⟩
abbrev R.SPL_HOLD_CNT : Nat := 0x7004C
abbrev F.SPL_HOLD_CNT_COUNT : Fld := ⟨0x7004C, 0, 32⟩
abbrev R.SPL_HB_MISS : Nat := 0x70050
abbrev F.SPL_HB_MISS_COUNT : Fld := ⟨0x70050, 0, 32⟩
abbrev R.SPL_ACT_DISC : Nat := 0x70054
abbrev F.SPL_ACT_DISC_COUNT : Fld := ⟨0x70054, 0, 32⟩
abbrev R.SPL_IMAGE_ID (i : Nat) : Nat := 0x70060 + i * 4
abbrev F.SPL_IMAGE_ID_ID (i : Nat) : Fld := ⟨0x70060 + i * 4, 0, 32⟩
abbrev R.FLT_STAT : Nat := 0x10000
abbrev F.FLT_STAT_SAFE : Fld := ⟨0x10000, 0, 1⟩
abbrev F.FLT_STAT_GRACE_RUN : Fld := ⟨0x10000, 1, 1⟩
abbrev F.FLT_STAT_ESCALATED : Fld := ⟨0x10000, 2, 1⟩
abbrev F.FLT_STAT_C3_BUSY : Fld := ⟨0x10000, 3, 1⟩
abbrev F.FLT_STAT_WIRE_BAD : Fld := ⟨0x10000, 4, 1⟩
abbrev F.FLT_STAT_INJ_EN : Fld := ⟨0x10000, 5, 1⟩
abbrev F.FLT_STAT_SAFE_CODE : Fld := ⟨0x10000, 16, 16⟩
abbrev R.FLT_CTL : Nat := 0x10004
abbrev F.FLT_CTL_ACK : Fld := ⟨0x10004, 0, 1⟩
abbrev F.FLT_CTL_RELEASE : Fld := ⟨0x10004, 1, 1⟩
abbrev R.FLT_GRACE : Nat := 0x10008
abbrev F.FLT_GRACE_US : Fld := ⟨0x10008, 0, 24⟩
abbrev R.FLT_GRACE_LEFT : Nat := 0x1000C
abbrev F.FLT_GRACE_LEFT_US : Fld := ⟨0x1000C, 0, 24⟩
abbrev R.FLT_POLICY : Nat := 0x10010
abbrev F.FLT_POLICY_SAFE_TX : Fld := ⟨0x10010, 0, 1⟩
abbrev F.FLT_POLICY_C3 : Fld := ⟨0x10010, 1, 1⟩
abbrev R.FLT_LOG_IDX : Nat := 0x10014
abbrev F.FLT_LOG_IDX_IDX : Fld := ⟨0x10014, 0, 4⟩
abbrev R.FLT_RST_CAUSE : Nat := 0x10018
abbrev F.FLT_RST_CAUSE_CODE : Fld := ⟨0x10018, 0, 16⟩
abbrev F.FLT_RST_CAUSE_FAULT_RESET : Fld := ⟨0x10018, 16, 1⟩
abbrev R.FLT_FER : Nat := 0x10100
abbrev F.FLT_FER_SRC : Fld := ⟨0x10100, 0, 10⟩
abbrev F.FLT_FER_MASTER : Fld := ⟨0x10100, 16, 8⟩
abbrev F.FLT_FER_ACC : Fld := ⟨0x10100, 24, 3⟩
abbrev F.FLT_FER_CLASS : Fld := ⟨0x10100, 27, 2⟩
abbrev F.FLT_FER_VALID : Fld := ⟨0x10100, 31, 1⟩
abbrev F.FLT_FER_CODE : Fld := ⟨0x10100 + 4, 0, 16⟩
abbrev W.FLT_FER_ADDR : Wide := ⟨0x10100 + 8, 2, 48⟩
abbrev W.FLT_FER_TIME : Wide := ⟨0x10100 + 0x10, 3, 96⟩
abbrev W.FLT_FER_TURN : Wide := ⟨0x10100 + 0x1C, 2, 64⟩
abbrev F.FLT_FER_STRAND : Fld := ⟨0x10100 + 0x24, 0, 18⟩
abbrev F.FLT_FER_STEP : Fld := ⟨0x10100 + 0x24, 18, 13⟩
abbrev R.FLT_CLASS (i : Nat) : Nat := 0x12000 + i * 4
abbrev F.FLT_CLASS_IMAGE (i : Nat) : Fld := ⟨0x12000 + i * 4, 0, 2⟩
abbrev F.FLT_CLASS_HOST (i : Nat) : Fld := ⟨0x12000 + i * 4, 2, 2⟩
abbrev F.FLT_CLASS_EFF (i : Nat) : Fld := ⟨0x12000 + i * 4, 4, 2⟩
abbrev R.FLT_CNT (i : Nat) : Nat := 0x18000 + i * 4
abbrev F.FLT_CNT_COUNT (i : Nat) : Fld := ⟨0x18000 + i * 4, 0, 32⟩
abbrev R.FLT_SRC_STAT (i : Nat) : Nat := 0x1D000 + i * 4
abbrev F.FLT_SRC_STAT_PAIR (i : Nat) : Fld := ⟨0x1D000 + i * 4, 0, 2⟩
abbrev F.FLT_SRC_STAT_WIRE_BAD (i : Nat) : Fld := ⟨0x1D000 + i * 4, 2, 1⟩
abbrev F.FLT_SRC_STAT_WIRE_SEEN (i : Nat) : Fld := ⟨0x1D000 + i * 4, 3, 1⟩
abbrev R.FLT_LOG (i : Nat) : Nat := 0x1E000 + i * 0x40
abbrev W.FLT_LOG_ENTRY (i : Nat) : Wide := ⟨0x1E000 + i * 0x40, 16, 512⟩
abbrev R.FLT_INJ : Nat := 0x1F000
abbrev F.FLT_INJ_CODE : Fld := ⟨0x1F000, 0, 16⟩
abbrev F.FLT_INJ_SRC : Fld := ⟨0x1F000, 16, 10⟩
abbrev F.FLT_INJ_GO : Fld := ⟨0x1F000, 26, 1⟩
abbrev F.FLT_INJ_WIRE : Fld := ⟨0x1F000, 27, 1⟩
abbrev F.FLT_INJ_CYCLES : Fld := ⟨0x1F000, 28, 4⟩
abbrev R.PWR_CTL : Nat := 0x20000
abbrev F.PWR_CTL_TARGET : Fld := ⟨0x20000, 0, 3⟩
abbrev F.PWR_CTL_GO : Fld := ⟨0x20000, 3, 1⟩
abbrev R.PWR_STAT : Nat := 0x20004
abbrev F.PWR_STAT_STATE : Fld := ⟨0x20004, 0, 3⟩
abbrev F.PWR_STAT_TRANSITION : Fld := ⟨0x20004, 3, 1⟩
abbrev F.PWR_STAT_PENDING_WAKE : Fld := ⟨0x20004, 4, 1⟩
abbrev F.PWR_STAT_REFUSED : Fld := ⟨0x20004, 5, 1⟩
abbrev F.PWR_STAT_TIME_STOPPED : Fld := ⟨0x20004, 6, 1⟩
abbrev F.PWR_STAT_LAST_WAKE : Fld := ⟨0x20004, 8, 3⟩
abbrev R.PWR_WAKE_EN : Nat := 0x20008
abbrev F.PWR_WAKE_EN_EN : Fld := ⟨0x20008, 0, 4⟩
abbrev R.PWR_WAKE_LANE (i : Nat) : Nat := 0x20010 + i * 4
abbrev F.PWR_WAKE_LANE_LANE (i : Nat) : Fld := ⟨0x20010 + i * 4, 0, 10⟩
abbrev F.PWR_WAKE_LANE_EN (i : Nat) : Fld := ⟨0x20010 + i * 4, 10, 1⟩
abbrev R.PWR_PAT : Nat := 0x20030
abbrev F.PWR_PAT_LANE : Fld := ⟨0x20030, 0, 10⟩
abbrev F.PWR_PAT_MBPS : Fld := ⟨0x20030, 10, 14⟩
abbrev R.PWR_TRIG : Nat := 0x20034
abbrev F.PWR_TRIG_SEL : Fld := ⟨0x20034, 0, 3⟩
abbrev F.PWR_TRIG_TARGET : Fld := ⟨0x20034, 3, 1⟩
abbrev F.PWR_TRIG_EN : Fld := ⟨0x20034, 4, 1⟩
abbrev R.PWR_GAP_US : Nat := 0x20038
abbrev F.PWR_GAP_US_COUNT : Fld := ⟨0x20038, 0, 32⟩
abbrev R.PWR_ASLEEP_ACC : Nat := 0x2003C
abbrev F.PWR_ASLEEP_ACC_COUNT : Fld := ⟨0x2003C, 0, 32⟩
abbrev R.PWR_DOM (i : Nat) : Nat := 0x20100 + i * 4
abbrev F.PWR_DOM_EN (i : Nat) : Fld := ⟨0x20100 + i * 4, 0, 1⟩
abbrev F.PWR_DOM_ON (i : Nat) : Fld := ⟨0x20100 + i * 4, 1, 1⟩
abbrev F.PWR_DOM_SHUTTING (i : Nat) : Fld := ⟨0x20100 + i * 4, 2, 1⟩
abbrev F.PWR_DOM_PENDING_ENABLE (i : Nat) : Fld := ⟨0x20100 + i * 4, 3, 1⟩
abbrev F.PWR_DOM_GATEABLE (i : Nat) : Fld := ⟨0x20100 + i * 4, 4, 1⟩
abbrev R.TRC_CTL : Nat := 0x80000
abbrev F.TRC_CTL_EN : Fld := ⟨0x80000, 0, 1⟩
abbrev F.TRC_CTL_FLUSH : Fld := ⟨0x80000, 1, 1⟩
abbrev F.TRC_CTL_MODE : Fld := ⟨0x80000, 2, 1⟩
abbrev F.TRC_CTL_BUF : Fld := ⟨0x80000, 3, 1⟩
abbrev F.TRC_CTL_DATA : Fld := ⟨0x80000, 4, 1⟩
abbrev F.TRC_CTL_DMP : Fld := ⟨0x80000, 5, 1⟩
abbrev F.TRC_CTL_PROBE : Fld := ⟨0x80000, 6, 1⟩
abbrev F.TRC_CTL_PORT_EN : Fld := ⟨0x80000, 7, 1⟩
abbrev R.TRC_STAT : Nat := 0x80004
abbrev F.TRC_STAT_ACTIVE : Fld := ⟨0x80004, 0, 1⟩
abbrev F.TRC_STAT_SHUTTING : Fld := ⟨0x80004, 1, 1⟩
abbrev F.TRC_STAT_PENDING_ENABLE : Fld := ⟨0x80004, 2, 1⟩
abbrev F.TRC_STAT_FULL : Fld := ⟨0x80004, 3, 1⟩
abbrev F.TRC_STAT_WRAPPED : Fld := ⟨0x80004, 4, 1⟩
abbrev F.TRC_STAT_BADBUF : Fld := ⟨0x80004, 5, 1⟩
abbrev F.TRC_STAT_BUF_ERR : Fld := ⟨0x80004, 6, 1⟩
abbrev F.TRC_STAT_BUF_LOST : Fld := ⟨0x80004, 7, 1⟩
abbrev F.TRC_STAT_OVF : Fld := ⟨0x80004, 8, 1⟩
abbrev F.TRC_STAT_PORT_CLOSED : Fld := ⟨0x80004, 9, 1⟩
abbrev R.TRC_BASE : Nat := 0x80008
abbrev W.TRC_BASE_BASE : Wide := ⟨0x80008, 2, 48⟩
abbrev R.TRC_SIZE : Nat := 0x80010
abbrev F.TRC_SIZE_SIZE : Fld := ⟨0x80010, 0, 32⟩
abbrev R.TRC_WPTR : Nat := 0x80014
abbrev F.TRC_WPTR_WPTR : Fld := ⟨0x80014, 0, 32⟩
abbrev R.TRC_LOST : Nat := 0x80018
abbrev F.TRC_LOST_COUNT : Fld := ⟨0x80018, 0, 32⟩
abbrev R.TRC_PKTS : Nat := 0x8001C
abbrev F.TRC_PKTS_COUNT : Fld := ⟨0x8001C, 0, 32⟩
abbrev R.TRC_PORT_DROP : Nat := 0x80020
abbrev F.TRC_PORT_DROP_COUNT : Fld := ⟨0x80020, 0, 32⟩
abbrev R.TRC_START_SEL : Nat := 0x80030
abbrev F.TRC_START_SEL_CMP : Fld := ⟨0x80030, 0, 16⟩
abbrev F.TRC_START_SEL_RNG : Fld := ⟨0x80030, 16, 8⟩
abbrev R.TRC_STOP_SEL : Nat := 0x80034
abbrev F.TRC_STOP_SEL_CMP : Fld := ⟨0x80034, 0, 16⟩
abbrev F.TRC_STOP_SEL_RNG : Fld := ⟨0x80034, 16, 8⟩
abbrev R.TRC_QUAL_SEL : Nat := 0x80038
abbrev F.TRC_QUAL_SEL_CMP : Fld := ⟨0x80038, 0, 16⟩
abbrev F.TRC_QUAL_SEL_RNG : Fld := ⟨0x80038, 16, 8⟩
abbrev R.TRC_MSTR (i : Nat) : Nat := 0x80040 + i * 4
abbrev F.TRC_MSTR_SEL (i : Nat) : Fld := ⟨0x80040 + i * 4, 0, 32⟩
abbrev R.TRC_DMP_CORD (i : Nat) : Nat := 0x80060 + i * 4
abbrev F.TRC_DMP_CORD_SEL (i : Nat) : Fld := ⟨0x80060 + i * 4, 0, 32⟩
abbrev R.TRC_CMP (i : Nat) : Nat := 0x80100 + i * 0x10
abbrev W.TRC_CMP_ADDR (i : Nat) : Wide := ⟨0x80100 + i * 0x10, 2, 48⟩
abbrev F.TRC_CMP_ACC (i : Nat) : Fld := ⟨0x80100 + i * 0x10 + 4, 16, 2⟩
abbrev W.TRC_CMP_MASK (i : Nat) : Wide := ⟨0x80100 + i * 0x10 + 8, 2, 48⟩
abbrev R.TRC_RNG (i : Nat) : Nat := 0x80200 + i * 0x10
abbrev W.TRC_RNG_LO (i : Nat) : Wide := ⟨0x80200 + i * 0x10, 2, 48⟩
abbrev W.TRC_RNG_HI (i : Nat) : Wide := ⟨0x80200 + i * 0x10 + 8, 2, 48⟩
abbrev R.HST_POLL : Nat := 0x100
abbrev F.HST_POLL_FER : Fld := ⟨0x100, 0, 1⟩
abbrev F.HST_POLL_SAFE : Fld := ⟨0x100, 1, 1⟩
abbrev F.HST_POLL_GRACE : Fld := ⟨0x100, 2, 1⟩
abbrev F.HST_POLL_COMMITTED : Fld := ⟨0x100, 3, 1⟩
abbrev F.HST_POLL_REFUSED : Fld := ⟨0x100, 4, 1⟩
abbrev F.HST_POLL_PART_BUSY : Fld := ⟨0x100, 5, 1⟩
abbrev F.HST_POLL_CAP : Fld := ⟨0x100, 6, 1⟩
abbrev F.HST_POLL_DMA_ERR : Fld := ⟨0x100, 7, 1⟩
abbrev F.HST_POLL_TXQ : Fld := ⟨0x100, 8, 1⟩
abbrev F.HST_POLL_TXQ_OVF : Fld := ⟨0x100, 9, 1⟩
abbrev F.HST_POLL_HALTED : Fld := ⟨0x100, 10, 1⟩
abbrev F.HST_POLL_OVERRUN : Fld := ⟨0x100, 11, 1⟩
abbrev F.HST_POLL_PPS : Fld := ⟨0x100, 12, 1⟩
abbrev F.HST_POLL_PWR : Fld := ⟨0x100, 13, 1⟩
abbrev F.HST_POLL_SPLICE : Fld := ⟨0x100, 14, 1⟩
abbrev F.HST_POLL_FROZEN : Fld := ⟨0x100, 15, 1⟩
abbrev F.HST_POLL_TRACE : Fld := ⟨0x100, 16, 1⟩
abbrev F.HST_POLL_BUS_ERR : Fld := ⟨0x100, 17, 1⟩
abbrev F.HST_POLL_NVM : Fld := ⟨0x100, 18, 1⟩
abbrev F.HST_POLL_HPOST : Fld := ⟨0x100, 19, 1⟩
abbrev R.HST_EVT : Nat := 0x108
abbrev F.HST_EVT_FER : Fld := ⟨0x108, 0, 1⟩
abbrev F.HST_EVT_SAFE : Fld := ⟨0x108, 1, 1⟩
abbrev F.HST_EVT_GRACE : Fld := ⟨0x108, 2, 1⟩
abbrev F.HST_EVT_COMMITTED : Fld := ⟨0x108, 3, 1⟩
abbrev F.HST_EVT_REFUSED : Fld := ⟨0x108, 4, 1⟩
abbrev F.HST_EVT_PART_BUSY : Fld := ⟨0x108, 5, 1⟩
abbrev F.HST_EVT_CAP : Fld := ⟨0x108, 6, 1⟩
abbrev F.HST_EVT_DMA_ERR : Fld := ⟨0x108, 7, 1⟩
abbrev F.HST_EVT_TXQ : Fld := ⟨0x108, 8, 1⟩
abbrev F.HST_EVT_TXQ_OVF : Fld := ⟨0x108, 9, 1⟩
abbrev F.HST_EVT_HALTED : Fld := ⟨0x108, 10, 1⟩
abbrev F.HST_EVT_OVERRUN : Fld := ⟨0x108, 11, 1⟩
abbrev F.HST_EVT_PPS : Fld := ⟨0x108, 12, 1⟩
abbrev F.HST_EVT_PWR : Fld := ⟨0x108, 13, 1⟩
abbrev F.HST_EVT_SPLICE : Fld := ⟨0x108, 14, 1⟩
abbrev F.HST_EVT_FROZEN : Fld := ⟨0x108, 15, 1⟩
abbrev F.HST_EVT_TRACE : Fld := ⟨0x108, 16, 1⟩
abbrev F.HST_EVT_BUS_ERR : Fld := ⟨0x108, 17, 1⟩
abbrev F.HST_EVT_NVM : Fld := ⟨0x108, 18, 1⟩
abbrev F.HST_EVT_HPOST : Fld := ⟨0x108, 19, 1⟩
abbrev R.HST_ALIVE : Nat := 0x104
abbrev F.HST_ALIVE_COUNT : Fld := ⟨0x104, 0, 32⟩
abbrev R.HST_CAPDONE (i : Nat) : Nat := 0x140 + i * 4
abbrev F.HST_CAPDONE_DONE (i : Nat) : Fld := ⟨0x140 + i * 4, 0, 32⟩
abbrev R.HST_BERR : Nat := 0x120
abbrev F.HST_BERR_STATUS : Fld := ⟨0x120, 0, 2⟩
abbrev F.HST_BERR_WRITE : Fld := ⟨0x120, 2, 1⟩
abbrev F.HST_BERR_COUNT : Fld := ⟨0x120, 16, 15⟩
abbrev F.HST_BERR_VALID : Fld := ⟨0x120, 31, 1⟩
abbrev R.HST_BERR_ADDR : Nat := 0x124
abbrev W.HST_BERR_ADDR_ADDR : Wide := ⟨0x124, 2, 48⟩
abbrev R.HST_AP_BASE : Nat := 0x200
abbrev W.HST_AP_BASE_BASE : Wide := ⟨0x200, 2, 48⟩
abbrev R.HST_LINK : Nat := 0x210
abbrev F.HST_LINK_SPEED : Fld := ⟨0x210, 0, 3⟩
abbrev F.HST_LINK_WIDTH : Fld := ⟨0x210, 3, 5⟩
abbrev R.DMA_CTL (i : Nat) : Nat := 0x1000 + i * 0x40
abbrev F.DMA_CTL_EN (i : Nat) : Fld := ⟨0x1000 + i * 0x40, 0, 1⟩
abbrev F.DMA_CTL_K (i : Nat) : Fld := ⟨0x1000 + i * 0x40, 1, 5⟩
abbrev R.DMA_RING (i : Nat) : Nat := 0x1004 + i * 0x40
abbrev W.DMA_RING_ADDR (i : Nat) : Wide := ⟨0x1004 + i * 0x40, 2, 64⟩
abbrev R.DMA_HEAD (i : Nat) : Nat := 0x100C + i * 0x40
abbrev F.DMA_HEAD_INDEX (i : Nat) : Fld := ⟨0x100C + i * 0x40, 0, 16⟩
abbrev R.DMA_TAIL (i : Nat) : Nat := 0x1010 + i * 0x40
abbrev F.DMA_TAIL_INDEX (i : Nat) : Fld := ⟨0x1010 + i * 0x40, 0, 16⟩
abbrev R.DMA_STAT (i : Nat) : Nat := 0x1014 + i * 0x40
abbrev F.DMA_STAT_BUSY (i : Nat) : Fld := ⟨0x1014 + i * 0x40, 0, 1⟩
abbrev F.DMA_STAT_SHUTTING (i : Nat) : Fld := ⟨0x1014 + i * 0x40, 1, 1⟩
abbrev F.DMA_STAT_PENDING_ENABLE (i : Nat) : Fld := ⟨0x1014 + i * 0x40, 2, 1⟩
abbrev F.DMA_STAT_ERR (i : Nat) : Fld := ⟨0x1014 + i * 0x40, 3, 1⟩
abbrev F.DMA_STAT_TAIL_BAD (i : Nat) : Fld := ⟨0x1014 + i * 0x40, 4, 1⟩
abbrev R.SEC_STAT : Nat := 0x60000
abbrev F.SEC_STAT_DEBUG_CLOSED : Fld := ⟨0x60000, 0, 1⟩
abbrev F.SEC_STAT_FACTORY_DONE : Fld := ⟨0x60000, 1, 1⟩
abbrev F.SEC_STAT_DEBUG_SEEN : Fld := ⟨0x60000, 2, 1⟩
abbrev F.SEC_STAT_SESSION : Fld := ⟨0x60000, 3, 1⟩
abbrev R.SEC_ATT_CTL : Nat := 0x60004
abbrev F.SEC_ATT_CTL_GO : Fld := ⟨0x60004, 0, 1⟩
abbrev R.SEC_ATT_STAT : Nat := 0x60008
abbrev F.SEC_ATT_STAT_BUSY : Fld := ⟨0x60008, 0, 1⟩
abbrev F.SEC_ATT_STAT_DONE : Fld := ⟨0x60008, 1, 1⟩
abbrev F.SEC_ATT_STAT_BUSY_REFUSED : Fld := ⟨0x60008, 2, 1⟩
abbrev F.SEC_ATT_STAT_CODE : Fld := ⟨0x60008, 3, 2⟩
abbrev R.SEC_RB_CTL : Nat := 0x60010
abbrev F.SEC_RB_CTL_INDEX : Fld := ⟨0x60010, 0, 4⟩
abbrev F.SEC_RB_CTL_GO : Fld := ⟨0x60010, 4, 1⟩
abbrev R.SEC_RB_VAL : Nat := 0x60014
abbrev F.SEC_RB_VAL_VALUE : Fld := ⟨0x60014, 0, 32⟩
abbrev R.SEC_RB_STAT : Nat := 0x60018
abbrev F.SEC_RB_STAT_DONE : Fld := ⟨0x60018, 0, 1⟩
abbrev F.SEC_RB_STAT_REFUSED : Fld := ⟨0x60018, 1, 1⟩
abbrev R.SEC_FUSE_CTL : Nat := 0x60020
abbrev F.SEC_FUSE_CTL_WORD : Fld := ⟨0x60020, 0, 7⟩
abbrev F.SEC_FUSE_CTL_GO : Fld := ⟨0x60020, 7, 1⟩
abbrev F.SEC_FUSE_CTL_KEY : Fld := ⟨0x60020, 16, 16⟩
abbrev R.SEC_FUSE_DATA : Nat := 0x60024
abbrev F.SEC_FUSE_DATA_DATA : Fld := ⟨0x60024, 0, 32⟩
abbrev R.SEC_FUSE_STAT : Nat := 0x60028
abbrev F.SEC_FUSE_STAT_BUSY : Fld := ⟨0x60028, 0, 1⟩
abbrev F.SEC_FUSE_STAT_DONE : Fld := ⟨0x60028, 1, 1⟩
abbrev F.SEC_FUSE_STAT_FAIL : Fld := ⟨0x60028, 2, 1⟩
abbrev F.SEC_FUSE_STAT_REFUSED : Fld := ⟨0x60028, 3, 1⟩
abbrev R.SEC_RB_CNT (i : Nat) : Nat := 0x60100 + i * 4
abbrev F.SEC_RB_CNT_COUNT (i : Nat) : Fld := ⟨0x60100 + i * 4, 0, 32⟩
abbrev R.SEC_FUSE (i : Nat) : Nat := 0x60200 + i * 4
abbrev F.SEC_FUSE_BITS (i : Nat) : Fld := ⟨0x60200 + i * 4, 0, 32⟩
abbrev R.SEC_ID_PUB (i : Nat) : Nat := 0x60400 + i * 4
abbrev F.SEC_ID_PUB_KEYW (i : Nat) : Fld := ⟨0x60400 + i * 4, 0, 32⟩
abbrev R.SEC_CERT_LEN : Nat := 0x60440
abbrev F.SEC_CERT_LEN_LEN : Fld := ⟨0x60440, 0, 12⟩
abbrev R.SEC_CERT (i : Nat) : Nat := 0x60800 + i * 4
abbrev F.SEC_CERT_DATA (i : Nat) : Fld := ⟨0x60800 + i * 4, 0, 32⟩
abbrev R.SEC_ATT_REQ (i : Nat) : Nat := 0x61000 + i * 4
abbrev F.SEC_ATT_REQ_DATA (i : Nat) : Fld := ⟨0x61000 + i * 4, 0, 32⟩
abbrev R.SEC_ATT_REP (i : Nat) : Nat := 0x61100 + i * 4
abbrev F.SEC_ATT_REP_DATA (i : Nat) : Fld := ⟨0x61100 + i * 4, 0, 32⟩
abbrev R.PIN_CFG (i : Nat) : Nat := 0x40000 + i * 4
abbrev F.PIN_CFG_FUNC (i : Nat) : Fld := ⟨0x40000 + i * 4, 0, 3⟩
abbrev F.PIN_CFG_SLEW (i : Nat) : Fld := ⟨0x40000 + i * 4, 3, 2⟩
abbrev F.PIN_CFG_DRIVE (i : Nat) : Fld := ⟨0x40000 + i * 4, 5, 2⟩
abbrev F.PIN_CFG_PULL (i : Nat) : Fld := ⟨0x40000 + i * 4, 7, 2⟩
abbrev F.PIN_CFG_SCHMITT (i : Nat) : Fld := ⟨0x40000 + i * 4, 9, 1⟩
abbrev F.PIN_CFG_FILT (i : Nat) : Fld := ⟨0x40000 + i * 4, 11, 8⟩
abbrev F.PIN_CFG_FUNC_ACT (i : Nat) : Fld := ⟨0x40000 + i * 4, 20, 3⟩
abbrev R.PIN_LOCK : Nat := 0x40400
abbrev F.PIN_LOCK_PIN : Fld := ⟨0x40400, 0, 8⟩
abbrev F.PIN_LOCK_KEY : Fld := ⟨0x40400, 16, 16⟩
abbrev R.PIN_STAT : Nat := 0x40404
abbrev F.PIN_STAT_CONFLICT : Fld := ⟨0x40404, 0, 8⟩
abbrev F.PIN_STAT_CONFLICT_SEEN : Fld := ⟨0x40404, 8, 8⟩
abbrev F.PIN_STAT_LOCK_SEQ : Fld := ⟨0x40404, 16, 2⟩
abbrev R.PIN_LOCKED (i : Nat) : Nat := 0x40410 + i * 4
abbrev F.PIN_LOCKED_BITS (i : Nat) : Fld := ⟨0x40410 + i * 4, 0, 32⟩
abbrev R.PIN_IN (i : Nat) : Nat := 0x40430 + i * 4
abbrev F.PIN_IN_BITS (i : Nat) : Fld := ⟨0x40430 + i * 4, 0, 32⟩
abbrev R.PIN_SW_OUT (i : Nat) : Nat := 0x40450 + i * 4
abbrev F.PIN_SW_OUT_BITS (i : Nat) : Fld := ⟨0x40450 + i * 4, 0, 32⟩
abbrev R.PIN_SW_OE (i : Nat) : Nat := 0x40470 + i * 4
abbrev F.PIN_SW_OE_BITS (i : Nat) : Fld := ⟨0x40470 + i * 4, 0, 32⟩
abbrev R.PIN_DFILT : Nat := 0x40490
abbrev F.PIN_DFILT_PPS : Fld := ⟨0x40490, 0, 8⟩
abbrev F.PIN_DFILT_PARTNER : Fld := ⟨0x40490, 8, 8⟩
abbrev F.PIN_DFILT_CHAIN : Fld := ⟨0x40490, 16, 8⟩

end Sys2Proof.Machine
end

