-- ==== Sys2Proof/Machine/Map.lean ====
section
/-! DEFINITION. Sparse maps as sorted lists: the one form in which the state holds memories, register files and tables. -/

namespace Sys2Proof.Machine

namespace SMap

variable {α : Type}

/-- The value listed at key `k`, if one is. -/
def find : SMap α → Nat → Option α
  | [], _ => none
  | (k', v) :: m, k => if k = k' then some v else find m k

/-- The value at key `k`, where an unlisted key `j` reads as `d j`. -/
def get (d : Nat → α) (m : SMap α) (k : Nat) : α := (find m k).getD (d k)

/-- The map with `v` listed at `k`. -/
def put : SMap α → Nat → α → SMap α
  | [], k, v => [(k, v)]
  | (k', w) :: m, k, v =>
    if k < k' then (k, v) :: (k', w) :: m
    else if k = k' then (k, v) :: m
    else (k', w) :: put m k v

/-- The map with nothing listed at `k`. -/
def del (m : SMap α) (k : Nat) : SMap α := m.filter (fun p => p.1 ≠ k)

/-- Write in canonical form: writing what an unlisted key reads as removes the entry. -/
def set [DecidableEq α] (d : Nat → α) (m : SMap α) (k : Nat) (v : α) : SMap α :=
  if v = d k then del m k else put m k v

/-- Keys strictly rising. -/
abbrev Sorted (m : SMap α) : Prop := m.Pairwise (fun p q => p.1 < q.1)

/-- The canonical form: keys strictly rising and no entry equal to what an unlisted key reads as. -/
abbrev Wf (d : Nat → α) (m : SMap α) : Prop := Sorted m ∧ ∀ p ∈ m, p.2 ≠ d p.1

/-- Every listed value changed by `f`, in canonical form. -/
def mapv [DecidableEq α] (d : Nat → α) (f : Nat → α → α) (m : SMap α) : SMap α :=
  m.foldr (fun p t => set d t p.1 (f p.1 p.2)) []

/-- The entries with keys from `lo` up to `hi` (not included). -/
def range (m : SMap α) (lo hi : Nat) : SMap α := m.filter (fun p => lo ≤ p.1 ∧ p.1 < hi)

/-- The map without the entries with keys from `lo` up to `hi` (not included). -/
def drop (m : SMap α) (lo hi : Nat) : SMap α := m.filter (fun p => ¬(lo ≤ p.1 ∧ p.1 < hi))

end SMap

end Sys2Proof.Machine
end

