-- ==== Sys2Proof/Machine/RegMap.lean ====
section
/-! DEFINITION. The control register map (R11–R14, R363): every register of the spec's register tables with its address,
instances, access masks (R12) and reset value, word by word, as the tables of the chapters give them. -/

namespace Sys2Proof.Machine

/-- One 32-bit word of a register: the masks of its RW, RWL, W1C, RC and WO bits (R12; all others are RO or reserved)
and its reset value (R14). -/
structure WordDesc where
  rw : Nat := 0
  rwl : Nat := 0
  w1c : Nat := 0
  rc : Nat := 0
  wo : Nat := 0
  reset : Nat := 0
  deriving DecidableEq, Repr

/-- A register: base address, two index dimensions (stride, count; (0,1) when unused) and its words, low word first. -/
structure RegDesc where
  base : Nat
  s1 : Nat := 0
  n1 : Nat := 1
  s2 : Nat := 0
  n2 : Nat := 1
  words : List WordDesc
  deriving DecidableEq, Repr

namespace RegMap

/-- Registers of the HST block. -/
def blockHST : List RegDesc := [
  { base := 0, words := [{}] },  -- HST_ID (R5)
  { base := 0x100, words := [{}] },  -- HST_POLL (R372)
  { base := 0x108, words := [{ w1c := 0xFFFFF }] },  -- HST_EVT (R372)
  { base := 0x104, words := [{}] },  -- HST_ALIVE (R372)
  { base := 0x140, s1 := 4, n1 := 32, words := [{}] },  -- HST_CAPDONE (R372)
  { base := 0x120, words := [{ w1c := 0x80000000, rc := 0x7FFF0000 }] },  -- HST_BERR (R372)
  { base := 0x124, words := [{}, {}] },  -- HST_BERR_ADDR (R372)
  { base := 0x200, words := [{ rw := 0xFFF00000 }, { rw := 0xFFFF, reset := 0x100 }] },  -- HST_AP_BASE (R372)
  { base := 0x210, words := [{}] },  -- HST_LINK (R372)
  { base := 0x1000, s1 := 0x40, n1 := 16, words := [{ rw := 0x3F, reset := 2 }] },  -- DMA_CTL (R372)
  { base := 0x1004, s1 := 0x40, n1 := 16, words := [{ rw := 0xFFFFFFC0 }, { rw := 0xFFFFFFFF }] },  -- DMA_RING (R372)
  { base := 0x100C, s1 := 0x40, n1 := 16, words := [{}] },  -- DMA_HEAD (R372)
  { base := 0x1010, s1 := 0x40, n1 := 16, words := [{ rw := 0xFFFF }] },  -- DMA_TAIL (R372)
  { base := 0x1014, s1 := 0x40, n1 := 16, words := [{ w1c := 0x18 }] }  -- DMA_STAT (R372)
]

/-- Registers of the FLT block. -/
def blockFLT : List RegDesc := [
  { base := 0x10000, words := [{ w1c := 4 }] },  -- FLT_STAT (R329)
  { base := 0x10004, words := [{ wo := 3 }] },  -- FLT_CTL (R329)
  { base := 0x10008, words := [{ rw := 0xFFFFFF, reset := 0x3E8 }] },  -- FLT_GRACE (R329)
  { base := 0x1000C, words := [{}] },  -- FLT_GRACE_LEFT (R329)
  { base := 0x10010, words := [{ rw := 3 }] },  -- FLT_POLICY (R329)
  { base := 0x10014, words := [{}] },  -- FLT_LOG_IDX (R329)
  { base := 0x10018, words := [{ w1c := 0x10000 }] },  -- FLT_RST_CAUSE (R329)
  { base := 0x10100, words := [{ w1c := 0x80000000 }] },  -- FLT_FER_0 (R329)
  { base := 0x10104, words := [{}] },  -- FLT_FER_1
  { base := 0x10108, words := [{}, {}] },  -- FLT_FER_2 and 3: ADDR
  { base := 0x10110, words := [{}, {}, {}] },  -- FLT_FER_4 to 6: TIME
  { base := 0x1011C, words := [{}, {}] },  -- FLT_FER_7 and 8: TURN
  { base := 0x10124, words := [{}] },  -- FLT_FER_9
  { base := 0x12000, s1 := 4, n1 := 5120, words := [{ rw := 0xC }] },  -- FLT_CLASS (R329)
  { base := 0x18000, s1 := 4, n1 := 5120, words := [{ rc := 0xFFFFFFFF }] },  -- FLT_CNT (R329)
  { base := 0x1D000, s1 := 4, n1 := 1024, words := [{ w1c := 8, reset := 1 }] },  -- FLT_SRC_STAT (R329)
  { base := 0x1E000, s1 := 0x40, n1 := 16, words := [{}, {}, {}, {}, {}, {}, {}, {}, {}, {}, {}, {}, {}, {}, {}, {}] },  -- FLT_LOG (R329)
  { base := 0x1F000, words := [{ rw := 0xF3FFFFFF, wo := 0xC000000 }] }  -- FLT_INJ (R329)
]

/-- Registers of the PWR block. -/
def blockPWR : List RegDesc := [
  { base := 0x20000, words := [{ rw := 7, wo := 8 }] },  -- PWR_CTL (R344)
  { base := 0x20004, words := [{ w1c := 0x60, reset := 0x700 }] },  -- PWR_STAT (R344)
  { base := 0x20008, words := [{ rw := 0xF, reset := 0xC }] },  -- PWR_WAKE_EN (R344)
  { base := 0x20010, s1 := 4, n1 := 8, words := [{ rw := 0x7FF }] },  -- PWR_WAKE_LANE (R344)
  { base := 0x20030, words := [{ rw := 0xFFFFFF, reset := 0xFA000 }] },  -- PWR_PAT (R344)
  { base := 0x20034, words := [{ rw := 0x1F }] },  -- PWR_TRIG (R344)
  { base := 0x20038, words := [{}] },  -- PWR_GAP_US (R344)
  { base := 0x2003C, words := [{ rc := 0xFFFFFFFF }] },  -- PWR_ASLEEP_ACC (R344)
  { base := 0x20100, s1 := 4, n1 := 86, words := [{ rw := 1, reset := 3 }] }  -- PWR_DOM (R344)
]

/-- Registers of the TIME block. -/
def blockTIME : List RegDesc := [
  { base := 0x30000, words := [{ rw := 0x47, wo := 0x38, reset := 2 }] },  -- TIME_CTL (R226)
  { base := 0x30004, words := [{ w1c := 0x16A }] },  -- TIME_STAT (R226)
  { base := 0x30008, words := [{ rw := 0xFFFFFFFF }] },  -- TIME_FREQ (R226)
  { base := 0x3000C, words := [{ rc := 0xFFFFFFFF }] },  -- TIME_STEP_CNT (R226)
  { base := 0x3004C, words := [{}] },  -- TIME_PPS_CNT (R226)
  { base := 0x30010, words := [{}, {}, {}] },  -- TIME_NOW (R226)
  { base := 0x30020, words := [{ rw := 0xFFFFFFFF }, { rw := 0xFFFFFFFF }, { rw := 0xFFFFFFFF }] },  -- TIME_TOD (R226)
  { base := 0x30040, words := [{}, {}, {}] },  -- TIME_PPS_CAP (R226)
  { base := 0x30030, words := [{ rw := 0xFFFFFFFF }, { rw := 0xFFFFFFFF }] },  -- TIME_PHASE (R226)
  { base := 0x30050, words := [{ rw := 0xFFFFFF }] },  -- TIME_PPS_DLY (R226)
  { base := 0x31000, s1 := 0x20, n1 := 64, words := [{}, {}, {}, {}] },  -- TXQ_ENT (R226)
  { base := 0x31010, s1 := 0x20, n1 := 64, words := [{ w1c := 0x40 }] },  -- TXQ_STAT (R226)
  { base := 0x31014, s1 := 0x20, n1 := 64, words := [{ rc := 0xFFFFFFFF }] },  -- TXQ_DROP (R226)
  { base := 0x32000, s1 := 0x20, n1 := 16, words := [{ rw := 7, w1c := 0x70 }] },  -- TOUT_CTL (R226)
  { base := 0x32004, s1 := 0x20, n1 := 16, words := [{ rw := 0xFFFFFFFF }, { rw := 0xFFFFFFFF }] },  -- TOUT_START (R226)
  { base := 0x3200C, s1 := 0x20, n1 := 16, words := [{ rw := 0xFFFFFFFF }, { rw := 0xFFFF }] },  -- TOUT_PERIOD (R226)
  { base := 0x32014, s1 := 0x20, n1 := 16, words := [{ rw := 0xFFFFFFFF }] }  -- TOUT_WIDTH (R226)
]

/-- Registers of the PIN block. -/
def blockPIN : List RegDesc := [
  { base := 0x40000, s1 := 4, n1 := 192, words := [{ rwl := 0x7FBFF, reset := 0x700287 }] },  -- PIN_CFG (R401)
  { base := 0x40400, words := [{ wo := 0xFFFF00FF }] },  -- PIN_LOCK (R401)
  { base := 0x40404, words := [{ w1c := 0xFF00 }] },  -- PIN_STAT (R401)
  { base := 0x40410, s1 := 4, n1 := 6, words := [{}] },  -- PIN_LOCKED (R401)
  { base := 0x40430, s1 := 4, n1 := 6, words := [{}] },  -- PIN_IN (R401)
  { base := 0x40450, s1 := 4, n1 := 6, words := [{ rw := 0xFFFFFFFF }] },  -- PIN_SW_OUT (R401)
  { base := 0x40470, s1 := 4, n1 := 6, words := [{ rw := 0xFFFFFFFF }] },  -- PIN_SW_OE (R401)
  { base := 0x40490, words := [{ rw := 0xFFFFFF, reset := 0x14140A }] }  -- PIN_DFILT (R401)
]

/-- Registers of the CFG block. -/
def blockCFG : List RegDesc := [
  { base := 0x50000, words := [{}] },  -- CFG_STAT (R295)
  { base := 0x50004, words := [{}] },  -- CFG_REFUSE (R295)
  { base := 0x50008, words := [{}] },  -- CFG_REFUSE_FRAME (R295)
  { base := 0x5000C, words := [{ rw := 0x3F00, wo := 1 }] },  -- CFG_CTL (R295)
  { base := 0x50010, words := [{ rw := 0x3F }] },  -- CFG_PART_SEL (R295)
  { base := 0x50014, words := [{ wo := 3 }] },  -- CFG_PART_CTL (R295)
  { base := 0x50018, words := [{ w1c := 0x10 }] },  -- CFG_PART_STAT (R295)
  { base := 0x5001C, words := [{ rw := 0xFFFF }] },  -- CFG_PART_CORDS (R295)
  { base := 0x50020, words := [{ rw := 0xFFFFFFFF }, { rw := 0xFFFFFFFF }] },  -- CFG_PART_EDGE (R295)
  { base := 0x50028, words := [{}] },  -- CFG_LOAD_TIME (R295)
  { base := 0x5002C, words := [{ w1c := 4 }] },  -- CFG_CHAIN (R295)
  { base := 0x50040, words := [{ rw := 0xF, wo := 0x10 }] },  -- CFG_NVM_CTL (R295)
  { base := 0x50044, words := [{ rw := 0xFFFFFFFF }, { rw := 0xFFFFFFFF }] },  -- CFG_NVM_ADDR (R295)
  { base := 0x5004C, words := [{ rw := 0x1FFF }] },  -- CFG_NVM_LEN (R295)
  { base := 0x50050, words := [{ w1c := 0xE }] },  -- CFG_NVM_STAT (R295)
  { base := 0x51000, s1 := 4, n1 := 1024, words := [{ rw := 0xFFFFFFFF }] }  -- CFG_NVM_BUF (R295)
]

/-- Registers of the SEC block. -/
def blockSEC : List RegDesc := [
  { base := 0x60000, words := [{}] },  -- SEC_STAT (R389)
  { base := 0x60004, words := [{ wo := 1 }] },  -- SEC_ATT_CTL (R389)
  { base := 0x60008, words := [{ w1c := 6 }] },  -- SEC_ATT_STAT (R389)
  { base := 0x60010, words := [{ rw := 0xF, wo := 0x10 }] },  -- SEC_RB_CTL (R389)
  { base := 0x60014, words := [{ rw := 0xFFFFFFFF }] },  -- SEC_RB_VAL (R389)
  { base := 0x60018, words := [{ w1c := 3 }] },  -- SEC_RB_STAT (R389)
  { base := 0x60020, words := [{ rw := 0x7F, wo := 0xFFFF0080 }] },  -- SEC_FUSE_CTL (R389)
  { base := 0x60024, words := [{ rw := 0xFFFFFFFF }] },  -- SEC_FUSE_DATA (R389)
  { base := 0x60028, words := [{ w1c := 0xE }] },  -- SEC_FUSE_STAT (R389)
  { base := 0x60100, s1 := 4, n1 := 16, words := [{}] },  -- SEC_RB_CNT (R389)
  { base := 0x60200, s1 := 4, n1 := 128, words := [{}] },  -- SEC_FUSE (R389)
  { base := 0x60400, s1 := 4, n1 := 16, words := [{}] },  -- SEC_ID_PUB (R389)
  { base := 0x60440, words := [{}] },  -- SEC_CERT_LEN (R389)
  { base := 0x60800, s1 := 4, n1 := 512, words := [{}] },  -- SEC_CERT (R389)
  { base := 0x61000, s1 := 4, n1 := 46, words := [{ rw := 0xFFFFFFFF }] },  -- SEC_ATT_REQ, the request (R382, R389)
  { base := 0x610B8, s1 := 4, n1 := 18, words := [{}] },  -- SEC_ATT_REQ, past the request (R389)
  { base := 0x61100, s1 := 4, n1 := 128, words := [{}] }  -- SEC_ATT_REP (R389)
]

/-- Registers of the SPL block. -/
def blockSPL : List RegDesc := [
  { base := 0x70000, words := [{ rw := 6, wo := 1, reset := 6 }] },  -- SPL_CTL (R309)
  { base := 0x70004, words := [{ w1c := 0x700 }] },  -- SPL_STAT (R309)
  { base := 0x70008, words := [{}] },  -- SPL_CFG (R309)
  { base := 0x7000C, words := [{}] },  -- SPL_LAG (R309)
  { base := 0x70010, words := [{}] },  -- SPL_LOST (R309)
  { base := 0x70018, words := [{}, {}] },  -- SPL_PROMO_TURN (R309)
  { base := 0x70030, words := [{}, {}] },  -- SPL_DIGEST (R309)
  { base := 0x70038, words := [{}, {}] },  -- SPL_DIGEST_TURN (R309)
  { base := 0x70040, words := [{ reset := 0xFFFFFFFF }, { reset := 0xFFFFFFFF }] },  -- SPL_DIV_TURN (R309)
  { base := 0x70020, words := [{}, {}, {}] },  -- SPL_PROMO_TIME (R309)
  { base := 0x70048, words := [{}] },  -- SPL_LINK_LAT (R309)
  { base := 0x7004C, words := [{ rc := 0xFFFFFFFF }] },  -- SPL_HOLD_CNT (R309)
  { base := 0x70050, words := [{ rc := 0xFFFFFFFF }] },  -- SPL_HB_MISS (R309)
  { base := 0x70054, words := [{ rc := 0xFFFFFFFF }] },  -- SPL_ACT_DISC (R309)
  { base := 0x70060, s1 := 4, n1 := 8, words := [{}] }  -- SPL_IMAGE_ID (R309)
]

/-- Registers of the TRC block. -/
def blockTRC : List RegDesc := [
  { base := 0x80000, words := [{ rw := 0xFD, wo := 2 }] },  -- TRC_CTL (R356)
  { base := 0x80004, words := [{ w1c := 0x1E0 }] },  -- TRC_STAT (R356)
  { base := 0x80008, words := [{ rw := 0xFFFFFFFF }, { rw := 0xFFFF }] },  -- TRC_BASE (R356)
  { base := 0x80010, words := [{ rw := 0xFFFFFFFF }] },  -- TRC_SIZE (R356)
  { base := 0x80014, words := [{}] },  -- TRC_WPTR (R356)
  { base := 0x80018, words := [{ rc := 0xFFFFFFFF }] },  -- TRC_LOST (R356)
  { base := 0x8001C, words := [{ rc := 0xFFFFFFFF }] },  -- TRC_PKTS (R356)
  { base := 0x80020, words := [{ rc := 0xFFFFFFFF }] },  -- TRC_PORT_DROP (R356)
  { base := 0x80030, words := [{ rw := 0xFFFFFF }] },  -- TRC_START_SEL (R356)
  { base := 0x80034, words := [{ rw := 0xFFFFFF }] },  -- TRC_STOP_SEL (R356)
  { base := 0x80038, words := [{ rw := 0xFFFFFF }] },  -- TRC_QUAL_SEL (R356)
  { base := 0x80040, s1 := 4, n1 := 8, words := [{ rw := 0xFFFFFFFF }] },  -- TRC_MSTR (R356)
  { base := 0x80060, s1 := 4, n1 := 4, words := [{ rw := 0xFFFFFFFF }] },  -- TRC_DMP_CORD (R356)
  { base := 0x80100, s1 := 0x10, n1 := 16, words := [{ rw := 0xFFFFFFFF }, { rw := 0x3FFFF }, { rw := 0xFFFFFFFF }, { rw := 0xFFFF }] },  -- TRC_CMP (R356)
  { base := 0x80200, s1 := 0x10, n1 := 8, words := [{ rw := 0xFFFFFFFF }, { rw := 0xFFFF }, { rw := 0xFFFFFFFF }, { rw := 0xFFFF }] }  -- TRC_RNG (R356)
]

/-- Registers of the NOC block. -/
def blockNOC : List RegDesc := [
  { base := 0x90000, words := [{ rw := 1, reset := 1 }] },  -- NOC_CTL (R121)
  { base := 0x90004, words := [{}] },  -- NOC_STAT (R121)
  { base := 0x90008, words := [{ rc := 0xFFFFFFFF }] },  -- NOC_ASLEEP_RESP (R121)
  { base := 0x9000C, words := [{ rc := 0xFFFFFFFF }] },  -- NOC_ASLEEP_DROP (R121)
  { base := 0x90010, words := [{ rc := 0xFFFFFFFF }] },  -- NOC_REROUTE (R121)
  { base := 0x98000, s1 := 0x100, n1 := 32, words := [{}] },  -- ESTN_STAT (R121)
  { base := 0x98004, s1 := 0x100, n1 := 32, words := [{ rc := 0xFFFFFFFF }] },  -- ESTN_STRAY (R121)
  { base := 0x91000, s1 := 0x40, n1 := 64, words := [{ rw := 0x3FFF07FD, wo := 2 }] },  -- NOC_PRB_CTL (R121)
  { base := 0x91004, s1 := 0x40, n1 := 64, words := [{ rw := 0xFFFFFFFF }] },  -- NOC_PRB_ID (R121)
  { base := 0x91008, s1 := 0x40, n1 := 64, words := [{ rw := 0xFFFFFFFF }, { rw := 0xFFFF }] },  -- NOC_PRB_ALO (R121)
  { base := 0x91010, s1 := 0x40, n1 := 64, words := [{ rw := 0xFFFFFFFF, reset := 0xFFFFFFFF }, { rw := 0xFFFF, reset := 0xFFFF }] },  -- NOC_PRB_AHI (R121)
  { base := 0x91018, s1 := 0x40, n1 := 64, words := [{ rw := 0x7F }] },  -- NOC_PRB_POS (R121)
  { base := 0x91020, s1 := 0x40, n1 := 64, words := [{}, {}] },  -- NOC_PRB_CNT (R121)
  { base := 0x91028, s1 := 0x40, n1 := 64, words := [{}, {}] },  -- NOC_PRB_BYTES (R121)
  { base := 0x92000, s1 := 0x80, n1 := 8, words := [{ rw := 0xFFF01 }] },  -- G32_INIT (R121)
  { base := 0x92004, s1 := 0x80, n1 := 8, words := [{ rc := 0xFFFFFFFF }] },  -- G32_BW (R121)
  { base := 0x92010, s1 := 0x80, n1 := 8, s2 := 4, n2 := 16, words := [{}] }  -- G32_HIST (R121)
]

/-- Registers of the TURN block. -/
def blockTURN : List RegDesc := [
  { base := 0x100000, words := [{ rw := 5, wo := 0x3A, reset := 4 }] },  -- TURN_CTL (R92)
  { base := 0x100004, words := [{ w1c := 0x700 }] },  -- TURN_STAT (R92)
  { base := 0x100008, words := [{}] },  -- TURN_HOLD_SRC (R92)
  { base := 0x10000C, words := [{}] },  -- TURN_CFG (R92)
  { base := 0x100010, words := [{}] },  -- TURN_ANCHOR (R92)
  { base := 0x100014, words := [{}] },  -- TURN_SPAN (R92)
  { base := 0x100018, words := [{}] },  -- TURN_DOUT (R92)
  { base := 0x10001C, words := [{}] },  -- TURN_PHASE (R92)
  { base := 0x100020, words := [{}, {}] },  -- TURN_NUM (R92)
  { base := 0x100028, words := [{}, {}, {}] },  -- TURN_T0 (R92)
  { base := 0x100038, words := [{}, {}] },  -- TURN_LT_OFFSET (R92)
  { base := 0x100040, words := [{ rc := 0xFFFFFFFF }] },  -- TURN_SLIP (R92)
  { base := 0x100044, words := [{ rc := 0xFFFFFFFF }] },  -- TURN_OVR_CNT (R92)
  { base := 0x100048, words := [{ rc := 0xFFFFFFFF }] },  -- TURN_CANCEL_CNT (R92)
  { base := 0x10004C, words := [{ rc := 0xFFFFFFFF }] },  -- TURN_IN_DROP (R92)
  { base := 0x100050, words := [{ reset := 0x1FFF }] },  -- TURN_SLACK_MIN (R92)
  { base := 0x100054, words := [{ rc := 0xFFFFFFFF }] }  -- TURN_BIN_DROP (R92)
]

/-- Registers of the CORD block. -/
def blockCORD : List RegDesc := [
  { base := 0x1000000, s1 := 0x20000, n1 := 128, words := [{ w1c := 8 }] },  -- CRD_STAT (R51)
  { base := 0x1000004, s1 := 0x20000, n1 := 128, words := [{ rw := 0x73F }] },  -- CRD_WIN_SEL (R51)
  { base := 0x1000008, s1 := 0x20000, n1 := 128, words := [{ rw := 0x10000, reset := 0x10000 }] },  -- CRD_SCRUB (R51)
  { base := 0x100000C, s1 := 0x20000, n1 := 128, words := [{}] },  -- CRD_SCRUB_PASS (R51)
  { base := 0x1000010, s1 := 0x20000, n1 := 128, words := [{ rc := 0xFFFFFFFF }] },  -- CRD_CE_EXEC (R51)
  { base := 0x1000014, s1 := 0x20000, n1 := 128, words := [{ rc := 0xFFFFFFFF }] },  -- CRD_CE_SCRUB (R51)
  { base := 0x1000018, s1 := 0x20000, n1 := 128, words := [{ rc := 0xFFFFFFFF }] },  -- CRD_UE_CNT (R51)
  { base := 0x100001C, s1 := 0x20000, n1 := 128, words := [{ w1c := 0x80000000 }] },  -- CRD_CE_LOC (R51)
  { base := 0x1000020, s1 := 0x20000, n1 := 128, words := [{ w1c := 0x80000000 }] },  -- CRD_UE_LOC (R51)
  { base := 0x1003000, s1 := 0x20000, n1 := 128, words := [{}] },  -- STN_STAT (R121)
  { base := 0x1003004, s1 := 0x20000, n1 := 128, words := [{ rc := 0xFFFFFFFF }] },  -- STN_STRAY (R121)
  { base := 0x1003008, s1 := 0x20000, n1 := 128, words := [{ rc := 0xFFFFFFFF }] },  -- STN_COLL (R121)
  { base := 0x100C000, s1 := 0x20000, n1 := 128, s2 := 0x40, n2 := 4, words := [{}] },  -- DMP_CFG (R141)
  { base := 0x100C004, s1 := 0x20000, n1 := 128, s2 := 0x40, n2 := 4, words := [{}, {}] },  -- DMP_BASE (R141)
  { base := 0x100C00C, s1 := 0x20000, n1 := 128, s2 := 0x40, n2 := 4, words := [{}, {}] },  -- DMP_SIZE (R141)
  { base := 0x100C014, s1 := 0x20000, n1 := 128, s2 := 0x40, n2 := 4, words := [{ w1c := 0x20 }] },  -- DMP_STAT (R141)
  { base := 0x100C018, s1 := 0x20000, n1 := 128, s2 := 0x40, n2 := 4, words := [{ rc := 0xFFFFFFFF }] },  -- DMP_LATE_DROP (R141)
  { base := 0x100C020, s1 := 0x20000, n1 := 128, s2 := 0x40, n2 := 4, words := [{}, {}, {}, {}] }  -- DMP_RDATA (R141)
]

/-- Registers of the LANE block, part 1. -/
def blockLANE1 : List RegDesc := [
  { base := 0x2000000, s1 := 0x2000, n1 := 1056, words := [{}] },  -- LANE_CFG (R208)
  { base := 0x2000004, s1 := 0x2000, n1 := 1056, words := [{}] },  -- LANE_RATE (R208)
  { base := 0x2000008, s1 := 0x2000, n1 := 1056, words := [{ rw := 0x1F }] },  -- LANE_CTL (R208)
  { base := 0x200000C, s1 := 0x2000, n1 := 1056, words := [{ w1c := 0xF00 }] },  -- LANE_STAT (R208)
  { base := 0x2000010, s1 := 0x2000, n1 := 1056, words := [{ rw := 0xFF, wo := 0x200 }] },  -- LANE_PRBS (R208)
  { base := 0x2000018, s1 := 0x2000, n1 := 1056, words := [{}, {}] },  -- LANE_PRBS_BITS (R208)
  { base := 0x2000020, s1 := 0x2000, n1 := 1056, words := [{}, {}] },  -- LANE_FEC_CW (R208)
  { base := 0x2000014, s1 := 0x2000, n1 := 1056, words := [{ rc := 0xFFFFFFFF }] },  -- LANE_PRBS_ERR (R208)
  { base := 0x2000028, s1 := 0x2000, n1 := 1056, words := [{ rc := 0xFFFFFFFF }] },  -- LANE_FEC_CORR (R208)
  { base := 0x200002C, s1 := 0x2000, n1 := 1056, words := [{ rc := 0xFFFFFFFF }] },  -- LANE_FEC_UNCORR (R208)
  { base := 0x2000030, s1 := 0x2000, n1 := 1056, words := [{ rc := 0xFFFFFFFF }] },  -- LANE_CODE_ERR (R208)
  { base := 0x2000084, s1 := 0x2000, n1 := 1056, words := [{ rc := 0xFFFFFFFF }] },  -- LANE_CAL_MARKS (R208)
  { base := 0x2000034, s1 := 0x2000, n1 := 1056, words := [{}] },  -- LANE_DSK (R208)
  { base := 0x2000040, s1 := 0x2000, n1 := 1056, words := [{}] },  -- LANE_EQ_TX (R208)
  { base := 0x2000044, s1 := 0x2000, n1 := 1056, words := [{}] },  -- LANE_EQ_RX (R208)
  { base := 0x2000048, s1 := 0x2000, n1 := 1056, s2 := 4, n2 := 3, words := [{}] },  -- LANE_EQ_DFE (R208)
  { base := 0x2000060, s1 := 0x2000, n1 := 1056, words := [{ rw := 3 }] },  -- LANE_CAL_PIN (R208)
  { base := 0x2000064, s1 := 0x2000, n1 := 1056, words := [{ rw := 0x7F7F7F }] },  -- LANE_CAL_OFS (R208)
  { base := 0x200006C, s1 := 0x2000, n1 := 1056, words := [{}] },  -- LANE_CAL_SH_OFS (R208)
  { base := 0x2000074, s1 := 0x2000, n1 := 1056, words := [{}] }  -- LANE_CAL_AP_OFS (R208)
]

/-- Registers of the LANE block, part 2. -/
def blockLANE2 : List RegDesc := [
  { base := 0x2000068, s1 := 0x2000, n1 := 1056, words := [{ rw := 0xFFFF }] },  -- LANE_CAL_THR (R208)
  { base := 0x2000070, s1 := 0x2000, n1 := 1056, words := [{}] },  -- LANE_CAL_SH_THR (R208)
  { base := 0x2000078, s1 := 0x2000, n1 := 1056, words := [{}] },  -- LANE_CAL_AP_THR (R208)
  { base := 0x200007C, s1 := 0x2000, n1 := 1056, words := [{ rw := 0xFF7F, reset := 0x1008 }] },  -- LANE_CAL_LIMIT (R208)
  { base := 0x2000080, s1 := 0x2000, n1 := 1056, words := [{}] },  -- LANE_CAL_DIST (R208)
  { base := 0x2000090, s1 := 0x2000, n1 := 1056, words := [{}] },  -- LANE_RXLAT_GB (R208)
  { base := 0x2000094, s1 := 0x2000, n1 := 1056, words := [{}] },  -- LANE_RXLAT_CDR (R208)
  { base := 0x20000A0, s1 := 0x2000, n1 := 1056, words := [{ rw := 0x1FFF3C, wo := 3, reset := 0x148224 }] },  -- LANE_ES_CTL (R208)
  { base := 0x20000A4, s1 := 0x2000, n1 := 1056, words := [{ w1c := 6 }] }  -- LANE_ES_STAT (R208)
]

/-- Registers of the TRG block, part 1. -/
def blockTRG1 : List RegDesc := [
  { base := 0x3000000, words := [{ wo := 1 }] },  -- TRG_CTL (R249)
  { base := 0x3000004, words := [{ w1c := 6 }] },  -- TRG_STAT (R249)
  { base := 0x3000008, words := [{ wo := 0xFF }] },  -- TRG_SOFT (R249)
  { base := 0x3000100, s1 := 4, n1 := 16, words := [{ wo := 7 }] },  -- CAP_SET (R249)
  { base := 0x3000200, s1 := 4, n1 := 8, words := [{ rw := 0x1FFFF, reset := 4 }] },  -- TRG_TOUT_CFG (R249)
  { base := 0x3001000, s1 := 0x200, n1 := 8, words := [{ rw := 1, wo := 6 }] },  -- TRG_SEQ_CTL (R249)
  { base := 0x3001004, s1 := 0x200, n1 := 8, words := [{ w1c := 0x20 }] },  -- TRG_SEQ_STAT (R249)
  { base := 0x3001100, s1 := 0x200, n1 := 8, s2 := 0x10, n2 := 16, words := [{ rw := 0xFFFFFFFF }, { rw := 0x3FFFFF }, { rw := 0xFFFFF }, { rw := 0xFFFF3FFF }] },  -- TRG_KNOT (R249)
  { base := 0x3002000, s1 := 0x10, n1 := 64, words := [{ rw := 0x3FF, wo := 0x400 }] },  -- TRG_CNT_CFG (R249)
  { base := 0x3002004, s1 := 0x10, n1 := 64, words := [{}] },  -- TRG_CNT_VAL (R249)
  { base := 0x3002008, s1 := 0x10, n1 := 64, words := [{ rw := 0xFFFFFFFF, reset := 0xFFFFFFFF }] },  -- TRG_CNT_CMP (R249)
  { base := 0x3003000, s1 := 4, n1 := 32, words := [{ rw := 0x7FFFFF }] },  -- TRG_LAGG (R249)
  { base := 0x3004000, s1 := 4, n1 := 1024, words := [{}] },  -- TRG_AEMAP (R249)
  { base := 0x3010000, s1 := 0x40, n1 := 1024, words := [{ rw := 0x3F }] },  -- CAP_CFG (R249)
  { base := 0x3010004, s1 := 0x40, n1 := 1024, words := [{ wo := 7 }] },  -- CAP_CTL (R249)
  { base := 0x3010008, s1 := 0x40, n1 := 1024, words := [{ w1c := 0x20 }] },  -- CAP_STAT (R249)
  { base := 0x301000C, s1 := 0x40, n1 := 1024, words := [{ rw := 0xFFFFFFFF }, { rw := 0xFFFF }] },  -- CAP_BASE (R249)
  { base := 0x3010014, s1 := 0x40, n1 := 1024, words := [{ rw := 0xFFFFFFFF }] },  -- CAP_SIZE (R249)
  { base := 0x3010018, s1 := 0x40, n1 := 1024, words := [{ rw := 0xFFFFFFFF }] },  -- CAP_POST (R249)
  { base := 0x301001C, s1 := 0x40, n1 := 1024, words := [{}] }  -- CAP_WPTR (R249)
]

/-- Registers of the TRG block, part 2. -/
def blockTRG2 : List RegDesc := [
  { base := 0x3010020, s1 := 0x40, n1 := 1024, words := [{}] },  -- CAP_TRIG_BLK (R249)
  { base := 0x3010024, s1 := 0x40, n1 := 1024, words := [{}] },  -- CAP_TRIG_SLOT (R249)
  { base := 0x3010028, s1 := 0x40, n1 := 1024, words := [{}, {}] },  -- CAP_TRIG_TS (R249)
  { base := 0x3010030, s1 := 0x40, n1 := 1024, words := [{ rc := 0xFFFFFFFF }] },  -- CAP_BLKS (R249)
  { base := 0x3010034, s1 := 0x40, n1 := 1024, words := [{ rc := 0xFFFFFFFF }] },  -- CAP_DROP (R249)
  { base := 0x3010038, s1 := 0x40, n1 := 1024, words := [{}] }  -- CAP_SEQ (R249)
]

/-- Registers of the PAT block. -/
def blockPAT : List RegDesc := [
  { base := 0x3100000, s1 := 0x40, n1 := 1024, words := [{ rw := 0x3F }] },  -- PAT_CFG (R250)
  { base := 0x3100004, s1 := 0x40, n1 := 1024, words := [{ rw := 7, wo := 8 }] },  -- PAT_CTL (R250)
  { base := 0x3100008, s1 := 0x40, n1 := 1024, words := [{ w1c := 0xE0 }] },  -- PAT_STAT (R250)
  { base := 0x310000C, s1 := 0x40, n1 := 1024, words := [{ rw := 0xFFFFFFFF }, { rw := 0xFFFF }] },  -- PAT_DESC_BASE (R250)
  { base := 0x3100014, s1 := 0x40, n1 := 1024, words := [{ rw := 0xFFFFFFFF }] },  -- PAT_DESC (R250)
  { base := 0x3100018, s1 := 0x40, n1 := 1024, words := [{}] },  -- PAT_CUR (R250)
  { base := 0x310001C, s1 := 0x40, n1 := 1024, words := [{}] },  -- PAT_LOOP (R250)
  { base := 0x3100020, s1 := 0x40, n1 := 1024, words := [{}, {}] },  -- PAT_BLKS (R250)
  { base := 0x3100028, s1 := 0x40, n1 := 1024, words := [{ rc := 0xFFFFFFFF }] }  -- PAT_UNDER (R250)
]

/-- Registers of the ACT block. -/
def blockACT : List RegDesc := [
  { base := 0x3200000, words := [{ rc := 0xFFF000 }] },  -- ACT_STAT (R267)
  { base := 0x3200010, words := [{ rw := 0x3FFF }] },  -- ACT_HPOST_Q (R267)
  { base := 0x3200014, words := [{ w1c := 4 }] },  -- ACT_HPOST_STAT (R267)
  { base := 0x3200020, words := [{ rw := 0xFFFFFFFF }, { rw := 0xFFFFFFFF }, { rw := 0xFFFFFFFF }, { rw := 0xFFFFFFFF }] },  -- ACT_HPOST_ITEM (R267)
  { base := 0x3200030, words := [{ rc := 0xFFFFFFFF }] },  -- ACT_AE_DROP (R267)
  { base := 0x3200034, words := [{ rc := 0xFFFFFFFF }] },  -- ACT_MOVE_CNT (R267)
  { base := 0x3200038, words := [{ rc := 0xFFFFFFFF }] },  -- ACT_BADQ (R267)
  { base := 0x320003C, words := [{ rc := 0xFFFFFFFF }] },  -- ACT_TIN_UNASSIGNED (R267)
  { base := 0x3200100, s1 := 0x10, n1 := 4, words := [{ rw := 0xFFFFF, reset := 0x3E8 }] },  -- ACT_DL_CFG (R267)
  { base := 0x3200104, s1 := 0x10, n1 := 4, words := [{ w1c := 0x2000 }] },  -- ACT_DL_STAT (R267)
  { base := 0x3200108, s1 := 0x10, n1 := 4, words := [{}] },  -- ACT_DL_NOW (R267)
  { base := 0x3201000, s1 := 4, n1 := 64, words := [{}] },  -- ACT_UNIT (R267)
  { base := 0x3210000, s1 := 0x10, n1 := 16384, words := [{}] },  -- ACT_Q_CFG (R267)
  { base := 0x3210004, s1 := 0x10, n1 := 16384, words := [{}] },  -- ACT_Q_BASE (R267)
  { base := 0x3210008, s1 := 0x10, n1 := 16384, words := [{}] },  -- ACT_Q_STAT (R267)
  { base := 0x321000C, s1 := 0x10, n1 := 16384, words := [{ rc := 0xFFFFFFFF }] },  -- ACT_Q_REFUSED (R267)
  { base := 0x3250000, s1 := 0x20, n1 := 4096, words := [{}] },  -- ACT_FL_FLAGS (R267)
  { base := 0x3250004, s1 := 0x20, n1 := 4096, words := [{}] },  -- ACT_FL_MASK (R267)
  { base := 0x3250008, s1 := 0x20, n1 := 4096, words := [{ wo := 0xFFFFFFFF }] },  -- ACT_FL_SET (R267)
  { base := 0x325000C, s1 := 0x20, n1 := 4096, words := [{}] }  -- ACT_FL_STAT (R267)
]

/-- Registers of the BNK block. -/
def blockBNK : List RegDesc := [
  { base := 0x3300000, s1 := 0x10, n1 := 64, words := [{ rw := 0x1FF, reset := 1 }] },  -- BNK_OWN (R142)
  { base := 0x3300004, s1 := 0x10, n1 := 64, words := [{ w1c := 4, rc := 0xFFFF00 }] },  -- BNK_STAT (R142)
  { base := 0x3300008, s1 := 0x10, n1 := 64, words := [{ rc := 0xFFFFFFFF }] },  -- BNK_PORT_DELAY (R142)
  { base := 0x3301000, s1 := 4, n1 := 384, words := [{}] },  -- BNK_GRN (R142)
  { base := 0x3301600, words := [{ rc := 0xFFFFFFFF }] }  -- BNK_DRAM_DENIED (R142)
]

/-- Registers of the EDG block. -/
def blockEDG : List RegDesc := [
  { base := 0x3400000, words := [{ w1c := 4, reset := 1 }] },  -- EDG_STAT (R184)
  { base := 0x3400004, words := [{}] },  -- EDG_CLK (R184)
  { base := 0x3400008, words := [{}] },  -- EDG_CONT_CNT (R184)
  { base := 0x340000C, words := [{ w1c := 0x80000000 }] },  -- EDG_CONT_LINE (R184)
  { base := 0x3400010, s1 := 4, n1 := 2, words := [{ rc := 0xFFFFFFFF }] },  -- EDG_TIN_UNASSIGNED (R184)
  { base := 0x3400018, words := [{ rc := 0xFFFFFFFF }] },  -- EDG_TIN_STBY (R184)
  { base := 0x3400020, s1 := 4, n1 := 2, words := [{ rc := 0xFFFFFFFF }] },  -- EDG_POST_STALL (R184)
  { base := 0x3400028, s1 := 4, n1 := 2, words := [{ rc := 0xFFFFFFFF }] },  -- EDG_BM_COLL (R184)
  { base := 0x3400100, s1 := 4, n1 := 6, words := [{}] },  -- EDG_CAL (R184)
  { base := 0x3401000, s1 := 4, n1 := 192, words := [{ rwl := 0x1FFFFF }] }  -- EDG_IOC (R184)
]

/-- The blocks of the control address map (R363): first address, end address, registers. -/
def blocks : List (Nat × Nat × List RegDesc) := [
  (0, 0x10000, blockHST),
  (0x10000, 0x20000, blockFLT),
  (0x20000, 0x30000, blockPWR),
  (0x30000, 0x40000, blockTIME),
  (0x40000, 0x50000, blockPIN),
  (0x50000, 0x60000, blockCFG),
  (0x60000, 0x70000, blockSEC),
  (0x70000, 0x80000, blockSPL),
  (0x80000, 0x90000, blockTRC),
  (0x90000, 0xA0000, blockNOC),
  (0x100000, 0x110000, blockTURN),
  (0x1000000, 0x2000000, blockCORD),
  (0x2000000, 0x2840000, blockLANE1 ++ blockLANE2),
  (0x3000000, 0x3100000, blockTRG1 ++ blockTRG2),
  (0x3100000, 0x3200000, blockPAT),
  (0x3200000, 0x3300000, blockACT),
  (0x3300000, 0x3310000, blockBNK),
  (0x3400000, 0x3410000, blockEDG)]

/-- Where address `a` lies in register `d`: the number of the word, when it is one of the register's words. -/
def RegDesc.wordAt (d : RegDesc) (a : Nat) : Option Nat :=
  if a < d.base then none else
  let o := a - d.base
  let i := if d.s1 = 0 then 0 else o / d.s1
  let o1 := if d.s1 = 0 then o else o % d.s1
  let j := if d.s2 = 0 then 0 else o1 / d.s2
  let o2 := if d.s2 = 0 then o1 else o1 % d.s2
  if i < d.n1 ∧ j < d.n2 ∧ o2 / 4 < d.words.length then some (o2 / 4) else none

/-- A found register word: the register, and the word's number in it. -/
structure Hit where
  reg : RegDesc
  word : Nat
  deriving DecidableEq, Repr

/-- The first register of a list that holds address `a`. -/
def findIn : List RegDesc → Nat → Option Hit
  | [], _ => none
  | d :: ds, a =>
    match RegDesc.wordAt d a with
    | some w => some ⟨d, w⟩
    | none => findIn ds a

/-- The block that holds address `a`. -/
def findBlock : List (Nat × Nat × List RegDesc) → Nat → List RegDesc
  | [], _ => []
  | (lo, hi, rs) :: bs, a => if lo ≤ a ∧ a < hi then rs else findBlock bs a

/-- The register word at address `a`, if the map has one (R363: addresses not listed read 0 and discard writes). -/
def find (a : Nat) : Option Hit := findIn (findBlock blocks a) a

/-- The descriptor of the word at address `a`; an unlisted address reads 0 and has no writable bit. -/
def desc (a : Nat) : WordDesc :=
  match find a with
  | some h => h.reg.words.getD h.word {}
  | none => {}

/-- The reset value of the word at address `a` (R14). -/
def resetWord (a : Nat) : W32 := BitVec.ofNat 32 (desc a).reset

end RegMap
end Sys2Proof.Machine
end

