-- ==== Sys2Proof/Machine/State.lean ====
section
/-! DEFINITION. The state of the device: every register and memory the spec gives it, the state inside its blocks that the
spec's rules imply, and the queue of commands. -/

namespace Sys2Proof.Machine

/-! ### Strands and the turn (chapters 02, 03, 04) -/

/-- An inbox latch (R37). `at_` is the step of this turn at which a bight was delivered, `key` that bight's
direction × 64 + position (R104), and `prevVal`, `prevValid` the latch before it: reads at step `at_` see those. -/
structure Latch where
  val : Bool := false
  valid : Bool := false
  at_ : Option Nat := none
  key : Nat := 0
  prevVal : Bool := false
  prevValid : Bool := false
  deriving DecidableEq, Repr

/-- A strand's storage (R31) and its place in the schedule. -/
structure Strand where
  /-- H0–H127 (R34) -/
  hist : W128 := 0
  /-- the history at the end of step L − 1 of the committed turn (R44) -/
  histSave : W128 := 0
  /-- S[0]–S[1023] (R36) -/
  store : BitVec 1024 := 0
  /-- the next schedule step -/
  pos : Nat := 0
  /-- staged state writes of the turn (R58), by state address -/
  staged : SMap Bool := []
  inbox : SMap Latch := []
  /-- valid bits at the start of the last commit (R49) -/
  snap : W32 := 0
  /-- schedule steps that a cancelled prefix of this turn has executed (R58, R154) -/
  redo : Nat := 0
  deriving DecidableEq, Repr

/-- What the strand core is doing (R76, R77). -/
inductive Phase where
  | slack | early | turn
  deriving DecidableEq, Repr

/-- A turn output set that waits for its release (R81); `due`: the boundary B′ has passed. -/
structure OutSet where
  due : Bool
  turn : Nat
  words : SMap W128
  deriving DecidableEq, Repr

/-- A word of a turn input window (R20, R22): data, stamp, and its place among words of equal stamps: master ID × 64 + port
(R22, R173). -/
structure BinWord where
  data : W128
  stamp : Nat
  rank : Nat
  deriving DecidableEq, Repr

/-- The strand core as a whole. -/
structure Core where
  phase : Phase := .slack
  /-- the schedule step in execution, none before the first step of the turn -/
  cur : Option Nat := none
  /-- device time at the start of the step in execution (R152) -/
  stepAt : Nat := 0
  /-- executed schedule and commit steps before step 0 of this turn (R126 counts these) -/
  base : Nat := 0
  /-- step-clock edges since commit step 23 that no turn has executed, in edges of the time clock (R130) -/
  idle : Nat := 0
  /-- schedule steps that cancelled prefixes of the next turn have executed, and the cords that did (R44, R154) -/
  redo : Nat := 0
  redoBy : BitVec 128 := 0
  /-- the first edge of the turn in progress, as R130 counts edges (R126) -/
  turnEdge : Nat := 0
  /-- cords in their first turn after load (R43) -/
  first : BitVec 128 := 0
  /-- the prefix of the next turn may start early (R77) -/
  earlyOk : Bool := false
  /-- number of boundaries passed since the full-image commit, which is the number of the next one -/
  boundary : Nat := 0
  /-- the number of the boundary at T0, the current grid origin (R73, R89, R90) -/
  origin : Nat := 0
  /-- the first boundary after the commit has passed: binning runs (R21) -/
  started : Bool := false
  /-- one more than the number of the boundary whose closing window the turn in progress reads (R79); 0 for none -/
  readWin : Nat := 0
  /-- device time minus line time under timebase lock, in line ticks (R71); TURN_LT_OFFSET shows its low 64 bits -/
  ltOff : Int := 0
  /-- no turn starts at a boundary before this device time: the step clock has just become stable (R91) -/
  notBefore : Option Int := none
  /-- device time of a boundary that the turn in progress has missed and that is not reported yet; a missed boundary of it has
  been reported (R87) -/
  missed : Option Nat := none
  overran : Bool := false
  /-- words the anchor lane has delivered since PCS lock (R72) -/
  anchor : Nat := 0
  /-- the measurement of the anchor's rate: device time at its start and words since (R92) -/
  rateAt : Nat := 0
  rateWords : Nat := 0
  /-- the anchor count and the device time at the anchor loss (R88) -/
  flyCount : Nat := 0
  flyAt : Int := 0
  /-- T0 is the first anchor word at or after this device time (R73, R89) -/
  anchorT0 : Option Nat := none
  /-- a single-stepped turn is running (R86) -/
  stepping : Bool := false
  /-- a commit has ended since the last boundary: the turn completed in time (R87) -/
  committed : Bool := false
  /-- assertion events pending in this turn: earliest step and strand (R62) -/
  asserts : SMap (Nat × Nat) := []
  /-- turn input windows, by the number of the closing boundary × 2^18 + cord × 2048 + word (R79) -/
  windows : SMap BinWord := []
  /-- pending output set: last value written to each word, by cord × 2048 + word (R80) -/
  outPend : SMap W128 := []
  /-- committed output sets, oldest first (R80, R81) -/
  outComm : List OutSet := []
  /-- visible output set (R81) -/
  outVis : SMap W128 := []
  deriving DecidableEq, Repr

/-! ### Ring network and memories (chapters 05, 06) -/

/-- A bight on a link or LOCAL loop: the station it travels to, its direction of travel, position, value, the step at
which it is present there, and whether a prefix step injected it (R98–R100, R119). -/
structure Bight where
  stn : Nat
  dir : Nat
  pos : Nat
  val : Bool
  at_ : Nat
  spec : Bool
  deriving DecidableEq, Repr

/-- A port operation from FIRE until its data has entered the read register or its write has landed (R125, R126). Steps
are counted over executed schedule and commit steps. -/
structure PortOp where
  mode : Nat
  write : Bool
  addr : Nat
  data : W128
  be : Byte
  /-- lowest strand within the cord that set FIRE, and the FIRE step -/
  strand : Nat
  step : Nat
  turn : Nat
  fire : Nat
  access : Nat
  ret : Nat
  /-- device time at the start of the FIRE step (R152) -/
  time : Nat
  /-- refused by R125 -/
  bad : Bool := false
  accessed : Bool := false
  /-- delayed by a busy bank (R130); it arrived there while the bank granted it (R135) -/
  delayed : Bool := false
  granted : Bool := false
  /-- it waits in a bank under handover (R135) -/
  waiting : Bool := false
  /-- word read -/
  got : W128 := 0
  /-- deferred read: its data has arrived (R131) -/
  arrived : Bool := false
  /-- deferred read: its due edge has passed without data -/
  late : Bool := false
  deriving DecidableEq, Repr

/-- A memory port DMPq (R124, R126). -/
structure Port where
  stage : BitVec 256 := 0
  rdata : W128 := 0
  /-- the read register before the last entry of data, and the step at whose start that entry took effect -/
  rprev : W128 := 0
  entry : Nat := 0
  /-- staging bits written at step `wstep`, with the lowest strand that wrote each (R60) -/
  wstep : Nat := 0
  writers : SMap Nat := []
  /-- FIRE set at a step, with the lowest strand; the operation starts in the next step (R61) -/
  fire : Option (Nat × Nat) := none
  /-- device time at the start of that step -/
  fireTime : Nat := 0
  /-- operations in FIRE order -/
  ops : List PortOp := []
  /-- deferred data missed its edge: port latch reads of this turn are late (R131) -/
  lateTurn : Bool := false
  deriving DecidableEq, Repr

/-- An access that waits in a scratch bank in PENDING (R135): a packet, or an operation of a port. -/
inductive BankWait where
  | packet (p : Packet) (write posted : Bool)
  | port (key : Nat) (op : PortOp)
  deriving DecidableEq, Repr

/-- Port operations of a scratch bank at an access step (R130): the step, how many have been performed, the port after which
the round robin of the step begins, and the port performed last in its order. -/
structure BankUse where
  step : Nat
  count : Nat
  base : Nat
  last : Nat
  deriving DecidableEq, Repr

/-- A word overwritten by a port write at an access step: reads at the same access step see it (R129). -/
structure OldWord where
  addr : Nat
  step : Nat
  word : W128
  deriving DecidableEq, Repr

/-- A response of the network to its requester (R109). -/
structure Response where
  p : Packet
  data : Bool
  /-- station of the target that answered -/
  stn : Nat
  deriving DecidableEq, Repr

/-- The ring network: slot tables, bights and packets under way. -/
structure Ring where
  /-- slot table entries, keyed by copy, station, side, step, direction and position (R101–R103) -/
  slots : SMap W32 := []
  bights : List Bight := []
  /-- probes that recorded a speculative bight since the last commit (R119) -/
  specProbes : List Nat := []
  /-- responses sent and not yet delivered (R109) -/
  resps : List Response := []
  /-- latency bins of the GN32 monitors, by monitor × 16 + bin (R120) -/
  bins : SMap Nat := []
  /-- requests with their operation codes that wait in front of closed stations, by arrival (R116) -/
  parked : List (Nat × Packet) := []
  /-- accesses waiting in pending banks, by arrival (R135) -/
  waits : List (Nat × BankWait) := []
  /-- owners that take pending banks: bank to (owner, cord group) (R135) -/
  nextOwner : SMap (MasterId × Bool) := []
  /-- the last access step of each bank at which port operations were performed (R130) -/
  bankUse : SMap BankUse := []
  oldWords : List OldWord := []
  /-- last values that the inject entries of the cord stations carried, by slotKey of copy 0; those of a prefix wait for its
  turn to start (R290) -/
  lastInj : SMap Bool := []
  specInj : SMap Bool := []
  deriving DecidableEq, Repr

/-! ### Faults (chapter 15) -/

/-- A fault report held in a source (R312), with the fields of the first-error record (R322). `ord` orders the faults of
one step of one strand (R53); `count` counts the occurrences. -/
structure Report where
  src : Nat
  code : Nat
  master : MasterId
  acc : Nat
  addr : Nat
  time : Nat
  turn : Nat
  strand : Nat
  step : Nat
  ord : Nat := 0
  count : Nat := 1
  deriving DecidableEq, Repr

/-! ### Lanes, capture and pattern channels (chapters 09, 11) -/

/-- A change of an applied calibration value that waits for its boundary (R198): value, new code, SRC of the mark. -/
structure CalChange where
  sel : CalSel
  new : Int
  src : Nat
  deriving DecidableEq, Repr

/-- A lane, beyond its registers. -/
structure Lane where
  /-- transmit source in force (R192) -/
  txSrc : Nat := 0
  /-- the word on the transmit side, none for electrical idle, and where in its wire bits the pattern starts that TSPT selects (R217) -/
  tx : Option TxWord := none
  txStart : Option Nat := none
  /-- the word at the lane word interface (R171), and RXTS of its start pattern (R218) -/
  rx : Option RxWord := none
  rxts : W64 := 0
  /-- receive words since the last refresh of the latency terms (R202) -/
  words : Nat := 0
  /-- generator and checker registers of the PRBS unit (R194): the generator starts with ones, and goes on from its register when
  GEN_POLY changes. DESIGN CHOICE (log 121) -/
  gen : W32 := 0x7FFFFFFF
  chk : W32 := 0
  /-- consecutive matching bits of the unlocked checker; mismatches among the last 64 bits of the locked one, the latest in
  bit 0 (R194) -/
  matched : Nat := 0
  missed : W64 := 0
  /-- wire bits of the transmit word, where the spec gives them, before the PAM4 mapping; the pairs of a PAM4 lane after it, and
  the precoder's last symbol (R187, R194) -/
  txBits : Option (BitVec 80) := none
  txSyms : Option (BitVec 80) := none
  pre : Nat := 0
  /-- the far-end loopback's buffer, the oldest bit first (R193) -/
  fe : List Bool := []
  /-- wire bits received since CDR lock (R199), and the first bit of a unit of R198 in that count -/
  wireBits : BitVec 40 := 0
  unitAt : Option (BitVec 40) := none
  /-- when the lane met its group's deskew marker, in words from an instant that the group shares (R190) -/
  skew : Option Nat := none
  cal : List CalChange := []
  /-- eye map, by row × 64 + column; an unlisted point is not scanned (R204) -/
  eye : SMap Nat := []
  /-- row × 64 + column of the point being scanned (R203) -/
  point : Nat := 0
  /-- a micro-step was applied during the point (R204) -/
  disturbed : Bool := false
  deriving DecidableEq, Repr

/-- A closed capture block (R229, R233). -/
structure CapBlock where
  kind : Nat
  ts : W64
  entries : List W64 := []
  recs : List W128 := []
  err : Bool := false
  fec : Bool := false
  spec : Bool := false
  trig : Bool := false
  payload : Bytes := []
  deriving DecidableEq, Repr

/-- The DATA block being filled (R230); `broken`: the filter has dropped a word since its first entry (R238). -/
structure OpenBlock where
  ts : W64
  entries : List W64
  recs : List W128
  err : Bool
  fec : Bool
  trig : Bool
  broken : Bool := false
  /-- cycles without an entry since entry 0 (R230) -/
  gaps : Nat := 0
  deriving DecidableEq, Repr

/-- An entry at a capture channel (R227, R229): `fresh`, it passed the lane word interface while a TRIG waited (R236). -/
structure CapEntry where
  data : W64
  ts : W64
  err : Bool
  fec : Bool
  fresh : Bool
  deriving DecidableEq, Repr

/-- The wire bits of the WIRE entry being gathered, the first received in bit 0 (R227). -/
structure WirePart where
  bits : W64 := 0
  n : Nat := 0
  ts : W64 := 0
  err : Bool := false
  fec : Bool := false
  deriving DecidableEq, Repr

/-- A capture channel, beyond its registers (R234–R238). -/
structure Capture where
  part : WirePart := {}
  opened : Option OpenBlock := none
  /-- records that wait for the next entry (R232) -/
  recs : List W128 := []
  held : List CapBlock := []
  /-- a TRIG has arrived and its trigger entry has not (R236) -/
  trigWait : Bool := false
  /-- the trigger block has been closed -/
  trigDone : Bool := false
  /-- blocks written from the trigger block on -/
  posted : Nat := 0
  /-- the filter's delay, oldest first: an entry or a cycle without one (R238) -/
  delay : List (Option CapEntry) := []
  /-- short timestamp of the first word lost (R237) -/
  lost : Option W64 := none
  deriving DecidableEq, Repr

/-- A pattern descriptor (R246). -/
structure PatDesc where
  data : Nat
  nblk : Nat
  loop : Nat
  ctl : Nat
  next : Nat
  hasCtl : Bool
  deriving DecidableEq, Repr

/-- A frame in a pattern channel's FIFO (R245, R262). -/
structure Frame where
  words : List TxWord
  deriving DecidableEq, Repr

/-- A pattern channel, beyond its registers (R245–R248). -/
structure Pattern where
  /-- words emitted in the current pattern block -/
  idx : Nat := 0
  /-- requested source and descriptor that wait for a boundary (R245) -/
  request : Option (Nat × Nat) := none
  /-- a fetched descriptor: its index, and none where its check failed (R246) -/
  fetched : Option (Nat × Option PatDesc) := none
  desc : Option PatDesc := none
  /-- block of the segment being played -/
  blk : Nat := 0
  /-- the segment's plays are over -/
  ended : Bool := false
  /-- idle words still to emit in place of a missing block (R247) -/
  idle : Nat := 0
  fifo : List Frame := []
  /-- words of the frame being played -/
  frame : List TxWord := []
  deriving DecidableEq, Repr

/-! ### Edge fabric (chapter 08) -/

/-- A logic block at run time: macrocell registers (`q1`: the first register of synchronizers), the outputs as they stand
and the distributed memory (R161, R163). -/
structure EdgeBlock where
  q : W64 := 0
  q1 : W64 := 0
  out : W64 := 0
  ram : SMap W64 := []
  deriving DecidableEq, Repr

/-- A write of a block memory port since the last edge of the other port's clock: row, mask, and the row before it (R167). -/
structure RecentWrite where
  row : Nat
  mask : BitVec 36
  old : BitVec 36
  deriving DecidableEq, Repr

/-- A block memory at run time: rows, read data of ports A and B before and behind the output registers, and which port
comes first at the next write collision (R164, R166). -/
structure EdgeMem where
  rows : SMap (BitVec 36) := []
  rdA : BitVec 72 := 0
  rdB : BitVec 72 := 0
  outA : BitVec 72 := 0
  outB : BitVec 72 := 0
  bFirst : Bool := false
  /-- where the ports have clocks of their own: writes of each port since the other's last edge, and what each port has written and
  the address that it has read at its own last edge (R167) -/
  wroteA : List RecentWrite := []
  wroteB : List RecentWrite := []
  lastA : Option RecentWrite := none
  lastB : Option RecentWrite := none
  readA : Option Nat := none
  readB : Option Nat := none
  deriving DecidableEq, Repr

/-- A turn-output read under way: port, edges left, word (R175). -/
structure OutRead where
  port : Nat
  left : Nat
  data : W128
  deriving DecidableEq, Repr

/-- An I/O cell: registers (first and second bit) and the taps in force (R179, R180). -/
structure IoCell where
  in0 : Bool := false
  in1 : Bool := false
  out0 : Bool := false
  out1 : Bool := false
  oe0 : Bool := false
  oe1 : Bool := false
  idly : Nat := 0
  odly : Nat := 0
  /-- the level at the cell's input has moved since the last rising edge of its clock (R179) -/
  moved : Bool := false
  deriving DecidableEq, Repr

/-- The edge fabric: the configuration in force and its run-time state. -/
structure Edge where
  blocks : SMap BlockCfg := []
  mems : SMap MemCfg := []
  die : DieCfg := {}
  /-- block memory contents that the cast gives (R164), by block × 1024 + row -/
  memInit : SMap (BitVec 36) := []
  st : SMap EdgeBlock := []
  memSt : SMap EdgeMem := []
  /-- values of the long lines (R168), by line address -/
  lines : SMap Bool := []
  /-- lines whose drivers the loader disabled (R169) -/
  dead : List Nat := []
  /-- source values of the bridge bits and event wires at past core edges of each die, newest first (R176, R178) -/
  bridgePipe : SMap (List (BitVec 256)) := []
  wirePipe : SMap (List (BitVec 128)) := []
  reads : List OutRead := []
  /-- data of the turn-output read ports, by die × 32 + port -/
  rdata : SMap W128 := []
  /-- REL and WIN of each die, until its next core edge; REL_TURN (R175) -/
  rel : BitVec 2 := 0
  relTurn : Byte := 0
  win : BitVec 2 := 0
  ios : SMap IoCell := []
  /-- isolated edge block rows (R182), and the values that signals leaving them present: long lines by line address, bridge
  bits from 2^14, event wires from 2^15 (R290) -/
  iso : W64 := 0
  border : SMap Bool := []
  /-- outputs of the isolated blocks' macrocells at the isolating boundary, by block (R182, R290) -/
  kept : SMap W64 := []
  /-- the macrocells that give the KEEP bits of filtered lanes (R238) -/
  keeps : SMap Nat := []
  deriving DecidableEq, Repr

/-! ### Action plane (chapter 12) -/

/-- A waited or posted operation in flight (R260, R261). -/
inductive ActOp where
  | load (dst addr : Nat)
  | store (addr : Nat) (v : W64)
  | count (addr : Nat) (v : W64)
  | build (addr : Nat)
  | sendp (channel : Nat)
  | sendt (cord word : Nat) (data : W128)
  | post (queue : Nat) (item : W128)
  | flag (flow flag : Nat)
  | soft (i : Nat)
  | delay (list flag at_ : Nat)
  | cancel (list flag dst : Nat)
  deriving DecidableEq, Repr

/-- An action unit, beyond its register (R257–R260): V0–V15, the frame buffer, nodes executed in the service, successors of
the node that is waited for (NEXT, ALT), END executed, operations in flight (oldest first), and the flows whose contexts it
caches (most recent first). -/
structure Unit_ where
  v : List W64 := List.replicate 16 0
  frame : List TxWord := []
  nodes : Nat := 0
  wait : Option (Nat × Nat) := none
  ended : Bool := false
  ops : List ActOp := []
  cache : List Nat := []
  /-- entries that the service has added to a delay list, by tick of expiry, and removed from one (R300) -/
  added : List (BitVec 2 × DelayEntry) := []
  removed : List (BitVec 2 × DelayEntry) := []
  deriving DecidableEq, Repr

/-- A flow, beyond its registers (R255–R258): entry offsets, V2–V9, whether a unit has served it, and whether its wait for
its last unit has expired. -/
structure Flow where
  entry : List Nat := []
  v : List W64 := List.replicate 8 0
  served : Bool := false
  tired : Bool := false
  deriving DecidableEq, Repr

/-- An entry of a delay list: the tick count at which it expires, flow, flag (R264). -/
structure DelayItem where
  at_ : Nat
  flow : Nat
  flag : Nat
  deriving DecidableEq, Repr

/-- The action plane. -/
structure Action where
  units : SMap Unit_ := []
  flows : SMap Flow := []
  graph : SMap W128 := []
  /-- items popped from each queue -/
  heads : SMap Nat := []
  /-- delay lists in order of insertion, and the full tick counts -/
  lists : SMap (List DelayItem) := []
  nows : SMap Nat := []
  /-- the flow after which the round robin of each priority goes on (R258) -/
  turnOf : SMap Nat := []
  /-- buffer words (cord × 2048 + word) that units fill, and queues of assertion events -/
  tin : List (Nat × Nat) := []
  eventQ : SMap Nat := []
  deriving DecidableEq, Repr

/-! ### Redundant pairs (chapter 14) -/

/-- An item handed to the Iluben link (R298, R300). -/
inductive MirrorItem where
  | hello (h : Hello)
  | word (turn : Nat) (idx : Nat) (data : W128)
  | flags (turn : Nat) (flags : List Bool)
  | heartbeat (boundary : Nat) (starts : Option Nat) (digest : Option (Nat × Nat))
  | delta (d : FlowDelta)
  | time (a : TimeAdj)
  | trigOut (j : Nat)
  | part (release : Bool) (turn : Nat)
  deriving DecidableEq, Repr

/-- What a STANDBY device holds of a turn (R299, R300): the words of its window by index, the written flags, A(j) in line
ticks once the heartbeat that starts it has arrived, and the flow context deltas. -/
structure HeldTurn where
  words : SMap W128 := []
  flags : Option (List Bool) := none
  start : Option Int := none
  deltas : List FlowDelta := []
  deriving DecidableEq, Repr

/-- The splice unit, beyond its registers. -/
structure Splice where
  /-- SPLICE_ROLE and the driven OK_OUT code, P in bit 1 (R303) -/
  rolePin : Bool := false
  okOut : BitVec 2 := 0
  /-- the pair has formed; the line time from which the ACTIVE device's turn 0 may start (R299) -/
  paired : Bool := false
  startAt : Int := 0
  /-- windows and turn records received, by turn -/
  held : SMap HeldTurn := []
  /-- digests of the ACTIVE device by turn (R302) -/
  digests : SMap Nat := []
  /-- a heartbeat has arrived since the last boundary (R304) -/
  beat : Bool := false
  /-- when the last heartbeat arrived, PARTNER_OK last changed, and loss was declared (R304, R305) -/
  beatAt : Int := 0
  pinsAt : Int := 0
  promoAt : Int := 0
  /-- A(j) of the last turn started under R299, in line ticks -/
  lastA : Int := 0
  /-- the first own-input turn n_f + 1, and the boundary Bs once it is known (R305) -/
  own : Nat := 0
  bs : Option Nat := none
  /-- the digest of the last committed turn waits for the next heartbeat (R300) -/
  digestNew : Bool := false
  /-- turn numbers of a partial reconfiguration announced by the ACTIVE device: isolation and release (R300) -/
  partIso : Option Nat := none
  partRel : Option Nat := none
  /-- items handed to the link since commit, oldest first -/
  sent : List MirrorItem := []
  deriving DecidableEq, Repr

/-! ### Trace (chapter 17) -/

/-- A record in the trace unit's input queue with its stamp (R345, R346). -/
structure QueuedRec where
  item : TraceRec
  stamp : Nat
  deriving DecidableEq, Repr

/-- The trace unit. -/
structure Trace where
  queue : List QueuedRec := []
  /-- records lost since the last OVERFLOW packet, and that a record has left the queue since: OVERFLOW goes first (R346) -/
  lost : Nat := 0
  room : Bool := false
  /-- bytes of the line not yet written (R351) -/
  line : Bytes := []
  /-- time of the last packet and of the last SYNC (R349, R350), in 2^-16 ns -/
  lastPkt : Nat := 0
  lastSync : Nat := 0
  /-- packets since the last SYNC -/
  sinceSync : Nat := 0
  /-- SYNC flags owed before the next packet: START, GAP, GAP_EST, TIME_STEP, WRAP (R349, R350) -/
  owed : BitVec 5 := 0
  gapNs : Nat := 0
  /-- time of the last GAP packet (R354) -/
  gapAt : Nat := 0
  /-- packets that the trace port has taken, each with the time at which its last byte leaves (R355, R391) -/
  portOut : List (Nat × Bytes) := []
  deriving DecidableEq, Repr

/-! ### The running image, time and the whole state -/

/-- What the running image declares beyond the registers (R144, R271) and how it was loaded. -/
structure Image where
  /-- a full image has committed since POR_N or WARM_N release (R325) -/
  committed : Bool := false
  /-- PART, coded as in HST_ID -/
  part : BitVec 16 := 0
  cords : BitVec 128 := 0
  nin : Nat := 0
  nout : Nat := 0
  /-- FLAGS.SPLICE -/
  splice : Bool := false
  /-- the cast was encrypted (R50) -/
  encrypted : Bool := false
  gn32 : Bool := false
  imageId : BitVec 256 := 0
  /-- DEV, OFFSET and LENGTH of its directory entry, where it was loaded from NVM (R294), and the directory (R291) -/
  nvm : Option (Nat × Nat × Nat) := none
  dir : Option Bytes := none
  /-- cord groups and edge block rows that the full cast configures (R289) -/
  groups : BitVec 16 := 0
  rows : W64 := 0
  /-- nominal frequency in kHz of a lane set's reference as measured at the commit; none listed: it fits no nominal frequency, and
  the set's PLLs are not locked (R405) -/
  lref : SMap Nat := []
  /-- values that border policies 1 and 2 give the inject entries of the cords, by slotKey of copy 0 (R115, R290) -/
  border : SMap Bool := []
  /-- what its cast in NVM holds for an exit from Deep sleep (R339): the headers, instruction words, INIT frames by address
  in 4 KiB, and the ACTION section -/
  cast : CastHdr := {}
  instrs : SMap (BitVec 72) := []
  init : SMap Bytes := []
  action : Bytes := []
  deriving DecidableEq, Repr

/-- An entry of a transmit timestamp queue (R219, R221). -/
structure TxStamp where
  tag : BitVec 16
  lane : Nat
  nostart : Bool
  ts : Nat
  deriving DecidableEq, Repr

/-- A TIME_OUT function (R223, R224), with times in 2^-16 ns of device time. -/
structure TimeOut where
  /-- the pulse is being driven, until `ends` -/
  active : Bool := false
  ends : Int := 0
  /-- its mode 0 pulse has been emitted since it was armed -/
  fired : Bool := false
  /-- START as a full device time; grid points up to `from_` are emitted or passed -/
  base : Int := 0
  from_ : Int := 0
  deriving DecidableEq, Repr

/-- The time unit (chapter 10). -/
structure TimeUnit where
  /-- device time in units of 2^-16 ns -/
  now : Nat := 0
  /-- the 32 fraction bits below FRAC (R210) -/
  sub : Nat := 0
  /-- elapsed millionths of 2^-16 ns not yet counted as whole microseconds of device time (R316) -/
  usPart : Nat := 0
  /-- time-clock edges not yet counted as microseconds of the plinth tick (R365) -/
  tick : Nat := 0
  /-- the latched time-of-day value (R213) -/
  tod : Nat := 0
  /-- an accepted phase step that waits for the next time-clock edge (R215) -/
  step : Option Int := none
  /-- the unconsumed part of a slew, in millionths of 2^-16 ns, and what a slew that has ended within the period in progress
  still adds at the period's end (R215) -/
  slew : Option Int := none
  rest : Int := 0
  /-- instants whose time marks are not yet written, with the STEP flag, oldest first; the last whole millisecond marked
  (R225) -/
  marks : List (Nat × Bool) := []
  markAt : Option Nat := none
  /-- the last whole second that the internal PPS source has captured (R212) -/
  ppsAt : Option Nat := none
  /-- a PPS capture since TIME_PPS_CAP was last read (R372) -/
  ppsNew : Bool := false
  /-- transmit timestamp queues, by lane set (R221) -/
  txq : SMap (List TxStamp) := []
  touts : SMap TimeOut := []
  deriving DecidableEq, Repr

/-! ### Trigger engine (chapter 11) -/

/-- What has happened at an edge and ranks what meets it there: an ARM or STOP that a capture channel has taken (R235), a host's
write of PAT_CTL.SRC or GO, a knot's pattern command (R244), a FREEZE (R243). -/
inductive Meeting where
  | cap (n : Nat)
  | pat (n : Nat)
  | knot (n : Nat)
  | freeze
  deriving DecidableEq, Repr

/-- The trigger engine's event inputs (R240). -/
structure Trigger where
  /-- inputs that hold a level -/
  level : BitVec 256 := 0
  /-- one-cycle pulses since the last edge of the edge core clock -/
  pulse : BitVec 256 := 0
  /-- the inputs as sampled at the previous edge (R241) -/
  prev : BitVec 256 := 0
  /-- edge core cycles left of the pulses on the TRIG_OUT pins (R243) -/
  tout : SMap Nat := []
  /-- counters that knots and CLR have reset since the previous edge (R241) -/
  resets : List Nat := []
  /-- what has happened since the previous edge, with its device time (R235, R243, R244) -/
  met : List (Nat × Meeting) := []
  deriving DecidableEq, Repr

/-! ### The fault collector (chapter 15) -/

/-- The collector, beyond its registers. -/
structure Collector where
  /-- the code that started the grace timer (R316) -/
  starter : Nat := 0
  /-- class and code of the C2 and C3 reports fetched during a power transition, in the order of R321 (R340) -/
  deferred : List (Nat × Nat) := []
  /-- image classes that the cast assigns, by code (R314, R315) -/
  classes : SMap Nat := []
  /-- disarmed codes of each temperature sensor: THERM_HIGH, CRIT and TRIP in bits 0–2 (R313) -/
  therm : SMap (BitVec 3) := []
  /-- a C3 action has been taken since the last full load (R320) -/
  deposed : Bool := false
  /-- sources whose pair a WIRE injection holds at 11 (R328) -/
  injected : List Nat := []
  deriving DecidableEq, Repr

/-! ### Loads and partial reconfiguration (chapter 13) -/

/-- A load in progress and what it has read. -/
structure Loader where
  /-- a load runs: CFG_STAT.STATE, or CFG_PART_STAT.STATE for a partial image, shows its stage -/
  on : Bool := false
  part : Bool := false
  /-- the directory of a boot load, and the entry that a boot load tries next (R280) -/
  dir : Option Bytes := none
  next : Nat := 0
  /-- a load that the host requested for one entry (R280) -/
  single : Bool := false
  chain : Bool := false
  hdr : CastHdr := {}
  /-- index in the section table of the section being read; frames or entries read of it; its record data -/
  sec : Nat := 0
  frame : Nat := 0
  recs : Bytes := []
  /-- stored bytes of the section that have been read (R277) -/
  at_ : Nat := 0
  /-- the dictionary entries stored; a full cast's frames lie in scratch banks 0 and 1, a partial image's here (R276) -/
  dict : SMap Bytes := []
  /-- the first refusal among the sections held, with its section and frame, until REGION has been read (R146) -/
  bad : Option (Nat × Nat × Nat) := none
  /-- record data of the sections that are held until they are applied, by section type, and EDGE frames by FADDR (R280) -/
  held : SMap Bytes := []
  edge : SMap Bytes := []
  /-- SCHEDULE and INIT frames of the partition written so far, by section type × 2^32 + FADDR -/
  frames : SMap Bytes := []
  /-- the next script entry; HST_ALIVE when the load started (R295) -/
  pc : Nat := 0
  start : W32 := 0
  /-- CHAIN_RDY_N of the downstream device, and whether partitions are owed to it (R287) -/
  rdyN : Bool := true
  fwd : Bool := false
  /-- the outer header handed to CHAIN_OUT (R287) -/
  out : Bytes := []
  deriving DecidableEq, Repr

/-- Partial reconfiguration, beyond its registers (R289–R293). -/
structure Part where
  /-- cord groups and edge block rows of the region that is isolated or about to be, 0 for none -/
  cords : BitVec 16 := 0
  rows : W64 := 0
  /-- the region waits for the first boundary at which a turn starts: for a load or for HOLD -/
  waits : Bool := false
  /-- the region is isolated -/
  isolated : Bool := false
  /-- border policies of the running image and of the partial image: ID with KIND × 2^32 to POLICY (R290) -/
  border : SMap Nat := []
  next : SMap Nat := []
  /-- what an isolated region was before the GO in progress: HELD or INCOMPLETE (R293) -/
  was : Nat := 0
  /-- stations that still drain before the tables swap (R116) -/
  swapping : List Nat := []
  deriving DecidableEq, Repr

/-- An NVM pass-through operation in progress (R294): device, operation, address, length. -/
structure NvmOp where
  dev : Nat
  op : Nat
  addr : Nat
  len : Nat
  deriving DecidableEq, Repr

/-! ### Power (chapter 16) -/

/-- The power controller, beyond its registers. -/
structure Power where
  /-- the state being entered while TRANSITION is 1, or Run for an exit -/
  target : Nat := 0
  /-- an entry is in progress; an exit is in progress -/
  entering : Bool := false
  exiting : Bool := false
  /-- the request held behind a transition: target (R340) -/
  held : Option Nat := none
  /-- wake sources held behind an entry, by number (R335, R340); device time and HST_ALIVE at the start of the exit in progress -/
  wakes : BitVec 4 := 0
  exitAt : Nat × W32 := (0, 0)
  /-- step 3 of an entry to Sleep or deeper has come (R334) -/
  stopped : Bool := false
  /-- device times of the last flag request taken and of the last host GO (R333) -/
  flagAt : Option Nat := none
  goAt : Option Nat := none
  /-- the wake-pattern detector: the last 32 bits, the latest in bit 0, how many bits in a row equal the one 32 bits before, and that
  the detector has fired (R336) -/
  patWin : W32 := 0xFFFFFFFF
  patRun : Nat := 0
  patHit : Bool := false
  /-- HST_ALIVE at entry to Sleep or Deep sleep -/
  sleptAt : W32 := 0
  /-- the device enters Off through the thermal trip of Deep sleep (R409) -/
  tripped : Bool := false
  /-- the reload of the exit from Deep sleep has ended (R339) -/
  reloaded : Bool := false
  /-- domains that wait to be powered (R342) -/
  powering : List Nat := []
  deriving DecidableEq, Repr

/-! ### Security, fuses, the persistent store and JTAG (chapters 19, 21) -/

/-- Instructions of the TAP (R387, R414). -/
inductive TapInstr where
  | bypass | idcode | samplePreload | extest | clamp | highz | scan | debug | factory | boardId | lifetime
  deriving DecidableEq, Repr

/-- The TAP: instruction register, the boundary register's captured and preloaded values, the value that the last data
register read, and TRST_N. -/
structure Tap where
  ir : TapInstr := .idcode
  capture : List Bool := []
  preload : List Bool := []
  /-- the pins are driven from the boundary register, or held at high impedance -/
  driven : Bool := false
  floating : Bool := false
  dr : Nat := 0
  trst : Bool := false
  deriving DecidableEq, Repr

/-- The fuse block and the areas of the persistent store that are not registers (R375, R413). -/
structure Store where
  /-- fuse words 0–127: FACTORY_DONE is 1 in every device that has left the factory (R375) -/
  fuses : SMap W32 := [(44, 0x20)]
  boardId : W32 := 0xFFFFFFFF
  idPub : Bytes := []
  cert : Bytes := []
  /-- the ten lifetime counters in their order -/
  lifetime : List Nat := List.replicate 10 0
  /-- resets, power cycles and safe-state entries not yet counted there -/
  resets : Nat := 0
  cycles : Nat := 0
  safes : Nat := 0
  deriving DecidableEq, Repr

/-- The security unit, beyond its registers. -/
structure Security where
  castMeas : BitVec 256 := 0
  partMeas : BitVec 256 := 0
  partCount : Nat := 0
  /-- ELIG_i (R386) -/
  elig : SMap Nat := []
  /-- the agreed key of a session (R384), and the cast key held for the load of an encrypted cast (R379, R387) -/
  sk : Option W128 := none
  castKey : Option W128 := none
  /-- the request in progress: its bytes, and bytes 0x000–0x0E7 of the report as snapshotted (R383) -/
  att : Option (Bytes × Bytes) := none
  /-- fuse word and bits being programmed (R377) -/
  fusing : Option (Nat × W32) := none
  /-- fuse words 45 and 46 as latched at reset release (R378) -/
  ids : W32 × W32 := (0, 0)
  deriving DecidableEq, Repr

/-! ### Pins (chapter 20) -/

/-- General-purpose pins, beyond their registers. -/
structure Pins where
  /-- accepted PIN_CFG writes: edge core edges left, pin, value (R393) -/
  waits : List (Nat × Nat × W32) := []
  /-- the PIN of the lock sequence in progress (R395) -/
  lockPin : Nat := 0
  /-- levels and enables of the pins, latched while asleep (R396) -/
  latched : Option (BitVec 192 × BitVec 192) := none
  /-- pins that keep an old level and enable until the function in force presents its first valid value (R393, R396) -/
  held : SMap (Bool × Bool) := []
  /-- TRIG_IN 0–7 (R392) -/
  trigIn : BitVec 8 := 0
  deriving DecidableEq, Repr

/-- A host request that waits in the endpoint (R360, R361): the bits of a register word that a write gives, a read, a packet with its
operation code. -/
inductive HostReq where
  | write (a bytes : Nat) (mask v : W32)
  | read (a bytes : Nat)
  | packet (op : Nat) (p : Packet)
  deriving DecidableEq, Repr

/-- What the host sets in the endpoint's configuration space (R357, R358): power management state, D0 or D3hot, maximum payload and read
request sizes as the PCI Express capability codes them, tags of 8 and 10 bits, relaxed ordering, ASPM L1, and the messages that
Advanced Error Reporting sends. The reset values are those of the PCI Express standard. PRESUMED (log 129). -/
structure PciConfig where
  d3hot : Bool := false
  payload : BitVec 3 := 0
  readSize : BitVec 3 := 2
  tag8 : Bool := true
  tag10 : Bool := false
  relaxed : Bool := true
  aspmL1 : Bool := false
  errorMessages : BitVec 3 := 0
  uncMask : W32 := 0
  corMask : W32 := 0x2000
  deriving DecidableEq, Repr

/-- The answer of the last register read or host access (R11, R362). MODEL: where a requester sees it. -/
structure HostPort where
  data : W32 := 0
  /-- STATUS of R109 -/
  status : Nat := 0
  /-- requests that wait in the endpoint, by arrival (R360, R361) -/
  queue : List HostReq := []
  config : PciConfig := {}
  /-- bytes that the DMA engines have written to host memory (R370), and of engines that shut down the address of the completion word
  of the descriptor in progress (R371) -/
  mem : List Host.Cell := []
  cmpl : SMap Nat := []
  deriving DecidableEq, Repr

/-- The state of the device. -/
structure State where
  /-- PART and STEP of HST_ID (R5): fixed in the part -/
  part : BitVec 16 := 0x4100
  stepping : BitVec 8 := 0xB0
  /-- commands waiting, first in, first out -/
  pending : List Instr := []
  /-- control registers (R11) by word address; an unlisted word holds its reset value -/
  regs : SMap W32 := []
  /-- snapshots of upper words, and staged lower words (R11) -/
  snap : SMap W32 := []
  staged : SMap W32 := []
  /-- scratch banks at their control addresses, DRAM at its byte addresses, cord memories above 2^48 -/
  mem : List Host.Cell := []
  core : Core := {}
  strands : SMap Strand := []
  /-- instruction stores, by strand × 4096 + step: words of 64 data and 8 check bits -/
  instrs : SMap (BitVec 72) := []
  ports : SMap Port := []
  ring : Ring := {}
  image : Image := {}
  lanes : SMap Lane := []
  caps : SMap Capture := []
  pats : SMap Pattern := []
  reports : List Report := []
  trace : Trace := {}
  time : TimeUnit := {}
  trig : Trigger := {}
  edge : Edge := {}
  act : Action := {}
  splice : Splice := {}
  /-- levels of the input pins behind their glitch filters (R398), and at their lands: GPIO by number -/
  pinIn : SMap Bool := []
  land : SMap Bool := []
  host : HostPort := {}
  flt : Collector := {}
  load : Loader := {}
  recon : Part := {}
  nvm : Option NvmOp := none
  power : Power := {}
  store : Store := {}
  sec : Security := {}
  tap : Tap := {}
  pins : Pins := {}
  /-- POR_N and WARM_N are asserted (R400) -/
  por : Bool := false
  warm : Bool := false
  /-- MODEL: how many free values have been drawn -/
  free : Nat := 0
  deriving DecidableEq, Repr

/-- The machine right after POR_N or WARM_N release (R14): registers at their reset values, nothing loaded. -/
def State.reset : State := {}

/-- The named reasons for a fault. No rule of the spec stops the device with a fault of this kind. -/
inductive Fault where
  /-- Raised by no command (safe): the device's own faults are reports to its collector (R310), not stops. -/
  | none
  deriving DecidableEq, Repr

/-- The named reasons for a refusal. -/
inductive Refusal where
  /-- A command that has no meaning yet, by its mnemonic (safe): answered by the dispatcher alone. -/
  | notModelled (mnemonic : String)
  deriving DecidableEq, Repr

end Sys2Proof.Machine
end

