-- ==== Sys2Proof/Machine/Ops.lean ====
section
/-! DEFINITION. The named operations over registers, memory and faults that the commands' meanings share. -/

namespace Sys2Proof.Machine

/-! ### Registers -/

/-- The stored value of the register word at `a`. -/
def State.reg (s : State) (a : Nat) : W32 := SMap.get RegMap.resetWord s.regs a

/-- Stores `v` in the register word at `a`. -/
def State.setReg (s : State) (a : Nat) (v : W32) : State :=
  { s with regs := SMap.set RegMap.resetWord s.regs a v }

/-- A field of a word. -/
def Fld.read (f : Fld) (v : W32) : Nat := v.toNat / 2 ^ f.lo % 2 ^ f.w

/-- A word with field `f` set to `x` (cut to the field's width). -/
def Fld.write (f : Fld) (v : W32) (x : Nat) : W32 :=
  BitVec.ofNat 32 (v.toNat - f.read v * 2 ^ f.lo + x % 2 ^ f.w * 2 ^ f.lo)

def State.fget (s : State) (f : Fld) : Nat := f.read (s.reg f.addr)

def State.fset (s : State) (f : Fld) (x : Nat) : State := s.setReg f.addr (f.write (s.reg f.addr) x)

/-- A one-bit field. -/
def State.bit (s : State) (f : Fld) : Bool := s.fget f == 1

def State.setBit (s : State) (f : Fld) (b : Bool) : State := s.fset f b.toNat

/-- The value of `n` register words from `a` up, lowest word first (R11). -/
def State.words (s : State) (a : Nat) : Nat → Nat
  | 0 => 0
  | n + 1 => (s.reg a).toNat + 2 ^ 32 * s.words (a + 4) n

/-- Stores a value over `n` register words from `a` up. -/
def State.setWords (s : State) (a : Nat) : Nat → Nat → State
  | 0, _ => s
  | n + 1, x => (s.setReg a (BitVec.ofNat 32 x)).setWords (a + 4) n (x / 2 ^ 32)

def State.wget (s : State) (w : Wide) : Nat := s.words w.addr w.nw % 2 ^ w.w

def State.wset (s : State) (w : Wide) (x : Nat) : State := s.setWords w.addr w.nw (x % 2 ^ w.w)

/-- A saturating counter field goes up by `n`. -/
def State.count (s : State) (f : Fld) (n : Nat) : State := s.fset f (satAdd (2 ^ f.w - 1) (s.fget f) n)

/-- A wrapping counter field goes up by `n`. -/
def State.countWrap (s : State) (f : Fld) (n : Nat) : State := s.fset f (s.fget f + n)

/-- A list folded into the state. -/
def State.each {α : Type} (s : State) (l : List α) (f : State → α → State) : State := l.foldl f s

/-- `f` applied where `c` holds. -/
def State.when (s : State) (c : Bool) (f : State → State) : State := if c then f s else s

/-! ### What the part has (R1, R3) -/

/-- The part is an AY4100. -/
def State.big (s : State) : Bool := s.part == 0x4100

/-- An AY4060 image is in force: closed column rings (R94). -/
def State.closed (s : State) : Bool := !s.big || s.bit F.NOC_STAT_CLOSED

def State.cordHere (s : State) (c : Nat) : Bool := c < (if s.big then 128 else 64)

def State.laneHere (s : State) (n : Nat) : Bool :=
  if s.big then n < 1056 else n < 512 || (1024 ≤ n && n < 1040)

/-- The device is in reset. -/
def State.inReset (s : State) : Bool := s.por || s.warm

/-- The time unit runs: not in reset, in Deep sleep and in Off (R330, R334, R400). -/
def State.timeRuns (s : State) : Bool := !s.inReset && decide (s.fget F.PWR_STAT_STATE < 3)

/-- The device is in Run or Idle, and not in reset. -/
def State.awake (s : State) : Bool := !s.inReset && decide (s.fget F.PWR_STAT_STATE < 2)

def State.bankHere (s : State) (b : Nat) : Bool := b < (if s.big then 64 else 32)

/-- Cord `c` is configured by the running image (R144). -/
def State.cordOn (s : State) (c : Nat) : Bool := s.image.committed && s.image.cords.getLsbD c && s.cordHere c

/-! ### Free values -/

/-- Draws a free value of `w` bits. -/
def State.freeBits (s : State) (w : Nat) : BitVec w := Config.freeValue s.free w

def State.drawn (s : State) : State := { s with free := s.free + 1 }

/-! ### Memory -/

/-- What a byte of memory that nothing has written reads as. DESIGN CHOICE (log 3): the spec gives no contents after
power-on; design memory that the cast does not carry is 0 (R139). -/
def memDefault (_ : Nat) : Byte := 0

/-- The canonical form of the memory: addresses strictly rising, no entry equal to what an unlisted address reads as. -/
abbrev Memory.wf (m : List Host.Cell) : Prop := SMap.Wf memDefault m

/-- The key of byte `off` of cord `c`'s memory in `State.mem`, above the 48-bit addresses. -/
def cordMemAddr (c off : Nat) : Nat := 2 ^ 48 + c * 2 ^ 18 + off % 2 ^ 18

def State.rdByte (s : State) (a : Nat) : Byte := SMap.get memDefault s.mem a

def State.wrByte (s : State) (a : Nat) (v : Byte) : State := { s with mem := SMap.set memDefault s.mem a v }

/-- `n` bytes from `a` up (R10). -/
def State.rdBytes (s : State) (a : Nat) : Nat → Bytes
  | 0 => []
  | n + 1 => s.rdByte a :: s.rdBytes (a + 1) n

/-- Writes a list of bytes from `a` up. -/
def State.wrBytes (s : State) (a : Nat) : Bytes → State
  | [] => s
  | b :: bs => (s.wrByte a b).wrBytes (a + 1) bs

/-- Writes the bytes whose enable is set. -/
def State.wrEnabled (s : State) (a : Nat) : List (Bool × Byte) → State
  | [] => s
  | (e, b) :: bs => (if e then s.wrByte a b else s).wrEnabled (a + 1) bs

/-- The 128-bit word at byte address `a`. -/
def State.rdWord (s : State) (a : Nat) : W128 := BitVec.ofNat 128 (leNat (s.rdBytes a 16))

/-- Writes a 128-bit word at byte address `a`. -/
def State.wrWord (s : State) (a : Nat) (v : W128) : State := s.wrBytes a (leBytes 16 v.toNat)

/-- Byte enables of a port write: bit b enables bytes 2b and 2b + 1 (R124). -/
def pairEnables (be : Byte) (v : W128) : List (Bool × Byte) :=
  (leBytes 16 v.toNat).zipIdx.map (fun p => (be.getLsbD (p.2 / 2), p.1))

/-- A word with the enabled byte pairs of `v` (R124). -/
def mergePairs (be : Byte) (old v : W128) : W128 :=
  BitVec.ofNat 128 (leNat (((leBytes 16 old.toNat).zip (pairEnables be v)).map
    (fun p => if p.2.1 then p.2.2 else p.1)))

/-! ### Time as seen by all blocks -/

/-- Device time in the 96-bit layout of seconds, nanoseconds and fraction, from a count of 2^-16 ns. -/
def timeBits (t : Nat) : Nat := (t / 65536 / 1000000000) * 2 ^ 48 + (t / 65536 % 1000000000) * 65536 + t % 65536

/-- A count of 2^-16 ns from the 96-bit layout. -/
def timeOfBits (b : Nat) : Nat := ((b / 2 ^ 48) * 1000000000 + b / 65536 % 2 ^ 32) * 65536 + b % 65536

/-- A short timestamp: 2^-16 ns in 64 bits. -/
def shortTime (t : Nat) : W64 := BitVec.ofNat 64 t

/-- TURN_NUM. -/
def State.turnNum (s : State) : Nat := s.wget W.TURN_NUM_TURN

/-! ### Power domains and fault sources (R28, R310, R327, R331) -/

/-- Domains outside an AY4060 footprint on an AY4100, absent on the AY4060 (R28, R331). -/
def outsideDomains : List Nat := [4, 5, 7, 9, 11, 16, 17, 18, 19] ++ (List.range 32).map (· + 52) ++ [85]

def State.domainHere (s : State) (d : Nat) : Bool := d < 86 && (s.big || !outsideDomains.contains d)

/-- Domain `d` is gated, or has its clocks stopped, in power state `st` (R331). -/
def stateGates (st d : Nat) : Bool := (st == 2 && decide (2 ≤ d) && decide (d < 10)) || (st == 3 && decide (2 ≤ d))

/-- The domain is powered and open (R331, R344). -/
def State.domainOn (s : State) (d : Nat) : Bool := s.bit (F.PWR_DOM_ON d) && !stateGates (s.fget F.PWR_STAT_STATE) d

/-- The power domain of a source's block, 0 for those that are never gated alone; none for reserved source numbers. -/
def srcDomain (src : Nat) : Option Nat :=
  if src < 0x80 then some (2 + src / 32)
  else if src < 0xC2 then some (20 + (src - 0x80))
  else if 0x100 ≤ src ∧ src < 0x140 then some (10 + (src - 0x100) / 32)
  else if 0x140 ≤ src ∧ src < 0x148 then some (12 + (src - 0x140))
  else if 0x180 ≤ src ∧ src < 0x1C0 then some (8 + (src - 0x180) / 32)
  else if src = 0x1C0 ∨ src = 0x240 ∨ (0x280 ≤ src ∧ src < 0x288) then some 0
  else if 0x200 ≤ src ∧ src < 0x240 then some (20 + (src - 0x200))
  else if src = 0x288 ∨ src = 0x289 then some (6 + (src - 0x288))
  else if 0x290 ≤ src ∧ src < 0x2B0 then some (6 + (src - 0x290) / 16)
  else if 0x300 ≤ src ∧ src < 0x304 then some (2 + (src - 0x300))
  else if src = 0x304 ∨ src = 0x305 then some (6 + (src - 0x304))
  else if 0x306 ≤ src ∧ src < 0x30E then some (12 + (src - 0x306))
  else if src = 0x30E ∨ src = 0x30F then some (6 + (src - 0x30E))
  else if src = 0x310 then some 0
  else none

/-- The source is the part's, and its domain is not gated by a write of PWR_DOM. -/
def State.srcPowered (s : State) (src : Nat) : Bool :=
  match srcDomain src with
  | some d => (s.big || !outsideDomains.contains d) && s.bit (F.PWR_DOM_ON d)
  | none => false

/-- Absent and gated sources drive 01 and report nothing (R310, R327), nor does any in reset. In Sleep a domain keeps its state with its clocks stopped, and
its source what it holds: the collector works as in Run. DEDUCED (log 127). -/
def State.srcOn (s : State) (src : Nat) : Bool :=
  !s.inReset && s.srcPowered src && !(s.fget F.PWR_STAT_STATE == 3 && (srcDomain src).any fun d => stateGates 3 d)

/-! ### Raising faults (R312) -/

/-- The value of a STRAND field with no meaning, and of a STEP field with none (R322). -/
def noStrand : Nat := 0x3FFFF
def noStep : Nat := 0x1FFF

/-- Access types of the record (R322). -/
def accRead : Nat := 0
def accWrite : Nat := 1
def accPosted : Nat := 2
def accInstr : Nat := 3
def accBight : Nat := 4

/-- Report `r` of a strand is raised before the held `q`: at the same step of the same turn, the lower global strand ID
comes first (R53). -/
def Report.overtakes (r q : Report) : Bool :=
  r.time == q.time && r.turn == q.turn && r.step == q.step && decide (r.strand < q.strand)

/-- A report enters the list of pending reports: the first occurrence of a code at a source fills it, later ones count. -/
def addReport : List Report → Report → List Report
  | [], r => [r]
  | q :: qs, r => if q.src = r.src ∧ q.code = r.code then
                    { (if r.overtakes q then r else q) with count := q.count + r.count } :: qs
                  else q :: addReport qs r

/-- A fault is raised: the source holds the report and drives 10, unless its pair is held invalid (R311, R312). The source of an
absent or gated block reports nothing (R310, R327). -/
def State.raise (s : State) (r : Report) : State :=
  if !s.srcOn r.src then s
  else
  let s1 := { s with reports := addReport s.reports r }
  if s.fget (F.FLT_SRC_STAT_PAIR r.src) = 1 then s1.fset (F.FLT_SRC_STAT_PAIR r.src) 2 else s1

/-- A fault that no strand step raises (R322). -/
def State.raiseAt (s : State) (src code master acc addr : Nat) : State :=
  s.raise { src, code, master := BitVec.ofNat 8 master, acc, addr, time := s.time.now, turn := s.turnNum,
            strand := noStrand, step := noStep }

end Sys2Proof.Machine
end

