-- ==== Sys2Proof/Machine/Poll.lean ====
section
/-! DEFINITION. The poll block (R366, R372): live conditions, and the event bits that latch their rises. -/

namespace Sys2Proof.Machine

/-- Capture channel `n` is DONE or OVERFLOW (R366). -/
def State.capDone (s : State) (n : Nat) : Bool := s.fget (F.CAP_STAT_STATE n) == 3 || s.fget (F.CAP_STAT_STATE n) == 4

/-- Some capture channel is DONE or OVERFLOW: only listed words can be, since CAP_STAT resets to IDLE. -/
def State.anyCapDone (s : State) : Bool :=
  s.regs.any fun p => R.CAP_STAT 0 ≤ p.1 && p.1 < R.CAP_STAT 1024 && (p.1 - R.CAP_STAT 0) % 0x40 == 0
    && s.capDone ((p.1 - R.CAP_STAT 0) / 0x40)

/-- The condition of HST_POLL bit `b` (R372). -/
def State.pollBit (s : State) (b : Nat) : Bool :=
  match b with
  | 0 => s.bit F.FLT_FER_VALID
  | 1 => s.bit F.FLT_STAT_SAFE
  | 2 => s.bit F.FLT_STAT_GRACE_RUN
  | 3 => s.fget F.CFG_STAT_STATE == 5
  | 4 => s.fget F.CFG_STAT_STATE == 6
  | 5 => s.fget F.CFG_PART_STAT_STATE == 1 || s.fget F.CFG_PART_STAT_STATE == 2 || s.fget F.CFG_PART_STAT_STATE == 3
  | 6 => s.anyCapDone
  | 7 => (List.range 16).any fun e => s.bit (F.DMA_STAT_ERR e) || s.bit (F.DMA_STAT_TAIL_BAD e)
  | 8 => (List.range 64).any fun k => s.fget (F.TXQ_STAT_LEVEL k) != 0
  | 9 => (List.range 64).any fun k => s.bit (F.TXQ_STAT_OVF k)
  | 10 => s.bit F.TURN_STAT_HALTED
  | 11 => s.bit F.TURN_STAT_OVERRUN
  | 12 => s.time.ppsNew
  | 13 => s.bit F.PWR_STAT_TRANSITION
  | 14 => s.bit F.SPL_STAT_DIVERGED || s.bit F.SPL_STAT_PARTNER_LOST || s.bit F.SPL_STAT_PROMOTED
  | 15 => s.bit F.TRG_STAT_FROZEN
  | 16 => s.bit F.TRC_STAT_FULL || s.bit F.TRC_STAT_OVF
  | 17 => s.bit F.HST_BERR_VALID
  | 18 => s.bit F.CFG_NVM_STAT_DONE
  | 19 => s.bit F.ACT_HPOST_STAT_DONE
  | _ => false

/-- The event bits of the conditions in `bits` that `f` makes true are set (R366). -/
def State.watch (s : State) (bits : List Nat) (f : State → State) : State :=
  let t := f s
  let rises := bits.filter fun b => !s.pollBit b && t.pollBit b
  if rises = [] then t
  else t.setReg R.HST_EVT (rises.foldl (fun v b => v ||| BitVec.ofNat 32 (2 ^ b)) (t.reg R.HST_EVT))

/-- The live value of HST_POLL. -/
def State.pollWord (s : State) : W32 :=
  (List.range 20).foldl (fun v b => if s.pollBit b then v ||| BitVec.ofNat 32 (2 ^ b) else v) 0

end Sys2Proof.Machine
end

