-- ==== Sys2Proof/Machine/Observe.lean ====
section
/-! DEFINITION. Observation of the ring: trace records into the trace unit's queue (R345, R346) and the ring probes
(R118, R119). -/

namespace Sys2Proof.Machine

/-- Bit `b` of a selection over consecutive 32-bit registers. -/
def State.selBit (s : State) (r : Nat → Nat) (b : Nat) : Bool := (s.reg (r (b / 32))).getLsbD (b % 32)

/-- Whether the enables of R345 admit a record; in Sleep and deeper states records are lost and not counted (R354). -/
def State.traceAdmits (s : State) (r : TraceRec) : Bool :=
  s.bit F.TRC_CTL_EN && !s.bit F.TRC_STAT_SHUTTING && decide (s.fget F.PWR_STAT_STATE < 2) &&
  match r with
  | .txn resp _ p _ =>
    let m := if resp then p.dstId else p.src
    m.toNat < 0x80 && s.selBit R.TRC_MSTR m.toNat
  | .port _ cord _ _ _ _ _ _ _ => s.bit F.TRC_CTL_DMP && s.selBit R.TRC_DMP_CORD cord.toNat
  | .probe .. => s.bit F.TRC_CTL_PROBE
  | .cancel _ => s.bit F.TRC_CTL_PROBE

/-- A record reaches the input queue of 256 records; one that finds it full is lost and counted (R346), as is every record
while the buffer is FULL (R352). -/
def State.traceOffer (s : State) (r : TraceRec) : State :=
  if !s.traceAdmits r then s
  else if s.bit F.TRC_STAT_FULL then s.count F.TRC_LOST_COUNT 1
  else if s.trace.queue.length < 256 then
    { s with trace := { s.trace with queue := s.trace.queue ++ [⟨r, s.time.now⟩] } }
  else s.watch [16] fun s =>
    (({ s with trace := { s.trace with lost := s.trace.lost + 1 } }).count F.TRC_LOST_COUNT 1).fset F.TRC_STAT_OVF 1

/-- The probe's count and byte count go up by a match (R118); both wrap. -/
def State.probeCount (s : State) (n bytes : Nat) : State :=
  (s.wset (W.NOC_PRB_CNT_COUNT n) (s.wget (W.NOC_PRB_CNT_COUNT n) + 1)).wset (W.NOC_PRB_BYTES_COUNT n)
    (s.wget (W.NOC_PRB_BYTES_COUNT n) + bytes)

/-- A match of probe `n` with record `r`: counted in MODE 0 and 1, traced in MODE 1 and 2 (R118, R121). -/
def State.probeHit (s : State) (n bytes : Nat) (r : TraceRec) : State :=
  let m := s.fget (F.NOC_PRB_CTL_MODE n)
  let s1 := if m = 0 ∨ m = 1 then s.probeCount n bytes else s
  if m = 1 ∨ m = 2 then s1.traceOffer r else s1

/-- Probe `n` is active at this side of this station and watches virtual network `vn`. -/
def State.probeAt (s : State) (n stn side vn : Nat) : Bool :=
  s.bit (F.NOC_PRB_CTL_EN n) && s.fget (F.NOC_PRB_CTL_STATION n) == stn && s.fget (F.NOC_PRB_CTL_SIDE n) == side
    && (s.fget (F.NOC_PRB_CTL_VNMASK n)).testBit vn

/-- A present bight passes a side of a station (R118, R119). -/
def State.probeBight (s : State) (stn side pos step : Nat) (val spec : Bool) : State :=
  s.each (List.range 64) fun s n =>
    if s.probeAt n stn side 0 && (s.bit (F.NOC_PRB_POS_ALL_POS n) || s.fget (F.NOC_PRB_POS_POS n) == pos) then
      let s1 := s.probeHit n 0 (.probe spec true (BitVec.ofNat 6 n) (BitVec.ofNat 8 stn) (BitVec.ofNat 3 side) 0
        (BitVec.ofNat 8 pos) (if val then 1 else 0) (BitVec.ofNat 48 step) 0)
      let m := s.fget (F.NOC_PRB_CTL_MODE n)
      if spec && (m == 1 || m == 2) && !s.ring.specProbes.contains n then
        { s1 with ring := { s1.ring with specProbes := s1.ring.specProbes ++ [n] } }
      else s1
    else s

/-- Bit of OPMASK that enables an operation code (R121). -/
def opMaskBit (op : Nat) : Nat := if op < 4 then op else if op = 8 then 4 else 5

/-- A packet passes a side of a station (R118). `op` is its OP code (R109); a READ carries no payload. -/
def State.probePacket (s : State) (stn side op : Nat) (p : Packet) : State :=
  s.each (List.range 64) fun s n =>
    let same := fun (mask want got : Nat) => (want ^^^ got) &&& mask == 0
    if s.probeAt n stn side p.vn.toNat && (s.fget (F.NOC_PRB_CTL_OPMASK n)).testBit (opMaskBit op)
        && same (s.fget (F.NOC_PRB_ID_SRC_MASK n)) (s.fget (F.NOC_PRB_ID_SRC n)) p.src.toNat
        && same (s.fget (F.NOC_PRB_ID_DST_MASK n)) (s.fget (F.NOC_PRB_ID_DST n)) p.dstStn.toNat
        && (decide (8 ≤ op) || (decide (s.wget (W.NOC_PRB_ALO_ADDR n) ≤ p.addr.toNat)
              && decide (p.addr.toNat ≤ s.wget (W.NOC_PRB_AHI_ADDR n)))) then
      s.probeHit n (if op = 0 then 0 else p.len.toNat * 32) (.probe false false (BitVec.ofNat 6 n) (BitVec.ofNat 8 stn)
        (BitVec.ofNat 3 side) p.vn (BitVec.ofNat 8 op) p.src p.addr p.len)
    else s

/-- Every probe that recorded a speculative bight since the last commit writes one cancel record (R85, R119). -/
def State.cancelProbes (s : State) : State :=
  let s1 := s.each s.ring.specProbes fun s n => s.traceOffer (.cancel (BitVec.ofNat 6 n))
  { s1 with ring := { s1.ring with specProbes := [] } }

end Sys2Proof.Machine
end

