-- ==== Sys2Proof/Machine/Grid.lean ====
section
/-! DEFINITION. The ring grid (R6–R7, R93–R99), the slot tables (R101–R103) and the injection of bights. -/

namespace Sys2Proof.Machine

/-- Global row and column of a cord (R7). -/
def cordRow (c : Nat) : Nat := c % 32 / 8 + 4 * (c / 32 / 2)
def cordCol (c : Nat) : Nat := c % 8 + 8 * (c / 32 % 2)
/-- The cord at a global row and column (R7). -/
def cordAt (row col : Nat) : Nat := (row / 4 * 2 + col / 8) * 32 + row % 4 * 8 + col % 8

/-- Directions (R101): E, W, S, N, LOCAL. -/
def dirE : Nat := 0
def dirW : Nat := 1
def dirS : Nat := 2
def dirN : Nat := 3
def dirLocal : Nat := 4

/-- The station is in the active topology (R94, R95, R103). -/
def stnExists (closed : Bool) (stn : Nat) : Bool :=
  if closed then stn < 0x40 || (0x80 ≤ stn && stn < 0x90) else stn < 0xA0

/-- The far station of the link that leaves a station in a direction, if there is one, and whether the link is a die
bridge (R93, R94, R97). In open mode no scheduled link leaves a P1 end station southward (R103). -/
def linkOf (closed : Bool) (stn dir : Nat) : Option (Nat × Bool) :=
  if !stnExists closed stn then none
  else if dir = dirLocal then some (stn, false)
  else if stn < 0x80 then
    let row := cordRow stn
    let col := cordCol stn
    if dir = dirE then some (cordAt row ((col + 1) % 16), col == 7 || col == 15)
    else if dir = dirW then some (cordAt row ((col + 15) % 16), col == 8 || col == 0)
    else if dir = dirS then
      if closed && row == 3 then some (0x80 + col, true)
      else if row = 7 then some (0x90 + col, true)
      else some (cordAt (row + 1) col, row == 3)
    else if dir = dirN then
      if row = 0 then some (0x80 + col, true) else some (cordAt (row - 1) col, row == 4)
    else none
  else if stn < 0x90 then
    if dir = dirS then some (cordAt 0 (stn - 0x80), true)
    else if dir = dirN then
      if closed then some (cordAt 3 (stn - 0x80), true) else some (stn + 0x10, true)
    else none
  else if dir = dirN then some (cordAt 7 (stn - 0x90), true)
  else none

/-- Cost of a die bridge in steps under the active profile (R99, R149). -/
def State.bridgeCost (s : State) : Nat := if s.bit F.NOC_STAT_PROFILE then 4 else 6

/-- Key of a slot table entry: copy, station, side, step, direction, position. -/
def slotKey (copy stn side step dir pos : Nat) : Nat :=
  ((((copy * 256 + stn) * 2 + side) * 4096 + step) * 8 + dir) * 64 + pos

/-- Address of a station's STN_STAT fields (R121): cord stations and end stations. -/
def stnActive (stn : Nat) : Fld := if stn < 0x80 then F.STN_STAT_ACTIVE stn else F.ESTN_STAT_ACTIVE (stn - 0x80)
def stnSwapPend (stn : Nat) : Fld := if stn < 0x80 then F.STN_STAT_SWAP_PEND stn else F.ESTN_STAT_SWAP_PEND (stn - 0x80)
def stnClosed (stn : Nat) : Fld := if stn < 0x80 then F.STN_STAT_CLOSED stn else F.ESTN_STAT_CLOSED (stn - 0x80)
def stnDraining (stn : Nat) : Fld := if stn < 0x80 then F.STN_STAT_DRAINING stn else F.ESTN_STAT_DRAINING (stn - 0x80)
def stnAsleep (stn : Nat) : Fld := if stn < 0x80 then F.STN_STAT_ASLEEP stn else F.ESTN_STAT_ASLEEP (stn - 0x80)
def stnStray (stn : Nat) : Fld := if stn < 0x80 then F.STN_STRAY_COUNT stn else F.ESTN_STRAY_COUNT (stn - 0x80)

/-- The entries of a station's active output table at a step: (direction × 64 + position, entry). -/
def State.outEntries (s : State) (stn step : Nat) : List (Nat × Nat) :=
  let base := slotKey (s.fget (stnActive stn)) stn 0 step 0 0
  (SMap.range s.ring.slots base (base + 512)).map fun p => (p.1 - base, p.2.toNat)

/-- The delivery entry of a station's active table at a step, direction and position; KIND none where no record is. -/
def State.delivEntry (s : State) (stn step dir pos : Nat) : Nat :=
  (SMap.get (fun _ => (0 : W32)) s.ring.slots (slotKey (s.fget (stnActive stn)) stn 1 step dir pos)).toNat

/-- Fields of slot table entries (R101, R102). -/
def entryKind (e : Nat) : Nat := field e 30 2
def entryStrand (e : Nat) : Nat := field e 20 10
def entryTag (e : Nat) : Nat := field e 15 5
def entryInDir (e : Nat) : Nat := field e 27 3
def entryInPos (e : Nat) : Nat := field e 21 6

/-- A bight goes onto a link at step `step` and is present at the far station after the link's cost (R99). -/
def State.launch (s : State) (stn dir pos step : Nat) (val spec : Bool) : State :=
  match linkOf s.closed stn dir with
  | none => s
  | some (far, bridge) =>
    let b : Bight := { stn := far, dir, pos, val, at_ := step + (if bridge then s.bridgeCost else 1), spec }
    let s1 := { s with ring := { s.ring with bights := s.ring.bights ++ [b] } }
    if dir < 4 then s1.probeBight stn dir pos step val spec else s1

/-- A bight enters the ring at a station (R100, R118). -/
def State.inject (s : State) (stn dir pos step : Nat) (val spec : Bool) : State :=
  (s.launch stn dir pos step val spec).probeBight stn 5 pos step val spec

/-- Bights that satisfy `p` are discarded and counted as stray at the stations they travelled to (R98, R105). -/
def State.clearBights (s : State) (p : Bight → Bool) : State :=
  let s1 := s.each (s.ring.bights.filter p) fun s b => s.count (stnStray b.stn) 1
  { s1 with ring := { s1.ring with bights := s1.ring.bights.filter (fun b => !p b) } }

end Sys2Proof.Machine
end

