-- ==== Sys2Proof/Machine/Flags.lean ====
section
/-! DEFINITION. Check codes: the error-correcting code of the instruction store (R32) and the cyclic redundancy checks. -/

namespace Sys2Proof.Machine

/-- Number of set bits of a byte value. -/
def ones8 (x : Nat) : Nat := ((List.range 8).filter (fun i => x.testBit i)).length

/-- Column values of data bits 0–63: the 56 bytes with three bits set, then the eight smallest with five (R32). -/
def eccColumns : List Nat :=
  (List.range 256).filter (fun x => ones8 x == 3) ++ ((List.range 256).filter (fun x => ones8 x == 5)).take 8

/-- Check byte of a data word: exclusive OR of the columns of its set bits (R32). -/
def checkByte (d : W64) : Byte :=
  (eccColumns.zipIdx.foldl (fun x p => if d.getLsbD p.2 then x ^^^ BitVec.ofNat 8 p.1 else x) 0)

/-- Data and check byte of a stored word. -/
def wordData (w : BitVec 72) : W64 := w.setWidth 64
def wordCheck (w : BitVec 72) : Byte := (w >>> 64).setWidth 8

/-- A stored word with its check byte as the loader computes it (R32). -/
def storedWord (d : W64) : BitVec 72 := (checkByte d).setWidth 72 <<< 64 ||| d.setWidth 72

/-- Syndrome of a stored word (R32). -/
def syndrome (w : BitVec 72) : Byte := checkByte (wordData w) ^^^ wordCheck w

/-- What a syndrome says (R32). -/
inductive Syn where
  | clean
  | data (bit : Nat)
  | check
  | uncorrectable
  deriving DecidableEq, Repr

def decodeSyndrome (y : Byte) : Syn :=
  if y = 0 then .clean
  else match eccColumns.findIdx? (fun c => c == y.toNat) with
    | some d => .data d
    | none => if ones8 y.toNat = 1 then .check else .uncorrectable

/-- The data of a stored word after correction (R32, R45). -/
def correctedData (w : BitVec 72) : W64 :=
  match decodeSyndrome (syndrome w) with
  | .data d => wordData w ^^^ BitVec.ofNat 64 (2 ^ d)
  | _ => wordData w

/-- One bit step of a reflected CRC of 32 bits. -/
def crcBit (poly : Nat) (crc : Nat) : Nat := if crc % 2 = 1 then crc / 2 ^^^ poly else crc / 2

/-- A reflected 32-bit CRC over bytes, initial value and final exclusive OR all ones. -/
def crc32 (poly : Nat) (bs : Bytes) : W32 :=
  BitVec.ofNat 32 (bs.foldl (fun c b => (List.range 8).foldl (fun c _ => crcBit poly c) (c ^^^ b.toNat)) 0xFFFFFFFF
    ^^^ 0xFFFFFFFF)

/-- CRC-32 of IEEE 802.3. PRESUMED (log 20): the standard's reflected polynomial. -/
def crcEthernet (bs : Bytes) : W32 := crc32 0xEDB88320 bs

/-- CRC-32C. PRESUMED (log 20): the Castagnoli polynomial, reflected. -/
def crcCastagnoli (bs : Bytes) : W32 := crc32 0x82F63B78 bs

end Sys2Proof.Machine
end

