-- ==== Sys2Proof/Machine/Operands.lean ====
section
/-! DEFINITION. The instruction word (R39, R40), the operand selectors (R42) and what each operand form reads (R55). -/

namespace Sys2Proof.Machine

/-- Fields of the instruction word (R39). -/
def wOp (w : W64) : Nat := field w.toNat 60 4
def wTT (w : W64) : Nat := field w.toNat 44 16
def wAux (w : W64) : Nat := field w.toNat 0 12
/-- Selectors A, B, C, D. -/
def wSels (w : W64) : List Nat := [field w.toNat 36 8, field w.toNat 28 8, field w.toNat 20 8, field w.toNat 12 8]

/-- OP codes (R40). -/
def opNop : Nat := 0
def opEval : Nat := 1
def opEvalLatch : Nat := 2
def opStateRead : Nat := 3
def opEvalSend : Nat := 4
def opEvalPort : Nat := 5
def opEvalCheck : Nat := 6
def opTurnEnd : Nat := 8

/-- Reserved OP codes (R40). -/
def opReserved (op : Nat) : Bool := op == 7 || 9 ≤ op

/-- The class fetches its four selectors (R52). -/
def opFetches (op : Nat) : Bool := op == 1 || op == 2 || op == 4 || op == 5 || op == 6

/-- Reserved selector values (R42). -/
def selReserved (x : Nat) : Bool := (0xB8 ≤ x && x < 0xF0) || 0xF4 ≤ x

/-- Port latch selectors (R42). -/
def selPort (x : Nat) : Bool := 0xB0 ≤ x && x < 0xB8

/-- The word TURN_END of the loader (R33). -/
def turnEndWord : W64 := 0x8000000000000000

/-- Cord, ply and index parts of a global strand ID (R6). -/
def gCord (g : Nat) : Nat := g / 1024
def gPly (g : Nat) : Nat := g % 1024 / 16
def gIndex (g : Nat) : Nat := g % 16
/-- The port group of a strand, and its port's key (R6, R38). -/
def gGroup (g : Nat) : Nat := gPly g / 16
def portKey (c q : Nat) : Nat := c * 4 + q

def State.strand (s : State) (g : Nat) : Strand := SMap.get (fun _ => ({} : Strand)) s.strands g
def State.setStrand (s : State) (g : Nat) (x : Strand) : State :=
  { s with strands := SMap.set (fun _ => ({} : Strand)) s.strands g x }
def State.port (s : State) (k : Nat) : Port := SMap.get (fun _ => ({} : Port)) s.ports k
def State.setPort (s : State) (k : Nat) (x : Port) : State :=
  { s with ports := SMap.set (fun _ => ({} : Port)) s.ports k x }

def Strand.latch (x : Strand) (m : Nat) : Latch := SMap.get (fun _ => ({} : Latch)) x.inbox m
def Strand.setLatch (x : Strand) (m : Nat) (l : Latch) : Strand :=
  { x with inbox := SMap.set (fun _ => ({} : Latch)) x.inbox m l }

/-- Value and valid bit of a latch as a read at step `t` sees them: before a delivery of the same step (R37). -/
def Latch.seen (l : Latch) (t : Nat) : Bool × Bool :=
  if l.at_ = some t then (l.prevVal, l.prevValid) else (l.val, l.valid)

/-- A port's read register at the start of step `t` (R38). -/
def Port.seen (p : Port) (t : Nat) : W128 := if t < p.entry then p.rprev else p.rdata

/-- A PL read at step `t` precedes the return of a fired read (R128). Deferred DRAM reads (mode 3) do not count. -/
def Port.early (p : Port) (t : Nat) : Bool :=
  p.ops.any fun o => !o.write && o.mode != 3 && o.fire < t && !(o.fire < p.entry && p.entry ≤ t)

/-- An operand read: its value and the fault it raises, as a code, an address field and an access type (R55, R153). -/
abbrev Fetched := Bool × Option (Nat × Nat × Nat)

/-- Operand selector `x` read by strand `g` at its step `t` (R55). -/
def State.operand (s : State) (g t : Nat) (inPrefix : Bool) (x : Nat) : Fetched :=
  let me := s.strand g
  if x < 0x80 then (me.hist.getLsbD x, none)
  else if x < 0xA0 then
    let (v, ok) := (me.latch (x - 0x80)).seen t
    (v, if ok then none else some (if inPrefix then 0x0108 else 0x0107, x, accBight))
  else if x < 0xB0 then
    let h := g / 16 * 16 + (x - 0xA0)
    let other := s.strand h
    -- a strand of the ply that has already executed step `t` holds the earlier result one place on
    (other.hist.getLsbD (if h ≠ g ∧ t < other.pos then 1 else 0), none)
  else if x < 0xB8 then
    let q := gGroup g
    let p := s.port (portKey (gCord g) q)
    let abs := s.core.base + t
    ((p.seen abs).getLsbD (8 * (gPly g % 16) + (x - 0xB0)),
      if p.lateTurn then some (0x010A, q, accRead)
      else if p.early abs then some (0x0109, q, accRead) else none)
  else if x = 0xF1 then (true, none)
  else if x = 0xF2 then (s.core.first.getLsbD (gCord g), none)
  else if x = 0xF3 then (s.turnNum % 2 == 1, none)
  else (false, none)

/-- The truth table index 8·D + 4·C + 2·B + A (R41). -/
def ttIndex : List Bool → Nat
  | [] => 0
  | b :: bs => b.toNat + 2 * ttIndex bs

end Sys2Proof.Machine
end

