-- ==== Sys2Proof/Machine/Strand.lean ====
section
/-! DEFINITION. One step of one strand (R52): the eight rows that execute an instruction word. -/

namespace Sys2Proof.Machine

/-! ### When a strand may execute -/

/-- The cord's region is isolated for partial reconfiguration (R291). -/
def State.isolated (s : State) (c : Nat) : Bool := s.bit (F.CRD_STAT_REGION_LOAD c)

/-- A turn hold is in force (R83). -/
def State.turnHold (s : State) : Bool := s.fget ⟨R.TURN_HOLD_SRC, 0, 6⟩ != 0

/-- A turn hold or the prefix hold is in force (R83). -/
def State.prefixHold (s : State) : Bool := s.fget ⟨R.TURN_HOLD_SRC, 0, 7⟩ != 0

def State.schedL (s : State) : Nat := s.fget F.TURN_CFG_L
def State.schedE (s : State) : Nat := s.fget F.TURN_CFG_E

/-- Step `t` belongs to the declared prefix, executed before or after the boundary (R55). -/
def State.prefixStep (s : State) (t : Nat) : Bool := decide (t < s.schedE)

/-- Step `t` is the step in execution or the next one of the lockstep (R17, R77, R84). -/
def State.stepOpen (s : State) (t : Nat) : Bool :=
  (match s.core.phase with
    | .slack => false
    | .early => t < s.schedE
    | .turn => t < s.schedL) &&
  (match s.core.cur with
    | none => t == 0
    | some u => t == u || t == u + 1) &&
  !(s.core.phase == .early && s.core.cur != some t && s.prefixHold)

/-- Strand `g` may execute its next step. -/
def State.mayStep (s : State) (g : Nat) : Bool :=
  s.cordOn (gCord g) && !s.isolated (gCord g) && s.stepOpen (s.strand g).pos

/-! ### Starting the port operations of the step before (R61, R125–R127) -/

/-- A fault of a port operation: fields of R125, with the device time at the start of the FIRE step (R152). -/
def State.portFault (s : State) (c code strand step time addr : Nat) (write : Bool) : State :=
  s.raise { src := c, code, master := BitVec.ofNat 8 (0x80 + c), acc := if write then accWrite else accRead, addr,
            time, turn := s.turnNum, strand := c * 1024 + strand, step, ord := 5 }

/-- Access and return distances of a port mode (R126). -/
def State.portTiming (s : State) (mode : Nat) : Nat × Nat :=
  if mode = 2 then (if s.bit F.NOC_STAT_PROFILE then (17, 34) else (20, 40)) else (2, 6)

/-- The port limit does not accept an operation (R126, R127). -/
def State.portFull (s : State) (c q mode : Nat) (write : Bool) : Bool :=
  if mode = 2 then !write && 8 ≤ s.fget (F.DMP_STAT_RD_OUT c q)
  else if mode = 3 then
    if write then 32 ≤ s.fget (F.DMP_STAT_WR_TURN c q) else s.bit (F.DMP_STAT_DEF_PEND c q)
  else false

/-- The byte address of word `w` of a port's window (R122). -/
def State.portAddr (s : State) (c q w : Nat) : Nat := s.wget (W.DMP_BASE_BASE c q) + 16 * w

/-- The port operation of a FIRE at step `step` starts, with the staging register as it stands (R61). -/
def State.startOp (s : State) (k step strand : Nat) : State :=
  let c := k / 4
  let q := k % 4
  let p := s.port k
  let mode := s.fget (F.DMP_CFG_MODE c q)
  let addr := field p.stage.toNat 128 48
  let write := p.stage.getLsbD 184
  let be : Byte := BitVec.ofNat 8 (field p.stage.toNat 176 8)
  let s0 := s.setPort k { p with fire := none }
  if s.portFull c q mode write then s0.portFault c 0x010B strand step p.fireTime addr write
  else
    let bad := s.wget (W.DMP_SIZE_SIZE c q) ≤ addr || (mode == 4 && write) || (mode == 5 && !write)
    let t := s.portTiming mode
    let fire := s.core.base + step
    let op : PortOp := { mode, write, addr, data := p.stage.setWidth 128, be, strand, step, turn := s.turnNum, fire,
                         access := fire + t.1, ret := fire + t.2, time := p.fireTime, bad,
                         accessed := bad, arrived := bad }
    let s1 := if bad && write then s0 else s0.setPort k { p with fire := none, ops := p.ops ++ [op] }
    let s2 := if mode = 2 ∧ !write then s1.fset (F.DMP_STAT_RD_OUT c q) (s1.fget (F.DMP_STAT_RD_OUT c q) + 1)
      else if mode = 3 ∧ write then s1.fset (F.DMP_STAT_WR_TURN c q) (s1.fget (F.DMP_STAT_WR_TURN c q) + 1)
      else if mode = 3 then s1.fset (F.DMP_STAT_DEF_PEND c q) 1 else s1
    let s3 := s2.traceOffer (.port write (BitVec.ofNat 7 c) (BitVec.ofNat 2 q) (BitVec.ofNat 3 mode)
      (BitVec.ofNat 16 step) (BitVec.ofNat 48 (if mode = 4 ∨ mode = 5 then 16 * addr else s.portAddr c q addr)) be
      (BitVec.ofNat 16 s.turnNum) op.data)
    if bad then s3.portFault c 0x010C strand step p.fireTime addr write else s3

/-- Every operation fired in the step before starts. -/
def State.startFires (s : State) : State :=
  s.each s.ports fun s kp =>
    match (s.port kp.1).fire with
    | some (step, strand) => s.startOp kp.1 step strand
    | none => s

/-! ### Inject entries of isolated cords (R115) -/

/-- The value an inject entry of an isolated cord carries: that of the crossing's border policy, else the last value it
injected before the isolation, 0 where it injected none (R115, R290). -/
def State.borderValue (s : State) (stn dir pos step : Nat) : Bool :=
  let k := slotKey 0 stn 0 step dir pos
  match SMap.find s.image.border k with
  | some v => v
  | none => SMap.get (fun _ => false) s.ring.lastInj k

/-- An inject entry of a cord station takes its value; the value is kept for the border policy, that of an early prefix once
its turn starts (R290). A bight of a prefix step is speculative (R119). -/
def State.injectEntry (s : State) (stn dir pos step : Nat) (val spec : Bool) : State :=
  let k := slotKey 0 stn 0 step dir pos
  let r := s.ring
  let r := if s.core.phase = .early then { r with specInj := SMap.put r.specInj k val }
    else { r with lastInj := SMap.set (fun _ => false) r.lastInj k val }
  ({ s with ring := r }).inject stn dir pos step val spec

/-- The entries of isolated stations that inject at step `t` (R115). -/
def State.injectIsolated (s : State) (t : Nat) : State :=
  s.each (List.range 128) fun s c =>
    if s.isolated c then
      s.each (s.outEntries c t) fun s e =>
        if entryKind e.2 = 1 then
          s.inject c (e.1 / 64) (e.1 % 64) t (s.borderValue c (e.1 / 64) (e.1 % 64) t) (s.prefixStep t)
        else s
    else s

/-- The lockstep enters step `t` when the first strand executes it. -/
def State.enterStep (s : State) (t : Nat) : State :=
  if s.core.cur = some t then s
  else (({ s with core := { s.core with cur := some t, stepAt := s.time.now } }).startFires).injectIsolated t

/-! ### Fetch and check (R45, R46, R66) -/

/-- The stored word of strand `g` at step `t`; where no frame wrote one, the loader's fill (R33). -/
def State.instrWord (s : State) (g t : Nat) : BitVec 72 :=
  match SMap.find s.instrs (g * 4096 + t) with
  | some w => w
  | none => if s.image.cords.getLsbD (gCord g) && t + 1 == s.schedL then storedWord turnEndWord else 0

/-- What R66 and R46 make of a fetched word. -/
inductive Verdict where
  /-- executes as its class -/
  | runs
  /-- raises ILLEGAL_OP and executes as NOP or TURN_END: result 0, not suppressed -/
  | asNop
  /-- stopped: result 0, effects suppressed, with a fault of R66 as code, address field, access type -/
  | stopped (code addr acc : Nat)
  deriving DecidableEq, Repr

/-- The checks of R66 on the corrected word, in their order. -/
def verdict (w : W64) (lastStep inPrefix : Bool) : Verdict :=
  let op := wOp w
  if lastStep then (if op = opTurnEnd then .runs else .asNop)
  else if opReserved op then .stopped 0x0102 op accInstr
  else if op = opTurnEnd then .asNop
  else match (wSels w).findIdx? selReserved with
    | some i =>
      if opFetches op then .stopped 0x0103 ((wSels w).getD i 0 + i * 256) accInstr
      else .runs
    | none =>
      if inPrefix && op == opEvalPort then .stopped 0x0108 256 accBight
      else match (wSels w).find? selPort with
        | some x => if inPrefix && opFetches op then .stopped 0x0108 x accBight else .runs
        | none => .runs

/-- A fault of a strand's step (R152, R153). -/
def State.stepFault (s : State) (g t ord : Nat) (f : Nat × Nat × Nat) : State :=
  s.raise { src := gCord g, code := f.1, master := BitVec.ofNat 8 (0x80 + gCord g), acc := f.2.2, addr := f.2.1,
            time := s.core.stepAt, turn := s.turnNum, strand := g, step := t, ord }

/-- Loads CRD_CE_LOC or CRD_UE_LOC fields. -/
def locWord (n t : Nat) (syn : Byte) (src : Nat) : Nat := n + t * 2 ^ 10 + syn.toNat * 2 ^ 22 + src * 2 ^ 30 + 2 ^ 31

/-- A correctable error is counted and located (R45). -/
def State.countCe (s : State) (g t : Nat) (syn : Byte) : State :=
  (s.count (F.CRD_CE_EXEC_COUNT (gCord g)) 1).setReg (R.CRD_CE_LOC (gCord g))
    (BitVec.ofNat 32 (locWord (g % 1024) t syn 0))

/-- An uncorrectable error is counted, and located if no location is held (R46, R47). -/
def State.countUe (s : State) (g t : Nat) (syn : Byte) (src : Nat) : State :=
  let s1 := s.count (F.CRD_UE_CNT_COUNT (gCord g)) 1
  if s1.bit (F.CRD_UE_LOC_VALID (gCord g)) then s1
  else s1.setReg (R.CRD_UE_LOC (gCord g)) (BitVec.ofNat 32 (locWord (g % 1024) t syn src))

/-! ### Result and side effects -/

/-- The result enters the history (and so the taps), and the strand goes to its next step (R34, R35). -/
def Strand.advance (x : Strand) (r : Bool) : Strand :=
  { x with hist := x.hist <<< 1 ||| (if r then 1 else 0), pos := x.pos + 1 }

def State.enterResult (s : State) (g : Nat) (r : Bool) : State := s.setStrand g ((s.strand g).advance r)

/-- SLOT_OWNER (R59, R153). -/
def State.slotOwner (s : State) (g t pos dir tag : Nat) : State :=
  s.stepFault g t 6 (0x0104, pos * 2 ^ 16 + gCord g * 2 ^ 8 + dir * 2 ^ 5 + tag, accBight)

/-- The station matches the inject entries that name strand `g` at step `t` (R59). `send` is the tag and result of an
EVAL_SEND; `quiet` holds for a step whose side effects are suppressed. -/
def State.matchEntries (s : State) (g t : Nat) (quiet : Bool) (send : Option (Nat × Bool)) : State :=
  let c := gCord g
  let mine := (s.outEntries c t).filter fun e => entryKind e.2 = 1 ∧ entryStrand e.2 = g % 1024
  let inPrefix := s.prefixStep t
  let s1 := s.each mine fun s e =>
    let dir := e.1 / 64
    let pos := e.1 % 64
    match send with
    | some (tag, r) =>
      if entryTag e.2 = tag then s.injectEntry c dir pos t r inPrefix
      else (s.injectEntry c dir pos t false inPrefix).slotOwner g t pos dir (entryTag e.2)
    | none =>
      if quiet then s.injectEntry c dir pos t false inPrefix
      else (s.injectEntry c dir pos t false inPrefix).slotOwner g t pos dir (entryTag e.2)
  match send with
  | some (tag, _) => if mine.any (fun e => entryTag e.2 == tag) then s1 else s1.slotOwner g t 0 7 tag
  | none => s1

/-- EVAL_LATCH stages its result; a second write in the turn raises STATE_WRITE_DUP, but not where a cancelled prefix has
executed the step before (R58, R154). -/
def State.stageState (s : State) (g t a : Nat) (r : Bool) : State :=
  let x := s.strand g
  let s1 := s.setStrand g { x with staged := SMap.put x.staged a r }
  if (SMap.find x.staged a).isSome ∧ x.redo ≤ t then s1.stepFault g t 5 (0x010D, a, accWrite) else s1

/-- EVAL_PORT writes a staging bit, the lowest strand of the cord winning, and with FIRE marks an operation (R60, R61). -/
def State.stagePort (s : State) (g t bit : Nat) (fire r : Bool) : State :=
  let k := portKey (gCord g) (gGroup g)
  let p := s.port k
  let n := g % 1024
  let abs := s.core.base + t
  let ws := if p.wstep = abs then p.writers else []
  let wins : Bool := match SMap.find ws bit with
    | some m => decide (n ≤ m)
    | none => true
  let b : BitVec 256 := BitVec.ofNat 256 (2 ^ bit)
  let stage := if wins then (if r then p.stage ||| b else p.stage &&& ~~~b) else p.stage
  let fires := if fire then
      match p.fire with
      | some (u, m) => some (u, min m n)
      | none => some (t, n)
    else p.fire
  s.setPort k { p with
    stage, wstep := abs, writers := if wins then SMap.put ws bit n else ws, fire := fires
    fireTime := if fire then s.core.stepAt else p.fireTime }

/-- EVAL_CHECK marks an event with the earliest step and, at that step, the lowest strand (R62). -/
def State.markEvent (s : State) (g t e : Nat) : State :=
  let keep : Bool := match SMap.find s.core.asserts e with
    | some (u, h) => decide (u < t) || (u == t && decide (h ≤ g))
    | none => false
  if keep then s else { s with core := { s.core with asserts := SMap.put s.core.asserts e (t, g) } }

/-- After step L − 1 no position holds a bight: those that would arrive later are discarded (R98, R105). -/
def State.endSchedule (s : State) : State := s.clearBights (fun b => s.schedL ≤ b.at_)

/-- The operands of an evaluating class, raising the operand faults in the order A, B, C, D (R53, R54, R56). -/
def State.fetchOperands (s : State) (g t : Nat) (inPrefix : Bool) (w : W64) : State × List Bool :=
  let vs := (wSels w).map fun x => s.operand g t inPrefix x
  (s.each vs.zipIdx (fun s v => match v.1.2 with
    | some f => s.stepFault g t (1 + v.2) f
    | none => s), vs.map (·.1))

/-- S[a] as STATE_READ returns it; with AUX[10], through the staged writes of the turn (R36, R69). -/
def Strand.readState (x : Strand) (aux : Nat) : Bool :=
  let a := aux % 1024
  match (if aux.testBit 10 then SMap.find x.staged a else none) with
  | some v => v
  | none => x.store.getLsbD a

/-- Steps 3 to 6 of R52 for a word that executes as its class. -/
def State.runWord (s : State) (g t : Nat) (w : W64) : State :=
  let op := wOp w
  let inPrefix := s.prefixStep t
  let aux := wAux w
  if opFetches op then
    let (s1, vs) := s.fetchOperands g t inPrefix w
    let r := (wTT w).testBit (ttIndex vs)
    let s2 := s1.enterResult g r
    if op = opEvalLatch then (s2.stageState g t (aux % 1024) r).matchEntries g t false none
    else if op = opEvalSend then s2.matchEntries g t false (some (aux % 32, r))
    else if op = opEvalPort then (s2.stagePort g t (aux % 256) (aux.testBit 11) r).matchEntries g t false none
    else if op = opEvalCheck then
      (if r then s2.markEvent g t (aux % 1024) else s2).matchEntries g t false none
    else s2.matchEntries g t false none
  else if op = opStateRead then
    (s.enterResult g ((s.strand g).readState aux)).matchEntries g t false none
  else if op = opTurnEnd then ((s.enterResult g false).matchEntries g t false none).endSchedule
  else (s.enterResult g false).matchEntries g t false none

/-- The step of strand `g` as R52 orders it, for the row of class `cls`. A word that is stopped or corrected to another
class's word belongs to whichever row names the strand; a sound word of another class leaves the row without effect. -/
def State.strandStep (s : State) (cls g : Nat) : State :=
  let t := (s.strand g).pos
  let w := s.instrWord g t
  let syn := decodeSyndrome (syndrome w)
  let d := correctedData w
  let v := verdict d (t + 1 == s.schedL) (s.prefixStep t)
  if !s.mayStep g then s
  else if syn = .uncorrectable then
    let s1 := s.enterStep t
    let s2 := (s1.countUe g t (syndrome w) 0).stepFault g t 0 (0x0101, (syndrome w).toNat, accInstr)
    (s2.enterResult g false).matchEntries g t true none
  else if v = .runs ∧ wOp d ≠ cls then s
  else
    let s1 := s.enterStep t
    let s2 := if syn = .clean then s1 else s1.countCe g t (syndrome w)
    match v with
    | .runs => s2.runWord g t d
    | .asNop =>
      let s3 := ((s2.stepFault g t 0 (0x0102, wOp d, accInstr)).enterResult g false).matchEntries g t false none
      if t + 1 = s.schedL then s3.endSchedule else s3
    | .stopped code addr acc =>
      ((s2.stepFault g t 0 (code, addr, acc)).enterResult g false).matchEntries g t true none

/-! ### The meanings -/

def execNop (g : StrandId) (s : State) : Host.Outcome State Fault Refusal := .next (s.strandStep opNop g.toNat)
def execEval (g : StrandId) (s : State) : Host.Outcome State Fault Refusal := .next (s.strandStep opEval g.toNat)
def execEvalLatch (g : StrandId) (s : State) : Host.Outcome State Fault Refusal :=
  .next (s.strandStep opEvalLatch g.toNat)
def execStateRead (g : StrandId) (s : State) : Host.Outcome State Fault Refusal :=
  .next (s.strandStep opStateRead g.toNat)
def execEvalSend (g : StrandId) (s : State) : Host.Outcome State Fault Refusal :=
  .next (s.strandStep opEvalSend g.toNat)
def execEvalPort (g : StrandId) (s : State) : Host.Outcome State Fault Refusal :=
  .next (s.strandStep opEvalPort g.toNat)
def execEvalCheck (g : StrandId) (s : State) : Host.Outcome State Fault Refusal :=
  .next (s.strandStep opEvalCheck g.toNat)
def execTurnEnd (g : StrandId) (s : State) : Host.Outcome State Fault Refusal :=
  .next (s.strandStep opTurnEnd g.toNat)

end Sys2Proof.Machine
end

