-- ==== Sys2Proof/Machine/Access.lean ====
section
/-! DEFINITION. Who may reach a scratch bank or a DRAM granule (R134–R139). -/

namespace Sys2Proof.Machine

/-- Bank of a scratch address, and whether the address lies in the scratch windows of the part (R122). -/
def bankOf (a : Nat) : Nat := (a - 0x04000000) / 0x400000
def State.inScratch (s : State) (a : Nat) : Bool := 0x04000000 ≤ a && a < 0x14000000 && s.bankHere (bankOf a)

/-- A scratch window of a bank that the part does not have (R3). -/
def State.absentWindow (s : State) (a : Nat) : Bool := 0x04000000 ≤ a && a < 0x14000000 && !s.bankHere (bankOf a)

def dramBase : Nat := 0x010000000000
/-- Granule of a DRAM address and its stack (R138). -/
def granuleOf (a : Nat) : Nat := (a - dramBase) / 0x40000000
def stackOf (a : Nat) : Nat := granuleOf a / 48
def State.inDram (s : State) (a : Nat) : Bool :=
  dramBase ≤ a && a < dramBase + (if s.big then 384 else 192) * 0x40000000

/-- A master is the named owner, or a member of the cord group (R134). -/
def isOwner (master owner : Nat) (cords : Bool) : Bool := if cords then 0x80 ≤ master && master < 0x100 else master == owner

/-- What a bank does with an access (R135, R136). -/
inductive BankAnswer where
  | granted | waits | refused
  deriving DecidableEq, Repr

def State.bankAnswer (s : State) (bank master : Nat) : BankAnswer :=
  if s.fget (F.BNK_STAT_STATE bank) = 0 then
    if isOwner master (s.fget (F.BNK_OWN_OWNER bank)) (s.bit (F.BNK_OWN_CORDS bank)) then .granted else .refused
  else
    match SMap.find s.ring.nextOwner bank with
    | some (o, g) => if isOwner master o.toNat g then .waits else .refused
    | none => .refused

/-- A non-owner access is counted and, unless the host made it, raises NON_OWNER (R136). -/
def State.nonOwnerAt (s : State) (master addr acc strand step turn time : Nat) : State :=
  let b := bankOf addr
  let s1 := s.count (F.BNK_STAT_NONOWN_CNT b) 1
  if master = 0 then s1
  else s1.raise { src := 0x100 + b, code := 0x010E, master := BitVec.ofNat 8 master, acc, addr, time, turn, strand, step,
                  ord := 5 }

/-- A non-owner access that no strand step made. -/
def State.nonOwner (s : State) (master addr acc : Nat) : State :=
  s.nonOwnerAt master addr acc noStrand noStep s.turnNum s.time.now

/-- The region table's answer to a master (R139): granule uses 0 free to 5 host. The boot sequencer may write any granule
during a load. -/
def State.granuleAllows (s : State) (master use : Nat) (write : Bool) : Bool :=
  let host := master == 0
  let cord := decide (0x80 ≤ master)
  let unit := decide (0x30 ≤ master) && decide (master < 0x70)
  if write then
    (master == 1 && 1 ≤ s.fget F.CFG_STAT_STATE && s.fget F.CFG_STAT_STATE ≤ 4) ||
    (use == 1 && master == 0x10) || (use == 2 && host) || (use == 3 && (cord || (host && s.bit F.TURN_STAT_HALTED)))
      || (use == 4 && master == 0x70) || (use == 5 && (host || unit))
  else
    (use == 1 && host) || (use == 2 && (master == 0x20 || host)) || (use == 3 && (cord || host)) || (use == 4 && host)
      || (use == 5 && (host || unit))

/-- Whether a DRAM access is allowed (R139). -/
def State.dramAllows (s : State) (master addr : Nat) (write : Bool) : Bool :=
  s.granuleAllows master (s.fget (F.BNK_GRN_USE (granuleOf addr))) write

/-- A refused DRAM access is counted and, unless the host made it, raises REGION_DENIED (R139). -/
def State.regionDenied (s : State) (master addr acc : Nat) : State :=
  let s1 := s.count F.BNK_DRAM_DENIED_COUNT 1
  if master = 0 then s1 else s1.raiseAt (0x140 + stackOf addr) 0x0202 master acc addr

end Sys2Proof.Machine
end

