-- ==== Sys2Proof/Machine/Way.lean ====
section
/-! DEFINITION. Where a resource lies (R110, R331), the way of a packet over the rings (R93–R96, R110–R112), and what observes it:
probes, latency monitors and the trace (R118, R120, R345). -/

namespace Sys2Proof.Machine

/-! ### Where a resource lies -/

/-- The power domain of the register block at `a`: strand dies, lane sets, the P1 end stations; 0 for blocks that are never
gated (R28, R331). -/
def blockDomain (a : Nat) : Nat :=
  if 0x01000000 ≤ a ∧ a < 0x02000000 then 2 + (a - 0x01000000) / 0x20000 / 32
  else if 0x02000000 ≤ a ∧ a < 0x02000000 + 1056 * 0x2000 then 20 + (a - 0x02000000) / 0x2000 / 16
  else if 0x03010000 ≤ a ∧ a < 0x03020000 then 20 + (a - 0x03010000) / 0x40 / 16
  else if 0x03100000 ≤ a ∧ a < 0x03110000 then 20 + (a - 0x03100000) / 0x40 / 16
  else if 0x00099000 ≤ a ∧ a < 0x0009A000 then 7
  else 0

/-- The port die of a domain: 0 or 1, or none for the strand dies and the domains that are never gated. -/
def domainDie (d : Nat) : Option Nat :=
  if d < 6 then none
  else if d < 12 then some (d % 2)
  else if d < 20 then some ((d - 12) / 4)
  else if d < 84 then some ((d - 20) / 32)
  else some (d - 84)

/-- The station ejects packets into the domain. -/
def ejects (stn d : Nat) : Bool := if stn < 0x80 then d == 2 + stn / 32 else domainDie d == some ((stn - 0x80) / 16)

/-- ASLEEP of a station: ingress to a domain behind it is closed (R117). -/
def State.stnSleeps (s : State) (stn : Nat) : Bool :=
  (List.range 86).any fun d => ejects stn d && s.domainHere d && !s.domainOn d

/-- Domain of the resource at an address (R331). -/
def State.addrDomain (s : State) (a : Nat) : Nat :=
  if s.inScratch a then 10 + bankOf a / 32 else if s.inDram a then 12 + stackOf a else blockDomain a

/-- The port die of the resource at an address, P0 for those that no table places on P1 (R28, R122, R138, R331). -/
def State.addrDie (s : State) (a : Nat) : Nat := if domainDie (s.addrDomain a) = some 1 then 1 else 0

/-- The destination station that the source decodes from a request's address (R110): a cord's station for its block, else an end
station of the resource's die, in the source cord's column. From a source on a port die the column is that of the packets
between P0 and P1. DEDUCED (log 67). -/
def State.destStn (s : State) (p : Packet) : StnId :=
  let a := p.addr.toNat
  let col := if 0x80 ≤ p.src.toNat then cordCol (p.src.toNat - 0x80) else a / 4096 % 16
  BitVec.ofNat 8 (if 0x01000000 ≤ a ∧ a < 0x02000000 then (a - 0x01000000) / 0x20000 else 0x80 + 16 * s.addrDie a + col)

/-! ### The way of a packet (R93–R96, R110–R112) -/

/-- Hops from place `a` to place `b` of a ring of `n` places, and whether they go up: the shorter way, up on a tie. -/
def ringWay (n a b : Nat) : Nat × Bool :=
  let d := (b + n - a) % n
  if d ≤ n - d then (d, true) else (n - d, false)

/-- Place of a station on its column ring, P0's end station first, then southward. -/
def colPlace (stn : Nat) : Nat := if stn < 0x80 then cordRow stn + 1 else if stn < 0x90 then 0 else 9

def stnCol (stn : Nat) : Nat := if stn < 0x80 then cordCol stn else stn % 16

def colStation (closed : Bool) (col k : Nat) : Nat :=
  if k = 0 then 0x80 + col else if k = 9 ∧ !closed then 0x90 + col else cordAt (k - 1) col

/-- Stations left and the side of each, on the way along a column ring. -/
def colWay (closed : Bool) (col a b : Nat) : List (Nat × Nat) :=
  let n := if closed then 5 else 10
  let w := ringWay n a b
  (List.range w.1).map fun i =>
    (colStation closed col ((if w.2 then a + i else a + n - i) % n), if w.2 then dirS else dirN)

/-- The same along a row ring. -/
def rowWay (row a b : Nat) : List (Nat × Nat) :=
  let w := ringWay 16 a b
  (List.range w.1).map fun i => (cordAt row ((if w.2 then a + i else a + 16 - i) % 16), if w.2 then dirE else dirW)

/-- The way from station `a` to station `b`: along the row first, between cords on request the column first; from an end
station along its column. -/
def stnWay (closed colFirst : Bool) (a b : Nat) : List (Nat × Nat) :=
  if a < 0x80 ∧ !(colFirst && b < 0x80) then
    rowWay (cordRow a) (stnCol a) (stnCol b) ++ colWay closed (stnCol b) (colPlace a) (colPlace b)
  else
    colWay closed (stnCol a) (colPlace a) (colPlace b)
      ++ (if b < 0x80 then rowWay (cordRow b) (stnCol a) (stnCol b) else [])

/-- Where a master's request for station `dst` enters the rings: a cord's own station, else an end station of the master's die,
in the destination's column (R110). Which die a master without a unit number is on is open: P0 is taken (log 67). -/
def entryStn (master dst : Nat) : Nat :=
  if 0x80 ≤ master then master - 0x80
  else if 0x50 ≤ master ∧ master < 0x70 then 0x90 + stnCol dst
  else 0x80 + stnCol dst

/-- A bridge station of the open grid (R97). -/
def isBridge (stn : Nat) : Bool :=
  decide (0x80 ≤ stn) || [0, 7, 8, 15].contains (cordCol stn) || [0, 3, 4, 7].contains (cordRow stn)

/-- Column first is permitted between two stations: cords of different rows and columns in the open grid, where the packet would
turn at a bridge station (R111, R112). -/
def colAllowed (closed : Bool) (a b : Nat) : Bool :=
  !closed && decide (a < 0x80) && decide (b < 0x80) && cordRow a != cordRow b && cordCol a != cordCol b
    && isBridge (cordAt (cordRow b) (cordCol a))

/-- The packet may take its column first (R112): VN3 goes row first, and so does every packet while ADAPT is 0. -/
def State.mayColumn (s : State) (src : Nat) (p : Packet) : Bool :=
  (p.vn == 1 || p.vn == 2) && s.bit F.NOC_CTL_ADAPT && colAllowed s.closed src p.dstStn.toNat

/-- The packet takes its column first: where R112 permits it, ROUTE holds what the source made of the free credits of the two
links, which the command states. -/
def State.colFirst (s : State) (src : Nat) (p : Packet) : Bool := p.route && s.mayColumn src p

/-- A station of the way from `a` to `b` accepts no packets (R116). -/
def State.wayClosed (s : State) (colFirst : Bool) (a b : Nat) : Bool :=
  ((stnWay s.closed colFirst a b).map (·.1) ++ [b]).any fun n => s.bit (stnClosed n)

/-- A station of the way after its first accepts no packets: a closed station's own answers leave it as it drains (R116). -/
def State.wayBarred (s : State) (colFirst : Bool) (a b : Nat) : Bool :=
  (((stnWay s.closed colFirst a b).map (·.1) ++ [b]).drop 1).any fun n => s.bit (stnClosed n)

/-- The packet's way has a closed station and the other way, which it may take, has none (R116). -/
def State.mayReroute (s : State) (src : Nat) (p : Packet) : Bool :=
  let dst := p.dstStn.toNat
  let c := s.colFirst src p
  s.mayColumn src p && s.wayClosed c src dst && !s.wayClosed (!c) src dst

/-- The packet passes the probes from LOCAL injection to LOCAL ejection (R118). -/
def State.travel (s : State) (src op : Nat) (p : Packet) : State :=
  let dst := p.dstStn.toNat
  if stnExists s.closed src && stnExists s.closed dst then
    ((s.probePacket src 5 op p).each (stnWay s.closed (s.colFirst src p) src dst) fun s w =>
      s.probePacket w.1 w.2 op p).probePacket dst 4 op p
  else s

/-! ### What observes the rings (R118, R120, R345) -/

def State.latencyBin (s : State) (n b : Nat) : Nat := SMap.get (fun _ => 0) s.ring.bins (n * 16 + b)

/-- A monitor counts a latency and payload bytes (R120). -/
def State.monitor (s : State) (master bytes : Nat) (edges : Option Nat) : State :=
  s.each (List.range 8) fun s n =>
    if s.bit (F.G32_INIT_EN n) && s.fget (F.G32_INIT_ID n) == master then
      let s1 := s.fset (F.G32_BW_BYTES n) (s.fget (F.G32_BW_BYTES n) + bytes)
      match edges with
      | none => s1
      | some e =>
        let b := min 15 (e / 2 ^ s.fget (F.G32_INIT_SHIFT n))
        { s1 with ring := { s1.ring with
            bins := SMap.set (fun _ => 0) s1.ring.bins (n * 16 + b) (satAdd 0xFFFF (s1.latencyBin n b) 1) } }
    else s

/-- A probe of VN1 or VN2, a latency monitor or the trace observes the requests of the master and their responses. -/
def State.sees (s : State) (m : MasterId) : Bool :=
  (s.bit F.TRC_CTL_EN && decide (m.toNat < 0x80) && s.selBit R.TRC_MSTR m.toNat)
    || (List.range 64).any (fun n => s.bit (F.NOC_PRB_CTL_EN n)
        && ((s.fget (F.NOC_PRB_CTL_VNMASK n)).testBit 1 || (s.fget (F.NOC_PRB_CTL_VNMASK n)).testBit 2))
    || (List.range 8).any fun n => s.bit (F.G32_INIT_EN n) && s.fget (F.G32_INIT_ID n) == m.toNat

/-- A probe, a latency monitor or the trace observes the rings. -/
def State.observed (s : State) : Bool :=
  s.bit F.TRC_CTL_EN || (List.range 64).any (fun n => s.bit (F.NOC_PRB_CTL_EN n)) || (List.range 8).any fun n => s.bit (F.G32_INIT_EN n)

/-- A request with the destination station that its source decodes of the address (R110). -/
def State.located (s : State) (p : Packet) : Packet := { p with dstStn := s.destStn p }

/-- A request passes the probes; the trace and the monitors see those of VN1. -/
def State.seeRequest (s : State) (op : Nat) (p : Packet) : State :=
  let s1 := s.travel (entryStn p.src.toNat p.dstStn.toNat) op p
  if op < 2 then (s1.traceOffer (.txn false (BitVec.ofNat 4 op) p p.dstStn.toNat)).monitor p.src.toNat (16 * p.payload.length) none
  else s1

/-- A response passes from station `src` the probes, the trace and the monitors, `edges` step-clock edges after its request. -/
def State.seeResponse (s : State) (src : Nat) (data : Bool) (p : Packet) (edges : Nat) : State :=
  let op := if data then 8 else 9
  ((s.travel src op p).traceOffer (.txn true (BitVec.ofNat 4 op) p p.dstStn.toNat)).monitor p.dstId.toNat
    (16 * p.payload.length) (some edges)

/-- The response to a request (R109), from the station of its target; the master ID of a responder that is no master is open, and its
way is its source's choice (R112), a free value: the model holds no credits (log 67). Two free values are taken. -/
def State.responseTo (s : State) (p : Packet) (status : Nat) (payload : List W128) : Packet :=
  let dst := p.dstStn.toNat
  let r : Packet := {
    vn := 2, src := if dst < 0x80 then BitVec.ofNat 8 (0x80 + dst) else s.freeBits 8
    dstStn := BitVec.ofNat 8 (entryStn p.src.toNat dst), dstId := p.src, bar2 := p.bar2
    addr := p.addr, tag := p.tag, len := BitVec.ofNat 4 (payload.length / 2), status := BitVec.ofNat 2 status, payload }
  { r with route := s.mayColumn dst r && (s.drawn.freeBits 1).getLsbD 0 }

/-- A VN1 request of a master that is answered at once, with the effect `f`: what observes the rings sees the request and its response,
`ans` giving STATUS and payload. The tag and the latency are free values. DESIGN CHOICE (log 128). -/
def State.transact (s : State) (op : Nat) (p : Packet) (f : State → State) (ans : State → Nat × List W128) : State :=
  if !s.sees p.src then f s
  else
    let q := { s.located p with tag := s.freeBits 8 }
    let t := f (s.drawn.seeRequest op q)
    let r := t.responseTo q (ans t).1 (ans t).2
    let edges := (t.drawn.drawn.freeBits 32).toNat
    t.drawn.drawn.drawn.seeResponse q.dstStn.toNat (op == 0) r edges

/-- The 64-byte lines that the `n` bytes from `a` on touch, as addresses and lengths. -/
def linesOf (a n : Nat) : List (Nat × Nat) :=
  if n = 0 then []
  else (List.range ((a + n - 1) / 64 - a / 64 + 1)).map fun i =>
    let lo := max a ((a / 64 + i) * 64)
    (lo, min (a + n) ((a / 64 + i + 1) * 64) - lo)

/-- The words of the flits that hold the `n` bytes from `a` on. -/
def State.rangeWords (s : State) (a n : Nat) : List W128 :=
  (List.range (2 * ((a + n + 31) / 32 - a / 32))).map fun i => s.rdWord (a / 32 * 32 + 16 * i)

/-- A master reads lines that give one answer. How many lines a read takes is open, one to four by the payload of a packet (R109): a free
value (log 128). `eff` is what each read does, `status` its answer. -/
def State.readLines (s : State) (src : MasterId) (eff : State → State) (status : Nat) : Nat → List (Nat × Nat) → State
  | n + 1, p :: l =>
    let m := min 3 l.length
    let k := if m = 0 then 0 else (s.freeBits 2).toNat % (m + 1)
    let a := p.1
    let bytes := p.2 + ((l.take k).map (·.2)).sum
    let q : Packet := { src, dstStn := 0, addr := BitVec.ofNat 48 a, len := BitVec.ofNat 4 ((a + bytes + 31) / 32 - a / 32) }
    ((if m = 0 then s else s.drawn).transact 0 q eff fun t =>
      (status, if status = 0 then t.rangeWords a bytes else [])).readLines src eff status n (l.drop k)
  | _, _ => s

/-! ### Refusals (R117, R136, R139) -/

/-- Collector source of a station (R310). -/
def stnSource (stn : Nat) : Nat := if stn < 0x80 then stn else 0x210 + stn

/-- A posted packet for a closed ingress is dropped (R117). -/
def State.droppedAsleep (s : State) (p : Packet) : State :=
  (s.count F.NOC_ASLEEP_DROP_COUNT 1).raiseAt (stnSource p.dstStn.toNat) 0x0201 p.src.toNat accPosted p.addr.toNat

/-- A memory access that is not granted: its domain is gated, or the bank or the region table refuses it. -/
def State.memRefused (s : State) (master addr acc : Nat) : State :=
  if !s.domainOn (s.addrDomain addr) then
    if acc = accPosted then
      s.droppedAsleep (s.located { src := BitVec.ofNat 8 master, dstStn := 0, addr := BitVec.ofNat 48 addr })
    else s.count F.NOC_ASLEEP_RESP_COUNT 1
  else if s.inDram addr then s.regionDenied master addr acc
  else s.nonOwner master addr acc

/-- STATUS of a refused read (R109). -/
def State.refusedStatus (s : State) (addr : Nat) : Nat := if s.domainOn (s.addrDomain addr) then 2 else 1

end Sys2Proof.Machine
end

