-- ==== Sys2Proof/Machine/Guard.lean ====
section
/-! DEFINITION. The host endpoint: which host requests wait in it (R360, R361), which reach a block (R3, R28, R117, R286, R341, R362),
and the wake they cause (R335, R340). -/

namespace Sys2Proof.Machine

/-! ### Wake (R335, R337, R340) -/

/-- An exit starts; `src` is shown in LAST_WAKE. From Deep sleep the reload starts with it: STATE shows SECTIONS (R339). -/
def State.pwrExit (s : State) (src : Nat) : State :=
  let s0 := ((s.fset F.PWR_STAT_TRANSITION 1).fset F.PWR_STAT_LAST_WAKE src).fset F.PWR_STAT_PENDING_WAKE 0
  let s1 := if s.fget F.PWR_STAT_STATE = 3 then s0.fset F.CFG_STAT_STATE 3 else s0
  { s1 with power := { s1.power with
    exiting := true, target := 0, reloaded := false, wakes := 0, patHit := false, exitAt := (s.time.now, s.reg R.HST_ALIVE) } }

/-- A wake source acts, but for Off: during an entry it is held, in Run it is discarded. Of the sources of one instant, by device time
and HST_ALIVE, the lowest shows (R335; log 131). -/
def State.wakeAwake (s : State) (src : Nat) : State :=
  let st := s.fget F.PWR_STAT_STATE
  if !(s.fget F.PWR_WAKE_EN_EN).testBit src then s
  else if s.power.entering then
    { s with power := { s.power with wakes := s.power.wakes ||| BitVec.ofNat 4 (2 ^ src) } }.fset F.PWR_STAT_PENDING_WAKE 1
  else if s.power.exiting then
    if s.power.exitAt = (s.time.now, s.reg R.HST_ALIVE) && decide (src < s.fget F.PWR_STAT_LAST_WAKE) then s.fset F.PWR_STAT_LAST_WAKE src else s
  else if st = 0 ∨ st = 4 then s
  else s.pwrExit src

/-! ### Blocks -/

/-- The station whose registers stand at `a` (R121). -/
def stationBlock (a : Nat) : Option Nat :=
  if 0x01000000 ≤ a ∧ a < 0x02000000 ∧ (a - 0x01000000) % 0x20000 / 0x1000 = 3 then some ((a - 0x01000000) / 0x20000)
  else if 0x00098000 ≤ a ∧ a < 0x0009A000 then some (0x80 + (a - 0x00098000) / 0x100)
  else none

/-- The register block at `a` answers: its domain is on, or it belongs to a station of a ring in use, which stays powered
whatever domain it ejects into (R117, R121). -/
def State.blockOn (s : State) (a : Nat) : Bool :=
  s.domainOn (blockDomain a) ||
    (match stationBlock a with | some n => stnExists s.closed n | none => false)

/-- Register blocks that are absent on the AY4060 (R3): cords, lanes and channels, end stations, P1 registers. -/
def State.blockAbsent (s : State) (a : Nat) : Bool :=
  !s.big && ((0x01800000 ≤ a && a < 0x02000000) || (0x02400000 ≤ a && a < 0x02800000) || (0x02820000 ≤ a && a < 0x02840000)
    || (0x03018000 ≤ a && a < 0x03020000) || (0x03108000 ≤ a && a < 0x03110000) || (0x00099000 ≤ a && a < 0x0009A000)
    || outsideDomains.any (fun d => a == R.PWR_DOM d) || (0x00031400 ≤ a && a < 0x00031800) || (0x03201080 ≤ a && a < 0x03201100) || a == 0x03400014 || a == 0x03400024
    || a == 0x0340002C || (0x03300200 ≤ a && a < 0x03300400) || (0x03301300 ≤ a && a < 0x03301600))

/-- Blocks whose registers the host may write during a load (R286). -/
def loadWritable (a : Nat) : Bool := a < 0x40000 || (0x50000 ≤ a && a < 0x70000)

/-- A host request is answered with a status other than OKAY: captured, or counted (R362, R372). -/
def State.busError (s : State) (status a : Nat) (write : Bool) : State :=
  let s1 := if s.bit F.HST_BERR_VALID then s
    else ((((s.fset F.HST_BERR_STATUS status).setBit F.HST_BERR_WRITE write).fset F.HST_BERR_VALID 1).wset
      W.HST_BERR_ADDR_ADDR a)
  s1.count F.HST_BERR_COUNT 1

/-- A host request to a register block of a gated domain (R28, R117). -/
def State.asleepAnswer (s : State) (a : Nat) (write : Bool) : State := (s.count F.NOC_ASLEEP_RESP_COUNT 1).busError 1 a write

/-- The host gets no answer: the device is in reset, or in Off (R307, R330). -/
def State.hostAway (s : State) : Bool := s.por || s.warm || s.fget F.PWR_STAT_STATE == 4

/-- The device is asleep: host requests other than those of R341 complete without effect. -/
def State.asleep (s : State) : Bool := decide (2 ≤ s.fget F.PWR_STAT_STATE)

/-- The link has trained: LINK shows its speed and width from the first host request on, before it what stands after reset
(R14, R307). DESIGN CHOICE (log 130). -/
def State.trainLink (s : State) : State :=
  if s.reg R.HST_LINK = 0 then
    s.setReg R.HST_LINK (BitVec.ofNat 32 (1 + Config.hostLink % 5 + 2 ^ (Config.hostLink / 5 % 5) * 8))
  else s

/-! ### What waits in the endpoint (R360, R361) -/

def HostReq.isWrite : HostReq → Bool
  | .write .. => true
  | .read .. => false
  | .packet op _ => op == 1

def HostReq.bar2 : HostReq → Bool
  | .packet _ p => p.bar2
  | _ => false

/-- A host request that satisfies `f`, given whether it came through BAR2 and whether it is a write, has no answer yet. -/
def State.hostOwes (s : State) (f : Bool → Bool → Bool) : Bool :=
  s.ring.parked.any (fun r => r.2.src == 0 && f r.2.bar2 (r.1 == 1))
    || s.ring.waits.any (fun w => match w.2 with | .packet p write _ => p.src == 0 && f p.bar2 write | .port _ _ => false)
    || s.ring.resps.any (fun r => r.p.dstId == 0 && f r.p.bar2 (!r.data))
    || s.host.queue.any fun r => f r.bar2 r.isWrite

/-- Two packets touch one 64-byte line. -/
def sameLine (p q : Packet) : Bool :=
  let first := fun (p : Packet) => p.addr.toNat / 64
  let last := fun (p : Packet) => (p.addr.toNat / 32 * 32 + 32 * max 1 p.len.toNat - 1) / 64
  decide (first p ≤ last q) && decide (first q ≤ last p)

/-- An earlier BAR2 access to a line of the packet has not taken effect. -/
def State.lineBusy (s : State) (p : Packet) : Bool :=
  s.ring.parked.any (fun r => r.2.src == 0 && sameLine p r.2)
    || s.ring.waits.any (fun w => match w.2 with | .packet q _ _ => q.src == 0 && sameLine p q | .port _ _ => false)
    || s.host.queue.any fun r => match r with | .packet _ q => q.bar2 && sameLine p q | _ => false

/-- A register access as the request that carries it: the word in its line of 32 bytes (R109, R360). -/
def lineWords (a : Nat) (v : W32) : List W128 :=
  let x := v.toNat * 2 ^ (a % 32 / 4 * 32)
  [BitVec.ofNat 128 x, BitVec.ofNat 128 (x / 2 ^ 128)]

def regPacket (src : MasterId) (a : Nat) (v : Option W32) : Packet := {
  src, dstStn := 0, addr := BitVec.ofNat 48 a, len := 1, be := BitVec.ofNat 32 (15 * 2 ^ (a % 32 / 4 * 4))
  payload := match v with | some v => lineWords a v | none => [] }

/-- The way to the cord block at `a` has a closed station (R116). -/
def State.regClosed (s : State) (a : Nat) : Bool :=
  decide (0x01000000 ≤ a) && decide (a < 0x02000000) &&
    (let dst := (s.destStn (regPacket 0 a none)).toNat
     s.wayClosed false (entryStn 0 dst) dst)

/-- A host request waits: BAR0 accesses one at a time, BAR2 accesses to one line in order, a read for every write before it. -/
def State.hostHeld (s : State) (r : HostReq) : Bool :=
  (!r.bar2 && s.hostOwes fun bar2 _ => !bar2) || (!r.isWrite && s.hostOwes fun _ write => write)
    || (match r with
      | .packet _ p => p.bar2 && s.lineBusy p
      | .write a _ _ _ => s.regClosed a
      | .read a _ => s.regClosed a)

def State.hostPark (s : State) (r : HostReq) : State := { s with host := { s.host with queue := s.host.queue ++ [r] } }

/-! ### Register accesses of the host -/

/-- STATUS of the response to a register access (R109, R117, R361). -/
def State.regStatus (s : State) (a : Nat) : Nat := if !s.blockOn a then 1 else if s.absentWindow a then 2 else 0

/-- A host write of `v` to the register at `a` whose effect is `f`. -/
def State.hostWrite (s : State) (a : Nat) (v : W32) (f : State → State) : State :=
  if (!loadWritable a && !s.image.committed) || s.blockAbsent a then s
  else s.transact 1 (regPacket 0 a (some v)) (fun s => if !s.blockOn a then s.asleepAnswer a true else f s)
    fun _ => (s.regStatus a, [])

/-- A command that is a host write to the bits `mask` of the register at `a`, with the values of `v`. -/
def State.hostCmd (s : State) (a : Nat) (mask v : W32) (f : State → State) : State :=
  if s.hostAway then s
  else s.trainLink.watch [13, 16, 17] fun s =>
    if s.asleep then (s.count F.PWR_ASLEEP_ACC_COUNT 1).wakeAwake 3
    else if s.hostHeld (.write a 4 mask v) then (s.hostPark (.write a 4 mask v)).wakeAwake 3
    else (s.hostWrite a ((s.reg a &&& ~~~mask) ||| v) f).wakeAwake 3

/-- What the register at `a` answers a host read, whose effect and data are `f`. -/
def State.hostFetch (s : State) (a : Nat) (f : State → State) : State :=
  let zero := { s with host := { s.host with data := 0, status := 0 } }
  if s.blockAbsent a then zero
  else zero.transact 0 (regPacket 0 a none) (fun t => if !t.blockOn a then t.asleepAnswer a false else f t)
    fun t => (s.regStatus a, if s.blockOn a then lineWords a t.host.data else [])

/-- A command that is a host read of the register at `a`; `f` gives the data. What a read that the device does not answer
returns is open but for HST_ID (R367). -/
def State.hostGet (s : State) (a : Nat) (f : State → State) : State :=
  if s.hostAway then { s.drawn with host := { s.host with data := s.freeBits 32, status := 0 } }
  else s.trainLink.watch [13, 16, 17] fun s =>
    if s.asleep then
      ({ s with host := { s.host with data := 0, status := 0 } }.count F.PWR_ASLEEP_ACC_COUNT 1).wakeAwake 3
    else if s.hostHeld (.read a 4) then (s.hostPark (.read a 4)).wakeAwake 3
    else (s.hostFetch a f).wakeAwake 3

end Sys2Proof.Machine
end

