-- ==== Sys2Proof/Machine/Time.lean ====
section
/-! DEFINITION. The time unit (chapter 10): device time, its discipline, timestamp queues and timed outputs. -/

namespace Sys2Proof.Machine

/-! ### Trigger pulses -/

/-- A one-cycle pulse on trigger event input `i` (R240). -/
def State.pulse (s : State) (i : Nat) : State :=
  { s with trig := { s.trig with pulse := s.trig.pulse ||| BitVec.ofNat 256 (2 ^ i) } }

/-- The trigger engine keeps what has happened at this edge. -/
def State.meet (s : State) (m : Meeting) : State :=
  { s with trig := { s.trig with met := (s.time.now, m) :: s.trig.met } }

/-- It has happened at this edge: no edge of the edge core clock and no device time has passed since (log 5). -/
def State.meets (s : State) (m : Meeting) : Bool := s.trig.met.contains (s.time.now, m)

/-- Trigger event input `i` at a level (R240). -/
def State.level (s : State) (i : Nat) (v : Bool) : State :=
  let b := BitVec.ofNat 256 (2 ^ i)
  { s with trig := { s.trig with level := if v then s.trig.level ||| b else s.trig.level &&& ~~~b } }

/-! ### The mirror stream (R300) -/

/-- Items that a STANDBY device sends too: heartbeats, without which the ACTIVE device would declare it lost (R304; DEDUCED,
log 42), and TRIG_OUT pulses. -/
def MirrorItem.both : MirrorItem → Bool
  | .heartbeat .. => true
  | .trigOut _ => true
  | _ => false

/-- The splice lanes of the image's footprint (R296). -/
def State.spliceLanes (s : State) : List Nat :=
  (List.range (if s.image.part == 0x4060 || !s.big then 16 else 32)).map (· + 1024)

/-- The link is up: its lanes are aligned (R296, R309). What the partner sends arrives, and what is handed to the link leaves, over a
link that is up alone (R304, R308). -/
def State.linkAligned (s : State) : Bool :=
  s.image.committed && s.bit F.SPL_CTL_LINK_EN && s.spliceLanes.all fun n => s.bit (F.LANE_STAT_ALIGNED n)

/-- A paired device hands an item to the link. -/
def State.mirror (s : State) (i : MirrorItem) : State :=
  if s.splice.paired ∧ s.linkAligned ∧ (s.fget F.SPL_STAT_STATE = 2 ∨ (s.fget F.SPL_STAT_STATE = 3 ∧ i.both)) then
    { s with splice := { s.splice with sent := s.splice.sent ++ [i] } }
  else s

/-- The device runs as a STANDBY: STANDBY, PROMOTING or LAPSED (R300, R305). -/
def State.standby (s : State) : Bool :=
  s.fget F.SPL_STAT_STATE == 3 || s.fget F.SPL_STAT_STATE == 5 || s.fget F.SPL_STAT_STATE == 6

/-! ### Steps of device time -/

/-- Device time wraps at 2^48 seconds. -/
def timeTop : Nat := 2 ^ 48 * 1000000000 * 65536

/-- A short timestamp lies behind another: less than half the wrap away. DEDUCED (log 26). -/
def shortPast (p now : Nat) : Bool := 0 < (now + 2 ^ 64 - p % 2 ^ 64) % 2 ^ 64 && (now + 2 ^ 64 - p % 2 ^ 64) % 2 ^ 64 < 2 ^ 63

def State.tout (s : State) (n : Nat) : TimeOut := SMap.get (fun _ => ({} : TimeOut)) s.time.touts n
def State.setTout (s : State) (n : Nat) (x : TimeOut) : State :=
  { s with time := { s.time with touts := SMap.set (fun _ => ({} : TimeOut)) s.time.touts n x } }

/-- The first grid point of a function that is neither emitted nor passed (R223). -/
def TimeOut.next (x : TimeOut) (periodic : Bool) (period : Nat) : Option Int :=
  if x.from_ < x.base then some x.base
  else if periodic ∧ period ≠ 0 then some (x.base + ((x.from_ - x.base) / period + 1) * period)
  else none

def State.toutNext (s : State) (n : Nat) : Option Int :=
  (s.tout n).next (s.bit (F.TOUT_CTL_MODE n)) (s.wget (W.TOUT_PERIOD_PERIOD n))

/-- A TIME_OUT function at a step of device time from `old` to `new` (R224): a running pulse keeps its width; an armed function
whose next grid point a forward step jumps over shows LATE, and in mode 0 ends; after a backward step the grid points ahead
are emitted again. -/
def State.toutStep (s : State) (n old new : Nat) : State :=
  let x := s.tout n
  let jumped := match s.toutNext n with
    | some p => decide (p < new)
    | none => false
  let s1 := s.setTout n { x with ends := x.ends + ((new : Int) - old), from_ := (new : Int) - 1 }
  if !s.bit (F.TOUT_CTL_EN n) || !jumped then s1
  else if s.bit (F.TOUT_CTL_MODE n) then s1.fset (F.TOUT_CTL_LATE n) 1
  else if x.fired then s1
  else ((s1.fset (F.TOUT_CTL_LATE n) 1).fset (F.TOUT_CTL_DONE n) 1).fset (F.TOUT_CTL_EN n) 0

/-- Functions that are armed or drive a pulse. -/
def State.toutsLive (s : State) : List Nat :=
  (List.range 16).filter fun n => s.bit (F.TOUT_CTL_EN n) || (s.tout n).active

/-- Elapsed times that the turn unit measures on device time go on over a step by `d`: the flywheel's count, the wait for a T0, that
for a first turn after an exit, and the measurement of the anchor's rate, which starts again (R71, R73, R88, R89, R91, R92). DEDUCED (log 92). -/
def Core.overStep (c : Core) (d : Int) (new : Nat) : Core :=
  { c with ltOff := c.ltOff + d, flyAt := c.flyAt + d, anchorT0 := c.anchorT0.map fun t => ((t : Int) + d).toNat
           notBefore := c.notBefore.map (· + d)
           rateAt := new, rateWords := 0 }

/-- The same of the splice unit (R304, R305). -/
def Splice.overStep (x : Splice) (d : Int) : Splice :=
  { x with beatAt := x.beatAt + d, pinsAt := x.pinsAt + d, promoAt := x.promoAt + d }

/-- Device time is stepped to `new`: the step enters TURN_LT_OFFSET and TIME_STEP_CNT, and owes time marks (R71, R216, R225). -/
def State.stepTime (s : State) (new : Nat) : State :=
  let old := s.time.now
  let s1 := { s with
    time := { s.time with now := new, marks := s.time.marks ++ [(new, true)] }
    trace := { s.trace with owed := s.trace.owed ||| 8 }
    core := s.core.overStep ((new : Int) - old) new
    splice := s.splice.overStep ((new : Int) - old) }
  let s2 := s1.wset W.TURN_LT_OFFSET_OFFSET (BitVec.ofInt 64 s1.core.ltOff).toNat
  let s3 := s2.count F.TIME_STEP_CNT_COUNT 1
  s3.each s3.toutsLive fun s n => s.toutStep n old new

/-- Device time moved by a signed offset, wrapping at 2^48 seconds. -/
def moveTime (t : Nat) (p : Int) : Nat := ((t + p) % timeTop).toNat

/-- The signed value of TIME_PHASE and of TIME_FREQ as applied (R214, R215). -/
def State.phase (s : State) : Int := (BitVec.ofNat 64 (s.wget W.TIME_PHASE_P)).toInt
def freqApplied (v : W32) : Int := max (-3276800) (min 3276800 v.toInt)

/-! ### The time clock (R210) -/

/-- What a slew adds at one edge, in millionths of 2^-16 ns (R215). -/
def slewStep (r : Int) : Int := if 0 ≤ r then min r 3276800 else max r (-3276800)

/-- `x` millionths of a unit of FRAC in the 32 bits below FRAC. Where that is not a whole number the rule states no rounding: the
number below or the one above, a free value (log 93). -/
def State.fracUnits (s : State) (x : Int) : Int :=
  x * 2 ^ 32 / 1000000 + (if x * 2 ^ 32 % 1000000 = 0 then 0 else (s.freeBits 1).toNat)

/-- Device time advances by `x` millionths of a unit of FRAC. -/
def State.advance (s : State) (x : Int) : State :=
  let total := (s.time.now * 2 ^ 32 + s.time.sub : Nat) + s.fracUnits x
  let s1 := { s with time := { s.time with
    now := ((total / 2 ^ 32) % timeTop).toNat, sub := (total % 2 ^ 32).toNat } }
  if x * 2 ^ 32 % 1000000 = 0 then s1 else s1.drawn

/-- The rate in force at an edge, in millionths of a unit of FRAC for each period (R210, R214, R215). -/
def State.edgeRate (s : State) : Int :=
  65536000000 + s.time.rest + freqApplied (s.reg R.TIME_FREQ) + (match s.time.slew with | some r => slewStep r | none => 0)

/-- Device time advances by 1 ns scaled by the applied rate (R210); a slew ends when P is consumed (R215). -/
def State.timeAdvance (s : State) : State :=
  let left := s.time.slew.map fun r => r - slewStep r
  let s1 := s.advance s.edgeRate
  let s2 := { s1 with
    time := { s1.time with usPart := s.time.usPart + s.edgeRate.toNat, slew := left.filter (· != 0), rest := 0 }
    core := { s1.core with
      idle := if s.core.phase = .turn ∨ s.fget F.PWR_STAT_STATE ≠ 0 then s.core.idle else s.core.idle + 1 } }
  if left = some 0 then s2.fset F.TIME_STAT_PHASE_BUSY 0 else s2

/-- A second and a millisecond in 2^-16 ns. -/
def oneSecond : Nat := 1000000000 * 65536
def oneMilli : Nat := 1000000 * 65536

/-- An interpolated instant of the period in progress, before the device time of the next edge (R210): which one, the commands do
not time, a free value (log 94). -/
def State.instant (s : State) : Nat := s.time.now + (s.freeBits 32).toNat % max 1 (s.edgeRate / 1000000).toNat

/-- An armed time-of-day load is applied at a PPS edge (R213, R216): device time at the instant `at_` becomes `t`. -/
def State.loadTod (s : State) (at_ t : Nat) : State :=
  let discarded := s.time.slew.isSome || s.time.step.isSome
  let s1 := (s.stepTime (moveTime s.time.now ((t : Int) - at_))).mirror (.time (.tod (BitVec.ofNat 96 (timeBits t))))
  let s2 := { s1 with time := { s1.time with slew := none, rest := 0, step := none } }
  let s3 := (s2.fset F.TIME_STAT_TOD_ARMED 0).fset F.TIME_STAT_TOD_DONE 1
  if discarded then (s3.fset F.TIME_STAT_PHASE_DISCARDED 1).fset F.TIME_STAT_PHASE_BUSY 0 else s3

/-- The selected PPS source has an edge at the device time `at_`, with the delay `dly` of its pin: the capture, or an armed load
(R212, R213). -/
def State.ppsCapture (s : State) (at_ dly : Nat) : State :=
  let armed := s.bit F.TIME_STAT_TOD_ARMED
  let cap := if armed then s.time.tod else timeBits (moveTime at_ (-(dly : Int)))
  let s1 := if armed then s.loadTod at_ ((timeOfBits s.time.tod + dly) % timeTop) else s
  let s2 := (s1.wset W.TIME_PPS_CAP_TIME cap).countWrap F.TIME_PPS_CNT_COUNT 1
  { s2 with time := { s2.time with ppsNew := true } }

/-- The internal source has an edge at the whole second `at_` (R212). -/
def State.ppsInternal (s : State) (at_ : Nat) : State :=
  let s1 := s.ppsCapture at_ 0
  let seen := if s.bit F.TIME_STAT_TOD_ARMED then timeOfBits s.time.tod % timeTop else at_
  { s1 with time := { s1.time with ppsAt := some seen } }

/-- The whole milliseconds and seconds that device time has reached since `old`: time marks are owed, and the internal PPS source
has its edge (R212, R225). -/
def State.crossings (s : State) (old : Nat) : State :=
  let t := s.time.now
  let s1 := if old / oneMilli = t / oneMilli then s
    else { s with time := { s.time with marks := s.time.marks ++ [(t / oneMilli * oneMilli, false)] } }
  if old / oneSecond = t / oneSecond ∨ !s.bit F.TIME_CTL_PPS_SRC then s1 else s1.ppsInternal (t / oneSecond * oneSecond)

/-- An accepted phase step is applied (R215). -/
def State.applyStep (s : State) : State :=
  match s.time.step with
  | none => s
  | some p =>
    let s1 := (s.stepTime (moveTime s.time.now p)).mirror (.time (.step (BitVec.ofInt 64 p)))
    ({ s1 with time := { s1.time with step := none } }).fset F.TIME_STAT_PHASE_BUSY 0

/-! ### Time of day, phase and rate (R213–R216) -/

/-- TOD_ARM (R213); a STANDBY discards it (R300). -/
def State.todArm (s : State) : State :=
  let t := s.wget W.TIME_TOD_TIME
  if s.bit F.TIME_STAT_TOD_ARMED || s.standby then s
  else if 999999999 < t / 65536 % 2 ^ 32 then s.fset F.TIME_STAT_TOD_BAD 1
  else ({ s with time := { s.time with tod := t } }).fset F.TIME_STAT_TOD_ARMED 1

def State.todCancel (s : State) : State := s.fset F.TIME_STAT_TOD_ARMED 0

/-- PHASE_GO (R215): with |P| in range and nothing in progress, a step waits for the next edge or a slew starts. -/
def State.phaseGo (s : State) : State :=
  let p := s.phase
  if s.bit F.TIME_STAT_PHASE_BUSY ∨ 65536000000000 ≤ p.natAbs then s.fset F.TIME_STAT_PHASE_DISCARDED 1
  else
    let s1 := s.fset F.TIME_STAT_PHASE_BUSY 1
    if s.bit F.TIME_CTL_PHASE_MODE then
      { s1 with time := { s1.time with slew := some (p * 1000000) } }.mirror (.time (.slew (BitVec.ofInt 64 p)))
    else { s1 with time := { s1.time with step := some p } }

/-- The moment at which P has been consumed lies within the period in progress: the slew ends, and what it has added by then shows
with the period's own advance at the next edge (R215). DEDUCED (log 93). -/
def State.slewDone (s : State) : State :=
  match s.time.slew with
  | none => s
  | some r =>
    if !s.timeRuns || decide (3276800 < r.natAbs) then s
    else ({ s with time := { s.time with slew := none, rest := s.time.rest + r } }).fset F.TIME_STAT_PHASE_BUSY 0

/-- A write of TIME_FREQ (R214). -/
def State.setFreq (s : State) (v : W32) : State :=
  ((s.setReg R.TIME_FREQ v).setBit F.TIME_STAT_FREQ_CLAMP (freqApplied v != v.toInt)).mirror (.time (.freq v))

/-- A host's write of TIME_FREQ; a STANDBY discards it (R300). -/
def State.writeFreq (s : State) (v : W32) : State := if s.standby then s else s.setFreq v

/-- An edge of a PPS source (R212): of the pin, which always shows in PPS_OK, or of the internal source, whose edges are the whole
seconds of device time. Only the selected source is captured. -/
def State.ppsEdge (s : State) (pin : Bool) : State :=
  let s0 := if pin then s.fset F.TIME_STAT_PPS_OK 1 else s
  if s0.bit F.TIME_CTL_PPS_SRC == pin then s0
  else if pin then (s0.drawn).ppsCapture s0.instant (s0.fget F.TIME_PPS_DLY_DLY)
  else if s0.time.now % oneSecond = 0 ∧ s0.time.ppsAt ≠ some s0.time.now then s0.ppsInternal s0.time.now
  else s0

/-! ### Transmit timestamp queues (R219, R221) -/

def State.txqList (s : State) (k : Nat) : List TxStamp := SMap.get (fun _ => []) s.time.txq k

def State.setTxq (s : State) (k : Nat) (l : List TxStamp) : State :=
  ({ s with time := { s.time with txq := SMap.set (fun _ => []) s.time.txq k l } }).fset (F.TXQ_STAT_LEVEL k) l.length

/-- A push: a full queue drops the entry and counts it (R221). Splice lanes have no queue. -/
def State.txqPush (s : State) (e : TxStamp) : State :=
  let k := e.lane / 16
  let l := s.txqList k
  if 64 ≤ k then s
  else if l.length < 32 then s.setTxq k (l ++ [e])
  else (s.fset (F.TXQ_STAT_OVF k) 1).count (F.TXQ_DROP_COUNT k) 1

/-- The four words of an entry (R226). -/
def TxStamp.bits (e : TxStamp) : Nat :=
  e.tag.toNat + e.lane * 2 ^ 16 + e.nostart.toNat * 2 ^ 26 + 2 ^ 31 + timeBits e.ts * 2 ^ 32

/-- A read of TXQ_ENT_k word 0 pops the oldest entry, answers its first word and snapshots the others (R11, R221). -/
def State.txqPop (s : State) (k : Nat) : State :=
  let put := fun (s : State) (v : Nat) =>
    ({ s with host := { data := BitVec.ofNat 32 v, status := 0 }
              snap := [1, 2, 3].foldl (fun m i => SMap.put m (R.TXQ_ENT k + 4 * i) (BitVec.ofNat 32 (v / 2 ^ (32 * i))))
                s.snap } : State).wset ⟨R.TXQ_ENT k, 4, 128⟩ v
  match s.txqList k with
  | [] => put s 0
  | e :: es => put (s.setTxq k es) e.bits

/-! ### Timed outputs (R223, R224) -/

/-- The settings keep the limits of R223. -/
def State.toutOk (s : State) (n : Nat) : Bool :=
  let w := s.fget (F.TOUT_WIDTH_WIDTH n) * 65536
  let p := s.wget (W.TOUT_PERIOD_PERIOD n)
  4 * 65536 ≤ w && (!s.bit (F.TOUT_CTL_MODE n) || (1048576 ≤ p && w + 4 * 65536 ≤ p))

/-- Arming: a START already passed sets LATE, and in mode 0 ends the function (R224). START names the nearest device time with that
short timestamp. DEDUCED (log 26). -/
def State.toutArm (s : State) (n : Nat) : State :=
  if !s.toutOk n then (s.fset (F.TOUT_CTL_BADCFG n) 1).fset (F.TOUT_CTL_EN n) 0
  else
    let start := s.wget (W.TOUT_START_START n)
    let past := shortPast start s.time.now
    let base : Int := if past then s.time.now - ((s.time.now + 2 ^ 64 - start % 2 ^ 64) % 2 ^ 64 : Nat)
      else s.time.now + ((start + 2 ^ 64 - s.time.now % 2 ^ 64) % 2 ^ 64 : Nat)
    let s1 := (s.fset (F.TOUT_CTL_EN n) 1).setTout n
      { s.tout n with fired := false, base, from_ := (s.time.now : Int) - 1 }
    if past then
      if s.bit (F.TOUT_CTL_MODE n) then s1.fset (F.TOUT_CTL_LATE n) 1
      else ((s1.fset (F.TOUT_CTL_LATE n) 1).fset (F.TOUT_CTL_DONE n) 1).fset (F.TOUT_CTL_EN n) 0
    else s1

/-- An EN = 1 write: held behind a pulse that a disable left running, else arms (R223, R224). -/
def State.toutEnable (s : State) (n : Nat) : State :=
  if s.bit (F.TOUT_CTL_EN n) then s
  else if (s.tout n).active then s.fset (F.TOUT_CTL_PENDING_ENABLE n) 1
  else s.toutArm n

/-- An EN = 0 write: a running pulse completes; a held enable is withdrawn (R224, R343). -/
def State.toutDisable (s : State) (n : Nat) : State :=
  (s.fset (F.TOUT_CTL_EN n) 0).fset (F.TOUT_CTL_PENDING_ENABLE n) 0

/-- Device time has reached the function's next grid point. -/
def State.toutDue (s : State) (n : Nat) : Bool :=
  match s.toutNext n with
  | some p => decide (p ≤ s.time.now)
  | none => false

/-- A pulse begins when device time first reaches a grid point (R223). Where a step of device time makes it reach one while the
function's earlier pulse runs, of which R224 says nothing, the pulse begins when that one has ended. DESIGN CHOICE (log 120). -/
def State.toutPulse (s : State) (n : Nat) : State :=
  let x := s.tout n
  let one := !s.bit (F.TOUT_CTL_MODE n)
  if !s.bit (F.TOUT_CTL_EN n) || x.active || (one && x.fired) || !s.toutDue n then s
  else
    let p := (s.toutNext n).getD 0
    let s1 := (s.setTout n { x with active := true, fired := true, from_ := p
                                    ends := p + (s.fget (F.TOUT_WIDTH_WIDTH n) * 65536 : Nat) }).pulse (192 + n)
    if one then s1.fset (F.TOUT_CTL_DONE n) 1 else s1

/-- The pulse ends once it has lasted WIDTH; a held enable re-arms (R223, R224). -/
def State.toutEnd (s : State) (n : Nat) : State :=
  let x := s.tout n
  if !x.active || decide (s.time.now < x.ends) then s
  else
    let s1 := s.setTout n { x with active := false }
    if s1.bit (F.TOUT_CTL_PENDING_ENABLE n) then (s1.fset (F.TOUT_CTL_PENDING_ENABLE n) 0).toutArm n else s1

/-- Level of a TIME_OUT function (R223). -/
def State.toutLevel (s : State) (n : Nat) : Bool := (s.tout n).active != s.bit (F.TOUT_CTL_POL n)

/-- One edge of the 1.0 GHz time clock (R210): device time advances, what it reaches takes place, an accepted step is applied. -/
def State.timeEdge (s : State) : State :=
  let s1 := ((s.timeAdvance).crossings s.time.now).applyStep
  s1.each s1.toutsLive fun s n => (s.toutEnd n).toutPulse n

/-! ### The meanings -/

def execTodArm (s : State) : Host.Outcome State Fault Refusal :=
  .next (s.hostCmd R.TIME_CTL 8 8 fun s => s.todArm)
def execTodCancel (s : State) : Host.Outcome State Fault Refusal :=
  .next (s.hostCmd R.TIME_CTL 0x10 0x10 fun s => s.todCancel)
def execPhaseGo (s : State) : Host.Outcome State Fault Refusal :=
  .next (s.hostCmd R.TIME_CTL 0x20 0x20 fun s => s.phaseGo)
def execSlewDone (s : State) : Host.Outcome State Fault Refusal := .next s.slewDone
def execTimeFreq (v : W32) (s : State) : Host.Outcome State Fault Refusal :=
  .next (s.hostCmd R.TIME_FREQ 0xFFFFFFFF v fun s => s.writeFreq v)

/-- An edge of a PPS source; in reset the pin is ignored (R400), and in Deep sleep and Off the time unit does not run. -/
def execPpsEdge (pin : Bool) (s : State) : Host.Outcome State Fault Refusal :=
  if s.timeRuns then .next (s.watch [12] fun s => s.ppsEdge pin) else .next s

/-- No pin edge for 1.1 s: PPS_OK falls, which sets PPS_LOSS (R212). -/
def execPpsLoss (s : State) : Host.Outcome State Fault Refusal :=
  if s.timeRuns && s.bit F.TIME_STAT_PPS_OK then .next ((s.fset F.TIME_STAT_PPS_OK 0).fset F.TIME_STAT_PPS_LOSS 1) else .next s

/-- A qualified reference misses for 1 µs; an unqualified one raises and sets nothing (R211). -/
def execTimeRefLost (s : State) : Host.Outcome State Fault Refusal :=
  if s.timeRuns && s.bit F.TIME_STAT_REF_OK then
    .next (((s.fset F.TIME_STAT_REF_OK 0).fset F.TIME_STAT_REF_LOSS 1).raiseAt 0x281 0x0402 0 0 0)
  else .next s

/-- The reference has been present for 10 ms (R211); in reset it is ignored (R400). -/
def execRefQualified (s : State) : Host.Outcome State Fault Refusal :=
  if s.timeRuns then .next (s.fset F.TIME_STAT_REF_OK 1) else .next s

def execTxqPop (k : BitVec 6) (s : State) : Host.Outcome State Fault Refusal :=
  .next (s.hostGet (R.TXQ_ENT k.toNat) fun s => s.txqPop k.toNat)

def execToutEnable (n : BitVec 4) (s : State) : Host.Outcome State Fault Refusal :=
  .next (s.hostCmd (R.TOUT_CTL n.toNat) 1 1 fun s => (s.toutEnable n.toNat))
def execToutDisable (n : BitVec 4) (s : State) : Host.Outcome State Fault Refusal :=
  .next (s.hostCmd (R.TOUT_CTL n.toNat) 1 0 fun s => (s.toutDisable n.toNat))
def execToutPulse (n : BitVec 4) (s : State) : Host.Outcome State Fault Refusal := .next (s.toutPulse n.toNat)
def execToutPulseEnd (n : BitVec 4) (s : State) : Host.Outcome State Fault Refusal := .next (s.toutEnd n.toNat)

end Sys2Proof.Machine
end

