-- ==== Sys2Proof/Machine/LaneTime.lean ====
section
/-! DEFINITION. A lane's fixed times (R24, R72, R218) and access to the per-lane state. -/

namespace Sys2Proof.Machine

def State.lane (s : State) (n : Nat) : Lane := SMap.get (fun _ => ({} : Lane)) s.lanes n
def State.setLane (s : State) (n : Nat) (x : Lane) : State :=
  { s with lanes := SMap.set (fun _ => ({} : Lane)) s.lanes n x }
def State.cap (s : State) (n : Nat) : Capture := SMap.get (fun _ => ({} : Capture)) s.caps n
def State.setCap (s : State) (n : Nat) (x : Capture) : State :=
  { s with caps := SMap.set (fun _ => ({} : Capture)) s.caps n x }
def State.pat (s : State) (n : Nat) : Pattern := SMap.get (fun _ => ({} : Pattern)) s.pats n
def State.setPat (s : State) (n : Nat) (x : Pattern) : State :=
  { s with pats := SMap.set (fun _ => ({} : Pattern)) s.pats n x }

/-- Wire bits per 64-bit word (R72), by PCS option; splice lanes use the RS(544,514) coding. -/
def wireBits (pcs : Nat) : Nat :=
  match pcs with
  | 1 => 80 | 2 => 66 | 3 => 65 | 5 => 66 | 6 => 68 | 7 => 68 | _ => 64

/-- t_rx and t_tx as nanoseconds and wire bits (R24). -/
def rxPipe (pcs : Nat) : Nat × Nat :=
  match pcs with
  | 0 => (12, 128) | 1 => (14, 160) | 2 => (16, 264) | 3 => (16, 390) | 4 => (20, 2048) | 5 => (60, 5280) | _ => (60, 5440)
def txPipe (pcs : Nat) : Nat × Nat :=
  match pcs with
  | 0 => (8, 128) | 1 => (10, 160) | 2 => (12, 198) | 3 => (12, 260) | 4 => (12, 256) | 5 => (20, 528) | _ => (20, 544)

/-- `ns` nanoseconds and `bits` wire bits at a rate in kb/s, in units of 2^-16 ns, rounded to nearest. -/
def pipeUnits (ns bits kbps : Nat) : Nat :=
  if kbps = 0 then 65536 * ns else (2 * (65536 * ns * kbps + 65536000000 * bits) + kbps) / (2 * kbps)

/-- t_fix = t_rx − D0 (R218), with D0 = max(6 ns, 128 bits + 1 ns). -/
def rxFix (pcs kbps : Nat) : Nat :=
  let r := rxPipe pcs
  if kbps ≤ 25600000 then pipeUnits (r.1 - 1) (r.2 - 128) kbps else pipeUnits (r.1 - 6) r.2 kbps

def State.pcs (s : State) (n : Nat) : Nat := s.fget (F.LANE_CFG_PCS n)
/-- The lane's PCS is locked; a raw lane counts as locked at CDR lock (R197). -/
def State.pcsLocked (s : State) (n : Nat) : Bool :=
  s.bit (F.LANE_STAT_PCS_LOCK n) || (s.pcs n == 0 && s.bit (F.LANE_STAT_CDR_LOCK n))
def State.kbps (s : State) (n : Nat) : Nat := s.fget (F.LANE_RATE_KBPS n)

/-- A raw receive timestamp corrected by t_fix, G and C (R218). -/
def State.rxCorrect (s : State) (n : Nat) (raw : W64) : W64 :=
  raw - BitVec.ofNat 64 (rxFix (s.pcs n) (s.kbps n)) - BitVec.ofNat 64 (s.fget (F.LANE_RXLAT_GB_TERM n))
    - BitVec.ofInt 64 (BitVec.ofNat 32 (s.fget (F.LANE_RXLAT_CDR_TERM n))).toInt

/-- `e` words (WORDS) or 64·e wire bits (WIRE) in units of 2^-16 ns (R230). -/
def State.entryTime (s : State) (n e : Nat) (wire : Bool) : Nat :=
  pipeUnits 0 (e * (if wire then 64 else wireBits (s.pcs n))) (s.kbps n)

end Sys2Proof.Machine
end

