-- ==== Sys2Proof/Machine/Fabric.lean ====
section
/-! DEFINITION. The edge fabric's logic (R156–R170, R176, R178–R183): product terms, macrocells, wide multiplexers, distributed
and block memories, long lines, and what an edge of a block's clock does. -/

namespace Sys2Proof.Machine

/-! ### Places (R156, R169) -/

def blockDie (b : Nat) : Nat := b / 2048
def blockRow (b : Nat) : Nat := b % 2048 / 64
def blockCol (b : Nat) : Nat := b % 64
/-- Line addresses (R169). -/
def rowLine (b line : Nat) : Nat := blockDie b * 2 ^ 13 + blockRow b * 128 + line
def colLine (b line : Nat) : Nat := blockDie b * 2 ^ 13 + 2 ^ 12 + blockCol b * 64 + line

def State.edgeSt (s : State) (b : Nat) : EdgeBlock := SMap.get (fun _ => ({} : EdgeBlock)) s.edge.st b
def State.setEdgeSt (s : State) (b : Nat) (x : EdgeBlock) : State :=
  { s with edge := { s.edge with st := SMap.set (fun _ => ({} : EdgeBlock)) s.edge.st b x } }
def State.memSt (s : State) (b : Nat) : EdgeMem := SMap.get (fun _ => ({} : EdgeMem)) s.edge.memSt b
def State.setMemSt (s : State) (b : Nat) (x : EdgeMem) : State :=
  { s with edge := { s.edge with memSt := SMap.set (fun _ => ({} : EdgeMem)) s.edge.memSt b x } }
def State.io (s : State) (n : Nat) : IoCell := SMap.get (fun _ => ({} : IoCell)) s.edge.ios n
def State.setIo (s : State) (n : Nat) (x : IoCell) : State :=
  { s with edge := { s.edge with ios := SMap.set (fun _ => ({} : IoCell)) s.edge.ios n x } }

/-- The output of a global macrocell number. -/
def State.macroOut (s : State) (m : Nat) : Bool := (s.edgeSt (m / 64)).out.getLsbD (m % 64)

/-- Block `b` is isolated for partial reconfiguration (R182, R289). -/
def State.edgeIso (s : State) (b : Nat) : Bool := s.edge.iso.getLsbD (b / 64)

/-! ### Action queues as the fabric sees them (R177, R252) -/

/-- READY towards a queue: it has room, or is disabled, or the device is a STANDBY, which takes every post (R252, R300). -/
def State.queueReady (s : State) (q : Nat) : Bool :=
  s.standby || !s.bit (F.ACT_Q_CFG_EN q) || decide (s.fget (F.ACT_Q_STAT_LEVEL q) < 2 ^ s.fget (F.ACT_Q_CFG_K q))

/-- The number formed by macrocell outputs, the first in bit 0. -/
def State.macroNum (s : State) : List Nat → Nat
  | [] => 0
  | m :: ms => (s.macroOut m).toNat + 2 * s.macroNum ms

def State.post (s : State) (die port : Nat) : PostCfg := SMap.get (fun _ => ({} : PostCfg)) s.edge.die.posts (die * 16 + port)

/-! ### Array inputs (R157) -/

/-- A bit of a lane's receive word and markers (R171); RXTS of the word's start pattern from bit 80 on (R218, R222; the places
in this numbering: log 110). The data of a cycle with VALID 0 read 0, which the rule states of its markers alone. DESIGN CHOICE
(log 125). -/
def State.laneBit (s : State) (n bit : Nat) : Bool :=
  if 80 ≤ bit then
    match (s.lane n).rx with
    | some r => r.valid && r.start && (s.lane n).rxts.getLsbD (bit - 80)
    | none => false
  else if bit = 76 then s.pcsLocked n
  else if bit = 77 then s.bit (F.LANE_STAT_ALIGNED n)
  else match (s.lane n).rx with
    | none => false
    | some r =>
      if !r.valid then false
      else if bit < 64 then r.data.getLsbD bit
      else if bit < 72 then r.ctlb.getLsbD (bit - 64)
      else if bit = 72 then true
      else if bit = 73 then r.start
      else if bit = 74 then r.codeErr
      else if bit = 75 then r.fecMark
      else false

/-- An incoming bridge bit of a die: its source 8 edges before (R178). -/
def State.bridgeIn (s : State) (die bit : Nat) : Bool :=
  s.bit F.EDG_STAT_BRIDGE_UP && ((SMap.get (fun _ => []) s.edge.bridgePipe (1 - die)).getD 7 0).getLsbD bit

/-- The port die of a lane and of a lane set's word clock (R156, R157, R170). -/
def laneDie (n : Nat) : Nat := if n < 1024 then n / 512 else (n - 1024) / 16
def clkDie : EdgeClk → Option Nat
  | .core => none
  | .laneSet k => some (laneDie (16 * k.toNat))

/-- A signal as block `b` sees it: lanes of its own die, and I/O cells on P0 alone (R157). -/
def State.edgeSrc (s : State) (b : Nat) : EdgeSrc → Bool
  | .zero => false
  | .mcell m => (s.edgeSt b).out.getLsbD m
  | .row l => SMap.get (fun _ => false) s.edge.lines (rowLine b l)
  | .col l => SMap.get (fun _ => false) s.edge.lines (colLine b l)
  | .bmem portB bit => if portB then (s.memSt b).outB.getLsbD bit else (s.memSt b).outA.getLsbD bit
  | .lane n bit => laneDie n == blockDie b && s.laneBit n bit
  | .bridge bit => s.bridgeIn (blockDie b) bit
  | .out port bit => (SMap.get (fun _ => (0 : W128)) s.edge.rdata (blockDie b * 32 + port)).getLsbD bit
  | .rel => s.edge.rel.getLsbD (blockDie b)
  | .relTurn bit => s.edge.relTurn.getLsbD bit
  | .win => s.edge.win.getLsbD (blockDie b)
  | .ready port => s.queueReady (s.macroNum (s.post (blockDie b) port).queue)
  | .io pin second => blockDie b == 0 && (if second then (s.io pin).in1 else (s.io pin).in0)

def State.edgeIn (s : State) (b : Nat) (c : BlockCfg) (i : Nat) : Bool :=
  match c.ins[i]? with
  | some x => s.edgeSrc b x
  | none => false

/-- The number on the array inputs from `lo`, `w` of them. -/
def State.edgeNum (s : State) (b : Nat) (c : BlockCfg) (lo : Nat) : Nat → Nat
  | 0 => 0
  | w + 1 => (s.edgeIn b c lo).toNat + 2 * s.edgeNum b c (lo + 1) w

/-- The number on a list of signals, the first in bit 0. -/
def State.srcNum (s : State) (b : Nat) : List EdgeSrc → Nat
  | [] => 0
  | x :: xs => (s.edgeSrc b x).toNat + 2 * s.srcNum b xs

/-! ### Macrocells (R158–R161) -/

/-- The array's columns: input i true in column 2i and complemented in 2i + 1 (R157, R275). -/
def State.columns (s : State) (b : Nat) (c : BlockCfg) : BitVec 192 :=
  (List.range 96).foldl (fun v i => v ||| (BitVec.ofNat 192 (if s.edgeIn b c i then 1 else 2) <<< (2 * i))) 0

/-- A product term: the AND of its columns (R158). -/
def termValue (cols : BitVec 192) (c : BlockCfg) (t : Nat) : Bool :=
  match c.terms[t]? with
  | some mask => cols &&& mask == mask
  | none => true

/-- What a macrocell's terms give: Y, clock enable, asynchronous set and reset, output enable. -/
structure MacroIn where
  y : Bool
  ce : Bool
  set : Bool
  rst : Bool
  oe : Bool
  deriving DecidableEq, Repr

/-- Term steering and expanders (R159, R160). -/
def macroIn (cols : BitVec 192) (c : BlockCfg) (m : Nat) (k : MacroCfg) : MacroIn :=
  let t := fun i => termValue cols c (5 * m + i)
  let own := (List.range 5).any fun i => !k.steer.getLsbD i && t i
  let lent := (List.range (5 * k.borrow)).any fun i => termValue cols c (5 * (m + 1) + i)
  let sp := fun i d => if k.steer.getLsbD i then t i else d
  { y := (own || lent) ^^ sp 0 k.pol, ce := sp 1 true, set := sp 2 false, rst := sp 3 false, oe := sp 4 true }

/-- A register bit under its asynchronous set and reset; reset wins (R161). -/
def MacroIn.force (i : MacroIn) (q : Bool) : Bool := if i.rst then false else if i.set then true else q

/-- The output of a macrocell whose register holds `q`. -/
def macroValue (k : MacroCfg) (i : MacroIn) (q : Bool) : Bool :=
  if k.lends then false else if k.mode = .comb then i.y else q

/-- A word of 64 bits given bit by bit. -/
def bits64 (f : Nat → Bool) : W64 := (List.range 64).foldl (fun v m => if f m then v ||| BitVec.ofNat 64 (2 ^ m) else v) 0

/-- The nibble a wide multiplexer group selects (R162); `b` is its first block. -/
def State.muxNibble (s : State) (b g : Nat) (c : BlockCfg) : Nat :=
  let sel := s.edgeNum b c 64 8
  if 16 * g ≤ sel then 0
  else
    let i := b + sel / 16
    match SMap.find s.edge.blocks i with
    | some ci => s.edgeNum i ci (4 * (sel % 16)) 4
    | none => 0

/-! ### Settling (R159, R161, R168) -/

/-- The settings of macrocell `m`. -/
def cellOf (c : BlockCfg) (m : Nat) : MacroCfg := c.macros.getD m {}

/-- Registers under set and reset, and outputs, of one block. An isolated block's registers are held in reset (R182). -/
def State.settleBlock (s : State) (b : Nat) (c : BlockCfg) : State :=
  let x := s.edgeSt b
  if s.edgeIso b then s.setEdgeSt b { x with q := 0, q1 := 0, out := 0 }
  else match c.mode with
    | .ram => s.setEdgeSt b { x with out := x.q }
    | .mux g place =>
      if place = 0 then
        let v : W64 := BitVec.ofNat 64 (s.muxNibble b g c)
        let out := bits64 fun m => decide (m < 4) && (if (cellOf c m).mode = .comb then v.getLsbD m else x.q.getLsbD m)
        s.setEdgeSt b { x with out }
      else s.setEdgeSt b { x with out := 0 }
    | .logic =>
      let cols := s.columns b c
      let ins := fun m => macroIn cols c m (cellOf c m)
      let q := bits64 fun m => if (cellOf c m).lends then x.q.getLsbD m else (ins m).force (x.q.getLsbD m)
      let q1 := bits64 fun m => if (cellOf c m).lends then x.q1.getLsbD m else (ins m).force (x.q1.getLsbD m)
      s.setEdgeSt b { x with q, q1, out := bits64 fun m => macroValue (cellOf c m) (ins m) (q.getLsbD m) }

/-- The long lines that one block drives; a line that nothing drives keeps its value (R168). The lines of an isolated block
present their border policy (R182). -/
def State.driveLines (s : State) (b : Nat) (c : BlockCfg) : State :=
  let cols := s.columns b c
  let drive := fun (s : State) (m : Nat) (line : Nat) =>
    if s.edge.dead.contains line then s
    else if s.edgeIso b then
      match SMap.find s.edge.border line with
      | some v => { s with edge := { s.edge with lines := SMap.set (fun _ => false) s.edge.lines line v } }
      | none => s
    else if (macroIn cols c m (cellOf c m)).oe then
      { s with edge := { s.edge with
          lines := SMap.set (fun _ => false) s.edge.lines line ((s.edgeSt b).out.getLsbD m) } }
    else s
  s.each c.macros.zipIdx fun s k =>
    let s1 := match k.1.row with
      | some l => drive s k.2 (rowLine b l)
      | none => s
    match k.1.col with
    | some l => drive s1 k.2 (colLine b l)
    | none => s1

/-- One round over the blocks of a die, in increasing number. Where an output enable is withdrawn in the settling that also changes
the output, the keeper holds what the last round with the driver on gave: the rule does not say which. DESIGN CHOICE (log 117). -/
def State.edgeRound (s : State) (die : Nat) : State :=
  s.each (s.edge.blocks.filter fun p => blockDie p.1 == die) fun s p => (s.settleBlock p.1 p.2).driveLines p.1 p.2

/-- Rounds until nothing changes. A loop of combinational macrocells may never settle; what it leaves is a free value. -/
def State.settle (die : Nat) : Nat → State → State
  | 0, s =>
    let t := s.edgeRound die
    s.each s.edge.blocks fun s p =>
      let loose := (s.edgeSt p.1).out ^^^ (t.edgeSt p.1).out
      if loose = 0 then s
      else (s.setEdgeSt p.1 { s.edgeSt p.1 with out := (s.edgeSt p.1).out ^^^ (loose &&& s.freeBits 64) }).drawn
  | n + 1, s =>
    let t := s.edgeRound die
    if t.edge = s.edge then s else State.settle die n t

/-- The fabric of a die after its inputs have changed: enough rounds for every path without a loop. -/
def State.settled (s : State) (die : Nat) : State := s.settle die (64 * s.edge.blocks.length + 1)

/-! ### Clock edges of blocks (R161–R163) -/

/-- Distributed memory at an edge: the enabled bytes are written, and the word at RADDR as it stood is registered (R163). -/
def State.ramEdge (s : State) (b : Nat) (c : BlockCfg) : EdgeBlock :=
  let x := s.edgeSt b
  let rd : W64 := SMap.get (fun _ => (0 : W64)) x.ram (s.edgeNum b c 79 6)
  let wa := s.edgeNum b c 64 6
  let old : W64 := SMap.get (fun _ => (0 : W64)) x.ram wa
  let new := bits64 fun i => if s.edgeIn b c (70 + i / 8) then s.edgeIn b c i else old.getLsbD i
  { x with q := rd, ram := if s.edgeIn b c 78 then SMap.set (fun _ => (0 : W64)) x.ram wa new else x.ram }

/-- A logic block's registers at an edge (R161). -/
def State.logicEdge (s : State) (b : Nat) (c : BlockCfg) : EdgeBlock :=
  let x := s.edgeSt b
  let cols := s.columns b c
  let next := fun m =>
    let k := cellOf c m
    let i := macroIn cols c m k
    let q := x.q.getLsbD m
    let q1 := x.q1.getLsbD m
    if k.lends ∨ k.mode = .comb ∨ !i.ce then (i.force q, i.force q1)
    else match k.mode with
      | .d => (i.force i.y, q1)
      | .t => (i.force (q ^^ i.y), q1)
      | .sync => (i.force q1, i.force i.y)
      | .comb => (q, q1)
  { x with q := bits64 fun m => if (cellOf c m).lends then x.q.getLsbD m else (next m).1
           q1 := bits64 fun m => if (cellOf c m).lends then x.q1.getLsbD m else (next m).2 }

/-- A block at an edge of its clock, from the values settled before the edge. -/
def State.blockEdge (s : State) (b : Nat) (c : BlockCfg) : EdgeBlock :=
  if s.edgeIso b then s.edgeSt b
  else match c.mode with
    | .ram => s.ramEdge b c
    | .mux g place => if place = 0 then { s.edgeSt b with q := BitVec.ofNat 64 (s.muxNibble b g c) } else s.edgeSt b
    | .logic => s.logicEdge b c

/-! ### Block memories (R164–R166) -/

def shapeWidth : MemShape → Nat
  | .row => 36 | .half => 18 | .lane => 9 | .triad => 3 | .bit => 1

/-- Row and bit offset of a word; none at or above the shape's depth. -/
def memPlace (sh : MemShape) (a : Nat) : Option (Nat × Nat) :=
  let per := 36 / shapeWidth sh
  if a < 1024 * per then some (a / per, a % per * shapeWidth sh) else none

def memRow (m : EdgeMem) (r : Nat) : BitVec 36 := SMap.get (fun _ => (0 : BitVec 36)) m.rows r

/-- What a port writes at an edge: row, mask and bits in the row. -/
structure MemWrite where
  row : Nat
  mask : BitVec 36
  bits : BitVec 36
  deriving DecidableEq, Repr

/-- The bits of `lanes` 9-bit lanes whose enable is set. -/
def laneMask (we lanes : Nat) : Nat :=
  (List.range lanes).foldl (fun v j => if we.testBit j then v + 511 * 2 ^ (9 * j) else v) 0

/-- The write of a port at an edge, if it writes (R164). -/
def State.memWrite (s : State) (b : Nat) (p : MemPortCfg) : Option MemWrite :=
  let w := shapeWidth p.shape
  let we := s.srcNum b p.we
  let mask := if w = 36 then laneMask we 4 else if w = 18 then laneMask we 2 else if we.testBit 0 then 2 ^ w - 1 else 0
  match memPlace p.shape (s.srcNum b p.addr) with
  | some (r, off) =>
    if mask = 0 then none
    else some ⟨r, BitVec.ofNat 36 (mask * 2 ^ off), BitVec.ofNat 36 (s.srcNum b p.data % 2 ^ w * 2 ^ off)⟩
  | none => none

def applyWrite (m : EdgeMem) (w : MemWrite) : EdgeMem :=
  let old := memRow m w.row
  { m with rows := SMap.set (fun _ => (0 : BitVec 36)) m.rows w.row ((old &&& ~~~w.mask) ||| (w.bits &&& w.mask)) }

/-- What a port reads at an edge from the rows before it, under its write mode (R164, R165). -/
def State.memRead (s : State) (b : Nat) (p : MemPortCfg) (m : EdgeMem) (keep : BitVec 72) : BitVec 72 :=
  match memPlace p.shape (s.srcNum b p.addr) with
  | none => 0
  | some (r, off) =>
    let word := fun (m : EdgeMem) => ((memRow m r >>> off).toNat % 2 ^ shapeWidth p.shape)
    match s.memWrite b p, p.wmode with
    | some _, .keep => keep
    | some w, .pass => BitVec.ofNat 72 (word (applyWrite m w))
    | _, _ => BitVec.ofNat 72 (word m)

/-- Row `new` with the 9-bit lanes that `pick` selects among the bits of `mask` taken from `old`. -/
def mixLanes (old new mask : BitVec 36) (pick : BitVec 4) : BitVec 36 :=
  let m := mask &&& BitVec.ofNat 36 (laneMask pick.toNat 4)
  (old &&& m) ||| (new &&& ~~~m)

/-- A row as a read on another clock sees it: of each lane written within the reader's period, the latest write first, either the value
before the write or that after it, a free value of four bits for each write (R167). -/
def mixRow (m : EdgeMem) (l : List RecentWrite) (r : Nat) (pick : Nat) : BitVec 36 :=
  l.zipIdx.foldl (fun row p =>
    if p.1.row = r then mixLanes p.1.old row p.1.mask (BitVec.ofNat 4 (pick / 16 ^ p.2)) else row) (memRow m r)

/-- What is owed to a port's accesses within its period when the other port writes on another clock: the lanes that both write hold one
of the two values, and the read under way returns the old or the new value of each lane (R167). -/
def meetWrite (sh : MemShape) (before m : EdgeMem) (w : MemWrite) (l : List RecentWrite) (rd : Option Nat) (keep : BitVec 72)
    (pick : BitVec 8) : EdgeMem × BitVec 72 :=
  let both := (l.filter fun x => x.row == w.row).foldl (fun v x => v ||| x.mask) 0 &&& w.mask
  let row := mixLanes (memRow before w.row) (memRow m w.row) both (pick.setWidth 4)
  let m1 := { m with rows := SMap.set (fun _ => (0 : BitVec 36)) m.rows w.row row }
  match rd.bind (memPlace sh) with
  | some (r, off) =>
    if r = w.row ∧ (pick >>> 4).setWidth 4 ≠ (15 : BitVec 4) then
      let seen := mixLanes (memRow before r) row w.mask ((pick >>> 4).setWidth 4)
      (m1, BitVec.ofNat 72 ((seen >>> off).toNat % 2 ^ shapeWidth sh))
    else (m1, keep)
  | none => (m1, keep)

/-- The paired mode of memories 2m and 2m + 1 (R164): port A of the first writes, port B of it reads. -/
def State.pairEdge (s : State) (b : Nat) (c : MemCfg) (onA onB : Bool) : State :=
  let lo := s.memSt b
  let hi := s.memSt (b + 1)
  let two := decide (c.a.clk ≠ c.b.clk)
  let ra := s.srcNum b c.b.addr
  let n := lo.wroteA.length
  let free := s.freeBits (8 + 8 * n)
  let pick : BitVec 8 := free.setWidth 8
  let rd : BitVec 72 := if ra < 1024 then
      (mixRow hi hi.wroteA ra (free.toNat / 2 ^ 8) ++ mixRow lo lo.wroteA ra (free.toNat / 2 ^ (8 + 4 * n))).setWidth 72 else 0
  let wa := s.srcNum b c.a.addr
  let mask := laneMask (s.srcNum b c.a.we) 8
  let data := s.srcNum b c.a.data
  let wl : MemWrite := ⟨wa, BitVec.ofNat 36 mask, BitVec.ofNat 36 data⟩
  let wh : MemWrite := ⟨wa, BitVec.ofNat 36 (mask / 2 ^ 36), BitVec.ofNat 36 (data / 2 ^ 36)⟩
  let seen := fun (m : EdgeMem) => if onB then { m with wroteA := [], readB := if two then some ra else none } else m
  let lo1 := if onB then { seen lo with rdB := rd, outB := if c.b.outReg then lo.rdB else rd } else lo
  let hi1 := seen hi
  if onA ∧ wa < 1024 then
    let write := fun (m : EdgeMem) (w : MemWrite) =>
      let m1 := applyWrite m w
      if two then { m1 with wroteA := ⟨wa, w.mask, memRow m wa⟩ :: m1.wroteA } else m1
    -- a read of this word is under way on the other clock
    let under : BitVec 72 := (mixLanes (memRow hi wa) (memRow (applyWrite hi wh) wa) wh.mask (pick.setWidth 4)
      ++ mixLanes (memRow lo wa) (memRow (applyWrite lo wl) wa) wl.mask (pick >>> 4 |>.setWidth 4)).setWidth 72
    let lo2 := write lo1 wl
    let lo3 := if two ∧ lo.readB = some wa ∧ mask ≠ 0 then
        { lo2 with rdB := under, outB := if c.b.outReg then lo2.outB else under } else lo2
    ((s.setMemSt b lo3).setMemSt (b + 1) (write hi1 wh)).drawn
  else if two then ((s.setMemSt b lo1).setMemSt (b + 1) hi1).drawn
  else s.setMemSt b lo1

/-- A port that has a clock of its own at an edge of it: `p` its settings, `q` the other port's (R164, R165, R167). -/
def State.soloEdge (s : State) (b : Nat) (p q : MemPortCfg) (isA : Bool) : State :=
  let m := s.memSt b
  let theirs := if isA then m.wroteB else m.wroteA
  let last := if isA then m.lastB else m.lastA
  let addr := s.srcNum b p.addr
  let seen := match memPlace p.shape addr with
    | some (r, _) => { m with rows := SMap.set (fun _ => (0 : BitVec 36)) m.rows r (mixRow m theirs r (s.freeBits (4 * theirs.length)).toNat) }
    | none => m
  let was := if isA then m.rdA else m.rdB
  let rd := s.memRead b p seen was
  let out := if p.outReg then was else rd
  let t := s.drawn
  let (m1, other, mine) := match s.memWrite b p with
    | none => (m, (if isA then m.rdB else m.rdA), (none : Option RecentWrite))
    | some w =>
      let (m1, x) := meetWrite q.shape m (applyWrite m w) w (theirs ++ last.toList) (if isA then m.readB else m.readA)
        (if isA then m.rdB else m.rdA) (t.freeBits 8)
      (m1, x, some ⟨w.row, w.mask, memRow m w.row⟩)
  let m2 := if isA then
      { m1 with rdA := rd, outA := out, rdB := other, outB := if q.outReg then m.outB else if other = m.rdB then m.outB else other
                wroteB := [], wroteA := mine.toList ++ m1.wroteA, lastA := mine, readA := some addr }
    else
      { m1 with rdB := rd, outB := out, rdA := other, outA := if q.outReg then m.outA else if other = m.rdA then m.outA else other
                wroteA := [], wroteB := mine.toList ++ m1.wroteB, lastB := mine, readB := some addr }
  (t.setMemSt b m2).drawn

/-- A block memory at an edge of the clock of port A, port B or both (R164–R167). An isolated one keeps its contents (R182). -/
def State.memEdge (s : State) (b : Nat) (c : MemCfg) (onA onB : Bool) : State :=
  if c.upper || s.edgeIso b then s
  else if c.paired then s.pairEdge b c onA onB
  else if c.a.clk ≠ c.b.clk then
    (if onA then s.soloEdge b c.a c.b true else if onB then s.soloEdge b c.b c.a false else s)
  else
    let m := s.memSt b
    let rdA := if onA then s.memRead b c.a m m.rdA else m.rdA
    let rdB := if onB then s.memRead b c.b m m.rdB else m.rdB
    let m1 := { m with
      rdA, rdB
      outA := if onA then (if c.a.outReg then m.rdA else rdA) else m.outA
      outB := if onB then (if c.b.outReg then m.rdB else rdB) else m.outB }
    let wA := if onA then s.memWrite b c.a else none
    let wB := if onB then s.memWrite b c.b else none
    match wA, wB with
    | some x, some y =>
      let m2 := if m.bFirst then applyWrite (applyWrite m1 y) x else applyWrite (applyWrite m1 x) y
      if x.row = y.row ∧ x.mask &&& y.mask ≠ 0 then
        (s.setMemSt b { m2 with bFirst := !m.bFirst }).count (F.EDG_BM_COLL_COUNT (blockDie b)) 1
      else s.setMemSt b m2
    | some x, none => s.setMemSt b (applyWrite m1 x)
    | none, some y => s.setMemSt b (applyWrite m1 y)
    | none, none => s.setMemSt b m1

/-! ### I/O cells (R179, R180) -/

/-- The level at the land of GPIO pin `n`, which an I/O cell takes without the glitch filter (R398). -/
def State.pinLevel (s : State) (n : Nat) : Bool := SMap.get (fun _ => false) s.land n

/-- Macrocell `m` as the fabric's signals show it outside: one of an isolated block holds its value at the isolating boundary (R182,
R290). -/
def State.shown (s : State) (m : Nat) : Bool :=
  if s.edgeIso (m / 64) then (SMap.get (fun _ => (0 : W64)) s.edge.kept (m / 64)).getLsbD (m % 64) else s.macroOut m

def State.optOut (s : State) (m : Option Nat) : Bool := match m with | some m => s.shown m | none => false

/-- What an I/O cell's input register takes: the pin feeds it in function 0 alone, and while the cell does not drive it; else it holds
its default 0 (R393). DEDUCED (log 126). -/
def State.ioIn (s : State) (n : Nat) (oe : Bool) : Bool := s.pinLevel n && s.fget (F.PIN_CFG_FUNC_ACT n) == 0 && !oe

/-- The falling edge since the last rising edge of a double-rate input: it took the level that has stood since then; where the
level has moved, the commands do not time the falling edge, and what it took is a free value (R179; log 115). -/
def State.ioFall (s : State) (n : Nat) : State :=
  let x := s.io n
  if !s.bit (F.EDG_IOC_IN_DDR n) then s
  else if !x.moved then s.setIo n { x with in1 := s.ioIn n x.oe0 }
  else (s.setIo n { x with in1 := !x.oe0 && s.freeBits 1 == 1 }).drawn

/-- An I/O cell's registers at a rising edge of its clock. -/
def State.ioEdge (s : State) (n : Nat) (c : IoCfg) : State :=
  let x := s.io n
  let o0 := s.optOut c.out0
  let e0 := s.optOut c.oe0
  s.setIo n { x with
    in0 := s.ioIn n x.oe1, in1 := s.bit (F.EDG_IOC_IN_DDR n) && x.in1, moved := false
    out0 := o0, out1 := if s.bit (F.EDG_IOC_OUT_DDR n) then s.optOut c.out1 else o0
    oe0 := e0, oe1 := if s.bit (F.EDG_IOC_OE_DDR n) then s.optOut c.oe1 else e0 }

/-- One tap nearer to the target (R180). -/
def tapStep (x target : Nat) : Nat := if x < target then x + 1 else if target < x then x - 1 else x

/-- The delays of the I/O cells move by one tap per core edge. -/
def State.tapEdge (s : State) : State :=
  s.each (List.range 192) fun s n =>
    let x := s.io n
    let i := tapStep x.idly (s.fget (F.EDG_IOC_IDLY n))
    let o := tapStep x.odly (s.fget (F.EDG_IOC_ODLY n))
    if i = x.idly ∧ o = x.odly then s else s.setIo n { x with idly := i, odly := o }

/-! ### Core-clock paths: bridge, event wires, posts, output reads (R175–R178) -/

/-- A signal that leaves the fabric by macrocell `m`; from an isolated block it presents its border value, or holds (R182, R290). -/
def State.leaving (s : State) (m key : Nat) : Bool :=
  match (if s.edgeIso (m / 64) then SMap.find s.edge.border key else none) with
  | some v => v
  | none => s.shown m

/-- The source values of a die's outgoing bridge bits at this edge. -/
def State.bridgeOut (s : State) (die : Nat) : BitVec 256 :=
  s.edge.die.bridge.foldl (fun v p =>
    if p.1 / 256 = die ∧ s.leaving p.2 (2 ^ 14 + p.1)
    then v ||| BitVec.ofNat 256 (2 ^ (p.1 % 256)) else v) 0

/-- The source values of a die's event wires at this edge. -/
def State.wireOut (s : State) (die : Nat) : BitVec 128 :=
  s.edge.die.wires.foldl (fun v p =>
    if p.1 / 64 = die ∧ s.leaving p.2 (2 ^ 15 + p.1)
    then v ||| BitVec.ofNat 128 (2 ^ p.1) else v) 0

/-- The trigger inputs 0–127 as the next edge samples them: P0's 2 edges after the macrocell output, P1's 10; on an AY4060 image
P1's read 0 (R176, R240). -/
def State.wireInputs (s : State) : State :=
  let p0 := (SMap.get (fun _ => []) s.edge.wirePipe 0).getD 0 0
  let p1 : BitVec 128 := if s.closed then 0 else (SMap.get (fun _ => []) s.edge.wirePipe 1).getD 8 0
  { s with trig := { s.trig with level := (s.trig.level >>> 128) <<< 128 ||| (p0 ||| p1).setWidth 256 } }

/-- Reads of the turn outputs appear three edges after they were presented (R175). -/
def State.readEdge (s : State) (die : Nat) : State :=
  let mine := fun (r : OutRead) => r.port / 32 == die
  let due := s.edge.reads.filter fun r => mine r && r.left ≤ 1
  let rest := (s.edge.reads.filter fun r => !(mine r && r.left ≤ 1)).map fun r => if mine r then { r with left := r.left - 1 } else r
  { s with edge := { s.edge with
      reads := rest
      rdata := due.foldl (fun m r => SMap.set (fun _ => (0 : W128)) m r.port r.data) s.edge.rdata } }

/-- Post ports that present VALID while READY is 0 are counted (R177); from an isolated block VALID is 0 (R182). -/
def State.postStalls (s : State) (die : Nat) : State :=
  let n := ((List.range 16).filter fun p =>
    (match (s.post die p).valid with | some m => s.macroOut m && !s.edgeIso (m / 64) | none => false) && !s.queueReady (s.macroNum (s.post die p).queue)).length
  s.count (F.EDG_POST_STALL_COUNT die) n

/-- The macrocell that drives a signal lies in an isolated block: the signal is forced to 0 (R182). -/
def State.cutOff (s : State) (drivers : SMap Nat) (k : Nat) : Bool :=
  match SMap.find drivers k with
  | some m => s.edgeIso (m / 64)
  | none => false

/-- The fabric presents words and posts: a full image with a declared core clock runs in it (R170, R181). -/
def State.fabricOn (s : State) : Bool := s.image.committed && !s.bit F.EDG_STAT_RESET_HELD && s.edge.die.mhz.isSome

/-- A clock of the fabric is running: the image is committed, and no reset or sleep holds it (R181, R183). -/
def State.edgeRuns (s : State) : Bool := s.image.committed && !s.bit F.EDG_STAT_RESET_HELD && decide (s.fget F.PWR_STAT_STATE < 2)

/-- The parts of the fabric that an edge of clock `clk` on a die updates, from the values before the edge. -/
def State.fabricEdge (s : State) (die : Nat) (clk : EdgeClk) : State :=
  let cells := if die = 0 then s.edge.die.ios.filter fun p => p.2.clk == clk else []
  let s0 := (s.each cells fun s p => s.ioFall p.1).settled die
  let here := s0.edge.blocks.filter fun p => blockDie p.1 == die && p.2.clk == clk
  let s1 := s0.each here fun s p => s.setEdgeSt p.1 (s0.blockEdge p.1 p.2)
  let s2 := s1.each (s0.edge.mems.filter fun p => blockDie p.1 == die) fun s p =>
    -- addresses, data and enables are those before the edge
    let a := p.2.a.clk == clk
    let b := p.2.b.clk == clk
    if a || b then
      let t := ({ s with edge := { s0.edge with memSt := s.edge.memSt } }).memEdge p.1 p.2 a b
      { t with edge := { s.edge with memSt := t.edge.memSt } }
    else s
  let s3 := s2.each cells fun s p =>
    let t := ({ s0 with edge := { s0.edge with ios := s.edge.ios } }).ioEdge p.1 p.2
    { s with edge := { s.edge with ios := t.edge.ios }, pins := { s.pins with held := SMap.del s.pins.held p.1 } }
  let s4 := if clk = .core then
      let br := (s0.bridgeOut die :: SMap.get (fun _ => []) s0.edge.bridgePipe die).take 8
      let wi := (s0.wireOut die :: SMap.get (fun _ => []) s0.edge.wirePipe die).take 10
      let s' := { s3 with edge := { s3.edge with
        bridgePipe := SMap.put s3.edge.bridgePipe die br, wirePipe := SMap.put s3.edge.wirePipe die wi } }
      ((if die = 0 then s'.tapEdge else s').postStalls die).wireInputs
    else s3
  s4.settled die

end Sys2Proof.Machine
end

