-- ==== Sys2Proof/Machine/Binning.lean ====
section
/-! DEFINITION. Line time (R71, R72), the binning of turn-input words into windows (R20–R22, R79, R173, R174), the reads of
the visible outputs (R175), with what goes to the mirror stream (R300). -/

namespace Sys2Proof.Machine

/-! ### Line time -/

/-- Words of the anchor lane in a time in 2^-16 ns, at the nominal duration of a word (R72). -/
def State.anchorWords (s : State) (t : Nat) : Nat :=
  let n := s.fget F.TURN_ANCHOR_LANE
  t * s.kbps n / (65536000000 * wireBits (s.pcs n))

/-- Line time now, in line ticks (R71, R72, R88). -/
def State.lineTime (s : State) : Int :=
  if !s.bit F.TURN_CFG_LOCK_SRC then (s.time.now : Int) - s.core.ltOff
  else if s.bit F.TURN_STAT_FLYWHEEL then (s.core.flyCount + s.anchorWords ((s.time.now : Int) - s.core.flyAt).toNat : Nat)
  else (s.core.anchor : Int) - 1

def State.span (s : State) : Nat := s.fget F.TURN_SPAN_VALUE

/-- Line time of boundary number `b` (R19). -/
def State.boundaryAt (s : State) (b : Nat) : Int :=
  (s.wget W.TURN_T0_T0 : Int) + ((b : Int) - s.core.origin) * s.span

/-- The fill guard Gin in line ticks (R20). -/
def State.fillGuard (s : State) : Nat :=
  if !s.bit F.TURN_CFG_LOCK_SRC then 2097152
  else
    let n := s.fget F.TURN_ANCHOR_LANE
    (32 * s.kbps n + (1000000 * wireBits (s.pcs n) - 1)) / (1000000 * wireBits (s.pcs n))

/-- The number of the boundary that closes the window of a word stamped now (R20). -/
def State.closing (s : State) : Nat :=
  let a := s.lineTime + s.fillGuard
  let next := s.boundaryAt s.core.boundary
  if a < next then s.core.boundary
  else s.core.boundary + 1 + ((a - next) / (max s.span 1 : Nat)).toNat

/-! ### Fills (R22) -/

/-- The fill assignment in its order: the fabric's words, then the action units' (R22, R300). -/
def State.fillWords (s : State) : List Nat := s.edge.die.tin ++ s.act.tin.map (·.2)

/-! ### Binning -/

/-- Words of equal stamps: the lower master ID, and within the fabric the lower port, wins (R22, R173). Two words of one source
with equal stamps, which edges between two anchor words can give, are ranked by no rule: the earlier one stays. DESIGN CHOICE
(log 95). -/
def State.binKeeps (s : State) (win key : Nat) (w : BinWord) : Bool :=
  match SMap.find s.core.windows (win * 2 ^ 18 + key) with
  | none => true
  | some old => decide (old.stamp < w.stamp) || (old.stamp == w.stamp && decide (w.rank < old.rank))

/-- A word enters a window; of two for one buffer word one is dropped and counted. -/
def State.binWord (s : State) (win key : Nat) (w : BinWord) : State :=
  let k := win * 2 ^ 18 + key
  let s1 := if (SMap.find s.core.windows k).isSome then s.count F.TURN_BIN_DROP_COUNT 1 else s
  if s.binKeeps win key w then { s1 with core := { s1.core with windows := SMap.put s1.core.windows k w } } else s1

/-- A new grid origin at line time `t0` of the old line time, while the stamps move by `d` to the new one: the words binned since the
last boundary go to the window that closes there or, from the fill guard on, to the next one (R20, R79, R89, R90). -/
def State.rebin (s : State) (t0 d : Int) : State :=
  let b := s.core.boundary
  let old := s.core.windows.filter fun p => (b * 2 ^ 18 : Nat) ≤ p.1
  let s1 := { s with core := { s.core with windows := s.core.windows.filter fun p => p.1 < b * 2 ^ 18 } }
  s1.each old fun s p =>
    let win := if p.2.stamp + s.fillGuard < t0 then b else b + 1
    s.binWord win (p.1 % 2 ^ 18) { p.2 with stamp := (p.2.stamp + d).toNat }

/-- At a grid origin the window that closes there holds the words of one SPAN alone: those binned earlier, since the last boundary
of the old grid, are in no turn's window (R79). They are dropped and not counted. DEDUCED (log 96). -/
def State.trimWindow (s : State) (b : Nat) : State :=
  let first := s.boundaryAt b - s.span
  { s with core := { s.core with
    windows := s.core.windows.filter fun p => p.1 / 2 ^ 18 ≠ b ∨ first ≤ p.2.stamp + s.fillGuard } }

/-- The number of the turn that the next starting boundary starts. -/
def State.nextTurn (s : State) : Nat := s.turnNum + (if s.core.phase = .turn then 1 else 0)

/-- A binned word goes to the mirror stream, under the number of the turn that reads it (R300). -/
def State.mirrorFill (s : State) (key : Nat) (data : W128) : State :=
  s.mirror (.word s.nextTurn (s.fillWords.idxOf key) data)

/-- A word of a fill source at the binning stage (R20, R21): before the first boundary it is discarded, and
for an isolated cord (R291). Which turn reads a word of a later window than the next boundary closes is not known before that
boundary: the mirror stream takes it there (R300). -/
def State.fillWord (s : State) (key rank : Nat) (data : W128) : State :=
  if !s.core.started || s.bit (F.CRD_STAT_REGION_LOAD (key / 2048)) then s
  else
    let win := s.closing
    let w : BinWord := { data, stamp := s.lineTime.toNat, rank }
    let s1 := s.binWord win key w
    if s.binKeeps win key w && win == s.core.boundary then s1.mirrorFill key data else s1

/-- A turn-input write port presents a word (R173, R174, R305), unless its WE comes from an isolated region (R182). -/
def State.turnInput (s : State) (die port cord word : Nat) (data : W128) : State :=
  let key := cord * 2048 + word
  if !s.fabricOn || s.cutOff s.edge.die.tinWe (die * 32 + port) then s
  else if s.standby && s.splice.bs.isNone then s.count F.EDG_TIN_STBY_COUNT 1
  else if !s.cordOn cord || !s.edge.die.tin.contains key then s.count (F.EDG_TIN_UNASSIGNED_COUNT die) 1
  else s.fillWord key (0x72 * 64 + die * 32 + port) data

/-! ### The visible outputs (R175) -/

/-- A read port presents an address; its word is the visible set's at this edge. -/
def State.turnOutput (s : State) (die port cord word : Nat) : State :=
  let v : W128 := if s.cordOn cord then SMap.get (fun _ => (0 : W128)) s.core.outVis (cord * 2048 + word) else 0
  { s with edge := { s.edge with reads := s.edge.reads ++ [{ port := die * 32 + port, left := 3, data := v }] } }

def execTurnInputWrite (die : Bool) (port : BitVec 5) (cord : CordId) (word : BitVec 11) (data : W128) (s : State) :
    Host.Outcome State Fault Refusal :=
  .next (if die && s.closed then s else s.turnInput die.toNat port.toNat cord.toNat word.toNat data)

def execTurnOutputRead (die : Bool) (port : BitVec 5) (cord : CordId) (word : BitVec 11) (s : State) :
    Host.Outcome State Fault Refusal :=
  .next (if die && s.closed then s else s.turnOutput die.toNat port.toNat cord.toNat word.toNat)

end Sys2Proof.Machine
end

