-- ==== Sys2Proof/Machine/Capture.lean ====
section
/-! DEFINITION. Capture channels (R227–R239) and time marks (R225, R233). -/

namespace Sys2Proof.Machine

/-- Channel states (R234). -/
def capIdle : Nat := 0
def capArmed : Nat := 1
def capPost : Nat := 2
def capDoneState : Nat := 3
def capOverflow : Nat := 4
def capStopping : Nat := 5

def State.capState (s : State) (n : Nat) : Nat := s.fget (F.CAP_STAT_STATE n)

/-- The channel is ARMED or POST and has lost no word. -/
def State.capRuns (s : State) (n : Nat) : Bool :=
  (s.capState n == capArmed || s.capState n == capPost) && (s.cap n).lost.isNone

/-- Capture channels exist for the part's port lanes (R227). -/
def State.capHere (s : State) (n : Nat) : Bool := n < (if s.big then 1024 else 512)

/-- Channel `n` belongs to capture set `k`: its SET is `k` and it has a ring. DEDUCED (log 31). -/
def State.capMember (s : State) (k n : Nat) : Bool :=
  s.capHere n && s.fget (F.CAP_CFG_SET n) == k && s.fget (F.CAP_SIZE_SIZE n) != 0

def State.capSet (s : State) (k : Nat) : List Nat := (List.range 1024).filter (s.capMember k)

/-! ### Closing blocks -/

/-- NW + 2·NREC of an open block (R230). -/
def OpenBlock.fill (b : OpenBlock) : Nat := b.entries.length + 2 * b.recs.length

/-- The open DATA block is closed and held for writing (R232, R237). -/
def Capture.close (x : Capture) : Capture :=
  match x.opened with
  | none => x
  | some b =>
    { x with
      opened := none
      held := x.held ++ [{ kind := 0, ts := b.ts, entries := b.entries, recs := b.recs, err := b.err, fec := b.fec,
                           spec := !(x.trigDone || b.trig), trig := b.trig }]
      trigDone := x.trigDone || b.trig }

/-- A record produced by the channel's lane or by the trigger engine (R230, R232). -/
def Capture.record (x : Capture) (r : W128) : Capture :=
  match x.opened with
  | some b =>
    if b.fill + 2 ≤ 62 then { x with opened := some { b with recs := b.recs ++ [r] } }
    else { x.close with recs := x.recs ++ [r] }
  | none => { x with recs := x.recs ++ [r] }

def State.capRecord (s : State) (n : Nat) (r : W128) : State :=
  if s.capRuns n then s.setCap n ((s.cap n).record r) else s

/-- A trigger mark record (R231). -/
def trigMark (seq knot code : Nat) (ts : W64) : W128 :=
  BitVec.ofNat 128 (8 + seq * 16 + knot * 2 ^ 8 + code * 2 ^ 16 + ts.toNat * 2 ^ 64)

/-! ### Entries -/

/-- An entry joins the open block, or opens one; a full or broken block is closed before it (R230, R232, R238). -/
def Capture.entry (x : Capture) (e : CapEntry) : Capture :=
  let trig := x.trigWait && e.fresh
  let x1 := match x.opened with
    | some b => if 62 ≤ b.fill ∨ b.broken then x.close else x
    | none => x
  match x1.opened with
  | some b => { x1 with opened := some { b with
      entries := b.entries ++ [e.data], err := b.err || e.err, fec := b.fec || e.fec, trig := b.trig || trig } }
  | none =>
    { x1 with
      opened := some { ts := e.ts, entries := [e.data], recs := x1.recs.take 30, err := e.err, fec := e.fec, trig }
      recs := x1.recs.drop 30 }

/-- The trigger entry has entered: the channel is in POST, and the entry's slot and short timestamp are shown (R235, R236); a cycle
without an entry adds a word time (R230). -/
def State.trigEntered (s : State) (n : Nat) : State :=
  let x := s.cap n
  match x.trigWait, x.opened with
  | true, some b =>
    let slot := b.entries.length - 1
    (((s.setCap n { x with trigWait := false }).fset (F.CAP_STAT_STATE n) capPost).fset (F.CAP_TRIG_SLOT_SLOT n) slot).wset
      (W.CAP_TRIG_TS_TS n) (b.ts.toNat + s.entryTime n (slot + b.gaps) (s.bit (F.CAP_CFG_POINT n)))
  | _, _ => s

/-- An entry enters the channel; with all 64 blocks held it is the first one lost (R237). -/
def State.capEntry (s : State) (n : Nat) (e : CapEntry) : State :=
  let x := s.cap n
  if !s.capRuns n then s
  else if 64 ≤ x.held.length then
    let y := x.close
    s.setCap n { y with lost := some e.ts, held := y.held ++ [{ kind := 2, ts := e.ts, spec := !y.trigDone }], recs := [] }
  else
    let s1 := s.setCap n (x.entry e)
    if e.fresh then s1.trigEntered n else s1

/-- The filter has dropped an entry: the open block takes no more (R232, R238). -/
def Capture.break (x : Capture) : Capture := { x with opened := x.opened.map fun b => { b with broken := true } }

/-- A cycle without an entry lies between entries of the open block (R190, R230). -/
def Capture.gap (x : Capture) : Capture := { x with opened := x.opened.map fun b => { b with gaps := b.gaps + 1 } }

/-- The KEEP bit of the cycle: the output of the macrocell that the cast names for the lane; where it names none, the spec gives the
bit no source, and it is the command's (log 104). -/
def State.keepBit (s : State) (n : Nat) (given : Bool) : Bool :=
  match SMap.find s.edge.keeps n with
  | some m => s.macroOut m
  | none => given

/-- An entry, or a cycle without one, at the channel: through the filter's delay, where the KEEP bit of this cycle decides (R238). -/
def State.capCycle (s : State) (n : Nat) (keep : Bool) (e : Option CapEntry) : State :=
  if !s.capRuns n then s
  else
    let put := fun (s : State) (e : Option CapEntry) => match e with
      | some e => s.capEntry n e
      | none => s.setCap n (s.cap n).gap
    if !s.bit (F.CAP_CFG_FILTER n) then put s e
    else
      let line := (s.cap n).delay ++ [e]
      if line.length ≤ s.fget (F.CAP_CFG_FILT_DLY n) + 1 then s.setCap n { s.cap n with delay := line }
      else
        let s1 := s.setCap n { s.cap n with delay := line.drop 1 }
        match line.headD none with
        | some old => if keep then s1.capEntry n old else (s1.setCap n (s1.cap n).break).count (F.CAP_DROP_COUNT n) 1
        | none => s1.setCap n (s1.cap n).gap

/-- Wire bit `i` of a word joins the entry being gathered; a full one is handed on. `ts` is the bit's short timestamp, `err` and `fec`
the flags of the word whose first wire bit it is (R227, R229). -/
def WirePart.bit (a : List CapEntry × WirePart) (v : Bool) (ts : W64) (err fec fresh : Bool) : List CapEntry × WirePart :=
  let p := a.2
  let q : WirePart := {
    bits := if v then p.bits ||| BitVec.ofNat 64 (2 ^ p.n) else p.bits
    n := p.n + 1, ts := if p.n = 0 then ts else p.ts, err := p.err || err, fec := p.fec || fec }
  if q.n = 64 then (a.1 ++ [⟨q.bits, q.ts, q.err, q.fec, fresh⟩], {}) else (a.1, q)

/-- The entries that the wire bits of a word complete, and the one left (R227). -/
def State.wireEntries (s : State) (n : Nat) (w : RxWord) : List CapEntry × WirePart :=
  let x := s.cap n
  let first := s.rxCorrect n w.raw
  (List.range (wireBits (s.pcs n))).foldl (fun a i =>
    WirePart.bit a (w.wire.getLsbD i) (first + BitVec.ofNat 64 (pipeUnits 0 i (s.kbps n))) (i == 0 && w.codeErr) (i == 0 && w.fecMark)
      x.trigWait) ([], x.part)

/-- A receive word at the channel (R227); the wire bits are recovered under CDR lock. -/
def State.capWord (s : State) (n : Nat) (w : RxWord) : State :=
  if !s.capRuns n then s
  else
    let keep := s.keepBit n w.keep
    if s.bit (F.CAP_CFG_POINT n) then
      if s.bit (F.LANE_STAT_CDR_LOCK n) then
        let (es, p) := s.wireEntries n w
        (s.setCap n { s.cap n with part := p }).each es fun s e => s.capCycle n keep (some e)
      else s.setCap n { s.cap n with part := {} }
    else s.capCycle n keep
      (if w.valid then some ⟨w.data, s.rxCorrect n w.raw, w.codeErr, w.fecMark, (s.cap n).trigWait⟩ else none)

/-! ### Commands (R235) -/

/-- The ring settings allow an ARM (R228). -/
def State.ringOk (s : State) (n : Nat) : Bool :=
  let base := s.wget (W.CAP_BASE_BASE n)
  let size := s.fget (F.CAP_SIZE_SIZE n)
  let post := s.fget (F.CAP_POST_POST n)
  base % 512 == 0 && 2 ≤ size && 1 ≤ post && post ≤ size && s.inDram base && s.inDram (base + 512 * size - 1)
    && (List.range 384).all fun g =>
      g < granuleOf base || granuleOf (base + 512 * size - 1) < g || s.fget (F.BNK_GRN_USE g) == 1

/-- The channel enters ARMED, or the ARM is refused with BADRING (R228, R235). -/
def State.armNow (s : State) (n : Nat) : State :=
  if !s.ringOk n then s.fset (F.CAP_STAT_BADRING n) 1
  else
    ((((s.setCap n {}).fset (F.CAP_STAT_STATE n) capArmed).fset (F.CAP_STAT_WRAPPED n) 0).fset
      (F.CAP_WPTR_WPTR n) 0).fset (F.CAP_SEQ_SEQ n) 0

def State.capArm (s : State) (n : Nat) : State :=
  let st := s.capState n
  if !s.capHere n then s
  else if st = capIdle ∨ st = capDoneState ∨ st = capOverflow then s.armNow n
  else if st = capStopping then s.fset (F.CAP_STAT_PENDING_ENABLE n) 1
  else s

/-- An ARM command; what it meets at the same edge is not applied (R235). Until the commit the channels stay IDLE (R284). -/
def State.armCommand (s : State) (n : Nat) : State :=
  if s.capHere n && s.image.committed && !s.meets (.cap n) && !(s.capState n == capArmed || s.capState n == capPost) then (s.capArm n).meet (.cap n)
  else s

/-- TRIG: an ARMED channel enters POST at the trigger entry (R235, R236), unless it takes an ARM or STOP at the same edge. -/
def State.capTrig (s : State) (n : Nat) : State :=
  if s.capHere n && !s.meets (.cap n) && s.capState n == capArmed && (s.cap n).lost.isNone then
    s.setCap n { s.cap n with trigWait := true }
  else s

/-- Input 224 + k pulses when the last channel of set k has entered DONE or OVERFLOW (R240). -/
def State.setComplete (s : State) (n : Nat) : State :=
  let k := s.fget (F.CAP_CFG_SET n)
  if (s.capSet k).all s.capDone then s.pulse (224 + k) else s

/-- The channel enters DONE; an ARM held behind STOPPING then takes effect (R235). -/
def State.capFinish (s : State) (n : Nat) : State :=
  let s1 := ((s.setCap n {}).fset (F.CAP_STAT_STATE n) capDoneState).setComplete n
  if s1.bit (F.CAP_STAT_PENDING_ENABLE n) then (s1.fset (F.CAP_STAT_PENDING_ENABLE n) 0).armNow n else s1

/-- STOP (R235). In STOPPING it withdraws an ARM that is held (R343). -/
def State.capStop (s : State) (n : Nat) : State :=
  let st := s.capState n
  if s.capHere n && (st == capArmed || st == capPost) && (s.cap n).lost.isNone then
    let x := (s.cap n).close
    let s1 := (s.setCap n x).fset (F.CAP_STAT_STATE n) capStopping
    if x.held = [] then s1.capFinish n else s1
  else if s.capHere n && st == capStopping then s.fset (F.CAP_STAT_PENDING_ENABLE n) 0
  else s

/-- STOP applies: the channel is ARMED or POST, or holds an ARM behind STOPPING (R235, R343). -/
def State.stopApplies (s : State) (n : Nat) : Bool :=
  s.capState n == capArmed || s.capState n == capPost || (s.capState n == capStopping && s.bit (F.CAP_STAT_PENDING_ENABLE n))

/-- A STOP command; what it meets at the same edge is not applied (R235). -/
def State.stopCommand (s : State) (n : Nat) : State :=
  if s.capHere n && !s.meets (.cap n) && s.stopApplies n then (s.capStop n).meet (.cap n) else s

/-- The commands of one write: the first applicable of STOP, ARM, TRIG (R235). -/
def State.capCommand (s : State) (n : Nat) (arm trig stop : Bool) : State :=
  let st := s.capState n
  if stop && s.stopApplies n then s.stopCommand n
  else if arm && !(st == capArmed || st == capPost) then s.armCommand n
  else if trig then s.capTrig n
  else s

/-! ### Writing blocks (R229, R237) -/

/-- The INFO field of a block (R229). -/
def State.capInfo (s : State) (n : Nat) (b : CapBlock) : Nat :=
  s.fget (F.CAP_SEQ_SEQ n) + n * 2 ^ 20 + s.pcs n * 2 ^ 30 + s.fget (F.LANE_CFG_MOD n) * 2 ^ 33
    + s.fget (F.CAP_CFG_POINT n) * 2 ^ 34 + b.kind * 2 ^ 35 + b.entries.length * 2 ^ 37 + b.recs.length * 2 ^ 43
    + b.err.toNat * 2 ^ 48 + b.fec.toNat * 2 ^ 49 + (if b.kind = 2 then 2 ^ 50 else 0) + b.spec.toNat * 2 ^ 51
    + b.trig.toNat * 2 ^ 52 + (s.kbps n + 31250) / 62500 % 2 ^ 11 * 2 ^ 53

/-- The 512 bytes of a block: header, entries from the start, records from the end of the payload (R229, R230). -/
def State.capBytes (s : State) (n : Nat) (b : CapBlock) : Bytes :=
  let head := leBytes 8 b.ts.toNat ++ leBytes 8 (s.capInfo n b)
  let es := b.entries.flatMap (fun e => leBytes 8 e.toNat)
  let rs := b.recs.reverse.flatMap (fun r => leBytes 16 r.toNat)
  let gap := List.replicate (496 - es.length - rs.length) (0 : Byte)
  if b.kind = 0 then head ++ es ++ gap ++ rs
  else head ++ b.payload ++ List.replicate (496 - b.payload.length) (0 : Byte)

/-- The channel ends in OVERFLOW (R237). -/
def State.capEndOverflow (s : State) (n : Nat) : State :=
  (((s.setCap n {}).fset (F.CAP_STAT_STATE n) capOverflow).setComplete n).raiseAt (0x200 + n / 16) 0x0501 0x10
    accPosted n

/-- DRAM accepts the oldest held block (R234, R236, R237, R139). In Sleep it refreshes itself only (R334). -/
def State.capWrite (s : State) (n : Nat) : State :=
  match (if s.fget F.PWR_STAT_STATE < 2 then (s.cap n).held else []) with
  | [] => s
  | b :: rest =>
    let wptr := s.fget (F.CAP_WPTR_WPTR n)
    let size := s.fget (F.CAP_SIZE_SIZE n)
    let a := s.wget (W.CAP_BASE_BASE n) + 512 * wptr
    let s1 := if s.dramAllows 0x10 a true then s.wrBytes a (s.capBytes n b) else s.memRefused 0x10 a accPosted
    let s2 := if b.trig then s1.fset (F.CAP_TRIG_BLK_BLK n) wptr else s1
    let wraps := wptr + 1 = size
    let s3 := (s2.fset (F.CAP_WPTR_WPTR n) (if wraps then 0 else wptr + 1)).countWrap (F.CAP_SEQ_SEQ n) 1
    let s4 := s3.count (F.CAP_BLKS_COUNT n) 1
    let s5 := if wraps ∧ b.spec then s4.fset (F.CAP_STAT_WRAPPED n) 1 else s4
    let x := s.cap n
    let posted := if b.spec then x.posted else x.posted + 1
    let s6 := s5.setCap n { x with held := rest, posted }
    if s.capState n = capPost ∧ x.lost = none ∧ !b.spec ∧ posted = s.fget (F.CAP_POST_POST n) then s6.capFinish n
    else if rest ≠ [] then s6
    else if x.lost.isSome then s6.capEndOverflow n
    else if s.capState n = capStopping then s6.capFinish n
    else s6

/-! ### Time marks (R225, R233, R239) -/

/-- A TIME_MARK block of the instant `t` with the flags STEP, GAP_START and GAP_END. -/
def State.markBlock (s : State) (t : Nat) (spec step gapStart gapEnd : Bool) : CapBlock :=
  let flags := step.toNat + 2 * gapStart.toNat + 4 * gapEnd.toNat + 8 * s.fget F.TIME_STAT_REF_OK
    + 16 * s.fget F.TIME_STAT_PPS_OK
  { kind := 1, ts := shortTime t, spec
    payload := leBytes 12 (timeBits t) ++ leBytes 4 flags ++ leBytes 8 s.turnNum }

/-- A time mark in one channel; the open block is closed first for a step and for a gap (R232, R233, R239). -/
def State.markChannel (s : State) (n t : Nat) (step gapStart gapEnd : Bool) : State :=
  if s.capRuns n then
    let x := if step || gapStart then (s.cap n).close else s.cap n
    s.setCap n { x with held := x.held ++ [s.markBlock t (!x.trigDone) step gapStart gapEnd] }
  else s

/-- Channels that run. -/
def State.running (s : State) : List Nat := (List.range 1024).filter s.capRuns

def State.markAll (s : State) (t : Nat) (step gapStart gapEnd : Bool) : State :=
  s.each s.running fun s n => s.markChannel n t step gapStart gapEnd

/-- The time marks that are owed are written, each of its instant, in their order (R225). In Sleep channels hold (R239). -/
def State.writeMarks (s : State) : State :=
  let last := (s.time.marks.filter fun m => !m.2).getLast?
  let s1 := { s with time := { s.time with
    marks := [], markAt := match last with | some m => some m.1 | none => s.time.markAt } }
  if s.fget F.PWR_STAT_STATE < 2 then s1.each s.time.marks fun s m => s.markAll m.1 m.2 false false else s1

/-- Device time stands at a whole millisecond whose marks are not written. -/
def State.markDue (s : State) : Bool :=
  s.time.now % oneMilli == 0 && s.time.markAt != some s.time.now && !(s.time.marks.any fun m => m.1 == s.time.now)

/-- Each running channel writes a full time mark for the steps and whole milliseconds whose marks are owed (R225). -/
def State.timeMarks (s : State) : State :=
  (if s.markDue then { s with time := { s.time with marks := s.time.marks ++ [(s.time.now, false)] } } else s).writeMarks

/-! ### The meanings -/

/-- A command to a channel, or to every channel of a set (R235, R249). -/
def State.capTargets (s : State) (set : Bool) (n : Nat) : List Nat := if set then s.capSet n else [n]

/-- The register of a capture command. -/
def capRegister (set : Bool) (n : Nat) : Nat := if set then R.CAP_SET n else R.CAP_CTL n

def execCapArm (set : Bool) (n : BitVec 10) (s : State) : Host.Outcome State Fault Refusal :=
  .next (s.hostCmd (capRegister set n.toNat) 1 1 fun s => (s.watch [6] fun s => s.each (s.capTargets set n.toNat) fun s n => s.armCommand n))

def execCapTrig (set : Bool) (n : BitVec 10) (s : State) : Host.Outcome State Fault Refusal :=
  .next (s.hostCmd (capRegister set n.toNat) 2 2 fun s => (s.each (s.capTargets set n.toNat) fun s n => s.capTrig n))

def execCapStop (set : Bool) (n : BitVec 10) (s : State) : Host.Outcome State Fault Refusal :=
  .next (s.hostCmd (capRegister set n.toNat) 4 4 fun s => (s.watch [6] fun s => s.each (s.capTargets set n.toNat) fun s n => s.stopCommand n))

/-- The condition under which a DATA block closes for a reason (R232). Passed time is the environment's (log 5). -/
def State.closes (s : State) (n : Nat) (b : OpenBlock) (why : CloseReason) : Bool :=
  match why with
  | .full => 62 ≤ b.fill
  | .filter => b.broken
  | .lockLoss => if s.bit (F.CAP_CFG_POINT n) then !s.bit (F.LANE_STAT_CDR_LOCK n) else !s.bit (F.LANE_STAT_PCS_LOCK n)
  | .timeout => true
  | .timeStep => s.time.marks.any fun m => m.2
  | .stop => s.capState n == capStopping

def execCapBlockClose (n : BitVec 10) (why : CloseReason) (s : State) : Host.Outcome State Fault Refusal :=
  match (s.cap n.toNat).opened with
  | none => .next s
  | some b => if s.closes n.toNat b why then .next (s.setCap n.toNat (s.cap n.toNat).close) else .next s

def execCapBlockWrite (n : BitVec 10) (s : State) : Host.Outcome State Fault Refusal :=
  .next (s.watch [6] fun s => s.capWrite n.toNat)

def execTimeMark (s : State) : Host.Outcome State Fault Refusal := .next s.timeMarks

end Sys2Proof.Machine
end

