-- ==== Sys2Proof/Machine/Pattern.lean ====
section
/-! DEFINITION. Pattern channels (R245–R248). -/

namespace Sys2Proof.Machine

/-- The idle word (R172, R245). -/
def idleWord : TxWord := { data := 0, valid := false }

/-! ### Descriptors (R246) -/

/-- Every granule from byte address `lo` up to `hi` (included) is a pattern granule. -/
def State.patternRange (s : State) (lo hi : Nat) : Bool :=
  s.inDram lo && s.inDram hi && lo ≤ hi && (List.range 384).all fun g =>
    g < granuleOf lo || granuleOf hi < g || s.fget (F.BNK_GRN_USE g) == 2

/-- Bytes of the control map of one block (R246). -/
def ctlBytes (pcs : Nat) : Nat := if pcs = 1 then 64 else if pcs = 0 ∨ pcs = 4 then 0 else 8

/-- The bytes of a descriptor; a refused read answers zeros (R139). -/
def State.descBytes (s : State) (n i : Nat) : Bytes :=
  let a := s.wget (W.PAT_DESC_BASE_BASE n) + 32 * i
  if s.inDram a && s.dramAllows 0x20 a false then s.rdBytes a 32 else List.replicate 32 0

/-- A fetched and checked descriptor, none where a check of R246 fails. -/
def State.checkDesc (s : State) (n i : Nat) : Option PatDesc :=
  let v := leNat (s.descBytes n i)
  let d : PatDesc := { data := field v 0 64, nblk := field v 64 32, loop := field v 96 32, ctl := field v 128 64,
                       next := field v 192 16, hasCtl := v.testBit 208 }
  let cb := ctlBytes (s.pcs n) * d.nblk
  if d.nblk ≠ 0 ∧ field v 209 47 = 0 ∧ s.patternRange d.data (d.data + 512 * d.nblk - 1)
      ∧ (!d.hasCtl ∨ cb = 0 ∨ s.patternRange d.ctl (d.ctl + cb - 1)) then some d else none

/-- The segment of descriptor `i` starts, or a bad descriptor idles the channel (R246). -/
def State.startSegment (s : State) (n i : Nat) : State :=
  let x := s.pat n
  let got := match x.fetched with
    | some (j, d) => if j = i then d else s.checkDesc n i
    | none => s.checkDesc n i
  match got with
  | some d =>
    ((s.setPat n { x with desc := some d, blk := 0, ended := false, fetched := none }).fset
      (F.PAT_CUR_DESC n) i).fset (F.PAT_LOOP_LOOPS n) d.loop
  | none =>
    (((s.setPat n { x with desc := none, blk := 0, ended := false, fetched := none }).fset
      (F.PAT_STAT_ACT_SRC n) 0).fset (F.PAT_STAT_DESC_ERR n) 1).raiseAt (0x200 + n / 16) 0x0502 0 0 0

/-- After the plays of a segment the program goes on at NEXT or ends (R246). -/
def State.segmentEnd (s : State) (n : Nat) : State :=
  match (s.pat n).desc with
  | none => s
  | some d =>
    if d.next = 0xFFFF then
      ((s.setPat n { s.pat n with desc := none, ended := false, blk := 0 }).fset (F.PAT_STAT_ACT_SRC n) 0).fset
        (F.PAT_STAT_PROG_END n) 1
    else s.startSegment n d.next

/-! ### Words (R245) -/

/-- The word of the DRAM program at this place (R246). -/
def State.programWord (s : State) (n : Nat) (d : PatDesc) (blk idx : Nat) : TxWord :=
  let data : W64 := BitVec.ofNat 64 (leNat (s.rdBytes (d.data + 512 * blk + 8 * idx) 8))
  let ctlb : BitVec 8 :=
    if !d.hasCtl then 0
    else if s.pcs n = 1 then s.rdByte (d.ctl + 64 * blk + idx)
    else if ctlBytes (s.pcs n) = 8 then
      if (s.rdByte (d.ctl + 8 * blk + idx / 8)).getLsbD (idx % 8) then 1 else 0
    else 0
  { data, ctlb }

/-- A block of the segment has been played (R246). -/
def State.blockPlayed (s : State) (n : Nat) : State :=
  let x := s.pat n
  match x.desc with
  | none => s
  | some d =>
    if x.blk + 1 < d.nblk then s.setPat n { x with blk := x.blk + 1 }
    else if d.loop = 0 then s.setPat n { x with blk := 0 }
    else
      let left := s.fget (F.PAT_LOOP_LOOPS n) - 1
      (s.setPat n { x with blk := 0, ended := left == 0 }).fset (F.PAT_LOOP_LOOPS n) left

/-- The word the selected source gives, before the channel counts it. `fabric` is the edge fabric's word. -/
def State.sourceWord (s : State) (n : Nat) (fabric : TxWord) : State × TxWord :=
  let x := s.pat n
  match s.fget (F.PAT_STAT_ACT_SRC n) with
  | 1 =>
    if 0 < x.idle then (s.setPat n { x with idle := x.idle - 1 }, idleWord)
    else match x.desc with
      | some d => (s, s.programWord n d x.blk x.idx)
      | none => (s, idleWord)
  | 2 => (s, fabric)
  | 3 =>
    match x.frame, x.fifo with
    | w :: ws, _ => (s.setPat n { x with frame := ws }, w)
    | [], f :: fs =>
      match f.words with
      | w :: ws => (s.setPat n { x with frame := ws, fifo := fs }, w)
      | [] => (s.setPat n { x with fifo := fs }, idleWord)
    | [], [] => (s, idleWord)
  | _ => (s, idleWord)

/-- The reads of the block that the program plays next, as the trace sees them when it begins: how early they are made is open
(R246; log 128). -/
def State.blockReads (s : State) (n : Nat) : State :=
  let x := s.pat n
  match x.desc with
  | none => s
  | some d =>
    if !s.observed || s.fget (F.PAT_STAT_ACT_SRC n) != 1 || decide (0 < x.idle) || x.idx != 0 then s
    else
      let cb := if d.hasCtl then ctlBytes (s.pcs n) else 0
      let read := fun (s : State) (a n : Nat) => s.readLines 0x20 (fun s => s) 0 (linesOf a n).length (linesOf a n)
      read (read s (d.data + 512 * x.blk) 512) (d.ctl + cb * x.blk) cb

/-- The channel emits one word; every 64th closes a pattern block (R245). While disabled it emits idle words, but for the rest of the
block in progress (R248). -/
def State.patWord (s : State) (n : Nat) (fabric : TxWord) : State × TxWord :=
  if !s.bit (F.PAT_CTL_EN n) && (!s.bit (F.PAT_STAT_SHUTTING n) || (s.pat n).idx == 0) then (s, idleWord)
  else
    let s0 := (if (s.pat n).idx = 0 ∧ (s.pat n).ended then s.segmentEnd n else s).blockReads n
    let filler := decide (0 < (s0.pat n).idle)
    let (s1, w) := s0.sourceWord n fabric
    let x := s1.pat n
    if x.idx + 1 < 64 then (s1.setPat n { x with idx := x.idx + 1 }, w)
    else
      let s2 := s1.setPat n { x with idx := 0 }
      let s3 := s2.wset (W.PAT_BLKS_BLOCKS n) (s2.wget (W.PAT_BLKS_BLOCKS n) + 1)
      (if s3.fget (F.PAT_STAT_ACT_SRC n) = 1 ∧ !filler then s3.blockPlayed n else s3, w)

/-! ### Commands (R247, R248) -/

/-- A source change is requested; it replaces a pending one (R245). -/
def State.patRequest (s : State) (n src desc : Nat) : State :=
  (s.setPat n { s.pat n with request := some (src, desc), fetched := none }).fset (F.PAT_STAT_SW_PEND n) 1

/-- START and GO, SWITCH, IDLE as PAT_OP codes 1, 2, 3 (R243, R247). -/
def State.patOp (s : State) (n op : Nat) : State :=
  if op = 1 then s.patRequest n 1 (s.fget (F.PAT_DESC_START n))
  else if op = 2 then s.patRequest n (s.fget (F.PAT_CFG_ALT_SRC n)) (s.fget (F.PAT_DESC_ALT n))
  else if op = 3 then s.patRequest n 0 0
  else s

/-- A write of PAT_CTL_n.SRC or GO; a knot's command to the channel at the same edge is refused with CONFLICT (R244). -/
def State.patWritten (s : State) (n : Nat) : State :=
  (if s.meets (.knot n) then s.fset F.TRG_STAT_CONFLICT 1 else s).meet (.pat n)

/-- A write of PAT_CTL_n.SRC. A change to source 1 plays from PAT_DESC_START. DEDUCED (log 33). -/
def State.patSource (s : State) (n v : Nat) : State :=
  ((s.fset (F.PAT_CTL_SRC n) v).patRequest n v (s.fget (F.PAT_DESC_START n))).patWritten n

/-- A write of PAT_CTL_n.GO. -/
def State.patGo (s : State) (n : Nat) : State := (s.patOp n 1).patWritten n

/-- The pending change takes effect at a block boundary, and after the frame being played (R245). -/
def State.patSwitch (s : State) (n : Nat) : State :=
  let x := s.pat n
  match x.request with
  | none => s
  | some (src, desc) =>
    if x.idx ≠ 0 ∨ (s.fget (F.PAT_STAT_ACT_SRC n) = 3 ∧ x.frame ≠ []) then s
    else
      let s1 := ((s.setPat n { x with request := none, ended := false, idle := 0 }).fset
        (F.PAT_STAT_SW_PEND n) 0).fset (F.PAT_STAT_ACT_SRC n) src
      if src = 1 then s1.startSegment n desc else s1

def State.patStart (s : State) (n : Nat) : State :=
  ((s.setPat n { s.pat n with idx := 0 }).fset (F.PAT_CTL_EN n) 1).wset (W.PAT_BLKS_BLOCKS n) 0

/-- An EN = 1 write; until the commit the channels stay disabled (R284). -/
def State.patEnable (s : State) (n : Nat) : State :=
  if !s.capHere n || !s.image.committed || s.bit (F.PAT_CTL_EN n) then s
  else if s.bit (F.PAT_STAT_SHUTTING n) then s.fset (F.PAT_STAT_PENDING_ENABLE n) 1
  else s.patStart n

def State.patDisable (s : State) (n : Nat) : State :=
  let s1 := s.fset (F.PAT_STAT_PENDING_ENABLE n) 0
  if s.bit (F.PAT_CTL_EN n) then
    let s2 := s1.fset (F.PAT_CTL_EN n) 0
    if (s.pat n).idx = 0 then s2 else s2.fset (F.PAT_STAT_SHUTTING n) 1
  else s1

/-- The block in progress at a disable has ended. A channel whose lane does not take its words has none left to emit. DEDUCED
(log 109). -/
def State.patDone (s : State) (n : Nat) : Bool := (s.pat n).idx == 0 || (s.lane n).txSrc != 2

def State.patShutdownDone (s : State) (n : Nat) : State :=
  if !s.bit (F.PAT_STAT_SHUTTING n) || !s.patDone n then s
  else
    let s1 := (s.setPat n { s.pat n with idx := 0 }).fset (F.PAT_STAT_SHUTTING n) 0
    if s1.bit (F.PAT_STAT_PENDING_ENABLE n) then (s1.fset (F.PAT_STAT_PENDING_ENABLE n) 0).patStart n else s1

/-! ### The meanings -/

def execPatEnable (n : BitVec 10) (s : State) : Host.Outcome State Fault Refusal :=
  .next (s.hostCmd (R.PAT_CTL n.toNat) 1 1 fun s => (s.patEnable n.toNat))
def execPatDisable (n : BitVec 10) (s : State) : Host.Outcome State Fault Refusal :=
  .next (s.hostCmd (R.PAT_CTL n.toNat) 1 0 fun s => (if s.capHere n.toNat then s.patDisable n.toNat else s))
def execPatShutdownDone (n : BitVec 10) (s : State) : Host.Outcome State Fault Refusal :=
  .next (s.patShutdownDone n.toNat)

def execPatSrc (n : BitVec 10) (v : BitVec 2) (s : State) : Host.Outcome State Fault Refusal :=
  .next (s.hostCmd (R.PAT_CTL n.toNat) 6 (v.setWidth 32 <<< 1) fun s => if s.capHere n.toNat then s.patSource n.toNat v.toNat else s)

def execPatGo (n : BitVec 10) (s : State) : Host.Outcome State Fault Refusal :=
  .next (s.hostCmd (R.PAT_CTL n.toNat) 8 8 fun s => (if s.capHere n.toNat then s.patGo n.toNat else s))
def execPatSourceSwitch (n : BitVec 10) (s : State) : Host.Outcome State Fault Refusal := .next (s.patSwitch n.toNat)

/-- The descriptor of the pending change, or of the segment after the one playing, is fetched and checked (R246). -/
def execPatDescFetch (n : BitVec 10) (s : State) : Host.Outcome State Fault Refusal :=
  let n := n.toNat
  let x := s.pat n
  let want := match x.request, x.desc with
    | some (1, i), _ => some i
    | _, some d => if d.next = 0xFFFF then none else some d.next
    | _, none => none
  match want with
  | none => .next s
  | some i =>
    let a := s.wget (W.PAT_DESC_BASE_BASE n) + 32 * i
    let l := linesOf a 32
    let s1 := if s.inDram a && s.dramAllows 0x20 a false then s.readLines 0x20 (fun s => s) 0 l.length l
      else if s.inDram a then s.readLines 0x20 (fun s => s.memRefused 0x20 a accRead) (s.refusedStatus a) l.length l
      else s
    .next (s1.setPat n { x with fetched := some (i, s.checkDesc n i) })

def execPatSegmentEnd (n : BitVec 10) (s : State) : Host.Outcome State Fault Refusal :=
  if (s.pat n.toNat).ended then .next (s.segmentEnd n.toNat) else .next s

/-- A DRAM block is missing at its boundary: 64 idle words, then the block (R247). -/
def execPatUnderrun (n : BitVec 10) (s : State) : Host.Outcome State Fault Refusal :=
  let n := n.toNat
  let x := s.pat n
  if s.fget (F.PAT_STAT_ACT_SRC n) = 1 ∧ x.idx = 0 ∧ x.desc.isSome then
    .next ((((s.setPat n { x with idle := 64 }).fset (F.PAT_STAT_UNDERRUN n) 1).count (F.PAT_UNDER_COUNT n) 1).raiseAt
      (0x200 + n / 16) 0x0503 0 0 0)
  else .next s

end Sys2Proof.Machine
end

