-- ==== Sys2Proof/Machine/Lanes.lean ====
section
/-! DEFINITION. Serial lanes (chapter 09): words in and out, bring-up, calibration, eye scan and PRBS. -/

namespace Sys2Proof.Machine

/-! ### Lane conditions -/

/-- The lane exists and is configured or an enabled splice lane (R185, R208). -/
def State.laneOn (s : State) (n : Nat) : Bool := s.laneHere n && s.bit (F.LANE_CFG_CONFIGURED n)

/-- The lane runs: in Sleep and deeper states it only listens (R334). -/
def State.laneLive (s : State) (n : Nat) : Bool := s.laneOn n && decide (s.fget F.PWR_STAT_STATE < 2)

def State.pam4 (s : State) (n : Nat) : Bool := s.bit (F.LANE_CFG_MOD n)

/-- The anchor lane under anchor-lane lock (R72). -/
def State.isAnchor (s : State) (n : Nat) : Bool := s.bit F.TURN_CFG_LOCK_SRC && s.fget F.TURN_ANCHOR_LANE == n

/-- The lane runs an RS option (R187); splice lanes use RS(544,514). -/
def State.rsLane (s : State) (n : Nat) : Bool := s.pcs n == 5 || s.pcs n == 6 || s.pcs n == 7

/-- Deskew group width of a lane, the group's first lane, and its lanes (R190). -/
def State.dskWidth (s : State) (n : Nat) : Nat := 2 ^ s.fget (F.LANE_CFG_DSK_W n)
def State.dskFirst (s : State) (n : Nat) : Nat :=
  if s.dskWidth n = 1 then n else n / 16 * 16 + s.fget (F.LANE_CFG_DSK_FIRST n)
def State.dskLanes (s : State) (n : Nat) : List Nat := (List.range (s.dskWidth n)).map (s.dskFirst n + ·)

/-- OPT bits of the lane's record (R185). -/
def State.opt (s : State) (n i : Nat) : Bool := (s.fget (F.LANE_CFG_OPT n)).testBit i

/-- Every stage of the lane's acquisition is reached (R205). -/
def State.acquired (s : State) (n : Nat) : Bool :=
  s.pcsLocked n && (!s.rsLane n || s.bit (F.LANE_STAT_FEC_LOCK n)) && (s.dskWidth n == 1 || s.bit (F.LANE_STAT_ALIGNED n))

/-- Lane aggregates whose range holds the lane and whose condition is `cond` pulse their input (R240). -/
def State.aggregate (s : State) (n cond : Nat) : State :=
  s.each (List.range 32) fun s i =>
    if s.fget (F.TRG_LAGG_COND i) = cond ∧ s.fget (F.TRG_LAGG_FIRST i) ≤ n ∧ n ≤ s.fget (F.TRG_LAGG_LAST i)
    then s.pulse (160 + i) else s

/-! ### PAM4 symbols and PRBS (R187, R194) -/

/-- The symbol of a pair of bits, most significant bit first. Gray mapping as in IEEE 802.3 clause 135. PRESUMED (log 105). -/
def pamSym (gray hi lo : Bool) : Nat :=
  if gray && hi then (if lo then 2 else 3) else 2 * hi.toNat + lo.toNat

/-- The symbols of `n` pairs of wire bits, the first in the low bits, behind the 1/(1 + D) mod 4 precoder, whose last output was
`p`; and its last output. PRESUMED (log 105). -/
def pamSyms (gray pre : Bool) : Nat → BitVec 80 → Nat → BitVec 80 × Nat
  | 0, _, p => (0, p)
  | n + 1, bits, p =>
    let g := pamSym gray (bits.getLsbD 0) (bits.getLsbD 1)
    let y := if pre then (g + 4 - p) % 4 else g
    let (r, q) := pamSyms gray pre n (bits >>> 2) y
    (r <<< 2 ||| BitVec.ofNat 80 y, q)

/-- Exponents of a polynomial code; code 7, which the table does not hold, is taken as Off. DESIGN CHOICE (log 121). -/
def prbsTaps (code : Nat) : List Nat :=
  match code with
  | 1 => [7, 6] | 2 => [9, 5] | 3 => [13, 12, 2, 1] | 4 => [15, 14] | 5 => [23, 18] | 6 => [31, 28] | _ => []

/-- The next bit of the pattern, from a register of the bits before it, the latest in bit 0. -/
def prbsNext (taps : List Nat) (r : W32) : Bool := taps.foldl (fun b t => b ^^ r.getLsbD (t - 1)) false

def prbsShift (r : W32) (b : Bool) : W32 := r <<< 1 ||| (if b then 1 else 0)

/-- The next `n` bits of the generator, the first in bit 0, and the register after them. -/
def prbsGen (taps : List Nat) (inv : Bool) : Nat → W32 → BitVec 80 × W32
  | 0, r => (0, r)
  | n + 1, r =>
    let b := prbsNext taps r
    let (w, r') := prbsGen taps inv n (prbsShift r b)
    (w <<< 1 ||| (if b ^^ inv then 1 else 0), r')

/-- A checker: its register, consecutive matches (64 once they have been reached), mismatches among the last 64 bits (all ones once
32 have been reached), and mismatches in all. -/
structure Checker where
  reg : W32
  matched : Nat
  missed : W64
  errs : Nat
  deriving DecidableEq, Repr

/-- Ones of a word. -/
def ones64 (x : W64) : Nat := ((List.range 64).filter x.getLsbD).length

/-- The checker over `n` received bits, the first in bit 0. A locked checker's register runs on its own pattern, an unlocked one takes
the received bits. DEDUCED (log 30). -/
def prbsCheck (taps : List Nat) (locked inv : Bool) : Nat → BitVec 80 → Checker → Checker
  | 0, _, c => c
  | n + 1, w, c =>
    let got := w.getLsbD 0 ^^ inv
    let want := prbsNext taps c.reg
    let bad := got ^^ want
    let window : W64 := c.missed <<< 1 ||| (if bad then 1 else 0)
    prbsCheck taps locked inv n (w >>> 1) {
      reg := prbsShift c.reg (if locked then want else got)
      matched := if 64 ≤ c.matched then 64 else if bad then 0 else c.matched + 1
      missed := if 32 ≤ ones64 c.missed ∨ 32 ≤ ones64 window then BitVec.allOnes 64 else window
      errs := c.errs + bad.toNat }

/-- The checker takes the wire bits of a receive word (R194). -/
def State.prbsWord (s : State) (n : Nat) (bits : BitVec 80) : State :=
  let taps := prbsTaps (s.fget (F.LANE_PRBS_CHK_POLY n))
  let locked := s.bit (F.LANE_PRBS_CHK_LOCK n)
  if taps = [] then s
  else
    let x := s.lane n
    let w := wireBits (s.pcs n)
    let c := prbsCheck taps locked (s.bit (F.LANE_PRBS_CHK_INV n)) w bits ⟨x.chk, x.matched, x.missed, 0⟩
    let s1 := s.setLane n { x with
      chk := c.reg, matched := if locked then 0 else c.matched, missed := if locked then c.missed else 0 }
    if locked then
      (s1.wset (W.LANE_PRBS_BITS_COUNT n) (s1.wget (W.LANE_PRBS_BITS_COUNT n) + w)).count (F.LANE_PRBS_ERR_COUNT n) c.errs
    else s1

/-- 64 consecutive bits have matched; 32 of 64 bits have mismatched (R194). -/
def State.chkMay (s : State) (n : Nat) (locked : Bool) : Bool :=
  let x := s.lane n
  s.fget (F.LANE_PRBS_CHK_POLY n) != 0 && s.bit (F.LANE_PRBS_CHK_LOCK n) != locked
    && (if locked then decide (64 ≤ x.matched) else decide (32 ≤ ones64 x.missed))

/-- The checker locks, or loses lock and starts again (R194). -/
def State.chkLock (s : State) (n : Nat) (locked : Bool) : State :=
  if s.laneOn n && s.chkMay n locked then
    (s.setLane n { s.lane n with matched := 0, missed := 0 }).setBit (F.LANE_PRBS_CHK_LOCK n) locked
  else s

/-! ### Receive words (R171, R190, R191, R202, R218) -/

/-- The grid's origin lies at line time `t0`: the next boundary falls there (R73, R89, R90). -/
def State.gridAt (s : State) (t0 : Nat) : State :=
  let s1 := s.wset W.TURN_T0_T0 t0
  { s1 with core := { s1.core with anchorT0 := none, origin := s1.core.boundary } }

/-- T0 is placed at the count of the anchor word that has just arrived; after a flywheel the words of the open window, and the first
line time of an ACTIVE device's turn 0, follow the change of line time (R73, R79, R89, R299). -/
def State.placeT0 (s : State) (t0 : Nat) : State :=
  let old := s.lineTime
  let s1 := (s.gridAt t0).fset F.TURN_HOLD_SRC_LOCK 0
  if s1.bit F.TURN_STAT_FLYWHEEL then
    ({ (s1.fset F.TURN_STAT_FLYWHEEL 0).fset F.TURN_STAT_RELOCKED 1 with
      splice := { s1.splice with startAt := s1.splice.startAt + ((t0 : Int) - old) } }).rebin old ((t0 : Int) - old)
  else s1

/-- The rate of the anchor lane against device time, over the words since `rateAt`: once 1 ms has passed, ANCHOR_FAST and PPM show
it, rounded down, and the next measurement starts (R92). That measurements follow one another from PCS lock on: DEDUCED
(log 65). -/
def State.anchorRate (s : State) : State :=
  let n := s.fget F.TURN_ANCHOR_LANE
  let dt := s.time.now - s.core.rateAt
  let words := s.core.rateWords + 1
  if dt < 65536000000 then { s with core := { s.core with rateWords := words } }
  else
    let measured := words * wireBits (s.pcs n) * 65536000000 * 1000000
    let nominal := max 1 (s.kbps n) * dt
    let ppm : Int := (measured / nominal : Nat) - 1000000
    let s1 := { s with core := { s.core with rateAt := s.time.now, rateWords := 0 } }
    (s1.setBit F.TURN_STAT_ANCHOR_FAST (decide (nominal * 1000300 < measured))).fset F.TURN_ANCHOR_PPM
      (BitVec.ofInt 16 (max (-32768) (min 32767 ppm))).toNat

/-- A word of the anchor lane: counted, and T0 if it is the first one late enough (R72, R73, R89). -/
def State.anchorWord (s : State) : State :=
  let c := s.core.anchor
  let s1 := { s with core := { s.core with anchor := c + 1 } }.anchorRate
  match s.core.anchorT0 with
  | some t => if t ≤ s.time.now then s1.placeT0 c else s1
  | none => s1

/-- 10 µs in 2^-16 ns. -/
def tenMicro : Nat := 655360000

/-- The anchor lane is locked: its count starts with the next word (R72), and where the image waits for it T0 follows 10 µs later
(R73). -/
def State.anchorLocked (s : State) : State :=
  let s1 := { s with core := { s.core with anchor := 0, rateAt := s.time.now, rateWords := 0 } }
  if s.bit F.TURN_STAT_LOCK_WAIT then
    { s1 with
      core := { s1.core with anchorT0 := some (s.time.now + tenMicro) }
      splice := { s1.splice with startAt := 0 } }.fset F.TURN_STAT_LOCK_WAIT 0
  else s1

/-- The count of the flywheel's first word at or after device time `t` (R72, R88). -/
def State.flyFirst (s : State) (t : Nat) : Nat :=
  let n := s.fget F.TURN_ANCHOR_LANE
  let w := 65536000000 * wireBits (s.pcs n)
  s.core.flyCount + (((t : Int) - s.core.flyAt).toNat * s.kbps n + (w - 1)) / w

/-- The anchor loses signal or PCS lock: flywheel operation (R88), which an entry to Sleep takes without telling (R334). A first T0
that waits for its word is placed on the flywheel's count, which stands for the anchor's; after a RELOCK the flywheel goes on, with
its hold until another RELOCK. DEDUCED (log 100). -/
def State.flywheel (s : State) (tell : Bool) : State :=
  let told := fun (s : State) => if tell then s.raiseAt 0x280 0x0403 0 0 0 else s
  if !s.bit F.TURN_CFG_LOCK_SRC || !s.image.committed || s.bit F.TURN_STAT_LOCK_WAIT then s
  else if s.bit F.TURN_STAT_FLYWHEEL then told { s with core := { s.core with anchorT0 := none } }
  else
    let s1 := told ({ s with core := { s.core with flyCount := s.core.anchor - 1, flyAt := s.time.now } }.fset F.TURN_STAT_FLYWHEEL 1)
    match s.core.anchorT0 with
    | some t => s1.gridAt (s1.flyFirst t)
    | none => s1

/-- The same with ANCHOR_LOST (R88). -/
def State.loseAnchor (s : State) : State := s.flywheel true

/-- The codeword counters of an RS group, on the group's first lane (R191). -/
def State.codeword (s : State) (n : Nat) (w : RxWord) : State :=
  let first := s.dskFirst n
  if !w.cwEnd || !s.rsLane n then s
  else
    let s1 := s.wset (W.LANE_FEC_CW_COUNT first) (s.wget (W.LANE_FEC_CW_COUNT first) + 1)
    let s2 := s1.count (F.LANE_FEC_CORR_COUNT first) w.corr.toNat
    if w.fecMark then s2.count (F.LANE_FEC_UNCORR_COUNT first) 1 else s2

/-- The latency terms are refreshed every 256 words (R202). -/
def State.latencyTerms (s : State) (n : Nat) (w : RxWord) : State :=
  let x := s.lane n
  if x.words + 1 < 256 then s.setLane n { x with words := x.words + 1 }
  else ((s.setLane n { x with words := 0 }).fset (F.LANE_RXLAT_GB_TERM n) w.gb.toNat).fset
    (F.LANE_RXLAT_CDR_TERM n) w.cdr.toNat

/-- Near-end loopback: the receiver takes the lane's own transmit signal (R193). What the PCS makes of pattern bits, and the wire bits
of an encoded word, are the standards' (R187): free values (log 106). -/
def State.loopedWord (s : State) (n : Nat) (w : RxWord) : State × RxWord :=
  if !s.bit (F.LANE_CTL_NE_LPBK n) then (s, w)
  else
    let x := s.lane n
    let clean := { w with codeErr := false, fecMark := false, corr := 0, rcvd := none, start := false }
    match x.tx with
    | none => (s, { clean with valid := false, wire := 0 })
    | some t =>
      let wire := x.txBits.getD (s.freeBits 80)
      let s1 := if x.txBits.isSome then s else s.drawn
      if x.txSrc = 3 ∧ s.pcs n ≠ 0 then (s1.drawn, { clean with data := s1.freeBits 64, wire })
      else (s1, { clean with data := t.data, ctlb := t.ctlb, valid := t.valid && w.valid, start := x.txStart.isSome, wire })

/-- CTLB of the lane's coding (R171). -/
def ctlMask (pcs : Nat) : BitVec 8 := if pcs = 1 then 255 else if pcs = 0 ∨ pcs = 4 then 0 else 1

/-- The word as the lane's PCS and FEC deliver it (R171, R187, R191, R217): a raw lane's data are its wire bits, with FEC_MARK_ONLY an
RS lane's are those received, and nothing is corrected. -/
def State.delivered (s : State) (n : Nat) (w : RxWord) : RxWord :=
  let v := { w with data := if s.pcs n = 0 then w.wire.setWidth 64 else w.data, ctlb := w.ctlb &&& ctlMask (s.pcs n), start := w.start && s.fget (F.LANE_CFG_TSPT n) != 0 }
  if s.rsLane n && s.opt n 4 then { v with data := v.rcvd.getD v.data, corr := 0 } else v

/-- Bits enter the far-end loopback's buffer of 128: each that finds it full slips one bit, the oldest, out of it (R193). Also whether
one did. -/
def feIn : List Bool → List Bool → List Bool × Bool
  | l, [] => (l, false)
  | l, b :: bs =>
    let full := decide (128 ≤ l.length)
    let (r, slipped) := feIn (if full then l.drop 1 ++ [b] else l ++ [b]) bs
    (r, slipped || full)

/-- `n` bits leave the buffer: where it holds none, one bit slips and the last bit sent goes out again (R193). Also what is left and
whether a bit slipped. -/
def feOut : Nat → Bool → List Bool → List Bool × List Bool × Bool
  | 0, _, l => ([], l, false)
  | n + 1, last, l =>
    let b := l.headD last
    let (r, left, slipped) := feOut n b (l.drop 1)
    (b :: r, left, slipped || l.isEmpty)

/-- FE_SLIP where a bit slipped. -/
def State.feMark (s : State) (n : Nat) (slipped : Bool) : State := if slipped then s.fset (F.LANE_STAT_FE_SLIP n) 1 else s

/-- The far-end loopback's buffer takes the recovered bits (R193). -/
def State.feTake (s : State) (n : Nat) (w : RxWord) : State :=
  if s.bit (F.LANE_CTL_FE_LPBK n) && !s.bit (F.LANE_CTL_NE_LPBK n) && s.bit (F.LANE_STAT_CDR_LOCK n) then
    let (l, slipped) := feIn (s.lane n).fe ((List.range (wireBits (s.pcs n))).map w.wire.getLsbD)
    (s.setLane n { s.lane n with fe := l }).feMark n slipped
  else s

/-- Units of R198 in wire bits, by PCS option and group width. -/
def calUnit (pcs width : Nat) : Nat :=
  match pcs with
  | 0 => 64 | 1 => 80 | 2 => 66 | 3 => 130 | 4 => 2048 | 5 => 5280 / width | _ => 5440 / width

/-- The count of wire bits goes up by those of a word (R199); `unitAt` follows it to the start of the unit in progress. -/
def State.countBits (s : State) (n : Nat) : State :=
  let x := s.lane n
  let c := x.wireBits + BitVec.ofNat 40 (wireBits (s.pcs n))
  let u := calUnit (s.pcs n) (s.dskWidth n)
  if s.bit (F.LANE_STAT_CDR_LOCK n) then
    s.setLane n { x with wireBits := c, unitAt := x.unitAt.map fun a =>
      if (c - a).toNat < 2 ^ 39 then a + BitVec.ofNat 40 ((c - a).toNat / u * u) else a }
  else s

/-- Aggregates see the conditions that the word presents (R240). -/
def State.wordConditions (s : State) (n : Nat) (w : RxWord) : State :=
  let s1 := if w.valid && w.codeErr then s.aggregate n 1 else s
  let s2 := if w.valid && w.fecMark then s1.aggregate n 2 else s1
  let s3 := if s.pcsLocked n then s2 else s2.aggregate n 3
  if s.bit (F.LANE_STAT_SIG_DET n) then s3 else s3.aggregate n 4

/-- A receive word reaches the lane word interface; VALID is 0 until the lane's acquisition is complete (R205). -/
def State.rxWord (s : State) (n : Nat) (w0 : RxWord) : State :=
  if !s.laneLive n || !s.bit (F.LANE_CTL_EN n) || s.bit (F.LANE_STAT_SHUTTING n) then s
  else
    let (s0, w1) := (s.writeMarks).loopedWord n w0
    let w2 := s.delivered n w1
    let w := { w2 with valid := w2.valid && s.acquired n }
    let s1 := s0.setLane n { s0.lane n with
      rx := some w, rxts := if w.valid && w.start then s.rxCorrect n w.rawStart else (s.lane n).rxts }
    let s2 := (s1.latencyTerms n w).countBits n
    let s3 := if w.valid && w.codeErr then s2.count (F.LANE_CODE_ERR_COUNT n) 1 else s2
    let s4 := (s3.wordConditions n w).codeword n w
    let s5 := ((s4.prbsWord n w.wire).feTake n w)
    let s6 := if n < 1024 then s5.capWord n w else s5
    if w2.valid && s.pcsLocked n && s.isAnchor n then s6.anchorWord else s6

/-- The wake pattern (R336). -/
def wakePattern : W32 := 0x3C5AA5C3

/-- One bit reaches the wake detector: 64 repetitions of the pattern are 2,016 bits in a row that each equal the bit 32 before, at whose
end the last 32 bits are the pattern (R336). -/
def Power.patBit (p : Power) (b : Bool) : Power :=
  let win := p.patWin <<< 1 ||| (BitVec.ofBool b).setWidth 32
  let run := if p.patWin.getLsbD 31 == b then p.patRun + 1 else 0
  { p with patWin := win, patRun := run, patHit := p.patHit || (win == wakePattern && decide (2016 ≤ run)) }

/-- The wake detector runs on a port lane: wake source 1 is enabled, the device is in Idle, Sleep or Deep sleep, and PWR_PAT names the lane (R335, R336). -/
def State.detects (s : State) (n : Nat) : Bool :=
  n < 1024 && s.laneHere n && !s.inReset && s.fget F.PWR_PAT_LANE == n && (s.fget F.PWR_WAKE_EN_EN).testBit 1
    && decide (1 ≤ s.fget F.PWR_STAT_STATE) && decide (s.fget F.PWR_STAT_STATE < 4)

/-- The detector takes the bits of a word as they arrive, 64 of them, without PCS. DEDUCED (log 132). -/
def State.wakeBits (s : State) (n : Nat) (w : RxWord) : State :=
  if s.detects n then { s with power := ((List.range 64).map w.wire.getLsbD).foldl Power.patBit s.power } else s

def execLaneRxWord (lane : LaneId) (w : RxWord) (s : State) : Host.Outcome State Fault Refusal :=
  .next ((s.rxWord lane.toNat w).wakeBits lane.toNat w)

/-! ### Transmit words (R172, R192, R193, R219) -/

/-- All port transmitters are in electrical idle under the safe state's IDLE policy (R318). -/
def State.safeIdle (s : State) (n : Nat) : Bool := n < 1024 && s.bit F.FLT_STAT_SAFE && s.bit F.FLT_POLICY_SAFE_TX

/-- The transmit timestamp of a word that requests one (R219): of its start pattern, where the lane's record selects one (R217). -/
def State.stampWord (s : State) (n : Nat) (w : TxWord) : State :=
  if w.tsreq then
    let p := txPipe (s.pcs n)
    let start := (s.lane n).txStart
    s.drawn.txqPush { tag := w.tstag, lane := n, nostart := start.isNone
                      ts := s.instant + pipeUnits p.1 (p.2 + start.getD 0) (s.kbps n) }
  else s

/-- Where in the lane's transmit word the first bit that its record's TSPT selects leaves, in wire bits (R217, R219): in a word of the
standards' coding it may follow from the word before. -/
def State.startIn (s : State) (n : Nat) (w : TxWord) : Option Nat :=
  let tspt := s.fget (F.LANE_CFG_TSPT n)
  let before := match (s.lane n).tx with
    | some v => if v.valid then some (v.data, v.ctlb) else none
    | none => none
  let b := (Config.startBit tspt (s.pcs n) before (w.data, w.ctlb)).toNat
  if tspt = 0 ∨ !w.valid ∨ wireBits (s.pcs n) ≤ b then none else some b

/-- What the transmitter sends: a word, or electrical idle, with its wire bits where the spec gives them, and a PAM4 lane's symbols
(R187, R192, R194). -/
def State.emit (s : State) (n : Nat) (w : Option TxWord) (bits : Option (BitVec 80)) : State :=
  let x := { s.lane n with txStart := w.bind (s.startIn n) }
  let syms := bits.map fun b => pamSyms (s.opt n 0) (s.opt n 1) (wireBits (s.pcs n) / 2) b x.pre
  if s.pam4 n then
    s.setLane n { x with tx := w, txBits := bits, txSyms := syms.map (·.1), pre := (syms.map (·.2)).getD x.pre }
  else s.setLane n { x with tx := w, txBits := bits, txSyms := none }

/-- The wire bits of a word that the PCS passes on: a raw lane's are its data, those of a coded one the standards' (R187). -/
def State.wordBits (s : State) (n : Nat) (w : TxWord) : Option (BitVec 80) :=
  if s.pcs n = 0 ∧ w.valid then some (w.data.setWidth 80) else none

/-- The number in a list of bits, the first in bit 0. -/
def bitsNum : List Bool → Nat
  | [] => 0
  | b :: bs => b.toNat + 2 * bitsNum bs

/-- Far-end loopback: the transmitter takes a word's bits from the buffer (R193). Which bit it sent last, where the model does not
hold the wire bits of the word before, is open: free. -/
def State.feGive (s : State) (n : Nat) : State :=
  let x := s.lane n
  let w := wireBits (s.pcs n)
  let last := match x.txBits with
    | some b => b.getLsbD (w - 1)
    | none => (s.freeBits 1).getLsbD 0
  let (sent, left, slipped) := feOut w last x.fe
  let bits : BitVec 80 := BitVec.ofNat 80 (bitsNum sent)
  let s1 := if x.txBits.isSome then s else s.drawn
  ((s1.setLane n { x with fe := left }).feMark n slipped).emit n (some { data := bits.setWidth 64 }) (some bits)

/-- The PRBS generator makes a word of pattern bits (R194); with GEN_POLY off what it sends is open: free. -/
def State.prbsSend (s : State) (n : Nat) : State :=
  let taps := prbsTaps (s.fget (F.LANE_PRBS_GEN_POLY n))
  if taps = [] then s.drawn.emit n (some { data := s.freeBits 64 }) none
  else
    let (d, r) := prbsGen taps (s.bit (F.LANE_PRBS_GEN_INV n)) (wireBits (s.pcs n)) (s.lane n).gen
    (s.setLane n { s.lane n with gen := r }).emit n (some { data := d.setWidth 64 }) (some d)

/-- The fabric's transmit word: the idle word from a fabric without a core clock, and while the macrocell of its VALID lies in an
isolated block (R170, R172, R182). -/
def State.fabricWord (s : State) (n : Nat) (w : TxWord) : TxWord :=
  if !s.fabricOn || s.cutOff s.edge.die.txValid n then idleWord else w

/-- The word of the selected source leaves: edge fabric, pattern channel or PRBS generator (R192). -/
def State.txSelect (s : State) (n : Nat) (v : TxWord) : State :=
  let w := s.fabricWord n v
  match (s.lane n).txSrc with
  | 1 => (s.emit n (some w) (s.wordBits n w)).stampWord n w
  | 2 =>
    let (s1, v) := s.patWord n w
    (s1.emit n (some v) (s1.wordBits n v)).stampWord n v
  | 3 => s.prbsSend n
  | _ => s.emit n none none

/-- The transmitter is out of electrical idle: no load goes on (R284), and the lane is enabled. -/
def State.txOn (s : State) (n : Nat) : Bool :=
  s.image.committed && s.bit (F.LANE_CTL_EN n) && !s.bit (F.LANE_STAT_SHUTTING n)

/-- A transmit word leaves: the word boundary at which a change of TX_SRC takes effect (R192). A splice lane sends the Iluben link's. -/
def State.txWord (s : State) (n : Nat) (w : TxWord) : State :=
  if !s.laneLive n then s
  else
    let on := s.txOn n
    let s0 := s.setLane n { s.lane n with txSrc := if on && n < 1024 then s.fget (F.LANE_CTL_TX_SRC n) else 0 }
    if !on || s.safeIdle n then s0.emit n none none
    else if s.bit (F.LANE_CTL_FE_LPBK n) && !s.bit (F.LANE_CTL_NE_LPBK n) then s0.feGive n
    else if 1024 ≤ n then s0.emit n (some w) none
    else s0.txSelect n w

def execLaneTxWord (lane : LaneId) (w : TxWord) (s : State) : Host.Outcome State Fault Refusal :=
  .next (s.watch [8, 9] fun s => s.txWord lane.toNat w)

/-! ### Calibration (R197–R201) -/

/-- Value fields of a selector in the pinned, shadow and applied registers (R208). -/
def calPinned (n : Nat) : CalSel → Fld
  | .ofs0 => F.LANE_CAL_OFS_OFS_0 n | .ofs1 => F.LANE_CAL_OFS_OFS_1 n | .ofs2 => F.LANE_CAL_OFS_OFS_2 n
  | .thr0 => F.LANE_CAL_THR_THR_0 n | .thr2 => F.LANE_CAL_THR_THR_2 n
def calShadow (n : Nat) : CalSel → Fld
  | .ofs0 => F.LANE_CAL_SH_OFS_OFS_0 n | .ofs1 => F.LANE_CAL_SH_OFS_OFS_1 n | .ofs2 => F.LANE_CAL_SH_OFS_OFS_2 n
  | .thr0 => F.LANE_CAL_SH_THR_THR_0 n | .thr2 => F.LANE_CAL_SH_THR_THR_2 n
def calApplied (n : Nat) : CalSel → Fld
  | .ofs0 => F.LANE_CAL_AP_OFS_OFS_0 n | .ofs1 => F.LANE_CAL_AP_OFS_OFS_1 n | .ofs2 => F.LANE_CAL_AP_OFS_OFS_2 n
  | .thr0 => F.LANE_CAL_AP_THR_THR_0 n | .thr2 => F.LANE_CAL_AP_THR_THR_2 n

/-- The selector is a threshold; SEL of its marks (R199). -/
def calIsThr : CalSel → Bool
  | .thr0 => true | .thr2 => true | _ => false
def calCode : CalSel → Nat
  | .ofs0 => 0 | .ofs1 => 1 | .ofs2 => 2 | .thr0 => 0 | .thr2 => 2

/-- Offsets before thresholds, each in increasing SEL order (R199). -/
def calAll : List CalSel := [.ofs0, .ofs1, .ofs2, .thr0, .thr2]

/-- The loop acts on the selector: NRZ uses slicer 1 only and has no thresholds (R197). -/
def State.calActive (s : State) (n : Nat) (c : CalSel) : Bool := s.pam4 n || c == .ofs1

def State.calPinOn (s : State) (n : Nat) (c : CalSel) : Bool :=
  if calIsThr c then s.bit (F.LANE_CAL_PIN_PIN_THR n) else s.bit (F.LANE_CAL_PIN_PIN_OFS n)

/-- A two's complement field. -/
def State.sget (s : State) (f : Fld) : Int := (BitVec.ofNat f.w (s.fget f)).toInt
def State.sset (s : State) (f : Fld) (v : Int) : State := s.fset f (BitVec.ofInt f.w v).toNat

/-- Largest |shadow − pinned| over the pinned offsets or thresholds (R201). -/
def State.calDistance (s : State) (n : Nat) (thr : Bool) : Nat :=
  (calAll.filter (fun c => calIsThr c == thr && s.calPinOn n c)).foldl
    (fun d c => max d (s.sget (calShadow n c) - s.sget (calPinned n c)).natAbs) 0

/-- The distances are shown, and a transition to conflict raises CAL_POLICY_CONFLICT (R201). -/
def State.calConflict (s : State) (n : Nat) : State :=
  let dO := s.calDistance n false
  let dT := s.calDistance n true
  let s1 := (s.fset (F.LANE_CAL_DIST_OFS n) dO).fset (F.LANE_CAL_DIST_THR n) dT
  let lO := s.fget (F.LANE_CAL_LIMIT_OFS_LIM n)
  let lT := s.fget (F.LANE_CAL_LIMIT_THR_LIM n)
  let bad := decide (lO < dO ∧ lO ≠ 127) || decide (lT < dT ∧ lT ≠ 255)
  let was := s.bit (F.LANE_STAT_CAL_POLICY_CONFLICT n)
  let s2 := s1.setBit (F.LANE_STAT_CAL_POLICY_CONFLICT n) bad
  if bad && !was then s2.raiseAt (0x80 + n / 16) 0x0401 0 0 n else s2

/-- A cal mark record (R199). -/
def calMark (src : Nat) (c : CalSel) (old new : Int) (wireBit : BitVec 40) (ts : W64) : W128 :=
  BitVec.ofNat 128 (src + calCode c * 16 + (BitVec.ofInt 8 old).toNat * 2 ^ 8 + (BitVec.ofInt 8 new).toNat * 2 ^ 16
    + wireBit.toNat * 2 ^ 24 + ts.toNat * 2 ^ 64)

/-- A cal mark is counted and written into the capture stream (R198), behind the time marks that are owed (R225). -/
def State.emitCal (s : State) (n : Nat) (r : W128) : State :=
  let s1 := (if s.time.marks = [] then s else s.writeMarks).count (F.LANE_CAL_MARKS_COUNT n) 1
  if n < 1024 then s1.capRecord n r else s1

/-- A change of an applied value: at once before PCS lock, else it waits for the application boundary (R197, R198). A loop's step
while the loop value waits after an unpinning moves that value: it is still the unpinned one (R200). -/
def State.calChange (s : State) (n : Nat) (c : CalChange) : State :=
  if s.pcsLocked n then
    let x := s.lane n
    let src := if c.src ≤ 1 ∧ x.cal.any (fun d => d.sel == c.sel && d.src == 3) then 3 else c.src
    s.setLane n { x with cal := x.cal.filter (fun d => d.sel != c.sel) ++ [{ c with src }] }
  else s.sset (calApplied n c.sel) c.new

/-- PCS lock is lost: no boundary follows, and the changes that wait take effect as those of an unlocked lane do, without marks
(R197). -/
def State.calUnlock (s : State) (n : Nat) : State :=
  let x := s.lane n
  (s.setLane n { x with cal := [], unitAt := none }).each x.cal fun s c => s.sset (calApplied n c.sel) c.new

/-- A micro-step during a scan point disturbs it once (R204). -/
def State.disturb (s : State) (n : Nat) : State :=
  let x := s.lane n
  if s.bit (F.LANE_ES_STAT_BUSY n) && !x.disturbed then
    (s.setLane n { x with disturbed := true }).count (F.LANE_ES_STAT_DISTURBED n) 1
  else s

/-- A calibration loop moves a value by one code within its range, or only the shadow while it is pinned (R197, R200). -/
def State.calStep (s : State) (n : Nat) (c : CalSel) (up : Bool) : State :=
  let top : Int := if calIsThr c then 127 else 63
  let old := s.sget (calShadow n c)
  let new := max (-top) (min top (if up then old + 1 else old - 1))
  if !s.laneLive n || !s.bit (F.LANE_CTL_EN n) || !s.calActive n c || new = old then s
  else
    let s1 := s.sset (calShadow n c) new
    if s.calPinOn n c then s1.calConflict n
    else
      let s2 := s1.calChange n { sel := c, new, src := if calIsThr c then 1 else 0 }
      if s.pcsLocked n then s2 else s2.disturb n

/-- One waiting change takes effect and emits its mark (R198). -/
def State.calApplyOne (s : State) (n : Nat) (c : CalChange) (wireBit : BitVec 40) (ts : W64) : State :=
  let old := s.sget (calApplied n c.sel)
  if old = c.new then s
  else
    let s1 := (s.sset (calApplied n c.sel) c.new).emitCal n (calMark c.src c.sel old c.new wireBit ts)
    if c.src ≤ 1 then s1.disturb n else s1

/-- `wireBit` is the first bit of a unit, at or after the bits delivered so far (R198, R199). Where a unit starts the lane knows from
its PCS lock, in the RS options from FEC lock. DEDUCED (log 107). -/
def State.onUnit (s : State) (n : Nat) (wireBit : BitVec 40) : Bool :=
  let x := s.lane n
  decide ((wireBit - x.wireBits).toNat < 2 ^ 39) && (match x.unitAt with
    | some a => (wireBit - a).toNat % calUnit (s.pcs n) (s.dskWidth n) == 0
    | none => true)

/-- The application boundary: the waiting changes take effect, offsets first; the raw timestamp of the bit is corrected as receive
timestamps are (R198, R199). -/
def State.calBoundary (s : State) (n : Nat) (wireBit : BitVec 40) (ts : W64) : State :=
  let x := s.lane n
  let todo := calAll.flatMap (fun c => x.cal.filter (fun d => d.sel == c))
  if s.laneHere n && s.pcsLocked n && s.onUnit n wireBit then
    (s.setLane n { x with cal := [] }).each todo fun s c => s.calApplyOne n c wireBit (s.rxCorrect n ts)
  else s

/-- The pinned values of a kind are applied, or the shadow values after unpinning (R200). -/
def State.pinChange (s : State) (n : Nat) (thr pin : Bool) : State :=
  s.each (calAll.filter (fun c => calIsThr c == thr)) fun s c =>
    if pin then s.calChange n { sel := c, new := s.sget (calPinned n c), src := 2 }
    else s.calChange n { sel := c, new := s.sget (calShadow n c), src := 3 }

/-- A write of LANE_CAL_PIN (R200, R201). -/
def State.calPin (s : State) (n : Nat) (v : BitVec 2) : State :=
  let o := s.bit (F.LANE_CAL_PIN_PIN_OFS n)
  let t := s.bit (F.LANE_CAL_PIN_PIN_THR n)
  let o' := v.getLsbD 0
  let t' := v.getLsbD 1
  let s1 := (s.setBit (F.LANE_CAL_PIN_PIN_OFS n) o').setBit (F.LANE_CAL_PIN_PIN_THR n) t'
  let s2 := if o != o' then s1.pinChange n false o' else s1
  let s3 := if t != t' then s2.pinChange n true t' else s2
  s3.calConflict n

def execCalMicroStep (lane : LaneId) (sel : CalSel) (up : Bool) (s : State) : Host.Outcome State Fault Refusal :=
  .next (s.calStep lane.toNat sel up)
def execCalApply (lane : LaneId) (wireBit : BitVec 40) (ts : W64) (s : State) : Host.Outcome State Fault Refusal :=
  .next (s.calBoundary lane.toNat wireBit ts)
def execCalPin (lane : LaneId) (v : BitVec 2) (s : State) : Host.Outcome State Fault Refusal :=
  .next (s.hostCmd (R.LANE_CAL_PIN lane.toNat) 3 (v.setWidth 32) fun s => (if s.laneHere lane.toNat then s.calPin lane.toNat v else s))

/-! ### Eye scan (R203, R204) -/

/-- Voltage code of a row (R203); the reserved STRIDE code 3 is taken as 2 ^ 3. DESIGN CHOICE (log 121). -/
def State.rowVolt (s : State) (n r : Nat) : Int :=
  s.sget (F.LANE_ES_CTL_V_START n) + r * (2 ^ s.fget (F.LANE_ES_CTL_STRIDE n) : Nat)

/-- The points of the scan, row by row, without rows whose voltage code leaves ±127 (R203). -/
def State.scanPoints (s : State) (n : Nat) : List Nat :=
  (List.range 4096).filter fun i => (s.rowVolt n (i / 64)).natAbs ≤ 127

/-- Result code of a point with `m` mismatches (R204). -/
def eyeCode (m : Nat) : Nat := if m = 0 then 0 else min 254 (Nat.log2 (m ^ 8) + 1)

/-- The next point of the scan, or its end (R203, R204). -/
def State.scanTo (s : State) (n : Nat) (next : Option Nat) : State :=
  match next with
  | some i => s.setLane n { s.lane n with point := i, disturbed := false }
  | none => (s.fset (F.LANE_ES_STAT_BUSY n) 0).fset (F.LANE_ES_STAT_DONE n) 1

def State.scanStart (s : State) (n : Nat) : State :=
  if s.bit (F.LANE_ES_STAT_BUSY n) then s
  else if !s.bit (F.LANE_STAT_CDR_LOCK n) then s.fset (F.LANE_ES_STAT_ABORTED n) 1
  else
    let s1 := ((s.setLane n { s.lane n with eye := [] }).fset (F.LANE_ES_STAT_POINTS n) 0).fset
      (F.LANE_ES_STAT_DISTURBED n) 0
    (s1.fset (F.LANE_ES_STAT_BUSY n) 1).scanTo n (s1.scanPoints n).head?

def State.scanAbort (s : State) (n : Nat) : State :=
  if s.bit (F.LANE_ES_STAT_BUSY n) then (s.fset (F.LANE_ES_STAT_BUSY n) 0).fset (F.LANE_ES_STAT_ABORTED n) 1 else s

def State.scanPoint (s : State) (n m : Nat) : State :=
  if !s.bit (F.LANE_ES_STAT_BUSY n) then s
  else
    let x := s.lane n
    let s1 := (s.setLane n { x with eye := SMap.put x.eye x.point (eyeCode m) }).count (F.LANE_ES_STAT_POINTS n) 1
    s1.scanTo n ((s.scanPoints n).find? (fun i => x.point < i))

def execEyeScanStart (lane : LaneId) (s : State) : Host.Outcome State Fault Refusal :=
  .next (s.hostCmd (R.LANE_ES_CTL lane.toNat) 1 1 fun s => (if s.laneHere lane.toNat then s.scanStart lane.toNat else s))
def execEyeScanAbort (lane : LaneId) (s : State) : Host.Outcome State Fault Refusal :=
  .next (s.hostCmd (R.LANE_ES_CTL lane.toNat) 2 2 fun s => (if s.laneHere lane.toNat then s.scanAbort lane.toNat else s))
def execEyeScanPoint (lane : LaneId) (mismatches : Nat) (s : State) : Host.Outcome State Fault Refusal :=
  .next (s.scanPoint lane.toNat mismatches)

/-! ### PRBS checker (R194) -/

def State.chkClear (s : State) (n : Nat) : State :=
  (s.fset (F.LANE_PRBS_ERR_COUNT n) 0).wset (W.LANE_PRBS_BITS_COUNT n) 0

def execChkClr (lane : LaneId) (s : State) : Host.Outcome State Fault Refusal :=
  .next (s.hostCmd (R.LANE_PRBS lane.toNat) 0x200 0x200 fun s => (if s.laneHere lane.toNat then s.chkClear lane.toNat else s))
def execChkLock (lane : LaneId) (locked : Bool) (s : State) : Host.Outcome State Fault Refusal :=
  .next (s.chkLock lane.toNat locked)

/-! ### Bring-up, loss and shutdown (R190, R198, R205, R206) -/

/-- At PCS lock the stream states the starting values (R198). -/
def State.lockMarks (s : State) (n : Nat) (wireBit : BitVec 40) (ts : W64) : State :=
  s.each (calAll.filter (s.calActive n)) fun s c =>
    let v := s.sget (calApplied n c)
    s.emitCal n (calMark 4 c v v wireBit (s.rxCorrect n ts))

/-- A unit of R198 starts at `wireBit`. -/
def State.unitStart (s : State) (n : Nat) (wireBit : BitVec 40) : State := s.setLane n { s.lane n with unitAt := some wireBit }

/-- The first bit of the next unit lies at `wireBit`: less than a unit ahead of the bits counted so far (R198, R199). -/
def State.nextUnit (s : State) (n : Nat) (wireBit : BitVec 40) : Bool :=
  decide ((wireBit - (s.lane n).wireBits).toNat < calUnit (s.pcs n) (s.dskWidth n))

/-- PCS lock: the marks of R198, and the anchor's count starts (R72, R73). -/
def State.pcsLockNow (s : State) (n : Nat) (wireBit : BitVec 40) (ts : W64) : State :=
  let s0 := s.lockMarks n wireBit ts
  let s1 := if s.rsLane n then s0 else s0.unitStart n wireBit
  if s.isAnchor n then s1.anchorLocked else s1

/-- The PLLs of the lane's set are locked: the reference measured at the commit fits a nominal frequency (R405). -/
def State.pllLocked (s : State) (n : Nat) : Bool := (SMap.find s.image.lref (n / 16)).isSome

/-- The alignment of a lane's group is lost, and each of its lanes measures its lag anew (R190). -/
def State.dskLose (s : State) (n : Nat) : State :=
  s.each (s.dskLanes n) fun s m => (s.fset (F.LANE_STAT_ALIGNED m) 0).setLane m { s.lane m with skew := none }

/-- Once every lane of the group has met its marker the group aligns, each lane delayed by its lag behind the earliest; with a skew
above 63 words it does not (R190). Each lane of it shows DSK_FAIL then. DEDUCED (log 122). -/
def State.dskAlign (s : State) (n : Nat) : State :=
  let g := s.dskLanes n
  let at_ := g.filterMap fun m => (s.lane m).skew
  let first := at_.foldl min 127
  if at_.length < g.length ∨ s.bit (F.LANE_STAT_ALIGNED n) then s
  else if at_.any (fun a => 63 < a - first) then s.each g fun s m => s.fset (F.LANE_STAT_DSK_FAIL m) 1
  else s.each g fun s m =>
    let lag := ((s.lane m).skew.getD first) - first
    ((s.fset (F.LANE_STAT_ALIGNED m) 1).fset (F.LANE_DSK_LAG m) lag).fset (F.LANE_DSK_DELAY m) (64 - lag)

/-- A stage of acquisition is reached, each after the one before it (R205); without PLL lock there is no CDR lock (R405). A lane that
listens detects signals alone (R207, R334). `skew` is when the lane met its group's marker, in words from an instant that the
group shares (R190); the bits of an earlier lock are not joined to those of this one (R227). -/
def State.laneLock (s : State) (n : Nat) (stage : LaneStage) (skew : Nat) (wireBit : BitVec 40) (ts : W64) : State :=
  let rs := s.rsLane n
  if !s.laneOn n || !s.bit (F.LANE_CTL_EN n) || s.bit (F.LANE_STAT_SHUTTING n) || (!s.laneLive n && stage != .signal) then s
  else match stage with
    | .signal => s.fset (F.LANE_STAT_SIG_DET n) 1
    | .cdr =>
      if s.bit (F.LANE_STAT_SIG_DET n) && !s.bit (F.LANE_STAT_CDR_LOCK n) && s.pllLocked n then
        let s1 := (s.fset (F.LANE_STAT_CDR_LOCK n) 1).setLane n { s.lane n with wireBits := 0 }
        let s2 := s1.setCap n { s1.cap n with part := {} }
        if s.pcs n = 0 then s2.pcsLockNow n 0 ts else s2
      else s
    | .pcs =>
      if s.bit (F.LANE_STAT_CDR_LOCK n) && !s.bit (F.LANE_STAT_PCS_LOCK n) && (s.pcs n == 0 || s.nextUnit n wireBit) then
        let s1 := s.fset (F.LANE_STAT_PCS_LOCK n) 1
        if s.pcs n = 0 then s1 else s1.pcsLockNow n wireBit ts
      else s
    | .fec =>
      if s.bit (F.LANE_STAT_PCS_LOCK n) && rs && !s.bit (F.LANE_STAT_FEC_LOCK n) && s.nextUnit n wireBit then
        (s.fset (F.LANE_STAT_FEC_LOCK n) 1).unitStart n wireBit
      else s
    | .deskew =>
      if !s.bit (F.LANE_STAT_PCS_LOCK n) || (rs && !s.bit (F.LANE_STAT_FEC_LOCK n)) || s.dskWidth n == 1 then s
      else (s.setLane n { s.lane n with skew := some skew }).dskAlign n

/-- The stages from `stage` on are lost, the last of them the alignment of the lane's group. -/
def State.loseStages (s : State) (n : Nat) (stage : LaneStage) : State :=
  let s1 := (s.fset (F.LANE_STAT_ALIGNED n) 0).dskLose n
  if stage = .deskew then s1
  else
    let s2 := s1.fset (F.LANE_STAT_FEC_LOCK n) 0
    if stage = .fec then s2
    else
      let s3 := s2.fset (F.LANE_STAT_PCS_LOCK n) 0
      if stage = .pcs then s3
      else
        let s4 := s3.fset (F.LANE_STAT_CDR_LOCK n) 0
        if stage = .cdr then s4 else s4.fset (F.LANE_STAT_SIG_DET n) 0

/-- The receiver delivers VALID = 0. -/
def State.rxInvalid (s : State) (n : Nat) : State :=
  s.setLane n { s.lane n with rx := (s.lane n).rx.map fun r => { r with valid := false } }

/-- The other lanes of an aligned group lose their alignment with lane `n` (R190, R205). -/
def State.groupLoss (s : State) (n : Nat) : State :=
  s.each ((s.dskLanes n).filter fun m => m != n && s.bit (F.LANE_STAT_ALIGNED m)) fun s m =>
    (s.rxInvalid m).fset (F.LANE_STAT_LOCK_LOST m) 1

/-- Whether a stage is held. -/
def State.hasStage (s : State) (n : Nat) (stage : LaneStage) : Bool :=
  match stage with
  | .signal => s.bit (F.LANE_STAT_SIG_DET n)
  | .cdr => s.bit (F.LANE_STAT_CDR_LOCK n)
  | .pcs => s.bit (F.LANE_STAT_PCS_LOCK n)
  | .fec => s.bit (F.LANE_STAT_FEC_LOCK n)
  | .deskew => s.bit (F.LANE_STAT_ALIGNED n)

/-- A lane that had PCS lock has lost it: the anchor lane's count ends (R88). -/
def State.anchorGone (s : State) (n : Nat) : State := if s.isAnchor n then s.loseAnchor else s

/-- A lane loses signal or lock (R204, R205, R240); the wire bits of an entry that is not complete are lost with the CDR's lock. -/
def State.laneLoss (s : State) (n : Nat) (stage : LaneStage) : State :=
  if !s.laneOn n || !s.hasStage n stage then s
  else
    let wasPcs := s.pcsLocked n
    let s1 := (((s.groupLoss n).loseStages n stage).rxInvalid n).fset (F.LANE_STAT_LOCK_LOST n) 1
    let s2 := if stage = .signal then (s1.fset (F.LANE_STAT_LOS_SEEN n) 1).aggregate n 4 else s1
    let s3 := if wasPcs && !s1.pcsLocked n then ((s2.aggregate n 3).anchorGone n).calUnlock n else s2
    let s4 := if s1.bit (F.LANE_STAT_CDR_LOCK n) then s3 else s3.setCap n { s3.cap n with part := {} }
    s4.scanAbort n

/-- A lane that transmits and receives nothing. -/
def Lane.still (x : Lane) : Lane :=
  { x with txSrc := 0, tx := none, txStart := none, txBits := none, txSyms := none, rx := none, rxts := 0, words := 0, fe := [], cal := []
           unitAt := none }

/-- A lane stands still: a scan stops, the changes that wait for a boundary take effect, and every lock is gone (R204, R205). -/
def State.laneStill (s : State) (n : Nat) : State :=
  if s.fget ⟨R.LANE_STAT n, 0, 6⟩ = 0 then s
  else ((if s.pcsLocked n then s.calUnlock n else s).scanAbort n).loseStages n .signal

/-- EN = 1: acquisition starts, or the request is held behind a shutdown (R205, R206, R343). -/
def State.laneEnable (s : State) (n : Nat) : State :=
  if !s.laneOn n || s.bit (F.LANE_CTL_EN n) then s
  else if s.bit (F.LANE_STAT_SHUTTING n) then s.fset (F.LANE_STAT_PENDING_ENABLE n) 1
  else s.fset (F.LANE_CTL_EN n) 1

/-- EN = 0: the transmitter goes to electrical idle, the receiver delivers VALID = 0, a scan stops (R204, R206). -/
def State.laneDisable (s : State) (n : Nat) : State :=
  if !s.laneOn n then s
  else
    let s0 := s.fset (F.LANE_STAT_PENDING_ENABLE n) 0
    if !s.bit (F.LANE_CTL_EN n) then s0
    else
      let s1 := ((s0.fset (F.LANE_CTL_EN n) 0).fset (F.LANE_STAT_SHUTTING n) 1).rxInvalid n
      let s2 := ((s1.groupLoss n).loseStages n .signal).scanAbort n
      let s3 := if s0.pcsLocked n then (s2.anchorGone n).calUnlock n else s2
      s3.setLane n { s3.lane n with tx := none, txStart := none, txBits := none, txSyms := none, txSrc := 0, fe := [] }

def State.laneShutdownDone (s : State) (n : Nat) : State :=
  if !s.bit (F.LANE_STAT_SHUTTING n) then s
  else
    let s1 := s.fset (F.LANE_STAT_SHUTTING n) 0
    if s1.bit (F.LANE_STAT_PENDING_ENABLE n) then
      (s1.fset (F.LANE_STAT_PENDING_ENABLE n) 0).fset (F.LANE_CTL_EN n) 1
    else s1

def execLaneEnable (lane : LaneId) (s : State) : Host.Outcome State Fault Refusal :=
  .next (s.hostCmd (R.LANE_CTL lane.toNat) 1 1 fun s => (s.laneEnable lane.toNat))
def execLaneDisable (lane : LaneId) (s : State) : Host.Outcome State Fault Refusal :=
  .next (s.hostCmd (R.LANE_CTL lane.toNat) 1 0 fun s => (s.laneDisable lane.toNat))
def execLaneLock (lane : LaneId) (stage : LaneStage) (skew : BitVec 7) (wireBit : BitVec 40) (ts : W64) (s : State) :
    Host.Outcome State Fault Refusal :=
  .next (s.laneLock lane.toNat stage skew.toNat wireBit ts)
def execLaneLockLoss (lane : LaneId) (stage : LaneStage) (s : State) : Host.Outcome State Fault Refusal :=
  .next (s.laneLoss lane.toNat stage)

/-! ### LANE_CTL fields (R192, R193) -/

def execTxSrc (lane : LaneId) (v : BitVec 2) (s : State) : Host.Outcome State Fault Refusal :=
  .next (s.hostCmd (R.LANE_CTL lane.toNat) 6 (v.setWidth 32 <<< 1) fun s => (if s.laneOn lane.toNat && lane.toNat < 1024 then s.fset (F.LANE_CTL_TX_SRC lane.toNat) v.toNat else s))
def execNeLpbk (lane : LaneId) (v : Bool) (s : State) : Host.Outcome State Fault Refusal :=
  .next (s.hostCmd (R.LANE_CTL lane.toNat) 8 (BitVec.ofNat 32 (v.toNat * 2 ^ 3)) fun s => (if s.laneOn lane.toNat then s.setBit (F.LANE_CTL_NE_LPBK lane.toNat) v else s))
def execFeLpbk (lane : LaneId) (v : Bool) (s : State) : Host.Outcome State Fault Refusal :=
  .next (s.hostCmd (R.LANE_CTL lane.toNat) 0x10 (BitVec.ofNat 32 (v.toNat * 2 ^ 4)) fun s => (if s.laneOn lane.toNat then s.setBit (F.LANE_CTL_FE_LPBK lane.toNat) v else s))

/-- The far-end loopback's buffer over- or underflows: one bit slips. Held more than half full it loses its oldest bit, else that bit
is repeated. DEDUCED (log 108). -/
def State.feSlip (s : State) (n : Nat) : State :=
  let x := s.lane n
  let l := if 64 < x.fe.length then x.fe.drop 1 else match x.fe with | b :: bs => b :: b :: bs | [] => []
  if s.laneOn n && s.bit (F.LANE_CTL_FE_LPBK n) && !s.bit (F.LANE_CTL_NE_LPBK n) then
    (s.setLane n { x with fe := l }).fset (F.LANE_STAT_FE_SLIP n) 1
  else s

def execFeSlip (lane : LaneId) (s : State) : Host.Outcome State Fault Refusal := .next (s.feSlip lane.toNat)

/-! ### What a link partner sees (R207) -/

/-- A transmitter's drive: traffic, electrical idle, or high impedance. -/
inductive TxDrive where
  | driven | idle | highZ
  deriving DecidableEq, Repr

/-- What lane `n` presents to its partner: its transmitter, and whether its receiver's termination is present (R207). -/
def State.lanePresents (s : State) (n : Nat) : TxDrive × Bool :=
  let st := s.fget F.PWR_STAT_STATE
  if s.por || s.warm then (.idle, true)
  else if st = 4 ∨ !s.bit (F.PWR_DOM_ON (20 + n / 16)) then (.highZ, false)
  else if st = 3 then (.highZ, true)
  else if st = 2 ∨ !s.image.committed ∨ !s.laneOn n ∨ !s.bit (F.LANE_CTL_EN n) then (.idle, true)
  else match (s.lane n).tx with
    | some _ => (.driven, true)
    | none => (.idle, true)

end Sys2Proof.Machine
end

