-- ==== Sys2Proof/Machine/Reset.lean ====
section
/-! DEFINITION. Resets (R14, R307, R320, R400) and the load-time state (R284). -/

namespace Sys2Proof.Machine

/-- Registers that live in the persistent store (R320, R323, R386). -/
def persisted (a : Nat) : Bool :=
  a == R.FLT_RST_CAUSE || a == R.FLT_LOG_IDX || (R.FLT_LOG 0 ≤ a && a < R.FLT_LOG 16)
    || (R.SEC_RB_CNT 0 ≤ a && a < R.SEC_RB_CNT 16)

/-- What survives a reset: the part, the persistent store, the fuses, the levels outside the device and what waits there.
DEBUG_SEEN is cleared by POR_N alone (R387). -/
def State.restart (s : State) (por : Bool) : State :=
  let t : State := { State.reset with
    part := s.part, stepping := s.stepping, pending := s.pending, regs := s.regs.filter fun p => persisted p.1
    store := s.store, pinIn := s.pinIn, land := s.land, tap := s.tap, free := s.free, por := s.por, warm := s.warm
    host := { mem := s.host.mem }, load := { rdyN := s.load.rdyN }, sec := { ids := s.sec.ids } }
  if por then t else t.setBit F.SEC_STAT_DEBUG_SEEN (s.bit F.SEC_STAT_DEBUG_SEEN)

/-- A start by any cause but a C3 reset or a thermal Off entry (R320). -/
def State.plainStart (s : State) (por : Bool) : State := (s.restart por).fset F.FLT_RST_CAUSE_FAULT_RESET 0

/-- The device resets for fault code `code`, as WARM_N does (R320). -/
def State.faultStart (s : State) (code : Nat) : State :=
  ((s.restart false).fset F.FLT_RST_CAUSE_FAULT_RESET 1).fset F.FLT_RST_CAUSE_CODE code

/-- SEC_FUSE word `w` (R375). -/
def State.fuse (s : State) (w : Nat) : W32 := SMap.get (fun _ => 0) s.store.fuses w

/-- A reset by POR_N or a brownout is counted at the next hourly write (R413). -/
def State.countReset (s : State) : State := { s with store := { s.store with resets := s.store.resets + 1 } }

/-- The device leaves Off: its supplies come up again, which counts as a power cycle (R403, R413). DESIGN CHOICE (log 70). -/
def State.countCycle (s : State) : State :=
  if s.fget F.PWR_STAT_STATE = 4 then { s with store := { s.store with cycles := s.store.cycles + 1 } } else s

/-- The vendor and part IDs are latched of fuse words 45 and 46 (R378). -/
def State.latchIds (s : State) : State := { s with sec := { s.sec with ids := (s.fuse 45, s.fuse 46) } }

/-- DEBUG_CLOSE and FACTORY_DONE (R375). -/
def State.debugClosed (s : State) : Bool := (s.fuse 44).getLsbD 4
def State.factoryDone (s : State) : Bool := (s.fuse 44).getLsbD 5

/-- Factory test mode is open: the private instruction is selected. DEDUCED (log 40). -/
def State.factoryMode (s : State) : Bool := s.tap.ir == .factory && !s.debugClosed

/-- POR_N at a level: the device is in reset from its assertion, and the IDs are latched at its release (R378, R400). -/
def execPorN (asserted : Bool) (s : State) : Host.Outcome State Fault Refusal :=
  if asserted == s.por then .next s
  else if asserted then .next { (s.countReset.countCycle).plainStart true with por := true }
  else .next { s with por := false }.latchIds

/-- WARM_N at a level. In Off nothing of the device runs that it could reset: only WAKE and POR_N leave Off (R330, R403). -/
def execWarmN (asserted : Bool) (s : State) : Host.Outcome State Fault Refusal :=
  if asserted == s.warm then .next s
  else if s.fget F.PWR_STAT_STATE = 4 then .next { s with warm := asserted }
  else if asserted then .next { s.plainStart false with warm := true }
  else .next { s with warm := false }.latchIds

/-- A rail falls below its brownout level: reset as POR_N (R403). In Off no detector runs; in Deep sleep the environment
sends the event for VDD_PORT alone. -/
def execBrownout (s : State) : Host.Outcome State Fault Refusal :=
  if s.fget F.PWR_STAT_STATE = 4 then .next s
  else .next ((s.countReset).plainStart true).latchIds

end Sys2Proof.Machine
end

