-- ==== Sys2Proof/Machine/Queue.lean ====
section
/-! DEFINITION. Action queues, work items and flow flags (R251–R256), and the action plane's access to memory (R251, R263). -/

namespace Sys2Proof.Machine

/-! ### Memory under master ID 0x30 (R251, R136, R139) -/

/-- The answer of the memory at `a` to the action plane; an address in no window reads 0 and takes nothing. DEDUCED (log 34). -/
inductive MemAnswer where
  | granted | waits | refused | nowhere
  deriving DecidableEq, Repr

def State.actMem (s : State) (a : Nat) (write : Bool) : MemAnswer :=
  if (s.inScratch a || s.inDram a) && !s.domainOn (s.addrDomain a) then .refused
  else if s.inScratch a then
    match s.bankAnswer (bankOf a) 0x30 with
    | .granted => .granted
    | .waits => .waits
    | .refused => .refused
  else if s.inDram a then (if s.dramAllows 0x30 a write then .granted else .refused)
  else .nowhere

/-- Bytes read by the action plane; a refused read returns 0. -/
def State.actRead (s : State) (a n : Nat) : State × Bytes :=
  let l := linesOf a n
  match s.actMem a false with
  | .granted => (s.readLines 0x30 (fun s => s) 0 l.length l, s.rdBytes a n)
  | .refused =>
    (s.readLines 0x30 (fun s => s.memRefused 0x30 a accRead) (s.refusedStatus a) l.length l, List.replicate n 0)
  | _ => (s, List.replicate n 0)

/-- The bytes from `a` on by the banks and granules they lie in, as addresses and lengths: one access to each. They cross one border
at most. -/
def actParts (a n : Nat) : List (Nat × Nat) :=
  let e := (a / 0x400000 + 1) * 0x400000
  if a + n ≤ e ∨ (dramBase ≤ a ∧ granuleOf a = granuleOf e) then [(a, n)] else [(a, e - a), (e, a + n - e)]

/-- A read that may run into another bank or granule, each of which answers for its own bytes (R136, R139). -/
def State.actReadAll (s : State) (a n : Nat) : State × Bytes :=
  (actParts a n).foldl (fun r p => let (s1, bs) := r.1.actRead p.1 p.2; (s1, r.2 ++ bs)) (s, [])

/-- What the action plane finds in memory without a trace of the access. -/
def State.actPeek (s : State) (a n : Nat) : Bytes :=
  (actParts a n).flatMap fun p => if s.actMem p.1 false == .granted then s.rdBytes p.1 p.2 else List.replicate p.2 0

/-- A posted write of up to 32 bytes that do not cross a flit, as a packet (R109). -/
def smallWrite (src : MasterId) (a : Nat) (bs : Bytes) : Packet :=
  let v := leNat bs * 2 ^ (8 * (a % 32))
  { src, dstStn := 0, addr := BitVec.ofNat 48 (a / 32 * 32), len := 1
    be := BitVec.ofNat 32 ((2 ^ bs.length - 1) * 2 ^ (a % 32))
    payload := [BitVec.ofNat 128 v, BitVec.ofNat 128 (v / 2 ^ 128)] }

/-- Bytes written by the action plane. A write to a bank under handover to it waits there (R135). -/
def State.actWrite (s : State) (a : Nat) (bs : Bytes) : State :=
  match s.actMem a true with
  | .granted => s.wrBytes a bs
  | .refused => s.memRefused 0x30 a accPosted
  | .waits => { s with ring := { s.ring with
      waits := s.ring.waits ++ [(bankOf a, .packet (smallWrite 0x30 a bs) true true)] } }
  | .nowhere => s

/-! ### Flags (R256) -/

/-- Enabled queues, from the listed queue registers. -/
def State.queues (s : State) : List Nat :=
  (s.regs.filter fun p => R.ACT_Q_CFG 0 ≤ p.1 ∧ p.1 < R.ACT_Q_CFG 16384 ∧ (p.1 - R.ACT_Q_CFG 0) % 0x10 = 0).map
    (fun p => (p.1 - R.ACT_Q_CFG 0) / 0x10) |>.filter fun q => s.bit (F.ACT_Q_CFG_EN q)

/-- The enabled queue that drives flag `g` of flow `f`. -/
def State.queueOf (s : State) (f g : Nat) : Option Nat :=
  s.queues.find? fun q => s.fget (F.ACT_Q_CFG_FLOW q) == f && s.fget (F.ACT_Q_CFG_FLAG q) == g

/-- The flags of flow `f` that queues drive. -/
def State.queueFlags (s : State) (f : Nat) : W32 :=
  s.queues.foldl (fun v q => if s.fget (F.ACT_Q_CFG_FLOW q) = f
    then v ||| BitVec.ofNat 32 (2 ^ s.fget (F.ACT_Q_CFG_FLAG q)) else v) 0

def State.flags (s : State) (f : Nat) : W32 := s.reg (R.ACT_FL_FLAGS f)

/-- Sets flags of a flow that no queue drives. -/
def State.setFlags (s : State) (f : Nat) (v : W32) : State :=
  s.setReg (R.ACT_FL_FLAGS f) (s.flags f ||| (v &&& ~~~s.queueFlags f))

/-- Clears flags of a flow that no queue drives. -/
def State.clearFlags (s : State) (f : Nat) (v : W32) : State :=
  s.setReg (R.ACT_FL_FLAGS f) (s.flags f &&& ~~~(v &&& ~~~s.queueFlags f))

/-- A queue's flag is 1 exactly while the queue holds an item. -/
def State.driveFlag (s : State) (q : Nat) : State :=
  let f := s.fget (F.ACT_Q_CFG_FLOW q)
  let b : W32 := BitVec.ofNat 32 (2 ^ s.fget (F.ACT_Q_CFG_FLAG q))
  s.setReg (R.ACT_FL_FLAGS f) (if s.fget (F.ACT_Q_STAT_LEVEL q) = 0 then s.flags f &&& ~~~b else s.flags f ||| b)

/-! ### Posts (R252, R253) -/

/-- Byte address of item number `i` of queue `q` (R251). -/
def State.itemAddr (s : State) (q i : Nat) : Nat :=
  s.fget (F.ACT_Q_BASE_BASE q) + 16 * (i % 2 ^ s.fget (F.ACT_Q_CFG_K q))

def State.queueHead (s : State) (q : Nat) : Nat := SMap.get (fun _ => 0) s.act.heads q

/-- A post's result, coded as ACT_HPOST_STAT.STATUS: 0 accepted, 1 FULL, 2 BAD_QUEUE. -/
def State.queuePost (s : State) (master q : Nat) (item : W128) : State × Nat :=
  if s.standby then (s.count F.SPL_ACT_DISC_COUNT 1, 0)
  else if !s.bit (F.ACT_Q_CFG_EN q) then (s.count F.ACT_BADQ_COUNT 1, 2)
  else
    let level := s.fget (F.ACT_Q_STAT_LEVEL q)
    if 2 ^ s.fget (F.ACT_Q_CFG_K q) ≤ level then
      -- a fabric post port waits for READY instead of being refused
      (if master = 0x72 then s else s.count (F.ACT_Q_REFUSED_COUNT q) 1, 1)
    else
      let a := s.itemAddr q (s.queueHead q + level)
      let s1 := s.actWrite a (leBytes 16 item.toNat)
      ((s1.fset (F.ACT_Q_STAT_LEVEL q) (level + 1)).driveFlag q, 0)

/-- A post with what its producer does on FULL: a trigger or assertion item is lost and counted (R253). -/
def State.postBy (s : State) (master q : Nat) (item : W128) : State :=
  let (s1, r) := s.queuePost master q item
  if r = 1 ∧ master = 0x71 then s1.fset F.TRG_STAT_POST_REFUSED 1
  else if r = 1 ∧ 0x80 ≤ master then s1.count F.ACT_AE_DROP_COUNT 1
  else s1

/-- The head item of a queue is popped (R257). -/
def State.queuePop (s : State) (q : Nat) : State × W128 :=
  let h := s.queueHead q
  let (s1, bs) := s.actRead (s.itemAddr q h) 16
  let s2 := { s1 with act := { s1.act with heads := SMap.set (fun _ => 0) s1.act.heads q (h + 1) } }
  ((s2.fset (F.ACT_Q_STAT_LEVEL q) (s2.fget (F.ACT_Q_STAT_LEVEL q) - 1)).driveFlag q, BitVec.ofNat 128 (leNat bs))

/-! ### Words of staged registers (R11) -/

/-- A lower word of a value of several words as it will take effect: staged, or as stored. -/
def State.stagedWord (s : State) (a : Nat) : W32 :=
  match SMap.find s.staged a with
  | some v => v
  | none => s.reg a

/-- The host's post: the write of the item's highest word (R253, R267). -/
def State.hostPost (s : State) (w3 : W32) : State :=
  let a := R.ACT_HPOST_ITEM
  let item : W128 := w3 ++ s.stagedWord (a + 8) ++ s.stagedWord (a + 4) ++ s.stagedWord a
  let s1 := { s with staged := SMap.del (SMap.del (SMap.del s.staged a) (a + 4)) (a + 8) }.wset W.ACT_HPOST_ITEM_ITEM item.toNat
  let (s2, r) := s1.queuePost 0 (s1.fget F.ACT_HPOST_Q_QUEUE) item
  (s2.fset F.ACT_HPOST_STAT_STATUS r).fset F.ACT_HPOST_STAT_DONE 1

/-! ### The meanings -/

/-- The fabric posts: it runs, and some post port's VALID does not come from an isolated region (R177, R181, R182). -/
def State.fabricPosts (s : State) : Bool :=
  s.fabricOn && (s.edge.die.posts.isEmpty || s.edge.die.posts.any fun p =>
    match p.2.valid with | some m => !s.edgeIso (m / 64) | none => false)

/-- A post of any producer (R252, R253). -/
def execQueuePost (master : MasterId) (q : BitVec 14) (item : W128) (s : State) : Host.Outcome State Fault Refusal :=
  .next (if !masterOk master || (master == 0x72 && !s.fabricPosts) then s else s.watch [16] fun s => s.postBy master.toNat q.toNat item)

def execHpost (w3 : W32) (s : State) : Host.Outcome State Fault Refusal :=
  .next (s.hostCmd (R.ACT_HPOST_ITEM + 12) 0xFFFFFFFF w3 fun s => (s.watch [19] fun s => s.hostPost w3))

def execActFlSet (f : BitVec 12) (v : W32) (s : State) : Host.Outcome State Fault Refusal :=
  .next (s.hostCmd (R.ACT_FL_SET f.toNat) 0xFFFFFFFF v fun s => (s.setFlags f.toNat v))

end Sys2Proof.Machine
end

