-- ==== Sys2Proof/Machine/Trigger.lean ====
section
/-! DEFINITION. The trigger engine (R240–R244): counters, sequencers and the actions of knots. -/

namespace Sys2Proof.Machine

/-! ### Inputs and counters (R240, R241) -/

/-- The event inputs as an edge samples them. -/
def State.trigInputs (s : State) : BitVec 256 := s.trig.level ||| s.trig.pulse

/-- A counter goes up by `n` and saturates. -/
def State.trigCount (s : State) (c n : Nat) : State := s.count (F.TRG_CNT_VAL_VAL c) n

/-- A counter is terminal while VAL ≥ CMP. -/
def State.terminal (s : State) (c : Nat) : Bool := decide (s.fget (F.TRG_CNT_CMP_CMP c) ≤ s.fget (F.TRG_CNT_VAL_VAL c))

/-- An edge of the edge core clock at the trigger engine: MODE 0 counters count, but for those that a knot or CLR has reset at this
edge; pulses end, TRIG_OUT pulses run down. -/
def State.trigEdge (s : State) : State :=
  let now := s.trigInputs
  let s1 := s.each (List.range 64) fun s c =>
    let i := s.fget (F.TRG_CNT_CFG_INPUT c)
    let hit := if s.bit (F.TRG_CNT_CFG_EDGE c) then now.getLsbD i && !s.trig.prev.getLsbD i else now.getLsbD i
    if !s.bit (F.TRG_CNT_CFG_MODE c) && hit && !s.trig.resets.contains c then s.trigCount c 1 else s
  let tout := (s.trig.tout.map fun p => (p.1, p.2 - 1)).filter fun p => p.2 ≠ 0
  { s1 with trig := { s1.trig with prev := now, pulse := 0, tout, resets := [], met := [] } }

/-- A knot or CLR resets counter `c`; an increment at the edge to come is lost (R241). -/
def State.cntReset (s : State) (c : Nat) : State :=
  ({ s with trig := { s.trig with resets := c :: s.trig.resets } }).fset (F.TRG_CNT_VAL_VAL c) 0

/-- `ns` nanoseconds of device time pass: MODE 1 counters count (R241). -/
def State.trigTimers (s : State) (ns : Nat) : State :=
  s.each (List.range 64) fun s c => if s.bit (F.TRG_CNT_CFG_MODE c) then s.trigCount c ns else s

/-! ### Conditions (R242) -/

/-- The four event terms of a knot. -/
def State.knotEvents (s : State) (n k : Nat) : List Nat :=
  [s.fget (F.TRG_KNOT_EV_A n k), s.fget (F.TRG_KNOT_EV_B n k), s.fget (F.TRG_KNOT_EV_C n k), s.fget (F.TRG_KNOT_EV_D n k)]

/-- The values of the enabled terms of knot `k`, the counter's term last. -/
def State.knotTerms (s : State) (n k : Nat) (inputs : BitVec 256) : List Bool :=
  let en := s.fget (F.TRG_KNOT_TERM_EN n k)
  let inv := s.fget (F.TRG_KNOT_INV n k)
  let evs := ((s.knotEvents n k).zipIdx.filter fun p => en.testBit p.2).map fun p => inputs.getLsbD p.1 ^^ inv.testBit p.2
  evs ++ (if s.bit (F.TRG_KNOT_CNT_EN n k) then [s.terminal (s.fget (F.TRG_KNOT_CNT n k))] else [])

/-- The condition of knot `k`; with no enabled term it is never true. -/
def State.knotTrue (s : State) (n k : Nat) (inputs : BitVec 256) : Bool :=
  let ts := s.knotTerms n k inputs
  !ts.isEmpty && (if s.bit (F.TRG_KNOT_OP n k) then ts.any id else ts.all id)

/-! ### Actions (R243, R244) -/

/-- Actions that issue at one edge: the sequencer and the knot whose actions they are. -/
abbrev Issued := List (Nat × Nat)

/-- The trigger freeze turn hold. -/
def State.freeze (s : State) (v : Bool) : State := (s.setBit F.TURN_HOLD_SRC_FREEZE v).setBit F.TRG_STAT_FROZEN v

/-- THAW, of a knot or of the host: a FREEZE of the same edge wins (R243). -/
def State.thaw (s : State) : State := if s.meets .freeze then s else s.freeze false

/-- Enabled pattern channels of a pattern set. -/
def State.patSet (s : State) (k : Nat) : List Nat :=
  (List.range 1024).filter fun n => s.capHere n && s.bit (F.PAT_CTL_EN n) && s.fget (F.PAT_CFG_SET n) == k

/-- CAP: one TRIG command to every channel of each named set (R235). -/
def State.doCap (s : State) (l : Issued) : State :=
  let sets := ((l.filter fun p => s.bit (F.TRG_KNOT_CAP p.1 p.2)).map fun p => s.fget (F.TRG_KNOT_CAP_SET p.1 p.2)).eraseDups
  s.each sets fun s k => s.each (s.capSet k) fun s n =>
    s.capTrig n

/-- MARK records, in increasing sequencer number. -/
def State.doMark (s : State) (l : Issued) : State :=
  s.each (l.filter fun p => s.bit (F.TRG_KNOT_MARK p.1 p.2)) fun s p =>
    s.each (s.capSet (s.fget (F.TRG_KNOT_CAP_SET p.1 p.2))) fun s n =>
      s.capRecord n (trigMark p.1 p.2 (s.fget (F.TRG_KNOT_MARK_CODE p.1 p.2)) (shortTime s.time.now))

/-- PAT_OP: the lowest sequencer's command to each pattern set; the others are refused, and so is a command to a channel
that meets a host's write of its SRC or GO (R244). `done` lists the sets served. -/
def State.doPat (s : State) (done : List Nat) : Issued → State
  | [] => s
  | p :: ps =>
    let op := s.fget (F.TRG_KNOT_PAT_OP p.1 p.2)
    let k := s.fget (F.TRG_KNOT_PAT_SET p.1 p.2)
    if op = 0 then s.doPat done ps
    else if done.contains k then (s.fset F.TRG_STAT_CONFLICT 1).doPat done ps
    else (s.each (s.patSet k) fun s n =>
      if s.meets (.pat n) then s.fset F.TRG_STAT_CONFLICT 1 else (s.patOp n op).meet (.knot n)).doPat (k :: done) ps

/-- TOUT: pulses on the TRIG_OUT pins; a paired device tells its partner (R243, R300). -/
def State.doTout (s : State) (l : Issued) : State :=
  s.each (l.filter fun p => s.bit (F.TRG_KNOT_TOUT p.1 p.2)) fun s p =>
    let j := s.fget (F.TRG_KNOT_TOUT_SEL p.1 p.2)
    let s1 := { s with trig := { s.trig with tout := SMap.put s.trig.tout j (max 1 (s.fget (F.TRG_TOUT_CFG_WIDTH j))) } }
    if s1.splice.paired then { s1 with splice := { s1.splice with sent := s1.splice.sent ++ [.trigOut j] } } else s1

/-- FREEZE and THAW; a FREEZE wins. -/
def State.doHold (s : State) (l : Issued) : State :=
  if l.any fun p => s.bit (F.TRG_KNOT_FREEZE p.1 p.2) then (s.freeze true).meet .freeze
  else if l.any fun p => s.bit (F.TRG_KNOT_THAW p.1 p.2) then s.thaw
  else s

/-- FLAG pulses. -/
def State.doFlag (s : State) (l : Issued) : State :=
  s.each (l.filter fun p => s.bit (F.TRG_KNOT_FLAG p.1 p.2)) fun s p => s.pulse (240 + p.1)

/-- The trigger's work item (R254). -/
def State.trigItem (s : State) (n k : Nat) : W128 :=
  BitVec.ofNat 128 ((shortTime s.time.now).toNat + s.fget (F.TRG_KNOT_MARK_CODE n k) * 2 ^ 64 + k * 2 ^ 80 + n * 2 ^ 84)

/-- POST. -/
def State.doPost (s : State) (l : Issued) : State :=
  s.each (l.filter fun p => s.bit (F.TRG_KNOT_POST p.1 p.2)) fun s p =>
    s.postBy 0x71 (s.fget (F.TRG_KNOT_QUEUE p.1 p.2)) (s.trigItem p.1 p.2)

/-- The actions that issue together. -/
def State.issueActions (s : State) (l : Issued) : State :=
  ((((((s.doCap l).doMark l).doPat [] l).doTout l).doHold l).doFlag l).doPost l

/-! ### Sequencers (R242) -/

/-- Sequencer `n` enters knot `k`: its counter is reset, and an END knot ends the sequencer. The knot's actions issue if it
is an END knot. -/
def State.enterKnot (s : State) (n k : Nat) : State × Issued :=
  let s1 := s.fset (F.TRG_SEQ_STAT_KNOT n) k
  let c := s.fget (F.TRG_KNOT_CNT n k)
  let s2 := if s.bit (F.TRG_KNOT_CNT_RST n k) then s1.cntReset c else s1
  if s.bit (F.TRG_KNOT_END n k) then ((s2.fset (F.TRG_SEQ_STAT_RUNNING n) 0).fset (F.TRG_SEQ_STAT_ENDED n) 1, [(n, k)])
  else (s2.fset (F.TRG_SEQ_STAT_RUNNING n) 1, [])

def State.seqStart (s : State) (n : Nat) : State :=
  if s.bit (F.TRG_SEQ_CTL_EN n) then
    let (s1, l) := s.enterKnot n 0
    s1.issueActions l
  else s

def State.seqStop (s : State) (n : Nat) : State := s.fset (F.TRG_SEQ_STAT_RUNNING n) 0

/-- The sequencer runs and its knot's condition holds. -/
def State.knotFires (s : State) (inputs : BitVec 256) (n : Nat) : Bool :=
  s.bit (F.TRG_SEQ_STAT_RUNNING n) && s.knotTrue n (s.fget (F.TRG_SEQ_STAT_KNOT n)) inputs

/-- The transition of one sequencer, collecting the actions. -/
def knotStep (a : State × Issued) (n : Nat) : State × Issued :=
  let k := a.1.fget (F.TRG_SEQ_STAT_KNOT n)
  let (s1, l) := a.1.enterKnot n (a.1.fget (F.TRG_KNOT_NEXT n k))
  (s1, a.2 ++ [(n, k)] ++ l)

/-- The sequencers of a set whose conditions become true at one edge, in increasing number; their actions issue together. -/
def State.knots (s : State) (seqs : BitVec 8) (inputs : BitVec 256) : State :=
  let (s1, l) := ((List.range 8).filter fun n => seqs.getLsbD n && s.knotFires (inputs ||| s.trigInputs) n).foldl
    knotStep (s, [])
  s1.issueActions l

/-- TRG_SOFT pulses inputs 248–255 (R240). -/
def State.soft (s : State) (v : Nat) : State :=
  s.each ((List.range 8).filter fun i => v.testBit i) fun s i => s.pulse (248 + i)

/-! ### The meanings -/

def execSeqStart (n : BitVec 3) (s : State) : Host.Outcome State Fault Refusal :=
  .next (s.hostCmd (R.TRG_SEQ_CTL n.toNat) 2 2 fun s => (s.watch [15] fun s => s.seqStart n.toNat))
def execSeqStop (n : BitVec 3) (s : State) : Host.Outcome State Fault Refusal :=
  .next (s.hostCmd (R.TRG_SEQ_CTL n.toNat) 4 4 fun s => (s.seqStop n.toNat))
/-- The trigger engine runs in Run and Idle (R330). -/
def execKnotTransition (seqs : BitVec 8) (inputs : BitVec 256) (s : State) : Host.Outcome State Fault Refusal :=
  if s.awake then .next (s.watch [15] fun s => s.knots seqs inputs) else .next s
def execThaw (s : State) : Host.Outcome State Fault Refusal :=
  .next (s.hostCmd R.TRG_CTL 1 1 fun s => s.thaw)

def execTrgSoft (v : BitVec 8) (s : State) : Host.Outcome State Fault Refusal :=
  .next (s.hostCmd R.TRG_SOFT 0xFF (v.setWidth 32) fun s => s.soft v.toNat)

def execClr (c : BitVec 6) (s : State) : Host.Outcome State Fault Refusal :=
  .next (s.hostCmd (R.TRG_CNT_CFG c.toNat) 0x400 0x400 fun s => s.cntReset c.toNat)

end Sys2Proof.Machine
end

