-- ==== Sys2Proof/Machine/Pins.lean ====
section
/-! DEFINITION. Pins (chapter 20): functions and their switch edge, the lock, TRIG_IN, and input levels. -/

namespace Sys2Proof.Machine

/-- The function in force for a requested one (R390): the trace port has pins 160–176 only, and DEBUG_CLOSE closes functions 4
and 5. -/
def State.pinFunc (s : State) (n f : Nat) : Nat :=
  if f = 4 then (if 160 ≤ n ∧ n ≤ 176 ∧ !s.debugClosed then 4 else 7)
  else if f = 5 then (if s.debugClosed then 7 else 5)
  else f

/-- Pins that feed TRIG_IN `i` (R392). -/
def State.trigPins (s : State) (i : Nat) : List Nat :=
  (List.range 24).map (fun k => 8 * k + i) |>.filter fun n => s.fget (F.PIN_CFG_FUNC_ACT n) == 2

/-- TRIG_IN `i`: the level of the single pin that feeds it, else 0; a conflict shows. While the pins are latched they feed
nothing (R396). -/
def State.trigIn (s : State) (i : Nat) : State :=
  let l := s.trigPins i
  let bit := 2 ^ i
  let conflict := decide (2 ≤ l.length)
  let was := (s.fget F.PIN_STAT_CONFLICT).testBit i
  let v := match l with
    | [n] => s.pins.latched.isNone && SMap.get (fun _ => false) s.pinIn n
    | _ => false
  let s1 := if conflict == was then s
    else s.fset F.PIN_STAT_CONFLICT (s.fget F.PIN_STAT_CONFLICT ^^^ bit)
  let s2 := if conflict && !was then s1.fset F.PIN_STAT_CONFLICT_SEEN (s1.fget F.PIN_STAT_CONFLICT_SEEN ||| bit) else s1
  let keep : BitVec 8 := s2.pins.trigIn &&& ~~~BitVec.ofNat 8 bit
  { s2 with pins := { s2.pins with trigIn := if v then keep ||| BitVec.ofNat 8 bit else keep } }.level (208 + i) v

/-- All TRIG_IN inputs from the functions in force. -/
def State.trigIns (s : State) : State := s.each (List.range 8) State.trigIn

/-- Level of TRIG_OUT `j` (R243). -/
def State.trigOutLevel (s : State) (j : Nat) : Bool :=
  (SMap.get (fun _ => 0) s.trig.tout j != 0) != s.bit (F.TRG_TOUT_CFG_POL j)

/-- The byte that the trace port carries at time `t`: PAD where it has no packet (R391). -/
def State.portByte (s : State) (t : Nat) : Byte :=
  match s.trace.portOut.find? fun p => decide (t < p.1) && decide (p.1 ≤ t + 65536 * p.2.length) with
  | some (fin, bs) => bs.getD ((t + 65536 * bs.length - fin) / 65536) 0
  | none => 0

/-- The level of a pin of the trace port (R391): each 2 ns carry two bytes, and TRC_CLK has its edges in their middle. Where its rising
edge lies among the time clock's is open. -/
def State.traceLevel (s : State) (n : Nat) : Bool :=
  let at_ := s.time.now / 131072 * 131072
  if n = 160 then Config.trcPhase ^^ ((s.time.now + 65536) / 131072 % 2 == 1)
  else if n < 169 then (s.portByte at_).getLsbD (n - 161)
  else (s.portByte (at_ + 65536)).getLsbD (n - 169)

/-- Level and enable that the function in force gives pin `n` (R390). `low`: a double-rate cell is in its low phase (R179); `dbg`:
DBG_OBS 0–15 in factory test mode, at an instant that no command gives (log 115). -/
def State.pinOut (s : State) (n : Nat) (low : Bool) (dbg : BitVec 16) : Bool × Bool :=
  match s.fget (F.PIN_CFG_FUNC_ACT n) with
  | 0 =>
    let x := s.io n
    (if low then x.out1 else x.out0, if low then x.oe1 else x.oe0)
  | 1 => (s.toutLevel (n % 16), true)
  | 3 => (s.trigOutLevel (n % 8), true)
  | 4 => (s.traceLevel n, true)
  | 5 => (s.factoryMode && dbg.getLsbD (n % 16), true)
  | 6 => (s.selBit R.PIN_SW_OUT n, s.selBit R.PIN_SW_OE n)
  | _ => (false, false)

/-- Level and enable of pin `n` as driven: its function's, once that has presented a valid value (R393). -/
def State.pinDriven (s : State) (n : Nat) (low : Bool) (dbg : BitVec 16) : Bool × Bool :=
  (SMap.find s.pins.held n).getD (s.pinOut n low dbg)

/-- Levels and enables of the GPIO pins as driven. -/
def State.pinDrive (s : State) (low : BitVec 192) (dbg : BitVec 16) : BitVec 192 × BitVec 192 :=
  (List.range 192).foldl (fun v n =>
    let (lvl, oe) := s.pinDriven n (low.getLsbD n) dbg
    let b := BitVec.ofNat 192 (2 ^ n)
    (if lvl then v.1 ||| b else v.1, if oe then v.2 ||| b else v.2)) (0, 0)

/-- The pin is an input of function `f`, through its filter. -/
def State.inputFunc (s : State) (n f : Nat) : Bool := f == 2 || f == 7 || (f == 6 && !s.selBit R.PIN_SW_OE n)

/-- The filter of pin `n` restarts at its default 0; with setting 0 it passes the pin on (R393, R398). -/
def State.filterRestart (s : State) (n : Nat) : State :=
  let v := s.fget (F.PIN_CFG_FILT n) == 0 && s.pinLevel n
  { s with pinIn := SMap.set (fun _ => false) s.pinIn n v }

/-- What a configured I/O cell's input takes moves (R179). -/
def State.cellMoves (s : State) (n : Nat) : State :=
  if (SMap.find s.edge.die.ios n).isSome then s.setIo n { s.io n with moved := true } else s

/-- A PIN_CFG write takes effect (R393): an I/O cell that the pin no longer feeds holds 0, a configured one that is to drive the pin
leaves it at its old level and enable until the next edge of its clock gives the first valid value, and the filter of an input
function restarts. -/
def State.pinSwitch (s : State) (n : Nat) (v : W32) : State :=
  let old := s.fget (F.PIN_CFG_FUNC_ACT n)
  let new := s.pinFunc n (field v.toNat 0 3)
  let cell := new == 0 && (SMap.find s.edge.die.ios n).isSome
  let free := s.freeBits 17
  let was := s.pinDriven n (free.getLsbD 16) (free.setWidth 16)
  let s1 := s.fset (F.PIN_CFG_FUNC_ACT n) new
  let s2 := if old = new then s1
    else if cell then { s1.drawn with pins := { s1.pins with held := SMap.put s1.pins.held n was } }.cellMoves n
    else { s1 with pins := { s1.pins with held := SMap.del s1.pins.held n } }
  let s3 := if old = 0 ∧ new ≠ 0 then s2.setIo n { s2.io n with in0 := false, in1 := false } else s2
  if s3.inputFunc n new then s3.filterRestart n else s3

/-- A write of PIN_SW_OE_b: a pin of function 6 that becomes an input has its filter restart (R393). -/
def State.pinEnable (s : State) (b : Nat) (v : W32) : State :=
  let gone := (List.range 32).filter fun k =>
    (s.reg (R.PIN_SW_OE b)).getLsbD k && !v.getLsbD k && s.fget (F.PIN_CFG_FUNC_ACT (32 * b + k)) == 6
  (s.setReg (R.PIN_SW_OE b) v).each gone fun s k => s.filterRestart (32 * b + k)

/-- An edge of the edge core clock: the writes whose switch edge it is take effect in acceptance order (R393, R394). -/
def State.pinEdge (s : State) : State :=
  let l := s.pins.waits.map fun w => (w.1 - 1, w.2)
  let due := l.filter fun w => w.1 == 0
  let s1 := { s with pins := { s.pins with waits := l.filter fun w => w.1 != 0 } }
  if due.isEmpty then s1 else (s1.each due fun s w => s.pinSwitch w.2.1 w.2.2).trigIns

/-- The pin's set-up is locked (R395). -/
def State.pinLocked (s : State) (n : Nat) : Bool := s.selBit R.PIN_LOCKED n

/-- Writable fields of PIN_CFG. -/
def pinCfgMask : W32 := 0x7FBFF

/-- A PIN_CFG write is accepted; it takes effect at the second edge core edge from now. Before the commit the pins stay as a load
presents them, and the commit puts the settings in force (R284, R401). -/
def State.pinCfg (s : State) (n : Nat) (v : W32) : State :=
  if 192 ≤ n ∨ s.pinLocked n then s
  else
    let a := R.PIN_CFG n
    let w := v &&& pinCfgMask
    let s1 := s.setReg a ((s.reg a &&& ~~~pinCfgMask) ||| w)
    if s.image.committed then { s1 with pins := { s1.pins with waits := s1.pins.waits ++ [(2, n, w)] } } else s1

/-- The pins that a completed lock sequence names. -/
def lockTargets (p : Nat) : List Nat := if p = 0xFF then List.range 192 else if p < 192 then [p] else []

/-- The key words of the lock sequence. -/
def lockKey (i : Nat) : Nat := if i = 0 then 0x4B1D else if i = 1 then 0xB4E2 else 0x0FA5

/-- A PIN_LOCK write (R395). -/
def State.pinLock (s : State) (v : W32) : State :=
  let p := field v.toNat 0 8
  let key := field v.toNat 16 16
  let seq := s.fget F.PIN_STAT_LOCK_SEQ
  if 0 < seq ∧ key = lockKey seq ∧ p = s.pins.lockPin then
    if seq = 2 then
      (s.fset F.PIN_STAT_LOCK_SEQ 0).each (lockTargets p) fun s n => s.fset ⟨R.PIN_LOCKED (n / 32), n % 32, 1⟩ 1
    else s.fset F.PIN_STAT_LOCK_SEQ (seq + 1)
  else if key = lockKey 0 then { s with pins := { s.pins with lockPin := p } }.fset F.PIN_STAT_LOCK_SEQ 1
  else s.fset F.PIN_STAT_LOCK_SEQ 0

/-- Keys of the levels in `State.pinIn`. -/
def pinKey : PinId → Nat
  | .gpio n => n.toNat
  | .pps => 192
  | .wake => 193
  | .partnerP => 194
  | .partnerN => 195

/-- The device has the pin. -/
def pinHere : PinId → Bool
  | .gpio n => n.toNat < 192
  | _ => true

/-- PARTNER_OK as filtered, P in bit 1 (R309). -/
def State.partnerPins (s : State) : Nat :=
  2 * (SMap.get (fun _ => false) s.pinIn (pinKey .partnerP)).toNat + (SMap.get (fun _ => false) s.pinIn (pinKey .partnerN)).toNat

/-- Setting of an input's filter (R398, R401); WAKE's is fixed. -/
def State.filterOf (s : State) : PinId → Nat
  | .gpio n => s.fget (F.PIN_CFG_FILT n.toNat)
  | .pps => s.fget F.PIN_DFILT_PPS
  | .wake => 100
  | .partnerP | .partnerN => s.fget F.PIN_DFILT_PARTNER

/-- A level passes the input's filter. What PPS, WAKE and PARTNER_OK do has rows of its own. -/
def State.pinPasses (s : State) (p : PinId) (level : Bool) : State :=
  let s1 := { s with pinIn := SMap.set (fun _ => false) s.pinIn (pinKey p) level }
  match p with
  | .gpio n => s1.trigIn (n.toNat % 8)
  | _ => if s1.partnerPins = s.partnerPins then s1 else { s1 with splice := { s1.splice with pinsAt := s.time.now } }

/-- A level change at the land, which an I/O cell and an input without a filter see at once; or the level that has been stable there
passes the filter (R398). -/
def State.pinLevelChange (s : State) (p : PinId) (level filtered : Bool) : State :=
  if !pinHere p then s
  else if filtered then (if SMap.get (fun _ => false) s.land (pinKey p) == level then s.pinPasses p level else s)
  else
    let s1 := { s with land := SMap.set (fun _ => false) s.land (pinKey p) level }
    let s2 : State := match p with | .gpio n => s1.cellMoves n.toNat | _ => s1
    if s2.filterOf p = 0 then s2.pinPasses p level else s2

/-! ### The meanings -/

def execPinCfg (n : BitVec 8) (v : W32) (s : State) : Host.Outcome State Fault Refusal :=
  .next (s.hostCmd (R.PIN_CFG n.toNat) 0xFFFFFFFF v fun s => s.pinCfg n.toNat v)
def execPinLock (v : W32) (s : State) : Host.Outcome State Fault Refusal := .next (s.hostCmd R.PIN_LOCK 0xFFFFFFFF v fun s => s.pinLock v)
def execPinInput (p : PinId) (level : PinLevel) (s : State) : Host.Outcome State Fault Refusal :=
  .next (s.pinLevelChange p level.level level.filtered)

end Sys2Proof.Machine
end

