-- ==== Sys2Proof/Machine/Edge.lean ====
section
/-! DEFINITION. The edges of the edge blocks' clocks and the tap calibrators (R161, R170, R180). -/

namespace Sys2Proof.Machine

/-- REL and WIN of a die end with the cycle (R175). -/
def State.endStrobes (s : State) (die : Nat) : State :=
  let keep : BitVec 2 := ~~~BitVec.ofNat 2 (2 ^ die)
  { s with edge := { s.edge with rel := s.edge.rel &&& keep, win := s.edge.win &&& keep } }

/-- The clocks of the fabric, the trigger engine and the release stage run: not in Sleep or deeper (R183). -/
def State.edgeClocks (s : State) : Bool := decide (s.fget F.PWR_STAT_STATE < 2)

/-- A rising edge of a block clock of a die. The trigger engine and the release stage run on the edge core clock; the fabric
itself is held during a load (R170, R181). -/
def State.clockEdge (s : State) (die : Nat) (clk : EdgeClk) : State :=
  if !s.edgeClocks then s
  else
    let s1 := if clk = .core ∧ die = 0 then s.pinEdge.trigEdge else s
    let s2 := if s1.edgeRuns then s1.fabricEdge die clk else s1
    if clk = .core then (s2.readEdge die).endStrobes die else s2

def execBlockClockEdge (die : Bool) (clk : EdgeClk) (s : State) : Host.Outcome State Fault Refusal :=
  .next (if die && !s.big then s else s.clockEdge die.toNat clk)

/-- A bank calibrator ends a measurement; the taps are trimmed (R180). There are six banks (R184). -/
def execCalibratorUpdate (k : BitVec 3) (taps : BitVec 10) (s : State) : Host.Outcome State Fault Refusal :=
  if k.toNat < 6 then .next ((s.fset (F.EDG_CAL_TAPS k.toNat) taps.toNat).fset (F.EDG_CAL_LOCKED k.toNat) 1) else .next s

end Sys2Proof.Machine
end

