-- ==== Sys2Proof/Machine/Action.lean ====
section
/-! DEFINITION. The action plane (R255–R266): dispatch, the nodes of an action graph, the operations in flight, delay lists. -/

namespace Sys2Proof.Machine

/-! ### Units, flows and nodes -/

def State.actUnit (s : State) (u : Nat) : Unit_ := SMap.get (fun _ => ({} : Unit_)) s.act.units u
def State.setUnit (s : State) (u : Nat) (x : Unit_) : State :=
  { s with act := { s.act with units := SMap.set (fun _ => ({} : Unit_)) s.act.units u x } }
def State.actFlow (s : State) (f : Nat) : Flow := SMap.get (fun _ => ({} : Flow)) s.act.flows f
def State.setFlow (s : State) (f : Nat) (x : Flow) : State :=
  { s with act := { s.act with flows := SMap.set (fun _ => ({} : Flow)) s.act.flows f x } }

/-- Units of the part: 64, or 32 on the AY4060 and while an AY4060 image leaves P1 out of use (R2, R28). -/
def State.unitHere (s : State) (u : Nat) : Bool := u < (if s.closed then 32 else 64)

def unitDie (u : Nat) : Nat := u / 32

def State.unitFlow (s : State) (u : Nat) : Nat := s.fget (F.ACT_UNIT_FLOW u)

/-- Fields of a node word (R259). -/
def nOp (w : W128) : Nat := field w.toNat 0 8
def nDst (w : W128) : Nat := field w.toNat 8 4
def nA (w : W128) : Nat := field w.toNat 12 4
def nB (w : W128) : Nat := field w.toNat 16 4
def nNext (w : W128) : Nat := field w.toNat 20 6
def nAlt (w : W128) : Nat := field w.toNat 26 6
def nImm (w : W128) : Nat := field w.toNat 32 32
def nImm2 (w : W128) : W64 := BitVec.ofNat 64 (field w.toNat 64 64)

/-- The node the unit is at (R257, R259). -/
def State.nodeAt (s : State) (u : Nat) : W128 :=
  SMap.get (fun _ => (0 : W128)) s.act.graph (s.fget (F.ACT_FL_STAT_GRAPH (s.unitFlow u)) + s.fget (F.ACT_UNIT_NODE u))

/-- Register Vi of a unit. -/
def Unit_.reg (x : Unit_) (i : Nat) : W64 := x.v.getD i 0
def Unit_.setReg (x : Unit_) (i : Nat) (v : W64) : Unit_ := { x with v := x.v.set i v }

/-- Units and dispatcher run: the image is committed and the device is in Run or Idle (R266). -/
def State.actOn (s : State) : Bool := s.bit F.ACT_STAT_RUNNING && decide (s.fget F.PWR_STAT_STATE < 2)

/-- The unit executes its node now, and the node's operation code is `op`. -/
def State.actReady (s : State) (u op : Nat) : Bool :=
  s.unitHere u && s.actOn && s.bit (F.ACT_UNIT_BUSY u) && (s.actUnit u).wait.isNone && !(s.actUnit u).ended
    && nOp (s.nodeAt u) == op

/-! ### End of a service (R257, R263, R300) -/

/-- A fault of unit `u` at its node (R263). -/
def State.actFault (s : State) (u code : Nat) : State :=
  s.raiseAt (0x180 + u) code (0x30 + u) accWrite (s.unitFlow u * 64 + s.fget (F.ACT_UNIT_NODE u))

def State.tickNow (s : State) (d : Nat) : Nat := SMap.get (fun _ => 0) s.act.nows d

/-- What a service end sends to the partner (R300): the flow's flags other than queue flags, its mask and V2–V9, and the delay-list
entries that the service has added and removed, with their remaining ticks. -/
def State.deltaOf (s : State) (u : Nat) : FlowDelta :=
  let f := s.unitFlow u
  let x := s.actUnit u
  { turn := BitVec.ofNat 64 s.turnNum, flow := BitVec.ofNat 12 f, flags := s.flags f &&& ~~~s.queueFlags f
    mask := s.reg (R.ACT_FL_MASK f), v := (s.actFlow f).v
    added := (x.added.filter fun p => s.tickNow p.1.toNat < p.2.at_).map fun p =>
      (p.1, { p.2 with at_ := p.2.at_ - s.tickNow p.1.toNat })
    removed := x.removed }

/-- The service is over once END has executed and nothing of it is in flight. -/
def State.serviceOver (s : State) (u : Nat) : State :=
  if (s.actUnit u).ended ∧ (s.actUnit u).ops = [] ∧ s.bit (F.ACT_UNIT_BUSY u) then
    ((s.fset (F.ACT_UNIT_BUSY u) 0).fset (F.ACT_FL_STAT_IN_SERVICE (s.unitFlow u)) 0).mirror (.delta (s.deltaOf u))
  else s

/-- END: V2–V9 go back to the context. -/
def State.endService (s : State) (u : Nat) : State :=
  let x := s.actUnit u
  let f := s.unitFlow u
  ((s.setFlow f { s.actFlow f with v := (x.v.drop 2).take 8 }).setUnit u { x with ended := true, wait := none }).serviceOver u

/-- The unit goes on at a node offset; a service that reaches its 4,097th node ends (R263). -/
def State.goTo (s : State) (u next : Nat) : State :=
  let x := s.actUnit u
  let s1 := (s.setUnit u { x with nodes := x.nodes + 1, wait := none }).fset (F.ACT_UNIT_NODE u) next
  if x.nodes + 1 < 4096 then s1 else (s1.actFault u 0x0602).endService u

/-! ### Immediate nodes (R261) -/

/-- An immediate node that writes DST. -/
def State.immediate (s : State) (u op : Nat) (f : Unit_ → W128 → W64) : State :=
  if s.actReady u op then
    let w := s.nodeAt u
    let x := s.actUnit u
    (s.setUnit u (x.setReg (nDst w) (f x w))).goTo u (nNext w)
  else s

/-- A node that branches: to NEXT where the test holds, else to ALT. -/
def State.branch (s : State) (u op : Nat) (f : Unit_ → W128 → Bool) : State :=
  if s.actReady u op then
    let w := s.nodeAt u
    s.goTo u (if f (s.actUnit u) w then nNext w else nAlt w)
  else s

/-- A node that changes the frame buffer, or raises ACT_BOUNDS and does nothing (R263). -/
def State.framing (s : State) (u op : Nat) (f : Unit_ → W128 → Option (List TxWord)) : State :=
  if s.actReady u op then
    let w := s.nodeAt u
    match f (s.actUnit u) w with
    | some fr => (s.setUnit u { s.actUnit u with frame := fr }).goTo u (nNext w)
    | none => (s.actFault u 0x0601).goTo u (nNext w)
  else s

def aluMovi (_ : Unit_) (w : W128) : W64 := nImm2 w
def aluAdd (x : Unit_) (w : W128) : W64 := x.reg (nA w) + x.reg (nB w) + (BitVec.ofNat 32 (nImm w)).signExtend 64
def aluLogic (x : Unit_) (w : W128) : W64 :=
  let a := x.reg (nA w)
  let b := x.reg (nB w)
  match nImm w % 4 with
  | 0 => a &&& b
  | 1 => a ||| b
  | 2 => a ^^^ b
  | _ => a &&& ~~~b
def aluShift (x : Unit_) (w : W128) : W64 :=
  let a := x.reg (nA w)
  if (nImm w).testBit 6 then a >>> (nImm w % 64) else a <<< (nImm w % 64)
def aluField (x : Unit_) (w : W128) : W64 :=
  let width := field (nImm w) 8 6
  let y := x.reg (nA w) >>> (nImm w % 64)
  if width = 0 then y else y &&& BitVec.ofNat 64 (2 ^ width - 1)
def aluCmp (x : Unit_) (w : W128) : Bool :=
  let a := x.reg (nA w)
  let b := x.reg (nB w)
  match nImm w % 4 with
  | 0 => a == b
  | 1 => a != b
  | 2 => a.ult b
  | _ => !a.ult b
def aluTest (x : Unit_) (w : W128) : Bool := (x.reg (nA w)).getLsbD (nImm w % 64)
def aluHash (x : Unit_) (w : W128) : W64 :=
  (crcCastagnoli (leBytes 8 (x.reg (nA w)).toNat ++ leBytes 8 (x.reg (nB w)).toNat)).setWidth 64

/-! ### Frames (R259, R261, R262) -/

def frameBytes (f : List TxWord) : Bytes := f.flatMap fun w => leBytes 8 w.data.toNat

/-- The frame with bytes `bs` from byte `at_` on. -/
def frameWrite (f : List TxWord) (at_ : Nat) (bs : Bytes) : List TxWord :=
  let all := frameBytes f
  let new := all.take at_ ++ bs ++ all.drop (at_ + bs.length)
  f.zipIdx.map fun p => { p.1 with data := BitVec.ofNat 64 (leNat ((new.drop (8 * p.2)).take 8)) }

def framePatch (x : Unit_) (w : W128) : Option (List TxWord) :=
  let n := field (nImm w) 12 3 + 1
  let at_ := field (nImm w) 0 11
  let bs := leBytes n (x.reg (nA w)).toNat
  if at_ + n ≤ 8 * x.frame.length then
    some (frameWrite x.frame at_ (if (nImm w).testBit 15 then bs.reverse else bs))
  else none

def frameFcs (x : Unit_) (w : W128) : Option (List TxWord) :=
  let a := field (nImm w) 0 11
  let b := field (nImm2 w).toNat 0 11
  if b + 4 ≤ 8 * x.frame.length then
    some (frameWrite x.frame b (leBytes 4 (crcEthernet (((frameBytes x.frame).drop a).take (b - a))).toNat))
  else none

def frameTsreq (x : Unit_) (w : W128) : Option (List TxWord) :=
  let i := field (nImm w) 0 8
  if i < x.frame.length then
    some (x.frame.modify i fun t => { t with tsreq := true, tstag := (x.reg (nA w)).setWidth 16 })
  else none

/-- Bytes of a template of `n` words behind its header (R262). -/
def templateSize (n : Nat) : Nat := (n + 7) / 8 * 8 + 8 * n

/-- The words of a template of `n` words whose bytes after the header are `bs` (R262). -/
def templateWords (n : Nat) (bs : Bytes) : List TxWord :=
  (List.range n).map fun i =>
    { data := BitVec.ofNat 64 (leNat ((bs.drop ((n + 7) / 8 * 8 + 8 * i)).take 8)), ctlb := bs.getD i 0 }

/-! ### Operations in flight (R260) -/

/-- The unit finds an in-flight slot. -/
def State.slotFree (s : State) (u : Nat) : Bool :=
  decide ((s.actUnit u).ops.length < 64) && decide (s.fget F.ACT_STAT_INFLIGHT < 2048)

/-- An operation takes a slot. -/
def State.launchOp (s : State) (u : Nat) (o : ActOp) : State :=
  let x := s.actUnit u
  let n := s.fget F.ACT_STAT_INFLIGHT + 1
  (((s.setUnit u { x with ops := x.ops ++ [o] }).fset F.ACT_STAT_INFLIGHT n).fset F.ACT_STAT_PEAK
    (max n (s.fget F.ACT_STAT_PEAK))).fset (F.ACT_UNIT_SLOTS u) (s.fget (F.ACT_UNIT_SLOTS u) + 1)

/-- A node that issues an operation, `f` giving it or none for ACT_BOUNDS (R263). A waited operation holds its unit. -/
def State.issue (s : State) (u op : Nat) (waited : Bool) (f : Unit_ → W128 → Option ActOp) : State :=
  if s.actReady u op && s.slotFree u then
    let w := s.nodeAt u
    match f (s.actUnit u) w with
    | none => (s.actFault u 0x0601).goTo u (nNext w)
    | some o =>
      let s1 := s.launchOp u o
      if waited then s1.setUnit u { s1.actUnit u with wait := some (nNext w, nAlt w) } else s1.goTo u (nNext w)
  else s

/-- The address SA + IMM of a memory node; only multiples of 8 are in bounds (R261, R263). IMM is not sign-extended.
DEDUCED (log 34). -/
def nodeAddr (x : Unit_) (w : W128) : Option Nat :=
  let a := (x.reg (nA w) + BitVec.ofNat 64 (nImm w)).toNat
  if a % 8 = 0 then some a else none

def opLoad (x : Unit_) (w : W128) : Option ActOp := (nodeAddr x w).map fun a => .load (nDst w) a
def opStore (x : Unit_) (w : W128) : Option ActOp := (nodeAddr x w).map fun a => .store a (x.reg (nB w))
def opCount (x : Unit_) (w : W128) : Option ActOp := (nodeAddr x w).map fun a => .count a (x.reg (nB w))
def opBuild (_ : Unit_) (w : W128) : Option ActOp := some (.build (nImm2 w).toNat)
def opSendp (_ : Unit_) (w : W128) : Option ActOp := some (.sendp (field (nImm w) 0 10))
def opSendt (x : Unit_) (w : W128) : Option ActOp :=
  some (.sendt (field (nImm w) 0 7) (field (nImm w) 7 11) (x.reg (nB w) ++ x.reg (nA w)))
def opPost (x : Unit_) (w : W128) : Option ActOp := some (.post (field (nImm w) 0 14) (x.reg (nB w) ++ x.reg (nA w)))
def opEvent (_ : Unit_) (w : W128) : Option ActOp :=
  if (nImm w).testBit 31 then some (.soft (nImm w % 8)) else some (.flag (field (nImm w) 16 12) (nImm w % 32))
def opCancel (_ : Unit_) (w : W128) : Option ActOp := some (.cancel (field (nImm w) 8 2) (nImm w % 32) (nDst w))

/-- A delay of 0 ticks is taken as 1; the count runs from the count at issue (R261, R264, R265). -/
def State.opDelay (s : State) (x : Unit_) (w : W128) : Option ActOp :=
  let d := field (nImm w) 8 2
  some (.delay d (nImm w % 32) (s.tickNow d + max 1 ((x.reg (nA w)).toNat % 2 ^ 32)))

/-! ### Delay lists (R264, R265) -/

def State.delays (s : State) (d : Nat) : List DelayItem := SMap.get (fun _ => []) s.act.lists d

def State.setDelays (s : State) (d : Nat) (l : List DelayItem) : State :=
  ({ s with act := { s.act with lists := SMap.set (fun _ => []) s.act.lists d l } }).fset (F.ACT_DL_STAT_LEVEL d) l.length

/-- An entry in order of expiry, behind those of equal expiry. -/
def insertDelay (e : DelayItem) : List DelayItem → List DelayItem
  | [] => [e]
  | x :: xs => if e.at_ < x.at_ then e :: x :: xs else x :: insertDelay e xs

/-- The expired entries set their flags (R264). -/
def State.expire (s : State) (d : Nat) : State :=
  let l := s.delays d
  let due := l.filter fun e => e.at_ ≤ s.tickNow d
  (s.setDelays d (l.filter fun e => !(e.at_ ≤ s.tickNow d))).each due fun s e =>
    s.setFlags e.flow (BitVec.ofNat 32 (2 ^ e.flag))

/-- A tick of list `d`. In Sleep the count goes on, and the entries wait for the exit (R264, R266). -/
def State.delayTick (s : State) (d : Nat) : State :=
  if !s.image.committed then s
  else
    let n := s.tickNow d + 1
    let s1 := { s with act := { s.act with nows := SMap.set (fun _ => 0) s.act.nows d n } }.fset (F.ACT_DL_NOW_NOW d) n
    if s.fget F.PWR_STAT_STATE < 2 then s1.expire d else s1

/-! ### Completions (R260, R261) -/

/-- Bytes of the frame FIFO of a pattern channel in use (R245, R262). -/
def Pattern.fifoBytes (x : Pattern) : Nat := (x.fifo.foldl (fun n f => n + 8 * f.words.length) 0) + 8 * x.frame.length

/-- The operation of a waited node ends, and the unit goes on at NEXT or at ALT. -/
def State.resume (s : State) (u : Nat) (ok : Bool) : State :=
  match (s.actUnit u).wait with
  | some (n, a) => s.goTo u (if ok then n else a)
  | none => s

/-- BUILD: the template at `a` becomes the unit's frame (R261). -/
def State.buildFrame (s : State) (u a : Nat) : State :=
  let r := s.actReadAll a 8
  let n := leNat (r.2.take 2)
  if n = 0 ∨ 256 < n then (r.1.actFault u 0x0601).resume u true
  else
    let q := r.1.actReadAll (a + 8) (templateSize n)
    (q.1.setUnit u { q.1.actUnit u with frame := templateWords n q.2 }).resume u true

/-- DELAY: an entry joins list `d`, or its flag is set at once where its time has come (R261, R264). -/
def State.addDelay (s : State) (u d g at_ : Nat) : State :=
  let f := s.unitFlow u
  let l := s.delays d
  if 4096 ≤ l.length then (s.fset (F.ACT_DL_STAT_FULL_SEEN d) 1).resume u false
  else if at_ ≤ s.tickNow d then (s.setFlags f (BitVec.ofNat 32 (2 ^ g))).resume u true
  else
    let x := s.actUnit u
    let s1 := s.setUnit u { x with
      added := x.added ++ [(BitVec.ofNat 2 d, { flow := BitVec.ofNat 12 f, flag := BitVec.ofNat 5 g, at_ })] }
    (s1.setDelays d (insertDelay { at_, flow := f, flag := g } l)).resume u true

/-- CANCEL: the flow's entries of a flag leave list `d`, and their number is the result (R261). -/
def State.cancelDelay (s : State) (u d g dst : Nat) : State :=
  let f := s.unitFlow u
  let l := s.delays d
  let mine := fun (e : DelayItem) => e.flow == f && e.flag == g
  let s1 := (s.setDelays d (l.filter fun e => !mine e)).clearFlags f (BitVec.ofNat 32 (2 ^ g))
  let x := s1.actUnit u
  let gone := (l.filter mine).map fun e =>
    (BitVec.ofNat 2 d, ({ flow := BitVec.ofNat 12 f, flag := BitVec.ofNat 5 g, at_ := e.at_ - s.tickNow d } : DelayEntry))
  let y := { x with
    added := x.added.filter fun p => !(p.1.toNat == d && p.2.flag.toNat == g), removed := x.removed ++ gone }
  (s1.setUnit u (y.setReg dst (BitVec.ofNat 64 (l.filter mine).length))).resume u true

/-- The effect of an operation that completes. -/
def State.opEffect (s : State) (u : Nat) (o : ActOp) : State :=
  match o with
  | .load dst a =>
    let (s1, bs) := s.actRead a 8
    (s1.setUnit u ((s1.actUnit u).setReg dst (BitVec.ofNat 64 (leNat bs)))).resume u true
  | .store a v => s.actWrite a (leBytes 8 v.toNat)
  | .count a v => s.actWrite a (leBytes 8 (BitVec.ofNat 64 (leNat (s.actPeek a 8)) + v).toNat)
  | .build a => s.buildFrame u a
  | .sendp c =>
    let fr := (s.actUnit u).frame
    let x := s.pat c
    if s.bit (F.PAT_CTL_EN c) ∧ x.fifoBytes + 8 * fr.length ≤ 16384 then
      (s.setPat c { x with fifo := x.fifo ++ [⟨fr⟩] }).resume u true
    else s.resume u false
  | .sendt c w d =>
    if s.cordOn c ∧ s.act.tin.contains (u, c * 2048 + w) then s.fillWord (c * 2048 + w) ((0x30 + u) * 64) d
    else s.count F.ACT_TIN_UNASSIGNED_COUNT 1
  | .post q item =>
    let (s1, r) := s.queuePost (0x30 + u) q item
    s1.resume u (r != 1)
  | .flag f g => s.setFlags f (BitVec.ofNat 32 (2 ^ g))
  | .soft i => s.pulse (248 + i)
  | .delay d g at_ => s.addDelay u d g at_
  | .cancel d g dst => s.cancelDelay u d g dst

/-- The template at `a`, or its header, lies in a bank under handover to the action plane (R135). -/
def State.templateWaits (s : State) (a : Nat) : Bool :=
  let n := leNat ((s.actPeek a 8).take 2)
  let waits := fun (a n : Nat) => (actParts a n).any fun p => s.actMem p.1 false == .waits
  waits a 8 || (decide (n ≤ 256) && waits (a + 8) (templateSize n))

/-- An operation on a bank under handover to the action plane waits for it (R135). -/
def State.opWaits (s : State) : ActOp → Bool
  | .load _ a => s.actMem a false == .waits
  | .store a _ => s.actMem a true == .waits
  | .count a _ => s.actMem a true == .waits
  | .build a => s.templateWaits a
  | _ => false

/-- The unit's oldest operation completes and frees its slot; those of one service complete in issue order (R260). -/
def State.opComplete (s : State) (u : Nat) : State :=
  match (s.actUnit u).ops with
  | [] => s
  | o :: os =>
    if s.opWaits o then s
    else
      let s1 := ((s.setUnit u { s.actUnit u with ops := os }).fset F.ACT_STAT_INFLIGHT
        (s.fget F.ACT_STAT_INFLIGHT - 1)).fset (F.ACT_UNIT_SLOTS u) (s.fget (F.ACT_UNIT_SLOTS u) - 1)
      (s1.opEffect u o).serviceOver u

/-! ### Dispatch (R255–R258) -/

/-- A flow is ready (R255). -/
def State.flowReady (s : State) (f : Nat) : Bool :=
  (s.flags f &&& s.reg (R.ACT_FL_MASK f)) != 0 && !s.bit (F.ACT_FL_STAT_IN_SERVICE f)

/-- Ready flows by priority, then in round-robin order of flow number within it (R258). -/
def State.readyFlows (s : State) : List Nat :=
  let all := ((s.regs.filter fun p => R.ACT_FL_FLAGS 0 ≤ p.1 ∧ p.1 < R.ACT_FL_FLAGS 4096
    ∧ (p.1 - R.ACT_FL_FLAGS 0) % 0x20 = 0).map fun p => (p.1 - R.ACT_FL_FLAGS 0) / 0x20).filter s.flowReady
  [3, 2, 1, 0].flatMap fun pr =>
    let l := all.filter fun f => s.fget (F.ACT_FL_STAT_PRIO f) == pr
    let last := SMap.get (fun _ => 4096) s.act.turnOf pr
    l.filter (fun f => last < f) ++ l.filter (fun f => f ≤ last)

def State.unitFree (s : State) (u : Nat) : Bool := s.unitHere u && !s.bit (F.ACT_UNIT_BUSY u)

/-- A free unit: of die `d` first, and the lowest number within a die. -/
def State.freeUnit (s : State) (d : Nat) : Option Nat :=
  match (List.range 64).find? fun u => s.unitFree u && unitDie u == d with
  | some u => some u
  | none => (List.range 64).find? s.unitFree

/-- The lowest set bit. -/
def lowBit (v : W32) : Nat := ((List.range 32).find? fun i => v.getLsbD i).getD 0

/-- Flow `f` is dispatched to unit `u` (R257, R258). -/
def State.dispatchTo (s : State) (f u : Nat) : State :=
  let g := lowBit (s.flags f &&& s.reg (R.ACT_FL_MASK f))
  let x := s.actUnit u
  let fl := s.actFlow f
  let s0 := if x.cache.contains f then s else s.count F.ACT_MOVE_CNT_COUNT 1
  -- the context moves into the unit's cache
  let s1 := s0.each s0.act.units fun s p => s.setUnit p.1 { s.actUnit p.1 with cache := (s.actUnit p.1).cache.filter (· != f) }
  let (s2, item) := match s1.queueOf f g with
    | some q => s1.queuePop q
    | none => (s1.clearFlags f (BitVec.ofNat 32 (2 ^ g)), 0)
  let v := [item.setWidth 64, (item >>> 64).setWidth 64] ++ (fl.v ++ List.replicate 8 0).take 8 ++ List.replicate 6 0
  let s3 := s2.setUnit u { v, frame := x.frame, cache := (f :: x.cache.filter (· != f)).take 16 }
  let s4 := ((s3.fset (F.ACT_UNIT_BUSY u) 1).fset (F.ACT_UNIT_FLOW u) f).fset (F.ACT_UNIT_NODE u) (fl.entry.getD g 0)
  let s5 := ((s4.fset (F.ACT_FL_STAT_IN_SERVICE f) 1).fset (F.ACT_FL_STAT_WAIT_AFF f) 0).fset (F.ACT_FL_STAT_LAST_UNIT f) u
  let s6 := s5.setFlow f { fl with served := true, tired := false }
  { s6 with act := { s6.act with turnOf := SMap.set (fun _ => 4096) s6.act.turnOf (s6.fget (F.ACT_FL_STAT_PRIO f)) f } }

/-- What the dispatcher does with a ready flow: a unit for it, or it waits for its last unit (R258). -/
inductive Choice where
  | unit (u : Nat)
  | waits
  | noUnit
  deriving DecidableEq, Repr

def State.choose (s : State) (f : Nat) : Choice :=
  let fl := s.actFlow f
  let u := s.fget (F.ACT_FL_STAT_LAST_UNIT f)
  let other := match s.freeUnit (if fl.served then unitDie u else 0) with
    | some v => .unit v
    | none => .noUnit
  if !fl.served then other
  else if s.unitFree u then .unit u
  else if (s.actUnit u).cache.contains f && !fl.tired then .waits
  else other

/-- The head item of the flow's queue flag lies in a bank under handover (R135). -/
def State.itemWaits (s : State) (f : Nat) : Bool :=
  match s.queueOf f (lowBit (s.flags f &&& s.reg (R.ACT_FL_MASK f))) with
  | some q => s.actMem (s.itemAddr q (s.queueHead q)) false == .waits
  | none => false

/-- One dispatch to the units of a die: the first ready flow in order whose unit lies there. -/
def State.dispatchFirst (s : State) (die : Nat) : List Nat → State
  | [] => s
  | f :: fs =>
    match s.choose f with
    | .unit u => if unitDie u = die ∧ !s.itemWaits f then s.dispatchTo f u else s.dispatchFirst die fs
    | .waits => (s.fset (F.ACT_FL_STAT_WAIT_AFF f) 1).dispatchFirst die fs
    | .noUnit => s.dispatchFirst die fs

def State.dispatchOn (s : State) : Bool := s.actOn && !s.standby && !s.power.stopped

/-- A flow has waited 8 edges for its last unit: it goes to another free unit, or takes the next one (R258). -/
def State.waitOver (s : State) (f : Nat) : State :=
  if !s.bit (F.ACT_FL_STAT_WAIT_AFF f) || !s.dispatchOn then s
  else
    let s1 := (s.setFlow f { s.actFlow f with tired := true }).fset (F.ACT_FL_STAT_WAIT_AFF f) 0
    match s1.choose f with
    | .unit u => if s1.flowReady f ∧ !s1.itemWaits f then s1.dispatchTo f u else s1
    | _ => s1

/-! ### The meanings -/

def execDispatch (die : Bool) (s : State) : Host.Outcome State Fault Refusal :=
  .next (if s.dispatchOn then s.dispatchFirst die.toNat s.readyFlows else s)
def execAffinityWaitExpiry (f : BitVec 12) (s : State) : Host.Outcome State Fault Refusal := .next (s.waitOver f.toNat)

/-- END ends the service (R257). -/
def execActEnd (u : BitVec 6) (s : State) : Host.Outcome State Fault Refusal :=
  .next (if s.actReady u.toNat 0x00 then s.endService u.toNat else s)
def execMovi (u : BitVec 6) (s : State) : Host.Outcome State Fault Refusal := .next (s.immediate u.toNat 0x01 aluMovi)
def execAdd (u : BitVec 6) (s : State) : Host.Outcome State Fault Refusal := .next (s.immediate u.toNat 0x02 aluAdd)
def execLogic (u : BitVec 6) (s : State) : Host.Outcome State Fault Refusal := .next (s.immediate u.toNat 0x03 aluLogic)
def execShift (u : BitVec 6) (s : State) : Host.Outcome State Fault Refusal := .next (s.immediate u.toNat 0x04 aluShift)
def execFieldNode (u : BitVec 6) (s : State) : Host.Outcome State Fault Refusal := .next (s.immediate u.toNat 0x05 aluField)
def execCmp (u : BitVec 6) (s : State) : Host.Outcome State Fault Refusal := .next (s.branch u.toNat 0x06 aluCmp)
def execTest (u : BitVec 6) (s : State) : Host.Outcome State Fault Refusal := .next (s.branch u.toNat 0x07 aluTest)
def execHash (u : BitVec 6) (s : State) : Host.Outcome State Fault Refusal := .next (s.immediate u.toNat 0x08 aluHash)
def execNow (u : BitVec 6) (s : State) : Host.Outcome State Fault Refusal :=
  .next (s.immediate u.toNat 0x09 fun _ _ => shortTime s.time.now)
def execLoad (u : BitVec 6) (s : State) : Host.Outcome State Fault Refusal := .next (s.issue u.toNat 0x0A true opLoad)
def execStore (u : BitVec 6) (s : State) : Host.Outcome State Fault Refusal := .next (s.issue u.toNat 0x0B false opStore)
def execCount (u : BitVec 6) (s : State) : Host.Outcome State Fault Refusal := .next (s.issue u.toNat 0x0C false opCount)
def execBuild (u : BitVec 6) (s : State) : Host.Outcome State Fault Refusal := .next (s.issue u.toNat 0x0D true opBuild)
def execPatch (u : BitVec 6) (s : State) : Host.Outcome State Fault Refusal := .next (s.framing u.toNat 0x0E framePatch)
def execFcs (u : BitVec 6) (s : State) : Host.Outcome State Fault Refusal := .next (s.framing u.toNat 0x0F frameFcs)
def execTsreq (u : BitVec 6) (s : State) : Host.Outcome State Fault Refusal := .next (s.framing u.toNat 0x10 frameTsreq)
def execSendp (u : BitVec 6) (s : State) : Host.Outcome State Fault Refusal := .next (s.issue u.toNat 0x11 true opSendp)
def execSendt (u : BitVec 6) (s : State) : Host.Outcome State Fault Refusal := .next (s.issue u.toNat 0x12 false opSendt)
def execPost (u : BitVec 6) (s : State) : Host.Outcome State Fault Refusal := .next (s.issue u.toNat 0x13 true opPost)
def execEvent (u : BitVec 6) (s : State) : Host.Outcome State Fault Refusal := .next (s.issue u.toNat 0x14 false opEvent)
def execDelay (u : BitVec 6) (s : State) : Host.Outcome State Fault Refusal := .next (s.issue u.toNat 0x15 true s.opDelay)
def execCancel (u : BitVec 6) (s : State) : Host.Outcome State Fault Refusal := .next (s.issue u.toNat 0x16 true opCancel)

/-- MASK changes the own flow's flag mask at once (R261). -/
def execMask (u : BitVec 6) (s : State) : Host.Outcome State Fault Refusal :=
  let u := u.toNat
  if s.actReady u 0x17 then
    let w := s.nodeAt u
    let r := R.ACT_FL_MASK (s.unitFlow u)
    let imm : W32 := BitVec.ofNat 32 (nImm w)
    .next ((s.setReg r ((s.reg r &&& ~~~imm) ||| (((s.actUnit u).reg (nA w)).setWidth 32 &&& imm))).goTo u (nNext w))
  else .next s

/-- CLRF clears the own flow's flags, except queue flags (R256, R261). -/
def execClrf (u : BitVec 6) (s : State) : Host.Outcome State Fault Refusal :=
  let u := u.toNat
  if s.actReady u 0x18 then
    let w := s.nodeAt u
    .next ((s.clearFlags (s.unitFlow u) (BitVec.ofNat 32 (nImm w))).goTo u (nNext w))
  else .next s

def execActOpComplete (u : BitVec 6) (s : State) : Host.Outcome State Fault Refusal := .next (s.opComplete u.toNat)
def execDelayTick (d : BitVec 2) (s : State) : Host.Outcome State Fault Refusal := .next (s.delayTick d.toNat)

end Sys2Proof.Machine
end

