-- ==== Sys2Proof/Machine/Ports.lean ====
section
/-! DEFINITION. Deliveries of bights (R99–R105), and the memory ports' accesses and returns (R126–R132), with the scratch
banks' ownership (R134–R137). -/

namespace Sys2Proof.Machine

/-! ### Bights arriving at a station -/

/-- The present bight at a station, direction and position at the step in execution. -/
def State.bightAt (s : State) (stn dir pos : Nat) : Option Bight :=
  if s.core.phase = .slack then none
  else s.ring.bights.find? fun b => b.stn == stn && b.dir == dir && b.pos == pos && some b.at_ == s.core.cur

/-- Another present bight of the step is delivered to the same latch with a lower direction × 64 + position (R104). -/
def State.outranked (s : State) (stn t e key : Nat) : Bool :=
  (s.ring.bights.any fun b => b.stn == stn && b.at_ == t && decide (b.dir * 64 + b.pos < key)
      && entryKind (s.delivEntry stn t b.dir b.pos) == 1
      && field (s.delivEntry stn t b.dir b.pos) 15 15 == field e 15 15)
  || (let l := (s.strand (stn * 1024 + entryStrand e)).latch (entryTag e)
      l.at_ == some t && decide (l.key < key))

/-- A cancelled prefix of this turn has executed step `t` of the cord before (R154). -/
def State.reruns (s : State) (c t : Nat) : Bool := decide (t < s.core.redo) && s.core.redoBy.getLsbD c

/-- The latch after a delivery at step `t` (R37). -/
def Latch.deliver (l : Latch) (t key : Nat) (v : Bool) : Latch :=
  { val := v, valid := true, at_ := some t, key, prevVal := l.val, prevValid := l.valid }

/-- A delivery to the latch an entry names (R37, R104, R115). The re-run of a prefix raises no INBOX_OVERWRITE (R44, R154). -/
def State.deliver (s : State) (stn t dir pos e : Nat) (v : Bool) : State :=
  let g := stn * 1024 + entryStrand e
  let m := entryTag e
  let where_ := stn * 2 ^ 8 + dir * 2 ^ 5 + m
  if s.isolated stn then s
  else if s.outranked stn t e (dir * 64 + pos) then
    (s.stepFault g t 6 (0x0105, where_, accBight)).count (F.STN_COLL_COUNT stn) 1
  else
    let x := s.strand g
    let l := x.latch m
    let s1 := s.setStrand g (x.setLatch m (l.deliver t (dir * 64 + pos) v))
    if l.valid ∧ !s.reruns stn t then s1.stepFault g t 6 (0x0106, where_, accBight) else s1

/-- A present bight at a station: delivered, forwarded, both, or stray (R99, R100, R105). -/
def State.arrive (s : State) (b : Bight) : State :=
  let t := b.at_
  let e := if b.stn < 0x80 then s.delivEntry b.stn t b.dir b.pos else 0
  let forwards := (s.outEntries b.stn t).filter fun x =>
    entryKind x.2 = 2 ∧ entryInDir x.2 = b.dir ∧ entryInPos x.2 = b.pos
  let s1 := if entryKind e = 1 then
      (s.deliver b.stn t b.dir b.pos e b.val).probeBight b.stn 4 b.pos t b.val b.spec
    else s
  let s2 := s1.each forwards fun s x => s.launch b.stn (x.1 / 64) (x.1 % 64) t b.val b.spec
  if entryKind e ≠ 1 ∧ forwards = [] then s2.count (stnStray b.stn) 1 else s2

def execBightDelivery (stn : StnId) (dir : BitVec 3) (pos : BitVec 6) (s : State) :
    Host.Outcome State Fault Refusal :=
  match s.bightAt stn.toNat dir.toNat pos.toNat with
  | none => .next s
  | some b => .next ({ s with ring := { s.ring with bights := s.ring.bights.filter (· != b) } }.arrive b)

/-! ### Port operations -/

/-- Steps counted so far, as R126 counts them: the commit steps count as reached once step L − 1 executes. -/
def State.absNow (s : State) : Nat :=
  match s.core.cur with
  | none => s.core.base
  | some u => if u + 1 = s.schedL then s.core.base + u + 24 else s.core.base + u

/-- Step-clock edges counted so far for operations of earlier turns: beyond the commit those without a step count too (R130). -/
def State.lateNow (s : State) : Nat :=
  s.core.base + s.core.idle + (match s.core.phase, s.core.cur with
    | .turn, some u => u + 1
    | _, _ => 0)

/-- The operation's step `t` has come (R126, R130). -/
def State.opReached (s : State) (o : PortOp) (t : Nat) : Bool :=
  if s.core.base ≤ o.fire then decide (t ≤ s.absNow) else decide (t ≤ s.lateNow)

/-- A word of the turn input window that the turn in progress reads; a word not written reads 0 (R79). -/
def State.turnInWord (s : State) (c w : Nat) : W128 :=
  if s.core.readWin = 0 then 0
  else match SMap.find s.core.windows ((s.core.readWin - 1) * 2 ^ 18 + c * 2048 + w) with
    | some b => b.data
    | none => 0

/-- The word at `a` as a port read at access step `t` sees it: before a port write of the same access step (R129). -/
def State.portRead (s : State) (a t : Nat) : W128 :=
  match s.ring.oldWords.find? (fun o => o.addr == a && o.step == t) with
  | some o => o.word
  | none => s.rdWord a

/-- A port write of the enabled byte pairs (R124); the word before it stays known for the access step (R129). -/
def State.portWrite (s : State) (a t : Nat) (be : Byte) (v : W128) : State :=
  let old := s.rdWord a
  let keep := s.ring.oldWords.filter (fun o => o.step == t)
  let log := if keep.any (fun o => o.addr == a) then keep else keep ++ [⟨a, t, old⟩]
  ({ s with ring := { s.ring with oldWords := log } }).wrEnabled a (pairEnables be v)

/-- Replaces the first operation of port `k` that satisfies `p`, or removes it. -/
def replaceOp (p : PortOp → Bool) (f : PortOp → Option PortOp) : List PortOp → List PortOp
  | [] => []
  | o :: os => if p o then (match f o with | some o' => o' :: os | none => os) else o :: replaceOp p f os

def State.updOp (s : State) (k : Nat) (o : PortOp) (f : PortOp → Option PortOp) : State :=
  let p := s.port k
  s.setPort k { p with ops := replaceOp (· == o) f p.ops }

/-- The operation's access is done: a write leaves the port, a read keeps the word it got. -/
def State.accessDone (s : State) (k : Nat) (o : PortOp) (got : W128) : State :=
  s.updOp k o fun o => if o.write then none else some { o with accessed := true, got }

/-- A sound operation reaches its memory tier (R126, R129, R136, R139). -/
def State.performOp (s : State) (k : Nat) (o : PortOp) : State :=
  let c := k / 4
  let q := k % 4
  let acc := if o.write then accWrite else accRead
  let a := s.portAddr c q o.addr
  if o.mode = 1 then
    let a := cordMemAddr c a
    if o.write then (s.portWrite a o.access o.be o.data).accessDone k o 0
    else s.accessDone k o (s.portRead a o.access)
  else if o.mode = 2 then
    match (if o.granted then BankAnswer.granted else s.bankAnswer (bankOf a) (0x80 + c)) with
    | .waits => s
    | .refused => (s.nonOwnerAt (0x80 + c) a acc (c * 1024 + o.strand) o.step o.turn o.time).accessDone k o 0
    | .granted =>
      if o.write then (s.portWrite a o.access o.be o.data).accessDone k o 0
      else s.accessDone k o (s.portRead a o.access)
  else if o.mode = 3 then
    if !s.dramAllows (0x80 + c) a o.write then (s.memRefused (0x80 + c) a acc).accessDone k o 0
    else if o.write then (s.wrEnabled a (pairEnables o.be o.data)).accessDone k o 0
    else s.accessDone k o (s.rdWord a)
  else if o.mode = 4 then s.accessDone k o (s.turnInWord c o.addr)
  else
    let key := c * 2048 + o.addr
    let old := SMap.get (fun _ => (0 : W128)) s.core.outPend key
    ({ s with core := { s.core with
        outPend := SMap.set (fun _ => (0 : W128)) s.core.outPend key (mergePairs o.be old o.data) } }).accessDone k o 0

/-- The bank a scratch operation reaches. -/
def State.opBank (s : State) (k : Nat) (o : PortOp) : Nat := bankOf (s.portAddr (k / 4) (k % 4) o.addr)

/-- The use of bank `b` at access step `t` so far; at a new step the round robin goes on after the port served last. The rule
does not say where the first round begins: after the highest port. DESIGN CHOICE (log 91). -/
def State.bankUseAt (s : State) (b t : Nat) : BankUse :=
  match SMap.find s.ring.bankUse b with
  | some u => if u.step = t then u else { step := t, count := 0, base := u.last, last := u.last }
  | none => { step := t, count := 0, base := 511, last := 511 }

/-- Operations performed in bank `b` at access step `t` so far (R130). -/
def State.bankCount (s : State) (b t : Nat) : Nat := (s.bankUseAt b t).count

/-- Place of port `k` in the round robin that begins after port `base`. -/
def robin (base k : Nat) : Nat := (k + 511 - base) % 512

/-- An operation of port `k` is performed in bank `b` at access step `t`. -/
def State.useBank (s : State) (b t k : Nat) : State :=
  let u := s.bankUseAt b t
  let last := if u.count = 0 ∨ robin u.base u.last < robin u.base k then k else u.last
  { s with ring := { s.ring with bankUse := SMap.put s.ring.bankUse b { u with count := u.count + 1, last } } }

/-- The operation has not reached its memory and does not wait in a bank under handover. -/
def PortOp.open_ (o : PortOp) : Bool := !o.accessed && !o.waiting

/-- Operations of bank `b` that are served before operation `o` of port `k` at its access step: an earlier undelayed access
step first, then the round robin (R130). -/
def State.bankAhead (s : State) (b k : Nat) (o : PortOp) : Nat :=
  let base := (s.bankUseAt b o.access).base
  s.ports.foldl (fun n kp => n + (kp.2.ops.filter fun x =>
    x.open_ && x.mode == 2 && s.opBank kp.1 x == b && x.access == o.access
      && (decide (x.fire < o.fire) || (x.fire == o.fire && decide (robin base kp.1 < robin base k)))).length) 0

/-- A delayed operation whose undelayed access step is earlier than that of `o` is still to be performed in bank `b` (R130). -/
def State.delayedBefore (s : State) (b : Nat) (o : PortOp) : Bool :=
  s.ports.any fun kp => kp.2.ops.any fun x =>
    x.delayed && x.open_ && x.mode == 2 && s.opBank kp.1 x == b && decide (x.fire < o.fire) && decide (x.access ≤ o.access)

/-- A DRAM write of an earlier turn than `turn` has not landed (R132). -/
def State.olderDramWrite (s : State) (turn : Nat) : Bool :=
  s.ports.any fun kp => kp.2.ops.any fun o => o.write && o.mode == 3 && o.turn < turn

/-- An operation waits one step more for its bank (R130); `granted`: the bank grants it as it arrives (R135). -/
def PortOp.later (o : PortOp) (granted : Bool) : PortOp :=
  { o with access := o.access + 1, ret := o.ret + 1, delayed := true, granted := o.granted || granted }

/-- The scratch operation is performed, delayed by a full bank (R130), or it waits in a bank under handover in the order of
arrival (R135). -/
def State.scratchAccess (s : State) (k : Nat) (o : PortOp) : State :=
  let b := s.opBank k o
  let answer := s.bankAnswer b (0x80 + k / 4)
  if 4 ≤ s.bankCount b o.access + s.bankAhead b k o then
    let s1 := s.updOp k o (fun o => some (o.later (answer = .granted)))
    if o.delayed then s1 else s1.count (F.BNK_PORT_DELAY_COUNT b) 1
  else if answer = .waits ∧ !o.granted then
    let w : PortOp := { o with waiting := true }
    let s1 := s.updOp k o (fun _ => some w)
    { s1 with ring := { s1.ring with waits := s1.ring.waits ++ [(b, .port k w)] } }
  else (s.useBank b o.access k).performOp k o

/-- The access of the port's next operation, if its access step has come (R126) and the order rules allow it (R130, R132). -/
def State.accessNext (s : State) (k : Nat) : State :=
  match (s.port k).ops.find? (fun o => o.open_ && !o.delayed) with
  | none => s
  | some o =>
    if o.mode = 3 then
      if !o.write && s.olderDramWrite o.turn then s else s.performOp k o
    else if s.absNow < o.access && s.core.base ≤ o.fire then s
    else if o.mode = 2 then
      if s.delayedBefore (s.opBank k o) o then s else s.scratchAccess k o
    else s.performOp k o

def execPortAccess (cord : CordId) (q : BitVec 2) (s : State) : Host.Outcome State Fault Refusal :=
  .next (s.accessNext (portKey cord.toNat q.toNat))

/-- A delayed operation at its delayed step, after those with an earlier undelayed step (R130). -/
def State.delayedAccess (s : State) (k : Nat) : State :=
  match (s.port k).ops.find? (fun o => o.open_ && o.delayed) with
  | none => s
  | some o => if !s.opReached o o.access || s.delayedBefore (s.opBank k o) o then s else s.scratchAccess k o

def execBankDelayedAccess (cord : CordId) (q : BitVec 2) (s : State) : Host.Outcome State Fault Refusal :=
  .next (s.delayedAccess (portKey cord.toNat q.toNat))

/-- A port operation that waited in a bank is performed by its new owner (R135). -/
def State.serveOp (s : State) (k : Nat) (o : PortOp) : State :=
  let o' : PortOp := { o with waiting := false, granted := true }
  (s.updOp k o fun _ => some o').performOp k o'

/-- Operations of the old owner that reached bank `b` before the request are still to be completed (R135). -/
def State.oldOwnerBusy (s : State) (b : Nat) : Bool :=
  s.ports.any fun kp => kp.2.ops.any fun o => o.granted && o.open_ && s.opBank kp.1 o == b

/-- Data of a read enters the read register, effective from the start of step `t` (R126, R128). -/
def Port.enter (p : Port) (v : W128) (t : Nat) : Port := { p with rdata := v, rprev := p.rdata, entry := t }

/-- The step at which a read enters its register: its return step; beyond its turn's commit the first edge of the turn in progress,
or its delayed return edge if that is later (R126, R130). -/
def PortOp.entry (o : PortOp) (c : Core) : Nat :=
  if o.fire < c.base ∧ c.base ≤ o.ret then (if o.delayed then max o.ret c.turnEdge else c.turnEdge) else o.ret

/-- The read that enters first among the port's fixed-latency reads whose word has been read; of two that enter at one step the
later-fired one comes last, so its data stay (R128). -/
def nextReturn (c : Core) : List PortOp → Option PortOp
  | [] => none
  | o :: os =>
    match nextReturn c os with
    | none => if !o.write && o.mode != 3 && o.accessed then some o else none
    | some b => if !o.write && o.mode != 3 && o.accessed && o.entry c ≤ b.entry c then some o else some b

/-- The abs count of the next step to execute. -/
def State.nextAbs (s : State) : Nat :=
  match s.core.cur with
  | none => s.core.base
  | some u => s.core.base + u + 1

/-- The port's next return, at its return step, which commit step L + 23 may be at the latest; beyond the commit, once the next turn
has started, or at the delayed return edge if that is later (R126, R130). -/
def State.returnNext (s : State) (k : Nat) : State :=
  match nextReturn s.core (s.port k).ops with
  | none => s
  | some o =>
    let late := decide (o.fire < s.core.base)
    if late && s.core.base ≤ o.ret && (s.core.phase != .turn || (o.delayed && decide (s.lateNow + 1 < o.ret))) then s
    else if !late && min (s.absNow + 1) (s.core.base + s.schedL + 23) < o.ret then s
    else
      let s1 := s.updOp k o (fun _ => none)
      let s2 := s1.setPort k ((s1.port k).enter o.got (if late then s.nextAbs else o.ret))
      if o.mode = 2 then s2.fset (F.DMP_STAT_RD_OUT (k / 4) (k % 4)) (s2.fget (F.DMP_STAT_RD_OUT (k / 4) (k % 4)) - 1)
      else s2

def execPortReturn (cord : CordId) (q : BitVec 2) (s : State) : Host.Outcome State Fault Refusal :=
  .next (s.returnNext (portKey cord.toNat q.toNat))

/-- Deferred data arrives; data that missed its due edge is discarded and counted (R131). -/
def execDeferredDataArrival (cord : CordId) (q : BitVec 2) (s : State) : Host.Outcome State Fault Refusal :=
  let k := portKey cord.toNat q.toNat
  match (s.port k).ops.find? (fun o => o.mode == 3 && !o.write && o.accessed && !o.arrived) with
  | none => .next s
  | some o =>
    if o.late then .next ((s.updOp k o (fun _ => none)).count (F.DMP_LATE_DROP_COUNT cord.toNat q.toNat) 1)
    else .next (s.updOp k o (fun o => some { o with arrived := true }))

/-- Deferred reads of earlier turns are due at the first edge of the turn that starts (R131). -/
def State.deferredDue (s : State) : State :=
  s.each s.ports fun s kp =>
    let c := kp.1 / 4
    let q := kp.1 % 4
    let p := s.port kp.1
    match p.ops.find? (fun o => o.mode == 3 && !o.write && !o.late) with
    | none => s.setPort kp.1 { p with lateTurn := false }
    | some o =>
      let s1 := s.fset (F.DMP_STAT_DEF_PEND c q) 0
      if o.arrived then
        let s2 := s1.updOp kp.1 o (fun _ => none)
        s2.setPort kp.1 { (s2.port kp.1).enter o.got s.nextAbs with lateTurn := false }
      else
        let s2 := (s1.updOp kp.1 o (fun o => some { o with late := true })).fset (F.DMP_STAT_LATE c q) 1
        s2.setPort kp.1 { s2.port kp.1 with lateTurn := true }

/-- The ports of the cords that `gone` selects lose their operations, registers and counts (R124, R127, R141). -/
def State.dropPorts (s : State) (gone : Nat → Bool) : State :=
  let op := fun (w : Nat × BankWait) => match w.2 with
    | .port k _ => gone (k / 4)
    | .packet .. => false
  let s1 := { s with
    ports := s.ports.filter fun p => !gone (p.1 / 4)
    ring := { s.ring with waits := s.ring.waits.filter fun w => !op w } }
  s1.each ((List.range 512).filter fun k => gone (k / 4)) fun s k =>
    let c := k / 4
    let q := k % 4
    if s.reg (R.DMP_STAT c q) = 0 then s
    else ((s.fset (F.DMP_STAT_RD_OUT c q) 0).fset (F.DMP_STAT_DEF_PEND c q) 0).fset (F.DMP_STAT_WR_TURN c q) 0

/-! ### Scratch bank ownership -/

/-- A write of BNK_OWN_n requests a handover (R134). -/
def State.requestBank (s : State) (b : Nat) (master : MasterId) (owner : MasterId) (cords : Bool) : State :=
  let allowed := master == 0 || master == 1
    || isOwner master.toNat (s.fget (F.BNK_OWN_OWNER b)) (s.bit (F.BNK_OWN_CORDS b))
  if allowed && s.fget (F.BNK_STAT_STATE b) == 0 then
    ({ s with ring := { s.ring with nextOwner := SMap.put s.ring.nextOwner b (owner, cords) } }).fset
      (F.BNK_STAT_STATE b) 1
  else (s.fset (F.BNK_STAT_REFUSED b) 1).fset (F.BNK_STAT_REF_ID b) master.toNat

def execBnkOwnWrite (bank : BitVec 6) (master : MasterId) (value : W32) (s : State) :
    Host.Outcome State Fault Refusal :=
  let f := fun (s : State) =>
    if s.bankHere bank.toNat then s.requestBank bank.toNat master (value.setWidth 8) (value.getLsbD 8) else s
  .next (if master = 0 then s.hostCmd (R.BNK_OWN bank.toNat) 0xFFFFFFFF value f
    else if s.inReset || !masterOk master then s
    else s.transact 1 (regPacket master (R.BNK_OWN bank.toNat) (some value)) f fun _ => (0, []))

/-- The new owner takes the bank (R135). -/
def State.takeBank (s : State) (b : Nat) : State :=
  match SMap.find s.ring.nextOwner b with
  | none => s
  | some (o, cords) =>
    (((({ s with ring := { s.ring with nextOwner := SMap.del s.ring.nextOwner b } }).fset
      (F.BNK_OWN_OWNER b) (if cords then 0x80 else o.toNat)).setBit (F.BNK_OWN_CORDS b) cords).fset
      (F.BNK_STAT_STATE b) 0)

end Sys2Proof.Machine
end

