-- ==== Sys2Proof/Machine/Turn.lean ====
section
/-! DEFINITION. The turn unit (chapter 04): commit, prefixes, boundaries, output release, holds, halt and step, relock and
realign; the state digest (R301), the scrubber (R47) and the starting condition of a STANDBY (R299). -/

namespace Sys2Proof.Machine

/-! ### Events at commit (R62, R64, R254, R324) -/

/-- Released event `e`, marked by strand `g`: to the trigger engine, an action queue, or the fault collector. An event with
no other destination goes to the collector, and one mapped to an input and to a queue goes to both. DEDUCED (log 36). -/
def State.releaseEvent (s : State) (e g : Nat) : State :=
  let turn := s.turnNum
  let s1 := if s.bit (F.TRG_AEMAP_EN e) then s.pulse (128 + s.fget (F.TRG_AEMAP_INPUT e)) else s
  match SMap.find s1.act.eventQ e with
  | some q => s1.postBy (0x80 + gCord g) q (BitVec.ofNat 128 (turn + e * 2 ^ 64 + g * 2 ^ 74))
  | none =>
    if s.bit (F.TRG_AEMAP_EN e) then s1
    else
      -- commit step 10 or 11: the rule does not say which events go in which
      let step := s.schedL + 10 + (s1.freeBits 1).toNat
      (s1.drawn).raise { src := gCord g, code := 0x1000 + e, master := BitVec.ofNat 8 (0x80 + gCord g), acc := accPosted,
                         addr := e, time := s.time.now, turn, strand := g, step }

/-! ### The state digest (R301) -/

/-- M(k). -/
def digestMix (k : Nat) : W64 :=
  let x : W64 := BitVec.ofNat 64 (k * 0x9E3779B97F4A7C15)
  x ^^^ (x >>> 32)

/-- The sum over the staged writes of one strand. -/
def strandDigest (g : Nat) (staged : SMap Bool) : W64 :=
  staged.foldl (fun w p => w + digestMix (2048 * g + 2 * p.1 + p.2.toNat)) 0

/-- A DIVERGE of a STANDBY whose digest differs from the ACTIVE device's (R302). -/
def State.diverge (s : State) (j : Nat) : State :=
  let s1 := (s.raiseAt 0x284 0x0702 0 accWrite 0).fset F.SPL_STAT_DIVERGED 1
  if s.wget W.SPL_DIV_TURN_VALUE = 2 ^ 64 - 1 then s1.wset W.SPL_DIV_TURN_VALUE j else s1

/-- The digest after turn `j` with the sum `w`, and its comparison on a STANDBY (R301, R302). -/
def State.digestUpdate (s : State) (w : W64) : State :=
  let j := s.turnNum
  let old : W64 := BitVec.ofNat 64 (s.wget W.SPL_DIGEST_VALUE)
  let new : W64 := old.rotateLeft 1 ^^^ w ^^^ BitVec.ofNat 64 j
  let s1 := (s.wset W.SPL_DIGEST_VALUE new.toNat).wset W.SPL_DIGEST_TURN_VALUE j
  let s2 := { s1 with splice := { s1.splice with digestNew := true } }
  match SMap.find s2.splice.digests j with
  | some d => if s2.standby ∧ d ≠ new.toNat then s2.diverge j else s2
  | none => s2

/-! ### Commit (R64) -/

/-- Valid bits of a strand's latches as one word (R49). -/
def validWord (inbox : SMap Latch) : W32 :=
  inbox.foldl (fun v p => if p.2.valid then v ||| BitVec.ofNat 32 (2 ^ p.1) else v) 0

/-- An inbox with all valid bits cleared and the values kept. -/
def clearValid (inbox : SMap Latch) : SMap Latch :=
  SMap.mapv (fun _ => ({} : Latch)) (fun _ l => { val := l.val }) inbox

/-- A strand at commit: staged writes applied, valid bits cleared, ready for step 0. -/
def Strand.commit (x : Strand) : Strand :=
  { x with
    store := x.staged.foldl (fun v p => if p.2 then v ||| BitVec.ofNat 1024 (2 ^ p.1) else v &&& ~~~BitVec.ofNat 1024 (2 ^ p.1)) x.store
    staged := []
    snap := validWord x.inbox
    inbox := clearValid x.inbox
    histSave := x.hist
    pos := 0
    redo := 0 }

/-- A strand of a configured cord that is not isolated. -/
def State.strandOn (s : State) (g : Nat) : Bool := s.cordOn (gCord g) && !s.isolated (gCord g)

/-- The operations of a port that reach cord memory and the turn buffers have done so by the end of the commit (R80, R126). -/
def State.flushPort (s : State) (k : Nat) : State :=
  s.each (s.port k).ops fun s _ =>
    match (s.port k).ops.find? (fun o => !o.accessed && !o.delayed) with
    | some o => if o.mode = 1 ∨ 4 ≤ o.mode then s.accessNext k else s
    | none => s

/-- Steps 0–9: staged writes, valid bits, and the output sets. A word not written keeps its last value (R80). -/
def State.commitState (s : State) : State :=
  let s1 := s.each s.ports fun s p => s.flushPort p.1
  let s2 := s1.clearBights fun _ => true
  let after := SMap.mapv (fun _ => ({} : Strand)) (fun g x => if s2.strandOn g then x.commit else x) s2.strands
  let s3 := { s2 with strands := after }
  { s3 with core := { s3.core with
      outComm := s3.core.outComm ++ [{ due := false, turn := s3.turnNum, words := s3.core.outPend }] } }

/-- Steps 10–11: the marked events, in increasing number. -/
def State.commitEvents (s : State) : State :=
  (s.each s.core.asserts fun s p => s.releaseEvent p.1 p.2.2) |> fun s => { s with core := { s.core with asserts := [] } }

/-- The isolated cords. -/
def State.isoMask (s : State) : BitVec 128 :=
  (List.range 128).foldl (fun v c => if s.isolated c then v ||| BitVec.ofNat 128 (2 ^ c) else v) 0

/-- Step 20 and the end of the commit: the turn number goes up, FIRST ends where the cord ran, port counts restart. -/
def State.commitEnd (s : State) : State :=
  let iso := s.isoMask
  let s1 := s.wset W.TURN_NUM_TURN (s.turnNum + 1)
  let s2 := s1.each s1.ports fun s p => s.fset (F.DMP_STAT_WR_TURN (p.1 / 4) (p.1 % 4)) 0
  { s2 with
    ring := { s2.ring with specProbes := [] }
    core := { s2.core with
      phase := .slack, cur := none, base := s2.core.base + s2.schedL + 24, first := s2.core.first &&& iso,
      earlyOk := true, committed := true, readWin := 0, redo := 0, redoBy := 0, idle := 0 } }

/-- The commit of the turn in progress, after its step L − 1. -/
def State.commitTurn (s : State) : State :=
  if s.core.phase = .turn ∧ s.core.cur = some (s.schedL - 1) then
    let w := s.strands.foldl (fun w p => if s.strandOn p.1 then w + strandDigest p.1 p.2.staged else w) 0
    ((s.commitState.commitEvents).digestUpdate w).commitEnd
  else s

/-! ### Prefix (R77, R84, R85) -/

/-- The prefix of the next turn may start now. -/
def State.prefixMayStart (s : State) : Bool :=
  s.image.committed && s.core.phase == .slack && s.core.started && s.core.earlyOk && s.bit F.TURN_CTL_EARLY_EN
    && decide (0 < s.schedE) && !s.prefixHold

/-- The effects of a cancelled prefix on a strand (R44); the steps it has executed run again (R154). -/
def Strand.cancel (x : Strand) : Strand :=
  { x with hist := x.histSave, staged := [], inbox := clearValid x.inbox, pos := 0, redo := max x.redo x.pos }

/-- Steps of the turn or prefix in progress that have been executed or are in execution. -/
def Core.ran (c : Core) : Nat := match c.cur with | some u => u + 1 | none => 0

def State.cancelPrefix (s : State) : State :=
  let s1 := s.clearBights fun _ => true
  let after := SMap.mapv (fun _ => ({} : Strand)) (fun g x => if s1.strandOn g then x.cancel else x) s1.strands
  let s2 := { s1 with strands := after }
  let s3 := (s2.cancelProbes.count F.TURN_CANCEL_CNT_COUNT 1).fset F.TURN_STAT_CANCELLED 1
  { s3 with
    ring := { s3.ring with specInj := [] }
    core := { s3.core with
      phase := .slack, cur := none, earlyOk := false, asserts := [], redo := max s3.core.redo s3.core.ran, redoBy := s3.image.cords &&& ~~~s3.isoMask } }

/-! ### Starting turns on a STANDBY (R299, R300, R305) -/

def State.heldTurn (s : State) (j : Nat) : HeldTurn := SMap.get (fun _ => ({} : HeldTurn)) s.splice.held j

/-- The window and the turn record of turn `j` have arrived completely. -/
def State.heldDone (s : State) (j : Nat) : Bool :=
  let h := s.heldTurn j
  h.flags.isSome && h.start.isSome && decide (s.fillWords.length ≤ h.words.length)

/-- SPL_LAG.HELD. -/
def State.showHeld (s : State) : State :=
  s.fset F.SPL_LAG_HELD (s.splice.held.filter fun p => s.heldDone p.1).length

/-- Lag in spans of a turn that starts at boundary `b` with A(j) = `a`. -/
def State.lagAt (s : State) (b : Nat) (a : Int) : Nat := ((s.boundaryAt b - a) / (max s.span 1 : Nat)).toNat

/-- Turn `j` may start at boundary `b`. -/
def State.heldReady (s : State) (j b : Nat) : Bool :=
  s.heldDone j && (match (s.heldTurn j).start with
    | some a => decide (a + (s.fget F.SPL_CFG_D * s.span : Nat) ≤ s.boundaryAt b)
    | none => false)
  && (match s.splice.partIso with | some t => decide (j < t) | none => true)
  && (match s.splice.partRel with | some t => decide (j < t) | none => true)

/-- A device that is not a STANDBY starts turns without a condition; a LAPSED device starts none. -/
def State.standbyStarts (s : State) (b : Nat) : Bool :=
  let st := s.fget F.SPL_STAT_STATE
  if st = 3 then s.heldReady s.nextTurn b
  else if st = 5 then
    if s.nextTurn < s.splice.own then s.heldReady s.nextTurn b
    else match s.splice.bs with | some x => decide (x < b) | none => false
  else st != 6

/-- A flow context delta is applied (R300). -/
def State.applyDelta (s : State) (d : FlowDelta) : State :=
  let f := d.flow.toNat
  let qf := s.queueFlags f
  let s1 := (s.setReg (R.ACT_FL_FLAGS f) ((s.flags f &&& qf) ||| (d.flags &&& ~~~qf))).setReg (R.ACT_FL_MASK f) d.mask
  let s2 := s1.setFlow f { s1.actFlow f with v := d.v }
  let s3 := s2.each d.removed fun s e =>
    s.setDelays e.1.toNat ((s.delays e.1.toNat).filter fun x => !(x.flow == e.2.flow.toNat && x.flag == e.2.flag.toNat))
  s3.each d.added fun s e =>
    s.setDelays e.1.toNat (insertDelay { at_ := s.tickNow e.1.toNat + e.2.at_, flow := e.2.flow.toNat, flag := e.2.flag.toNat }
      (s.delays e.1.toNat))

/-- The held window and record of turn `j` are used by the turn that starts at boundary `b`. -/
def State.takeHeld (s : State) (j b : Nat) : State :=
  let h := s.heldTurn j
  let fl := h.flags.getD []
  let words := h.words.filter fun p => fl.getD p.1 false
  let s1 := s.each words fun s p =>
    let w : BinWord := { data := p.2, stamp := 0, rank := 0 }
    { s with core := { s.core with windows := SMap.put s.core.windows (b * 2 ^ 18 + s.fillWords.getD p.1 0) w } }
  let s2 := s1.each h.deltas State.applyDelta
  let a := h.start.getD 0
  let s3 := { s2 with splice := { s2.splice with held := SMap.del s2.splice.held j, lastA := a } }
  (s3.fset F.SPL_LAG_LAG (s3.lagAt b a)).showHeld

/-- The lag of the next turn would exceed D + 4 (R299). -/
def State.lapses (s : State) (b : Nat) : Bool :=
  s.fget F.SPL_STAT_STATE == 3 &&
  match (s.heldTurn s.nextTurn).start with
  | some a => decide (s.fget F.SPL_CFG_D + 4 < s.lagAt b a)
  | none => false

/-! ### Boundaries (R79, R81, R82, R86, R300) -/

/-- The written words of the window that closes at boundary `b`. -/
def State.windowOf (s : State) (b : Nat) : SMap BinWord := SMap.range s.core.windows (b * 2 ^ 18) ((b + 1) * 2 ^ 18)

/-- A single-stepped turn may start: the host halt is the only hold in force (R86). -/
def State.stepStarts (s : State) : Bool :=
  s.fget ⟨R.TURN_HOLD_SRC, 0, 6⟩ == 8 && s.bit F.TURN_STAT_STEPPING

/-- The heartbeat of a boundary, and with a starting turn its written flags (R300). -/
def State.beatOut (s : State) (b : Nat) (starts : Option Nat) : State :=
  let dg := if s.splice.digestNew && s.fget F.SPL_STAT_STATE == 2 then some (s.wget W.SPL_DIGEST_TURN_VALUE, s.wget W.SPL_DIGEST_VALUE) else none
  let s1 := s.mirror (.heartbeat (s.boundaryAt b).toNat (if s.fget F.SPL_STAT_STATE = 2 then starts else none) dg)
  let s2 := { s1 with splice := { s1.splice with digestNew := false } }
  match starts with
  | some j => s2.mirror (.flags j (s2.fillWords.map fun k => (SMap.find s2.core.windows (b * 2 ^ 18 + k)).isSome))
  | none => s2

/-- The stream carries every assigned word of a window in every turn (R297): those that no source has written follow when the turn
starts. What they hold is read by nothing and stated nowhere: a free value (log 111). -/
def State.restOut (s : State) (b j : Nat) : State :=
  if !s.splice.paired || s.fget F.SPL_STAT_STATE != 2 then s
  else
    s.each s.fillWords.zipIdx fun s p =>
      if (SMap.find s.core.windows (b * 2 ^ 18 + p.1)).isSome then s else (s.mirror (.word j p.2 (s.freeBits 128))).drawn

/-- A turn starts at boundary `b` and reads the window that closes there. -/
def State.startTurn (s : State) (b : Nat) : State :=
  let j := s.turnNum
  let s0 := if s.standby && (s.fget F.SPL_STAT_STATE != 5 || j < s.splice.own) then s.takeHeld j b else s
  let inj := s0.ring.specInj.foldl (fun m p => SMap.set (fun _ => false) m p.1 p.2) s0.ring.lastInj
  let s1 := { s0 with
    ring := { s0.ring with lastInj := inj, specInj := [] }
    core := { s0.core with
      phase := .turn, readWin := b + 1, earlyOk := false, stepping := s0.bit F.TURN_STAT_STEPPING,
      idle := s0.core.idle - (if s0.core.phase = Phase.early then s0.core.ran else 0), missed := none, overran := false, notBefore := none,
      turnEdge := s0.core.base + s0.core.idle + 1,
      windows := s0.core.windows.filter fun p => b * 2 ^ 18 ≤ p.1 } }
  (((s1.deferredDue).fset F.TURN_STAT_HALTED 0).restOut b j).beatOut b (some j)

/-- No turn starts at boundary `b`: the window is discarded (R79), the slip counted, and a halt shows (R86). The first boundary
that a turn in progress misses is kept for the record of its overrun (R87). -/
def State.skipTurn (s : State) (b : Nat) : State :=
  let s1 := (s.count F.TURN_IN_DROP_COUNT (s.windowOf b).length).count F.TURN_SLIP_COUNT 1
  let s2 := { s1 with core := { s1.core with
    windows := SMap.drop s1.core.windows (b * 2 ^ 18) ((b + 1) * 2 ^ 18)
    missed := if s1.core.phase = Phase.turn ∧ !s1.core.overran ∧ s1.core.missed.isNone then some s1.time.now else s1.core.missed } }
  let s3 := if s2.bit F.TURN_HOLD_SRC_HALT && s2.core.phase != .turn then s2.fset F.TURN_STAT_HALTED 1 else s2
  s3.beatOut b none

/-- The holds of the splice unit at boundary `b`: an ACTIVE device's ends at its first turn, a STANDBY's is decided here. -/
def State.spliceHold (s : State) (b : Nat) : State :=
  let st := s.fget F.SPL_STAT_STATE
  if st = 2 ∧ s.splice.paired ∧ s.splice.startAt ≤ s.boundaryAt b then s.fset F.TURN_HOLD_SRC_SPLICE 0
  else if st = 3 ∨ st = 5 ∨ st = 6 then
    if s.lapses b then
      ((s.fset F.SPL_STAT_STATE 6).raiseAt 0x284 0x0703 0 0 0).fset F.TURN_HOLD_SRC_SPLICE 1
    else if s.standbyStarts b then s.fset F.TURN_HOLD_SRC_SPLICE 0
    else
      let s1 := s.fset F.TURN_HOLD_SRC_SPLICE 1
      if st != 6 then s1.count F.SPL_HOLD_CNT_COUNT 1 else s1
  else s

/-- On a promoting device, Bs is the later of the first boundary after the declaration and the one at which turn n_f starts
(R305). -/
def State.findBs (s : State) (b : Nat) : State :=
  if s.fget F.SPL_STAT_STATE = 5 ∧ s.splice.bs = none ∧ s.splice.own ≤ s.nextTurn then
    { s with splice := { s.splice with bs := some b } }
  else s

/-- Boundaries that have passed without a heartbeat of the partner (R304). -/
def State.beatMiss (s : State) : State :=
  let s1 := if s.splice.paired && !s.splice.beat then s.count F.SPL_HB_MISS_COUNT 1 else s
  { s1 with splice := { s1.splice with beat := false } }

/-- Device time that a SPAN lasts: under anchor-lane lock that of SPAN words at their nominal duration, rounded up (R72). -/
def State.spanTime (s : State) : Nat :=
  if !s.bit F.TURN_CFG_LOCK_SRC then s.span else
  let n := s.fget F.TURN_ANCHOR_LANE
  let k := max 1 (s.kbps n)
  (s.span * wireBits (s.pcs n) * 65536000000 + (k - 1)) / k

/-- A relock leaves the flywheel's boundaries at least one SPAN before the new T0 (R89). -/
def State.beforeRelock (s : State) : Bool :=
  match s.core.anchorT0 with
  | some t => decide (s.time.now + s.spanTime ≤ t)
  | none => true

/-- The boundary grid runs: an image is committed and its T0 is placed, or the flywheel runs on (R73, R88, R89). In Deep sleep the
time unit is stopped (R334). -/
def State.gridRuns (s : State) : Bool :=
  s.image.committed && decide (s.fget F.PWR_STAT_STATE < 3) &&
    (if s.bit F.TURN_STAT_FLYWHEEL then s.beforeRelock else !s.bit F.TURN_STAT_LOCK_WAIT && s.core.anchorT0.isNone)

/-- Boundary `b` lies before the first one at which a turn may start after an exit (R91). -/
def State.tooSoon (s : State) (b : Nat) : Bool :=
  match s.core.notBefore with
  | some t => if s.bit F.TURN_CFG_LOCK_SRC then decide ((s.time.now : Int) < t) else decide (s.boundaryAt b + s.core.ltOff < t)
  | none => false

/-- The boundary after a single-stepped turn ends STEPPING (R86). -/
def State.stepEnds (s : State) : State :=
  if s.core.stepping && s.core.phase != .turn then
    ({ s with core := { s.core with stepping := false } }).fset F.TURN_STAT_STEPPING 0
  else s

/-- A boundary passes. A prefix that has run all its steps and idles meets a hold here as one stopped before a step does: it is
cancelled. DESIGN CHOICE (log 123). -/
def State.boundaryNow (s : State) : State :=
  let b := s.core.boundary
  let s0 := if b = s.core.origin ∧ s.core.anchorT0 = none then (s.fset F.TURN_HOLD_SRC_LOCK 0).trimWindow b else s
  let s1 := (s0.beatMiss).spliceHold b
  let s2 := if s1.core.phase = .early ∧ s1.turnHold then s1.cancelPrefix else s1
  let s3 := { s2 with core := { s2.core with outComm := s2.core.outComm.map fun (o : OutSet) => { o with due := true } } }
  let s3' := s3.stepEnds
  let s4 := if s3'.core.phase ≠ .turn ∧ (!s3'.turnHold ∨ s3'.stepStarts) ∧ !s3'.tooSoon b then s3'.startTurn b
    else s3'.skipTurn b
  let s5 := s4.findBs b
  let s6 := { s5 with
    edge := { s5.edge with win := 3 }
    core := { s5.core with boundary := b + 1, started := true, committed := false } }
  s6.each (s6.windowOf (b + 1)) fun s p => s.mirrorFill (p.1 % 2 ^ 18) p.2.data

/-! ### Release of outputs (R81, R175) -/

/-- The committed set whose boundary has passed becomes the visible set. -/
def State.releaseOutputs (s : State) : State :=
  match s.core.outComm with
  | [] => s
  | o :: os =>
    if o.due then
      { s with
        core := { s.core with outVis := o.words, outComm := os }
        edge := { s.edge with rel := 3, relTurn := BitVec.ofNat 8 o.turn } }
    else s

/-! ### Overrun, anchor, halt, step, relock, realign (R86–R90) -/

/-- The step in execution at a missed edge. Once step L − 1 has executed it may be that step or one of the commit steps before
step 23, which the commands do not time: a free value (log 97). -/
def State.missedStep (s : State) : Nat :=
  match s.core.cur with
  | none => 0
  | some u => if u + 1 = s.schedL then u + (s.freeBits 16).toNat % 24 else u

/-- The turn in progress overruns: once for each turn, at the first boundary it misses (R87, R152). -/
def State.overrun (s : State) : State :=
  match s.core.phase, s.core.missed with
  | .turn, some at_ =>
    let s1 := (s.drawn).raise
      { src := 0x280, code := 0x010F, master := 0, acc := accInstr, addr := 0, time := at_, turn := s.turnNum,
        strand := noStrand, step := s.missedStep }
    let s2 := { s1 with core := { s1.core with missed := none, overran := true } }
    ((s2.count F.TURN_OVR_CNT_COUNT 1).fset F.TURN_STAT_OVERRUN 1).fset F.TURN_SLACK_MIN_MIN 0
  | _, _ => s

def State.haltNow (s : State) (v : Bool) : State := (s.setBit F.TURN_CTL_HALT v).setBit F.TURN_HOLD_SRC_HALT v

/-- The anchor lane is locked again, and the host asks for a new T0 (R89). A second RELOCK during the wait restarts it. DESIGN
CHOICE (log 98). -/
def State.relockNow (s : State) : State :=
  if s.bit F.TURN_STAT_FLYWHEEL && s.pcsLocked (s.fget F.TURN_ANCHOR_LANE) then
    ({ s with core := { s.core with anchorT0 := some (s.time.now + tenMicro) } }).fset F.TURN_HOLD_SRC_LOCK 1
  else s

/-- The smallest line time at least 10 µs after `tc` that is PHASE modulo SPAN (R73). -/
def State.t0After (s : State) (tc : Nat) : Nat :=
  let m := tc + tenMicro
  let p := max s.span 1
  m + (s.fget F.TURN_PHASE_VALUE + p - m % p) % p

/-- A new T0 under timebase lock: the next boundary falls there. -/
def State.newT0 (s : State) : State := s.gridAt (s.t0After s.lineTime.toNat)

/-- The realign of R90; its hold ends at the new T0. The words of the open window follow the change of line time (R79). -/
def State.realignNow (s : State) : State :=
  if s.bit F.TURN_STAT_HALTED && !s.bit F.TURN_CFG_LOCK_SRC then
    let d := s.core.ltOff
    let s1 := { s with
      core := { s.core with ltOff := 0 }
      splice := { s.splice with startAt := s.splice.startAt + d } }.wset W.TURN_LT_OFFSET_OFFSET 0
    let s2 := s1.newT0
    (s2.rebin ((s2.wget W.TURN_T0_T0 : Int) - d) d).fset F.TURN_HOLD_SRC_LOCK 1
  else s

/-! ### The scrubber (R47) -/

/-- The cord executes no schedule, commit or prefix step now. -/
def State.coreIdle (s : State) : Bool :=
  s.core.phase == .slack || (s.core.phase == .early && s.core.cur == some (s.schedE - 1))

/-- The scrubber's work on one word. -/
def State.scrubWord (s : State) (g t : Nat) : State :=
  match SMap.find s.instrs (g * 4096 + t) with
  | none => s
  | some w =>
    match decodeSyndrome (syndrome w) with
    | .clean => s
    | .uncorrectable => s.countUe g t (syndrome w) 1
    | _ =>
      let s1 := { s with instrs := SMap.put s.instrs (g * 4096 + t) (storedWord (correctedData w)) }
      (s1.count (F.CRD_CE_SCRUB_COUNT (gCord g)) 1).setReg (R.CRD_CE_LOC (gCord g))
        (BitVec.ofNat 32 (locWord (g % 1024) t (syndrome w) 1))

/-- One scrub step. Its 1,024 words are taken in increasing strand number, so where several hold errors CRD_UE_LOC keeps the lowest
and CRD_CE_LOC the highest: the rule gives no order. DESIGN CHOICE (log 99). -/
def State.scrub (s : State) (c : Nat) : State :=
  if s.cordOn c && !s.isolated c && s.bit (F.CRD_SCRUB_EN c) && s.coreIdle && s.fget F.PWR_STAT_STATE == 0 then
    let t := s.fget (F.CRD_SCRUB_PTR c)
    let s1 := s.each (List.range 1024) fun s n => s.scrubWord (c * 1024 + n) t
    let s2 := s1.fset (F.CRD_SCRUB_PTR c) (t + 1)
    if t = 4095 then s2.countWrap (F.CRD_SCRUB_PASS_PASSES c) 1 else s2
  else s

/-! ### The meanings -/

def execCommit (s : State) : Host.Outcome State Fault Refusal := .next (s.watch [14] State.commitTurn)

/-- The turn's slack is what remains of the span in steps, which the commands do not time: a free value (log 37). -/
def execTurnBoundary (s : State) : Host.Outcome State Fault Refusal :=
  if !s.gridRuns then .next s
  else
    let s1 := if s.core.committed then
        (s.fset F.TURN_SLACK_MIN_MIN (min (s.fget F.TURN_SLACK_MIN_MIN) (s.freeBits 13).toNat)).drawn
      else s
    .next (s1.watch [10] fun s => s.boundaryNow)

/-- The prefix of the next turn starts (R77). -/
def execPrefixStart (s : State) : Host.Outcome State Fault Refusal :=
  if s.prefixMayStart then .next { s with core := { s.core with phase := .early, cur := none } } else .next s

/-- A prefix in progress meets a hold (R84). -/
def execPrefixCancel (s : State) : Host.Outcome State Fault Refusal :=
  if s.core.phase = .early ∧ s.prefixHold then .next s.cancelPrefix else .next s

def execOutputRelease (s : State) : Host.Outcome State Fault Refusal := .next s.releaseOutputs
def execTurnOverrun (s : State) : Host.Outcome State Fault Refusal := .next (s.watch [11] fun s => s.overrun)
def execScrubStep (cord : CordId) (s : State) : Host.Outcome State Fault Refusal := .next (s.scrub cord.toNat)
/-- The turn unit's side of an anchor loss; one of a lane without lock has been told before. -/
def execAnchorLost (s : State) : Host.Outcome State Fault Refusal :=
  if s.bit F.TURN_STAT_FLYWHEEL && !s.pcsLocked (s.fget F.TURN_ANCHOR_LANE) then .next s else .next s.loseAnchor
def execHalt (v : Bool) (s : State) : Host.Outcome State Fault Refusal :=
  .next (s.hostCmd R.TURN_CTL 1 (BitVec.ofNat 32 (v.toNat * 2 ^ 0)) fun s => (s.haltNow v))

/-- A STEP write while HALTED is 0 is discarded (R86). -/
def State.stepNow (s : State) : State := if s.bit F.TURN_STAT_HALTED then s.fset F.TURN_STAT_STEPPING 1 else s

def execSingleStep (s : State) : Host.Outcome State Fault Refusal :=
  .next (s.hostCmd R.TURN_CTL 2 2 fun s => s.stepNow)

def execRelock (s : State) : Host.Outcome State Fault Refusal :=
  .next (s.hostCmd R.TURN_CTL 8 8 fun s => s.relockNow)
def execRealign (s : State) : Host.Outcome State Fault Refusal :=
  .next (s.hostCmd R.TURN_CTL 0x10 0x10 fun s => s.realignNow)
def execSlackRst (s : State) : Host.Outcome State Fault Refusal :=
  .next (s.hostCmd R.TURN_CTL 0x20 0x20 fun s => (s.fset F.TURN_SLACK_MIN_MIN 0x1FFF))

end Sys2Proof.Machine
end

