-- ==== Sys2Proof/Machine/Ring.lean ====
section
/-! DEFINITION. Monitors and reconfiguration of stations (R106, R116, R118, R120). -/

namespace Sys2Proof.Machine

/-- CLR of a probe: its counts go to 0 (R121). -/
def State.clearProbe (s : State) (n : Nat) : State :=
  (s.wset (W.NOC_PRB_CNT_COUNT n) 0).wset (W.NOC_PRB_BYTES_COUNT n) 0

def execPrbClr (n : BitVec 6) (s : State) : Host.Outcome State Fault Refusal :=
  .next (s.hostCmd (R.NOC_PRB_CTL n.toNat) 2 2 fun s => s.clearProbe n.toNat)

/-- A read of G32_BW_n (R120): it answers the byte count, copies the bins, and clears both. -/
def State.bwRead (s : State) (n : Nat) : State :=
  let v := s.reg (R.G32_BW n)
  let s1 := s.each (List.range 16) fun s b => s.setReg (R.G32_HIST n b) (BitVec.ofNat 32 (s.latencyBin n b))
  { s1.setReg (R.G32_BW n) 0 with
    ring := { s1.ring with bins := SMap.drop s1.ring.bins (n * 16) (n * 16 + 16) }
    host := { s1.host with data := v, status := 0 } }

def execG32BwRead (n : BitVec 3) (s : State) : Host.Outcome State Fault Refusal :=
  .next (s.hostGet (R.G32_BW n.toNat) fun s => s.bwRead n.toNat)

/-- The stations of a region's cords (R116). -/
def State.regionStations (s : State) (cords : BitVec 16) : List Nat :=
  (List.range 128).filter fun c => cords.getLsbD (c / 8) && s.cordHere c && stnExists s.closed c

/-- Stage 1 and 3 of R116: the stations close and drain; their shadow copies wait. -/
def State.closeStations (s : State) (l : List Nat) : State :=
  (s.each l fun s c => ((s.fset (stnClosed c) 1).fset (stnDraining c) 1).fset (stnSwapPend c) 1) |> fun s =>
    { s with recon := { s.recon with swapping := l } }

/-- A station's tables may swap: it has drained, and no step of a turn has executed (R106, R116). -/
def State.swapReady (s : State) (stn : Nat) : Bool :=
  decide (stn < 0xA0) && s.bit (stnSwapPend stn) && !s.bit (stnDraining stn) && s.core.phase == .slack

/-- Before step 0 of a turn that starts after the drain the copies change places, and the station reopens (R106, R116). -/
def State.swapTable (s : State) (stn : Nat) : State :=
  let s1 := (s.setBit (stnActive stn) (!s.bit (stnActive stn))).fset (stnSwapPend stn) 0
  { s1.fset (stnClosed stn) 0 with recon := { s1.recon with swapping := s1.recon.swapping.filter (· != stn) } }

end Sys2Proof.Machine
end

