-- ==== Sys2Proof/Machine/Fault.lean ====
section
/-! DEFINITION. The fault collector (chapter 15): codes and classes, fetching, the grace timer, the safe state, the C3
actions, the first-error record and the log; the takeover (R306) and the sensors and monitors (R403, R409). -/

namespace Sys2Proof.Machine

/-! ### Codes and classes (R313–R315) -/

/-- Fault codes with their default classes (R313). -/
def faultCodes : List (Nat × Nat) :=
  [(0x0101, 1), (0x0102, 1), (0x0103, 1), (0x0104, 0), (0x0105, 0), (0x0106, 0), (0x0107, 0), (0x0108, 0), (0x0109, 0),
   (0x010A, 0), (0x010B, 0), (0x010C, 0), (0x010D, 0), (0x010E, 0), (0x010F, 1), (0x0201, 0), (0x0202, 0), (0x0301, 1)]
  ++ [(0x0401, 0), (0x0402, 0), (0x0403, 0), (0x0501, 0), (0x0502, 0), (0x0503, 0), (0x0601, 0), (0x0602, 1), (0x0701, 0),
   (0x0702, 1), (0x0703, 1), (0x0704, 0), (0x0705, 0), (0x0801, 1), (0x0802, 1), (0x0803, 2), (0x0804, 3), (0x0805, 2)]

/-- The code is one of the table's, assertion codes included. -/
def codeKnown (c : Nat) : Bool := (0x1000 ≤ c && c < 0x1400) || faultCodes.any fun p => p.1 == c

def defaultClass (c : Nat) : Nat := ((faultCodes.find? fun p => p.1 == c).map (·.2)).getD 0

/-- Image, host and effective class of a code (R314). -/
def State.imageClass (s : State) (c : Nat) : Nat := (SMap.find s.flt.classes c).getD (defaultClass c)
def State.hostClass (s : State) (c : Nat) : Nat := s.fget (F.FLT_CLASS_HOST c)
def State.effClass (s : State) (c : Nat) : Nat := max (s.imageClass c) (s.hostClass c)

/-! ### Sources (R310, R327) -/

/-- The sources of the domains that `gone` selects drive 01, and what they held is lost (R327, R331). -/
def State.loseReports (s : State) (gone : Nat → Bool) : State :=
  let lost := fun (src : Nat) => (srcDomain src).any gone
  let srcs := (s.reports.map (·.src)).filter lost
  { s with reports := s.reports.filter fun r => !lost r.src }.each srcs fun s c =>
    if s.fget (F.FLT_SRC_STAT_PAIR c) = 2 then s.fset (F.FLT_SRC_STAT_PAIR c) 1 else s

/-! ### Pins (R303, R325) -/

/-- A host-requested full load is in progress (R284, R325). -/
def State.reloading (s : State) : Bool := s.load.on && !s.load.part && s.image.committed

/-- FAULT_N is asserted; a device that is off leaves it released (R325). -/
def State.faultN (s : State) : Bool :=
  s.fget F.PWR_STAT_STATE != 4 && (!s.image.committed || s.reloading || s.bit F.FLT_STAT_SAFE || s.bit F.FLT_STAT_C3_BUSY)

/-- TAKEOVER: the ACTIVE device gives up its role (R304, R306). -/
def State.takeover (s : State) : State :=
  let s1 := { s with splice := { s.splice with rolePin := false, okOut := 0, paired := false } }
  (s1.fset F.TURN_HOLD_SRC_SPLICE 1).fset F.SPL_STAT_STATE 7

/-! ### The log and the safe state (R318, R323) -/

/-- One entry of the log ring. -/
def State.logEntry (s : State) (code cls : Nat) : State :=
  let i := s.fget F.FLT_LOG_IDX_IDX
  let a := R.FLT_LOG i
  let s1 := s.setReg a (BitVec.ofNat 32 (code + cls * 2 ^ 16))
  let s2 := s1.setWords (a + 4) 10 (s1.words R.FLT_FER 10)
  let s3 := s2.setWords (a + 44) 3 (timeBits s2.time.now)
  s3.fset F.FLT_LOG_IDX_IDX (i + 1)

/-- The safe state is in force for `code`. -/
def State.safeOn (s : State) (code : Nat) : State :=
  ((s.fset F.FLT_STAT_SAFE 1).fset F.TURN_HOLD_SRC_SAFE 1).fset F.FLT_STAT_SAFE_CODE code

/-- Entry to the safe state for `code`; `cls` is the class of the action taken (R318, R323). A device that is in the safe
state does not enter it again. DEDUCED (log 41). -/
def State.enterSafe (s : State) (code cls : Nat) : State :=
  if s.bit F.FLT_STAT_SAFE then s
  else
  let s1 := s.safeOn code
  let armed := (List.range 1024).filter fun n => s1.capState n == capArmed || s1.capState n == capPost
  let s2 := s1.each armed fun s n => s.capRecord n (trigMark 0 0xFF code (shortTime s.time.now))
  let s3 := s2.logEntry code cls
  { s3 with store := { s3.store with safes := s3.store.safes + 1 } }

/-! ### C3 actions (R320) -/

def State.failover (s : State) (code : Nat) : State :=
  let s1 := if s.fget F.SPL_STAT_STATE = 2 then s.takeover else s
  let s2 := { s1 with splice := { s1.splice with okOut := 0 }, flt := { s1.flt with deposed := true } }
  s2.enterSafe code 3

def State.c3Action (s : State) (code : Nat) : State :=
  if s.bit F.FLT_POLICY_C3 then (s.logEntry code 3).faultStart code else s.failover code

/-! ### The grace timer (R316) -/

def State.startGrace (s : State) (code : Nat) : State :=
  let s1 := (s.fset F.FLT_STAT_GRACE_RUN 1).fset F.FLT_GRACE_LEFT_US (s.fget F.FLT_GRACE_US)
  { s1 with flt := { s1.flt with starter := code }, time := { s1.time with usPart := 0 } }

def State.stopGrace (s : State) : State := (s.fset F.FLT_STAT_GRACE_RUN 0).fset F.FLT_GRACE_LEFT_US 0

/-- A microsecond in millionths of 2^-16 ns. -/
def graceUnit : Nat := 65536000000000

/-- Whole microseconds of device time that have elapsed count the timer down; at 0 it waits for its expiry (R316). -/
def State.graceRun (s : State) : State :=
  let us := s.time.usPart / graceUnit
  if us = 0 then s
  else
    let s1 := { s with time := { s.time with usPart := s.time.usPart % graceUnit } }
    if s1.bit F.FLT_STAT_GRACE_RUN then s1.fset F.FLT_GRACE_LEFT_US (s1.fget F.FLT_GRACE_LEFT_US - us) else s1

/-- The reaction to the C2 and C3 reports of one collector cycle, as class and code in the order of R321: one action
(R317). -/
def State.react (s : State) (l : List (Nat × Nat)) : State :=
  match l.find? fun p => p.1 == 3 with
  | some p => s.c3Action p.2
  | none => match l with
    | [] => s
    | p :: _ => s.enterSafe p.2 2

/-- During a power transition the reaction waits (R340). -/
def State.reactOrWait (s : State) (l : List (Nat × Nat)) : State :=
  if s.bit F.PWR_STAT_TRANSITION then { s with flt := { s.flt with deferred := s.flt.deferred ++ l } } else s.react l

/-- The running timer has reached 0. -/
def State.graceDue (s : State) : Bool := s.bit F.FLT_STAT_GRACE_RUN && s.fget F.FLT_GRACE_LEFT_US == 0

/-- The timer's expiry as a report of class 2 under the code that started it (R316). -/
def State.expired (s : State) : State := (s.stopGrace).fset F.FLT_STAT_ESCALATED 1

def State.escalate (s : State) : State := s.expired.reactOrWait [(2, s.flt.starter)]

/-! ### Fetching (R312, R316, R317, R321, R322) -/

/-- The order of R321: device time, source, and within a step the global strand ID and the place within it (R53). -/
def Report.before (a b : Report) : Bool :=
  a.time < b.time || (a.time == b.time && (a.src < b.src || (a.src == b.src && (a.step < b.step
    || (a.step == b.step && (a.strand < b.strand || (a.strand == b.strand && a.ord ≤ b.ord)))))))

def insertReport (r : Report) : List Report → List Report
  | [] => [r]
  | q :: qs => if r.before q then r :: q :: qs else q :: insertReport r qs

def sortReports (l : List Report) : List Report := l.foldl (fun acc r => insertReport r acc) []

/-- The first-error record takes a report while it is empty (R321, R322). -/
def State.record (s : State) (r : Report) : State :=
  if s.bit F.FLT_FER_VALID then s
  else
    let w0 := r.src + r.master.toNat * 2 ^ 16 + r.acc * 2 ^ 24 + s.effClass r.code * 2 ^ 27 + 2 ^ 31
    let s1 := (s.setReg R.FLT_FER (BitVec.ofNat 32 w0)).setReg (R.FLT_FER + 4) (BitVec.ofNat 32 r.code)
    let s2 := ((s1.wset W.FLT_FER_ADDR r.addr).wset W.FLT_FER_TIME (timeBits r.time)).wset W.FLT_FER_TURN r.turn
    s2.setReg (R.FLT_FER + 0x24) (BitVec.ofNat 32 (r.strand + r.step * 2 ^ 18))

/-- One fetched report: counted and recorded; a C1 fault starts a stopped timer. -/
def State.fetchOne (s : State) (r : Report) : State :=
  let s1 := (s.count (F.FLT_CNT_COUNT r.code) r.count).record r
  if s1.effClass r.code = 1 ∧ !s1.bit F.FLT_STAT_GRACE_RUN then s1.startGrace r.code else s1

/-- The safe state ends (R319). -/
def State.releaseNow (s : State) : State :=
  if s.bit F.FLT_STAT_SAFE && !s.bit F.FLT_STAT_C3_BUSY then
    ((s.stopGrace).fset F.FLT_STAT_SAFE 0).fset F.TURN_HOLD_SRC_SAFE 0
  else s

/-- A RELEASE write; where the timer has reached 0 with it, the safe state goes on under the timer's code (R317). -/
def State.releaseWrite (s : State) : State :=
  if s.bit F.FLT_STAT_SAFE && s.graceDue then s.expired.safeOn s.flt.starter else s.releaseNow

/-- The collector runs: not in reset, in Deep sleep or in Off (R325, R327). -/
def State.collects (s : State) : Bool := !s.inReset && decide (s.fget F.PWR_STAT_STATE < 3)

/-- The collector fetches from a source: its pair is valid (R311). -/
def State.fetches (s : State) (src : Nat) : Bool := !s.bit (F.FLT_SRC_STAT_WIRE_BAD src) && s.collects

/-- A safe state that a RELEASE of the same cycle left goes on under the first code (R317). -/
def State.continueSafe (s : State) (l : List (Nat × Nat)) : State :=
  match (l.find? fun p => p.1 == 3) <|> l.head? with
  | some p => if s.bit F.FLT_STAT_SAFE then s else s.safeOn p.2
  | none => s

/-- One collector cycle: the pending reports of the sources are fetched with their counts. The timer's expiry is applied first, and a
C1 report of the cycle starts the timer again. With `release`, a RELEASE write meets them: it takes effect first, and a C2 or C3
report of the cycle, or the expiry, makes the safe state continue (R317). -/
def State.fetch (s : State) (srcs : List Nat) (release : Bool) : State :=
  if !s.collects then s
  else
  let expiry := if s.graceDue then [(2, s.flt.starter)] else []
  let sx := if s.graceDue then s.expired else s
  let s0 := if release then sx.releaseNow else sx
  let mine := fun (r : Report) => srcs.contains r.src && s0.fetches r.src
  let got := sortReports (s0.reports.filter mine)
  let s1 := { s0 with reports := s0.reports.filter fun r => !mine r }
  let s2 := s1.each (srcs.filter s0.fetches) fun s c =>
    if s.fget (F.FLT_SRC_STAT_PAIR c) = 2 then s.fset (F.FLT_SRC_STAT_PAIR c) 1 else s
  let s3 := s2.each got State.fetchOne
  let high := expiry ++ (got.map fun r => (s3.effClass r.code, r.code)).filter fun p => 2 ≤ p.1
  let s4 := if release && s.bit F.FLT_STAT_SAFE then s3.continueSafe high else s3
  s4.reactOrWait high

/-! ### The pairs (R311) -/

def State.anyWireBad (s : State) : Bool :=
  s.regs.any fun p => R.FLT_SRC_STAT 0 ≤ p.1 && p.1 < R.FLT_SRC_STAT 1024 && p.2.getLsbD 2

/-- The pair of a source has been 00 or 11 for more than 2 cycles. With `release`, a RELEASE write has taken effect in this cycle: a
WIRE_FAULT of class 2 or 3 makes the safe state continue, as the timer's expiry does (R317). -/
def State.wireBad (s : State) (src pair : Nat) (release : Bool) : State :=
  let t := if release then s.releaseWrite else s
  if t.bit (F.FLT_SRC_STAT_WIRE_BAD src) || pair == 1 || pair == 2 || !t.srcOn src || !t.collects then t
  else
    let s1 := (t.fset (F.FLT_SRC_STAT_PAIR src) pair).fset (F.FLT_SRC_STAT_WIRE_BAD src) 1
    let s2 := (s1.fset (F.FLT_SRC_STAT_WIRE_SEEN src) 1).fset F.FLT_STAT_WIRE_BAD 1
    let r : Report := { src, code := 0x0801, master := 0, acc := accRead, addr := src, time := s2.time.now,
                        turn := s2.turnNum, strand := noStrand, step := noStep }
    let s3 := s2.fetchOne r
    let high := [(s3.effClass 0x0801, 0x0801)].filter fun p => 2 ≤ p.1
    (if release && s.bit F.FLT_STAT_SAFE then s3.continueSafe high else s3).reactOrWait high

/-- The pair is valid again: 10 while the source holds a report. -/
def State.wireGood (s : State) (src : Nat) : State :=
  if !s.bit (F.FLT_SRC_STAT_WIRE_BAD src) || !s.collects then s
  else
    let pair := if s.reports.any fun r => r.src == src then 2 else 1
    let s1 := (s.fset (F.FLT_SRC_STAT_PAIR src) pair).fset (F.FLT_SRC_STAT_WIRE_BAD src) 0
    let s2 := s1.setBit F.FLT_STAT_WIRE_BAD s1.anyWireBad
    { s2 with flt := { s2.flt with injected := s2.flt.injected.filter (· != src) } }

/-! ### Sensors and monitors (R313, R403, R409) -/

/-- Thresholds of THERM_HIGH, THERM_CRIT and THERM_TRIP in thousandths of a degree. -/
def thermLimits : List (Nat × Int) := [(0, 120000), (1, 125000), (2, 130000)]

/-- Sensor `n` reads `t`: each code is raised above its threshold while armed, then disarmed; a reading 5 °C below the
threshold rearms it. -/
def State.thermCodes (s : State) (n : Nat) (t : Int) : State :=
  s.each thermLimits fun s p =>
    let off : BitVec 3 := SMap.get (fun _ => 0) s.flt.therm n
    let set := fun (s : State) (v : BitVec 3) => { s with flt := { s.flt with therm := SMap.set (fun _ => 0) s.flt.therm n v } }
    let bit : BitVec 3 := BitVec.ofNat 3 (2 ^ p.1)
    if p.2 < t && !off.getLsbD p.1 then
      (set s (off ||| bit)).raiseAt (0x300 + n) (0x0802 + p.1) 0 accRead 0
    else if t ≤ p.2 - 5000 then set s (off &&& ~~~bit)
    else s

/-- Wake settings, which the plinth domain keeps through every state (R344). -/
def wakeReg (a : Nat) : Bool := a == R.PWR_WAKE_EN || a == R.PWR_PAT || (R.PWR_WAKE_LANE 0 ≤ a && a < R.PWR_WAKE_LANE 8)

/-- The device enters Off: everything but the persistent store and the wake settings is lost (R330, R344). -/
def State.enterOff (s : State) : State :=
  let t := s.restart false
  ({ t with regs := s.regs.filter fun p => persisted p.1 || wakeReg p.1 } : State).fset F.PWR_STAT_STATE 4

/-- In Deep sleep a sensor above 130 °C enters Off through the plinth domain; the next start shows 0x0804 (R409). -/
def State.therm (s : State) (n : Nat) (t : Int) : State :=
  if s.inReset || !s.srcPowered (0x300 + n) then s
  else if s.fget F.PWR_STAT_STATE = 3 then
    if 130000 < t then
      let s1 := s.enterOff
      { (s1.fset F.FLT_RST_CAUSE_FAULT_RESET 1).fset F.FLT_RST_CAUSE_CODE 0x0804 with
        power := { s1.power with tripped := true } }
    else s
  else if s.fget F.PWR_STAT_STATE = 4 then s
  else s.thermCodes n t

/-! ### Injection (R328) -/

def State.injectGo (s : State) : State :=
  if s.factoryMode && codeKnown (s.fget F.FLT_INJ_CODE) && s.srcOn (s.fget F.FLT_INJ_SRC) then
    s.raiseAt (s.fget F.FLT_INJ_SRC) (s.fget F.FLT_INJ_CODE) 0 0 0
  else s

def State.injectWire (s : State) : State :=
  let src := s.fget F.FLT_INJ_SRC
  if s.factoryMode && decide (2 < s.fget F.FLT_INJ_CYCLES) then
    { s with flt := { s.flt with injected := s.flt.injected ++ [src] } }.wireBad src 3 false
  else s

/-! ### The meanings -/

/-- A host's RELEASE write may meet what the collector does in a cycle, `f`: it is a host request as any, and without it `f` goes on
alone. -/
def State.meetsRelease (s : State) (release : Bool) (f : State → Bool → State) : State :=
  if release && !s.hostAway && !s.asleep && !s.hostHeld (.write R.FLT_CTL 4 2 2) then s.hostCmd R.FLT_CTL 2 2 fun s => f s true
  else f (if release then s.hostCmd R.FLT_CTL 2 2 State.releaseWrite else s) false

def execFaultFetch (srcs : List (BitVec 10)) (release : Bool) (s : State) : Host.Outcome State Fault Refusal :=
  .next (s.watch [0, 1, 2] fun s => s.meetsRelease release fun s => s.fetch (srcs.map (·.toNat)))

def execWireFault (src : BitVec 10) (pair : WirePair) (s : State) : Host.Outcome State Fault Refusal :=
  .next (s.watch [0, 1, 2] fun s => s.meetsRelease pair.release fun s => s.wireBad src.toNat pair.code.toNat)

def execWireBadEnd (src : BitVec 10) (pair : BitVec 2) (s : State) : Host.Outcome State Fault Refusal :=
  .next (if pair = 1 ∨ pair = 2 then s.wireGood src.toNat else s)

/-- The event occurs when the running timer has reached 0 (R316). -/
def execGraceExpiry (s : State) : Host.Outcome State Fault Refusal :=
  .next (if s.graceDue && s.collects then s.watch [1] fun s => s.escalate else s)

def execAck (s : State) : Host.Outcome State Fault Refusal :=
  .next (s.hostCmd R.FLT_CTL 1 1 fun s => s.stopGrace)
def execRelease (s : State) : Host.Outcome State Fault Refusal :=
  .next (s.hostCmd R.FLT_CTL 2 2 fun s => s.releaseWrite)

/-- One injected report of FLT_INJ.CODE at FLT_INJ.SRC (R328); a reserved code, or a source that reports nothing, raises nothing. -/
def execFltInjGo (s : State) : Host.Outcome State Fault Refusal :=
  .next (s.hostCmd R.FLT_INJ 0x4000000 0x4000000 fun s => s.injectGo)

/-- The source's pair is held at 11 for CYCLES cycles; more than 2 of them raise WIRE_FAULT (R311, R328). -/
def execFltInjWire (s : State) : Host.Outcome State Fault Refusal :=
  .next (s.hostCmd R.FLT_INJ 0x8000000 0x8000000 fun s => s.watch [0, 1, 2] State.injectWire)

def execThermSample (sensor : BitVec 4) (milliC : Int) (s : State) : Host.Outcome State Fault Refusal :=
  .next (s.therm sensor.toNat milliC)

/-- A monitor of the rail is unmasked: one of the domains that alone use the rail is powered. The others feed something that is
always on, VDDA12 fuse programming. -/
def State.railWatched (s : State) (rail : Nat) : Bool :=
  let on := fun (d : Nat) => (s.big || !outsideDomains.contains d) && s.bit (F.PWR_DOM_ON d)
  if rail = 0 then [2, 3, 4, 5].any on
  else if rail = 2 then ((List.range 66).map (20 + ·)).any on
  else if rail = 4 ∨ rail = 5 then ((List.range 8).map (12 + ·)).any on
  else true

/-- The monitor runs: in Deep sleep those of VAON and VIO alone, in Off none (R403). -/
def State.railRuns (s : State) (rail : Nat) : Bool :=
  let st := s.fget F.PWR_STAT_STATE
  !s.inReset && st != 4 && (st != 3 || rail == 6 || rail == 7)

/-- A rail leaves its monitor window (R403). -/
def execRailFault (rail : BitVec 3) (s : State) : Host.Outcome State Fault Refusal :=
  if !s.railRuns rail.toNat || !s.railWatched rail.toNat then .next s
  else .next (s.raiseAt 0x310 0x0805 0 accRead rail.toNat)

end Sys2Proof.Machine
end

