-- ==== Sys2Proof/Machine/Cast.lean ====
section
/-! DEFINITION. The cast (R271–R279) and the loader's checks (R103, R123, R144–R148, R186, R190, R196, R281, R297, R315): pure
functions of the bytes read and of the state. A check answers the refusal code of R282, with the index where one belongs. -/

namespace Sys2Proof.Machine

/-- `n` bytes from offset `off`, as bytes and as a number (R10). -/
def slice (b : Bytes) (off n : Nat) : Bytes := (b.drop off).take n
def num (b : Bytes) (off n : Nat) : Nat := leNat (slice b off n)
/-- The bytes from `off` up to `stop` are 0. -/
def zeros (b : Bytes) (off stop : Nat) : Bool := (slice b off (stop - off)).all (· == 0)

/-- The first of a list of checks that refuses. -/
def firstRefusal {α : Type} : List (Option α) → Option α
  | [] => none
  | some c :: _ => some c
  | none :: l => firstRefusal l

/-- Refuses with `code` where `bad` holds. -/
def refuse (bad : Bool) (code : Nat) : Option Nat := if bad then some code else none

/-! ### Headers and manifest (R271–R273, R279) -/

def hNsec (h : CastHdr) : Nat := num h.part 0x008 2
def hFlags (h : CastHdr) : Nat := num h.part 0x006 2
def hEnc (h : CastHdr) : Bool := (hFlags h).testBit 0
def hGn32 (h : CastHdr) : Bool := (hFlags h).testBit 1
def hPartial (h : CastHdr) : Bool := (hFlags h).testBit 2
def hCords (h : CastHdr) : BitVec 16 := BitVec.ofNat 16 (num h.part 0x00A 2)
def hRows (h : CastHdr) : W64 := BitVec.ofNat 64 (num h.part 0x010 8)
def hRb (h : CastHdr) : Nat := num h.part 0x00D 1
def hVersion (h : CastHdr) : Nat := num h.part 0x018 4
/-- Type and FRAMES of section table entry `i`; types of all sections. -/
def hType (h : CastHdr) (i : Nat) : Nat := num h.part (0x100 + 16 * i) 1
def hFrames (h : CastHdr) (i : Nat) : Nat := num h.part (0x100 + 16 * i + 12) 4
def hTypes (h : CastHdr) : List Nat := (List.range (hNsec h)).map (hType h)
def hDigest (h : CastHdr) (i : Nat) : Nat := num h.manifest (120 + 32 * i) 32

/-- The outer header is well formed (R271). -/
def outerOk (b : Bytes) : Bool :=
  let n := num b 6 2
  b.length == 512 && num b 0 4 == 0x53435941 && num b 4 2 == 1 && 1 ≤ n && n ≤ 16 && zeros b 0x10 0x20
    && zeros b (0x20 + 16 * n) 512 && (List.range n).all fun i => num b (0x28 + 16 * i) 8 < 2 ^ 32

/-- Section types that a full cast must carry, and those that a partial image may carry (R273). -/
def needTypes : List Nat := [1, 2, 3, 4, 5, 8, 9]
def partTypes : List Nat := [4, 5, 7, 9, 0x0A, 0x0B]

/-- The section table keeps R273. -/
def sectionsOk (h : CastHdr) : Bool :=
  (List.range (hNsec h)).all (fun i =>
    let a := 0x100 + 16 * i
    let t := hType h i
    1 ≤ t && t ≤ 0x0E && num h.part (a + 1) 1 == (hEnc h).toNat && zeros h.part (a + 2) (a + 4)
      && num h.part (a + 4) 4 % 16 == 0 && num h.part (a + 8) 4 % 16 == 0 && (i == 0 || hType h (i - 1) < t)
      && (!(hPartial h) || partTypes.contains t))
  && ((hPartial h) || needTypes.all fun t => (hTypes h).contains t)

/-- The partition header is well formed (R272, R386), and its manifest has the layout of R279. -/
def partitionOk (h : CastHdr) : Bool :=
  let n := (hNsec h)
  h.part.length == 1024 && num h.part 0 4 == 0x54505941 && num h.part 4 2 == 1 && (hFlags h) < 8 && 1 ≤ n && n ≤ 48
    && 12 ≤ num h.part 0x00C 1 && num h.part 0x00C 1 ≤ 24 && (hRb h) ≤ 15
    && ((hPartial h) || ((hCords h) == 0 && (hRows h) == 0)) && zeros h.part 0x00E 0x010 && zeros h.part 0x048 0x080
    && zeros h.part (0x100 + 16 * n) 1024
    && num h.part 0x044 4 == 184 + 32 * n && h.manifest.length == 184 + 32 * n && num h.manifest 0 4 == n
    && zeros h.manifest 4 8

/-- A signer slot that is programmed and not revoked holds the digest (R376). -/
def State.signerKnown (s : State) (digest : Nat) : Bool :=
  (List.range 4).any fun i =>
    let v := (List.range 8).foldr (fun k a => (s.fuse (12 + 8 * i + k)).toNat + 2 ^ 32 * a) 0
    v != 0 && v == digest && !(s.fuse 44).getLsbD i

/-- The device-group key of the fuses (R278). -/
def State.groupKey (s : State) : W128 :=
  BitVec.ofNat 128 ((List.range 4).foldr (fun k a => (s.fuse k).toNat + 2 ^ 32 * a) 0)

/-- The image nonce, and the root key of a partition (R272, R278). -/
def hNonce (h : CastHdr) : Bytes := slice h.part 0x020 16
def State.rootKey (s : State) (h : CastHdr) : W128 := Config.sm4Decrypt s.groupKey (BitVec.ofNat 128 (num h.part 0x030 16))

/-- The key check of R278. -/
def State.keyFits (s : State) (h : CastHdr) : Bool :=
  num h.part 0x01C 4 == (Config.sm3 (leBytes 16 (s.rootKey h).toNat ++ hNonce h)).toNat % 2 ^ 32

/-! ### Encryption (R277) -/

/-- Stored bytes of section table entry `i`, and the place of its first byte in the stream of all sections. -/
def hLen (h : CastHdr) (i : Nat) : Nat := num h.part (0x100 + 16 * i + 8) 4
def hStart (h : CastHdr) (i : Nat) : Nat := (List.range i).foldl (fun n k => n + hLen h k) 0

/-- K(i). -/
def segKey (root : W128) (nonce : Bytes) : Nat → W128
  | 0 => root
  | i + 1 => BitVec.ofNat 128 (Config.sm3 (leBytes 16 (segKey root nonce i).toNat ++ leBytes 4 (i + 1) ++ nonce)).toNat

/-- The counter block of block `j` of segment `i`. -/
def counterBlock (nonce : Bytes) (i j : Nat) : W128 := BitVec.ofNat 128 (leNat (nonce.take 8 ++ leBytes 4 i ++ leBytes 4 j))

/-- The key stream's byte at offset `x` of the stream, for segments of 2^`seg` bytes. -/
def keyByte (root : W128) (nonce : Bytes) (seg x : Nat) : Byte :=
  let i := x / 2 ^ seg
  let o := x % 2 ^ seg
  ((Config.sm4Encrypt (segKey root nonce i) (counterBlock nonce i (o / 16))) >>> (8 * (o % 16))).setWidth 8

/-- Stored bytes from offset `x` of the stream, decrypted where the partition is encrypted; once a private instruction has cleared the
key, with free bytes in its place (R387; log 133). -/
def State.decrypted (s : State) (h : CastHdr) (x : Nat) (b : Bytes) : Bytes :=
  if hEnc h then b.zipIdx.map fun p => p.1 ^^^ match s.sec.castKey with
    | some k => keyByte k (hNonce h) (num h.part 0x00C 1) (x + p.2)
    | none => Config.noKey s.free (x + p.2)
  else b

/-- The key of an encrypted cast is held from its verification on (R278, R387). -/
def State.holdKey (s : State) (h : CastHdr) : State :=
  { s with sec := { s.sec with castKey := if hEnc h then some (s.rootKey h) else none } }

/-- The header checks in their order (R146). `part`: the entry is a partial image. -/
def State.headerChecks (s : State) (h : CastHdr) (part : Bool) : Option Nat :=
  firstRefusal
    [refuse (!outerOk h.outer || !partitionOk h || !sectionsOk h || (hPartial h) != part || (part && num h.outer 6 2 != 1)) 0x01,
     refuse (!s.signerKnown (Config.sm3 (slice h.manifest 8 64)).toNat) 0x04,
     refuse (!Config.sm2Verify (slice h.manifest 8 64) (slice h.manifest 72 16)
       (h.manifest.take (120 + 32 * (hNsec h))) (h.manifest.drop (120 + 32 * (hNsec h)))) 0x03,
     refuse ((Config.sm3 h.part).toNat != num h.manifest 88 32) 0x05,
     refuse (decide ((hVersion h) < s.fget (F.SEC_RB_CNT_COUNT (hRb h)))) 0x07,
     refuse (!s.keyFits h) 0x06]

/-! ### The declaration block (R144, R145) -/

structure Decl where
  part : Nat
  profile : Nat
  lock : Nat
  anchor : Nat
  l : Nat
  e : Nat
  span : Nat
  dout : Nat
  phase : Nat
  nin : Nat
  nout : Nat
  flags : Nat
  cords : BitVec 128
  bits : Nat
  dem0 : Nat
  dem1 : Nat
  deriving DecidableEq, Repr

def hDecl (h : CastHdr) : Decl :=
  let b := slice h.part 0x080 128
  { part := num b 2 2, profile := num b 4 1, lock := num b 5 1, anchor := num b 6 2, l := num b 8 2, e := num b 10 2
    span := num b 12 4, dout := num b 0x10 4, phase := num b 0x14 4, nin := num b 0x18 2, nout := num b 0x1A 2
    flags := num b 0x1C 1, cords := BitVec.ofNat 128 (num b 0x20 16), bits := num b 0x30 4, dem0 := num b 0x34 4
    dem1 := num b 0x38 4 }

/-- The format check of the block. -/
def declFormat (h : CastHdr) : Bool :=
  let b := slice h.part 0x080 128
  let d := (hDecl h)
  num b 0 2 == 1 && d.lock ≤ 1 && d.flags ≤ 1 && zeros b 0x1D 0x20 && zeros b 0x3C 128
    && (d.lock == 1 || d.anchor == 0) && (d.lock == 0 || d.phase == 0)

/-- Cords, port lanes and stacks of the image's footprint (R2). -/
def Decl.nCords (d : Decl) : Nat := if d.part = 0x4060 then 64 else 128
def Decl.nLanes (d : Decl) : Nat := if d.part = 0x4060 then 512 else 1024

/-- The span in nanoseconds as a fraction; `anchor`: wire bits per word and rate in kb/s of the anchor lane (R72, R145). -/
def Decl.spanNs (d : Decl) (anchor : Nat × Nat) : Nat × Nat :=
  if d.lock = 0 then (d.span, 65536) else (d.span * anchor.1 * 1000000, anchor.2)

/-- Nb (R74). -/
def Decl.nb (d : Decl) (anchor : Nat × Nat) : Nat :=
  if d.lock = 0 then d.span * 995 / 65536000
  else d.span * anchor.1 * 1000000 * 9997 * 995 / (anchor.2 * 10000000)

/-- 40 ns in line ticks, rounded up to whole anchor words (R23). -/
def Decl.fortyNs (d : Decl) (anchor : Nat × Nat) : Nat :=
  if d.lock = 0 then 40 * 65536 else (40 * anchor.2 + anchor.1 * 1000000 - 1) / (anchor.1 * 1000000)

/-- The checks of R145 that need only the block. -/
def State.declChecks (s : State) (h : CastHdr) : Option Nat :=
  let d := (hDecl h)
  firstRefusal
    [refuse (!declFormat h) 0x10,
     refuse ((d.part != 0x4100 && d.part != 0x4060) || (d.part == 0x4100 && !s.big)) 0x11,
     refuse (decide (1 < d.profile) || (d.profile == 1 && s.stepping == 0xA0)) 0x12,
     refuse (d.lock == 1 && decide (d.nLanes ≤ d.anchor)) 0x13]

/-- NIN, NOUT and CORDS. -/
def declCounts (h : CastHdr) : Option Nat :=
  let d := (hDecl h)
  firstRefusal
    [refuse (!(1 ≤ d.nin && d.nin ≤ 1024 && 1 ≤ d.nout && d.nout ≤ 1024)) 0x13,
     refuse (decide (d.cords.toNat / 2 ^ d.nCords ≠ 0)) 0x11]

/-- Those that need the span's duration, and the counts in their place; under anchor-lane lock the span's unit is a word of the anchor
lane (R145, R146). -/
def declTiming (h : CastHdr) (anchor : Nat × Nat) : Option Nat :=
  let d := (hDecl h)
  let nb := d.nb anchor
  let (n, m) := d.spanNs anchor
  let f := d.fortyNs anchor
  firstRefusal
    [refuse (!(64 ≤ nb && nb ≤ 4120 && 1 ≤ d.l && d.l + 24 ≤ nb && d.e + 1 ≤ d.l && f ≤ d.dout && d.dout + f ≤ d.span
       && (d.lock == 1 || d.phase < d.span))) 0x13,
     declCounts h,
     refuse (d.flags == 1 && (decide (1800 * n < d.bits * m) || (d.part == 0x4060 && decide (840 * n < d.bits * m)))) 0x14,
     refuse (decide (290 * n < d.dem0 * m) || decide (290 * n < d.dem1 * m) || (d.part == 0x4060 && d.dem1 != 0)) 0x15]

/-! ### Record sections -/

/-- Whole records of `n` bytes from offset `off`. -/
def records (b : Bytes) (off n : Nat) : List Bytes :=
  (List.range ((b.length - off) / n)).map fun i => slice b (off + n * i) n

/-- Index of the first record that breaks a check, which may look at the records before it. -/
def firstBad (l : List Bytes) (bad : List Bytes → Bytes → Option Nat) : Option (Nat × Nat) :=
  firstRefusal ((List.range l.length).map fun i => (bad (l.take i) (l.getD i [])).map fun c => (c, i))

/-! #### Lane table (R185–R187, R190) -/

def laneNo (r : Bytes) : Nat := num r 0 2
def laneMod (r : Bytes) : Nat := num r 2 1
def lanePcs (r : Bytes) : Nat := num r 3 1
def laneRate (r : Bytes) : Nat := num r 4 4
def lanePll (r : Bytes) : Nat := num r 8 1
def laneWidth (r : Bytes) : Nat := 2 ^ (num r 9 1 % 8)
def laneFirst (r : Bytes) : Nat := num r 9 1 / 16
def laneOpt (r : Bytes) : Nat := num r 10 1

/-- Rates in kb/s that a PCS supports with a modulation (R187). -/
def rateOk (pcs mod rate : Nat) : Bool :=
  let nrz := mod == 0
  let pam := mod == 1
  match pcs with
  | 0 => (nrz && 1000000 ≤ rate && rate ≤ 32000000) || (pam && 26562500 ≤ rate && rate ≤ 64000000)
  | 1 => nrz && 1000000 ≤ rate && rate ≤ 12500000
  | 2 => (nrz && 1000000 ≤ rate && rate ≤ 32000000) || (pam && 26562500 ≤ rate && rate ≤ 64000000)
  | 3 => nrz && 5000000 ≤ rate && rate ≤ 32000000
  | 4 => pam && rate == 64000000
  | 5 => nrz && 10312500 ≤ rate && rate ≤ 32000000
  | 6 => (nrz && 20000000 ≤ rate && rate ≤ 32000000) || (pam && 26562500 ≤ rate && rate ≤ 64000000)
  | _ => false

/-- Two lanes of one deskew group agree (R190). -/
def groupFits (a b : Bytes) : Bool :=
  laneMod a == laneMod b && lanePcs a == lanePcs b && laneRate a == laneRate b && lanePll a == lanePll b
    && laneWidth a == laneWidth b && laneFirst a == laneFirst b

/-- A lane record, after the records before it (R186). -/
def laneBad (lanes : Nat) (before : List Bytes) (r : Bytes) : Bool :=
  let w := laneWidth r
  let place := laneNo r % 16
  let opt := laneOpt r
  let mate := fun (q : Bytes) => laneNo q / 16 == laneNo r / 16
  let within := fun (a b : Bytes) => decide (laneFirst b ≤ laneNo a % 16) && decide (laneNo a % 16 < laneFirst b + laneWidth b)
  !(laneMod r ≤ 1 && lanePcs r ≤ 6 && lanePll r ≤ 1 && num r 9 1 % 8 ≤ 4 && !(num r 9 1).testBit 3 && opt < 32
      && num r 11 1 ≤ 3 && num r 12 1 ≤ 3 && zeros r 13 16)
    || decide (lanes ≤ laneNo r) || before.any (fun q => laneNo q == laneNo r) || !rateOk (lanePcs r) (laneMod r) (laneRate r)
    || (laneMod r == 0 && (opt.testBit 0 || opt.testBit 1)) || (laneMod r == 1 && opt.testBit 3)
    || before.any (fun q => mate q && ((lanePll q == lanePll r && (laneRate q != laneRate r || laneMod q != laneMod r))
         || (lanePcs q + lanePcs r == 11 && 5 ≤ lanePcs q && 5 ≤ lanePcs r)))
    || laneFirst r % w != 0 || decide (place < laneFirst r) || decide (laneFirst r + w ≤ place)
    || (decide (1 < w) && !(lanePcs r == 2 || lanePcs r == 3 || 4 ≤ lanePcs r))
    || before.any (fun q => mate q && (within q r || within r q) && !groupFits q r)

/-- Every lane of each group is configured (R190): index of the first record whose group is not whole. -/
def groupHole (l : List Bytes) : Option (Nat × Nat) :=
  firstBad l fun _ r => refuse (!(List.range (laneWidth r)).all fun k =>
    l.any fun q => laneNo q == laneNo r / 16 * 16 + laneFirst r + k) 0x23

def laneChecks (h : CastHdr) (b : Bytes) : Option (Nat × Nat) :=
  firstBad (records b 0 16) fun before r => refuse (laneBad (hDecl h).nLanes before r) 0x23

/-- Wire bits and rate of the anchor lane of a lane table, if it is configured. -/
def anchorOf (b : Bytes) (n : Nat) : Option (Nat × Nat) :=
  ((records b 0 16).find? fun r => laneNo r == n).map fun r => (wireBits (lanePcs r), laneRate r)

/-- Pass 1 of R146. The anchor's wire bits and rate come of the lane table, which the loader reads ahead. DEDUCED (log 45). For a partial
image the anchor is the running image's (`State.partTiming`). -/
def State.passOne (s : State) (h : CastHdr) : Option Nat :=
  firstRefusal [s.declChecks h,
    if (hDecl h).lock = 0 then declTiming h (0, 0)
    else if hPartial h then declCounts h
    else match anchorOf h.lanes (hDecl h).anchor with
      | some a => declTiming h a
      | none => some 0x13]

/-! #### Equalization (R195, R196) -/

def eqSigned (x lo w : Nat) : Int := (BitVec.ofNat w (field x lo w)).toInt

/-- The FFE and DFE fields keep their ranges. -/
def eqTaps (r : Bytes) : Bool :=
  let f := num r 0x0C 4
  let sum := (eqSigned f 0 6).natAbs + (eqSigned f 8 6).natAbs + field f 16 6 + (eqSigned f 24 6).natAbs
  sum ≤ 63 && field f 6 2 == 0 && field f 14 2 == 0 && field f 22 2 == 0 && field f 30 2 == 0
    && (List.range 12).all fun i =>
      let t := eqSigned (num r (0x14 + i) 1) 0 8
      if i = 0 then -64 ≤ t && t ≤ 63 else -32 ≤ t && t ≤ 31

def eqBad (before : List Bytes) (r : Bytes) : Bool :=
  !(num r 4 2 ≤ 1055 && num r 6 1 ≤ 1 && num r 7 1 == 0 && num r 0x10 1 < 32 && zeros r 0x11 0x14 && eqTaps r)
    || before.any fun q => slice q 0 12 == slice r 0 12

def eqHeaderBad (b : Bytes) : Bool := decide (16 ≤ b.length) && !(num b 0 2 == 1 && zeros b 2 4 && zeros b 8 16)

/-- The header counts as entry 0 (R282). -/
def eqChecks (b : Bytes) : Option (Nat × Nat) :=
  if eqHeaderBad b then some (0x24, 0)
  else (firstBad (records b 16 32) fun before r => refuse (eqBad before r) 0x24).map fun p => (p.1, p.2 + 1)

/-- The entry of a board for a lane with its modulation and rate, with its index (R196). -/
def eqEntry (b : Bytes) (board lane mod rate : Nat) : Option (Nat × Bytes) :=
  ((records b 16 32).zipIdx.find? fun p =>
    num p.1 0 4 == board && num p.1 4 2 == lane && num p.1 6 1 == mod && num p.1 8 4 == rate).map fun p => (p.2, p.1)

/-- A splice lane of the image that a SPLICE record enables has no entry (R196, R297). -/
def State.spliceMissing (s : State) (eq splice : Bytes) (d : Decl) : Bool :=
  num splice 2 1 != 0 && !(List.range (if d.part = 0x4060 then 16 else 32)).all fun k =>
    (eqEntry eq s.store.boardId.toNat (1024 + k) 1 64000000).isSome

/-- EQ_BOARD and EQ_MISSING, for the lanes of the lane table and the splice lanes; whether the SPLICE section enables them the loader
reads ahead. DEDUCED (log 46). -/
def State.eqCoverage (s : State) (h : CastHdr) (eq lanes : Bytes) : Option Nat :=
  let board := s.store.boardId.toNat
  firstRefusal
    [refuse (num eq 4 4 != (records eq 16 32).length) 0x24,
     refuse (!(records eq 16 32).any fun r => num r 0 4 == board) 0x25,
     refuse (s.spliceMissing eq h.splice (hDecl h)
       || !(records lanes 0 16).all fun r => (eqEntry eq board (laneNo r) (laneMod r) (laneRate r)).isSome) 0x26]

/-! #### Slot records (R101–R103) -/

def slotStn (r : Nat) : Nat := field r 56 8
def slotStep (r : Nat) : Nat := field r 44 12
def slotSide (r : Nat) : Nat := field r 43 1
def slotDir (r : Nat) : Nat := field r 40 3
def slotPos (r : Nat) : Nat := field r 32 6
def slotEntry (r : Nat) : Nat := field r 0 32

/-- A link or the LOCAL loop enters the station in direction of travel `dir`. -/
def linkInto (closed : Bool) (stn dir : Nat) : Bool :=
  dir == dirLocal || (List.range 0xA0).any fun f => (linkOf closed f dir).any fun p => p.1 == stn

/-- The record is not well formed (R103). -/
def slotBad (closed : Bool) (l r : Nat) : Bool :=
  let stn := slotStn r
  let dir := slotDir r
  let e := slotEntry r
  let kind := entryKind e
  !stnExists closed stn || decide (l ≤ slotStep r) || field r 38 2 != 0 || decide (4 < dir)
    || (kind == 0 && field e 0 30 != 0)
    || (slotSide r == 0 &&
        ((linkOf closed stn dir).isNone || kind == 3 || (kind == 1 && (field e 0 15 != 0 || decide (0x80 ≤ stn)))
          || (kind == 2 && (field e 0 21 != 0 || decide (4 < entryInDir e) || !linkInto closed stn (entryInDir e)))))
    || (slotSide r == 1 &&
        (!linkInto closed stn dir || decide (2 ≤ kind) || (kind == 1 && (field e 0 15 != 0 || decide (0x80 ≤ stn)))))

/-- Closed mode under the image being loaded; under a partial image, the mode in force (R94, R103). -/
def State.closedFor (s : State) (h : CastHdr) : Bool := if hPartial h then s.closed else !s.big || (hDecl h).part == 0x4060

/-- The slot checks, and DECL_MISMATCH for inject and delivery records at undeclared cords (R103, R145). -/
def State.slotChecks (s : State) (h : CastHdr) (b : Bytes) : Option (Nat × Nat) :=
  let closed := s.closedFor h
  firstBad (records b 0 8) fun before rb =>
    let r := leNat rb
    let entry := entryKind (slotEntry r) == 1
    firstRefusal
      [refuse (before.any fun q => leNat q / 2 ^ 32 == r / 2 ^ 32) 0x21,
       refuse (slotBad closed (hDecl h).l r) 0x22,
       refuse (entry && decide (slotStn r < 0x80) && !(hDecl h).cords.getLsbD (slotStn r)) 0x16]

/-! #### Ports (R122, R123) -/

/-- Tiers and windows of a port record, without the banks and granules that the REGION section gives. -/
def State.portBad (s : State) (h : CastHdr) (before : List PortRec) (p : PortRec) : Bool :=
  let lim := p.base + 16 * p.size
  !(p.port < 4 && (hDecl h).cords.getLsbD p.cord) || before.any (fun q => q.cord == p.cord && q.port == p.port)
    || decide (5 < p.mode) || p.base % 16 != 0
    || ((p.mode == 4 || p.mode == 5) && !(p.base == 0 && 1 ≤ p.size && p.size ≤ 2048))
    || (p.mode == 0 && !(p.base == 0 && p.size == 0))
    || (p.mode == 1 && decide (2 ^ 18 < lim))
    || (p.mode == 2 && !(0x04000000 ≤ p.base && lim ≤ (if s.big then 0x14000000 else 0x0C000000)))
    || (p.mode == 3 && !(dramBase ≤ p.base && lim ≤ (if s.big then 0x016000000000 else 0x013000000000)))

/-- The port records of a section that have a form. -/
def portList (b : Bytes) : List PortRec := (Config.portRecords b).filterMap id

/-- A code with the index of the first entry that breaks a check, which may look at the entries before it; `none` is an entry without a
form. -/
def firstForm {α : Type} (code : Nat) (l : List (Option α)) (bad : List α → Option α → Bool) : Option (Nat × Nat) :=
  ((List.range l.length).find? fun i => match l[i]? with
    | some p => bad ((l.take i).filterMap id) p
    | none => false).map fun i => (code, i)

def State.portChecks (s : State) (h : CastHdr) (b : Bytes) : Option (Nat × Nat) :=
  firstForm 0x20 (Config.portRecords b) fun before p => match p with
    | some p => s.portBad h before p
    | none => true

/-- Banks and granules of the windows (R123): `cords` tells a bank assigned to the cords, `design` a design-memory granule. -/
def windowChecks (b : Bytes) (cords design : Nat → Bool) : Option (Nat × Nat) :=
  firstForm 0x20 (Config.portRecords b) fun _ r => match r with
    | none => false
    | some p =>
      let last := p.base + 16 * p.size - 1
      (p.mode == 2 && p.size != 0 && !(List.range (bankOf last + 1 - bankOf p.base)).all fun k => cords (bankOf p.base + k))
        || (p.mode == 3 && p.size != 0
            && !(List.range (granuleOf last + 1 - granuleOf p.base)).all fun k => design (granuleOf p.base + k))

/-- Of two refusals of one section, the one of the earlier record (R146). -/
def firstEntry (a b : Option (Nat × Nat)) : Option (Nat × Nat) :=
  match a, b with
  | some x, some y => some (if y.2 < x.2 then y else x)
  | some x, none => some x
  | none, y => y

/-! #### Script (R281) -/

def scriptOp (r : Bytes) : Nat := num r 0 1
def scriptPost (r : Bytes) : Bool := num r 1 1 == 1

/-- A PRE entry after a POST entry, a reserved OP or phase, or an entry beyond the 4,096th. -/
def scriptChecks (b : Bytes) : Option (Nat × Nat) :=
  firstBad (records b 0 16) fun before r =>
    refuse (decide (4 < scriptOp r) || decide (1 < num r 1 1) || (!scriptPost r && before.any scriptPost)
      || decide (4096 ≤ before.length) || (scriptOp r == 4 && before.any fun q => scriptOp q == 4)) 0x02

/-- COMMIT is the last POST entry, directly before END. -/
def scriptWhole (b : Bytes) : Option (Nat × Nat) :=
  let l := records b 0 16
  let n := l.length
  let ok := decide (2 ≤ n) && scriptOp (l.getD (n - 1) []) == 0 && scriptOp (l.getD (n - 2) []) == 4
    && scriptPost (l.getD (n - 2) []) && (l.take (n - 2)).all fun r => scriptOp r != 0 && scriptOp r != 4
  if ok then none else some (0x02, n - 1)

/-! #### Border, fault and splice records (R290, R297, R315) -/

def borderPolicy (r : Nat) : Nat := field r 0 2
def borderKind (r : Nat) : Nat := field r 2 2
def borderId (r : Nat) : Nat := field r 8 29

def borderChecks (b : Bytes) : Option (Nat × Nat) :=
  firstBad (records b 0 8) fun _ rb =>
    let r := leNat rb
    refuse (borderPolicy r == 3 || field r 4 4 != 0 || field r 37 27 != 0) 0x02

/-- The policies of a section, by ID with KIND × 2^32. -/
def borderMap (b : Bytes) : SMap Nat :=
  (records b 0 8).foldl (fun m rb => SMap.put m (borderKind (leNat rb) * 2 ^ 32 + borderId (leNat rb)) (borderPolicy (leNat rb))) []

def faultHeaderBad (b : Bytes) : Bool :=
  decide (16 ≤ b.length) && !(num b 0 2 == 1 && zeros b 2 4 && 10 ≤ num b 4 4 && num b 4 4 ≤ 10000000 && num b 8 1 ≤ 1
    && num b 9 1 ≤ 1 && zeros b 10 16)

def faultChecks (b : Bytes) : Option (Nat × Nat) :=
  if faultHeaderBad b then some (0x02, 0)
  else (firstBad (records b 16 4) fun before r =>
    refuse (!codeKnown (num r 0 2) || before.any (fun q => num q 0 2 == num r 0 2) || decide (3 < num r 2 1)
      || num r 3 1 != 0) 0x02).map fun p => (p.1, p.2 + 1)

/-- The SPLICE record; D × span_ns is at least 2,000 (R297). -/
def spliceChecks (h : CastHdr) (anchor : Nat × Nat) (b : Bytes) : Option (Nat × Nat) :=
  let (n, m) := (hDecl h).spanNs anchor
  let ok := num b 0 2 == 1 && num b 2 1 ≤ 2 && 2 ≤ num b 3 1 && num b 3 1 ≤ 64 && num b 4 1 ≤ 1 && zeros b 5 8
    && zeros b 0x28 0x40 && (num b 2 1 == 0 || (hDecl h).flags == 1) && 2000 * m ≤ num b 3 1 * n
  if b.length < 64 ∨ ok then none else some (0x02, 0)

/-! ### Instruction words (R40, R42, R67–R69, R146–R148) -/

/-- Native selector of a GN32 selector in a strand with index `n` of its ply (R68). -/
def gnSel (n x : Nat) : Option Nat :=
  if x < 0x40 then some x
  else if x < 0x60 then some (0x80 + (x - 0x40))
  else if x < 0x68 then some (0xA0 + 8 * (n / 8) + (x - 0x60))
  else if x < 0x70 then some (0xB0 + (x - 0x68))
  else if x < 0x74 then some (0xF0 + (x - 0x70))
  else none

/-- A native word of its fields (R39). -/
def wordOf (op tt : Nat) (sels : List Nat) (aux : Nat) : W64 :=
  BitVec.ofNat 64 (op * 2 ^ 60 + tt * 2 ^ 44 + sels.getD 0 0 * 2 ^ 36 + sels.getD 1 0 * 2 ^ 28 + sels.getD 2 0 * 2 ^ 20
    + sels.getD 3 0 * 2 ^ 12 + aux)

/-- The native word of a GN32 word, or its refusal code (R67–R69). -/
def gnExpand (n : Nat) (w : W64) : Except Nat W64 :=
  let x := w.toNat
  let op := field x 44 4
  let formF := op == 0 || op == 1 || op == 8
  let formX := op == 2 || op == 3 || op == 4 || op == 5
  if !formF && !formX then .error 0x30
  else
    let raw := if formF then [field x 21 7, field x 14 7, field x 7 7, field x 0 7] else [field x 14 7, field x 7 7, field x 0 7]
    let sels := raw.map (gnSel n)
    let bad := sels.any (·.isNone)
    if opFetches op && bad then .error 0x31
    else if bad || field x 48 16 != 0 || (formX && field x 21 3 != 0) then .error 0x32
    else if formF then .ok (wordOf op (field x 28 16) (sels.map (·.getD 0)) 0)
    else if op == 3 then
      if field x 36 8 != 0 || raw.any (· != 0) || decide (1024 ≤ field x 24 12) then .error 0x32
      else .ok (wordOf op 0 [0, 0, 0, 0] (field x 24 12 + 1024))
    else .ok (wordOf op (field x 36 8) (sels.map (·.getD 0) ++ [0xF0]) (field x 24 12))

/-- A field that the class leaves zero is not, or AUX leaves its bits (R40, R124). `gn32`: the read-through form is allowed. -/
def fieldNonzero (gn32 : Bool) (w : W64) : Bool :=
  let op := wOp w
  let aux := wAux w
  (!opFetches op && (wTT w != 0 || (wSels w).any (· != 0)))
    || (match op with
        | 2 => decide (1024 ≤ aux)
        | 3 => decide (1024 ≤ (if gn32 then aux % 1024 else aux))
        | 4 => decide (32 ≤ aux)
        | 5 => field aux 8 3 != 0 || decide (184 < aux % 256)
        | 6 => decide (1024 ≤ aux)
        | _ => aux != 0)

/-- A delivery entry feeds latch `m` of strand `g` at a step below `t` in table copy `copy` (R147). -/
def State.fed (s : State) (copy g m t : Nat) : Bool :=
  s.ring.slots.any fun p =>
    p.1 / 2 ^ 30 == copy && p.1 / 2 ^ 22 % 256 == gCord g && p.1 / 2 ^ 21 % 2 == 1 && decide (p.1 / 2 ^ 9 % 4096 < t)
      && entryKind p.2.toNat == 1 && entryStrand p.2.toNat == g % 1024 && entryTag p.2.toNat == m

/-- The first refusal of the native word `w` of strand `g` at step `t` of a schedule (R146–R148). -/
def State.wordRefusal (s : State) (d : Decl) (nb copy g t : Nat) (gn32 : Bool) (w : W64) : Option Nat :=
  let op := wOp w
  let sels := wSels w
  let inPrefix := decide (t < d.e)
  let mode := s.fget (F.DMP_CFG_MODE (gCord g) (gGroup g))
  firstRefusal
    [refuse (opReserved op || (op == opTurnEnd) != (t + 1 == d.l)) 0x30,
     refuse (opFetches op && sels.any selReserved) 0x31,
     refuse (fieldNonzero gn32 w) 0x32,
     refuse (inPrefix && (op == opEvalPort || (opFetches op && sels.any fun x => selPort x ||
       (0x80 ≤ x && x < 0xA0 && !s.fed copy g (x - 0x80) t)))) 0x33,
     refuse (op == opEvalPort && (mode == 0 || (mode == 3 && (wAux w).testBit 11 && decide (nb < t + 600)))) 0x20]

/-- The words of a schedule frame from step `t` up: the native words to store, or the first refusal. Words at steps L and above
are 0, and any other there is FIELD_NONZERO whatever its operation (R275; DEDUCED, log 112). -/
def State.frameWords (s : State) (d : Decl) (nb copy g : Nat) (gn32 : Bool) : Nat → List W64 → Except Nat (List W64)
  | _, [] => .ok []
  | t, w :: ws =>
    if d.l ≤ t then if w = 0 then s.frameWords d nb copy g gn32 (t + 1) ws |>.map ((0 : W64) :: ·) else .error 0x32
    else
      -- below step L, TURN_END anywhere but at step L − 1 is ILLEGAL_OP before the word's other checks (R33, R146)
      let op := if gn32 then field w.toNat 44 4 else wOp w
      if (op == opTurnEnd) != (t + 1 == d.l) then .error 0x30
      else match (if gn32 then gnExpand (gIndex g) w else .ok w) with
      | .error c => .error c
      | .ok v =>
        match s.wordRefusal d nb copy g t gn32 v with
        | some c => .error c
        | none => (s.frameWords d nb copy g gn32 (t + 1) ws).map (v :: ·)

/-! ### Edge fabric frames (R160, R275) -/

/-- Product-term masks of a block from its frames 0 and 1. -/
def blockTerms (b : Bytes) : List (BitVec 192) := (List.range 320).map fun t => BitVec.ofNat 192 (num b (24 * t) 24)

/-- The rows of a block memory from its two halves: 36 bits per row, least significant bit first (R164). -/
def memRows (b : Bytes) : List (BitVec 36) :=
  (List.range 1024).map fun r => BitVec.ofNat 36 (num b (36 * r / 8) 5 / 2 ^ (36 * r % 8))

/-- Expanders keep R160. -/
def expandersOk (c : BlockCfg) : Bool :=
  c.macros.zipIdx.all fun p =>
    let k := p.1
    k.borrow ≤ 7 && p.2 + k.borrow ≤ 63 && !(k.lends && 0 < k.borrow)
      && (List.range k.borrow).all fun j => (c.macros.getD (p.2 + 1 + j) {}).lends

/-! ### Collected EDGE frames (R162, R170, R173, R275) -/

/-- A frame of zeros. -/
def zeroFrame : Bytes := List.replicate 4096 0

/-- An EDGE frame that the loader holds: its bytes, then its frame index in 4 bytes. -/
def heldFrame (m : SMap Bytes) (a : Nat) : Bytes := (SMap.find m a).getD zeroFrame
def heldIndex (m : SMap Bytes) (l : List Nat) : Nat := l.foldl (fun n a => max n (num (heldFrame m a) 4096 4)) 0

/-- The blocks that a set of EDGE frames configures, in order. -/
def edgeBlockList (m : SMap Bytes) : List Nat :=
  (m.filter fun p => p.1 < 2 ^ 14).map (fun p => p.1 % 4096) |>.foldl (fun l b => if l.contains b then l else l ++ [b]) []

/-- The frames of a block. -/
def blockFrames (b : Nat) : List Nat := (List.range 4).map fun k => b + 4096 * k

/-- The settings of block `b`. -/
def edgeSettings (m : SMap Bytes) (b : Nat) : Option BlockSettings :=
  let f := fun k => (heldFrame m (b + 4096 * k)).take 4096
  (Config.edgeBlock (f 2) (f 3)).map fun x => { x with block := { x.block with terms := blockTerms (f 0 ++ f 1) } }

/-- The die-wide settings; without a die-wide frame there are none (R170). -/
def edgeDie (m : SMap Bytes) : Option DieCfg :=
  match m.filter fun p => 2 ^ 30 ≤ p.1 && p.1 < 2 ^ 30 + 256 with
  | [] => some {}
  | l => Config.dieSettings (l.map fun p => (p.1 - 2 ^ 30, p.2.take 4096))

/-- A signal in the pool of block `b`, and a clock that may drive it (R157, R170). -/
def sourceOk (b : Nat) : EdgeSrc → Bool
  | .lane n bit => laneDie n == blockDie b && decide (n < 1056) && decide (bit < 144)
  | .io pin _ => blockDie b == 0 && decide (pin < 192)
  | .mcell m => decide (m < 64)
  | .row l => decide (l < 128)
  | .col l => decide (l < 64)
  | .bridge n => decide (n < 256)
  | .bmem _ bit => decide (bit < 72)
  | .out port bit => decide (port < 32) && decide (bit < 128)
  | .relTurn bit => decide (bit < 8)
  | .ready port => decide (port < 16)
  | _ => true
def clockOk (die : Nat) (c : EdgeClk) : Bool := match clkDie c with | some d => d == die | none => true

/-- Block `b` stands in a whole multiplexer group of an allowed size at an allowed column (R162). -/
def groupOk (m : SMap Bytes) (b : Nat) (c : BlockCfg) : Bool :=
  match c.mode with
  | .mux g place =>
    [1, 2, 4, 8, 16].contains g && decide (place < g) && decide (place ≤ b) && (b - place) % g == 0
      && (List.range g).all fun i => match edgeSettings m (b - place + i) with
        | some x => x.block.mode == .mux g i
        | none => false
  | _ => true

/-- The drivers of a block are connected to lines of its row and column (R168). -/
def driversOk (c : BlockCfg) : Bool :=
  c.macros.all fun k => (match k.row with | some l => decide (l < 128) | none => true)
    && (match k.col with | some l => decide (l < 64) | none => true)

/-- Block inputs of die `die` that take incoming bridge bit `n`. -/
def bridgeUses (m : SMap Bytes) (die n : Nat) : Nat :=
  (edgeBlockList m).foldl (fun k b => k + (match edgeSettings m b with
    | some x => if blockDie b = die then (x.block.ins.filter (· == .bridge n)).length else 0
    | none => 0)) 0

/-- The die-wide settings name sources on the die that sends, a bridge bit at most 16 destinations (R176, R178). -/
def dieOk (m : SMap Bytes) (d : DieCfg) : Bool :=
  (d.bridge.all fun p => blockDie (p.2 / 64) == p.1 / 256 && decide (bridgeUses m (1 - p.1 / 256) (p.1 % 256) ≤ 16))
    && d.wires.all fun p => blockDie (p.2 / 64) == p.1 / 64

/-- The settings of block `b` keep R157, R160, R162, R168 and R170. The refusal of settings outside R157, R162, R168, R176 and R178
is DEDUCED (log 116). -/
def blockOk (m : SMap Bytes) (b : Nat) (x : BlockSettings) : Bool :=
  let port := fun (p : MemPortCfg) => clockOk (blockDie b) p.clk && (p.addr ++ p.data ++ p.we).all (sourceOk b)
  expandersOk x.block && driversOk x.block && clockOk (blockDie b) x.block.clk && x.block.ins.all (sourceOk b) && groupOk m b x.block
    && match x.mem with | some k => port k.a && port k.b | none => true

/-- EDG_FORMAT with the index of the last frame of the part that breaks a rule (R160, R170, R173). -/
def edgeChecks (h : CastHdr) (m : SMap Bytes) : Option (Nat × Nat) :=
  let bad := fun b => match edgeSettings m b with
    | some x => !blockOk m b x
    | none => true
  let die := (m.filter fun p => 2 ^ 30 ≤ p.1 && p.1 < 2 ^ 30 + 256).map (·.1)
  let dieBad := !die.isEmpty && match edgeDie m with
    | none => true
    | some d => (match d.mhz with | some f => decide (f < 100) || decide (1000 < f) | none => false)
        || !dieOk m d || d.tin.any (fun k => !(hDecl h).cords.getLsbD (k / 2048)) || d.ios.any fun p => !clockOk 0 p.2.clk
  firstRefusal [((edgeBlockList m).find? bad).map fun b => (0x27, heldIndex m (blockFrames b)),
                if dieBad then some (0x27, heldIndex m die) else none]

/-! ### Action entries (R173, R251, R260, R261) -/

/-- Fields that an operation uses: DST, SA, SB, NEXT, ALT as bits 0–4, and the bits of IMM and IMM2. -/
def nodeUses (op : Nat) : Nat × Nat × Nat :=
  let all := 0xFFFFFFFF
  match op with
  | 0x01 => (0x09, 0, 2 ^ 64 - 1)
  | 0x02 => (0x0F, all, 0)
  | 0x03 => (0x0F, 3, 0)
  | 0x04 => (0x0B, 0x7F, 0)
  | 0x05 => (0x0B, 0x3F3F, 0)
  | 0x06 => (0x1E, 3, 0)
  | 0x07 => (0x1A, 0x3F, 0)
  | 0x08 => (0x0F, 0, 0)
  | 0x09 => (0x09, 0, 0)
  | 0x0A => (0x0B, all, 0)
  | 0x0B => (0x0E, all, 0)
  | 0x0C => (0x0E, all, 0)
  | 0x0D => (0x08, 0, 2 ^ 64 - 1)
  | 0x0E => (0x0A, 0xF7FF, 0)
  | 0x0F => (0x08, 0x7FF, 0x7FF)
  | 0x10 => (0x0A, 0xFF, 0)
  | 0x11 => (0x18, 0x3FF, 0)
  | 0x12 => (0x0E, 0x3FFFF, 0)
  | 0x13 => (0x1E, 0x3FFF, 0)
  | 0x14 => (0x08, 0x8FFF001F, 0)
  | 0x15 => (0x1A, 0x31F, 0)
  | 0x16 => (0x09, 0x31F, 0)
  | 0x17 => (0x0A, all, 0)
  | 0x18 => (0x08, all, 0)
  | _ => (0, 0, 0)

/-- A node with a reserved OP or a non-zero field that its operation does not use. -/
def nodeBad (w : W128) : Bool :=
  let x := w.toNat
  let (use, imm, imm2) := nodeUses (field x 0 8)
  let unused := fun (i lo n : Nat) => !use.testBit i && field x lo n != 0
  decide (0x18 < field x 0 8) || unused 0 8 4 || unused 1 12 4 || unused 2 16 4 || unused 3 20 6 || unused 4 26 6
    || field x 32 32 &&& imm != field x 32 32 || field x 64 64 &&& imm2 != field x 64 64

/-- Rings of two queues overlap, or two queues of a flow share a flag. -/
def queueClash (x y : Setting) : Bool :=
  match x, y with
  | .queue _ f g k b, .queue _ f' g' k' b' => (f == f' && g == g') || (decide (b < b' + 16 * 2 ^ k') && decide (b' < b + 16 * 2 ^ k))
  | _, _ => false

/-- An ACTION entry that its rule refuses. -/
def actBad (h : CastHdr) (before : List Setting) (x : Setting) : Bool :=
  match x with
  | .queue _ _ _ _ b => b % 16 != 0 || before.any fun y => queueClash y x
  | .node _ w => nodeBad w
  | .tin _ w => !(hDecl h).cords.getLsbD (w / 2048)
  | _ => false

/-- ACT_FORMAT with the index of the entry. -/
def actChecks (h : CastHdr) (b : Bytes) : Option (Nat × Nat) :=
  firstForm 0x28 (Config.sectionSettings 6 b) fun before x => match x with
    | some x => actBad h before x
    | none => true

/-- Queue rings lie in the 1–8 banks that the cast gives to owner 0x30 (R251). -/
def ringChecks (b : Bytes) (owners : SMap (Nat × Bool)) : Option (Nat × Nat) :=
  let mine := fun bank => SMap.find owners bank == some (0x30, false)
  firstForm 0x28 (Config.sectionSettings 6 b) fun _ x => match x with
    | some (.queue _ _ _ k a) => !(decide (0x04000000 ≤ a) && mine (bankOf a) && mine (bankOf (a + 16 * 2 ^ k - 1)))
    | _ => false

end Sys2Proof.Machine
end

