-- ==== Sys2Proof/Machine/Splice.lean ====
section
/-! DEFINITION. Redundant pairs (chapter 14): pairing, the mirror stream's receiving side, liveness, promotion and the link. -/

namespace Sys2Proof.Machine

/-! ### The Iluben link (R296) -/

/-! ### The link's peer (R298) -/

/-! ### Pairing (R298, R299) -/

/-- IMAGE_ID (R297, R309). -/
def State.imageIdNum (s : State) : Nat := s.words (R.SPL_IMAGE_ID 0) 8

/-- The partner's record is complementary in role and equal in the rest. The serial identifies the partner and is not
compared: two devices never share one. DEDUCED (log 38). -/
def State.helloFits (s : State) (h : Hello) : Bool :=
  let role := s.fget F.SPL_CFG_ROLE
  ((role == 1 && h.role == 2) || (role == 2 && h.role == 1)) && h.imageId.toNat == s.imageIdNum
    && h.lag.toNat == s.fget F.SPL_CFG_D && h.span.toNat == s.span && h.lockSrc == s.bit F.TURN_CFG_LOCK_SRC

/-- Line time that corresponds to `ns` nanoseconds, in line ticks. -/
def State.lineTicks (s : State) (ns : Nat) : Nat :=
  if s.bit F.TURN_CFG_LOCK_SRC then s.anchorWords (ns * 65536) else ns * 65536

/-- A pair forms. An ACTIVE device's turn 0 starts at the first boundary at least 10 µs on (R299): where the anchor lane is still to
lock, the line time that counts from its lock on has its T0 later than that. -/
def State.pairUp (s : State) (h : Hello) : State :=
  if s.fget F.SPL_STAT_STATE != 1 || !s.linkAligned || !s.helloFits h then s
  else
    let active := s.fget F.SPL_CFG_ROLE == 1
    let s1 := (s.fset F.SPL_LINK_LAT_NS h.latency.toNat).fset F.SPL_STAT_STATE (if active then 2 else 3)
    let at_ : Int := if s1.bit F.TURN_STAT_LOCK_WAIT then 0 else s1.lineTime + (s1.lineTicks 10000 : Nat)
    { s1 with splice := { s1.splice with
        paired := true, startAt := at_, beat := true, beatAt := s1.time.now, rolePin := active || s1.splice.rolePin } }

/-- No pair has formed 100 ms after commit: SOLO (R298). -/
def State.pairFail (s : State) : State :=
  if s.fget F.SPL_STAT_STATE != 1 then s
  else
    let s1 := ((s.fset F.SPL_STAT_STATE 4).fset F.SPL_STAT_PAIR_FAIL 1).raiseAt 0x284 0x0701 0 0 0
    if s1.fget F.SPL_CFG_ROLE = 1 then
      ({ s1 with splice := { s1.splice with rolePin := true } }).fset F.TURN_HOLD_SRC_SPLICE 0
    else s1

/-! ### The mirror stream on a STANDBY (R300) -/

def State.setHeld (s : State) (j : Nat) (h : HeldTurn) : State :=
  ({ s with splice := { s.splice with held := SMap.put s.splice.held j h } }).showHeld

/-- A paired STANDBY takes the item. -/
def State.mirrored (s : State) (f : State → State) : State :=
  if s.splice.paired && s.linkAligned && s.fget F.SPL_STAT_STATE == 3 then f s else s

/-- A(j) of the turn that a heartbeat of the boundary at line time `b` starts (R299). -/
def State.startOf (s : State) (b : Nat) : Int :=
  if s.bit F.TURN_CFG_LOCK_SRC then s.lineTime - (s.lineTicks (s.fget F.SPL_LINK_LAT_NS) : Nat) else b

def State.heartbeat (s : State) (h : Heartbeat) : State :=
  if !s.splice.paired || !s.linkAligned then s
  else
    let s1 := { s with splice := { s.splice with beat := true, beatAt := s.time.now } }
    s1.mirrored fun s =>
      let s2 := match h.starts with
        | some j => s.setHeld j.toNat { s.heldTurn j.toNat with start := some (s.startOf h.boundary) }
        | none => s
      match h.digest with
      | some (j, d) => { s2 with splice := { s2.splice with digests := SMap.put s2.splice.digests j.toNat d.toNat } }
      | none => s2

/-- A time adjustment of the ACTIVE device; steps enter TURN_LT_OFFSET (R71, R214–R216). -/
def State.adjust (s : State) : TimeAdj → State
  | .freq v => s.setFreq v
  | .step p => s.stepTime (moveTime s.time.now p.toInt)
  | .slew p => ({ s with time := { s.time with slew := some (p.toInt * 1000000) } }).fset F.TIME_STAT_PHASE_BUSY 1
  | .tod t => s.loadTod s.time.now (timeOfBits t.toNat)

/-! ### Loss and promotion (R304, R305) -/

/-- The turn after the unbroken row of complete turns from `j` up, among `n` candidates: n_f + 1 (R305). -/
def State.afterHeld (s : State) (j : Nat) : Nat → Nat
  | 0 => j
  | n + 1 => if s.heldDone j then s.afterHeld (j + 1) n else j

/-- A STANDBY declares loss (R305). -/
def State.promote (s : State) : State :=
  let st := s.fget F.SPL_STAT_STATE
  if st = 6 ∨ s.flt.deposed ∨ (s.bit F.SPL_CTL_DIV_POLICY ∧ s.bit F.SPL_STAT_DIVERGED) then
    -- no code of R313 stands for this entry: SAFE_CODE is a free value (log 43)
    ({ s.drawn with splice := { s.splice with paired := false } }).enterSafe (s.freeBits 16).toNat 2
  else
    let j := s.nextTurn
    let own := s.afterHeld j s.splice.held.length
    let s1 := (s.wset W.SPL_PROMO_TIME_TIME (timeBits s.time.now)).fset F.SPL_STAT_STATE 5
    ({ s1 with splice := { s1.splice with
        okOut := 3, paired := false, promoAt := s.time.now, own, bs := none, held := s1.splice.held.filter fun p => p.1 < own } }).showHeld

/-- An ACTIVE device declares its partner lost and runs alone (R298, R304). -/
def State.partnerLost (s : State) : State :=
  let s1 := ((s.fset F.SPL_STAT_STATE 4).fset F.SPL_STAT_PARTNER_LOST 1).raiseAt 0x284 0x0704 0 0 0
  { s1 with splice := { s1.splice with paired := false } }.fset F.TURN_HOLD_SRC_SPLICE 0

/-- LOSS_T in 2^-16 ns: four spans, and 20 µs at least (R304). -/
def State.lossT (s : State) : Nat := max (4 * s.spanTime) 1310720000

/-- A condition of R304 has held: no heartbeat for LOSS_T, or PARTNER_OK at a code other than valid for 1 µs. -/
def State.lossSeen (s : State) (why : LossCause) : Bool :=
  match why with
  | .heartbeat => decide (s.splice.beatAt + s.lossT ≤ s.time.now)
  | .pins c => c != 2 && c.toNat == s.partnerPins && decide (s.splice.pinsAt + 65536000 ≤ s.time.now)

def State.loss (s : State) (why : LossCause) : State :=
  let st := s.fget F.SPL_STAT_STATE
  if !s.splice.paired || !s.lossSeen why then s
  else if st = 2 then (if why = .pins 3 then s.takeover else s.partnerLost)
  else if st = 3 ∨ st = 6 then s.promote
  else s

/-- The later of Bs + SPAN and the declaration plus 2 µs has come (R305). A device that a C3 fault has deposed meanwhile keeps its
pins low until its next full load (R303, R320). -/
def State.promoted (s : State) : State :=
  match s.splice.bs with
  | some x =>
    if s.fget F.SPL_STAT_STATE = 5 ∧ !s.flt.deposed ∧ x + 1 < s.core.boundary ∧ s.splice.promoAt + 131072000 ≤ s.time.now then
      let s1 := { s with splice := { s.splice with rolePin := true, okOut := 2 } }
      let s2 := ((s1.fset F.SPL_STAT_STATE 2).fset F.SPL_LOST_COUNT (s1.lagAt x s1.splice.lastA)).wset
        W.SPL_PROMO_TURN_VALUE s1.splice.own
      let s3 := s2.each s2.queues fun s q => (s.fset (F.ACT_Q_STAT_LEVEL q) 0).driveFlag q
      (s3.fset F.SPL_STAT_PROMOTED 1).raiseAt 0x284 0x0705 0 0 0
    else s
  | none => s

/-! ### The link (R308) -/

def State.linkDown (s : State) : State :=
  let s1 := (s.fset F.SPL_CTL_LINK_EN 0).fset F.SPL_STAT_PENDING_ENABLE 0
  s1.each s1.spliceLanes fun s n => s.laneDisable n

def State.linkUp (s : State) : State :=
  let s1 := (s.fset F.SPL_CTL_LINK_EN 1).fset F.SPL_STAT_PENDING_ENABLE 0
  s1.each s1.spliceLanes fun s n => s.laneEnable n

def State.linkShutting (s : State) : Bool := s.spliceLanes.any fun n => s.bit (F.LANE_STAT_SHUTTING n)

/-- LINK_EN = 1 behind a shutdown is held (R308, R343). -/
def State.linkEn (s : State) (v : Bool) : State :=
  if !v then s.linkDown
  else if s.linkShutting then s.fset F.SPL_STAT_PENDING_ENABLE 1
  else s.linkUp

/-- A lane's shutdown ends; with the last splice lane's, a held link enable goes on (R206, R308). -/
def State.shutdownEnd (s : State) (n : Nat) : State :=
  let s1 := s.laneShutdownDone n
  if s1.bit F.SPL_STAT_PENDING_ENABLE && !s1.linkShutting then s1.linkUp else s1

/-- RELINQUISH on an ACTIVE device (R306). -/
def State.relinquish (s : State) : State := if s.fget F.SPL_STAT_STATE = 2 then s.takeover else s

/-! ### The meanings -/

def execHello (h : Hello) (s : State) : Host.Outcome State Fault Refusal := .next (s.pairUp h)
def execPairFail (s : State) : Host.Outcome State Fault Refusal := .next s.pairFail
def execHeartbeat (h : Heartbeat) (s : State) : Host.Outcome State Fault Refusal := .next (s.heartbeat h)

def execMirrorWord (turn : W64) (idx : BitVec 32) (data : W128) (s : State) : Host.Outcome State Fault Refusal :=
  .next (s.mirrored fun s =>
    let h := s.heldTurn turn.toNat
    if idx.toNat < s.fillWords.length then s.setHeld turn.toNat { h with words := SMap.put h.words idx.toNat data } else s)

def execWrittenFlags (turn : W64) (flags : List Bool) (s : State) : Host.Outcome State Fault Refusal :=
  .next (s.mirrored fun s => s.setHeld turn.toNat { s.heldTurn turn.toNat with flags := some flags })

def execFlowContextDelta (d : FlowDelta) (s : State) : Host.Outcome State Fault Refusal :=
  .next (s.mirrored fun s =>
    let h := s.heldTurn d.turn.toNat
    s.setHeld d.turn.toNat { h with deltas := h.deltas ++ [d] })

def execTimeAdjustment (a : TimeAdj) (s : State) : Host.Outcome State Fault Refusal :=
  .next (s.mirrored fun s => s.adjust a)

/-- Partner event inputs 216–223 (R240, R300). -/
def execPartnerTrigOut (j : BitVec 3) (s : State) : Host.Outcome State Fault Refusal :=
  .next (if s.splice.paired && s.linkAligned then s.pulse (216 + j.toNat) else s)

/-- Turn numbers of a partial reconfiguration: the STANDBY isolates and releases the region at them (R291, R300). -/
def execPartTurnNumbers (release : Bool) (turn : W64) (s : State) : Host.Outcome State Fault Refusal :=
  .next (s.mirrored fun s =>
    if release then { s with splice := { s.splice with partRel := some turn.toNat } }
    else { s with splice := { s.splice with partIso := some turn.toNat } })

def execPartnerLoss (why : LossCause) (s : State) : Host.Outcome State Fault Refusal :=
  .next (s.watch [1, 14] fun s => s.loss why)

def execPromotionComplete (s : State) : Host.Outcome State Fault Refusal := .next (s.watch [14] fun s => s.promoted)

def execRelinquish (s : State) : Host.Outcome State Fault Refusal :=
  .next (s.hostCmd R.SPL_CTL 1 1 fun s => s.relinquish)

def execLinkEn (v : Bool) (s : State) : Host.Outcome State Fault Refusal :=
  .next (s.hostCmd R.SPL_CTL 4 (BitVec.ofNat 32 (v.toNat * 2 ^ 2)) fun s => (s.linkEn v))

def execLaneShutdownDone (lane : LaneId) (s : State) : Host.Outcome State Fault Refusal :=
  .next (if s.laneHere lane.toNat then s.shutdownEnd lane.toNat else s)

end Sys2Proof.Machine
end

