-- ==== Sys2Proof/Machine/Commit.lean ====
section
/-! DEFINITION. The load-time state (R284), the application of the held sections (R280) and the full-image commit (R285). -/

namespace Sys2Proof.Machine

/-! ### The load-time state (R284) -/

/-- What outlives a load: the daisy chain's side of it. -/
def Loader.rest (l : Loader) : Loader := { rdyN := l.rdyN, fwd := l.fwd, out := l.out }

/-- The bytes of a held section. -/
def State.section (s : State) (t : Nat) : Bytes := (SMap.find s.load.held t).getD []

/-- The registers of an array from `base`, words at the offsets `offs` of each of `n` blocks of `stride`, at reset. -/
def State.resetWords (s : State) (base stride n : Nat) (offs : List Nat) : State :=
  let hit := fun (a : Nat) => decide (base ≤ a) && decide (a < base + stride * n) && offs.contains ((a - base) % stride)
  { s with regs := s.regs.filter fun p => !hit p.1 }

/-- Lanes transmit electrical idle and are not enabled; their words and scans stop. -/
def State.idleLanes (s : State) : State :=
  let s1 := s.each (List.range 1056) fun s n =>
    let s1 := if s.fget ⟨R.LANE_CTL n, 0, 3⟩ = 0 then s else s.fset ⟨R.LANE_CTL n, 0, 3⟩ 0
    let s2 := s1.laneStill n
    if s2.fget ⟨R.LANE_STAT n, 0, 8⟩ = 0 then s2 else s2.fset ⟨R.LANE_STAT n, 0, 8⟩ 0
  { s1 with lanes := SMap.mapv (fun _ => ({} : Lane)) (fun _ x => x.still) s1.lanes }

/-- Capture and pattern channels are IDLE and disabled. -/
def State.idleChannels (s : State) : State :=
  let s1 := { s with caps := [], pats := [] }
  let s2 := (s1.resetWords (R.CAP_STAT 0) 0x40 1024 [0]).resetWords (R.PAT_CTL 0) 0x40 1024 [0]
  s2.resetWords (R.PAT_STAT 0) 0x40 1024 [0]

/-- Units, queues, flows and lists as before a load (R266). -/
def State.clearAction (s : State) : State :=
  let s1 := (s.resetWords (R.ACT_Q_CFG 0) 0x10 16384 [0, 4, 8]).resetWords (R.ACT_FL_FLAGS 0) 0x20 4096 [0, 4, 8, 0xC]
  let s2 := (s1.resetWords (R.ACT_UNIT 0) 4 64 [0]).resetWords (R.ACT_DL_STAT 0) 0x10 4 [0, 4]
  let s3 := (s2.fset F.ACT_STAT_INFLIGHT 0).fset F.ACT_STAT_RUNNING 0
  { s3 with act := {} }

/-- No station closes or swaps any more. -/
def State.openStations (s : State) : State :=
  s.each (List.range 0xA0) fun s n =>
    if s.fget (stnClosed n) = 0 ∧ s.fget (stnSwapPend n) = 0 ∧ s.fget (stnDraining n) = 0 then s
    else ((s.fset (stnSwapPend n) 0).fset (stnClosed n) 0).fset (stnDraining n) 0

/-- Strand cores, network and fabric as before a load; counters keep their values. -/
def State.clearCore (s : State) : State :=
  let s1 := { s.dropPorts fun _ => true with
    core := {}, strands := [], edge := {}
    ring := { s.ring with bights := [], specProbes := [], lastInj := [], specInj := [], bankUse := [], oldWords := [], waits := []
                          parked := [] }
    host := { s.host with queue := [] } }
  let s1 := { s1 with trig := { s1.trig with level := (s1.trig.level >>> 128) <<< 128 } }
  let s2 := s1.each (List.range 128) fun s c =>
    if s.fget ⟨R.CRD_STAT c, 0, 5⟩ = 0 then s else s.fset ⟨R.CRD_STAT c, 0, 3⟩ 0
  let s3 := (s2.fset F.EDG_STAT_RESET_HELD 1).fset F.EDG_STAT_BRIDGE_UP 0
  (((s3.openStations).fset F.EDG_STAT_REGION_ISO 0).fset ⟨R.TURN_STAT, 0, 7⟩ 0).fset F.TURN_HOLD_SRC_PART 0

/-- The splice unit outside a pair, its pins low. -/
def State.clearSplice (s : State) : State :=
  let s1 := { s with splice := {} }
  let s2 := (s1.fset F.SPL_STAT_STATE 0).fset F.SPL_STAT_DIVERGED 0
  ((s2.fset F.TURN_HOLD_SRC_SPLICE 0).wset W.SPL_DIV_TURN_VALUE (2 ^ 64 - 1)).fset F.SPL_LAG_HELD 0

/-- Pins present the load-time state; every bank belongs to the boot sequencer, and every domain is powered (log 50). -/
def State.clearOwners (s : State) : State :=
  let s1 := s.each (List.range 192) fun s n =>
    if s.fget (F.PIN_CFG_FUNC_ACT n) = 7 then s else s.fset (F.PIN_CFG_FUNC_ACT n) 7
  let s2 := { s1.trigIns with pins := { s1.pins with waits := [], held := [], trigIn := 0 }, ring := { s1.ring with nextOwner := [], waits := [] } }
  let s3 := s2.each (List.range 64) fun s b => ((s.fset (F.BNK_OWN_OWNER b) 1).fset (F.BNK_OWN_CORDS b) 0).fset (F.BNK_STAT_STATE b) 0
  s3.resetWords (R.PWR_DOM 0) 4 86 [0]

/-- The load-time state of a host-requested full load; no AY4060 image is in force (R94). -/
def State.enterLoad (s : State) : State :=
  let s1 := ((s.idleLanes).idleChannels).clearAction
  let s2 := ((s1.clearCore).clearSplice).clearOwners
  { ((s2.fset F.CFG_PART_STAT_STATE 0).fset F.CFG_PART_STAT_PENDING_ENABLE 0).fset F.NOC_STAT_CLOSED 0 with
    image := {}, recon := {}, sec := { s2.sec with castMeas := 0, partMeas := 0, partCount := 0, elig := [], sk := none, castKey := none } }

/-! ### Applying the held sections (R280) -/

/-- The settings word of a lane record (R185). -/
def laneCfgWord (r : Bytes) : Nat :=
  1 + laneMod r * 2 + lanePcs r * 4 + lanePll r * 32 + num r 9 1 % 8 * 64 + laneFirst r * 512 + laneOpt r * 2 ^ 13 + num r 12 1 * 2 ^ 18

/-- Lane settings; a lane without a record is unconfigured (R185), and one in no deskew group has no delay (R190, R208). The FEC counters of a group count on its first lane, those of the others read 0 (R191). -/
def State.applyLanes (s : State) : State :=
  let s1 := s.resetWords (R.LANE_CFG 0) 0x2000 1056 [0, 4]
  let s2 := s1.each (records (s.section 2) 0 16) fun s r =>
    (s.setReg (R.LANE_CFG (laneNo r)) (BitVec.ofNat 32 (laneCfgWord r))).fset (F.LANE_RATE_KBPS (laneNo r)) (laneRate r)
  let s3 := s2.each (List.range 1056) fun s n =>
    if s.reg (R.LANE_DSK n) = 0 ∨ s.dskWidth n ≠ 1 then s else s.setReg (R.LANE_DSK n) 0
  s3.each ((List.range 1056).filter fun n => s3.dskFirst n != n) fun s n =>
    ((s.wset (W.LANE_FEC_CW_COUNT n) 0).fset (F.LANE_FEC_CORR_COUNT n) 0).fset (F.LANE_FEC_UNCORR_COUNT n) 0

/-- Port settings of the cords that `cords` selects (R122). -/
def State.applyPorts (s : State) (cords : Nat → Bool) : State :=
  let s1 := s.each ((List.range 128).filter cords) fun s c => s.each (List.range 4) fun s q =>
    ((s.fset (F.DMP_CFG_MODE c q) 0).wset (W.DMP_BASE_BASE c q) 0).wset (W.DMP_SIZE_SIZE c q) 0
  s1.each ((portList (s.section 4)).filter fun p => cords p.cord) fun s p =>
    ((s.fset (F.DMP_CFG_MODE p.cord p.port) p.mode).wset (W.DMP_BASE_BASE p.cord p.port) p.base).wset
      (W.DMP_SIZE_SIZE p.cord p.port) p.size

/-- Slot table entries of the section, under the copy `copy stn` of each station (R103, R106). -/
def slotEntries (b : Bytes) (copy : Nat → Nat) : SMap W32 :=
  (records b 0 8).foldl (fun m rb =>
    let r := leNat rb
    SMap.put m (slotKey (copy (slotStn r)) (slotStn r) (slotSide r) (slotStep r) (slotDir r) (slotPos r))
      (BitVec.ofNat 32 (slotEntry r))) []

/-- A full load writes copy 0 (R106). -/
def State.applySlots (s : State) : State :=
  { s with ring := { s.ring with slots := slotEntries (s.section 5) fun _ => 0 } }

/-- Copy 0 becomes the active one at the commit (R106). -/
def State.commitSlots (s : State) : State :=
  s.each (List.range 0xA0) fun s n => if s.fget (stnActive n) = 0 then s else s.fset (stnActive n) 0

/-- Initial contents of the block memories of a set of EDGE frames (R164), by block × 1024 + row. -/
def edgeMemInit (m : SMap Bytes) : SMap (BitVec 36) :=
  let mems := (m.filter fun p => 2 ^ 31 ≤ p.1).map (fun p => p.1 % 4096)
  mems.foldl (fun acc b =>
    let bytes := (heldFrame m (2 ^ 31 + b)).take 4096 ++ (heldFrame m (2 ^ 31 + 4096 + b)).take 512
    (memRows bytes).zipIdx.foldl (fun acc p => SMap.set (fun _ => 0) acc (b * 1024 + p.2) p.1) acc) []

def edgeBlocksOf (m : SMap Bytes) : SMap BlockCfg :=
  (edgeBlockList m).foldl (fun acc b => match edgeSettings m b with | some x => SMap.put acc b x.block | none => acc) []

def edgeMemsOf (m : SMap Bytes) : SMap MemCfg :=
  (edgeBlockList m).foldl (fun acc b => match (edgeSettings m b).bind (·.mem) with | some x => SMap.put acc b x | none => acc) []

/-- The EDGE section of a full cast. Without a frequency, every block is unconfigured and nothing is assigned (R170). -/
def State.applyEdge (s : State) : State :=
  let m := s.load.edge
  let d := (edgeDie m).getD {}
  if d.mhz.isNone then { s with edge := { die := { iocs := d.iocs } } }
  else { s with edge := { blocks := edgeBlocksOf m, mems := edgeMemsOf m, die := d, memInit := edgeMemInit m } }

/-- The REGION section in force. -/
def State.regionCfg (s : State) : RegionCfg :=
  match Config.regionRecords (s.section 8) with
  | .ok r => r
  | .error _ => {}

/-- Byte `a` lies in scratch bank 0 or 1, which hold the dictionary while a full cast loads (R276). -/
def inDictBanks (a : Nat) : Bool := decide (0x04000000 ≤ a) && decide (a < 0x04800000)

/-- Design memories that the cast does not carry hold 0 (R139). -/
def State.clearMemories (s : State) : State :=
  let windows := (portList (s.section 4)).filter fun (p : PortRec) => p.mode == 2
  let uses := s.regionCfg.uses
  let gone := fun (a : Nat) =>
    decide (2 ^ 48 ≤ a)
      || (!inDictBanks a && windows.any fun (p : PortRec) => decide (p.base ≤ a) && decide (a < p.base + 16 * p.size))
      || (decide (dramBase ≤ a) && SMap.find uses (granuleOf a) == some 3)
  { s with mem := s.mem.filter fun p => !gone p.1 }


/-! ### Border policies (R290) -/

/-- Values that policies 1 and 2 give the inject entries (KIND 0), by slotKey of copy 0. -/
def borderInjects (m : SMap Nat) : SMap Bool :=
  (m.filter fun p => p.1 < 2 ^ 32 ∧ p.2 ≠ 0).foldl (fun acc p =>
    SMap.put acc (slotKey 0 (p.1 / 2 ^ 21 % 256) 0 (p.1 / 2 ^ 9 % 4096) (p.1 / 64 % 8) (p.1 % 64)) (p.2 == 2)) []

/-- Values that they give signals leaving the fabric: lines, bridge bits, event wires, by the keys of `Edge.border`. -/
def borderSignals (m : SMap Nat) : SMap Bool :=
  (m.filter fun p => 2 ^ 32 ≤ p.1 ∧ p.2 ≠ 0).foldl (fun acc p =>
    let id := p.1 % 2 ^ 32
    let key := if p.1 / 2 ^ 32 = 1 then id % 2 ^ 14 else if p.1 / 2 ^ 32 = 2 then 2 ^ 14 + id % 512 else 2 ^ 15 + id % 128
    SMap.put acc key (p.2 == 2)) []

def State.setBorder (s : State) (m : SMap Nat) : State :=
  { s with
    recon := { s.recon with border := m, next := [] }
    image := { s.image with border := borderInjects m }
    edge := { s.edge with border := borderSignals m } }

/-! ### Long-line contention (R169) -/

/-- Enabled drivers of each long line. -/
def driverCounts (blocks : SMap BlockCfg) : SMap Nat :=
  blocks.foldl (fun acc p => p.2.macros.foldl (fun acc k =>
    let add := fun (acc : SMap Nat) (l : Option Nat) => match l with
      | some a => SMap.put acc a (SMap.get (fun _ => 0) acc a + 1)
      | none => acc
    add (add acc (k.row.map (rowLine p.1))) (k.col.map (colLine p.1))) acc) []

/-- The lines with two or more drivers, in increasing address. -/
def contended (blocks : SMap BlockCfg) : List Nat := ((driverCounts blocks).filter fun p => 2 ≤ p.2).map (·.1)

/-- The count over the whole configuration as it stands: all drivers of contended lines are disabled, the lines without an enabled
driver read 0, and the contention is shown and raised (R169). -/
def State.contention (s : State) : State :=
  let l := contended s.edge.blocks
  let n := driverCounts s.edge.blocks
  let s1 := { s with edge := { s.edge with dead := l, lines := s.edge.lines.filter fun p => SMap.get (fun _ => 0) n p.1 == 1 } }
  match l with
  | [] => s1.fset F.EDG_CONT_CNT_COUNT 0
  | a :: _ =>
    let s2 := (s1.fset F.EDG_CONT_CNT_COUNT l.length).setReg R.EDG_CONT_LINE (BitVec.ofNat 32 (a + 2 ^ 31))
    (s2.fset F.EDG_STAT_CONT 1).raiseAt (0x288 + a / 2 ^ 13) 0x0301 1 accWrite a

/-! ### The commit (R285) -/

/-- The turn unit: parameters, turn 0, and the placing of T0 (R73). -/
def State.commitTurns (s : State) (d : Decl) (closed : Bool) : State :=
  let s1 := (((s.fset F.TURN_CFG_L d.l).fset F.TURN_CFG_E d.e).fset F.TURN_CFG_LOCK_SRC d.lock).fset F.TURN_ANCHOR_LANE d.anchor
  let s2 := ((s1.fset F.TURN_SPAN_VALUE d.span).fset F.TURN_DOUT_VALUE d.dout).fset F.TURN_PHASE_VALUE d.phase
  let s3 := ((s2.wset W.TURN_NUM_TURN 0).wset W.TURN_LT_OFFSET_OFFSET 0).fset F.TURN_HOLD_SRC_LOCK 0
  let s4 := (s3.fset F.NOC_STAT_PROFILE d.profile).setBit F.NOC_STAT_CLOSED closed
  let s5 := { s4 with core := { first := d.cords } }
  if d.lock = 0 then s5.newT0
  else if s5.pcsLocked d.anchor then
    { s5 with core := { s5.core with
      anchor := s.core.anchor, rateAt := s.time.now, anchorT0 := some (s.time.now + tenMicro) } }
  else (s5.fset F.TURN_STAT_LOCK_WAIT 1).fset F.TURN_HOLD_SRC_LOCK 1

/-- The nominal frequency in kHz that a reference of `hz` fits, within −5,300 ppm to +1,000 ppm (R405). -/
def lrefFit (hz : Nat) : Option Nat :=
  if 99470000 ≤ hz ∧ hz ≤ 100100000 then some 100000
  else if 155421875 ≤ hz ∧ hz ≤ 156406250 then some 156250
  else none

/-- Each lane set measures its reference, whose frequency is the board's: a free value. DESIGN CHOICE (log 118). -/
def State.measureLref (s : State) : State :=
  s.each (List.range 66) fun s k =>
    let lref := match lrefFit (s.freeBits 32).toNat with
      | some f => SMap.put s.image.lref k f
      | none => SMap.del s.image.lref k
    { s.drawn with image := { s.image with lref } }

/-- Lanes and the splice lanes of a paired image are enabled (R205, R296). -/
def State.commitLanes (s : State) (paired : Bool) : State :=
  let s1 := s.each (records (s.section 2) 0 16) fun s r =>
    (s.fset (F.LANE_CTL_EN (laneNo r)) 1).fset (F.LANE_CTL_TX_SRC (laneNo r)) (num r 11 1)
  if paired then
    s1.each s1.spliceLanes fun s n =>
      let s2 := (s.setReg (R.LANE_CFG n) (BitVec.ofNat 32 (1 + 2 + 7 * 4 + 4 * 64 + 3 * 2 ^ 13))).fset (F.LANE_RATE_KBPS n) 64000000
      s2.setBit (F.LANE_CTL_EN n) (s2.bit F.SPL_CTL_LINK_EN)
  else s1

/-- Equalization of every configured lane (R195, R196). -/
def State.commitEq (s : State) : State :=
  let eq := s.section 3
  let board := s.store.boardId.toNat
  s.each ((List.range 1056).filter s.laneOn) fun s n =>
    match eqEntry eq board n (s.fget (F.LANE_CFG_MOD n)) (s.kbps n) with
    | none => s
    | some (i, r) =>
      let s1 := (s.setReg (R.LANE_EQ_TX n) (BitVec.ofNat 32 (num r 0x0C 4))).setReg (R.LANE_EQ_RX n)
        (BitVec.ofNat 32 (num r 0x10 1 + i * 2 ^ 16))
      s1.each (List.range 3) fun s j => s.setReg (R.LANE_EQ_DFE n j) (BitVec.ofNat 32 (num r (0x14 + 4 * j) 4))

/-- Starting values of the calibration loops (R197). -/
def calStart : CalSel → Int
  | .thr0 => 64
  | .thr2 => -64
  | _ => 0

/-- The loops of every configured lane start; pinned values win (R197, R200, R201). -/
def State.commitCal (s : State) : State :=
  s.each ((List.range 1056).filter s.laneOn) fun s n =>
    (s.each calAll fun s c =>
      (s.sset (calShadow n c) (calStart c)).sset (calApplied n c)
        (if s.calPinOn n c then s.sget (calPinned n c) else calStart c)).calConflict n

/-- INIT values of a block. -/
def initBlock (c : BlockCfg) : EdgeBlock :=
  let q := bits64 fun m => (cellOf c m).init
  { q, q1 := q, out := 0, ram := c.ram }

/-- Rows of block memory `b`. What its ports show before their first read the rule does not say: 0. DESIGN CHOICE (log 125). -/
def initMem (init : SMap (BitVec 36)) (b : Nat) : EdgeMem :=
  { rows := (SMap.range init (b * 1024) (b * 1024 + 1024)).map fun p => (p.1 - b * 1024, p.2) }

/-- Registers and memories of the blocks that `rows` selects take their cast values. -/
def State.initFabric (s : State) (rows : Nat → Bool) : State :=
  let s1 := s.each (s.edge.blocks.filter fun p => rows p.1) fun s p => s.setEdgeSt p.1 (initBlock p.2)
  s1.each ((s1.edge.memInit.map fun p => p.1 / 1024).filter rows) fun s b => s.setMemSt b (initMem s.edge.memInit b)

/-- The fabric: INIT values, clock, I/O cell registers of unlocked pins, bridge (R170, R178, R181, R395). -/
def State.commitEdge (s : State) (closed : Bool) : State :=
  let s1 := (s.initFabric fun _ => true).fset F.EDG_CLK_MHZ (s.edge.die.mhz.getD 1000)
  let s2 := s1.each s1.edge.die.iocs fun s p =>
    if s.selBit R.PIN_LOCKED p.1 then s else s.setReg (R.EDG_IOC p.1) p.2
  let s3 := (s2.fset F.EDG_STAT_RESET_HELD 0).setBit F.EDG_STAT_BRIDGE_UP (s2.big && !closed && !s2.edge.die.bridge.isEmpty)
  s3.contention

/-- GPIO functions at the second edge core edge from now (R393). -/
def State.commitPins (s : State) : State :=
  let l := (List.range 192).filter fun n => s.fget (F.PIN_CFG_FUNC n) != 7
  { s with pins := { s.pins with waits := l.map fun n => (2, n, s.reg (R.PIN_CFG n)) } }

/-- Banks take their owners, and the region table takes effect (R134, R139). A handover that is still PENDING, of a script's write of
BNK_OWN, stays so and completes after the commit: it then overrides the cast's owner. DESIGN CHOICE (log 124). -/
def State.commitRegions (s : State) : State :=
  let r := s.regionCfg
  let s1 := s.each (List.range 64) fun s b =>
    let (o, c) := (SMap.find r.owners b).getD (0, false)
    (s.fset (F.BNK_OWN_OWNER b) (if c then 0x80 else o)).setBit (F.BNK_OWN_CORDS b) c
  (s1.resetWords (R.BNK_GRN 0) 4 384 [0]).each r.uses fun s p => s.fset (F.BNK_GRN_USE p.1) p.2

/-- One setting of an ACTION or CAPTURE section. -/
def State.applySetting (s : State) (x : Setting) : State :=
  match x with
  | .reg a v => s.setReg a v
  | .queue q f g k b =>
    let w := 1 + f * 2 + g * 2 ^ 13 + k * 2 ^ 18
    (s.setReg (R.ACT_Q_CFG q) (BitVec.ofNat 32 w)).setReg (R.ACT_Q_BASE q) (BitVec.ofNat 32 b)
  | .flow f c =>
    let s1 := (s.setReg (R.ACT_FL_FLAGS f) c.flags).setReg (R.ACT_FL_MASK f) c.mask
    ((s1.fset (F.ACT_FL_STAT_PRIO f) c.prio).fset (F.ACT_FL_STAT_GRAPH f) c.graph).setFlow f { entry := c.entry, v := c.v }
  | .node i w => { s with act := { s.act with graph := SMap.set (fun _ => 0) s.act.graph i w } }
  | .tin u w => { s with act := { s.act with tin := s.act.tin ++ [(u, w)] } }
  | .eventQueue e q => { s with act := { s.act with eventQ := SMap.put s.act.eventQ e q } }
  | .arm n => s.capArm n
  | .keep n m => { s with edge := { s.edge with keeps := SMap.put s.edge.keeps n m } }

def settingsOf (t : Nat) (b : Bytes) : List Setting := (Config.sectionSettings t b).filterMap id

/-- The flags that enabled queues drive are 0 while the queues are empty (R255, R256). -/
def State.emptyQueues (s : State) : State := s.each s.queues fun s q => s.driveFlag q

/-- Contexts, graphs and lists take their cast values (R266). -/
def State.applyAction (s : State) : State :=
  ((s.clearAction).each (settingsOf 6 (s.section 6)) State.applySetting).emptyQueues

/-- The held sections of a full cast are applied (R280), and the instruction stores are cleared for its frames. -/
def State.applyHeld (s : State) : State :=
  let s1 := ((s.applyLanes).applyPorts fun _ => true).applySlots
  { (((s1.applyEdge).applyAction).clearMemories) with instrs := [], strands := [] }

/-- Capture, trigger and pattern settings; dispatch starts (R235, R266). -/
def State.commitPlane (s : State) : State :=
  (s.each (settingsOf 0x0C (s.section 0x0C)) State.applySetting).fset F.ACT_STAT_RUNNING 1

/-- Image classes and the settings of the FAULT section's header (R315). -/
def State.commitFaults (s : State) : State :=
  let b := s.section 0x0D
  let s1 := { s with flt := { s.flt with
    deposed := false
    classes := (records b 16 4).foldl (fun m r => SMap.put m (num r 0 2) (num r 2 1)) [] } }
  if b.length < 16 then (s1.setReg R.FLT_GRACE (RegMap.resetWord R.FLT_GRACE)).setReg R.FLT_POLICY (RegMap.resetWord R.FLT_POLICY)
  else ((s1.fset F.FLT_GRACE_US (num b 4 4)).fset F.FLT_POLICY_SAFE_TX (num b 8 1)).fset F.FLT_POLICY_C3 (num b 9 1)

/-- The record that the device sends to its partner (R298): SERIAL stands in fuse words 47 and 48 (R375). LATENCY is measured where
the record arrives, so the sender's holds 0. -/
def State.helloOut (s : State) : Hello :=
  { role := BitVec.ofNat 2 (s.fget F.SPL_CFG_ROLE), imageId := BitVec.ofNat 256 (s.words (R.SPL_IMAGE_ID 0) 8)
    lag := BitVec.ofNat 7 (s.fget F.SPL_CFG_D), span := BitVec.ofNat 32 (s.fget F.TURN_SPAN_VALUE)
    lockSrc := s.bit F.TURN_CFG_LOCK_SRC, serial := s.fuse 48 ++ s.fuse 47, latency := 0 }

/-- The SPLICE record: the device sends HELLO and waits for its partner (R297, R298), or runs alone. -/
def State.commitSplice (s : State) : State :=
  let b := s.section 0x0E
  let role := num b 2 1
  let s1 := ({ s with splice := { okOut := 2 } }).wset W.SPL_DIGEST_VALUE 0
  let s2 := ((s1.fset F.SPL_CFG_ROLE role).fset F.SPL_CFG_D (num b 3 1)).wset W.SPL_DIGEST_TURN_VALUE 0
  let s3 := s2.each (List.range 8) fun s i => s.setReg (R.SPL_IMAGE_ID i) (BitVec.ofNat 32 (num b (8 + 4 * i) 4))
  let s4 := if b.length < 64 then s3 else s3.fset F.SPL_CTL_DIV_POLICY (num b 4 1)
  if role = 0 then s4.fset F.SPL_STAT_STATE 0
  else
    let s5 := (s4.fset F.SPL_STAT_STATE 1).fset F.TURN_HOLD_SRC_SPLICE 1
    { s5 with splice := { s5.splice with sent := [.hello s5.helloOut] } }

def State.commitDomains (s : State) (closed : Bool) : State :=
  if s.big && closed then
    s.each outsideDomains fun s d => (s.fset (F.PWR_DOM_EN d) 0).fset (F.PWR_DOM_ON d) 0
  else s

/-- Status of the loader, the measurements and the eligible versions (R380, R386). -/
def State.commitStatus (s : State) (h : CastHdr) : State :=
  let s1 := ((s.fset F.CFG_STAT_STATE 5).setBit F.CFG_STAT_ENC (hEnc h)).setBit F.CFG_STAT_GN32 (hGn32 h)
  let s2 := s1.setReg R.CFG_LOAD_TIME (s1.reg R.HST_ALIVE - s1.load.start)
  let s3 := if hEnc h then s2.each (List.range 128) fun s c => if s.cordHere c then s.fset (F.CRD_STAT_INSTR_CLOSED c) 1 else s else s2
  { s3 with sec := { s3.sec with
      castMeas := Config.sm3 h.manifest, partMeas := 0, partCount := 0, elig := [(hRb h, hVersion h)] } }

/-- State stores take the initial values of the SCHEDULE section (R36, R275). -/
def State.initStores (s : State) (cords : Nat → Bool) : State :=
  s.each (s.load.frames.filter fun p => 9 * 2 ^ 32 + 2 ^ 31 ≤ p.1 && p.1 < 10 * 2 ^ 32 && cords (p.1 / 32 % 128)) fun s p =>
    s.each (List.range 32) fun s j =>
      let g := p.1 / 32 % 128 * 1024 + 32 * (p.1 % 32) + j
      s.setStrand g { s.strand g with store := BitVec.ofNat 1024 (num p.2 (128 * j) 128) }

/-- Fields of directory entry `i` (R269). -/
def dirFlags (b : Bytes) (i : Nat) : Nat := num b (0x40 + 32 * i) 1
def dirRange (b : Bytes) (i : Nat) : Nat × Nat × Nat :=
  (num b (0x41 + 32 * i) 1, num b (0x48 + 32 * i) 8, num b (0x50 + 32 * i) 8)

/-- An INIT frame in its place: cord memory, a scratch bank or DRAM. -/
def State.placeInit (s : State) (a : Nat) (f : Bytes) : State :=
  s.wrBytes (if 2 ^ 31 ≤ a then cordMemAddr (a / 64 % 128) (4096 * (a % 64)) else a * 4096) f

/-- Banks 0 and 1 lose the dictionary and take what the cast gives them (R276). -/
def State.dropDict (s : State) : State :=
  let s1 := { s with mem := s.mem.filter fun p => !inDictBanks p.1 }
  s1.each (s.load.frames.filter fun p => 0x0A * 2 ^ 32 ≤ p.1 ∧ p.1 < 0x0A * 2 ^ 32 + 2 ^ 31 ∧ inDictBanks (p.1 % 2 ^ 32 * 4096))
    fun s p => s.placeInit (p.1 % 2 ^ 32) (p.2.take 4096)

/-- Edge block rows that hold a configured block. -/
def rowsOf (blocks : SMap BlockCfg) : W64 := blocks.foldl (fun v p => v ||| BitVec.ofNat 64 (2 ^ (p.1 / 64))) 0

/-- Cord groups that hold a cord of a set. -/
def groupsOf (cords : BitVec 128) : BitVec 16 :=
  (List.range 16).foldl (fun v g => if cords.toNat / 2 ^ (8 * g) % 256 = 0 then v else v ||| BitVec.ofNat 16 (2 ^ g)) 0

/-- The image in force; `range` is where its cast lies in NVM. -/
def imageOf (h : CastHdr) (splice : Bytes) (range : Option (Nat × Nat × Nat)) : Image :=
  let d := hDecl h
  { nvm := range, groups := groupsOf d.cords, committed := true, part := BitVec.ofNat 16 d.part, cords := d.cords, nin := d.nin, nout := d.nout, splice := d.flags == 1
    encrypted := hEnc h, gn32 := hGn32 h, imageId := BitVec.ofNat 256 (num splice 8 32) }

/-- What an exit from Deep sleep reads of the cast again (R339). -/
def State.keepCast (s : State) : State :=
  let init := (s.load.frames.filter fun p => 0x0A * 2 ^ 32 ≤ p.1).map fun p => (p.1 - 0x0A * 2 ^ 32, p.2)
  { s with image := { s.image with cast := s.load.hdr, instrs := s.instrs, init, action := s.section 6 } }

/-- The full-image commit at Tc. -/
def State.commitImage (s : State) : State :=
  let h := s.load.hdr
  let d := hDecl h
  let closed := d.part == 0x4060
  let role := num (s.section 0x0E) 2 1
  let range := if s.load.chain then none else s.load.dir.map fun b => dirRange b (s.fget F.CFG_STAT_ENTRY)
  let s0 := ((s.dropDict).commitSlots).dropPorts fun _ => true
  let s1 := { s0 with
    image := { imageOf h (s.section 0x0E) range with rows := rowsOf s.edge.blocks, dir := if s.load.chain then none else s.load.dir }
    strands := [] }
  let s2 := (((s1.initStores fun _ => true).commitTurns d closed).commitSplice).measureLref.commitLanes (role != 0)
  let s3 := (((s2.commitEq).commitCal).commitEdge closed).setBorder (borderMap (s.section 0x0B))
  let s4 := ((s3.commitPins).commitRegions).commitPlane
  let s5 := (((s4.commitFaults).commitDomains closed).commitStatus h).keepCast
  { s5 with load := s5.load.rest }

end Sys2Proof.Machine
end

