-- ==== Sys2Proof/Machine/Load.lean ====
section
/-! DEFINITION. The loader (R268–R288, R292): directory, headers, sections and frames, refusals, the daisy chain, and the NVM
pass-through window (R294). -/

namespace Sys2Proof.Machine

/-! ### Refusals (R282, R283, R291, R292) -/

/-- Whether directory entry `i` is a BOOT entry of a full cast (R280). -/
def bootEntry (b : Bytes) (i : Nat) : Bool := dirFlags b i % 8 == 3

/-- The next BOOT entry from `i` on. -/
def nextBoot (b : Bytes) (i : Nat) : Option Nat := (List.range (min 64 (num b 6 2))).find? fun k => decide (i ≤ k) && bootEntry b k

/-- A further BOOT entry remains for a boot load. -/
def State.bootsOn (s : State) : Bool :=
  !s.load.single && !s.load.chain && match s.load.dir with
    | some b => (nextBoot b s.load.next).isSome
    | none => false

/-- The stream on CHAIN_IN is over for this device. -/
def State.chainQuiet (s : State) : State := s.fset F.CFG_CHAIN_IN_ACTIVE 0

/-- The load in progress is refused with a code, at a section and frame. A partial load that is refused before its region is
isolated isolates nothing, and a region already isolated stays as it is, held or incomplete; from LOADING on it stays INCOMPLETE
(R291–R293). -/
def State.refuseLoad (s : State) (code sec frame : Nat) : State :=
  let s1 := ((s.fset F.CFG_REFUSE_CODE code).fset F.CFG_REFUSE_SECTION sec).fset F.CFG_REFUSE_FRAME_FRAME frame
  if s.load.part then
    let st := if !s.recon.isolated then 0 else if s1.fget F.CFG_PART_STAT_STATE = 1 then s.recon.was else 4
    let s2 := (s1.fset F.CFG_PART_STAT_CODE code).fset F.CFG_PART_STAT_STATE st
    { s2 with load := s.load.rest }
  else
    let on := s1.bootsOn
    let s2 := ((s1.fset F.CFG_STAT_STATE (if on then 1 else 6)).chainQuiet)
    { s2 with load := { s.load.rest with dir := s.load.dir, next := s.load.next, start := s.load.start } }

/-- Section and frame of checks made before any section is read (R282). -/
def State.refuseEarly (s : State) (code : Nat) : State := s.refuseLoad code 0xFF 0xFFFFFFFF

/-- A refusal at the section being read; one that the sections held have given comes first (R146). -/
def State.refuseHere (s : State) (code frame : Nat) : State :=
  match s.load.bad with
  | some (c, sec, i) => s.refuseLoad c sec i
  | none => s.refuseLoad code s.load.sec frame

/-! ### Starting a load (R269, R279, R280) -/

/-- The directory answers and its MAGIC is right. -/
def dirOk (b : Bytes) : Bool := num b 0 4 == 0x52445941

/-- Headers of a full cast have been read: header checks, then pass 1 (R146). -/
def State.openCast (s : State) (h : CastHdr) : State :=
  match firstRefusal [s.headerChecks h false, s.passOne h] with
  | some c => s.refuseEarly c
  | none => { s with load := { s.load with on := true, hdr := h } }.holdKey h

/-- A full load starts: SK is cleared (R384). -/
def State.dropSk (s : State) : State := { s with sec := { s.sec with sk := none } }

/-- An entry of the directory is loaded. -/
def State.openEntry (s : State) (b : Bytes) (i : Nat) (h : CastHdr) : State :=
  let s1 := ((s.fset F.CFG_STAT_STATE 1).fset F.CFG_STAT_ENTRY i).fset F.CFG_STAT_SOURCE 0
  let s2 := { s1 with load := { s1.load with dir := some b, next := i + 1, fwd := false } }
  (s2.fset F.CFG_CHAIN_FORWARDING 0).openCast h

/-- A boot load waits for its directory, an entry's headers, or nothing. -/
def State.wantsDir (s : State) : Bool :=
  !s.inReset && !s.image.committed && (s.fget F.CFG_STAT_STATE == 0 || s.fget F.CFG_STAT_STATE == 1) && s.load.hdr.outer.isEmpty

/-- The headers of an entry are still being read. -/
def State.awaitEntry (s : State) (b : Bytes) (i : Nat) : State :=
  (({ s with load := { s.load with dir := some b } }).fset F.CFG_STAT_STATE 1).fset F.CFG_STAT_ENTRY i

/-- One attempt of a load from NVM: the entry that the host named, else the next BOOT entry. An entry that is not VALID, or is a
partial image, is refused as no cast (log 51). Headers without bytes stand for those of an entry that is still being read. -/
def State.bootEntries (s : State) (b : Bytes) (h : CastHdr) : State :=
  if s.load.single then
    let i := s.fget F.CFG_CTL_LOAD_SEL
    if !(decide (i < num b 6 2) && dirFlags b i % 2 == 1 && !(dirFlags b i).testBit 2) then
      (s.fset F.CFG_STAT_ENTRY i).refuseEarly 0x01
    else if h.outer.isEmpty then s.awaitEntry b i
    else s.openEntry b i h
  else match nextBoot b s.load.next with
    | none => s.fset F.CFG_STAT_STATE 6
    | some i => if h.outer.isEmpty then s.awaitEntry b i else s.openEntry b i h

/-- The load from NVM, or the wait for a stream where no directory answers (R280). -/
def State.bootLoad (s : State) (dir : Option Bytes) (h : CastHdr) : State :=
  if !s.wantsDir then s
  else match (s.load.dir).or dir with
    | none => s.fset F.CFG_STAT_STATE 7
    | some b => if dirOk b then s.dropSk.bootEntries b h else s.fset F.CFG_STAT_STATE 7

/-- A host-requested full load (R280, R284). -/
def State.cfgLoad (s : State) (entry : Nat) : State :=
  let start := s.reg R.HST_ALIVE
  let s1 := ((((s.fset F.CFG_CTL_LOAD_SEL entry).enterLoad.fset F.CFG_STAT_STATE 1).fset F.CFG_STAT_ENTRY entry).chainQuiet).fset
    F.CFG_CHAIN_FORWARDING 0
  { s1 with load := { rdyN := s.load.rdyN, on := true, single := true, start } }

/-- A cast arrives on CHAIN_IN while the device waits for one (R287). -/
def State.chainIn (s : State) (h : CastHdr) : State :=
  if s.fget F.CFG_STAT_STATE != 7 || s.inReset then s
  else
    let s1 := ((s.dropSk.fset F.CFG_STAT_STATE 1).fset F.CFG_STAT_SOURCE 1).fset F.CFG_CHAIN_IN_ACTIVE 1
    { s1 with load := { s1.load with chain := true, single := false, dir := none } }.openCast h

/-! ### Reading sections (R273, R280) -/

/-- The section being read, and whether the loader reads sections now. -/
def State.secType (s : State) : Nat := hType s.load.hdr s.load.sec

def State.reading (s : State) : Bool :=
  s.load.on && !s.load.hdr.outer.isEmpty && decide (s.load.sec < hNsec s.load.hdr)
    && (if s.load.part then s.fget F.CFG_PART_STAT_STATE == 2
        else s.fget F.CFG_STAT_STATE == 3 || (s.fget F.CFG_STAT_STATE == 1 && s.load.sec == 0))

def frameType (t : Nat) : Bool := t == 7 || t == 9 || t == 0x0A

/-! #### Records -/

/-- The entry checks of a section whose records have a layout of their own in the spec (R146). -/
def State.entryChecks (s : State) (t : Nat) (b : Bytes) : Option (Nat × Nat) :=
  let h := s.load.hdr
  match t with
  | 1 => scriptChecks b
  | 2 => laneChecks h b
  | 3 => eqChecks b
  | 5 => s.slotChecks h b
  | 0x0B => borderChecks b
  | 0x0D => faultChecks b
  | 0x0E => spliceChecks h ((anchorOf (s.section 2) (hDecl h).anchor).getD (1, 1)) b
  | _ => none

/-- A slot record of a partial image outside the region's stations (R292). -/
def State.slotEscape (s : State) (b : Bytes) : Option (Nat × Nat) :=
  if s.load.part ∧ s.secType = 5 then
    firstBad (records b 0 8) fun _ rb =>
      refuse (!(decide (slotStn (leNat rb) < 0x80) && s.recon.cords.getLsbD (slotStn (leNat rb) / 8))) 0x0A
  else none

/-- The payload of the record being read, decrypted (R277): it follows the record's header of 16 bytes. -/
def State.payload (s : State) (b : Bytes) : Bytes :=
  s.decrypted s.load.hdr (hStart s.load.hdr s.load.sec + s.load.at_ + 16) b

/-- A record with `n` bytes of payload has been read; the payload is padded to 16 (R274). -/
def State.recordRead (s : State) (n : Nat) : State :=
  if s.reading then { s with load := { s.load with at_ := s.load.at_ + 16 + (n + 15) / 16 * 16 } } else s

/-- The section being read is one of those that are held from PORT on: their refusals wait for REGION, which the checks of the PORT
section need too (R123, R146, R251; log 71). -/
def State.waitsForRegion (s : State) : Bool := !s.load.part && decide (4 ≤ s.secType) && decide (s.secType ≤ 7)

/-- Of two refusals of the second pass, the one in the earlier section, or of the earlier entry (R146). -/
def earlier (a b : Option (Nat × Nat × Nat)) : Option (Nat × Nat × Nat) :=
  match a, b with
  | some x, some y => if y.2.1 < x.2.1 ∨ (y.2.1 = x.2.1 ∧ y.2.2 < x.2.2) then some y else some x
  | some x, none => some x
  | none, y => y

/-- A RECS record: its data joins the section's, and the entries that are whole are checked (R274). -/
def State.takeRecs (s : State) (data : Bytes) : State :=
  if !s.reading then s
  else if frameType s.secType then s.refuseHere 0x02 s.load.frame
  else
    let all := s.load.recs ++ s.payload data
    let t := ({ s with load := { s.load with recs := all } }).recordRead data.length
    match firstRefusal [s.entryChecks s.secType all, s.slotEscape all] with
    | some (c, i) =>
      if s.waitsForRegion then { t with load := { t.load with bad := earlier s.load.bad (some (c, s.load.sec, i)) } } else s.refuseHere c i
    | none => t

/-! #### Frames (R274–R276) -/

/-- A frame of 4,096 bytes. -/
def wholeFrame (b : Bytes) : Bytes := (b ++ zeroFrame).take 4096

/-- The region holds cord `c`, or block `b`; a full cast's region is the footprint. -/
def State.cordIn (s : State) (c : Nat) : Bool :=
  if s.load.part then s.recon.cords.getLsbD (c / 8) else decide (c < (hDecl s.load.hdr).nCords)
def State.blockIn (s : State) (b : Nat) : Bool := !s.load.part || s.recon.rows.getLsbD (b / 64)

/-- The image's footprint has P1 blocks. -/
def State.blockLimit (s : State) : Nat := if (hDecl s.load.hdr).part = 0x4060 then 2048 else 4096

/-- The loader keeps an EDGE frame (R275). -/
def State.edgeFrame (s : State) (a : Nat) (f : Bytes) : Except Nat State :=
  let b := a % 4096
  let place := (decide (a < 2 ^ 14) || (decide (2 ^ 31 ≤ a) && decide (a < 2 ^ 31 + 8192)))
  let wide := decide (2 ^ 30 ≤ a) && decide (a < 2 ^ 30 + 256)
  if !(wide || (place && decide (b < s.blockLimit))) then .error 0x02
  else if (wide && s.load.part) || (place && !s.blockIn b) then .error 0x0A
  else .ok { s with load := { s.load with edge := SMap.put s.load.edge a (f ++ leBytes 4 s.load.frame) } }

/-- The stored words of a schedule frame, from step `t` of strand `g`. -/
def storeWords (m : SMap (BitVec 72)) (key : Nat) : List W64 → SMap (BitVec 72)
  | [] => m
  | w :: ws => storeWords (if w = 0 then SMap.del m key else SMap.put m key (storedWord w)) (key + 1) ws

/-- The slot table copy that the load writes for cord `c`. -/
def State.loadCopy (s : State) (c : Nat) : Nat := if s.load.part then 1 - s.fget (stnActive c) else 0

/-- Nb of the image being loaded (R74). -/
def State.loadNb (s : State) : Nat :=
  let n := s.fget F.TURN_ANCHOR_LANE
  let anchor := if s.load.part then (wireBits (s.pcs n), s.kbps n)
    else (anchorOf (s.section 2) (hDecl s.load.hdr).anchor).getD (1, 1)
  (hDecl s.load.hdr).nb anchor

/-- A SCHEDULE frame: instruction words, or initial state values (R275). -/
def State.scheduleFrame (s : State) (a : Nat) (f : Bytes) : Except Nat State :=
  let d := hDecl s.load.hdr
  let keep := fun (s : State) => { s with load := { s.load with frames := SMap.put s.load.frames (9 * 2 ^ 32 + a) f } }
  let cord := if a < 2 ^ 31 then a / 2 ^ 13 % 128 else a / 32 % 128
  if (a < 2 ^ 31 && decide (2 ^ 20 ≤ a)) || (decide (2 ^ 31 ≤ a) && decide (2 ^ 31 + 2 ^ 12 ≤ a)) || decide (d.nCords ≤ cord)
      || (a < 2 ^ 31 && decide (d.l ≤ 512 * (a % 8))) then .error 0x02
  else if !s.cordIn cord then .error 0x0A
  else if !d.cords.getLsbD cord then .error 0x16
  else if 2 ^ 31 ≤ a then .ok (keep s)
  else
    let g := cord * 1024 + a / 8 % 1024
    let words := (records f 0 8).map fun b => BitVec.ofNat 64 (leNat b)
    match s.frameWords d s.loadNb (s.loadCopy cord) g (hGn32 s.load.hdr) (512 * (a % 8)) words with
    | .error c => .error c
    | .ok ws => .ok (keep { s with instrs := storeWords s.instrs (g * 4096 + 512 * (a % 8)) ws })

/-- Scratch and DRAM of the image's footprint (R2): an AY4060 image has banks 0–31 and granules 0–191. -/
def State.inFootprint (s : State) (a : Nat) : Bool :=
  (s.inScratch a && ((hDecl s.load.hdr).part != 0x4060 || decide (bankOf a < 32)))
    || (s.inDram a && ((hDecl s.load.hdr).part != 0x4060 || decide (granuleOf a < 192)))

/-- A scratch or DRAM frame lies in a bank of the cords or the action plane, or in a design-memory granule (R275); for a partial
image, in a window of a port of the region (log 52). Banks and granules lie in the footprint of the image (R2). -/
def State.initPlace (s : State) (a : Nat) : Bool :=
  if !s.inFootprint a then false
  else if s.load.part then
    (List.range 128).any fun c => s.recon.cords.getLsbD (c / 8) && (List.range 4).any fun q =>
      let base := s.wget (W.DMP_BASE_BASE c q)
      let m := s.fget (F.DMP_CFG_MODE c q)
      (m == 2 || m == 3) && decide (base < a + 4096) && decide (a < base + 16 * s.wget (W.DMP_SIZE_SIZE c q))
  else
    let r := s.regionCfg
    (s.inScratch a && match SMap.find r.owners (bankOf a) with
      | some (o, c) => c || o == 0x30
      | none => false)
    || (s.inDram a && SMap.find r.uses (granuleOf a) == some 3)

/-- An INIT frame is written (R275). -/
def State.initFrame (s : State) (a : Nat) (f : Bytes) : Except Nat State :=
  let d := hDecl s.load.hdr
  let keep := fun (s : State) => { s with load := { s.load with frames := SMap.put s.load.frames (0x0A * 2 ^ 32 + a) f } }
  if 2 ^ 31 ≤ a then
    let c := a / 64 % 128
    if 2 ^ 31 + 2 ^ 13 ≤ a ∨ d.nCords ≤ c then .error 0x02
    else if !s.cordIn c then .error 0x0A
    else .ok (keep (s.placeInit a f))
  else if s.initPlace (a * 4096) then
    -- the dictionary stays in banks 0 and 1 until the commit of a full cast (R276)
    .ok (if inDictBanks (a * 4096) && !s.load.part then keep s else keep (s.placeInit a f))
  else .error (if s.load.part && s.inFootprint (a * 4096) then 0x0A else 0x02)

/-- One frame is written at an address after the frame checks, or refused at its index. -/
def State.writeFrame (s : State) (a : Nat) (f : Bytes) : State :=
  if !s.reading then s
  else
    let r := if s.secType = 7 then s.edgeFrame a f
      else if s.secType = 9 then s.scheduleFrame a f
      else if s.secType = 0x0A then s.initFrame a f
      else .error 0x02
    match r with
    | .error c => s.refuseHere c s.load.frame
    | .ok t => { t with load := { t.load with frame := t.load.frame + 1 } }

/-- A frame written at `n` addresses from `a` on, until one is refused (R274). -/
def State.writeFrames (s : State) (f : Bytes) (a stride : Nat) : Nat → State
  | 0 => s
  | n + 1 => if s.reading then (s.writeFrame (a % 2 ^ 32) f).writeFrames f (a + stride) stride n else s

/-- Where a full cast's dictionary entry lies (R276). -/
def dictAddr (i : Nat) : Nat := 0x04000000 + 4096 * i

/-- A DICT record (R276). Banks 0 and 1 are the running image's while a partial image loads: its dictionary is held in the loader.
DEDUCED (log 73). -/
def State.takeDict (s : State) (i : Nat) (f : Bytes) : State :=
  if !s.reading then s
  else if !frameType s.secType || decide (2048 ≤ i) then s.refuseHere 0x02 s.load.frame
  else
    let t := s.recordRead 4096
    if s.load.part then { t with load := { t.load with dict := SMap.put t.load.dict i f } }
    else { t.wrBytes (dictAddr i) f with load := { t.load with dict := SMap.put t.load.dict i [] } }

/-- A dictionary entry, if one has been stored. -/
def State.dictFrame (s : State) (i : Nat) : Option Bytes :=
  (SMap.find s.load.dict i).map fun f => if s.load.part then f else s.rdBytes (dictAddr i) 4096

/-- A REPL record; an entry never stored is refused (R276). -/
def State.takeRepl (s : State) (i a n stride : Nat) : State :=
  if !s.reading then s
  else match s.dictFrame i with
    | none => s.refuseHere 0x02 s.load.frame
    | some f => (s.recordRead 0).writeFrames f a stride n

/-! #### The end of a section (R274, R279, R280) -/

/-- Index of a section type in the table. -/
def secIndex (h : CastHdr) (t : Nat) : Nat := (hTypes h).findIdx (· == t)

/-- Checks on a whole section: code, section index and frame. -/
def State.wholeChecks (s : State) : Option (Nat × Nat × Nat) :=
  let h := s.load.hdr
  let d := hDecl h
  let b := s.load.recs
  let here := fun (r : Option (Nat × Nat)) => r.map fun p => (p.1, s.load.sec, p.2)
  let at_ := fun (t : Nat) (r : Option (Nat × Nat)) => r.map fun p => (p.1, secIndex h t, p.2)
  match s.secType with
  | 1 => here (scriptWhole b)
  | 2 =>
    let early := fun (c : Nat) => (c, 0xFF, 0xFFFFFFFF)
    firstRefusal [here (groupHole (records b 0 16)),
      if d.lock = 0 then none
      else match anchorOf b d.anchor with
        | none => some (early 0x13)
        | some a => (declTiming h a).map early]
  | 3 => here ((s.eqCoverage h b (s.section 2)).map fun c => (c, 0))
  | 4 =>
    if s.load.part then
      here (firstEntry (s.portChecks h b)
        (windowChecks b (fun k => s.bit (F.BNK_OWN_CORDS k)) fun g => s.fget (F.BNK_GRN_USE g) == 3))
    else here (s.portChecks h b)
  | 6 => here (actChecks h b)
  | 7 => here (edgeChecks h s.load.edge)
  | 8 =>
    match Config.regionRecords b with
    | .error i => some (0x02, s.load.sec, i)
    | .ok r => firstRefusal
        [at_ 4 (windowChecks (s.section 4) (fun k => ((SMap.find r.owners k).getD (0, false)).2) fun g => SMap.find r.uses g == some 3),
         at_ 6 (if (hTypes h).contains 6 then ringChecks (s.section 6) r.owners else none)]
  | 9 =>
    let bare := (List.range 128).any fun c => d.cords.getLsbD c
      && !s.load.frames.any fun p => 9 * 2 ^ 32 ≤ p.1 && p.1 < 9 * 2 ^ 32 + 2 ^ 31 && p.1 / 2 ^ 13 % 128 == c
    if bare then some (0x16, s.load.sec, hFrames h s.load.sec) else none
  | 0x0C =>
    here (firstForm 0x02 (Config.sectionSettings 0x0C b) fun _ x => x.isNone)
  | 0x0D => if b.length < 16 then some (0x02, s.load.sec, 0) else none
  | 0x0E =>
    if b.length < 64 then some (0x02, s.load.sec, 0)
    else if s.spliceMissing (s.section 3) b d then some (0x26, s.load.sec, 0) else none
  | _ => none

/-- The next script entry is a PRE entry. -/
def State.preNext (s : State) : Bool :=
  let r := slice (s.section 1) (16 * s.load.pc) 16
  r.length == 16 && !scriptPost r && scriptOp r != 0

/-- PRE entries run until the first POST entry; then the sections are read (R280). -/
def State.afterPre (s : State) : State :=
  if s.preNext then s.fset F.CFG_STAT_STATE 2
  else if hNsec s.load.hdr ≤ s.load.sec then s.fset F.CFG_STAT_STATE 4 else s.fset F.CFG_STAT_STATE 3

/-- The outer header for the devices downstream (R287): NPART − 1, and the offsets reduced by partition 0's length. The rule says
nothing of TOTAL_LEN: `total`, a free value (log 113). -/
def forwardHeader (b : Bytes) (total : W64) : Bytes :=
  let n := num b 6 2 - 1
  let entry := fun i => leBytes 8 (num b (0x20 + 16 * (i + 1)) 8 - num b 0x28 8) ++ slice b (0x28 + 16 * (i + 1)) 8
  (slice b 0 6 ++ leBytes 2 n ++ leBytes 8 total.toNat ++ List.replicate 16 0 ++ (List.range n).flatMap entry
    ++ List.replicate 480 (0 : Byte)).take 512

/-- Partitions of the cast remain for the device downstream (R287); they follow the header as they are read. With none, the stream on
CHAIN_IN is over. -/
def State.startForward (s : State) : State :=
  if 1 < num s.load.hdr.outer 6 2 then
    (({ s with load := { s.load with fwd := true, out := forwardHeader s.load.hdr.outer (s.freeBits 64) } }).drawn).setBit
      F.CFG_CHAIN_FORWARDING (!s.load.rdyN)
  else s.chainQuiet

/-- Forwarding has ended, and with it the stream. -/
def State.endForward (s : State) : State :=
  (({ s with load := { s.load with fwd := false } }).fset F.CFG_CHAIN_FORWARDING 0).chainQuiet

/-- Port, slot and edge sections of a partial image are applied once they have passed (R106, R122, R275). Without a PORT section
the ports of its region are Unused, without a SLOT section their shadow tables are empty. DEDUCED (log 77). -/
def State.applyPart (s : State) : State :=
  let c := s.recon.cords
  let cordIn := fun (n : Nat) => c.getLsbD (n / 8)
  let s1 := s.applyPorts cordIn
  let shadow := fun (n : Nat) => 1 - s.fget (stnActive n)
  let mine := fun (k : Nat) => cordIn (k / 2 ^ 22 % 256) && decide (k / 2 ^ 22 % 256 < 0x80) && k / 2 ^ 30 == shadow (k / 2 ^ 22 % 256)
  let kept := s1.ring.slots.filter fun p => !mine p.1
  let new := slotEntries (s1.section 5) shadow
  let s2 := { s1 with
    ring := { s1.ring with slots := new.foldl (fun m p => SMap.put m p.1 p.2) kept }
    instrs := s1.instrs.filter fun p => !cordIn (p.1 / 4096 / 1024) }
  if (hTypes s.load.hdr).contains 7 then
    let m := s2.load.edge
    let rowIn := fun (b : Nat) => s.recon.rows.getLsbD (b / 64)
    let e := s2.edge
    { s2 with edge := { e with
      blocks := (edgeBlocksOf m).foldl (fun acc p => SMap.put acc p.1 p.2) (e.blocks.filter fun p => !rowIn p.1)
      mems := (edgeMemsOf m).foldl (fun acc p => SMap.put acc p.1 p.2) (e.mems.filter fun p => !rowIn p.1)
      memInit := (edgeMemInit m).foldl (fun acc p => SMap.put acc p.1 p.2) e.memInit } }
  else s2

/-- The last section of a partial image has passed: a prefix hold, and the region's stations close (R116, R291). -/
def State.startRelease (s : State) : State :=
  let s1 := { s with recon := { s.recon with next := borderMap (s.section 0x0B) } }
  ((s1.fset F.CFG_PART_STAT_STATE 3).fset F.TURN_HOLD_SRC_PART 1).closeStations (s1.regionStations s1.recon.cords)

/-- The section being read has passed all its checks. -/
def State.sectionDone (s : State) : State :=
  let t := s.secType
  let h := s.load.hdr
  let i := s.load.sec + 1
  let s1 := { s with load := { s.load with held := SMap.put s.load.held t s.load.recs, sec := i, frame := 0, recs := [], at_ := 0 } }
  let more := decide (i < hNsec h)
  let s2 := if s.load.part then (if t < 9 ∧ (!more ∨ 9 ≤ hType h i) then s1.applyPart else s1)
    else if t = 8 then s1.applyHeld else s1
  if s.load.part then (if more then s2 else s2.startRelease)
  else if t = 1 then s2.afterPre
  else if more then s2
  else (s2.fset F.CFG_STAT_STATE 4).startForward

/-- A section ends: its entries, its digest, and the checks on the whole (R279; the order is DEDUCED, log 53). -/
def State.sectionEnd (s : State) (stored : Bytes) : State :=
  if !s.reading then s
  else if (Config.sm3 stored).toNat ≠ hDigest s.load.hdr s.load.sec then s.refuseHere 0x05 0xFFFFFFFF
  else
    let bad := earlier s.load.bad s.wholeChecks
    if s.waitsForRegion then ({ s with load := { s.load with bad } }).sectionDone
    else match bad with
      | some (c, sec, i) => s.refuseLoad c sec i
      | none => s.sectionDone

/-! ### Errors and the chain (R268, R288) -/

/-- Where the load is: before any section, or at a frame of one. -/
def State.refuseNow (s : State) (code : Nat) : State :=
  if s.reading then s.refuseLoad code s.load.sec s.load.frame else s.refuseEarly code

/-- An NVM read fails (R268). A boot load between two entries skips the entry that it was reading; one that reads the directory
ends. -/
def State.nvmFails (s : State) : State :=
  if s.load.on && !s.load.chain then (if s.reading || s.load.hdr.outer.isEmpty then s.refuseNow 0x08 else s)
  else if s.fget F.CFG_PART_STAT_STATE == 1 then { s with load := { s.load with part := true } }.refuseEarly 0x08
  else match s.load.dir with
    | some b =>
      if s.wantsDir then
        match nextBoot b s.load.next with
        | some i => { s with load := { s.load with next := i + 1 } }.refuseEarly 0x08
        | none => s
      else s
    | none => if s.wantsDir then s.refuseEarly 0x08 else s

/-- A coding error on CHAIN_IN, or a stream that stops for 100 ms, also while its headers arrive (R288). -/
def State.chainFails (s : State) : State :=
  if s.load.on && s.load.chain then s.refuseNow 0x0B
  else if s.fget F.CFG_STAT_STATE = 7 ∧ !s.inReset then
    (({ s with load := { s.load with chain := true, single := false, dir := none } }).fset F.CFG_STAT_SOURCE 1).refuseEarly 0x0B
  else s

/-- CHAIN_RDY_N has not gone low within 1 s of the start of forwarding. -/
def State.forwardFails (s : State) : State :=
  if s.load.fwd && s.load.rdyN then (s.endForward).fset F.CFG_CHAIN_FWD_FAIL 1 else s

/-- The pin moves: forwarding goes on or pauses. No command tells that the last partition has passed: it may have at each rise of the
pin, which follows a time in which it was low, a free value (log 113). -/
def State.chainReady (s : State) (level : Bool) : State :=
  let s1 := { s with load := { s.load with rdyN := level } }
  if !s.load.fwd then s1
  else if level && !s.load.rdyN then
    (if s.freeBits 1 = 1 then (s1.drawn).endForward else (s1.drawn).fset F.CFG_CHAIN_FORWARDING 0)
  else s1.setBit F.CFG_CHAIN_FORWARDING (!level)

/-- The device's own CHAIN_RDY_N (R287, R288, R400): low while it waits for a stream or takes one, but for a pause of its own forwarding,
and released after commit. DEDUCED (log 113). -/
def State.chainRdyOut (s : State) : Bool :=
  s.inReset || s.image.committed || s.fget F.PWR_STAT_STATE == 4 || (s.load.fwd && s.load.rdyN)
    || !(s.fget F.CFG_STAT_STATE == 7 || s.bit F.CFG_CHAIN_IN_ACTIVE)

/-! ### The NVM pass-through window (R270, R294) -/

/-- Byte `x` of device `dev` is byte `o` of the range of a cast. -/
def inRange (range : Nat × Nat × Nat) (dev x : Nat) : Bool :=
  let (d, off, len) := range
  let o := if d = 3 then (x / 524288 * 2 + (dev - 1)) * 524288 + x % 524288 else x
  (if d = 3 then dev == 1 || dev == 2 else d == dev) && decide (off ≤ o) && decide (o < off + len)

/-- A write or an erase is accepted (R294). -/
def State.nvmAllowed (s : State) (dev a len : Nat) : Bool :=
  let st := s.fget F.CFG_PART_STAT_STATE
  (st == 4 || st == 5 || s.fget F.CFG_STAT_STATE == 6)
    && !(s.fget F.CFG_STAT_STATE == 5 && dev == 0 && decide (a < 4096))
    && match s.image.nvm with
      | some r => !(List.range len).any fun k => inRange r dev (a + k)
      | none => true

/-- A GO: reserved settings and a busy window are refused too (log 54). -/
def State.nvmGo (s : State) (op : Nat) : State :=
  let dev := s.fget F.CFG_NVM_CTL_DEV
  let a := s.wget W.CFG_NVM_ADDR_ADDR
  let len := s.fget F.CFG_NVM_LEN_LEN
  if s.bit F.CFG_NVM_STAT_BUSY ∨ dev = 3 ∨ len = 0 ∨ 4096 < len ∨ (op ≠ 0 ∧ !s.nvmAllowed dev a len) then
    s.fset F.CFG_NVM_STAT_REFUSED 1
  else { s with nvm := some { dev, op, addr := a, len } }.fset F.CFG_NVM_STAT_BUSY 1

/-- Bytes into the buffer. -/
def State.fillBuf (s : State) : Nat → Bytes → State
  | _, [] => s
  | k, b :: bs => (s.fset ⟨R.CFG_NVM_BUF (k / 4), 8 * (k % 4), 8⟩ b.toNat).fillBuf (k + 1) bs

def State.nvmEnd (s : State) (ok : Bool) (data : Bytes) : State :=
  match s.nvm with
  | none => s
  | some o =>
    let s1 := { s with nvm := none }.fset F.CFG_NVM_STAT_BUSY 0
    if !ok then s1.fset F.CFG_NVM_STAT_ERROR 1
    else (if o.op = 0 then s1.fillBuf 0 (data.take o.len) else s1).fset F.CFG_NVM_STAT_DONE 1

/-! ### The meanings -/

/-- The conditions of the poll block that a load moves. -/
def loadBits : List Nat := [3, 4, 5]

def execBootLoad (dir : Option Bytes) (hdr : CastHdr) (s : State) : Host.Outcome State Fault Refusal :=
  .next (s.watch loadBits fun s => s.bootLoad dir hdr)
def execCfgLoad (entry : BitVec 6) (s : State) : Host.Outcome State Fault Refusal :=
  .next (s.hostCmd R.CFG_CTL 0x3F01 (entry.setWidth 32 <<< 8 ||| 1) fun s => (s.watch loadBits fun s => s.cfgLoad entry.toNat))
def execNvmError (s : State) : Host.Outcome State Fault Refusal := .next (s.watch loadBits fun s => s.nvmFails)
def execSectionEnd (stored : Bytes) (s : State) : Host.Outcome State Fault Refusal :=
  .next (s.watch loadBits fun s => s.sectionEnd stored)
def execDict (idx : BitVec 16) (frame : Bytes) (s : State) : Host.Outcome State Fault Refusal :=
  .next (s.watch loadBits fun s => s.takeDict idx.toNat (wholeFrame (s.payload frame)))
def execFrameWrite (faddr : W32) (frame : Bytes) (s : State) : Host.Outcome State Fault Refusal :=
  .next (s.watch loadBits fun s => (s.recordRead 4096).writeFrame faddr.toNat (wholeFrame (s.payload frame)))
def execRepl (idx : BitVec 16) (faddr count stride : W32) (s : State) : Host.Outcome State Fault Refusal :=
  .next (s.watch loadBits fun s => s.takeRepl idx.toNat faddr.toNat count.toNat stride.toNat)
def execZeroFrames (faddr count : W32) (s : State) : Host.Outcome State Fault Refusal :=
  .next (s.watch loadBits fun s => (s.recordRead 0).writeFrames zeroFrame faddr.toNat 1 count.toNat)
def execRecs (data : Bytes) (s : State) : Host.Outcome State Fault Refusal :=
  .next (s.watch loadBits fun s => s.takeRecs data)
def execChainIn (hdr : CastHdr) (s : State) : Host.Outcome State Fault Refusal :=
  .next (s.watch loadBits fun s => s.chainIn hdr)
def execChainFail (s : State) : Host.Outcome State Fault Refusal := .next (s.watch loadBits fun s => s.chainFails)
def execFwdFail (s : State) : Host.Outcome State Fault Refusal := .next s.forwardFails
def execChainRdyN (level : Bool) (s : State) : Host.Outcome State Fault Refusal := .next (s.chainReady level)
def execNvmRead (s : State) : Host.Outcome State Fault Refusal :=
  .next (s.hostCmd R.CFG_NVM_CTL 0x1C 0x10 fun s => (s.nvmGo 0))
def execNvmWrite (s : State) : Host.Outcome State Fault Refusal :=
  .next (s.hostCmd R.CFG_NVM_CTL 0x1C 0x14 fun s => (s.nvmGo 1))
def execNvmErase (s : State) : Host.Outcome State Fault Refusal :=
  .next (s.hostCmd R.CFG_NVM_CTL 0x1C 0x18 fun s => (s.nvmGo 2))
def execNvmDone (ok : Bool) (data : Bytes) (s : State) : Host.Outcome State Fault Refusal :=
  .next (s.watch [18] fun s => s.nvmEnd ok data)

end Sys2Proof.Machine
end

