-- ==== Sys2Proof/Machine/Partial.lean ====
section
/-! DEFINITION. Partial reconfiguration (R43, R44, R115, R116, R169, R182, R289–R293, R380). -/

namespace Sys2Proof.Machine

/-! ### Requests and verification -/

/-- A region without cords and rows. -/
def noRegion (cords : BitVec 16) (rows : W64) : Bool := cords == 0 && rows == 0

/-- The full image configures a cord of each cord group of a region and a block of each of its rows. DEDUCED (log 55). -/
def State.regionHere (s : State) (cords : BitVec 16) (rows : W64) : Bool :=
  cords &&& ~~~s.image.groups == 0 && rows &&& ~~~s.image.rows == 0

/-- R289: the region that a partial image names. -/
def State.regionCheck (s : State) (h : CastHdr) : Option Nat :=
  let held := s.recon.isolated || s.recon.waits
  refuse (noRegion (hCords h) (hRows h) || !s.regionHere (hCords h) (hRows h)
    || (held && (hCords h != s.recon.cords || hRows h != s.recon.rows))) 0x0A

/-- R145: the declaration against the running image, and its cords against the region; an image without a SCHEDULE section has no frames
for the cords that it declares. -/
def State.partDecl (s : State) (h : CastHdr) : Option Nat :=
  let d := hDecl h
  let outside := (List.range 128).any fun c => d.cords.getLsbD c && !(hCords h).getLsbD (c / 8)
  firstRefusal
    [refuse (d.profile != s.fget F.NOC_STAT_PROFILE) 0x12,
     refuse (d.lock != s.fget F.TURN_CFG_LOCK_SRC || d.anchor != s.fget F.TURN_ANCHOR_LANE || d.l != s.schedL
       || d.e != s.schedE || d.span != s.span || d.dout != s.fget F.TURN_DOUT_VALUE || d.phase != s.fget F.TURN_PHASE_VALUE) 0x13,
     refuse outside 0x16,
     refuse (d.cords != 0 && !(hTypes h).contains 9) 0x16]

/-- The directory entry that CFG_PART_SEL names must be a partial image (R291); without a directory there is nothing to read. The codes
are DEDUCED (log 51). -/
def State.partEntry (s : State) : Option Nat :=
  let i := s.fget F.CFG_PART_SEL_ENTRY
  match s.image.dir with
  | none => some 0x08
  | some b => refuse (!(decide (i < num b 6 2) && dirFlags b i % 2 == 1 && (dirFlags b i).testBit 2)) 0x01

/-- The declaration checks of a partial image that need the span's duration: its anchor must be the running image's (R145). -/
def State.partTiming (s : State) (h : CastHdr) : Option Nat :=
  let n := s.fget F.TURN_ANCHOR_LANE
  if (hDecl h).lock = 0 then none
  else if (hDecl h).anchor ≠ n ∨ !s.laneOn n then some 0x13
  else declTiming h (wireBits (s.pcs n), s.kbps n)

/-- A GO (R293). Before a full image has committed there is nothing to reconfigure (log 56). -/
def State.partGo (s : State) : State :=
  let st := s.fget F.CFG_PART_STAT_STATE
  if !s.image.committed then s
  else if st = 1 ∨ st = 2 then s.fset F.CFG_PART_STAT_BUSY_REFUSED 1
  else if st = 3 then s.fset F.CFG_PART_STAT_PENDING_ENABLE 1
  else ({ s with recon := { s.recon with was := st } }.fset F.CFG_PART_STAT_STATE 1).fset F.CFG_PART_STAT_CODE 0

/-- HOLD in IDLE (R293). -/
def State.partHold (s : State) : State :=
  let cords := BitVec.ofNat 16 (s.fget F.CFG_PART_CORDS_CORDS)
  let rows := BitVec.ofNat 64 (s.wget W.CFG_PART_EDGE_EDGE)
  if !s.image.committed || s.fget F.CFG_PART_STAT_STATE != 0 || s.recon.waits || noRegion cords rows then s
  else ({ s with recon := { s.recon with cords, rows, waits := true } }).fset F.TURN_HOLD_SRC_PART 1

/-- LOADING begins. Where no section precedes SCHEDULE, what the others would give is applied now: the region's instruction words,
ports and shadow tables are empty (R33, R44). -/
def State.startLoading (s : State) : State :=
  let s1 := s.fset F.CFG_PART_STAT_STATE 2
  if hType s.load.hdr 0 < 9 then s1 else s1.applyPart

/-- Verification has passed: loading begins, at once where the region is already isolated. -/
def State.verified (s : State) (h : CastHdr) : State :=
  let s1 := { s with load := { s.load.rest with on := true, part := true, hdr := h } }.holdKey h
  if s1.recon.isolated then s1.startLoading
  else ({ s1 with recon := { s1.recon with cords := hCords h, rows := hRows h, waits := true } }).fset F.TURN_HOLD_SRC_PART 1

def State.partVerify (s : State) (h : CastHdr) : State :=
  if s.fget F.CFG_PART_STAT_STATE != 1 || s.load.on then s
  else match firstRefusal [s.partEntry, s.headerChecks h true, s.regionCheck h, s.passOne h, s.partTiming h, s.partDecl h] with
    | some c => ({ s with load := { s.load with part := true } }).refuseEarly c
    | none => s.verified h

/-! ### Isolation and release -/

/-- Cords of a region. -/
def State.regionCords (s : State) : List Nat := (List.range 128).filter fun c => s.recon.cords.getLsbD (c / 8) && s.cordHere c

/-- No step of a turn has executed since the boundary, and no prefix runs. -/
def State.betweenTurns (s : State) : Bool := s.core.phase == .slack || (s.core.phase == .turn && s.core.cur.isNone)

/-- A STANDBY device isolates and releases at the turns of its partner (R291, R300). -/
def State.atTurn (s : State) (t : Option Nat) : Bool := !s.standby || t == some s.turnNum

/-- The region is isolated at a boundary at which a turn starts. Where a GO has come in behind a HOLD that waits, its verification
goes on for the region now isolated (R291, R293). -/
def State.isolateRegion (s : State) : State :=
  if !s.recon.waits || !s.betweenTurns || !s.atTurn s.splice.partIso then s
  else
    let cords := s.recon.cords
    let rows := s.recon.rows
    let s1 := s.each s.regionCords fun s c => s.fset (F.CRD_STAT_REGION_LOAD c) 1
    let win := s1.core.windows.filter fun p => !cords.getLsbD (p.1 % 2 ^ 18 / 2048 / 8)
    let kept := (s1.edge.st.filter fun p => rows.getLsbD (p.1 / 64)).map fun p => (p.1, p.2.out)
    let s2 : State := { s1 with
      core := { s1.core with windows := win }
      edge := { s1.edge with iso := rows, kept }
      splice := { s1.splice with partIso := none }
      recon := { s1.recon with waits := false, isolated := true } }
    let s3 := (s2.setBit F.EDG_STAT_REGION_ISO (rows != 0)).fset F.TURN_HOLD_SRC_PART 0
    let s4 := if s3.load.on && s3.load.part then s3.startLoading
      else if s3.fget F.CFG_PART_STAT_STATE = 1 then { s3 with recon := { s3.recon with was := 5 } }
      else s3.fset F.CFG_PART_STAT_STATE 5
    s4.mirror (.part false s4.turnNum)

/-- Strand storage of the region as R44 gives it; FIRST is 1 in its first turn. The valid snapshot, which R44 does not list, shows 0
as after a full load (log 101); windows closed by an encrypted full cast stay closed, and open ones open (log 102). -/
def State.releaseCords (s : State) : State :=
  let l := s.regionCords
  let gone := fun (c : Nat) => l.contains c
  let d := hDecl s.load.hdr
  let mask : BitVec 128 := l.foldl (fun v c => v ||| BitVec.ofNat 128 (2 ^ c)) 0
  let s1 := { s.dropPorts gone with
    strands := s.strands.filter fun p => !gone (gCord p.1)
    image := { s.image with cords := (s.image.cords &&& ~~~mask) ||| (d.cords &&& mask) }
    core := { s.core with first := s.core.first ||| (d.cords &&& mask), redoBy := s.core.redoBy &&& ~~~mask } }
  (s1.initStores gone).each l fun s c => s.fset (F.CRD_STAT_REGION_LOAD c) 0

/-- The region's blocks take their INIT values; block memories that the image does not write keep their contents (R182). A partial
image with an EDGE section has its drivers counted with the rest (R169). -/
def State.releaseEdge (s : State) : State :=
  let rows := s.recon.rows
  let rowIn := fun (b : Nat) => rows.getLsbD (b / 64)
  let new := (hTypes s.load.hdr).contains 7
  let s1 := s.each (s.edge.blocks.filter fun p => rowIn p.1) fun s p =>
    let x := initBlock p.2
    s.setEdgeSt p.1 (if new then x else { x with ram := (s.edgeSt p.1).ram })
  let mems := (s.load.edge.filter fun p => 2 ^ 31 ≤ p.1).map fun p => p.1 % 4096
  let s2 := s1.each mems fun s b => s.setMemSt b (initMem s.edge.memInit b)
  let s3 := ({ s2 with edge := { s2.edge with iso := 0, kept := [] } }).fset F.EDG_STAT_REGION_ISO 0
  if new then s3.contention else s3

/-- Measurements and eligible versions (R380, R386). -/
def State.releaseMeasures (s : State) : State :=
  let h := s.load.hdr
  let i := hRb h
  let m := leBytes 32 s.sec.partMeas.toNat ++ leBytes 32 (Config.sm3 h.manifest).toNat ++ leBytes 2 (hCords h).toNat
    ++ leBytes 8 (hRows h).toNat
  { s with sec := { s.sec with
      partMeas := Config.sm3 m, partCount := s.sec.partCount + 1
      elig := SMap.put s.sec.elig i (max (hVersion h) (SMap.get (fun _ => 0) s.sec.elig i)) } }

/-- The region's stations have changed their tables: the region runs its first turn, and a held GO goes on (R291, R293). -/
def State.releaseRegion (s : State) : State :=
  if s.fget F.CFG_PART_STAT_STATE != 3 || !s.recon.swapping.isEmpty || !s.betweenTurns || !s.atTurn s.splice.partRel then s
  else
    let s1 := ((s.releaseCords).releaseEdge).releaseMeasures
    let s2 := (s1.setBorder s1.recon.next).mirror (.part true s1.turnNum)
    let s3 := { s2 with
      splice := { s2.splice with partRel := none }
      recon := { s2.recon with cords := 0, rows := 0, isolated := false }
      load := s2.load.rest }
    let s4 := (s3.fset F.TURN_HOLD_SRC_PART 0).fset F.CFG_PART_STAT_STATE 0
    if s4.bit F.CFG_PART_STAT_PENDING_ENABLE then (s4.fset F.CFG_PART_STAT_PENDING_ENABLE 0).partGo else s4

/-! ### The meanings -/

def execPartGo (s : State) : Host.Outcome State Fault Refusal :=
  .next (s.hostCmd R.CFG_PART_CTL 1 1 fun s => (s.watch [5] fun s => s.partGo))
def execPartHold (s : State) : Host.Outcome State Fault Refusal :=
  .next (s.hostCmd R.CFG_PART_CTL 2 2 fun s => s.partHold)
def execPartVerifyDone (hdr : CastHdr) (s : State) : Host.Outcome State Fault Refusal :=
  .next (s.watch [5] fun s => s.partVerify hdr)
def execRegionIsolate (s : State) : Host.Outcome State Fault Refusal := .next (s.watch [5] fun s => s.isolateRegion)
def execRegionRelease (s : State) : Host.Outcome State Fault Refusal := .next (s.watch [5] fun s => s.releaseRegion)

end Sys2Proof.Machine
end

