-- ==== Sys2Proof/Machine/Trace.lean ====
section
/-! DEFINITION. The trace unit (chapter 17): selection, packets, synchronization, the buffer, enable and disable, and its part
in the power states. -/

namespace Sys2Proof.Machine

/-! ### Selection (R347, R348) -/

/-- Address and access of a record that the comparators test: 1 a read, 2 a write. A response has its request's. -/
def recAccess : TraceRec → Option (Nat × Nat)
  | .txn _ op p _ => some (p.addr.toNat, if op.toNat = 0 ∨ op.toNat = 8 then 1 else 2)
  | .port w _ _ _ _ a _ _ _ => some (a.toNat, if w then 2 else 1)
  | _ => none

/-- Comparator `i` matches. -/
def State.cmpMatches (s : State) (i : Nat) (r : Nat × Nat) : Bool :=
  let acc := s.fget (F.TRC_CMP_ACC i)
  (r.1 ^^^ s.wget (W.TRC_CMP_ADDR i)) &&& s.wget (W.TRC_CMP_MASK i) == 0 && (acc == 0 || acc == r.2)

/-- Range `j` matches. -/
def State.rngMatches (s : State) (j : Nat) (r : Nat × Nat) : Bool :=
  decide (s.wget (W.TRC_RNG_LO j) ≤ r.1) && decide (r.1 ≤ s.wget (W.TRC_RNG_HI j))

/-- A selection register's word matches a record. -/
def State.selMatches (s : State) (sel : W32) (r : TraceRec) : Bool :=
  match recAccess r with
  | none => false
  | some a => ((List.range 16).any fun i => sel.getLsbD i && s.cmpMatches i a)
      || ((List.range 8).any fun j => sel.getLsbD (16 + j) && s.rngMatches j a)

/-- PROBE and CANCEL records pass the qualification. -/
def State.qualified (s : State) (r : TraceRec) : Bool :=
  (recAccess r).isNone || s.reg R.TRC_QUAL_SEL == 0 || s.selMatches (s.reg R.TRC_QUAL_SEL) r

/-! ### Packets (R349) -/

/-- DT between two times in 2^-16 ns, in units of 2^-4 ns modulo 2^16. DEDUCED (log 57): a record's stamp can lie before the
SYNC that precedes it. -/
def packetDt (last t : Nat) : Nat := (t / 4096 + 2 ^ 16 - last / 4096 % 2 ^ 16) % 2 ^ 16

/-- The bytes of a record's packet; `data`: TRC_CTL.DATA. -/
def recPacket (data : Bool) (dt : Nat) : TraceRec → Bytes
  | .txn resp op p _ =>
    let d := data && !p.payload.isEmpty
    let master := if resp then p.dstId else p.src
    leBytes 1 (2 + resp.toNat * 16 + d.toNat * 32) ++ leBytes 2 dt ++ leBytes 1 master.toNat
      ++ leBytes 1 (op.toNat + (if resp then p.status.toNat else 0) * 16) ++ leBytes 1 p.tag.toNat ++ leBytes 6 p.addr.toNat
      ++ leBytes 1 p.len.toNat ++ leBytes 3 0 ++ (if d then leBytes 16 (p.payload.headD 0).toNat else [])
  | .port w cord q mode step addr be turn v =>
    let d := data && w
    leBytes 1 (3 + w.toNat * 16 + d.toNat * 32) ++ leBytes 2 dt ++ leBytes 1 cord.toNat
      ++ leBytes 1 (q.toNat + mode.toNat * 4) ++ leBytes 2 step.toNat ++ leBytes 6 addr.toNat ++ leBytes 1 be.toNat
      ++ leBytes 2 turn.toNat ++ (if d then leBytes 16 v.toNat else [])
  | .probe spec bight n stn side vn b6 b7 addr len =>
    leBytes 1 (4 + spec.toNat * 16 + bight.toNat * 32) ++ leBytes 2 dt ++ leBytes 1 n.toNat ++ leBytes 1 stn.toNat
      ++ leBytes 1 (side.toNat + vn.toNat * 16) ++ [b6, b7] ++ leBytes 6 addr.toNat ++ leBytes 1 len.toNat ++ leBytes 1 0
  | .cancel n => leBytes 1 5 ++ leBytes 2 dt ++ leBytes 1 n.toNat

/-- Order among records of equal stamps (R346): kind, then source or probe number. -/
def recRank : TraceRec → Nat
  | .txn _ _ _ src => src
  | .port _ cord _ _ _ _ _ _ _ => 2 ^ 16 + cord.toNat
  | .probe _ _ n _ _ _ _ _ _ _ => 2 * 2 ^ 16 + n.toNat
  | .cancel n => 3 * 2 ^ 16 + n.toNat

/-- `a` is written before `b`. -/
def QueuedRec.before (a b : QueuedRec) : Bool := a.stamp < b.stamp || (a.stamp == b.stamp && recRank a.item ≤ recRank b.item)

/-- The first record in the order of R346 and the others. -/
def firstRec : List QueuedRec → Option (QueuedRec × List QueuedRec)
  | [] => none
  | r :: rs =>
    match firstRec rs with
    | none => some (r, [])
    | some (q, qs) => if r.before q then some (r, q :: qs) else some (q, r :: qs)

/-! ### The buffer (R351, R352) -/

/-- BASE and SIZE fit the selected kind of buffer. -/
def State.bufOk (s : State) : Bool :=
  let base := s.wget W.TRC_BASE_BASE
  let size := s.fget F.TRC_SIZE_SIZE
  let last := base + size - 1
  base % 4096 == 0 && size % 4096 == 0 && decide (4096 ≤ size) &&
    (if s.bit F.TRC_CTL_BUF then
      s.inDram base && s.inDram last && (List.range 384).all fun g =>
        g < granuleOf base || granuleOf last < g || s.fget (F.BNK_GRN_USE g) == 4
    else s.inScratch base && s.inScratch last && bankOf base == bankOf last
      && s.fget (F.BNK_OWN_OWNER (bankOf base)) == 0x70 && !s.bit (F.BNK_OWN_CORDS (bankOf base)))

/-- The posted write of a 64-byte line (R109). -/
def linePacket (a : Nat) (bs : Bytes) : Packet :=
  { vn := 3, src := 0x70, dstStn := 0x80, addr := BitVec.ofNat 48 a, len := 2
    payload := (List.range 4).map fun k => BitVec.ofNat 128 (leNat ((bs.drop (16 * k)).take 16)) }

/-- A 64-byte line goes to the buffer, or is dropped there (R136, R139); in a bank that the trace unit is to own it waits
(R135). -/
def State.storeLine (s : State) (a : Nat) (bs : Bytes) : State :=
  if s.bit F.TRC_CTL_BUF then
    if s.inDram a && s.dramAllows 0x70 a true then s.wrBytes a bs
    else (s.memRefused 0x70 a accPosted).fset F.TRC_STAT_BUF_ERR 1
  else if !s.inScratch a || !s.domainOn (s.addrDomain a) then (s.memRefused 0x70 a accPosted).fset F.TRC_STAT_BUF_ERR 1
  else match s.bankAnswer (bankOf a) 0x70 with
    | .granted => s.wrBytes a bs
    | .refused => (s.memRefused 0x70 a accPosted).fset F.TRC_STAT_BUF_ERR 1
    | .waits => { s with ring := { s.ring with waits := s.ring.waits ++ [(bankOf a, .packet (linePacket a bs) true true)] } }

/-- The next line would pass the end: the buffer is FULL, or it wraps. -/
def State.bufEnd (s : State) : State :=
  if s.fget F.TRC_WPTR_WPTR < s.fget F.TRC_SIZE_SIZE then s
  else if s.bit F.TRC_CTL_MODE then
    let s1 := (s.fset F.TRC_WPTR_WPTR 0).fset F.TRC_STAT_WRAPPED 1
    { s1 with trace := { s1.trace with owed := s1.trace.owed ||| 16 } }
  else s.fset F.TRC_STAT_FULL 1

/-- Complete lines are written; `n` bounds their number. -/
def State.writeLines (s : State) : Nat → State
  | 0 => s
  | n + 1 =>
    if s.trace.line.length < 64 then s
    else
      let s1 := s.storeLine (s.wget W.TRC_BASE_BASE + s.fget F.TRC_WPTR_WPTR) (s.trace.line.take 64)
      let s2 := { s1 with trace := { s1.trace with line := s1.trace.line.drop 64 } }
      ((s2.fset F.TRC_WPTR_WPTR (s2.fget F.TRC_WPTR_WPTR + 64)).bufEnd).writeLines n

/-- Bytes of the stream. -/
def State.streamBytes (s : State) (bs : Bytes) : State :=
  ({ s with trace := { s.trace with line := s.trace.line ++ bs } } : State).writeLines (s.trace.line.length / 64 + bs.length)

/-- When the trace port has sent what it has taken. -/
def State.portFree (s : State) : Nat := (s.trace.portOut.getLast?.map (·.1)).getD 0

/-- The trace port takes a packet: it carries a byte a nanosecond (R391). -/
def State.portTake (s : State) (bs : Bytes) : State :=
  let at_ := max s.time.now s.portFree + 65536 * bs.length
  { s with trace := { s.trace with portOut := s.trace.portOut ++ [(at_, bs)] } }

/-- The trace port carries a copy of a packet (R355). While it still sends an earlier one, how long the packet may wait is not
given: whether it is dropped, and counted, is free. DESIGN CHOICE (log 88). -/
def State.portCopy (s : State) (bs : Bytes) : State :=
  if !s.bit F.TRC_CTL_PORT_EN || s.debugClosed then s
  else if s.portFree ≤ s.time.now then s.portTake bs
  else
    let late : BitVec 1 := s.freeBits 1
    if late = 1 then (s.drawn).count F.TRC_PORT_DROP_COUNT 1 else (s.drawn).portTake bs

/-- PAD to a multiple of `n` bytes of the buffer. -/
def State.padTo (s : State) (n : Nat) : State :=
  let pos := s.fget F.TRC_WPTR_WPTR + s.trace.line.length
  s.streamBytes (List.replicate ((n - pos % n) % n) 0)

/-! ### Writing packets (R349, R350) -/

/-- The packet would be the first in a 4 KiB page. -/
def State.pageStart (s : State) : Bool := (s.fget F.TRC_WPTR_WPTR + s.trace.line.length) % 4096 == 0

/-- A packet with time `t` needs a SYNC before it. -/
def State.syncDue (s : State) (t : Nat) : Bool :=
  s.trace.owed != 0 || decide (4096 ≤ s.trace.sinceSync) || decide (s.trace.lastSync + 65536000 < t) || s.pageStart

/-- GAP_NS of a SYNC written now (R354). -/
def State.gapValue (s : State) : Nat :=
  if s.trace.owed.getLsbD 2 then s.trace.gapNs
  else if s.trace.owed.getLsbD 1 then (s.time.now - s.trace.gapAt) / 65536
  else 0

def State.writeSync (s : State) : State :=
  let bs := leBytes 1 1 ++ leBytes 1 s.trace.owed.toNat ++ leBytes 2 0 ++ leBytes 12 (timeBits s.time.now) ++ leBytes 8 s.turnNum
    ++ leBytes 8 s.gapValue
  let s1 := { s with trace := { s.trace with owed := 0, sinceSync := 0, lastSync := s.time.now, lastPkt := s.time.now } }
  ((s1.streamBytes bs).portCopy bs).count F.TRC_PKTS_COUNT 1

/-- A packet of `n` bytes with time `t`, its bytes a function of DT; `recs` counts the records lost if the buffer is FULL. A
page without room for it and its SYNC is filled with PAD. -/
def State.writePacket (s : State) (n t recs : Nat) (f : Nat → Bytes) : State :=
  let pos := (s.fget F.TRC_WPTR_WPTR + s.trace.line.length) % 4096
  let need := n + (if s.syncDue t then 32 else 0)
  let s1 := if s.bit F.TRC_STAT_FULL || decide (pos + need ≤ 4096) then s else s.padTo 4096
  if s1.bit F.TRC_STAT_FULL then s1.count F.TRC_LOST_COUNT recs
  else
    let s2 := if s1.syncDue t then s1.writeSync else s1
    let bs := f (packetDt s2.trace.lastPkt t)
    let s3 := { s2 with trace := { s2.trace with lastPkt := t, sinceSync := s2.trace.sinceSync + 1 } }
    ((s3.streamBytes bs).portCopy bs).count F.TRC_PKTS_COUNT 1

/-- The OVERFLOW packet, once the queue has had room again (R346). -/
def State.writeOverflow (s : State) : State :=
  if s.trace.lost = 0 ∨ (256 ≤ s.trace.queue.length ∧ s.trace.room = false) ∨ s.bit F.TRC_STAT_FULL then s
  else
    let n := s.trace.lost
    ({ s with trace := { s.trace with lost := 0, room := false } } : State).writePacket 8 s.time.now 0 fun dt =>
      leBytes 1 6 ++ leBytes 2 dt ++ leBytes 1 0 ++ leBytes 4 n

/-- A record is handled in the order of R348. -/
def State.handleRec (s : State) (q : QueuedRec) : State :=
  let r := q.item
  let s1 := if !s.bit F.TRC_STAT_ACTIVE && s.selMatches (s.reg R.TRC_START_SEL) r then s.fset F.TRC_STAT_ACTIVE 1 else s
  let data := s1.bit F.TRC_CTL_DATA
  let s2 := if s1.bit F.TRC_STAT_ACTIVE && s1.qualified r then
      s1.writePacket (recPacket data 0 r).length q.stamp 1 fun dt => recPacket data dt r
    else s1
  if s2.selMatches (s2.reg R.TRC_STOP_SEL) r then s2.fset F.TRC_STAT_ACTIVE 0 else s2

/-- The next held record is written. -/
def State.traceNext (s : State) : State :=
  let s0 := s.writeOverflow
  match firstRec s0.trace.queue with
  | none => s0
  | some (q, rest) => ({ s0 with trace := { s0.trace with queue := rest, room := s0.trace.lost != 0 } } : State).handleRec q

/-- 512 ns have passed since the stamp of the record that is written next (R346). -/
def State.traceDue (s : State) : Bool :=
  match firstRec s.trace.queue with
  | some (q, _) => decide (q.stamp + 33554432 ≤ s.time.now)
  | none => false

/-- 10 µs have passed since the last packet (R352). -/
def State.traceQuiet (s : State) : Bool := decide (s.trace.lastPkt + 655360000 ≤ s.time.now)

/-- Every held record is written. -/
def State.traceDrain (s : State) : State := (s.each s.trace.queue fun s _ => s.traceNext).writeOverflow

/-- The partial line is written, padded with PAD (R352). -/
def State.traceFlush (s : State) : State := if s.trace.line.isEmpty then s else s.padTo 64

/-! ### Enable and disable (R353) -/

/-- The trace starts, or is refused with BADBUF. -/
def State.traceStart (s : State) : State :=
  if !s.bufOk then (s.fset F.TRC_CTL_EN 0).fset F.TRC_STAT_BADBUF 1
  else
    let s1 := ((s.fset F.TRC_CTL_EN 1).fset F.TRC_WPTR_WPTR 0).fset F.TRC_STAT_FULL 0
    let s2 := (s1.fset F.TRC_STAT_WRAPPED 0).setBit F.TRC_STAT_ACTIVE (s1.reg R.TRC_START_SEL == 0)
    { s2 with trace := { portOut := s.trace.portOut, owed := 1, lastPkt := s.time.now, lastSync := s.time.now } }

def State.traceEnable (s : State) : State :=
  if s.bit F.TRC_CTL_EN then s
  else if s.bit F.TRC_STAT_SHUTTING then s.fset F.TRC_STAT_PENDING_ENABLE 1
  else s.traceStart

/-- EN = 0: held records are written and flushed; a held enable is withdrawn (R343). -/
def State.traceDisable (s : State) : State :=
  let s0 := s.fset F.TRC_STAT_PENDING_ENABLE 0
  if !s.bit F.TRC_CTL_EN then s0
  else
    let s1 := (s0.fset F.TRC_CTL_EN 0).fset F.TRC_STAT_SHUTTING 1
    ((s1.traceDrain).traceFlush).fset F.TRC_STAT_ACTIVE 0

/-- The flush ends; a held enable proceeds. -/
def State.traceShut (s : State) : State :=
  if !s.bit F.TRC_STAT_SHUTTING then s
  else
    let s1 := s.fset F.TRC_STAT_SHUTTING 0
    if s1.bit F.TRC_STAT_PENDING_ENABLE then (s1.fset F.TRC_STAT_PENDING_ENABLE 0).traceStart else s1

/-! ### Power states (R354) -/

/-- Entry to Sleep or a deeper state `target`: held records, a GAP packet, a flush. -/
def State.traceSleep (s : State) (target : Nat) : State :=
  if !s.bit F.TRC_CTL_EN then s
  else
    let s1 := s.traceDrain
    let s2 := s1.writePacket 16 s1.time.now 0 fun _ =>
      leBytes 1 7 ++ leBytes 1 target ++ leBytes 2 0 ++ leBytes 12 (timeBits s1.time.now)
    let s3 := s2.traceFlush
    { s3 with trace := { s3.trace with gapAt := s3.time.now } }

/-- A DRAM buffer was lost in Deep sleep: it starts again as on enable, and BUF_LOST is set; a disabled unit starts nothing. -/
def State.bufLost (s : State) : State :=
  let s1 := (((s.fset F.TRC_WPTR_WPTR 0).fset F.TRC_STAT_FULL 0).fset F.TRC_STAT_WRAPPED 0).fset F.TRC_STAT_BUF_LOST 1
  let s2 := { s1 with trace := { s1.trace with line := [], owed := 1, sinceSync := 0, lastPkt := s.time.now, lastSync := s.time.now } }
  if s.bit F.TRC_CTL_EN then s2.setBit F.TRC_STAT_ACTIVE (s2.reg R.TRC_START_SEL == 0) else s2

/-- Exit from Sleep, or from Deep sleep with an estimated gap of `us` microseconds: the next SYNC of an enabled unit carries GAP. -/
def State.traceWake (s : State) (deep : Bool) (us : Nat) : State :=
  let s1 := if deep && s.bit F.TRC_CTL_BUF then s.bufLost else s
  if !s1.bit F.TRC_CTL_EN then s1
  else
    { s1 with trace := { s1.trace with owed := s1.trace.owed ||| 2 ||| (if deep then 4 else 0), gapNs := us * 1000 } }

/-! ### The meanings -/

def execTraceRecord (r : TraceRec) (s : State) : Host.Outcome State Fault Refusal := .next (s.watch [16] fun s => s.traceOffer r)

/-- A record whose time has come is written as a packet. -/
def execTracePacketWrite (s : State) : Host.Outcome State Fault Refusal :=
  .next (if s.traceDue then s.watch [16] fun s => s.traceNext else s)
def execTraceEnable (s : State) : Host.Outcome State Fault Refusal :=
  .next (s.hostCmd R.TRC_CTL 1 1 fun s => (s.watch [16] fun s => s.traceEnable))
def execTraceDisable (s : State) : Host.Outcome State Fault Refusal :=
  .next (s.hostCmd R.TRC_CTL 1 0 fun s => (s.watch [16] fun s => s.traceDisable))

/-- A FLUSH write; during the flush of a disable it has no further effect (R353). -/
def execTraceFlush (s : State) : Host.Outcome State Fault Refusal :=
  .next (s.hostCmd R.TRC_CTL 2 2 fun s => (if s.bit F.TRC_STAT_SHUTTING then s else s.watch [16] fun s => s.traceFlush))
def execTraceIdleFlush (s : State) : Host.Outcome State Fault Refusal :=
  .next (if s.traceQuiet then s.watch [16] fun s => s.traceFlush else s)
def execTraceShutdownDone (s : State) : Host.Outcome State Fault Refusal := .next (s.watch [16] fun s => s.traceShut)

end Sys2Proof.Machine
end

