-- ==== Sys2Proof/Machine/Power.lean ====
section
/-! DEFINITION. The power controller (chapter 16): requests, entry, wake, exit, the reload after Deep sleep (R339), and the
gating of domains (R117, R342). -/

namespace Sys2Proof.Machine

/-! ### Requests (R332, R333, R340) -/

/-- A request of a state other than Run is refused. -/
def State.pwrRefused (s : State) (target : Nat) : Bool :=
  let st := s.fget F.PWR_STAT_STATE
  let part := s.fget F.CFG_PART_STAT_STATE
  let spl := s.fget F.SPL_STAT_STATE
  target == st || decide (4 < target) || s.fget F.CFG_STAT_STATE != 5 || (1 ≤ part && part ≤ 3)
    || (decide (2 ≤ target) && (spl == 2 || spl == 3 || spl == 5)) || (st == 2 && target == 1) || decide (3 ≤ st)

/-- Step 1 of an entry: the turn hold. -/
def State.pwrEnter (s : State) (target : Nat) : State :=
  let s1 := (s.fset F.PWR_STAT_TRANSITION 1).fset F.TURN_HOLD_SRC_PWR 1
  { s1 with power := { s1.power with entering := true, target } }

/-- LAST_WAKE of a request of Run: where wake bit 3 is set the host's write is that source too, and the lower number shows (R335). -/
def State.runSource (s : State) : Nat := if (s.fget F.PWR_WAKE_EN_EN).testBit 3 then 3 else 4

/-- A request outside a transition. Run is a wake, whatever the checks say (log 58). -/
def State.pwrDecide (s : State) (target : Nat) : State :=
  if target = 0 ∧ s.fget F.PWR_STAT_STATE ≠ 0 then s.pwrExit s.runSource
  else if s.pwrRefused target then s.fset F.PWR_STAT_REFUSED 1
  else s.pwrEnter target

/-- A request; during a transition it is held, and a later one replaces it (R340). -/
def State.pwrRequest (s : State) (target : Nat) : State :=
  if s.bit F.PWR_STAT_TRANSITION then { s with power := { s.power with held := some target } } else s.pwrDecide target

/-- A flag request of this instant gives way to a host GO: it is refused, and an entry that it has begun ends (R333). -/
def State.flagYields (s : State) : State :=
  if s.power.flagAt ≠ some s.time.now then s
  else
    let s1 := (s.fset F.PWR_STAT_REFUSED 1)
    if !s.power.entering then { s1 with power := { s1.power with flagAt := none } }
    else
      let s2 := (s1.fset F.PWR_STAT_TRANSITION 0).fset F.TURN_HOLD_SRC_PWR 0
      { s2 with power := { s2.power with flagAt := none, entering := false } }

/-- A host GO: of the requests of one instant it wins (R137, R333). -/
def State.hostGo (s : State) (target : Nat) : State :=
  let s1 := s.flagYields.pwrRequest target
  { s1 with power := { s1.power with goAt := some s.time.now } }

/-- The flag request of PWR_TRIG; it is refused where it meets a host GO (R333). -/
def State.flagRequest (s : State) : State :=
  if s.power.goAt = some s.time.now then s.fset F.PWR_STAT_REFUSED 1
  else
    let taken := s.bit F.PWR_STAT_TRANSITION || !s.pwrRefused (s.fget F.PWR_TRIG_TARGET + 1)
    let s1 := s.pwrRequest (s.fget F.PWR_TRIG_TARGET + 1)
    if taken then { s1 with power := { s1.power with flagAt := some s.time.now } } else s1

/-! ### What the states lose (R330, R331) -/

/-- Lanes stop and listen: their locks and words are gone (R334); `which` selects lanes. -/
def State.lanesListen (s : State) (which : Nat → Bool) : State :=
  let s1 := s.each ((List.range 1056).filter fun n => which n && s.laneHere n) fun s n =>
    s.laneStill n
  { s1 with lanes := SMap.mapv (fun _ => ({} : Lane)) (fun n x => if which n then x.still else x) s1.lanes }

/-- A byte of memory is lost with the domains that `gone` selects: scratch banks but the trace unit's, DRAM stacks, and with
the strand dies cord memory (R330, R331). Lost memory is as if nothing had written it (log 3). -/
def State.memGone (s : State) (gone : Nat → Bool) (a : Nat) : Bool :=
  if 2 ^ 48 ≤ a then gone (2 + (a - 2 ^ 48) / 2 ^ 18 / 32)
  else if dramBase ≤ a then gone (12 + stackOf a)
  else gone (10 + bankOf a / 32) && !(s.fget (F.BNK_OWN_OWNER (bankOf a)) == 0x70 && !s.bit (F.BNK_OWN_CORDS (bankOf a)))

def State.loseMem (s : State) (gone : Nat → Bool) : State := { s with mem := s.mem.filter fun p => !s.memGone gone p.1 }

/-- A strand keeps its state store alone (R44); the valid snapshot goes with the latches it was taken of (log 101). -/
def Strand.asleep (x : Strand) : Strand := { store := x.store }

/-- Strand storage of the strand dies that `gone` selects; the ports' staging registers go with them (R331; log 103). -/
def State.loseStrands (s : State) (gone : Nat → Bool) : State :=
  let lost := fun (g : Nat) => gone (2 + g / 1024 / 32)
  { s.dropPorts (fun c => gone (2 + c / 32)) with
    strands := SMap.mapv (fun _ => ({} : Strand)) (fun g x => if lost g then x.asleep else x) s.strands
    instrs := s.instrs.filter fun p => !lost (p.1 / 4096) }

/-- Registers and memories of the edge fabric of the dies that `gone` selects. -/
def State.loseEdge (s : State) (gone : Nat → Bool) : State :=
  let on := fun (b : Nat) => !gone (6 + blockDie b)
  let e := s.edge
  { s with edge := { e with
      st := e.st.filter fun p => on p.1, memSt := e.memSt.filter fun p => on p.1
      reads := e.reads.filter fun r => !gone (6 + r.port / 32), lines := e.lines.filter fun p => !gone (6 + p.1 / 2 ^ 13)
      rdata := e.rdata.filter fun p => !gone (6 + p.1 / 32)
      bridgePipe := e.bridgePipe.filter fun p => !gone (6 + p.1), wirePipe := e.wirePipe.filter fun p => !gone (6 + p.1)
      ios := if gone 6 then [] else e.ios } }

/-- Capture channels are IDLE and pattern channels disabled; their settings stay (R239, R248). -/
def State.channelsOff (s : State) (which : Nat → Bool) : State :=
  let s1 := { s with caps := s.caps.filter fun p => !which p.1, pats := s.pats.filter fun p => !which p.1 }
  s1.each ((List.range 1024).filter fun n => which n && s.capHere n) fun s n =>
    let s1 := if s.fget ⟨R.CAP_STAT n, 0, 4⟩ = 0 then s else (s.fset (F.CAP_STAT_STATE n) 0).fset (F.CAP_STAT_PENDING_ENABLE n) 0
    let s2 := if s1.bit (F.PAT_CTL_EN n) then s1.fset (F.PAT_CTL_EN n) 0 else s1
    if s2.reg (R.PAT_STAT n) = 0 then s2
    else
      (((s2.fset (F.PAT_STAT_ACT_SRC n) 0).fset (F.PAT_STAT_SHUTTING n) 0).fset (F.PAT_STAT_PENDING_ENABLE n) 0).fset
        (F.PAT_STAT_SW_PEND n) 0

/-- A register word of a lane or a channel holds status, a counter or a buffer position, which a gated lane set loses; `which` selects
lanes (R331). LANE_STAT, whose CAL_POLICY_CONFLICT follows from settings, and the settings beside CHK_LOCK are not among them. -/
def laneStatus (which : Nat → Bool) (a : Nat) : Bool :=
  let of := fun (base stride n : Nat) (offs : List Nat) =>
    decide (base ≤ a) && decide (a < base + stride * n) && which ((a - base) / stride) && offs.contains ((a - base) % stride)
  of (R.LANE_CFG 0) 0x2000 1056 [0x14, 0x18, 0x1C, 0x20, 0x24, 0x28, 0x2C, 0x30, 0x34, 0x80, 0x84, 0x90, 0x94, 0xA4]
    || of (R.CAP_CFG 0) 0x40 1024 [0x08, 0x1C, 0x20, 0x24, 0x28, 0x2C, 0x30, 0x34, 0x38]
    || of (R.PAT_CFG 0) 0x40 1024 [0x08, 0x18, 0x1C, 0x20, 0x24, 0x28]

/-- A gated lane set loses what is not configuration: status, counters and buffer positions, eye maps, the registers of the PRBS units
(R331). -/
def State.lanesLost (s : State) (which : Nat → Bool) : State :=
  let s0 : State := { s with lanes := s.lanes.filter fun p => !which p.1 }
  let s1 : State := { s0 with regs := s0.regs.filter fun p => !laneStatus which p.1 }
  s1.each ((List.range 1056).filter fun n => which n && s.laneHere n) fun s n =>
    let s1 := if s.reg (R.LANE_STAT n) &&& 0x80 = s.reg (R.LANE_STAT n) then s
      else s.setReg (R.LANE_STAT n) (s.reg (R.LANE_STAT n) &&& 0x80)
    if s1.bit (F.LANE_PRBS_CHK_LOCK n) then s1.fset (F.LANE_PRBS_CHK_LOCK n) 0 else s1

/-- Gated action units lose their services (R331). -/
def State.loseUnits (s : State) (d : Nat) : State :=
  if d ≠ 8 ∧ d ≠ 9 then s
  else
    let gone := fun (u : Nat) => 8 + u / 32 == d
    let s1 := { s with act := { s.act with units := s.act.units.filter fun p => !gone p.1 } }
    s1.each ((List.range 64).filter gone) fun s u => if s.reg (R.ACT_UNIT u) = 0 then s else s.setReg (R.ACT_UNIT u) 0

/-- Everything that Deep sleep loses. -/
def State.deepLoss (s : State) : State :=
  let all := fun (_ : Nat) => true
  let s1 := (((((s.loseMem all).loseStrands all).loseEdge all).channelsOff all).lanesLost all).loseReports all
  let c := s1.core
  let s2 := { s1 with
    core := { first := c.first, boundary := c.boundary, origin := c.origin, started := c.started, ltOff := c.ltOff }
    ring := { s1.ring with bights := [], specProbes := [], resps := [], parked := [], waits := [], bankUse := [], oldWords := [],
                           lastInj := [], specInj := [] }
    host := { s1.host with queue := [] }
    trig := {}, trace := { s1.trace with queue := [], lost := 0 }, sec := { s1.sec with sk := none } }
  s2.fset F.PWR_STAT_TIME_STOPPED 1

/-! ### Entry (R334) -/

/-- Steps 2 and 3 of an entry to Sleep or deeper from Run or Idle; the lanes listen, and the pins are latched. -/
def State.leaveRun (s : State) (target : Nat) : State :=
  let s1 := (s.flywheel false).markAll s.time.now false true false
  let low := s1.freeBits 192
  let dbg := (s1.drawn).freeBits 16
  let s2 := { (s1.drawn).drawn with pins := { s1.pins with latched := some (s1.pinDrive low dbg) } }.trigIns
  { (s2.traceSleep target).lanesListen fun _ => true with power := { s2.power with stopped := true } }

/-- Cold start from Off, as a POR_N release (R337); the wake settings stay, and a thermal trip shows (R344, R409). -/
def State.coldStart (s : State) (src : Nat) : State :=
  let u := s.countCycle
  let t := if s.power.tripped then u.restart true else u.plainStart true
  let t1 := { t with regs := s.regs.filter fun p => persisted p.1 || wakeReg p.1 }.latchIds
  let t2 := if s.power.tripped then t1 else t1.fset F.FLT_RST_CAUSE_FAULT_RESET 0
  t2.fset F.PWR_STAT_LAST_WAKE src

/-- A transition ends: faults that waited are applied (R340). -/
def State.endTransition (s : State) : State :=
  let l := s.flt.deferred
  ({ s with flt := { s.flt with deferred := [] } }.fset F.PWR_STAT_TRANSITION 0).react l

/-- A held request is checked once no transition is in progress. -/
def State.servePwr (s : State) : State :=
  match s.power.held with
  | some t => if s.bit F.PWR_STAT_TRANSITION then s else { s with power := { s.power with held := none } }.pwrDecide t
  | none => s

/-- The lowest of the wake sources held behind an entry (R335). -/
def State.heldWake (s : State) : Option Nat := (List.range 4).find? fun i => s.power.wakes.getLsbD i

/-- The state is reached; a wake held behind the entry starts the exit at once (R340). -/
def State.entryDone (s : State) (target : Nat) : State :=
  let s1 := { s with power := { s.power with entering := false, wakes := 0, stopped := false, patWin := 0xFFFFFFFF, patRun := 0, patHit := false } }
  let s2 := (s1.fset F.PWR_STAT_STATE target).endTransition
  (match s.heldWake with
    | some src => if s2.fget F.PWR_STAT_STATE = target then s2.pwrExit src else s2
    | none => s2).servePwr

/-- Action units have completed what is in flight (R334). -/
def State.unitsQuiet (s : State) : Bool := s.act.units.all fun p => p.2.ops.isEmpty

/-- The rings have drained: no access waits in a bank, and every response has arrived (R117). -/
def State.ringsQuiet (s : State) : Bool := s.ring.waits.isEmpty && s.ring.resps.isEmpty

/-- The domains that the target gates are drained and gated (step 5), and the state is reached; a stop is measured from here (R339). In
Off a wake held behind the entry starts the device at once (R340). -/
def State.closeDomains (s : State) : State :=
  let target := s.power.target
  if target = 4 then
    match s.heldWake with
    | some src => (s.enterOff).coldStart src
    | none => s.enterOff
  else
    let s1 := if target = 3 then s.deepLoss else s
    ({ s1 with power := { s1.power with sleptAt := s1.reg R.HST_ALIVE } }).entryDone target

/-- The step clock stops after the commit: Idle is reached. For the deeper states, once the committed outputs have been released (step
1), steps 2 and 3 come, then the domains close once the action units have completed what is in flight and the rings have drained
(R117, R334). -/
def State.stopClock (s : State) : State :=
  let awake := decide (s.fget F.PWR_STAT_STATE < 2)
  if !s.power.entering || s.core.phase != .slack then s
  else if s.power.target = 1 then s.entryDone 1
  else if awake && !s.power.stopped && !s.core.outComm.isEmpty then s
  else
    let s1 := if awake && !s.power.stopped then s.leaveRun s.power.target else s
    if awake && !(s1.unitsQuiet && s1.ringsQuiet) then s1 else s1.closeDomains

/-! ### Wake (R335, R340) -/

/-- The condition of a wake source holds: a signal on a lane that a PWR_WAKE_LANE entry names, the wake pattern's detector has fired, the
WAKE pin high (R335, R336). -/
def State.wakeSeen (s : State) (src : Nat) : Bool :=
  match src with
  | 1 => s.power.patHit
  | 0 => (List.range 8).any fun i => s.bit (F.PWR_WAKE_LANE_EN i) && s.bit (F.LANE_STAT_SIG_DET (s.fget (F.PWR_WAKE_LANE_LANE i)))
  | 2 => SMap.get (fun _ => false) s.pinIn (pinKey .wake)
  | _ => true

/-- A wake source acts. In Off the WAKE pin alone does. -/
def State.wakeUp (s : State) (src : Nat) : State :=
  if !s.wakeSeen src then s
  else if s.fget F.PWR_STAT_STATE = 4 then
    (if src = 2 && (s.fget F.PWR_WAKE_EN_EN).testBit 2 then s.coldStart src else s)
  else s.wakeAwake src

/-! ### Exit (R337–R339) -/

/-- What resumes after Sleep. -/
def State.wakeSleep (s : State) : State :=
  let s1 := (s.markAll s.time.now false false true).traceWake false 0
  s1.each (List.range 4) State.expire

/-- Each pin returns to its function under the output-to-output rule: a configured I/O cell's first valid value comes with the first
edge of its clock (R393, R396). -/
def State.pinsBack (s : State) : State :=
  let back := fun (v : BitVec 192 × BitVec 192) => (s.edge.die.ios.filter fun p => s.fget (F.PIN_CFG_FUNC_ACT p.1) == 0).map fun p =>
    (p.1, (v.1.getLsbD p.1, v.2.getLsbD p.1))
  { s with pins := { s.pins with
    latched := none, held := match s.pins.latched with | some v => back v | none => s.pins.held } }

/-- The exit ends: the step clock is stable (R91). -/
def State.exitDone (s : State) : State :=
  let st := s.fget F.PWR_STAT_STATE
  let us := (s.reg R.HST_ALIVE - s.power.sleptAt).toNat
  let s0 := if st < 2 then s
    else s.pinsBack.trigIns.fset F.PWR_GAP_US_COUNT us
  let s1 := s0.fset F.PWR_STAT_STATE 0
  let s2 := if st = 2 then s1.wakeSleep else if st = 3 then s1.traceWake true us else s1
  let s3 := { s2 with
    power := { s2.power with exiting := false, reloaded := false }
    core := { s2.core with notBefore := if st < 3 then some ((s2.time.now : Int) + s2.spanTime) else none } }
  ((s3.fset F.TURN_HOLD_SRC_PWR 0).endTransition).servePwr

def State.pwrExitComplete (s : State) : State :=
  if !s.power.exiting || (s.fget F.PWR_STAT_STATE == 3 && !s.power.reloaded) then s else s.exitDone

/-- The sections that the reload reads, by index in the table. -/
def reloadSections (h : CastHdr) : List Nat :=
  (List.range (hNsec h)).filter fun i => hType h i == 6 || hType h i == 7 || hType h i == 9 || hType h i == 0x0A

/-- The checks of the reload, as a code and the section it is reported for (R282, R339): the headers, which have to be the running image's
(log 59), then the digest of each section. -/
def State.reloadRefusal (s : State) (h : CastHdr) (stored : List Bytes) : Option (Nat × Nat) :=
  let c := s.image.cast
  match firstRefusal [s.headerChecks h false, s.passOne { h with lanes := c.lanes, splice := c.splice },
      refuse (h.outer != c.outer || h.part != c.part || h.manifest != c.manifest) 0x05] with
  | some e => some (e, 0xFF)
  | none => ((reloadSections h).zipIdx.find? fun p => (Config.sm3 (stored.getD p.2 [])).toNat != hDigest h p.1).map fun p => (0x05, p.1)

/-- A new grid origin (R73, R339). -/
def State.newOrigin (s : State) : State :=
  if s.bit F.TURN_CFG_LOCK_SRC then
    let s1 := { s with core := { s.core with anchorT0 := none } }
    ((s1.fset F.TURN_HOLD_SRC_LOCK 1).fset F.TURN_STAT_FLYWHEEL 0).fset F.TURN_STAT_LOCK_WAIT 1
  else s.newT0

/-- What Deep sleep lost returns to its cast values. -/
def State.reloaded (s : State) : State :=
  let s1 := s.each s.image.init fun s p => s.placeInit p.1 p.2
  let s2 := ({ s1 with instrs := s1.image.instrs }.initFabric fun _ => true).clearAction
  let s3 := (s2.each (settingsOf 6 s2.image.action) State.applySetting).emptyQueues
  (s3.fset F.ACT_STAT_RUNNING 1).newOrigin

/-- The reload of an exit from Deep sleep: a refusal leaves the load-time state. -/
def State.deepReload (s : State) (h : CastHdr) (stored : List Bytes) : State :=
  if !(s.power.exiting && s.fget F.PWR_STAT_STATE == 3 && !s.power.reloaded) then s
  else
    let s1 := match s.reloadRefusal h stored with
      | some c =>
        let r := (s.enterLoad.fset F.CFG_STAT_STATE 6).fset F.CFG_REFUSE_CODE c.1
        (r.fset F.CFG_REFUSE_SECTION c.2).fset F.CFG_REFUSE_FRAME_FRAME 0xFFFFFFFF
      | none => s.reloaded.fset F.CFG_STAT_STATE 5
    { s1 with power := { s1.power with reloaded := true } }

/-! ### Domains (R331, R342, R343, R117) -/

/-- The domain lies outside the running image's footprint. -/
def State.domainOutside (s : State) (d : Nat) : Bool := s.big && s.bit F.NOC_STAT_CLOSED && outsideDomains.contains d

/-- A lane set whose lanes are off and whose channels are idle. -/
def State.setIdle (s : State) (k : Nat) : Bool :=
  (List.range 16).all fun j =>
    let n := 16 * k + j
    !s.bit (F.LANE_CTL_EN n) && (decide (1024 ≤ n) || (s.capState n == capIdle && !s.bit (F.PAT_CTL_EN n)
      && !s.bit (F.PAT_STAT_SHUTTING n)))

/-- GATEABLE (R342). Before a commit it is 0, as at reset (R344): DEDUCED (log 119). -/
def State.gateable (s : State) (d : Nat) : Bool :=
  s.image.committed && s.domainHere d && (s.domainOutside d
    || (2 ≤ d && d < 6 && !(List.range 32).any fun i => s.cordOn (32 * (d - 2) + i))
    || (12 ≤ d && d < 20 && (List.range 48).all fun i => s.fget (F.BNK_GRN_USE (48 * (d - 12) + i)) == 0)
    || (20 ≤ d && s.setIdle (d - 20)))

/-- A write of EN = 0: a held enable is withdrawn; in Run and Idle a gateable domain closes its ingress. -/
def State.domainGate (s : State) (d : Nat) : State :=
  if !s.domainHere d then s
  else if s.bit (F.PWR_DOM_SHUTTING d) then s.fset (F.PWR_DOM_PENDING_ENABLE d) 0
  else if !s.bit (F.PWR_DOM_EN d) || !s.gateable d || decide (2 ≤ s.fget F.PWR_STAT_STATE) then s
  else
    let s1 := ((s.fset (F.PWR_DOM_EN d) 0).fset (F.PWR_DOM_ON d) 0).fset (F.PWR_DOM_SHUTTING d) 1
    { s1 with power := { s1.power with powering := s1.power.powering.filter (· != d) } }

/-- The domain starts to power up. -/
def State.domainUp (s : State) (d : Nat) : State :=
  { s with power := { s.power with powering := s.power.powering ++ [d] } }.fset (F.PWR_DOM_EN d) 1

/-- The network still owes the domain something: an access that it has accepted waits, the answer of a request to it or from it is under
way (R117). -/
def State.domainOwed (s : State) (d : Nat) : Bool :=
  let mine := fun (m : MasterId) => 0x30 ≤ m.toNat && m.toNat < 0x70 && 8 + (m.toNat - 0x30) / 32 == d
  s.ring.waits.any (fun w => d == 10 + w.1 / 32 || (match w.2 with | .packet p _ _ => mine p.src | .port k _ => d == 2 + k / 4 / 32))
    || s.ring.resps.any (fun r => s.addrDomain r.p.addr.toNat == d || mine r.p.dstId)
    || s.ring.parked.any fun r => mine r.2.src

/-- The drain has ended: the domain is gated and loses its contents; a held enable proceeds. -/
def State.domainGated (s : State) (d : Nat) : State :=
  if !s.bit (F.PWR_DOM_SHUTTING d) || s.domainOwed d then s
  else
    let gone := fun (e : Nat) => e == d
    let mine := fun (n : Nat) => 20 + n / 16 == d
    let s1 := ((((s.loseMem gone).loseStrands gone).loseEdge gone).channelsOff mine).loseReports gone
    let s2 := (((s1.lanesListen mine).lanesLost mine).loseUnits d).fset (F.PWR_DOM_SHUTTING d) 0
    if s2.bit (F.PWR_DOM_PENDING_ENABLE d) then (s2.fset (F.PWR_DOM_PENDING_ENABLE d) 0).domainUp d else s2

/-- A write of EN = 1. -/
def State.domainEnable (s : State) (d : Nat) : State :=
  if !s.domainHere d then s
  else if s.bit (F.PWR_DOM_SHUTTING d) then s.fset (F.PWR_DOM_PENDING_ENABLE d) 1
  else if s.bit (F.PWR_DOM_EN d) then s
  else s.domainUp d

/-- The domain is up: ingress reopens. -/
def State.domainPowered (s : State) (d : Nat) : State :=
  if s.power.powering.contains d then
    { s with power := { s.power with powering := s.power.powering.filter (· != d) } }.fset (F.PWR_DOM_ON d) 1
  else s

/-! ### The meanings -/

/-- The conditions of the poll block that a transition moves. -/
def pwrBits : List Nat := [1, 3, 4, 10, 13, 16]

/-- A write of PWR_CTL with GO (R332). In Off the host does not reach the device. -/
def execPwrGo (target : BitVec 3) (s : State) : Host.Outcome State Fault Refusal :=
  if s.hostAway then .next s
  else .next (s.trainLink.watch pwrBits fun s => (s.fset F.PWR_CTL_TARGET target.toNat).hostGo target.toNat)

/-- A pulse of a sequencer flag requests the state that PWR_TRIG names (R333). -/
def execPwrFlagRequest (flag : BitVec 3) (s : State) : Host.Outcome State Fault Refusal :=
  if s.bit F.PWR_TRIG_EN ∧ s.fget F.PWR_TRIG_SEL = flag.toNat ∧ s.fget F.PWR_STAT_STATE < 2 then
    .next (s.watch pwrBits fun s => s.flagRequest)
  else .next s

def execStepClockStop (s : State) : Host.Outcome State Fault Refusal := .next (s.watch pwrBits fun s => s.stopClock)
def execWake (src : BitVec 2) (s : State) : Host.Outcome State Fault Refusal := .next (s.watch pwrBits fun s => s.wakeUp src.toNat)
def execPwrExitComplete (s : State) : Host.Outcome State Fault Refusal := .next (s.watch pwrBits fun s => s.pwrExitComplete)
def execDeepSleepReload (hdr : CastHdr) (stored : List Bytes) (s : State) : Host.Outcome State Fault Refusal :=
  .next (s.watch pwrBits fun s => s.deepReload hdr stored)
def execDomainGate (d : BitVec 7) (s : State) : Host.Outcome State Fault Refusal :=
  .next (s.hostCmd (R.PWR_DOM d.toNat) 1 0 fun s => s.domainGate d.toNat)
def execDomainGated (d : BitVec 7) (s : State) : Host.Outcome State Fault Refusal := .next (s.domainGated d.toNat)
def execDomainEnable (d : BitVec 7) (s : State) : Host.Outcome State Fault Refusal :=
  .next (s.hostCmd (R.PWR_DOM d.toNat) 1 1 fun s => s.domainEnable d.toNat)
def execDomainPowered (d : BitVec 7) (s : State) : Host.Outcome State Fault Refusal := .next (s.domainPowered d.toNat)

end Sys2Proof.Machine
end

