-- ==== Sys2Proof/Machine/Security.lean ====
section
/-! DEFINITION. The security unit (chapter 19): fuses, anti-rollback counters, attestation; the TAP (R387, R414) and the lifetime
counters (R413). -/

namespace Sys2Proof.Machine

/-! ### Attestation (R380–R385) -/

/-- `n` fuse words from `w` up as bytes. -/
def State.fuseBytes (s : State) (w n : Nat) : Bytes := (List.range n).flatMap fun k => leBytes 4 (s.fuse (w + k)).toNat

/-- FUSE_MEAS (R381). -/
def State.fuseMeas (s : State) : BitVec 256 := Config.sm3 (s.fuseBytes 12 116)

/-- The request as it stands in SEC_ATT_REQ (R382). -/
def State.attRequest (s : State) : Bytes := leBytes 0xB8 (s.words (R.SEC_ATT_REQ 0) 46)

/-- SFLAGS. -/
def State.attFlags (s : State) : Nat :=
  s.image.committed.toNat + s.fget F.CFG_STAT_ENC * 2 + s.fget F.CFG_STAT_GN32 * 4 + s.debugClosed.toNat * 8
    + s.fget F.SEC_STAT_DEBUG_SEEN * 16

/-- Report bytes 0x000–0x0E7 at the snapshot (R383). -/
def State.attSnapshot (s : State) (req : Bytes) : Bytes :=
  leBytes 4 0x54415941 ++ leBytes 2 1 ++ slice req 0 2 ++ slice req 8 32 ++ leBytes 2 s.part.toNat ++ leBytes 1 s.stepping.toNat
    ++ leBytes 1 s.attFlags ++ leBytes 4 s.sec.partCount ++ s.fuseBytes 47 2 ++ leBytes 12 (timeBits s.time.now)
    ++ leBytes 1 (s.fget F.CFG_STAT_ENTRY) ++ leBytes 3 0 ++ leBytes 32 s.sec.castMeas.toNat ++ leBytes 32 s.sec.partMeas.toNat
    ++ leBytes 32 s.fuseMeas.toNat ++ leBytes 64 (s.words (R.SEC_RB_CNT 0) 16)

/-- A GO: refused while BUSY, else the snapshot; a MODE 1 request clears SK. -/
def State.attestGo (s : State) : State :=
  if s.bit F.SEC_ATT_STAT_BUSY then s.fset F.SEC_ATT_STAT_BUSY_REFUSED 1
  else
    let req := s.attRequest
    let sk := if num req 0 2 = 1 then none else s.sec.sk
    { s with sec := { s.sec with att := some (req, s.attSnapshot req), sk } }.fset F.SEC_ATT_STAT_BUSY 1

/-- ID_B (R374). -/
def State.idB (s : State) : Bytes := (s.fuseBytes 47 2).reverse ++ leBytes 8 0

/-- HMAC with SM3 (RFC 2104). -/
def hmacSm3 (key msg : Bytes) : Bytes :=
  let k := (key ++ List.replicate 64 0).take 64
  let pad := fun (x : Byte) => k.map fun b => b ^^^ x
  leBytes 32 (Config.sm3 (pad 0x5C ++ leBytes 32 (Config.sm3 (pad 0x36 ++ msg)).toNat)).toNat

/-- A request is well formed: the mode is defined, and the bytes that its layout gives as 0 are 0 (log 61). -/
def attWellFormed (req : Bytes) : Bool :=
  decide (num req 0 2 ≤ 2) && zeros req 2 8 && (num req 0 2 == 1 || zeros req 0x28 0xB8)

/-- The request ends with a code: the report is shown with code 0, else 0. -/
def State.attEnd (s : State) (code : Nat) (report : Bytes) : State :=
  let s1 := { s with sec := { s.sec with att := none } }.setWords (R.SEC_ATT_REP 0) 128 (leNat report)
  ((s1.fset F.SEC_ATT_STAT_BUSY 0).fset F.SEC_ATT_STAT_DONE 1).fset F.SEC_ATT_STAT_CODE code

/-- A report with the exchange's part signed by the identity key; the signature's random value is fresh. -/
def State.attSigned (s : State) (body : Bytes) : State :=
  (s.drawn).attEnd 0 (body ++ (Config.sm2Sign s.free (s.fuseBytes 4 8) s.idB body ++ leBytes 64 0).take 64)

/-- The request in progress ends (R383–R385). -/
def State.attestDone (s : State) : State :=
  match s.sec.att with
  | none => s
  | some (req, snap) =>
    if !attWellFormed req then s.attEnd 1 []
    else if num req 0 2 = 0 then s.attSigned (snap ++ leBytes 96 0)
    else if num req 0 2 = 1 then
      match Config.sm2Exchange s.free (s.fuseBytes 4 8) s.idB (slice req 0x28 16) (slice req 0x38 64) (slice req 0x78 64) with
      | none => (s.drawn).attEnd 1 []
      | some (rB, sB, sk) =>
        let s1 := s.drawn
        { s1 with sec := { s1.sec with sk := some sk } }.attSigned
          (snap ++ (rB ++ leBytes 64 0).take 64 ++ (sB ++ leBytes 32 0).take 32)
    else match s.sec.sk with
      | none => s.attEnd 2 []
      | some sk =>
        let body := snap ++ leBytes 96 0
        s.attEnd 0 (body ++ hmacSm3 (leBytes 16 sk.toNat) body ++ leBytes 32 0)

/-! ### Anti-rollback counters (R386) -/

def State.elig (s : State) (i : Nat) : Nat := SMap.get (fun _ => 0) s.sec.elig i

def State.rbAdvance (s : State) (i : Nat) : State :=
  let v := s.fget F.SEC_RB_VAL_VALUE
  let s1 := s.fset F.SEC_RB_CTL_INDEX i
  if s.fget (F.SEC_RB_CNT_COUNT i) < v ∧ v ≤ s.elig i then
    (s1.fset (F.SEC_RB_CNT_COUNT i) v).fset F.SEC_RB_STAT_DONE 1
  else s1.fset F.SEC_RB_STAT_REFUSED 1

/-! ### Fuses (R375–R378, R388) -/

/-- The bits of a fuse word that the host may program; before FACTORY_DONE the factory programs every field. A request for
others is refused whole (log 62). -/
def State.fuseMask (s : State) (w : Nat) : W32 :=
  if !s.factoryDone then 0xFFFFFFFF
  else if (12 ≤ w ∧ w < 44) ∨ 64 ≤ w then 0xFFFFFFFF
  else if w = 44 then 0x1F
  else 0

/-- A write of SEC_FUSE_CTL. -/
def State.fuseProgram (s : State) (ctl : W32) : State :=
  let w := field ctl.toNat 0 7
  let s1 := s.fset F.SEC_FUSE_CTL_WORD w
  let data := s.reg R.SEC_FUSE_DATA
  let cfg := s.fget F.CFG_STAT_STATE
  if !ctl.getLsbD 7 then s1
  else if ctl >>> 16 != 0xF05E || s.fuseMask w == 0 || data &&& ~~~s.fuseMask w != 0 || s.bit F.SEC_FUSE_STAT_BUSY
      || !(cfg == 5 || cfg == 6) || s.fget F.PWR_STAT_STATE != 0 then
    s1.fset F.SEC_FUSE_STAT_REFUSED 1
  else { s1 with sec := { s1.sec with fusing := some (w, data) } }.fset F.SEC_FUSE_STAT_BUSY 1

/-- What closing the debug access ends at once: a private instruction, injections, the packet in the trace port (R388), and
functions 4 and 5 of the pins, which act as 7 (R390). -/
def State.closeDebug (s : State) : State :=
  let priv := s.tap.ir == .scan || s.tap.ir == .debug || s.tap.ir == .factory
  let s1 := if priv then { s with tap := { s.tap with ir := .bypass } } else s
  let s2 := { s1 with trace := { s1.trace with portOut := s1.trace.portOut.filter fun p => decide (p.1 ≤ s1.time.now) } }
  let s3 := s2.each (List.range 192) fun s n =>
    let f := s.fget (F.PIN_CFG_FUNC_ACT n)
    if f = 4 ∨ f = 5 then s.fset (F.PIN_CFG_FUNC_ACT n) 7 else s
  s3.each s3.flt.injected State.wireGood

/-- BUSY ends: the requested bits that took are 1 (R377, R378). -/
def State.fuseDone (s : State) (took : W32) : State :=
  match s.sec.fusing with
  | none => s
  | some (w, data) =>
    let new := s.fuse w ||| (data &&& took)
    let was := s.debugClosed
    let s1 := { s with
      sec := { s.sec with fusing := none }, store := { s.store with fuses := SMap.set (fun _ => 0) s.store.fuses w new } }
    let s2 := (s1.fset F.SEC_FUSE_STAT_BUSY 0).fset (if new &&& data = data then F.SEC_FUSE_STAT_DONE else F.SEC_FUSE_STAT_FAIL) 1
    if !was && s2.debugClosed then s2.closeDebug else s2

/-! ### The TAP (R387, R414) -/

/-- The TAP is out of reset and the device is powered. -/
def State.tapRuns (s : State) : Bool := !s.tap.trst && s.fget F.PWR_STAT_STATE != 4

/-- An instruction is loaded: `dr` is what the selected data register captures. -/
def State.tapLoad (s : State) (ir : TapInstr) (dr : Nat) (driven floating : Bool) : State :=
  if s.tapRuns then { s with tap := { s.tap with ir, dr, driven, floating } } else s

/-- What the endpoint's configuration space shows of the device (R357–R359): vendor, device, revision, class code, subsystem vendor,
subsystem, and the device serial number; the Interrupt Pin register, the capabilities and extended capabilities by ID, none of them
MSI or MSI-X, and the memory BARs, each with the binary logarithm of its size and whether it is prefetchable. The IDs of the fuses
are those latched at the release of reset (R378). -/
structure PciIdentity where
  vendor : Nat
  device : Nat
  revision : Nat
  classCode : Nat
  subsysVendor : Nat
  subsys : Nat
  serial : Nat
  interruptPin : Nat := 0
  /-- power management 0x01, PCI Express 0x10. The IDs are PRESUMED (log 129): the PCI Express standard's -/
  capabilities : List Nat := [0x01, 0x10]
  /-- Advanced Error Reporting 0x0001, Device Serial Number 0x0003 -/
  extended : List Nat := [0x0001, 0x0003]
  /-- BAR0 of 256 MiB, BAR2 of 1 GiB -/
  bars : List (Nat × Bool) := [(28, false), (30, true)]
  deriving DecidableEq, Repr

/-- Power states of the host link: L1 is entered only under R330; no L0s, L2 or L3 (R357). -/
inductive LinkPower where
  | down | l0 | l1
  deriving DecidableEq, Repr

/-- The host link: down in reset, in Off and until it has trained, in L1 in Sleep and Deep sleep (R330, R357, R400). -/
def State.linkPower (s : State) : LinkPower :=
  let st := s.fget F.PWR_STAT_STATE
  if s.inReset || st == 4 || s.reg R.HST_LINK == 0 then .down else if 2 ≤ st then .l1 else .l0

def State.pciIdentity (s : State) : PciIdentity where
  vendor := field s.sec.ids.1.toNat 0 16
  device := s.part.toNat
  revision := s.stepping.toNat
  classCode := 0x118000
  subsysVendor := field s.sec.ids.1.toNat 16 16
  subsys := field s.sec.ids.2.toNat 0 16
  serial := (s.fuse 47).toNat + 2 ^ 32 * (s.fuse 48).toNat

/-- IDCODE. -/
def State.idcodeWord (s : State) : Nat :=
  (if s.stepping = 0xB0 then 2 ^ 28 else 0) + s.part.toNat * 2 ^ 12 + field s.sec.ids.2.toNat 16 11 * 2 + 1

/-- The boundary register samples the pins. -/
def State.tapSample (s : State) (pins : List Bool) : State :=
  if s.tapRuns then { s with tap := { s.tap with capture := pins } } else s

/-- A private instruction resets the security unit: SK, the key of a cast and a request in progress are gone (R387; log 63). -/
def State.privateLoad (s : State) (ir : TapInstr) : State :=
  if !s.tapRuns then s
  else if s.debugClosed then s.tapLoad .bypass 0 false false
  else
    let s1 := { s.drawn with sec := { s.sec with sk := none, castKey := none, att := none } }
    ((s1.fset F.SEC_ATT_STAT_BUSY 0).fset F.SEC_STAT_DEBUG_SEEN 1).tapLoad ir 0 false false

def privateIr : PrivateInstr → TapInstr
  | .internalScan => .scan
  | .fabricDebug => .debug
  | .factoryTest => .factory

/-- The code of the TAP instruction register, of 8 bits (R414). BYPASS is all ones. PRESUMED (log 64): IEEE 1149.1. Codes that the spec
does not give are free values. -/
def tapCode : TapInstr → BitVec 8
  | .bypass => 0xFF
  | .boardId => 0x3A
  | .lifetime => 0x3B
  | .idcode => Config.tapCode 0
  | .samplePreload => Config.tapCode 1
  | .extest => Config.tapCode 2
  | .clamp => Config.tapCode 3
  | .highz => Config.tapCode 4
  | .scan => Config.tapCode 5
  | .debug => Config.tapCode 6
  | .factory => Config.tapCode 7

/-- The TAP instruction register. -/
def State.tapIr (s : State) : BitVec 8 := tapCode s.tap.ir

/-- BOARD_ID: a value with bit 32 is written while the device is in reset. -/
def State.boardIdNow (s : State) (shift : BitVec 33) : State :=
  let s1 := s.tapLoad .boardId s.store.boardId.toNat false false
  if s.tapRuns && shift.getLsbD 32 && s.inReset then { s1 with store := { s1.store with boardId := shift.setWidth 32 } } else s1

/-! ### Lifetime counters (R413) -/

/-- Index of the counter of a band of the hottest junction, in thousandths of a degree. -/
def lifeBand (t : Int) : Nat :=
  if t < 70000 then 4 else if t < 90000 then 5 else if t < 105000 then 6 else if t < 110000 then 7 else if t < 125000 then 8 else 9

/-- What the hourly write adds to the counters in their order; resets and power cycles wait for the start that follows them. -/
def State.lifeAdds (s : State) (t : Int) : List Nat :=
  [1, if s.inReset then 0 else s.store.resets, if s.inReset then 0 else s.store.cycles, s.store.safes] ++ (List.range 6).map fun k => if lifeBand t = k + 4 then 1 else 0

/-- The hourly write. -/
def State.lifeWrite (s : State) (t : Int) : State :=
  if s.fget F.PWR_STAT_STATE = 4 then s
  else
    let l := (s.store.lifetime.zip (s.lifeAdds t)).map fun p => satAdd 0xFFFFFFFF p.1 p.2
    { s with store := { s.store with
        lifetime := l, safes := 0
        resets := if s.inReset then s.store.resets else 0
        cycles := if s.inReset then s.store.cycles else 0 } }

/-! ### The meanings -/

def execAttestGo (s : State) : Host.Outcome State Fault Refusal := .next (s.hostCmd R.SEC_ATT_CTL 1 1 State.attestGo)
def execAttestDone (s : State) : Host.Outcome State Fault Refusal := .next s.attestDone
def execRbAdvance (i : BitVec 4) (s : State) : Host.Outcome State Fault Refusal :=
  .next (s.hostCmd R.SEC_RB_CTL 0x1F (i.setWidth 32 ||| 0x10) fun s => s.rbAdvance i.toNat)
def execFuseProgram (ctl : W32) (s : State) : Host.Outcome State Fault Refusal :=
  .next (s.hostCmd R.SEC_FUSE_CTL 0xFFFFFFFF ctl fun s => s.fuseProgram ctl)
def execFuseProgramDone (took : W32) (s : State) : Host.Outcome State Fault Refusal :=
  .next (s.watch [0, 1, 2] fun s => s.fuseDone took)

def execBypass (s : State) : Host.Outcome State Fault Refusal := .next (s.tapLoad .bypass 0 false false)
def execIdcode (s : State) : Host.Outcome State Fault Refusal := .next (s.tapLoad .idcode s.idcodeWord false false)

/-- The pins are sampled, and the value to drive is preloaded. -/
def execSamplePreload (pins preload : List Bool) (s : State) : Host.Outcome State Fault Refusal :=
  let s1 := (s.tapSample pins).tapLoad .samplePreload 0 false false
  .next (if s.tapRuns then { s1 with tap := { s1.tap with preload } } else s1)

/-- The pins are driven from the preloaded value and sampled. -/
def execExtest (pins : List Bool) (s : State) : Host.Outcome State Fault Refusal :=
  .next ((s.tapSample pins).tapLoad .extest 0 true false)
def execClamp (s : State) : Host.Outcome State Fault Refusal := .next (s.tapLoad .clamp 0 true false)
def execHighz (s : State) : Host.Outcome State Fault Refusal := .next (s.tapLoad .highz 0 false true)
def execPrivateInstruction (k : PrivateInstr) (s : State) : Host.Outcome State Fault Refusal :=
  .next (s.privateLoad (privateIr k))
def execBoardId (shift : BitVec 33) (s : State) : Host.Outcome State Fault Refusal := .next (s.boardIdNow shift)

/-- The register holds the counters, the first in bits [31:0] (R414). -/
def execLifetime (s : State) : Host.Outcome State Fault Refusal :=
  .next (s.tapLoad .lifetime (s.store.lifetime.foldr (fun c v => c + 2 ^ 32 * v) 0) false false)
def execLifetimeWrite (milliC : Int) (s : State) : Host.Outcome State Fault Refusal := .next (s.lifeWrite milliC)

/-- TRST_N resets the TAP, whose instruction is then IDCODE. PRESUMED (log 64): IEEE 1149.1. -/
def execTrstN (asserted : Bool) (s : State) : Host.Outcome State Fault Refusal :=
  .next (if asserted then { s with tap := { trst := true } } else { s with tap := { s.tap with trst := false } })

end Sys2Proof.Machine
end

