-- ==== Sys2Proof/Machine/HostIf.lean ====
section
/-! DEFINITION. The host interface (chapter 18): what every register reads and what a write of it does (R11–R13), and the DMA
engines. -/

namespace Sys2Proof.Machine

/-! ### DMA engines (R368–R371) -/

/-- The engine executes a descriptor: it owns one, or finishes one as it shuts down (R368, R371). -/
def State.dmaBusy (s : State) (e : Nat) : Bool :=
  s.bit (F.DMA_STAT_SHUTTING e) || s.fget (F.DMA_HEAD_INDEX e) != s.fget (F.DMA_TAIL_INDEX e)

/-- Host address of the completion word of the descriptor at HEAD. -/
def State.dmaCmpl (s : State) (e : Nat) : Nat := s.wget (W.DMA_RING_ADDR e) + 32 * s.fget (F.DMA_HEAD_INDEX e) + 0x18

def State.dmaRuns (s : State) (e : Nat) : Bool := s.bit (F.DMA_CTL_EN e) || s.bit (F.DMA_STAT_SHUTTING e)

/-- A stopped engine starts the ring again at index 0 (R371; DEDUCED, log 66). -/
def State.dmaStopped (s : State) (e : Nat) : State := (s.fset (F.DMA_STAT_SHUTTING e) 0).fset (F.DMA_HEAD_INDEX e) 0

def State.dmaEnable (s : State) (e : Nat) : State :=
  if s.bit (F.DMA_CTL_EN e) then s
  else if s.bit (F.DMA_STAT_SHUTTING e) then s.fset (F.DMA_STAT_PENDING_ENABLE e) 1
  else s.fset (F.DMA_CTL_EN e) 1

/-- EN = 0: the descriptor in progress finishes first; a held enable is withdrawn (R343, R371). -/
def State.dmaDisable (s : State) (e : Nat) : State :=
  let s0 := s.fset (F.DMA_STAT_PENDING_ENABLE e) 0
  if !s.bit (F.DMA_CTL_EN e) then s0
  else
    let s1 := s0.fset (F.DMA_CTL_EN e) 0
    if s1.dmaBusy e then
      { s1 with host := { s1.host with cmpl := SMap.put s1.host.cmpl e (s1.dmaCmpl e) } }.fset (F.DMA_STAT_SHUTTING e) 1
    else s1.dmaStopped e

/-- A write of DMA_TAIL_e. -/
def State.dmaTail (s : State) (e : Nat) (v : W32) : State :=
  let i := field v.toNat 0 16
  if 2 ^ s.fget (F.DMA_CTL_K e) ≤ i then s.fset (F.DMA_STAT_TAIL_BAD e) 1 else s.fset (F.DMA_TAIL_INDEX e) i

/-- A write of DMA_CTL_e; K counts while EN is 0. -/
def State.dmaCtl (s : State) (e : Nat) (v : W32) : State :=
  let k := field v.toNat 1 5
  let s1 := if !s.bit (F.DMA_CTL_EN e) && 1 ≤ k && k ≤ 16 then s.fset (F.DMA_CTL_K e) k else s
  if v.getLsbD 0 then s1.dmaEnable e else s1.dmaDisable e

/-- What a device address is to an engine's read as master 0x00: granted, waiting in a bank that the host is to own, or
refused (R117, R135, R136, R139). -/
def State.dmaAnswer (s : State) (a : Nat) : BankAnswer :=
  if s.inScratch a then
    if s.domainOn (10 + bankOf a / 32) then s.bankAnswer (bankOf a) 0 else .refused
  else if s.domainOn (12 + stackOf a) && s.dramAllows 0 a false then .granted else .refused

/-- The source range lies in DRAM or in one scratch bank (R369). -/
def State.dmaInside (s : State) (a n : Nat) : Bool :=
  (s.inDram a && s.inDram (a + n - 1)) || (s.inScratch a && s.inScratch (a + n - 1) && bankOf a == bankOf (a + n - 1))

def dmaTag (desc : Bytes) : Nat := num desc 0x14 2
def dmaLen (desc : Bytes) : Nat := num desc 0x10 4

/-- A descriptor that R370 calls FORMAT. -/
def State.dmaFormat (s : State) (desc : Bytes) : Bool :=
  num desc 0 8 % 64 != 0 || num desc 8 8 % 64 != 0 || dmaLen desc % 64 != 0 || dmaLen desc == 0 || num desc 0x16 2 != 0
    || !s.dmaInside (num desc 0 8) (dmaLen desc)

/-- The 64-byte parts of a descriptor's source. -/
def dmaParts (desc : Bytes) : List Nat := (List.range (dmaLen desc / 64)).map fun i => num desc 0 8 + 64 * i

/-- STATUS of a read at a part of the range: the domain is gated, the access is refused, or data (R109). -/
def State.dmaStatus (s : State) (a : Nat) : Nat :=
  if !s.domainOn (s.addrDomain a) then 1 else if s.dmaAnswer a == .refused then 2 else 0

/-- The reads of a range, by runs of parts with one answer. Refused reads are counted where they were refused (R117, R136, R139). -/
def State.dmaReads (s : State) : Nat → List Nat → State
  | n + 1, a :: l =>
    let st := s.dmaStatus a
    let run := a :: l.takeWhile fun b => s.dmaStatus b == st
    (s.readLines 0 (fun s => if st = 0 then s else s.memRefused 0 a accRead) st run.length (run.map fun b => (b, 64))).dmaReads n
      (l.drop (run.length - 1))
  | _, _ => s

/-- Bytes written to host memory. -/
def State.hostBytes (s : State) (a : Nat) (bs : Bytes) : State :=
  let mem := (bs.zipIdx).foldl (fun m p => SMap.put m ((a + p.2) % 2 ^ 64) p.1) s.host.mem
  { s with host := { s.host with mem } }

/-- The completion word of R370. -/
def dmaWord (code tag bytes : Nat) : Nat := 1 + code * 2 + tag * 2 ^ 16 + bytes * 2 ^ 32

/-- The completion is written and HEAD advances; an engine that shuts down stops here. -/
def State.dmaComplete (s : State) (e code tag bytes : Nat) : State :=
  let h := s.fget (F.DMA_HEAD_INDEX e)
  let at_ := if s.bit (F.DMA_STAT_SHUTTING e) then (SMap.find s.host.cmpl e).getD (s.dmaCmpl e) else s.dmaCmpl e
  let s1 := s.hostBytes at_ (leBytes 8 (dmaWord code tag bytes))
  let s2 := s1.fset (F.DMA_HEAD_INDEX e) ((h + 1) % 2 ^ s1.fget (F.DMA_CTL_K e))
  let s3 := if code = 0 then s2 else s2.fset (F.DMA_STAT_ERR e) 1
  if !s3.bit (F.DMA_STAT_SHUTTING e) then s3
  else
    let s4 := s3.dmaStopped e
    if s4.bit (F.DMA_STAT_PENDING_ENABLE e) then (s4.fset (F.DMA_STAT_PENDING_ENABLE e) 0).fset (F.DMA_CTL_EN e) 1 else s4

/-- The descriptor that the engine executes is done (R370). A read that waits in a pending bank has no answer yet. -/
def State.dmaDone (s : State) (e : Nat) (desc : Bytes) : State :=
  if s.hostAway || s.asleep || !s.dmaRuns e || !s.dmaBusy e || desc.length != 32 then s
  else if s.dmaFormat desc then s.dmaComplete e 2 (dmaTag desc) 0
  else
    let parts := dmaParts desc
    let refused := parts.filter fun a => s.dmaAnswer a == .refused
    if parts.any fun a => s.dmaAnswer a == .waits then s
    else
      let data := parts.flatMap fun a => if s.dmaAnswer a == .granted then s.rdBytes a 64 else List.replicate 64 0
      let s1 := (s.dmaReads parts.length parts).hostBytes (num desc 8 8) data
      s1.dmaComplete e (if refused.isEmpty then 0 else 1) (dmaTag desc) (dmaLen desc)

/-! ### Registers whose value is made at the read -/

/-- Instance of a register: `a` is `base` plus a multiple of `stride`, among `n`. -/
def inst (a base stride n : Nat) : Option Nat :=
  if base ≤ a ∧ (a - base) % stride = 0 ∧ (a - base) / stride < n then some ((a - base) / stride) else none

/-- A field shown in a word. -/
def Fld.put (f : Fld) (x : Nat) (v : W32) : W32 := f.write v x

/-- Word `i` of a byte list. -/
def wordAt (b : Bytes) (i : Nat) : W32 := BitVec.ofNat 32 (num b (4 * i) 4)

/-- 32 conditions as a word. -/
def bitsWord (f : Nat → Bool) : W32 :=
  BitVec.ofNat 32 ((List.range 32).foldl (fun v b => v + (f b).toNat * 2 ^ b) 0)

def State.liveHst (s : State) (a : Nat) : W32 :=
  if a = R.HST_ID then s.part ++ s.stepping ++ (0 : BitVec 8)
  else if a = R.HST_POLL then s.pollWord
  else match inst a (R.HST_CAPDONE 0) 4 32 with
  | some i => bitsWord fun b => s.capDone (32 * i + b)
  | none => match inst a (R.DMA_HEAD 0) 0x40 16 with
    | some e => if s.bit (F.DMA_CTL_EN e) then s.reg a else 0
    | none => match inst a (R.DMA_STAT 0) 0x40 16 with
      | some e => (F.DMA_STAT_BUSY e).put (s.dmaRuns e && s.dmaBusy e && !s.asleep).toNat (s.reg a)
      | none => s.reg a

def State.liveFlt (s : State) (a : Nat) : W32 :=
  if a = R.FLT_STAT then F.FLT_STAT_INJ_EN.put s.factoryMode.toNat (s.reg a)
  else if a = R.FLT_INJ then (if s.debugClosed then 0 else s.reg a)
  else match inst a (R.FLT_CLASS 0) 4 5120 with
  | some c =>
    if codeKnown c then
      (F.FLT_CLASS_IMAGE c).put (s.imageClass c) ((F.FLT_CLASS_EFF c).put (s.effClass c) (s.reg a))
    else 0
  | none => s.reg a

def State.liveTime (s : State) (a : Nat) : W32 :=
  match inst a R.TIME_NOW 4 3 with
  | some i => BitVec.ofNat 32 (timeBits s.time.now / 2 ^ (32 * i))
  | none => s.reg a

def State.liveSec (s : State) (a : Nat) : W32 :=
  if a = R.SEC_STAT then
    F.SEC_STAT_DEBUG_CLOSED.put s.debugClosed.toNat
      (F.SEC_STAT_FACTORY_DONE.put s.factoryDone.toNat (F.SEC_STAT_SESSION.put s.sec.sk.isSome.toNat (s.reg a)))
  else if a = R.SEC_CERT_LEN then BitVec.ofNat 32 s.store.cert.length
  else match inst a (R.SEC_FUSE 0) 4 128 with
  | some w => if w < 12 then 0 else s.fuse w
  | none => match inst a (R.SEC_ID_PUB 0) 4 16 with
    | some i => wordAt s.store.idPub i
    | none => match inst a (R.SEC_CERT 0) 4 512 with
      | some i => wordAt s.store.cert i
      | none => s.reg a

/-- CFG_PART_REGION shows the isolated region while there is one, else what stands for HOLD (R295). -/
def State.liveCfg (s : State) (a : Nat) : W32 :=
  if !s.recon.isolated then s.reg a
  else if a = R.CFG_PART_CORDS then s.recon.cords.setWidth 32
  else if a = R.CFG_PART_EDGE then s.recon.rows.setWidth 32
  else if a = R.CFG_PART_EDGE + 4 then (s.recon.rows >>> 32).setWidth 32
  else s.reg a

def State.liveTurn (s : State) (a : Nat) : W32 :=
  if a = R.TURN_STAT then
    F.TURN_STAT_RUNNING.put (!s.coreIdle).toNat (F.TURN_STAT_HELD.put s.turnHold.toNat (s.reg a))
  else s.reg a

def State.liveCord (s : State) (a : Nat) : W32 :=
  match inst a (R.CRD_STAT 0) 0x20000 128 with
  | some c =>
    (F.CRD_STAT_HALTED c).put (s.fget F.TURN_STAT_HALTED)
      ((F.CRD_STAT_UE_PRESENT c).put (s.fget (F.CRD_UE_LOC_VALID c)) (s.reg a))
  | none =>
    let c := (a - R.CRD_STAT 0) / 0x20000
    let o := (a - R.CRD_STAT 0) % 0x20000
    if 0xC000 ≤ o ∧ o < 0xC100 ∧ 0x20 ≤ o % 0x40 ∧ o % 0x40 < 0x30 then
      BitVec.ofNat 32 ((s.port (portKey c ((o - 0xC000) / 0x40))).rdata.toNat / 2 ^ (8 * (o % 0x40 - 0x20)))
    else s.reg a

/-- Any station that is closed (R121). -/
def State.anyClosed (s : State) : Bool := (List.range 0xA0).any fun n => s.bit (stnClosed n)

/-- STN_STAT of station `n` shows ASLEEP (R117, R121). -/
def State.liveStn (s : State) (n a : Nat) : W32 :=
  if a = (stnAsleep n).addr then (stnAsleep n).put (s.stnSleeps n).toNat (s.reg a) else s.reg a

/-- An eye map byte (R204). -/
def State.eyeByte (s : State) (n o : Nat) : Nat := SMap.get (fun _ => 0xFF) (s.lane n).eye o

/-- The current value of the register word at `a` (R11). -/
def State.live (s : State) (a : Nat) : W32 :=
  if a < 0x10000 then s.liveHst a
  else if a < 0x20000 then s.liveFlt a
  else if a < 0x30000 then
    match inst a (R.PWR_DOM 0) 4 86 with
    | some d =>
      if s.domainHere d then (F.PWR_DOM_GATEABLE d).put (s.gateable d).toNat ((F.PWR_DOM_ON d).put (s.domainOn d).toNat (s.reg a))
      else 0
    | none => s.reg a
  else if a < 0x40000 then s.liveTime a
  else if a < 0x50000 then
    match inst a (R.PIN_IN 0) 4 6 with
    | some b => bitsWord fun k => SMap.get (fun _ => false) s.pinIn (32 * b + k)
    | none => s.reg a
  else if a < 0x60000 then s.liveCfg a
  else if a < 0x70000 then s.liveSec a
  else if a = R.SPL_STAT then
    F.SPL_STAT_LINK_UP.put s.linkAligned.toNat (F.SPL_STAT_PARTNER_PINS.put s.partnerPins (s.reg a))
  else if a = R.TRC_CTL then (if s.debugClosed then F.TRC_CTL_PORT_EN.put 0 (s.reg a) else s.reg a)
  else if a = R.TRC_STAT then F.TRC_STAT_PORT_CLOSED.put s.debugClosed.toNat (s.reg a)
  else if a = R.NOC_STAT then F.NOC_STAT_CLOSED.put s.closed.toNat (F.NOC_STAT_RECONF.put s.anyClosed.toNat (s.reg a))
  else if 0x100000 ≤ a ∧ a < 0x110000 then s.liveTurn a
  else if (stationBlock a).isSome then s.liveStn ((stationBlock a).getD 0) a
  else if 0x01000000 ≤ a ∧ a < 0x02000000 then s.liveCord a
  else if 0x02000000 ≤ a ∧ a < 0x02840000 ∧ (a - 0x02000000) % 0x2000 / 0x1000 = 1 then
    let o := (a - 0x02000000) % 0x1000
    BitVec.ofNat 32 ((List.range 4).foldl (fun v k => v + s.eyeByte ((a - 0x02000000) / 0x2000) (o + k) * 256 ^ k) 0)
  else s.reg a

/-! ### Inspection windows (R49, R50) -/

/-- A window read by the offset in the cord block: the lowest address of the value and its number of words; none outside the
windows. DMP_RDATA follows the same rule. -/
def windowGroup (o : Nat) : Option (Nat × Nat) :=
  if 0x1000 ≤ o ∧ o < 0x3000 then some (o, 1)
  else if 0x4000 ≤ o ∧ o < 0x8000 then some (o / 16 * 16, 4)
  else if 0x8000 ≤ o ∧ o < 0x8800 then some (o / 128 * 128, 32)
  else if 0xA000 ≤ o ∧ o < 0xC000 then some (o, 1)
  else if 0x10000 ≤ o then some (o / 8 * 8, 2)
  else if 0xC000 ≤ o ∧ o < 0xC100 ∧ 0x20 ≤ o % 0x40 ∧ o % 0x40 < 0x30 then some (o / 16 * 16, 4)
  else none

/-- Bits of an inbox as a window word shows them. -/
def inboxWord (x : Strand) : W32 := bitsWord fun m => (x.latch m).val

/-- The word of a window at offset `o` of cord `c`. -/
def State.windowWord (s : State) (c o : Nat) : W32 :=
  let ply := s.fget (F.CRD_WIN_SEL_PLY c)
  let blk := s.fget (F.CRD_WIN_SEL_STEP_BLK c)
  let g := fun (n : Nat) => c * 1024 + n
  let closed := s.image.encrypted
  if o < 0x2000 then inboxWord (s.strand (g ((o - 0x1000) / 4)))
  else if o < 0x3000 then (s.strand (g ((o - 0x2000) / 4))).snap
  else if o < 0x8000 then
    BitVec.ofNat 32 ((s.strand (g ((o - 0x4000) / 16))).hist.toNat / 2 ^ (32 * (o % 16 / 4)))
  else if o < 0x8800 then
    BitVec.ofNat 32 ((s.strand (g (ply * 16 + (o - 0x8000) / 128))).store.toNat / 2 ^ (32 * (o % 128 / 4)))
  else if o < 0xC000 then
    if closed then 0
    else BitVec.ofNat 32 ((List.range 4).foldl (fun v k =>
      let i := o - 0xA000 + k
      v + (wordCheck (s.instrWord (g (ply * 16 + i % 16)) (512 * blk + i / 16))).toNat * 256 ^ k) 0)
  else if o < 0xD000 then s.live (R.CRD_STAT c + o)
  else if closed then 0
  else
    let i := (o - 0x10000) / 8
    BitVec.ofNat 32 ((wordData (s.instrWord (g (ply * 16 + i % 16)) (512 * blk + i / 16))).toNat / 2 ^ (32 * (o % 8 / 4)))

/-! ### Reads (R11) -/

/-- The register word that holds address `a`, as a value of `n` words from `base` (R11), windows included. -/
def groupAt (a : Nat) : Nat × Nat :=
  let plain := match RegMap.find a with
    | some h => (a - 4 * h.word, h.reg.words.length)
    | none => (a, 1)
  if 0x01000000 ≤ a ∧ a < 0x02000000 then
    match windowGroup ((a - 0x01000000) % 0x20000) with
    | some (o, n) => ((a - 0x01000000) / 0x20000 * 0x20000 + 0x01000000 + o, n)
    | none => plain
  else plain

/-- The value that a read of the word at `a` belongs to: the first-error record is read as one value of ten words (R329). -/
def readGroup (a : Nat) : Nat × Nat :=
  if R.FLT_FER ≤ a ∧ a < R.FLT_FER + 40 then (R.FLT_FER, 10) else groupAt a

/-- The cord and offset of a window address. -/
def windowAt (a : Nat) : Option (Nat × Nat) :=
  if 0x01000000 ≤ a ∧ a < 0x02000000 then
    let o := (a - 0x01000000) % 0x20000
    if (windowGroup o).isSome then some ((a - 0x01000000) / 0x20000, o) else none
  else none

/-- The current value of the word at `a`; windows show their contents while the core is halted (R50). -/
def State.current (s : State) (a : Nat) : W32 :=
  match windowAt a with
  | some (c, o) => if s.bit F.TURN_STAT_HALTED then s.windowWord c o else 0
  | none => s.live a

/-- RC fields of the word at `a` clear (R12). -/
def State.clearRc (s : State) (a : Nat) : State :=
  let m := (RegMap.desc a).rc
  if m = 0 then s else s.setReg a (s.reg a &&& ~~~BitVec.ofNat 32 m)

/-- The answer of a register read. -/
def State.answer (s : State) (v : W32) : State := { s with host := { s.host with data := v, status := 0 } }

/-- A read of the lowest word: the upper words are captured, and the read side effects of the whole value apply (R11). After a read
of ACT_STAT, PEAK starts at what is in flight (R267). -/
def State.readLow (s : State) (a n : Nat) : State :=
  let snap := (List.range (n - 1)).foldl (fun m i => SMap.put m (a + 4 * (i + 1)) (s.current (a + 4 * (i + 1)))) s.snap
  let s1 := { s with snap }.answer (s.current a)
  let s2 := s1.each (List.range n) fun s i => s.clearRc (a + 4 * i)
  if a = R.TIME_PPS_CAP then { s2 with time := { s2.time with ppsNew := false } }
  else if a = R.ACT_STAT then s2.fset F.ACT_STAT_PEAK (s2.fget F.ACT_STAT_INFLIGHT)
  else s2

/-- A read of an upper word: the snapshot, or without one the current value (R11). -/
def State.readHigh (s : State) (a : Nat) : State :=
  s.answer (match SMap.find s.snap a with
    | some v => v
    | none => s.current a)

/-- A whole read of the register word at `a`; the answer stands in `host`. -/
def State.readReg (s : State) (a : Nat) : State :=
  let (base, n) := readGroup a
  match inst a (R.TXQ_ENT 0) 0x20 64 with
  | some k => s.txqPop k
  | none => match inst a (R.G32_BW 0) 0x80 8 with
    | some i => s.bwRead i
    | none => match windowAt a with
      | some (c, _) =>
        if s.bit F.TURN_STAT_HALTED then (if a = base then s.readLow a n else s.readHigh a)
        else (s.answer 0).fset (F.CRD_STAT_WIN_REFUSED c) 1
      | none => if a = base then s.readLow a n else s.readHigh a

/-- A read narrower than a word: the addressed bytes of the current value, with no side effect (R11). -/
def State.readNarrow (s : State) (a bytes : Nat) : State :=
  s.answer (BitVec.ofNat 32 ((s.current (a / 4 * 4)).toNat / 256 ^ (a % 4) % 256 ^ (min bytes (4 - a % 4))))

/-! ### Writes (R11, R12) -/

/-- The register word at `a` takes `v` in its RW and RWL fields, and W1C bits written 1 clear. -/
def State.plainWord (s : State) (a : Nat) (v : W32) : State :=
  let d := RegMap.desc a
  let m := BitVec.ofNat 32 (d.rw ||| d.rwl)
  s.setReg a (((s.reg a &&& ~~~m) ||| (v &&& m)) &&& ~~~(v &&& BitVec.ofNat 32 d.w1c))

/-- Every word of a value, lowest first. -/
def State.plain (s : State) (a : Nat) : List W32 → State
  | [] => s
  | v :: vs => (s.plainWord a v).plain (a + 4) vs

/-- The word of a value of one word. -/
def top (vs : List W32) : W32 := vs.getLastD 0

def State.writeHst (s : State) (a : Nat) (vs : List W32) : State :=
  match inst a (R.DMA_CTL 0) 0x40 16 with
  | some e => s.dmaCtl e (top vs)
  | none => match inst a (R.DMA_TAIL 0) 0x40 16 with
    | some e => s.dmaTail e (top vs)
    | none => match inst a (R.DMA_RING 0) 0x40 16 with
      | some e => if s.bit (F.DMA_CTL_EN e) then s else s.plain a vs
      | none => s.plain a vs

def State.writeFlt (s : State) (a : Nat) (vs : List W32) : State :=
  let v := top vs
  if a = R.FLT_CTL then (s.when (v.getLsbD 0) State.stopGrace).when (v.getLsbD 1) State.releaseWrite
  else if a = R.FLT_GRACE then
    if 10 ≤ field v.toNat 0 24 ∧ field v.toNat 0 24 ≤ 10000000 then s.plain a vs else s
  else if a = R.FLT_INJ then
    if s.debugClosed then s
    else ((s.plain a vs).when (v.getLsbD 26) State.injectGo).when (v.getLsbD 27) State.injectWire
  else match inst a (R.FLT_CLASS 0) 4 5120 with
  | some c => if codeKnown c then s.plain a vs else s
  | none => s.plain a vs

def State.writePwr (s : State) (a : Nat) (vs : List W32) : State :=
  let v := top vs
  if a = R.PWR_CTL then
    if v.getLsbD 3 then (s.plain a vs).hostGo (field v.toNat 0 3) else (s.plain a vs).wakeAwake 3
  else if a = R.PWR_PAT then
    if 1000 ≤ field v.toNat 10 14 ∧ field v.toNat 10 14 ≤ 10000 then s.plain a vs else s
  else match inst a (R.PWR_DOM 0) 4 86 with
  | some d => if v.getLsbD 0 then s.domainEnable d else s.domainGate d
  | none => s.plain a vs

/-- Settings of a channel that its state holds fixed (R249). -/
def State.capHeld (s : State) (n : Nat) : Bool :=
  s.capState n == capArmed || s.capState n == capPost || s.capState n == capStopping

/-- A value of several words whose writes are discarded now, its lower words with it: TIME_TOD and TIME_PHASE (R213, R300), START and
PERIOD of a function that is enabled (R223), a ring in use (R368), the trace unit's selections (R348), a capture ring in use (R249). -/
def State.discards (s : State) (base : Nat) : Bool :=
  (base == R.TIME_TOD && (s.standby || s.bit F.TIME_STAT_TOD_ARMED)) || (base == R.TIME_PHASE && s.standby)
    || (decide (R.TOUT_CTL 0 < base) && decide (base < R.TOUT_CTL 16) && s.bit (F.TOUT_CTL_EN ((base - R.TOUT_CTL 0) / 0x20)))
    || (match inst base (R.DMA_RING 0) 0x40 16 with | some e => s.bit (F.DMA_CTL_EN e) | none => false)
    || (decide (R.TRC_START_SEL ≤ base) && decide (base < 0x90000) && s.bit F.TRC_CTL_EN)
    || (match inst base (R.CAP_BASE 0) 0x40 1024 with | some n => s.capHeld n | none => false)

/-- TIME_CTL: TOD_CANCEL wins over TOD_ARM (R213). -/
def State.timeCtl (s : State) (v : W32) : State :=
  let s1 := s.plainWord R.TIME_CTL v
  let s2 := if v.getLsbD 4 then s1.todCancel else s1.when (v.getLsbD 3) State.todArm
  s2.when (v.getLsbD 5) State.phaseGo

def State.toutCtl (s : State) (n : Nat) (v : W32) : State :=
  let en := s.bit (F.TOUT_CTL_EN n)
  let s1 := (s.plainWord (R.TOUT_CTL n) v).setBit (F.TOUT_CTL_EN n) en
  if v.getLsbD 0 then s1.toutEnable n else s1.toutDisable n

/-- Writes of the time unit; a STANDBY discards those of R300. -/
def State.writeTime (s : State) (a : Nat) (vs : List W32) : State :=
  if a = R.TIME_CTL then s.timeCtl (top vs)
  else if a = R.TIME_FREQ then s.writeFreq (top vs)
  else match inst a (R.TOUT_CTL 0) 0x20 16 with
  | some n => s.toutCtl n (top vs)
  | none =>
    if R.TOUT_CTL 0 ≤ a ∧ a < R.TOUT_CTL 16 ∧ s.bit (F.TOUT_CTL_EN ((a - R.TOUT_CTL 0) / 0x20)) then s else s.plain a vs

def State.writePin (s : State) (a : Nat) (vs : List W32) : State :=
  if a = R.PIN_LOCK then s.pinLock (top vs)
  else match inst a (R.PIN_CFG 0) 4 192 with
  | some n => s.pinCfg n (top vs)
  | none => match inst a (R.PIN_SW_OE 0) 4 6 with
    | some b => s.pinEnable b (top vs)
    | none => s.plain a vs

def State.writeCfg (s : State) (a : Nat) (vs : List W32) : State :=
  let v := top vs
  let s1 := s.plain a vs
  if a = R.CFG_CTL then s1.when (v.getLsbD 0) fun s => s.cfgLoad (field v.toNat 8 6)
  else if a = R.CFG_PART_CTL then (s1.when (v.getLsbD 0) State.partGo).when (v.getLsbD 1) State.partHold
  else if a = R.CFG_NVM_CTL then s1.when (v.getLsbD 4) fun s => s.nvmGo (field v.toNat 2 2)
  else s1

def State.writeSec (s : State) (a : Nat) (vs : List W32) : State :=
  let v := top vs
  if a = R.SEC_ATT_CTL then s.when (v.getLsbD 0) State.attestGo
  else if a = R.SEC_RB_CTL then (s.plain a vs).when (v.getLsbD 4) fun s => s.rbAdvance (field v.toNat 0 4)
  else if a = R.SEC_FUSE_CTL then s.fuseProgram v
  else s.plain a vs

/-- SPL_CTL: a LINK_EN that does not change the request has no further effect. -/
def State.writeSpl (s : State) (a : Nat) (vs : List W32) : State :=
  let v := top vs
  if a = R.SPL_CTL then
    let s1 := s.setBit F.SPL_CTL_DIV_POLICY (v.getLsbD 1)
    let s2 := if v.getLsbD 2 && s1.bit F.SPL_CTL_LINK_EN then s1 else s1.linkEn (v.getLsbD 2)
    s2.when (v.getLsbD 0) State.relinquish
  else s.plain a vs

/-- TRC_CTL: the other settings first, then EN and FLUSH. -/
def State.traceCtl (s : State) (v : W32) : State :=
  let en := s.bit F.TRC_CTL_EN
  let s1 := (s.plainWord R.TRC_CTL (if s.debugClosed then v &&& ~~~0x80 else v)).setBit F.TRC_CTL_EN en
  let s2 := if v.getLsbD 0 then s1.traceEnable else s1.traceDisable
  s2.when (v.getLsbD 1 && !s2.bit F.TRC_STAT_SHUTTING) State.traceFlush

/-- Writes of the trace unit: selections, comparators, ranges, masters and cords stand while EN is 1 (R348). -/
def State.writeTrc (s : State) (a : Nat) (vs : List W32) : State :=
  if a = R.TRC_CTL then s.traceCtl (top vs)
  else if R.TRC_START_SEL ≤ a ∧ s.bit F.TRC_CTL_EN then s
  else s.plain a vs

/-- TURN_CTL: of several actions in one write, HALT acts first and the others in the order of their bits; the rule gives no order.
DESIGN CHOICE (log 114). -/
def State.writeTurn (s : State) (a : Nat) (vs : List W32) : State :=
  let v := top vs
  if a = R.TURN_CTL then
    let s1 := ((s.plain a vs).haltNow (v.getLsbD 0)).when (v.getLsbD 1) State.stepNow
    let s2 := (s1.when (v.getLsbD 3) State.relockNow).when (v.getLsbD 4) State.realignNow
    s2.when (v.getLsbD 5) fun s => s.fset F.TURN_SLACK_MIN_MIN 0x1FFF
  else s.plain a vs

def State.laneCtl (s : State) (n : Nat) (v : W32) : State :=
  if !s.laneOn n then s
  else
    let s1 := if n < 1024 then s.fset (F.LANE_CTL_TX_SRC n) (field v.toNat 1 2) else s
    let s2 := (s1.setBit (F.LANE_CTL_NE_LPBK n) (v.getLsbD 3)).setBit (F.LANE_CTL_FE_LPBK n) (v.getLsbD 4)
    if v.getLsbD 0 then s2.laneEnable n else s2.laneDisable n

/-- New pinned values of a kind are applied where the kind is pinned (R200). -/
def State.calPinned (s : State) (n : Nat) (thr : Bool) (vs : List W32) : State :=
  let t := s.plain (if thr then R.LANE_CAL_THR n else R.LANE_CAL_OFS n) vs
  let moved := calAll.filter fun c =>
    calIsThr c == thr && s.calPinOn n c && s.sget (Sys2Proof.Machine.calPinned n c) != t.sget (Sys2Proof.Machine.calPinned n c)
  (t.each moved fun s c => s.calChange n { sel := c, new := s.sget (Sys2Proof.Machine.calPinned n c), src := 2 }).calConflict n

def State.writeLane (s : State) (a : Nat) (vs : List W32) : State :=
  let n := (a - 0x02000000) / 0x2000
  let o := (a - 0x02000000) % 0x2000
  let v := top vs
  if o = 0x08 then s.laneCtl n v
  else if o = 0x10 then
    let s1 := (s.plain a vs).when (v.getLsbD 9) fun s => s.chkClear n
    if s1.fget (F.LANE_PRBS_CHK_POLY n) = 0 then s1.fset (F.LANE_PRBS_CHK_LOCK n) 0 else s1
  else if o = 0x60 then s.calPin n (v.setWidth 2)
  else if o = 0x64 then s.calPinned n false vs
  else if o = 0x68 then s.calPinned n true vs
  else if o = 0x7C then (s.plain a vs).calConflict n
  else if o = 0xA0 then ((s.plain a vs).when (v.getLsbD 0) fun s => s.scanStart n).when (v.getLsbD 1) fun s => s.scanAbort n
  else s.plain a vs

/-- TRG_SEQ_CTL: EN = 0 and STOP stop the sequencer; START needs EN (R242). -/
def State.seqCtl (s : State) (n : Nat) (v : W32) : State :=
  let s1 := s.setBit (F.TRG_SEQ_CTL_EN n) (v.getLsbD 0)
  if !v.getLsbD 0 || v.getLsbD 2 then s1.seqStop n else s1.when (v.getLsbD 1) fun s => s.seqStart n

def State.writeCap (s : State) (a : Nat) (vs : List W32) : State :=
  let n := (a - R.CAP_CFG 0) / 0x40
  let o := (a - R.CAP_CFG 0) % 0x40
  let v := top vs
  if o = 4 then s.capCommand n (v.getLsbD 0) (v.getLsbD 1) (v.getLsbD 2)
  else if (o = 0 ∨ o = 0x0C ∨ o = 0x14 ∨ o = 0x18) ∧ s.capHeld n then s
  else s.plain a vs

/-- Writes of the trigger engine. On the AY4060 a lane aggregate of P1's lanes is discarded (R249). -/
def State.writeTrg (s : State) (a : Nat) (vs : List W32) : State :=
  let v := top vs
  if a = R.TRG_CTL then s.when (v.getLsbD 0) fun s => s.thaw
  else if decide (R.TRG_LAGG 0 ≤ a) && decide (a < R.TRG_LAGG 32) && !s.big && (v.getLsbD 9 || v.getLsbD 19) then s
  else if a = R.TRG_SOFT then s.soft (field v.toNat 0 8)
  else match inst a (R.CAP_SET 0) 4 16 with
  | some k => s.each (s.capSet k) fun s n => s.capCommand n (v.getLsbD 0) (v.getLsbD 1) (v.getLsbD 2)
  | none => match inst a (R.TRG_SEQ_CTL 0) 0x200 8 with
    | some n => s.seqCtl n v
    | none => match inst a (R.TRG_CNT_CFG 0) 0x10 64 with
      | some c => (s.plain a vs).when (v.getLsbD 10) fun s => s.cntReset c
      | none => if R.CAP_CFG 0 ≤ a ∧ a < R.CAP_CFG 1024 then s.writeCap a vs else s.plain a vs

/-- PAT_CTL: a new SRC, then EN, then GO. -/
def State.patCtl (s : State) (n : Nat) (v : W32) : State :=
  let src := field v.toNat 1 2
  let s1 := if s.fget (F.PAT_CTL_SRC n) = src then s else s.patSource n src
  let s2 := if v.getLsbD 0 then s1.patEnable n else s1.patDisable n
  s2.when (v.getLsbD 3) fun s => s.patGo n

def State.writeAct (s : State) (a : Nat) (vs : List W32) : State :=
  match inst a (R.ACT_FL_SET 0) 0x20 4096 with
  | some f => s.setFlags f (top vs)
  | none => match inst a (R.ACT_DL_CFG 0) 0x10 4 with
    | some d =>
      let ns := field (top vs).toNat 0 20
      if s.delays d = [] ∧ 64 ≤ ns ∧ ns ≤ 1000000 then s.plain a vs else s
    | none => s.plain a vs

/-- A value written whole to the register at `a` by a master. -/
def State.writeValue (s : State) (master : MasterId) (a : Nat) (vs : List W32) : State :=
  if a < 0x10000 then s.writeHst a vs
  else if a < 0x20000 then s.writeFlt a vs
  else if a < 0x30000 then s.writePwr a vs
  else if a < 0x40000 then s.writeTime a vs
  else if a < 0x50000 then s.writePin a vs
  else if a < 0x60000 then s.writeCfg a vs
  else if a < 0x70000 then s.writeSec a vs
  else if a < 0x80000 then s.writeSpl a vs
  else if a < 0x90000 then s.writeTrc a vs
  else if a < 0x100000 then
    match inst a (R.NOC_PRB_CTL 0) 0x40 64 with
    | some n => (s.plain a vs).when ((top vs).getLsbD 1) fun s => s.clearProbe n
    | none => s.plain a vs
  else if a < 0x1000000 then s.writeTurn a vs
  else if a < 0x2000000 then s.plain a vs
  else if a < 0x3000000 then s.writeLane a vs
  else if a < 0x3100000 then s.writeTrg a vs
  else if a < 0x3200000 then
    match inst a (R.PAT_CTL 0) 0x40 1024 with
    | some n => s.patCtl n (top vs)
    | none => s.plain a vs
  else if a < 0x3300000 then s.writeAct a vs
  else if a < 0x3400000 then
    match inst a (R.BNK_OWN 0) 0x10 64 with
    | some b => s.requestBank b master ((top vs).setWidth 8) ((top vs).getLsbD 8)
    | none => s.plain a vs
  else match inst a (R.EDG_IOC 0) 4 192 with
  | some n => if s.pinLocked n then s else s.plain a vs
  | none => s.plain a vs

/-- A lower word of a value as the write of its highest word takes it: staged, or its RW and RWL fields as they stand, with no
action for the others (R11). -/
def State.lowerWord (s : State) (a : Nat) : W32 :=
  match SMap.find s.staged a with
  | some v => v
  | none => s.reg a &&& BitVec.ofNat 32 ((RegMap.desc a).rw ||| (RegMap.desc a).rwl)

/-- Any word of the value has a writable field. -/
def groupWritable (a n : Nat) : Bool :=
  (List.range n).any fun i =>
    let d := RegMap.desc (a + 4 * i)
    d.rw ||| d.rwl ||| d.w1c ||| d.wo != 0

/-- A whole write of the register word at `a`: a lower word is staged, the highest makes the value take effect (R11). -/
def State.writeReg (s : State) (master : MasterId) (a : Nat) (v : W32) : State :=
  let (base, n) := groupAt a
  if !groupWritable base n || (decide (1 < n) && s.discards base) then s
  else if a = R.ACT_HPOST_ITEM + 12 then s.hostPost v
  else if a + 4 < base + 4 * n then { s with staged := SMap.put s.staged a v }
  else
    let lower := (List.range (n - 1)).map fun i => s.lowerWord (base + 4 * i)
    { s with staged := SMap.drop s.staged base (base + 4 * n) }.writeValue master base (lower ++ [v])

/-! ### Requests to registers -/

/-- Reads of the HST_ and PWR_ blocks are served in every state in which the device answers, and wake nothing (R335, R341). -/
def alwaysServed (a : Nat) : Bool := a < 0x10000 || (0x20000 ≤ a && a < 0x30000)

/-- A register access of the host or the boot sequencer covers a whole word (R11). -/
def wholeWord (a bytes : Nat) : Bool := bytes == 4 && a % 4 == 0

def State.readSized (s : State) (a bytes : Nat) : State := if wholeWord a bytes then s.readReg a else s.readNarrow a bytes

def State.writeSized (s : State) (master : MasterId) (a bytes : Nat) (v : W32) : State :=
  if wholeWord a bytes then s.writeReg master a v else s

/-- What the host reads of a device that does not answer: all ones of HST_ID, 0 of HST_ALIVE in reset (R307, R365, R367). -/
def State.awayRead (s : State) (a : Nat) : State :=
  if a = R.HST_ID then s.answer 0xFFFFFFFF
  else if a = R.HST_ALIVE ∧ s.inReset then s.answer 0
  else { s.drawn with host := { s.host with data := s.freeBits 32, status := 0 } }

/-- A read as its request and response: STATUS stands in `host`. -/
def State.readVia (s : State) (master : MasterId) (a : Nat) (f : State → State) : State :=
  s.transact 0 (regPacket master a none) f fun t => (t.host.status, if t.host.status = 0 then lineWords a t.host.data else [])

/-- A host read of a register. -/
def State.hostRead (s : State) (a bytes : Nat) : State :=
  if s.hostAway then s.awayRead a
  else if s.absentWindow a then s.hostGet a fun s => (s.answer 0).busError 2 a false
  else if alwaysServed a then
    let s1 := s.trainLink
    if s1.hostHeld (.read a bytes) then s1.hostPark (.read a bytes)
    else if s1.blockAbsent (a / 4 * 4) then s1.answer 0
    else s1.readVia 0 a fun s => s.readSized a bytes
  else s.hostGet (a / 4 * 4) fun s => s.readSized a bytes

/-- A register read of another master through the network: an absent block reads 0, a gated one answers DOMAIN_ASLEEP. -/
def State.innerRead (s : State) (a bytes : Nat) : State :=
  if s.blockAbsent (a / 4 * 4) then s.answer 0
  else if !s.blockOn a then
    { s.count F.NOC_ASLEEP_RESP_COUNT 1 with host := { s.host with data := 0, status := 1 } }
  else s.readSized a bytes

/-- A register write of another master (R117). -/
def State.innerWrite (s : State) (master : MasterId) (a bytes : Nat) (v : W32) : State :=
  if s.blockAbsent (a / 4 * 4) then s
  else if !s.blockOn a then
    s.count F.NOC_ASLEEP_RESP_COUNT 1
  else s.writeSized master a bytes v

/-- A host write of a register; PWR_CTL is reached in every state in which the device answers (R335; log 60). -/
def State.hostStore (s : State) (a bytes : Nat) (v : W32) : State :=
  if s.hostAway then s
  else if a = R.PWR_CTL ∧ wholeWord a bytes then
    let s1 := s.trainLink
    if s1.hostHeld (.write a 4 0xFFFFFFFF v) then s1.hostPark (.write a 4 0xFFFFFFFF v)
    else s1.transact 1 (regPacket 0 a (some v)) (fun s => s.writeReg 0 a v) fun _ => (0, [])
  else s.hostCmd (a / 4 * 4) (if wholeWord a bytes then 0xFFFFFFFF else 0) (if wholeWord a bytes then v else 0) fun s =>
    if s.absentWindow a then s.busError 2 a true else s.writeSized 0 a bytes v

/-- Every condition of the poll block. -/
def allBits : List Nat := List.range 20

/-! ### The meanings -/

def execRegisterWrite (master : MasterId) (addr v : W32) (bytes : BitVec 3) (s : State) : Host.Outcome State Fault Refusal :=
  .next (s.watch allBits fun s =>
    if master = 0 then s.hostStore addr.toNat bytes.toNat v
    else if s.inReset || !masterOk master then s
    else s.transact 1 (regPacket master addr.toNat (some v)) (fun s => s.innerWrite master addr.toNat bytes.toNat v)
      fun t => (t.regStatus addr.toNat, []))

def execRegisterRead (master : MasterId) (addr : W32) (bytes : BitVec 3) (s : State) : Host.Outcome State Fault Refusal :=
  .next (s.watch [16, 17] fun s =>
    if master = 0 then s.hostRead addr.toNat bytes.toNat
    else if !masterOk master then s
    else if s.inReset then s.answer 0
    else s.readVia master addr.toNat fun s => s.innerRead addr.toNat bytes.toNat)

def execDmaTail (e : BitVec 4) (v : W32) (s : State) : Host.Outcome State Fault Refusal :=
  .next (s.hostCmd (R.DMA_TAIL e.toNat) 0xFFFFFFFF v fun s => s.watch [7] fun s => s.dmaTail e.toNat v)
def execDmaDescriptorDone (e : BitVec 4) (desc : Bytes) (s : State) : Host.Outcome State Fault Refusal :=
  .next (s.watch [7, 16] fun s => s.dmaDone e.toNat desc)
def execDmaEnable (e : BitVec 4) (s : State) : Host.Outcome State Fault Refusal :=
  .next (s.hostCmd (R.DMA_CTL e.toNat) 1 1 fun s => s.dmaEnable e.toNat)
def execDmaDisable (e : BitVec 4) (s : State) : Host.Outcome State Fault Refusal :=
  .next (s.hostCmd (R.DMA_CTL e.toNat) 1 0 fun s => s.dmaDisable e.toNat)

/-- PCIE_PERST_N resets the endpoint alone: no register of the device changes (R400). What the endpoint holds of the answer of
a request is gone. -/
def execPciePerstN (asserted : Bool) (s : State) : Host.Outcome State Fault Refusal :=
  .next (if asserted then { s with host := { s.host with data := 0, status := 0, queue := [], config := {} } } else s)

end Sys2Proof.Machine
end

