-- ==== Sys2Proof/Machine/Script.lean ====
section
/-! DEFINITION. The start-up script (R281, R285): the entries of the SCRIPT section, one command each, as master 0x01. -/

namespace Sys2Proof.Machine

/-- The entry that the script is at. -/
def State.scriptEntry (s : State) : Bytes := slice (s.section 1) (16 * s.load.pc) 16

def scriptTimeout (r : Bytes) : Nat := num r 2 2
def scriptAddr (r : Bytes) : Nat := num r 4 4
def scriptValue (r : Bytes) : W32 := BitVec.ofNat 32 (num r 8 4)
def scriptMask (r : Bytes) : W32 := BitVec.ofNat 32 (num r 12 4)

/-- The script of a full load is at an entry with code `op`: a PRE entry before the sections, or what is left after them
(R280). -/
def State.scriptAt (s : State) (op : Nat) : Bool :=
  let r := s.scriptEntry
  s.load.on && !s.load.part && !s.inReset && r.length == 16 && scriptOp r == op
    && ((s.fget F.CFG_STAT_STATE == 2 && s.preNext) || s.fget F.CFG_STAT_STATE == 4)

/-- On to the next entry; after the last PRE entry the sections are read (R280). -/
def State.scriptNext (s : State) : State :=
  let s1 := { s with load := { s.load with pc := s.load.pc + 1 } }
  if s1.fget F.CFG_STAT_STATE = 2 then s1.afterPre else s1

/-- SCRIPT_FAIL at the entry (R281, R282). -/
def State.scriptFail (s : State) : State := s.refuseLoad 0x09 (secIndex s.load.hdr 1) s.load.pc

/-- A register access of the boot sequencer. -/
def State.scriptRead (s : State) (a : Nat) : State := s.readVia 1 a fun s => s.innerRead a 4
def State.scriptStore (s : State) (a : Nat) (v : W32) : State :=
  s.transact 1 (regPacket 1 a (some v)) (fun s => s.innerWrite 1 a 4 v) fun t => (t.regStatus a, [])

/-- The CFG_ and SEC_ blocks (R363). -/
def scriptBarred (a : Nat) : Bool := (0x50000 ≤ a && a < 0x60000) || (0x60000 ≤ a && a < 0x70000)

/-- WRITE: (old AND NOT MASK) OR (VALUE AND MASK); a full mask writes without reading. -/
def State.scriptWrite (s : State) : State :=
  let r := s.scriptEntry
  let a := scriptAddr r
  let m := scriptMask r
  if scriptBarred a then s.scriptFail
  else if m = 0xFFFFFFFF then (s.scriptStore a (scriptValue r)).scriptNext
  else
    let s1 := s.scriptRead a
    (s1.scriptStore a ((s1.host.data &&& ~~~m) ||| (scriptValue r &&& m))).scriptNext

/-- POLL: one read; the script goes on once the masked value matches. -/
def State.scriptPoll (s : State) : State :=
  let r := s.scriptEntry
  let s1 := s.scriptRead (scriptAddr r)
  if s1.host.data &&& scriptMask r = scriptValue r then s1.scriptNext else s1

/-- COMMIT (R285); the END entry is left. -/
def State.scriptCommit (s : State) : State :=
  let t := s.commitImage
  { t with load := { t.load with pc := s.load.pc + 1 } }

/-- END directly after COMMIT ends the script. -/
def State.scriptEnd (s : State) : State :=
  if !s.load.on && s.load.pc != 0 then { s with load := { s.load with pc := 0 } } else s

/-! ### The meanings -/

def execScriptWrite (s : State) : Host.Outcome State Fault Refusal :=
  .next (if s.scriptAt 0x01 then s.watch allBits State.scriptWrite else s)

/-- The wait of VALUE ns is over. -/
def execScriptWait (s : State) : Host.Outcome State Fault Refusal :=
  .next (if s.scriptAt 0x02 then s.watch allBits State.scriptNext else s)
def execScriptPoll (s : State) : Host.Outcome State Fault Refusal :=
  .next (if s.scriptAt 0x03 then s.watch allBits State.scriptPoll else s)

/-- The TIMEOUT of a POLL has passed without a match. -/
def execScriptPollTimeout (s : State) : Host.Outcome State Fault Refusal :=
  .next (if s.scriptAt 0x03 then s.watch allBits State.scriptFail else s)
def execScriptCommit (s : State) : Host.Outcome State Fault Refusal :=
  .next (if s.scriptAt 0x04 then s.watch allBits State.scriptCommit else s)
def execScriptEnd (s : State) : Host.Outcome State Fault Refusal := .next s.scriptEnd

end Sys2Proof.Machine
end

