-- ==== Sys2Proof/Machine/Packet.lean ====
section
/-! DEFINITION. Packets of the ring network (R107–R120): their way past the probes, what their targets do with them, and the
accesses that wait in scratch banks. -/

namespace Sys2Proof.Machine

/-! ### Targets -/

/-- What the memory at an address answers to an access. -/
inductive Target where
  | granted | waits | refused | asleep | nowhere
  deriving DecidableEq, Repr

/-- The answer for one line of 32 bytes (R117, R135, R136, R139). -/
def State.lineAnswer (s : State) (master a : Nat) (write : Bool) : Target :=
  if !s.inScratch a && !s.inDram a then .nowhere
  else if !s.domainOn (s.addrDomain a) then .asleep
  else if s.inScratch a then
    match s.bankAnswer (bankOf a) master with
    | .granted => .granted
    | .waits => .waits
    | .refused => .refused
  else if s.dramAllows master a write then .granted else .refused

/-- First byte of the packet's lines, and their number: LEN is the payload, of a READ the flits wanted (log 44). -/
def packetBase (p : Packet) : Nat := p.addr.toNat / 32 * 32
def packetLines (p : Packet) (write : Bool) : Nat := if write then p.len.toNat else max 1 p.len.toNat

/-- The answer for a packet: one answer for all its lines (log 67). -/
def State.packetAnswer (s : State) (master : Nat) (p : Packet) (write : Bool) : Target :=
  let l := (List.range (max 1 (packetLines p write))).map fun i => s.lineAnswer master (packetBase p + 32 * i) write
  if l.contains .asleep then .asleep
  else if l.contains .refused then .refused
  else if l.contains .nowhere then (if l.head? = some .nowhere then .nowhere else .refused)
  else if l.contains .waits then .waits
  else .granted

/-- A response to the packet is sent (R109). -/
def State.respond (s : State) (p : Packet) (data : Bool) (status : Nat) (payload : List W128) : State :=
  { s.drawn.drawn with ring := { s.ring with resps := s.ring.resps ++ [⟨s.responseTo p status payload, data, p.dstStn.toNat⟩] } }

/-- The answer to a write: none to a posted one. -/
def State.acked (s : State) (p : Packet) (posted : Bool) (status : Nat) : State :=
  if posted then s else s.respond p false status []

/-- The words of a payload with their addresses and the byte enables of each, four bits (R109). -/
def packetWords (p : Packet) (write : Bool) : List (Nat × Nat) :=
  (List.range (8 * packetLines p write)).map fun i =>
    (packetBase p + 4 * i, if i < 8 then p.be.toNat / 2 ^ (4 * i) % 16 else 15)

/-- Word `i` of a payload. -/
def payloadWord (p : Packet) (i : Nat) : W32 := BitVec.ofNat 32 ((p.payload.getD (i / 4) 0).toNat / 2 ^ (32 * (i % 4)))

/-- 128-bit words from 32-bit ones. -/
def flitWords : List W32 → List W128
  | a :: b :: c :: d :: l => (d ++ c ++ b ++ a : BitVec 128) :: flitWords l
  | _ => []

/-- The bytes of a payload with their enables (R109). -/
def packetBytes (p : Packet) : List (Bool × Byte) :=
  let bytes := p.payload.flatMap fun w => leBytes 16 w.toNat
  (bytes.take (32 * p.len.toNat)).zipIdx.map fun b => (decide (32 ≤ b.2) || p.be.getLsbD b.2, b.1)

/-- Bytes that a partial enable of a register word covers. -/
def nibbleMask (n : Nat) : W32 :=
  BitVec.ofNat 32 ((List.range 4).foldl (fun v k => if n.testBit k then v + 255 * 256 ^ k else v) 0)

/-- One register word of a read: whole, or narrow without a side effect (R11). -/
def State.wordRead (s : State) (w : Nat × Nat) : State × W32 :=
  if w.2 = 15 then
    let t := s.innerRead w.1 4
    (t, t.host.data)
  else if s.blockAbsent w.1 then (s, 0)
  else (s, s.current w.1 &&& nibbleMask w.2)

/-- The register words of a read, in ascending order (R360). -/
def State.wordReads (s : State) : List (Nat × Nat) → State × List W32
  | [] => (s, [])
  | w :: ws =>
    let r := s.wordRead w
    let t := r.1.wordReads ws
    (t.1, r.2 :: t.2)

/-- A read of registers: the answer of a host port is no matter of the network. -/
def State.regsRead (s : State) (p : Packet) : State :=
  let r := s.wordReads (packetWords p false)
  { r.1 with host := s.host }.respond p true 0 (flitWords r.2)

/-- The block at `a` exists and does not answer (R117). -/
def State.blockAsleep (s : State) (a : Nat) : Bool := !s.blockAbsent a && !s.blockOn a

/-- A packet for registers with an enabled word of a gated block: its domain's ingress is closed to the whole packet (R117). -/
def State.regsAsleep (s : State) (p : Packet) (write : Bool) : Bool :=
  (packetWords p write).any fun w => w.2 != 0 && s.blockAsleep w.1

/-- A write of registers: whole words only (R11). -/
def State.regsWrite (s : State) (p : Packet) (posted : Bool) : State :=
  let s1 := s.each ((packetWords p true).zipIdx.filter fun w => w.1.2 == 15) fun s w =>
    s.innerWrite p.src w.1.1 4 (payloadWord p w.2)
  s1.acked p posted 0

/-- A host address that reaches neither memory nor, through BAR0, the register map (R3, R361). -/
def State.beyond (s : State) (p : Packet) : Bool :=
  p.src == 0 && (p.bar2 || decide (0x10000000 ≤ p.addr.toNat) || s.absentWindow p.addr.toNat)

/-- An access is refused: counted, and its fault raised unless the host made it (R136, R139). -/
def State.refusedAccess (s : State) (p : Packet) (acc : Nat) : State :=
  let a := packetBase p
  if s.inScratch a then s.nonOwner p.src.toNat p.addr.toNat acc
  else if s.inDram a then s.regionDenied p.src.toNat p.addr.toNat acc
  else s

/-- Zero data of a refused read. -/
def zeroData (p : Packet) : List W128 := List.replicate (2 * packetLines p false) 0

/-- Memory answers a granted read. -/
def State.readGranted (s : State) (p : Packet) : State :=
  s.respond p true 0 ((List.range (2 * packetLines p false)).map fun i => s.rdWord (packetBase p + 16 * i))

/-- Memory takes a granted write. -/
def State.writeGranted (s : State) (p : Packet) (posted : Bool) : State :=
  (s.wrEnabled (packetBase p) (packetBytes p)).acked p posted 0

/-- An access waits in its bank (R135). -/
def State.waitIn (s : State) (p : Packet) (write posted : Bool) : State :=
  { s with ring := { s.ring with waits := s.ring.waits ++ [(bankOf (packetBase p), .packet p write posted)] } }

/-- A READ at its target. -/
def State.targetRead (s : State) (p : Packet) : State :=
  match s.packetAnswer p.src.toNat p false with
  | .granted => s.readGranted p
  | .waits => s.waitIn p false false
  | .refused => (s.refusedAccess p accRead).respond p true 2 (zeroData p)
  | .asleep => (s.count F.NOC_ASLEEP_RESP_COUNT 1).respond p true 1 []
  | .nowhere =>
    if s.beyond p then s.respond p true 2 (zeroData p)
    else if s.regsAsleep p false then (s.count F.NOC_ASLEEP_RESP_COUNT 1).respond p true 1 []
    else s.regsRead p

/-- A request for a gated domain: answered, or dropped where it is posted. -/
def State.asleepWrite (s : State) (p : Packet) (posted : Bool) : State :=
  if posted then s.droppedAsleep p else (s.count F.NOC_ASLEEP_RESP_COUNT 1).respond p false 1 []

/-- A WRITE or POSTED_WRITE at its target. -/
def State.targetWrite (s : State) (p : Packet) (posted : Bool) : State :=
  match s.packetAnswer p.src.toNat p true with
  | .granted => s.writeGranted p posted
  | .waits => s.waitIn p true posted
  | .refused => (s.refusedAccess p (if posted then accPosted else accWrite)).acked p posted 2
  | .asleep => s.asleepWrite p posted
  | .nowhere =>
    if s.beyond p then s.acked p posted 2
    else if s.regsAsleep p true then s.asleepWrite p posted
    else s.regsWrite p posted

/-- The domain a stream packet is for is gated: that of the resource at its address, at a cord's station the cord's die (R117). -/
def State.streamAsleep (s : State) (p : Packet) : Bool :=
  !s.domainOn (if p.dstStn.toNat < 0x80 then 2 + p.dstStn.toNat / 32 else s.addrDomain p.addr.toNat)

/-- A STREAM packet has no effect of its own beyond its station (R109). -/
def State.targetStream (s : State) (p : Packet) : State := if s.streamAsleep p then s.droppedAsleep p else s

/-- What the target does with a request, by its operation code (R109). -/
def State.target (s : State) (op : Nat) (p : Packet) : State :=
  if op = 0 then s.targetRead p
  else if op = 1 then s.targetWrite p false
  else if op = 2 then s.targetWrite p true
  else s.targetStream p

/-- A request on its way: probes, trace and monitors see it, then its target, which does `f`. -/
def State.carry (s : State) (op : Nat) (p : Packet) (f : State → State) : State := f (s.seeRequest op p)

/-- A request waits in front of a closed station (R116). -/
def State.park (s : State) (op : Nat) (p : Packet) : State :=
  { s with ring := { s.ring with parked := s.ring.parked ++ [(op, p)] } }

/-- A request whose way has a closed station waits, or takes the other way where it may; whether it does is open (R116, log 90). -/
def State.send (s : State) (op : Nat) (p : Packet) (f : State → State) : State :=
  let src := entryStn p.src.toNat p.dstStn.toNat
  let c := s.colFirst src p
  if !s.wayClosed c src p.dstStn.toNat then s.carry op p f
  else if !s.mayReroute src p then s.park op p
  else if (s.freeBits 1).getLsbD 0 then (s.drawn.count F.NOC_REROUTE_COUNT 1).carry op { p with route := !c } f
  else s.drawn.park op p

/-- The requests of a master; the address of a stream names no station (R110). -/
def State.readRequest (s : State) (p : Packet) : State := s.send 0 (s.located p) fun t => t.targetRead (s.located p)
def State.writeRequest (s : State) (posted : Bool) (p : Packet) : State :=
  s.send (if posted then 2 else 1) (s.located p) fun t => t.targetWrite (s.located p) posted
def State.streamRequest (s : State) (p : Packet) : State := s.send 3 p fun t => t.targetStream p

/-- A station has reopened: the requests that waited go on, in their order (R116). -/
def State.unpark (s : State) : State :=
  ({ s with ring := { s.ring with parked := [] } }).each s.ring.parked fun s r => s.send r.1 r.2 fun t => t.target r.1 r.2

/-- The host's request reaches the network: asleep it completes with data 0 and wakes; a write that a load bars is discarded (R286,
R341). -/
def State.hostGate (s : State) (p : Packet) (write : Bool) (f : State → State) : State :=
  let a := p.addr.toNat
  let zero := fun (s : State) => if write then s.respond p false 0 [] else s.respond p true 0 (zeroData p)
  if !p.bar2 && !write && alwaysServed a then f s
  else if !p.bar2 && write && a / 4 * 4 == R.PWR_CTL then f s
  else if s.asleep then (zero (s.count F.PWR_ASLEEP_ACC_COUNT 1)).wakeAwake 3
  else if write && !loadWritable a && !s.image.committed then (zero s).wakeAwake 3
  else (f s).wakeAwake 3

/-- A host request at the endpoint: it waits there (R360, R361), or goes on. -/
def State.hostOffer (s : State) (r : HostReq) : State :=
  if s.hostAway then s
  else if s.hostHeld r then s.hostPark r
  else match r with
    | .write a bytes mask v =>
      if mask = 0 then s else s.hostStore a bytes ((s.lowerWord a &&& ~~~mask) ||| v)
    | .read a bytes => s.hostRead a bytes
    | .packet op p => s.hostGate p (op == 1) fun s => if op == 1 then s.writeRequest false p else s.readRequest p

/-- The requests that wait in the endpoint are tried again, in their order. -/
def State.hostServe (s : State) : State :=
  if s.host.queue.isEmpty then s
  else { s with host := { s.host with queue := [] } }.each s.host.queue State.hostOffer

/-- A packet of the host: BAR2 offsets count from HST_AP_BASE as it stands (R359, R361). -/
def State.hostPacket (s : State) (op : Nat) (p : Packet) : State :=
  let base := if p.bar2 then s.wget W.HST_AP_BASE_BASE else 0
  if s.hostAway then s
  else s.trainLink.hostOffer (.packet op { p with addr := BitVec.ofNat 48 (base + p.addr.toNat) })

/-- A request packet of any master: the host posts no writes, and reserved master IDs carry no request (R360, R364). -/
def State.offered (s : State) (op : Nat) (p : Packet) (f : State → State) : State :=
  s.watch allBits fun s =>
    if p.src = 0 then (if op = 2 then s else s.hostPacket op p)
    else if s.inReset || !masterOk p.src then s
    else f s

/-! ### Responses -/

/-- Two responses on one way: one source station, one destination station, one route (R113). -/
def Response.behind (r q : Response) : Bool := r.stn == q.stn && r.p.dstStn == q.p.dstStn && r.p.route == q.p.route

/-- The response that a delivery names, and the others: none where an earlier one on the same way has not arrived (R113). -/
def takeResponse (data : Bool) (p : Packet) : List Response → Option (Response × List Response)
  | [] => none
  | r :: rs =>
    if r.data = data ∧ r.p.dstId = p.dstId ∧ r.p.tag = p.tag ∧ r.p.addr = p.addr then some (r, rs)
    else match takeResponse data p rs with
      | some t => if t.1.behind r then none else some (t.1, r :: t.2)
      | none => none

/-- A response reaches the host: an error is captured, and a read has data 0 (R362). -/
def State.hostAnswer (s : State) (r : Response) : State :=
  let st := r.p.status.toNat
  let s1 := if st = 0 then s else s.busError st r.p.addr.toNat (!r.data)
  let data := if st = 0 then payloadWord r.p (r.p.addr.toNat % 32 / 4) else 0
  { s1 with host := { s1.host with data, status := st } }

/-- A response arrives `edges` step-clock edges after the request left; at a closed station of its way it waits (R116): its own, which
answers the requests inside it as it drains, holds nothing back. -/
def State.response (s : State) (data : Bool) (p : Packet) (edges : Nat) : State :=
  match takeResponse data p s.ring.resps with
  | none => s
  | some (r, rest) =>
    if s.wayBarred (s.colFirst r.stn r.p) r.stn r.p.dstStn.toNat then s
    else
    let s1 := { s with ring := { s.ring with resps := rest } }.seeResponse r.stn data r.p edges
    if r.p.dstId = 0 then (s1.hostAnswer r).hostServe else s1

/-! ### Bank handover (R135) -/

/-- A waiting access is served. -/
def State.serveWait (s : State) (w : BankWait) : State :=
  match w with
  | .packet p write posted => if write then s.writeGranted p posted else s.readGranted p
  | .port k o => s.serveOp k o

/-- The last packet inside the station has drained (R116): no request that it took waits for an answer, and every answer that no other
closed station bars has left. -/
def State.stnQuiet (s : State) (stn : Nat) : Bool :=
  !(s.ring.resps.any (fun r => r.stn == stn && !s.wayBarred (s.colFirst r.stn r.p) r.stn r.p.dstStn.toNat)
    || s.ring.waits.any fun w => match w.2 with | .packet p _ posted => !posted && p.dstStn.toNat == stn | .port _ _ => false)

def execStationDrainEnd (stn : StnId) (s : State) : Host.Outcome State Fault Refusal :=
  .next (if s.bit (stnClosed stn.toNat) && stn.toNat < 0xA0 && s.stnQuiet stn.toNat then s.fset (stnDraining stn.toNat) 0 else s)

/-- Once the old owner's accesses are completed, the new owner takes the bank, and the accesses that wait in it are served in
arrival order. -/
def State.handover (s : State) (b : Nat) : State :=
  if s.fget (F.BNK_STAT_STATE b) = 0 || s.oldOwnerBusy b then s
  else
    let mine := s.ring.waits.filter fun w => w.1 == b
    let s1 := s.takeBank b
    { s1 with ring := { s1.ring with waits := s1.ring.waits.filter fun w => w.1 != b } }.each mine fun s w => s.serveWait w.2

/-! ### The meanings -/

def execRead (p : Packet) (s : State) : Host.Outcome State Fault Refusal :=
  .next (s.offered 0 p fun s => s.readRequest p)
def execWrite (p : Packet) (s : State) : Host.Outcome State Fault Refusal :=
  .next (s.offered 1 p fun s => s.writeRequest false p)
def execPostedWrite (p : Packet) (s : State) : Host.Outcome State Fault Refusal :=
  .next (s.offered 2 p fun s => s.writeRequest true p)
def execStream (p : Packet) (s : State) : Host.Outcome State Fault Refusal :=
  .next (if s.inReset || !masterOk p.src then s else s.watch [16] fun s => s.streamRequest p)
def execRespData (p : Packet) (edges : Nat) (s : State) : Host.Outcome State Fault Refusal :=
  .next (s.watch allBits fun s => s.response true p edges)
def execRespAck (p : Packet) (edges : Nat) (s : State) : Host.Outcome State Fault Refusal :=
  .next (s.watch allBits fun s => s.response false p edges)
def execTableSwap (stn : StnId) (s : State) : Host.Outcome State Fault Refusal :=
  .next (if s.swapReady stn.toNat then s.watch allBits fun s => (s.swapTable stn.toNat).unpark.hostServe else s)
def execHandoverComplete (bank : BitVec 6) (s : State) : Host.Outcome State Fault Refusal :=
  .next (s.watch allBits fun s => (s.handover bank.toNat).hostServe)

end Sys2Proof.Machine
end

