-- ==== Sys2Proof/Machine/Dispatch.lean ====
section
/-! DEFINITION. The dispatcher: one arm for each command, one direct call of its meaning. -/

namespace Sys2Proof.Machine

/-- What a command does to everything but the queue. -/
def exec (i : Instr) (s : State) : Host.Outcome State Fault Refusal :=
  match i with
  | .nop g => Sys2Proof.Machine.execNop g s
  | .eval g => Sys2Proof.Machine.execEval g s
  | .evalLatch g => Sys2Proof.Machine.execEvalLatch g s
  | .stateRead g => Sys2Proof.Machine.execStateRead g s
  | .evalSend g => Sys2Proof.Machine.execEvalSend g s
  | .evalPort g => Sys2Proof.Machine.execEvalPort g s
  | .evalCheck g => Sys2Proof.Machine.execEvalCheck g s
  | .turnEnd g => Sys2Proof.Machine.execTurnEnd g s
  | .commit => Sys2Proof.Machine.execCommit s
  | .prefixStart => Sys2Proof.Machine.execPrefixStart s
  | .prefixCancel => Sys2Proof.Machine.execPrefixCancel s
  | .turnBoundary => Sys2Proof.Machine.execTurnBoundary s
  | .outputRelease => Sys2Proof.Machine.execOutputRelease s
  | .turnOverrun => Sys2Proof.Machine.execTurnOverrun s
  | .scrubStep cord => Sys2Proof.Machine.execScrubStep cord s
  | .anchorLost => Sys2Proof.Machine.execAnchorLost s
  | .halt v => Sys2Proof.Machine.execHalt v s
  | .singleStep => Sys2Proof.Machine.execSingleStep s
  | .relock => Sys2Proof.Machine.execRelock s
  | .realign => Sys2Proof.Machine.execRealign s
  | .slackRst => Sys2Proof.Machine.execSlackRst s
  | .bightDelivery stn dir pos => Sys2Proof.Machine.execBightDelivery stn dir pos s
  | .read p => Sys2Proof.Machine.execRead p s
  | .write p => Sys2Proof.Machine.execWrite p s
  | .postedWrite p => Sys2Proof.Machine.execPostedWrite p s
  | .stream p => Sys2Proof.Machine.execStream p s
  | .respData p edges => Sys2Proof.Machine.execRespData p edges s
  | .respAck p edges => Sys2Proof.Machine.execRespAck p edges s
  | .g32BwRead n => Sys2Proof.Machine.execG32BwRead n s
  | .prbClr n => Sys2Proof.Machine.execPrbClr n s
  | .stationDrainEnd stn => Sys2Proof.Machine.execStationDrainEnd stn s
  | .tableSwap stn => Sys2Proof.Machine.execTableSwap stn s
  | .portAccess cord q => Sys2Proof.Machine.execPortAccess cord q s
  | .bankDelayedAccess cord q => Sys2Proof.Machine.execBankDelayedAccess cord q s
  | .portReturn cord q => Sys2Proof.Machine.execPortReturn cord q s
  | .deferredDataArrival cord q => Sys2Proof.Machine.execDeferredDataArrival cord q s
  | .bnkOwnWrite bank master value => Sys2Proof.Machine.execBnkOwnWrite bank master value s
  | .handoverComplete bank => Sys2Proof.Machine.execHandoverComplete bank s
  | .turnInputWrite die port cord word data => Sys2Proof.Machine.execTurnInputWrite die port cord word data s
  | .turnOutputRead die port cord word => Sys2Proof.Machine.execTurnOutputRead die port cord word s
  | .laneRxWord lane w => Sys2Proof.Machine.execLaneRxWord lane w s
  | .laneTxWord lane w => Sys2Proof.Machine.execLaneTxWord lane w s
  | .laneEnable lane => Sys2Proof.Machine.execLaneEnable lane s
  | .laneDisable lane => Sys2Proof.Machine.execLaneDisable lane s
  | .laneShutdownDone lane => Sys2Proof.Machine.execLaneShutdownDone lane s
  | .txSrc lane v => Sys2Proof.Machine.execTxSrc lane v s
  | .neLpbk lane v => Sys2Proof.Machine.execNeLpbk lane v s
  | .feLpbk lane v => Sys2Proof.Machine.execFeLpbk lane v s
  | .laneLock lane stage skew wireBit ts => Sys2Proof.Machine.execLaneLock lane stage skew wireBit ts s
  | .laneLockLoss lane stage => Sys2Proof.Machine.execLaneLockLoss lane stage s
  | .calMicroStep lane sel up => Sys2Proof.Machine.execCalMicroStep lane sel up s
  | .calApply lane wireBit ts => Sys2Proof.Machine.execCalApply lane wireBit ts s
  | .calPin lane v => Sys2Proof.Machine.execCalPin lane v s
  | .eyeScanStart lane => Sys2Proof.Machine.execEyeScanStart lane s
  | .eyeScanAbort lane => Sys2Proof.Machine.execEyeScanAbort lane s
  | .eyeScanPoint lane mismatches => Sys2Proof.Machine.execEyeScanPoint lane mismatches s
  | .chkClr lane => Sys2Proof.Machine.execChkClr lane s
  | .todArm => Sys2Proof.Machine.execTodArm s
  | .todCancel => Sys2Proof.Machine.execTodCancel s
  | .phaseGo => Sys2Proof.Machine.execPhaseGo s
  | .slewDone => Sys2Proof.Machine.execSlewDone s
  | .timeFreq v => Sys2Proof.Machine.execTimeFreq v s
  | .ppsEdge pin => Sys2Proof.Machine.execPpsEdge pin s
  | .ppsLoss => Sys2Proof.Machine.execPpsLoss s
  | .timeRefLost => Sys2Proof.Machine.execTimeRefLost s
  | .refQualified => Sys2Proof.Machine.execRefQualified s
  | .txqPop k => Sys2Proof.Machine.execTxqPop k s
  | .toutEnable n => Sys2Proof.Machine.execToutEnable n s
  | .toutDisable n => Sys2Proof.Machine.execToutDisable n s
  | .toutPulse n => Sys2Proof.Machine.execToutPulse n s
  | .toutPulseEnd n => Sys2Proof.Machine.execToutPulseEnd n s
  | .timeMark => Sys2Proof.Machine.execTimeMark s
  | .capArm set n => Sys2Proof.Machine.execCapArm set n s
  | .capTrig set n => Sys2Proof.Machine.execCapTrig set n s
  | .capStop set n => Sys2Proof.Machine.execCapStop set n s
  | .capBlockClose n why => Sys2Proof.Machine.execCapBlockClose n why s
  | .capBlockWrite n => Sys2Proof.Machine.execCapBlockWrite n s
  | .seqStart n => Sys2Proof.Machine.execSeqStart n s
  | .seqStop n => Sys2Proof.Machine.execSeqStop n s
  | .knotTransition seqs inputs => Sys2Proof.Machine.execKnotTransition seqs inputs s
  | .thaw => Sys2Proof.Machine.execThaw s
  | .trgSoft v => Sys2Proof.Machine.execTrgSoft v s
  | .clr c => Sys2Proof.Machine.execClr c s
  | .patEnable n => Sys2Proof.Machine.execPatEnable n s
  | .patDisable n => Sys2Proof.Machine.execPatDisable n s
  | .patShutdownDone n => Sys2Proof.Machine.execPatShutdownDone n s
  | .patSrc n v => Sys2Proof.Machine.execPatSrc n v s
  | .patGo n => Sys2Proof.Machine.execPatGo n s
  | .patSourceSwitch n => Sys2Proof.Machine.execPatSourceSwitch n s
  | .patDescFetch n => Sys2Proof.Machine.execPatDescFetch n s
  | .patSegmentEnd n => Sys2Proof.Machine.execPatSegmentEnd n s
  | .patUnderrun n => Sys2Proof.Machine.execPatUnderrun n s
  | .queuePost master q item => Sys2Proof.Machine.execQueuePost master q item s
  | .hpost w3 => Sys2Proof.Machine.execHpost w3 s
  | .dispatch die => Sys2Proof.Machine.execDispatch die s
  | .affinityWaitExpiry f => Sys2Proof.Machine.execAffinityWaitExpiry f s
  | .actEnd u => Sys2Proof.Machine.execActEnd u s
  | .movi u => Sys2Proof.Machine.execMovi u s
  | .add u => Sys2Proof.Machine.execAdd u s
  | .logic u => Sys2Proof.Machine.execLogic u s
  | .shift u => Sys2Proof.Machine.execShift u s
  | .fieldNode u => Sys2Proof.Machine.execFieldNode u s
  | .cmp u => Sys2Proof.Machine.execCmp u s
  | .test u => Sys2Proof.Machine.execTest u s
  | .hash u => Sys2Proof.Machine.execHash u s
  | .now u => Sys2Proof.Machine.execNow u s
  | .load u => Sys2Proof.Machine.execLoad u s
  | .store u => Sys2Proof.Machine.execStore u s
  | .count u => Sys2Proof.Machine.execCount u s
  | .build u => Sys2Proof.Machine.execBuild u s
  | .patch u => Sys2Proof.Machine.execPatch u s
  | .fcs u => Sys2Proof.Machine.execFcs u s
  | .tsreq u => Sys2Proof.Machine.execTsreq u s
  | .sendp u => Sys2Proof.Machine.execSendp u s
  | .sendt u => Sys2Proof.Machine.execSendt u s
  | .post u => Sys2Proof.Machine.execPost u s
  | .event u => Sys2Proof.Machine.execEvent u s
  | .delay u => Sys2Proof.Machine.execDelay u s
  | .cancel u => Sys2Proof.Machine.execCancel u s
  | .mask u => Sys2Proof.Machine.execMask u s
  | .clrf u => Sys2Proof.Machine.execClrf u s
  | .actOpComplete u => Sys2Proof.Machine.execActOpComplete u s
  | .delayTick d => Sys2Proof.Machine.execDelayTick d s
  | .actFlSet f v => Sys2Proof.Machine.execActFlSet f v s
  | .porN asserted => Sys2Proof.Machine.execPorN asserted s
  | .warmN asserted => Sys2Proof.Machine.execWarmN asserted s
  | .bootLoad dir hdr => Sys2Proof.Machine.execBootLoad dir hdr s
  | .cfgLoad entry => Sys2Proof.Machine.execCfgLoad entry s
  | .nvmError => Sys2Proof.Machine.execNvmError s
  | .sectionEnd stored => Sys2Proof.Machine.execSectionEnd stored s
  | .dict idx frame => Sys2Proof.Machine.execDict idx frame s
  | .frameWrite faddr frame => Sys2Proof.Machine.execFrameWrite faddr frame s
  | .repl idx faddr count stride => Sys2Proof.Machine.execRepl idx faddr count stride s
  | .zeroFrames faddr count => Sys2Proof.Machine.execZeroFrames faddr count s
  | .recs data => Sys2Proof.Machine.execRecs data s
  | .scriptWrite => Sys2Proof.Machine.execScriptWrite s
  | .scriptWait => Sys2Proof.Machine.execScriptWait s
  | .scriptPoll => Sys2Proof.Machine.execScriptPoll s
  | .scriptPollTimeout => Sys2Proof.Machine.execScriptPollTimeout s
  | .scriptCommit => Sys2Proof.Machine.execScriptCommit s
  | .scriptEnd => Sys2Proof.Machine.execScriptEnd s
  | .chainIn hdr => Sys2Proof.Machine.execChainIn hdr s
  | .chainFail => Sys2Proof.Machine.execChainFail s
  | .fwdFail => Sys2Proof.Machine.execFwdFail s
  | .partGo => Sys2Proof.Machine.execPartGo s
  | .partHold => Sys2Proof.Machine.execPartHold s
  | .regionIsolate => Sys2Proof.Machine.execRegionIsolate s
  | .regionRelease => Sys2Proof.Machine.execRegionRelease s
  | .nvmRead => Sys2Proof.Machine.execNvmRead s
  | .nvmWrite => Sys2Proof.Machine.execNvmWrite s
  | .nvmErase => Sys2Proof.Machine.execNvmErase s
  | .nvmDone ok data => Sys2Proof.Machine.execNvmDone ok data s
  | .hello h => Sys2Proof.Machine.execHello h s
  | .pairFail => Sys2Proof.Machine.execPairFail s
  | .heartbeat h => Sys2Proof.Machine.execHeartbeat h s
  | .mirrorWord turn idx data => Sys2Proof.Machine.execMirrorWord turn idx data s
  | .writtenFlags turn flags => Sys2Proof.Machine.execWrittenFlags turn flags s
  | .flowContextDelta d => Sys2Proof.Machine.execFlowContextDelta d s
  | .timeAdjustment a => Sys2Proof.Machine.execTimeAdjustment a s
  | .partnerTrigOut j => Sys2Proof.Machine.execPartnerTrigOut j s
  | .partTurnNumbers release turn => Sys2Proof.Machine.execPartTurnNumbers release turn s
  | .partnerLoss why => Sys2Proof.Machine.execPartnerLoss why s
  | .promotionComplete => Sys2Proof.Machine.execPromotionComplete s
  | .relinquish => Sys2Proof.Machine.execRelinquish s
  | .linkEn v => Sys2Proof.Machine.execLinkEn v s
  | .faultFetch srcs release => Sys2Proof.Machine.execFaultFetch srcs release s
  | .wireFault src pair => Sys2Proof.Machine.execWireFault src pair s
  | .graceExpiry => Sys2Proof.Machine.execGraceExpiry s
  | .ack => Sys2Proof.Machine.execAck s
  | .release => Sys2Proof.Machine.execRelease s
  | .fltInjGo => Sys2Proof.Machine.execFltInjGo s
  | .fltInjWire => Sys2Proof.Machine.execFltInjWire s
  | .thermSample sensor milliC => Sys2Proof.Machine.execThermSample sensor milliC s
  | .railFault rail => Sys2Proof.Machine.execRailFault rail s
  | .brownout => Sys2Proof.Machine.execBrownout s
  | .pwrGo target => Sys2Proof.Machine.execPwrGo target s
  | .pwrFlagRequest flag => Sys2Proof.Machine.execPwrFlagRequest flag s
  | .stepClockStop => Sys2Proof.Machine.execStepClockStop s
  | .wake src => Sys2Proof.Machine.execWake src s
  | .pwrExitComplete => Sys2Proof.Machine.execPwrExitComplete s
  | .deepSleepReload hdr stored => Sys2Proof.Machine.execDeepSleepReload hdr stored s
  | .domainGate d => Sys2Proof.Machine.execDomainGate d s
  | .domainGated d => Sys2Proof.Machine.execDomainGated d s
  | .domainEnable d => Sys2Proof.Machine.execDomainEnable d s
  | .traceRecord r => Sys2Proof.Machine.execTraceRecord r s
  | .tracePacketWrite => Sys2Proof.Machine.execTracePacketWrite s
  | .traceEnable => Sys2Proof.Machine.execTraceEnable s
  | .traceDisable => Sys2Proof.Machine.execTraceDisable s
  | .traceFlush => Sys2Proof.Machine.execTraceFlush s
  | .traceIdleFlush => Sys2Proof.Machine.execTraceIdleFlush s
  | .dmaTail e v => Sys2Proof.Machine.execDmaTail e v s
  | .dmaDescriptorDone e desc => Sys2Proof.Machine.execDmaDescriptorDone e desc s
  | .dmaEnable e => Sys2Proof.Machine.execDmaEnable e s
  | .dmaDisable e => Sys2Proof.Machine.execDmaDisable e s
  | .attestGo => Sys2Proof.Machine.execAttestGo s
  | .attestDone => Sys2Proof.Machine.execAttestDone s
  | .rbAdvance idx => Sys2Proof.Machine.execRbAdvance idx s
  | .fuseProgram ctl => Sys2Proof.Machine.execFuseProgram ctl s
  | .fuseProgramDone took => Sys2Proof.Machine.execFuseProgramDone took s
  | .bypass => Sys2Proof.Machine.execBypass s
  | .idcode => Sys2Proof.Machine.execIdcode s
  | .samplePreload pins preload => Sys2Proof.Machine.execSamplePreload pins preload s
  | .extest pins => Sys2Proof.Machine.execExtest pins s
  | .clamp => Sys2Proof.Machine.execClamp s
  | .highz => Sys2Proof.Machine.execHighz s
  | .privateInstruction k => Sys2Proof.Machine.execPrivateInstruction k s
  | .boardId shift => Sys2Proof.Machine.execBoardId shift s
  | .lifetime => Sys2Proof.Machine.execLifetime s
  | .lifetimeWrite milliC => Sys2Proof.Machine.execLifetimeWrite milliC s
  | .pinCfg n v => Sys2Proof.Machine.execPinCfg n v s
  | .pinLock v => Sys2Proof.Machine.execPinLock v s
  | .pinInput p level => Sys2Proof.Machine.execPinInput p level s
  | .registerWrite master addr v bytes => Sys2Proof.Machine.execRegisterWrite master addr v bytes s
  | .blockClockEdge die clk => Sys2Proof.Machine.execBlockClockEdge die clk s
  | .registerRead master addr bytes => Sys2Proof.Machine.execRegisterRead master addr bytes s
  | .domainPowered d => Sys2Proof.Machine.execDomainPowered d s
  | .chkLock lane locked => Sys2Proof.Machine.execChkLock lane locked s
  | .feSlip lane => Sys2Proof.Machine.execFeSlip lane s
  | .partVerifyDone hdr => Sys2Proof.Machine.execPartVerifyDone hdr s
  | .chainRdyN level => Sys2Proof.Machine.execChainRdyN level s
  | .wireBadEnd src pair => Sys2Proof.Machine.execWireBadEnd src pair s
  | .traceShutdownDone => Sys2Proof.Machine.execTraceShutdownDone s
  | .calibratorUpdate k taps => Sys2Proof.Machine.execCalibratorUpdate k taps s
  | .trstN asserted => Sys2Proof.Machine.execTrstN asserted s
  | .pciePerstN asserted => Sys2Proof.Machine.execPciePerstN asserted s

end Sys2Proof.Machine
end

