-- ==== Sys2Proof/Machine/Tick.lean ====
section
/-! DEFINITION. What one edge of the time clock does while no command waits (R210, R241, R316, R365). -/

namespace Sys2Proof.Machine

/-- The plinth's microsecond tick, counted in edges of the time clock: HST_ALIVE counts in every state but Off and stands at 0
in reset (R365). -/
def State.aliveTick (s : State) : State :=
  if s.inReset || s.fget F.PWR_STAT_STATE == 4 then s
  else if s.time.tick + 1 < 1000 then { s with time := { s.time with tick := s.time.tick + 1 } }
  else { s with time := { s.time with tick := 0 } }.countWrap F.HST_ALIVE_COUNT 1

/-- Boundaries of whole nanoseconds that the advance of the next edge passes; a step passes none. -/
def State.edgeNs (s : State) : Nat :=
  (s.time.now % 65536 + (s.timeAdvance.time.now + timeTop - s.time.now) % timeTop) / 65536

/-- Device time moves on, with what counts it: the time marks it owes, the grace timer, and the MODE 1 counters in Run and Idle. -/
def State.deviceTick (s : State) : State :=
  let u := ((s.timeEdge).writeMarks).graceRun
  if s.fget F.PWR_STAT_STATE < 2 then u.trigTimers s.edgeNs else u

/-- One edge of the time clock; device time stands in reset, in Deep sleep and in Off (R330). -/
def State.tickEdge (s : State) : State :=
  let t := s.aliveTick
  if s.timeRuns then t.deviceTick else t

end Sys2Proof.Machine
end

