-- ==== Sys2Proof/Safety.lean ====
section
/-! DEFINITION. What holds of a sound state, when a command of the host reaches its block, and what two states share: the terms
that the statements use. -/

namespace Sys2Proof.Machine

/-- The invariant: memory and register file are in canonical form, and the part is one of the family (R1, R5). -/
def State.Inv (s : State) : Prop :=
  Memory.wf s.mem ∧ SMap.Wf RegMap.resetWord s.regs ∧ (s.part = 0x4100 ∨ s.part = 0x4060)

/-- The endpoint serves a request at once: its link has trained, no request before it waits (R360, R361), no station on the way is closed
(R116), and nothing observes the rings, where the request and its response would be seen (R118, R345). -/
def State.hostFree (s : State) (r : HostReq) : Bool := s.reg R.HST_LINK != 0 && !s.hostHeld r && !s.sees 0

/-- A write of the host to the register at `a` reaches its block and starts nothing else: the device is out of reset and in
Run with no transition in progress, an image runs or the block takes writes without one, the block is present and
powered, and the endpoint serves the write at once (R3, R28, R286, R335, R341, R360). -/
def State.hostRuns (s : State) (a : Nat) : Bool :=
  !s.por && !s.warm && s.fget F.PWR_STAT_STATE == 0 && !s.bit F.PWR_STAT_TRANSITION && !s.power.entering && !s.power.exiting
    && (loadWritable a || s.image.committed) && !s.blockAbsent a && s.blockOn a && s.hostFree (.write a 4 0 0)

/-- The register that a command of the host writes, for the rows that are writes of one register or field. -/
def hostRegister : Instr → Option Nat
  | .halt _ => some R.TURN_CTL
  | .singleStep => some R.TURN_CTL
  | .relock => some R.TURN_CTL
  | .realign => some R.TURN_CTL
  | .slackRst => some R.TURN_CTL
  | .prbClr n => some (R.NOC_PRB_CTL n.toNat)
  | .laneEnable lane => some (R.LANE_CTL lane.toNat)
  | .laneDisable lane => some (R.LANE_CTL lane.toNat)
  | .txSrc lane _ => some (R.LANE_CTL lane.toNat)
  | .neLpbk lane _ => some (R.LANE_CTL lane.toNat)
  | .feLpbk lane _ => some (R.LANE_CTL lane.toNat)
  | .calPin lane _ => some (R.LANE_CAL_PIN lane.toNat)
  | .eyeScanStart lane => some (R.LANE_ES_CTL lane.toNat)
  | .eyeScanAbort lane => some (R.LANE_ES_CTL lane.toNat)
  | .chkClr lane => some (R.LANE_PRBS lane.toNat)
  | .todArm => some R.TIME_CTL
  | .todCancel => some R.TIME_CTL
  | .phaseGo => some R.TIME_CTL
  | .timeFreq _ => some R.TIME_FREQ
  | .toutEnable n => some (R.TOUT_CTL n.toNat)
  | .toutDisable n => some (R.TOUT_CTL n.toNat)
  | .capArm set n => some (capRegister set n.toNat)
  | .capTrig set n => some (capRegister set n.toNat)
  | .capStop set n => some (capRegister set n.toNat)
  | .seqStart n => some (R.TRG_SEQ_CTL n.toNat)
  | .seqStop n => some (R.TRG_SEQ_CTL n.toNat)
  | .thaw => some R.TRG_CTL
  | .trgSoft _ => some R.TRG_SOFT
  | .clr c => some (R.TRG_CNT_CFG c.toNat)
  | .patEnable n => some (R.PAT_CTL n.toNat)
  | .patDisable n => some (R.PAT_CTL n.toNat)
  | .patSrc n _ => some (R.PAT_CTL n.toNat)
  | .patGo n => some (R.PAT_CTL n.toNat)
  | .hpost _ => some (R.ACT_HPOST_ITEM + 12)
  | .actFlSet f _ => some (R.ACT_FL_SET f.toNat)
  | .cfgLoad _ => some R.CFG_CTL
  | .partGo => some R.CFG_PART_CTL
  | .partHold => some R.CFG_PART_CTL
  | .nvmRead => some R.CFG_NVM_CTL
  | .nvmWrite => some R.CFG_NVM_CTL
  | .nvmErase => some R.CFG_NVM_CTL
  | .relinquish => some R.SPL_CTL
  | .linkEn _ => some R.SPL_CTL
  | .ack => some R.FLT_CTL
  | .release => some R.FLT_CTL
  | .fltInjGo => some R.FLT_INJ
  | .fltInjWire => some R.FLT_INJ
  | .domainGate d => some (R.PWR_DOM d.toNat)
  | .domainEnable d => some (R.PWR_DOM d.toNat)
  | .traceEnable => some R.TRC_CTL
  | .traceDisable => some R.TRC_CTL
  | .traceFlush => some R.TRC_CTL
  | .dmaTail e _ => some (R.DMA_TAIL e.toNat)
  | .dmaEnable e => some (R.DMA_CTL e.toNat)
  | .dmaDisable e => some (R.DMA_CTL e.toNat)
  | .attestGo => some R.SEC_ATT_CTL
  | .rbAdvance _ => some R.SEC_RB_CTL
  | .fuseProgram _ => some R.SEC_FUSE_CTL
  | .pinCfg n _ => some (R.PIN_CFG n.toNat)
  | .pinLock _ => some R.PIN_LOCK
  | _ => none

/-- A read of the host of the register at `a` reaches its block. -/
def State.hostReads (s : State) (a : Nat) : Bool :=
  !s.hostAway && s.fget F.PWR_STAT_STATE == 0 && !s.power.entering && !s.power.exiting && !s.blockAbsent a && s.blockOn a
    && s.hostFree (.read a 4)

/-- The register is the `k`-th of a repeated one. -/
def repeated (a base stride n : Nat) : Bool := (inst a base stride n).isSome

/-- A write of the register (of the value from its lowest word) has no rule beyond the access types of its fields (R11, R12): it
starts no action, has no range of values, and is not discarded now (R213, R223, R249, R341, R348, R368). -/
def State.plainWrite (s : State) (a : Nat) : Bool :=
  !s.discards a &&
  if a < 0x10000 then !repeated a (R.DMA_CTL 0) 0x40 16 && !repeated a (R.DMA_TAIL 0) 0x40 16
  else if a < 0x20000 then a ∉ [R.FLT_CTL, R.FLT_GRACE, R.FLT_INJ] && !repeated a (R.FLT_CLASS 0) 4 5120
  else if a < 0x30000 then a ∉ [R.PWR_CTL, R.PWR_PAT] && !repeated a (R.PWR_DOM 0) 4 86
  else if a < 0x40000 then a ∉ [R.TIME_CTL, R.TIME_FREQ] && !repeated a (R.TOUT_CTL 0) 0x20 16
  else if a < 0x50000 then a ≠ R.PIN_LOCK && !repeated a (R.PIN_CFG 0) 4 192 && !repeated a (R.PIN_SW_OE 0) 4 6
  else if a < 0x60000 then a ∉ [R.CFG_CTL, R.CFG_PART_CTL, R.CFG_NVM_CTL]
  else if a < 0x70000 then a ∉ [R.SEC_ATT_CTL, R.SEC_RB_CTL, R.SEC_FUSE_CTL]
  else if a < 0x80000 then a ≠ R.SPL_CTL
  else if a < 0x90000 then a ≠ R.TRC_CTL && !(decide (R.TRC_START_SEL ≤ a) && s.bit F.TRC_CTL_EN)
  else if a < 0x100000 then !repeated a (R.NOC_PRB_CTL 0) 0x40 64
  else if a < 0x1000000 then a ≠ R.TURN_CTL
  else if a < 0x2000000 then true
  else if a < 0x3000000 then (a - 0x2000000) % 0x2000 ∉ [8, 0x10, 0x60, 0x64, 0x68, 0x7C, 0xA0]
  else if a < 0x3100000 then
    let n := (a - R.CAP_CFG 0) / 0x40
    let o := (a - R.CAP_CFG 0) % 0x40
    a ∉ [R.TRG_CTL, R.TRG_SOFT] && !(decide (R.TRG_LAGG 0 ≤ a) && decide (a < R.TRG_LAGG 32)) && !repeated a (R.CAP_SET 0) 4 16
      && !repeated a (R.TRG_SEQ_CTL 0) 0x200 8 && !repeated a (R.TRG_CNT_CFG 0) 0x10 64
      && !(decide (R.CAP_CFG 0 ≤ a) && decide (a < R.CAP_CFG 1024) && (o == 4 || (o ∈ [0, 0x0C, 0x14, 0x18] && s.capHeld n)))
  else if a < 0x3200000 then !repeated a (R.PAT_CTL 0) 0x40 1024
  else if a < 0x3300000 then
    a ≠ R.ACT_HPOST_ITEM && !repeated a (R.ACT_FL_SET 0) 0x20 4096 && !repeated a (R.ACT_DL_CFG 0) 0x10 4
  else if a < 0x3400000 then !repeated a (R.BNK_OWN 0) 0x10 64
  else !repeated a (R.EDG_IOC 0) 4 192

/-- A read of the register has no side effect beyond its RC fields and its snapshot (R11, R12): it pops no entry (R221), restarts
no measurement (R120, R212, R267) and reads no inspection window (R50). -/
def plainRead (a : Nat) : Bool :=
  !repeated a (R.TXQ_ENT 0) 0x20 64 && !repeated a (R.G32_BW 0) 0x80 8 && (windowAt a).isNone
    && a ∉ [R.TIME_PPS_CAP, R.ACT_STAT]

/-- No station on the way of a request is closed (R116). -/
def State.wayOpen (s : State) (p : Packet) : Bool :=
  !s.wayClosed (s.colFirst (entryStn p.src.toNat p.dstStn.toNat) p) (entryStn p.src.toNat p.dstStn.toNat) p.dstStn.toNat

/-- No station on the way of a response but its own, which drains, is closed (R116). -/
def State.answerOpen (s : State) (r : Response) : Bool := !s.wayBarred (s.colFirst r.stn r.p) r.stn r.p.dstStn.toNat

/-- The packet with the address that goes onto the rings: a BAR2 offset of the host counts from HST_AP_BASE (R359). -/
def State.sent (s : State) (p : Packet) : Packet :=
  if p.src = 0 ∧ p.bar2 = true then { p with addr := BitVec.ofNat 48 (s.wget W.HST_AP_BASE_BASE + p.addr.toNat) } else p

/-- A request goes onto the rings: the host's in Run, where no load bars it and its endpoint serves it at once, and that of another
listed master outside reset (R286, R360, R364). -/
def State.requestRuns (s : State) (p : Packet) (write : Bool) : Bool :=
  if p.src = 0 then
    !s.hostAway && s.fget F.PWR_STAT_STATE == 0 && !s.power.entering && !s.power.exiting && s.reg R.HST_LINK != 0
      && !s.hostHeld (.packet (if write then 1 else 0) (s.sent p))
      && (!write || loadWritable (s.sent p).addr.toNat || s.image.committed)
  else !s.inReset && masterOk p.src

/-- No probe, no latency monitor and no trace observes the ring. -/
def State.unobserved (s : State) : Prop :=
  (∀ n < 64, s.bit (F.NOC_PRB_CTL_EN n) = false) ∧ (∀ n < 8, s.bit (F.G32_INIT_EN n) = false) ∧ s.bit F.TRC_CTL_EN = false

/-- Knot `k` of sequencer `n` has the action of number `i`, in the order of the table of R243. -/
def State.knotHas (s : State) (n k i : Nat) : Bool :=
  match i with
  | 0 => s.bit (F.TRG_KNOT_CAP n k)
  | 1 => s.bit (F.TRG_KNOT_MARK n k)
  | 2 => s.fget (F.TRG_KNOT_PAT_OP n k) != 0
  | 3 => s.bit (F.TRG_KNOT_TOUT n k)
  | 4 => s.bit (F.TRG_KNOT_FREEZE n k)
  | 5 => s.bit (F.TRG_KNOT_THAW n k)
  | 6 => s.bit (F.TRG_KNOT_FLAG n k)
  | 7 => s.bit (F.TRG_KNOT_POST n k)
  | _ => false

/-- Of the sequencers in `seqs` only `n` fires. -/
def State.firesAlone (s : State) (seqs : BitVec 8) (inputs : BitVec 256) (n : Nat) : Prop :=
  n < 8 ∧ ∀ m, m < 8 → ((seqs.getLsbD m && s.knotFires (inputs ||| s.trigInputs) m) = true ↔ m = n)

/-- The stored word that strand `g` fetches at its next step. -/
def State.fetched (s : State) (g : Nat) : BitVec 72 := s.instrWord g (s.strand g).pos

/-- Strand `g` may step, and the word it fetches is sound, of class `op` and passes the checks of R66. -/
def State.runsClass (s : State) (op g : Nat) : Prop :=
  s.mayStep g = true ∧ decodeSyndrome (syndrome (s.fetched g)) = .clean ∧ wOp (wordData (s.fetched g)) = op ∧
    verdict (wordData (s.fetched g)) ((s.strand g).pos + 1 == s.schedL) (s.prefixStep (s.strand g).pos) = .runs

/-- Every register word keeps its value but those at the addresses of `l`. -/
def State.wordsBut (s t : State) (l : List Nat) : Prop := ∀ a, a ∉ l → t.reg a = s.reg a

/-- `t` differs from `s` in the register words at the addresses of `l` at most. -/
def State.onlyWords (s t : State) (l : List Nat) : Prop := t = { s with regs := t.regs } ∧ s.wordsBut t l

/-- From `s` to `t` unit `u` goes on at node offset `next` with its registers and frame as in `x`, and nothing else of the action
plane, of the registers but those at `l`, or of memory changes. -/
def State.nodeDone (s t : State) (u next : Nat) (x : Unit_) (l : List Nat) : Prop :=
  t.actUnit u = { x with nodes := (s.actUnit u).nodes + 1, wait := none } ∧ t.fget (F.ACT_UNIT_NODE u) = next ∧
    (∀ v, v ≠ u → t.actUnit v = s.actUnit v) ∧ t.act.flows = s.act.flows ∧ t.act.lists = s.act.lists ∧ t.mem = s.mem ∧
    s.wordsBut t (R.ACT_UNIT u :: l)

/-- From `s` to `t` the load in progress is refused with a code, at a section and frame (R282, R283, R291). -/
def State.refusedWith (s t : State) (code sec frame : Nat) : Prop :=
  t.fget F.CFG_REFUSE_CODE = code % 256 ∧ t.fget F.CFG_REFUSE_SECTION = sec % 256 ∧
    t.fget F.CFG_REFUSE_FRAME_FRAME = frame % 2 ^ 32 ∧ t.load.on = false ∧ t.mem = s.mem ∧ t.instrs = s.instrs ∧
    t.image = s.image ∧
    (s.load.part = false → t.fget F.CFG_STAT_STATE = (if s.bootsOn then 1 else 6) ∧ t.bit F.CFG_CHAIN_IN_ACTIVE = false) ∧
    (s.load.part = true → t.fget F.CFG_PART_STAT_CODE = code % 256 ∧
      t.fget F.CFG_PART_STAT_STATE = (if !s.recon.isolated then 0 else
        if s.fget F.CFG_PART_STAT_STATE = 1 then s.recon.was % 8 else 4) ∧ t.fget F.CFG_STAT_STATE = s.fget F.CFG_STAT_STATE)

/-- The load in progress is refused at the section being read, or as the sections held for REGION have given it (R146). -/
def State.refusedHere (s t : State) (code frame : Nat) : Prop :=
  match s.load.bad with
  | some (c, sec, i) => s.refusedWith t c sec i
  | none => s.refusedWith t code s.load.sec frame

/-- A setting of an ACTION or CAPTURE section stays in the registers of the trigger engine, the capture and pattern channels and
the action plane, and names a queue, flow or channel that there is. -/
def settingInPlace : Setting → Prop
  | .reg a _ => 0x3000000 ≤ a ∧ a < 0x3300000
  | .queue q _ _ _ _ => q < 16384
  | .flow f _ => f < 4096
  | .arm n => n < 1024
  | .node _ _ => True
  | .tin _ _ => True
  | .eventQueue _ _ => True
  | .keep n _ => n < 1024

/-- The parts of a state, for saying which of them a command may change. -/
inductive Part_ where
  | regs | snap | staged | mem | core | strands | instrs | ports | ring | image | lanes | caps | pats | reports | trace | time
  | trig | edge | act | splice | pinIn | land | host | flt | load | recon | nvm | power | store | sec | tap | pins | por | warm | free
  deriving DecidableEq, Repr

/-- `s` and `t` agree in a part. -/
def State.same (s t : State) : Part_ → Prop
  | .regs => s.regs = t.regs
  | .snap => s.snap = t.snap
  | .staged => s.staged = t.staged
  | .mem => s.mem = t.mem
  | .core => s.core = t.core
  | .strands => s.strands = t.strands
  | .instrs => s.instrs = t.instrs
  | .ports => s.ports = t.ports
  | .ring => s.ring = t.ring
  | .image => s.image = t.image
  | .lanes => s.lanes = t.lanes
  | .caps => s.caps = t.caps
  | .pats => s.pats = t.pats
  | .reports => s.reports = t.reports
  | .trace => s.trace = t.trace
  | .time => s.time = t.time
  | .trig => s.trig = t.trig
  | .edge => s.edge = t.edge
  | .act => s.act = t.act
  | .splice => s.splice = t.splice
  | .pinIn => s.pinIn = t.pinIn
  | .land => s.land = t.land
  | .host => s.host = t.host
  | .flt => s.flt = t.flt
  | .load => s.load = t.load
  | .recon => s.recon = t.recon
  | .nvm => s.nvm = t.nvm
  | .power => s.power = t.power
  | .store => s.store = t.store
  | .sec => s.sec = t.sec
  | .tap => s.tap = t.tap
  | .pins => s.pins = t.pins
  | .por => s.por = t.por
  | .warm => s.warm = t.warm
  | .free => s.free = t.free

/-- Every part of the state. -/
def allParts : List Part_ :=
  [.regs, .snap, .staged, .mem, .core, .strands, .instrs, .ports, .ring, .image, .lanes, .caps, .pats, .reports, .trace,
  .time, .trig, .edge, .act, .splice, .pinIn, .land, .host, .flt, .load, .recon, .nvm, .power, .store, .sec, .tap, .pins,
  .por, .warm, .free]

/-- The parts of the state that a command may change, for the commands that may reset the device all of them. -/
def mayChange : Instr → List Part_
  | .prefixStart =>
    [.core]
  | .stationDrainEnd _ | .laneShutdownDone _ | .ppsLoss | .refQualified | .calibratorUpdate _ _ =>
    [.regs]
  | .turnOutputRead _ _ _ _ =>
    [.edge]
  | .capBlockClose _ _ =>
    [.caps]
  | .scriptEnd =>
    [.load]
  | .partnerTrigOut _ =>
    [.trig]
  | .partTurnNumbers _ _ =>
    [.splice]
  | .bypass | .idcode | .samplePreload _ _ | .extest _ | .clamp | .highz | .lifetime | .trstN _ =>
    [.tap]
  | .lifetimeWrite _ =>
    [.store]
  | .pciePerstN _ =>
    [.host]
  | .outputRelease =>
    [.core, .edge]
  | .scrubStep _ =>
    [.regs, .instrs]
  | .portReturn _ _ | .deferredDataArrival _ _ =>
    [.regs, .ports]
  | .eyeScanPoint _ _ | .chkLock _ _ | .feSlip _ =>
    [.regs, .lanes]
  | .slewDone | .toutPulseEnd _ =>
    [.regs, .time]
  | .timeRefLost | .railFault _ =>
    [.regs, .reports]
  | .timeMark =>
    [.caps, .time]
  | .patShutdownDone _ =>
    [.regs, .pats]
  | .delayTick _ =>
    [.regs, .act]
  | .nvmError | .recs _ | .scriptWait | .scriptPollTimeout | .chainFail | .fwdFail =>
    [.regs, .load]
  | .nvmDone _ _ =>
    [.regs, .nvm]
  | .hello _ | .heartbeat _ | .mirrorWord _ _ _ | .writtenFlags _ _ | .flowContextDelta _ =>
    [.regs, .splice]
  | .pwrGo _ | .pwrFlagRequest _ | .domainPowered _ =>
    [.regs, .power]
  | .traceRecord _ | .traceShutdownDone =>
    [.regs, .trace]
  | .boardId _ =>
    [.store, .tap]
  | .wireBadEnd _ _ =>
    [.regs, .flt]
  | .anchorLost =>
    [.regs, .core, .reports]
  | .turnInputWrite _ _ _ _ _ =>
    [.regs, .core, .splice]
  | .calMicroStep _ _ _ =>
    [.regs, .lanes, .reports]
  | .toutPulse _ =>
    [.regs, .time, .trig]
  | .patSourceSwitch _ | .patSegmentEnd _ | .patUnderrun _ =>
    [.regs, .pats, .reports]
  | .actEnd _ =>
    [.regs, .act, .splice]
  | .bootLoad _ _ | .chainIn _ =>
    [.regs, .load, .sec]
  | .dict _ _ =>
    [.regs, .mem, .load]
  | .pairFail | .promotionComplete =>
    [.regs, .reports, .splice]
  | .attestDone =>
    [.regs, .sec, .free]
  | .chainRdyN _ =>
    [.regs, .load, .free]
  | .turnOverrun =>
    [.regs, .core, .reports, .free]
  | .calApply _ _ _ =>
    [.regs, .lanes, .caps, .time]
  | .queuePost _ _ _ =>
    [.regs, .mem, .ring, .reports]
  | .movi _ | .add _ | .logic _ | .shift _ | .fieldNode _ | .cmp _ | .test _ | .hash _ | .now _ | .load _ | .store _
  | .count _ | .build _ | .patch _ | .fcs _ | .tsreq _ | .sendp _ | .sendt _ | .post _ | .event _ | .delay _ | .cancel _
  | .mask _ | .clrf _ =>
    [.regs, .reports, .act, .splice]
  | .frameWrite _ _ | .repl _ _ _ _ | .zeroFrames _ _ =>
    [.regs, .mem, .instrs, .load]
  | .privateInstruction _ =>
    [.regs, .sec, .tap, .free]
  | .prefixCancel =>
    [.regs, .core, .strands, .ring, .trace]
  | .bightDelivery _ _ _ =>
    [.regs, .strands, .ring, .reports, .trace]
  | .stream _ =>
    [.regs, .ring, .reports, .trace, .free]
  | .capBlockWrite _ =>
    [.regs, .mem, .caps, .reports, .trig]
  | .timeAdjustment _ =>
    [.regs, .core, .trace, .time, .splice]
  | .traceIdleFlush =>
    [.regs, .mem, .ring, .reports, .trace]
  | .halt _ | .singleStep | .slackRst | .g32BwRead _ | .prbClr _ | .bnkOwnWrite _ _ _ | .laneEnable _ | .txSrc _ _
  | .neLpbk _ _ | .feLpbk _ _ | .eyeScanAbort _ | .chkClr _ | .todCancel | .toutDisable _ | .seqStop _ | .thaw
  | .patDisable _ | .actFlSet _ _ | .ack | .release | .domainGate _ | .domainEnable _ | .traceEnable | .dmaTail _ _
  | .dmaEnable _ | .dmaDisable _ | .rbAdvance _ =>
    [.regs, .ring, .trace, .host, .power, .free]
  | .portAccess _ _ | .bankDelayedAccess _ _ =>
    [.regs, .mem, .core, .ports, .ring, .reports]
  | .laneLock _ _ _ _ _ =>
    [.regs, .core, .lanes, .caps, .time, .splice]
  | .laneLockLoss _ _ =>
    [.regs, .core, .lanes, .caps, .reports, .trig]
  | .ppsEdge _ =>
    [.regs, .core, .trace, .time, .splice, .free]
  | .patDescFetch _ =>
    [.regs, .ring, .pats, .reports, .trace, .free]
  | .dispatch _ | .affinityWaitExpiry _ =>
    [.regs, .ring, .reports, .trace, .act, .free]
  | .partnerLoss _ =>
    [.regs, .caps, .reports, .splice, .store, .free]
  | .tracePacketWrite =>
    [.regs, .mem, .ring, .reports, .trace, .free]
  | .dmaDescriptorDone _ _ =>
    [.regs, .ring, .reports, .trace, .host, .free]
  | .fuseProgramDone _ =>
    [.regs, .trace, .flt, .store, .sec, .tap]
  | .blockClockEdge _ _ =>
    [.regs, .trig, .edge, .pinIn, .pins, .free]
  | .nop _ | .eval _ | .evalLatch _ | .stateRead _ | .evalSend _ | .evalPort _ | .evalCheck _ | .turnEnd _ =>
    [.regs, .core, .strands, .ports, .ring, .reports, .trace]
  | .relock =>
    [.regs, .core, .ring, .trace, .host, .power, .free]
  | .eyeScanStart _ =>
    [.regs, .ring, .lanes, .trace, .host, .power, .free]
  | .todArm | .toutEnable _ =>
    [.regs, .ring, .trace, .time, .host, .power, .free]
  | .timeFreq _ | .relinquish =>
    [.regs, .ring, .trace, .splice, .host, .power, .free]
  | .capTrig _ _ =>
    [.regs, .ring, .caps, .trace, .host, .power, .free]
  | .trgSoft _ | .clr _ =>
    [.regs, .ring, .trace, .trig, .host, .power, .free]
  | .patEnable _ =>
    [.regs, .ring, .pats, .trace, .host, .power, .free]
  | .partGo | .partHold =>
    [.regs, .ring, .trace, .host, .recon, .power, .free]
  | .regionIsolate =>
    [.regs, .core, .instrs, .ring, .edge, .splice, .recon]
  | .nvmRead | .nvmWrite | .nvmErase =>
    [.regs, .ring, .trace, .host, .nvm, .power, .free]
  | .fltInjGo =>
    [.regs, .ring, .reports, .trace, .host, .power, .free]
  | .attestGo | .fuseProgram _ =>
    [.regs, .ring, .trace, .host, .power, .sec, .free]
  | .pinCfg _ _ | .pinLock _ =>
    [.regs, .ring, .trace, .host, .power, .pins, .free]
  | .pinInput _ _ =>
    [.regs, .trig, .edge, .splice, .pinIn, .land, .pins]
  | .partVerifyDone _ =>
    [.regs, .instrs, .ring, .edge, .load, .recon, .sec]
  | .realign =>
    [.regs, .core, .ring, .trace, .splice, .host, .power, .free]
  | .laneTxWord _ _ =>
    [.regs, .ring, .lanes, .pats, .reports, .trace, .time, .free]
  | .calPin _ _ =>
    [.regs, .ring, .lanes, .reports, .trace, .host, .power, .free]
  | .phaseGo =>
    [.regs, .ring, .trace, .time, .splice, .host, .power, .free]
  | .txqPop _ | .registerRead _ _ _ =>
    [.regs, .snap, .ring, .trace, .time, .host, .power, .free]
  | .capArm _ _ | .capStop _ _ =>
    [.regs, .ring, .caps, .trace, .trig, .host, .power, .free]
  | .knotTransition _ _ =>
    [.regs, .mem, .ring, .caps, .pats, .reports, .trig, .splice]
  | .patSrc _ _ | .patGo _ =>
    [.regs, .ring, .pats, .trace, .trig, .host, .power, .free]
  | .scriptPoll =>
    [.regs, .snap, .ring, .trace, .time, .host, .load, .free]
  | .traceDisable | .traceFlush =>
    [.regs, .mem, .ring, .reports, .trace, .host, .power, .free]
  | .laneRxWord _ _ =>
    [.regs, .core, .lanes, .caps, .time, .trig, .splice, .power, .free]
  | .laneDisable _ | .linkEn _ =>
    [.regs, .core, .ring, .lanes, .reports, .trace, .host, .power, .free]
  | .hpost _ =>
    [.regs, .staged, .mem, .ring, .reports, .trace, .host, .power, .free]
  | .commit =>
    [.regs, .mem, .core, .strands, .ports, .ring, .reports, .trig, .splice, .free]
  | .turnBoundary =>
    [.regs, .core, .strands, .ports, .ring, .reports, .trace, .edge, .act, .splice, .free]
  | .actOpComplete _ =>
    [.regs, .mem, .core, .ring, .pats, .reports, .trace, .trig, .act, .splice, .free]
  | .sectionEnd _ =>
    [.regs, .mem, .strands, .instrs, .ring, .caps, .edge, .act, .load, .recon, .free]
  | .seqStart _ =>
    [.regs, .mem, .ring, .caps, .pats, .reports, .trace, .trig, .splice, .host, .power, .free]
  | .regionRelease =>
    [.regs, .core, .strands, .ports, .ring, .image, .reports, .edge, .splice, .load, .recon, .store, .sec]
  | .domainGated _ =>
    [.regs, .mem, .strands, .instrs, .ports, .ring, .lanes, .caps, .pats, .reports, .edge, .act, .power]
  | .scriptCommit =>
    [.regs, .mem, .core, .strands, .ports, .ring, .image, .caps, .reports, .edge, .act, .splice, .flt, .load, .recon, .store, .sec, .pins, .free]
  | .deepSleepReload _ _ =>
    [.regs, .mem, .core, .strands, .instrs, .ports, .ring, .image, .lanes, .caps, .pats, .trig, .edge, .act, .splice, .host, .recon, .power, .sec, .pins]
  | .cfgLoad _ =>
    [.regs, .core, .strands, .ports, .ring, .image, .lanes, .caps, .pats, .trace, .trig, .edge, .act, .splice, .host, .load, .recon, .power, .sec, .pins, .free]
  | .read _ | .write _ | .postedWrite _ | .respData _ _ | .respAck _ _ | .tableSwap _ | .handoverComplete _ | .porN _
  | .warmN _ | .scriptWrite | .faultFetch _ _ | .wireFault _ _ | .graceExpiry | .fltInjWire | .thermSample _ _ | .brownout
  | .stepClockStop | .wake _ | .pwrExitComplete | .registerWrite _ _ _ _ => allParts

end Sys2Proof.Machine
end

