-- ==== Sys2Proof/Certificates/Slice0/Obligations.lean ====
section
/-! DEFINITION. The statements about the model, one for each obligation. -/

open Sys2Proof Sys2Proof.Machine

/-- For every command c, every queue rest and every state s, the step of s with c at the front of its queue is exec of c on s with
the queue's rest; with an empty queue the step answers a next state, which is one edge of the time clock (the model's choice,
log entry 1). (95_what_each_step_holds.md) -/
def Obligations.StepRunsFront : Prop :=
  (∀ (c : Instr) (rest : List Instr) (s : State),
    step { s with pending := c :: rest } = exec c { s with pending := rest }) ∧
  (∀ s : State, step { s with pending := [] } = .next (State.tickEdge { s with pending := [] }))

/-- No command stops the device: for every command c and every state s, exec of c on s answers a next state; the device's own
faults are reports to its collector. (95_what_each_step_holds.md) -/
def Obligations.ExecAnswers : Prop := ∀ (c : Instr) (s : State), ∃ t, exec c s = .next t

/-- For every command c and every state s, if exec of c on s answers next t, then t has the queue of s, and the PART and STEP of
HST_ID that s has; an idle step leaves them as they are too. (R5, 95_what_each_step_holds.md) -/
def Obligations.ExecKeepsQueue : Prop :=
  (∀ (c : Instr) (s t : State), exec c s = .next t → t.pending = s.pending ∧ t.part = s.part ∧ t.stepping = s.stepping) ∧
  ∀ s : State, s.tickEdge.pending = s.pending ∧ s.tickEdge.part = s.part ∧ s.tickEdge.stepping = s.stepping

/-- For every state s in which the memory and the register file are in canonical form and PART is 0x4100 or 0x4060, if the step of
s answers next t, then the same holds of t. (R1, R5, R11, R122) -/
def Obligations.StepKeepsInv : Prop := ∀ s t : State, s.Inv → step s = .next t → t.Inv

/-- State.reset meets the invariant; in it every register word reads the reset value of its register table, HST_ID reads an AY4100
in stepping B0 (the model's choice among the two values that R5 gives each field, log entry 4), no command waits, and no
memory byte is listed. (R5, R14) -/
def Obligations.ResetInv : Prop :=
  State.reset.Inv ∧ (∀ a, State.reset.reg a = RegMap.resetWord a) ∧ State.reset.part = 0x4100 ∧ State.reset.stepping = 0xB0 ∧
    State.reset.pending = [] ∧ State.reset.mem = []

/-- For every command c and every state s, if exec of c on s answers next t, then every fuse bit that is 1 in s is 1 in t; and no
command but FUSE_PROGRAM_DONE changes any fuse. (R375, R377) -/
def Obligations.FusesOneWay : Prop :=
  ∀ (c : Instr) (s t : State), exec c s = .next t →
    (∀ w i, (s.fuse w).getLsbD i = true → (t.fuse w).getLsbD i = true) ∧
      ((∀ took, c ≠ .fuseProgramDone took) → t.store.fuses = s.store.fuses)

/-- For every command c and every state s, if exec of c on s answers next t, then t agrees with s in every part of the state that
the table mayChange does not list for c: no command but those listed changes the registers, the memory, the strands, the
instruction store, the ports, the ring, the image, the lanes, the capture and pattern channels, the time unit, the fabric, the
action plane, the splice unit, the fuses and the rest. (95_what_each_step_holds.md) -/
def Obligations.ExecFrame : Prop :=
  ∀ (c : Instr) (s t : State), exec c s = .next t → ∀ p, p ∉ mayChange c → s.same t p

/-- The index of the truth table for operands A, B, C, D is 8·D + 4·C + 2·B + A; and whenever a strand that may step fetches a
sound word of an evaluating class that passes the checks of R66, the result that enters its history is TT at the index of the
four operand values fetched through the selectors A, B, C, D. Selector k below 0x80 reads Hk with no fault; 0xF0 and 0xF1 read
0 and 1; FIRST reads the cord's first-turn bit and TURN_PARITY bit 0 of the turn number; an inbox selector reads the latch
value as it stood before a delivery of the same step and raises LATE_OPERAND, in a prefix step PREFIX_VIOLATION, exactly when
the latch's valid bit as seen is clear; a neighbour selector reads the neighbour's newest result, and where that neighbour has
already executed this step, the one before it; the strand's own index reads H0. Port latch selector m of a strand reads bit
8·i + m of its port's read register as it stood at the start of the step, i being the ply's place in its group, with
DEFERRED_LATE where deferred data missed its step this turn, else PORT_EARLY where a fired read has not yet entered the
register, else no fault. (R35, R38, R39, R41, R42, R43, R52, R55, R128) -/
def Obligations.Operands : Prop :=
  (
    (∀ a b c d : Bool, ttIndex [a, b, c, d] = 8 * d.toNat + 4 * c.toNat + 2 * b.toNat + a.toNat) ∧
    ∀ p ∈ [(Instr.eval, opEval), (Instr.evalLatch, opEvalLatch), (Instr.evalSend, opEvalSend), (Instr.evalPort, opEvalPort),
        (Instr.evalCheck, opEvalCheck)],
      ∀ (g : StrandId) (s : State), s.runsClass p.2 g.toNat →
        let w := wordData (s.fetched g.toNat)
        let vals := (wSels w).map fun x =>
          ((s.enterStep (s.strand g.toNat).pos).operand g.toNat (s.strand g.toNat).pos (s.prefixStep (s.strand g.toNat).pos) x).1
        ∃ t, exec (p.1 g) s = .next t ∧
          (t.strand g.toNat).hist = (s.strand g.toNat).hist <<< 1 ||| (if (wTT w).testBit (ttIndex vals) then 1 else 0)) ∧
  (
    ∀ (s : State) (g t : Nat) (inPrefix : Bool),
      (∀ k, k < 0x80 → s.operand g t inPrefix k = ((s.strand g).hist.getLsbD k, none)) ∧
      s.operand g t inPrefix 0xF0 = (false, none) ∧ s.operand g t inPrefix 0xF1 = (true, none) ∧
      s.operand g t inPrefix 0xF2 = (s.core.first.getLsbD (gCord g), none) ∧
      s.operand g t inPrefix 0xF3 = (s.turnNum % 2 == 1, none) ∧
      (∀ m, m < 32 →
        let l := (s.strand g).latch m
        (l.at_ = some t → (s.operand g t inPrefix (0x80 + m)).1 = l.prevVal) ∧
        (l.at_ ≠ some t → (s.operand g t inPrefix (0x80 + m)).1 = l.val) ∧
        (s.operand g t inPrefix (0x80 + m)).2 =
          if (l.seen t).2 then none else some (if inPrefix then 0x0108 else 0x0107, 0x80 + m, accBight)) ∧
      (∀ j, j < 16 → g / 16 * 16 + j ≠ g →
        s.operand g t inPrefix (0xA0 + j) =
          ((s.strand (g / 16 * 16 + j)).hist.getLsbD (if t < (s.strand (g / 16 * 16 + j)).pos then 1 else 0), none)) ∧
      s.operand g t inPrefix (0xA0 + g % 16) = ((s.strand g).hist.getLsbD 0, none)) ∧
  (
    ∀ (s : State) (g t m : Nat) (inPrefix : Bool), m < 8 →
      let p := s.port (portKey (gCord g) (gGroup g))
      let now := s.core.base + t
      s.operand g t inPrefix (0xB0 + m) =
        ((if now < p.entry then p.rprev else p.rdata).getLsbD (8 * (gPly g % 16) + m),
          if p.lateTurn then some (0x010A, gGroup g, accRead)
          else if p.early now then some (0x0109, gGroup g, accRead) else none))

/-- A strand that may step and fetches a sound word of class NOP, STATE_READ, TURN_END or an evaluating class that passes the
checks of R66 completes: the history shifts by one with the result as H0 (0 for NOP and TURN_END, the state bit for
STATE_READ), the strand goes to its next step and keeps its state store, and no other strand, no instruction word, no byte of
memory, no lane, no image datum and no fuse changes. (R34, R52, R57) -/
def Obligations.StrandRows : Prop :=
  ∀ p ∈ [(Instr.nop, opNop), (Instr.eval, opEval), (Instr.evalLatch, opEvalLatch), (Instr.stateRead, opStateRead),
      (Instr.evalSend, opEvalSend), (Instr.evalPort, opEvalPort), (Instr.evalCheck, opEvalCheck), (Instr.turnEnd, opTurnEnd)],
    ∀ (g : StrandId) (s : State), s.runsClass p.2 g.toNat →
      let x := s.strand g.toNat
      ∃ (t : State) (r : Bool), exec (p.1 g) s = .next t ∧ (t.strand g.toNat).hist = x.hist <<< 1 ||| (if r then 1 else 0) ∧
        (p.2 = opNop ∨ p.2 = opTurnEnd → r = false) ∧
        (p.2 = opStateRead → r = x.readState (wAux (wordData (s.fetched g.toNat)))) ∧
        (t.strand g.toNat).pos = x.pos + 1 ∧ (t.strand g.toNat).store = x.store ∧
        (∀ h, h ≠ g.toNat → t.strand h = s.strand h) ∧ t.instrs = s.instrs ∧ t.mem = s.mem ∧ t.lanes = s.lanes ∧
        t.image = s.image ∧ t.store = s.store

/-- Under the conditions of StrandRows: EVAL_LATCH stages its result for S[AUX[9:0]] and changes no other staged value, and a
second write of one bit in the turn raises STATE_WRITE_DUP, but not where a cancelled prefix has executed the step before;
EVAL_SEND launches, for each entry of its station's output table that names it at this step, a bight with its result where the
entry has its tag and with 0 where not, which arrives after the link's cost; it raises SLOT_OWNER where an entry has another
tag or none has its own, and so does every other row that an entry names; EVAL_PORT writes its result to staging bit AUX[7:0]
of the strand's port unless a lower strand of the cord has written that bit at this step, leaves the other 255 bits as they
were, and with AUX[11] marks a port operation for the next step; EVAL_CHECK with result 1 leaves event AUX[9:0] marked at this
step or an earlier one, and with result 0 marks nothing; TURN_END enters 0 and then clears the ring: no bight remains that
would arrive at step L or later. (R57, R58, R59, R60, R61, R62, R105) -/
def Obligations.StrandEffects : Prop :=
  (∀ (g : StrandId) (s : State), s.runsClass opEvalLatch g.toNat →
    let a := wAux (wordData (s.fetched g.toNat)) % 1024
    ∃ t, exec (.evalLatch g) s = .next t ∧ SMap.find (t.strand g.toNat).staged a = some ((t.strand g.toNat).hist.getLsbD 0) ∧
      (∀ b, b ≠ a → SMap.find (t.strand g.toNat).staged b = SMap.find (s.strand g.toNat).staged b) ∧
      ((SMap.find (s.strand g.toNat).staged a).isSome = true → (s.strand g.toNat).redo ≤ (s.strand g.toNat).pos →
        s.srcOn (gCord g.toNat) = true → ∃ r ∈ t.reports, r.src = gCord g.toNat ∧ r.code = 0x010D)) ∧
  (∀ (g : StrandId) (s : State), s.runsClass opEvalSend g.toNat →
    let c := gCord g.toNat
    let n := (s.strand g.toNat).pos
    let tag := wAux (wordData (s.fetched g.toNat)) % 32
    let mine := (s.outEntries c n).filter fun e => entryKind e.2 = 1 ∧ entryStrand e.2 = g.toNat % 1024
    ∃ t, exec (.evalSend g) s = .next t ∧
      (∀ e ∈ mine, ∀ far bridge, linkOf s.closed c (e.1 / 64) = some (far, bridge) →
        ∃ b ∈ t.ring.bights, b.stn = far ∧ b.dir = e.1 / 64 ∧ b.pos = e.1 % 64 ∧
          b.val = (entryTag e.2 == tag && (t.strand g.toNat).hist.getLsbD 0) ∧
          b.at_ = n + (if bridge then s.bridgeCost else 1) ∧ b.spec = s.prefixStep n) ∧
      ((∃ e ∈ mine, entryTag e.2 ≠ tag) ∨ (∀ e ∈ mine, entryTag e.2 ≠ tag) → s.srcOn c = true →
        ∃ r ∈ t.reports, r.src = c ∧ r.code = 0x0104)) ∧
  (∀ p ∈ [(Instr.nop, opNop), (Instr.eval, opEval), (Instr.evalLatch, opEvalLatch), (Instr.stateRead, opStateRead),
      (Instr.evalPort, opEvalPort), (Instr.evalCheck, opEvalCheck), (Instr.turnEnd, opTurnEnd)],
    ∀ (g : StrandId) (s : State), s.runsClass p.2 g.toNat →
      (∃ e ∈ s.outEntries (gCord g.toNat) (s.strand g.toNat).pos, entryKind e.2 = 1 ∧ entryStrand e.2 = g.toNat % 1024) →
      s.srcOn (gCord g.toNat) = true → ∃ t, exec (p.1 g) s = .next t ∧
        ∃ r ∈ t.reports, r.src = gCord g.toNat ∧ r.code = 0x0104) ∧
  (∀ (g : StrandId) (s : State), s.runsClass opEvalPort g.toNat →
    let k := portKey (gCord g.toNat) (gGroup g.toNat)
    let aux := wAux (wordData (s.fetched g.toNat))
    let p := (s.enterStep (s.strand g.toNat).pos).port k
    let lower := p.wstep = s.core.base + (s.strand g.toNat).pos ∧ ∃ m, SMap.find p.writers (aux % 256) = some m ∧ m < g.toNat % 1024
    ∃ t, exec (.evalPort g) s = .next t ∧
      (¬lower → (t.port k).stage.getLsbD (aux % 256) = (t.strand g.toNat).hist.getLsbD 0) ∧
      (lower → (t.port k).stage.getLsbD (aux % 256) = p.stage.getLsbD (aux % 256)) ∧
      (∀ i, i ≠ aux % 256 → (t.port k).stage.getLsbD i = p.stage.getLsbD i) ∧
      (aux.testBit 11 = true → (t.port k).fire.isSome = true) ∧ (aux.testBit 11 = false → (t.port k).fire = p.fire)) ∧
  (∀ (g : StrandId) (s : State), s.runsClass opEvalCheck g.toNat →
    let e := wAux (wordData (s.fetched g.toNat)) % 1024
    ∃ t, exec (.evalCheck g) s = .next t ∧
      ((t.strand g.toNat).hist.getLsbD 0 = true → ∃ m, SMap.find t.core.asserts e = some m ∧ m.1 ≤ (s.strand g.toNat).pos) ∧
      ((t.strand g.toNat).hist.getLsbD 0 = false → t.core.asserts = s.core.asserts)) ∧
  ∀ (g : StrandId) (s : State), s.runsClass opTurnEnd g.toNat →
    ∃ u : State, exec (.turnEnd g) s = .next u.endSchedule ∧ u.strand g.toNat = (s.strand g.toNat).advance false ∧
      u.ports = (s.enterStep (s.strand g.toNat).pos).ports ∧ ∀ b ∈ u.endSchedule.ring.bights, b.at_ < u.schedL

/-- The verdict of the checks: at the last step a word other than TURN_END is to execute as no operation of its own (StrandStops
says what it does); elsewhere a reserved OP is stopped with ILLEGAL_OP, a TURN_END is to execute as no operation either, a
reserved selector in a field that the class fetches is stopped with ILLEGAL_OPERAND naming a reserved field, and at a prefix
step an EVAL_PORT, or a fetched port latch selector, is stopped with PREFIX_VIOLATION; a word that fetches no reserved
selector and no port latch runs. A strand that may step and whose stored word is uncorrectable, or whose corrected word is
stopped by the checks of R66, enters 0 in its history and goes to its next step under every one of the eight rows; nothing is
staged, its port's staging register, writers and FIRE and the assertion events stay as the start of the step left them, and
its cord, whose source reports, holds a report of INSTR_UNCORRECTABLE, or of the code that the check names. A word that the
checks let execute as no operation of its own enters 0 too, with a report of ILLEGAL_OP, and at the last step it ends the
schedule as TURN_END does: no bight remains that would arrive at step L or later. A word with one bit in error whose corrected
word is of the row's class and passes the checks completes, counts in CRD_CE_EXEC and loads CRD_CE_LOC with the strand, the
step and the syndrome. A strand that may not step is left as it is by all eight rows. (R40, R42, R45, R46, R66) -/
def Obligations.WordFaults : Prop :=
  (
    (∀ (w : W64) (inPrefix : Bool), verdict w true inPrefix = if wOp w = opTurnEnd then .runs else .asNop) ∧
    (∀ (w : W64) (inPrefix : Bool), opReserved (wOp w) = true → verdict w false inPrefix = .stopped 0x0102 (wOp w) accInstr) ∧
    (∀ (w : W64) (inPrefix : Bool), wOp w = opTurnEnd → verdict w false inPrefix = .asNop) ∧
    (∀ (w : W64) (inPrefix : Bool), opFetches (wOp w) = true → (∃ x ∈ wSels w, selReserved x = true) →
      ∃ i x, (wSels w)[i]? = some x ∧ selReserved x = true ∧ (∀ j < i, ∀ y, (wSels w)[j]? = some y → selReserved y = false) ∧
        verdict w false inPrefix = .stopped 0x0103 (x + i * 256) accInstr) ∧
    (∀ w : W64, (∀ x ∈ wSels w, selReserved x = false) → wOp w = opEvalPort →
      verdict w false true = .stopped 0x0108 256 accBight) ∧
    (∀ w : W64, (∀ x ∈ wSels w, selReserved x = false) → opFetches (wOp w) = true → wOp w ≠ opEvalPort →
      (∃ x ∈ wSels w, selPort x = true) → ∃ x ∈ wSels w, selPort x = true ∧ verdict w false true = .stopped 0x0108 x accBight) ∧
    ∀ (w : W64) (inPrefix : Bool), opReserved (wOp w) = false → wOp w ≠ opTurnEnd →
      (opFetches (wOp w) = true → ∀ x ∈ wSels w, selReserved x = false) →
      (inPrefix = true → wOp w ≠ opEvalPort ∧ (opFetches (wOp w) = true → ∀ x ∈ wSels w, selPort x = false)) →
      verdict w false inPrefix = .runs) ∧
  (
    (∀ c ∈ [Instr.nop, .eval, .evalLatch, .stateRead, .evalSend, .evalPort, .evalCheck, .turnEnd],
      ∀ (g : StrandId) (s : State),
        let x := s.strand g.toNat
        let w := s.fetched g.toNat
        let u := s.enterStep x.pos
        (s.mayStep g.toNat = false → exec (c g) s = .next s) ∧
        ∀ code, s.mayStep g.toNat = true →
          (decodeSyndrome (syndrome w) = .uncorrectable ∧ code = 0x0101 ∨ decodeSyndrome (syndrome w) ≠ .uncorrectable ∧
            ∃ addr acc, verdict (correctedData w) (x.pos + 1 == s.schedL) (s.prefixStep x.pos) = .stopped code addr acc) →
          ∃ t, exec (c g) s = .next t ∧ t.strand g.toNat = { x with hist := x.hist <<< 1, pos := x.pos + 1 } ∧
            t.ports = u.ports ∧ t.core.asserts = u.core.asserts ∧
            (s.srcOn (gCord g.toNat) = true → ∃ r ∈ t.reports, r.src = gCord g.toNat ∧ r.code = code)) ∧
    (∀ c ∈ [Instr.nop, .eval, .evalLatch, .stateRead, .evalSend, .evalPort, .evalCheck, .turnEnd],
      ∀ (g : StrandId) (s : State),
        let x := s.strand g.toNat
        let w := s.fetched g.toNat
        s.mayStep g.toNat = true → decodeSyndrome (syndrome w) ≠ .uncorrectable →
        verdict (correctedData w) (x.pos + 1 == s.schedL) (s.prefixStep x.pos) = .asNop →
        ∃ t, exec (c g) s = .next t ∧ t.strand g.toNat = { x with hist := x.hist <<< 1, pos := x.pos + 1 } ∧
          t.ports = (s.enterStep x.pos).ports ∧
          (s.srcOn (gCord g.toNat) = true → ∃ r ∈ t.reports, r.src = gCord g.toNat ∧ r.code = 0x0102) ∧
          (x.pos + 1 = s.schedL → ∀ b ∈ t.ring.bights, b.at_ < s.schedL)) ∧
    ∀ p ∈ [(Instr.nop, opNop), (Instr.eval, opEval), (Instr.evalLatch, opEvalLatch), (Instr.stateRead, opStateRead),
        (Instr.evalSend, opEvalSend), (Instr.evalPort, opEvalPort), (Instr.evalCheck, opEvalCheck), (Instr.turnEnd, opTurnEnd)],
      ∀ (g : StrandId) (s : State),
        let x := s.strand g.toNat
        let w := s.fetched g.toNat
        let c := gCord g.toNat
        s.mayStep g.toNat = true → decodeSyndrome (syndrome w) ≠ .uncorrectable → decodeSyndrome (syndrome w) ≠ .clean →
        wOp (correctedData w) = p.2 → verdict (correctedData w) (x.pos + 1 == s.schedL) (s.prefixStep x.pos) = .runs →
        ∃ (t : State) (r : Bool), exec (p.1 g) s = .next t ∧ (t.strand g.toNat).hist = x.hist <<< 1 ||| (if r then 1 else 0) ∧
          (t.strand g.toNat).pos = x.pos + 1 ∧
          t.fget (F.CRD_CE_EXEC_COUNT c) = satAdd (2 ^ (F.CRD_CE_EXEC_COUNT c).w - 1) (s.fget (F.CRD_CE_EXEC_COUNT c)) 1 ∧
          t.reg (R.CRD_CE_LOC c) = BitVec.ofNat 32 (locWord (g.toNat % 1024) x.pos (syndrome w) 0))

/-- A stored word with no bit in error has syndrome 0; one with any single bit of its 72 in error is not uncorrectable and its
corrected data is the data stored; one with any two different bits in error is uncorrectable. SCRUB_STEP of a configured cord
that is not isolated, with the scrubber enabled, in Run and with no step of the cord executing, goes to the next step number,
wrapping after 4095; the stored words of that step in the cord's 1,024 strands that hold a correctable error are replaced by
their corrected data with a recomputed check byte, and every other word of every instruction store is kept; no strand's
history or state changes. Otherwise it changes nothing. (R32, R45, R46, R47, R48) -/
def Obligations.InstructionEcc : Prop :=
  (
    ∀ d : W64, decodeSyndrome (syndrome (storedWord d)) = .clean ∧
      (∀ i < 72, correctedData (storedWord d ^^^ BitVec.ofNat 72 (2 ^ i)) = d ∧
        decodeSyndrome (syndrome (storedWord d ^^^ BitVec.ofNat 72 (2 ^ i))) = if i < 64 then .data i else .check) ∧
      ∀ i j, i < j → j < 72 →
        decodeSyndrome (syndrome (storedWord d ^^^ BitVec.ofNat 72 (2 ^ i) ^^^ BitVec.ofNat 72 (2 ^ j))) = .uncorrectable) ∧
  (
    (∀ (cord : CordId) (s : State), s.cordOn cord.toNat = true → s.isolated cord.toNat = false →
      s.bit (F.CRD_SCRUB_EN cord.toNat) = true → s.coreIdle = true → s.fget F.PWR_STAT_STATE = 0 →
      ∃ t, exec (.scrubStep cord) s = .next t ∧
        t.fget (F.CRD_SCRUB_PTR cord.toNat) = (s.fget (F.CRD_SCRUB_PTR cord.toNat) + 1) % 4096 ∧
        t.strands = s.strands ∧ t.reports = s.reports ∧
        ∀ k, SMap.find t.instrs k =
          match SMap.find s.instrs k with
          | none => none
          | some w =>
            if k / 4096 / 1024 = cord.toNat ∧ k % 4096 = s.fget (F.CRD_SCRUB_PTR cord.toNat) then
              (match decodeSyndrome (syndrome w) with
                | .data _ | .check => some (storedWord (correctedData w))
                | _ => some w)
            else some w) ∧
    ∀ (cord : CordId) (s : State), s.cordOn cord.toNat = false ∨ s.isolated cord.toNat = true ∨
      s.bit (F.CRD_SCRUB_EN cord.toNat) = false ∨ s.coreIdle = false ∨ s.fget F.PWR_STAT_STATE ≠ 0 →
      exec (.scrubStep cord) s = .next s)

/-- A command that is a host write of one register has no effect while the device is in reset or Off; in Sleep and Deep sleep it
is only counted in PWR_ASLEEP_ACC and wakes the device if WAKE_EN admits host accesses; in Run with no transition it waits in
the endpoint behind a host access that has no answer yet, or on a way with a closed station; else it has no effect on a block
that the part does not have, or, before an image has committed, on a block outside those of the boot sequencer and the host
interface; and to a register of a gated power domain it is, where nothing observes the rings, answered ASLEEP: counted, and
captured in HST_BERR. The first host request shows the link trained (the model's choice, log entry 130). (R3, R28, R117, R286,
R330, R335, R341, R360, R362) -/
def Obligations.HostRequests : Prop :=
  ∀ (c : Instr) (a : Nat) (s : State), hostRegister c = some a →
    (s.hostAway = true → exec c s = .next s) ∧
    (s.hostAway = false → s.asleep = true →
      exec c s = .next (s.trainLink.watch [13, 16, 17] fun s => (s.count F.PWR_ASLEEP_ACC_COUNT 1).wakeAwake 3)) ∧
    (s.hostAway = false → s.fget F.PWR_STAT_STATE = 0 → s.power.entering = false → s.power.exiting = false →
      (s.hostHeld (.write a 4 0 0) = true → ∃ mask v, exec c s = .next (s.trainLink.hostPark (.write a 4 mask v))) ∧
      (s.hostHeld (.write a 4 0 0) = false →
        s.blockAbsent a = true ∨ (loadWritable a = false ∧ s.image.committed = false) → exec c s = .next s.trainLink) ∧
      (s.hostHeld (.write a 4 0 0) = false → s.sees 0 = false →
        s.blockAbsent a = false → (loadWritable a = true ∨ s.image.committed = true) → s.blockOn a = false →
        ∃ t, exec c s = .next t ∧
          s.onlyWords t [R.NOC_ASLEEP_RESP, R.HST_BERR, R.HST_BERR_ADDR, R.HST_BERR_ADDR + 4, R.HST_EVT, R.HST_LINK] ∧
          t.bit F.HST_BERR_VALID = true ∧
          (s.bit F.HST_BERR_VALID = false → t.fget F.HST_BERR_STATUS = 1 ∧ t.bit F.HST_BERR_WRITE = true ∧
            t.wget W.HST_BERR_ADDR_ADDR = a % 2 ^ 48)))

/-- A host write that reaches the turn unit: HALT sets TURN_CTL.HALT and the host-halt hold source to the value written and
changes nothing else; STEP while HALTED is 1 sets STEPPING, and while HALTED is 0 is discarded; RELOCK on the flywheel with
the anchor lane locked asserts the lock hold and places the new T0 at the first anchor word at least 10 microseconds later,
where one is already awaited starting that wait anew (the model's choice, log entry 98), and otherwise is discarded; SLACK_RST
sets TURN_SLACK_MIN to all ones. OUTPUT_RELEASE makes the oldest committed set the visible set once its boundary has passed,
drops it from the waiting ones, and signals REL and the low byte of its turn number to both dies; before its boundary, or with
no set, it changes nothing. TURN_OVERRUN with a turn in progress that has missed its boundary reports TURN_OVERRUN at the turn
unit, with access type instruction, the time of the missed boundary and the turn's number, counts it, sets TURN_STAT.OVERRUN,
and makes TURN_SLACK_MIN 0, once for each turn; otherwise it changes nothing. ANCHOR_LOST under anchor-lane lock with an image
running whose wait for the anchor is over reports ANCHOR_LOST and starts the flywheel from the count before the loss; a first
T0 that still waits for its word is placed on the flywheel's count, and on the flywheel, where the lane had locked again, a T0
that a RELOCK asked for is not placed (the model's choice, log entry 100); otherwise it changes nothing. (R81, R83, R86, R87,
R88, R89, R121, R175, R316) -/
def Obligations.TurnHostAndEvents : Prop :=
  (
    ∀ s : State, s.hostRuns R.TURN_CTL = true →
      (∀ v : Bool, ∃ t, exec (.halt v) s = .next t ∧ t = (s.setBit F.TURN_CTL_HALT v).setBit F.TURN_HOLD_SRC_HALT v ∧
        t.bit F.TURN_CTL_HALT = v ∧ t.bit F.TURN_HOLD_SRC_HALT = v) ∧
      (s.bit F.TURN_STAT_HALTED = true → exec .singleStep s = .next (s.fset F.TURN_STAT_STEPPING 1)) ∧
      (s.bit F.TURN_STAT_HALTED = false → exec .singleStep s = .next s) ∧
      (s.bit F.TURN_STAT_FLYWHEEL = true → s.pcsLocked (s.fget F.TURN_ANCHOR_LANE) = true →
        exec .relock s = .next (({ s with core := { s.core with anchorT0 := some (s.time.now + 10000 * 65536) } }).fset
          F.TURN_HOLD_SRC_LOCK 1)) ∧
      ((s.bit F.TURN_STAT_FLYWHEEL && s.pcsLocked (s.fget F.TURN_ANCHOR_LANE)) = false → exec .relock s = .next s) ∧
      ∃ t, exec .slackRst s = .next t ∧ s.onlyWords t [R.TURN_SLACK_MIN] ∧ t.fget F.TURN_SLACK_MIN_MIN = 0x1FFF) ∧
  (
    (∀ (s : State) (o : OutSet) (os : List OutSet), s.core.outComm = o :: os → o.due = true →
      exec .outputRelease s = .next { s with
        core := { s.core with outVis := o.words, outComm := os }
        edge := { s.edge with rel := 3, relTurn := BitVec.ofNat 8 o.turn } }) ∧
    (∀ (s : State) (o : OutSet) (os : List OutSet), s.core.outComm = [] ∨ (s.core.outComm = o :: os ∧ o.due = false) →
      exec .outputRelease s = .next s) ∧
    (∀ (s : State) (at_ : Nat), s.core.phase = .turn → s.core.missed = some at_ →
      ∃ t, exec .turnOverrun s = .next t ∧ t.bit F.TURN_STAT_OVERRUN = true ∧ t.fget F.TURN_SLACK_MIN_MIN = 0 ∧
        t.fget F.TURN_OVR_CNT_COUNT = min (2 ^ 32 - 1) (s.fget F.TURN_OVR_CNT_COUNT + 1) ∧
        (s.srcOn 0x280 = true → ∃ r ∈ t.reports, r.src = 0x280 ∧ r.code = 0x010F ∧
          ((∀ q ∈ s.reports, q.src ≠ 0x280) → r.acc = accInstr ∧ r.time = at_ ∧ r.turn = s.turnNum)) ∧
        t.core = { s.core with missed := none, overran := true } ∧ t.strands = s.strands ∧
        s.wordsBut t [R.TURN_OVR_CNT, R.TURN_STAT, R.TURN_SLACK_MIN, (F.FLT_SRC_STAT_PAIR 0x280).addr, R.HST_EVT]) ∧
    (∀ s : State, s.core.phase ≠ .turn ∨ s.core.missed = none → exec .turnOverrun s = .next s) ∧
    (∀ s : State, s.bit F.TURN_CFG_LOCK_SRC = true → s.image.committed = true → s.bit F.TURN_STAT_LOCK_WAIT = false →
      let locked := s.pcsLocked (s.fget F.TURN_ANCHOR_LANE)
      (s.bit F.TURN_STAT_FLYWHEEL = true → locked = false → exec .anchorLost s = .next s) ∧
      (s.bit F.TURN_STAT_FLYWHEEL = true → locked = true → ∃ t, exec .anchorLost s = .next t ∧
        t.core = { s.core with anchorT0 := none } ∧ (s.srcOn 0x280 = true → ∃ r ∈ t.reports, r.src = 0x280 ∧ r.code = 0x0403) ∧
        s.wordsBut t [(F.FLT_SRC_STAT_PAIR 0x280).addr]) ∧
      (s.bit F.TURN_STAT_FLYWHEEL = false → ∃ t, exec .anchorLost s = .next t ∧ t.bit F.TURN_STAT_FLYWHEEL = true ∧
        (s.srcOn 0x280 = true → ∃ r ∈ t.reports, r.src = 0x280 ∧ r.code = 0x0403) ∧
        t.core.flyCount = s.core.anchor - 1 ∧ t.core.flyAt = s.time.now ∧ t.core.anchorT0 = none ∧
        (s.core.anchorT0 = none → t.core = { s.core with flyCount := s.core.anchor - 1, flyAt := s.time.now } ∧
          s.wordsBut t [R.TURN_STAT, (F.FLT_SRC_STAT_PAIR 0x280).addr]) ∧
        (∀ a, s.core.anchorT0 = some a → t.core.origin = s.core.boundary ∧ t.wget W.TURN_T0_T0 = t.flyFirst a % 2 ^ 96 ∧
          s.wordsBut t [R.TURN_STAT, R.TURN_T0, R.TURN_T0 + 4, R.TURN_T0 + 8, (F.FLT_SRC_STAT_PAIR 0x280).addr]))) ∧
    ∀ s : State, s.bit F.TURN_CFG_LOCK_SRC = false ∨ s.image.committed = false ∨ s.bit F.TURN_STAT_LOCK_WAIT = true →
      exec .anchorLost s = .next s)

/-- Under timebase lock, a REALIGN that reaches the turn unit while HALTED is 1 sets TURN_LT_OFFSET to 0 and TURN_T0 to the
smallest line time at least 10 microseconds after the write that is PHASE modulo SPAN; the next boundary falls at that T0, and
a turn hold is in force until it, beside the host halt, which it leaves as it is; while HALTED is 0, or under anchor-lane
lock, it is discarded. (R90) -/
def Obligations.Realign : Prop :=
  ∀ s : State, s.hostRuns R.TURN_CTL = true →
    (s.bit F.TURN_STAT_HALTED = true → s.bit F.TURN_CFG_LOCK_SRC = false → 0 < s.span → s.fget F.TURN_PHASE_VALUE < s.span →
      s.time.now + 10000 * 65536 + s.span < 2 ^ 96 →
      ∃ t, exec .realign s = .next t ∧ t.wget W.TURN_LT_OFFSET_OFFSET = 0 ∧
        (let t0 := t.wget W.TURN_T0_T0
         s.time.now + 10000 * 65536 ≤ t0 ∧ t0 % s.span = s.fget F.TURN_PHASE_VALUE ∧
          (∀ x, s.time.now + 10000 * 65536 ≤ x → x % s.span = s.fget F.TURN_PHASE_VALUE → t0 ≤ x) ∧
          t.boundaryAt t.core.boundary = t0) ∧
        t.core.boundary = s.core.boundary ∧ t.bit F.TURN_HOLD_SRC_LOCK = true ∧ t.turnHold = true ∧
        t.bit F.TURN_HOLD_SRC_HALT = s.bit F.TURN_HOLD_SRC_HALT ∧
        s.wordsBut t [R.TURN_LT_OFFSET, R.TURN_LT_OFFSET + 4, R.TURN_T0, R.TURN_T0 + 4, R.TURN_T0 + 8, R.TURN_HOLD_SRC, R.TURN_BIN_DROP]) ∧
    (s.bit F.TURN_STAT_HALTED = false ∨ s.bit F.TURN_CFG_LOCK_SRC = true → exec .realign s = .next s)

/-- COMMIT after the last step of a turn: the strand core goes to slack, no assertion event stays marked and the turn counts as
completed. Where the bights travel to stations of the grid, no port is in use and no event is marked, the turn number goes up
by one, no bight stays in the ring, a committed output set with the words written waits for its boundary, and every strand of
a configured cord that is not isolated has its staged writes applied to its state store, no staged write left, its valid bits
cleared with their values kept, its history kept and its place at step 0, while every other strand is left as it is; the state
digest is the one before, rotated left by one, combined with the sum over the staged writes and with the turn's number, which
SPL_DIGEST_TURN shows. An event that EVAL_CHECK marked and that neither a trigger input nor an action queue takes (the model's
choice of the steps is log entry 36) is reported to the collector with code 0x1000 plus its number, from the cord of the
strand that marked it, at commit step 10 or 11. The operations of a port of cord memory or of a turn buffer have all reached
it by the end of the commit. At any other moment COMMIT changes nothing. (R9, R36, R44, R62, R64, R80, R126, R301, R324) -/
def Obligations.TurnCommit : Prop :=
  (∀ s : State, s.core.phase = .turn → s.core.cur = some (s.schedL - 1) →
    ∃ t, exec .commit s = .next t ∧ t.core.phase = .slack ∧ t.core.cur = none ∧ t.core.asserts = [] ∧
      t.core.committed = true ∧ t.instrs = s.instrs ∧ t.image = s.image ∧ t.lanes = s.lanes) ∧
  (∀ s : State, s.core.phase = .turn → s.core.cur = some (s.schedL - 1) → s.ports = [] → s.core.asserts = [] →
    (∀ b ∈ s.ring.bights, b.stn < 0xA0) →
    ∃ t, exec .commit s = .next t ∧ t.turnNum = (s.turnNum + 1) % 2 ^ 64 ∧ t.ring.bights = [] ∧
      t.core.outComm = s.core.outComm ++ [{ due := false, turn := s.turnNum, words := s.core.outPend }] ∧
      (∀ g, s.strandOn g = true →
        let x := s.strand g
        (t.strand g).store = x.staged.foldl (fun v p =>
          if p.2 then v ||| BitVec.ofNat 1024 (2 ^ p.1) else v &&& ~~~BitVec.ofNat 1024 (2 ^ p.1)) x.store ∧
        (t.strand g).staged = [] ∧ (t.strand g).hist = x.hist ∧ (t.strand g).histSave = x.hist ∧ (t.strand g).pos = 0 ∧
        ∀ m, ((t.strand g).latch m).valid = false ∧ ((t.strand g).latch m).val = (x.latch m).val) ∧
      (∀ g, s.strandOn g = false → t.strand g = s.strand g) ∧
      t.wget W.SPL_DIGEST_VALUE = ((BitVec.ofNat 64 (s.wget W.SPL_DIGEST_VALUE)).rotateLeft 1 ^^^
        s.strands.foldl (fun w p => if s.strandOn p.1 then w + strandDigest p.1 p.2.staged else w) 0 ^^^
        BitVec.ofNat 64 s.turnNum).toNat ∧
      t.wget W.SPL_DIGEST_TURN_VALUE = s.turnNum) ∧
  (∀ (s : State) (e n g : Nat), s.core.phase = .turn → s.core.cur = some (s.schedL - 1) → s.ports = [] →
    s.core.asserts = [(e, n, g)] → (∀ b ∈ s.ring.bights, b.stn < 0xA0) → e < 1024 → gCord g < 128 →
    s.bit (F.TRG_AEMAP_EN e) = false → SMap.find s.act.eventQ e = none → s.srcOn (gCord g) = true →
    (∀ q ∈ s.reports, q.src ≠ gCord g) →
    ∃ t, exec .commit s = .next t ∧ ∃ r ∈ t.reports, r.src = gCord g ∧ r.code = 0x1000 + e ∧ r.acc = accPosted ∧ r.addr = e ∧
      r.strand = g ∧ r.turn = s.turnNum ∧ r.time = s.time.now ∧ (r.step = s.schedL + 10 ∨ r.step = s.schedL + 11)) ∧
  (∀ (s : State) (k : Nat) (p : Port), s.core.phase = .turn → s.core.cur = some (s.schedL - 1) → s.ports = [(k, p)] →
    k < 512 → (∀ b ∈ s.ring.bights, b.stn < 0xA0) → s.core.asserts = [] →
    ((∀ o ∈ p.ops, o.mode = 1) ∨ ∀ o ∈ p.ops, o.mode = 4 ∨ o.mode = 5) →
    (∀ o ∈ p.ops, o.delayed = false ∧ o.waiting = false ∧ o.access < s.core.base + s.schedL + 24) →
    ∃ t, exec .commit s = .next t ∧ ∀ o ∈ (t.port k).ops, o.write = false ∧ o.accessed = true) ∧
  ∀ s : State, s.core.phase ≠ .turn ∨ s.core.cur ≠ some (s.schedL - 1) → exec .commit s = .next s

/-- PREFIX_START runs exactly when an image runs, the strand core is in slack after the first boundary, the early start is enabled
and allowed for this turn, the schedule has a prefix and no hold is in force; it enters the prefix phase before step 0 and
changes nothing else. PREFIX_CANCEL acts exactly when a prefix is in progress under a hold: the core returns to slack, no
early start is allowed again for the turn, no event stays marked, no bight stays in the ring, CANCELLED is set and
TURN_CANCEL_CNT counted, and, where the bights travel to stations of the grid, every strand of a configured cord that is not
isolated has the history of the end of the committed turn, no staged write, no valid bit and its place at step 0, with its
state store and latch values kept. (R44, R77, R84, R85) -/
def Obligations.TurnPrefix : Prop :=
  (∀ s : State, s.image.committed = true → s.core.phase = .slack → s.core.started = true → s.core.earlyOk = true →
    s.bit F.TURN_CTL_EARLY_EN = true → 0 < s.schedE → s.prefixHold = false →
    exec .prefixStart s = .next { s with core := { s.core with phase := .early, cur := none } }) ∧
  (∀ s : State, s.image.committed = false ∨ s.core.phase ≠ .slack ∨ s.core.started = false ∨ s.core.earlyOk = false ∨
    s.bit F.TURN_CTL_EARLY_EN = false ∨ s.schedE = 0 ∨ s.prefixHold = true → exec .prefixStart s = .next s) ∧
  (∀ s : State, s.core.phase = .early → s.prefixHold = true →
    ∃ t, exec .prefixCancel s = .next t ∧ t.core.phase = .slack ∧ t.core.cur = none ∧ t.core.earlyOk = false ∧
      t.core.asserts = [] ∧ t.ring.bights = [] ∧ t.bit F.TURN_STAT_CANCELLED = true ∧
      t.instrs = s.instrs ∧ t.ports = s.ports ∧ t.core.outPend = s.core.outPend ∧
      ((∀ b ∈ s.ring.bights, b.stn < 0xA0) →
        t.fget F.TURN_CANCEL_CNT_COUNT = min (2 ^ 32 - 1) (s.fget F.TURN_CANCEL_CNT_COUNT + 1) ∧
        ∀ g, s.strandOn g = true →
          let x := s.strand g
          (t.strand g).hist = x.histSave ∧ (t.strand g).staged = [] ∧ (t.strand g).pos = 0 ∧ (t.strand g).store = x.store ∧
          ∀ m, ((t.strand g).latch m).valid = false ∧ ((t.strand g).latch m).val = (x.latch m).val)) ∧
  ∀ s : State, s.core.phase ≠ .early ∨ s.prefixHold = false → exec .prefixCancel s = .next s

/-- While the boundary grid runs, TURN_BOUNDARY makes the next boundary the current one plus one, ends the lock hold at T0, makes
every committed output set due and signals the window to both dies. On a device that is no member of a pair, with no turn in
progress and no hold in force, a turn starts and reads the window that closes at this boundary, later windows being kept and
earlier ones dropped (at the grid's origin the closing window keeps the words of one SPAN alone: the model's choice, log entry
96), and HALTED becomes 0; a prefix that meets a hold at the boundary, also one that has run all its steps (the model's
choice, log entry 123), is cancelled and counted; before the first boundary allowed after an exit, or under the host halt with
no single step, no turn starts, the window is discarded, the boundary counted in TURN_SLIP, and under the host halt HALTED
becomes 1; with a turn in progress it goes on, the window is discarded, its words are counted in TURN_IN_DROP and the boundary
in TURN_SLIP. While the grid does not run the command changes nothing. (R73, R79, R81, R82, R84, R86, R88) -/
def Obligations.TurnBoundary : Prop :=
  (∀ s : State, s.gridRuns = false → exec .turnBoundary s = .next s) ∧
  (∀ s : State, s.gridRuns = true →
    ∃ t, exec .turnBoundary s = .next t ∧ t.core.boundary = s.core.boundary + 1 ∧ t.core.started = true ∧
      (∀ o ∈ t.core.outComm, o.due = true) ∧ t.edge.win = 3 ∧ t.mem = s.mem ∧ t.image = s.image ∧
      (s.core.boundary = s.core.origin → s.core.anchorT0 = none → t.bit F.TURN_HOLD_SRC_LOCK = false)) ∧
  (∀ s : State, s.gridRuns = true → s.fget F.SPL_STAT_STATE = 0 → s.splice.paired = false → s.core.phase = .early →
    s.turnHold = true → (s.core.boundary ≠ s.core.origin ∨ s.core.anchorT0 ≠ none) → (∀ b ∈ s.ring.bights, b.stn < 0xA0) →
    ∃ t, exec .turnBoundary s = .next t ∧ t.bit F.TURN_STAT_CANCELLED = true ∧ t.ring.bights = [] ∧ t.core.asserts = [] ∧
      t.fget F.TURN_CANCEL_CNT_COUNT = min (2 ^ 32 - 1) (s.fget F.TURN_CANCEL_CNT_COUNT + 1) ∧
      (∀ g, s.strandOn g = true → (t.strand g).hist = (s.strand g).histSave ∧ (t.strand g).pos = 0 ∧
        (t.strand g).store = (s.strand g).store)) ∧
  (∀ s : State, s.gridRuns = true → s.fget F.SPL_STAT_STATE = 0 → s.splice.paired = false → s.core.phase ≠ .turn →
    (if s.core.boundary = s.core.origin ∧ s.core.anchorT0 = none then s.fset F.TURN_HOLD_SRC_LOCK 0 else s).turnHold = false →
    s.tooSoon s.core.boundary = false →
    let w := if s.core.boundary = s.core.origin ∧ s.core.anchorT0 = none then s.trimWindow s.core.boundary else s
    ∃ t, exec .turnBoundary s = .next t ∧ t.core.phase = .turn ∧ t.core.boundary = s.core.boundary + 1 ∧
      t.core.started = true ∧ t.core.readWin = s.core.boundary + 1 ∧
      (∀ o ∈ t.core.outComm, o.due = true) ∧ t.core.outComm.length = s.core.outComm.length ∧
      (∀ p, p ∈ t.core.windows ↔ p ∈ w.core.windows ∧ s.core.boundary * 2 ^ 18 ≤ p.1) ∧
      t.strands = s.strands ∧ t.instrs = s.instrs ∧ t.mem = s.mem ∧ t.bit F.TURN_STAT_HALTED = false) ∧
  (∀ s : State, s.gridRuns = true → s.fget F.SPL_STAT_STATE = 0 → s.splice.paired = false → s.core.phase = .slack →
    s.tooSoon s.core.boundary = true ∨
      (s.bit F.TURN_HOLD_SRC_HALT = true ∧ s.bit F.TURN_STAT_STEPPING = false ∧ s.core.stepping = false) →
    ∃ t, exec .turnBoundary s = .next t ∧ t.core.phase = .slack ∧ t.core.boundary = s.core.boundary + 1 ∧
      (s.bit F.TURN_HOLD_SRC_HALT = true → t.bit F.TURN_STAT_HALTED = true) ∧ t.strands = s.strands ∧ t.turnNum = s.turnNum ∧
      t.fget F.TURN_SLIP_COUNT = min (2 ^ 32 - 1) (s.fget F.TURN_SLIP_COUNT + 1) ∧
      ∀ p ∈ t.core.windows, p.1 < s.core.boundary * 2 ^ 18 ∨ (s.core.boundary + 1) * 2 ^ 18 ≤ p.1) ∧
  ∀ s : State, s.gridRuns = true → s.fget F.SPL_STAT_STATE = 0 → s.splice.paired = false → s.core.phase = .turn →
    let w := if s.core.boundary = s.core.origin ∧ s.core.anchorT0 = none then s.trimWindow s.core.boundary else s
    ∃ t, exec .turnBoundary s = .next t ∧ t.core.phase = .turn ∧ t.core.cur = s.core.cur ∧
      t.core.boundary = s.core.boundary + 1 ∧
      (∀ p ∈ t.core.windows, p.1 < s.core.boundary * 2 ^ 18 ∨ (s.core.boundary + 1) * 2 ^ 18 ≤ p.1) ∧
      (∀ p ∈ s.core.windows, p.1 < s.core.boundary * 2 ^ 18 ∨ (s.core.boundary + 1) * 2 ^ 18 ≤ p.1 → p ∈ t.core.windows) ∧
      t.fget F.TURN_SLIP_COUNT = min (2 ^ 32 - 1) (s.fget F.TURN_SLIP_COUNT + 1) ∧
      t.fget F.TURN_IN_DROP_COUNT = min (2 ^ 32 - 1) (s.fget F.TURN_IN_DROP_COUNT + (w.windowOf s.core.boundary).length) ∧
      t.core.missed = (if s.core.overran = false ∧ s.core.missed = none then some s.time.now else s.core.missed) ∧
      t.strands = s.strands ∧ t.turnNum = s.turnNum

/-- BIGHT_DELIVERY with no bight present at that station, direction and position in the step in execution changes nothing.
Otherwise the bight leaves the link, and: where a delivery record names a latch of a cord station that is not isolated and no
lower-numbered bight goes to the same latch, the latch takes its value and becomes valid, the value and valid bit before it
being kept for reads of the same step, and no other strand changes; a latch that was valid is reported as INBOX_OVERWRITE, but
not by a step that a cancelled prefix of the turn has executed before; where such a bight is outranked it is discarded,
counted in STN_COLL and reported as BIGHT_COLLISION; where no record forwards or delivers it, it is counted as stray and
changes nothing else; where one entry forwards it, it goes onto that link; in every case it is taken from the ring, the other
bights stay, and no strand of another station changes. A bight on a link is present at the far station one step later, or
after the die-bridge cost of the profile. (R37, R98, R99, R100, R104, R105) -/
def Obligations.BightDelivery : Prop :=
  (∀ (stn : StnId) (dir : BitVec 3) (pos : BitVec 6) (s : State), s.bightAt stn.toNat dir.toNat pos.toNat = none →
    exec (.bightDelivery stn dir pos) s = .next s) ∧
  ∀ (stn : StnId) (dir : BitVec 3) (pos : BitVec 6) (s : State) (b : Bight),
    s.bightAt stn.toNat dir.toNat pos.toNat = some b →
    let u := { s with ring := { s.ring with bights := s.ring.bights.filter (· != b) } }
    let e := u.delivEntry b.stn b.at_ b.dir b.pos
    let g := b.stn * 1024 + entryStrand e
    let forwards := (u.outEntries b.stn b.at_).filter fun x =>
      entryKind x.2 = 2 ∧ entryInDir x.2 = b.dir ∧ entryInPos x.2 = b.pos
    (∃ t, exec (.bightDelivery stn dir pos) s = .next t ∧ b ∉ t.ring.bights ∧
      (∀ c ∈ s.ring.bights, c ≠ b → c ∈ t.ring.bights) ∧ (∀ h, h / 1024 ≠ b.stn → t.strand h = s.strand h) ∧
      t.core = s.core ∧ t.mem = s.mem) ∧
    (b.stn < 0x80 → entryKind e = 1 → u.isolated b.stn = false → u.outranked b.stn b.at_ e (b.dir * 64 + b.pos) = false →
      ∃ t, exec (.bightDelivery stn dir pos) s = .next t ∧
        (let l := (t.strand g).latch (entryTag e)
         let old := (s.strand g).latch (entryTag e)
         l.val = b.val ∧ l.valid = true ∧ l.at_ = some b.at_ ∧ l.prevVal = old.val ∧ l.prevValid = old.valid) ∧
        (∀ m, m ≠ entryTag e → (t.strand g).latch m = (s.strand g).latch m) ∧
        (∀ h, h ≠ g → t.strand h = s.strand h) ∧ t.mem = s.mem ∧
        (((s.strand g).latch (entryTag e)).valid = true → s.reruns b.stn b.at_ = false → s.srcOn (gCord g) = true →
          ∃ r ∈ t.reports, r.src = gCord g ∧ r.code = 0x0106)) ∧
    (b.stn < 0x80 → entryKind e = 1 → u.isolated b.stn = false → u.outranked b.stn b.at_ e (b.dir * 64 + b.pos) = true →
      ∃ t, exec (.bightDelivery stn dir pos) s = .next t ∧ t.strands = s.strands ∧
        (let f := F.STN_COLL_COUNT b.stn
         t.fget f = satAdd (2 ^ f.w - 1) (s.fget f) 1) ∧
        (s.srcOn (gCord g) = true → ∃ r ∈ t.reports, r.src = gCord g ∧ r.code = 0x0105)) ∧
    ((b.stn < 0x80 → entryKind e ≠ 1) → forwards = [] →
      exec (.bightDelivery stn dir pos) s = .next (u.count (stnStray b.stn) 1)) ∧
    (∀ x, (b.stn < 0x80 → entryKind e ≠ 1) → forwards = [x] →
      exec (.bightDelivery stn dir pos) s = .next (u.launch b.stn (x.1 / 64) (x.1 % 64) b.at_ b.val b.spec)) ∧
    ∀ (d p far : Nat) (bridge : Bool), linkOf s.closed b.stn d = some (far, bridge) →
      (⟨far, d, p, b.val, b.at_ + (if bridge then (if s.bit F.NOC_STAT_PROFILE then 4 else 6) else 1), b.spec⟩ : Bight) ∈
        (s.launch b.stn d p b.at_ b.val b.spec).ring.bights

/-- A request that goes onto the rings (the host's in Run where no load bars it and it waits for nothing in the endpoint, another
listed master's outside reset) on a way without a closed station reaches its target: the host's BAR2 offsets count from
HST_AP_BASE; a READ whose lines are granted (a packet has one answer for all its lines, LEN of a READ is the flits wanted: the
model's choices, log entries 44 and 67) answers the words of memory with status OKAY and changes no memory; a READ of
registers of powered blocks is answered OKAY and changes no memory; a WRITE whose lines are granted stores the enabled bytes
of its payload, and no other byte, and is acknowledged; a POSTED_WRITE does the same with no answer. With no probe, monitor or
trace observing, for a master other than the host: nothing else changes; a POSTED_WRITE of one whole register word does what
REGISTER_WRITE by that master does, a WRITE the same with an acknowledgement; an access of the next owner of a bank in
handover waits in the bank; a READ or WRITE to a closed domain, of memory or of registers, is answered ASLEEP and counted, and
a POSTED_WRITE dropped, counted and reported; an access to a bank by a non-owner, or to a granule that the region table does
not give the master, writes nothing, is answered TARGET_ERR where it is not posted, a READ with zero data, is counted, and is
reported as NON_OWNER or REGION_DENIED. A request whose way has a closed station, and that may take no other, waits; in reset
no packet of such a master has an effect, and at no time one of a reserved master ID or a POSTED_WRITE of the host. (R11,
R107, R109, R110, R116, R117, R134, R135, R136, R139, R360, R364) -/
def Obligations.PacketMemory : Prop :=
  (∀ (p : Packet) (s : State),
    let q := s.located (s.sent p)
    s.wayOpen q = true →
    (s.requestRuns p false = true →
      (s.packetAnswer p.src.toNat q false = .granted →
        ∃ t r, exec (.read p) s = .next t ∧ t.ring.resps = s.ring.resps ++ [r] ∧ r.data = true ∧ r.p.status = 0 ∧
          r.p.dstId = p.src ∧ r.p.tag = p.tag ∧ r.p.addr = q.addr ∧
          r.p.payload = (List.range (2 * packetLines p false)).map (fun i => s.rdWord (packetBase q + 16 * i)) ∧ t.mem = s.mem) ∧
      (s.packetAnswer p.src.toNat q false = .nowhere → s.beyond q = false → s.regsAsleep q false = false →
        ∃ t r, exec (.read p) s = .next t ∧ t.ring.resps = s.ring.resps ++ [r] ∧ r.data = true ∧ r.p.status = 0 ∧
          r.p.dstId = p.src ∧ r.p.tag = p.tag ∧ r.p.addr = q.addr ∧ t.mem = s.mem)) ∧
    (s.requestRuns p true = true → s.packetAnswer p.src.toNat q true = .granted →
      (∃ t r, exec (.write p) s = .next t ∧ t.ring.resps = s.ring.resps ++ [r] ∧ r.data = false ∧ r.p.status = 0 ∧
        r.p.dstId = p.src ∧ r.p.tag = p.tag ∧ t.mem = (s.wrEnabled (packetBase q) (packetBytes p)).mem) ∧
      (p.src ≠ 0 → ∃ t, exec (.postedWrite p) s = .next t ∧ t.mem = (s.wrEnabled (packetBase q) (packetBytes p)).mem ∧
        t.ring.resps = s.ring.resps))) ∧
  (∀ (p : Packet) (s : State), p.src = 0 → exec (.postedWrite p) s = .next s) ∧
  (∀ (p : Packet) (s : State), masterOk p.src = false → exec (.read p) s = .next s ∧ exec (.write p) s = .next s ∧
    exec (.postedWrite p) s = .next s ∧ exec (.stream p) s = .next s) ∧
  ∀ (p : Packet) (s : State), p.src ≠ 0 → masterOk p.src = true →
    let q := s.located p
    let base := packetBase p
    let answered := fun (c : Instr) (status : BitVec 2) (data : Bool) (t : State) => exec c s = .next t ∧ t.mem = s.mem ∧
      ∃ r, t.ring.resps = s.ring.resps ++ [r] ∧ r.data = data ∧ r.p.status = status ∧ r.p.dstId = p.src ∧ r.p.tag = p.tag ∧
        (data = true → r.p.payload = if status = 1 then [] else List.replicate (2 * packetLines p false) 0)
    (s.inReset = true → exec (.read p) s = .next s ∧ exec (.write p) s = .next s ∧ exec (.postedWrite p) s = .next s ∧
      exec (.stream p) s = .next s) ∧
    (s.inReset = false → s.wayOpen q = false → s.mayReroute (entryStn p.src.toNat q.dstStn.toNat) q = false →
      exec (.read p) s = .next (s.park 0 q) ∧ exec (.write p) s = .next (s.park 1 q) ∧
      exec (.postedWrite p) s = .next (s.park 2 q)) ∧
    (s.inReset = false → s.wayOpen q = true → s.unobserved →
      (s.packetAnswer p.src.toNat q false = .granted →
        ∃ t, exec (.read p) s = .next t ∧ t = { s with ring := t.ring, free := s.free + 2 } ∧
          t.ring = { s.ring with resps := t.ring.resps }) ∧
      (s.packetAnswer p.src.toNat q true = .granted →
        (∃ t, exec (.write p) s = .next t ∧ t.regs = s.regs ∧ t.strands = s.strands) ∧
        exec (.postedWrite p) s = .next (s.wrEnabled (packetBase p) (packetBytes p))) ∧
      (s.packetAnswer p.src.toNat q false = .waits → exec (.read p) s = .next { s with
        ring := { s.ring with waits := s.ring.waits ++ [(bankOf (packetBase p), .packet q false false)] } }) ∧
      (s.packetAnswer p.src.toNat q true = .waits →
        exec (.write p) s = .next { s with
          ring := { s.ring with waits := s.ring.waits ++ [(bankOf (packetBase p), .packet q true false)] } } ∧
        exec (.postedWrite p) s = .next { s with
          ring := { s.ring with waits := s.ring.waits ++ [(bankOf (packetBase p), .packet q true true)] } }) ∧
      (let asleep := fun (write : Bool) => s.packetAnswer p.src.toNat q write = .asleep ∨
          (s.packetAnswer p.src.toNat q write = .nowhere ∧ s.beyond q = false ∧ s.regsAsleep q write = true)
       let counted := fun t : State =>
         t.fget F.NOC_ASLEEP_RESP_COUNT = min (2 ^ 32 - 1) (s.fget F.NOC_ASLEEP_RESP_COUNT + 1)
       (asleep false → ∃ t, answered (.read p) 1 true t ∧ counted t) ∧
       (asleep true → (∃ t, answered (.write p) 1 false t ∧ counted t) ∧
         ∃ t, exec (.postedWrite p) s = .next t ∧ t.mem = s.mem ∧ t.ring.resps = s.ring.resps ∧
           t.fget F.NOC_ASLEEP_DROP_COUNT = min (2 ^ 32 - 1) (s.fget F.NOC_ASLEEP_DROP_COUNT + 1) ∧
           (s.srcOn (stnSource q.dstStn.toNat) = true →
             ∃ r ∈ t.reports, r.src = stnSource q.dstStn.toNat ∧ r.code = 0x0201))) ∧
      (∀ i, i < 8 → p.len = 1 → p.be = BitVec.ofNat 32 (15 * 2 ^ (4 * i)) → base + 32 ≤ 2 ^ 32 →
        s.packetAnswer p.src.toNat q true = .nowhere → s.regsAsleep q true = false →
        ∃ u, exec (.registerWrite p.src (BitVec.ofNat 32 (base + 4 * i)) (payloadWord p i) 4) s = .next u ∧
          exec (.postedWrite p) s = .next u ∧
          ∃ t r, exec (.write p) s = .next t ∧ r.data = false ∧ r.p.status = 0 ∧ r.p.dstId = p.src ∧ r.p.tag = p.tag ∧
            t = { u with ring := { u.ring with resps := u.ring.resps ++ [r] }, free := u.free + 2 }) ∧
      (let refused := fun t : State =>
         (s.inScratch base = true →
           (let f := F.BNK_STAT_NONOWN_CNT (bankOf p.addr.toNat)
            t.fget f = satAdd (2 ^ f.w - 1) (s.fget f) 1) ∧
           (s.srcOn (0x100 + bankOf p.addr.toNat) = true →
             ∃ r ∈ t.reports, r.src = 0x100 + bankOf p.addr.toNat ∧ r.code = 0x010E)) ∧
         (s.inScratch base = false → s.inDram base = true →
           t.fget F.BNK_DRAM_DENIED_COUNT = min (2 ^ 32 - 1) (s.fget F.BNK_DRAM_DENIED_COUNT + 1) ∧
           (s.srcOn (0x140 + stackOf p.addr.toNat) = true →
             ∃ r ∈ t.reports, r.src = 0x140 + stackOf p.addr.toNat ∧ r.code = 0x0202))
       (s.packetAnswer p.src.toNat q false = .refused → ∃ t, answered (.read p) 2 true t ∧ refused t) ∧
       (s.packetAnswer p.src.toNat q true = .refused → (∃ t, answered (.write p) 2 false t ∧ refused t) ∧
         ∃ t, exec (.postedWrite p) s = .next t ∧ t.mem = s.mem ∧ t.ring.resps = s.ring.resps ∧ refused t))) ∧
    ∀ a, a < packetBase p ∨ packetBase p + (packetBytes p).length ≤ a →
      (s.wrEnabled (packetBase p) (packetBytes p)).rdByte a = s.rdByte a

/-- Outside reset and on a way without a closed station, a STREAM packet of a listed master whose target's domain is on ends at
its station without effect on memory, strands or reports; with no probe, monitor or trace observing it changes nothing, and
one whose domain is gated is dropped, counted and reported. A RESP_DATA or RESP_ACK that names a response under way, which no
earlier one on the same way precedes, takes it from the ring and changes no memory and no strand; one to the host, behind
which no other host request waits in the endpoint, leaves its data word and status as the host's answer; with nothing
observing, one to another master changes nothing else. Where its way has a closed station beyond its own, or it names no
response, nothing changes. PRB_CLR that reaches its register clears the probe's match and byte counts. A host read of G32_BW_n
that reaches its block in Run answers the byte count and clears it, and copies the monitor's bins to G32_HIST.
STATION_DRAIN_END at a closed station that holds no answer of its own and no request that waits for one ends DRAINING and
changes nothing else, and elsewhere, or while an answer of it may still leave, changes nothing. TABLE_SWAP at a station whose
copy waits and which has drained, with no step executing, makes the shadow copy the active one, ends SWAP_PEND and reopens the
station, and then sends on the requests that waited, those in front of it and those in the host's endpoint; otherwise it
changes nothing. (R106, R109, R113, R116, R117, R118, R120, R121, R362) -/
def Obligations.PacketsSeen : Prop :=
  (
    (∀ (p : Packet) (s : State), s.inReset = false → masterOk p.src = true → s.wayOpen p = true → s.streamAsleep p = false →
      (∃ t, exec (.stream p) s = .next t ∧ t.mem = s.mem ∧ t.strands = s.strands ∧ t.reports = s.reports ∧
        t.ring.resps = s.ring.resps ∧ t.ring.parked = s.ring.parked) ∧
      (s.unobserved → exec (.stream p) s = .next s)) ∧
    (∀ (p : Packet) (s : State), s.inReset = false → masterOk p.src = true → s.wayOpen p = true → s.unobserved →
      s.streamAsleep p = true →
      ∃ t, exec (.stream p) s = .next t ∧ t.mem = s.mem ∧ t.ring = s.ring ∧
        t.fget F.NOC_ASLEEP_DROP_COUNT = min (2 ^ 32 - 1) (s.fget F.NOC_ASLEEP_DROP_COUNT + 1) ∧
        (s.srcOn (stnSource p.dstStn.toNat) = true → ∃ r ∈ t.reports, r.src = stnSource p.dstStn.toNat ∧ r.code = 0x0201)) ∧
    (∀ (p : Packet) (edges : Nat) (s : State), takeResponse true p s.ring.resps = none →
      exec (.respData p edges) s = .next s) ∧
    (∀ (p : Packet) (edges : Nat) (s : State), takeResponse false p s.ring.resps = none →
      exec (.respAck p edges) s = .next s) ∧
    (∀ (p : Packet) (edges : Nat) (s : State) (r : Response) (rest : List Response), s.answerOpen r = false →
      (takeResponse true p s.ring.resps = some (r, rest) → exec (.respData p edges) s = .next s) ∧
      (takeResponse false p s.ring.resps = some (r, rest) → exec (.respAck p edges) s = .next s)) ∧
    (∀ (p : Packet) (edges : Nat) (s : State) (r : Response) (rest : List Response), s.answerOpen r = true →
      (r.p.dstId = 0 → s.host.queue = []) →
      let answered := fun t : State => t.ring.resps = rest ∧ t.mem = s.mem ∧ t.strands = s.strands ∧
        (r.p.dstId ≠ 0 → t.host = s.host) ∧
        (r.p.dstId = 0 → t.host.status = r.p.status.toNat ∧
          t.host.data = (if r.p.status = 0 then payloadWord r.p (r.p.addr.toNat % 32 / 4) else 0))
      (takeResponse true p s.ring.resps = some (r, rest) → ∃ t, exec (.respData p edges) s = .next t ∧ answered t) ∧
      (takeResponse false p s.ring.resps = some (r, rest) → ∃ t, exec (.respAck p edges) s = .next t ∧ answered t)) ∧
    (∀ (p : Packet) (edges : Nat) (s : State) (r : Response) (rest : List Response), s.unobserved → r.p.dstId ≠ 0 →
      s.answerOpen r = true →
      (takeResponse true p s.ring.resps = some (r, rest) →
        exec (.respData p edges) s = .next { s with ring := { s.ring with resps := rest } }) ∧
      (takeResponse false p s.ring.resps = some (r, rest) →
        exec (.respAck p edges) s = .next { s with ring := { s.ring with resps := rest } })) ∧
    ∀ (p : Packet) (edges : Nat) (s : State) (r : Response) (rest : List Response), s.unobserved → r.p.dstId = 0 →
      r.p.status = 0 → s.host.queue = [] → s.answerOpen r = true → takeResponse true p s.ring.resps = some (r, rest) →
      exec (.respData p edges) s = .next { s with
        ring := { s.ring with resps := rest }
        host := { s.host with data := payloadWord r.p (r.p.addr.toNat % 32 / 4), status := 0 } }) ∧
  (
    (∀ (n : BitVec 6) (s : State), s.hostRuns (R.NOC_PRB_CTL n.toNat) = true →
      ∃ t, exec (.prbClr n) s = .next t ∧ t.wget (W.NOC_PRB_CNT_COUNT n.toNat) = 0 ∧ t.wget (W.NOC_PRB_BYTES_COUNT n.toNat) = 0 ∧
        t = (s.wset (W.NOC_PRB_CNT_COUNT n.toNat) 0).wset (W.NOC_PRB_BYTES_COUNT n.toNat) 0) ∧
    (∀ (n : BitVec 3) (s : State), s.hostReads (R.G32_BW n.toNat) = true →
      ∃ t, exec (.g32BwRead n) s = .next t ∧ t.host.data = s.reg (R.G32_BW n.toNat) ∧ t.host.status = 0 ∧
        t.reg (R.G32_BW n.toNat) = 0 ∧
        (∀ b, b < 16 → t.reg (R.G32_HIST n.toNat b) = BitVec.ofNat 32 (s.latencyBin n.toNat b) ∧ t.latencyBin n.toNat b = 0) ∧
        t.mem = s.mem) ∧
    (∀ (stn : StnId) (s : State), stn.toNat < 0xA0 → s.bit (stnClosed stn.toNat) = true →
      (∀ r ∈ s.ring.resps, r.stn ≠ stn.toNat) → s.ring.waits = [] →
      exec (.stationDrainEnd stn) s = .next (s.fset (stnDraining stn.toNat) 0)) ∧
    (∀ (stn : StnId) (s : State), 0xA0 ≤ stn.toNat ∨ s.bit (stnClosed stn.toNat) = false ∨
      (∃ r ∈ s.ring.resps, r.stn = stn.toNat ∧ s.answerOpen r = true) →
      exec (.stationDrainEnd stn) s = .next s) ∧
    (∀ (stn : StnId) (s : State), stn.toNat < 0xA0 → s.bit (stnSwapPend stn.toNat) = true →
      s.bit (stnDraining stn.toNat) = false → s.core.phase = .slack →
      let t := s.swapTable stn.toNat
      exec (.tableSwap stn) s = .next (s.watch allBits fun _ => t.unpark.hostServe) ∧
        (s.ring.parked = [] → s.host.queue = [] → exec (.tableSwap stn) s = .next t) ∧ t.bit (stnActive stn.toNat) = !s.bit (stnActive stn.toNat) ∧
        t.bit (stnSwapPend stn.toNat) = false ∧ t.bit (stnClosed stn.toNat) = false ∧ t.ring = s.ring ∧
        s.wordsBut t [(stnActive stn.toNat).addr]) ∧
    ∀ (stn : StnId) (s : State), 0xA0 ≤ stn.toNat ∨ s.bit (stnSwapPend stn.toNat) = false ∨
      s.bit (stnDraining stn.toNat) = true ∨ s.core.phase ≠ .slack → exec (.tableSwap stn) s = .next s)

/-- An operation that FIRE has marked starts as the next step begins (shown for a NOP): one beyond the port's limit raises
PORT_BUSY, starts nothing and keeps the staging register; one past the window, a write of a turn input and a read of a turn
output port raise DMEM_BOUNDS, a write changing nothing and a read bringing 0 at its return step; any other waits, as staged,
for its access and return steps, two and six steps after FIRE for cord memory and turn buffers, by the grid's profile for a
scratch bank. PORT_ACCESS performs the port's oldest operation not accessed, delayed or in a bank, from its access step on: in
cord memory a write stores its enabled byte pairs and leaves the port, and a read keeps the word it got, a write of the same
step unseen; a turn-input read keeps the word of the window that the turn reads; a turn-output write merges its byte pairs
into the pending set; a DRAM write stores its byte pairs, or nothing, counted and reported as REGION_DENIED, where its granule
refuses it, and a DRAM read keeps its word once no DRAM write of an earlier turn is outstanding; a scratch operation that no
delayed one precedes is performed where its bank grants it and has room after those served before, is delayed a step where the
bank is full (round robin from the highest port: the model's choice, log entry 91), writes nothing, reads 0 and is reported as
NON_OWNER where the bank refuses it, and waits in a bank under handover to the cord. BANK_DELAYED_ACCESS performs a delayed
operation at its step likewise, and nothing else. PORT_RETURN enters the word of the next accessed read (of two at one step
the later-fired last) into the read register at its return step, L + 23 at the latest, effective from then on, and removes it;
else nothing changes. A read of an earlier turn enters once the next turn has started, a delayed one at its return edge if
later. DEFERRED_DATA_ARRIVAL marks the oldest outstanding deferred read; data past its due edge is dropped and counted. (R79,
R80, R124, R125, R126, R127, R128, R129, R130, R131, R132, R135) -/
def Obligations.Ports : Prop :=
  (
    (∀ (g : StrandId) (s : State) (k step strand : Nat) (p : Port), s.runsClass opNop g.toNat →
      s.core.cur ≠ some (s.strand g.toNat).pos → s.ports = [(k, p)] → k < 512 → p.fire = some (step, strand) →
      let c := k / 4
      let mode := s.fget (F.DMP_CFG_MODE c (k % 4))
      let addr := field p.stage.toNat 128 48
      let write := p.stage.getLsbD 184
      let bad := s.wget (W.DMP_SIZE_SIZE c (k % 4)) ≤ addr ∨ (mode = 4 ∧ write = true) ∨ (mode = 5 ∧ write = false)
      let told := fun (t : State) (code : Nat) => s.srcOn c = true → ∃ r ∈ t.reports, r.src = c ∧ r.code = code
      let steps := if mode = 2 then (if s.bit F.NOC_STAT_PROFILE then (17, 34) else (20, 40)) else (2, 6)
      ∃ t, exec (.nop g) s = .next t ∧ (t.port k).fire = none ∧ (t.port k).stage = p.stage ∧ t.mem = s.mem ∧
        (s.portFull c (k % 4) mode write = true → (t.port k).ops = p.ops ∧ told t 0x010B) ∧
        (s.portFull c (k % 4) mode write = false →
          (bad → write = true → (t.port k).ops = p.ops ∧ told t 0x010C) ∧
          (bad → write = false → told t 0x010C ∧ ∃ o, (t.port k).ops = p.ops ++ [o] ∧ o.accessed = true ∧ o.got = 0 ∧
            o.ret = s.core.base + step + steps.2) ∧
          (¬bad → ∃ o, (t.port k).ops = p.ops ++ [o] ∧ o.mode = mode ∧ o.write = write ∧ o.addr = addr ∧
            o.data = p.stage.setWidth 128 ∧ o.be = BitVec.ofNat 8 (field p.stage.toNat 176 8) ∧ o.accessed = false ∧
            o.fire = s.core.base + step ∧ o.access = o.fire + steps.1 ∧ o.ret = o.fire + steps.2))) ∧
    (∀ (cord : CordId) (q : BitVec 2) (s : State),
      (s.port (portKey cord.toNat q.toNat)).ops.find? (fun o => o.open_ && !o.delayed) = none →
      exec (.portAccess cord q) s = .next s) ∧
    (∀ (cord : CordId) (q : BitVec 2) (s : State),
      (s.port (portKey cord.toNat q.toNat)).ops.find? (fun o => o.open_ && o.delayed) = none →
      exec (.bankDelayedAccess cord q) s = .next s) ∧
    (∀ (cord : CordId) (q : BitVec 2) (s : State) (o : PortOp),
      let k := portKey cord.toNat q.toNat
      let a := s.portAddr (k / 4) (k % 4) o.addr
      let b := s.opBank k o
      (s.port k).ops.find? (fun o => o.open_ && !o.delayed) = some o →
      (o.mode ≠ 3 → s.absNow < o.access → s.core.base ≤ o.fire → exec (.portAccess cord q) s = .next s) ∧
      ((o.access ≤ s.absNow ∨ o.fire < s.core.base) →
        (o.mode = 1 → o.write = true →
          ∃ t, exec (.portAccess cord q) s = .next t ∧
            t.mem = (s.wrEnabled (cordMemAddr (k / 4) a) (pairEnables o.be o.data)).mem ∧
            (t.port k).ops = (s.port k).ops.erase o ∧ t.regs = s.regs ∧ t.strands = s.strands) ∧
        (o.mode = 1 → o.write = false →
          ∃ t, exec (.portAccess cord q) s = .next t ∧ t.mem = s.mem ∧ t.regs = s.regs ∧
            { o with accessed := true, got := s.portRead (cordMemAddr (k / 4) a) o.access } ∈ (t.port k).ops) ∧
        (o.mode = 4 → o.write = false →
          ∃ t, exec (.portAccess cord q) s = .next t ∧ t.mem = s.mem ∧ t.core = s.core ∧
            { o with accessed := true, got := s.turnInWord (k / 4) o.addr } ∈ (t.port k).ops) ∧
        (o.mode = 5 → o.write = true →
          ∃ t, exec (.portAccess cord q) s = .next t ∧ t.mem = s.mem ∧
            (∀ w, SMap.get (fun _ => (0 : W128)) t.core.outPend w =
              if w = k / 4 * 2048 + o.addr then mergePairs o.be (SMap.get (fun _ => (0 : W128)) s.core.outPend w) o.data
              else SMap.get (fun _ => (0 : W128)) s.core.outPend w) ∧ (t.port k).ops = (s.port k).ops.erase o) ∧
        (o.mode = 2 → s.delayedBefore b o = true → exec (.portAccess cord q) s = .next s) ∧
        (o.mode = 2 → s.delayedBefore b o = false → s.bankCount b o.access + s.bankAhead b k o < 4 →
          (s.bankAnswer b (0x80 + k / 4) = .granted → o.write = true →
            ∃ t, exec (.portAccess cord q) s = .next t ∧ t.mem = (s.wrEnabled a (pairEnables o.be o.data)).mem ∧
              (t.port k).ops = (s.port k).ops.erase o ∧ t.regs = s.regs) ∧
          (s.bankAnswer b (0x80 + k / 4) = .granted → o.write = false →
            ∃ t, exec (.portAccess cord q) s = .next t ∧ t.mem = s.mem ∧ t.regs = s.regs ∧
              { o with accessed := true, got := s.portRead a o.access } ∈ (t.port k).ops) ∧
          (s.bankAnswer b (0x80 + k / 4) = .refused → o.granted = false →
            ∃ t, exec (.portAccess cord q) s = .next t ∧ t.mem = s.mem ∧
              (o.write = true → (t.port k).ops = (s.port k).ops.erase o) ∧
              (o.write = false → { o with accessed := true, got := 0 } ∈ (t.port k).ops) ∧
              (s.srcOn (0x100 + bankOf a) = true → ∃ r ∈ t.reports, r.src = 0x100 + bankOf a ∧ r.code = 0x010E)) ∧
          (s.bankAnswer b (0x80 + k / 4) = .waits → o.granted = false →
            ∃ t, exec (.portAccess cord q) s = .next t ∧ t.mem = s.mem ∧ t.regs = s.regs ∧
              t.ring.waits = s.ring.waits ++ [(b, .port k { o with waiting := true })])) ∧
        (o.mode = 2 → s.delayedBefore b o = false → 4 ≤ s.bankCount b o.access + s.bankAhead b k o →
          ∃ t, exec (.portAccess cord q) s = .next t ∧ t.mem = s.mem ∧
            o.later (s.bankAnswer b (0x80 + k / 4) = .granted) ∈ (t.port k).ops ∧
            (let f := F.BNK_PORT_DELAY_COUNT b
             t.fget f = satAdd (2 ^ f.w - 1) (s.fget f) 1))) ∧
      (o.mode = 3 → o.write = true → s.dramAllows (0x80 + k / 4) a true = true →
        ∃ t, exec (.portAccess cord q) s = .next t ∧ t.mem = (s.wrEnabled a (pairEnables o.be o.data)).mem ∧ t.regs = s.regs) ∧
      (o.mode = 3 → (o.write = true ∨ s.olderDramWrite o.turn = false) → s.dramAllows (0x80 + k / 4) a o.write = false →
        ∃ t, exec (.portAccess cord q) s = .next t ∧ t.mem = s.mem ∧
          (o.write = false → { o with accessed := true, got := 0 } ∈ (t.port k).ops) ∧
          (s.inDram a = true → s.domainOn (s.addrDomain a) = true →
            t.fget F.BNK_DRAM_DENIED_COUNT = min (2 ^ 32 - 1) (s.fget F.BNK_DRAM_DENIED_COUNT + 1) ∧
            (s.srcOn (0x140 + stackOf a) = true → ∃ r ∈ t.reports, r.src = 0x140 + stackOf a ∧ r.code = 0x0202))) ∧
      (o.mode = 3 → o.write = false → s.olderDramWrite o.turn = true → exec (.portAccess cord q) s = .next s) ∧
      (o.mode = 3 → o.write = false → s.olderDramWrite o.turn = false → s.dramAllows (0x80 + k / 4) a false = true →
        ∃ t, exec (.portAccess cord q) s = .next t ∧ t.mem = s.mem ∧ t.regs = s.regs ∧
          { o with accessed := true, got := s.rdWord a } ∈ (t.port k).ops)) ∧
    ∀ (cord : CordId) (q : BitVec 2) (s : State) (o : PortOp),
      let k := portKey cord.toNat q.toNat
      let a := s.portAddr (k / 4) (k % 4) o.addr
      let b := s.opBank k o
      (s.port k).ops.find? (fun o => o.open_ && o.delayed) = some o →
      (s.opReached o o.access = false ∨ s.delayedBefore b o = true → exec (.bankDelayedAccess cord q) s = .next s) ∧
      (s.opReached o o.access = true → s.delayedBefore b o = false → s.bankCount b o.access + s.bankAhead b k o < 4 →
        o.mode = 2 → (o.granted = true ∨ s.bankAnswer b (0x80 + k / 4) = .granted) →
        ∃ t, exec (.bankDelayedAccess cord q) s = .next t ∧ t.bankCount b o.access = s.bankCount b o.access + 1 ∧
          (o.write = true → t.mem = (s.wrEnabled a (pairEnables o.be o.data)).mem ∧ (t.port k).ops = (s.port k).ops.erase o) ∧
          (o.write = false → t.mem = s.mem ∧
            { o with accessed := true, got := s.portRead a o.access } ∈ (t.port k).ops))) ∧
  (
    (∀ (cord : CordId) (q : BitVec 2) (s : State), nextReturn s.core (s.port (portKey cord.toNat q.toNat)).ops = none →
      exec (.portReturn cord q) s = .next s) ∧
    (∀ (cord : CordId) (q : BitVec 2) (s : State) (o : PortOp),
      let k := portKey cord.toNat q.toNat
      let reached := min (s.absNow + 1) (s.core.base + s.schedL + 23)
      nextReturn s.core (s.port k).ops = some o → s.core.base ≤ o.fire →
      (reached < o.ret → exec (.portReturn cord q) s = .next s) ∧
      (o.ret ≤ reached →
        ∃ t, exec (.portReturn cord q) s = .next t ∧ (t.port k).rdata = o.got ∧ (t.port k).rprev = (s.port k).rdata ∧
          (t.port k).entry = o.ret ∧ (t.port k).ops = (s.port k).ops.erase o ∧ (t.port k).stage = (s.port k).stage ∧
          (∀ j, j ≠ k → t.port j = s.port j) ∧ t.mem = s.mem ∧ t.strands = s.strands)) ∧
    (∀ (cord : CordId) (q : BitVec 2) (s : State) (o : PortOp),
      let k := portKey cord.toNat q.toNat
      let early := s.core.base ≤ o.ret ∧ (s.core.phase ≠ .turn ∨ (o.delayed = true ∧ s.lateNow + 1 < o.ret))
      nextReturn s.core (s.port k).ops = some o → o.fire < s.core.base →
      (early → exec (.portReturn cord q) s = .next s) ∧
      (¬early →
        ∃ t, exec (.portReturn cord q) s = .next t ∧ (t.port k).rdata = o.got ∧ (t.port k).rprev = (s.port k).rdata ∧
          (t.port k).entry = s.nextAbs ∧ (t.port k).ops = (s.port k).ops.erase o ∧ t.mem = s.mem ∧ t.strands = s.strands)) ∧
    (∀ (c : Core) (os : List PortOp) (o : PortOp), nextReturn c os = some o →
      o ∈ os ∧ o.write = false ∧ o.mode ≠ 3 ∧ o.accessed = true ∧
        ∀ p ∈ os, p.write = false → p.mode ≠ 3 → p.accessed = true → o.entry c ≤ p.entry c) ∧
    (∀ (c : Core) (o p : PortOp), nextReturn c [o, p] = some p → o.write = false → o.mode ≠ 3 → o.accessed = true →
      p.entry c < o.entry c) ∧
    (∀ (cord : CordId) (q : BitVec 2) (s : State),
      (s.port (portKey cord.toNat q.toNat)).ops.find? (fun o => o.mode == 3 && !o.write && o.accessed && !o.arrived) = none →
      exec (.deferredDataArrival cord q) s = .next s) ∧
    ∀ (cord : CordId) (q : BitVec 2) (s : State) (o : PortOp),
      let k := portKey cord.toNat q.toNat
      (s.port k).ops.find? (fun o => o.mode == 3 && !o.write && o.accessed && !o.arrived) = some o →
      (o.late = false → ∃ t, exec (.deferredDataArrival cord q) s = .next t ∧ { o with arrived := true } ∈ (t.port k).ops ∧
        (t.port k).rdata = (s.port k).rdata ∧ t.regs = s.regs) ∧
      (o.late = true → ∃ t, exec (.deferredDataArrival cord q) s = .next t ∧ (t.port k).ops = (s.port k).ops.erase o ∧
        (t.port k).rdata = (s.port k).rdata ∧
        t.fget (F.DMP_LATE_DROP_COUNT cord.toNat q.toNat) =
          satAdd (2 ^ (F.DMP_LATE_DROP_COUNT cord.toNat q.toNat).w - 1) (s.fget (F.DMP_LATE_DROP_COUNT cord.toNat q.toNat)) 1))

/-- A write of BNK_OWN_n that reaches its register, by the boot sequencer or by the bank's owner while no handover is pending
makes it PENDING and keeps the current owner; a write by any other master, or during a handover, changes no ownership and
records the refusal and the master. HANDOVER_COMPLETE of a pending bank, once no operation that reached it before the request
is still to be completed, makes the named owner, or the cord group, its owner, ends PENDING and serves and removes the waiting
accesses of the bank; before that, and of a bank that is not pending, it only tries the host requests again that wait in the
endpoint, and changes nothing where there are none. A granted, waiting or refused access is told by the owner and the pending
owner alone. (R134, R135, R136) -/
def Obligations.BankOwnership : Prop :=
  (∀ (bank : BitVec 6) (master : MasterId) (v : W32) (s : State),
    (if master = 0 then s.hostRuns (R.BNK_OWN bank.toNat) else !s.inReset && masterOk master) = true →
    s.bankHere bank.toNat = true → s.fget (F.BNK_STAT_STATE bank.toNat) = 0 →
    (master = 0 ∨ master = 1 ∨ isOwner master.toNat (s.fget (F.BNK_OWN_OWNER bank.toNat)) (s.bit (F.BNK_OWN_CORDS bank.toNat)) = true) →
    ∃ t, exec (.bnkOwnWrite bank master v) s = .next t ∧ t.fget (F.BNK_STAT_STATE bank.toNat) = 1 ∧
      SMap.find t.ring.nextOwner bank.toNat = some (v.setWidth 8, v.getLsbD 8) ∧
      t.reg (R.BNK_OWN bank.toNat) = s.reg (R.BNK_OWN bank.toNat) ∧ t.mem = s.mem) ∧
  (∀ (bank : BitVec 6) (master : MasterId) (v : W32) (s : State),
    (if master = 0 then s.hostRuns (R.BNK_OWN bank.toNat) else !s.inReset && masterOk master && !s.sees master) = true →
    s.bankHere bank.toNat = true → (s.fget (F.BNK_STAT_STATE bank.toNat) ≠ 0 ∨ master ≠ 0 ∧ master ≠ 1 ∧
      isOwner master.toNat (s.fget (F.BNK_OWN_OWNER bank.toNat)) (s.bit (F.BNK_OWN_CORDS bank.toNat)) = false) →
    ∃ t, exec (.bnkOwnWrite bank master v) s = .next t ∧ s.onlyWords t [R.BNK_STAT bank.toNat] ∧
      t.bit (F.BNK_STAT_REFUSED bank.toNat) = true ∧ t.fget (F.BNK_STAT_REF_ID bank.toNat) = master.toNat ∧
      t.fget (F.BNK_STAT_STATE bank.toNat) = s.fget (F.BNK_STAT_STATE bank.toNat)) ∧
  (∀ (bank : BitVec 6) (s : State), s.fget (F.BNK_STAT_STATE bank.toNat) = 0 ∨ s.oldOwnerBusy bank.toNat = true →
    exec (.handoverComplete bank) s = .next (s.watch allBits State.hostServe) ∧
      (s.host.queue = [] → exec (.handoverComplete bank) s = .next s)) ∧
  (∀ (bank : BitVec 6) (s : State) (o : MasterId) (cords : Bool), s.fget (F.BNK_STAT_STATE bank.toNat) ≠ 0 →
    s.oldOwnerBusy bank.toNat = false → s.host.queue = [] → SMap.find s.ring.nextOwner bank.toNat = some (o, cords) →
    ∃ t, exec (.handoverComplete bank) s = .next t ∧
      t.fget (F.BNK_OWN_OWNER bank.toNat) = (if cords then 0x80 else o.toNat) ∧ t.bit (F.BNK_OWN_CORDS bank.toNat) = cords ∧
      t.fget (F.BNK_STAT_STATE bank.toNat) = 0 ∧ SMap.find t.ring.nextOwner bank.toNat = none ∧
      ((∀ w ∈ s.ring.waits, w.1 ≠ bank.toNat) → t.mem = s.mem ∧ t.ring.resps = s.ring.resps) ∧
      ∀ w ∈ t.ring.waits, w.1 ≠ bank.toNat) ∧
  ∀ (s : State) (bank master : Nat),
    (s.fget (F.BNK_STAT_STATE bank) = 0 → s.bankAnswer bank master =
      if isOwner master (s.fget (F.BNK_OWN_OWNER bank)) (s.bit (F.BNK_OWN_CORDS bank)) then .granted else .refused) ∧
    ∀ o g, s.fget (F.BNK_STAT_STATE bank) ≠ 0 → SMap.find s.ring.nextOwner bank = some (o, g) →
      s.bankAnswer bank master = if isOwner master o.toNat g then .waits else .refused

/-- A turn-input word of a die that the active topology has: while no fabric runs, or where the port's WE comes from an isolated
region, it is discarded; on a STANDBY whose promotion boundary is not known it is counted in EDG_TIN_STBY; for a cord that is
not configured or a word not assigned to the fabric it is counted in EDG_TIN_UNASSIGNED; before the first boundary it is
discarded; otherwise it enters the window of the boundary that closes next but for the fill guard. A turn-output read
presents, three edge core edges later, the visible set's word, 0 for a cord that is not configured. Both do nothing for the
die that an AY4060, or an AY4100 with an AY4060 image, does not use. (R20, R21, R79, R81, R173, R174, R175, R305) -/
def Obligations.TurnBuffers : Prop :=
  (∀ (die : Bool) (port : BitVec 5) (cord : CordId) (word : BitVec 11) (data : W128) (s : State),
    let key := cord.toNat * 2048 + word.toNat
    let c := Instr.turnInputWrite die port cord word data
    let cut := s.cutOff s.edge.die.tinWe (die.toNat * 32 + port.toNat)
    (die = true → s.closed = true → exec c s = .next s) ∧
    ((die = true → s.closed = false) →
      (s.fabricOn = false ∨ cut = true → exec c s = .next s) ∧
      (s.fabricOn = true → cut = false → s.standby = true → s.splice.bs = none →
        exec c s = .next (s.count F.EDG_TIN_STBY_COUNT 1)) ∧
      (s.fabricOn = true → cut = false → (s.standby = false ∨ s.splice.bs.isSome = true) →
        (s.cordOn cord.toNat = false ∨ key ∉ s.edge.die.tin →
          exec c s = .next (s.count (F.EDG_TIN_UNASSIGNED_COUNT die.toNat) 1)) ∧
        (s.cordOn cord.toNat = true → key ∈ s.edge.die.tin → s.core.started = false → exec c s = .next s) ∧
        (s.cordOn cord.toNat = true → key ∈ s.edge.die.tin → s.core.started = true → s.isolated cord.toNat = false →
          ∃ t w, exec c s = .next t ∧ SMap.find t.core.windows (s.closing * 2 ^ 18 + key) = some w ∧
            (SMap.find s.core.windows (s.closing * 2 ^ 18 + key) = none → w.data = data ∧ w.stamp = s.lineTime.toNat) ∧
            (∀ k, k ≠ s.closing * 2 ^ 18 + key → SMap.find t.core.windows k = SMap.find s.core.windows k) ∧
            t.strands = s.strands ∧ t.mem = s.mem)))) ∧
  ∀ (die : Bool) (port : BitVec 5) (cord : CordId) (word : BitVec 11) (s : State),
    (die = true → s.closed = true → exec (.turnOutputRead die port cord word) s = .next s) ∧
    let w := if s.cordOn cord.toNat then SMap.get (fun _ => (0 : W128)) s.core.outVis (cord.toNat * 2048 + word.toNat) else 0
    ((die = true → s.closed = false) → exec (.turnOutputRead die port cord word) s = .next { s with
      edge := { s.edge with reads := s.edge.reads ++ [⟨die.toNat * 32 + port.toNat, 3, w⟩] } })

/-- A host write that reaches LANE_CTL of a configured lane: EN = 1 sets EN, or is held as PENDING_ENABLE during a shutdown; EN =
0 of an enabled lane clears EN, every lock stage and its group's alignment, starts the shutdown, idles the transmitter, makes
the receive word invalid and stops a scan, and, for a lane in no group that is no locked anchor and has no calibration change
waiting, changes no other register; of a disabled lane only drops the held enable; TX_SRC (port lanes only), NE_LPBK and
FE_LPBK take the value written. CHK_CLR clears the checker's counts. On an unconfigured lane LANE_CTL commands change nothing.
LANE_SHUTDOWN_DONE ends the shutdown and takes a held enable of the lane, without one it changes nothing; the last splice
lane's with a link enable held enables the link on every configured splice lane. On an enabled lane LANE_LOCK sets signal
detect. On a live one it sets CDR lock only after signal detect and where the lane's PLLs are locked, the count of wire bits
starting at 0; PCS lock only after CDR lock, and on a lane that is not the anchor it counts one mark for each calibration
value in use (the lane then knows where a unit starts: the model's choice, log entry 107); FEC lock only after PCS lock and
for an RS option; a coded lane's first unit starts less than a unit ahead of the bits counted so far; at the deskew stage,
after PCS and any FEC lock, the instant at which the lane meets its group's marker is kept until each lane of it has met it: a
skew above 63 words then sets DSK_FAIL of each (log entry 122), any other gives each ALIGNED, its LAG and DELAY = 64 - LAG.
LANE_LOCK_LOSS of a stage that is held clears it and every later stage, and the alignment of the lane's group, and sets
LOCK_LOST; of a stage not held it changes nothing. CHK_LOCK sets the checker's lock after 64 matches, clears it after 32
mismatches in 64. FE_SLIP with far-end loopback sets FE_SLIP and drops or repeats a bit of the buffer (the model's choice, log
entry 108). (R192, R193, R194, R204, R205, R206, R208, R308, R343) -/
def Obligations.LaneCommands : Prop :=
  (
    ∀ (lane : LaneId) (s : State), let n := lane.toNat
      (s.hostRuns (R.LANE_CTL n) = true → s.laneOn n = true →
        (s.bit (F.LANE_CTL_EN n) = true → exec (.laneEnable lane) s = .next s) ∧
        (s.bit (F.LANE_CTL_EN n) = false → s.bit (F.LANE_STAT_SHUTTING n) = true →
          exec (.laneEnable lane) s = .next (s.fset (F.LANE_STAT_PENDING_ENABLE n) 1)) ∧
        (s.bit (F.LANE_CTL_EN n) = false → s.bit (F.LANE_STAT_SHUTTING n) = false →
          exec (.laneEnable lane) s = .next (s.fset (F.LANE_CTL_EN n) 1)) ∧
        (s.bit (F.LANE_CTL_EN n) = false → exec (.laneDisable lane) s = .next (s.fset (F.LANE_STAT_PENDING_ENABLE n) 0)) ∧
        (s.bit (F.LANE_CTL_EN n) = true → ∃ t, exec (.laneDisable lane) s = .next t ∧
          t.bit (F.LANE_CTL_EN n) = false ∧ t.bit (F.LANE_STAT_SHUTTING n) = true ∧ t.bit (F.LANE_STAT_PENDING_ENABLE n) = false ∧
          (∀ stage, t.hasStage n stage = false) ∧ t.bit (F.LANE_ES_STAT_BUSY n) = false ∧
          (t.lane n).tx = none ∧ (t.lane n).txSrc = 0 ∧ (∀ w, (t.lane n).rx = some w → w.valid = false) ∧
          (∀ m, m ≠ n → m ∉ s.dskLanes n → t.lane m = s.lane m) ∧ (∀ m ∈ s.dskLanes n, t.bit (F.LANE_STAT_ALIGNED m) = false) ∧
          (s.dskWidth n = 1 → (∀ m, m ≠ n → t.lane m = s.lane m) ∧
            (s.pcsLocked n = false ∨ s.isAnchor n = false ∧ (s.lane n).cal = [] →
              s.wordsBut t [R.LANE_CTL n, R.LANE_STAT n, R.LANE_ES_STAT n]))) ∧
        (∀ v, n < 1024 → exec (.txSrc lane v) s = .next (s.fset (F.LANE_CTL_TX_SRC n) v.toNat)) ∧
        (∀ v, 1024 ≤ n → exec (.txSrc lane v) s = .next s) ∧
        (∀ v, exec (.neLpbk lane v) s = .next (s.setBit (F.LANE_CTL_NE_LPBK n) v)) ∧
        (∀ v, exec (.feLpbk lane v) s = .next (s.setBit (F.LANE_CTL_FE_LPBK n) v))) ∧
      (s.hostRuns (R.LANE_CTL n) = true → s.laneOn n = false →
        exec (.laneEnable lane) s = .next s ∧ exec (.laneDisable lane) s = .next s ∧ (∀ v, exec (.txSrc lane v) s = .next s) ∧
          (∀ v, exec (.neLpbk lane v) s = .next s) ∧ (∀ v, exec (.feLpbk lane v) s = .next s)) ∧
      (s.hostRuns (R.LANE_PRBS n) = true → s.laneHere n = true → ∃ t, exec (.chkClr lane) s = .next t ∧
        t.fget (F.LANE_PRBS_ERR_COUNT n) = 0 ∧ t.wget (W.LANE_PRBS_BITS_COUNT n) = 0 ∧
        s.onlyWords t [R.LANE_PRBS_ERR n, R.LANE_PRBS_BITS n, R.LANE_PRBS_BITS n + 4])) ∧
  (
    ∀ (lane : LaneId) (s : State), let n := lane.toNat
      (s.laneHere n = false → exec (.laneShutdownDone lane) s = .next s) ∧
      (s.laneHere n = true → s.bit (F.LANE_STAT_SHUTTING n) = false → s.bit F.SPL_STAT_PENDING_ENABLE = false →
        exec (.laneShutdownDone lane) s = .next s) ∧
      (s.laneHere n = true → s.bit (F.LANE_STAT_SHUTTING n) = true →
        (s.bit F.SPL_STAT_PENDING_ENABLE = false ∨ (s.fset (F.LANE_STAT_SHUTTING n) 0).linkShutting = true) →
        (s.bit (F.LANE_STAT_PENDING_ENABLE n) = false →
          exec (.laneShutdownDone lane) s = .next (s.fset (F.LANE_STAT_SHUTTING n) 0)) ∧
        (s.bit (F.LANE_STAT_PENDING_ENABLE n) = true →
          ∃ t, exec (.laneShutdownDone lane) s = .next t ∧ s.onlyWords t [R.LANE_STAT n, R.LANE_CTL n] ∧
            t.bit (F.LANE_STAT_SHUTTING n) = false ∧ t.bit (F.LANE_STAT_PENDING_ENABLE n) = false ∧
            t.bit (F.LANE_CTL_EN n) = true)) ∧
      (s.laneHere n = true → s.bit (F.LANE_STAT_SHUTTING n) = true → s.bit F.SPL_STAT_PENDING_ENABLE = true →
        (s.fset (F.LANE_STAT_SHUTTING n) 0).linkShutting = false → ∃ t, exec (.laneShutdownDone lane) s = .next t ∧
          t.bit (F.LANE_STAT_SHUTTING n) = false ∧ t.bit F.SPL_CTL_LINK_EN = true ∧ t.bit F.SPL_STAT_PENDING_ENABLE = false ∧
          ∀ m, m ∈ s.spliceLanes → s.laneOn m = true → t.bit (F.LANE_CTL_EN m) = true) ∧
      (∀ (lag : BitVec 7) (wb : BitVec 40) (ts : W64), s.laneOn n = true → s.bit (F.LANE_CTL_EN n) = true →
        s.bit (F.LANE_STAT_SHUTTING n) = false →
        exec (.laneLock lane .signal lag wb ts) s = .next (s.fset (F.LANE_STAT_SIG_DET n) 1)) ∧
      (∀ (lag : BitVec 7) (wb : BitVec 40) (ts : W64), s.laneLive n = true → s.bit (F.LANE_CTL_EN n) = true →
        s.bit (F.LANE_STAT_SHUTTING n) = false →
        (s.bit (F.LANE_STAT_SIG_DET n) = false ∨ s.pllLocked n = false → exec (.laneLock lane .cdr lag wb ts) s = .next s) ∧
        (s.bit (F.LANE_STAT_SIG_DET n) = true → s.bit (F.LANE_STAT_CDR_LOCK n) = false → s.pllLocked n = true →
          (∃ t, exec (.laneLock lane .cdr lag wb ts) s = .next t ∧ t.bit (F.LANE_STAT_CDR_LOCK n) = true ∧
            (t.lane n).wireBits = 0 ∧ (∀ m, m ≠ n → t.lane m = s.lane m) ∧ t.mem = s.mem) ∧
          (s.pcs n ≠ 0 → exec (.laneLock lane .cdr lag wb ts) s =
            .next (((s.fset (F.LANE_STAT_CDR_LOCK n) 1).setLane n { s.lane n with wireBits := 0 }).setCap n
              { s.cap n with part := {} }))) ∧
        (s.bit (F.LANE_STAT_CDR_LOCK n) = false ∨ (s.pcs n ≠ 0 ∧ s.nextUnit n wb = false) →
          exec (.laneLock lane .pcs lag wb ts) s = .next s) ∧
        (s.nextUnit n wb = true ↔ (wb - (s.lane n).wireBits).toNat < calUnit (s.pcs n) (s.dskWidth n)) ∧
        (s.bit (F.LANE_STAT_CDR_LOCK n) = true → s.bit (F.LANE_STAT_PCS_LOCK n) = false → s.pcs n = 0 ∨ s.nextUnit n wb = true →
          (∃ t, exec (.laneLock lane .pcs lag wb ts) s = .next t ∧ t.bit (F.LANE_STAT_PCS_LOCK n) = true ∧
            (∀ m, m ≠ n → t.lane m = s.lane m) ∧ t.mem = s.mem) ∧
          (s.pcs n ≠ 0 → s.isAnchor n = false →
            ∃ t, exec (.laneLock lane .pcs lag wb ts) s = .next t ∧ t.bit (F.LANE_STAT_PCS_LOCK n) = true ∧
              t.lane n = (if s.rsLane n then s.lane n else { s.lane n with unitAt := some wb }) ∧ t.core = s.core ∧
              s.wordsBut t [R.LANE_STAT n, R.LANE_CAL_MARKS n] ∧
              t.fget (F.LANE_CAL_MARKS_COUNT n) = min (2 ^ (F.LANE_CAL_MARKS_COUNT n).w - 1)
                (s.fget (F.LANE_CAL_MARKS_COUNT n) + if s.pam4 n then 5 else 1))) ∧
        (s.bit (F.LANE_STAT_PCS_LOCK n) = true → s.rsLane n = true → s.bit (F.LANE_STAT_FEC_LOCK n) = false → s.nextUnit n wb = true →
          exec (.laneLock lane .fec lag wb ts) s =
            .next ((s.fset (F.LANE_STAT_FEC_LOCK n) 1).setLane n { s.lane n with unitAt := some wb })) ∧
        (s.bit (F.LANE_STAT_PCS_LOCK n) = false ∨ s.rsLane n = false ∨ s.nextUnit n wb = false → exec (.laneLock lane .fec lag wb ts) s = .next s) ∧
        (s.bit (F.LANE_STAT_PCS_LOCK n) = true → (s.rsLane n = true → s.bit (F.LANE_STAT_FEC_LOCK n) = true) → s.dskWidth n ≠ 1 →
          n ∈ s.dskLanes n → s.bit (F.LANE_STAT_ALIGNED n) = false →
          let u := s.setLane n { s.lane n with skew := some lag.toNat }
          ((∃ m ∈ s.dskLanes n, m ≠ n ∧ (s.lane m).skew = none) → exec (.laneLock lane .deskew lag wb ts) s = .next u) ∧
          ∀ at_ : Nat → Nat, (∀ m ∈ s.dskLanes n, (u.lane m).skew = some (at_ m) ∧ at_ m < 128) →
            ((∃ m ∈ s.dskLanes n, ∃ k ∈ s.dskLanes n, at_ k + 63 < at_ m) →
              ∃ t, exec (.laneLock lane .deskew lag wb ts) s = .next t ∧ t = { u with regs := t.regs } ∧
                s.wordsBut t ((s.dskLanes n).map R.LANE_STAT) ∧ t.bit (F.LANE_STAT_ALIGNED n) = false ∧
                ∀ m ∈ s.dskLanes n, t.bit (F.LANE_STAT_DSK_FAIL m) = true) ∧
            ∀ k, k ∈ s.dskLanes n → (∀ m ∈ s.dskLanes n, at_ k ≤ at_ m ∧ at_ m ≤ at_ k + 63) →
              ∃ t, exec (.laneLock lane .deskew lag wb ts) s = .next t ∧ t = { u with regs := t.regs } ∧
                s.wordsBut t ((s.dskLanes n).map R.LANE_STAT ++ (s.dskLanes n).map R.LANE_DSK) ∧
                ∀ m ∈ s.dskLanes n, t.bit (F.LANE_STAT_ALIGNED m) = true ∧ t.fget (F.LANE_DSK_LAG m) = at_ m - at_ k ∧
                  t.fget (F.LANE_DSK_DELAY m) = 64 - (at_ m - at_ k))) ∧
      (∀ stage, s.laneOn n = false ∨ s.hasStage n stage = false → exec (.laneLockLoss lane stage) s = .next s) ∧
      (s.laneOn n = true → (∀ stage, s.hasStage n stage = true → ∃ t, exec (.laneLockLoss lane stage) s = .next t ∧
        t.hasStage n stage = false ∧ t.hasStage n .deskew = false ∧ t.bit (F.LANE_STAT_LOCK_LOST n) = true ∧
        (stage = .signal → t.hasStage n .cdr = false ∧ t.hasStage n .pcs = false ∧ t.hasStage n .fec = false ∧
          t.bit (F.LANE_STAT_LOS_SEEN n) = true) ∧
        (stage = .cdr → t.hasStage n .pcs = false ∧ t.hasStage n .fec = false ∧ t.hasStage n .signal = s.hasStage n .signal) ∧
        (stage = .pcs → t.hasStage n .fec = false ∧ t.hasStage n .cdr = s.hasStage n .cdr) ∧
        (∀ w, (t.lane n).rx = some w → w.valid = false) ∧ (∀ m, m ≠ n → m ∉ s.dskLanes n → t.lane m = s.lane m) ∧
        (∀ m ∈ s.dskLanes n, t.bit (F.LANE_STAT_ALIGNED m) = false) ∧
        (s.dskWidth n = 1 → (∀ m, m ≠ n → t.lane m = s.lane m) ∧
          (s.pcsLocked n = false ∨ s.isAnchor n = false ∧ (s.lane n).cal = [] →
            s.wordsBut t [R.LANE_STAT n, R.LANE_ES_STAT n])))) ∧
      (∀ v, s.laneOn n = true → s.chkMay n v = true → ∃ t, exec (.chkLock lane v) s = .next t ∧
        t.bit (F.LANE_PRBS_CHK_LOCK n) = v ∧ t.lane n = { s.lane n with matched := 0, missed := 0 } ∧
        (∀ m, m ≠ n → t.lane m = s.lane m) ∧ s.wordsBut t [R.LANE_PRBS n]) ∧
      (∀ v, s.laneOn n = false ∨ s.chkMay n v = false → exec (.chkLock lane v) s = .next s) ∧
      (s.laneOn n = true → s.bit (F.LANE_CTL_FE_LPBK n) = true → s.bit (F.LANE_CTL_NE_LPBK n) = false →
        ∃ t, exec (.feSlip lane) s = .next t ∧ t.bit (F.LANE_STAT_FE_SLIP n) = true ∧ s.wordsBut t [R.LANE_STAT n] ∧
          (∀ m, m ≠ n → t.lane m = s.lane m) ∧
          (64 < (s.lane n).fe.length → (t.lane n).fe = (s.lane n).fe.drop 1) ∧
          ∀ b bs, (s.lane n).fe = b :: bs → bs.length < 64 → (t.lane n).fe = b :: b :: bs) ∧
      (s.laneOn n = false ∨ s.bit (F.LANE_CTL_FE_LPBK n) = false ∨ s.bit (F.LANE_CTL_NE_LPBK n) = true →
        exec (.feSlip lane) s = .next s))

/-- A receive word of a lane that is live, enabled and not shutting down becomes the lane's word at the interface, valid only once
the lane's acquisition is complete, its data those of the word (of a raw lane its wire bits, with FEC_MARK_ONLY of an RS
option those received) and its CTLB the bits that the coding has; with near-end loopback its data are those of the lane's own
transmit word, pattern bits of a coded lane excepted, and of a transmitter in electrical idle it is invalid; no other lane
changes; on any other lane it has no effect. A transmit word of a live lane that may transmit (enabled, not shutting down, no
load in progress): under the safe state's idle policy a port lane is in electrical idle; with far-end loopback it sends the
bits of its buffer in their order, and slips with FE_SLIP where they do not suffice; a splice lane sends the presented word; a
port lane with TX_SRC = 0 is in electrical idle, with the edge fabric as source it sends the presented word, or the idle word
where the fabric presents none; with a pattern channel that is disabled and in no block, or idle, the idle word, else the next
word of its DRAM program, of the fabric or of the frame being played, and the channel counts it; with the PRBS generator the
next bits of the polynomial's sequence, inverted on GEN_INV, as wire bits (the sequence starts with a register of ones: the
model's choice, log entry 121). A lane that may not transmit is in electrical idle; on a lane that is not live the command has
no effect. (R170, R171, R172, R191, R192, R193, R194, R205, R245, R284, R318, R334) -/
def Obligations.LaneWords : Prop :=
  (∀ (lane : LaneId) (w : RxWord) (s : State), let n := lane.toNat
    (s.laneLive n = false ∨ s.bit (F.LANE_CTL_EN n) = false ∨ s.bit (F.LANE_STAT_SHUTTING n) = true →
      exec (.laneRxWord lane w) s = .next s) ∧
    (s.laneLive n = true → s.bit (F.LANE_CTL_EN n) = true → s.bit (F.LANE_STAT_SHUTTING n) = false →
      ∃ t v, exec (.laneRxWord lane w) s = .next t ∧ (t.lane n).rx = some v ∧ (s.acquired n = false → v.valid = false) ∧
        (s.bit (F.LANE_CTL_NE_LPBK n) = false → v.valid = (w.valid && s.acquired n) ∧ v.ctlb = w.ctlb &&& ctlMask (s.pcs n) ∧
          v.data = (if s.pcs n = 0 then w.wire.setWidth 64 else if s.rsLane n && s.opt n 4 then w.rcvd.getD w.data else w.data)) ∧
        (∀ x, s.bit (F.LANE_CTL_NE_LPBK n) = true → (s.lane n).tx = some x →
          ((s.lane n).txSrc ≠ 3 → s.pcs n ≠ 0 → v.data = x.data ∧ v.ctlb = x.ctlb &&& ctlMask (s.pcs n)) ∧
          ∀ b, s.pcs n = 0 → (s.lane n).txBits = some b → v.data = b.setWidth 64 ∧ v.ctlb = 0) ∧
        (s.bit (F.LANE_CTL_NE_LPBK n) = true → (s.lane n).tx = none → v.valid = false) ∧
        (t.lane n).tx = (s.lane n).tx ∧ (∀ m, m ≠ n → t.lane m = s.lane m) ∧ t.strands = s.strands ∧ t.instrs = s.instrs)) ∧
  (∀ (taps : List Nat) (inv : Bool) (n i : Nat) (r : W32), n ≤ 80 → i < n → (∀ t ∈ taps, 1 ≤ t ∧ t ≤ 32) →
    let d := (prbsGen taps inv n r).1
    d.getLsbD i = (inv ^^ taps.foldl (fun b t => b ^^ (if i < t then r.getLsbD (t - 1 - i) else inv ^^ d.getLsbD (i - t))) false)) ∧
  ∀ (lane : LaneId) (w : TxWord) (s : State), let n := lane.toNat
    let loops := s.bit (F.LANE_CTL_FE_LPBK n) && !s.bit (F.LANE_CTL_NE_LPBK n)
    (s.laneLive n = false → exec (.laneTxWord lane w) s = .next s) ∧
    (s.laneLive n = true → ∃ t, exec (.laneTxWord lane w) s = .next t ∧ (t.lane n).rx = (s.lane n).rx ∧
      (∀ m, m ≠ n → t.lane m = s.lane m) ∧ t.mem = s.mem ∧
      (s.txOn n = false → (t.lane n).tx = none ∧ (t.lane n).txSrc = 0 ∧ t.regs = s.regs) ∧
      (s.txOn n = true → s.safeIdle n = true → (t.lane n).tx = none ∧ t.regs = s.regs) ∧
      (s.txOn n = true → s.safeIdle n = false → loops = true →
        (t.lane n).fe = (s.lane n).fe.drop (wireBits (s.pcs n)) ∧
        ((s.lane n).fe.length < wireBits (s.pcs n) → t.bit (F.LANE_STAT_FE_SLIP n) = true) ∧
        ∃ d, (t.lane n).tx = some d ∧
          ∀ i b, i < 64 → i < wireBits (s.pcs n) → (s.lane n).fe[i]? = some b → d.data.getLsbD i = b) ∧
      (s.txOn n = true → s.safeIdle n = false → loops = false →
        (1024 ≤ n → (t.lane n).tx = some w) ∧
        (n < 1024 → (t.lane n).txSrc = s.fget (F.LANE_CTL_TX_SRC n) ∧
          (s.fget (F.LANE_CTL_TX_SRC n) = 0 → (t.lane n).tx = none ∧ t.regs = s.regs) ∧
          (s.fget (F.LANE_CTL_TX_SRC n) = 1 → (t.lane n).tx =
            some (if !s.fabricOn || s.cutOff s.edge.die.txValid n then idleWord else w)) ∧
          (s.fget (F.LANE_CTL_TX_SRC n) = 2 →
            let p := s.pat n
            let on := s.bit (F.PAT_CTL_EN n)
            (on = false → s.bit (F.PAT_STAT_SHUTTING n) = false ∨ p.idx = 0 → (t.lane n).tx = some idleWord ∧ t.pats = s.pats) ∧
            (on = true → p.idx ≠ 0 ∨ p.ended = false →
              (t.pat n).idx = (if p.idx + 1 < 64 then p.idx + 1 else 0) ∧
              (s.fget (F.PAT_STAT_ACT_SRC n) = 0 → (t.lane n).tx = some idleWord) ∧
              (s.fget (F.PAT_STAT_ACT_SRC n) = 1 →
                (0 < p.idle ∨ p.desc = none → (t.lane n).tx = some idleWord) ∧
                ∀ d, p.idle = 0 → p.desc = some d → (t.lane n).tx = some (s.programWord n d p.blk p.idx)) ∧
              (s.fget (F.PAT_STAT_ACT_SRC n) = 2 → (t.lane n).tx =
                some (if !s.fabricOn || s.cutOff s.edge.die.txValid n then idleWord else w)) ∧
              (∀ v vs, s.fget (F.PAT_STAT_ACT_SRC n) = 3 → p.frame = v :: vs →
                (t.lane n).tx = some v ∧ (t.pat n).frame = vs))) ∧
          (s.fget (F.LANE_CTL_TX_SRC n) = 3 →
            let taps := prbsTaps (s.fget (F.LANE_PRBS_GEN_POLY n))
            let g := prbsGen taps (s.bit (F.LANE_PRBS_GEN_INV n)) (wireBits (s.pcs n)) (s.lane n).gen
            (taps = [] → ∃ d, (t.lane n).tx = some d) ∧
            (taps ≠ [] → (t.lane n).txBits = some g.1 ∧ (t.lane n).gen = g.2 ∧ ∃ d, (t.lane n).tx = some d ∧ d.data = g.1.setWidth 64)))))

/-- CAL_MICRO_STEP of a value in use on a live, enabled lane moves its shadow code by one, within plus and minus 63 for an offset
and 127 for a threshold; while the value is pinned, the applied code stays; while it is not and the lane is not locked, the
applied code follows at once; while the lane is locked the change waits for the application boundary, as that of an unpinned
value where one waits. At the end of the range, on another lane or for a value not in use it changes nothing. CAL_APPLY of a
locked lane at the start of a unit (which the lane knows from its lock: the model's choice, log entry 107) leaves no change
waiting, and elsewhere changes nothing. CAL_PIN that reaches its register stores both pin bits. EYE_SCAN_START that reaches
its register starts a scan of a lane with CDR lock and no scan in progress: BUSY, an empty map, POINTS and DISTURBED 0, and
the first point in range; without CDR lock it sets ABORTED; during a scan it is discarded. EYE_SCAN_ABORT ends a scan with
ABORTED. EYE_SCAN_POINT enters the result code of the point being scanned, counts the point and goes to the next one, or ends
the scan with DONE. The code of no mismatch is 0, and of m mismatches it is the floor of 8 log2 m, plus 1, at most 254. (R197,
R198, R199, R200, R201, R203, R204) -/
def Obligations.LaneMeasurement : Prop :=
  (
    (∀ (lane : LaneId) (c : CalSel) (up : Bool) (s : State), let n := lane.toNat
      let top : Int := if calIsThr c then 127 else 63
      let old := s.sget (calShadow n c)
      let new := max (-top) (min top (if up then old + 1 else old - 1))
      (s.laneLive n = false ∨ s.bit (F.LANE_CTL_EN n) = false ∨ s.calActive n c = false ∨ new = old →
        exec (.calMicroStep lane c up) s = .next s) ∧
      (s.laneLive n = true → s.bit (F.LANE_CTL_EN n) = true → s.calActive n c = true → new ≠ old →
        ∃ t, exec (.calMicroStep lane c up) s = .next t ∧ t.sget (calShadow n c) = new ∧
          (s.calPinOn n c = true → t.sget (calApplied n c) = s.sget (calApplied n c) ∧ t.lanes = s.lanes) ∧
          (s.calPinOn n c = false → s.pcsLocked n = false → t.sget (calApplied n c) = new) ∧
          (s.calPinOn n c = false → s.pcsLocked n = true → t.sget (calApplied n c) = s.sget (calApplied n c) ∧
            (⟨c, new, if (s.lane n).cal.any (fun d => d.sel == c && d.src == 3) then 3 else if calIsThr c then 1 else 0⟩ : CalChange) ∈
              (t.lane n).cal))) ∧
    (∀ (lane : LaneId) (wb : BitVec 40) (ts : W64) (s : State),
      let there := s.laneHere lane.toNat && s.pcsLocked lane.toNat && s.onUnit lane.toNat wb
      (there = false → exec (.calApply lane wb ts) s = .next s) ∧
      (there = true → ∃ t, exec (.calApply lane wb ts) s = .next t ∧ (t.lane lane.toNat).cal = [] ∧
        (∀ m, m ≠ lane.toNat → t.lane m = s.lane m) ∧
        ∀ c new, (s.lane lane.toNat).cal = [c] → c.new = new → -128 < new → new < 128 →
          (calIsThr c.sel = false → -64 < new ∧ new < 64) → t.sget (calApplied lane.toNat c.sel) = new)) ∧
    ∀ (lane : LaneId) (v : BitVec 2) (s : State), s.hostRuns (R.LANE_CAL_PIN lane.toNat) = true →
      s.laneHere lane.toNat = true →
      ∃ t, exec (.calPin lane v) s = .next t ∧ t.bit (F.LANE_CAL_PIN_PIN_OFS lane.toNat) = v.getLsbD 0 ∧
        t.bit (F.LANE_CAL_PIN_PIN_THR lane.toNat) = v.getLsbD 1 ∧ t.mem = s.mem ∧ t.core = s.core) ∧
  (
    (∀ (lane : LaneId) (s : State), let n := lane.toNat
      s.hostRuns (R.LANE_ES_CTL n) = true → s.laneHere n = true →
      (s.bit (F.LANE_ES_STAT_BUSY n) = true → exec (.eyeScanStart lane) s = .next s ∧
        ∃ t, exec (.eyeScanAbort lane) s = .next t ∧ s.onlyWords t [R.LANE_ES_STAT n] ∧
          t.bit (F.LANE_ES_STAT_BUSY n) = false ∧ t.bit (F.LANE_ES_STAT_ABORTED n) = true) ∧
      (s.bit (F.LANE_ES_STAT_BUSY n) = false → exec (.eyeScanAbort lane) s = .next s) ∧
      (s.bit (F.LANE_ES_STAT_BUSY n) = false → s.bit (F.LANE_STAT_CDR_LOCK n) = false →
        exec (.eyeScanStart lane) s = .next (s.fset (F.LANE_ES_STAT_ABORTED n) 1)) ∧
      (∀ i rest, s.bit (F.LANE_ES_STAT_BUSY n) = false → s.bit (F.LANE_STAT_CDR_LOCK n) = true → s.scanPoints n = i :: rest →
        ∃ t, exec (.eyeScanStart lane) s = .next t ∧ t.bit (F.LANE_ES_STAT_BUSY n) = true ∧
          t.fget (F.LANE_ES_STAT_POINTS n) = 0 ∧ t.fget (F.LANE_ES_STAT_DISTURBED n) = 0 ∧ (t.lane n).eye = [] ∧
          (t.lane n).point = i ∧ (t.lane n).disturbed = false ∧ s.wordsBut t [R.LANE_ES_STAT n])) ∧
    (∀ (lane : LaneId) (m : Nat) (s : State), let n := lane.toNat
      (s.bit (F.LANE_ES_STAT_BUSY n) = false → exec (.eyeScanPoint lane m) s = .next s) ∧
      (s.bit (F.LANE_ES_STAT_BUSY n) = true → ∃ t, exec (.eyeScanPoint lane m) s = .next t ∧
        SMap.find (t.lane n).eye (s.lane n).point = some (eyeCode m) ∧
        (∀ j, j ≠ (s.lane n).point → SMap.find (t.lane n).eye j = SMap.find (s.lane n).eye j) ∧
        t.fget (F.LANE_ES_STAT_POINTS n) = satAdd (2 ^ 13 - 1) (s.fget (F.LANE_ES_STAT_POINTS n)) 1 ∧
        (∀ i, (s.scanPoints n).find? (fun i => (s.lane n).point < i) = some i →
          (t.lane n).point = i ∧ t.bit (F.LANE_ES_STAT_BUSY n) = true) ∧
        ((s.scanPoints n).find? (fun i => (s.lane n).point < i) = none →
          t.bit (F.LANE_ES_STAT_BUSY n) = false ∧ t.bit (F.LANE_ES_STAT_DONE n) = true))) ∧
    eyeCode 0 = 0 ∧ (∀ m, eyeCode m ≤ 254) ∧
    ∀ m, 0 < m → eyeCode m < 254 → 2 ^ (eyeCode m - 1) ≤ m ^ 8 ∧ m ^ 8 < 2 ^ eyeCode m ∧ 1 ≤ eyeCode m)

/-- Host writes that reach the time unit of a device that is no STANDBY: TOD_ARM latches the TIME_TOD value and sets TOD_ARMED,
with nanoseconds above 999,999,999 only sets TOD_BAD, and while armed is discarded; TOD_CANCEL disarms; PHASE_GO with the
offset in range and nothing in progress sets PHASE_BUSY and holds a step for the next time-clock edge, or with PHASE_MODE
starts a slew, and otherwise only sets PHASE_DISCARDED; TIME_FREQ stores the value written and shows in FREQ_CLAMP whether it
lies beyond plus or minus 3,276,800. On a STANDBY, TOD_ARM and TIME_FREQ are discarded. A host read of TXQ_ENT_k in Run
answers the first word of the oldest entry, makes its other words those that reads of the upper addresses return, and removes
it; of an empty queue it answers 0. TOUT_ENABLE of a function that is off and in no pulse: with settings beyond the limits it
stays off with BADCFG; with START ahead (START names the nearest device time with that short timestamp: the model's reading,
log entry 26) it is armed; with START passed it is LATE, and in mode 0 DONE and off again; during a pulse it is held; of a
function that is on it changes nothing. TOUT_DISABLE clears EN and a held enable. TOUT_PULSE of an enabled function that is in
no pulse, and whose next grid point device time has reached, starts one (late where a step of device time reached that point
during an earlier pulse: the model's choice, log entry 120) and pulses its trigger input, in mode 0 once with DONE.
TOUT_PULSE_END ends the pulse once it has lasted WIDTH. (R11, R213, R214, R215, R219, R221, R223, R224, R226, R300) -/
def Obligations.TimeOutputs : Prop :=
  (
    (∀ s : State, s.hostRuns R.TIME_CTL = true → s.standby = false →
      (s.bit F.TIME_STAT_TOD_ARMED = true → exec .todArm s = .next s) ∧
      (s.bit F.TIME_STAT_TOD_ARMED = false → 999999999 < s.wget W.TIME_TOD_TIME / 65536 % 2 ^ 32 →
        exec .todArm s = .next (s.fset F.TIME_STAT_TOD_BAD 1)) ∧
      (s.bit F.TIME_STAT_TOD_ARMED = false → s.wget W.TIME_TOD_TIME / 65536 % 2 ^ 32 ≤ 999999999 →
        ∃ t, exec .todArm s = .next t ∧ t.bit F.TIME_STAT_TOD_ARMED = true ∧ t.time.tod = s.wget W.TIME_TOD_TIME ∧
          t.time.now = s.time.now ∧ s.wordsBut t [R.TIME_STAT]) ∧
      (∃ t, exec .todCancel s = .next t ∧ t.bit F.TIME_STAT_TOD_ARMED = false ∧ s.onlyWords t [R.TIME_STAT]) ∧
      (s.bit F.TIME_STAT_PHASE_BUSY = true ∨ 10 ^ 9 * 2 ^ 16 ≤ s.phase.natAbs →
        exec .phaseGo s = .next (s.fset F.TIME_STAT_PHASE_DISCARDED 1)) ∧
      (s.bit F.TIME_STAT_PHASE_BUSY = false → s.phase.natAbs < 10 ^ 9 * 2 ^ 16 →
        ∃ t, exec .phaseGo s = .next t ∧ t.bit F.TIME_STAT_PHASE_BUSY = true ∧ t.time.now = s.time.now ∧
          s.wordsBut t [R.TIME_STAT] ∧
          (s.bit F.TIME_CTL_PHASE_MODE = false → t.time.step = some s.phase ∧ t.time.slew = s.time.slew) ∧
          (s.bit F.TIME_CTL_PHASE_MODE = true → t.time.slew = some (s.phase * 1000000) ∧ t.time.step = s.time.step))) ∧
    (∀ (v : W32) (s : State), s.hostRuns R.TIME_FREQ = true → s.standby = false →
      ∃ t, exec (.timeFreq v) s = .next t ∧ t.reg R.TIME_FREQ = v ∧
        t.bit F.TIME_STAT_FREQ_CLAMP = decide (v.toInt < -3276800 ∨ 3276800 < v.toInt) ∧ t.time = s.time ∧
        s.wordsBut t [R.TIME_FREQ, R.TIME_STAT] ∧ (s.splice.paired = false → s.onlyWords t [R.TIME_FREQ, R.TIME_STAT])) ∧
    (∀ (v : W32) (s : State), s.standby = true →
      (s.hostRuns R.TIME_FREQ = true → exec (.timeFreq v) s = .next s) ∧
      (s.hostRuns R.TIME_CTL = true → exec .todArm s = .next s))) ∧
  (
    (∀ (k : BitVec 6) (s : State), s.hostReads (R.TXQ_ENT k.toNat) = true →
      (s.txqList k.toNat = [] → ∃ t, exec (.txqPop k) s = .next t ∧ t.host.data = 0 ∧ t.time = s.time ∧ t.mem = s.mem) ∧
      ∀ e es, s.txqList k.toNat = e :: es → ∃ t, exec (.txqPop k) s = .next t ∧
        t.host.data = BitVec.ofNat 32 e.bits ∧ t.host.status = 0 ∧ t.txqList k.toNat = es ∧
        (∀ j, j ≠ k.toNat → t.txqList j = s.txqList j) ∧
        (∀ i, 1 ≤ i → i ≤ 3 → SMap.find t.snap (R.TXQ_ENT k.toNat + 4 * i) = some (BitVec.ofNat 32 (e.bits / 2 ^ (32 * i)))) ∧
        t.fget (F.TXQ_STAT_LEVEL k.toNat) = es.length % 64) ∧
    (∀ (n : BitVec 4) (s : State), s.hostRuns (R.TOUT_CTL n.toNat) = true → let i := n.toNat
      (s.bit (F.TOUT_CTL_EN i) = true → exec (.toutEnable n) s = .next s) ∧
      (s.bit (F.TOUT_CTL_EN i) = false → (s.tout i).active = true →
        exec (.toutEnable n) s = .next (s.fset (F.TOUT_CTL_PENDING_ENABLE i) 1)) ∧
      (s.bit (F.TOUT_CTL_EN i) = false → (s.tout i).active = false → s.toutOk i = false →
        ∃ t, exec (.toutEnable n) s = .next t ∧ s.onlyWords t [R.TOUT_CTL i] ∧ t.bit (F.TOUT_CTL_BADCFG i) = true ∧
          t.bit (F.TOUT_CTL_EN i) = false) ∧
      (s.bit (F.TOUT_CTL_EN i) = false → (s.tout i).active = false → s.toutOk i = true →
        ∃ t, exec (.toutEnable n) s = .next t ∧ s.wordsBut t [R.TOUT_CTL i] ∧ t.mem = s.mem ∧
          (shortPast (s.wget (W.TOUT_START_START i)) s.time.now = false → t.bit (F.TOUT_CTL_EN i) = true ∧
            (t.tout i).fired = false ∧ t.bit (F.TOUT_CTL_LATE i) = s.bit (F.TOUT_CTL_LATE i)) ∧
          (shortPast (s.wget (W.TOUT_START_START i)) s.time.now = true → t.bit (F.TOUT_CTL_LATE i) = true ∧
            (s.bit (F.TOUT_CTL_MODE i) = true → t.bit (F.TOUT_CTL_EN i) = true) ∧
            (s.bit (F.TOUT_CTL_MODE i) = false → t.bit (F.TOUT_CTL_EN i) = false ∧ t.bit (F.TOUT_CTL_DONE i) = true))) ∧
      ∃ t, exec (.toutDisable n) s = .next t ∧ s.onlyWords t [R.TOUT_CTL i] ∧ t.bit (F.TOUT_CTL_EN i) = false ∧
        t.bit (F.TOUT_CTL_PENDING_ENABLE i) = false) ∧
    (∀ (n : BitVec 4) (s : State), let i := n.toNat
      (s.bit (F.TOUT_CTL_EN i) = false ∨ (s.tout i).active = true ∨ (s.bit (F.TOUT_CTL_MODE i) = false ∧ (s.tout i).fired = true) ∨
        s.toutDue i = false →
        exec (.toutPulse n) s = .next s) ∧
      (s.bit (F.TOUT_CTL_EN i) = true → (s.tout i).active = false → (s.bit (F.TOUT_CTL_MODE i) = true ∨ (s.tout i).fired = false) →
        s.toutDue i = true → ∃ t, exec (.toutPulse n) s = .next t ∧ (t.tout i).active = true ∧ t.trig.pulse.getLsbD (192 + i) = true ∧
          (s.bit (F.TOUT_CTL_MODE i) = true → t.regs = s.regs) ∧
          (s.bit (F.TOUT_CTL_MODE i) = false → t.bit (F.TOUT_CTL_DONE i) = true ∧ s.wordsBut t [R.TOUT_CTL i])) ∧
      ((s.tout i).active = false ∨ s.time.now < (s.tout i).ends → exec (.toutPulseEnd n) s = .next s) ∧
      ((s.tout i).active = true → (s.tout i).ends ≤ s.time.now → s.bit (F.TOUT_CTL_PENDING_ENABLE i) = false →
        ∃ t, exec (.toutPulseEnd n) s = .next t ∧ (t.tout i).active = false ∧ (t.tout i).fired = (s.tout i).fired ∧
          t.regs = s.regs)) ∧
    ∀ (k : Nat) (s : State) (e : TxStamp), e.lane / 16 = k → k < 64 →
      ((s.txqList k).length < 32 → (s.txqPush e).txqList k = s.txqList k ++ [e]) ∧
      (32 ≤ (s.txqList k).length → (s.txqPush e).txqList k = s.txqList k ∧ (s.txqPush e).bit (F.TXQ_STAT_OVF k) = true))

/-- On an empty queue a step is one edge of the time clock (the model's choice, log entry 1). Out of reset and above Deep sleep,
where no load of the time of day waits for the internal PPS source, device time, its fraction and the 32 bits below it advance
together by one nanosecond scaled by the rate in force (TIME_FREQ, clamped to plus or minus 50 ppm, the rate of a slew, at
most 50 ppm of its sign, and what a slew that has ended within the period had added), rounded down or up to those bits (which
of the two is free, log entry 93), and by an accepted step, which is then done; they wrap at 2^48 seconds; an edge that
consumes the rest of a slew ends it and clears PHASE_BUSY. In reset, in Deep sleep and in Off device time stands. HST_ALIVE
goes up by one at every thousandth edge in every state but reset and Off, and wraps. (R210, R213, R214, R215, R216, R365) -/
def Obligations.TimeEdge : Prop :=
  (∀ s : State, s.inReset = false → s.fget F.PWR_STAT_STATE < 3 → s.time.sub < 2 ^ 32 → s.time.now < timeTop →
    s.bit F.TIME_STAT_TOD_ARMED = false ∨ s.bit F.TIME_CTL_PPS_SRC = false →
    ∃ t, ∃ d : Int, step { s with pending := [] } = .next t ∧
      let rate := 65536000000 + s.time.rest + max (-3276800) (min 3276800 (s.reg R.TIME_FREQ).toInt) +
        (match s.time.slew with | some r => max (-3276800) (min 3276800 r) | none => 0)
      (d * 1000000 - rate * 2 ^ 32).natAbs < 1000000 ∧
        (t.time.now * 2 ^ 32 + t.time.sub : Int) =
          (s.time.now * 2 ^ 32 + s.time.sub + d + s.time.step.getD 0 * 2 ^ 32) % (timeTop * 2 ^ 32 : Nat) ∧
        t.time.slew = (s.time.slew.map fun r => r - max (-3276800) (min 3276800 r)).filter (· != 0) ∧
        (s.time.slew ≠ none → t.time.slew = none → t.bit F.TIME_STAT_PHASE_BUSY = false) ∧
        t.time.rest = 0 ∧ t.time.step = none ∧ (s.time.step ≠ none → t.bit F.TIME_STAT_PHASE_BUSY = false)) ∧
  (∀ s : State, s.inReset = true ∨ 3 ≤ s.fget F.PWR_STAT_STATE →
    ∃ t, step { s with pending := [] } = .next t ∧ t.time.now = s.time.now ∧ t.time.sub = s.time.sub ∧
      t.time.step = s.time.step) ∧
  (∀ s : State, s.inReset = true ∨ s.fget F.PWR_STAT_STATE = 4 →
    ∃ t, step { s with pending := [] } = .next t ∧ t.fget F.HST_ALIVE_COUNT = s.fget F.HST_ALIVE_COUNT) ∧
  ∀ s : State, s.inReset = false → s.fget F.PWR_STAT_STATE ≠ 4 →
    ∃ t, step { s with pending := [] } = .next t ∧
      (s.time.tick + 1 < 1000 → t.time.tick = s.time.tick + 1 ∧ t.fget F.HST_ALIVE_COUNT = s.fget F.HST_ALIVE_COUNT) ∧
      (1000 ≤ s.time.tick + 1 → t.time.tick = 0 ∧
        t.fget F.HST_ALIVE_COUNT = (s.fget F.HST_ALIVE_COUNT + 1) % 2 ^ 32)

/-- Out of reset and above Deep sleep: a PPS_EDGE of the pin, where the pin is selected, without an armed load captures an instant
of the period in progress (which one is free, log entry 94), less TIME_PPS_DLY, in TIME_PPS_CAP and counts it; with an armed
load it makes device time at that instant the latched value plus the delay, captures the latched value, disarms and sets
TOD_DONE. One of the internal source, where it is selected, does the same without a delay at a whole second of device time
that it has not had yet, and otherwise changes nothing. An edge of the source that is not selected is not captured, and a pin
edge always sets PPS_OK. PPS_LOSS clears PPS_OK and sets PPS_LOSS; TIME_REF_LOST of a qualified reference clears REF_OK, sets
REF_LOSS and reports TIME_REF_LOST; REF_QUALIFIED sets REF_OK; SLEW_DONE within the period in which the offset is consumed
ends the slew and clears PHASE_BUSY, and what is left of the offset shows with the period's own advance at the next edge (the
model's reading, log entry 93). PPS_LOSS without PPS_OK, TIME_REF_LOST without REF_OK and SLEW_DONE at any other moment change
nothing, and in reset, in Deep sleep and in Off none of the five changes anything. (R211, R212, R213, R215, R216, R330, R334,
R400) -/
def Obligations.TimeEvents : Prop :=
  (∀ s : State, s.inReset = true ∨ 3 ≤ s.fget F.PWR_STAT_STATE →
    (∀ pin, exec (.ppsEdge pin) s = .next s) ∧ exec .ppsLoss s = .next s ∧ exec .timeRefLost s = .next s ∧
      exec .refQualified s = .next s ∧ exec .slewDone s = .next s) ∧
  ∀ s : State, s.inReset = false → s.fget F.PWR_STAT_STATE < 3 →
    (∀ pin : Bool, s.bit F.TIME_CTL_PPS_SRC = pin →
      exec (.ppsEdge pin) s = .next (if pin then s.fset F.TIME_STAT_PPS_OK 1 else s)) ∧
    (s.bit F.TIME_CTL_PPS_SRC = false →
      ∃ (t : State) (x : Nat), exec (.ppsEdge true) s = .next t ∧ (x = 0 ∨ (x : Int) * 1000000 < s.edgeRate) ∧ t.time.ppsNew = true ∧
        t.fget F.TIME_PPS_CNT_COUNT = (s.fget F.TIME_PPS_CNT_COUNT + 1) % 2 ^ 32 ∧ t.bit F.TIME_STAT_PPS_OK = true ∧
        (s.bit F.TIME_STAT_TOD_ARMED = false → t.time.now = s.time.now ∧ t.wget W.TIME_PPS_CAP_TIME =
          timeBits (moveTime (s.time.now + x) (-(s.fget F.TIME_PPS_DLY_DLY : Nat) : Int)) % 2 ^ 96) ∧
        (s.bit F.TIME_STAT_TOD_ARMED = true →
          (t.time.now : Int) = (((timeOfBits s.time.tod + s.fget F.TIME_PPS_DLY_DLY) % timeTop : Nat) - x : Int) % (timeTop : Nat) ∧
          t.wget W.TIME_PPS_CAP_TIME = s.time.tod % 2 ^ 96 ∧ t.bit F.TIME_STAT_TOD_ARMED = false ∧
          t.bit F.TIME_STAT_TOD_DONE = true ∧ t.time.slew = none ∧ t.time.step = none)) ∧
    (s.bit F.TIME_CTL_PPS_SRC = true →
      (s.time.now % oneSecond ≠ 0 ∨ s.time.ppsAt = some s.time.now → exec (.ppsEdge false) s = .next s) ∧
      (s.time.now % oneSecond = 0 → s.time.ppsAt ≠ some s.time.now → s.time.now < timeTop →
        ∃ t, exec (.ppsEdge false) s = .next t ∧ t.time.ppsNew = true ∧
          t.fget F.TIME_PPS_CNT_COUNT = (s.fget F.TIME_PPS_CNT_COUNT + 1) % 2 ^ 32 ∧
          (s.bit F.TIME_STAT_TOD_ARMED = false → t.time.now = s.time.now ∧ t.time.ppsAt = some s.time.now ∧
            t.wget W.TIME_PPS_CAP_TIME = timeBits s.time.now % 2 ^ 96) ∧
          (s.bit F.TIME_STAT_TOD_ARMED = true → t.time.now = timeOfBits s.time.tod % timeTop ∧
            t.wget W.TIME_PPS_CAP_TIME = s.time.tod % 2 ^ 96 ∧ t.bit F.TIME_STAT_TOD_ARMED = false ∧
            t.bit F.TIME_STAT_TOD_DONE = true ∧ t.time.slew = none ∧ t.time.step = none))) ∧
    (s.bit F.TIME_STAT_PPS_OK = true → exec .ppsLoss s =
      .next ((s.fset F.TIME_STAT_PPS_OK 0).fset F.TIME_STAT_PPS_LOSS 1)) ∧
    (s.bit F.TIME_STAT_PPS_OK = false → exec .ppsLoss s = .next s) ∧
    (s.bit F.TIME_STAT_REF_OK = true → ∃ t, exec .timeRefLost s = .next t ∧
      t.bit F.TIME_STAT_REF_OK = false ∧ t.bit F.TIME_STAT_REF_LOSS = true ∧ t.time = s.time ∧
      (s.srcOn 0x281 = true → ∃ r ∈ t.reports, r.src = 0x281 ∧ r.code = 0x0402) ∧
      s.wordsBut t [R.TIME_STAT, (F.FLT_SRC_STAT_PAIR 0x281).addr]) ∧
    (s.bit F.TIME_STAT_REF_OK = false → exec .timeRefLost s = .next s) ∧
    (∃ t, exec .refQualified s = .next t ∧ t = s.fset F.TIME_STAT_REF_OK 1 ∧ t.bit F.TIME_STAT_REF_OK = true) ∧
    (s.time.slew = none → exec .slewDone s = .next s) ∧
    ∀ r : Int, s.time.slew = some r →
      (3276800 < r.natAbs → exec .slewDone s = .next s) ∧
      (r.natAbs ≤ 3276800 →
        ∃ t, exec .slewDone s = .next t ∧ t.time = { s.time with slew := none, rest := s.time.rest + r } ∧
          t.bit F.TIME_STAT_PHASE_BUSY = false ∧ s.onlyWords { t with time := s.time } [R.TIME_STAT])

/-- A command that reaches CAP_CTL of an existing channel. ARM in IDLE, DONE or OVERFLOW with a good ring enters ARMED with WPTR,
SEQ and WRAPPED 0 and an empty channel; with a bad ring it only sets BADRING; in STOPPING it sets PENDING_ENABLE; in ARMED and
POST it is ignored. A command that meets another one of the channel at the same edge that was applied before it is not
applied. A ring is good exactly if BASE is a multiple of 512, SIZE is at least 2, POST lies from 1 to SIZE and every byte of
the ring lies in DRAM granules whose use is capture. TRIG in ARMED with no word lost makes the channel wait for the trigger
entry and changes nothing else; in every other state it is ignored. The first entry that reached the channel after TRIG makes
it enter POST and ends the wait. STOP in ARMED or POST with no word lost closes the open block and enters STOPPING, or DONE
where no block is held, which pulses the set's trigger input if no other channel of the set is unfinished; in STOPPING it
withdraws an ARM that is held; it is ignored in other states. A command to CAP_SET that reaches its register acts so on every
channel of the set (the channels with that SET and a ring: the model's reading, log entry 31) and on no other. (R227, R228,
R234, R235, R240) -/
def Obligations.CaptureCommands : Prop :=
  (∀ (c : BitVec 10) (s : State), let n := c.toNat
    s.hostRuns (R.CAP_CTL n) = true →
    (s.meets (.cap n) = true → exec (.capArm false c) s = .next s ∧ exec (.capTrig false c) s = .next s ∧
      exec (.capStop false c) s = .next s) ∧
    (s.meets (.cap n) = false → (s.capState n = capIdle ∨ s.capState n = capDoneState ∨ s.capState n = capOverflow) →
      (s.ringOk n = true → ∃ t, exec (.capArm false c) s = .next t ∧ t.capState n = capArmed ∧
        t.fget (F.CAP_WPTR_WPTR n) = 0 ∧ t.fget (F.CAP_SEQ_SEQ n) = 0 ∧ t.bit (F.CAP_STAT_WRAPPED n) = false ∧
        t.cap n = {} ∧ (∀ m, m ≠ n → t.cap m = s.cap m) ∧ t = { s.meet (.cap n) with regs := t.regs, caps := t.caps } ∧
        s.wordsBut t [R.CAP_STAT n, R.CAP_WPTR n, R.CAP_SEQ n]) ∧
      (s.ringOk n = false → exec (.capArm false c) s = .next ((s.fset (F.CAP_STAT_BADRING n) 1).meet (.cap n)))) ∧
    (s.meets (.cap n) = false → s.capState n = capStopping →
      exec (.capArm false c) s = .next ((s.fset (F.CAP_STAT_PENDING_ENABLE n) 1).meet (.cap n)) ∧
      (s.bit (F.CAP_STAT_PENDING_ENABLE n) = true →
        exec (.capStop false c) s = .next ((s.fset (F.CAP_STAT_PENDING_ENABLE n) 0).meet (.cap n))) ∧
      (s.bit (F.CAP_STAT_PENDING_ENABLE n) = false → exec (.capStop false c) s = .next s)) ∧
    (s.capState n = capArmed ∨ s.capState n = capPost → exec (.capArm false c) s = .next s) ∧
    (s.meets (.cap n) = false → s.capState n = capArmed → (s.cap n).lost = none →
      exec (.capTrig false c) s = .next (s.setCap n { s.cap n with trigWait := true })) ∧
    (s.capState n ≠ capArmed → exec (.capTrig false c) s = .next s) ∧
    (s.capState n ≠ capArmed → s.capState n ≠ capPost → s.capState n ≠ capStopping → exec (.capStop false c) s = .next s) ∧
    (s.meets (.cap n) = false → s.capState n = capArmed ∨ s.capState n = capPost → (s.cap n).lost = none →
      ((s.cap n).opened ≠ none ∨ (s.cap n).held ≠ [] → ∃ t, exec (.capStop false c) s = .next t ∧
        t.capState n = capStopping ∧ t.cap n = (s.cap n).close ∧ (t.cap n).opened = none ∧
        (∀ m, m ≠ n → t.cap m = s.cap m) ∧ s.wordsBut t [R.CAP_STAT n] ∧ t.trig = (s.meet (.cap n)).trig) ∧
      ((s.cap n).opened = none → (s.cap n).held = [] → s.bit (F.CAP_STAT_PENDING_ENABLE n) = false →
        ∃ t, exec (.capStop false c) s = .next t ∧ t.capState n = capDoneState ∧ t.cap n = {} ∧
          (∀ m, m ≠ n → t.cap m = s.cap m) ∧ s.wordsBut t [R.CAP_STAT n, R.HST_EVT] ∧
          (let k := s.fget (F.CAP_CFG_SET n)
           ((∀ m, s.capMember k m = true → m ≠ n → s.capDone m = true) →
             t.trig.pulse = s.trig.pulse ||| BitVec.ofNat 256 (2 ^ (224 + k))) ∧
           (∀ m, s.capMember k m = true → m ≠ n → s.capDone m = false → t.trig = (s.meet (.cap n)).trig))))) ∧
  (∀ (n : Nat) (e : CapEntry) (s : State), s.capRuns n = true → (s.cap n).held.length < 64 → (s.cap n).trigWait = true →
    e.fresh = true → (s.capEntry n e).capState n = capPost ∧ ((s.capEntry n e).cap n).trigWait = false) ∧
  (∀ (s : State) (n : Nat), s.ringOk n = true ↔
    (let base := s.wget (W.CAP_BASE_BASE n)
     let size := s.fget (F.CAP_SIZE_SIZE n)
     let post := s.fget (F.CAP_POST_POST n)
     base % 512 = 0 ∧ 2 ≤ size ∧ 1 ≤ post ∧ post ≤ size ∧
       ∀ x, base ≤ x → x < base + 512 * size → s.inDram x = true ∧ s.fget (F.BNK_GRN_USE (granuleOf x)) = 1)) ∧
  ∀ (k : BitVec 10) (s : State), s.hostRuns (R.CAP_SET k.toNat) = true →
    (∃ t, exec (.capArm true k) s = .next t ∧ t.mem = s.mem ∧
      (∀ m, s.capMember k.toNat m = false → t.cap m = s.cap m ∧ t.reg (R.CAP_STAT m) = s.reg (R.CAP_STAT m)) ∧
      ∀ m, s.capMember k.toNat m = true → s.meets (.cap m) = false →
        (s.capState m = capIdle ∨ s.capState m = capDoneState ∨ s.capState m = capOverflow) → s.ringOk m = true →
        t.capState m = capArmed ∧ t.fget (F.CAP_WPTR_WPTR m) = 0 ∧ t.fget (F.CAP_SEQ_SEQ m) = 0 ∧ t.cap m = {}) ∧
    (∃ t, exec (.capTrig true k) s = .next t ∧ t.mem = s.mem ∧
      (∀ m, s.capMember k.toNat m = false → t.cap m = s.cap m ∧ t.reg (R.CAP_STAT m) = s.reg (R.CAP_STAT m)) ∧
      ∀ m, s.capMember k.toNat m = true → s.meets (.cap m) = false → s.capState m = capArmed → (s.cap m).lost = none →
        (t.cap m).trigWait = true ∧ t.capState m = capArmed) ∧
    ∃ t, exec (.capStop true k) s = .next t ∧ t.mem = s.mem ∧
      (∀ m, s.capMember k.toNat m = false → t.cap m = s.cap m ∧ t.reg (R.CAP_STAT m) = s.reg (R.CAP_STAT m)) ∧
      ∀ m, s.capMember k.toNat m = true → s.meets (.cap m) = false → s.capState m = capArmed ∨ s.capState m = capPost → (s.cap m).lost = none →
        (s.cap m).opened ≠ none ∨ (s.cap m).held ≠ [] → t.capState m = capStopping ∧ t.cap m = (s.cap m).close

/-- CAP_BLOCK_CLOSE of a channel with an open block for a reason that holds turns the block into a held DATA block with the same
time, entries, records and marks, and changes nothing else; with no open block, or for a reason that does not hold, it changes
nothing; 62 filled slots are the reason 'full'. CAP_BLOCK_WRITE of a channel with no held block, or of a device in Sleep or
deeper, changes nothing; otherwise, in an allowed granule, the oldest held block goes to the ring's block WPTR (for a DATA
block of at most 62 slots: the time, the entries from the start of the payload, the records from its end) and no other byte of
memory changes, BLKS counts it, and the channel goes on with the rest, WPTR and SEQ moved on and a trigger block's place kept;
the last post block ends in DONE, the last block of a channel that lost a word in OVERFLOW with a report, the last block of
STOPPING in DONE, or in ARMED again where an ARM is held and the ring is good. TIME_MARK adds, for each step of device time
and each whole millisecond whose marks are owed, a mark block with that time to every running channel, closing the open block
first for a step, and to no other channel; in Sleep and deeper it writes none. (R225, R228, R229, R230, R232, R233, R234,
R236, R237) -/
def Obligations.CaptureBlocks : Prop :=
  (∀ (c : BitVec 10) (why : CloseReason) (s : State), (s.cap c.toNat).opened = none → exec (.capBlockClose c why) s = .next s) ∧
  (∀ (c : BitVec 10) (why : CloseReason) (s : State) (b : OpenBlock), let n := c.toNat
    (s.cap n).opened = some b →
    (s.closes n b why = false → exec (.capBlockClose c why) s = .next s) ∧
    (s.closes n b why = true → ∃ t blk, exec (.capBlockClose c why) s = .next t ∧ (t.cap n).opened = none ∧
      (t.cap n).held = (s.cap n).held ++ [blk] ∧ blk.kind = 0 ∧ blk.ts = b.ts ∧ blk.entries = b.entries ∧
      blk.recs = b.recs ∧ blk.err = b.err ∧ blk.fec = b.fec ∧ blk.trig = b.trig ∧
      blk.spec = !((s.cap n).trigDone || b.trig) ∧ (∀ m, m ≠ n → t.cap m = s.cap m) ∧ t = { s with caps := t.caps }) ∧
    (62 ≤ b.entries.length + 2 * b.recs.length → s.closes n b .full = true)) ∧
  (∀ (c : BitVec 10) (s : State), (s.cap c.toNat).held = [] ∨ 2 ≤ s.fget F.PWR_STAT_STATE →
    exec (.capBlockWrite c) s = .next s) ∧
  (∀ (c : BitVec 10) (s : State) (b : CapBlock) (rest : List CapBlock), let n := c.toNat
    let wptr := s.fget (F.CAP_WPTR_WPTR n)
    let a := s.wget (W.CAP_BASE_BASE n) + 512 * wptr
    let last : Prop := s.capState n = capPost ∧ (s.cap n).lost = none ∧ b.spec = false ∧
      (s.cap n).posted + 1 = s.fget (F.CAP_POST_POST n)
    (s.cap n).held = b :: rest → s.fget F.PWR_STAT_STATE < 2 → s.dramAllows 0x10 a true = true →
    ∃ t, exec (.capBlockWrite c) s = .next t ∧
      (∀ x, x < a ∨ a + (s.capBytes n b).length ≤ x → t.rdByte x = s.rdByte x) ∧
      (b.kind = 0 → b.entries.length + 2 * b.recs.length ≤ 62 → (s.capBytes n b).length = 512 ∧
        t.rdBytes a 8 = leBytes 8 b.ts.toNat ∧
        (∀ i e, b.entries[i]? = some e → t.rdBytes (a + 16 + 8 * i) 8 = leBytes 8 e.toNat) ∧
        (∀ j r, b.recs[j]? = some r → t.rdBytes (a + 512 - 16 * (j + 1)) 16 = leBytes 16 r.toNat)) ∧
      t.fget (F.CAP_BLKS_COUNT n) = min (2 ^ (F.CAP_BLKS_COUNT n).w - 1) (s.fget (F.CAP_BLKS_COUNT n) + 1) ∧
      (∀ m, m ≠ n → t.cap m = s.cap m) ∧
      (b.trig = true → t.fget (F.CAP_TRIG_BLK_BLK n) = wptr % 2 ^ (F.CAP_TRIG_BLK_BLK n).w) ∧
      (s.bit (F.CAP_STAT_PENDING_ENABLE n) = false →
        t.fget (F.CAP_WPTR_WPTR n) = (if wptr + 1 = s.fget (F.CAP_SIZE_SIZE n) then 0 else wptr + 1) %
          2 ^ (F.CAP_WPTR_WPTR n).w ∧
        t.fget (F.CAP_SEQ_SEQ n) = (s.fget (F.CAP_SEQ_SEQ n) + 1) % 2 ^ (F.CAP_SEQ_SEQ n).w ∧
        (wptr + 1 = s.fget (F.CAP_SIZE_SIZE n) → b.spec = true → t.bit (F.CAP_STAT_WRAPPED n) = true) ∧
        (last → t.capState n = capDoneState ∧ t.cap n = {}) ∧
        (rest = [] → s.capState n = capStopping → (s.cap n).lost = none → t.capState n = capDoneState ∧ t.cap n = {})) ∧
      (¬ last → rest ≠ [] → t.capState n = s.capState n ∧ (t.cap n).held = rest ∧ t.reports = s.reports) ∧
      (rest = [] → (s.cap n).lost ≠ none → t.capState n = capOverflow ∧
        (s.srcOn (0x200 + n / 16) = true → ∃ r ∈ t.reports, r.src = 0x200 + n / 16 ∧ r.code = 0x0501)) ∧
      (rest = [] → s.capState n = capStopping → (s.cap n).lost = none → s.bit (F.CAP_STAT_PENDING_ENABLE n) = true →
        s.ringOk n = true → t.capState n = capArmed ∧ t.bit (F.CAP_STAT_PENDING_ENABLE n) = false ∧
          t.fget (F.CAP_WPTR_WPTR n) = 0)) ∧
  ∀ s : State,
    let owed := s.time.marks ++ (if s.markDue then [(s.time.now, false)] else [])
    ∃ t, exec .timeMark s = .next t ∧ t = { s with caps := t.caps, time := t.time } ∧ t.time.now = s.time.now ∧ t.time.marks = [] ∧
      (2 ≤ s.fget F.PWR_STAT_STATE ∨ owed = [] → t.caps = s.caps) ∧
      ∀ n, (n < 1024 → s.capRuns n = true → s.fget F.PWR_STAT_STATE < 2 →
          (∀ m ∈ owed, ∃ blk ∈ (t.cap n).held, blk.kind = 1 ∧ blk.ts = shortTime m.1 ∧
            blk.payload.take 12 = leBytes 12 (timeBits m.1) ∧ blk.entries = []) ∧
          (∀ x, owed = [(x, false)] → ∃ blk, (t.cap n).held = (s.cap n).held ++ [blk] ∧ (t.cap n).opened = (s.cap n).opened) ∧
          (∀ x, owed = [(x, true)] → (t.cap n).opened = none)) ∧
        (¬ (n < 1024 ∧ s.capRuns n = true) → t.cap n = s.cap n)

/-- Host writes that reach the trigger engine: START of a sequencer whose EN is 0 changes nothing; with EN = 1 and a knot 0 that
is no END knot it enters knot 0 and runs, knot 0's counter reset if CNT_RST is set (the model's reading, log entry 68), and no
action issues; where knot 0 is an END knot it ends there with ENDED; STOP ends it without actions; THAW releases the freeze
hold, but after a FREEZE of the same edge changes nothing; TRG_SOFT pulses the inputs 248 to 255 named by its bits; CLR sets
the counter's value to 0, and an increment at the edge to come is lost. Commands that reach PAT_CTL of an existing channel.
PAT_ENABLE of an enabled channel changes nothing, during a shutdown sets PENDING_ENABLE, and otherwise sets EN, starts a new
block of words and clears PAT_BLKS. PAT_DISABLE clears PENDING_ENABLE and, of an enabled channel, EN, with a shutdown where a
block is under way. A write of SRC stores it and requests that source, also where it is the one stored (the model's reading,
log entry 16), from PAT_DESC_START for the DRAM program (log entry 33); GO requests the DRAM program from PAT_DESC_START; both
show SW_PEND, replace a pending request and rank before a knot's command of the same edge, which is refused with CONFLICT. The
end of a shutdown, once the block in progress has been emitted or the lane takes no words of the channel (the model's choice,
log entry 109), clears SHUTTING and starts the channel again where an enable is held; before that and without a shutdown it
changes nothing. (R240, R241, R242, R243, R245, R247, R248, R343) -/
def Obligations.TriggerAndPatternCommands : Prop :=
  (
    (∀ (c : BitVec 3) (s : State), let n := c.toNat
      s.hostRuns (R.TRG_SEQ_CTL n) = true →
      (s.bit (F.TRG_SEQ_CTL_EN n) = false → exec (.seqStart c) s = .next s) ∧
      (s.bit (F.TRG_SEQ_CTL_EN n) = true → s.bit (F.TRG_KNOT_END n 0) = false →
        ∃ t, exec (.seqStart c) s = .next t ∧ t.fget (F.TRG_SEQ_STAT_KNOT n) = 0 ∧ t.bit (F.TRG_SEQ_STAT_RUNNING n) = true ∧
          (let v := F.TRG_CNT_VAL_VAL (s.fget (F.TRG_KNOT_CNT n 0))
           t.fget v = (if s.bit (F.TRG_KNOT_CNT_RST n 0) then 0 else s.fget v) ∧
           t = { s with regs := t.regs, trig := { s.trig with resets := t.trig.resets } } ∧
           s.wordsBut t [R.TRG_SEQ_STAT n, v.addr])) ∧
      (s.bit (F.TRG_SEQ_CTL_EN n) = true → s.bit (F.TRG_KNOT_END n 0) = true →
        ∃ t, exec (.seqStart c) s = .next t ∧ t.fget (F.TRG_SEQ_STAT_KNOT n) = 0 ∧ t.bit (F.TRG_SEQ_STAT_RUNNING n) = false ∧
          t.bit (F.TRG_SEQ_STAT_ENDED n) = true) ∧
      ∃ t, exec (.seqStop c) s = .next t ∧ t.bit (F.TRG_SEQ_STAT_RUNNING n) = false ∧
        t.fget (F.TRG_SEQ_STAT_KNOT n) = s.fget (F.TRG_SEQ_STAT_KNOT n) ∧ s.onlyWords t [R.TRG_SEQ_STAT n]) ∧
    (∀ s : State, s.hostRuns R.TRG_CTL = true → (s.meets .freeze = true → exec .thaw s = .next s) ∧
      (s.meets .freeze = false → ∃ t, exec .thaw s = .next t ∧ t.bit F.TURN_HOLD_SRC_FREEZE = false ∧
        t.bit F.TRG_STAT_FROZEN = false ∧ s.onlyWords t [F.TURN_HOLD_SRC_FREEZE.addr, R.TRG_STAT])) ∧
    (∀ (v : BitVec 8) (s : State), s.hostRuns R.TRG_SOFT = true → ∃ t, exec (.trgSoft v) s = .next t ∧
      t = { s with trig := { s.trig with pulse := t.trig.pulse } } ∧
      ∀ i, i < 256 → t.trig.pulse.getLsbD i = (s.trig.pulse.getLsbD i || (decide (248 ≤ i) && v.getLsbD (i - 248)))) ∧
    ∀ (c : BitVec 6) (s : State), s.hostRuns (R.TRG_CNT_CFG c.toNat) = true →
      ∃ t, exec (.clr c) s = .next t ∧ t.fget (F.TRG_CNT_VAL_VAL c.toNat) = 0 ∧
        ({ s with trig := { s.trig with resets := c.toNat :: s.trig.resets } } : State).onlyWords t [R.TRG_CNT_VAL c.toNat]) ∧
  (
    (∀ (c : BitVec 10) (s : State), let n := c.toNat
      s.hostRuns (R.PAT_CTL n) = true →
      (s.bit (F.PAT_CTL_EN n) = true → exec (.patEnable c) s = .next s) ∧
      (s.bit (F.PAT_CTL_EN n) = false → s.bit (F.PAT_STAT_SHUTTING n) = true →
        exec (.patEnable c) s = .next (s.fset (F.PAT_STAT_PENDING_ENABLE n) 1)) ∧
      (s.bit (F.PAT_CTL_EN n) = false → s.bit (F.PAT_STAT_SHUTTING n) = false →
        ∃ t, exec (.patEnable c) s = .next t ∧ t.bit (F.PAT_CTL_EN n) = true ∧ t.wget (W.PAT_BLKS_BLOCKS n) = 0 ∧
          t.pat n = { s.pat n with idx := 0 } ∧ (∀ m, m ≠ n → t.pat m = s.pat m) ∧
          t = { s with regs := t.regs, pats := t.pats } ∧
          s.wordsBut t [R.PAT_CTL n, R.PAT_BLKS n, R.PAT_BLKS n + 4]) ∧
      (s.bit (F.PAT_CTL_EN n) = false → exec (.patDisable c) s = .next (s.fset (F.PAT_STAT_PENDING_ENABLE n) 0)) ∧
      (s.bit (F.PAT_CTL_EN n) = true → ∃ t, exec (.patDisable c) s = .next t ∧ t.bit (F.PAT_CTL_EN n) = false ∧
        t.bit (F.PAT_STAT_PENDING_ENABLE n) = false ∧
        t.bit (F.PAT_STAT_SHUTTING n) = (s.bit (F.PAT_STAT_SHUTTING n) || decide ((s.pat n).idx ≠ 0)) ∧
        s.onlyWords t [R.PAT_CTL n, R.PAT_STAT n]) ∧
      (∀ v, ∃ t, exec (.patSrc c v) s = .next t ∧ t.fget (F.PAT_CTL_SRC n) = v.toNat ∧
        t.pat n = { s.pat n with request := some (v.toNat, s.fget (F.PAT_DESC_START n)), fetched := none } ∧
        t.bit (F.PAT_STAT_SW_PEND n) = true ∧ (∀ m, m ≠ n → t.pat m = s.pat m) ∧
        t = { s.meet (.pat n) with regs := t.regs, pats := t.pats } ∧
        t.bit F.TRG_STAT_CONFLICT = (s.bit F.TRG_STAT_CONFLICT || s.meets (.knot n)) ∧
        s.wordsBut t [R.PAT_CTL n, R.PAT_STAT n, R.TRG_STAT]) ∧
      ∃ t, exec (.patGo c) s = .next t ∧
        t.pat n = { s.pat n with request := some (1, s.fget (F.PAT_DESC_START n)), fetched := none } ∧
        t.bit (F.PAT_STAT_SW_PEND n) = true ∧ (∀ m, m ≠ n → t.pat m = s.pat m) ∧
        t = { s.meet (.pat n) with regs := t.regs, pats := t.pats } ∧
        t.bit F.TRG_STAT_CONFLICT = (s.bit F.TRG_STAT_CONFLICT || s.meets (.knot n)) ∧
        s.wordsBut t [R.PAT_STAT n, R.TRG_STAT]) ∧
    ∀ (c : BitVec 10) (s : State), let n := c.toNat
      (s.bit (F.PAT_STAT_SHUTTING n) = false ∨ s.patDone n = false → exec (.patShutdownDone c) s = .next s) ∧
      (s.patDone n = true ↔ (s.pat n).idx = 0 ∨ (s.lane n).txSrc ≠ 2) ∧
      (s.bit (F.PAT_STAT_SHUTTING n) = true → s.patDone n = true → ∃ t, exec (.patShutdownDone c) s = .next t ∧
        t.bit (F.PAT_STAT_SHUTTING n) = false ∧ t.bit (F.PAT_STAT_PENDING_ENABLE n) = false ∧
        t.pat n = { s.pat n with idx := 0 } ∧ (∀ m, m ≠ n → t.pat m = s.pat m) ∧
        (s.bit (F.PAT_STAT_PENDING_ENABLE n) = true → t.bit (F.PAT_CTL_EN n) = true ∧ t.wget (W.PAT_BLKS_BLOCKS n) = 0) ∧
        t = { s with regs := t.regs, pats := t.pats } ∧
        (s.bit (F.PAT_STAT_PENDING_ENABLE n) = false → s.wordsBut t [R.PAT_STAT n])))

/-- A knot's condition is true exactly if it has an enabled term (an event input, inverted by INV, or with CNT_EN the terminal
state VAL at least CMP of its counter) and, with OP = 0 all, with OP = 1 some of its enabled terms hold. KNOT_TRANSITION moves
every named sequencer that runs and whose knot's condition is true to the knot's NEXT, where it runs on, or ends with ENDED at
an END knot, whatever actions issue, and moves no other sequencer; if none fires, and in Sleep and deeper, it changes nothing.
Where one sequencer alone fires and neither its knot nor an END knot that it enters has an action, nothing changes but its
status and the counter of the entered knot, which CNT_RST resets. (R241, R242) -/
def Obligations.KnotConditions : Prop :=
  (∀ (s : State) (n k : Nat) (inputs : BitVec 256),
    let ev := fun i => if i = 0 then s.fget (F.TRG_KNOT_EV_A n k) else if i = 1 then s.fget (F.TRG_KNOT_EV_B n k)
      else if i = 2 then s.fget (F.TRG_KNOT_EV_C n k) else s.fget (F.TRG_KNOT_EV_D n k)
    let on := fun i => if i < 4 then (s.fget (F.TRG_KNOT_TERM_EN n k)).testBit i else s.bit (F.TRG_KNOT_CNT_EN n k)
    let c := s.fget (F.TRG_KNOT_CNT n k)
    let holds := fun i => if i < 4 then inputs.getLsbD (ev i) != (s.fget (F.TRG_KNOT_INV n k)).testBit i
      else decide (s.fget (F.TRG_CNT_CMP_CMP c) ≤ s.fget (F.TRG_CNT_VAL_VAL c))
    s.knotTrue n k inputs = true ↔ (∃ i, i < 5 ∧ on i = true) ∧
      (s.bit (F.TRG_KNOT_OP n k) = false → ∀ i, i < 5 → on i = true → holds i = true) ∧
      (s.bit (F.TRG_KNOT_OP n k) = true → ∃ i, i < 5 ∧ on i = true ∧ holds i = true)) ∧
  (∀ (seqs : BitVec 8) (inputs : BitVec 256) (s : State),
    (∀ n, n < 8 → seqs.getLsbD n = true → s.knotFires (inputs ||| s.trigInputs) n = false) →
    exec (.knotTransition seqs inputs) s = .next s) ∧
  (∀ (seqs : BitVec 8) (inputs : BitVec 256) (s : State), 2 ≤ s.fget F.PWR_STAT_STATE →
    exec (.knotTransition seqs inputs) s = .next s) ∧
  (∀ (seqs : BitVec 8) (inputs : BitVec 256) (s : State) (n : Nat), s.awake = true → s.firesAlone seqs inputs n →
    let k := s.fget (F.TRG_SEQ_STAT_KNOT n)
    let next := s.fget (F.TRG_KNOT_NEXT n k)
    let v := F.TRG_CNT_VAL_VAL (s.fget (F.TRG_KNOT_CNT n next))
    (∀ i, s.knotHas n k i = false) →
    (s.bit (F.TRG_KNOT_END n next) = false → ∃ t, exec (.knotTransition seqs inputs) s = .next t ∧
      t.fget (F.TRG_SEQ_STAT_KNOT n) = next ∧ t.bit (F.TRG_SEQ_STAT_RUNNING n) = true ∧
      t.fget v = (if s.bit (F.TRG_KNOT_CNT_RST n next) then 0 else s.fget v) ∧
      t = { s with regs := t.regs, trig := { s.trig with resets := t.trig.resets } } ∧ s.wordsBut t [R.TRG_SEQ_STAT n, v.addr]) ∧
    (s.bit (F.TRG_KNOT_END n next) = true → (∀ i, s.knotHas n next i = false) →
      ∃ t, exec (.knotTransition seqs inputs) s = .next t ∧ t.fget (F.TRG_SEQ_STAT_KNOT n) = next ∧
        t.bit (F.TRG_SEQ_STAT_RUNNING n) = false ∧ t.bit (F.TRG_SEQ_STAT_ENDED n) = true ∧
        t = { s with regs := t.regs, trig := { s.trig with resets := t.trig.resets } } ∧ s.wordsBut t [R.TRG_SEQ_STAT n, v.addr])) ∧
  ∀ (seqs : BitVec 8) (inputs : BitVec 256) (s : State), s.awake = true →
    ∃ t, exec (.knotTransition seqs inputs) s = .next t ∧
      ((∀ n, n < 8 → ∀ k, k < 16 → ∀ i, s.knotHas n k i = false) →
        t.mem = s.mem ∧ t.trig = { s.trig with resets := t.trig.resets }) ∧
      ∀ n, n < 8 →
        let next := s.fget (F.TRG_KNOT_NEXT n (s.fget (F.TRG_SEQ_STAT_KNOT n)))
        let fires := seqs.getLsbD n && s.knotFires (inputs ||| s.trigInputs) n
        (fires = true → t.fget (F.TRG_SEQ_STAT_KNOT n) = next ∧ t.bit (F.TRG_SEQ_STAT_RUNNING n) = !s.bit (F.TRG_KNOT_END n next)) ∧
        (fires = false → t.reg (R.TRG_SEQ_STAT n) = s.reg (R.TRG_SEQ_STAT n))

/-- Where one sequencer alone fires, its knot has just the one action named (or FREEZE with THAW) and the knot it enters is no END
knot: CAP makes every ARMED channel of the set (the channels with that SET and a ring: the model's reading, log entry 31) that
has lost no word, and that no ARM or STOP of the same edge has reached, wait for its trigger entry; MARK adds a mark record to
every running channel of the set whose open block has room; PAT_OP requests the source change of its code in every enabled
pattern channel of the set, but in one whose SRC or GO the host writes at the same edge it is refused with CONFLICT, and where
it comes first at the edge the engine keeps it for that host's write; TOUT starts a pulse of at least one cycle on the pin and
tells a partner; FREEZE asserts the freeze hold, and wins over THAW of the same knot and of the same edge, which else releases
it; FLAG pulses input 240 plus the sequencer's number; POST posts one work item that carries sequencer, knot, MARK_CODE and
the short timestamp. Each leaves the rest of the trigger engine's state alone. (R231, R235, R243, R244, R245, R247, R253,
R254) -/
def Obligations.KnotActions : Prop :=
  ∀ (seqs : BitVec 8) (inputs : BitVec 256) (s : State) (n : Nat), s.awake = true → s.firesAlone seqs inputs n →
    let k := s.fget (F.TRG_SEQ_STAT_KNOT n)
    s.bit (F.TRG_KNOT_END n (s.fget (F.TRG_KNOT_NEXT n k))) = false →
    let has := fun i => ∀ j, s.knotHas n k j = decide (j = i)
    let set := s.fget (F.TRG_KNOT_CAP_SET n k)
    let mark := s.fget (F.TRG_KNOT_MARK_CODE n k)
    ∃ t, exec (.knotTransition seqs inputs) s = .next t ∧
      let kept := t.trig = { s.trig with resets := t.trig.resets }
      (has 0 → kept ∧ t.mem = s.mem ∧
        (∀ c, s.capMember set c = true → s.capState c = capArmed → (s.cap c).lost = none → s.meets (.cap c) = false →
          t.capState c = capArmed ∧ (t.cap c).trigWait = true) ∧
        ∀ c, s.capMember set c = false ∨ s.meets (.cap c) = true → t.cap c = s.cap c ∧ t.capState c = s.capState c) ∧
      (has 1 → kept ∧ t.mem = s.mem ∧
        (∀ c b, s.capMember set c = true → s.capRuns c = true → (s.cap c).opened = some b → b.fill + 2 ≤ 62 →
          (t.cap c).opened = some { b with recs := b.recs ++ [trigMark n k mark (shortTime s.time.now)] }) ∧
        ∀ c, s.capMember set c = false → t.cap c = s.cap c) ∧
      (has 2 → t.trig = { s.trig with resets := t.trig.resets, met := t.trig.met } ∧ t.caps = s.caps ∧ ∀ c,
        let op := s.fget (F.TRG_KNOT_PAT_OP n k)
        let named := c < 1024 ∧ s.capHere c = true ∧ s.bit (F.PAT_CTL_EN c) = true ∧
          s.fget (F.PAT_CFG_SET c) = s.fget (F.TRG_KNOT_PAT_SET n k)
        (named → s.meets (.pat c) = false → t.bit (F.PAT_STAT_SW_PEND c) = true ∧ (op ≠ 0 → t.meets (.knot c) = true) ∧
          (op = 1 → (t.pat c).request = some (1, s.fget (F.PAT_DESC_START c))) ∧
          (op = 2 → (t.pat c).request = some (s.fget (F.PAT_CFG_ALT_SRC c), s.fget (F.PAT_DESC_ALT c))) ∧
          (op = 3 → (t.pat c).request = some (0, 0))) ∧
        (named → s.meets (.pat c) = true → t.bit F.TRG_STAT_CONFLICT = true) ∧
        (¬ named ∨ s.meets (.pat c) = true → t.pat c = s.pat c)) ∧
      (has 3 → let j := s.fget (F.TRG_KNOT_TOUT_SEL n k)
        SMap.find t.trig.tout j = some (max 1 (s.fget (F.TRG_TOUT_CFG_WIDTH j))) ∧
        (∀ m, m ≠ j → SMap.find t.trig.tout m = SMap.find s.trig.tout m) ∧ t.trig.pulse = s.trig.pulse ∧
        t.splice.sent = s.splice.sent ++ (if s.splice.paired then [.trigOut j] else [])) ∧
      (has 4 ∨ (∀ j, s.knotHas n k j = decide (j = 4 ∨ j = 5)) →
        t.bit F.TURN_HOLD_SRC_FREEZE = true ∧ t.bit F.TRG_STAT_FROZEN = true ∧ t.mem = s.mem ∧
          t.trig = { (s.meet .freeze).trig with resets := t.trig.resets }) ∧
      (has 5 → kept ∧ t.mem = s.mem ∧
        (s.meets .freeze = false → t.bit F.TURN_HOLD_SRC_FREEZE = false ∧ t.bit F.TRG_STAT_FROZEN = false) ∧
        (s.meets .freeze = true → t.bit F.TURN_HOLD_SRC_FREEZE = s.bit F.TURN_HOLD_SRC_FREEZE)) ∧
      (has 6 → t.trig = { s.trig with pulse := s.trig.pulse ||| BitVec.ofNat 256 (2 ^ (240 + n)), resets := t.trig.resets } ∧ t.mem = s.mem) ∧
      (has 7 → let q := s.fget (F.TRG_KNOT_QUEUE n k)
        let item : W128 := BitVec.ofNat 128 ((shortTime s.time.now).toNat + mark * 2 ^ 64 + k * 2 ^ 80 + n * 2 ^ 84)
        t.mem = (s.postBy 0x71 q item).mem ∧ kept ∧
          (s.standby = false → s.bit (F.ACT_Q_CFG_EN q) = true →
            2 ^ s.fget (F.ACT_Q_CFG_K q) ≤ s.fget (F.ACT_Q_STAT_LEVEL q) → t.bit F.TRG_STAT_POST_REFUSED = true))

/-- A descriptor is the 32 bytes at PAT_DESC_BASE + 32 i (zeros where the read is refused); it passes only with a block count
other than 0, reserved bits 0 and its blocks in pattern granules. PAT_SOURCE_SWITCH takes a pending change at the boundary of
a block and of a frame, and else changes nothing: the source becomes active and, for the DRAM program, the requested
descriptor's segment starts, or a bad descriptor idles the channel with DESC_ERR and a report. PAT_SEGMENT_END after the last
play goes on at NEXT, or with NEXT 0xFFFF ends the program: idle, PROG_END set; before that it changes nothing. PAT_DESC_FETCH
keeps the descriptor of the pending change or the next segment, and reports a refused read of one line; with none wanted it
changes nothing. PAT_UNDERRUN at a boundary of a playing program puts 64 idle words before the block, sets UNDERRUN, counts
and reports; elsewhere it changes nothing. (R139, R245, R246, R247) -/
def Obligations.PatternProgram : Prop :=
  (∀ (s : State) (n i : Nat) (d : PatDesc), s.checkDesc n i = some d →
    let a := s.wget (W.PAT_DESC_BASE_BASE n) + 32 * i
    let v := leNat (if s.inDram a && s.dramAllows 0x20 a false then s.rdBytes a 32 else List.replicate 32 0)
    d.data = v % 2 ^ 64 ∧ d.nblk = v / 2 ^ 64 % 2 ^ 32 ∧ d.loop = v / 2 ^ 96 % 2 ^ 32 ∧ d.ctl = v / 2 ^ 128 % 2 ^ 64 ∧
      d.next = v / 2 ^ 192 % 2 ^ 16 ∧ d.nblk ≠ 0 ∧ v / 2 ^ 209 % 2 ^ 47 = 0 ∧
      ∀ x, d.data ≤ x → x < d.data + 512 * d.nblk → s.inDram x = true ∧ s.fget (F.BNK_GRN_USE (granuleOf x)) = 2) ∧
  (∀ (c : BitVec 10) (s : State), let n := c.toNat
    ((s.pat n).request = none ∨ (s.pat n).idx ≠ 0 ∨ (s.fget (F.PAT_STAT_ACT_SRC n) = 3 ∧ (s.pat n).frame ≠ []) →
      exec (.patSourceSwitch c) s = .next s) ∧
    (∀ src i, (s.pat n).request = some (src, i) → (s.pat n).idx = 0 →
      s.fget (F.PAT_STAT_ACT_SRC n) ≠ 3 ∨ (s.pat n).frame = [] →
      ∃ t, exec (.patSourceSwitch c) s = .next t ∧ t.bit (F.PAT_STAT_SW_PEND n) = false ∧ (t.pat n).request = none ∧
        (∀ m, m ≠ n → t.pat m = s.pat m) ∧ t.mem = s.mem ∧
        (src ≠ 1 → t.fget (F.PAT_STAT_ACT_SRC n) = src % 4 ∧ s.wordsBut t [R.PAT_STAT n] ∧ t.reports = s.reports) ∧
        (∀ d, src = 1 → (s.pat n).fetched = some (i, some d) ∨ (s.pat n).fetched = none ∧ s.checkDesc n i = some d →
          t.fget (F.PAT_STAT_ACT_SRC n) = 1 ∧ (t.pat n).desc = some d ∧ (t.pat n).blk = 0 ∧
            t.fget (F.PAT_CUR_DESC n) = i % 2 ^ (F.PAT_CUR_DESC n).w ∧
            t.fget (F.PAT_LOOP_LOOPS n) = d.loop % 2 ^ (F.PAT_LOOP_LOOPS n).w ∧ t.reports = s.reports) ∧
        (src = 1 → (s.pat n).fetched = some (i, none) ∨ (s.pat n).fetched = none ∧ s.checkDesc n i = none →
          t.fget (F.PAT_STAT_ACT_SRC n) = 0 ∧ t.bit (F.PAT_STAT_DESC_ERR n) = true ∧ (t.pat n).desc = none ∧
            (s.srcOn (0x200 + n / 16) = true → ∃ r ∈ t.reports, r.src = 0x200 + n / 16 ∧ r.code = 0x0502)))) ∧
  (∀ (c : BitVec 10) (s : State), let n := c.toNat
    ((s.pat n).ended = false ∨ (s.pat n).desc = none → exec (.patSegmentEnd c) s = .next s) ∧
    (∀ d, (s.pat n).ended = true → (s.pat n).desc = some d →
      ∃ t, exec (.patSegmentEnd c) s = .next t ∧ (t.pat n).ended = false ∧ (∀ m, m ≠ n → t.pat m = s.pat m) ∧
        (d.next = 0xFFFF → t.fget (F.PAT_STAT_ACT_SRC n) = 0 ∧ t.bit (F.PAT_STAT_PROG_END n) = true ∧
          (t.pat n).desc = none ∧ s.wordsBut t [R.PAT_STAT n]) ∧
        (∀ e, d.next ≠ 0xFFFF → (s.pat n).fetched = some (d.next, some e) ∨
            (s.pat n).fetched = none ∧ s.checkDesc n d.next = some e →
          (t.pat n).desc = some e ∧ (t.pat n).blk = 0 ∧ t.fget (F.PAT_CUR_DESC n) = d.next % 2 ^ (F.PAT_CUR_DESC n).w))) ∧
  (∀ (c : BitVec 10) (s : State), let n := c.toNat
    let want := match (s.pat n).request, (s.pat n).desc with
      | some (1, i), _ => some i
      | _, some d => if d.next = 0xFFFF then none else some d.next
      | _, none => none
    (want = none → exec (.patDescFetch c) s = .next s) ∧
    ∀ i, want = some i →
      let a := s.wget (W.PAT_DESC_BASE_BASE n) + 32 * i
      ∃ t, exec (.patDescFetch c) s = .next t ∧ t.pat n = { s.pat n with fetched := some (i, s.checkDesc n i) } ∧
        (∀ m, m ≠ n → t.pat m = s.pat m) ∧ t.mem = s.mem ∧
        (s.inDram a = false ∨ (s.dramAllows 0x20 a false = true ∧ s.observed = false) → t = { s with pats := t.pats }) ∧
        (s.inDram a = true → s.dramAllows 0x20 a false = false → s.domainOn (s.addrDomain a) = true → a % 64 ≤ 32 →
          (s.srcOn (0x140 + stackOf a) = true → ∃ r ∈ t.reports, r.src = 0x140 + stackOf a ∧ r.code = 0x0202) ∧
          t.fget F.BNK_DRAM_DENIED_COUNT = min (2 ^ F.BNK_DRAM_DENIED_COUNT.w - 1) (s.fget F.BNK_DRAM_DENIED_COUNT + 1))) ∧
  ∀ (c : BitVec 10) (s : State), let n := c.toNat
    let due := s.fget (F.PAT_STAT_ACT_SRC n) = 1 ∧ (s.pat n).idx = 0 ∧ (s.pat n).desc ≠ none
    (¬ due → exec (.patUnderrun c) s = .next s) ∧
    (due → ∃ t, exec (.patUnderrun c) s = .next t ∧ t.pat n = { s.pat n with idle := 64 } ∧
      (∀ m, m ≠ n → t.pat m = s.pat m) ∧ t.bit (F.PAT_STAT_UNDERRUN n) = true ∧ t.mem = s.mem ∧
      t.fget (F.PAT_UNDER_COUNT n) = min (2 ^ (F.PAT_UNDER_COUNT n).w - 1) (s.fget (F.PAT_UNDER_COUNT n) + 1) ∧
      (s.srcOn (0x200 + n / 16) = true → ∃ r ∈ t.reports, r.src = 0x200 + n / 16 ∧ r.code = 0x0503))

/-- The command of an immediate node runs only in a unit that is at a node of that operation and waits for nothing; elsewhere it
changes nothing. Below the node limit, MOVI, ADD, LOGIC, SHIFT, FIELD, HASH and NOW write DST with the value of R261 (HASH, as
FCS, by the polynomial of its standard: the model's, log entry 20) and go on at NEXT; CMP and TEST go on at NEXT or ALT; PATCH
and FCS replace the bytes they name in the frame and no other, TSREQ marks one frame word, and beyond the frame each leaves it
as it is, reports ACT_BOUNDS and goes on; MASK changes the own flow's mask under IMM and CLRF clears those of the named flags
that no queue drives; nothing else changes but the unit's register. At its last admitted node a service ends with ACT_RUNAWAY.
END writes V2 to V9 back to the flow and, with nothing in flight, frees unit and flow. (R256, R259, R260, R261, R262, R263) -/
def Obligations.ActNodes : Prop :=
  (∀ (b : BitVec 6) (s : State), let u := b.toNat
    (s.actReady u 0x00 = false → exec (.actEnd b) s = .next s) ∧ (s.actReady u 0x01 = false → exec (.movi b) s = .next s) ∧
    (s.actReady u 0x02 = false → exec (.add b) s = .next s) ∧ (s.actReady u 0x03 = false → exec (.logic b) s = .next s) ∧
    (s.actReady u 0x04 = false → exec (.shift b) s = .next s) ∧ (s.actReady u 0x05 = false → exec (.fieldNode b) s = .next s) ∧
    (s.actReady u 0x06 = false → exec (.cmp b) s = .next s) ∧ (s.actReady u 0x07 = false → exec (.test b) s = .next s) ∧
    (s.actReady u 0x08 = false → exec (.hash b) s = .next s) ∧ (s.actReady u 0x09 = false → exec (.now b) s = .next s) ∧
    (s.actReady u 0x0E = false → exec (.patch b) s = .next s) ∧ (s.actReady u 0x0F = false → exec (.fcs b) s = .next s) ∧
    (s.actReady u 0x10 = false → exec (.tsreq b) s = .next s) ∧ (s.actReady u 0x17 = false → exec (.mask b) s = .next s) ∧
    (s.actReady u 0x18 = false → exec (.clrf b) s = .next s)) ∧
  (∀ (b : BitVec 6) (s : State), let u := b.toNat
    let x := s.actUnit u
    let w := s.nodeAt u
    let va := x.reg (nA w)
    let vb := x.reg (nB w)
    let imm := nImm w
    let imm2 := (nImm2 w).toNat
    let put := fun (t : State) (v : W64) => s.nodeDone t u (nNext w) (x.setReg (nDst w) v) []
    let jump := fun (t : State) (c : Bool) => s.nodeDone t u (if c then nNext w else nAlt w) x []
    let bounds := fun (t : State) => s.nodeDone t u (nNext w) x [(F.FLT_SRC_STAT_PAIR (0x180 + u)).addr] ∧
      (s.srcOn (0x180 + u) = true → ∃ r ∈ t.reports, r.src = 0x180 + u ∧ r.code = 0x0601)
    x.nodes + 1 < 4096 →
    (s.actReady u 0x01 = true → ∃ t, exec (.movi b) s = .next t ∧ put t (nImm2 w)) ∧
    (s.actReady u 0x02 = true → ∃ t, exec (.add b) s = .next t ∧ put t (va + vb + (BitVec.ofNat 32 imm).signExtend 64)) ∧
    (s.actReady u 0x03 = true → ∃ t, exec (.logic b) s = .next t ∧ put t (if imm % 4 = 0 then va &&& vb
      else if imm % 4 = 1 then va ||| vb else if imm % 4 = 2 then va ^^^ vb else va &&& ~~~vb)) ∧
    (s.actReady u 0x04 = true → ∃ t, exec (.shift b) s = .next t ∧
      put t (if imm.testBit 6 then va >>> (imm % 64) else va <<< (imm % 64))) ∧
    (s.actReady u 0x05 = true → ∃ t, exec (.fieldNode b) s = .next t ∧
      put t (BitVec.ofNat 64 (va.toNat / 2 ^ (imm % 64) % 2 ^ (if imm / 256 % 64 = 0 then 64 else imm / 256 % 64)))) ∧
    (s.actReady u 0x06 = true → ∃ t, exec (.cmp b) s = .next t ∧ jump t (if imm % 4 = 0 then decide (va = vb)
      else if imm % 4 = 1 then decide (va ≠ vb) else if imm % 4 = 2 then decide (va.toNat < vb.toNat)
      else decide (vb.toNat ≤ va.toNat))) ∧
    (s.actReady u 0x07 = true → ∃ t, exec (.test b) s = .next t ∧ jump t (va.getLsbD (imm % 64))) ∧
    (s.actReady u 0x08 = true → ∃ t, exec (.hash b) s = .next t ∧
      put t ((crcCastagnoli (leBytes 8 va.toNat ++ leBytes 8 vb.toNat)).setWidth 64)) ∧
    (s.actReady u 0x09 = true → ∃ t, exec (.now b) s = .next t ∧ put t (BitVec.ofNat 64 s.time.now)) ∧
    (s.actReady u 0x0E = true →
      let n := imm / 4096 % 8 + 1
      let at_ := imm % 2048
      let bs := if imm.testBit 15 then (leBytes n va.toNat).reverse else leBytes n va.toNat
      (at_ + n ≤ 8 * x.frame.length → ∃ t fr, exec (.patch b) s = .next t ∧
        s.nodeDone t u (nNext w) { x with frame := fr } [] ∧
        frameBytes fr = (frameBytes x.frame).take at_ ++ bs ++ (frameBytes x.frame).drop (at_ + n) ∧
        fr.map (·.ctlb) = x.frame.map (·.ctlb)) ∧
      (8 * x.frame.length < at_ + n → ∃ t, exec (.patch b) s = .next t ∧ bounds t)) ∧
    (s.actReady u 0x0F = true →
      let lo := imm % 2048
      let at_ := imm2 % 2048
      let crc := leBytes 4 (crcEthernet (((frameBytes x.frame).drop lo).take (at_ - lo))).toNat
      (at_ + 4 ≤ 8 * x.frame.length → ∃ t fr, exec (.fcs b) s = .next t ∧
        s.nodeDone t u (nNext w) { x with frame := fr } [] ∧
        frameBytes fr = (frameBytes x.frame).take at_ ++ crc ++ (frameBytes x.frame).drop (at_ + 4)) ∧
      (8 * x.frame.length < at_ + 4 → ∃ t, exec (.fcs b) s = .next t ∧ bounds t)) ∧
    (s.actReady u 0x10 = true →
      (imm % 256 < x.frame.length → ∃ t fr, exec (.tsreq b) s = .next t ∧
        s.nodeDone t u (nNext w) { x with frame := fr } [] ∧ fr.length = x.frame.length ∧
        (∀ i, i ≠ imm % 256 → fr[i]? = x.frame[i]?) ∧
        (∀ o, x.frame[imm % 256]? = some o → fr[imm % 256]? = some { o with tsreq := true, tstag := va.setWidth 16 })) ∧
      (x.frame.length ≤ imm % 256 → ∃ t, exec (.tsreq b) s = .next t ∧ bounds t)) ∧
    (s.actReady u 0x17 = true → ∃ t, exec (.mask b) s = .next t ∧
      (let r := R.ACT_FL_MASK (s.unitFlow u)
       let m : W32 := BitVec.ofNat 32 imm
       t.reg r = ((s.reg r &&& ~~~m) ||| (va.setWidth 32 &&& m)) ∧ s.nodeDone t u (nNext w) x [r])) ∧
    (s.actReady u 0x18 = true → ∃ t, exec (.clrf b) s = .next t ∧
      (let f := s.unitFlow u
       t.flags f = (s.flags f &&& ~~~(BitVec.ofNat 32 imm &&& ~~~s.queueFlags f)) ∧
         s.nodeDone t u (nNext w) x [R.ACT_FL_FLAGS f]))) ∧
  (∀ (b : BitVec 6) (s : State), let u := b.toNat
    s.actReady u 0x01 = true → (s.actUnit u).nodes = 4095 →
    ∃ t, exec (.movi b) s = .next t ∧ (t.actUnit u).ended = true ∧
      (s.srcOn (0x180 + u) = true → ∃ r ∈ t.reports, r.src = 0x180 + u ∧ r.code = 0x0602) ∧
      t.mem = s.mem ∧ t.flags (s.unitFlow u) = s.flags (s.unitFlow u)) ∧
  ∀ (b : BitVec 6) (s : State), let u := b.toNat
    let f := s.unitFlow u
    s.actReady u 0x00 = true →
    ∃ t, exec (.actEnd b) s = .next t ∧ (t.actUnit u).ended = true ∧ (t.actUnit u).ops = (s.actUnit u).ops ∧
      (t.actFlow f).v = ((s.actUnit u).v.drop 2).take 8 ∧ (∀ g, g ≠ f → t.actFlow g = s.actFlow g) ∧ t.mem = s.mem ∧
      ((s.actUnit u).ops = [] → t.bit (F.ACT_UNIT_BUSY u) = false ∧ t.bit (F.ACT_FL_STAT_IN_SERVICE f) = false ∧
        s.wordsBut t [R.ACT_UNIT u, R.ACT_FL_STAT f]) ∧
      ((s.actUnit u).ops ≠ [] → t.regs = s.regs)

/-- LOAD, STORE, COUNT, BUILD, SENDP, SENDT, POST, EVENT, DELAY and CANCEL run only in a unit that is at a node of that operation,
waits for nothing and finds a free slot; elsewhere they change nothing. Each issues its operation with the operands of R261:
the operation joins the unit's operations in flight, behind those already there, and the counts of slots go up. A waited
operation holds the unit, with its two successors; after a posted one the unit goes on at NEXT. A LOAD, STORE or COUNT address
that is no multiple of 8 issues nothing, reports ACT_BOUNDS and goes on at NEXT. (R260, R261, R263, R264) -/
def Obligations.ActOperations : Prop :=
  (∀ (b : BitVec 6) (s : State), let u := b.toNat
    let no := fun op => (s.actReady u op && s.slotFree u) = false
    (no 0x0A → exec (.load b) s = .next s) ∧ (no 0x0B → exec (.store b) s = .next s) ∧
    (no 0x0C → exec (.count b) s = .next s) ∧ (no 0x0D → exec (.build b) s = .next s) ∧
    (no 0x11 → exec (.sendp b) s = .next s) ∧ (no 0x12 → exec (.sendt b) s = .next s) ∧
    (no 0x13 → exec (.post b) s = .next s) ∧ (no 0x14 → exec (.event b) s = .next s) ∧
    (no 0x15 → exec (.delay b) s = .next s) ∧ (no 0x16 → exec (.cancel b) s = .next s)) ∧
  ∀ (b : BitVec 6) (s : State), let u := b.toNat
    let x := s.actUnit u
    let w := s.nodeAt u
    let va := x.reg (nA w)
    let vb := x.reg (nB w)
    let imm := nImm w
    let a := (va + BitVec.ofNat 64 imm).toNat
    let yes := fun op => (s.actReady u op && s.slotFree u) = true
    let slots := fun (t : State) => t.fget F.ACT_STAT_INFLIGHT = s.fget F.ACT_STAT_INFLIGHT + 1 ∧
      t.fget F.ACT_STAT_PEAK = max (s.fget F.ACT_STAT_INFLIGHT + 1) (s.fget F.ACT_STAT_PEAK) ∧
      t.fget (F.ACT_UNIT_SLOTS u) = (s.fget (F.ACT_UNIT_SLOTS u) + 1) % 128 ∧
      (∀ v, v ≠ u → t.actUnit v = s.actUnit v) ∧ t.act.flows = s.act.flows ∧ t.act.lists = s.act.lists ∧ t.mem = s.mem ∧
      s.wordsBut t [R.ACT_STAT, R.ACT_UNIT u]
    let holds := fun (t : State) (o : ActOp) => slots t ∧
      t.actUnit u = { x with ops := x.ops ++ [o], wait := some (nNext w, nAlt w) } ∧
      t.fget (F.ACT_UNIT_NODE u) = s.fget (F.ACT_UNIT_NODE u)
    let posts := fun (t : State) (o : ActOp) => slots t ∧
      t.actUnit u = { x with ops := x.ops ++ [o], nodes := x.nodes + 1, wait := none } ∧
      t.fget (F.ACT_UNIT_NODE u) = nNext w
    let bounds := fun (t : State) => s.nodeDone t u (nNext w) x [(F.FLT_SRC_STAT_PAIR (0x180 + u)).addr] ∧
      (s.srcOn (0x180 + u) = true → ∃ r ∈ t.reports, r.src = 0x180 + u ∧ r.code = 0x0601)
    x.nodes + 1 < 4096 →
    (yes 0x0A → (a % 8 = 0 → ∃ t, exec (.load b) s = .next t ∧ holds t (.load (nDst w) a)) ∧
      (a % 8 ≠ 0 → ∃ t, exec (.load b) s = .next t ∧ bounds t)) ∧
    (yes 0x0B → (a % 8 = 0 → ∃ t, exec (.store b) s = .next t ∧ posts t (.store a vb)) ∧
      (a % 8 ≠ 0 → ∃ t, exec (.store b) s = .next t ∧ bounds t)) ∧
    (yes 0x0C → (a % 8 = 0 → ∃ t, exec (.count b) s = .next t ∧ posts t (.count a vb)) ∧
      (a % 8 ≠ 0 → ∃ t, exec (.count b) s = .next t ∧ bounds t)) ∧
    (yes 0x0D → ∃ t, exec (.build b) s = .next t ∧ holds t (.build (nImm2 w).toNat)) ∧
    (yes 0x11 → ∃ t, exec (.sendp b) s = .next t ∧ holds t (.sendp (imm % 1024))) ∧
    (yes 0x12 → ∃ t, exec (.sendt b) s = .next t ∧ posts t (.sendt (imm % 128) (imm / 128 % 2048) (vb ++ va))) ∧
    (yes 0x13 → ∃ t, exec (.post b) s = .next t ∧ holds t (.post (imm % 16384) (vb ++ va))) ∧
    (yes 0x14 → ∃ t, exec (.event b) s = .next t ∧
      posts t (if imm.testBit 31 then .soft (imm % 8) else .flag (imm / 65536 % 4096) (imm % 32))) ∧
    (yes 0x15 → ∃ t, exec (.delay b) s = .next t ∧ holds t (.delay (imm / 256 % 4) (imm % 32)
      (s.tickNow (imm / 256 % 4) + max 1 (va.toNat % 2 ^ 32)))) ∧
    (yes 0x16 → ∃ t, exec (.cancel b) s = .next t ∧ holds t (.cancel (imm / 256 % 4) (imm % 32) (nDst w)))

/-- ACT_OP_COMPLETE of a unit with nothing in flight, or whose oldest operation waits for a bank under handover, changes nothing.
Otherwise the oldest operation leaves the unit (those of one unit complete in the order of issue: the model's reading, log
entry 23), a slot becomes free and the effect is: LOAD writes DST with the 8 bytes, 0 where the read is refused or no memory
lies there (log entry 34); STORE writes 8 bytes and no other; COUNT adds to the 8 bytes; BUILD fills the frame from the
template where its banks and granules let the plane read it, or reports ACT_BOUNDS for a bad word count and keeps the frame;
SENDP appends the frame to the FIFO of an enabled channel that has room (its bytes not yet played count: log entry 28) and
goes on at NEXT, or goes on at ALT; SENDT puts a word that is assigned to the unit into the open input window, and counts any
other; POST goes on at ALT exactly on FULL; EVENT sets a flag that no queue drives, or pulses a trigger input; DELAY of a full
list goes on at ALT with FULL_SEEN, and otherwise enters the list in order of expiry; CANCEL removes the own flow's entries of
the flag, clears that flag and writes their number to DST. After a waited operation the unit goes on at its successor. (R173,
R245, R252, R256, R260, R261, R262, R263, R264) -/
def Obligations.ActCompletions : Prop :=
  (∀ (b : BitVec 6) (s : State), (s.actUnit b.toNat).ops = [] → exec (.actOpComplete b) s = .next s) ∧
  (∀ (b : BitVec 6) (s : State) (o : ActOp) (os : List ActOp), (s.actUnit b.toNat).ops = o :: os → s.opWaits o = true →
    exec (.actOpComplete b) s = .next s) ∧
  ∀ (b : BitVec 6) (s : State) (o : ActOp) (os : List ActOp) (n e : Nat), let u := b.toNat
    let x := s.actUnit u
    let f := s.unitFlow u
    let busy := fun (t : State) => t.fget F.ACT_STAT_INFLIGHT = s.fget F.ACT_STAT_INFLIGHT - 1 ∧
      t.fget (F.ACT_UNIT_SLOTS u) = s.fget (F.ACT_UNIT_SLOTS u) - 1 ∧ ∀ v, v ≠ u → t.actUnit v = s.actUnit v
    let goes := fun (t : State) (next : Nat) (y : Unit_) => busy t ∧
      t.actUnit u = { y with ops := os, nodes := x.nodes + 1, wait := none } ∧ t.fget (F.ACT_UNIT_NODE u) = next % 64
    x.ops = o :: os → s.opWaits o = false → x.nodes + 1 < 4096 → x.ended = false →
    (x.wait = some (n, e) →
      (∀ dst a, o = .load dst a → ∃ t, exec (.actOpComplete b) s = .next t ∧ t.mem = s.mem ∧
        goes t n (x.setReg dst (if s.actMem a false = .granted then BitVec.ofNat 64 (leNat (s.rdBytes a 8)) else 0))) ∧
      (∀ a, o = .build a → (∀ p ∈ actParts a 8, s.actMem p.1 false = .granted) →
        let k := leNat (s.rdBytes a 2)
        (1 ≤ k → k ≤ 256 → (∀ p ∈ actParts (a + 8) (templateSize k), s.actMem p.1 false = .granted) → ∃ t fr, exec (.actOpComplete b) s = .next t ∧ goes t n { x with frame := fr } ∧
          fr.length = k ∧ t.mem = s.mem ∧ ∀ i, i < k → fr[i]? = some {
            data := BitVec.ofNat 64 (leNat (s.rdBytes (a + 8 + (k + 7) / 8 * 8 + 8 * i) 8)), ctlb := s.rdByte (a + 8 + i) }) ∧
        (k = 0 ∨ 256 < k → ∃ t, exec (.actOpComplete b) s = .next t ∧ goes t n x ∧
          (s.srcOn (0x180 + u) = true → ∃ r ∈ t.reports, r.src = 0x180 + u ∧ r.code = 0x0601))) ∧
      (∀ c, o = .sendp c →
        let fits := s.bit (F.PAT_CTL_EN c) = true ∧ (s.pat c).fifoBytes + 8 * x.frame.length ≤ 16384
        (fits → ∃ t, exec (.actOpComplete b) s = .next t ∧ goes t n x ∧
          t.pat c = { s.pat c with fifo := (s.pat c).fifo ++ [⟨x.frame⟩] } ∧ ∀ m, m ≠ c → t.pat m = s.pat m) ∧
        (¬ fits → ∃ t, exec (.actOpComplete b) s = .next t ∧ goes t e x ∧ t.pats = s.pats)) ∧
      (∀ q item, o = .post q item → q < 16384 → ∃ t, exec (.actOpComplete b) s = .next t ∧
        goes t (if (s.queuePost (0x30 + u) q item).2 = 1 then e else n) x ∧
        t.mem = (s.queuePost (0x30 + u) q item).1.mem) ∧
      (∀ d g at_, o = .delay d g at_ → d < 4 →
        (4096 ≤ (s.delays d).length → ∃ t, exec (.actOpComplete b) s = .next t ∧ goes t e x ∧
          t.bit (F.ACT_DL_STAT_FULL_SEEN d) = true ∧ t.delays d = s.delays d) ∧
        ((s.delays d).length < 4096 → s.tickNow d < at_ → ∃ t y, exec (.actOpComplete b) s = .next t ∧ goes t n y ∧
          y = { x with added := y.added } ∧ (t.delays d).Perm (⟨at_, f, g⟩ :: s.delays d) ∧
          ((s.delays d).Pairwise (fun p q => p.at_ ≤ q.at_) → (t.delays d).Pairwise (fun p q => p.at_ ≤ q.at_)) ∧
          t.fget (F.ACT_DL_STAT_LEVEL d) = (s.delays d).length + 1)) ∧
      (∀ d g dst, o = .cancel d g dst → d < 4 → g < 32 → ∃ t y, exec (.actOpComplete b) s = .next t ∧ goes t n y ∧
        (let mine := fun (i : DelayItem) => i.flow == f && i.flag == g
         y = { x.setReg dst (BitVec.ofNat 64 ((s.delays d).filter mine).length) with added := y.added, removed := y.removed } ∧
           t.delays d = (s.delays d).filter fun i => !mine i) ∧
        ((s.queueFlags f).getLsbD g = false → (t.flags f).getLsbD g = false))) ∧
    (x.wait = none →
      (∀ a v, o = .store a v → s.actMem a true = .granted → ∃ t, exec (.actOpComplete b) s = .next t ∧ busy t ∧
        t.rdBytes a 8 = leBytes 8 v.toNat ∧ ∀ y, y < a ∨ a + 8 ≤ y → t.rdByte y = s.rdByte y) ∧
      (∀ a v, o = .count a v → a % 8 = 0 → s.actMem a true = .granted → s.actMem a false = .granted →
        ∃ t, exec (.actOpComplete b) s = .next t ∧ busy t ∧
          leNat (t.rdBytes a 8) = (leNat (s.rdBytes a 8) + v.toNat) % 2 ^ 64 ∧
          ∀ y, y < a ∨ a + 8 ≤ y → t.rdByte y = s.rdByte y) ∧
      (∀ c k d, o = .sendt c k d →
        let key := c * 2048 + k
        ((s.cordOn c = false ∨ (u, key) ∉ s.act.tin) → ∃ t, exec (.actOpComplete b) s = .next t ∧ busy t ∧
          t.core = s.core ∧ t.fget F.ACT_TIN_UNASSIGNED_COUNT = min (2 ^ 32 - 1) (s.fget F.ACT_TIN_UNASSIGNED_COUNT + 1)) ∧
        (s.cordOn c = true → (u, key) ∈ s.act.tin → k < 2048 → s.core.started = true →
          s.bit (F.CRD_STAT_REGION_LOAD c) = false → SMap.find s.core.windows (s.closing * 2 ^ 18 + key) = none →
          ∃ t, exec (.actOpComplete b) s = .next t ∧ busy t ∧
            SMap.find t.core.windows (s.closing * 2 ^ 18 + key) = some ⟨d, s.lineTime.toNat, (0x30 + u) * 64⟩)) ∧
      (∀ g h, o = .flag g h → g < 4096 → h < 32 → ∃ t, exec (.actOpComplete b) s = .next t ∧ busy t ∧
        t.flags g = (s.flags g ||| (BitVec.ofNat 32 (2 ^ h) &&& ~~~s.queueFlags g)) ∧ t.mem = s.mem) ∧
      ∀ i, o = .soft i → ∃ t, exec (.actOpComplete b) s = .next t ∧ busy t ∧ t.mem = s.mem ∧
        t.trig.pulse = s.trig.pulse ||| BitVec.ofNat 256 (2 ^ (248 + i)))

/-- The ready flows, those with a masked flag that are not in service, are listed by priority, highest first. DISPATCH without a
running dispatcher or without a ready flow changes nothing; where the first ready flow has a free unit on that die (and its
item can be read), the unit becomes busy with the flow at the node that ENTRY gives for the lowest masked flag: of a flag that
no queue drives the flag is cleared and V0 and V1 are 0, of a queue flag they hold the queue's head item, which is popped,
with the flag kept exactly while items are left; V2 to V9 come from the context, V10 to V15 are 0, and no other unit changes
its registers. AFFINITY_WAIT_EXPIRY of a flow that does not wait changes nothing; else the wait ends, and a ready flow goes to
another free unit if there is one. ACT_FL_SET sets the named flags that no queue drives. DELAY_TICK counts a tick; in Run and
Idle the entries that expire leave the list and set their flags, in Sleep they stay. (R255, R256, R257, R258, R264, R266) -/
def Obligations.ActFlows : Prop :=
  (∀ s : State, (s.readyFlows.Pairwise fun f g => s.fget (F.ACT_FL_STAT_PRIO g) ≤ s.fget (F.ACT_FL_STAT_PRIO f)) ∧
    ∀ f, f ∈ s.readyFlows → f < 4096 ∧ (s.flags f &&& s.reg (R.ACT_FL_MASK f)) ≠ 0 ∧
      s.bit (F.ACT_FL_STAT_IN_SERVICE f) = false) ∧
  (∀ (die : Bool) (s : State), s.dispatchOn = false ∨ s.readyFlows = [] → exec (.dispatch die) s = .next s) ∧
  (∀ (die : Bool) (s : State) (f u g : Nat) (fs : List Nat),
    s.dispatchOn = true → s.readyFlows = f :: fs → s.choose f = .unit u → unitDie u = die.toNat → s.itemWaits f = false →
    (let v := s.flags f &&& s.reg (R.ACT_FL_MASK f)
     v.getLsbD g = true ∧ ∀ j, j < g → v.getLsbD j = false) →
    ∃ t, exec (.dispatch die) s = .next t ∧ t.bit (F.ACT_UNIT_BUSY u) = true ∧ t.fget (F.ACT_UNIT_FLOW u) = f ∧
      t.fget (F.ACT_UNIT_NODE u) = (s.actFlow f).entry.getD g 0 % 64 ∧ t.bit (F.ACT_FL_STAT_IN_SERVICE f) = true ∧
      t.bit (F.ACT_FL_STAT_WAIT_AFF f) = false ∧ t.fget (F.ACT_FL_STAT_LAST_UNIT f) = u ∧
      (t.actUnit u).nodes = 0 ∧ (t.actUnit u).wait = none ∧ (t.actUnit u).ended = false ∧ (t.actUnit u).ops = [] ∧
      (t.actUnit u).v.drop 2 = ((s.actFlow f).v ++ List.replicate 8 0).take 8 ++ List.replicate 6 0 ∧
      (∀ w, w ≠ u → (t.actUnit w).v = (s.actUnit w).v ∧ (t.actUnit w).ops = (s.actUnit w).ops) ∧ t.mem = s.mem ∧
      (s.queueOf f g = none → (t.actUnit u).v.take 2 = [0, 0] ∧
        ((s.queueFlags f).getLsbD g = false → (t.flags f).getLsbD g = false)) ∧
      ∀ q, s.queueOf f g = some q → q < 16384 → s.actMem (s.itemAddr q (s.queueHead q)) false = .granted →
        (let i := s.rdWord (s.itemAddr q (s.queueHead q))
         (t.actUnit u).v.take 2 = [i.setWidth 64, (i >>> 64).setWidth 64]) ∧
        t.queueHead q = s.queueHead q + 1 ∧
        t.fget (F.ACT_Q_STAT_LEVEL q) = s.fget (F.ACT_Q_STAT_LEVEL q) - 1 ∧
        (t.flags f).getLsbD g = decide (s.fget (F.ACT_Q_STAT_LEVEL q) - 1 ≠ 0)) ∧
  (∀ (c : BitVec 12) (s : State), let f := c.toNat
    (s.bit (F.ACT_FL_STAT_WAIT_AFF f) = false ∨ s.dispatchOn = false → exec (.affinityWaitExpiry c) s = .next s) ∧
    (s.bit (F.ACT_FL_STAT_WAIT_AFF f) = true → s.dispatchOn = true →
      (s.flowReady f = false → ∃ t, exec (.affinityWaitExpiry c) s = .next t ∧ (t.actFlow f).tired = true ∧
        t.bit (F.ACT_FL_STAT_WAIT_AFF f) = false ∧ s.wordsBut t [R.ACT_FL_STAT f] ∧ t.act.units = s.act.units) ∧
      (∀ u, s.flowReady f = true → s.itemWaits f = false → (s.actFlow f).served = true →
        s.unitFree (s.fget (F.ACT_FL_STAT_LAST_UNIT f)) = false →
        s.freeUnit (unitDie (s.fget (F.ACT_FL_STAT_LAST_UNIT f))) = some u →
        ∃ t, exec (.affinityWaitExpiry c) s = .next t ∧ t.bit (F.ACT_UNIT_BUSY u) = true ∧
          t.fget (F.ACT_UNIT_FLOW u) = f ∧ t.bit (F.ACT_FL_STAT_WAIT_AFF f) = false ∧
          t.bit (F.ACT_FL_STAT_IN_SERVICE f) = true))) ∧
  (∀ (c : BitVec 12) (v : W32) (s : State), let f := c.toNat
    s.hostRuns (R.ACT_FL_SET f) = true → ∃ t, exec (.actFlSet c v) s = .next t ∧
      t.flags f = (s.flags f ||| (v &&& ~~~s.queueFlags f)) ∧ s.onlyWords t [R.ACT_FL_FLAGS f]) ∧
  ∀ (c : BitVec 2) (s : State), let d := c.toNat
    (s.image.committed = false → exec (.delayTick c) s = .next s) ∧
    (s.image.committed = true → ∃ t, exec (.delayTick c) s = .next t ∧ t.tickNow d = s.tickNow d + 1 ∧
      t.fget (F.ACT_DL_NOW_NOW d) = (s.tickNow d + 1) % 2 ^ 32 ∧ t.mem = s.mem ∧ t.act.units = s.act.units ∧
      (2 ≤ s.fget F.PWR_STAT_STATE → t.delays d = s.delays d ∧ s.wordsBut t [R.ACT_DL_NOW d]) ∧
      (s.fget F.PWR_STAT_STATE < 2 →
        t.delays d = (s.delays d).filter (fun i => decide (s.tickNow d + 1 < i.at_)) ∧
        ∀ i ∈ s.delays d, i.at_ ≤ s.tickNow d + 1 → i.flow < 4096 → i.flag < 32 →
          (s.queueFlags i.flow).getLsbD i.flag = false → (t.flags i.flow).getLsbD i.flag = true))

/-- QUEUE_POST of a reserved master ID, or of the fabric while no fabric with a post port runs, changes nothing. Any other on a
STANDBY is discarded and counted; to a disabled queue it is discarded and counted; to a full queue nothing is written and the
refusal is counted, but for the fabric's ports, which wait; the trigger's sets POST_REFUSED, an assertion event's counts as
dropped. An accepted post writes the 16 bytes of its item at the ring's tail, where the plane may write there, and no other
byte, LEVEL goes up by one and the queue's flag is 1. The host's post takes the item from the words written (a lower word
written since the last post, or the stored one), shows the outcome (0 accepted, 1 FULL, 2 BAD_QUEUE) in STATUS and sets DONE.
(R251, R252, R253, R254, R267, R300) -/
def Obligations.ActQueues : Prop :=
  (∀ (m : MasterId) (c : BitVec 14) (item : W128) (s : State),
    masterOk m = false ∨ (m = 0x72 ∧ s.fabricPosts = false) → exec (.queuePost m c item) s = .next s) ∧
  (∀ (m : MasterId) (c : BitVec 14) (item : W128) (s : State), let q := c.toNat
    masterOk m = true → (m = 0x72 → s.fabricPosts = true) →
    let full := 2 ^ s.fget (F.ACT_Q_CFG_K q) ≤ s.fget (F.ACT_Q_STAT_LEVEL q)
    (s.standby = true → ∃ t, exec (.queuePost m c item) s = .next t ∧
      t.fget F.SPL_ACT_DISC_COUNT = min (2 ^ 32 - 1) (s.fget F.SPL_ACT_DISC_COUNT + 1) ∧ s.onlyWords t [R.SPL_ACT_DISC]) ∧
    (s.standby = false → s.bit (F.ACT_Q_CFG_EN q) = false → ∃ t, exec (.queuePost m c item) s = .next t ∧
      t.fget F.ACT_BADQ_COUNT = min (2 ^ 32 - 1) (s.fget F.ACT_BADQ_COUNT + 1) ∧ s.onlyWords t [R.ACT_BADQ]) ∧
    (s.standby = false → s.bit (F.ACT_Q_CFG_EN q) = true → full →
      ∃ t, exec (.queuePost m c item) s = .next t ∧ s.onlyWords t [R.ACT_Q_REFUSED q, R.TRG_STAT, R.ACT_AE_DROP] ∧
        t.fget (F.ACT_Q_REFUSED_COUNT q) = min (2 ^ 32 - 1) (s.fget (F.ACT_Q_REFUSED_COUNT q) + (if m = 0x72 then 0 else 1)) ∧
        (m = 0x71 → t.bit F.TRG_STAT_POST_REFUSED = true) ∧ (m ≠ 0x71 → t.reg R.TRG_STAT = s.reg R.TRG_STAT) ∧
        t.fget F.ACT_AE_DROP_COUNT = min (2 ^ 32 - 1) (s.fget F.ACT_AE_DROP_COUNT + (if 0x80 ≤ m.toNat then 1 else 0))) ∧
    (s.standby = false → s.bit (F.ACT_Q_CFG_EN q) = true → ¬ full → s.fget (F.ACT_Q_CFG_K q) ≤ 12 →
      let a := s.fget (F.ACT_Q_BASE_BASE q) +
        16 * ((s.queueHead q + s.fget (F.ACT_Q_STAT_LEVEL q)) % 2 ^ s.fget (F.ACT_Q_CFG_K q))
      ∃ t, exec (.queuePost m c item) s = .next t ∧
        t.fget (F.ACT_Q_STAT_LEVEL q) = s.fget (F.ACT_Q_STAT_LEVEL q) + 1 ∧
        (t.flags (s.fget (F.ACT_Q_CFG_FLOW q))).getLsbD (s.fget (F.ACT_Q_CFG_FLAG q)) = true ∧
        (s.actMem a true = .granted → t.rdBytes a 16 = leBytes 16 item.toNat ∧
          (∀ x, x < a ∨ a + 16 ≤ x → t.rdByte x = s.rdByte x) ∧
          s.wordsBut t [R.ACT_Q_STAT q, R.ACT_FL_FLAGS (s.fget (F.ACT_Q_CFG_FLOW q))]))) ∧
  ∀ (w3 : W32) (s : State), s.hostRuns (R.ACT_HPOST_ITEM + 12) = true →
    let word := fun a => match SMap.find s.staged a with | some v => v | none => s.reg a
    let item : W128 := w3 ++ word (R.ACT_HPOST_ITEM + 8) ++ word (R.ACT_HPOST_ITEM + 4) ++ word R.ACT_HPOST_ITEM
    let q := s.fget F.ACT_HPOST_Q_QUEUE
    ∃ t, exec (.hpost w3) s = .next t ∧ t.wget W.ACT_HPOST_ITEM_ITEM = item.toNat ∧ t.bit F.ACT_HPOST_STAT_DONE = true ∧
      t.mem = (s.queuePost 0 q item).1.mem ∧
      t.fget F.ACT_HPOST_STAT_STATUS = (if s.standby then 0 else if s.bit (F.ACT_Q_CFG_EN q) = false then 2
        else if 2 ^ s.fget (F.ACT_Q_CFG_K q) ≤ s.fget (F.ACT_Q_STAT_LEVEL q) then 1 else 0) ∧
      (SMap.find t.staged R.ACT_HPOST_ITEM = none ∧ SMap.find t.staged (R.ACT_HPOST_ITEM + 4) = none ∧
        SMap.find t.staged (R.ACT_HPOST_ITEM + 8) = none)

/-- POR_N or WARM_N at the level it has changes nothing. At its assertion, and at a brownout outside Off, every register but those
of the persistent store goes to its reset value (DEBUG_SEEN only by POR_N and brownout), the persistent ones keep theirs with
FAULT_RESET 0, and no image, memory contents, strand state or pending report is left (memory contents: the model's reading,
log entry 35); the fuses stay, POR_N and brownout are counted for the hourly write, and POR_N out of Off as a power cycle (the
model's choice, log entry 70). At release fuse words 45 and 46 are latched and nothing else changes. In Off WARM_N sets its
level alone and a brownout changes nothing. (R14, R307, R320, R323, R375, R378, R386, R387, R400, R403, R413) -/
def Obligations.Resets : Prop :=
  let fresh := fun (s t : State) (por : Bool) =>
    (∀ a, persisted a = false → a ≠ F.SEC_STAT_DEBUG_SEEN.addr → t.reg a = RegMap.resetWord a) ∧
    (∀ a, persisted a = true → a ≠ R.FLT_RST_CAUSE → t.reg a = s.reg a) ∧
    t.bit F.FLT_RST_CAUSE_FAULT_RESET = false ∧ t.fget F.FLT_RST_CAUSE_CODE = s.fget F.FLT_RST_CAUSE_CODE ∧
    t.bit F.SEC_STAT_DEBUG_SEEN = (s.bit F.SEC_STAT_DEBUG_SEEN && !por) ∧
    t.mem = [] ∧ t.image = {} ∧ t.strands = [] ∧ t.instrs = [] ∧ t.reports = [] ∧ t.part = s.part ∧
    t.store.fuses = s.store.fuses ∧ t.store.boardId = s.store.boardId ∧
    t.store.resets = s.store.resets + (if por then 1 else 0)
  (∀ s : State, exec (.porN s.por) s = .next s ∧ exec (.warmN s.warm) s = .next s) ∧
  (∀ s : State, s.por = false → ∃ t, exec (.porN true) s = .next t ∧ t.por = true ∧ t.warm = s.warm ∧ fresh s t true ∧
    t.store.cycles = s.store.cycles + (if s.fget F.PWR_STAT_STATE = 4 then 1 else 0)) ∧
  (∀ s : State, s.warm = false → s.fget F.PWR_STAT_STATE ≠ 4 → ∃ t, exec (.warmN true) s = .next t ∧ t.warm = true ∧ t.por = s.por ∧ fresh s t false ∧
    t.store.cycles = s.store.cycles) ∧
  (∀ (b : Bool) (s : State), s.fget F.PWR_STAT_STATE = 4 → exec (.warmN b) s = .next { s with warm := b }) ∧
  (∀ s : State, s.por = true → exec (.porN false) s =
    .next { s with por := false, sec := { s.sec with ids := (s.fuse 45, s.fuse 46) } }) ∧
  (∀ s : State, s.warm = true → s.fget F.PWR_STAT_STATE ≠ 4 → exec (.warmN false) s =
    .next { s with warm := false, sec := { s.sec with ids := (s.fuse 45, s.fuse 46) } }) ∧
  (∀ s : State, s.fget F.PWR_STAT_STATE = 4 → exec .brownout s = .next s) ∧
  ∀ s : State, s.fget F.PWR_STAT_STATE ≠ 4 → ∃ t, exec .brownout s = .next t ∧ t.por = s.por ∧ t.warm = s.warm ∧
    fresh s t true ∧ t.sec.ids = (s.fuse 45, s.fuse 46)

/-- BOOT_LOAD when no boot load waits for it changes nothing. With no directory, or a wrong MAGIC, the device waits for a cast on
the chain; with no BOOT entry left it shows REFUSED; otherwise it takes the next BOOT entry in order: an entry whose header
checks and pass 1 pass is being loaded, another is refused with the first code, and the next BOOT entry, if any, remains;
headers without bytes stand for an entry still being read, whose number shows (the model's, log entry 51). After a host's
CFG_LOAD the entry it named is taken so, and one that is not VALID or is partial is refused as no cast. A host's CFG_LOAD that
reaches its register, in whatever load (log entry 76), takes the device to the load-time state: no image, strands, channels,
bights or action plane state, every lane disabled, no session key or cast key held; memory is kept (log entry 74). CHAIN_IN is
taken only while the device waits for it. NVM_ERROR refuses a load from NVM with NVM_ERROR, at its section and frame or before
any; while an entry's headers or the directory are read it refuses that attempt, and a partial image being verified.
CHAIN_FAIL refuses a load from the chain, also while its headers arrive, and else changes nothing. FWD_FAIL while forwarding
waits for CHAIN_RDY_N shows it and stops forwarding. CHAIN_RDY_N pauses forwarding while it is high; at a rise of the pin
forwarding may have ended, a free value (log entry 113). (R268, R269, R279, R280, R282, R284, R287, R288, R292, R400) -/
def Obligations.LoadStart : Prop :=
  (∀ (d : Option Bytes) (h : CastHdr) (s : State), s.wantsDir = false → exec (.bootLoad d h) s = .next s) ∧
  (∀ (h : CastHdr) (s : State), s.wantsDir = true → s.load.dir = none →
    exec (.bootLoad none h) s = .next (s.fset F.CFG_STAT_STATE 7)) ∧
  (∀ (d : Option Bytes) (h : CastHdr) (s : State) (b : Bytes), s.wantsDir = true →
    s.load.dir = some b ∨ (s.load.dir = none ∧ d = some b) →
    let checks := firstRefusal [s.headerChecks h false, s.passOne h]
    let opened := fun (t : State) (i : Nat) => t.fget F.CFG_STAT_STATE = 1 ∧ t.fget F.CFG_STAT_ENTRY = i % 64 ∧
      t.fget F.CFG_STAT_SOURCE = 0 ∧ t.load.on = true ∧ t.load.hdr = h ∧ t.load.next = i + 1 ∧ t.load.dir = some b ∧
      t.bit F.CFG_CHAIN_FORWARDING = false ∧ t.sec.sk = none ∧ t.mem = s.mem
    let refused := fun (t : State) (i c : Nat) => t.fget F.CFG_STAT_ENTRY = i % 64 ∧ t.fget F.CFG_REFUSE_CODE = c % 256 ∧
      t.fget F.CFG_REFUSE_SECTION = 0xFF ∧ t.fget F.CFG_REFUSE_FRAME_FRAME = 0xFFFFFFFF ∧ t.load.on = false ∧ t.mem = s.mem
    (num b 0 4 ≠ 0x52445941 → exec (.bootLoad d h) s = .next (s.fset F.CFG_STAT_STATE 7)) ∧
    (num b 0 4 = 0x52445941 → s.load.chain = false → s.load.part = false →
      (s.load.single = false →
        (nextBoot b s.load.next = none → ∃ t, exec (.bootLoad d h) s = .next t ∧ t.fget F.CFG_STAT_STATE = 6 ∧
          t.load = s.load ∧ s.wordsBut t [R.CFG_STAT, R.HST_EVT]) ∧
        ∀ i, nextBoot b s.load.next = some i →
          (h.outer.isEmpty = true → ∃ t, exec (.bootLoad d h) s = .next t ∧ t.fget F.CFG_STAT_STATE = 1 ∧
            t.fget F.CFG_STAT_ENTRY = i % 64 ∧ t.load = { s.load with dir := some b } ∧ t.sec.sk = none ∧
            s.wordsBut t [R.CFG_STAT]) ∧
          (h.outer.isEmpty = false → checks = none → ∃ t, exec (.bootLoad d h) s = .next t ∧ opened t i) ∧
          (∀ c, h.outer.isEmpty = false → checks = some c → ∃ t, exec (.bootLoad d h) s = .next t ∧ refused t i c ∧
            t.load.next = i + 1 ∧ t.load.dir = some b ∧
            t.fget F.CFG_STAT_STATE = (if (nextBoot b (i + 1)).isSome then 1 else 6))) ∧
      (s.load.single = true →
        let i := s.fget F.CFG_CTL_LOAD_SEL
        let entry := i < num b 6 2 ∧ dirFlags b i % 2 = 1 ∧ (dirFlags b i).testBit 2 = false
        (¬ entry → ∃ t, exec (.bootLoad d h) s = .next t ∧ refused t i 0x01 ∧ t.fget F.CFG_STAT_STATE = 6) ∧
        (entry → h.outer.isEmpty = true → ∃ t, exec (.bootLoad d h) s = .next t ∧ t.fget F.CFG_STAT_STATE = 1 ∧
          t.fget F.CFG_STAT_ENTRY = i % 64 ∧ t.load = { s.load with dir := some b } ∧ t.sec.sk = none ∧
          s.wordsBut t [R.CFG_STAT]) ∧
        (entry → h.outer.isEmpty = false → checks = none → ∃ t, exec (.bootLoad d h) s = .next t ∧ opened t i) ∧
        ∀ c, entry → h.outer.isEmpty = false → checks = some c → ∃ t, exec (.bootLoad d h) s = .next t ∧ refused t i c ∧
          t.fget F.CFG_STAT_STATE = 6))) ∧
  (∀ (b : Bytes) (k i : Nat), nextBoot b k = some i → k ≤ i ∧ i < 64 ∧ i < num b 6 2 ∧ dirFlags b i % 8 = 3 ∧
    ∀ j, k ≤ j → j < i → dirFlags b j % 8 ≠ 3) ∧
  (∀ (e : BitVec 6) (s : State), s.hostRuns R.CFG_CTL = true →
    ∃ t, exec (.cfgLoad e) s = .next t ∧ t.fget F.CFG_STAT_STATE = 1 ∧ t.fget F.CFG_STAT_ENTRY = e.toNat ∧
      t.fget F.CFG_CTL_LOAD_SEL = e.toNat ∧ t.load = { rdyN := s.load.rdyN, on := true, single := true, start := s.reg R.HST_ALIVE } ∧
      t.bit F.CFG_CHAIN_FORWARDING = false ∧ t.sec.sk = none ∧ t.sec.castKey = none ∧
      t.image = {} ∧ t.strands = [] ∧ t.ports = [] ∧ t.caps = [] ∧ t.pats = [] ∧ t.act = {} ∧ t.edge = {} ∧ t.core = {} ∧
      t.ring.bights = [] ∧ t.splice = {} ∧ t.mem = s.mem ∧ t.instrs = s.instrs ∧ t.reports = s.reports ∧
      t.bit F.EDG_STAT_RESET_HELD = true ∧ t.bit F.ACT_STAT_RUNNING = false ∧
      (∀ n, n < 192 → t.fget (F.PIN_CFG_FUNC_ACT n) = 7) ∧
      ∀ n, n < 1056 → t.bit (F.LANE_CTL_EN n) = false ∧ (t.lane n).tx = none) ∧
  (∀ (h : CastHdr) (s : State), s.fget F.CFG_STAT_STATE ≠ 7 ∨ s.inReset = true → exec (.chainIn h) s = .next s) ∧
  (∀ (h : CastHdr) (s : State), s.fget F.CFG_STAT_STATE = 7 → s.inReset = false → s.load.part = false →
    (firstRefusal [s.headerChecks h false, s.passOne h] = none → ∃ t, exec (.chainIn h) s = .next t ∧
      t.fget F.CFG_STAT_STATE = 1 ∧ t.fget F.CFG_STAT_SOURCE = 1 ∧ t.bit F.CFG_CHAIN_IN_ACTIVE = true ∧ t.sec.sk = none ∧
      t.load = { s.load with chain := true, single := false, dir := none, on := true, hdr := h }) ∧
    ∀ c, firstRefusal [s.headerChecks h false, s.passOne h] = some c → ∃ t, exec (.chainIn h) s = .next t ∧
      t.fget F.CFG_REFUSE_CODE = c % 256 ∧ t.fget F.CFG_STAT_STATE = 6 ∧ t.bit F.CFG_CHAIN_IN_ACTIVE = false ∧
      t.load.on = false) ∧
  (∀ s : State, s.load.on = true →
    let shown := fun (t : State) (c : Nat) =>
      if s.reading then s.refusedWith t c s.load.sec s.load.frame else s.refusedWith t c 0xFF 0xFFFFFFFF
    (s.load.chain = false → s.reading = true ∨ s.load.hdr.outer.isEmpty = true →
      ∃ t, exec .nvmError s = .next t ∧ shown t 0x08) ∧
    (s.load.chain = false → s.reading = false → s.load.hdr.outer.isEmpty = false → exec .nvmError s = .next s) ∧
    (s.load.chain = true → ∃ t, exec .chainFail s = .next t ∧ shown t 0x0B)) ∧
  (∀ s : State, s.load.on = false →
    (s.fget F.CFG_PART_STAT_STATE = 1 → ∃ t, exec .nvmError s = .next t ∧
      ({ s with load := { s.load with part := true } }).refusedWith t 0x08 0xFF 0xFFFFFFFF) ∧
    (s.fget F.CFG_PART_STAT_STATE ≠ 1 →
      (s.wantsDir = false → exec .nvmError s = .next s) ∧
      (s.wantsDir = true → s.load.dir = none → ∃ t, exec .nvmError s = .next t ∧ s.refusedWith t 0x08 0xFF 0xFFFFFFFF) ∧
      ∀ b i, s.wantsDir = true → s.load.part = false → s.load.dir = some b → nextBoot b s.load.next = some i → ∃ t, exec .nvmError s = .next t ∧
        t.load.next = i + 1 ∧ ({ s with load := { s.load with next := i + 1 } }).refusedWith t 0x08 0xFF 0xFFFFFFFF)) ∧
  (∀ s : State, s.load.on = false ∨ s.load.chain = false →
    (s.fget F.CFG_STAT_STATE ≠ 7 ∨ s.inReset = true → exec .chainFail s = .next s) ∧
    (s.fget F.CFG_STAT_STATE = 7 → s.inReset = false → s.load.part = false → ∃ t, exec .chainFail s = .next t ∧
      t.fget F.CFG_REFUSE_CODE = 0x0B ∧ t.fget F.CFG_REFUSE_SECTION = 0xFF ∧ t.fget F.CFG_STAT_STATE = 6 ∧
      t.fget F.CFG_STAT_SOURCE = 1 ∧ t.load.on = false ∧ t.mem = s.mem)) ∧
  (∀ s : State, (s.load.fwd = true → s.load.rdyN = true → ∃ t, exec .fwdFail s = .next t ∧ t.bit F.CFG_CHAIN_FWD_FAIL = true ∧
      t.bit F.CFG_CHAIN_FORWARDING = false ∧ t.bit F.CFG_CHAIN_IN_ACTIVE = false ∧ t.load = { s.load with fwd := false } ∧
      s.wordsBut t [R.CFG_CHAIN]) ∧
    (s.load.fwd = false ∨ s.load.rdyN = false → exec .fwdFail s = .next s)) ∧
  ∀ (level : Bool) (s : State),
    (s.load.fwd = false → exec (.chainRdyN level) s = .next { s with load := { s.load with rdyN := level } }) ∧
    (s.load.fwd = true → ∃ t, exec (.chainRdyN level) s = .next t ∧ s.wordsBut t [R.CFG_CHAIN] ∧
      (let rise := level && !s.load.rdyN
       t.free = s.free + rise.toNat ∧ t.load = { s.load with rdyN := level, fwd := !(rise && s.freeBits 1 == 1) }) ∧
      t.bit F.CFG_CHAIN_FORWARDING = (t.load.fwd && !level) ∧
      t.bit F.CFG_CHAIN_IN_ACTIVE = (t.load.fwd && s.bit F.CFG_CHAIN_IN_ACTIVE))

/-- Outside the reading of a section RECS, DICT, FRAME_WRITE, REPL, ZERO_FRAMES and SECTION_END change nothing. Data is decrypted
as it is read. RECS joins records that pass their checks to the section and refuses others at the first bad entry (of a
section held for REGION, at REGION: log entry 71); in a frame section it is refused. DICT stores an entry below 2,048 of a
frame section, in banks 0 and 1 for a full cast (of a partial image in the loader: the model's reading, log entry 73), and is
refused otherwise. FRAME_WRITE of a cord memory frame stores its 4,096 bytes there and no other; of a scratch or DRAM frame
that has its place, at 4,096 times its address, a full cast's in banks 0 and 1 at its commit; of instruction words that pass,
in the instruction store (0 as an empty step); a refused frame and a section without frames are refused at the frame. REPL of
an entry never stored is refused; over a cord memory frame it stores the entry there. ZERO_FRAMES over a cord's frames leaves
all their bytes 0. SECTION_END with a wrong digest or a failing check refuses the load; otherwise the section is kept and the
load moves on: after SCRIPT to its PRE entries or the sections, after REGION with the held sections applied, after the last
section to the script's end or, of a partial image, to the release. A refusal shows its code, section and frame and ends the
load with memory as it was. (R146, R273, R274, R275, R276, R277, R279, R280, R282, R283) -/
def Obligations.LoadSections : Prop :=
  (∀ (s : State) (i : BitVec 16) (a k st : W32) (b : Bytes), s.reading = false →
    exec (.recs b) s = .next s ∧ exec (.dict i b) s = .next s ∧ exec (.frameWrite a b) s = .next s ∧
    exec (.repl i a k st) s = .next s ∧ exec (.zeroFrames a k) s = .next s ∧ exec (.sectionEnd b) s = .next s) ∧
  (∀ (s : State) (b : Bytes), s.reading = true →
    (frameType s.secType = true → ∃ t, exec (.recs b) s = .next t ∧ s.refusedHere t 0x02 s.load.frame) ∧
    (frameType s.secType = false →
      let all := s.load.recs ++ s.payload b
      let past := { s.load with recs := all, at_ := s.load.at_ + 16 + (b.length + 15) / 16 * 16 }
      let checks := firstRefusal [s.entryChecks s.secType all, s.slotEscape all]
      (checks = none → exec (.recs b) s = .next { s with load := past }) ∧
      ∀ c i, checks = some (c, i) →
        (s.waitsForRegion = false → ∃ t, exec (.recs b) s = .next t ∧ s.refusedHere t c i) ∧
        (s.waitsForRegion = true → exec (.recs b) s =
          .next { s with load := { past with bad := earlier s.load.bad (some (c, s.load.sec, i)) } }))) ∧
  (∀ (s : State) (i : BitVec 16) (b : Bytes), s.reading = true →
    (frameType s.secType = true → i.toNat < 2048 → ∃ t, exec (.dict i b) s = .next t ∧
      t.dictFrame i.toNat = some (wholeFrame (s.payload b)) ∧ t.regs = s.regs ∧
      (∀ j, j ≠ i.toNat → SMap.find t.load.dict j = SMap.find s.load.dict j) ∧ (s.load.part = true → t.mem = s.mem) ∧
      ∀ x, x < dictAddr i.toNat ∨ dictAddr i.toNat + 4096 ≤ x → t.rdByte x = s.rdByte x) ∧
    (frameType s.secType = false ∨ 2048 ≤ i.toNat → ∃ t, exec (.dict i b) s = .next t ∧
      s.refusedHere t 0x02 s.load.frame)) ∧
  (∀ (s : State) (b : Bytes) (c k : Nat), s.reading = true → s.secType = 0x0A → c < (hDecl s.load.hdr).nCords → k < 64 →
    s.cordIn c = true →
    ∃ t, exec (.frameWrite (BitVec.ofNat 32 (2 ^ 31 + 64 * c + k)) b) s = .next t ∧ t.load.frame = s.load.frame + 1 ∧
      t.regs = s.regs ∧ t.rdBytes (cordMemAddr c (4096 * k)) 4096 = wholeFrame (s.payload b) ∧
      ∀ x, x < cordMemAddr c (4096 * k) ∨ cordMemAddr c (4096 * k) + 4096 ≤ x → t.rdByte x = s.rdByte x) ∧
  (∀ (s : State) (b : Bytes) (a : W32), s.reading = true → s.secType = 0x0A → a.toNat < 2 ^ 31 →
    (s.initPlace (a.toNat * 4096) = true → ∃ t, exec (.frameWrite a b) s = .next t ∧ t.load.frame = s.load.frame + 1 ∧
      SMap.find t.load.frames (0x0A * 2 ^ 32 + a.toNat) = some (wholeFrame (s.payload b)) ∧
      (inDictBanks (a.toNat * 4096) = true → s.load.part = false → t.mem = s.mem) ∧
      (inDictBanks (a.toNat * 4096) = false ∨ s.load.part = true →
        t.rdBytes (a.toNat * 4096) 4096 = wholeFrame (s.payload b) ∧
        ∀ x, x < a.toNat * 4096 ∨ a.toNat * 4096 + 4096 ≤ x → t.rdByte x = s.rdByte x)) ∧
    (s.initPlace (a.toNat * 4096) = false → s.load.part = false → ∃ t, exec (.frameWrite a b) s = .next t ∧
      s.refusedHere t 0x02 s.load.frame)) ∧
  (∀ (s : State) (b : Bytes) (a : W32), s.reading = true → s.secType = 9 →
    (∀ c, s.scheduleFrame a.toNat (wholeFrame (s.payload b)) = .error c → ∃ t, exec (.frameWrite a b) s = .next t ∧
      s.refusedHere t c s.load.frame) ∧
    ∀ c j k ws, a.toNat = 2 ^ 13 * c + 8 * j + k → c < (hDecl s.load.hdr).nCords → j < 1024 → k < 8 →
      512 * k < (hDecl s.load.hdr).l → s.cordIn c = true → (hDecl s.load.hdr).cords.getLsbD c = true →
      s.frameWords (hDecl s.load.hdr) s.loadNb (s.loadCopy c) (c * 1024 + j) (hGn32 s.load.hdr) (512 * k)
        ((List.range 512).map fun i =>
          BitVec.ofNat 64 (leNat (((wholeFrame (s.payload b)).drop (8 * i)).take 8))) = .ok ws →
      ∃ t, exec (.frameWrite a b) s = .next t ∧ t.load.frame = s.load.frame + 1 ∧ t.mem = s.mem ∧
        ∀ i w, ws[i]? = some w → SMap.find t.instrs ((c * 1024 + j) * 4096 + 512 * k + i) =
          (if w = 0 then none else some (storedWord w))) ∧
  (∀ (s : State) (b : Bytes) (a : W32), s.reading = true → frameType s.secType = false →
    ∃ t, exec (.frameWrite a b) s = .next t ∧ s.refusedHere t 0x02 s.load.frame) ∧
  (∀ (s : State) (i : BitVec 16) (a k st : W32), s.reading = true → s.dictFrame i.toNat = none →
    ∃ t, exec (.repl i a k st) s = .next t ∧ s.refusedHere t 0x02 s.load.frame) ∧
  (∀ (s : State) (i : BitVec 16) (st : W32) (f : Bytes) (c k : Nat), s.reading = true → s.secType = 0x0A →
    c < (hDecl s.load.hdr).nCords → k < 64 → s.cordIn c = true → s.dictFrame i.toNat = some f → f.length = 4096 →
    ∃ t, exec (.repl i (BitVec.ofNat 32 (2 ^ 31 + 64 * c + k)) 1 st) s = .next t ∧ t.load.frame = s.load.frame + 1 ∧
      t.regs = s.regs ∧ t.rdBytes (cordMemAddr c (4096 * k)) 4096 = f ∧
      ∀ x, x < cordMemAddr c (4096 * k) ∨ cordMemAddr c (4096 * k) + 4096 ≤ x → t.rdByte x = s.rdByte x) ∧
  (∀ (s : State) (c k n : Nat), s.reading = true → s.secType = 0x0A → c < (hDecl s.load.hdr).nCords → k + n ≤ 64 →
    s.cordIn c = true →
    ∃ t, exec (.zeroFrames (BitVec.ofNat 32 (2 ^ 31 + 64 * c + k)) (BitVec.ofNat 32 n)) s = .next t ∧
      t.load.frame = s.load.frame + n ∧ t.regs = s.regs ∧
      (∀ x, cordMemAddr c (4096 * k) ≤ x → x < cordMemAddr c (4096 * k) + 4096 * n → t.rdByte x = 0) ∧
      ∀ x, x < cordMemAddr c (4096 * k) ∨ cordMemAddr c (4096 * k) + 4096 * n ≤ x → t.rdByte x = s.rdByte x) ∧
  ∀ (s : State) (b : Bytes), s.reading = true →
    let right := (Config.sm3 b).toNat = hDigest s.load.hdr s.load.sec
    let bad := earlier s.load.bad s.wholeChecks
    let more := s.load.sec + 1 < hNsec s.load.hdr
    let kept := fun (t : State) => t.load.sec = s.load.sec + 1 ∧ t.load.recs = [] ∧ t.load.frame = 0 ∧
      SMap.find t.load.held s.secType = some s.load.recs ∧ t.load.on = true ∧ t.image = s.image
    (¬ right → ∃ t, exec (.sectionEnd b) s = .next t ∧ s.refusedHere t 0x05 0xFFFFFFFF) ∧
    (∀ c sec i, right → s.waitsForRegion = false → bad = some (c, sec, i) → ∃ t, exec (.sectionEnd b) s = .next t ∧
      s.refusedWith t c sec i) ∧
    (right → s.waitsForRegion = true ∨ bad = none → s.load.part = false →
      (s.secType ≠ 1 → s.secType ≠ 8 → more →
        ∃ t, exec (.sectionEnd b) s = .next t ∧ t = { s with load := t.load } ∧ t.load.bad = bad ∧ kept t) ∧
      (s.secType = 1 → ∃ t, exec (.sectionEnd b) s = .next t ∧ kept t ∧ t.mem = s.mem ∧
        t.fget F.CFG_STAT_STATE = (if t.preNext then 2 else if more then 3 else 4)) ∧
      (s.secType = 8 → more → ∃ t, exec (.sectionEnd b) s = .next t ∧ kept t ∧ t.instrs = [] ∧ t.strands = []) ∧
      (s.secType ≠ 1 → s.secType ≠ 8 → ¬ more → ∃ t, exec (.sectionEnd b) s = .next t ∧ kept t ∧ t.mem = s.mem ∧
        t.fget F.CFG_STAT_STATE = 4)) ∧
    (right → bad = none → s.load.part = true →
      (more → 9 ≤ s.secType ∨ hType s.load.hdr (s.load.sec + 1) < 9 →
        ∃ t, exec (.sectionEnd b) s = .next t ∧ t = { s with load := t.load } ∧ kept t) ∧
      (¬ more → ∃ t, exec (.sectionEnd b) s = .next t ∧ kept t ∧ t.mem = s.mem ∧ t.fget F.CFG_PART_STAT_STATE = 3 ∧
        t.bit F.TURN_HOLD_SRC_PART = true))

/-- A script command when the script of a full load is not at an entry of its operation changes nothing. WRITE to the CFG_ or SEC_
block refuses the load with SCRIPT_FAIL at the entry; among the last entries, a WRITE with a full mask is the register write
of master 0x01 and the script goes on, and under another mask a plain register (a trigger counter's CMP) keeps the bits
outside the mask. WAIT goes on: to the next PRE entry, and after the last one to the sections. POLL goes on exactly when the
masked value matches; its timeout refuses the load. COMMIT of an image without line contention: turn 0, the turn unit's
settings as declared, under timebase lock T0 as the first time at least 10 us away that is PHASE modulo SPAN, under
anchor-lane lock T0 10 us after a lock that stands and else a hold until the lock, the declared cords in their first turn, the
fabric out of reset, every lane of the table enabled, dispatch running, OK_OUT valid, COMMITTED shown, the load over and
memory kept but for the banks of the dictionary. END after COMMIT ends the script. (R9, R23, R73, R181, R266, R280, R281,
R285) -/
def Obligations.ScriptAndCommit : Prop :=
  (∀ s : State,
    (s.scriptAt 0x01 = false → exec .scriptWrite s = .next s) ∧ (s.scriptAt 0x02 = false → exec .scriptWait s = .next s) ∧
    (s.scriptAt 0x03 = false → exec .scriptPoll s = .next s ∧ exec .scriptPollTimeout s = .next s) ∧
    (s.scriptAt 0x04 = false → exec .scriptCommit s = .next s)) ∧
  (∀ s : State, s.scriptAt 0x01 = true →
    let r := s.scriptEntry
    (0x50000 ≤ num r 4 4 → num r 4 4 < 0x70000 → ∃ t, exec .scriptWrite s = .next t ∧
      s.refusedWith t 0x09 (secIndex s.load.hdr 1) s.load.pc) ∧
    (∀ u : State, num r 12 4 = 0xFFFFFFFF → ¬(0x50000 ≤ num r 4 4 ∧ num r 4 4 < 0x70000) →
      exec (.registerWrite 1 (BitVec.ofNat 32 (num r 4 4)) (BitVec.ofNat 32 (num r 8 4)) 4) s = .next u →
      u.fget F.CFG_STAT_STATE = 4 → exec .scriptWrite s = .next { u with load := { u.load with pc := u.load.pc + 1 } }) ∧
    (∀ c, c < 64 → num r 4 4 = R.TRG_CNT_CMP c → s.observed = false → s.bit (F.PWR_DOM_ON 0) = true → s.fget F.CFG_STAT_STATE = 4 →
      ∃ t, exec .scriptWrite s = .next t ∧ t.load = { s.load with pc := s.load.pc + 1 } ∧ t.mem = s.mem ∧
        (let m : W32 := BitVec.ofNat 32 (num r 12 4)
         t.reg (R.TRG_CNT_CMP c) = ((s.reg (R.TRG_CNT_CMP c) &&& ~~~m) ||| (BitVec.ofNat 32 (num r 8 4) &&& m))) ∧
        s.wordsBut t [R.TRG_CNT_CMP c])) ∧
  (∀ s : State, s.scriptAt 0x02 = true → ∃ t, exec .scriptWait s = .next t ∧ t.load = { s.load with pc := s.load.pc + 1 } ∧
    s.wordsBut t [R.CFG_STAT] ∧
    (s.fget F.CFG_STAT_STATE = 4 → t.fget F.CFG_STAT_STATE = 4) ∧
    (s.fget F.CFG_STAT_STATE = 2 → t.fget F.CFG_STAT_STATE = (if t.preNext then 2
      else if s.load.sec < hNsec s.load.hdr then 3 else 4))) ∧
  (∀ (s : State) (c : Nat), s.scriptAt 0x03 = true → c < 64 → num s.scriptEntry 4 4 = R.TRG_CNT_CMP c →
    s.observed = false → s.bit (F.PWR_DOM_ON 0) = true → s.fget F.CFG_STAT_STATE = 4 →
    ∃ t, exec .scriptPoll s = .next t ∧ t.regs = s.regs ∧ t.mem = s.mem ∧
      t.load = { s.load with pc := s.load.pc +
        (if s.reg (R.TRG_CNT_CMP c) &&& BitVec.ofNat 32 (num s.scriptEntry 12 4) = BitVec.ofNat 32 (num s.scriptEntry 8 4)
         then 1 else 0) }) ∧
  (∀ s : State, s.scriptAt 0x03 = true → ∃ t, exec .scriptPollTimeout s = .next t ∧
    s.refusedWith t 0x09 (secIndex s.load.hdr 1) s.load.pc) ∧
  (∀ s : State, s.scriptAt 0x04 = true → contended s.edge.blocks = [] → num (s.section 0x0E) 2 1 = 0 →
    (∀ x ∈ settingsOf 0x0C (s.section 0x0C), settingInPlace x) →
    (∀ p ∈ s.regionCfg.uses, p.1 < 384) →
    let d := hDecl s.load.hdr
    ∃ t, exec .scriptCommit s = .next t ∧ t.image.committed = true ∧ t.image.cords = d.cords ∧ t.core.first = d.cords ∧
      t.core.phase = .slack ∧ t.load.on = false ∧ t.fget F.CFG_STAT_STATE = 5 ∧ t.bit F.ACT_STAT_RUNNING = true ∧
      t.bit F.EDG_STAT_RESET_HELD = false ∧ t.splice.okOut = 2 ∧ (∀ a, inDictBanks a = false → t.rdByte a = s.rdByte a) ∧ t.wget W.TURN_NUM_TURN = 0 ∧
      t.fget F.TURN_CFG_L = d.l % 2 ^ 13 ∧ t.fget F.TURN_CFG_E = d.e % 2 ^ 13 ∧ t.fget F.TURN_SPAN_VALUE = d.span % 2 ^ 32 ∧
      t.fget F.TURN_DOUT_VALUE = d.dout % 2 ^ 32 ∧
      t.bit F.TURN_HOLD_SRC_LOCK = (d.lock != 0 && !s.pcsLocked d.anchor) ∧
      (d.lock ≠ 0 → t.core.anchorT0 = if s.pcsLocked d.anchor then some (s.time.now + 655360000) else none) ∧
      (∀ g, (t.strand g).hist = 0 ∧ (t.strand g).inbox = []) ∧
      (∀ r ∈ records (s.section 2) 0 16, laneNo r < 1056 → t.bit (F.LANE_CTL_EN (laneNo r)) = true) ∧
      (d.lock = 0 → 0 < d.span → d.span < 2 ^ 32 → d.phase < 2 ^ 32 → s.time.now < 2 ^ 80 →
        let t0 := t.wget W.TURN_T0_T0
        s.time.now + 655360000 ≤ t0 ∧ t0 < s.time.now + 655360000 + d.span ∧ t0 % d.span = d.phase % d.span)) ∧
  ∀ s : State, (s.load.on = false → s.load.pc ≠ 0 → exec .scriptEnd s = .next { s with load := { s.load with pc := 0 } }) ∧
    (s.load.on = true ∨ s.load.pc = 0 → exec .scriptEnd s = .next s)

/-- PART_GO that reaches its register without a committed image is discarded (the model's reading, log entry 56); during VERIFY or
LOADING it sets BUSY_REFUSED, during RELEASING PENDING_ENABLE, and otherwise VERIFY begins. HOLD in IDLE names its region,
which then waits; elsewhere it changes nothing. PART_VERIFY_DONE refuses with the first failing check, the directory entry's
among them, and isolates nothing (the request goes back to IDLE, or, of a region that is isolated, to the state it came from:
log entry 75), or loading begins where the region is isolated, and else the region waits for its turn. REGION_ISOLATE between
turns (after a commit and before the next turn starts: the model's reading, log entry 81) isolates the waiting region:
REGION_LOAD of its cords is set, their input windows are discarded, and STATE shows LOADING or HELD, or stays VERIFY for a GO
behind the HOLD; otherwise it changes nothing. REGION_RELEASE between turns, the tables swapped, ends the isolation with the
region's cords in their first turn and STATE IDLE, or VERIFY for a held GO; otherwise it changes nothing. NVM_READ, NVM_WRITE
and NVM_ERASE start the operation of the window, or set REFUSED: while BUSY, for a bad device or length (log entry 54), and a
write or erase unless the state is HELD, INCOMPLETE or REFUSED. NVM_DONE ends it with the data read in the buffer, or with
ERROR. (R43, R80, R145, R268, R282, R289, R291, R292, R293, R294) -/
def Obligations.PartialReconfiguration : Prop :=
  (∀ s : State, s.hostRuns R.CFG_PART_CTL = true →
    let st := s.fget F.CFG_PART_STAT_STATE
    (s.image.committed = false → exec .partGo s = .next s ∧ exec .partHold s = .next s) ∧
    (s.image.committed = true →
      (st = 1 ∨ st = 2 → exec .partGo s = .next (s.fset F.CFG_PART_STAT_BUSY_REFUSED 1)) ∧
      (st = 3 → exec .partGo s = .next (s.fset F.CFG_PART_STAT_PENDING_ENABLE 1)) ∧
      (st = 0 ∨ 4 ≤ st → ∃ t, exec .partGo s = .next t ∧ t.fget F.CFG_PART_STAT_STATE = 1 ∧
        t.fget F.CFG_PART_STAT_CODE = 0 ∧ t.recon = { s.recon with was := st } ∧
        s.onlyWords { t with recon := s.recon } [R.CFG_PART_STAT, R.HST_EVT]) ∧
      (let cords : BitVec 16 := BitVec.ofNat 16 (s.fget F.CFG_PART_CORDS_CORDS)
       let rows := BitVec.ofNat 64 (s.wget W.CFG_PART_EDGE_EDGE)
       (st ≠ 0 ∨ s.recon.waits = true ∨ (cords = 0 ∧ rows = 0) → exec .partHold s = .next s) ∧
       (st = 0 → s.recon.waits = false → cords ≠ 0 ∨ rows ≠ 0 → ∃ t, exec .partHold s = .next t ∧
         t.recon = { s.recon with cords, rows, waits := true } ∧ t.bit F.TURN_HOLD_SRC_PART = true ∧
         s.wordsBut t [R.TURN_HOLD_SRC])))) ∧
  (∀ (h : CastHdr) (s : State), s.fget F.CFG_PART_STAT_STATE ≠ 1 ∨ s.load.on = true →
    exec (.partVerifyDone h) s = .next s) ∧
  (∀ (h : CastHdr) (s : State), s.fget F.CFG_PART_STAT_STATE = 1 → s.load.on = false →
    let checks := firstRefusal [s.partEntry, s.headerChecks h true, s.regionCheck h, s.passOne h, s.partTiming h, s.partDecl h]
    (∀ c, checks = some c → ∃ t, exec (.partVerifyDone h) s = .next t ∧ t.fget F.CFG_PART_STAT_CODE = c % 256 ∧
      t.fget F.CFG_PART_STAT_STATE = (if s.recon.isolated then s.recon.was % 8 else 0) ∧ t.recon = s.recon ∧ t.load.on = false ∧
      t.mem = s.mem ∧ t.image = s.image) ∧
    (checks = none → ∃ t, exec (.partVerifyDone h) s = .next t ∧ t.load.on = true ∧ t.load.part = true ∧ t.load.hdr = h ∧
      (s.recon.isolated = true → t.fget F.CFG_PART_STAT_STATE = 2 ∧ t.recon = s.recon) ∧
      (s.recon.isolated = false → t.recon = { s.recon with cords := hCords h, rows := hRows h, waits := true } ∧
        t.bit F.TURN_HOLD_SRC_PART = true ∧ s.wordsBut t [R.TURN_HOLD_SRC]))) ∧
  (∀ s : State, s.recon.waits = false ∨ s.betweenTurns = false → exec .regionIsolate s = .next s) ∧
  (∀ s : State, s.recon.waits = true → s.betweenTurns = true → s.standby = false →
    ∃ t, exec .regionIsolate s = .next t ∧ t.recon.isolated = true ∧ t.recon.waits = false ∧
      t.bit F.TURN_HOLD_SRC_PART = false ∧ t.edge.iso = s.recon.rows ∧ t.mem = s.mem ∧ t.strands = s.strands ∧
      t.fget F.CFG_PART_STAT_STATE = (if s.load.on && s.load.part then 2 else if s.fget F.CFG_PART_STAT_STATE = 1 then 1 else 5) ∧
      (s.load.on = false → s.fget F.CFG_PART_STAT_STATE = 1 → t.recon.was = 5) ∧
      (∀ c, c < 128 → s.recon.cords.getLsbD (c / 8) = true → s.cordHere c = true →
        t.bit (F.CRD_STAT_REGION_LOAD c) = true) ∧
      ∀ p ∈ t.core.windows, p ∈ s.core.windows ∧ s.recon.cords.getLsbD (p.1 % 2 ^ 18 / 2048 / 8) = false) ∧
  (∀ s : State, s.fget F.CFG_PART_STAT_STATE ≠ 3 ∨ s.recon.swapping ≠ [] ∨ s.betweenTurns = false →
    exec .regionRelease s = .next s) ∧
  (∀ s : State, s.fget F.CFG_PART_STAT_STATE = 3 → s.recon.swapping = [] → s.betweenTurns = true → s.standby = false →
    contended s.edge.blocks = [] → s.image.committed = true →
    ∃ t, exec .regionRelease s = .next t ∧ t.recon.isolated = false ∧ t.bit F.TURN_HOLD_SRC_PART = false ∧
      t.load.on = false ∧ t.edge.iso = 0 ∧ t.sec.partCount = s.sec.partCount + 1 ∧
      t.fget F.CFG_PART_STAT_STATE = (if s.bit F.CFG_PART_STAT_PENDING_ENABLE then 1 else 0) ∧
      ∀ c, c < 128 → s.recon.cords.getLsbD (c / 8) = true → s.cordHere c = true →
        t.bit (F.CRD_STAT_REGION_LOAD c) = false ∧
        t.core.first.getLsbD c = (s.core.first.getLsbD c || (hDecl s.load.hdr).cords.getLsbD c)) ∧
  (∀ s : State, s.hostRuns R.CFG_NVM_CTL = true →
    let dev := s.fget F.CFG_NVM_CTL_DEV
    let len := s.fget F.CFG_NVM_LEN_LEN
    let a := s.wget W.CFG_NVM_ADDR_ADDR
    let bad := s.bit F.CFG_NVM_STAT_BUSY = true ∨ dev = 3 ∨ len = 0 ∨ 4096 < len
    let st := s.fget F.CFG_PART_STAT_STATE
    let closed := st ≠ 4 ∧ st ≠ 5 ∧ s.fget F.CFG_STAT_STATE ≠ 6
    let starts := fun (o : Host.Outcome State Fault Refusal) (op : Nat) =>
      ∃ t, o = .next t ∧ t.nvm = some ⟨dev, op, a, len⟩ ∧ t.bit F.CFG_NVM_STAT_BUSY = true ∧ s.wordsBut t [R.CFG_NVM_STAT] ∧
        t.mem = s.mem
    (bad → exec .nvmRead s = .next (s.fset F.CFG_NVM_STAT_REFUSED 1)) ∧ (¬ bad → starts (exec .nvmRead s) 0) ∧
    (bad ∨ closed → exec .nvmWrite s = .next (s.fset F.CFG_NVM_STAT_REFUSED 1) ∧
      exec .nvmErase s = .next (s.fset F.CFG_NVM_STAT_REFUSED 1)) ∧
    (¬ bad → ¬ closed → s.image.nvm = none → s.fget F.CFG_STAT_STATE ≠ 5 ∨ dev ≠ 0 ∨ 4096 ≤ a →
      starts (exec .nvmWrite s) 1 ∧ starts (exec .nvmErase s) 2)) ∧
  (∀ (ok : Bool) (b : Bytes) (s : State), s.nvm = none → exec (.nvmDone ok b) s = .next s) ∧
  ∀ (b : Bytes) (s : State) (o : NvmOp), s.nvm = some o →
    (∃ t, exec (.nvmDone false b) s = .next t ∧ t.nvm = none ∧ t.bit F.CFG_NVM_STAT_BUSY = false ∧
      t.bit F.CFG_NVM_STAT_ERROR = true ∧ s.wordsBut t [R.CFG_NVM_STAT]) ∧
    ∃ t, exec (.nvmDone true b) s = .next t ∧ t.nvm = none ∧ t.bit F.CFG_NVM_STAT_BUSY = false ∧
      t.bit F.CFG_NVM_STAT_DONE = true ∧
      (o.op = 0 → o.len ≤ 4096 → ∀ k x, k < o.len → b[k]? = some x →
        t.fget ⟨R.CFG_NVM_BUF (k / 4), 8 * (k % 4), 8⟩ = x.toNat) ∧
      (o.op ≠ 0 → s.wordsBut t [R.CFG_NVM_STAT, R.HST_EVT])

/-- What the partner sends arrives over an aligned link alone: otherwise it changes nothing. HELLO outside PAIRING, or of a record
that does not fit, changes nothing; a record fits exactly if the roles are complementary and image, lag, span and lock source
agree (the serial is not compared, the model's reading, log entry 38); a fitting one pairs the device, as ACTIVE or STANDBY by
its role, with SPLICE_ROLE high on the ACTIVE one (when: the model's reading, log entry 32), and shows the latency. PAIR_FAIL
in PAIRING leads to SOLO, with a report; an ACTIVE device then runs alone, a STANDBY keeps its hold. On an unpaired device, or
one that is no STANDBY, the mirror items change nothing (a heartbeat of a paired device still counts as life); on a STANDBY a
heartbeat notes the start of its turn and the digest, a word of the window and the written flags are kept by turn, deltas in
order, time adjustments act as at the ACTIVE device, partial reconfiguration turns are noted. A partner's TRIG_OUT pulse j
pulses event input 216 + j of a paired device. (R240, R243, R298, R299, R300) -/
def Obligations.SplicePairing : Prop :=
  (∀ (h : Hello) (s : State), s.fget F.SPL_STAT_STATE ≠ 1 ∨ s.linkAligned = false ∨ s.helloFits h = false → exec (.hello h) s = .next s) ∧
  (∀ (h : Hello) (s : State), s.helloFits h = true ↔
    ((s.fget F.SPL_CFG_ROLE = 1 ∧ h.role = 2) ∨ (s.fget F.SPL_CFG_ROLE = 2 ∧ h.role = 1)) ∧
      h.imageId.toNat = s.words (R.SPL_IMAGE_ID 0) 8 ∧ h.lag.toNat = s.fget F.SPL_CFG_D ∧
      h.span.toNat = s.fget F.TURN_SPAN_VALUE ∧ h.lockSrc = s.bit F.TURN_CFG_LOCK_SRC) ∧
  (∀ (h : Hello) (s : State), s.fget F.SPL_STAT_STATE = 1 → s.linkAligned = true → s.helloFits h = true →
    ∃ t, exec (.hello h) s = .next t ∧ t.fget F.SPL_STAT_STATE = (if s.fget F.SPL_CFG_ROLE = 1 then 2 else 3) ∧
      t.fget F.SPL_LINK_LAT_NS = h.latency.toNat ∧ t.splice.paired = true ∧ t.splice.beatAt = s.time.now ∧
      (s.fget F.SPL_CFG_ROLE = 1 → t.splice.rolePin = true) ∧ s.wordsBut t [R.SPL_STAT, R.SPL_LINK_LAT] ∧ t.core = s.core) ∧
  (∀ s : State, s.fget F.SPL_STAT_STATE ≠ 1 → exec .pairFail s = .next s) ∧
  (∀ s : State, s.fget F.SPL_STAT_STATE = 1 → ∃ t, exec .pairFail s = .next t ∧ t.fget F.SPL_STAT_STATE = 4 ∧
    t.bit F.SPL_STAT_PAIR_FAIL = true ∧
    (s.srcOn 0x284 = true → ∃ r ∈ t.reports, r.src = 0x284 ∧ r.code = 0x0701) ∧
    (s.fget F.SPL_CFG_ROLE = 1 → t.bit F.TURN_HOLD_SRC_SPLICE = false ∧ t.splice.rolePin = true) ∧
    (s.fget F.SPL_CFG_ROLE ≠ 1 → t.reg R.TURN_HOLD_SRC = s.reg R.TURN_HOLD_SRC ∧ t.splice = s.splice)) ∧
  (∀ s : State, s.splice.paired = false ∨ s.linkAligned = false →
    (∀ h, exec (.heartbeat h) s = .next s) ∧ (∀ j, exec (.partnerTrigOut j) s = .next s)) ∧
  (∀ s : State, s.splice.paired = false ∨ s.linkAligned = false ∨ s.fget F.SPL_STAT_STATE ≠ 3 →
    (∀ j i d, exec (.mirrorWord j i d) s = .next s) ∧ (∀ j l, exec (.writtenFlags j l) s = .next s) ∧
    (∀ d, exec (.flowContextDelta d) s = .next s) ∧ (∀ a, exec (.timeAdjustment a) s = .next s) ∧
    ∀ r j, exec (.partTurnNumbers r j) s = .next s) ∧
  (∀ (h : Heartbeat) (s : State), s.splice.paired = true → s.linkAligned = true →
    (s.fget F.SPL_STAT_STATE ≠ 3 → exec (.heartbeat h) s = .next { s with splice := { s.splice with beat := true, beatAt := s.time.now } }) ∧
    (s.fget F.SPL_STAT_STATE = 3 → ∃ t, exec (.heartbeat h) s = .next t ∧ t.splice.beat = true ∧ t.splice.beatAt = s.time.now ∧
      (∀ j, h.starts = some j → (t.heldTurn j.toNat).start = some (if s.bit F.TURN_CFG_LOCK_SRC
          then s.lineTime - (s.lineTicks (s.fget F.SPL_LINK_LAT_NS) : Nat) else (h.boundary : Int)) ∧
        (t.heldTurn j.toNat).words = (s.heldTurn j.toNat).words) ∧
      (∀ j d, h.digest = some (j, d) → SMap.find t.splice.digests j.toNat = some d.toNat) ∧
      (h.starts = none → t.splice.held = s.splice.held) ∧ (h.digest = none → t.splice.digests = s.splice.digests))) ∧
  (∀ (s : State), s.splice.paired = true → s.linkAligned = true → s.fget F.SPL_STAT_STATE = 3 →
    (∀ j i d, i.toNat < s.fillWords.length → ∃ t, exec (.mirrorWord j i d) s = .next t ∧
      SMap.find (t.heldTurn j.toNat).words i.toNat = some d ∧ (t.heldTurn j.toNat).flags = (s.heldTurn j.toNat).flags ∧
      (∀ k, k ≠ i.toNat → SMap.find (t.heldTurn j.toNat).words k = SMap.find (s.heldTurn j.toNat).words k) ∧
      (∀ k, k ≠ j.toNat → t.heldTurn k = s.heldTurn k) ∧ s.wordsBut t [R.SPL_LAG]) ∧
    (∀ j l, ∃ t, exec (.writtenFlags j l) s = .next t ∧ t.heldTurn j.toNat = { s.heldTurn j.toNat with flags := some l } ∧
      (∀ k, k ≠ j.toNat → t.heldTurn k = s.heldTurn k) ∧ s.wordsBut t [R.SPL_LAG]) ∧
    (∀ d, ∃ t, exec (.flowContextDelta d) s = .next t ∧
      t.heldTurn d.turn.toNat = { s.heldTurn d.turn.toNat with deltas := (s.heldTurn d.turn.toNat).deltas ++ [d] } ∧
      (∀ k, k ≠ d.turn.toNat → t.heldTurn k = s.heldTurn k) ∧ s.wordsBut t [R.SPL_LAG]) ∧
    (∀ v, ∃ t, exec (.timeAdjustment (.freq v)) s = .next t ∧ t.reg R.TIME_FREQ = v ∧ t.time = s.time) ∧
    (∀ p, ∃ t, exec (.timeAdjustment (.step p)) s = .next t ∧
      (t.time.now : Int) = (s.time.now + p.toInt) % (timeTop : Nat) ∧
      t.time.marks = s.time.marks ++ [(t.time.now, true)]) ∧
    (∀ p, ∃ t, exec (.timeAdjustment (.slew p)) s = .next t ∧ t.time.slew = some (p.toInt * 1000000) ∧
      t.time.now = s.time.now ∧ t.bit F.TIME_STAT_PHASE_BUSY = true) ∧
    (∀ x, ∃ t, exec (.timeAdjustment (.tod x)) s = .next t ∧ t.time.now = timeOfBits x.toNat % timeTop ∧
      t.bit F.TIME_STAT_TOD_DONE = true) ∧
    (∀ j, exec (.partTurnNumbers true j) s = .next { s with splice := { s.splice with partRel := some j.toNat } } ∧
      exec (.partTurnNumbers false j) s = .next { s with splice := { s.splice with partIso := some j.toNat } })) ∧
  ∀ (j : BitVec 3) (s : State), s.splice.paired = true → s.linkAligned = true → exec (.partnerTrigOut j) s =
    .next { s with trig := { s.trig with pulse := s.trig.pulse ||| BitVec.ofNat 256 (2 ^ (216 + j.toNat)) } }

/-- PARTNER_LOSS of an unpaired device, or before its cause has held (no heartbeat for LOSS_T, or the partner's pins at a code
other than valid for 1 us), changes nothing. An ACTIVE device that sees 1,1 gives up its role: RELINQUISHED, both pins low,
the splice hold in force; for any other cause it goes on alone in SOLO and reports PARTNER_LOST. A STANDBY device goes to
PROMOTING, drives 1,1 and records the time; a LAPSED or, under DIV_POLICY, a diverged one enters the safe state instead.
PROMOTION_COMPLETE, once Bs + SPAN and 2 us after the declaration have passed, makes a PROMOTING device that no C3 fault has
deposed ACTIVE with SPLICE_ROLE high, OK_OUT valid, its first own turn shown, its queues empty and a report; else it changes
nothing. RELINQUISH that reaches its register takes an ACTIVE device to RELINQUISHED and changes nothing elsewhere. LINK_EN =
0 shuts the configured splice lanes down; LINK_EN = 1 during a shutdown is held, and otherwise enables them (also where it was
1: the model's reading, log entry 16). (R206, R303, R304, R305, R306, R308, R343) -/
def Obligations.SpliceLoss : Prop :=
  let gone := fun (t : State) => t.fget F.SPL_STAT_STATE = 7 ∧ t.splice.rolePin = false ∧ t.splice.okOut = 0 ∧
    t.bit F.TURN_HOLD_SRC_SPLICE = true ∧ t.splice.paired = false
  (∀ (why : LossCause) (s : State), s.splice.paired = false ∨ s.lossSeen why = false → exec (.partnerLoss why) s = .next s) ∧
  (∀ s : State,
    (s.lossSeen .heartbeat = true ↔ s.splice.beatAt + s.lossT ≤ s.time.now) ∧
    ∀ c : BitVec 2, s.lossSeen (.pins c) = true ↔
      c ≠ 2 ∧ c.toNat = s.partnerPins ∧ s.splice.pinsAt + 65536000 ≤ s.time.now) ∧
  (∀ (why : LossCause) (s : State), s.splice.paired = true → s.lossSeen why = true → s.fget F.SPL_STAT_STATE = 2 →
    ∃ t, exec (.partnerLoss why) s = .next t ∧ t.splice.paired = false ∧ t.mem = s.mem ∧ t.core = s.core ∧
      (why = .pins 3 → gone t ∧ t.reports = s.reports) ∧
      (why ≠ .pins 3 → t.fget F.SPL_STAT_STATE = 4 ∧ t.bit F.SPL_STAT_PARTNER_LOST = true ∧
        t.splice.rolePin = s.splice.rolePin ∧ (s.srcOn 0x284 = true → ∃ r ∈ t.reports, r.src = 0x284 ∧ r.code = 0x0704))) ∧
  (∀ (why : LossCause) (s : State), s.splice.paired = true → s.lossSeen why = true →
    (s.fget F.SPL_STAT_STATE = 3 → s.flt.deposed = false →
      s.bit F.SPL_CTL_DIV_POLICY = false ∨ s.bit F.SPL_STAT_DIVERGED = false →
      ∃ t, exec (.partnerLoss why) s = .next t ∧ t.fget F.SPL_STAT_STATE = 5 ∧ t.splice.okOut = 3 ∧
        t.splice.paired = false ∧ t.wget W.SPL_PROMO_TIME_TIME = timeBits s.time.now % 2 ^ 96 ∧
        t.bit F.FLT_STAT_SAFE = s.bit F.FLT_STAT_SAFE) ∧
    (s.fget F.SPL_STAT_STATE = 6 ∨ (s.fget F.SPL_STAT_STATE = 3 ∧ s.bit F.SPL_CTL_DIV_POLICY = true ∧
        s.bit F.SPL_STAT_DIVERGED = true) → s.bit F.FLT_STAT_SAFE = false →
      ∃ t, exec (.partnerLoss why) s = .next t ∧ t.bit F.FLT_STAT_SAFE = true ∧ t.bit F.TURN_HOLD_SRC_SAFE = true ∧
        t.fget F.SPL_STAT_STATE = s.fget F.SPL_STAT_STATE ∧ t.splice.paired = false)) ∧
  (∀ s : State, s.fget F.SPL_STAT_STATE ≠ 5 ∨ s.flt.deposed = true ∨ s.splice.bs = none ∨ s.time.now < s.splice.promoAt + 131072000 ∨
      (∃ x, s.splice.bs = some x ∧ s.core.boundary ≤ x + 1) →
    exec .promotionComplete s = .next s) ∧
  (∀ (s : State) (x : Nat), s.fget F.SPL_STAT_STATE = 5 → s.flt.deposed = false → s.splice.bs = some x → x + 1 < s.core.boundary →
    s.splice.promoAt + 131072000 ≤ s.time.now →
    ∃ t, exec .promotionComplete s = .next t ∧ t.fget F.SPL_STAT_STATE = 2 ∧ t.splice.rolePin = true ∧
      t.splice.okOut = 2 ∧ t.wget W.SPL_PROMO_TURN_VALUE = s.splice.own % 2 ^ 64 ∧ t.bit F.SPL_STAT_PROMOTED = true ∧
      (s.srcOn 0x284 = true → ∃ r ∈ t.reports, r.src = 0x284 ∧ r.code = 0x0705) ∧
      (∀ q ∈ s.queues, t.fget (F.ACT_Q_STAT_LEVEL q) = 0) ∧ t.mem = s.mem) ∧
  (∀ s : State, s.hostRuns R.SPL_CTL = true →
    (s.fget F.SPL_STAT_STATE ≠ 2 → exec .relinquish s = .next s) ∧
    (s.fget F.SPL_STAT_STATE = 2 → ∃ t, exec .relinquish s = .next t ∧ gone t ∧
      s.wordsBut t [R.TURN_HOLD_SRC, R.SPL_STAT]) ∧
    (∃ t, exec (.linkEn false) s = .next t ∧ t.bit F.SPL_CTL_LINK_EN = false ∧ t.bit F.SPL_STAT_PENDING_ENABLE = false ∧
      ∀ n ∈ s.spliceLanes, s.laneOn n = true → t.bit (F.LANE_CTL_EN n) = false ∧
        (s.bit (F.LANE_CTL_EN n) = true → t.bit (F.LANE_STAT_SHUTTING n) = true ∧ (t.lane n).tx = none)) ∧
    (s.linkShutting = true → exec (.linkEn true) s = .next (s.fset F.SPL_STAT_PENDING_ENABLE 1)) ∧
    (s.linkShutting = false → ∃ t, exec (.linkEn true) s = .next t ∧ t.bit F.SPL_CTL_LINK_EN = true ∧
      ∀ n ∈ s.spliceLanes, s.laneOn n = true → t.bit (F.LANE_CTL_EN n) = true))

/-- A collector cycle fetches the one report of a source whose pair is good, out of reset in Run to Sleep with no power
transition. Its count joins FLT_CNT, the report leaves the source, and an empty first-error record takes it with the effective
class, the higher of image and host class. C0 starts nothing. C1 starts a stopped grace timer at FLT_GRACE with this code, and
leaves a running one. C2 enters the safe state with this code, with the turn hold and a log entry of class 2. C3 (taken whole
with the fetch: the model's reading, log entry 48) under FAILOVER deposes the device (OK_OUT 0,0, RELINQUISHED if ACTIVE) and
enters the safe state; under RESET the device starts afresh with FAULT_RESET and the code shown. With the pairs of all named
sources bad, in reset, or in Deep sleep and Off, nothing is fetched. A timer that has reached 0 expires with the cycle and
escalates. With a RELEASE write of the host in the cycle the safe state ends, but a C2 report of the cycle makes it continue
under its own code, without a new log entry (the model's reading, log entry 49). (R311, R312, R314, R316, R317, R318, R319,
R320, R321, R322, R323, R340) -/
def Obligations.FaultFetch : Prop :=
  (∀ (c : BitVec 10) (r : Report) (s : State), let n := c.toNat
    s.reports.filter (fun x => x.src == n) = [r] → r.code < 5120 → s.bit (F.FLT_SRC_STAT_WIRE_BAD n) = false →
    s.fget F.PWR_STAT_STATE < 3 → s.inReset = false → s.bit F.PWR_STAT_TRANSITION = false → s.bit F.FLT_STAT_SAFE = false →
    s.graceDue = false →
    let cls := max (s.imageClass r.code) (s.fget (F.FLT_CLASS_HOST r.code))
    ∃ t, exec (.faultFetch [c] false) s = .next t ∧
      (cls < 3 ∨ s.bit F.FLT_POLICY_C3 = false →
        t.reports = s.reports.filter (fun x => x.src != n) ∧
        t.fget (F.FLT_CNT_COUNT r.code) = min (2 ^ 32 - 1) (s.fget (F.FLT_CNT_COUNT r.code) + r.count) ∧
        (s.fget (F.FLT_SRC_STAT_PAIR n) = 2 → t.fget (F.FLT_SRC_STAT_PAIR n) = 1) ∧
        t.bit F.FLT_FER_VALID = true ∧
        (s.bit F.FLT_FER_VALID = false → cls ≤ 3 → r.acc < 8 → t.fget F.FLT_FER_SRC = n ∧ t.fget F.FLT_FER_CLASS = cls ∧
          t.fget F.FLT_FER_CODE = r.code ∧ t.fget F.FLT_FER_MASTER = r.master.toNat ∧
          t.wget W.FLT_FER_ADDR = r.addr % 2 ^ 48 ∧ t.wget W.FLT_FER_TIME = timeBits r.time % 2 ^ 96 ∧
          t.wget W.FLT_FER_TURN = r.turn % 2 ^ 64)) ∧
      (cls = 0 → t.bit F.FLT_STAT_SAFE = false ∧ t.bit F.FLT_STAT_GRACE_RUN = s.bit F.FLT_STAT_GRACE_RUN ∧ t.flt = s.flt) ∧
      (cls = 1 → t.bit F.FLT_STAT_SAFE = false ∧ t.bit F.FLT_STAT_GRACE_RUN = true ∧
        (s.bit F.FLT_STAT_GRACE_RUN = false → t.fget F.FLT_GRACE_LEFT_US = s.fget F.FLT_GRACE_US ∧ t.flt.starter = r.code) ∧
        (s.bit F.FLT_STAT_GRACE_RUN = true → t.fget F.FLT_GRACE_LEFT_US = s.fget F.FLT_GRACE_LEFT_US ∧ t.flt = s.flt)) ∧
      (let i := s.fget F.FLT_LOG_IDX_IDX
       let safe := t.bit F.FLT_STAT_SAFE = true ∧ t.fget F.FLT_STAT_SAFE_CODE = r.code ∧ t.bit F.TURN_HOLD_SRC_SAFE = true ∧
        t.fget F.FLT_LOG_IDX_IDX = (i + 1) % 16 ∧ t.faultN = true
       (cls = 2 → safe ∧ t.reg (R.FLT_LOG i) = BitVec.ofNat 32 (r.code + 2 * 2 ^ 16)) ∧
       (cls = 3 → s.bit F.FLT_POLICY_C3 = false → safe ∧ t.splice.okOut = 0 ∧ t.flt.deposed = true ∧
        t.reg (R.FLT_LOG i) = BitVec.ofNat 32 (r.code + 3 * 2 ^ 16) ∧
        (s.fget F.SPL_STAT_STATE = 2 → t.fget F.SPL_STAT_STATE = 7)) ∧
       (cls = 3 → s.bit F.FLT_POLICY_C3 = true → t.bit F.FLT_RST_CAUSE_FAULT_RESET = true ∧
        t.fget F.FLT_RST_CAUSE_CODE = r.code ∧ t.image = {} ∧ t.mem = [] ∧ t.reports = [] ∧
        t.reg (R.FLT_LOG i) = BitVec.ofNat 32 (r.code + 3 * 2 ^ 16) ∧ t.fget F.FLT_LOG_IDX_IDX = (i + 1) % 16))) ∧
  (∀ (l : List (BitVec 10)) (s : State), s.graceDue = false → (∀ c ∈ l, s.bit (F.FLT_SRC_STAT_WIRE_BAD c.toNat) = true) ∨ 3 ≤ s.fget F.PWR_STAT_STATE ∨ s.inReset = true →
    ∃ t, exec (.faultFetch l false) s = .next t ∧ t.reports = s.reports ∧ t.regs = s.regs) ∧
  (∀ s : State, (s.graceDue = true ↔ s.bit F.FLT_STAT_GRACE_RUN = true ∧ s.fget F.FLT_GRACE_LEFT_US = 0) ∧
    (s.graceDue = false → exec (.faultFetch [] false) s = .next s) ∧
    (s.graceDue = true → s.fget F.PWR_STAT_STATE < 3 → s.inReset = false → s.bit F.PWR_STAT_TRANSITION = false →
      ∃ t, exec (.faultFetch [] false) s = .next t ∧
      t.bit F.FLT_STAT_GRACE_RUN = false ∧ t.bit F.FLT_STAT_ESCALATED = true ∧ t.bit F.FLT_STAT_SAFE = true ∧
      (s.bit F.FLT_STAT_SAFE = false → t.fget F.FLT_STAT_SAFE_CODE = s.flt.starter % 2 ^ 16)) ∧
    (s.hostRuns R.FLT_CTL = true → s.graceDue = false → s.bit F.FLT_STAT_SAFE = true → s.bit F.FLT_STAT_C3_BUSY = false →
      ∃ t, exec (.faultFetch [] true) s = .next t ∧ t.bit F.FLT_STAT_SAFE = false ∧ t.bit F.TURN_HOLD_SRC_SAFE = false ∧
        t.bit F.FLT_STAT_GRACE_RUN = false)) ∧
  ∀ (c : BitVec 10) (r : Report) (s : State), let n := c.toNat
    s.reports.filter (fun x => x.src == n) = [r] → r.code < 5120 → s.bit (F.FLT_SRC_STAT_WIRE_BAD n) = false →
    s.hostRuns R.FLT_CTL = true → s.graceDue = false → s.bit F.FLT_STAT_SAFE = true →
    s.bit F.FLT_STAT_C3_BUSY = false → s.effClass r.code = 2 →
    ∃ t, exec (.faultFetch [c] true) s = .next t ∧ t.bit F.FLT_STAT_SAFE = true ∧ t.bit F.TURN_HOLD_SRC_SAFE = true ∧
      t.fget F.FLT_STAT_SAFE_CODE = r.code ∧ t.fget F.FLT_LOG_IDX_IDX = s.fget F.FLT_LOG_IDX_IDX ∧
      t.reports = s.reports.filter (fun x => x.src != n)

/-- WIRE_FAULT of a source whose pair is bad already or that is not powered, with a valid pair, or in Deep sleep and Off, changes
nothing; else the pair is shown bad and WIRE_FAULT is counted at once, and where it has class 2 the safe state goes on under
its code although a RELEASE write meets it. WIRE_BAD_END with a valid pair ends that, with 10 shown while the source holds a
report. GRACE_EXPIRY before the timer has reached 0, or where the collector stands still (reset, Deep sleep, Off), changes
nothing; then, without a power transition, the fault escalates and the safe state carries the code that started the timer. ACK
stops the timer; RELEASE ends the safe state with its turn hold, which goes on under the timer's code where the timer has
reached 0 with it, and outside it changes nothing. A temperature above 120, 125 or 130 degrees raises its code once until a
reading 5 degrees below; in Deep sleep one above 130 enters Off; in Off nothing. A sensor of a domain without power reads
nothing. A fault of a rail whose monitor is unmasked and runs (in Deep sleep those of VAON and VIO alone, in Off and reset
none) is reported. Injection works in factory test mode only, at a powered source, with a code of the table. (R307, R311,
R313, R316, R319, R328, R375, R403, R409) -/
def Obligations.FaultEvents : Prop :=
  (∀ (c : BitVec 10) (p : BitVec 2) (s : State), let n := c.toNat
    (s.bit (F.FLT_SRC_STAT_WIRE_BAD n) = true ∨ p = 1 ∨ p = 2 ∨ s.srcOn n = false ∨ 3 ≤ s.fget F.PWR_STAT_STATE →
      exec (.wireFault c ⟨p, false⟩) s = .next s) ∧
    (s.bit (F.FLT_SRC_STAT_WIRE_BAD n) = false → p = 0 ∨ p = 3 → s.srcOn n = true →
      s.fget F.PWR_STAT_STATE < 3 → s.effClass 0x0801 < 2 →
      ∃ t, exec (.wireFault c ⟨p, false⟩) s = .next t ∧ t.bit (F.FLT_SRC_STAT_WIRE_BAD n) = true ∧
        t.bit (F.FLT_SRC_STAT_WIRE_SEEN n) = true ∧ t.fget (F.FLT_SRC_STAT_PAIR n) = p.toNat ∧ t.bit F.FLT_STAT_WIRE_BAD = true ∧
        t.fget (F.FLT_CNT_COUNT 0x0801) = min (2 ^ 32 - 1) (s.fget (F.FLT_CNT_COUNT 0x0801) + 1) ∧
        (s.effClass 0x0801 = 1 → t.bit F.FLT_STAT_GRACE_RUN = true) ∧ t.mem = s.mem) ∧
    (s.bit (F.FLT_SRC_STAT_WIRE_BAD n) = false → p = 0 ∨ p = 3 → s.srcOn n = true → s.hostRuns R.FLT_CTL = true →
      s.bit F.FLT_STAT_SAFE = true → s.bit F.FLT_STAT_C3_BUSY = false → s.graceDue = false → s.effClass 0x0801 = 2 →
      ∃ t, exec (.wireFault c ⟨p, true⟩) s = .next t ∧ t.bit (F.FLT_SRC_STAT_WIRE_BAD n) = true ∧
        t.bit F.FLT_STAT_SAFE = true ∧ t.fget F.FLT_STAT_SAFE_CODE = 0x0801 ∧ t.bit F.TURN_HOLD_SRC_SAFE = true ∧
        t.fget F.FLT_LOG_IDX_IDX = s.fget F.FLT_LOG_IDX_IDX) ∧
    (p = 0 ∨ p = 3 ∨ s.bit (F.FLT_SRC_STAT_WIRE_BAD n) = false ∨ 3 ≤ s.fget F.PWR_STAT_STATE ∨ s.inReset = true → exec (.wireBadEnd c p) s = .next s) ∧
    (p = 1 ∨ p = 2 → s.bit (F.FLT_SRC_STAT_WIRE_BAD n) = true → s.fget F.PWR_STAT_STATE < 3 → s.inReset = false → ∃ t, exec (.wireBadEnd c p) s = .next t ∧
      t.bit (F.FLT_SRC_STAT_WIRE_BAD n) = false ∧ t.reports = s.reports ∧ n ∉ t.flt.injected ∧
      t.fget (F.FLT_SRC_STAT_PAIR n) = (if ∃ r ∈ s.reports, r.src = n then 2 else 1) ∧
      s.wordsBut t [R.FLT_SRC_STAT n, R.FLT_STAT])) ∧
  (∀ s : State, (s.bit F.FLT_STAT_GRACE_RUN = false ∨ s.fget F.FLT_GRACE_LEFT_US ≠ 0 ∨ 3 ≤ s.fget F.PWR_STAT_STATE ∨ s.inReset = true → exec .graceExpiry s = .next s) ∧
    (s.bit F.FLT_STAT_GRACE_RUN = true → s.fget F.FLT_GRACE_LEFT_US = 0 → s.fget F.PWR_STAT_STATE < 3 → s.inReset = false →
      ∃ t, exec .graceExpiry s = .next t ∧
      t.bit F.FLT_STAT_GRACE_RUN = false ∧ t.bit F.FLT_STAT_ESCALATED = true ∧
      (s.bit F.PWR_STAT_TRANSITION = false → t.bit F.FLT_STAT_SAFE = true ∧
        (s.bit F.FLT_STAT_SAFE = false → t.fget F.FLT_STAT_SAFE_CODE = s.flt.starter % 2 ^ 16 ∧
          t.bit F.TURN_HOLD_SRC_SAFE = true)) ∧
      (s.bit F.PWR_STAT_TRANSITION = true → t.flt.deferred = s.flt.deferred ++ [(2, s.flt.starter)]))) ∧
  (∀ s : State, s.hostRuns R.FLT_CTL = true →
    (∃ t, exec .ack s = .next t ∧ t.bit F.FLT_STAT_GRACE_RUN = false ∧ t.fget F.FLT_GRACE_LEFT_US = 0 ∧
      t.bit F.FLT_STAT_SAFE = s.bit F.FLT_STAT_SAFE ∧ s.onlyWords t [R.FLT_STAT, R.FLT_GRACE_LEFT]) ∧
    (s.bit F.FLT_STAT_SAFE = false ∨ (s.bit F.FLT_STAT_C3_BUSY = true ∧ s.graceDue = false) → exec .release s = .next s) ∧
    (s.bit F.FLT_STAT_SAFE = true → s.graceDue = true → ∃ t, exec .release s = .next t ∧ t.bit F.FLT_STAT_SAFE = true ∧
      t.fget F.FLT_STAT_SAFE_CODE = s.flt.starter % 2 ^ 16 ∧ t.bit F.FLT_STAT_ESCALATED = true ∧
      t.bit F.FLT_STAT_GRACE_RUN = false) ∧
    (s.bit F.FLT_STAT_SAFE = true → s.bit F.FLT_STAT_C3_BUSY = false → s.graceDue = false → ∃ t, exec .release s = .next t ∧
      t.bit F.FLT_STAT_SAFE = false ∧ t.bit F.TURN_HOLD_SRC_SAFE = false ∧ t.bit F.FLT_STAT_GRACE_RUN = false ∧
      t.fget F.FLT_STAT_SAFE_CODE = s.fget F.FLT_STAT_SAFE_CODE ∧
      s.onlyWords t [R.FLT_STAT, R.FLT_GRACE_LEFT, R.TURN_HOLD_SRC])) ∧
  (∀ (n : BitVec 4) (x : Int) (s : State),
    let off : BitVec 3 := SMap.get (fun _ => 0) s.flt.therm n.toNat
    let now := fun (t : State) => SMap.get (fun _ => 0) t.flt.therm n.toNat
    (s.srcPowered (0x300 + n.toNat) = false ∨ s.inReset = true → exec (.thermSample n x) s = .next s) ∧
    (s.srcOn (0x300 + n.toNat) = true → s.fget F.PWR_STAT_STATE < 3 → ∃ t, exec (.thermSample n x) s = .next t ∧ t.mem = s.mem ∧
      ∀ k : Nat, k < 3 →
        (120000 + 5000 * (k : Int) < x → (now t).getLsbD k = true ∧
          (off.getLsbD k = false → ∃ r ∈ t.reports, r.src = 0x300 + n.toNat ∧ r.code = 0x0802 + k)) ∧
        (x ≤ 115000 + 5000 * (k : Int) → (now t).getLsbD k = false) ∧
        (115000 + 5000 * (k : Int) < x → x ≤ 120000 + 5000 * (k : Int) → (now t).getLsbD k = off.getLsbD k)) ∧
    (s.fget F.PWR_STAT_STATE < 3 → x ≤ 120000 → ∃ t, exec (.thermSample n x) s = .next t ∧ t.reports = s.reports ∧
      t.regs = s.regs) ∧
    (s.fget F.PWR_STAT_STATE = 3 → x ≤ 130000 → exec (.thermSample n x) s = .next s) ∧
    (s.srcPowered (0x300 + n.toNat) = true → s.inReset = false → s.fget F.PWR_STAT_STATE = 3 → 130000 < x → ∃ t, exec (.thermSample n x) s = .next t ∧ t.fget F.PWR_STAT_STATE = 4 ∧
      t.bit F.FLT_RST_CAUSE_FAULT_RESET = true ∧ t.fget F.FLT_RST_CAUSE_CODE = 0x0804 ∧ t.mem = [] ∧ t.image = {}) ∧
    (s.fget F.PWR_STAT_STATE = 4 → exec (.thermSample n x) s = .next s)) ∧
  (∀ (k : BitVec 3) (s : State), 
    let runs := s.inReset = false ∧ (s.fget F.PWR_STAT_STATE < 3 ∨ (s.fget F.PWR_STAT_STATE = 3 ∧ 6 ≤ k.toNat))
    (s.fget F.PWR_STAT_STATE ≤ 4 → ¬ runs ∨ s.railWatched k.toNat = false → exec (.railFault k) s = .next s) ∧
    (runs → s.railWatched k.toNat = true → ∃ t, exec (.railFault k) s = .next t ∧
      (s.srcOn 0x310 = true → ∃ r ∈ t.reports, r.src = 0x310 ∧ r.code = 0x0805) ∧ s.wordsBut t [R.FLT_SRC_STAT 0x310] ∧ t.mem = s.mem)) ∧
  ∀ s : State, s.hostRuns R.FLT_INJ = true →
    (s.factoryMode = false → exec .fltInjGo s = .next s ∧ exec .fltInjWire s = .next s) ∧
    (s.factoryMode = true → codeKnown (s.fget F.FLT_INJ_CODE) = false ∨ s.srcOn (s.fget F.FLT_INJ_SRC) = false →
      exec .fltInjGo s = .next s) ∧
    (s.factoryMode = true → codeKnown (s.fget F.FLT_INJ_CODE) = true → s.srcOn (s.fget F.FLT_INJ_SRC) = true →
      ∃ t, exec .fltInjGo s = .next t ∧
      ∃ r ∈ t.reports, r.src = s.fget F.FLT_INJ_SRC ∧ r.code = s.fget F.FLT_INJ_CODE) ∧
    (s.factoryMode = true → 2 < s.fget F.FLT_INJ_CYCLES → s.effClass 0x0801 < 2 →
      s.srcOn (s.fget F.FLT_INJ_SRC) = true → ∃ t, exec .fltInjWire s = .next t ∧
      t.bit (F.FLT_SRC_STAT_WIRE_BAD (s.fget F.FLT_INJ_SRC)) = true) ∧
    (s.factoryMode = true → s.fget F.FLT_INJ_CYCLES ≤ 2 → exec .fltInjWire s = .next s)

/-- PWR_GO that reaches the device writes TARGET; PWR_FLAG_REQUEST in Run or Idle, of the flag that PWR_TRIG enables, asks for
Idle or Sleep, and else changes nothing. Of a GO and a flag request of one instant the GO wins: the other is refused, and an
entry that it has begun is undone. During a transition the latest request is held; Run from a lower state starts the exit (log
entry 58), with LAST_WAKE 3 where wake bit 3 is set and else 4; one that R332 refuses sets REFUSED and changes nothing else;
any other starts the entry with the turn hold. STEP_CLOCK_STOP of no entry, before the commit's end, or, for Sleep and deeper,
before the release of outputs, changes nothing. In the slack after it an entry to Idle ends; a deeper one stops dispatch,
latches the pins, puts the lanes to listening, and waits for action operations and ring accesses under way. Sleep keeps the
strands, Deep sleep their state stores and of memory at most the trace bank, device time stopped, and Off only the registers
of the persistent store and the wake settings; a wake held behind the entry starts the exit (from Off the cold start) at once,
the lowest shown. WAKE of a source that is not enabled or whose condition does not hold, or in Run, changes nothing; during an
entry it is held; during an exit that began at this instant a lower source is shown, and else nothing changes; in Idle, Sleep
and Deep sleep the exit starts with LAST_WAKE; in Off the WAKE pin alone starts the device cold (LAST_WAKE 2: the model's
reading, log entry 84), counted as a power cycle. PWR_EXIT_COMPLETE with no exit, or before Deep sleep's reload, changes
nothing; else Run is reached, the power hold is released, PWR_GAP_US shows the time since entry, and no turn starts for one
span after an exit from Idle or Sleep. DEEP_SLEEP_RELOAD in such an exit puts the image's instruction words back with dispatch
running and a new grid origin, or leaves REFUSED with the code and the section of a wrong digest; else it changes nothing.
(R44, R84, R88, R330, R332, R333, R334, R335, R337, R339, R340, R344) -/
def Obligations.PowerStates : Prop :=
  let leaves := fun (s t : State) (src : Nat) =>
    t.power = { s.power with exiting := true, target := 0, reloaded := false, wakes := 0, patHit := false,
                             exitAt := (s.time.now, s.reg R.HST_ALIVE), goAt := t.power.goAt, flagAt := t.power.flagAt } ∧
      t.bit F.PWR_STAT_TRANSITION = true ∧ t.fget F.PWR_STAT_LAST_WAKE = src
  let asks := fun (s t : State) (g : Nat) =>
    let st := s.fget F.PWR_STAT_STATE
    let part := s.fget F.CFG_PART_STAT_STATE
    let spl := s.fget F.SPL_STAT_STATE
    let no := g = st ∨ 4 < g ∨ s.fget F.CFG_STAT_STATE ≠ 5 ∨ (1 ≤ part ∧ part ≤ 3) ∨ (2 ≤ g ∧ (spl = 2 ∨ spl = 3 ∨ spl = 5)) ∨
      (st = 2 ∧ g = 1) ∨ 3 ≤ st
    let is := fun (p : Power) => t.power = { p with goAt := t.power.goAt, flagAt := t.power.flagAt }
    t.mem = s.mem ∧ t.core = s.core ∧
    s.wordsBut t [R.PWR_CTL, R.PWR_STAT, R.TURN_HOLD_SRC, R.HST_EVT, R.HST_LINK, R.CFG_STAT] ∧
    (s.bit F.PWR_STAT_TRANSITION = true → is { s.power with held := some g } ∧ t.reg R.PWR_STAT = s.reg R.PWR_STAT) ∧
    (s.bit F.PWR_STAT_TRANSITION = false →
      (g = 0 → st ≠ 0 → leaves s t (if (s.fget F.PWR_WAKE_EN_EN).testBit 3 then 3 else 4)) ∧
      (¬(g = 0 ∧ st ≠ 0) → no → is s.power ∧ t.bit F.PWR_STAT_REFUSED = true ∧
        t.bit F.PWR_STAT_TRANSITION = false ∧ t.fget F.PWR_STAT_STATE = st ∧ t.reg R.TURN_HOLD_SRC = s.reg R.TURN_HOLD_SRC) ∧
      (¬ no → ¬(g = 0 ∧ st ≠ 0) → is { s.power with entering := true, target := g } ∧
        t.bit F.PWR_STAT_TRANSITION = true ∧ t.bit F.TURN_HOLD_SRC_PWR = true ∧ t.fget F.PWR_STAT_STATE = st))
  let calm := fun (s : State) => s.power.held = none ∧ s.flt.deferred = []
  let lowest := fun (s : State) (src : Nat) => src < 4 ∧ s.power.wakes.getLsbD src = true ∧ ∀ i < src, s.power.wakes.getLsbD i = false
  let moving := fun (s : State) => (∃ p ∈ s.act.units, p.2.ops ≠ []) ∨ s.ring.waits ≠ [] ∨ s.ring.resps ≠ []
  (∀ (g : BitVec 3) (s : State), (s.hostAway = true → exec (.pwrGo g) s = .next s) ∧
    (s.hostAway = false → s.power.flagAt ≠ some s.time.now →
      ∃ t, exec (.pwrGo g) s = .next t ∧ t.fget F.PWR_CTL_TARGET = g.toNat ∧ t.power.goAt = some s.time.now ∧ asks s t g.toNat) ∧
    (s.hostAway = false → s.power.flagAt = some s.time.now → ∃ t, exec (.pwrGo g) s = .next t ∧ t.bit F.PWR_STAT_REFUSED = true ∧
      asks s.flagYields t g.toNat ∧ s.flagYields.power.flagAt = none ∧ s.flagYields.power.entering = false ∧
      (s.power.entering = true → s.flagYields.bit F.PWR_STAT_TRANSITION = false ∧ s.flagYields.bit F.TURN_HOLD_SRC_PWR = false))) ∧
  (∀ (f : BitVec 3) (s : State),
    let on := s.bit F.PWR_TRIG_EN = true ∧ s.fget F.PWR_TRIG_SEL = f.toNat ∧ s.fget F.PWR_STAT_STATE < 2
    (¬ on → exec (.pwrFlagRequest f) s = .next s) ∧
    (on → s.power.goAt = some s.time.now → ∃ t, exec (.pwrFlagRequest f) s = .next t ∧ t.bit F.PWR_STAT_REFUSED = true ∧
      s.onlyWords t [R.PWR_STAT, R.HST_EVT]) ∧
    (on → s.power.goAt ≠ some s.time.now → ∃ t, exec (.pwrFlagRequest f) s = .next t ∧ t.reg R.PWR_CTL = s.reg R.PWR_CTL ∧
      asks s t (s.fget F.PWR_TRIG_TARGET + 1))) ∧
  (∀ s : State, s.power.entering = false ∨ s.core.phase ≠ .slack ∨
      (s.power.target ≠ 1 ∧ s.fget F.PWR_STAT_STATE < 2 ∧ s.power.stopped = false ∧ s.core.outComm ≠ []) →
    exec .stepClockStop s = .next s) ∧
  (∀ s : State, s.power.entering = true → s.core.phase = .slack → calm s →
    let awake := s.fget F.PWR_STAT_STATE < 2
    let left := fun (t : State) => t.pins.latched.isSome = true ∧ (∀ n, (t.lane n).tx = none ∧ (t.lane n).rx = none) ∧
      (s.bit F.TURN_CFG_LOCK_SRC = true → s.image.committed = true → s.bit F.TURN_STAT_LOCK_WAIT = false →
        t.bit F.TURN_STAT_FLYWHEEL = true)
    let ends := fun (t : State) (g : Nat) => t.fget F.PWR_STAT_STATE = g ∧
      (s.power.wakes = 0 → t.bit F.PWR_STAT_TRANSITION = false ∧ t.power.entering = false ∧ t.power.exiting = s.power.exiting) ∧
      (∀ src, lowest s src → t.bit F.PWR_STAT_TRANSITION = true ∧ t.power.entering = false ∧ t.power.exiting = true ∧
        t.fget F.PWR_STAT_LAST_WAKE = src)
    let done := fun (t : State) =>
      (s.power.target = 2 → ends t 2 ∧ t.power.sleptAt = s.reg R.HST_ALIVE ∧ t.strands = s.strands ∧ t.instrs = s.instrs ∧
        (s.power.stopped = false → awake → left t)) ∧
      (s.power.target = 3 → ends t 3 ∧ t.bit F.PWR_STAT_TIME_STOPPED = true ∧
        t.instrs = [] ∧ t.ports = [] ∧ t.caps = [] ∧ t.pats = [] ∧ t.sec.sk = none ∧
        (∀ g, t.strand g = { store := (s.strand g).store }) ∧
        ∀ p ∈ t.mem, p.1 < dramBase ∧ t.fget (F.BNK_OWN_OWNER (bankOf p.1)) = 0x70 ∧ t.bit (F.BNK_OWN_CORDS (bankOf p.1)) = false) ∧
      (s.power.target = 4 → t.mem = [] ∧ t.image = {} ∧ t.strands = [] ∧
        (s.power.wakes = 0 → t.fget F.PWR_STAT_STATE = 4 ∧ t.store = s.store ∧ ∀ a, a ≠ R.PWR_STAT → a ≠ R.HST_EVT →
          t.reg a = (if persisted a || wakeReg a then s.reg a else RegMap.resetWord a)) ∧
        ∀ src, lowest s src → t.fget F.PWR_STAT_STATE = 0 ∧ t.fget F.PWR_STAT_LAST_WAKE = src)
    (s.power.target = 1 → ∃ t, exec .stepClockStop s = .next t ∧ ends t 1 ∧ t.core = s.core ∧ t.mem = s.mem ∧
      t.strands = s.strands ∧ s.wordsBut t [R.PWR_STAT, R.HST_EVT]) ∧
    (2 ≤ s.power.target → s.power.target ≤ 4 → ¬ awake → s.fget F.PWR_STAT_STATE = 2 →
      ∃ t, exec .stepClockStop s = .next t ∧ done t) ∧
    (2 ≤ s.power.target → s.power.target ≤ 4 → awake → s.power.stopped = true ∨ s.core.outComm = [] →
      (∃ t, exec .stepClockStop s = .next t ∧ (done t ∨ (moving t ∧ t.power = { s.power with stopped := true } ∧
        t.dispatchOn = false ∧ t.fget F.PWR_STAT_STATE = s.fget F.PWR_STAT_STATE ∧ t.strands = s.strands ∧ t.instrs = s.instrs ∧
        (s.power.stopped = false → left t) ∧ (s.power.stopped = true → t = s)))) ∧
      (s.power.stopped = true → moving s → exec .stepClockStop s = .next s) ∧
      (s.power.stopped = true ∨ s.bit F.TRC_CTL_EN = false → ¬ moving s → ∃ t, exec .stepClockStop s = .next t ∧ done t))) ∧
  (∀ (src : BitVec 2) (s : State),
    let st := s.fget F.PWR_STAT_STATE
    let en := (s.fget F.PWR_WAKE_EN_EN).testBit src.toNat
    let fresh := s.power.exitAt = (s.time.now, s.reg R.HST_ALIVE) ∧ src.toNat < s.fget F.PWR_STAT_LAST_WAKE
    (s.wakeSeen src.toNat = false ∨ en = false ∨
        (st ≠ 4 ∧ s.power.entering = false ∧ (s.power.exiting = true ∨ st = 0) ∧ ¬(s.power.exiting = true ∧ fresh)) ∨ (st = 4 ∧ src ≠ 2) →
      exec (.wake src) s = .next s) ∧
    (s.wakeSeen src.toNat = true → en = true → st ≠ 4 → s.power.entering = true → ∃ t, exec (.wake src) s = .next t ∧
      t.power = { s.power with wakes := t.power.wakes } ∧
      (∀ i < 4, t.power.wakes.getLsbD i = (s.power.wakes.getLsbD i || i == src.toNat)) ∧
      t.bit F.PWR_STAT_PENDING_WAKE = true ∧ s.onlyWords { t with power := s.power } [R.PWR_STAT]) ∧
    (s.wakeSeen src.toNat = true → en = true → st ≠ 4 → s.power.entering = false → s.power.exiting = true → fresh →
      exec (.wake src) s = .next (s.fset F.PWR_STAT_LAST_WAKE src.toNat)) ∧
    (s.wakeSeen src.toNat = true → en = true → 1 ≤ st → st ≤ 3 → s.power.entering = false → s.power.exiting = false →
      ∃ t, exec (.wake src) s = .next t ∧ leaves s t src.toNat ∧
        s.onlyWords { t with power := s.power } [R.PWR_STAT, R.HST_EVT, R.CFG_STAT]) ∧
    (s.wakeSeen src.toNat = true → en = true → st = 4 → src = 2 → ∃ t, exec (.wake src) s = .next t ∧ t.fget F.PWR_STAT_STATE = 0 ∧
      t.bit F.PWR_STAT_TRANSITION = false ∧ t.fget F.PWR_STAT_LAST_WAKE = 2 ∧ t.mem = [] ∧ t.image = {} ∧
      t.store.fuses = s.store.fuses ∧ t.store.cycles = s.store.cycles + 1)) ∧
  (∀ s : State, s.power.exiting = false ∨ (s.fget F.PWR_STAT_STATE = 3 ∧ s.power.reloaded = false) →
    exec .pwrExitComplete s = .next s) ∧
  (∀ s : State, s.power.exiting = true → calm s → s.fget F.PWR_STAT_STATE ≠ 3 ∨ s.power.reloaded = true →
    ∃ t, exec .pwrExitComplete s = .next t ∧ t.fget F.PWR_STAT_STATE = 0 ∧ t.bit F.PWR_STAT_TRANSITION = false ∧
      t.power = { s.power with exiting := false, reloaded := false } ∧ t.bit F.TURN_HOLD_SRC_PWR = false ∧
      (s.fget F.PWR_STAT_STATE < 2 → t.mem = s.mem ∧
        t.core = { s.core with notBefore := some ((s.time.now : Int) + s.spanTime) } ∧
        s.wordsBut t [R.PWR_STAT, R.TURN_HOLD_SRC, R.HST_EVT]) ∧
      (2 ≤ s.fget F.PWR_STAT_STATE → t.pins.latched = none ∧
        t.fget F.PWR_GAP_US_COUNT = (s.reg R.HST_ALIVE - s.power.sleptAt).toNat)) ∧
  ∀ (h : CastHdr) (l : List Bytes) (s : State),
    let due := s.power.exiting = true ∧ s.fget F.PWR_STAT_STATE = 3 ∧ s.power.reloaded = false
    (¬ due → exec (.deepSleepReload h l) s = .next s) ∧
    (due → s.reloadRefusal h l = none → ∃ t, exec (.deepSleepReload h l) s = .next t ∧ t.power = { s.power with reloaded := true } ∧
      t.instrs = s.image.instrs ∧ t.bit F.ACT_STAT_RUNNING = true ∧ t.strands = s.strands ∧ t.fget F.CFG_STAT_STATE = 5 ∧
      (t.bit F.TURN_CFG_LOCK_SRC = true → t.bit F.TURN_HOLD_SRC_LOCK = true ∧ t.bit F.TURN_STAT_LOCK_WAIT = true) ∧
      (t.bit F.TURN_CFG_LOCK_SRC = false → t.core.origin = t.core.boundary)) ∧
    ∀ c i, due → s.reloadRefusal h l = some (c, i) → ∃ t, exec (.deepSleepReload h l) s = .next t ∧
      t.power = { s.power with reloaded := true } ∧ t.fget F.CFG_STAT_STATE = 6 ∧ t.fget F.CFG_REFUSE_CODE = c % 256 ∧
      t.fget F.CFG_REFUSE_SECTION = i % 256 ∧ t.image = {}

/-- GATEABLE of a domain in the running image's footprint (with no image none: the model's reading, log entry 119) holds exactly
for a strand die without a declared cord, a DRAM stack whose granules are all free, and a lane set whose lanes are off and
whose channels are idle. DOMAIN_GATE that reaches its register withdraws a held enable during a shutdown, gates a gateable
domain that is on (EN, ON 0 and SHUTTING 1 at once: the model's reading, log entry 86), and otherwise changes nothing.
DOMAIN_GATED, while the network owes the domain an access or an answer, changes nothing, and else ends the shutdown: the bytes
of a gated DRAM stack or strand die are lost and no others, an action half loses its services, a lane set its lanes' words and
status, and a held enable proceeds. DOMAIN_ENABLE is held during a shutdown, changes nothing where EN is 1, and otherwise
starts the power-up, whose end DOMAIN_POWERED shows in ON. (R117, R331, R342, R343) -/
def Obligations.PowerDomains : Prop :=
  (∀ (s : State) (d : Nat), s.domainHere d = true → s.domainOutside d = false → (s.gateable d = true ↔ s.image.committed = true ∧ (
    (2 ≤ d ∧ d < 6 ∧ ∀ i < 32, s.cordOn (32 * (d - 2) + i) = false) ∨
    (12 ≤ d ∧ d < 20 ∧ ∀ i < 48, s.fget (F.BNK_GRN_USE (48 * (d - 12) + i)) = 0) ∨
    (20 ≤ d ∧ ∀ j < 16, let n := 16 * (d - 20) + j
      s.bit (F.LANE_CTL_EN n) = false ∧ (n < 1024 → s.fget (F.CAP_STAT_STATE n) = 0 ∧ s.bit (F.PAT_CTL_EN n) = false ∧
        s.bit (F.PAT_STAT_SHUTTING n) = false))))) ∧
  (∀ (d : BitVec 7) (s : State), s.hostRuns (R.PWR_DOM d.toNat) = true →
    let n := d.toNat
    let shut := s.bit (F.PWR_DOM_SHUTTING n)
    (s.domainHere n = false → exec (.domainGate d) s = .next s ∧ exec (.domainEnable d) s = .next s) ∧
    (s.domainHere n = true →
      (shut = true → exec (.domainGate d) s = .next (s.fset (F.PWR_DOM_PENDING_ENABLE n) 0) ∧
        exec (.domainEnable d) s = .next (s.fset (F.PWR_DOM_PENDING_ENABLE n) 1)) ∧
      (shut = false → s.bit (F.PWR_DOM_EN n) = false ∨ s.gateable n = false → exec (.domainGate d) s = .next s) ∧
      (shut = false → s.bit (F.PWR_DOM_EN n) = true → s.gateable n = true → ∃ t, exec (.domainGate d) s = .next t ∧
        t.bit (F.PWR_DOM_EN n) = false ∧ t.bit (F.PWR_DOM_ON n) = false ∧ t.bit (F.PWR_DOM_SHUTTING n) = true ∧
        (∀ e, e ∈ t.power.powering ↔ e ∈ s.power.powering ∧ e ≠ n) ∧ t.mem = s.mem ∧ s.wordsBut t [R.PWR_DOM n]) ∧
      (shut = false → s.bit (F.PWR_DOM_EN n) = true → exec (.domainEnable d) s = .next s) ∧
      (shut = false → s.bit (F.PWR_DOM_EN n) = false → ∃ t, exec (.domainEnable d) s = .next t ∧
        t.bit (F.PWR_DOM_EN n) = true ∧ t.power = { s.power with powering := s.power.powering ++ [n] } ∧
        s.wordsBut t [R.PWR_DOM n] ∧ t.bit (F.PWR_DOM_ON n) = s.bit (F.PWR_DOM_ON n)))) ∧
  ∀ (d : BitVec 7) (s : State),
    let n := d.toNat
    (s.bit (F.PWR_DOM_SHUTTING n) = false ∨ s.domainOwed n = true → exec (.domainGated d) s = .next s) ∧
    (s.bit (F.PWR_DOM_SHUTTING n) = true → s.domainOwed n = false → n < 86 → ∃ t, exec (.domainGated d) s = .next t ∧
      t.bit (F.PWR_DOM_SHUTTING n) = false ∧ t.bit (F.PWR_DOM_PENDING_ENABLE n) = false ∧
      (s.bit (F.PWR_DOM_PENDING_ENABLE n) = true → t.bit (F.PWR_DOM_EN n) = true ∧ t.power.powering = s.power.powering ++ [n]) ∧
      (s.bit (F.PWR_DOM_PENDING_ENABLE n) = false → t.bit (F.PWR_DOM_EN n) = s.bit (F.PWR_DOM_EN n) ∧ t.power = s.power) ∧
      (∀ u < 64, 8 + u / 32 = n → t.actUnit u = {}) ∧
      (∀ l < 1056, 20 + l / 16 = n → t.lane l = {} ∧ SMap.find t.caps l = none ∧ SMap.find t.pats l = none) ∧
      (n ≠ 10 → n ≠ 11 → ∀ a, a < 0x14000000 ∨ dramBase ≤ a → t.rdByte a =
        (if (2 ^ 48 ≤ a ∧ n = 2 + (a - 2 ^ 48) / 2 ^ 18 / 32) ∨ (dramBase ≤ a ∧ a < 2 ^ 48 ∧ n = 12 + stackOf a)
         then 0 else s.rdByte a))) ∧
    (n ∉ s.power.powering → exec (.domainPowered d) s = .next s) ∧
    (n ∈ s.power.powering → ∃ t, exec (.domainPowered d) s = .next t ∧ t.bit (F.PWR_DOM_ON n) = true ∧
      n ∉ t.power.powering ∧ (∀ e, e ≠ n → (e ∈ t.power.powering ↔ e ∈ s.power.powering)) ∧ t.mem = s.mem)

/-- A held record whose time has come, alone in the queue of an inactive trace, makes the trace active exactly when START_SEL
selects a comparator or a range that matches: it is a TXN or PORT record; comparator i of the 16 matches when (record address
XOR ADDR) AND MASK is 0 and its ACC is 0, or 1 for a read, or 2 for a write; range j of the 8 matches when LO ≤ record address
≤ HI. PROBE and CANCEL records match none. A response is tested with the address of its request: that is the address of the
response packet, which the record of a delivered response has. (R347) -/
def Obligations.TraceTests : Prop :=
  let tested := fun (r : TraceRec) (a acc : Nat) =>
    (∃ resp op p n, r = .txn resp op p n ∧ a = p.addr.toNat ∧ acc = (if op = 0 ∨ op = 8 then 1 else 2)) ∨
    (∃ w c q m st x be tn v, r = .port w c q m st x be tn v ∧ a = x.toNat ∧ acc = (if w then 2 else 1))
  (∀ (s : State) (q : QueuedRec), s.trace.queue = [q] → s.trace.lost = 0 → s.bit F.TRC_STAT_ACTIVE = false →
    s.reg R.TRC_STOP_SEL = 0 → s.traceDue = true →
    ∃ t, exec .tracePacketWrite s = .next t ∧ t.trace.queue = [] ∧ (t.bit F.TRC_STAT_ACTIVE = true ↔
      ∃ a acc, tested q.item a acc ∧
        ((∃ i < 16, (s.reg R.TRC_START_SEL).getLsbD i = true ∧
            (a ^^^ s.wget (W.TRC_CMP_ADDR i)) &&& s.wget (W.TRC_CMP_MASK i) = 0 ∧
            (s.fget (F.TRC_CMP_ACC i) = 0 ∨ s.fget (F.TRC_CMP_ACC i) = acc)) ∨
          ∃ j < 8, (s.reg R.TRC_START_SEL).getLsbD (16 + j) = true ∧ s.wget (W.TRC_RNG_LO j) ≤ a ∧ a ≤ s.wget (W.TRC_RNG_HI j)))) ∧
  (∀ (s : State) (p : Packet) (data : Bool) (st : Nat) (l : List W128),
    ∃ r, (s.respond p data st l).ring.resps = s.ring.resps ++ [r] ∧ r.p.addr = p.addr) ∧
  ∀ (s : State) (p : Packet) (e : Nat) (r : Response) (rest : List Response),
    takeResponse true p s.ring.resps = some (r, rest) → s.answerOpen r = true →
    s.traceAdmits (.txn true 8 r.p r.p.dstStn.toNat) = true → s.bit F.TRC_STAT_FULL = false → s.trace.queue.length < 100 →
    (∀ n < 64, s.bit (F.NOC_PRB_CTL_EN n) = false) →
    ∃ t, exec (.respData p e) s = .next t ∧ r.p.addr = p.addr ∧
      t.trace.queue = s.trace.queue ++ [⟨.txn true 8 r.p r.p.dstStn.toNat, s.time.now⟩]

/-- TRACE_RECORD of a record that no enable admits changes nothing; an admitted one joins the queue with the device time, or is
lost and counted when the queue of 256 or the buffer is full. TRACE_PACKET_WRITE takes the first record in the order of stamp,
kind and number, once 512 ns have passed since its stamp, and before changes nothing; an active record's packet joins the line
with DT (modulo 2^16: the model's reading, log entry 57), and is copied to the port where that is open and free, a byte a
nanosecond (beside an earlier packet whether it is dropped is free, log entry 88); the first after an enable follows a START
SYNC; an inactive trace drops it; a FULL buffer counts it as lost. TRACE_ENABLE that reaches its register changes nothing
where EN is 1, is held during a flush, is refused with BADBUF for a buffer that breaks R351, and else starts at WPTR 0.
TRACE_DISABLE withdraws a held enable; where EN is 1 every held record is written, SHUTTING is 1 and ACTIVE 0. TRACE_FLUSH
and, 10 us after the last packet, TRACE_IDLE_FLUSH write the partial line padded with zeros and nothing else to the buffer; a
FLUSH in the flush of a disable, or with an empty line, changes nothing. TRACE_SHUTDOWN_DONE ends the flush, and a held enable
then starts. (R345, R346, R348, R349, R350, R351, R352, R353, R354, R355, R343) -/
def Obligations.TraceUnit : Prop :=
  (∀ (r : TraceRec) (s : State),
    let chosen := match r with
      | .txn resp _ p _ => let m := (if resp then p.dstId else p.src).toNat; decide (m < 0x80) && s.selBit R.TRC_MSTR m
      | .port _ c _ _ _ _ _ _ _ => s.bit F.TRC_CTL_DMP && s.selBit R.TRC_DMP_CORD c.toNat
      | _ => s.bit F.TRC_CTL_PROBE
    let takes := s.bit F.TRC_CTL_EN = true ∧ s.bit F.TRC_STAT_SHUTTING = false ∧ s.fget F.PWR_STAT_STATE < 2 ∧ chosen = true
    (¬ takes → exec (.traceRecord r) s = .next s) ∧
    (takes → s.bit F.TRC_STAT_FULL = true → exec (.traceRecord r) s = .next (s.count F.TRC_LOST_COUNT 1)) ∧
    (takes → s.bit F.TRC_STAT_FULL = false → s.trace.queue.length < 256 →
      exec (.traceRecord r) s = .next { s with trace := { s.trace with queue := s.trace.queue ++ [⟨r, s.time.now⟩] } }) ∧
    (takes → s.bit F.TRC_STAT_FULL = false → 256 ≤ s.trace.queue.length → ∃ t, exec (.traceRecord r) s = .next t ∧
      t.trace = { s.trace with lost := s.trace.lost + 1 } ∧ t.bit F.TRC_STAT_OVF = true ∧
      t.fget F.TRC_LOST_COUNT = min (2 ^ 32 - 1) (s.fget F.TRC_LOST_COUNT + 1))) ∧
  (∀ s : State, (s.traceDue = true ↔ ∃ q ∈ s.trace.queue, q.stamp + 33554432 ≤ s.time.now) ∧
    (s.traceDue = false → exec .tracePacketWrite s = .next s) ∧
    (s.traceDue = true → ∃ t, exec .tracePacketWrite s = .next t ∧ ∃ q ∈ s.trace.queue,
      (∀ x ∈ s.trace.queue, q.stamp < x.stamp ∨ (q.stamp = x.stamp ∧ recRank q.item ≤ recRank x.item)) ∧
      t.trace.queue.Perm (s.trace.queue.erase q))) ∧
  (∀ (s : State) (q : QueuedRec), s.trace.queue = [q] → s.trace.lost = 0 → s.reg R.TRC_STOP_SEL = 0 →
    q.stamp + 33554432 ≤ s.time.now →
    let data := s.bit F.TRC_CTL_DATA
    let n := (recPacket data 0 q.item).length
    let pos := s.fget F.TRC_WPTR_WPTR + s.trace.line.length
    let copied := fun (l : Bytes) =>
      if s.bit F.TRC_CTL_PORT_EN && !s.debugClosed then [(s.time.now + 65536 * l.length, l)] else []
    let portIdle := s.bit F.TRC_CTL_PORT_EN = false ∨ s.debugClosed = true ∨ s.portFree ≤ s.time.now
    (s.bit F.TRC_STAT_ACTIVE = false → s.reg R.TRC_START_SEL = 0 →
      exec .tracePacketWrite s = .next { s with trace := { s.trace with queue := [], room := false } }) ∧
    (s.bit F.TRC_STAT_ACTIVE = true → s.reg R.TRC_QUAL_SEL = 0 →
      (s.bit F.TRC_STAT_FULL = true →
        exec .tracePacketWrite s =
          .next ({ s with trace := { s.trace with queue := [], room := false } }.count F.TRC_LOST_COUNT 1)) ∧
      (s.bit F.TRC_STAT_FULL = false → s.trace.owed = 0 → s.trace.sinceSync < 4096 →
        q.stamp ≤ s.trace.lastSync + 65536000 → pos % 4096 ≠ 0 → pos % 4096 + n ≤ 4096 → s.trace.line.length + n < 64 →
        let bs := recPacket data (packetDt s.trace.lastPkt q.stamp) q.item
        ∃ t, exec .tracePacketWrite s = .next t ∧ t.trace.line = s.trace.line ++ bs ∧ t.trace.queue = [] ∧
          t.trace.lastPkt = q.stamp ∧ t.trace.sinceSync = s.trace.sinceSync + 1 ∧ t.mem = s.mem ∧
          (portIdle → t.trace.portOut = s.trace.portOut ++ copied bs ∧
            s.onlyWords { t with trace := s.trace } [R.TRC_PKTS]) ∧
          t.fget F.TRC_PKTS_COUNT = min (2 ^ 32 - 1) (s.fget F.TRC_PKTS_COUNT + 1)) ∧
      (s.bit F.TRC_STAT_FULL = false → s.trace.owed = 1 → pos % 4096 + 32 + n ≤ 4096 → s.trace.line.length + 32 + n < 64 →
        let sync := leBytes 1 1 ++ leBytes 1 1 ++ leBytes 2 0 ++ leBytes 12 (timeBits s.time.now) ++ leBytes 8 s.turnNum ++
          leBytes 8 0
        ∃ t, exec .tracePacketWrite s = .next t ∧ t.trace.owed = 0 ∧ t.trace.lastSync = s.time.now ∧ t.mem = s.mem ∧
          t.trace.line = s.trace.line ++ sync ++ recPacket data (packetDt s.time.now q.stamp) q.item))) ∧
  (∀ s : State, let base := s.wget W.TRC_BASE_BASE
    let last := base + s.fget F.TRC_SIZE_SIZE - 1
    s.bufOk = true ↔ base % 4096 = 0 ∧ s.fget F.TRC_SIZE_SIZE % 4096 = 0 ∧ 4096 ≤ s.fget F.TRC_SIZE_SIZE ∧
      (s.bit F.TRC_CTL_BUF = false → s.inScratch base = true ∧ s.inScratch last = true ∧ bankOf base = bankOf last ∧
        s.fget (F.BNK_OWN_OWNER (bankOf base)) = 0x70 ∧ s.bit (F.BNK_OWN_CORDS (bankOf base)) = false) ∧
      (s.bit F.TRC_CTL_BUF = true → s.inDram base = true ∧ s.inDram last = true ∧
        ∀ g < 384, granuleOf base ≤ g → g ≤ granuleOf last → s.fget (F.BNK_GRN_USE g) = 4)) ∧
  (∀ s : State, s.hostRuns R.TRC_CTL = true →
    (s.bit F.TRC_CTL_EN = true → exec .traceEnable s = .next s) ∧
    (s.bit F.TRC_CTL_EN = false → s.bit F.TRC_STAT_SHUTTING = true →
      exec .traceEnable s = .next (s.fset F.TRC_STAT_PENDING_ENABLE 1)) ∧
    (s.bit F.TRC_CTL_EN = false → s.bit F.TRC_STAT_SHUTTING = false → s.bufOk = false → ∃ t, exec .traceEnable s = .next t ∧
      t.bit F.TRC_CTL_EN = false ∧ t.bit F.TRC_STAT_BADBUF = true ∧ s.onlyWords t [R.TRC_CTL, R.TRC_STAT]) ∧
    (s.bit F.TRC_CTL_EN = false → s.bit F.TRC_STAT_SHUTTING = false → s.bufOk = true → ∃ t, exec .traceEnable s = .next t ∧
      t.bit F.TRC_CTL_EN = true ∧ t.fget F.TRC_WPTR_WPTR = 0 ∧ t.bit F.TRC_STAT_FULL = false ∧ t.bit F.TRC_STAT_WRAPPED = false ∧
      (t.bit F.TRC_STAT_ACTIVE = true ↔ s.reg R.TRC_START_SEL = 0) ∧ t.trace.owed = 1 ∧ t.trace.line = [] ∧
      s.onlyWords { t with trace := s.trace } [R.TRC_CTL, R.TRC_STAT, R.TRC_WPTR]) ∧
    (s.bit F.TRC_CTL_EN = false → exec .traceDisable s = .next (s.fset F.TRC_STAT_PENDING_ENABLE 0)) ∧
    (s.bit F.TRC_CTL_EN = true → ∃ t, exec .traceDisable s = .next t ∧ t.bit F.TRC_CTL_EN = false ∧
      t.bit F.TRC_STAT_SHUTTING = true ∧ t.bit F.TRC_STAT_ACTIVE = false ∧ t.bit F.TRC_STAT_PENDING_ENABLE = false ∧
      t.trace.queue = []) ∧
    (s.bit F.TRC_STAT_SHUTTING = true ∨ s.trace.line = [] → exec .traceFlush s = .next s)) ∧
  (∀ (s : State) (c : Instr),
    (c = .traceFlush ∧ s.hostRuns R.TRC_CTL = true ∧ s.bit F.TRC_STAT_SHUTTING = false) ∨
    (c = .traceIdleFlush ∧ s.traceQuiet = true) →
    let a := s.wget W.TRC_BASE_BASE + s.fget F.TRC_WPTR_WPTR
    (s.trace.line = [] → exec c s = .next s) ∧
    (s.trace.line ≠ [] → s.trace.line.length < 64 → s.fget F.TRC_WPTR_WPTR % 64 = 0 →
      s.fget F.TRC_WPTR_WPTR + 64 < s.fget F.TRC_SIZE_SIZE → s.bit F.TRC_CTL_BUF = false → s.inScratch a = true →
      s.bankAnswer (bankOf a) 0x70 = .granted →
      ∃ t, exec c s = .next t ∧ t.trace.line = [] ∧ t.fget F.TRC_WPTR_WPTR = s.fget F.TRC_WPTR_WPTR + 64 ∧
        t.rdBytes a 64 = s.trace.line ++ List.replicate (64 - s.trace.line.length) 0 ∧
        (∀ x, x < a ∨ a + 64 ≤ x → t.rdByte x = s.rdByte x) ∧ s.wordsBut t [R.TRC_WPTR])) ∧
  (∀ s : State, s.time.now < s.trace.lastPkt + 655360000 → exec .traceIdleFlush s = .next s) ∧
  ∀ s : State, (s.bit F.TRC_STAT_SHUTTING = false → exec .traceShutdownDone s = .next s) ∧
    (s.bit F.TRC_STAT_SHUTTING = true → s.bit F.TRC_STAT_PENDING_ENABLE = false →
      exec .traceShutdownDone s = .next (s.fset F.TRC_STAT_SHUTTING 0)) ∧
    (s.bit F.TRC_STAT_SHUTTING = true → s.bit F.TRC_STAT_PENDING_ENABLE = true → ∃ t, exec .traceShutdownDone s = .next t ∧
      t.bit F.TRC_STAT_SHUTTING = false ∧ t.bit F.TRC_STAT_PENDING_ENABLE = false ∧ t.bit F.TRC_CTL_EN = s.bufOk ∧
      (s.bufOk = false → t.bit F.TRC_STAT_BADBUF = true))

/-- A whole write of the host that reaches its block, or of another listed master outside reset, to a register of one word whose
write has no rule beyond its fields' access types gives RW and RWL fields the bits written, clears the W1C bits written 1, and
leaves RO, RC and WO bits and every other register as they were; of a value of several words the lower words written are
staged, and all take effect with the highest, which ends their staging. A write to a value with no writable field changes
nothing. A read at a value's lowest word answers it, captures its upper words, clears its RC fields and changes nothing else.
A reserved master's access changes nothing. So a trigger counter's CMP takes the value written, a narrow write is discarded, a
probe's address limit takes effect with its upper word, HST_POLL does not change, and 1s written to PWR_STAT clear REFUSED and
TIME_STOPPED alone; an upper word reads as captured, a narrow read answers the bytes addressed, a read of PWR_ASLEEP_ACC
clears it. In Sleep and Deep sleep a read of another block answers 0 and a write is discarded, both are counted, and without
wake bit 3 nothing else happens. A device in reset or Off answers all ones of HST_ID, and in reset 0 of HST_ALIVE and 0 to
other masters, whose writes then change nothing. A register of a gated domain, but for those of a station in use, answers
another master with DOMAIN_ASLEEP, counted. PCIE_PERST_N drops the endpoint's answer and what waits in it, with its
configuration space at reset (the model's reading, log entry 21), and changes nothing else. (R10, R11, R12, R117, R335, R341,
R364, R365, R367, R400) -/
def Obligations.Registers : Prop :=
  let answers := fun (s : State) (v : W32) => { s with host := { s.host with data := v, status := 0 } }
  let at32 := fun (a : Nat) => (BitVec.ofNat 32 a : W32)
  let inner := fun (m : MasterId) (a : Nat) (s : State) => m ≠ 0 ∧ masterOk m = true ∧ s.inReset = false ∧ s.sees m = false ∧
    s.blockAbsent a = false ∧ s.blockOn a = true
  let takes := fun (a : Nat) (x v : W32) => let d := RegMap.desc a
    ((x &&& ~~~BitVec.ofNat 32 (d.rw ||| d.rwl)) ||| (v &&& BitVec.ofNat 32 (d.rw ||| d.rwl))) &&& ~~~(v &&& BitVec.ofNat 32 d.w1c)
  (∀ (m : MasterId) (a : W32) (v : W32) (s : State), let b := a.toNat
    b % 4 = 0 → (m = 0 ∧ s.hostRuns b = true) ∨ inner m b s → (groupAt b).1 % 4 = 0 →
    (groupAt b = (b, 1) → s.plainWrite b = true → groupWritable b 1 = true →
      ∃ t, exec (.registerWrite m a v 4) s = .next t ∧ t.reg b = takes b (s.reg b) v ∧ s.onlyWords t [b]) ∧
    (groupWritable (groupAt b).1 (groupAt b).2 = false → exec (.registerWrite m a v 4) s = .next s) ∧
    (∀ base n, groupAt b = (base, n) → 2 ≤ n → s.plainWrite base = true → groupWritable base n = true →
      (b + 4 < base + 4 * n → exec (.registerWrite m a v 4) s = .next { s with staged := SMap.put s.staged b v }) ∧
      ∀ w : Nat → W32, b + 4 = base + 4 * n → w (n - 1) = v →
        (∀ i, i + 1 < n → SMap.find s.staged (base + 4 * i) = some (w i)) →
        ∃ t, exec (.registerWrite m a v 4) s = .next t ∧ (∀ i < n, t.reg (base + 4 * i) = takes (base + 4 * i) (s.reg (base + 4 * i)) (w i)) ∧
          (∀ x, t.reg x ≠ s.reg x → base ≤ x ∧ x < base + 4 * n) ∧ t.mem = s.mem ∧
          ∀ i, i + 1 < n → SMap.find t.staged (base + 4 * i) = none)) ∧
  (∀ (m : MasterId) (a : W32) (s : State), let b := a.toNat
    b % 4 = 0 → (m = 0 ∧ s.hostReads b = true) ∨ inner m b s → plainRead b = true → (readGroup b).1 = b →
    ∃ t, exec (.registerRead m a 4) s = .next t ∧ t.host.data = s.live b ∧ t.host.status = 0 ∧ t.mem = s.mem ∧
      (∀ i < (readGroup b).2, t.reg (b + 4 * i) = s.reg (b + 4 * i) &&& ~~~BitVec.ofNat 32 (RegMap.desc (b + 4 * i)).rc) ∧
      (∀ x, t.reg x ≠ s.reg x → b ≤ x ∧ x < b + 4 * (readGroup b).2) ∧
      ∀ i, i + 1 < (readGroup b).2 → SMap.find t.snap (b + 4 * (i + 1)) = some (s.live (b + 4 * (i + 1)))) ∧
  (∀ (m : MasterId) (a v : W32) (b : BitVec 3) (s : State), masterOk m = false →
    exec (.registerWrite m a v b) s = .next s ∧ exec (.registerRead m a b) s = .next s) ∧
  (∀ (n : Nat) (v : W32) (b : BitVec 3) (s : State), n < 64 →
    let a := R.TRG_CNT_CMP n
    (s.hostRuns a = true →
      (∃ t, exec (.registerWrite 0 (at32 a) v 4) s = .next t ∧ t.reg a = v ∧ s.wordsBut t [a] ∧ t.mem = s.mem) ∧
      (b ≠ 4 → exec (.registerWrite 0 (at32 a) v b) s = .next s) ∧
      exec (.registerRead 0 (at32 a) 4) s = .next (answers s (s.reg a)) ∧
      ∀ k < 4, exec (.registerRead 0 (at32 (a + k)) 1) s =
        .next (answers s (BitVec.ofNat 32 ((s.reg a).toNat / 256 ^ k % 256)))) ∧
    (∀ m : MasterId, m ≠ 0 → masterOk m = true →
      (s.inReset = true → exec (.registerWrite m (at32 a) v b) s = .next s ∧
        exec (.registerRead m (at32 a) b) s = .next (answers s 0)) ∧
      (s.inReset = false → s.sees m = false → s.bit (F.PWR_DOM_ON 0) = true →
        (∃ t, exec (.registerWrite m (at32 a) v 4) s = .next t ∧ t.reg a = v ∧ s.wordsBut t [a] ∧ t.mem = s.mem) ∧
        exec (.registerRead m (at32 a) 4) s = .next (answers s (s.reg a)))) ∧
    (s.hostAway = false → s.reg R.HST_LINK ≠ 0 → s.asleep = true → (s.fget F.PWR_WAKE_EN_EN).testBit 3 = false →
      exec (.registerWrite 0 (at32 a) v 4) s = .next (s.count F.PWR_ASLEEP_ACC_COUNT 1) ∧
      exec (.registerRead 0 (at32 a) 4) s = .next ((answers s 0).count F.PWR_ASLEEP_ACC_COUNT 1))) ∧
  (∀ (n : Nat) (v w : W32) (s : State), n < 64 →
    let a := R.NOC_PRB_ALO n
    s.hostRuns a = true →
    exec (.registerWrite 0 (at32 a) v 4) s = .next { s with staged := SMap.put s.staged a v } ∧
    (SMap.find s.staged a = some v → ∃ t, exec (.registerWrite 0 (at32 (a + 4)) w 4) s = .next t ∧
      t.wget (W.NOC_PRB_ALO_ADDR n) = v.toNat + 2 ^ 32 * (w.toNat % 2 ^ 16) ∧ SMap.find t.staged a = none ∧
      s.wordsBut t [a, a + 4]) ∧
    (∃ t, exec (.registerRead 0 (at32 a) 4) s = .next t ∧ t.host.data = s.reg a ∧
      SMap.find t.snap (a + 4) = some (s.reg (a + 4)) ∧ t.regs = s.regs) ∧
    (SMap.find s.snap (a + 4) = some w → exec (.registerRead 0 (at32 (a + 4)) 4) s = .next (answers s w))) ∧
  (∀ (v : W32) (s : State),
    (s.hostRuns R.HST_POLL = true → exec (.registerWrite 0 (at32 R.HST_POLL) v 4) s = .next s) ∧
    (s.hostRuns R.PWR_STAT = true → ∃ t, exec (.registerWrite 0 (at32 R.PWR_STAT) v 4) s = .next t ∧
      t.reg R.PWR_STAT = s.reg R.PWR_STAT &&& ~~~(v &&& 0x60) ∧ s.wordsBut t [R.PWR_STAT])) ∧
  (∀ s : State, (s.hostAway = false → s.hostFree (.read R.PWR_ASLEEP_ACC 4) = true →
      ∃ t, exec (.registerRead 0 (at32 R.PWR_ASLEEP_ACC) 4) s = .next t ∧
      t.host.data = s.reg R.PWR_ASLEEP_ACC ∧ t.reg R.PWR_ASLEEP_ACC = 0 ∧ s.wordsBut t [R.PWR_ASLEEP_ACC] ∧
      t.power = s.power) ∧
    (s.hostAway = true → exec (.registerRead 0 (at32 R.HST_ID) 4) s = .next (answers s 0xFFFFFFFF)) ∧
    (s.inReset = true → exec (.registerRead 0 (at32 R.HST_ALIVE) 4) s = .next (answers s 0))) ∧
  (∀ (m : MasterId) (a : W32) (b : BitVec 3) (s : State), m ≠ 0 → masterOk m = true → s.inReset = false → s.sees m = false →
    s.blockAbsent (a.toNat / 4 * 4) = false → s.blockOn a.toNat = false →
    ∃ t, exec (.registerRead m a b) s = .next t ∧ t.host.data = 0 ∧ t.host.status = 1 ∧
      t.fget F.NOC_ASLEEP_RESP_COUNT = min (2 ^ 32 - 1) (s.fget F.NOC_ASLEEP_RESP_COUNT + 1) ∧
      s.wordsBut t [R.NOC_ASLEEP_RESP]) ∧
  ∀ s : State, exec (.pciePerstN false) s = .next s ∧
    exec (.pciePerstN true) s = .next { s with host := { s.host with data := 0, status := 0, queue := [], config := {} } }

/-- DMA_TAIL that reaches its register gives TAIL the index, or sets TAIL_BAD for one of 2^K or more. DMA_ENABLE changes nothing
where EN is 1, is held while the engine shuts down, and else sets EN. DMA_DISABLE withdraws a held enable; a busy engine then
finishes its descriptor, whose completion word keeps its place, another stops with HEAD at 0 (the model's reading, log entry
66). DMA_DESCRIPTOR_DONE of a device away or asleep, of an engine that is off or owns no descriptor, or while a read waits in
its bank, changes nothing. A descriptor with a reserved field, an unaligned or empty range, or a range outside DRAM and one
scratch bank writes only its completion word with FORMAT; any other writes its bytes, 0 for the reads refused, and the
completion word with its tag, length and code (OK, or SRC_DENIED if a read was refused); device memory stays, a code other
than OK sets ERR, and HEAD goes on by one modulo 2^K, or the engine that shuts down stops, with a held enable served. (R136,
R139, R343, R368, R369, R370, R371) -/
def Obligations.DmaEngines : Prop :=
  (∀ (e : BitVec 4) (v : W32) (s : State), s.hostRuns (R.DMA_TAIL e.toNat) = true →
    let k := e.toNat
    let i := v.toNat % 2 ^ 16
    (i < 2 ^ s.fget (F.DMA_CTL_K k) → ∃ t, exec (.dmaTail e v) s = .next t ∧ t.fget (F.DMA_TAIL_INDEX k) = i ∧
      s.onlyWords t [R.DMA_TAIL k]) ∧
    (2 ^ s.fget (F.DMA_CTL_K k) ≤ i → ∃ t, exec (.dmaTail e v) s = .next t ∧ t.bit (F.DMA_STAT_TAIL_BAD k) = true ∧
      s.onlyWords t [R.DMA_STAT k, R.HST_EVT])) ∧
  (∀ (e : BitVec 4) (s : State), s.hostRuns (R.DMA_CTL e.toNat) = true →
    let k := e.toNat
    let on := s.bit (F.DMA_CTL_EN k)
    let shut := s.bit (F.DMA_STAT_SHUTTING k)
    (on = true → exec (.dmaEnable e) s = .next s) ∧
    (on = false → shut = true → exec (.dmaEnable e) s = .next (s.fset (F.DMA_STAT_PENDING_ENABLE k) 1)) ∧
    (on = false → shut = false → exec (.dmaEnable e) s = .next (s.fset (F.DMA_CTL_EN k) 1)) ∧
    (on = false → exec (.dmaDisable e) s = .next (s.fset (F.DMA_STAT_PENDING_ENABLE k) 0)) ∧
    (on = true → ∃ t, exec (.dmaDisable e) s = .next t ∧ t.bit (F.DMA_CTL_EN k) = false ∧
      t.bit (F.DMA_STAT_PENDING_ENABLE k) = false ∧
      s.onlyWords { t with host := s.host } [R.DMA_CTL k, R.DMA_STAT k, R.DMA_HEAD k] ∧
      (let busy := shut = true ∨ s.fget (F.DMA_HEAD_INDEX k) ≠ s.fget (F.DMA_TAIL_INDEX k)
       (busy → t.bit (F.DMA_STAT_SHUTTING k) = true ∧ t.reg (R.DMA_HEAD k) = s.reg (R.DMA_HEAD k) ∧
         SMap.find t.host.cmpl k = some (s.wget (W.DMA_RING_ADDR k) + 32 * s.fget (F.DMA_HEAD_INDEX k) + 0x18)) ∧
       (¬ busy → t.bit (F.DMA_STAT_SHUTTING k) = false ∧ t.fget (F.DMA_HEAD_INDEX k) = 0 ∧ t.host = s.host)))) ∧
  ∀ (e : BitVec 4) (desc : Bytes) (s : State),
    let k := e.toNat
    let h := s.fget (F.DMA_HEAD_INDEX k)
    let src := num desc 0 8
    let dst := num desc 8 8
    let len := num desc 0x10 4
    let runs := s.hostAway = false ∧ s.asleep = false ∧
      (s.bit (F.DMA_STAT_SHUTTING k) = true ∨ (s.bit (F.DMA_CTL_EN k) = true ∧ h ≠ s.fget (F.DMA_TAIL_INDEX k))) ∧
      desc.length = 32
    let bad := src % 64 ≠ 0 ∨ dst % 64 ≠ 0 ∨ len % 64 ≠ 0 ∨ len = 0 ∨ num desc 0x16 2 ≠ 0 ∨ s.dmaInside src len = false
    let cmpl := match SMap.find s.host.cmpl k with
      | some x => if s.bit (F.DMA_STAT_SHUTTING k) then x else s.wget (W.DMA_RING_ADDR k) + 32 * h + 0x18
      | none => s.wget (W.DMA_RING_ADDR k) + 32 * h + 0x18
    let ends := fun (t : State) (code bytes : Nat) (data : Nat → Byte) =>
      t.mem = s.mem ∧
      (∀ i < 8, SMap.find t.host.mem ((cmpl + i) % 2 ^ 64) =
        some (BitVec.ofNat 8 ((1 + code * 2 + num desc 0x14 2 * 2 ^ 16 + bytes * 2 ^ 32) / 256 ^ i))) ∧
      (∀ x, x < 2 ^ 64 → (∀ i < 8, x ≠ (cmpl + i) % 2 ^ 64) →
        (∀ i < bytes, x = (dst + i) % 2 ^ 64 → SMap.find t.host.mem x = some (data i)) ∧
        ((∀ i < bytes, x ≠ (dst + i) % 2 ^ 64) → SMap.find t.host.mem x = SMap.find s.host.mem x)) ∧
      t.bit (F.DMA_STAT_ERR k) = (s.bit (F.DMA_STAT_ERR k) || code != 0) ∧
      (s.bit (F.DMA_STAT_SHUTTING k) = false →
        t.fget (F.DMA_HEAD_INDEX k) = (h + 1) % 2 ^ s.fget (F.DMA_CTL_K k) % 2 ^ 16 ∧
        t.bit (F.DMA_CTL_EN k) = s.bit (F.DMA_CTL_EN k)) ∧
      (s.bit (F.DMA_STAT_SHUTTING k) = true → t.fget (F.DMA_HEAD_INDEX k) = 0 ∧ t.bit (F.DMA_STAT_SHUTTING k) = false ∧
        t.bit (F.DMA_STAT_PENDING_ENABLE k) = false ∧
        t.bit (F.DMA_CTL_EN k) = (s.bit (F.DMA_CTL_EN k) || s.bit (F.DMA_STAT_PENDING_ENABLE k)))
    (¬ runs → exec (.dmaDescriptorDone e desc) s = .next s) ∧
    (runs → bad → ∃ t, exec (.dmaDescriptorDone e desc) s = .next t ∧ ends t 2 0 fun _ => 0) ∧
    (runs → ¬ bad → (∃ a ∈ dmaParts desc, s.dmaAnswer a = .waits) → exec (.dmaDescriptorDone e desc) s = .next s) ∧
    (runs → ¬ bad → (∀ a ∈ dmaParts desc, s.dmaAnswer a ≠ .waits) →
      ∃ t, exec (.dmaDescriptorDone e desc) s = .next t ∧
        ends t (if ∀ a ∈ dmaParts desc, s.dmaAnswer a = .granted then 0 else 1) len fun i =>
          if s.dmaAnswer (src + i / 64 * 64) = .granted then s.rdByte (src + i) else 0)

/-- ATTEST_GO that reaches its register while BUSY sets BUSY_REFUSED alone; otherwise it keeps the request and the snapshot of the
report's values, sets BUSY, and a MODE 1 request clears SK. The snapshot is 0xE8 bytes long with "AYAT", version 1, the mode
and nonce of the request, and the counters at 0xA8. ATTEST_DONE with no request changes nothing; a request with a reserved
mode or nonzero reserved bytes (the request bytes given as 0 count among them, log entry 61) or with no valid point ends with
BAD_REQ, MODE 2 without a session with NO_SESSION, both with a report of zeros; MODE 0 shows the snapshot, 96 zero bytes and a
signature, MODE 1 leaves the agreed key in the unit, MODE 2 shows the snapshot, 96 zero bytes, their HMAC under SK and 32 zero
bytes. RB_ADVANCE takes the value exactly when it is above the counter and at most ELIG, and else sets REFUSED. (R381, R382,
R383, R384, R385, R386) -/
def Obligations.Attestation : Prop :=
  let ended := fun (s t : State) (code : Nat) => t.sec.att = none ∧ t.bit F.SEC_ATT_STAT_BUSY = false ∧
    t.bit F.SEC_ATT_STAT_DONE = true ∧ t.fget F.SEC_ATT_STAT_CODE = code ∧ (code ≠ 0 → t.words (R.SEC_ATT_REP 0) 128 = 0) ∧
    t.mem = s.mem ∧ t.store = s.store ∧ (∀ a, a ≠ R.SEC_ATT_STAT → a < 0x61100 ∨ 0x61300 ≤ a → t.reg a = s.reg a)
  (∀ s : State, s.hostRuns R.SEC_ATT_CTL = true →
    (s.bit F.SEC_ATT_STAT_BUSY = true → exec .attestGo s = .next (s.fset F.SEC_ATT_STAT_BUSY_REFUSED 1)) ∧
    (s.bit F.SEC_ATT_STAT_BUSY = false → ∃ t, exec .attestGo s = .next t ∧
      t.sec = { s.sec with att := some (s.attRequest, s.attSnapshot s.attRequest)
                           sk := if num s.attRequest 0 2 = 1 then none else s.sec.sk } ∧
      t.bit F.SEC_ATT_STAT_BUSY = true ∧ s.onlyWords { t with sec := s.sec } [R.SEC_ATT_STAT])) ∧
  (∀ (s : State) (req : Bytes), req.length = 0xB8 → let r := s.attSnapshot req
    r.length = 0xE8 ∧ slice r 0 4 = [0x41, 0x59, 0x41, 0x54] ∧ num r 4 2 = 1 ∧ slice r 6 2 = slice req 0 2 ∧
    slice r 8 32 = slice req 8 32 ∧ num r 0x28 2 = s.part.toNat ∧ num r 0x2C 4 = s.sec.partCount % 2 ^ 32 ∧
    num r 0x44 1 = s.fget F.CFG_STAT_ENTRY ∧ num r 0x48 32 = s.sec.castMeas.toNat ∧ num r 0x88 32 = s.fuseMeas.toNat ∧
    ∀ i < 16, num r (0xA8 + 4 * i) 4 = s.fget (F.SEC_RB_CNT_COUNT i)) ∧
  (∀ s : State, s.sec.att = none → exec .attestDone s = .next s) ∧
  (∀ (s : State) (req snap : Bytes), s.sec.att = some (req, snap) → req.length = 0xB8 → snap.length = 0xE8 →
    let mode := num req 0 2
    let bad := 2 < mode ∨ (∃ i, 2 ≤ i ∧ i < 8 ∧ req.getD i 0 ≠ 0) ∨
      (mode ≠ 1 ∧ ∃ i, 0x28 ≤ i ∧ i < 0xB8 ∧ req.getD i 0 ≠ 0)
    let body := snap ++ List.replicate 96 0
    (bad → ∃ t, exec .attestDone s = .next t ∧ ended s t 1 ∧ t.sec.sk = s.sec.sk) ∧
    (¬ bad → mode = 0 → ∃ t, exec .attestDone s = .next t ∧ ended s t 0 ∧ t.sec.sk = s.sec.sk ∧
      leBytes 0x148 (t.words (R.SEC_ATT_REP 0) 128) = body) ∧
    (¬ bad → mode = 1 →
      let x := Config.sm2Exchange s.free (s.fuseBytes 4 8) s.idB (slice req 0x28 16) (slice req 0x38 64) (slice req 0x78 64)
      (x = none → ∃ t, exec .attestDone s = .next t ∧ ended s t 1 ∧ t.sec.sk = s.sec.sk) ∧
      ∀ r v k, x = some (r, v, k) → ∃ t, exec .attestDone s = .next t ∧ ended s t 0 ∧ t.sec.sk = some k ∧
        leBytes 0xE8 (t.words (R.SEC_ATT_REP 0) 128) = snap) ∧
    (¬ bad → mode = 2 →
      (s.sec.sk = none → ∃ t, exec .attestDone s = .next t ∧ ended s t 2 ∧ t.sec.sk = none) ∧
      ∀ k, s.sec.sk = some k → ∃ t, exec .attestDone s = .next t ∧ ended s t 0 ∧ t.sec.sk = some k ∧
        leBytes 0x188 (t.words (R.SEC_ATT_REP 0) 128) =
          body ++ hmacSm3 (leBytes 16 k.toNat) body ++ List.replicate 32 0)) ∧
  ∀ (i : BitVec 4) (s : State), s.hostRuns R.SEC_RB_CTL = true →
    let v := s.fget F.SEC_RB_VAL_VALUE
    let takes := s.fget (F.SEC_RB_CNT_COUNT i.toNat) < v ∧ v ≤ s.elig i.toNat
    (takes → ∃ t, exec (.rbAdvance i) s = .next t ∧ t.fget (F.SEC_RB_CNT_COUNT i.toNat) = v ∧ t.bit F.SEC_RB_STAT_DONE = true ∧
      s.onlyWords t [R.SEC_RB_CTL, R.SEC_RB_STAT, R.SEC_RB_CNT i.toNat]) ∧
    (¬ takes → ∃ t, exec (.rbAdvance i) s = .next t ∧ t.bit F.SEC_RB_STAT_REFUSED = true ∧
      s.onlyWords t [R.SEC_RB_CTL, R.SEC_RB_STAT])

/-- FUSE_PROGRAM that reaches its register shows WORD; with GO it is refused for a wrong key, a bit that is not host-programmable
once FACTORY_DONE is 1 (such a request is refused whole: the model's reading, log entry 62), while BUSY, and outside COMMITTED
and REFUSED, and otherwise sets BUSY. FUSE_PROGRAM_DONE of no request changes nothing; it adds the requested bits that took to
the word and no others, with DONE if all are set and else FAIL, and closing the debug access replaces a private instruction by
BYPASS. While TRST_N is asserted or in Off the TAP's commands change nothing; else each loads its instruction with its data
register: IDCODE, the lifetime counters, the stored board ID; SAMPLE/PRELOAD and EXTEST sample the pins; BOARD_ID writes a
value with bit 32 in reset alone; a private instruction is BYPASS once DEBUG_CLOSE is 1, and before resets the security unit
(session key, cast key and attestation are gone: the model's reading, log entry 63) and sets DEBUG_SEEN; BOARD_ID and LIFETIME
have the codes 0x3A and 0x3B. TRST_N resets the TAP to IDCODE (the model's choice, log entry 64). LIFETIME_WRITE in Off
changes nothing; else it adds an hour, the counts waiting (of resets and power cycles those followed by a start) and the band
of the hottest junction, saturating. (R375, R377, R378, R387, R388, R413, R414) -/
def Obligations.FusesAndTap : Prop :=
  (∀ (ctl : W32) (s : State), s.hostRuns R.SEC_FUSE_CTL = true →
    let w := ctl.toNat % 128
    let data := s.reg R.SEC_FUSE_DATA
    let open_ := s.factoryDone = false ∨ (12 ≤ w ∧ w < 44) ∨ 64 ≤ w ∨ (w = 44 ∧ data &&& ~~~(0x1F : W32) = 0)
    let runs := ctl.toNat / 2 ^ 16 = 0xF05E ∧ open_ ∧ s.bit F.SEC_FUSE_STAT_BUSY = false ∧
      (s.fget F.CFG_STAT_STATE = 5 ∨ s.fget F.CFG_STAT_STATE = 6)
    (ctl.getLsbD 7 = false → exec (.fuseProgram ctl) s = .next (s.fset F.SEC_FUSE_CTL_WORD w)) ∧
    (ctl.getLsbD 7 = true → ¬ runs → ∃ t, exec (.fuseProgram ctl) s = .next t ∧ t.bit F.SEC_FUSE_STAT_REFUSED = true ∧
      t.fget F.SEC_FUSE_CTL_WORD = w ∧ s.onlyWords t [R.SEC_FUSE_CTL, R.SEC_FUSE_STAT]) ∧
    (ctl.getLsbD 7 = true → runs → ∃ t, exec (.fuseProgram ctl) s = .next t ∧ t.bit F.SEC_FUSE_STAT_BUSY = true ∧
      t.sec = { s.sec with fusing := some (w, data) } ∧ s.onlyWords { t with sec := s.sec } [R.SEC_FUSE_CTL, R.SEC_FUSE_STAT])) ∧
  (∀ (took : W32) (s : State), (s.sec.fusing = none → exec (.fuseProgramDone took) s = .next s) ∧
    ∀ w data, s.sec.fusing = some (w, data) → (∀ n ∈ s.flt.injected, n < 1024) →
      ∃ t, exec (.fuseProgramDone took) s = .next t ∧ t.fuse w = s.fuse w ||| (data &&& took) ∧
        (∀ x, x ≠ w → t.fuse x = s.fuse x) ∧ t.sec.fusing = none ∧ t.bit F.SEC_FUSE_STAT_BUSY = false ∧
        (t.fuse w &&& data = data → t.bit F.SEC_FUSE_STAT_DONE = true ∧ t.bit F.SEC_FUSE_STAT_FAIL = s.bit F.SEC_FUSE_STAT_FAIL) ∧
        (t.fuse w &&& data ≠ data → t.bit F.SEC_FUSE_STAT_FAIL = true ∧ t.bit F.SEC_FUSE_STAT_DONE = s.bit F.SEC_FUSE_STAT_DONE) ∧
        (s.debugClosed = true ∨ t.debugClosed = false → t.tap = s.tap) ∧
        (s.debugClosed = false → t.debugClosed = true →
          t.tap.ir ≠ .scan ∧ t.tap.ir ≠ .debug ∧ t.tap.ir ≠ .factory)) ∧
  (∀ (s : State) (pins pre : List Bool) (k : PrivateInstr) (x : BitVec 33),
    s.tap.trst = true ∨ s.fget F.PWR_STAT_STATE = 4 →
    ∀ c ∈ [Instr.bypass, .idcode, .samplePreload pins pre, .extest pins, .clamp, .highz, .lifetime, .privateInstruction k,
      .boardId x], exec c s = .next s) ∧
  (∀ (s : State) (pins pre : List Bool) (k : PrivateInstr) (x : BitVec 33),
    s.tap.trst = false → s.fget F.PWR_STAT_STATE ≠ 4 →
    let tap := fun (ir : TapInstr) (dr : Nat) (driven floating : Bool) => { s.tap with ir, dr, driven, floating }
    let id := (if s.stepping = 0xB0 then 2 ^ 28 else 0) + s.part.toNat * 2 ^ 12 + s.sec.ids.2.toNat / 2 ^ 16 % 2 ^ 11 * 2 + 1
    exec .bypass s = .next { s with tap := tap .bypass 0 false false } ∧
    exec .idcode s = .next { s with tap := tap .idcode id false false } ∧
    exec (.samplePreload pins pre) s = .next { s with tap := { tap .samplePreload 0 false false with capture := pins, preload := pre } } ∧
    exec (.extest pins) s = .next { s with tap := { tap .extest 0 true false with capture := pins } } ∧
    exec .clamp s = .next { s with tap := tap .clamp 0 true false } ∧
    exec .highz s = .next { s with tap := tap .highz 0 false true } ∧
    (∃ t, exec .lifetime s = .next t ∧ t = { s with tap := tap .lifetime t.tap.dr false false } ∧
      (s.store.lifetime.length = 10 → (∀ c ∈ s.store.lifetime, c < 2 ^ 32) →
        ∀ i < 10, t.tap.dr / 2 ^ (32 * i) % 2 ^ 32 = s.store.lifetime.getD i 0)) ∧
    exec (.boardId x) s = .next { s with
      tap := tap .boardId s.store.boardId.toNat false false
      store := { s.store with
        boardId := if x.getLsbD 32 && s.inReset then BitVec.ofNat 32 x.toNat else s.store.boardId } } ∧
    (s.debugClosed = true → exec (.privateInstruction k) s = .next { s with tap := tap .bypass 0 false false }) ∧
    (s.debugClosed = false → ∃ t, exec (.privateInstruction k) s = .next t ∧ t.tap = tap (privateIr k) 0 false false ∧
      t.sec = { s.sec with sk := none, castKey := none, att := none } ∧ t.bit F.SEC_STAT_DEBUG_SEEN = true ∧
      t.bit F.SEC_ATT_STAT_BUSY = false ∧ s.wordsBut t [R.SEC_STAT, R.SEC_ATT_STAT])) ∧
  tapCode .boardId = 0x3A ∧ tapCode .lifetime = 0x3B ∧
  (∀ s : State, exec (.trstN true) s = .next { s with tap := { trst := true } } ∧
    exec (.trstN false) s = .next { s with tap := { s.tap with trst := false } }) ∧
  ∀ (c : Int) (s : State), (s.fget F.PWR_STAT_STATE = 4 → exec (.lifetimeWrite c) s = .next s) ∧
    (s.fget F.PWR_STAT_STATE ≠ 4 → s.store.lifetime.length = 10 → ∃ t, exec (.lifetimeWrite c) s = .next t ∧
      t = { s with store := t.store } ∧ t.store.fuses = s.store.fuses ∧ t.store.boardId = s.store.boardId ∧
      t.store.resets = (if s.inReset then s.store.resets else 0) ∧ t.store.cycles = (if s.inReset then s.store.cycles else 0) ∧
      t.store.safes = 0 ∧
      let band := [decide (c < 70000), decide (70000 ≤ c ∧ c < 90000), decide (90000 ≤ c ∧ c < 105000),
        decide (105000 ≤ c ∧ c < 110000), decide (110000 ≤ c ∧ c < 125000), decide (125000 ≤ c)].map Bool.toNat
      ∀ i < 10, t.store.lifetime.getD i 0 = min (2 ^ 32 - 1) (s.store.lifetime.getD i 0 +
        ([1, if s.inReset then 0 else s.store.resets, if s.inReset then 0 else s.store.cycles, s.store.safes] ++ band).getD i 0))

/-- PIN_CFG that reaches its register is discarded for a locked pin and none of the 192; else the register takes the fields,
FUNC_ACT stays, and, once an image runs, the write waits two edge core edges (the model's reading, log entry 83). PIN_LOCK
goes on with the sequence for the same PIN and the next key word, and the third write locks the pin, or all for 0xFF; the
first key word starts a sequence and anything else ends it. PIN_INPUT of a change changes the level at the pin, of a level
that has been stable there, or with no filter at once, the level behind the pin's filter and, for a general-purpose pin, the
one TRIG_IN it may feed; a change of the partner's pins there is timed. The second edge core edge of P0 after the only write
that waits puts its function in force (4 only on the trace pins, 4 and 5 as 7 while DEBUG_CLOSE is 1), an input's filter
starting at 0, and each TRIG_IN then has the level of the single pin that selects it, or 0 under a conflict, which CONFLICT
shows and whose rise CONFLICT_SEEN keeps. (R390, R392, R393, R394, R395, R398) -/
def Obligations.PinSetup : Prop :=
  let feeds := fun (t : State) (i : Nat) => (List.range 192).filter fun n => n % 8 == i && t.fget (F.PIN_CFG_FUNC_ACT n) == 2
  let level := fun (t : State) (n : Nat) => SMap.get (fun _ => false) t.pinIn n
  let land := fun (t : State) (n : Nat) => SMap.get (fun _ => false) t.land n
  let fed := fun (t : State) (i : Nat) => t.pins.latched = none ∧ ∃ n, feeds t i = [n] ∧ level t n = true
  (∀ (n : BitVec 8) (v : W32) (s : State), s.hostRuns (R.PIN_CFG n.toNat) = true →
    (192 ≤ n.toNat ∨ s.selBit R.PIN_LOCKED n.toNat = true → exec (.pinCfg n v) s = .next s) ∧
    (n.toNat < 192 → s.selBit R.PIN_LOCKED n.toNat = false → ∃ t, exec (.pinCfg n v) s = .next t ∧
      t.pins = { s.pins with waits := s.pins.waits ++ (if s.image.committed then [(2, n.toNat, v &&& 0x7FBFF)] else []) } ∧
      t.reg (R.PIN_CFG n.toNat) &&& 0x7FBFF = v &&& 0x7FBFF ∧
      t.fget (F.PIN_CFG_FUNC_ACT n.toNat) = s.fget (F.PIN_CFG_FUNC_ACT n.toNat) ∧
      s.onlyWords { t with pins := s.pins } [R.PIN_CFG n.toNat])) ∧
  (∀ (v : W32) (s : State), s.hostRuns R.PIN_LOCK = true → s.fget F.PIN_STAT_LOCK_SEQ ≤ 2 →
    let p := v.toNat % 256
    let key := v.toNat / 2 ^ 16
    let seq := s.fget F.PIN_STAT_LOCK_SEQ
    let third := seq = 2 ∧ key = 0x0FA5 ∧ p = s.pins.lockPin
    let second := seq = 1 ∧ key = 0xB4E2 ∧ p = s.pins.lockPin
    ∃ t, exec (.pinLock v) s = .next t ∧
      t.fget F.PIN_STAT_LOCK_SEQ = (if second then 2 else if third then 0 else if key = 0x4B1D then 1 else 0) ∧
      (key = 0x4B1D → t.pins = { s.pins with lockPin := p }) ∧ (key ≠ 0x4B1D → t.pins = s.pins) ∧
      (∀ n < 192, (t.selBit R.PIN_LOCKED n = true ↔ s.selBit R.PIN_LOCKED n = true ∨ (third ∧ (p = 0xFF ∨ p = n)))) ∧
      s.wordsBut t (R.PIN_STAT :: (List.range 6).map R.PIN_LOCKED)) ∧
  (∀ (n : BitVec 8) (level' filtered : Bool) (s : State),
    (192 ≤ n.toNat ∨ (filtered = true ∧ land s n.toNat ≠ level') → exec (.pinInput (.gpio n) ⟨level', filtered⟩) s = .next s) ∧
    (n.toNat < 192 → filtered = false ∨ land s n.toNat = level' → ∃ t, exec (.pinInput (.gpio n) ⟨level', filtered⟩) s = .next t ∧
      land t n.toNat = level' ∧ (∀ m, m ≠ n.toNat → land t m = land s m ∧ level t m = level s m) ∧
      (filtered = false → s.fget (F.PIN_CFG_FILT n.toNat) ≠ 0 →
        t.pinIn = s.pinIn ∧ t.regs = s.regs ∧ t.pins = s.pins ∧ t.trig = s.trig) ∧
      (filtered = true ∨ s.fget (F.PIN_CFG_FILT n.toNat) = 0 → level t n.toNat = level' ∧ s.wordsBut t [R.PIN_STAT] ∧
        (t.pins.trigIn.getLsbD (n.toNat % 8) = true ↔ fed t (n.toNat % 8)) ∧
        ∀ j < 8, j ≠ n.toNat % 8 → t.pins.trigIn.getLsbD j = s.pins.trigIn.getLsbD j))) ∧
  (∀ (p : PinId) (level' filtered : Bool) (s : State), (∀ n, p ≠ .gpio n) →
    let w := if filtered then s else { s with land := SMap.set (fun _ => false) s.land (pinKey p) level' }
    let u := { w with pinIn := SMap.set (fun _ => false) w.pinIn (pinKey p) level' }
    let passes := (filtered = true ∧ land s (pinKey p) = level') ∨ (filtered = false ∧ s.filterOf p = 0)
    (¬ passes → exec (.pinInput p ⟨level', filtered⟩) s = .next w) ∧
    (passes → u.partnerPins = s.partnerPins → exec (.pinInput p ⟨level', filtered⟩) s = .next u) ∧
    (passes → u.partnerPins ≠ s.partnerPins →
      exec (.pinInput p ⟨level', filtered⟩) s = .next { u with splice := { s.splice with pinsAt := s.time.now } }) ∧
    (p = .pps ∨ p = .wake → u.partnerPins = s.partnerPins)) ∧
  ∀ (n : Nat) (v : W32) (s : State), s.fget F.PWR_STAT_STATE < 2 → s.pins.waits = [(1, n, v)] → n < 192 →
    ∃ t, exec (.blockClockEdge false .core) s = .next t ∧ t.pins.waits = [] ∧
      (let f := v.toNat % 8
       t.fget (F.PIN_CFG_FUNC_ACT n) =
        (if f = 4 then (if 160 ≤ n ∧ n ≤ 176 ∧ s.debugClosed = false then 4 else 7)
         else if f = 5 then (if s.debugClosed = true then 7 else 5) else f)) ∧
      (∀ m < 192, m ≠ n → t.fget (F.PIN_CFG_FUNC_ACT m) = s.fget (F.PIN_CFG_FUNC_ACT m)) ∧
      (∀ m, m ≠ n → level t m = level s m) ∧
      (let g := t.fget (F.PIN_CFG_FUNC_ACT n)
       g = 2 ∨ g = 7 → level t n = (s.fget (F.PIN_CFG_FILT n) == 0 && land s n)) ∧
      ∀ i < 8, (t.pins.trigIn.getLsbD i = true ↔ fed t i) ∧
        ((t.fget F.PIN_STAT_CONFLICT).testBit i = true ↔ 2 ≤ (feeds t i).length) ∧
        ((t.fget F.PIN_STAT_CONFLICT_SEEN).testBit i = true ↔ (s.fget F.PIN_STAT_CONFLICT_SEEN).testBit i = true ∨
          (2 ≤ (feeds t i).length ∧ (s.fget F.PIN_STAT_CONFLICT).testBit i = false))

/-- An edge of a die that the part does not have, or in Sleep and deeper, changes nothing; while the fabric is held in reset an
edge of a lane set's clock changes nothing. An edge core edge ends the REL and WIN strobes of its die, gives a read that has
waited two edges its data, and brings the others one edge nearer; other clocks leave reads and strobes alone. An array column
is its input, true or complemented, and a product term is 1 exactly when every column of its mask is. Where the fabric has
settled before the edge (of P0's core clock, with the pins switched and the trigger engine's edge done, and double-rate cells'
falling edge taken), a block on that clock that is not isolated goes on: as distributed memory it registers the word at RADDR
as it stood and writes the enabled bytes; as logic each register without asynchronous set and reset keeps its value in
combinational mode or without clock enable, and else takes Y, toggles by Y, or takes the first register of the synchronizer.
The edge changes no memory and no strand. CALIBRATOR_UPDATE of one of the six banks shows the measurement and LOCKED, and else
changes nothing. (R157, R158, R161, R163, R170, R175, R180, R181, R183) -/
def Obligations.FabricEdges : Prop :=
  (∀ (die : Bool) (k : EdgeClk) (s : State),
    (die = true ∧ s.big = false) ∨ 2 ≤ s.fget F.PWR_STAT_STATE → exec (.blockClockEdge die k) s = .next s) ∧
  (∀ (die : Bool) (k : EdgeClk) (s : State), k ≠ .core → s.edgeRuns = false → exec (.blockClockEdge die k) s = .next s) ∧
  (∀ (die : Bool) (k : EdgeClk) (s : State), (die = true → s.big = true) → s.fget F.PWR_STAT_STATE < 2 →
    let mine := fun (r : OutRead) => r.port / 32 == die.toNat
    ∃ t, exec (.blockClockEdge die k) s = .next t ∧ t.mem = s.mem ∧ t.strands = s.strands ∧
      (k ≠ .core → t.edge.reads = s.edge.reads ∧ t.edge.rdata = s.edge.rdata ∧ t.edge.rel = s.edge.rel ∧ t.edge.win = s.edge.win) ∧
      (k = .core → t.edge.rel.getLsbD die.toNat = false ∧ t.edge.win.getLsbD die.toNat = false ∧
        t.edge.rel.getLsbD (1 - die.toNat) = s.edge.rel.getLsbD (1 - die.toNat) ∧
        t.edge.win.getLsbD (1 - die.toNat) = s.edge.win.getLsbD (1 - die.toNat) ∧
        t.edge.reads = ((s.edge.reads.filter fun r => !(mine r && r.left ≤ 1)).map fun r =>
          if mine r then { r with left := r.left - 1 } else r) ∧
        (∀ r ∈ s.edge.reads, mine r = true → r.left ≤ 1 →
          (∀ q ∈ s.edge.reads, q.port = r.port → q.left ≤ 1 → q = r) →
          SMap.get (fun _ => (0 : W128)) t.edge.rdata r.port = r.data) ∧
        ∀ p, (∀ r ∈ s.edge.reads, r.port = p → mine r = true → 1 < r.left) →
          SMap.get (fun _ => (0 : W128)) t.edge.rdata p = SMap.get (fun _ => (0 : W128)) s.edge.rdata p)) ∧
  (∀ (s : State) (b : Nat) (c : BlockCfg),
    (∀ i < 96, (s.columns b c).getLsbD (2 * i) = s.edgeIn b c i ∧ (s.columns b c).getLsbD (2 * i + 1) = !s.edgeIn b c i) ∧
    ∀ (cols mask : BitVec 192) (i : Nat), c.terms[i]? = some mask →
      (termValue cols c i = true ↔ ∀ j, mask.getLsbD j = true → cols.getLsbD j = true)) ∧
  (∀ (die : Bool) (k : EdgeClk) (s : State) (b : Nat) (c : BlockCfg), (die = true → s.big = true) →
    s.fget F.PWR_STAT_STATE < 2 →
    let v := if k = .core ∧ die = false then s.pinEdge.trigEdge else s
    let u := v.each (if die then [] else v.edge.die.ios.filter fun p => p.2.clk == k) fun w p => w.ioFall p.1
    u.edgeRuns = true → (u.edgeRound die.toNat).edge = u.edge → SMap.Sorted u.edge.blocks →
    (b, c) ∈ u.edge.blocks → blockDie b = die.toNat → c.clk = k → u.edgeIso b = false →
    ∃ t, exec (.blockClockEdge die k) s = .next t ∧
      (c.mode = .ram →
        let word := fun (x : State) (a : Nat) => SMap.get (fun _ => (0 : W64)) (x.edgeSt b).ram a
        (t.edgeSt b).q = word u (u.edgeNum b c 79 6) ∧
        ∀ a, a < 64 → ∀ j < 64, (word t a).getLsbD j =
          (if u.edgeIn b c 78 = true ∧ a = u.edgeNum b c 64 6 ∧ u.edgeIn b c (70 + j / 8) = true then u.edgeIn b c j
           else (word u a).getLsbD j)) ∧
      (c.mode = .logic → ∀ m < 64,
        let x := cellOf c m
        let i := macroIn (u.columns b c) c m x
        let old := (u.edgeSt b).q.getLsbD m
        x.lends = false → x.steer.getLsbD 2 = false → x.steer.getLsbD 3 = false →
          (t.edgeSt b).q.getLsbD m = (match x.mode with
            | .comb => old
            | .d => if i.ce then i.y else old
            | .t => if i.ce then old ^^ i.y else old
            | .sync => if i.ce then (u.edgeSt b).q1.getLsbD m else old))) ∧
  ∀ (k : BitVec 3) (taps : BitVec 10) (s : State),
    (6 ≤ k.toNat → exec (.calibratorUpdate k taps) s = .next s) ∧
    (k.toNat < 6 → ∃ t, exec (.calibratorUpdate k taps) s = .next t ∧ t.fget (F.EDG_CAL_TAPS k.toNat) = taps.toNat ∧
      t.bit (F.EDG_CAL_LOCKED k.toNat) = true ∧ s.onlyWords t [R.EDG_CAL k.toNat])
end

