-- ==== Sys2Proof/Laws/Map.lean ====
section
/-! SUPPORT. Laws of sparse maps: what a read gives after a write, and that every write keeps the canonical form. -/

namespace Sys2Proof.Machine

namespace SMap

variable {α : Type}

@[simp] theorem find_nil (k : Nat) : find ([] : SMap α) k = none := rfl

theorem find_put (m : SMap α) (k j : Nat) (v : α) : find (put m k v) j = if j = k then some v else find m j := by
  induction m with
  | nil => rfl
  | cons p m ih =>
    obtain ⟨k', w⟩ := p
    simp only [put]
    split
    · rfl
    · split
      · subst_vars
        simp only [find]
        split <;> rfl
      · simp only [find, ih]
        split <;> [(split <;> [omega; rfl]); rfl]

@[simp] theorem find_put_self (m : SMap α) (k : Nat) (v : α) : find (put m k v) k = some v := by simp [find_put]

theorem find_put_ne (m : SMap α) {k j : Nat} (v : α) (h : j ≠ k) : find (put m k v) j = find m j := by simp [find_put, h]

theorem find_filter_ne (m : SMap α) (k j : Nat) (h : j ≠ k) : find (m.filter fun p => p.1 ≠ k) j = find m j := by
  induction m with
  | nil => rfl
  | cons p m ih =>
    obtain ⟨k', w⟩ := p
    by_cases hk : k' = k
    · subst hk
      simp only [List.filter_cons, ne_eq, not_true, decide_false, find, h, if_false]
      simpa using ih
    · simp only [List.filter_cons, ne_eq, hk, not_false_eq_true, decide_true, if_true, find]
      simp only [ne_eq] at ih
      simp only [ih]

theorem find_del (m : SMap α) (k j : Nat) : find (del m k) j = if j = k then none else find m j := by
  by_cases h : j = k
  · subst h
    simp only [if_true, del]
    induction m with
    | nil => rfl
    | cons p m ih =>
      obtain ⟨k', w⟩ := p
      by_cases hk : k' = j
      · simp only [List.filter_cons, hk, ne_eq, not_true, decide_false]; simpa using ih
      · simp only [List.filter_cons, ne_eq, hk, not_false_eq_true, decide_true, if_true, find]
        rw [if_neg (fun e => hk e.symm)]; exact ih
  · simp only [h, if_false]
    exact find_filter_ne m k j h

theorem get_put (d : Nat → α) (m : SMap α) (k j : Nat) (v : α) : get d (put m k v) j = if j = k then v else get d m j := by
  simp only [get, find_put]
  split <;> rfl

theorem get_set [DecidableEq α] (d : Nat → α) (m : SMap α) (k j : Nat) (v : α) :
    get d (set d m k v) j = if j = k then v else get d m j := by
  simp only [set]
  split
  · simp only [get, find_del]
    split <;> simp_all
  · exact get_put d m k j v

@[simp] theorem get_set_self [DecidableEq α] (d : Nat → α) (m : SMap α) (k : Nat) (v : α) : get d (set d m k v) k = v := by
  simp [get_set]

theorem get_set_ne [DecidableEq α] (d : Nat → α) (m : SMap α) {k j : Nat} (v : α) (h : j ≠ k) :
    get d (set d m k v) j = get d m j := by
  simp [get_set, h]

theorem mem_put (m : SMap α) (k : Nat) (v : α) (p : Nat × α) (h : p ∈ put m k v) : p = (k, v) ∨ p ∈ m := by
  induction m with
  | nil => simpa [put] using h
  | cons q m ih =>
    obtain ⟨k', w⟩ := q
    simp only [put] at h
    split at h
    · simpa using h
    · split at h
      · simp only [List.mem_cons] at h ⊢
        tauto
      · simp only [List.mem_cons] at h ⊢
        rcases h with h | h
        · exact .inr (.inl h)
        · rcases ih h with h | h
          · exact .inl h
          · exact .inr (.inr h)

theorem put_sorted (m : SMap α) (k : Nat) (v : α) (h : Sorted m) : Sorted (put m k v) := by
  induction m with
  | nil => simp [put, Sorted]
  | cons q m ih =>
    obtain ⟨k', w⟩ := q
    simp only [Sorted, List.pairwise_cons] at h
    simp only [put]
    split
    · rename_i hk
      simp only [Sorted, List.pairwise_cons, List.mem_cons]
      refine ⟨?_, h⟩
      rintro p (rfl | hp)
      · exact hk
      · exact lt_trans hk (h.1 p hp)
    · split
      · subst_vars
        simp only [Sorted, List.pairwise_cons]
        exact h
      · simp only [Sorted, List.pairwise_cons]
        refine ⟨fun p hp => ?_, ih h.2⟩
        rcases mem_put m k v p hp with rfl | hp
        · show k' < k
          omega
        · exact h.1 p hp

theorem filter_wf (d : Nat → α) (m : SMap α) (f : Nat × α → Bool) (h : Wf d m) : Wf d (m.filter f) :=
  ⟨h.1.filter _, fun p hp => h.2 p (List.mem_of_mem_filter hp)⟩

theorem del_wf (d : Nat → α) (m : SMap α) (k : Nat) (h : Wf d m) : Wf d (del m k) := filter_wf d m _ h

theorem set_wf [DecidableEq α] (d : Nat → α) (m : SMap α) (k : Nat) (v : α) (h : Wf d m) : Wf d (set d m k v) := by
  simp only [set]
  split
  · exact del_wf d m k h
  · refine ⟨put_sorted m k v h.1, fun p hp => ?_⟩
    rcases mem_put m k v p hp with rfl | hp
    · assumption
    · exact h.2 p hp

theorem nil_wf (d : Nat → α) : Wf d ([] : SMap α) := ⟨List.Pairwise.nil, fun _ h => absurd h List.not_mem_nil⟩

theorem drop_wf (d : Nat → α) (m : SMap α) (lo hi : Nat) (h : Wf d m) : Wf d (drop m lo hi) := filter_wf d m _ h

theorem mapv_wf [DecidableEq α] (d : Nat → α) (f : Nat → α → α) (m : SMap α) : Wf d (mapv d f m) := by
  induction m with
  | nil => exact nil_wf d
  | cons p m ih => exact set_wf d _ _ _ ih

/-- Every value of a mapped map is the mapped value, where an unlisted key's value is a fixed point. -/
theorem get_mapv [DecidableEq α] (d : Nat → α) (f : Nat → α → α) (m : SMap α) (k : Nat) (h : f k (d k) = d k) :
    get d (mapv d f m) k = f k (get d m k) := by
  induction m with
  | nil => simp [mapv, get, h]
  | cons p m ih =>
    obtain ⟨j, v⟩ := p
    simp only [mapv, List.foldr_cons]
    rw [get_set]
    split
    · subst_vars
      simp [get, find]
    · rename_i hk
      have : get d ((j, v) :: m) k = get d m k := by simp [get, find, hk]
      rw [this]
      exact ih

/-- A key below every listed key is not listed. -/
theorem find_eq_none_of_lt (m : SMap α) (k : Nat) (h : ∀ p ∈ m, k < p.1) : find m k = none := by
  induction m with
  | nil => rfl
  | cons p m ih =>
    have := h p List.mem_cons_self
    simp only [find]
    rw [if_neg (by omega)]
    exact ih fun q hq => h q (List.mem_cons_of_mem _ hq)

end SMap

end Sys2Proof.Machine
end

