-- ==== Sys2Proof/Laws/State.lean ====
section
/-! SUPPORT. What each named update of the state leaves as it was, one lemma for each field; and what it writes. -/

namespace Sys2Proof.Machine

variable (s : State)

/-! ### setReg -/

@[simp] theorem State.setReg_part (a : Nat) (v : W32) : (s.setReg a v).part = s.part := rfl
@[simp] theorem State.setReg_stepping (a : Nat) (v : W32) : (s.setReg a v).stepping = s.stepping := rfl
@[simp] theorem State.setReg_pending (a : Nat) (v : W32) : (s.setReg a v).pending = s.pending := rfl
@[simp] theorem State.setReg_snap (a : Nat) (v : W32) : (s.setReg a v).snap = s.snap := rfl
@[simp] theorem State.setReg_staged (a : Nat) (v : W32) : (s.setReg a v).staged = s.staged := rfl
@[simp] theorem State.setReg_mem (a : Nat) (v : W32) : (s.setReg a v).mem = s.mem := rfl
@[simp] theorem State.setReg_core (a : Nat) (v : W32) : (s.setReg a v).core = s.core := rfl
@[simp] theorem State.setReg_strands (a : Nat) (v : W32) : (s.setReg a v).strands = s.strands := rfl
@[simp] theorem State.setReg_instrs (a : Nat) (v : W32) : (s.setReg a v).instrs = s.instrs := rfl
@[simp] theorem State.setReg_ports (a : Nat) (v : W32) : (s.setReg a v).ports = s.ports := rfl
@[simp] theorem State.setReg_ring (a : Nat) (v : W32) : (s.setReg a v).ring = s.ring := rfl
@[simp] theorem State.setReg_image (a : Nat) (v : W32) : (s.setReg a v).image = s.image := rfl
@[simp] theorem State.setReg_lanes (a : Nat) (v : W32) : (s.setReg a v).lanes = s.lanes := rfl
@[simp] theorem State.setReg_caps (a : Nat) (v : W32) : (s.setReg a v).caps = s.caps := rfl
@[simp] theorem State.setReg_pats (a : Nat) (v : W32) : (s.setReg a v).pats = s.pats := rfl
@[simp] theorem State.setReg_reports (a : Nat) (v : W32) : (s.setReg a v).reports = s.reports := rfl
@[simp] theorem State.setReg_trace (a : Nat) (v : W32) : (s.setReg a v).trace = s.trace := rfl
@[simp] theorem State.setReg_time (a : Nat) (v : W32) : (s.setReg a v).time = s.time := rfl
@[simp] theorem State.setReg_trig (a : Nat) (v : W32) : (s.setReg a v).trig = s.trig := rfl
@[simp] theorem State.setReg_edge (a : Nat) (v : W32) : (s.setReg a v).edge = s.edge := rfl
@[simp] theorem State.setReg_act (a : Nat) (v : W32) : (s.setReg a v).act = s.act := rfl
@[simp] theorem State.setReg_splice (a : Nat) (v : W32) : (s.setReg a v).splice = s.splice := rfl
@[simp] theorem State.setReg_pinIn (a : Nat) (v : W32) : (s.setReg a v).pinIn = s.pinIn := rfl
@[simp] theorem State.setReg_land (a : Nat) (v : W32) : (s.setReg a v).land = s.land := rfl
@[simp] theorem State.setReg_host (a : Nat) (v : W32) : (s.setReg a v).host = s.host := rfl
@[simp] theorem State.setReg_flt (a : Nat) (v : W32) : (s.setReg a v).flt = s.flt := rfl
@[simp] theorem State.setReg_load (a : Nat) (v : W32) : (s.setReg a v).load = s.load := rfl
@[simp] theorem State.setReg_recon (a : Nat) (v : W32) : (s.setReg a v).recon = s.recon := rfl
@[simp] theorem State.setReg_nvm (a : Nat) (v : W32) : (s.setReg a v).nvm = s.nvm := rfl
@[simp] theorem State.setReg_power (a : Nat) (v : W32) : (s.setReg a v).power = s.power := rfl
@[simp] theorem State.setReg_store (a : Nat) (v : W32) : (s.setReg a v).store = s.store := rfl
@[simp] theorem State.setReg_sec (a : Nat) (v : W32) : (s.setReg a v).sec = s.sec := rfl
@[simp] theorem State.setReg_tap (a : Nat) (v : W32) : (s.setReg a v).tap = s.tap := rfl
@[simp] theorem State.setReg_pins (a : Nat) (v : W32) : (s.setReg a v).pins = s.pins := rfl
@[simp] theorem State.setReg_por (a : Nat) (v : W32) : (s.setReg a v).por = s.por := rfl
@[simp] theorem State.setReg_warm (a : Nat) (v : W32) : (s.setReg a v).warm = s.warm := rfl
@[simp] theorem State.setReg_free (a : Nat) (v : W32) : (s.setReg a v).free = s.free := rfl

/-! ### fset -/

@[simp] theorem State.fset_part (f : Fld) (x : Nat) : (s.fset f x).part = s.part := rfl
@[simp] theorem State.fset_stepping (f : Fld) (x : Nat) : (s.fset f x).stepping = s.stepping := rfl
@[simp] theorem State.fset_pending (f : Fld) (x : Nat) : (s.fset f x).pending = s.pending := rfl
@[simp] theorem State.fset_snap (f : Fld) (x : Nat) : (s.fset f x).snap = s.snap := rfl
@[simp] theorem State.fset_staged (f : Fld) (x : Nat) : (s.fset f x).staged = s.staged := rfl
@[simp] theorem State.fset_mem (f : Fld) (x : Nat) : (s.fset f x).mem = s.mem := rfl
@[simp] theorem State.fset_core (f : Fld) (x : Nat) : (s.fset f x).core = s.core := rfl
@[simp] theorem State.fset_strands (f : Fld) (x : Nat) : (s.fset f x).strands = s.strands := rfl
@[simp] theorem State.fset_instrs (f : Fld) (x : Nat) : (s.fset f x).instrs = s.instrs := rfl
@[simp] theorem State.fset_ports (f : Fld) (x : Nat) : (s.fset f x).ports = s.ports := rfl
@[simp] theorem State.fset_ring (f : Fld) (x : Nat) : (s.fset f x).ring = s.ring := rfl
@[simp] theorem State.fset_image (f : Fld) (x : Nat) : (s.fset f x).image = s.image := rfl
@[simp] theorem State.fset_lanes (f : Fld) (x : Nat) : (s.fset f x).lanes = s.lanes := rfl
@[simp] theorem State.fset_caps (f : Fld) (x : Nat) : (s.fset f x).caps = s.caps := rfl
@[simp] theorem State.fset_pats (f : Fld) (x : Nat) : (s.fset f x).pats = s.pats := rfl
@[simp] theorem State.fset_reports (f : Fld) (x : Nat) : (s.fset f x).reports = s.reports := rfl
@[simp] theorem State.fset_trace (f : Fld) (x : Nat) : (s.fset f x).trace = s.trace := rfl
@[simp] theorem State.fset_time (f : Fld) (x : Nat) : (s.fset f x).time = s.time := rfl
@[simp] theorem State.fset_trig (f : Fld) (x : Nat) : (s.fset f x).trig = s.trig := rfl
@[simp] theorem State.fset_edge (f : Fld) (x : Nat) : (s.fset f x).edge = s.edge := rfl
@[simp] theorem State.fset_act (f : Fld) (x : Nat) : (s.fset f x).act = s.act := rfl
@[simp] theorem State.fset_splice (f : Fld) (x : Nat) : (s.fset f x).splice = s.splice := rfl
@[simp] theorem State.fset_pinIn (f : Fld) (x : Nat) : (s.fset f x).pinIn = s.pinIn := rfl
@[simp] theorem State.fset_land (f : Fld) (x : Nat) : (s.fset f x).land = s.land := rfl
@[simp] theorem State.fset_host (f : Fld) (x : Nat) : (s.fset f x).host = s.host := rfl
@[simp] theorem State.fset_flt (f : Fld) (x : Nat) : (s.fset f x).flt = s.flt := rfl
@[simp] theorem State.fset_load (f : Fld) (x : Nat) : (s.fset f x).load = s.load := rfl
@[simp] theorem State.fset_recon (f : Fld) (x : Nat) : (s.fset f x).recon = s.recon := rfl
@[simp] theorem State.fset_nvm (f : Fld) (x : Nat) : (s.fset f x).nvm = s.nvm := rfl
@[simp] theorem State.fset_power (f : Fld) (x : Nat) : (s.fset f x).power = s.power := rfl
@[simp] theorem State.fset_store (f : Fld) (x : Nat) : (s.fset f x).store = s.store := rfl
@[simp] theorem State.fset_sec (f : Fld) (x : Nat) : (s.fset f x).sec = s.sec := rfl
@[simp] theorem State.fset_tap (f : Fld) (x : Nat) : (s.fset f x).tap = s.tap := rfl
@[simp] theorem State.fset_pins (f : Fld) (x : Nat) : (s.fset f x).pins = s.pins := rfl
@[simp] theorem State.fset_por (f : Fld) (x : Nat) : (s.fset f x).por = s.por := rfl
@[simp] theorem State.fset_warm (f : Fld) (x : Nat) : (s.fset f x).warm = s.warm := rfl
@[simp] theorem State.fset_free (f : Fld) (x : Nat) : (s.fset f x).free = s.free := rfl

/-! ### setBit -/

@[simp] theorem State.setBit_part (f : Fld) (b : Bool) : (s.setBit f b).part = s.part := rfl
@[simp] theorem State.setBit_stepping (f : Fld) (b : Bool) : (s.setBit f b).stepping = s.stepping := rfl
@[simp] theorem State.setBit_pending (f : Fld) (b : Bool) : (s.setBit f b).pending = s.pending := rfl
@[simp] theorem State.setBit_snap (f : Fld) (b : Bool) : (s.setBit f b).snap = s.snap := rfl
@[simp] theorem State.setBit_staged (f : Fld) (b : Bool) : (s.setBit f b).staged = s.staged := rfl
@[simp] theorem State.setBit_mem (f : Fld) (b : Bool) : (s.setBit f b).mem = s.mem := rfl
@[simp] theorem State.setBit_core (f : Fld) (b : Bool) : (s.setBit f b).core = s.core := rfl
@[simp] theorem State.setBit_strands (f : Fld) (b : Bool) : (s.setBit f b).strands = s.strands := rfl
@[simp] theorem State.setBit_instrs (f : Fld) (b : Bool) : (s.setBit f b).instrs = s.instrs := rfl
@[simp] theorem State.setBit_ports (f : Fld) (b : Bool) : (s.setBit f b).ports = s.ports := rfl
@[simp] theorem State.setBit_ring (f : Fld) (b : Bool) : (s.setBit f b).ring = s.ring := rfl
@[simp] theorem State.setBit_image (f : Fld) (b : Bool) : (s.setBit f b).image = s.image := rfl
@[simp] theorem State.setBit_lanes (f : Fld) (b : Bool) : (s.setBit f b).lanes = s.lanes := rfl
@[simp] theorem State.setBit_caps (f : Fld) (b : Bool) : (s.setBit f b).caps = s.caps := rfl
@[simp] theorem State.setBit_pats (f : Fld) (b : Bool) : (s.setBit f b).pats = s.pats := rfl
@[simp] theorem State.setBit_reports (f : Fld) (b : Bool) : (s.setBit f b).reports = s.reports := rfl
@[simp] theorem State.setBit_trace (f : Fld) (b : Bool) : (s.setBit f b).trace = s.trace := rfl
@[simp] theorem State.setBit_time (f : Fld) (b : Bool) : (s.setBit f b).time = s.time := rfl
@[simp] theorem State.setBit_trig (f : Fld) (b : Bool) : (s.setBit f b).trig = s.trig := rfl
@[simp] theorem State.setBit_edge (f : Fld) (b : Bool) : (s.setBit f b).edge = s.edge := rfl
@[simp] theorem State.setBit_act (f : Fld) (b : Bool) : (s.setBit f b).act = s.act := rfl
@[simp] theorem State.setBit_splice (f : Fld) (b : Bool) : (s.setBit f b).splice = s.splice := rfl
@[simp] theorem State.setBit_pinIn (f : Fld) (b : Bool) : (s.setBit f b).pinIn = s.pinIn := rfl
@[simp] theorem State.setBit_land (f : Fld) (b : Bool) : (s.setBit f b).land = s.land := rfl
@[simp] theorem State.setBit_host (f : Fld) (b : Bool) : (s.setBit f b).host = s.host := rfl
@[simp] theorem State.setBit_flt (f : Fld) (b : Bool) : (s.setBit f b).flt = s.flt := rfl
@[simp] theorem State.setBit_load (f : Fld) (b : Bool) : (s.setBit f b).load = s.load := rfl
@[simp] theorem State.setBit_recon (f : Fld) (b : Bool) : (s.setBit f b).recon = s.recon := rfl
@[simp] theorem State.setBit_nvm (f : Fld) (b : Bool) : (s.setBit f b).nvm = s.nvm := rfl
@[simp] theorem State.setBit_power (f : Fld) (b : Bool) : (s.setBit f b).power = s.power := rfl
@[simp] theorem State.setBit_store (f : Fld) (b : Bool) : (s.setBit f b).store = s.store := rfl
@[simp] theorem State.setBit_sec (f : Fld) (b : Bool) : (s.setBit f b).sec = s.sec := rfl
@[simp] theorem State.setBit_tap (f : Fld) (b : Bool) : (s.setBit f b).tap = s.tap := rfl
@[simp] theorem State.setBit_pins (f : Fld) (b : Bool) : (s.setBit f b).pins = s.pins := rfl
@[simp] theorem State.setBit_por (f : Fld) (b : Bool) : (s.setBit f b).por = s.por := rfl
@[simp] theorem State.setBit_warm (f : Fld) (b : Bool) : (s.setBit f b).warm = s.warm := rfl
@[simp] theorem State.setBit_free (f : Fld) (b : Bool) : (s.setBit f b).free = s.free := rfl

/-! ### count -/

@[simp] theorem State.count_part (f : Fld) (n : Nat) : (s.count f n).part = s.part := rfl
@[simp] theorem State.count_stepping (f : Fld) (n : Nat) : (s.count f n).stepping = s.stepping := rfl
@[simp] theorem State.count_pending (f : Fld) (n : Nat) : (s.count f n).pending = s.pending := rfl
@[simp] theorem State.count_snap (f : Fld) (n : Nat) : (s.count f n).snap = s.snap := rfl
@[simp] theorem State.count_staged (f : Fld) (n : Nat) : (s.count f n).staged = s.staged := rfl
@[simp] theorem State.count_mem (f : Fld) (n : Nat) : (s.count f n).mem = s.mem := rfl
@[simp] theorem State.count_core (f : Fld) (n : Nat) : (s.count f n).core = s.core := rfl
@[simp] theorem State.count_strands (f : Fld) (n : Nat) : (s.count f n).strands = s.strands := rfl
@[simp] theorem State.count_instrs (f : Fld) (n : Nat) : (s.count f n).instrs = s.instrs := rfl
@[simp] theorem State.count_ports (f : Fld) (n : Nat) : (s.count f n).ports = s.ports := rfl
@[simp] theorem State.count_ring (f : Fld) (n : Nat) : (s.count f n).ring = s.ring := rfl
@[simp] theorem State.count_image (f : Fld) (n : Nat) : (s.count f n).image = s.image := rfl
@[simp] theorem State.count_lanes (f : Fld) (n : Nat) : (s.count f n).lanes = s.lanes := rfl
@[simp] theorem State.count_caps (f : Fld) (n : Nat) : (s.count f n).caps = s.caps := rfl
@[simp] theorem State.count_pats (f : Fld) (n : Nat) : (s.count f n).pats = s.pats := rfl
@[simp] theorem State.count_reports (f : Fld) (n : Nat) : (s.count f n).reports = s.reports := rfl
@[simp] theorem State.count_trace (f : Fld) (n : Nat) : (s.count f n).trace = s.trace := rfl
@[simp] theorem State.count_time (f : Fld) (n : Nat) : (s.count f n).time = s.time := rfl
@[simp] theorem State.count_trig (f : Fld) (n : Nat) : (s.count f n).trig = s.trig := rfl
@[simp] theorem State.count_edge (f : Fld) (n : Nat) : (s.count f n).edge = s.edge := rfl
@[simp] theorem State.count_act (f : Fld) (n : Nat) : (s.count f n).act = s.act := rfl
@[simp] theorem State.count_splice (f : Fld) (n : Nat) : (s.count f n).splice = s.splice := rfl
@[simp] theorem State.count_pinIn (f : Fld) (n : Nat) : (s.count f n).pinIn = s.pinIn := rfl
@[simp] theorem State.count_land (f : Fld) (n : Nat) : (s.count f n).land = s.land := rfl
@[simp] theorem State.count_host (f : Fld) (n : Nat) : (s.count f n).host = s.host := rfl
@[simp] theorem State.count_flt (f : Fld) (n : Nat) : (s.count f n).flt = s.flt := rfl
@[simp] theorem State.count_load (f : Fld) (n : Nat) : (s.count f n).load = s.load := rfl
@[simp] theorem State.count_recon (f : Fld) (n : Nat) : (s.count f n).recon = s.recon := rfl
@[simp] theorem State.count_nvm (f : Fld) (n : Nat) : (s.count f n).nvm = s.nvm := rfl
@[simp] theorem State.count_power (f : Fld) (n : Nat) : (s.count f n).power = s.power := rfl
@[simp] theorem State.count_store (f : Fld) (n : Nat) : (s.count f n).store = s.store := rfl
@[simp] theorem State.count_sec (f : Fld) (n : Nat) : (s.count f n).sec = s.sec := rfl
@[simp] theorem State.count_tap (f : Fld) (n : Nat) : (s.count f n).tap = s.tap := rfl
@[simp] theorem State.count_pins (f : Fld) (n : Nat) : (s.count f n).pins = s.pins := rfl
@[simp] theorem State.count_por (f : Fld) (n : Nat) : (s.count f n).por = s.por := rfl
@[simp] theorem State.count_warm (f : Fld) (n : Nat) : (s.count f n).warm = s.warm := rfl
@[simp] theorem State.count_free (f : Fld) (n : Nat) : (s.count f n).free = s.free := rfl

/-! ### countWrap -/

@[simp] theorem State.countWrap_part (f : Fld) (n : Nat) : (s.countWrap f n).part = s.part := rfl
@[simp] theorem State.countWrap_stepping (f : Fld) (n : Nat) : (s.countWrap f n).stepping = s.stepping := rfl
@[simp] theorem State.countWrap_pending (f : Fld) (n : Nat) : (s.countWrap f n).pending = s.pending := rfl
@[simp] theorem State.countWrap_snap (f : Fld) (n : Nat) : (s.countWrap f n).snap = s.snap := rfl
@[simp] theorem State.countWrap_staged (f : Fld) (n : Nat) : (s.countWrap f n).staged = s.staged := rfl
@[simp] theorem State.countWrap_mem (f : Fld) (n : Nat) : (s.countWrap f n).mem = s.mem := rfl
@[simp] theorem State.countWrap_core (f : Fld) (n : Nat) : (s.countWrap f n).core = s.core := rfl
@[simp] theorem State.countWrap_strands (f : Fld) (n : Nat) : (s.countWrap f n).strands = s.strands := rfl
@[simp] theorem State.countWrap_instrs (f : Fld) (n : Nat) : (s.countWrap f n).instrs = s.instrs := rfl
@[simp] theorem State.countWrap_ports (f : Fld) (n : Nat) : (s.countWrap f n).ports = s.ports := rfl
@[simp] theorem State.countWrap_ring (f : Fld) (n : Nat) : (s.countWrap f n).ring = s.ring := rfl
@[simp] theorem State.countWrap_image (f : Fld) (n : Nat) : (s.countWrap f n).image = s.image := rfl
@[simp] theorem State.countWrap_lanes (f : Fld) (n : Nat) : (s.countWrap f n).lanes = s.lanes := rfl
@[simp] theorem State.countWrap_caps (f : Fld) (n : Nat) : (s.countWrap f n).caps = s.caps := rfl
@[simp] theorem State.countWrap_pats (f : Fld) (n : Nat) : (s.countWrap f n).pats = s.pats := rfl
@[simp] theorem State.countWrap_reports (f : Fld) (n : Nat) : (s.countWrap f n).reports = s.reports := rfl
@[simp] theorem State.countWrap_trace (f : Fld) (n : Nat) : (s.countWrap f n).trace = s.trace := rfl
@[simp] theorem State.countWrap_time (f : Fld) (n : Nat) : (s.countWrap f n).time = s.time := rfl
@[simp] theorem State.countWrap_trig (f : Fld) (n : Nat) : (s.countWrap f n).trig = s.trig := rfl
@[simp] theorem State.countWrap_edge (f : Fld) (n : Nat) : (s.countWrap f n).edge = s.edge := rfl
@[simp] theorem State.countWrap_act (f : Fld) (n : Nat) : (s.countWrap f n).act = s.act := rfl
@[simp] theorem State.countWrap_splice (f : Fld) (n : Nat) : (s.countWrap f n).splice = s.splice := rfl
@[simp] theorem State.countWrap_pinIn (f : Fld) (n : Nat) : (s.countWrap f n).pinIn = s.pinIn := rfl
@[simp] theorem State.countWrap_land (f : Fld) (n : Nat) : (s.countWrap f n).land = s.land := rfl
@[simp] theorem State.countWrap_host (f : Fld) (n : Nat) : (s.countWrap f n).host = s.host := rfl
@[simp] theorem State.countWrap_flt (f : Fld) (n : Nat) : (s.countWrap f n).flt = s.flt := rfl
@[simp] theorem State.countWrap_load (f : Fld) (n : Nat) : (s.countWrap f n).load = s.load := rfl
@[simp] theorem State.countWrap_recon (f : Fld) (n : Nat) : (s.countWrap f n).recon = s.recon := rfl
@[simp] theorem State.countWrap_nvm (f : Fld) (n : Nat) : (s.countWrap f n).nvm = s.nvm := rfl
@[simp] theorem State.countWrap_power (f : Fld) (n : Nat) : (s.countWrap f n).power = s.power := rfl
@[simp] theorem State.countWrap_store (f : Fld) (n : Nat) : (s.countWrap f n).store = s.store := rfl
@[simp] theorem State.countWrap_sec (f : Fld) (n : Nat) : (s.countWrap f n).sec = s.sec := rfl
@[simp] theorem State.countWrap_tap (f : Fld) (n : Nat) : (s.countWrap f n).tap = s.tap := rfl
@[simp] theorem State.countWrap_pins (f : Fld) (n : Nat) : (s.countWrap f n).pins = s.pins := rfl
@[simp] theorem State.countWrap_por (f : Fld) (n : Nat) : (s.countWrap f n).por = s.por := rfl
@[simp] theorem State.countWrap_warm (f : Fld) (n : Nat) : (s.countWrap f n).warm = s.warm := rfl
@[simp] theorem State.countWrap_free (f : Fld) (n : Nat) : (s.countWrap f n).free = s.free := rfl

theorem State.setWords_eq (n : Nat) : ∀ (s : State) (a x : Nat), s.setWords a n x = { s with regs := (s.setWords a n x).regs } := by
  induction n with
  | zero => intros; rfl
  | succ n ih => intro s a x; rw [State.setWords, ih]; rfl

/-! ### setWords -/

@[simp] theorem State.setWords_part (a n x : Nat) : (s.setWords a n x).part = s.part := by rw [State.setWords_eq]
@[simp] theorem State.setWords_stepping (a n x : Nat) : (s.setWords a n x).stepping = s.stepping := by rw [State.setWords_eq]
@[simp] theorem State.setWords_pending (a n x : Nat) : (s.setWords a n x).pending = s.pending := by rw [State.setWords_eq]
@[simp] theorem State.setWords_snap (a n x : Nat) : (s.setWords a n x).snap = s.snap := by rw [State.setWords_eq]
@[simp] theorem State.setWords_staged (a n x : Nat) : (s.setWords a n x).staged = s.staged := by rw [State.setWords_eq]
@[simp] theorem State.setWords_mem (a n x : Nat) : (s.setWords a n x).mem = s.mem := by rw [State.setWords_eq]
@[simp] theorem State.setWords_core (a n x : Nat) : (s.setWords a n x).core = s.core := by rw [State.setWords_eq]
@[simp] theorem State.setWords_strands (a n x : Nat) : (s.setWords a n x).strands = s.strands := by rw [State.setWords_eq]
@[simp] theorem State.setWords_instrs (a n x : Nat) : (s.setWords a n x).instrs = s.instrs := by rw [State.setWords_eq]
@[simp] theorem State.setWords_ports (a n x : Nat) : (s.setWords a n x).ports = s.ports := by rw [State.setWords_eq]
@[simp] theorem State.setWords_ring (a n x : Nat) : (s.setWords a n x).ring = s.ring := by rw [State.setWords_eq]
@[simp] theorem State.setWords_image (a n x : Nat) : (s.setWords a n x).image = s.image := by rw [State.setWords_eq]
@[simp] theorem State.setWords_lanes (a n x : Nat) : (s.setWords a n x).lanes = s.lanes := by rw [State.setWords_eq]
@[simp] theorem State.setWords_caps (a n x : Nat) : (s.setWords a n x).caps = s.caps := by rw [State.setWords_eq]
@[simp] theorem State.setWords_pats (a n x : Nat) : (s.setWords a n x).pats = s.pats := by rw [State.setWords_eq]
@[simp] theorem State.setWords_reports (a n x : Nat) : (s.setWords a n x).reports = s.reports := by rw [State.setWords_eq]
@[simp] theorem State.setWords_trace (a n x : Nat) : (s.setWords a n x).trace = s.trace := by rw [State.setWords_eq]
@[simp] theorem State.setWords_time (a n x : Nat) : (s.setWords a n x).time = s.time := by rw [State.setWords_eq]
@[simp] theorem State.setWords_trig (a n x : Nat) : (s.setWords a n x).trig = s.trig := by rw [State.setWords_eq]
@[simp] theorem State.setWords_edge (a n x : Nat) : (s.setWords a n x).edge = s.edge := by rw [State.setWords_eq]
@[simp] theorem State.setWords_act (a n x : Nat) : (s.setWords a n x).act = s.act := by rw [State.setWords_eq]
@[simp] theorem State.setWords_splice (a n x : Nat) : (s.setWords a n x).splice = s.splice := by rw [State.setWords_eq]
@[simp] theorem State.setWords_pinIn (a n x : Nat) : (s.setWords a n x).pinIn = s.pinIn := by rw [State.setWords_eq]
@[simp] theorem State.setWords_land (a n x : Nat) : (s.setWords a n x).land = s.land := by rw [State.setWords_eq]
@[simp] theorem State.setWords_host (a n x : Nat) : (s.setWords a n x).host = s.host := by rw [State.setWords_eq]
@[simp] theorem State.setWords_flt (a n x : Nat) : (s.setWords a n x).flt = s.flt := by rw [State.setWords_eq]
@[simp] theorem State.setWords_load (a n x : Nat) : (s.setWords a n x).load = s.load := by rw [State.setWords_eq]
@[simp] theorem State.setWords_recon (a n x : Nat) : (s.setWords a n x).recon = s.recon := by rw [State.setWords_eq]
@[simp] theorem State.setWords_nvm (a n x : Nat) : (s.setWords a n x).nvm = s.nvm := by rw [State.setWords_eq]
@[simp] theorem State.setWords_power (a n x : Nat) : (s.setWords a n x).power = s.power := by rw [State.setWords_eq]
@[simp] theorem State.setWords_store (a n x : Nat) : (s.setWords a n x).store = s.store := by rw [State.setWords_eq]
@[simp] theorem State.setWords_sec (a n x : Nat) : (s.setWords a n x).sec = s.sec := by rw [State.setWords_eq]
@[simp] theorem State.setWords_tap (a n x : Nat) : (s.setWords a n x).tap = s.tap := by rw [State.setWords_eq]
@[simp] theorem State.setWords_pins (a n x : Nat) : (s.setWords a n x).pins = s.pins := by rw [State.setWords_eq]
@[simp] theorem State.setWords_por (a n x : Nat) : (s.setWords a n x).por = s.por := by rw [State.setWords_eq]
@[simp] theorem State.setWords_warm (a n x : Nat) : (s.setWords a n x).warm = s.warm := by rw [State.setWords_eq]
@[simp] theorem State.setWords_free (a n x : Nat) : (s.setWords a n x).free = s.free := by rw [State.setWords_eq]

/-! ### wset -/

@[simp] theorem State.wset_part (v : Wide) (x : Nat) : (s.wset v x).part = s.part := by simp [State.wset]
@[simp] theorem State.wset_stepping (v : Wide) (x : Nat) : (s.wset v x).stepping = s.stepping := by simp [State.wset]
@[simp] theorem State.wset_pending (v : Wide) (x : Nat) : (s.wset v x).pending = s.pending := by simp [State.wset]
@[simp] theorem State.wset_snap (v : Wide) (x : Nat) : (s.wset v x).snap = s.snap := by simp [State.wset]
@[simp] theorem State.wset_staged (v : Wide) (x : Nat) : (s.wset v x).staged = s.staged := by simp [State.wset]
@[simp] theorem State.wset_mem (v : Wide) (x : Nat) : (s.wset v x).mem = s.mem := by simp [State.wset]
@[simp] theorem State.wset_core (v : Wide) (x : Nat) : (s.wset v x).core = s.core := by simp [State.wset]
@[simp] theorem State.wset_strands (v : Wide) (x : Nat) : (s.wset v x).strands = s.strands := by simp [State.wset]
@[simp] theorem State.wset_instrs (v : Wide) (x : Nat) : (s.wset v x).instrs = s.instrs := by simp [State.wset]
@[simp] theorem State.wset_ports (v : Wide) (x : Nat) : (s.wset v x).ports = s.ports := by simp [State.wset]
@[simp] theorem State.wset_ring (v : Wide) (x : Nat) : (s.wset v x).ring = s.ring := by simp [State.wset]
@[simp] theorem State.wset_image (v : Wide) (x : Nat) : (s.wset v x).image = s.image := by simp [State.wset]
@[simp] theorem State.wset_lanes (v : Wide) (x : Nat) : (s.wset v x).lanes = s.lanes := by simp [State.wset]
@[simp] theorem State.wset_caps (v : Wide) (x : Nat) : (s.wset v x).caps = s.caps := by simp [State.wset]
@[simp] theorem State.wset_pats (v : Wide) (x : Nat) : (s.wset v x).pats = s.pats := by simp [State.wset]
@[simp] theorem State.wset_reports (v : Wide) (x : Nat) : (s.wset v x).reports = s.reports := by simp [State.wset]
@[simp] theorem State.wset_trace (v : Wide) (x : Nat) : (s.wset v x).trace = s.trace := by simp [State.wset]
@[simp] theorem State.wset_time (v : Wide) (x : Nat) : (s.wset v x).time = s.time := by simp [State.wset]
@[simp] theorem State.wset_trig (v : Wide) (x : Nat) : (s.wset v x).trig = s.trig := by simp [State.wset]
@[simp] theorem State.wset_edge (v : Wide) (x : Nat) : (s.wset v x).edge = s.edge := by simp [State.wset]
@[simp] theorem State.wset_act (v : Wide) (x : Nat) : (s.wset v x).act = s.act := by simp [State.wset]
@[simp] theorem State.wset_splice (v : Wide) (x : Nat) : (s.wset v x).splice = s.splice := by simp [State.wset]
@[simp] theorem State.wset_pinIn (v : Wide) (x : Nat) : (s.wset v x).pinIn = s.pinIn := by simp [State.wset]
@[simp] theorem State.wset_land (v : Wide) (x : Nat) : (s.wset v x).land = s.land := by simp [State.wset]
@[simp] theorem State.wset_host (v : Wide) (x : Nat) : (s.wset v x).host = s.host := by simp [State.wset]
@[simp] theorem State.wset_flt (v : Wide) (x : Nat) : (s.wset v x).flt = s.flt := by simp [State.wset]
@[simp] theorem State.wset_load (v : Wide) (x : Nat) : (s.wset v x).load = s.load := by simp [State.wset]
@[simp] theorem State.wset_recon (v : Wide) (x : Nat) : (s.wset v x).recon = s.recon := by simp [State.wset]
@[simp] theorem State.wset_nvm (v : Wide) (x : Nat) : (s.wset v x).nvm = s.nvm := by simp [State.wset]
@[simp] theorem State.wset_power (v : Wide) (x : Nat) : (s.wset v x).power = s.power := by simp [State.wset]
@[simp] theorem State.wset_store (v : Wide) (x : Nat) : (s.wset v x).store = s.store := by simp [State.wset]
@[simp] theorem State.wset_sec (v : Wide) (x : Nat) : (s.wset v x).sec = s.sec := by simp [State.wset]
@[simp] theorem State.wset_tap (v : Wide) (x : Nat) : (s.wset v x).tap = s.tap := by simp [State.wset]
@[simp] theorem State.wset_pins (v : Wide) (x : Nat) : (s.wset v x).pins = s.pins := by simp [State.wset]
@[simp] theorem State.wset_por (v : Wide) (x : Nat) : (s.wset v x).por = s.por := by simp [State.wset]
@[simp] theorem State.wset_warm (v : Wide) (x : Nat) : (s.wset v x).warm = s.warm := by simp [State.wset]
@[simp] theorem State.wset_free (v : Wide) (x : Nat) : (s.wset v x).free = s.free := by simp [State.wset]

/-! ### drawn -/

@[simp] theorem State.drawn_part  : (s.drawn).part = s.part := rfl
@[simp] theorem State.drawn_stepping  : (s.drawn).stepping = s.stepping := rfl
@[simp] theorem State.drawn_pending  : (s.drawn).pending = s.pending := rfl
@[simp] theorem State.drawn_regs  : (s.drawn).regs = s.regs := rfl
@[simp] theorem State.drawn_snap  : (s.drawn).snap = s.snap := rfl
@[simp] theorem State.drawn_staged  : (s.drawn).staged = s.staged := rfl
@[simp] theorem State.drawn_mem  : (s.drawn).mem = s.mem := rfl
@[simp] theorem State.drawn_core  : (s.drawn).core = s.core := rfl
@[simp] theorem State.drawn_strands  : (s.drawn).strands = s.strands := rfl
@[simp] theorem State.drawn_instrs  : (s.drawn).instrs = s.instrs := rfl
@[simp] theorem State.drawn_ports  : (s.drawn).ports = s.ports := rfl
@[simp] theorem State.drawn_ring  : (s.drawn).ring = s.ring := rfl
@[simp] theorem State.drawn_image  : (s.drawn).image = s.image := rfl
@[simp] theorem State.drawn_lanes  : (s.drawn).lanes = s.lanes := rfl
@[simp] theorem State.drawn_caps  : (s.drawn).caps = s.caps := rfl
@[simp] theorem State.drawn_pats  : (s.drawn).pats = s.pats := rfl
@[simp] theorem State.drawn_reports  : (s.drawn).reports = s.reports := rfl
@[simp] theorem State.drawn_trace  : (s.drawn).trace = s.trace := rfl
@[simp] theorem State.drawn_time  : (s.drawn).time = s.time := rfl
@[simp] theorem State.drawn_trig  : (s.drawn).trig = s.trig := rfl
@[simp] theorem State.drawn_edge  : (s.drawn).edge = s.edge := rfl
@[simp] theorem State.drawn_act  : (s.drawn).act = s.act := rfl
@[simp] theorem State.drawn_splice  : (s.drawn).splice = s.splice := rfl
@[simp] theorem State.drawn_pinIn  : (s.drawn).pinIn = s.pinIn := rfl
@[simp] theorem State.drawn_land  : (s.drawn).land = s.land := rfl
@[simp] theorem State.drawn_host  : (s.drawn).host = s.host := rfl
@[simp] theorem State.drawn_flt  : (s.drawn).flt = s.flt := rfl
@[simp] theorem State.drawn_load  : (s.drawn).load = s.load := rfl
@[simp] theorem State.drawn_recon  : (s.drawn).recon = s.recon := rfl
@[simp] theorem State.drawn_nvm  : (s.drawn).nvm = s.nvm := rfl
@[simp] theorem State.drawn_power  : (s.drawn).power = s.power := rfl
@[simp] theorem State.drawn_store  : (s.drawn).store = s.store := rfl
@[simp] theorem State.drawn_sec  : (s.drawn).sec = s.sec := rfl
@[simp] theorem State.drawn_tap  : (s.drawn).tap = s.tap := rfl
@[simp] theorem State.drawn_pins  : (s.drawn).pins = s.pins := rfl
@[simp] theorem State.drawn_por  : (s.drawn).por = s.por := rfl
@[simp] theorem State.drawn_warm  : (s.drawn).warm = s.warm := rfl

/-! ### wrByte -/

@[simp] theorem State.wrByte_part (a : Nat) (v : Byte) : (s.wrByte a v).part = s.part := rfl
@[simp] theorem State.wrByte_stepping (a : Nat) (v : Byte) : (s.wrByte a v).stepping = s.stepping := rfl
@[simp] theorem State.wrByte_pending (a : Nat) (v : Byte) : (s.wrByte a v).pending = s.pending := rfl
@[simp] theorem State.wrByte_regs (a : Nat) (v : Byte) : (s.wrByte a v).regs = s.regs := rfl
@[simp] theorem State.wrByte_snap (a : Nat) (v : Byte) : (s.wrByte a v).snap = s.snap := rfl
@[simp] theorem State.wrByte_staged (a : Nat) (v : Byte) : (s.wrByte a v).staged = s.staged := rfl
@[simp] theorem State.wrByte_core (a : Nat) (v : Byte) : (s.wrByte a v).core = s.core := rfl
@[simp] theorem State.wrByte_strands (a : Nat) (v : Byte) : (s.wrByte a v).strands = s.strands := rfl
@[simp] theorem State.wrByte_instrs (a : Nat) (v : Byte) : (s.wrByte a v).instrs = s.instrs := rfl
@[simp] theorem State.wrByte_ports (a : Nat) (v : Byte) : (s.wrByte a v).ports = s.ports := rfl
@[simp] theorem State.wrByte_ring (a : Nat) (v : Byte) : (s.wrByte a v).ring = s.ring := rfl
@[simp] theorem State.wrByte_image (a : Nat) (v : Byte) : (s.wrByte a v).image = s.image := rfl
@[simp] theorem State.wrByte_lanes (a : Nat) (v : Byte) : (s.wrByte a v).lanes = s.lanes := rfl
@[simp] theorem State.wrByte_caps (a : Nat) (v : Byte) : (s.wrByte a v).caps = s.caps := rfl
@[simp] theorem State.wrByte_pats (a : Nat) (v : Byte) : (s.wrByte a v).pats = s.pats := rfl
@[simp] theorem State.wrByte_reports (a : Nat) (v : Byte) : (s.wrByte a v).reports = s.reports := rfl
@[simp] theorem State.wrByte_trace (a : Nat) (v : Byte) : (s.wrByte a v).trace = s.trace := rfl
@[simp] theorem State.wrByte_time (a : Nat) (v : Byte) : (s.wrByte a v).time = s.time := rfl
@[simp] theorem State.wrByte_trig (a : Nat) (v : Byte) : (s.wrByte a v).trig = s.trig := rfl
@[simp] theorem State.wrByte_edge (a : Nat) (v : Byte) : (s.wrByte a v).edge = s.edge := rfl
@[simp] theorem State.wrByte_act (a : Nat) (v : Byte) : (s.wrByte a v).act = s.act := rfl
@[simp] theorem State.wrByte_splice (a : Nat) (v : Byte) : (s.wrByte a v).splice = s.splice := rfl
@[simp] theorem State.wrByte_pinIn (a : Nat) (v : Byte) : (s.wrByte a v).pinIn = s.pinIn := rfl
@[simp] theorem State.wrByte_land (a : Nat) (v : Byte) : (s.wrByte a v).land = s.land := rfl
@[simp] theorem State.wrByte_host (a : Nat) (v : Byte) : (s.wrByte a v).host = s.host := rfl
@[simp] theorem State.wrByte_flt (a : Nat) (v : Byte) : (s.wrByte a v).flt = s.flt := rfl
@[simp] theorem State.wrByte_load (a : Nat) (v : Byte) : (s.wrByte a v).load = s.load := rfl
@[simp] theorem State.wrByte_recon (a : Nat) (v : Byte) : (s.wrByte a v).recon = s.recon := rfl
@[simp] theorem State.wrByte_nvm (a : Nat) (v : Byte) : (s.wrByte a v).nvm = s.nvm := rfl
@[simp] theorem State.wrByte_power (a : Nat) (v : Byte) : (s.wrByte a v).power = s.power := rfl
@[simp] theorem State.wrByte_store (a : Nat) (v : Byte) : (s.wrByte a v).store = s.store := rfl
@[simp] theorem State.wrByte_sec (a : Nat) (v : Byte) : (s.wrByte a v).sec = s.sec := rfl
@[simp] theorem State.wrByte_tap (a : Nat) (v : Byte) : (s.wrByte a v).tap = s.tap := rfl
@[simp] theorem State.wrByte_pins (a : Nat) (v : Byte) : (s.wrByte a v).pins = s.pins := rfl
@[simp] theorem State.wrByte_por (a : Nat) (v : Byte) : (s.wrByte a v).por = s.por := rfl
@[simp] theorem State.wrByte_warm (a : Nat) (v : Byte) : (s.wrByte a v).warm = s.warm := rfl
@[simp] theorem State.wrByte_free (a : Nat) (v : Byte) : (s.wrByte a v).free = s.free := rfl

theorem State.wrBytes_eq (bs : Bytes) : ∀ (s : State) (a : Nat), s.wrBytes a bs = { s with mem := (s.wrBytes a bs).mem } := by
  induction bs with
  | nil => intros; rfl
  | cons b bs ih => intro s a; rw [State.wrBytes, ih]; rfl

theorem State.wrEnabled_eq (bs : List (Bool × Byte)) :
    ∀ (s : State) (a : Nat), s.wrEnabled a bs = { s with mem := (s.wrEnabled a bs).mem } := by
  induction bs with
  | nil => intros; rfl
  | cons b bs ih => intro s a; rw [State.wrEnabled, ih]; split <;> rfl

/-! ### wrBytes -/

@[simp] theorem State.wrBytes_part (a : Nat) (bs : Bytes) : (s.wrBytes a bs).part = s.part := by rw [State.wrBytes_eq]
@[simp] theorem State.wrBytes_stepping (a : Nat) (bs : Bytes) : (s.wrBytes a bs).stepping = s.stepping := by rw [State.wrBytes_eq]
@[simp] theorem State.wrBytes_pending (a : Nat) (bs : Bytes) : (s.wrBytes a bs).pending = s.pending := by rw [State.wrBytes_eq]
@[simp] theorem State.wrBytes_regs (a : Nat) (bs : Bytes) : (s.wrBytes a bs).regs = s.regs := by rw [State.wrBytes_eq]
@[simp] theorem State.wrBytes_snap (a : Nat) (bs : Bytes) : (s.wrBytes a bs).snap = s.snap := by rw [State.wrBytes_eq]
@[simp] theorem State.wrBytes_staged (a : Nat) (bs : Bytes) : (s.wrBytes a bs).staged = s.staged := by rw [State.wrBytes_eq]
@[simp] theorem State.wrBytes_core (a : Nat) (bs : Bytes) : (s.wrBytes a bs).core = s.core := by rw [State.wrBytes_eq]
@[simp] theorem State.wrBytes_strands (a : Nat) (bs : Bytes) : (s.wrBytes a bs).strands = s.strands := by rw [State.wrBytes_eq]
@[simp] theorem State.wrBytes_instrs (a : Nat) (bs : Bytes) : (s.wrBytes a bs).instrs = s.instrs := by rw [State.wrBytes_eq]
@[simp] theorem State.wrBytes_ports (a : Nat) (bs : Bytes) : (s.wrBytes a bs).ports = s.ports := by rw [State.wrBytes_eq]
@[simp] theorem State.wrBytes_ring (a : Nat) (bs : Bytes) : (s.wrBytes a bs).ring = s.ring := by rw [State.wrBytes_eq]
@[simp] theorem State.wrBytes_image (a : Nat) (bs : Bytes) : (s.wrBytes a bs).image = s.image := by rw [State.wrBytes_eq]
@[simp] theorem State.wrBytes_lanes (a : Nat) (bs : Bytes) : (s.wrBytes a bs).lanes = s.lanes := by rw [State.wrBytes_eq]
@[simp] theorem State.wrBytes_caps (a : Nat) (bs : Bytes) : (s.wrBytes a bs).caps = s.caps := by rw [State.wrBytes_eq]
@[simp] theorem State.wrBytes_pats (a : Nat) (bs : Bytes) : (s.wrBytes a bs).pats = s.pats := by rw [State.wrBytes_eq]
@[simp] theorem State.wrBytes_reports (a : Nat) (bs : Bytes) : (s.wrBytes a bs).reports = s.reports := by rw [State.wrBytes_eq]
@[simp] theorem State.wrBytes_trace (a : Nat) (bs : Bytes) : (s.wrBytes a bs).trace = s.trace := by rw [State.wrBytes_eq]
@[simp] theorem State.wrBytes_time (a : Nat) (bs : Bytes) : (s.wrBytes a bs).time = s.time := by rw [State.wrBytes_eq]
@[simp] theorem State.wrBytes_trig (a : Nat) (bs : Bytes) : (s.wrBytes a bs).trig = s.trig := by rw [State.wrBytes_eq]
@[simp] theorem State.wrBytes_edge (a : Nat) (bs : Bytes) : (s.wrBytes a bs).edge = s.edge := by rw [State.wrBytes_eq]
@[simp] theorem State.wrBytes_act (a : Nat) (bs : Bytes) : (s.wrBytes a bs).act = s.act := by rw [State.wrBytes_eq]
@[simp] theorem State.wrBytes_splice (a : Nat) (bs : Bytes) : (s.wrBytes a bs).splice = s.splice := by rw [State.wrBytes_eq]
@[simp] theorem State.wrBytes_pinIn (a : Nat) (bs : Bytes) : (s.wrBytes a bs).pinIn = s.pinIn := by rw [State.wrBytes_eq]
@[simp] theorem State.wrBytes_land (a : Nat) (bs : Bytes) : (s.wrBytes a bs).land = s.land := by rw [State.wrBytes_eq]
@[simp] theorem State.wrBytes_host (a : Nat) (bs : Bytes) : (s.wrBytes a bs).host = s.host := by rw [State.wrBytes_eq]
@[simp] theorem State.wrBytes_flt (a : Nat) (bs : Bytes) : (s.wrBytes a bs).flt = s.flt := by rw [State.wrBytes_eq]
@[simp] theorem State.wrBytes_load (a : Nat) (bs : Bytes) : (s.wrBytes a bs).load = s.load := by rw [State.wrBytes_eq]
@[simp] theorem State.wrBytes_recon (a : Nat) (bs : Bytes) : (s.wrBytes a bs).recon = s.recon := by rw [State.wrBytes_eq]
@[simp] theorem State.wrBytes_nvm (a : Nat) (bs : Bytes) : (s.wrBytes a bs).nvm = s.nvm := by rw [State.wrBytes_eq]
@[simp] theorem State.wrBytes_power (a : Nat) (bs : Bytes) : (s.wrBytes a bs).power = s.power := by rw [State.wrBytes_eq]
@[simp] theorem State.wrBytes_store (a : Nat) (bs : Bytes) : (s.wrBytes a bs).store = s.store := by rw [State.wrBytes_eq]
@[simp] theorem State.wrBytes_sec (a : Nat) (bs : Bytes) : (s.wrBytes a bs).sec = s.sec := by rw [State.wrBytes_eq]
@[simp] theorem State.wrBytes_tap (a : Nat) (bs : Bytes) : (s.wrBytes a bs).tap = s.tap := by rw [State.wrBytes_eq]
@[simp] theorem State.wrBytes_pins (a : Nat) (bs : Bytes) : (s.wrBytes a bs).pins = s.pins := by rw [State.wrBytes_eq]
@[simp] theorem State.wrBytes_por (a : Nat) (bs : Bytes) : (s.wrBytes a bs).por = s.por := by rw [State.wrBytes_eq]
@[simp] theorem State.wrBytes_warm (a : Nat) (bs : Bytes) : (s.wrBytes a bs).warm = s.warm := by rw [State.wrBytes_eq]
@[simp] theorem State.wrBytes_free (a : Nat) (bs : Bytes) : (s.wrBytes a bs).free = s.free := by rw [State.wrBytes_eq]

/-! ### wrEnabled -/

@[simp] theorem State.wrEnabled_part (a : Nat) (bs : List (Bool × Byte)) : (s.wrEnabled a bs).part = s.part := by rw [State.wrEnabled_eq]
@[simp] theorem State.wrEnabled_stepping (a : Nat) (bs : List (Bool × Byte)) : (s.wrEnabled a bs).stepping = s.stepping := by rw [State.wrEnabled_eq]
@[simp] theorem State.wrEnabled_pending (a : Nat) (bs : List (Bool × Byte)) : (s.wrEnabled a bs).pending = s.pending := by rw [State.wrEnabled_eq]
@[simp] theorem State.wrEnabled_regs (a : Nat) (bs : List (Bool × Byte)) : (s.wrEnabled a bs).regs = s.regs := by rw [State.wrEnabled_eq]
@[simp] theorem State.wrEnabled_snap (a : Nat) (bs : List (Bool × Byte)) : (s.wrEnabled a bs).snap = s.snap := by rw [State.wrEnabled_eq]
@[simp] theorem State.wrEnabled_staged (a : Nat) (bs : List (Bool × Byte)) : (s.wrEnabled a bs).staged = s.staged := by rw [State.wrEnabled_eq]
@[simp] theorem State.wrEnabled_core (a : Nat) (bs : List (Bool × Byte)) : (s.wrEnabled a bs).core = s.core := by rw [State.wrEnabled_eq]
@[simp] theorem State.wrEnabled_strands (a : Nat) (bs : List (Bool × Byte)) : (s.wrEnabled a bs).strands = s.strands := by rw [State.wrEnabled_eq]
@[simp] theorem State.wrEnabled_instrs (a : Nat) (bs : List (Bool × Byte)) : (s.wrEnabled a bs).instrs = s.instrs := by rw [State.wrEnabled_eq]
@[simp] theorem State.wrEnabled_ports (a : Nat) (bs : List (Bool × Byte)) : (s.wrEnabled a bs).ports = s.ports := by rw [State.wrEnabled_eq]
@[simp] theorem State.wrEnabled_ring (a : Nat) (bs : List (Bool × Byte)) : (s.wrEnabled a bs).ring = s.ring := by rw [State.wrEnabled_eq]
@[simp] theorem State.wrEnabled_image (a : Nat) (bs : List (Bool × Byte)) : (s.wrEnabled a bs).image = s.image := by rw [State.wrEnabled_eq]
@[simp] theorem State.wrEnabled_lanes (a : Nat) (bs : List (Bool × Byte)) : (s.wrEnabled a bs).lanes = s.lanes := by rw [State.wrEnabled_eq]
@[simp] theorem State.wrEnabled_caps (a : Nat) (bs : List (Bool × Byte)) : (s.wrEnabled a bs).caps = s.caps := by rw [State.wrEnabled_eq]
@[simp] theorem State.wrEnabled_pats (a : Nat) (bs : List (Bool × Byte)) : (s.wrEnabled a bs).pats = s.pats := by rw [State.wrEnabled_eq]
@[simp] theorem State.wrEnabled_reports (a : Nat) (bs : List (Bool × Byte)) : (s.wrEnabled a bs).reports = s.reports := by rw [State.wrEnabled_eq]
@[simp] theorem State.wrEnabled_trace (a : Nat) (bs : List (Bool × Byte)) : (s.wrEnabled a bs).trace = s.trace := by rw [State.wrEnabled_eq]
@[simp] theorem State.wrEnabled_time (a : Nat) (bs : List (Bool × Byte)) : (s.wrEnabled a bs).time = s.time := by rw [State.wrEnabled_eq]
@[simp] theorem State.wrEnabled_trig (a : Nat) (bs : List (Bool × Byte)) : (s.wrEnabled a bs).trig = s.trig := by rw [State.wrEnabled_eq]
@[simp] theorem State.wrEnabled_edge (a : Nat) (bs : List (Bool × Byte)) : (s.wrEnabled a bs).edge = s.edge := by rw [State.wrEnabled_eq]
@[simp] theorem State.wrEnabled_act (a : Nat) (bs : List (Bool × Byte)) : (s.wrEnabled a bs).act = s.act := by rw [State.wrEnabled_eq]
@[simp] theorem State.wrEnabled_splice (a : Nat) (bs : List (Bool × Byte)) : (s.wrEnabled a bs).splice = s.splice := by rw [State.wrEnabled_eq]
@[simp] theorem State.wrEnabled_pinIn (a : Nat) (bs : List (Bool × Byte)) : (s.wrEnabled a bs).pinIn = s.pinIn := by rw [State.wrEnabled_eq]
@[simp] theorem State.wrEnabled_land (a : Nat) (bs : List (Bool × Byte)) : (s.wrEnabled a bs).land = s.land := by rw [State.wrEnabled_eq]
@[simp] theorem State.wrEnabled_host (a : Nat) (bs : List (Bool × Byte)) : (s.wrEnabled a bs).host = s.host := by rw [State.wrEnabled_eq]
@[simp] theorem State.wrEnabled_flt (a : Nat) (bs : List (Bool × Byte)) : (s.wrEnabled a bs).flt = s.flt := by rw [State.wrEnabled_eq]
@[simp] theorem State.wrEnabled_load (a : Nat) (bs : List (Bool × Byte)) : (s.wrEnabled a bs).load = s.load := by rw [State.wrEnabled_eq]
@[simp] theorem State.wrEnabled_recon (a : Nat) (bs : List (Bool × Byte)) : (s.wrEnabled a bs).recon = s.recon := by rw [State.wrEnabled_eq]
@[simp] theorem State.wrEnabled_nvm (a : Nat) (bs : List (Bool × Byte)) : (s.wrEnabled a bs).nvm = s.nvm := by rw [State.wrEnabled_eq]
@[simp] theorem State.wrEnabled_power (a : Nat) (bs : List (Bool × Byte)) : (s.wrEnabled a bs).power = s.power := by rw [State.wrEnabled_eq]
@[simp] theorem State.wrEnabled_store (a : Nat) (bs : List (Bool × Byte)) : (s.wrEnabled a bs).store = s.store := by rw [State.wrEnabled_eq]
@[simp] theorem State.wrEnabled_sec (a : Nat) (bs : List (Bool × Byte)) : (s.wrEnabled a bs).sec = s.sec := by rw [State.wrEnabled_eq]
@[simp] theorem State.wrEnabled_tap (a : Nat) (bs : List (Bool × Byte)) : (s.wrEnabled a bs).tap = s.tap := by rw [State.wrEnabled_eq]
@[simp] theorem State.wrEnabled_pins (a : Nat) (bs : List (Bool × Byte)) : (s.wrEnabled a bs).pins = s.pins := by rw [State.wrEnabled_eq]
@[simp] theorem State.wrEnabled_por (a : Nat) (bs : List (Bool × Byte)) : (s.wrEnabled a bs).por = s.por := by rw [State.wrEnabled_eq]
@[simp] theorem State.wrEnabled_warm (a : Nat) (bs : List (Bool × Byte)) : (s.wrEnabled a bs).warm = s.warm := by rw [State.wrEnabled_eq]
@[simp] theorem State.wrEnabled_free (a : Nat) (bs : List (Bool × Byte)) : (s.wrEnabled a bs).free = s.free := by rw [State.wrEnabled_eq]

/-! ### raise -/

theorem State.raise_eq (r : Report) : s.raise r = { s with regs := (s.raise r).regs, reports := (s.raise r).reports } := by
  unfold State.raise; simp only []; repeat' split
  all_goals rfl

@[simp] theorem State.raise_part (r : Report) : (s.raise r).part = s.part := by rw [State.raise_eq]
@[simp] theorem State.raise_stepping (r : Report) : (s.raise r).stepping = s.stepping := by rw [State.raise_eq]
@[simp] theorem State.raise_pending (r : Report) : (s.raise r).pending = s.pending := by rw [State.raise_eq]
@[simp] theorem State.raise_snap (r : Report) : (s.raise r).snap = s.snap := by rw [State.raise_eq]
@[simp] theorem State.raise_staged (r : Report) : (s.raise r).staged = s.staged := by rw [State.raise_eq]
@[simp] theorem State.raise_mem (r : Report) : (s.raise r).mem = s.mem := by rw [State.raise_eq]
@[simp] theorem State.raise_core (r : Report) : (s.raise r).core = s.core := by rw [State.raise_eq]
@[simp] theorem State.raise_strands (r : Report) : (s.raise r).strands = s.strands := by rw [State.raise_eq]
@[simp] theorem State.raise_instrs (r : Report) : (s.raise r).instrs = s.instrs := by rw [State.raise_eq]
@[simp] theorem State.raise_ports (r : Report) : (s.raise r).ports = s.ports := by rw [State.raise_eq]
@[simp] theorem State.raise_ring (r : Report) : (s.raise r).ring = s.ring := by rw [State.raise_eq]
@[simp] theorem State.raise_image (r : Report) : (s.raise r).image = s.image := by rw [State.raise_eq]
@[simp] theorem State.raise_lanes (r : Report) : (s.raise r).lanes = s.lanes := by rw [State.raise_eq]
@[simp] theorem State.raise_caps (r : Report) : (s.raise r).caps = s.caps := by rw [State.raise_eq]
@[simp] theorem State.raise_pats (r : Report) : (s.raise r).pats = s.pats := by rw [State.raise_eq]
@[simp] theorem State.raise_trace (r : Report) : (s.raise r).trace = s.trace := by rw [State.raise_eq]
@[simp] theorem State.raise_time (r : Report) : (s.raise r).time = s.time := by rw [State.raise_eq]
@[simp] theorem State.raise_trig (r : Report) : (s.raise r).trig = s.trig := by rw [State.raise_eq]
@[simp] theorem State.raise_edge (r : Report) : (s.raise r).edge = s.edge := by rw [State.raise_eq]
@[simp] theorem State.raise_act (r : Report) : (s.raise r).act = s.act := by rw [State.raise_eq]
@[simp] theorem State.raise_splice (r : Report) : (s.raise r).splice = s.splice := by rw [State.raise_eq]
@[simp] theorem State.raise_pinIn (r : Report) : (s.raise r).pinIn = s.pinIn := by rw [State.raise_eq]
@[simp] theorem State.raise_land (r : Report) : (s.raise r).land = s.land := by rw [State.raise_eq]
@[simp] theorem State.raise_host (r : Report) : (s.raise r).host = s.host := by rw [State.raise_eq]
@[simp] theorem State.raise_flt (r : Report) : (s.raise r).flt = s.flt := by rw [State.raise_eq]
@[simp] theorem State.raise_load (r : Report) : (s.raise r).load = s.load := by rw [State.raise_eq]
@[simp] theorem State.raise_recon (r : Report) : (s.raise r).recon = s.recon := by rw [State.raise_eq]
@[simp] theorem State.raise_nvm (r : Report) : (s.raise r).nvm = s.nvm := by rw [State.raise_eq]
@[simp] theorem State.raise_power (r : Report) : (s.raise r).power = s.power := by rw [State.raise_eq]
@[simp] theorem State.raise_store (r : Report) : (s.raise r).store = s.store := by rw [State.raise_eq]
@[simp] theorem State.raise_sec (r : Report) : (s.raise r).sec = s.sec := by rw [State.raise_eq]
@[simp] theorem State.raise_tap (r : Report) : (s.raise r).tap = s.tap := by rw [State.raise_eq]
@[simp] theorem State.raise_pins (r : Report) : (s.raise r).pins = s.pins := by rw [State.raise_eq]
@[simp] theorem State.raise_por (r : Report) : (s.raise r).por = s.por := by rw [State.raise_eq]
@[simp] theorem State.raise_warm (r : Report) : (s.raise r).warm = s.warm := by rw [State.raise_eq]
@[simp] theorem State.raise_free (r : Report) : (s.raise r).free = s.free := by rw [State.raise_eq]

/-! ### raiseAt -/

@[simp] theorem State.raiseAt_part (src code master acc addr : Nat) : (s.raiseAt src code master acc addr).part = s.part := by simp [State.raiseAt]
@[simp] theorem State.raiseAt_stepping (src code master acc addr : Nat) : (s.raiseAt src code master acc addr).stepping = s.stepping := by simp [State.raiseAt]
@[simp] theorem State.raiseAt_pending (src code master acc addr : Nat) : (s.raiseAt src code master acc addr).pending = s.pending := by simp [State.raiseAt]
@[simp] theorem State.raiseAt_snap (src code master acc addr : Nat) : (s.raiseAt src code master acc addr).snap = s.snap := by simp [State.raiseAt]
@[simp] theorem State.raiseAt_staged (src code master acc addr : Nat) : (s.raiseAt src code master acc addr).staged = s.staged := by simp [State.raiseAt]
@[simp] theorem State.raiseAt_mem (src code master acc addr : Nat) : (s.raiseAt src code master acc addr).mem = s.mem := by simp [State.raiseAt]
@[simp] theorem State.raiseAt_core (src code master acc addr : Nat) : (s.raiseAt src code master acc addr).core = s.core := by simp [State.raiseAt]
@[simp] theorem State.raiseAt_strands (src code master acc addr : Nat) : (s.raiseAt src code master acc addr).strands = s.strands := by simp [State.raiseAt]
@[simp] theorem State.raiseAt_instrs (src code master acc addr : Nat) : (s.raiseAt src code master acc addr).instrs = s.instrs := by simp [State.raiseAt]
@[simp] theorem State.raiseAt_ports (src code master acc addr : Nat) : (s.raiseAt src code master acc addr).ports = s.ports := by simp [State.raiseAt]
@[simp] theorem State.raiseAt_ring (src code master acc addr : Nat) : (s.raiseAt src code master acc addr).ring = s.ring := by simp [State.raiseAt]
@[simp] theorem State.raiseAt_image (src code master acc addr : Nat) : (s.raiseAt src code master acc addr).image = s.image := by simp [State.raiseAt]
@[simp] theorem State.raiseAt_lanes (src code master acc addr : Nat) : (s.raiseAt src code master acc addr).lanes = s.lanes := by simp [State.raiseAt]
@[simp] theorem State.raiseAt_caps (src code master acc addr : Nat) : (s.raiseAt src code master acc addr).caps = s.caps := by simp [State.raiseAt]
@[simp] theorem State.raiseAt_pats (src code master acc addr : Nat) : (s.raiseAt src code master acc addr).pats = s.pats := by simp [State.raiseAt]
@[simp] theorem State.raiseAt_trace (src code master acc addr : Nat) : (s.raiseAt src code master acc addr).trace = s.trace := by simp [State.raiseAt]
@[simp] theorem State.raiseAt_time (src code master acc addr : Nat) : (s.raiseAt src code master acc addr).time = s.time := by simp [State.raiseAt]
@[simp] theorem State.raiseAt_trig (src code master acc addr : Nat) : (s.raiseAt src code master acc addr).trig = s.trig := by simp [State.raiseAt]
@[simp] theorem State.raiseAt_edge (src code master acc addr : Nat) : (s.raiseAt src code master acc addr).edge = s.edge := by simp [State.raiseAt]
@[simp] theorem State.raiseAt_act (src code master acc addr : Nat) : (s.raiseAt src code master acc addr).act = s.act := by simp [State.raiseAt]
@[simp] theorem State.raiseAt_splice (src code master acc addr : Nat) : (s.raiseAt src code master acc addr).splice = s.splice := by simp [State.raiseAt]
@[simp] theorem State.raiseAt_pinIn (src code master acc addr : Nat) : (s.raiseAt src code master acc addr).pinIn = s.pinIn := by simp [State.raiseAt]
@[simp] theorem State.raiseAt_land (src code master acc addr : Nat) : (s.raiseAt src code master acc addr).land = s.land := by simp [State.raiseAt]
@[simp] theorem State.raiseAt_host (src code master acc addr : Nat) : (s.raiseAt src code master acc addr).host = s.host := by simp [State.raiseAt]
@[simp] theorem State.raiseAt_flt (src code master acc addr : Nat) : (s.raiseAt src code master acc addr).flt = s.flt := by simp [State.raiseAt]
@[simp] theorem State.raiseAt_load (src code master acc addr : Nat) : (s.raiseAt src code master acc addr).load = s.load := by simp [State.raiseAt]
@[simp] theorem State.raiseAt_recon (src code master acc addr : Nat) : (s.raiseAt src code master acc addr).recon = s.recon := by simp [State.raiseAt]
@[simp] theorem State.raiseAt_nvm (src code master acc addr : Nat) : (s.raiseAt src code master acc addr).nvm = s.nvm := by simp [State.raiseAt]
@[simp] theorem State.raiseAt_power (src code master acc addr : Nat) : (s.raiseAt src code master acc addr).power = s.power := by simp [State.raiseAt]
@[simp] theorem State.raiseAt_store (src code master acc addr : Nat) : (s.raiseAt src code master acc addr).store = s.store := by simp [State.raiseAt]
@[simp] theorem State.raiseAt_sec (src code master acc addr : Nat) : (s.raiseAt src code master acc addr).sec = s.sec := by simp [State.raiseAt]
@[simp] theorem State.raiseAt_tap (src code master acc addr : Nat) : (s.raiseAt src code master acc addr).tap = s.tap := by simp [State.raiseAt]
@[simp] theorem State.raiseAt_pins (src code master acc addr : Nat) : (s.raiseAt src code master acc addr).pins = s.pins := by simp [State.raiseAt]
@[simp] theorem State.raiseAt_por (src code master acc addr : Nat) : (s.raiseAt src code master acc addr).por = s.por := by simp [State.raiseAt]
@[simp] theorem State.raiseAt_warm (src code master acc addr : Nat) : (s.raiseAt src code master acc addr).warm = s.warm := by simp [State.raiseAt]
@[simp] theorem State.raiseAt_free (src code master acc addr : Nat) : (s.raiseAt src code master acc addr).free = s.free := by simp [State.raiseAt]

/-! ### setStrand -/

@[simp] theorem State.setStrand_part (g : Nat) (x : Strand) : (s.setStrand g x).part = s.part := rfl
@[simp] theorem State.setStrand_stepping (g : Nat) (x : Strand) : (s.setStrand g x).stepping = s.stepping := rfl
@[simp] theorem State.setStrand_pending (g : Nat) (x : Strand) : (s.setStrand g x).pending = s.pending := rfl
@[simp] theorem State.setStrand_regs (g : Nat) (x : Strand) : (s.setStrand g x).regs = s.regs := rfl
@[simp] theorem State.setStrand_snap (g : Nat) (x : Strand) : (s.setStrand g x).snap = s.snap := rfl
@[simp] theorem State.setStrand_staged (g : Nat) (x : Strand) : (s.setStrand g x).staged = s.staged := rfl
@[simp] theorem State.setStrand_mem (g : Nat) (x : Strand) : (s.setStrand g x).mem = s.mem := rfl
@[simp] theorem State.setStrand_core (g : Nat) (x : Strand) : (s.setStrand g x).core = s.core := rfl
@[simp] theorem State.setStrand_instrs (g : Nat) (x : Strand) : (s.setStrand g x).instrs = s.instrs := rfl
@[simp] theorem State.setStrand_ports (g : Nat) (x : Strand) : (s.setStrand g x).ports = s.ports := rfl
@[simp] theorem State.setStrand_ring (g : Nat) (x : Strand) : (s.setStrand g x).ring = s.ring := rfl
@[simp] theorem State.setStrand_image (g : Nat) (x : Strand) : (s.setStrand g x).image = s.image := rfl
@[simp] theorem State.setStrand_lanes (g : Nat) (x : Strand) : (s.setStrand g x).lanes = s.lanes := rfl
@[simp] theorem State.setStrand_caps (g : Nat) (x : Strand) : (s.setStrand g x).caps = s.caps := rfl
@[simp] theorem State.setStrand_pats (g : Nat) (x : Strand) : (s.setStrand g x).pats = s.pats := rfl
@[simp] theorem State.setStrand_reports (g : Nat) (x : Strand) : (s.setStrand g x).reports = s.reports := rfl
@[simp] theorem State.setStrand_trace (g : Nat) (x : Strand) : (s.setStrand g x).trace = s.trace := rfl
@[simp] theorem State.setStrand_time (g : Nat) (x : Strand) : (s.setStrand g x).time = s.time := rfl
@[simp] theorem State.setStrand_trig (g : Nat) (x : Strand) : (s.setStrand g x).trig = s.trig := rfl
@[simp] theorem State.setStrand_edge (g : Nat) (x : Strand) : (s.setStrand g x).edge = s.edge := rfl
@[simp] theorem State.setStrand_act (g : Nat) (x : Strand) : (s.setStrand g x).act = s.act := rfl
@[simp] theorem State.setStrand_splice (g : Nat) (x : Strand) : (s.setStrand g x).splice = s.splice := rfl
@[simp] theorem State.setStrand_pinIn (g : Nat) (x : Strand) : (s.setStrand g x).pinIn = s.pinIn := rfl
@[simp] theorem State.setStrand_land (g : Nat) (x : Strand) : (s.setStrand g x).land = s.land := rfl
@[simp] theorem State.setStrand_host (g : Nat) (x : Strand) : (s.setStrand g x).host = s.host := rfl
@[simp] theorem State.setStrand_flt (g : Nat) (x : Strand) : (s.setStrand g x).flt = s.flt := rfl
@[simp] theorem State.setStrand_load (g : Nat) (x : Strand) : (s.setStrand g x).load = s.load := rfl
@[simp] theorem State.setStrand_recon (g : Nat) (x : Strand) : (s.setStrand g x).recon = s.recon := rfl
@[simp] theorem State.setStrand_nvm (g : Nat) (x : Strand) : (s.setStrand g x).nvm = s.nvm := rfl
@[simp] theorem State.setStrand_power (g : Nat) (x : Strand) : (s.setStrand g x).power = s.power := rfl
@[simp] theorem State.setStrand_store (g : Nat) (x : Strand) : (s.setStrand g x).store = s.store := rfl
@[simp] theorem State.setStrand_sec (g : Nat) (x : Strand) : (s.setStrand g x).sec = s.sec := rfl
@[simp] theorem State.setStrand_tap (g : Nat) (x : Strand) : (s.setStrand g x).tap = s.tap := rfl
@[simp] theorem State.setStrand_pins (g : Nat) (x : Strand) : (s.setStrand g x).pins = s.pins := rfl
@[simp] theorem State.setStrand_por (g : Nat) (x : Strand) : (s.setStrand g x).por = s.por := rfl
@[simp] theorem State.setStrand_warm (g : Nat) (x : Strand) : (s.setStrand g x).warm = s.warm := rfl
@[simp] theorem State.setStrand_free (g : Nat) (x : Strand) : (s.setStrand g x).free = s.free := rfl

/-! ### setPort -/

@[simp] theorem State.setPort_part (k : Nat) (p : Port) : (s.setPort k p).part = s.part := rfl
@[simp] theorem State.setPort_stepping (k : Nat) (p : Port) : (s.setPort k p).stepping = s.stepping := rfl
@[simp] theorem State.setPort_pending (k : Nat) (p : Port) : (s.setPort k p).pending = s.pending := rfl
@[simp] theorem State.setPort_regs (k : Nat) (p : Port) : (s.setPort k p).regs = s.regs := rfl
@[simp] theorem State.setPort_snap (k : Nat) (p : Port) : (s.setPort k p).snap = s.snap := rfl
@[simp] theorem State.setPort_staged (k : Nat) (p : Port) : (s.setPort k p).staged = s.staged := rfl
@[simp] theorem State.setPort_mem (k : Nat) (p : Port) : (s.setPort k p).mem = s.mem := rfl
@[simp] theorem State.setPort_core (k : Nat) (p : Port) : (s.setPort k p).core = s.core := rfl
@[simp] theorem State.setPort_strands (k : Nat) (p : Port) : (s.setPort k p).strands = s.strands := rfl
@[simp] theorem State.setPort_instrs (k : Nat) (p : Port) : (s.setPort k p).instrs = s.instrs := rfl
@[simp] theorem State.setPort_ring (k : Nat) (p : Port) : (s.setPort k p).ring = s.ring := rfl
@[simp] theorem State.setPort_image (k : Nat) (p : Port) : (s.setPort k p).image = s.image := rfl
@[simp] theorem State.setPort_lanes (k : Nat) (p : Port) : (s.setPort k p).lanes = s.lanes := rfl
@[simp] theorem State.setPort_caps (k : Nat) (p : Port) : (s.setPort k p).caps = s.caps := rfl
@[simp] theorem State.setPort_pats (k : Nat) (p : Port) : (s.setPort k p).pats = s.pats := rfl
@[simp] theorem State.setPort_reports (k : Nat) (p : Port) : (s.setPort k p).reports = s.reports := rfl
@[simp] theorem State.setPort_trace (k : Nat) (p : Port) : (s.setPort k p).trace = s.trace := rfl
@[simp] theorem State.setPort_time (k : Nat) (p : Port) : (s.setPort k p).time = s.time := rfl
@[simp] theorem State.setPort_trig (k : Nat) (p : Port) : (s.setPort k p).trig = s.trig := rfl
@[simp] theorem State.setPort_edge (k : Nat) (p : Port) : (s.setPort k p).edge = s.edge := rfl
@[simp] theorem State.setPort_act (k : Nat) (p : Port) : (s.setPort k p).act = s.act := rfl
@[simp] theorem State.setPort_splice (k : Nat) (p : Port) : (s.setPort k p).splice = s.splice := rfl
@[simp] theorem State.setPort_pinIn (k : Nat) (p : Port) : (s.setPort k p).pinIn = s.pinIn := rfl
@[simp] theorem State.setPort_land (k : Nat) (p : Port) : (s.setPort k p).land = s.land := rfl
@[simp] theorem State.setPort_host (k : Nat) (p : Port) : (s.setPort k p).host = s.host := rfl
@[simp] theorem State.setPort_flt (k : Nat) (p : Port) : (s.setPort k p).flt = s.flt := rfl
@[simp] theorem State.setPort_load (k : Nat) (p : Port) : (s.setPort k p).load = s.load := rfl
@[simp] theorem State.setPort_recon (k : Nat) (p : Port) : (s.setPort k p).recon = s.recon := rfl
@[simp] theorem State.setPort_nvm (k : Nat) (p : Port) : (s.setPort k p).nvm = s.nvm := rfl
@[simp] theorem State.setPort_power (k : Nat) (p : Port) : (s.setPort k p).power = s.power := rfl
@[simp] theorem State.setPort_store (k : Nat) (p : Port) : (s.setPort k p).store = s.store := rfl
@[simp] theorem State.setPort_sec (k : Nat) (p : Port) : (s.setPort k p).sec = s.sec := rfl
@[simp] theorem State.setPort_tap (k : Nat) (p : Port) : (s.setPort k p).tap = s.tap := rfl
@[simp] theorem State.setPort_pins (k : Nat) (p : Port) : (s.setPort k p).pins = s.pins := rfl
@[simp] theorem State.setPort_por (k : Nat) (p : Port) : (s.setPort k p).por = s.por := rfl
@[simp] theorem State.setPort_warm (k : Nat) (p : Port) : (s.setPort k p).warm = s.warm := rfl
@[simp] theorem State.setPort_free (k : Nat) (p : Port) : (s.setPort k p).free = s.free := rfl

end Sys2Proof.Machine
end

