-- ==== Sys2Proof/Laws/Memory.lean ====
section
/-! SUPPORT. Laws of the memory: a byte reads as what was last written to it, and every write keeps the canonical form. -/

namespace Sys2Proof.Machine

/-- A byte after a write. -/
theorem State.rdByte_wrByte (s : State) (a b : Nat) (v : Byte) :
    (s.wrByte a v).rdByte b = if b = a then v else s.rdByte b := SMap.get_set _ _ _ _ _

@[simp] theorem State.rdByte_wrByte_self (s : State) (a : Nat) (v : Byte) : (s.wrByte a v).rdByte a = v := by
  simp [State.rdByte_wrByte]

theorem State.wrByte_wf {s : State} (h : Memory.wf s.mem) (a : Nat) (v : Byte) : Memory.wf (s.wrByte a v).mem :=
  SMap.set_wf memDefault s.mem a v h

/-- Bytes outside a written range keep their values. -/
theorem State.rdByte_wrBytes_ne (bs : Bytes) :
    ∀ (s : State) (a b : Nat), (b < a ∨ a + bs.length ≤ b) → (s.wrBytes a bs).rdByte b = s.rdByte b := by
  induction bs with
  | nil => intros; rfl
  | cons v bs ih =>
    intro s a b h
    simp only [List.length_cons] at h
    rw [State.wrBytes, ih _ _ _ (by omega), State.rdByte_wrByte, if_neg (by omega)]

/-- The bytes of a written range. -/
theorem State.rdByte_wrBytes (bs : Bytes) : ∀ (s : State) (a i : Nat) (h : i < bs.length),
    (s.wrBytes a bs).rdByte (a + i) = bs[i] := by
  induction bs with
  | nil => intro s a i h; exact absurd h (by simp)
  | cons v bs ih =>
    intro s a i h
    rw [State.wrBytes]
    match i with
    | 0 => rw [Nat.add_zero, State.rdByte_wrBytes_ne _ _ _ _ (by omega)]; simp
    | j + 1 =>
      have := ih (s.wrByte a v) (a + 1) j (by simpa using h)
      rw [show a + (j + 1) = a + 1 + j by omega, this]
      rfl

theorem State.wrBytes_wf (bs : Bytes) : ∀ {s : State} (_ : Memory.wf s.mem) (a : Nat), Memory.wf (s.wrBytes a bs).mem := by
  induction bs with
  | nil => exact fun h _ => h
  | cons b bs ih => exact fun h a => ih (State.wrByte_wf h a b) _

theorem State.wrEnabled_wf (bs : List (Bool × Byte)) :
    ∀ {s : State} (_ : Memory.wf s.mem) (a : Nat), Memory.wf (s.wrEnabled a bs).mem := by
  induction bs with
  | nil => exact fun h _ => h
  | cons b bs ih =>
    intro s h a
    rw [State.wrEnabled]
    refine ih ?_ _
    split
    · exact State.wrByte_wf h a _
    · exact h

/-- A word write keeps the memory canonical. -/
theorem State.wrWord_wf {s : State} (h : Memory.wf s.mem) (a : Nat) (v : W128) : Memory.wf (s.wrWord a v).mem :=
  State.wrBytes_wf _ h a

theorem leBytes_length (n : Nat) : ∀ x, (leBytes n x).length = n := by
  induction n with
  | zero => intro x; rfl
  | succ n ih => intro x; simp [leBytes, ih]

/-- A word write leaves every byte outside its sixteen as it was. -/
theorem State.rdByte_wrWord_ne (s : State) (a b : Nat) (v : W128) (h : b < a ∨ a + 16 ≤ b) :
    (s.wrWord a v).rdByte b = s.rdByte b :=
  State.rdByte_wrBytes_ne _ _ _ _ (by rw [leBytes_length]; exact h)

end Sys2Proof.Machine
end

