-- ==== Sys2Proof/Laws/Only.lean ====
section
/-! SUPPORT. What a function of the machine may change: a law for each function lists, as a mask, the kinds of update that it
makes, and a property that survives those updates survives the function. The bits of a mask, in their order, are the fields
of `Closed`. -/

namespace Sys2Proof.Machine

/-- The property `P` of a state, as a relation with a head of its own. -/
def Sat (P : State → Prop) (s : State) : Prop := P s

/-- The property `P` survives the updates whose bits are set in `m`. -/
structure Closed (P : State → Prop) (m : Nat) : Prop where
  snap : m.testBit 0 = true → ∀ s v, Sat P s → Sat P { s with snap := v }
  staged : m.testBit 1 = true → ∀ s v, Sat P s → Sat P { s with staged := v }
  core : m.testBit 2 = true → ∀ s v, Sat P s → Sat P { s with core := v }
  strands : m.testBit 3 = true → ∀ s v, Sat P s → Sat P { s with strands := v }
  instrs : m.testBit 4 = true → ∀ s v, Sat P s → Sat P { s with instrs := v }
  ports : m.testBit 5 = true → ∀ s v, Sat P s → Sat P { s with ports := v }
  ring : m.testBit 6 = true → ∀ s v, Sat P s → Sat P { s with ring := v }
  image : m.testBit 7 = true → ∀ s v, Sat P s → Sat P { s with image := v }
  lanes : m.testBit 8 = true → ∀ s v, Sat P s → Sat P { s with lanes := v }
  caps : m.testBit 9 = true → ∀ s v, Sat P s → Sat P { s with caps := v }
  pats : m.testBit 10 = true → ∀ s v, Sat P s → Sat P { s with pats := v }
  reports : m.testBit 11 = true → ∀ s v, Sat P s → Sat P { s with reports := v }
  trace : m.testBit 12 = true → ∀ s v, Sat P s → Sat P { s with trace := v }
  time : m.testBit 13 = true → ∀ s v, Sat P s → Sat P { s with time := v }
  trig : m.testBit 14 = true → ∀ s v, Sat P s → Sat P { s with trig := v }
  edge : m.testBit 15 = true → ∀ s v, Sat P s → Sat P { s with edge := v }
  act : m.testBit 16 = true → ∀ s v, Sat P s → Sat P { s with act := v }
  splice : m.testBit 17 = true → ∀ s v, Sat P s → Sat P { s with splice := v }
  pinIn : m.testBit 18 = true → ∀ s v, Sat P s → Sat P { s with pinIn := v }
  land : m.testBit 19 = true → ∀ s v, Sat P s → Sat P { s with land := v }
  host : m.testBit 20 = true → ∀ s v, Sat P s → Sat P { s with host := v }
  flt : m.testBit 21 = true → ∀ s v, Sat P s → Sat P { s with flt := v }
  load : m.testBit 22 = true → ∀ s v, Sat P s → Sat P { s with load := v }
  recon : m.testBit 23 = true → ∀ s v, Sat P s → Sat P { s with recon := v }
  nvm : m.testBit 24 = true → ∀ s v, Sat P s → Sat P { s with nvm := v }
  power : m.testBit 25 = true → ∀ s v, Sat P s → Sat P { s with power := v }
  store : m.testBit 26 = true → ∀ s v, v.fuses = s.store.fuses → Sat P s → Sat P { s with store := v }
  sec : m.testBit 27 = true → ∀ s v, Sat P s → Sat P { s with sec := v }
  tap : m.testBit 28 = true → ∀ s v, Sat P s → Sat P { s with tap := v }
  pins : m.testBit 29 = true → ∀ s v, Sat P s → Sat P { s with pins := v }
  por : m.testBit 30 = true → ∀ s v, Sat P s → Sat P { s with por := v }
  warm : m.testBit 31 = true → ∀ s v, Sat P s → Sat P { s with warm := v }
  free : m.testBit 32 = true → ∀ s v, Sat P s → Sat P { s with free := v }
  setReg : m.testBit 33 = true → ∀ s a v, Sat P s → Sat P (s.setReg a v)
  wrByte : m.testBit 34 = true → ∀ s a v, Sat P s → Sat P (s.wrByte a v)
  filterRegs : m.testBit 35 = true → ∀ s f, Sat P s → Sat P { s with regs := s.regs.filter f }
  filterMem : m.testBit 36 = true → ∀ s f, Sat P s → Sat P { s with mem := s.mem.filter f }
  regsOf : m.testBit 37 = true → ∀ s t, Sat P s → Sat P t → Sat P { s with regs := t.regs }
  restart : m.testBit 38 = true → ∀ s b, Sat P s → Sat P (s.restart b)
  fuses : m.testBit 39 = true → ∀ s v, Sat P s → Sat P { s with store := { s.store with fuses := v } }

variable {P : State → Prop} {s : State}

theorem testBit_of_lor {m n : Nat} (e : m ||| n = n) {i : Nat} (h : m.testBit i = true) : n.testBit i = true := by
  rw [← e, Nat.testBit_or, h, Bool.true_or]

theorem Closed.mono {m n : Nat} (c : Closed P n) (e : m ||| n = n) : Closed P m :=
  ⟨fun h => c.snap (testBit_of_lor e h),
    fun h => c.staged (testBit_of_lor e h),
    fun h => c.core (testBit_of_lor e h),
    fun h => c.strands (testBit_of_lor e h),
    fun h => c.instrs (testBit_of_lor e h),
    fun h => c.ports (testBit_of_lor e h),
    fun h => c.ring (testBit_of_lor e h),
    fun h => c.image (testBit_of_lor e h),
    fun h => c.lanes (testBit_of_lor e h),
    fun h => c.caps (testBit_of_lor e h),
    fun h => c.pats (testBit_of_lor e h),
    fun h => c.reports (testBit_of_lor e h),
    fun h => c.trace (testBit_of_lor e h),
    fun h => c.time (testBit_of_lor e h),
    fun h => c.trig (testBit_of_lor e h),
    fun h => c.edge (testBit_of_lor e h),
    fun h => c.act (testBit_of_lor e h),
    fun h => c.splice (testBit_of_lor e h),
    fun h => c.pinIn (testBit_of_lor e h),
    fun h => c.land (testBit_of_lor e h),
    fun h => c.host (testBit_of_lor e h),
    fun h => c.flt (testBit_of_lor e h),
    fun h => c.load (testBit_of_lor e h),
    fun h => c.recon (testBit_of_lor e h),
    fun h => c.nvm (testBit_of_lor e h),
    fun h => c.power (testBit_of_lor e h),
    fun h => c.store (testBit_of_lor e h),
    fun h => c.sec (testBit_of_lor e h),
    fun h => c.tap (testBit_of_lor e h),
    fun h => c.pins (testBit_of_lor e h),
    fun h => c.por (testBit_of_lor e h),
    fun h => c.warm (testBit_of_lor e h),
    fun h => c.free (testBit_of_lor e h),
    fun h => c.setReg (testBit_of_lor e h),
    fun h => c.wrByte (testBit_of_lor e h),
    fun h => c.filterRegs (testBit_of_lor e h),
    fun h => c.filterMem (testBit_of_lor e h),
    fun h => c.regsOf (testBit_of_lor e h),
    fun h => c.restart (testBit_of_lor e h),
    fun h => c.fuses (testBit_of_lor e h)⟩

theorem upd_snap (c : Closed P 0x1) (h : Sat P s) {v} : Sat P { s with snap := v } := c.snap rfl _ _ h
theorem upd_staged (c : Closed P 0x2) (h : Sat P s) {v} : Sat P { s with staged := v } := c.staged rfl _ _ h
theorem upd_core (c : Closed P 0x4) (h : Sat P s) {v} : Sat P { s with core := v } := c.core rfl _ _ h
theorem upd_strands (c : Closed P 0x8) (h : Sat P s) {v} : Sat P { s with strands := v } := c.strands rfl _ _ h
theorem upd_instrs (c : Closed P 0x10) (h : Sat P s) {v} : Sat P { s with instrs := v } := c.instrs rfl _ _ h
theorem upd_ports (c : Closed P 0x20) (h : Sat P s) {v} : Sat P { s with ports := v } := c.ports rfl _ _ h
theorem upd_ring (c : Closed P 0x40) (h : Sat P s) {v} : Sat P { s with ring := v } := c.ring rfl _ _ h
theorem upd_image (c : Closed P 0x80) (h : Sat P s) {v} : Sat P { s with image := v } := c.image rfl _ _ h
theorem upd_lanes (c : Closed P 0x100) (h : Sat P s) {v} : Sat P { s with lanes := v } := c.lanes rfl _ _ h
theorem upd_caps (c : Closed P 0x200) (h : Sat P s) {v} : Sat P { s with caps := v } := c.caps rfl _ _ h
theorem upd_pats (c : Closed P 0x400) (h : Sat P s) {v} : Sat P { s with pats := v } := c.pats rfl _ _ h
theorem upd_reports (c : Closed P 0x800) (h : Sat P s) {v} : Sat P { s with reports := v } := c.reports rfl _ _ h
theorem upd_trace (c : Closed P 0x1000) (h : Sat P s) {v} : Sat P { s with trace := v } := c.trace rfl _ _ h
theorem upd_time (c : Closed P 0x2000) (h : Sat P s) {v} : Sat P { s with time := v } := c.time rfl _ _ h
theorem upd_trig (c : Closed P 0x4000) (h : Sat P s) {v} : Sat P { s with trig := v } := c.trig rfl _ _ h
theorem upd_edge (c : Closed P 0x8000) (h : Sat P s) {v} : Sat P { s with edge := v } := c.edge rfl _ _ h
theorem upd_act (c : Closed P 0x10000) (h : Sat P s) {v} : Sat P { s with act := v } := c.act rfl _ _ h
theorem upd_splice (c : Closed P 0x20000) (h : Sat P s) {v} : Sat P { s with splice := v } := c.splice rfl _ _ h
theorem upd_pinIn (c : Closed P 0x40000) (h : Sat P s) {v} : Sat P { s with pinIn := v } := c.pinIn rfl _ _ h
theorem upd_land (c : Closed P 0x80000) (h : Sat P s) {v} : Sat P { s with land := v } := c.land rfl _ _ h
theorem upd_host (c : Closed P 0x100000) (h : Sat P s) {v} : Sat P { s with host := v } := c.host rfl _ _ h
theorem upd_flt (c : Closed P 0x200000) (h : Sat P s) {v} : Sat P { s with flt := v } := c.flt rfl _ _ h
theorem upd_load (c : Closed P 0x400000) (h : Sat P s) {v} : Sat P { s with load := v } := c.load rfl _ _ h
theorem upd_recon (c : Closed P 0x800000) (h : Sat P s) {v} : Sat P { s with recon := v } := c.recon rfl _ _ h
theorem upd_nvm (c : Closed P 0x1000000) (h : Sat P s) {v} : Sat P { s with nvm := v } := c.nvm rfl _ _ h
theorem upd_power (c : Closed P 0x2000000) (h : Sat P s) {v} : Sat P { s with power := v } := c.power rfl _ _ h
theorem upd_sec (c : Closed P 0x8000000) (h : Sat P s) {v} : Sat P { s with sec := v } := c.sec rfl _ _ h
theorem upd_tap (c : Closed P 0x10000000) (h : Sat P s) {v} : Sat P { s with tap := v } := c.tap rfl _ _ h
theorem upd_pins (c : Closed P 0x20000000) (h : Sat P s) {v} : Sat P { s with pins := v } := c.pins rfl _ _ h
theorem upd_por (c : Closed P 0x40000000) (h : Sat P s) {v} : Sat P { s with por := v } := c.por rfl _ _ h
theorem upd_warm (c : Closed P 0x80000000) (h : Sat P s) {v} : Sat P { s with warm := v } := c.warm rfl _ _ h
theorem upd_free (c : Closed P 0x100000000) (h : Sat P s) {v} : Sat P { s with free := v } := c.free rfl _ _ h
theorem upd_store (c : Closed P 0x4000000) (h : Sat P s) {v} (e : v.fuses = s.store.fuses) : Sat P { s with store := v } :=
  c.store rfl _ _ e h
theorem upd_fuses (c : Closed P 0x8000000000) (h : Sat P s) {v} : Sat P { s with store := { s.store with fuses := v } } :=
  c.fuses rfl _ _ h
theorem upd_regs (c : Closed P 0x800000000) (h : Sat P s) {f} : Sat P { s with regs := s.regs.filter f } := c.filterRegs rfl _ _ h
theorem upd_mem (c : Closed P 0x1000000000) (h : Sat P s) {f} : Sat P { s with mem := s.mem.filter f } := c.filterMem rfl _ _ h
theorem State.setReg_only (c : Closed P 0x200000000) (h : Sat P s) (a : Nat) (v : W32) : Sat P (s.setReg a v) := c.setReg rfl _ _ _ h
theorem State.wrByte_only (c : Closed P 0x400000000) (h : Sat P s) (a : Nat) (v : Byte) : Sat P (s.wrByte a v) := c.wrByte rfl _ _ _ h
theorem State.restart_only (c : Closed P 0x4000000000) (h : Sat P s) (b : Bool) : Sat P (s.restart b) := c.restart rfl _ _ h
theorem upd_regsOf (c : Closed P 0x2000000000) {t : State} (h : Sat P s) (ht : Sat P t) : Sat P { s with regs := t.regs } := c.regsOf rfl _ _ h ht
theorem upd_regsOf_edge (c : Closed P 0x2000008000) {t : State} (h : Sat P s) (ht : Sat P t) {v} :
    Sat P { s with edge := v, regs := t.regs } := c.regsOf rfl { s with edge := v } t (c.edge rfl s v h) ht

theorem upd_caps_pats (c : Closed P 0x600) (h : Sat P s) {v0 v1} :
    Sat P { s with caps := v0, pats := v1 } :=
  c.pats rfl { s with caps := v0 } v1 (c.caps rfl s v0 h)
theorem upd_core_edge (c : Closed P 0x8004) (h : Sat P s) {v0 v1} :
    Sat P { s with core := v0, edge := v1 } :=
  c.edge rfl { s with core := v0 } v1 (c.core rfl s v0 h)
theorem upd_core_edge_host_ring_strands (c : Closed P 0x10804C) (h : Sat P s) {v0 v1 v2 v3 v4} :
    Sat P { s with core := v0, edge := v1, host := v2, ring := v3, strands := v4 } :=
  c.strands rfl { s with core := v0, edge := v1, host := v2, ring := v3 } v4 (c.ring rfl { s with core := v0, edge := v1, host := v2 } v3 (c.host rfl { s with core := v0, edge := v1 } v2 (c.edge rfl { s with core := v0 } v1 (c.core rfl s v0 h))))
theorem upd_core_edge_recon_splice (c : Closed P 0x828004) (h : Sat P s) {v0 v1 v2 v3} :
    Sat P { s with core := v0, edge := v1, recon := v2, splice := v3 } :=
  c.splice rfl { s with core := v0, edge := v1, recon := v2 } v3 (c.recon rfl { s with core := v0, edge := v1 } v2 (c.edge rfl { s with core := v0 } v1 (c.core rfl s v0 h)))
theorem upd_core_host_ring_sec_trace_trig (c : Closed P 0x8105044) (h : Sat P s) {v0 v1 v2 v3 v4 v5} :
    Sat P { s with core := v0, host := v1, ring := v2, sec := v3, trace := v4, trig := v5 } :=
  c.trig rfl { s with core := v0, host := v1, ring := v2, sec := v3, trace := v4 } v5 (c.trace rfl { s with core := v0, host := v1, ring := v2, sec := v3 } v4 (c.sec rfl { s with core := v0, host := v1, ring := v2 } v3 (c.ring rfl { s with core := v0, host := v1 } v2 (c.host rfl { s with core := v0 } v1 (c.core rfl s v0 h)))))
theorem upd_core_image_strands (c : Closed P 0x8C) (h : Sat P s) {v0 v1 v2} :
    Sat P { s with core := v0, image := v1, strands := v2 } :=
  c.strands rfl { s with core := v0, image := v1 } v2 (c.image rfl { s with core := v0 } v1 (c.core rfl s v0 h))
theorem upd_core_power (c : Closed P 0x2000004) (h : Sat P s) {v0 v1} :
    Sat P { s with core := v0, power := v1 } :=
  c.power rfl { s with core := v0 } v1 (c.core rfl s v0 h)
theorem upd_core_ring (c : Closed P 0x44) (h : Sat P s) {v0 v1} :
    Sat P { s with core := v0, ring := v1 } :=
  c.ring rfl { s with core := v0 } v1 (c.core rfl s v0 h)
theorem upd_core_splice (c : Closed P 0x20004) (h : Sat P s) {v0 v1} :
    Sat P { s with core := v0, splice := v1 } :=
  c.splice rfl { s with core := v0 } v1 (c.core rfl s v0 h)
theorem upd_core_splice_time_trace (c : Closed P 0x23004) (h : Sat P s) {v0 v1 v2 v3} :
    Sat P { s with core := v0, splice := v1, time := v2, trace := v3 } :=
  c.trace rfl { s with core := v0, splice := v1, time := v2 } v3 (c.time rfl { s with core := v0, splice := v1 } v2 (c.splice rfl { s with core := v0 } v1 (c.core rfl s v0 h)))
theorem upd_core_time (c : Closed P 0x2004) (h : Sat P s) {v0 v1} :
    Sat P { s with core := v0, time := v1 } :=
  c.time rfl { s with core := v0 } v1 (c.core rfl s v0 h)
theorem upd_edge_image_recon (c : Closed P 0x808080) (h : Sat P s) {v0 v1 v2} :
    Sat P { s with edge := v0, image := v1, recon := v2 } :=
  c.recon rfl { s with edge := v0, image := v1 } v2 (c.image rfl { s with edge := v0 } v1 (c.edge rfl s v0 h))
theorem upd_edge_pins (c : Closed P 0x20008000) (h : Sat P s) {v0 v1} :
    Sat P { s with edge := v0, pins := v1 } :=
  c.pins rfl { s with edge := v0 } v1 (c.edge rfl s v0 h)
theorem upd_flt_splice (c : Closed P 0x220000) (h : Sat P s) {v0 v1} :
    Sat P { s with flt := v0, splice := v1 } :=
  c.splice rfl { s with flt := v0 } v1 (c.flt rfl s v0 h)
theorem upd_flt_time (c : Closed P 0x202000) (h : Sat P s) {v0 v1} :
    Sat P { s with flt := v0, time := v1 } :=
  c.time rfl { s with flt := v0 } v1 (c.flt rfl s v0 h)
theorem upd_host_ring (c : Closed P 0x100040) (h : Sat P s) {v0 v1} :
    Sat P { s with host := v0, ring := v1 } :=
  c.ring rfl { s with host := v0 } v1 (c.host rfl s v0 h)
theorem upd_host_snap (c : Closed P 0x100001) (h : Sat P s) {v0 v1} :
    Sat P { s with host := v0, snap := v1 } :=
  c.snap rfl { s with host := v0 } v1 (c.host rfl s v0 h)
theorem upd_image_recon_sec (c : Closed P 0x8800080) (h : Sat P s) {v0 v1 v2} :
    Sat P { s with image := v0, recon := v1, sec := v2 } :=
  c.sec rfl { s with image := v0, recon := v1 } v2 (c.recon rfl { s with image := v0 } v1 (c.image rfl s v0 h))
theorem upd_image_strands (c : Closed P 0x88) (h : Sat P s) {v0 v1} :
    Sat P { s with image := v0, strands := v1 } :=
  c.strands rfl { s with image := v0 } v1 (c.image rfl s v0 h)
theorem upd_instrs_load (c : Closed P 0x400010) (h : Sat P s) {v0 v1} :
    Sat P { s with instrs := v0, load := v1 } :=
  c.load rfl { s with instrs := v0 } v1 (c.instrs rfl s v0 h)
theorem upd_instrs_ring (c : Closed P 0x50) (h : Sat P s) {v0 v1} :
    Sat P { s with instrs := v0, ring := v1 } :=
  c.ring rfl { s with instrs := v0 } v1 (c.instrs rfl s v0 h)
theorem upd_instrs_strands (c : Closed P 0x18) (h : Sat P s) {v0 v1} :
    Sat P { s with instrs := v0, strands := v1 } :=
  c.strands rfl { s with instrs := v0 } v1 (c.instrs rfl s v0 h)
theorem upd_load_recon_splice (c : Closed P 0xC20000) (h : Sat P s) {v0 v1 v2} :
    Sat P { s with load := v0, recon := v1, splice := v2 } :=
  c.splice rfl { s with load := v0, recon := v1 } v2 (c.recon rfl { s with load := v0 } v1 (c.load rfl s v0 h))
theorem upd_pinIn_splice (c : Closed P 0x60000) (h : Sat P s) {v0 v1} :
    Sat P { s with pinIn := v0, splice := v1 } :=
  c.splice rfl { s with pinIn := v0 } v1 (c.pinIn rfl s v0 h)
theorem upd_pins_ring (c : Closed P 0x20000040) (h : Sat P s) {v0 v1} :
    Sat P { s with pins := v0, ring := v1 } :=
  c.ring rfl { s with pins := v0 } v1 (c.pins rfl s v0 h)
theorem upd_ports_ring (c : Closed P 0x60) (h : Sat P s) {v0 v1} :
    Sat P { s with ports := v0, ring := v1 } :=
  c.ring rfl { s with ports := v0 } v1 (c.ports rfl s v0 h)
theorem upd_sec_fuses (c : Closed P 0x8008000000) (h : Sat P s) {v0 v1} :
    Sat P { s with sec := v0, store := { s.store with fuses := v1 } } :=
  c.fuses rfl { s with sec := v0 } v1 (c.sec rfl s v0 h)

/-- A property of the queue, the part, the registers and the memory alone survives every update if it survives those of the
registers and the memory, and the restart. -/
theorem Closed.of {m : Nat}
    (other : ∀ (s : State) snap staged core strands instrs ports ring image lanes caps pats reports trace time trig edge act
      splice pinIn land host flt load recon nvm power store sec tap pins por warm free, Sat P s →
      Sat P { part := s.part, stepping := s.stepping, pending := s.pending, regs := s.regs, snap, staged, mem := s.mem, core,
              strands, instrs, ports, ring, image, lanes, caps, pats, reports, trace, time, trig, edge, act, splice, pinIn,
              land, host, flt, load, recon, nvm, power, store, sec, tap, pins, por, warm, free })
    (setReg : ∀ s a v, Sat P s → Sat P (s.setReg a v)) (wrByte : ∀ s a v, Sat P s → Sat P (s.wrByte a v))
    (filterRegs : ∀ s f, Sat P s → Sat P { s with regs := s.regs.filter f })
    (filterMem : ∀ s f, Sat P s → Sat P { s with mem := s.mem.filter f })
    (regsOf : ∀ s t, Sat P s → Sat P t → Sat P { s with regs := t.regs })
    (restart : ∀ s b, Sat P s → Sat P (s.restart b)) : Closed P m where
  snap _ s _ h := other s _ _ _ _ _ _ _ _ _ _ _ _ _ _ _ _ _ _ _ _ _ _ _ _ _ _ _ _ _ _ _ _ _ h
  staged _ s _ h := other s _ _ _ _ _ _ _ _ _ _ _ _ _ _ _ _ _ _ _ _ _ _ _ _ _ _ _ _ _ _ _ _ _ h
  core _ s _ h := other s _ _ _ _ _ _ _ _ _ _ _ _ _ _ _ _ _ _ _ _ _ _ _ _ _ _ _ _ _ _ _ _ _ h
  strands _ s _ h := other s _ _ _ _ _ _ _ _ _ _ _ _ _ _ _ _ _ _ _ _ _ _ _ _ _ _ _ _ _ _ _ _ _ h
  instrs _ s _ h := other s _ _ _ _ _ _ _ _ _ _ _ _ _ _ _ _ _ _ _ _ _ _ _ _ _ _ _ _ _ _ _ _ _ h
  ports _ s _ h := other s _ _ _ _ _ _ _ _ _ _ _ _ _ _ _ _ _ _ _ _ _ _ _ _ _ _ _ _ _ _ _ _ _ h
  ring _ s _ h := other s _ _ _ _ _ _ _ _ _ _ _ _ _ _ _ _ _ _ _ _ _ _ _ _ _ _ _ _ _ _ _ _ _ h
  image _ s _ h := other s _ _ _ _ _ _ _ _ _ _ _ _ _ _ _ _ _ _ _ _ _ _ _ _ _ _ _ _ _ _ _ _ _ h
  lanes _ s _ h := other s _ _ _ _ _ _ _ _ _ _ _ _ _ _ _ _ _ _ _ _ _ _ _ _ _ _ _ _ _ _ _ _ _ h
  caps _ s _ h := other s _ _ _ _ _ _ _ _ _ _ _ _ _ _ _ _ _ _ _ _ _ _ _ _ _ _ _ _ _ _ _ _ _ h
  pats _ s _ h := other s _ _ _ _ _ _ _ _ _ _ _ _ _ _ _ _ _ _ _ _ _ _ _ _ _ _ _ _ _ _ _ _ _ h
  reports _ s _ h := other s _ _ _ _ _ _ _ _ _ _ _ _ _ _ _ _ _ _ _ _ _ _ _ _ _ _ _ _ _ _ _ _ _ h
  trace _ s _ h := other s _ _ _ _ _ _ _ _ _ _ _ _ _ _ _ _ _ _ _ _ _ _ _ _ _ _ _ _ _ _ _ _ _ h
  time _ s _ h := other s _ _ _ _ _ _ _ _ _ _ _ _ _ _ _ _ _ _ _ _ _ _ _ _ _ _ _ _ _ _ _ _ _ h
  trig _ s _ h := other s _ _ _ _ _ _ _ _ _ _ _ _ _ _ _ _ _ _ _ _ _ _ _ _ _ _ _ _ _ _ _ _ _ h
  edge _ s _ h := other s _ _ _ _ _ _ _ _ _ _ _ _ _ _ _ _ _ _ _ _ _ _ _ _ _ _ _ _ _ _ _ _ _ h
  act _ s _ h := other s _ _ _ _ _ _ _ _ _ _ _ _ _ _ _ _ _ _ _ _ _ _ _ _ _ _ _ _ _ _ _ _ _ h
  splice _ s _ h := other s _ _ _ _ _ _ _ _ _ _ _ _ _ _ _ _ _ _ _ _ _ _ _ _ _ _ _ _ _ _ _ _ _ h
  pinIn _ s _ h := other s _ _ _ _ _ _ _ _ _ _ _ _ _ _ _ _ _ _ _ _ _ _ _ _ _ _ _ _ _ _ _ _ _ h
  land _ s _ h := other s _ _ _ _ _ _ _ _ _ _ _ _ _ _ _ _ _ _ _ _ _ _ _ _ _ _ _ _ _ _ _ _ _ h
  host _ s _ h := other s _ _ _ _ _ _ _ _ _ _ _ _ _ _ _ _ _ _ _ _ _ _ _ _ _ _ _ _ _ _ _ _ _ h
  flt _ s _ h := other s _ _ _ _ _ _ _ _ _ _ _ _ _ _ _ _ _ _ _ _ _ _ _ _ _ _ _ _ _ _ _ _ _ h
  load _ s _ h := other s _ _ _ _ _ _ _ _ _ _ _ _ _ _ _ _ _ _ _ _ _ _ _ _ _ _ _ _ _ _ _ _ _ h
  recon _ s _ h := other s _ _ _ _ _ _ _ _ _ _ _ _ _ _ _ _ _ _ _ _ _ _ _ _ _ _ _ _ _ _ _ _ _ h
  nvm _ s _ h := other s _ _ _ _ _ _ _ _ _ _ _ _ _ _ _ _ _ _ _ _ _ _ _ _ _ _ _ _ _ _ _ _ _ h
  power _ s _ h := other s _ _ _ _ _ _ _ _ _ _ _ _ _ _ _ _ _ _ _ _ _ _ _ _ _ _ _ _ _ _ _ _ _ h
  store _ s _ _ h := other s _ _ _ _ _ _ _ _ _ _ _ _ _ _ _ _ _ _ _ _ _ _ _ _ _ _ _ _ _ _ _ _ _ h
  sec _ s _ h := other s _ _ _ _ _ _ _ _ _ _ _ _ _ _ _ _ _ _ _ _ _ _ _ _ _ _ _ _ _ _ _ _ _ h
  tap _ s _ h := other s _ _ _ _ _ _ _ _ _ _ _ _ _ _ _ _ _ _ _ _ _ _ _ _ _ _ _ _ _ _ _ _ _ h
  pins _ s _ h := other s _ _ _ _ _ _ _ _ _ _ _ _ _ _ _ _ _ _ _ _ _ _ _ _ _ _ _ _ _ _ _ _ _ h
  por _ s _ h := other s _ _ _ _ _ _ _ _ _ _ _ _ _ _ _ _ _ _ _ _ _ _ _ _ _ _ _ _ _ _ _ _ _ h
  warm _ s _ h := other s _ _ _ _ _ _ _ _ _ _ _ _ _ _ _ _ _ _ _ _ _ _ _ _ _ _ _ _ _ _ _ _ _ h
  free _ s _ h := other s _ _ _ _ _ _ _ _ _ _ _ _ _ _ _ _ _ _ _ _ _ _ _ _ _ _ _ _ _ _ _ _ _ h
  setReg _ := setReg
  wrByte _ := wrByte
  filterRegs _ := filterRegs
  filterMem _ := filterMem
  regsOf _ := regsOf
  restart _ := restart
  fuses _ s _ h := other s _ _ _ _ _ _ _ _ _ _ _ _ _ _ _ _ _ _ _ _ _ _ _ _ _ _ _ _ _ _ _ _ _ h

theorem onlyIte {c : Prop} [Decidable c] {a b : State} (ha : Sat P a) (hb : Sat P b) : Sat P (if c then a else b) := by
  split
  · exact ha
  · exact hb

theorem onlyIteFst {α : Type} {c : Prop} [Decidable c] {a b : State × α} (ha : Sat P a.1) (hb : Sat P b.1) :
    Sat P (if c then a else b).1 := by
  split
  · exact ha
  · exact hb

/-- The next state of an outcome, if it is one, has the property. -/
def OnlyO (P : State → Prop) (o : Host.Outcome State Fault Refusal) : Prop := ∀ t, o = .next t → Sat P t

theorem onlyNext (h : Sat P s) : OnlyO P (.next s) := fun _ e => Host.Outcome.next.inj e ▸ h

theorem onlyIteO {c : Prop} [Decidable c] {a b : Host.Outcome State Fault Refusal} (ha : OnlyO P a) (hb : OnlyO P b) :
    OnlyO P (if c then a else b) := by
  split
  · exact ha
  · exact hb

theorem onlyFoldl {α : Type} {l : List α} {f : State → α → State} (h : Sat P s) (hf : ∀ t x, Sat P t → Sat P (f t x)) :
    Sat P (l.foldl f s) := by
  induction l generalizing s with
  | nil => exact h
  | cons x l ih => exact ih (hf s x h)

theorem onlyFoldlFst {α β : Type} {l : List α} {f : State × β → α → State × β} {x : State × β} (h : Sat P x.1)
    (hf : ∀ y a, Sat P y.1 → Sat P (f y a).1) : Sat P (l.foldl f x).1 := by
  induction l generalizing x with
  | nil => exact h
  | cons a l ih => exact ih (hf x a h)

theorem onlyEach {α : Type} {l : List α} {f : State → α → State} (h : Sat P s) (hf : ∀ t x, Sat P t → Sat P (f t x)) :
    Sat P (s.each l f) := onlyFoldl h hf

theorem onlyWhen {c : Bool} {f : State → State} (h : Sat P s) (hf : ∀ t, Sat P t → Sat P (f t)) : Sat P (s.when c f) := onlyIte (hf s h) h

end Sys2Proof.Machine
end

