-- ==== Sys2Proof/Laws/OnlyCore.lean ====
section
/-! SUPPORT. What the functions of the strands, the ring, the ports and the fabric may change. -/

set_option linter.all false
set_option linter.unreachableTactic false
set_option linter.unusedTactic false
set_option linter.unusedVariables false

namespace Sys2Proof.Machine

theorem State.fset_only {P : State → Prop} (cl : Closed P 0x200000000) {s : State} (h : Sat P s) (f : Fld) (x : Nat) : Sat P (State.fset s f x) := by
  unfold State.fset
  repeat' first | with_reducible assumption | exact Closed.mono cl (by decide) | (with_reducible intro _) | with_reducible apply onlyIte | with_reducible apply State.setReg_only | dsimp only | split

theorem State.setBit_only {P : State → Prop} (cl : Closed P 0x200000000) {s : State} (h : Sat P s) (f : Fld) (b : Bool) : Sat P (State.setBit s f b) := by
  unfold State.setBit
  repeat' first | with_reducible assumption | exact Closed.mono cl (by decide) | (with_reducible intro _) | with_reducible apply onlyIte | with_reducible apply State.fset_only | dsimp only | split

theorem State.setWords_only {P : State → Prop} (cl : Closed P 0x200000000) {s : State} (h : Sat P s) (a n x : Nat) : Sat P (s.setWords a n x) := by
  induction n generalizing s a x with
  | zero => exact h
  | succ n ih => exact ih (State.setReg_only (cl.mono rfl) h _ _) _ _

theorem State.wset_only {P : State → Prop} (cl : Closed P 0x200000000) {s : State} (h : Sat P s) (w : Wide) (x : Nat) : Sat P (State.wset s w x) := by
  unfold State.wset
  repeat' first | with_reducible assumption | exact Closed.mono cl (by decide) | (with_reducible intro _) | with_reducible apply onlyIte | with_reducible apply State.setWords_only | dsimp only | split

theorem State.count_only {P : State → Prop} (cl : Closed P 0x200000000) {s : State} (h : Sat P s) (f : Fld) (n : Nat) : Sat P (State.count s f n) := by
  unfold State.count
  repeat' first | with_reducible assumption | exact Closed.mono cl (by decide) | (with_reducible intro _) | with_reducible apply onlyIte | with_reducible apply State.fset_only | dsimp only | split

theorem State.countWrap_only {P : State → Prop} (cl : Closed P 0x200000000) {s : State} (h : Sat P s) (f : Fld) (n : Nat) : Sat P (State.countWrap s f n) := by
  unfold State.countWrap
  repeat' first | with_reducible assumption | exact Closed.mono cl (by decide) | (with_reducible intro _) | with_reducible apply onlyIte | with_reducible apply State.fset_only | dsimp only | split

theorem State.drawn_only {P : State → Prop} (cl : Closed P 0x100000000) {s : State} (h : Sat P s)  : Sat P (State.drawn s) := by
  unfold State.drawn
  repeat' first | with_reducible assumption | exact Closed.mono cl (by decide) | (with_reducible intro _) | with_reducible apply onlyIte | (fail_if_no_progress with_reducible apply upd_free (Closed.mono cl (by decide))) | dsimp only | split

theorem State.wrBytes_only {P : State → Prop} (cl : Closed P 0x400000000) {s : State} (h : Sat P s) (a : Nat) (bs : Bytes) : Sat P (s.wrBytes a bs) := by
  induction bs generalizing s a with
  | nil => exact h
  | cons b bs ih => exact ih (State.wrByte_only (cl.mono rfl) h _ _) _

theorem State.wrEnabled_only {P : State → Prop} (cl : Closed P 0x400000000) {s : State} (h : Sat P s) (a : Nat) (bs : List (Bool × Byte)) : Sat P (s.wrEnabled a bs) := by
  induction bs generalizing s a with
  | nil => exact h
  | cons b bs ih => exact ih (onlyIte (State.wrByte_only (cl.mono rfl) h _ _) h) _

theorem State.wrWord_only {P : State → Prop} (cl : Closed P 0x400000000) {s : State} (h : Sat P s) (a : Nat) (v : W128) : Sat P (State.wrWord s a v) := by
  unfold State.wrWord
  repeat' first | with_reducible assumption | exact Closed.mono cl (by decide) | (with_reducible intro _) | with_reducible apply onlyIte | with_reducible apply State.wrBytes_only | dsimp only | split

theorem State.raise_only {P : State → Prop} (cl : Closed P 0x200000800) {s : State} (h : Sat P s) (r : Report) : Sat P (State.raise s r) := by
  unfold State.raise
  repeat' first | with_reducible assumption | exact Closed.mono cl (by decide) | (with_reducible intro _) | with_reducible apply onlyIte | with_reducible apply State.fset_only | (fail_if_no_progress with_reducible apply upd_reports (Closed.mono cl (by decide))) | dsimp only | split

theorem State.raiseAt_only {P : State → Prop} (cl : Closed P 0x200000800) {s : State} (h : Sat P s) (src code master acc addr : Nat) : Sat P (State.raiseAt s src code master acc addr) := by
  unfold State.raiseAt
  repeat' first | with_reducible assumption | exact Closed.mono cl (by decide) | (with_reducible intro _) | with_reducible apply onlyIte | with_reducible apply State.raise_only | dsimp only | split

theorem State.watch_only {P : State → Prop} (cl : Closed P 0x200000000) {s : State} (h : Sat P s) (bits : List Nat) (f : State → State) (hf : ∀ t, Sat P t → Sat P (f t)) : Sat P (State.watch s bits f) := by
  unfold State.watch
  extract_lets +onlyGivenNames v_t v_rises
  try (have h_t : Sat P v_t := by repeat' first | with_reducible assumption | exact Closed.mono cl (by decide) | (with_reducible intro _) | with_reducible apply onlyIte | with_reducible refine onlyFoldl ?_ ?_ | with_reducible apply hf | with_reducible apply State.setReg_only | dsimp only | split)
  repeat' first | with_reducible assumption | exact Closed.mono cl (by decide) | (with_reducible intro _) | with_reducible apply onlyIte | with_reducible refine onlyFoldl ?_ ?_ | with_reducible apply hf | with_reducible apply State.setReg_only | dsimp only | split

theorem State.traceOffer_only {P : State → Prop} (cl : Closed P 0x200001000) {s : State} (h : Sat P s) (r : TraceRec) : Sat P (State.traceOffer s r) := by
  unfold State.traceOffer
  repeat' first | with_reducible assumption | exact Closed.mono cl (by decide) | (with_reducible intro _) | with_reducible apply onlyIte | with_reducible apply State.count_only | with_reducible apply State.watch_only | with_reducible apply State.fset_only | (fail_if_no_progress with_reducible apply upd_trace (Closed.mono cl (by decide))) | dsimp only | split

theorem State.probeCount_only {P : State → Prop} (cl : Closed P 0x200000000) {s : State} (h : Sat P s) (n bytes : Nat) : Sat P (State.probeCount s n bytes) := by
  unfold State.probeCount
  repeat' first | with_reducible assumption | exact Closed.mono cl (by decide) | (with_reducible intro _) | with_reducible apply onlyIte | with_reducible apply State.wset_only | dsimp only | split

theorem State.probeHit_only {P : State → Prop} (cl : Closed P 0x200001000) {s : State} (h : Sat P s) (n bytes : Nat) (r : TraceRec) : Sat P (State.probeHit s n bytes r) := by
  unfold State.probeHit
  extract_lets +onlyGivenNames v_m v_s1
  try (have h_s1 : Sat P v_s1 := by repeat' first | with_reducible assumption | exact Closed.mono cl (by decide) | (with_reducible intro _) | with_reducible apply onlyIte | with_reducible apply State.probeCount_only | with_reducible apply State.traceOffer_only | dsimp only | split)
  repeat' first | with_reducible assumption | exact Closed.mono cl (by decide) | (with_reducible intro _) | with_reducible apply onlyIte | with_reducible apply State.probeCount_only | with_reducible apply State.traceOffer_only | dsimp only | split

theorem State.probeBight_only {P : State → Prop} (cl : Closed P 0x200001040) {s : State} (h : Sat P s) (stn side pos step : Nat) (val spec : Bool) : Sat P (State.probeBight s stn side pos step val spec) := by
  unfold State.probeBight
  repeat' first | with_reducible assumption | exact Closed.mono cl (by decide) | (with_reducible intro _) | with_reducible apply onlyIte | with_reducible refine onlyEach ?_ ?_ | with_reducible apply State.probeHit_only | (fail_if_no_progress with_reducible apply upd_ring (Closed.mono cl (by decide))) | dsimp only | split

theorem State.probePacket_only {P : State → Prop} (cl : Closed P 0x200001000) {s : State} (h : Sat P s) (stn side op : Nat) (p : Packet) : Sat P (State.probePacket s stn side op p) := by
  unfold State.probePacket
  repeat' first | with_reducible assumption | exact Closed.mono cl (by decide) | (with_reducible intro _) | with_reducible apply onlyIte | with_reducible refine onlyEach ?_ ?_ | with_reducible apply State.probeHit_only | dsimp only | split

theorem State.cancelProbes_only {P : State → Prop} (cl : Closed P 0x200001040) {s : State} (h : Sat P s)  : Sat P (State.cancelProbes s) := by
  unfold State.cancelProbes
  extract_lets +onlyGivenNames v_s1
  try (have h_s1 : Sat P v_s1 := by repeat' first | with_reducible assumption | exact Closed.mono cl (by decide) | (with_reducible intro _) | with_reducible apply onlyIte | with_reducible refine onlyEach ?_ ?_ | with_reducible apply State.traceOffer_only | (fail_if_no_progress with_reducible apply upd_ring (Closed.mono cl (by decide))) | dsimp only | split)
  repeat' first | with_reducible assumption | exact Closed.mono cl (by decide) | (with_reducible intro _) | with_reducible apply onlyIte | with_reducible refine onlyEach ?_ ?_ | with_reducible apply State.traceOffer_only | (fail_if_no_progress with_reducible apply upd_ring (Closed.mono cl (by decide))) | dsimp only | split

theorem State.launch_only {P : State → Prop} (cl : Closed P 0x200001040) {s : State} (h : Sat P s) (stn dir pos step : Nat) (val spec : Bool) : Sat P (State.launch s stn dir pos step val spec) := by
  unfold State.launch
  repeat' first | with_reducible assumption | exact Closed.mono cl (by decide) | (with_reducible intro _) | with_reducible apply onlyIte | with_reducible apply State.probeBight_only | (fail_if_no_progress with_reducible apply upd_ring (Closed.mono cl (by decide))) | dsimp only | split

theorem State.inject_only {P : State → Prop} (cl : Closed P 0x200001040) {s : State} (h : Sat P s) (stn dir pos step : Nat) (val spec : Bool) : Sat P (State.inject s stn dir pos step val spec) := by
  unfold State.inject
  repeat' first | with_reducible assumption | exact Closed.mono cl (by decide) | (with_reducible intro _) | with_reducible apply onlyIte | with_reducible apply State.launch_only | with_reducible apply State.probeBight_only | dsimp only | split

theorem State.clearBights_only {P : State → Prop} (cl : Closed P 0x200000040) {s : State} (h : Sat P s) (p : Bight → Bool) : Sat P (State.clearBights s p) := by
  unfold State.clearBights
  extract_lets +onlyGivenNames v_s1
  try (have h_s1 : Sat P v_s1 := by repeat' first | with_reducible assumption | exact Closed.mono cl (by decide) | (with_reducible intro _) | with_reducible apply onlyIte | with_reducible refine onlyEach ?_ ?_ | with_reducible apply State.count_only | (fail_if_no_progress with_reducible apply upd_ring (Closed.mono cl (by decide))) | dsimp only | split)
  repeat' first | with_reducible assumption | exact Closed.mono cl (by decide) | (with_reducible intro _) | with_reducible apply onlyIte | with_reducible refine onlyEach ?_ ?_ | with_reducible apply State.count_only | (fail_if_no_progress with_reducible apply upd_ring (Closed.mono cl (by decide))) | dsimp only | split

theorem State.setStrand_only {P : State → Prop} (cl : Closed P 0x8) {s : State} (h : Sat P s) (g : Nat) (x : Strand) : Sat P (State.setStrand s g x) := by
  unfold State.setStrand
  repeat' first | with_reducible assumption | exact Closed.mono cl (by decide) | (with_reducible intro _) | with_reducible apply onlyIte | (fail_if_no_progress with_reducible apply upd_strands (Closed.mono cl (by decide))) | dsimp only | split

theorem State.setPort_only {P : State → Prop} (cl : Closed P 0x20) {s : State} (h : Sat P s) (k : Nat) (x : Port) : Sat P (State.setPort s k x) := by
  unfold State.setPort
  repeat' first | with_reducible assumption | exact Closed.mono cl (by decide) | (with_reducible intro _) | with_reducible apply onlyIte | (fail_if_no_progress with_reducible apply upd_ports (Closed.mono cl (by decide))) | dsimp only | split

theorem State.portFault_only {P : State → Prop} (cl : Closed P 0x200000800) {s : State} (h : Sat P s) (c code strand step time addr : Nat) (write : Bool) : Sat P (State.portFault s c code strand step time addr write) := by
  unfold State.portFault
  repeat' first | with_reducible assumption | exact Closed.mono cl (by decide) | (with_reducible intro _) | with_reducible apply onlyIte | with_reducible apply State.raise_only | dsimp only | split

theorem State.startOp_only {P : State → Prop} (cl : Closed P 0x200001820) {s : State} (h : Sat P s) (k step strand : Nat) : Sat P (State.startOp s k step strand) := by
  unfold State.startOp
  extract_lets +onlyGivenNames v_c v_q v_p v_mode v_addr v_write v_be v_s0
  try (have h_s0 : Sat P v_s0 := by repeat' first | with_reducible assumption | exact Closed.mono cl (by decide) | (with_reducible intro _) | with_reducible apply onlyIte | with_reducible apply State.setPort_only | with_reducible apply State.portFault_only | with_reducible apply State.fset_only | with_reducible apply State.traceOffer_only | dsimp only | split)
  repeat' first | with_reducible assumption | exact Closed.mono cl (by decide) | (with_reducible intro _) | with_reducible apply onlyIte | with_reducible apply State.setPort_only | with_reducible apply State.portFault_only | with_reducible apply State.fset_only | with_reducible apply State.traceOffer_only | dsimp only | split

theorem State.startFires_only {P : State → Prop} (cl : Closed P 0x200001820) {s : State} (h : Sat P s)  : Sat P (State.startFires s) := by
  unfold State.startFires
  repeat' first | with_reducible assumption | exact Closed.mono cl (by decide) | (with_reducible intro _) | with_reducible apply onlyIte | with_reducible refine onlyEach ?_ ?_ | with_reducible apply State.startOp_only | dsimp only | split

theorem State.injectEntry_only {P : State → Prop} (cl : Closed P 0x200001040) {s : State} (h : Sat P s) (stn dir pos step : Nat) (val spec : Bool) : Sat P (State.injectEntry s stn dir pos step val spec) := by
  unfold State.injectEntry
  extract_lets +onlyGivenNames v_k v_r v_r_
  repeat' first | with_reducible assumption | exact Closed.mono cl (by decide) | (with_reducible intro _) | with_reducible apply onlyIte | with_reducible apply State.inject_only | (fail_if_no_progress with_reducible apply upd_ring (Closed.mono cl (by decide))) | dsimp only | split

theorem State.injectIsolated_only {P : State → Prop} (cl : Closed P 0x200001040) {s : State} (h : Sat P s) (t : Nat) : Sat P (State.injectIsolated s t) := by
  unfold State.injectIsolated
  repeat' first | with_reducible assumption | exact Closed.mono cl (by decide) | (with_reducible intro _) | with_reducible apply onlyIte | with_reducible refine onlyEach ?_ ?_ | with_reducible apply State.inject_only | dsimp only | split

theorem State.enterStep_only {P : State → Prop} (cl : Closed P 0x200001864) {s : State} (h : Sat P s) (t : Nat) : Sat P (State.enterStep s t) := by
  unfold State.enterStep
  repeat' first | with_reducible assumption | exact Closed.mono cl (by decide) | (with_reducible intro _) | with_reducible apply onlyIte | with_reducible apply State.startFires_only | with_reducible apply State.injectIsolated_only | (fail_if_no_progress with_reducible apply upd_core (Closed.mono cl (by decide))) | dsimp only | split

theorem State.stepFault_only {P : State → Prop} (cl : Closed P 0x200000800) {s : State} (h : Sat P s) (g t ord : Nat) (f : Nat × Nat × Nat) : Sat P (State.stepFault s g t ord f) := by
  unfold State.stepFault
  repeat' first | with_reducible assumption | exact Closed.mono cl (by decide) | (with_reducible intro _) | with_reducible apply onlyIte | with_reducible apply State.raise_only | dsimp only | split

theorem State.countCe_only {P : State → Prop} (cl : Closed P 0x200000000) {s : State} (h : Sat P s) (g t : Nat) (syn : Byte) : Sat P (State.countCe s g t syn) := by
  unfold State.countCe
  repeat' first | with_reducible assumption | exact Closed.mono cl (by decide) | (with_reducible intro _) | with_reducible apply onlyIte | with_reducible apply State.count_only | with_reducible apply State.setReg_only | dsimp only | split

theorem State.countUe_only {P : State → Prop} (cl : Closed P 0x200000000) {s : State} (h : Sat P s) (g t : Nat) (syn : Byte) (src : Nat) : Sat P (State.countUe s g t syn src) := by
  unfold State.countUe
  extract_lets +onlyGivenNames v_s1
  try (have h_s1 : Sat P v_s1 := by repeat' first | with_reducible assumption | exact Closed.mono cl (by decide) | (with_reducible intro _) | with_reducible apply onlyIte | with_reducible apply State.count_only | with_reducible apply State.setReg_only | dsimp only | split)
  repeat' first | with_reducible assumption | exact Closed.mono cl (by decide) | (with_reducible intro _) | with_reducible apply onlyIte | with_reducible apply State.count_only | with_reducible apply State.setReg_only | dsimp only | split

theorem State.enterResult_only {P : State → Prop} (cl : Closed P 0x8) {s : State} (h : Sat P s) (g : Nat) (r : Bool) : Sat P (State.enterResult s g r) := by
  unfold State.enterResult
  repeat' first | with_reducible assumption | exact Closed.mono cl (by decide) | (with_reducible intro _) | with_reducible apply onlyIte | with_reducible apply State.setStrand_only | dsimp only | split

theorem State.slotOwner_only {P : State → Prop} (cl : Closed P 0x200000800) {s : State} (h : Sat P s) (g t pos dir tag : Nat) : Sat P (State.slotOwner s g t pos dir tag) := by
  unfold State.slotOwner
  repeat' first | with_reducible assumption | exact Closed.mono cl (by decide) | (with_reducible intro _) | with_reducible apply onlyIte | with_reducible apply State.stepFault_only | dsimp only | split

theorem State.matchEntries_only {P : State → Prop} (cl : Closed P 0x200001840) {s : State} (h : Sat P s) (g t : Nat) (quiet : Bool) (send : Option (Nat × Bool)) : Sat P (State.matchEntries s g t quiet send) := by
  unfold State.matchEntries
  extract_lets +onlyGivenNames v_c v_mine v_inPrefix v_s1
  try (have h_s1 : Sat P v_s1 := by repeat' first | with_reducible assumption | exact Closed.mono cl (by decide) | (with_reducible intro _) | with_reducible apply onlyIte | with_reducible refine onlyEach ?_ ?_ | with_reducible apply State.injectEntry_only | with_reducible apply State.slotOwner_only | dsimp only | split)
  repeat' first | with_reducible assumption | exact Closed.mono cl (by decide) | (with_reducible intro _) | with_reducible apply onlyIte | with_reducible refine onlyEach ?_ ?_ | with_reducible apply State.injectEntry_only | with_reducible apply State.slotOwner_only | dsimp only | split

theorem State.stageState_only {P : State → Prop} (cl : Closed P 0x200000808) {s : State} (h : Sat P s) (g t a : Nat) (r : Bool) : Sat P (State.stageState s g t a r) := by
  unfold State.stageState
  extract_lets +onlyGivenNames v_x v_s1
  try (have h_s1 : Sat P v_s1 := by repeat' first | with_reducible assumption | exact Closed.mono cl (by decide) | (with_reducible intro _) | with_reducible apply onlyIte | with_reducible apply State.setStrand_only | with_reducible apply State.stepFault_only | dsimp only | split)
  repeat' first | with_reducible assumption | exact Closed.mono cl (by decide) | (with_reducible intro _) | with_reducible apply onlyIte | with_reducible apply State.setStrand_only | with_reducible apply State.stepFault_only | dsimp only | split

theorem State.stagePort_only {P : State → Prop} (cl : Closed P 0x20) {s : State} (h : Sat P s) (g t bit : Nat) (fire r : Bool) : Sat P (State.stagePort s g t bit fire r) := by
  unfold State.stagePort
  extract_lets +onlyGivenNames v_k v_p v_n v_abs v_ws v_wins v_b v_stage v_fires
  repeat' first | with_reducible assumption | exact Closed.mono cl (by decide) | (with_reducible intro _) | with_reducible apply onlyIte | with_reducible apply State.setPort_only | dsimp only | split

theorem State.markEvent_only {P : State → Prop} (cl : Closed P 0x4) {s : State} (h : Sat P s) (g t e : Nat) : Sat P (State.markEvent s g t e) := by
  unfold State.markEvent
  extract_lets +onlyGivenNames v_keep
  repeat' first | with_reducible assumption | exact Closed.mono cl (by decide) | (with_reducible intro _) | with_reducible apply onlyIte | (fail_if_no_progress with_reducible apply upd_core (Closed.mono cl (by decide))) | dsimp only | split

theorem State.endSchedule_only {P : State → Prop} (cl : Closed P 0x200000040) {s : State} (h : Sat P s)  : Sat P (State.endSchedule s) := by
  unfold State.endSchedule
  repeat' first | with_reducible assumption | exact Closed.mono cl (by decide) | (with_reducible intro _) | with_reducible apply onlyIte | with_reducible apply State.clearBights_only | dsimp only | split

theorem State.fetchOperands_only {P : State → Prop} (cl : Closed P 0x200000800) {s : State} (h : Sat P s) (g t : Nat) (inPrefix : Bool) (w : W64) : Sat P (State.fetchOperands s g t inPrefix w).1 := by
  unfold State.fetchOperands
  extract_lets +onlyGivenNames v_vs
  repeat' first | with_reducible assumption | exact Closed.mono cl (by decide) | (with_reducible intro _) | with_reducible apply onlyIte | with_reducible apply onlyIteFst | with_reducible refine onlyEach ?_ ?_ | with_reducible apply State.stepFault_only | dsimp only | split

theorem State.runWord_only {P : State → Prop} (cl : Closed P 0x20000186C) {s : State} (h : Sat P s) (g t : Nat) (w : W64) : Sat P (State.runWord s g t w) := by
  unfold State.runWord
  extract_lets +onlyGivenNames v_op v_inPrefix v_aux
  repeat' first | with_reducible assumption | exact Closed.mono cl (by decide) | (with_reducible intro _) | with_reducible apply onlyIte | with_reducible apply State.fetchOperands_only | with_reducible apply State.enterResult_only | with_reducible apply State.stageState_only | with_reducible apply State.matchEntries_only | with_reducible apply State.stagePort_only | with_reducible apply State.markEvent_only | with_reducible apply State.endSchedule_only | dsimp only | split

theorem State.strandStep_only {P : State → Prop} (cl : Closed P 0x20000186C) {s : State} (h : Sat P s) (cls g : Nat) : Sat P (State.strandStep s cls g) := by
  unfold State.strandStep
  extract_lets +onlyGivenNames v_t v_w v_syn v_d v_v
  try (have h_t : Sat P v_t := by repeat' first | with_reducible assumption | exact Closed.mono cl (by decide) | (with_reducible intro _) | with_reducible apply onlyIte | with_reducible apply State.enterStep_only | with_reducible apply State.countUe_only | with_reducible apply State.stepFault_only | with_reducible apply State.enterResult_only | with_reducible apply State.matchEntries_only | with_reducible apply State.countCe_only | with_reducible apply State.runWord_only | with_reducible apply State.endSchedule_only | dsimp only | split)
  clear_value v_v
  repeat' first | with_reducible assumption | exact Closed.mono cl (by decide) | (with_reducible intro _) | with_reducible apply onlyIte | with_reducible apply State.enterStep_only | with_reducible apply State.countUe_only | with_reducible apply State.stepFault_only | with_reducible apply State.enterResult_only | with_reducible apply State.matchEntries_only | with_reducible apply State.countCe_only | with_reducible apply State.runWord_only | with_reducible apply State.endSchedule_only | dsimp only | split

theorem execNop_only {P : State → Prop} (cl : Closed P 0x20000186C) {s : State} (h : Sat P s) (g : StrandId) : OnlyO P (execNop g s) := by
  unfold execNop
  repeat' first | with_reducible assumption | exact Closed.mono cl (by decide) | (with_reducible intro _) | with_reducible apply onlyIte | with_reducible apply onlyIteO | with_reducible apply onlyNext | with_reducible apply State.strandStep_only | dsimp only | split

theorem execEval_only {P : State → Prop} (cl : Closed P 0x20000186C) {s : State} (h : Sat P s) (g : StrandId) : OnlyO P (execEval g s) := by
  unfold execEval
  repeat' first | with_reducible assumption | exact Closed.mono cl (by decide) | (with_reducible intro _) | with_reducible apply onlyIte | with_reducible apply onlyIteO | with_reducible apply onlyNext | with_reducible apply State.strandStep_only | dsimp only | split

theorem execEvalLatch_only {P : State → Prop} (cl : Closed P 0x20000186C) {s : State} (h : Sat P s) (g : StrandId) : OnlyO P (execEvalLatch g s) := by
  unfold execEvalLatch
  repeat' first | with_reducible assumption | exact Closed.mono cl (by decide) | (with_reducible intro _) | with_reducible apply onlyIte | with_reducible apply onlyIteO | with_reducible apply onlyNext | with_reducible apply State.strandStep_only | dsimp only | split

theorem execStateRead_only {P : State → Prop} (cl : Closed P 0x20000186C) {s : State} (h : Sat P s) (g : StrandId) : OnlyO P (execStateRead g s) := by
  unfold execStateRead
  repeat' first | with_reducible assumption | exact Closed.mono cl (by decide) | (with_reducible intro _) | with_reducible apply onlyIte | with_reducible apply onlyIteO | with_reducible apply onlyNext | with_reducible apply State.strandStep_only | dsimp only | split

theorem execEvalSend_only {P : State → Prop} (cl : Closed P 0x20000186C) {s : State} (h : Sat P s) (g : StrandId) : OnlyO P (execEvalSend g s) := by
  unfold execEvalSend
  repeat' first | with_reducible assumption | exact Closed.mono cl (by decide) | (with_reducible intro _) | with_reducible apply onlyIte | with_reducible apply onlyIteO | with_reducible apply onlyNext | with_reducible apply State.strandStep_only | dsimp only | split

theorem execEvalPort_only {P : State → Prop} (cl : Closed P 0x20000186C) {s : State} (h : Sat P s) (g : StrandId) : OnlyO P (execEvalPort g s) := by
  unfold execEvalPort
  repeat' first | with_reducible assumption | exact Closed.mono cl (by decide) | (with_reducible intro _) | with_reducible apply onlyIte | with_reducible apply onlyIteO | with_reducible apply onlyNext | with_reducible apply State.strandStep_only | dsimp only | split

theorem execEvalCheck_only {P : State → Prop} (cl : Closed P 0x20000186C) {s : State} (h : Sat P s) (g : StrandId) : OnlyO P (execEvalCheck g s) := by
  unfold execEvalCheck
  repeat' first | with_reducible assumption | exact Closed.mono cl (by decide) | (with_reducible intro _) | with_reducible apply onlyIte | with_reducible apply onlyIteO | with_reducible apply onlyNext | with_reducible apply State.strandStep_only | dsimp only | split

theorem execTurnEnd_only {P : State → Prop} (cl : Closed P 0x20000186C) {s : State} (h : Sat P s) (g : StrandId) : OnlyO P (execTurnEnd g s) := by
  unfold execTurnEnd
  repeat' first | with_reducible assumption | exact Closed.mono cl (by decide) | (with_reducible intro _) | with_reducible apply onlyIte | with_reducible apply onlyIteO | with_reducible apply onlyNext | with_reducible apply State.strandStep_only | dsimp only | split

theorem State.nonOwnerAt_only {P : State → Prop} (cl : Closed P 0x200000800) {s : State} (h : Sat P s) (master addr acc strand step turn time : Nat) : Sat P (State.nonOwnerAt s master addr acc strand step turn time) := by
  unfold State.nonOwnerAt
  extract_lets +onlyGivenNames v_b v_s1
  try (have h_s1 : Sat P v_s1 := by repeat' first | with_reducible assumption | exact Closed.mono cl (by decide) | (with_reducible intro _) | with_reducible apply onlyIte | with_reducible apply State.count_only | with_reducible apply State.raise_only | dsimp only | split)
  repeat' first | with_reducible assumption | exact Closed.mono cl (by decide) | (with_reducible intro _) | with_reducible apply onlyIte | with_reducible apply State.count_only | with_reducible apply State.raise_only | dsimp only | split

theorem State.nonOwner_only {P : State → Prop} (cl : Closed P 0x200000800) {s : State} (h : Sat P s) (master addr acc : Nat) : Sat P (State.nonOwner s master addr acc) := by
  unfold State.nonOwner
  repeat' first | with_reducible assumption | exact Closed.mono cl (by decide) | (with_reducible intro _) | with_reducible apply onlyIte | with_reducible apply State.nonOwnerAt_only | dsimp only | split

theorem State.regionDenied_only {P : State → Prop} (cl : Closed P 0x200000800) {s : State} (h : Sat P s) (master addr acc : Nat) : Sat P (State.regionDenied s master addr acc) := by
  unfold State.regionDenied
  extract_lets +onlyGivenNames v_s1
  try (have h_s1 : Sat P v_s1 := by repeat' first | with_reducible assumption | exact Closed.mono cl (by decide) | (with_reducible intro _) | with_reducible apply onlyIte | with_reducible apply State.count_only | with_reducible apply State.raiseAt_only | dsimp only | split)
  repeat' first | with_reducible assumption | exact Closed.mono cl (by decide) | (with_reducible intro _) | with_reducible apply onlyIte | with_reducible apply State.count_only | with_reducible apply State.raiseAt_only | dsimp only | split

theorem State.travel_only {P : State → Prop} (cl : Closed P 0x200001000) {s : State} (h : Sat P s) (src op : Nat) (p : Packet) : Sat P (State.travel s src op p) := by
  unfold State.travel
  extract_lets +onlyGivenNames v_dst
  repeat' first | with_reducible assumption | exact Closed.mono cl (by decide) | (with_reducible intro _) | with_reducible apply onlyIte | with_reducible refine onlyEach ?_ ?_ | with_reducible apply State.probePacket_only | dsimp only | split

theorem State.monitor_only {P : State → Prop} (cl : Closed P 0x200000040) {s : State} (h : Sat P s) (master bytes : Nat) (edges : Option Nat) : Sat P (State.monitor s master bytes edges) := by
  unfold State.monitor
  repeat' first | with_reducible assumption | exact Closed.mono cl (by decide) | (with_reducible intro _) | with_reducible apply onlyIte | with_reducible refine onlyEach ?_ ?_ | with_reducible apply State.fset_only | (fail_if_no_progress with_reducible apply upd_ring (Closed.mono cl (by decide))) | dsimp only | split

theorem State.seeRequest_only {P : State → Prop} (cl : Closed P 0x200001040) {s : State} (h : Sat P s) (op : Nat) (p : Packet) : Sat P (State.seeRequest s op p) := by
  unfold State.seeRequest
  extract_lets +onlyGivenNames v_s1
  try (have h_s1 : Sat P v_s1 := by repeat' first | with_reducible assumption | exact Closed.mono cl (by decide) | (with_reducible intro _) | with_reducible apply onlyIte | with_reducible apply State.travel_only | with_reducible apply State.traceOffer_only | with_reducible apply State.monitor_only | dsimp only | split)
  repeat' first | with_reducible assumption | exact Closed.mono cl (by decide) | (with_reducible intro _) | with_reducible apply onlyIte | with_reducible apply State.travel_only | with_reducible apply State.traceOffer_only | with_reducible apply State.monitor_only | dsimp only | split

theorem State.seeResponse_only {P : State → Prop} (cl : Closed P 0x200001040) {s : State} (h : Sat P s) (src : Nat) (data : Bool) (p : Packet) (edges : Nat) : Sat P (State.seeResponse s src data p edges) := by
  unfold State.seeResponse
  extract_lets +onlyGivenNames v_op
  repeat' first | with_reducible assumption | exact Closed.mono cl (by decide) | (with_reducible intro _) | with_reducible apply onlyIte | with_reducible apply State.travel_only | with_reducible apply State.traceOffer_only | with_reducible apply State.monitor_only | dsimp only | split

theorem State.transact_only {P : State → Prop} (cl : Closed P 0x300001040) {s : State} (h : Sat P s) (op : Nat) (p : Packet) (f : State → State) (ans : State → Nat × List W128) (hf : ∀ t, Sat P t → Sat P (f t)) : Sat P (State.transact s op p f ans) := by
  unfold State.transact
  repeat' first | with_reducible assumption | exact Closed.mono cl (by decide) | (with_reducible intro _) | with_reducible apply onlyIte | with_reducible apply hf | with_reducible apply State.drawn_only | with_reducible apply State.seeRequest_only | with_reducible apply State.seeResponse_only | dsimp only | split

theorem State.readLines_only {P : State → Prop} (cl : Closed P 0x300001040) {s : State} (h : Sat P s) (src : MasterId) (eff : State → State) (status n : Nat) (l : List (Nat × Nat)) (heff : ∀ t, Sat P t → Sat P (eff t)) : Sat P (s.readLines src eff status n l) := by
  induction n generalizing s l with
  | zero => exact h
  | succ n ih =>
    cases l with
    | nil => exact h
    | cons p l =>
      unfold State.readLines
      exact ih (State.transact_only (cl.mono rfl) (onlyIte h (State.drawn_only (cl.mono rfl) h)) _ _ _ _ heff) _

theorem State.droppedAsleep_only {P : State → Prop} (cl : Closed P 0x200000800) {s : State} (h : Sat P s) (p : Packet) : Sat P (State.droppedAsleep s p) := by
  unfold State.droppedAsleep
  repeat' first | with_reducible assumption | exact Closed.mono cl (by decide) | (with_reducible intro _) | with_reducible apply onlyIte | with_reducible apply State.count_only | with_reducible apply State.raiseAt_only | dsimp only | split

theorem State.memRefused_only {P : State → Prop} (cl : Closed P 0x200000800) {s : State} (h : Sat P s) (master addr acc : Nat) : Sat P (State.memRefused s master addr acc) := by
  unfold State.memRefused
  repeat' first | with_reducible assumption | exact Closed.mono cl (by decide) | (with_reducible intro _) | with_reducible apply onlyIte | with_reducible apply State.droppedAsleep_only | with_reducible apply State.count_only | with_reducible apply State.regionDenied_only | with_reducible apply State.nonOwner_only | dsimp only | split

theorem State.pwrExit_only {P : State → Prop} (cl : Closed P 0x202000000) {s : State} (h : Sat P s) (src : Nat) : Sat P (State.pwrExit s src) := by
  unfold State.pwrExit
  extract_lets +onlyGivenNames v_s0 v_s1
  try (have h_s0 : Sat P v_s0 := by repeat' first | with_reducible assumption | exact Closed.mono cl (by decide) | (with_reducible intro _) | with_reducible apply onlyIte | with_reducible apply State.fset_only | (fail_if_no_progress with_reducible apply upd_power (Closed.mono cl (by decide))) | dsimp only | split)
  try (have h_s1 : Sat P v_s1 := by repeat' first | with_reducible assumption | exact Closed.mono cl (by decide) | (with_reducible intro _) | with_reducible apply onlyIte | with_reducible apply State.fset_only | (fail_if_no_progress with_reducible apply upd_power (Closed.mono cl (by decide))) | dsimp only | split)
  repeat' first | with_reducible assumption | exact Closed.mono cl (by decide) | (with_reducible intro _) | with_reducible apply onlyIte | with_reducible apply State.fset_only | (fail_if_no_progress with_reducible apply upd_power (Closed.mono cl (by decide))) | dsimp only | split

theorem State.wakeAwake_only {P : State → Prop} (cl : Closed P 0x202000000) {s : State} (h : Sat P s) (src : Nat) : Sat P (State.wakeAwake s src) := by
  unfold State.wakeAwake
  extract_lets +onlyGivenNames v_st
  repeat' first | with_reducible assumption | exact Closed.mono cl (by decide) | (with_reducible intro _) | with_reducible apply onlyIte | with_reducible apply State.fset_only | with_reducible apply State.pwrExit_only | (fail_if_no_progress with_reducible apply upd_power (Closed.mono cl (by decide))) | dsimp only | split

theorem State.busError_only {P : State → Prop} (cl : Closed P 0x200000000) {s : State} (h : Sat P s) (status a : Nat) (write : Bool) : Sat P (State.busError s status a write) := by
  unfold State.busError
  extract_lets +onlyGivenNames v_s1
  try (have h_s1 : Sat P v_s1 := by repeat' first | with_reducible assumption | exact Closed.mono cl (by decide) | (with_reducible intro _) | with_reducible apply onlyIte | with_reducible apply State.fset_only | with_reducible apply State.setBit_only | with_reducible apply State.wset_only | with_reducible apply State.count_only | dsimp only | split)
  repeat' first | with_reducible assumption | exact Closed.mono cl (by decide) | (with_reducible intro _) | with_reducible apply onlyIte | with_reducible apply State.fset_only | with_reducible apply State.setBit_only | with_reducible apply State.wset_only | with_reducible apply State.count_only | dsimp only | split

theorem State.asleepAnswer_only {P : State → Prop} (cl : Closed P 0x200000000) {s : State} (h : Sat P s) (a : Nat) (write : Bool) : Sat P (State.asleepAnswer s a write) := by
  unfold State.asleepAnswer
  repeat' first | with_reducible assumption | exact Closed.mono cl (by decide) | (with_reducible intro _) | with_reducible apply onlyIte | with_reducible apply State.count_only | with_reducible apply State.busError_only | dsimp only | split

theorem State.trainLink_only {P : State → Prop} (cl : Closed P 0x200000000) {s : State} (h : Sat P s)  : Sat P (State.trainLink s) := by
  unfold State.trainLink
  repeat' first | with_reducible assumption | exact Closed.mono cl (by decide) | (with_reducible intro _) | with_reducible apply onlyIte | with_reducible apply State.setReg_only | dsimp only | split

theorem State.hostPark_only {P : State → Prop} (cl : Closed P 0x100000) {s : State} (h : Sat P s) (r : HostReq) : Sat P (State.hostPark s r) := by
  unfold State.hostPark
  repeat' first | with_reducible assumption | exact Closed.mono cl (by decide) | (with_reducible intro _) | with_reducible apply onlyIte | (fail_if_no_progress with_reducible apply upd_host (Closed.mono cl (by decide))) | dsimp only | split

theorem State.hostWrite_only {P : State → Prop} (cl : Closed P 0x300001040) {s : State} (h : Sat P s) (a : Nat) (v : W32) (f : State → State) (hf : ∀ t, Sat P t → Sat P (f t)) : Sat P (State.hostWrite s a v f) := by
  unfold State.hostWrite
  repeat' first | with_reducible assumption | exact Closed.mono cl (by decide) | (with_reducible intro _) | with_reducible apply onlyIte | with_reducible apply hf | with_reducible apply State.transact_only | with_reducible apply State.asleepAnswer_only | dsimp only | split

theorem State.hostCmd_only {P : State → Prop} (cl : Closed P 0x302101040) {s : State} (h : Sat P s) (a : Nat) (mask v : W32) (f : State → State) (hf : ∀ t, Sat P t → Sat P (f t)) : Sat P (State.hostCmd s a mask v f) := by
  unfold State.hostCmd
  repeat' first | with_reducible assumption | exact Closed.mono cl (by decide) | (with_reducible intro _) | with_reducible apply onlyIte | with_reducible apply hf | with_reducible apply State.trainLink_only | with_reducible apply State.watch_only | with_reducible apply State.count_only | with_reducible apply State.wakeAwake_only | with_reducible apply State.hostPark_only | with_reducible apply State.hostWrite_only | dsimp only | split

theorem State.hostFetch_only {P : State → Prop} (cl : Closed P 0x300101040) {s : State} (h : Sat P s) (a : Nat) (f : State → State) (hf : ∀ t, Sat P t → Sat P (f t)) : Sat P (State.hostFetch s a f) := by
  unfold State.hostFetch
  extract_lets +onlyGivenNames v_zero
  repeat' first | with_reducible assumption | exact Closed.mono cl (by decide) | (with_reducible intro _) | with_reducible apply onlyIte | with_reducible apply hf | with_reducible apply State.transact_only | with_reducible apply State.asleepAnswer_only | (fail_if_no_progress with_reducible apply upd_host (Closed.mono cl (by decide))) | dsimp only | split

theorem State.hostGet_only {P : State → Prop} (cl : Closed P 0x302101040) {s : State} (h : Sat P s) (a : Nat) (f : State → State) (hf : ∀ t, Sat P t → Sat P (f t)) : Sat P (State.hostGet s a f) := by
  unfold State.hostGet
  repeat' first | with_reducible assumption | exact Closed.mono cl (by decide) | (with_reducible intro _) | with_reducible apply onlyIte | with_reducible apply hf | with_reducible apply State.drawn_only | with_reducible apply State.trainLink_only | with_reducible apply State.watch_only | with_reducible apply State.count_only | with_reducible apply State.wakeAwake_only | with_reducible apply State.hostPark_only | with_reducible apply State.hostFetch_only | (fail_if_no_progress with_reducible apply upd_host (Closed.mono cl (by decide))) | dsimp only | split

theorem State.deliver_only {P : State → Prop} (cl : Closed P 0x200000808) {s : State} (h : Sat P s) (stn t dir pos e : Nat) (v : Bool) : Sat P (State.deliver s stn t dir pos e v) := by
  unfold State.deliver
  extract_lets +onlyGivenNames v_g v_m v_where_
  repeat' first | with_reducible assumption | exact Closed.mono cl (by decide) | (with_reducible intro _) | with_reducible apply onlyIte | with_reducible apply State.stepFault_only | with_reducible apply State.count_only | with_reducible apply State.setStrand_only | dsimp only | split

theorem State.arrive_only {P : State → Prop} (cl : Closed P 0x200001848) {s : State} (h : Sat P s) (b : Bight) : Sat P (State.arrive s b) := by
  unfold State.arrive
  extract_lets +onlyGivenNames v_t v_e v_forwards v_s1 v_s2
  try (have h_t : Sat P v_t := by repeat' first | with_reducible assumption | exact Closed.mono cl (by decide) | (with_reducible intro _) | with_reducible apply onlyIte | with_reducible refine onlyEach ?_ ?_ | with_reducible apply State.deliver_only | with_reducible apply State.probeBight_only | with_reducible apply State.launch_only | with_reducible apply State.count_only | dsimp only | split)
  try (have h_s1 : Sat P v_s1 := by repeat' first | with_reducible assumption | exact Closed.mono cl (by decide) | (with_reducible intro _) | with_reducible apply onlyIte | with_reducible refine onlyEach ?_ ?_ | with_reducible apply State.deliver_only | with_reducible apply State.probeBight_only | with_reducible apply State.launch_only | with_reducible apply State.count_only | dsimp only | split)
  try (have h_s2 : Sat P v_s2 := by repeat' first | with_reducible assumption | exact Closed.mono cl (by decide) | (with_reducible intro _) | with_reducible apply onlyIte | with_reducible refine onlyEach ?_ ?_ | with_reducible apply State.deliver_only | with_reducible apply State.probeBight_only | with_reducible apply State.launch_only | with_reducible apply State.count_only | dsimp only | split)
  repeat' first | with_reducible assumption | exact Closed.mono cl (by decide) | (with_reducible intro _) | with_reducible apply onlyIte | with_reducible refine onlyEach ?_ ?_ | with_reducible apply State.deliver_only | with_reducible apply State.probeBight_only | with_reducible apply State.launch_only | with_reducible apply State.count_only | dsimp only | split

theorem execBightDelivery_only {P : State → Prop} (cl : Closed P 0x200001848) {s : State} (h : Sat P s) (stn : StnId) (dir : BitVec 3) (pos : BitVec 6) : OnlyO P (execBightDelivery stn dir pos s) := by
  unfold execBightDelivery
  repeat' first | with_reducible assumption | exact Closed.mono cl (by decide) | (with_reducible intro _) | with_reducible apply onlyIte | with_reducible apply onlyIteO | with_reducible apply onlyNext | with_reducible apply State.arrive_only | (fail_if_no_progress with_reducible apply upd_ring (Closed.mono cl (by decide))) | dsimp only | split

theorem State.portWrite_only {P : State → Prop} (cl : Closed P 0x400000040) {s : State} (h : Sat P s) (a t : Nat) (be : Byte) (v : W128) : Sat P (State.portWrite s a t be v) := by
  unfold State.portWrite
  extract_lets +onlyGivenNames v_old v_keep v_log
  repeat' first | with_reducible assumption | exact Closed.mono cl (by decide) | (with_reducible intro _) | with_reducible apply onlyIte | with_reducible apply State.wrEnabled_only | (fail_if_no_progress with_reducible apply upd_ring (Closed.mono cl (by decide))) | dsimp only | split

theorem State.updOp_only {P : State → Prop} (cl : Closed P 0x20) {s : State} (h : Sat P s) (k : Nat) (o : PortOp) (f : PortOp → Option PortOp) : Sat P (State.updOp s k o f) := by
  unfold State.updOp
  extract_lets +onlyGivenNames v_p
  repeat' first | with_reducible assumption | exact Closed.mono cl (by decide) | (with_reducible intro _) | with_reducible apply onlyIte | with_reducible apply State.setPort_only | dsimp only | split

theorem State.accessDone_only {P : State → Prop} (cl : Closed P 0x20) {s : State} (h : Sat P s) (k : Nat) (o : PortOp) (got : W128) : Sat P (State.accessDone s k o got) := by
  unfold State.accessDone
  repeat' first | with_reducible assumption | exact Closed.mono cl (by decide) | (with_reducible intro _) | with_reducible apply onlyIte | with_reducible apply State.updOp_only | dsimp only | split

theorem State.performOp_only {P : State → Prop} (cl : Closed P 0x600000864) {s : State} (h : Sat P s) (k : Nat) (o : PortOp) : Sat P (State.performOp s k o) := by
  unfold State.performOp
  extract_lets +onlyGivenNames v_c v_q v_acc v_a
  repeat' first | with_reducible assumption | exact Closed.mono cl (by decide) | (with_reducible intro _) | with_reducible apply onlyIte | with_reducible apply State.portWrite_only | with_reducible apply State.accessDone_only | with_reducible apply State.nonOwnerAt_only | with_reducible apply State.memRefused_only | with_reducible apply State.wrEnabled_only | (fail_if_no_progress with_reducible apply upd_core (Closed.mono cl (by decide))) | dsimp only | split

theorem State.useBank_only {P : State → Prop} (cl : Closed P 0x200000040) {s : State} (h : Sat P s) (b t k : Nat) : Sat P (State.useBank s b t k) := by
  unfold State.useBank
  extract_lets +onlyGivenNames v_u v_last
  try (have h_u : Sat P v_u := by repeat' first | with_reducible assumption | exact Closed.mono cl (by decide) | (with_reducible intro _) | with_reducible apply onlyIte | with_reducible apply State.count_only | (fail_if_no_progress with_reducible apply upd_ring (Closed.mono cl (by decide))) | dsimp only | split)
  repeat' first | with_reducible assumption | exact Closed.mono cl (by decide) | (with_reducible intro _) | with_reducible apply onlyIte | with_reducible apply State.count_only | (fail_if_no_progress with_reducible apply upd_ring (Closed.mono cl (by decide))) | dsimp only | split

theorem State.scratchAccess_only {P : State → Prop} (cl : Closed P 0x600000864) {s : State} (h : Sat P s) (k : Nat) (o : PortOp) : Sat P (State.scratchAccess s k o) := by
  unfold State.scratchAccess
  extract_lets +onlyGivenNames v_b v_answer
  repeat' first | with_reducible assumption | exact Closed.mono cl (by decide) | (with_reducible intro _) | with_reducible apply onlyIte | with_reducible apply State.updOp_only | with_reducible apply State.count_only | with_reducible apply State.useBank_only | with_reducible apply State.performOp_only | (fail_if_no_progress with_reducible apply upd_ring (Closed.mono cl (by decide))) | dsimp only | split

theorem State.accessNext_only {P : State → Prop} (cl : Closed P 0x600000864) {s : State} (h : Sat P s) (k : Nat) : Sat P (State.accessNext s k) := by
  unfold State.accessNext
  repeat' first | with_reducible assumption | exact Closed.mono cl (by decide) | (with_reducible intro _) | with_reducible apply onlyIte | with_reducible apply State.performOp_only | with_reducible apply State.scratchAccess_only | dsimp only | split

theorem execPortAccess_only {P : State → Prop} (cl : Closed P 0x600000864) {s : State} (h : Sat P s) (cord : CordId) (q : BitVec 2) : OnlyO P (execPortAccess cord q s) := by
  unfold execPortAccess
  repeat' first | with_reducible assumption | exact Closed.mono cl (by decide) | (with_reducible intro _) | with_reducible apply onlyIte | with_reducible apply onlyIteO | with_reducible apply onlyNext | with_reducible apply State.accessNext_only | dsimp only | split

theorem State.delayedAccess_only {P : State → Prop} (cl : Closed P 0x600000864) {s : State} (h : Sat P s) (k : Nat) : Sat P (State.delayedAccess s k) := by
  unfold State.delayedAccess
  repeat' first | with_reducible assumption | exact Closed.mono cl (by decide) | (with_reducible intro _) | with_reducible apply onlyIte | with_reducible apply State.scratchAccess_only | dsimp only | split

theorem execBankDelayedAccess_only {P : State → Prop} (cl : Closed P 0x600000864) {s : State} (h : Sat P s) (cord : CordId) (q : BitVec 2) : OnlyO P (execBankDelayedAccess cord q s) := by
  unfold execBankDelayedAccess
  repeat' first | with_reducible assumption | exact Closed.mono cl (by decide) | (with_reducible intro _) | with_reducible apply onlyIte | with_reducible apply onlyIteO | with_reducible apply onlyNext | with_reducible apply State.delayedAccess_only | dsimp only | split

theorem State.serveOp_only {P : State → Prop} (cl : Closed P 0x600000864) {s : State} (h : Sat P s) (k : Nat) (o : PortOp) : Sat P (State.serveOp s k o) := by
  unfold State.serveOp
  extract_lets +onlyGivenNames v_o'
  repeat' first | with_reducible assumption | exact Closed.mono cl (by decide) | (with_reducible intro _) | with_reducible apply onlyIte | with_reducible apply State.updOp_only | with_reducible apply State.performOp_only | dsimp only | split

theorem State.returnNext_only {P : State → Prop} (cl : Closed P 0x200000020) {s : State} (h : Sat P s) (k : Nat) : Sat P (State.returnNext s k) := by
  unfold State.returnNext
  repeat' first | with_reducible assumption | exact Closed.mono cl (by decide) | (with_reducible intro _) | with_reducible apply onlyIte | with_reducible apply State.updOp_only | with_reducible apply State.setPort_only | with_reducible apply State.fset_only | dsimp only | split

theorem execPortReturn_only {P : State → Prop} (cl : Closed P 0x200000020) {s : State} (h : Sat P s) (cord : CordId) (q : BitVec 2) : OnlyO P (execPortReturn cord q s) := by
  unfold execPortReturn
  repeat' first | with_reducible assumption | exact Closed.mono cl (by decide) | (with_reducible intro _) | with_reducible apply onlyIte | with_reducible apply onlyIteO | with_reducible apply onlyNext | with_reducible apply State.returnNext_only | dsimp only | split

theorem execDeferredDataArrival_only {P : State → Prop} (cl : Closed P 0x200000020) {s : State} (h : Sat P s) (cord : CordId) (q : BitVec 2) : OnlyO P (execDeferredDataArrival cord q s) := by
  unfold execDeferredDataArrival
  extract_lets +onlyGivenNames v_k
  repeat' first | with_reducible assumption | exact Closed.mono cl (by decide) | (with_reducible intro _) | with_reducible apply onlyIte | with_reducible apply onlyIteO | with_reducible apply onlyNext | with_reducible apply State.updOp_only | with_reducible apply State.count_only | dsimp only | split

theorem State.deferredDue_only {P : State → Prop} (cl : Closed P 0x200000020) {s : State} (h : Sat P s)  : Sat P (State.deferredDue s) := by
  unfold State.deferredDue
  repeat' first | with_reducible assumption | exact Closed.mono cl (by decide) | (with_reducible intro _) | with_reducible apply onlyIte | with_reducible refine onlyEach ?_ ?_ | with_reducible apply State.setPort_only | with_reducible apply State.fset_only | with_reducible apply State.updOp_only | dsimp only | split

theorem State.dropPorts_only {P : State → Prop} (cl : Closed P 0x200000060) {s : State} (h : Sat P s) (gone : Nat → Bool) : Sat P (State.dropPorts s gone) := by
  unfold State.dropPorts
  extract_lets +onlyGivenNames v_op v_s1
  try (have h_s1 : Sat P v_s1 := by repeat' first | with_reducible assumption | exact Closed.mono cl (by decide) | (with_reducible intro _) | with_reducible apply onlyIte | with_reducible refine onlyEach ?_ ?_ | with_reducible apply State.fset_only | (fail_if_no_progress with_reducible apply upd_ports_ring (Closed.mono cl (by decide))) | dsimp only | split)
  repeat' first | with_reducible assumption | exact Closed.mono cl (by decide) | (with_reducible intro _) | with_reducible apply onlyIte | with_reducible refine onlyEach ?_ ?_ | with_reducible apply State.fset_only | (fail_if_no_progress with_reducible apply upd_ports_ring (Closed.mono cl (by decide))) | dsimp only | split

theorem State.requestBank_only {P : State → Prop} (cl : Closed P 0x200000040) {s : State} (h : Sat P s) (b : Nat) (master : MasterId) (owner : MasterId) (cords : Bool) : Sat P (State.requestBank s b master owner cords) := by
  unfold State.requestBank
  extract_lets +onlyGivenNames v_allowed
  repeat' first | with_reducible assumption | exact Closed.mono cl (by decide) | (with_reducible intro _) | with_reducible apply onlyIte | with_reducible apply State.fset_only | (fail_if_no_progress with_reducible apply upd_ring (Closed.mono cl (by decide))) | dsimp only | split

theorem execBnkOwnWrite_only {P : State → Prop} (cl : Closed P 0x302101040) {s : State} (h : Sat P s) (bank : BitVec 6) (master : MasterId) (value : W32) : OnlyO P (execBnkOwnWrite bank master value s) := by
  unfold execBnkOwnWrite
  extract_lets +onlyGivenNames v_f
  repeat' first | with_reducible assumption | exact Closed.mono cl (by decide) | (with_reducible intro _) | with_reducible apply onlyIte | with_reducible apply onlyIteO | with_reducible apply onlyNext | with_reducible apply State.requestBank_only | with_reducible apply State.hostCmd_only | with_reducible apply State.transact_only | dsimp only | split

theorem State.takeBank_only {P : State → Prop} (cl : Closed P 0x200000040) {s : State} (h : Sat P s) (b : Nat) : Sat P (State.takeBank s b) := by
  unfold State.takeBank
  repeat' first | with_reducible assumption | exact Closed.mono cl (by decide) | (with_reducible intro _) | with_reducible apply onlyIte | with_reducible apply State.fset_only | with_reducible apply State.setBit_only | (fail_if_no_progress with_reducible apply upd_ring (Closed.mono cl (by decide))) | dsimp only | split

theorem State.pulse_only {P : State → Prop} (cl : Closed P 0x4000) {s : State} (h : Sat P s) (i : Nat) : Sat P (State.pulse s i) := by
  unfold State.pulse
  repeat' first | with_reducible assumption | exact Closed.mono cl (by decide) | (with_reducible intro _) | with_reducible apply onlyIte | (fail_if_no_progress with_reducible apply upd_trig (Closed.mono cl (by decide))) | dsimp only | split

theorem State.meet_only {P : State → Prop} (cl : Closed P 0x4000) {s : State} (h : Sat P s) (m : Meeting) : Sat P (State.meet s m) := by
  unfold State.meet
  repeat' first | with_reducible assumption | exact Closed.mono cl (by decide) | (with_reducible intro _) | with_reducible apply onlyIte | (fail_if_no_progress with_reducible apply upd_trig (Closed.mono cl (by decide))) | dsimp only | split

theorem State.level_only {P : State → Prop} (cl : Closed P 0x4000) {s : State} (h : Sat P s) (i : Nat) (v : Bool) : Sat P (State.level s i v) := by
  unfold State.level
  extract_lets +onlyGivenNames v_b
  repeat' first | with_reducible assumption | exact Closed.mono cl (by decide) | (with_reducible intro _) | with_reducible apply onlyIte | (fail_if_no_progress with_reducible apply upd_trig (Closed.mono cl (by decide))) | dsimp only | split

theorem State.mirror_only {P : State → Prop} (cl : Closed P 0x20000) {s : State} (h : Sat P s) (i : MirrorItem) : Sat P (State.mirror s i) := by
  unfold State.mirror
  repeat' first | with_reducible assumption | exact Closed.mono cl (by decide) | (with_reducible intro _) | with_reducible apply onlyIte | (fail_if_no_progress with_reducible apply upd_splice (Closed.mono cl (by decide))) | dsimp only | split

theorem State.setTout_only {P : State → Prop} (cl : Closed P 0x2000) {s : State} (h : Sat P s) (n : Nat) (x : TimeOut) : Sat P (State.setTout s n x) := by
  unfold State.setTout
  repeat' first | with_reducible assumption | exact Closed.mono cl (by decide) | (with_reducible intro _) | with_reducible apply onlyIte | (fail_if_no_progress with_reducible apply upd_time (Closed.mono cl (by decide))) | dsimp only | split

theorem State.toutStep_only {P : State → Prop} (cl : Closed P 0x200002000) {s : State} (h : Sat P s) (n old new : Nat) : Sat P (State.toutStep s n old new) := by
  unfold State.toutStep
  extract_lets +onlyGivenNames v_x v_jumped v_s1
  try (have h_s1 : Sat P v_s1 := by repeat' first | with_reducible assumption | exact Closed.mono cl (by decide) | (with_reducible intro _) | with_reducible apply onlyIte | with_reducible apply State.setTout_only | with_reducible apply State.fset_only | dsimp only | split)
  repeat' first | with_reducible assumption | exact Closed.mono cl (by decide) | (with_reducible intro _) | with_reducible apply onlyIte | with_reducible apply State.setTout_only | with_reducible apply State.fset_only | dsimp only | split

theorem State.stepTime_only {P : State → Prop} (cl : Closed P 0x200023004) {s : State} (h : Sat P s) (new : Nat) : Sat P (State.stepTime s new) := by
  unfold State.stepTime
  extract_lets +onlyGivenNames v_old v_s1 v_s2 v_s3
  try (have h_s1 : Sat P v_s1 := by repeat' first | with_reducible assumption | exact Closed.mono cl (by decide) | (with_reducible intro _) | with_reducible apply onlyIte | with_reducible refine onlyEach ?_ ?_ | with_reducible apply State.wset_only | with_reducible apply State.count_only | with_reducible apply State.toutStep_only | (fail_if_no_progress with_reducible apply upd_core_splice_time_trace (Closed.mono cl (by decide))) | dsimp only | split)
  try (have h_s2 : Sat P v_s2 := by repeat' first | with_reducible assumption | exact Closed.mono cl (by decide) | (with_reducible intro _) | with_reducible apply onlyIte | with_reducible refine onlyEach ?_ ?_ | with_reducible apply State.wset_only | with_reducible apply State.count_only | with_reducible apply State.toutStep_only | (fail_if_no_progress with_reducible apply upd_core_splice_time_trace (Closed.mono cl (by decide))) | dsimp only | split)
  try (have h_s3 : Sat P v_s3 := by repeat' first | with_reducible assumption | exact Closed.mono cl (by decide) | (with_reducible intro _) | with_reducible apply onlyIte | with_reducible refine onlyEach ?_ ?_ | with_reducible apply State.wset_only | with_reducible apply State.count_only | with_reducible apply State.toutStep_only | (fail_if_no_progress with_reducible apply upd_core_splice_time_trace (Closed.mono cl (by decide))) | dsimp only | split)
  repeat' first | with_reducible assumption | exact Closed.mono cl (by decide) | (with_reducible intro _) | with_reducible apply onlyIte | with_reducible refine onlyEach ?_ ?_ | with_reducible apply State.wset_only | with_reducible apply State.count_only | with_reducible apply State.toutStep_only | (fail_if_no_progress with_reducible apply upd_core_splice_time_trace (Closed.mono cl (by decide))) | dsimp only | split

theorem State.advance_only {P : State → Prop} (cl : Closed P 0x100002000) {s : State} (h : Sat P s) (x : Int) : Sat P (State.advance s x) := by
  unfold State.advance
  extract_lets +onlyGivenNames v_total v_s1
  try (have h_s1 : Sat P v_s1 := by repeat' first | with_reducible assumption | exact Closed.mono cl (by decide) | (with_reducible intro _) | with_reducible apply onlyIte | with_reducible apply State.drawn_only | (fail_if_no_progress with_reducible apply upd_time (Closed.mono cl (by decide))) | dsimp only | split)
  repeat' first | with_reducible assumption | exact Closed.mono cl (by decide) | (with_reducible intro _) | with_reducible apply onlyIte | with_reducible apply State.drawn_only | (fail_if_no_progress with_reducible apply upd_time (Closed.mono cl (by decide))) | dsimp only | split

theorem State.timeAdvance_only {P : State → Prop} (cl : Closed P 0x300002004) {s : State} (h : Sat P s)  : Sat P (State.timeAdvance s) := by
  unfold State.timeAdvance
  extract_lets +onlyGivenNames v_left v_s1 v_s2
  try (have h_s1 : Sat P v_s1 := by repeat' first | with_reducible assumption | exact Closed.mono cl (by decide) | (with_reducible intro _) | with_reducible apply onlyIte | with_reducible apply State.advance_only | with_reducible apply State.fset_only | (fail_if_no_progress with_reducible apply upd_core_time (Closed.mono cl (by decide))) | dsimp only | split)
  try (have h_s2 : Sat P v_s2 := by repeat' first | with_reducible assumption | exact Closed.mono cl (by decide) | (with_reducible intro _) | with_reducible apply onlyIte | with_reducible apply State.advance_only | with_reducible apply State.fset_only | (fail_if_no_progress with_reducible apply upd_core_time (Closed.mono cl (by decide))) | dsimp only | split)
  repeat' first | with_reducible assumption | exact Closed.mono cl (by decide) | (with_reducible intro _) | with_reducible apply onlyIte | with_reducible apply State.advance_only | with_reducible apply State.fset_only | (fail_if_no_progress with_reducible apply upd_core_time (Closed.mono cl (by decide))) | dsimp only | split

theorem State.loadTod_only {P : State → Prop} (cl : Closed P 0x200023004) {s : State} (h : Sat P s) (at_ t : Nat) : Sat P (State.loadTod s at_ t) := by
  unfold State.loadTod
  extract_lets +onlyGivenNames v_discarded v_s1 v_s2 v_s3
  try (have h_s1 : Sat P v_s1 := by repeat' first | with_reducible assumption | exact Closed.mono cl (by decide) | (with_reducible intro _) | with_reducible apply onlyIte | with_reducible apply State.stepTime_only | with_reducible apply State.mirror_only | with_reducible apply State.fset_only | (fail_if_no_progress with_reducible apply upd_time (Closed.mono cl (by decide))) | dsimp only | split)
  try (have h_s2 : Sat P v_s2 := by repeat' first | with_reducible assumption | exact Closed.mono cl (by decide) | (with_reducible intro _) | with_reducible apply onlyIte | with_reducible apply State.stepTime_only | with_reducible apply State.mirror_only | with_reducible apply State.fset_only | (fail_if_no_progress with_reducible apply upd_time (Closed.mono cl (by decide))) | dsimp only | split)
  try (have h_s3 : Sat P v_s3 := by repeat' first | with_reducible assumption | exact Closed.mono cl (by decide) | (with_reducible intro _) | with_reducible apply onlyIte | with_reducible apply State.stepTime_only | with_reducible apply State.mirror_only | with_reducible apply State.fset_only | (fail_if_no_progress with_reducible apply upd_time (Closed.mono cl (by decide))) | dsimp only | split)
  repeat' first | with_reducible assumption | exact Closed.mono cl (by decide) | (with_reducible intro _) | with_reducible apply onlyIte | with_reducible apply State.stepTime_only | with_reducible apply State.mirror_only | with_reducible apply State.fset_only | (fail_if_no_progress with_reducible apply upd_time (Closed.mono cl (by decide))) | dsimp only | split

theorem State.ppsCapture_only {P : State → Prop} (cl : Closed P 0x200023004) {s : State} (h : Sat P s) (at_ dly : Nat) : Sat P (State.ppsCapture s at_ dly) := by
  unfold State.ppsCapture
  extract_lets +onlyGivenNames v_armed v_cap v_s1 v_s2
  try (have h_s1 : Sat P v_s1 := by repeat' first | with_reducible assumption | exact Closed.mono cl (by decide) | (with_reducible intro _) | with_reducible apply onlyIte | with_reducible apply State.loadTod_only | with_reducible apply State.wset_only | with_reducible apply State.countWrap_only | (fail_if_no_progress with_reducible apply upd_time (Closed.mono cl (by decide))) | dsimp only | split)
  try (have h_s2 : Sat P v_s2 := by repeat' first | with_reducible assumption | exact Closed.mono cl (by decide) | (with_reducible intro _) | with_reducible apply onlyIte | with_reducible apply State.loadTod_only | with_reducible apply State.wset_only | with_reducible apply State.countWrap_only | (fail_if_no_progress with_reducible apply upd_time (Closed.mono cl (by decide))) | dsimp only | split)
  repeat' first | with_reducible assumption | exact Closed.mono cl (by decide) | (with_reducible intro _) | with_reducible apply onlyIte | with_reducible apply State.loadTod_only | with_reducible apply State.wset_only | with_reducible apply State.countWrap_only | (fail_if_no_progress with_reducible apply upd_time (Closed.mono cl (by decide))) | dsimp only | split

theorem State.ppsInternal_only {P : State → Prop} (cl : Closed P 0x200023004) {s : State} (h : Sat P s) (at_ : Nat) : Sat P (State.ppsInternal s at_) := by
  unfold State.ppsInternal
  extract_lets +onlyGivenNames v_s1 v_seen
  try (have h_s1 : Sat P v_s1 := by repeat' first | with_reducible assumption | exact Closed.mono cl (by decide) | (with_reducible intro _) | with_reducible apply onlyIte | with_reducible apply State.ppsCapture_only | (fail_if_no_progress with_reducible apply upd_time (Closed.mono cl (by decide))) | dsimp only | split)
  repeat' first | with_reducible assumption | exact Closed.mono cl (by decide) | (with_reducible intro _) | with_reducible apply onlyIte | with_reducible apply State.ppsCapture_only | (fail_if_no_progress with_reducible apply upd_time (Closed.mono cl (by decide))) | dsimp only | split

theorem State.crossings_only {P : State → Prop} (cl : Closed P 0x200023004) {s : State} (h : Sat P s) (old : Nat) : Sat P (State.crossings s old) := by
  unfold State.crossings
  extract_lets +onlyGivenNames v_t v_s1
  try (have h_t : Sat P v_t := by repeat' first | with_reducible assumption | exact Closed.mono cl (by decide) | (with_reducible intro _) | with_reducible apply onlyIte | with_reducible apply State.ppsInternal_only | (fail_if_no_progress with_reducible apply upd_time (Closed.mono cl (by decide))) | dsimp only | split)
  try (have h_s1 : Sat P v_s1 := by repeat' first | with_reducible assumption | exact Closed.mono cl (by decide) | (with_reducible intro _) | with_reducible apply onlyIte | with_reducible apply State.ppsInternal_only | (fail_if_no_progress with_reducible apply upd_time (Closed.mono cl (by decide))) | dsimp only | split)
  repeat' first | with_reducible assumption | exact Closed.mono cl (by decide) | (with_reducible intro _) | with_reducible apply onlyIte | with_reducible apply State.ppsInternal_only | (fail_if_no_progress with_reducible apply upd_time (Closed.mono cl (by decide))) | dsimp only | split

theorem State.applyStep_only {P : State → Prop} (cl : Closed P 0x200023004) {s : State} (h : Sat P s)  : Sat P (State.applyStep s) := by
  unfold State.applyStep
  repeat' first | with_reducible assumption | exact Closed.mono cl (by decide) | (with_reducible intro _) | with_reducible apply onlyIte | with_reducible apply State.stepTime_only | with_reducible apply State.mirror_only | with_reducible apply State.fset_only | (fail_if_no_progress with_reducible apply upd_time (Closed.mono cl (by decide))) | dsimp only | split

theorem State.todArm_only {P : State → Prop} (cl : Closed P 0x200002000) {s : State} (h : Sat P s)  : Sat P (State.todArm s) := by
  unfold State.todArm
  extract_lets +onlyGivenNames v_t
  try (have h_t : Sat P v_t := by repeat' first | with_reducible assumption | exact Closed.mono cl (by decide) | (with_reducible intro _) | with_reducible apply onlyIte | with_reducible apply State.fset_only | (fail_if_no_progress with_reducible apply upd_time (Closed.mono cl (by decide))) | dsimp only | split)
  repeat' first | with_reducible assumption | exact Closed.mono cl (by decide) | (with_reducible intro _) | with_reducible apply onlyIte | with_reducible apply State.fset_only | (fail_if_no_progress with_reducible apply upd_time (Closed.mono cl (by decide))) | dsimp only | split

theorem State.todCancel_only {P : State → Prop} (cl : Closed P 0x200000000) {s : State} (h : Sat P s)  : Sat P (State.todCancel s) := by
  unfold State.todCancel
  repeat' first | with_reducible assumption | exact Closed.mono cl (by decide) | (with_reducible intro _) | with_reducible apply onlyIte | with_reducible apply State.fset_only | dsimp only | split

theorem State.phaseGo_only {P : State → Prop} (cl : Closed P 0x200022000) {s : State} (h : Sat P s)  : Sat P (State.phaseGo s) := by
  unfold State.phaseGo
  extract_lets +onlyGivenNames v_p
  repeat' first | with_reducible assumption | exact Closed.mono cl (by decide) | (with_reducible intro _) | with_reducible apply onlyIte | with_reducible apply State.fset_only | with_reducible apply State.mirror_only | (fail_if_no_progress with_reducible apply upd_time (Closed.mono cl (by decide))) | dsimp only | split

theorem State.slewDone_only {P : State → Prop} (cl : Closed P 0x200002000) {s : State} (h : Sat P s)  : Sat P (State.slewDone s) := by
  unfold State.slewDone
  repeat' first | with_reducible assumption | exact Closed.mono cl (by decide) | (with_reducible intro _) | with_reducible apply onlyIte | with_reducible apply State.fset_only | (fail_if_no_progress with_reducible apply upd_time (Closed.mono cl (by decide))) | dsimp only | split

theorem State.setFreq_only {P : State → Prop} (cl : Closed P 0x200020000) {s : State} (h : Sat P s) (v : W32) : Sat P (State.setFreq s v) := by
  unfold State.setFreq
  repeat' first | with_reducible assumption | exact Closed.mono cl (by decide) | (with_reducible intro _) | with_reducible apply onlyIte | with_reducible apply State.setReg_only | with_reducible apply State.setBit_only | with_reducible apply State.mirror_only | dsimp only | split

theorem State.writeFreq_only {P : State → Prop} (cl : Closed P 0x200020000) {s : State} (h : Sat P s) (v : W32) : Sat P (State.writeFreq s v) := by
  unfold State.writeFreq
  repeat' first | with_reducible assumption | exact Closed.mono cl (by decide) | (with_reducible intro _) | with_reducible apply onlyIte | with_reducible apply State.setFreq_only | dsimp only | split

theorem State.ppsEdge_only {P : State → Prop} (cl : Closed P 0x300023004) {s : State} (h : Sat P s) (pin : Bool) : Sat P (State.ppsEdge s pin) := by
  unfold State.ppsEdge
  extract_lets +onlyGivenNames v_s0
  try (have h_s0 : Sat P v_s0 := by repeat' first | with_reducible assumption | exact Closed.mono cl (by decide) | (with_reducible intro _) | with_reducible apply onlyIte | with_reducible apply State.fset_only | with_reducible apply State.drawn_only | with_reducible apply State.ppsCapture_only | with_reducible apply State.ppsInternal_only | dsimp only | split)
  repeat' first | with_reducible assumption | exact Closed.mono cl (by decide) | (with_reducible intro _) | with_reducible apply onlyIte | with_reducible apply State.fset_only | with_reducible apply State.drawn_only | with_reducible apply State.ppsCapture_only | with_reducible apply State.ppsInternal_only | dsimp only | split

theorem State.setTxq_only {P : State → Prop} (cl : Closed P 0x200002000) {s : State} (h : Sat P s) (k : Nat) (l : List TxStamp) : Sat P (State.setTxq s k l) := by
  unfold State.setTxq
  repeat' first | with_reducible assumption | exact Closed.mono cl (by decide) | (with_reducible intro _) | with_reducible apply onlyIte | with_reducible apply State.fset_only | (fail_if_no_progress with_reducible apply upd_time (Closed.mono cl (by decide))) | dsimp only | split

theorem State.txqPush_only {P : State → Prop} (cl : Closed P 0x200002000) {s : State} (h : Sat P s) (e : TxStamp) : Sat P (State.txqPush s e) := by
  unfold State.txqPush
  extract_lets +onlyGivenNames v_k v_l
  repeat' first | with_reducible assumption | exact Closed.mono cl (by decide) | (with_reducible intro _) | with_reducible apply onlyIte | with_reducible apply State.setTxq_only | with_reducible apply State.fset_only | with_reducible apply State.count_only | dsimp only | split

theorem State.txqPop_only {P : State → Prop} (cl : Closed P 0x200102001) {s : State} (h : Sat P s) (k : Nat) : Sat P (State.txqPop s k) := by
  unfold State.txqPop
  extract_lets +onlyGivenNames v_put
  repeat' first | with_reducible assumption | exact Closed.mono cl (by decide) | (with_reducible intro _) | with_reducible apply onlyIte | with_reducible refine onlyFoldl ?_ ?_ | with_reducible apply State.wset_only | with_reducible apply State.setTxq_only | (fail_if_no_progress with_reducible apply upd_host_snap (Closed.mono cl (by decide))) | dsimp only | split

theorem State.toutArm_only {P : State → Prop} (cl : Closed P 0x200002000) {s : State} (h : Sat P s) (n : Nat) : Sat P (State.toutArm s n) := by
  unfold State.toutArm
  repeat' first | with_reducible assumption | exact Closed.mono cl (by decide) | (with_reducible intro _) | with_reducible apply onlyIte | with_reducible apply State.fset_only | with_reducible apply State.setTout_only | dsimp only | split

theorem State.toutEnable_only {P : State → Prop} (cl : Closed P 0x200002000) {s : State} (h : Sat P s) (n : Nat) : Sat P (State.toutEnable s n) := by
  unfold State.toutEnable
  repeat' first | with_reducible assumption | exact Closed.mono cl (by decide) | (with_reducible intro _) | with_reducible apply onlyIte | with_reducible apply State.fset_only | with_reducible apply State.toutArm_only | dsimp only | split

theorem State.toutDisable_only {P : State → Prop} (cl : Closed P 0x200000000) {s : State} (h : Sat P s) (n : Nat) : Sat P (State.toutDisable s n) := by
  unfold State.toutDisable
  repeat' first | with_reducible assumption | exact Closed.mono cl (by decide) | (with_reducible intro _) | with_reducible apply onlyIte | with_reducible apply State.fset_only | dsimp only | split

theorem State.toutPulse_only {P : State → Prop} (cl : Closed P 0x200006000) {s : State} (h : Sat P s) (n : Nat) : Sat P (State.toutPulse s n) := by
  unfold State.toutPulse
  extract_lets +onlyGivenNames v_x v_one
  repeat' first | with_reducible assumption | exact Closed.mono cl (by decide) | (with_reducible intro _) | with_reducible apply onlyIte | with_reducible apply State.setTout_only | with_reducible apply State.pulse_only | with_reducible apply State.fset_only | dsimp only | split

theorem State.toutEnd_only {P : State → Prop} (cl : Closed P 0x200002000) {s : State} (h : Sat P s) (n : Nat) : Sat P (State.toutEnd s n) := by
  unfold State.toutEnd
  extract_lets +onlyGivenNames v_x
  repeat' first | with_reducible assumption | exact Closed.mono cl (by decide) | (with_reducible intro _) | with_reducible apply onlyIte | with_reducible apply State.setTout_only | with_reducible apply State.fset_only | with_reducible apply State.toutArm_only | dsimp only | split

theorem State.timeEdge_only {P : State → Prop} (cl : Closed P 0x300027004) {s : State} (h : Sat P s)  : Sat P (State.timeEdge s) := by
  unfold State.timeEdge
  extract_lets +onlyGivenNames v_s1
  try (have h_s1 : Sat P v_s1 := by repeat' first | with_reducible assumption | exact Closed.mono cl (by decide) | (with_reducible intro _) | with_reducible apply onlyIte | with_reducible refine onlyEach ?_ ?_ | with_reducible apply State.timeAdvance_only | with_reducible apply State.crossings_only | with_reducible apply State.applyStep_only | with_reducible apply State.toutEnd_only | with_reducible apply State.toutPulse_only | dsimp only | split)
  repeat' first | with_reducible assumption | exact Closed.mono cl (by decide) | (with_reducible intro _) | with_reducible apply onlyIte | with_reducible refine onlyEach ?_ ?_ | with_reducible apply State.timeAdvance_only | with_reducible apply State.crossings_only | with_reducible apply State.applyStep_only | with_reducible apply State.toutEnd_only | with_reducible apply State.toutPulse_only | dsimp only | split

theorem execTodArm_only {P : State → Prop} (cl : Closed P 0x302103040) {s : State} (h : Sat P s)  : OnlyO P (execTodArm s) := by
  unfold execTodArm
  repeat' first | with_reducible assumption | exact Closed.mono cl (by decide) | (with_reducible intro _) | with_reducible apply onlyIte | with_reducible apply onlyIteO | with_reducible apply onlyNext | with_reducible apply State.hostCmd_only | with_reducible apply State.todArm_only | dsimp only | split

theorem execTodCancel_only {P : State → Prop} (cl : Closed P 0x302101040) {s : State} (h : Sat P s)  : OnlyO P (execTodCancel s) := by
  unfold execTodCancel
  repeat' first | with_reducible assumption | exact Closed.mono cl (by decide) | (with_reducible intro _) | with_reducible apply onlyIte | with_reducible apply onlyIteO | with_reducible apply onlyNext | with_reducible apply State.hostCmd_only | with_reducible apply State.todCancel_only | dsimp only | split

theorem execPhaseGo_only {P : State → Prop} (cl : Closed P 0x302123040) {s : State} (h : Sat P s)  : OnlyO P (execPhaseGo s) := by
  unfold execPhaseGo
  repeat' first | with_reducible assumption | exact Closed.mono cl (by decide) | (with_reducible intro _) | with_reducible apply onlyIte | with_reducible apply onlyIteO | with_reducible apply onlyNext | with_reducible apply State.hostCmd_only | with_reducible apply State.phaseGo_only | dsimp only | split

theorem execSlewDone_only {P : State → Prop} (cl : Closed P 0x200002000) {s : State} (h : Sat P s)  : OnlyO P (execSlewDone s) := by
  unfold execSlewDone
  repeat' first | with_reducible assumption | exact Closed.mono cl (by decide) | (with_reducible intro _) | with_reducible apply onlyIte | with_reducible apply onlyIteO | with_reducible apply onlyNext | with_reducible apply State.slewDone_only | dsimp only | split

theorem execTimeFreq_only {P : State → Prop} (cl : Closed P 0x302121040) {s : State} (h : Sat P s) (v : W32) : OnlyO P (execTimeFreq v s) := by
  unfold execTimeFreq
  repeat' first | with_reducible assumption | exact Closed.mono cl (by decide) | (with_reducible intro _) | with_reducible apply onlyIte | with_reducible apply onlyIteO | with_reducible apply onlyNext | with_reducible apply State.hostCmd_only | with_reducible apply State.writeFreq_only | dsimp only | split

theorem execPpsEdge_only {P : State → Prop} (cl : Closed P 0x300023004) {s : State} (h : Sat P s) (pin : Bool) : OnlyO P (execPpsEdge pin s) := by
  unfold execPpsEdge
  repeat' first | with_reducible assumption | exact Closed.mono cl (by decide) | (with_reducible intro _) | with_reducible apply onlyIte | with_reducible apply onlyIteO | with_reducible apply onlyNext | with_reducible apply State.watch_only | with_reducible apply State.ppsEdge_only | dsimp only | split

theorem execPpsLoss_only {P : State → Prop} (cl : Closed P 0x200000000) {s : State} (h : Sat P s)  : OnlyO P (execPpsLoss s) := by
  unfold execPpsLoss
  repeat' first | with_reducible assumption | exact Closed.mono cl (by decide) | (with_reducible intro _) | with_reducible apply onlyIte | with_reducible apply onlyIteO | with_reducible apply onlyNext | with_reducible apply State.fset_only | dsimp only | split

theorem execTimeRefLost_only {P : State → Prop} (cl : Closed P 0x200000800) {s : State} (h : Sat P s)  : OnlyO P (execTimeRefLost s) := by
  unfold execTimeRefLost
  repeat' first | with_reducible assumption | exact Closed.mono cl (by decide) | (with_reducible intro _) | with_reducible apply onlyIte | with_reducible apply onlyIteO | with_reducible apply onlyNext | with_reducible apply State.fset_only | with_reducible apply State.raiseAt_only | dsimp only | split

theorem execRefQualified_only {P : State → Prop} (cl : Closed P 0x200000000) {s : State} (h : Sat P s)  : OnlyO P (execRefQualified s) := by
  unfold execRefQualified
  repeat' first | with_reducible assumption | exact Closed.mono cl (by decide) | (with_reducible intro _) | with_reducible apply onlyIte | with_reducible apply onlyIteO | with_reducible apply onlyNext | with_reducible apply State.fset_only | dsimp only | split

theorem execTxqPop_only {P : State → Prop} (cl : Closed P 0x302103041) {s : State} (h : Sat P s) (k : BitVec 6) : OnlyO P (execTxqPop k s) := by
  unfold execTxqPop
  repeat' first | with_reducible assumption | exact Closed.mono cl (by decide) | (with_reducible intro _) | with_reducible apply onlyIte | with_reducible apply onlyIteO | with_reducible apply onlyNext | with_reducible apply State.hostGet_only | with_reducible apply State.txqPop_only | dsimp only | split

theorem execToutEnable_only {P : State → Prop} (cl : Closed P 0x302103040) {s : State} (h : Sat P s) (n : BitVec 4) : OnlyO P (execToutEnable n s) := by
  unfold execToutEnable
  repeat' first | with_reducible assumption | exact Closed.mono cl (by decide) | (with_reducible intro _) | with_reducible apply onlyIte | with_reducible apply onlyIteO | with_reducible apply onlyNext | with_reducible apply State.hostCmd_only | with_reducible apply State.toutEnable_only | dsimp only | split

theorem execToutDisable_only {P : State → Prop} (cl : Closed P 0x302101040) {s : State} (h : Sat P s) (n : BitVec 4) : OnlyO P (execToutDisable n s) := by
  unfold execToutDisable
  repeat' first | with_reducible assumption | exact Closed.mono cl (by decide) | (with_reducible intro _) | with_reducible apply onlyIte | with_reducible apply onlyIteO | with_reducible apply onlyNext | with_reducible apply State.hostCmd_only | with_reducible apply State.toutDisable_only | dsimp only | split

theorem execToutPulse_only {P : State → Prop} (cl : Closed P 0x200006000) {s : State} (h : Sat P s) (n : BitVec 4) : OnlyO P (execToutPulse n s) := by
  unfold execToutPulse
  repeat' first | with_reducible assumption | exact Closed.mono cl (by decide) | (with_reducible intro _) | with_reducible apply onlyIte | with_reducible apply onlyIteO | with_reducible apply onlyNext | with_reducible apply State.toutPulse_only | dsimp only | split

theorem execToutPulseEnd_only {P : State → Prop} (cl : Closed P 0x200002000) {s : State} (h : Sat P s) (n : BitVec 4) : OnlyO P (execToutPulseEnd n s) := by
  unfold execToutPulseEnd
  repeat' first | with_reducible assumption | exact Closed.mono cl (by decide) | (with_reducible intro _) | with_reducible apply onlyIte | with_reducible apply onlyIteO | with_reducible apply onlyNext | with_reducible apply State.toutEnd_only | dsimp only | split

theorem State.setLane_only {P : State → Prop} (cl : Closed P 0x100) {s : State} (h : Sat P s) (n : Nat) (x : Lane) : Sat P (State.setLane s n x) := by
  unfold State.setLane
  repeat' first | with_reducible assumption | exact Closed.mono cl (by decide) | (with_reducible intro _) | with_reducible apply onlyIte | (fail_if_no_progress with_reducible apply upd_lanes (Closed.mono cl (by decide))) | dsimp only | split

theorem State.setCap_only {P : State → Prop} (cl : Closed P 0x200) {s : State} (h : Sat P s) (n : Nat) (x : Capture) : Sat P (State.setCap s n x) := by
  unfold State.setCap
  repeat' first | with_reducible assumption | exact Closed.mono cl (by decide) | (with_reducible intro _) | with_reducible apply onlyIte | (fail_if_no_progress with_reducible apply upd_caps (Closed.mono cl (by decide))) | dsimp only | split

theorem State.setPat_only {P : State → Prop} (cl : Closed P 0x400) {s : State} (h : Sat P s) (n : Nat) (x : Pattern) : Sat P (State.setPat s n x) := by
  unfold State.setPat
  repeat' first | with_reducible assumption | exact Closed.mono cl (by decide) | (with_reducible intro _) | with_reducible apply onlyIte | (fail_if_no_progress with_reducible apply upd_pats (Closed.mono cl (by decide))) | dsimp only | split

theorem State.setEdgeSt_only {P : State → Prop} (cl : Closed P 0x8000) {s : State} (h : Sat P s) (b : Nat) (x : EdgeBlock) : Sat P (State.setEdgeSt s b x) := by
  unfold State.setEdgeSt
  repeat' first | with_reducible assumption | exact Closed.mono cl (by decide) | (with_reducible intro _) | with_reducible apply onlyIte | (fail_if_no_progress with_reducible apply upd_edge (Closed.mono cl (by decide))) | dsimp only | split

theorem State.setMemSt_only {P : State → Prop} (cl : Closed P 0x8000) {s : State} (h : Sat P s) (b : Nat) (x : EdgeMem) : Sat P (State.setMemSt s b x) := by
  unfold State.setMemSt
  repeat' first | with_reducible assumption | exact Closed.mono cl (by decide) | (with_reducible intro _) | with_reducible apply onlyIte | (fail_if_no_progress with_reducible apply upd_edge (Closed.mono cl (by decide))) | dsimp only | split

theorem State.setIo_only {P : State → Prop} (cl : Closed P 0x8000) {s : State} (h : Sat P s) (n : Nat) (x : IoCell) : Sat P (State.setIo s n x) := by
  unfold State.setIo
  repeat' first | with_reducible assumption | exact Closed.mono cl (by decide) | (with_reducible intro _) | with_reducible apply onlyIte | (fail_if_no_progress with_reducible apply upd_edge (Closed.mono cl (by decide))) | dsimp only | split

theorem State.settleBlock_only {P : State → Prop} (cl : Closed P 0x8000) {s : State} (h : Sat P s) (b : Nat) (c : BlockCfg) : Sat P (State.settleBlock s b c) := by
  unfold State.settleBlock
  extract_lets +onlyGivenNames v_x
  repeat' first | with_reducible assumption | exact Closed.mono cl (by decide) | (with_reducible intro _) | with_reducible apply onlyIte | with_reducible apply State.setEdgeSt_only | dsimp only | split

theorem State.driveLines_only {P : State → Prop} (cl : Closed P 0x8000) {s : State} (h : Sat P s) (b : Nat) (c : BlockCfg) : Sat P (State.driveLines s b c) := by
  unfold State.driveLines
  extract_lets +onlyGivenNames v_cols v_drive
  repeat' first | with_reducible assumption | exact Closed.mono cl (by decide) | (with_reducible intro _) | with_reducible apply onlyIte | with_reducible refine onlyEach ?_ ?_ | (fail_if_no_progress with_reducible apply upd_edge (Closed.mono cl (by decide))) | dsimp only | split

theorem State.edgeRound_only {P : State → Prop} (cl : Closed P 0x8000) {s : State} (h : Sat P s) (die : Nat) : Sat P (State.edgeRound s die) := by
  unfold State.edgeRound
  repeat' first | with_reducible assumption | exact Closed.mono cl (by decide) | (with_reducible intro _) | with_reducible apply onlyIte | with_reducible refine onlyEach ?_ ?_ | with_reducible apply State.settleBlock_only | with_reducible apply State.driveLines_only | dsimp only | split

theorem State.settle_only {P : State → Prop} (cl : Closed P 0x100008000) (die n : Nat) {s : State} (h : Sat P s) : Sat P (State.settle die n s) := by
  induction n generalizing s with
  | zero =>
    unfold State.settle
    repeat' first | with_reducible assumption | exact Closed.mono cl (by decide) | (with_reducible intro _) | with_reducible apply onlyIte | with_reducible refine onlyEach ?_ ?_ | with_reducible apply State.drawn_only | with_reducible apply State.setEdgeSt_only | split
  | succ n ih =>
    unfold State.settle
    dsimp only
    split
    · exact h
    · exact ih (State.edgeRound_only (cl.mono rfl) h die)

theorem State.settled_only {P : State → Prop} (cl : Closed P 0x100008000) {s : State} (h : Sat P s) (die : Nat) : Sat P (State.settled s die) :=
  State.settle_only cl die _ h

theorem State.pairEdge_only {P : State → Prop} (cl : Closed P 0x100008000) {s : State} (h : Sat P s) (b : Nat) (c : MemCfg) (onA onB : Bool) : Sat P (State.pairEdge s b c onA onB) := by
  unfold State.pairEdge
  extract_lets +onlyGivenNames v_lo v_hi v_two v_ra v_n v_free v_pick v_rd v_wa v_mask v_data v_wl v_wh v_seen v_lo1 v_hi1
  repeat' first | with_reducible assumption | exact Closed.mono cl (by decide) | (with_reducible intro _) | with_reducible apply onlyIte | with_reducible apply State.setMemSt_only | with_reducible apply State.drawn_only | dsimp only | split

theorem State.soloEdge_only {P : State → Prop} (cl : Closed P 0x100008000) {s : State} (h : Sat P s) (b : Nat) (p q : MemPortCfg) (isA : Bool) : Sat P (State.soloEdge s b p q isA) := by
  unfold State.soloEdge
  extract_lets +onlyGivenNames v_m v_theirs v_last v_addr v_seen v_was v_rd v_out v_t
  try (have h_t : Sat P v_t := by repeat' first | with_reducible assumption | exact Closed.mono cl (by decide) | (with_reducible intro _) | with_reducible apply onlyIte | with_reducible apply State.drawn_only | with_reducible apply State.setMemSt_only | dsimp only | split)
  repeat' first | with_reducible assumption | exact Closed.mono cl (by decide) | (with_reducible intro _) | with_reducible apply onlyIte | with_reducible apply State.drawn_only | with_reducible apply State.setMemSt_only | dsimp only | split

theorem State.memEdge_only {P : State → Prop} (cl : Closed P 0x300008000) {s : State} (h : Sat P s) (b : Nat) (c : MemCfg) (onA onB : Bool) : Sat P (State.memEdge s b c onA onB) := by
  unfold State.memEdge
  repeat' first | with_reducible assumption | exact Closed.mono cl (by decide) | (with_reducible intro _) | with_reducible apply onlyIte | with_reducible apply State.pairEdge_only | with_reducible apply State.soloEdge_only | with_reducible apply State.setMemSt_only | with_reducible apply State.count_only | dsimp only | split

theorem State.ioFall_only {P : State → Prop} (cl : Closed P 0x100008000) {s : State} (h : Sat P s) (n : Nat) : Sat P (State.ioFall s n) := by
  unfold State.ioFall
  extract_lets +onlyGivenNames v_x
  repeat' first | with_reducible assumption | exact Closed.mono cl (by decide) | (with_reducible intro _) | with_reducible apply onlyIte | with_reducible apply State.setIo_only | with_reducible apply State.drawn_only | dsimp only | split

theorem State.ioEdge_only {P : State → Prop} (cl : Closed P 0x8000) {s : State} (h : Sat P s) (n : Nat) (c : IoCfg) : Sat P (State.ioEdge s n c) := by
  unfold State.ioEdge
  extract_lets +onlyGivenNames v_x v_o0 v_e0
  repeat' first | with_reducible assumption | exact Closed.mono cl (by decide) | (with_reducible intro _) | with_reducible apply onlyIte | with_reducible apply State.setIo_only | dsimp only | split

theorem State.tapEdge_only {P : State → Prop} (cl : Closed P 0x8000) {s : State} (h : Sat P s)  : Sat P (State.tapEdge s) := by
  unfold State.tapEdge
  repeat' first | with_reducible assumption | exact Closed.mono cl (by decide) | (with_reducible intro _) | with_reducible apply onlyIte | with_reducible refine onlyEach ?_ ?_ | with_reducible apply State.setIo_only | dsimp only | split

theorem State.wireInputs_only {P : State → Prop} (cl : Closed P 0x4000) {s : State} (h : Sat P s)  : Sat P (State.wireInputs s) := by
  unfold State.wireInputs
  extract_lets +onlyGivenNames v_p0 v_p1
  repeat' first | with_reducible assumption | exact Closed.mono cl (by decide) | (with_reducible intro _) | with_reducible apply onlyIte | with_reducible apply State.level_only | (fail_if_no_progress with_reducible apply upd_trig (Closed.mono cl (by decide))) | dsimp only | split

theorem State.readEdge_only {P : State → Prop} (cl : Closed P 0x8000) {s : State} (h : Sat P s) (die : Nat) : Sat P (State.readEdge s die) := by
  unfold State.readEdge
  extract_lets +onlyGivenNames v_mine v_due v_rest
  repeat' first | with_reducible assumption | exact Closed.mono cl (by decide) | (with_reducible intro _) | with_reducible apply onlyIte | with_reducible refine onlyFoldl ?_ ?_ | (fail_if_no_progress with_reducible apply upd_edge (Closed.mono cl (by decide))) | dsimp only | split

theorem State.postStalls_only {P : State → Prop} (cl : Closed P 0x200000000) {s : State} (h : Sat P s) (die : Nat) : Sat P (State.postStalls s die) := by
  unfold State.postStalls
  extract_lets +onlyGivenNames v_n
  repeat' first | with_reducible assumption | exact Closed.mono cl (by decide) | (with_reducible intro _) | with_reducible apply onlyIte | with_reducible apply State.count_only | dsimp only | split

theorem State.fabricEdge_only {P : State → Prop} (cl : Closed P 0x32000C000) {s : State} (h : Sat P s) (die : Nat) (clk : EdgeClk) : Sat P (State.fabricEdge s die clk) := by
  unfold State.fabricEdge
  extract_lets +onlyGivenNames v_cells v_s0 v_here v_s1 v_s2 v_s3 v_s4
  try (have h_s0 : Sat P v_s0 := by repeat' first | with_reducible assumption | exact Closed.mono cl (by decide) | (with_reducible intro _) | with_reducible apply onlyIte | with_reducible refine onlyEach ?_ ?_ | with_reducible apply State.ioFall_only | with_reducible apply State.settled_only | with_reducible apply State.setEdgeSt_only | with_reducible apply State.memEdge_only | with_reducible apply State.ioEdge_only | with_reducible apply State.tapEdge_only | with_reducible apply State.postStalls_only | with_reducible apply State.wireInputs_only | (fail_if_no_progress with_reducible apply upd_edge (Closed.mono cl (by decide))) | (fail_if_no_progress with_reducible apply upd_edge_pins (Closed.mono cl (by decide))) | dsimp only | split)
  try (have h_s1 : Sat P v_s1 := by repeat' first | with_reducible assumption | exact Closed.mono cl (by decide) | (with_reducible intro _) | with_reducible apply onlyIte | with_reducible refine onlyEach ?_ ?_ | with_reducible apply State.ioFall_only | with_reducible apply State.settled_only | with_reducible apply State.setEdgeSt_only | with_reducible apply State.memEdge_only | with_reducible apply State.ioEdge_only | with_reducible apply State.tapEdge_only | with_reducible apply State.postStalls_only | with_reducible apply State.wireInputs_only | (fail_if_no_progress with_reducible apply upd_edge (Closed.mono cl (by decide))) | (fail_if_no_progress with_reducible apply upd_edge_pins (Closed.mono cl (by decide))) | dsimp only | split)
  try (have h_s2 : Sat P v_s2 := by repeat' first | with_reducible assumption | exact Closed.mono cl (by decide) | (with_reducible intro _) | with_reducible apply onlyIte | with_reducible refine onlyEach ?_ ?_ | with_reducible apply State.ioFall_only | with_reducible apply State.settled_only | with_reducible apply State.setEdgeSt_only | with_reducible apply State.memEdge_only | with_reducible apply State.ioEdge_only | with_reducible apply State.tapEdge_only | with_reducible apply State.postStalls_only | with_reducible apply State.wireInputs_only | (fail_if_no_progress with_reducible apply upd_edge (Closed.mono cl (by decide))) | (fail_if_no_progress with_reducible apply upd_edge_pins (Closed.mono cl (by decide))) | dsimp only | split)
  try (have h_s3 : Sat P v_s3 := by repeat' first | with_reducible assumption | exact Closed.mono cl (by decide) | (with_reducible intro _) | with_reducible apply onlyIte | with_reducible refine onlyEach ?_ ?_ | with_reducible apply State.ioFall_only | with_reducible apply State.settled_only | with_reducible apply State.setEdgeSt_only | with_reducible apply State.memEdge_only | with_reducible apply State.ioEdge_only | with_reducible apply State.tapEdge_only | with_reducible apply State.postStalls_only | with_reducible apply State.wireInputs_only | (fail_if_no_progress with_reducible apply upd_edge (Closed.mono cl (by decide))) | (fail_if_no_progress with_reducible apply upd_edge_pins (Closed.mono cl (by decide))) | dsimp only | split)
  try (have h_s4 : Sat P v_s4 := by repeat' first | with_reducible assumption | exact Closed.mono cl (by decide) | (with_reducible intro _) | with_reducible apply onlyIte | with_reducible refine onlyEach ?_ ?_ | with_reducible apply State.ioFall_only | with_reducible apply State.settled_only | with_reducible apply State.setEdgeSt_only | with_reducible apply State.memEdge_only | with_reducible apply State.ioEdge_only | with_reducible apply State.tapEdge_only | with_reducible apply State.postStalls_only | with_reducible apply State.wireInputs_only | (fail_if_no_progress with_reducible apply upd_edge (Closed.mono cl (by decide))) | (fail_if_no_progress with_reducible apply upd_edge_pins (Closed.mono cl (by decide))) | dsimp only | split)
  repeat' first | with_reducible assumption | exact Closed.mono cl (by decide) | (with_reducible intro _) | with_reducible apply onlyIte | with_reducible refine onlyEach ?_ ?_ | with_reducible apply State.ioFall_only | with_reducible apply State.settled_only | with_reducible apply State.setEdgeSt_only | with_reducible apply State.memEdge_only | with_reducible apply State.ioEdge_only | with_reducible apply State.tapEdge_only | with_reducible apply State.postStalls_only | with_reducible apply State.wireInputs_only | (fail_if_no_progress with_reducible apply upd_edge (Closed.mono cl (by decide))) | (fail_if_no_progress with_reducible apply upd_edge_pins (Closed.mono cl (by decide))) | dsimp only | split

theorem State.binWord_only {P : State → Prop} (cl : Closed P 0x200000004) {s : State} (h : Sat P s) (win key : Nat) (w : BinWord) : Sat P (State.binWord s win key w) := by
  unfold State.binWord
  extract_lets +onlyGivenNames v_k v_s1
  try (have h_s1 : Sat P v_s1 := by repeat' first | with_reducible assumption | exact Closed.mono cl (by decide) | (with_reducible intro _) | with_reducible apply onlyIte | with_reducible apply State.count_only | (fail_if_no_progress with_reducible apply upd_core (Closed.mono cl (by decide))) | dsimp only | split)
  repeat' first | with_reducible assumption | exact Closed.mono cl (by decide) | (with_reducible intro _) | with_reducible apply onlyIte | with_reducible apply State.count_only | (fail_if_no_progress with_reducible apply upd_core (Closed.mono cl (by decide))) | dsimp only | split

theorem State.rebin_only {P : State → Prop} (cl : Closed P 0x200000004) {s : State} (h : Sat P s) (t0 d : Int) : Sat P (State.rebin s t0 d) := by
  unfold State.rebin
  extract_lets +onlyGivenNames v_b v_old v_s1
  try (have h_s1 : Sat P v_s1 := by repeat' first | with_reducible assumption | exact Closed.mono cl (by decide) | (with_reducible intro _) | with_reducible apply onlyIte | with_reducible refine onlyEach ?_ ?_ | with_reducible apply State.binWord_only | (fail_if_no_progress with_reducible apply upd_core (Closed.mono cl (by decide))) | dsimp only | split)
  repeat' first | with_reducible assumption | exact Closed.mono cl (by decide) | (with_reducible intro _) | with_reducible apply onlyIte | with_reducible refine onlyEach ?_ ?_ | with_reducible apply State.binWord_only | (fail_if_no_progress with_reducible apply upd_core (Closed.mono cl (by decide))) | dsimp only | split

theorem State.trimWindow_only {P : State → Prop} (cl : Closed P 0x4) {s : State} (h : Sat P s) (b : Nat) : Sat P (State.trimWindow s b) := by
  unfold State.trimWindow
  extract_lets +onlyGivenNames v_first
  repeat' first | with_reducible assumption | exact Closed.mono cl (by decide) | (with_reducible intro _) | with_reducible apply onlyIte | (fail_if_no_progress with_reducible apply upd_core (Closed.mono cl (by decide))) | dsimp only | split

theorem State.mirrorFill_only {P : State → Prop} (cl : Closed P 0x20000) {s : State} (h : Sat P s) (key : Nat) (data : W128) : Sat P (State.mirrorFill s key data) := by
  unfold State.mirrorFill
  repeat' first | with_reducible assumption | exact Closed.mono cl (by decide) | (with_reducible intro _) | with_reducible apply onlyIte | with_reducible apply State.mirror_only | dsimp only | split

theorem State.fillWord_only {P : State → Prop} (cl : Closed P 0x200020004) {s : State} (h : Sat P s) (key rank : Nat) (data : W128) : Sat P (State.fillWord s key rank data) := by
  unfold State.fillWord
  repeat' first | with_reducible assumption | exact Closed.mono cl (by decide) | (with_reducible intro _) | with_reducible apply onlyIte | with_reducible apply State.binWord_only | with_reducible apply State.mirrorFill_only | dsimp only | split

theorem State.turnInput_only {P : State → Prop} (cl : Closed P 0x200020004) {s : State} (h : Sat P s) (die port cord word : Nat) (data : W128) : Sat P (State.turnInput s die port cord word data) := by
  unfold State.turnInput
  extract_lets +onlyGivenNames v_key
  repeat' first | with_reducible assumption | exact Closed.mono cl (by decide) | (with_reducible intro _) | with_reducible apply onlyIte | with_reducible apply State.count_only | with_reducible apply State.fillWord_only | dsimp only | split

theorem State.turnOutput_only {P : State → Prop} (cl : Closed P 0x8000) {s : State} (h : Sat P s) (die port cord word : Nat) : Sat P (State.turnOutput s die port cord word) := by
  unfold State.turnOutput
  extract_lets +onlyGivenNames v_v
  repeat' first | with_reducible assumption | exact Closed.mono cl (by decide) | (with_reducible intro _) | with_reducible apply onlyIte | (fail_if_no_progress with_reducible apply upd_edge (Closed.mono cl (by decide))) | dsimp only | split

theorem execTurnInputWrite_only {P : State → Prop} (cl : Closed P 0x200020004) {s : State} (h : Sat P s) (die : Bool) (port : BitVec 5) (cord : CordId) (word : BitVec 11) (data : W128) : OnlyO P (execTurnInputWrite die port cord word data s) := by
  unfold execTurnInputWrite
  repeat' first | with_reducible assumption | exact Closed.mono cl (by decide) | (with_reducible intro _) | with_reducible apply onlyIte | with_reducible apply onlyIteO | with_reducible apply onlyNext | with_reducible apply State.turnInput_only | dsimp only | split

theorem execTurnOutputRead_only {P : State → Prop} (cl : Closed P 0x8000) {s : State} (h : Sat P s) (die : Bool) (port : BitVec 5) (cord : CordId) (word : BitVec 11) : OnlyO P (execTurnOutputRead die port cord word s) := by
  unfold execTurnOutputRead
  repeat' first | with_reducible assumption | exact Closed.mono cl (by decide) | (with_reducible intro _) | with_reducible apply onlyIte | with_reducible apply onlyIteO | with_reducible apply onlyNext | with_reducible apply State.turnOutput_only | dsimp only | split

end Sys2Proof.Machine
end

