-- ==== Sys2Proof/Laws/OnlyUnits.lean ====
section
/-! SUPPORT. What the functions of the action plane, capture, pattern channels, lanes, triggers, turns, faults and the splice unit may change. -/

set_option linter.all false
set_option linter.unreachableTactic false
set_option linter.unusedTactic false
set_option linter.unusedVariables false

namespace Sys2Proof.Machine

theorem State.actRead_only {P : State → Prop} (cl : Closed P 0x300001840) {s : State} (h : Sat P s) (a n : Nat) : Sat P (State.actRead s a n).1 := by
  unfold State.actRead
  extract_lets +onlyGivenNames v_l
  repeat' first | with_reducible assumption | exact Closed.mono cl (by decide) | (with_reducible intro _) | with_reducible apply onlyIte | with_reducible apply onlyIteFst | with_reducible apply State.readLines_only | with_reducible apply State.memRefused_only | dsimp only | split

theorem State.actReadAll_only {P : State → Prop} (cl : Closed P 0x300001840) {s : State} (h : Sat P s) (a n : Nat) : Sat P (State.actReadAll s a n).1 := by
  unfold State.actReadAll
  repeat' first | with_reducible assumption | exact Closed.mono cl (by decide) | (with_reducible intro _) | with_reducible apply onlyIte | with_reducible apply onlyIteFst | with_reducible refine onlyFoldlFst ?_ ?_ | with_reducible apply State.actRead_only | dsimp only | split

theorem State.actWrite_only {P : State → Prop} (cl : Closed P 0x600000840) {s : State} (h : Sat P s) (a : Nat) (bs : Bytes) : Sat P (State.actWrite s a bs) := by
  unfold State.actWrite
  repeat' first | with_reducible assumption | exact Closed.mono cl (by decide) | (with_reducible intro _) | with_reducible apply onlyIte | with_reducible apply State.wrBytes_only | with_reducible apply State.memRefused_only | (fail_if_no_progress with_reducible apply upd_ring (Closed.mono cl (by decide))) | dsimp only | split

theorem State.setFlags_only {P : State → Prop} (cl : Closed P 0x200000000) {s : State} (h : Sat P s) (f : Nat) (v : W32) : Sat P (State.setFlags s f v) := by
  unfold State.setFlags
  repeat' first | with_reducible assumption | exact Closed.mono cl (by decide) | (with_reducible intro _) | with_reducible apply onlyIte | with_reducible apply State.setReg_only | dsimp only | split

theorem State.clearFlags_only {P : State → Prop} (cl : Closed P 0x200000000) {s : State} (h : Sat P s) (f : Nat) (v : W32) : Sat P (State.clearFlags s f v) := by
  unfold State.clearFlags
  repeat' first | with_reducible assumption | exact Closed.mono cl (by decide) | (with_reducible intro _) | with_reducible apply onlyIte | with_reducible apply State.setReg_only | dsimp only | split

theorem State.driveFlag_only {P : State → Prop} (cl : Closed P 0x200000000) {s : State} (h : Sat P s) (q : Nat) : Sat P (State.driveFlag s q) := by
  unfold State.driveFlag
  extract_lets +onlyGivenNames v_f v_b
  repeat' first | with_reducible assumption | exact Closed.mono cl (by decide) | (with_reducible intro _) | with_reducible apply onlyIte | with_reducible apply State.setReg_only | dsimp only | split

theorem State.queuePost_only {P : State → Prop} (cl : Closed P 0x600000840) {s : State} (h : Sat P s) (master q : Nat) (item : W128) : Sat P (State.queuePost s master q item).1 := by
  unfold State.queuePost
  repeat' first | with_reducible assumption | exact Closed.mono cl (by decide) | (with_reducible intro _) | with_reducible apply onlyIte | with_reducible apply onlyIteFst | with_reducible apply State.count_only | with_reducible apply State.actWrite_only | with_reducible apply State.fset_only | with_reducible apply State.driveFlag_only | dsimp only | split

theorem State.postBy_only {P : State → Prop} (cl : Closed P 0x600000840) {s : State} (h : Sat P s) (master q : Nat) (item : W128) : Sat P (State.postBy s master q item) := by
  unfold State.postBy
  repeat' first | with_reducible assumption | exact Closed.mono cl (by decide) | (with_reducible intro _) | with_reducible apply onlyIte | with_reducible apply State.queuePost_only | with_reducible apply State.fset_only | with_reducible apply State.count_only | dsimp only | split

theorem State.queuePop_only {P : State → Prop} (cl : Closed P 0x300011840) {s : State} (h : Sat P s) (q : Nat) : Sat P (State.queuePop s q).1 := by
  unfold State.queuePop
  extract_lets +onlyGivenNames v_h
  repeat' first | with_reducible assumption | exact Closed.mono cl (by decide) | (with_reducible intro _) | with_reducible apply onlyIte | with_reducible apply onlyIteFst | with_reducible apply State.actRead_only | with_reducible apply State.fset_only | with_reducible apply State.driveFlag_only | (fail_if_no_progress with_reducible apply upd_act (Closed.mono cl (by decide))) | dsimp only | split

theorem State.hostPost_only {P : State → Prop} (cl : Closed P 0x600000842) {s : State} (h : Sat P s) (w3 : W32) : Sat P (State.hostPost s w3) := by
  unfold State.hostPost
  extract_lets +onlyGivenNames v_a v_item v_s1
  try (have h_s1 : Sat P v_s1 := by repeat' first | with_reducible assumption | exact Closed.mono cl (by decide) | (with_reducible intro _) | with_reducible apply onlyIte | with_reducible apply State.wset_only | with_reducible apply State.queuePost_only | with_reducible apply State.fset_only | (fail_if_no_progress with_reducible apply upd_staged (Closed.mono cl (by decide))) | dsimp only | split)
  repeat' first | with_reducible assumption | exact Closed.mono cl (by decide) | (with_reducible intro _) | with_reducible apply onlyIte | with_reducible apply State.wset_only | with_reducible apply State.queuePost_only | with_reducible apply State.fset_only | (fail_if_no_progress with_reducible apply upd_staged (Closed.mono cl (by decide))) | dsimp only | split

theorem execQueuePost_only {P : State → Prop} (cl : Closed P 0x600000840) {s : State} (h : Sat P s) (master : MasterId) (q : BitVec 14) (item : W128) : OnlyO P (execQueuePost master q item s) := by
  unfold execQueuePost
  repeat' first | with_reducible assumption | exact Closed.mono cl (by decide) | (with_reducible intro _) | with_reducible apply onlyIte | with_reducible apply onlyIteO | with_reducible apply onlyNext | with_reducible apply State.watch_only | with_reducible apply State.postBy_only | dsimp only | split

theorem execHpost_only {P : State → Prop} (cl : Closed P 0x702101842) {s : State} (h : Sat P s) (w3 : W32) : OnlyO P (execHpost w3 s) := by
  unfold execHpost
  repeat' first | with_reducible assumption | exact Closed.mono cl (by decide) | (with_reducible intro _) | with_reducible apply onlyIte | with_reducible apply onlyIteO | with_reducible apply onlyNext | with_reducible apply State.hostCmd_only | with_reducible apply State.watch_only | with_reducible apply State.hostPost_only | dsimp only | split

theorem execActFlSet_only {P : State → Prop} (cl : Closed P 0x302101040) {s : State} (h : Sat P s) (f : BitVec 12) (v : W32) : OnlyO P (execActFlSet f v s) := by
  unfold execActFlSet
  repeat' first | with_reducible assumption | exact Closed.mono cl (by decide) | (with_reducible intro _) | with_reducible apply onlyIte | with_reducible apply onlyIteO | with_reducible apply onlyNext | with_reducible apply State.hostCmd_only | with_reducible apply State.setFlags_only | dsimp only | split

theorem State.setUnit_only {P : State → Prop} (cl : Closed P 0x10000) {s : State} (h : Sat P s) (u : Nat) (x : Unit_) : Sat P (State.setUnit s u x) := by
  unfold State.setUnit
  repeat' first | with_reducible assumption | exact Closed.mono cl (by decide) | (with_reducible intro _) | with_reducible apply onlyIte | (fail_if_no_progress with_reducible apply upd_act (Closed.mono cl (by decide))) | dsimp only | split

theorem State.setFlow_only {P : State → Prop} (cl : Closed P 0x10000) {s : State} (h : Sat P s) (f : Nat) (x : Flow) : Sat P (State.setFlow s f x) := by
  unfold State.setFlow
  repeat' first | with_reducible assumption | exact Closed.mono cl (by decide) | (with_reducible intro _) | with_reducible apply onlyIte | (fail_if_no_progress with_reducible apply upd_act (Closed.mono cl (by decide))) | dsimp only | split

theorem State.actFault_only {P : State → Prop} (cl : Closed P 0x200000800) {s : State} (h : Sat P s) (u code : Nat) : Sat P (State.actFault s u code) := by
  unfold State.actFault
  repeat' first | with_reducible assumption | exact Closed.mono cl (by decide) | (with_reducible intro _) | with_reducible apply onlyIte | with_reducible apply State.raiseAt_only | dsimp only | split

theorem State.serviceOver_only {P : State → Prop} (cl : Closed P 0x200020000) {s : State} (h : Sat P s) (u : Nat) : Sat P (State.serviceOver s u) := by
  unfold State.serviceOver
  repeat' first | with_reducible assumption | exact Closed.mono cl (by decide) | (with_reducible intro _) | with_reducible apply onlyIte | with_reducible apply State.fset_only | with_reducible apply State.mirror_only | dsimp only | split

theorem State.endService_only {P : State → Prop} (cl : Closed P 0x200030000) {s : State} (h : Sat P s) (u : Nat) : Sat P (State.endService s u) := by
  unfold State.endService
  extract_lets +onlyGivenNames v_x v_f
  repeat' first | with_reducible assumption | exact Closed.mono cl (by decide) | (with_reducible intro _) | with_reducible apply onlyIte | with_reducible apply State.setFlow_only | with_reducible apply State.setUnit_only | with_reducible apply State.serviceOver_only | dsimp only | split

theorem State.goTo_only {P : State → Prop} (cl : Closed P 0x200030800) {s : State} (h : Sat P s) (u next : Nat) : Sat P (State.goTo s u next) := by
  unfold State.goTo
  extract_lets +onlyGivenNames v_x v_s1
  try (have h_s1 : Sat P v_s1 := by repeat' first | with_reducible assumption | exact Closed.mono cl (by decide) | (with_reducible intro _) | with_reducible apply onlyIte | with_reducible apply State.setUnit_only | with_reducible apply State.fset_only | with_reducible apply State.actFault_only | with_reducible apply State.endService_only | dsimp only | split)
  repeat' first | with_reducible assumption | exact Closed.mono cl (by decide) | (with_reducible intro _) | with_reducible apply onlyIte | with_reducible apply State.setUnit_only | with_reducible apply State.fset_only | with_reducible apply State.actFault_only | with_reducible apply State.endService_only | dsimp only | split

theorem State.immediate_only {P : State → Prop} (cl : Closed P 0x200030800) {s : State} (h : Sat P s) (u op : Nat) (f : Unit_ → W128 → W64) : Sat P (State.immediate s u op f) := by
  unfold State.immediate
  repeat' first | with_reducible assumption | exact Closed.mono cl (by decide) | (with_reducible intro _) | with_reducible apply onlyIte | with_reducible apply State.setUnit_only | with_reducible apply State.setReg_only | with_reducible apply State.goTo_only | dsimp only | split

theorem State.branch_only {P : State → Prop} (cl : Closed P 0x200030800) {s : State} (h : Sat P s) (u op : Nat) (f : Unit_ → W128 → Bool) : Sat P (State.branch s u op f) := by
  unfold State.branch
  repeat' first | with_reducible assumption | exact Closed.mono cl (by decide) | (with_reducible intro _) | with_reducible apply onlyIte | with_reducible apply State.goTo_only | dsimp only | split

theorem State.framing_only {P : State → Prop} (cl : Closed P 0x200030800) {s : State} (h : Sat P s) (u op : Nat) (f : Unit_ → W128 → Option (List TxWord)) : Sat P (State.framing s u op f) := by
  unfold State.framing
  repeat' first | with_reducible assumption | exact Closed.mono cl (by decide) | (with_reducible intro _) | with_reducible apply onlyIte | with_reducible apply State.setUnit_only | with_reducible apply State.goTo_only | with_reducible apply State.actFault_only | dsimp only | split

theorem State.launchOp_only {P : State → Prop} (cl : Closed P 0x200010000) {s : State} (h : Sat P s) (u : Nat) (o : ActOp) : Sat P (State.launchOp s u o) := by
  unfold State.launchOp
  extract_lets +onlyGivenNames v_x v_n
  repeat' first | with_reducible assumption | exact Closed.mono cl (by decide) | (with_reducible intro _) | with_reducible apply onlyIte | with_reducible apply State.setUnit_only | with_reducible apply State.fset_only | dsimp only | split

theorem State.issue_only {P : State → Prop} (cl : Closed P 0x200030800) {s : State} (h : Sat P s) (u op : Nat) (waited : Bool) (f : Unit_ → W128 → Option ActOp) : Sat P (State.issue s u op waited f) := by
  unfold State.issue
  repeat' first | with_reducible assumption | exact Closed.mono cl (by decide) | (with_reducible intro _) | with_reducible apply onlyIte | with_reducible apply State.actFault_only | with_reducible apply State.goTo_only | with_reducible apply State.launchOp_only | with_reducible apply State.setUnit_only | dsimp only | split

theorem State.setDelays_only {P : State → Prop} (cl : Closed P 0x200010000) {s : State} (h : Sat P s) (d : Nat) (l : List DelayItem) : Sat P (State.setDelays s d l) := by
  unfold State.setDelays
  repeat' first | with_reducible assumption | exact Closed.mono cl (by decide) | (with_reducible intro _) | with_reducible apply onlyIte | with_reducible apply State.fset_only | (fail_if_no_progress with_reducible apply upd_act (Closed.mono cl (by decide))) | dsimp only | split

theorem State.expire_only {P : State → Prop} (cl : Closed P 0x200010000) {s : State} (h : Sat P s) (d : Nat) : Sat P (State.expire s d) := by
  unfold State.expire
  extract_lets +onlyGivenNames v_l v_due
  repeat' first | with_reducible assumption | exact Closed.mono cl (by decide) | (with_reducible intro _) | with_reducible apply onlyIte | with_reducible refine onlyEach ?_ ?_ | with_reducible apply State.setDelays_only | with_reducible apply State.setFlags_only | dsimp only | split

theorem State.delayTick_only {P : State → Prop} (cl : Closed P 0x200010000) {s : State} (h : Sat P s) (d : Nat) : Sat P (State.delayTick s d) := by
  unfold State.delayTick
  repeat' first | with_reducible assumption | exact Closed.mono cl (by decide) | (with_reducible intro _) | with_reducible apply onlyIte | with_reducible apply State.fset_only | with_reducible apply State.expire_only | (fail_if_no_progress with_reducible apply upd_act (Closed.mono cl (by decide))) | dsimp only | split

theorem State.resume_only {P : State → Prop} (cl : Closed P 0x200030800) {s : State} (h : Sat P s) (u : Nat) (ok : Bool) : Sat P (State.resume s u ok) := by
  unfold State.resume
  repeat' first | with_reducible assumption | exact Closed.mono cl (by decide) | (with_reducible intro _) | with_reducible apply onlyIte | with_reducible apply State.goTo_only | dsimp only | split

theorem State.buildFrame_only {P : State → Prop} (cl : Closed P 0x300031840) {s : State} (h : Sat P s) (u a : Nat) : Sat P (s.buildFrame u a) := by
  unfold State.buildFrame
  have h1 := State.actReadAll_only (cl.mono rfl) h a 8
  generalize s.actReadAll a 8 = r at h1 ⊢
  dsimp only
  refine onlyIte (State.resume_only (cl.mono rfl) (State.actFault_only (cl.mono rfl) h1 _ _) _ _) ?_
  have h2 := State.actReadAll_only (cl.mono rfl) h1 (a + 8) (templateSize (leNat (r.2.take 2)))
  generalize r.1.actReadAll (a + 8) (templateSize (leNat (r.2.take 2))) = q at h2 ⊢
  exact State.resume_only (cl.mono rfl) (State.setUnit_only (cl.mono rfl) h2 _ _) _ _

theorem State.addDelay_only {P : State → Prop} (cl : Closed P 0x200030800) {s : State} (h : Sat P s) (u d g at_ : Nat) : Sat P (State.addDelay s u d g at_) := by
  unfold State.addDelay
  extract_lets +onlyGivenNames v_f v_l
  repeat' first | with_reducible assumption | exact Closed.mono cl (by decide) | (with_reducible intro _) | with_reducible apply onlyIte | with_reducible apply State.fset_only | with_reducible apply State.resume_only | with_reducible apply State.setFlags_only | with_reducible apply State.setUnit_only | with_reducible apply State.setDelays_only | dsimp only | split

theorem State.cancelDelay_only {P : State → Prop} (cl : Closed P 0x200030800) {s : State} (h : Sat P s) (u d g dst : Nat) : Sat P (State.cancelDelay s u d g dst) := by
  unfold State.cancelDelay
  extract_lets +onlyGivenNames v_f v_l v_mine v_s1 v_x v_gone v_y
  try (have h_s1 : Sat P v_s1 := by repeat' first | with_reducible assumption | exact Closed.mono cl (by decide) | (with_reducible intro _) | with_reducible apply onlyIte | with_reducible apply State.setDelays_only | with_reducible apply State.clearFlags_only | with_reducible apply State.setUnit_only | with_reducible apply State.setReg_only | with_reducible apply State.resume_only | dsimp only | split)
  repeat' first | with_reducible assumption | exact Closed.mono cl (by decide) | (with_reducible intro _) | with_reducible apply onlyIte | with_reducible apply State.setDelays_only | with_reducible apply State.clearFlags_only | with_reducible apply State.setUnit_only | with_reducible apply State.setReg_only | with_reducible apply State.resume_only | dsimp only | split

theorem State.opEffect_only {P : State → Prop} (cl : Closed P 0x700035C44) {s : State} (h : Sat P s) (u : Nat) (o : ActOp) : Sat P (State.opEffect s u o) := by
  unfold State.opEffect
  repeat' first | with_reducible assumption | exact Closed.mono cl (by decide) | (with_reducible intro _) | with_reducible apply onlyIte | with_reducible apply State.actRead_only | with_reducible apply State.setUnit_only | with_reducible apply State.setReg_only | with_reducible apply State.resume_only | with_reducible apply State.actWrite_only | with_reducible apply State.count_only | with_reducible apply State.buildFrame_only | with_reducible apply State.setPat_only | with_reducible apply State.fillWord_only | with_reducible apply State.queuePost_only | with_reducible apply State.setFlags_only | with_reducible apply State.pulse_only | with_reducible apply State.addDelay_only | with_reducible apply State.cancelDelay_only | dsimp only | split

theorem State.opComplete_only {P : State → Prop} (cl : Closed P 0x700035C44) {s : State} (h : Sat P s) (u : Nat) : Sat P (State.opComplete s u) := by
  unfold State.opComplete
  repeat' first | with_reducible assumption | exact Closed.mono cl (by decide) | (with_reducible intro _) | with_reducible apply onlyIte | with_reducible apply State.setUnit_only | with_reducible apply State.fset_only | with_reducible apply State.opEffect_only | with_reducible apply State.serviceOver_only | dsimp only | split

theorem State.dispatchTo_only {P : State → Prop} (cl : Closed P 0x300011840) {s : State} (h : Sat P s) (f u : Nat) : Sat P (State.dispatchTo s f u) := by
  unfold State.dispatchTo
  extract_lets +onlyGivenNames v_g v_x v_fl v_s0 v_s1
  try (have h_s0 : Sat P v_s0 := by repeat' first | with_reducible assumption | exact Closed.mono cl (by decide) | (with_reducible intro _) | with_reducible apply onlyIte | with_reducible refine onlyEach ?_ ?_ | with_reducible apply State.count_only | with_reducible apply State.setUnit_only | with_reducible apply State.queuePop_only | with_reducible apply State.clearFlags_only | with_reducible apply State.fset_only | with_reducible apply State.setFlow_only | (fail_if_no_progress with_reducible apply upd_act (Closed.mono cl (by decide))) | dsimp only | split)
  try (have h_s1 : Sat P v_s1 := by repeat' first | with_reducible assumption | exact Closed.mono cl (by decide) | (with_reducible intro _) | with_reducible apply onlyIte | with_reducible refine onlyEach ?_ ?_ | with_reducible apply State.count_only | with_reducible apply State.setUnit_only | with_reducible apply State.queuePop_only | with_reducible apply State.clearFlags_only | with_reducible apply State.fset_only | with_reducible apply State.setFlow_only | (fail_if_no_progress with_reducible apply upd_act (Closed.mono cl (by decide))) | dsimp only | split)
  repeat' first | with_reducible assumption | exact Closed.mono cl (by decide) | (with_reducible intro _) | with_reducible apply onlyIte | with_reducible refine onlyEach ?_ ?_ | with_reducible apply State.count_only | with_reducible apply State.setUnit_only | with_reducible apply State.queuePop_only | with_reducible apply State.clearFlags_only | with_reducible apply State.fset_only | with_reducible apply State.setFlow_only | (fail_if_no_progress with_reducible apply upd_act (Closed.mono cl (by decide))) | dsimp only | split

theorem State.dispatchFirst_only {P : State → Prop} (cl : Closed P 0x300011840) {s : State} (h : Sat P s) (die : Nat) (fs : List Nat) : Sat P (s.dispatchFirst die fs) := by
  induction fs generalizing s with
  | nil => exact h
  | cons f fs ih =>
    unfold State.dispatchFirst
    split
    · split
      · exact State.dispatchTo_only (cl.mono rfl) h f _
      · exact ih h
    · exact ih (State.fset_only (cl.mono rfl) h _ _)
    · exact ih h

theorem State.waitOver_only {P : State → Prop} (cl : Closed P 0x300011840) {s : State} (h : Sat P s) (f : Nat) : Sat P (State.waitOver s f) := by
  unfold State.waitOver
  repeat' first | with_reducible assumption | exact Closed.mono cl (by decide) | (with_reducible intro _) | with_reducible apply onlyIte | with_reducible apply State.setFlow_only | with_reducible apply State.fset_only | with_reducible apply State.dispatchTo_only | dsimp only | split

theorem execDispatch_only {P : State → Prop} (cl : Closed P 0x300011840) {s : State} (h : Sat P s) (die : Bool) : OnlyO P (execDispatch die s) := by
  unfold execDispatch
  repeat' first | with_reducible assumption | exact Closed.mono cl (by decide) | (with_reducible intro _) | with_reducible apply onlyIte | with_reducible apply onlyIteO | with_reducible apply onlyNext | with_reducible apply State.dispatchFirst_only | dsimp only | split

theorem execAffinityWaitExpiry_only {P : State → Prop} (cl : Closed P 0x300011840) {s : State} (h : Sat P s) (f : BitVec 12) : OnlyO P (execAffinityWaitExpiry f s) := by
  unfold execAffinityWaitExpiry
  repeat' first | with_reducible assumption | exact Closed.mono cl (by decide) | (with_reducible intro _) | with_reducible apply onlyIte | with_reducible apply onlyIteO | with_reducible apply onlyNext | with_reducible apply State.waitOver_only | dsimp only | split

theorem execActEnd_only {P : State → Prop} (cl : Closed P 0x200030000) {s : State} (h : Sat P s) (u : BitVec 6) : OnlyO P (execActEnd u s) := by
  unfold execActEnd
  repeat' first | with_reducible assumption | exact Closed.mono cl (by decide) | (with_reducible intro _) | with_reducible apply onlyIte | with_reducible apply onlyIteO | with_reducible apply onlyNext | with_reducible apply State.endService_only | dsimp only | split

theorem execMovi_only {P : State → Prop} (cl : Closed P 0x200030800) {s : State} (h : Sat P s) (u : BitVec 6) : OnlyO P (execMovi u s) := by
  unfold execMovi
  repeat' first | with_reducible assumption | exact Closed.mono cl (by decide) | (with_reducible intro _) | with_reducible apply onlyIte | with_reducible apply onlyIteO | with_reducible apply onlyNext | with_reducible apply State.immediate_only | dsimp only | split

theorem execAdd_only {P : State → Prop} (cl : Closed P 0x200030800) {s : State} (h : Sat P s) (u : BitVec 6) : OnlyO P (execAdd u s) := by
  unfold execAdd
  repeat' first | with_reducible assumption | exact Closed.mono cl (by decide) | (with_reducible intro _) | with_reducible apply onlyIte | with_reducible apply onlyIteO | with_reducible apply onlyNext | with_reducible apply State.immediate_only | dsimp only | split

theorem execLogic_only {P : State → Prop} (cl : Closed P 0x200030800) {s : State} (h : Sat P s) (u : BitVec 6) : OnlyO P (execLogic u s) := by
  unfold execLogic
  repeat' first | with_reducible assumption | exact Closed.mono cl (by decide) | (with_reducible intro _) | with_reducible apply onlyIte | with_reducible apply onlyIteO | with_reducible apply onlyNext | with_reducible apply State.immediate_only | dsimp only | split

theorem execShift_only {P : State → Prop} (cl : Closed P 0x200030800) {s : State} (h : Sat P s) (u : BitVec 6) : OnlyO P (execShift u s) := by
  unfold execShift
  repeat' first | with_reducible assumption | exact Closed.mono cl (by decide) | (with_reducible intro _) | with_reducible apply onlyIte | with_reducible apply onlyIteO | with_reducible apply onlyNext | with_reducible apply State.immediate_only | dsimp only | split

theorem execFieldNode_only {P : State → Prop} (cl : Closed P 0x200030800) {s : State} (h : Sat P s) (u : BitVec 6) : OnlyO P (execFieldNode u s) := by
  unfold execFieldNode
  repeat' first | with_reducible assumption | exact Closed.mono cl (by decide) | (with_reducible intro _) | with_reducible apply onlyIte | with_reducible apply onlyIteO | with_reducible apply onlyNext | with_reducible apply State.immediate_only | dsimp only | split

theorem execCmp_only {P : State → Prop} (cl : Closed P 0x200030800) {s : State} (h : Sat P s) (u : BitVec 6) : OnlyO P (execCmp u s) := by
  unfold execCmp
  repeat' first | with_reducible assumption | exact Closed.mono cl (by decide) | (with_reducible intro _) | with_reducible apply onlyIte | with_reducible apply onlyIteO | with_reducible apply onlyNext | with_reducible apply State.branch_only | dsimp only | split

theorem execTest_only {P : State → Prop} (cl : Closed P 0x200030800) {s : State} (h : Sat P s) (u : BitVec 6) : OnlyO P (execTest u s) := by
  unfold execTest
  repeat' first | with_reducible assumption | exact Closed.mono cl (by decide) | (with_reducible intro _) | with_reducible apply onlyIte | with_reducible apply onlyIteO | with_reducible apply onlyNext | with_reducible apply State.branch_only | dsimp only | split

theorem execHash_only {P : State → Prop} (cl : Closed P 0x200030800) {s : State} (h : Sat P s) (u : BitVec 6) : OnlyO P (execHash u s) := by
  unfold execHash
  repeat' first | with_reducible assumption | exact Closed.mono cl (by decide) | (with_reducible intro _) | with_reducible apply onlyIte | with_reducible apply onlyIteO | with_reducible apply onlyNext | with_reducible apply State.immediate_only | dsimp only | split

theorem execNow_only {P : State → Prop} (cl : Closed P 0x200030800) {s : State} (h : Sat P s) (u : BitVec 6) : OnlyO P (execNow u s) := by
  unfold execNow
  repeat' first | with_reducible assumption | exact Closed.mono cl (by decide) | (with_reducible intro _) | with_reducible apply onlyIte | with_reducible apply onlyIteO | with_reducible apply onlyNext | with_reducible apply State.immediate_only | dsimp only | split

theorem execLoad_only {P : State → Prop} (cl : Closed P 0x200030800) {s : State} (h : Sat P s) (u : BitVec 6) : OnlyO P (execLoad u s) := by
  unfold execLoad
  repeat' first | with_reducible assumption | exact Closed.mono cl (by decide) | (with_reducible intro _) | with_reducible apply onlyIte | with_reducible apply onlyIteO | with_reducible apply onlyNext | with_reducible apply State.issue_only | dsimp only | split

theorem execStore_only {P : State → Prop} (cl : Closed P 0x200030800) {s : State} (h : Sat P s) (u : BitVec 6) : OnlyO P (execStore u s) := by
  unfold execStore
  repeat' first | with_reducible assumption | exact Closed.mono cl (by decide) | (with_reducible intro _) | with_reducible apply onlyIte | with_reducible apply onlyIteO | with_reducible apply onlyNext | with_reducible apply State.issue_only | dsimp only | split

theorem execCount_only {P : State → Prop} (cl : Closed P 0x200030800) {s : State} (h : Sat P s) (u : BitVec 6) : OnlyO P (execCount u s) := by
  unfold execCount
  repeat' first | with_reducible assumption | exact Closed.mono cl (by decide) | (with_reducible intro _) | with_reducible apply onlyIte | with_reducible apply onlyIteO | with_reducible apply onlyNext | with_reducible apply State.issue_only | dsimp only | split

theorem execBuild_only {P : State → Prop} (cl : Closed P 0x200030800) {s : State} (h : Sat P s) (u : BitVec 6) : OnlyO P (execBuild u s) := by
  unfold execBuild
  repeat' first | with_reducible assumption | exact Closed.mono cl (by decide) | (with_reducible intro _) | with_reducible apply onlyIte | with_reducible apply onlyIteO | with_reducible apply onlyNext | with_reducible apply State.issue_only | dsimp only | split

theorem execPatch_only {P : State → Prop} (cl : Closed P 0x200030800) {s : State} (h : Sat P s) (u : BitVec 6) : OnlyO P (execPatch u s) := by
  unfold execPatch
  repeat' first | with_reducible assumption | exact Closed.mono cl (by decide) | (with_reducible intro _) | with_reducible apply onlyIte | with_reducible apply onlyIteO | with_reducible apply onlyNext | with_reducible apply State.framing_only | dsimp only | split

theorem execFcs_only {P : State → Prop} (cl : Closed P 0x200030800) {s : State} (h : Sat P s) (u : BitVec 6) : OnlyO P (execFcs u s) := by
  unfold execFcs
  repeat' first | with_reducible assumption | exact Closed.mono cl (by decide) | (with_reducible intro _) | with_reducible apply onlyIte | with_reducible apply onlyIteO | with_reducible apply onlyNext | with_reducible apply State.framing_only | dsimp only | split

theorem execTsreq_only {P : State → Prop} (cl : Closed P 0x200030800) {s : State} (h : Sat P s) (u : BitVec 6) : OnlyO P (execTsreq u s) := by
  unfold execTsreq
  repeat' first | with_reducible assumption | exact Closed.mono cl (by decide) | (with_reducible intro _) | with_reducible apply onlyIte | with_reducible apply onlyIteO | with_reducible apply onlyNext | with_reducible apply State.framing_only | dsimp only | split

theorem execSendp_only {P : State → Prop} (cl : Closed P 0x200030800) {s : State} (h : Sat P s) (u : BitVec 6) : OnlyO P (execSendp u s) := by
  unfold execSendp
  repeat' first | with_reducible assumption | exact Closed.mono cl (by decide) | (with_reducible intro _) | with_reducible apply onlyIte | with_reducible apply onlyIteO | with_reducible apply onlyNext | with_reducible apply State.issue_only | dsimp only | split

theorem execSendt_only {P : State → Prop} (cl : Closed P 0x200030800) {s : State} (h : Sat P s) (u : BitVec 6) : OnlyO P (execSendt u s) := by
  unfold execSendt
  repeat' first | with_reducible assumption | exact Closed.mono cl (by decide) | (with_reducible intro _) | with_reducible apply onlyIte | with_reducible apply onlyIteO | with_reducible apply onlyNext | with_reducible apply State.issue_only | dsimp only | split

theorem execPost_only {P : State → Prop} (cl : Closed P 0x200030800) {s : State} (h : Sat P s) (u : BitVec 6) : OnlyO P (execPost u s) := by
  unfold execPost
  repeat' first | with_reducible assumption | exact Closed.mono cl (by decide) | (with_reducible intro _) | with_reducible apply onlyIte | with_reducible apply onlyIteO | with_reducible apply onlyNext | with_reducible apply State.issue_only | dsimp only | split

theorem execEvent_only {P : State → Prop} (cl : Closed P 0x200030800) {s : State} (h : Sat P s) (u : BitVec 6) : OnlyO P (execEvent u s) := by
  unfold execEvent
  repeat' first | with_reducible assumption | exact Closed.mono cl (by decide) | (with_reducible intro _) | with_reducible apply onlyIte | with_reducible apply onlyIteO | with_reducible apply onlyNext | with_reducible apply State.issue_only | dsimp only | split

theorem execDelay_only {P : State → Prop} (cl : Closed P 0x200030800) {s : State} (h : Sat P s) (u : BitVec 6) : OnlyO P (execDelay u s) := by
  unfold execDelay
  repeat' first | with_reducible assumption | exact Closed.mono cl (by decide) | (with_reducible intro _) | with_reducible apply onlyIte | with_reducible apply onlyIteO | with_reducible apply onlyNext | with_reducible apply State.issue_only | dsimp only | split

theorem execCancel_only {P : State → Prop} (cl : Closed P 0x200030800) {s : State} (h : Sat P s) (u : BitVec 6) : OnlyO P (execCancel u s) := by
  unfold execCancel
  repeat' first | with_reducible assumption | exact Closed.mono cl (by decide) | (with_reducible intro _) | with_reducible apply onlyIte | with_reducible apply onlyIteO | with_reducible apply onlyNext | with_reducible apply State.issue_only | dsimp only | split

theorem execMask_only {P : State → Prop} (cl : Closed P 0x200030800) {s : State} (h : Sat P s) (u : BitVec 6) : OnlyO P (execMask u s) := by
  unfold execMask
  extract_lets +onlyGivenNames v_u
  try (have h_u : Sat P v_u := by repeat' first | with_reducible assumption | exact Closed.mono cl (by decide) | (with_reducible intro _) | with_reducible apply onlyIte | with_reducible apply onlyIteO | with_reducible apply onlyNext | with_reducible apply State.setReg_only | with_reducible apply State.goTo_only | dsimp only | split)
  repeat' first | with_reducible assumption | exact Closed.mono cl (by decide) | (with_reducible intro _) | with_reducible apply onlyIte | with_reducible apply onlyIteO | with_reducible apply onlyNext | with_reducible apply State.setReg_only | with_reducible apply State.goTo_only | dsimp only | split

theorem execClrf_only {P : State → Prop} (cl : Closed P 0x200030800) {s : State} (h : Sat P s) (u : BitVec 6) : OnlyO P (execClrf u s) := by
  unfold execClrf
  extract_lets +onlyGivenNames v_u
  try (have h_u : Sat P v_u := by repeat' first | with_reducible assumption | exact Closed.mono cl (by decide) | (with_reducible intro _) | with_reducible apply onlyIte | with_reducible apply onlyIteO | with_reducible apply onlyNext | with_reducible apply State.clearFlags_only | with_reducible apply State.goTo_only | dsimp only | split)
  repeat' first | with_reducible assumption | exact Closed.mono cl (by decide) | (with_reducible intro _) | with_reducible apply onlyIte | with_reducible apply onlyIteO | with_reducible apply onlyNext | with_reducible apply State.clearFlags_only | with_reducible apply State.goTo_only | dsimp only | split

theorem execActOpComplete_only {P : State → Prop} (cl : Closed P 0x700035C44) {s : State} (h : Sat P s) (u : BitVec 6) : OnlyO P (execActOpComplete u s) := by
  unfold execActOpComplete
  repeat' first | with_reducible assumption | exact Closed.mono cl (by decide) | (with_reducible intro _) | with_reducible apply onlyIte | with_reducible apply onlyIteO | with_reducible apply onlyNext | with_reducible apply State.opComplete_only | dsimp only | split

theorem execDelayTick_only {P : State → Prop} (cl : Closed P 0x200010000) {s : State} (h : Sat P s) (d : BitVec 2) : OnlyO P (execDelayTick d s) := by
  unfold execDelayTick
  repeat' first | with_reducible assumption | exact Closed.mono cl (by decide) | (with_reducible intro _) | with_reducible apply onlyIte | with_reducible apply onlyIteO | with_reducible apply onlyNext | with_reducible apply State.delayTick_only | dsimp only | split

theorem State.capRecord_only {P : State → Prop} (cl : Closed P 0x200) {s : State} (h : Sat P s) (n : Nat) (r : W128) : Sat P (State.capRecord s n r) := by
  unfold State.capRecord
  repeat' first | with_reducible assumption | exact Closed.mono cl (by decide) | (with_reducible intro _) | with_reducible apply onlyIte | with_reducible apply State.setCap_only | dsimp only | split

theorem State.trigEntered_only {P : State → Prop} (cl : Closed P 0x200000200) {s : State} (h : Sat P s) (n : Nat) : Sat P (State.trigEntered s n) := by
  unfold State.trigEntered
  extract_lets +onlyGivenNames v_x
  repeat' first | with_reducible assumption | exact Closed.mono cl (by decide) | (with_reducible intro _) | with_reducible apply onlyIte | with_reducible apply State.setCap_only | with_reducible apply State.fset_only | with_reducible apply State.wset_only | dsimp only | split

theorem State.capEntry_only {P : State → Prop} (cl : Closed P 0x200000200) {s : State} (h : Sat P s) (n : Nat) (e : CapEntry) : Sat P (State.capEntry s n e) := by
  unfold State.capEntry
  extract_lets +onlyGivenNames v_x
  repeat' first | with_reducible assumption | exact Closed.mono cl (by decide) | (with_reducible intro _) | with_reducible apply onlyIte | with_reducible apply State.setCap_only | with_reducible apply State.trigEntered_only | dsimp only | split

theorem State.capCycle_only {P : State → Prop} (cl : Closed P 0x200000200) {s : State} (h : Sat P s) (n : Nat) (keep : Bool) (e : Option CapEntry) : Sat P (State.capCycle s n keep e) := by
  unfold State.capCycle
  repeat' first | with_reducible assumption | exact Closed.mono cl (by decide) | (with_reducible intro _) | with_reducible apply onlyIte | with_reducible apply State.capEntry_only | with_reducible apply State.setCap_only | with_reducible apply State.count_only | dsimp only | split

theorem State.capWord_only {P : State → Prop} (cl : Closed P 0x200000200) {s : State} (h : Sat P s) (n : Nat) (w : RxWord) : Sat P (State.capWord s n w) := by
  unfold State.capWord
  repeat' first | with_reducible assumption | exact Closed.mono cl (by decide) | (with_reducible intro _) | with_reducible apply onlyIte | with_reducible refine onlyEach ?_ ?_ | with_reducible apply State.setCap_only | with_reducible apply State.capCycle_only | dsimp only | split

theorem State.armNow_only {P : State → Prop} (cl : Closed P 0x200000200) {s : State} (h : Sat P s) (n : Nat) : Sat P (State.armNow s n) := by
  unfold State.armNow
  repeat' first | with_reducible assumption | exact Closed.mono cl (by decide) | (with_reducible intro _) | with_reducible apply onlyIte | with_reducible apply State.fset_only | with_reducible apply State.setCap_only | dsimp only | split

theorem State.capArm_only {P : State → Prop} (cl : Closed P 0x200000200) {s : State} (h : Sat P s) (n : Nat) : Sat P (State.capArm s n) := by
  unfold State.capArm
  extract_lets +onlyGivenNames v_st
  repeat' first | with_reducible assumption | exact Closed.mono cl (by decide) | (with_reducible intro _) | with_reducible apply onlyIte | with_reducible apply State.armNow_only | with_reducible apply State.fset_only | dsimp only | split

theorem State.armCommand_only {P : State → Prop} (cl : Closed P 0x200004200) {s : State} (h : Sat P s) (n : Nat) : Sat P (State.armCommand s n) := by
  unfold State.armCommand
  repeat' first | with_reducible assumption | exact Closed.mono cl (by decide) | (with_reducible intro _) | with_reducible apply onlyIte | with_reducible apply State.capArm_only | with_reducible apply State.meet_only | dsimp only | split

theorem State.capTrig_only {P : State → Prop} (cl : Closed P 0x200) {s : State} (h : Sat P s) (n : Nat) : Sat P (State.capTrig s n) := by
  unfold State.capTrig
  repeat' first | with_reducible assumption | exact Closed.mono cl (by decide) | (with_reducible intro _) | with_reducible apply onlyIte | with_reducible apply State.setCap_only | dsimp only | split

theorem State.setComplete_only {P : State → Prop} (cl : Closed P 0x4000) {s : State} (h : Sat P s) (n : Nat) : Sat P (State.setComplete s n) := by
  unfold State.setComplete
  extract_lets +onlyGivenNames v_k
  repeat' first | with_reducible assumption | exact Closed.mono cl (by decide) | (with_reducible intro _) | with_reducible apply onlyIte | with_reducible apply State.pulse_only | dsimp only | split

theorem State.capFinish_only {P : State → Prop} (cl : Closed P 0x200004200) {s : State} (h : Sat P s) (n : Nat) : Sat P (State.capFinish s n) := by
  unfold State.capFinish
  extract_lets +onlyGivenNames v_s1
  try (have h_s1 : Sat P v_s1 := by repeat' first | with_reducible assumption | exact Closed.mono cl (by decide) | (with_reducible intro _) | with_reducible apply onlyIte | with_reducible apply State.setCap_only | with_reducible apply State.fset_only | with_reducible apply State.setComplete_only | with_reducible apply State.armNow_only | dsimp only | split)
  repeat' first | with_reducible assumption | exact Closed.mono cl (by decide) | (with_reducible intro _) | with_reducible apply onlyIte | with_reducible apply State.setCap_only | with_reducible apply State.fset_only | with_reducible apply State.setComplete_only | with_reducible apply State.armNow_only | dsimp only | split

theorem State.capStop_only {P : State → Prop} (cl : Closed P 0x200004200) {s : State} (h : Sat P s) (n : Nat) : Sat P (State.capStop s n) := by
  unfold State.capStop
  extract_lets +onlyGivenNames v_st
  repeat' first | with_reducible assumption | exact Closed.mono cl (by decide) | (with_reducible intro _) | with_reducible apply onlyIte | with_reducible apply State.setCap_only | with_reducible apply State.fset_only | with_reducible apply State.capFinish_only | dsimp only | split

theorem State.stopCommand_only {P : State → Prop} (cl : Closed P 0x200004200) {s : State} (h : Sat P s) (n : Nat) : Sat P (State.stopCommand s n) := by
  unfold State.stopCommand
  repeat' first | with_reducible assumption | exact Closed.mono cl (by decide) | (with_reducible intro _) | with_reducible apply onlyIte | with_reducible apply State.capStop_only | with_reducible apply State.meet_only | dsimp only | split

theorem State.capCommand_only {P : State → Prop} (cl : Closed P 0x200004200) {s : State} (h : Sat P s) (n : Nat) (arm trig stop : Bool) : Sat P (State.capCommand s n arm trig stop) := by
  unfold State.capCommand
  extract_lets +onlyGivenNames v_st
  repeat' first | with_reducible assumption | exact Closed.mono cl (by decide) | (with_reducible intro _) | with_reducible apply onlyIte | with_reducible apply State.stopCommand_only | with_reducible apply State.armCommand_only | with_reducible apply State.capTrig_only | dsimp only | split

theorem State.capEndOverflow_only {P : State → Prop} (cl : Closed P 0x200004A00) {s : State} (h : Sat P s) (n : Nat) : Sat P (State.capEndOverflow s n) := by
  unfold State.capEndOverflow
  repeat' first | with_reducible assumption | exact Closed.mono cl (by decide) | (with_reducible intro _) | with_reducible apply onlyIte | with_reducible apply State.setCap_only | with_reducible apply State.fset_only | with_reducible apply State.setComplete_only | with_reducible apply State.raiseAt_only | dsimp only | split

theorem State.capWrite_only {P : State → Prop} (cl : Closed P 0x600004A00) {s : State} (h : Sat P s) (n : Nat) : Sat P (State.capWrite s n) := by
  unfold State.capWrite
  repeat' first | with_reducible assumption | exact Closed.mono cl (by decide) | (with_reducible intro _) | with_reducible apply onlyIte | with_reducible apply State.wrBytes_only | with_reducible apply State.memRefused_only | with_reducible apply State.fset_only | with_reducible apply State.countWrap_only | with_reducible apply State.count_only | with_reducible apply State.setCap_only | with_reducible apply State.capFinish_only | with_reducible apply State.capEndOverflow_only | dsimp only | split

theorem State.markChannel_only {P : State → Prop} (cl : Closed P 0x200) {s : State} (h : Sat P s) (n t : Nat) (step gapStart gapEnd : Bool) : Sat P (State.markChannel s n t step gapStart gapEnd) := by
  unfold State.markChannel
  repeat' first | with_reducible assumption | exact Closed.mono cl (by decide) | (with_reducible intro _) | with_reducible apply onlyIte | with_reducible apply State.setCap_only | dsimp only | split

theorem State.markAll_only {P : State → Prop} (cl : Closed P 0x200) {s : State} (h : Sat P s) (t : Nat) (step gapStart gapEnd : Bool) : Sat P (State.markAll s t step gapStart gapEnd) := by
  unfold State.markAll
  repeat' first | with_reducible assumption | exact Closed.mono cl (by decide) | (with_reducible intro _) | with_reducible apply onlyIte | with_reducible refine onlyEach ?_ ?_ | with_reducible apply State.markChannel_only | dsimp only | split

theorem State.writeMarks_only {P : State → Prop} (cl : Closed P 0x2200) {s : State} (h : Sat P s)  : Sat P (State.writeMarks s) := by
  unfold State.writeMarks
  extract_lets +onlyGivenNames v_last v_s1
  try (have h_s1 : Sat P v_s1 := by repeat' first | with_reducible assumption | exact Closed.mono cl (by decide) | (with_reducible intro _) | with_reducible apply onlyIte | with_reducible refine onlyEach ?_ ?_ | with_reducible apply State.markAll_only | (fail_if_no_progress with_reducible apply upd_time (Closed.mono cl (by decide))) | dsimp only | split)
  repeat' first | with_reducible assumption | exact Closed.mono cl (by decide) | (with_reducible intro _) | with_reducible apply onlyIte | with_reducible refine onlyEach ?_ ?_ | with_reducible apply State.markAll_only | (fail_if_no_progress with_reducible apply upd_time (Closed.mono cl (by decide))) | dsimp only | split

theorem State.timeMarks_only {P : State → Prop} (cl : Closed P 0x2200) {s : State} (h : Sat P s)  : Sat P (State.timeMarks s) := by
  unfold State.timeMarks
  repeat' first | with_reducible assumption | exact Closed.mono cl (by decide) | (with_reducible intro _) | with_reducible apply onlyIte | with_reducible apply State.writeMarks_only | (fail_if_no_progress with_reducible apply upd_time (Closed.mono cl (by decide))) | dsimp only | split

theorem execCapArm_only {P : State → Prop} (cl : Closed P 0x302105240) {s : State} (h : Sat P s) (set : Bool) (n : BitVec 10) : OnlyO P (execCapArm set n s) := by
  unfold execCapArm
  repeat' first | with_reducible assumption | exact Closed.mono cl (by decide) | (with_reducible intro _) | with_reducible apply onlyIte | with_reducible apply onlyIteO | with_reducible apply onlyNext | with_reducible refine onlyEach ?_ ?_ | with_reducible apply State.hostCmd_only | with_reducible apply State.watch_only | with_reducible apply State.armCommand_only | dsimp only | split

theorem execCapTrig_only {P : State → Prop} (cl : Closed P 0x302101240) {s : State} (h : Sat P s) (set : Bool) (n : BitVec 10) : OnlyO P (execCapTrig set n s) := by
  unfold execCapTrig
  repeat' first | with_reducible assumption | exact Closed.mono cl (by decide) | (with_reducible intro _) | with_reducible apply onlyIte | with_reducible apply onlyIteO | with_reducible apply onlyNext | with_reducible refine onlyEach ?_ ?_ | with_reducible apply State.hostCmd_only | with_reducible apply State.capTrig_only | dsimp only | split

theorem execCapStop_only {P : State → Prop} (cl : Closed P 0x302105240) {s : State} (h : Sat P s) (set : Bool) (n : BitVec 10) : OnlyO P (execCapStop set n s) := by
  unfold execCapStop
  repeat' first | with_reducible assumption | exact Closed.mono cl (by decide) | (with_reducible intro _) | with_reducible apply onlyIte | with_reducible apply onlyIteO | with_reducible apply onlyNext | with_reducible refine onlyEach ?_ ?_ | with_reducible apply State.hostCmd_only | with_reducible apply State.watch_only | with_reducible apply State.stopCommand_only | dsimp only | split

theorem execCapBlockClose_only {P : State → Prop} (cl : Closed P 0x200) {s : State} (h : Sat P s) (n : BitVec 10) (why : CloseReason) : OnlyO P (execCapBlockClose n why s) := by
  unfold execCapBlockClose
  repeat' first | with_reducible assumption | exact Closed.mono cl (by decide) | (with_reducible intro _) | with_reducible apply onlyIte | with_reducible apply onlyIteO | with_reducible apply onlyNext | with_reducible apply State.setCap_only | dsimp only | split

theorem execCapBlockWrite_only {P : State → Prop} (cl : Closed P 0x600004A00) {s : State} (h : Sat P s) (n : BitVec 10) : OnlyO P (execCapBlockWrite n s) := by
  unfold execCapBlockWrite
  repeat' first | with_reducible assumption | exact Closed.mono cl (by decide) | (with_reducible intro _) | with_reducible apply onlyIte | with_reducible apply onlyIteO | with_reducible apply onlyNext | with_reducible apply State.watch_only | with_reducible apply State.capWrite_only | dsimp only | split

theorem execTimeMark_only {P : State → Prop} (cl : Closed P 0x2200) {s : State} (h : Sat P s)  : OnlyO P (execTimeMark s) := by
  unfold execTimeMark
  repeat' first | with_reducible assumption | exact Closed.mono cl (by decide) | (with_reducible intro _) | with_reducible apply onlyIte | with_reducible apply onlyIteO | with_reducible apply onlyNext | with_reducible apply State.timeMarks_only | dsimp only | split

theorem State.startSegment_only {P : State → Prop} (cl : Closed P 0x200000C00) {s : State} (h : Sat P s) (n i : Nat) : Sat P (State.startSegment s n i) := by
  unfold State.startSegment
  extract_lets +onlyGivenNames v_x v_got
  clear_value v_got
  repeat' first | with_reducible assumption | exact Closed.mono cl (by decide) | (with_reducible intro _) | with_reducible apply onlyIte | with_reducible apply State.setPat_only | with_reducible apply State.fset_only | with_reducible apply State.raiseAt_only | dsimp only | split

theorem State.segmentEnd_only {P : State → Prop} (cl : Closed P 0x200000C00) {s : State} (h : Sat P s) (n : Nat) : Sat P (State.segmentEnd s n) := by
  unfold State.segmentEnd
  repeat' first | with_reducible assumption | exact Closed.mono cl (by decide) | (with_reducible intro _) | with_reducible apply onlyIte | with_reducible apply State.setPat_only | with_reducible apply State.fset_only | with_reducible apply State.startSegment_only | dsimp only | split

theorem State.blockPlayed_only {P : State → Prop} (cl : Closed P 0x200000400) {s : State} (h : Sat P s) (n : Nat) : Sat P (State.blockPlayed s n) := by
  unfold State.blockPlayed
  extract_lets +onlyGivenNames v_x
  repeat' first | with_reducible assumption | exact Closed.mono cl (by decide) | (with_reducible intro _) | with_reducible apply onlyIte | with_reducible apply State.setPat_only | with_reducible apply State.fset_only | dsimp only | split

theorem State.sourceWord_only {P : State → Prop} (cl : Closed P 0x400) {s : State} (h : Sat P s) (n : Nat) (fabric : TxWord) : Sat P (State.sourceWord s n fabric).1 := by
  unfold State.sourceWord
  extract_lets +onlyGivenNames v_x
  repeat' first | with_reducible assumption | exact Closed.mono cl (by decide) | (with_reducible intro _) | with_reducible apply onlyIte | with_reducible apply onlyIteFst | with_reducible apply State.setPat_only | dsimp only | split

theorem State.blockReads_only {P : State → Prop} (cl : Closed P 0x300001040) {s : State} (h : Sat P s) (n : Nat) : Sat P (State.blockReads s n) := by
  unfold State.blockReads
  extract_lets +onlyGivenNames v_x
  repeat' first | with_reducible assumption | exact Closed.mono cl (by decide) | (with_reducible intro _) | with_reducible apply onlyIte | with_reducible apply State.readLines_only | dsimp only | split

theorem State.patWord_only {P : State → Prop} (cl : Closed P 0x300001C40) {s : State} (h : Sat P s) (n : Nat) (fabric : TxWord) : Sat P (State.patWord s n fabric).1 := by
  unfold State.patWord
  repeat' first | with_reducible assumption | exact Closed.mono cl (by decide) | (with_reducible intro _) | with_reducible apply onlyIte | with_reducible apply onlyIteFst | with_reducible apply State.segmentEnd_only | with_reducible apply State.blockReads_only | with_reducible apply State.sourceWord_only | with_reducible apply State.setPat_only | with_reducible apply State.wset_only | with_reducible apply State.blockPlayed_only | dsimp only | split

theorem State.patRequest_only {P : State → Prop} (cl : Closed P 0x200000400) {s : State} (h : Sat P s) (n src desc : Nat) : Sat P (State.patRequest s n src desc) := by
  unfold State.patRequest
  repeat' first | with_reducible assumption | exact Closed.mono cl (by decide) | (with_reducible intro _) | with_reducible apply onlyIte | with_reducible apply State.setPat_only | with_reducible apply State.fset_only | dsimp only | split

theorem State.patOp_only {P : State → Prop} (cl : Closed P 0x200000400) {s : State} (h : Sat P s) (n op : Nat) : Sat P (State.patOp s n op) := by
  unfold State.patOp
  repeat' first | with_reducible assumption | exact Closed.mono cl (by decide) | (with_reducible intro _) | with_reducible apply onlyIte | with_reducible apply State.patRequest_only | dsimp only | split

theorem State.patWritten_only {P : State → Prop} (cl : Closed P 0x200004000) {s : State} (h : Sat P s) (n : Nat) : Sat P (State.patWritten s n) := by
  unfold State.patWritten
  repeat' first | with_reducible assumption | exact Closed.mono cl (by decide) | (with_reducible intro _) | with_reducible apply onlyIte | with_reducible apply State.fset_only | with_reducible apply State.meet_only | dsimp only | split

theorem State.patSource_only {P : State → Prop} (cl : Closed P 0x200004400) {s : State} (h : Sat P s) (n v : Nat) : Sat P (State.patSource s n v) := by
  unfold State.patSource
  repeat' first | with_reducible assumption | exact Closed.mono cl (by decide) | (with_reducible intro _) | with_reducible apply onlyIte | with_reducible apply State.fset_only | with_reducible apply State.patRequest_only | with_reducible apply State.patWritten_only | dsimp only | split

theorem State.patGo_only {P : State → Prop} (cl : Closed P 0x200004400) {s : State} (h : Sat P s) (n : Nat) : Sat P (State.patGo s n) := by
  unfold State.patGo
  repeat' first | with_reducible assumption | exact Closed.mono cl (by decide) | (with_reducible intro _) | with_reducible apply onlyIte | with_reducible apply State.patOp_only | with_reducible apply State.patWritten_only | dsimp only | split

theorem State.patSwitch_only {P : State → Prop} (cl : Closed P 0x200000C00) {s : State} (h : Sat P s) (n : Nat) : Sat P (State.patSwitch s n) := by
  unfold State.patSwitch
  extract_lets +onlyGivenNames v_x
  repeat' first | with_reducible assumption | exact Closed.mono cl (by decide) | (with_reducible intro _) | with_reducible apply onlyIte | with_reducible apply State.setPat_only | with_reducible apply State.fset_only | with_reducible apply State.startSegment_only | dsimp only | split

theorem State.patStart_only {P : State → Prop} (cl : Closed P 0x200000400) {s : State} (h : Sat P s) (n : Nat) : Sat P (State.patStart s n) := by
  unfold State.patStart
  repeat' first | with_reducible assumption | exact Closed.mono cl (by decide) | (with_reducible intro _) | with_reducible apply onlyIte | with_reducible apply State.setPat_only | with_reducible apply State.fset_only | with_reducible apply State.wset_only | dsimp only | split

theorem State.patEnable_only {P : State → Prop} (cl : Closed P 0x200000400) {s : State} (h : Sat P s) (n : Nat) : Sat P (State.patEnable s n) := by
  unfold State.patEnable
  repeat' first | with_reducible assumption | exact Closed.mono cl (by decide) | (with_reducible intro _) | with_reducible apply onlyIte | with_reducible apply State.fset_only | with_reducible apply State.patStart_only | dsimp only | split

theorem State.patDisable_only {P : State → Prop} (cl : Closed P 0x200000000) {s : State} (h : Sat P s) (n : Nat) : Sat P (State.patDisable s n) := by
  unfold State.patDisable
  extract_lets +onlyGivenNames v_s1
  try (have h_s1 : Sat P v_s1 := by repeat' first | with_reducible assumption | exact Closed.mono cl (by decide) | (with_reducible intro _) | with_reducible apply onlyIte | with_reducible apply State.fset_only | dsimp only | split)
  repeat' first | with_reducible assumption | exact Closed.mono cl (by decide) | (with_reducible intro _) | with_reducible apply onlyIte | with_reducible apply State.fset_only | dsimp only | split

theorem State.patShutdownDone_only {P : State → Prop} (cl : Closed P 0x200000400) {s : State} (h : Sat P s) (n : Nat) : Sat P (State.patShutdownDone s n) := by
  unfold State.patShutdownDone
  repeat' first | with_reducible assumption | exact Closed.mono cl (by decide) | (with_reducible intro _) | with_reducible apply onlyIte | with_reducible apply State.setPat_only | with_reducible apply State.fset_only | with_reducible apply State.patStart_only | dsimp only | split

theorem execPatEnable_only {P : State → Prop} (cl : Closed P 0x302101440) {s : State} (h : Sat P s) (n : BitVec 10) : OnlyO P (execPatEnable n s) := by
  unfold execPatEnable
  repeat' first | with_reducible assumption | exact Closed.mono cl (by decide) | (with_reducible intro _) | with_reducible apply onlyIte | with_reducible apply onlyIteO | with_reducible apply onlyNext | with_reducible apply State.hostCmd_only | with_reducible apply State.patEnable_only | dsimp only | split

theorem execPatDisable_only {P : State → Prop} (cl : Closed P 0x302101040) {s : State} (h : Sat P s) (n : BitVec 10) : OnlyO P (execPatDisable n s) := by
  unfold execPatDisable
  repeat' first | with_reducible assumption | exact Closed.mono cl (by decide) | (with_reducible intro _) | with_reducible apply onlyIte | with_reducible apply onlyIteO | with_reducible apply onlyNext | with_reducible apply State.hostCmd_only | with_reducible apply State.patDisable_only | dsimp only | split

theorem execPatShutdownDone_only {P : State → Prop} (cl : Closed P 0x200000400) {s : State} (h : Sat P s) (n : BitVec 10) : OnlyO P (execPatShutdownDone n s) := by
  unfold execPatShutdownDone
  repeat' first | with_reducible assumption | exact Closed.mono cl (by decide) | (with_reducible intro _) | with_reducible apply onlyIte | with_reducible apply onlyIteO | with_reducible apply onlyNext | with_reducible apply State.patShutdownDone_only | dsimp only | split

theorem execPatSrc_only {P : State → Prop} (cl : Closed P 0x302105440) {s : State} (h : Sat P s) (n : BitVec 10) (v : BitVec 2) : OnlyO P (execPatSrc n v s) := by
  unfold execPatSrc
  repeat' first | with_reducible assumption | exact Closed.mono cl (by decide) | (with_reducible intro _) | with_reducible apply onlyIte | with_reducible apply onlyIteO | with_reducible apply onlyNext | with_reducible apply State.hostCmd_only | with_reducible apply State.patSource_only | dsimp only | split

theorem execPatGo_only {P : State → Prop} (cl : Closed P 0x302105440) {s : State} (h : Sat P s) (n : BitVec 10) : OnlyO P (execPatGo n s) := by
  unfold execPatGo
  repeat' first | with_reducible assumption | exact Closed.mono cl (by decide) | (with_reducible intro _) | with_reducible apply onlyIte | with_reducible apply onlyIteO | with_reducible apply onlyNext | with_reducible apply State.hostCmd_only | with_reducible apply State.patGo_only | dsimp only | split

theorem execPatSourceSwitch_only {P : State → Prop} (cl : Closed P 0x200000C00) {s : State} (h : Sat P s) (n : BitVec 10) : OnlyO P (execPatSourceSwitch n s) := by
  unfold execPatSourceSwitch
  repeat' first | with_reducible assumption | exact Closed.mono cl (by decide) | (with_reducible intro _) | with_reducible apply onlyIte | with_reducible apply onlyIteO | with_reducible apply onlyNext | with_reducible apply State.patSwitch_only | dsimp only | split

theorem execPatDescFetch_only {P : State → Prop} (cl : Closed P 0x300001C40) {s : State} (h : Sat P s) (n : BitVec 10) : OnlyO P (execPatDescFetch n s) := by
  unfold execPatDescFetch
  extract_lets +onlyGivenNames v_n v_x v_want
  clear_value v_want
  repeat' first | with_reducible assumption | exact Closed.mono cl (by decide) | (with_reducible intro _) | with_reducible apply onlyIte | with_reducible apply onlyIteO | with_reducible apply onlyNext | with_reducible apply State.readLines_only | with_reducible apply State.memRefused_only | with_reducible apply State.setPat_only | dsimp only | split

theorem execPatSegmentEnd_only {P : State → Prop} (cl : Closed P 0x200000C00) {s : State} (h : Sat P s) (n : BitVec 10) : OnlyO P (execPatSegmentEnd n s) := by
  unfold execPatSegmentEnd
  repeat' first | with_reducible assumption | exact Closed.mono cl (by decide) | (with_reducible intro _) | with_reducible apply onlyIte | with_reducible apply onlyIteO | with_reducible apply onlyNext | with_reducible apply State.segmentEnd_only | dsimp only | split

theorem execPatUnderrun_only {P : State → Prop} (cl : Closed P 0x200000C00) {s : State} (h : Sat P s) (n : BitVec 10) : OnlyO P (execPatUnderrun n s) := by
  unfold execPatUnderrun
  extract_lets +onlyGivenNames v_n v_x
  repeat' first | with_reducible assumption | exact Closed.mono cl (by decide) | (with_reducible intro _) | with_reducible apply onlyIte | with_reducible apply onlyIteO | with_reducible apply onlyNext | with_reducible apply State.setPat_only | with_reducible apply State.fset_only | with_reducible apply State.count_only | with_reducible apply State.raiseAt_only | dsimp only | split

theorem State.aggregate_only {P : State → Prop} (cl : Closed P 0x4000) {s : State} (h : Sat P s) (n cond : Nat) : Sat P (State.aggregate s n cond) := by
  unfold State.aggregate
  repeat' first | with_reducible assumption | exact Closed.mono cl (by decide) | (with_reducible intro _) | with_reducible apply onlyIte | with_reducible refine onlyEach ?_ ?_ | with_reducible apply State.pulse_only | dsimp only | split

theorem State.prbsWord_only {P : State → Prop} (cl : Closed P 0x200000100) {s : State} (h : Sat P s) (n : Nat) (bits : BitVec 80) : Sat P (State.prbsWord s n bits) := by
  unfold State.prbsWord
  extract_lets +onlyGivenNames v_taps v_locked
  repeat' first | with_reducible assumption | exact Closed.mono cl (by decide) | (with_reducible intro _) | with_reducible apply onlyIte | with_reducible apply State.setLane_only | with_reducible apply State.wset_only | with_reducible apply State.count_only | dsimp only | split

theorem State.chkLock_only {P : State → Prop} (cl : Closed P 0x200000100) {s : State} (h : Sat P s) (n : Nat) (locked : Bool) : Sat P (State.chkLock s n locked) := by
  unfold State.chkLock
  repeat' first | with_reducible assumption | exact Closed.mono cl (by decide) | (with_reducible intro _) | with_reducible apply onlyIte | with_reducible apply State.setLane_only | with_reducible apply State.setBit_only | dsimp only | split

theorem State.gridAt_only {P : State → Prop} (cl : Closed P 0x200000004) {s : State} (h : Sat P s) (t0 : Nat) : Sat P (State.gridAt s t0) := by
  unfold State.gridAt
  extract_lets +onlyGivenNames v_s1
  try (have h_s1 : Sat P v_s1 := by repeat' first | with_reducible assumption | exact Closed.mono cl (by decide) | (with_reducible intro _) | with_reducible apply onlyIte | with_reducible apply State.wset_only | (fail_if_no_progress with_reducible apply upd_core (Closed.mono cl (by decide))) | dsimp only | split)
  repeat' first | with_reducible assumption | exact Closed.mono cl (by decide) | (with_reducible intro _) | with_reducible apply onlyIte | with_reducible apply State.wset_only | (fail_if_no_progress with_reducible apply upd_core (Closed.mono cl (by decide))) | dsimp only | split

theorem State.placeT0_only {P : State → Prop} (cl : Closed P 0x200020004) {s : State} (h : Sat P s) (t0 : Nat) : Sat P (State.placeT0 s t0) := by
  unfold State.placeT0
  extract_lets +onlyGivenNames v_old v_s1
  try (have h_s1 : Sat P v_s1 := by repeat' first | with_reducible assumption | exact Closed.mono cl (by decide) | (with_reducible intro _) | with_reducible apply onlyIte | with_reducible apply State.gridAt_only | with_reducible apply State.fset_only | with_reducible apply State.rebin_only | (fail_if_no_progress with_reducible apply upd_splice (Closed.mono cl (by decide))) | dsimp only | split)
  repeat' first | with_reducible assumption | exact Closed.mono cl (by decide) | (with_reducible intro _) | with_reducible apply onlyIte | with_reducible apply State.gridAt_only | with_reducible apply State.fset_only | with_reducible apply State.rebin_only | (fail_if_no_progress with_reducible apply upd_splice (Closed.mono cl (by decide))) | dsimp only | split

theorem State.anchorRate_only {P : State → Prop} (cl : Closed P 0x200000004) {s : State} (h : Sat P s)  : Sat P (State.anchorRate s) := by
  unfold State.anchorRate
  extract_lets +onlyGivenNames v_n v_dt v_words
  repeat' first | with_reducible assumption | exact Closed.mono cl (by decide) | (with_reducible intro _) | with_reducible apply onlyIte | with_reducible apply State.setBit_only | with_reducible apply State.fset_only | (fail_if_no_progress with_reducible apply upd_core (Closed.mono cl (by decide))) | dsimp only | split

theorem State.anchorWord_only {P : State → Prop} (cl : Closed P 0x200020004) {s : State} (h : Sat P s)  : Sat P (State.anchorWord s) := by
  unfold State.anchorWord
  extract_lets +onlyGivenNames v_c v_s1
  try (have h_s1 : Sat P v_s1 := by repeat' first | with_reducible assumption | exact Closed.mono cl (by decide) | (with_reducible intro _) | with_reducible apply onlyIte | with_reducible apply State.anchorRate_only | with_reducible apply State.placeT0_only | (fail_if_no_progress with_reducible apply upd_core (Closed.mono cl (by decide))) | dsimp only | split)
  repeat' first | with_reducible assumption | exact Closed.mono cl (by decide) | (with_reducible intro _) | with_reducible apply onlyIte | with_reducible apply State.anchorRate_only | with_reducible apply State.placeT0_only | (fail_if_no_progress with_reducible apply upd_core (Closed.mono cl (by decide))) | dsimp only | split

theorem State.anchorLocked_only {P : State → Prop} (cl : Closed P 0x200020004) {s : State} (h : Sat P s)  : Sat P (State.anchorLocked s) := by
  unfold State.anchorLocked
  extract_lets +onlyGivenNames v_s1
  try (have h_s1 : Sat P v_s1 := by repeat' first | with_reducible assumption | exact Closed.mono cl (by decide) | (with_reducible intro _) | with_reducible apply onlyIte | with_reducible apply State.fset_only | (fail_if_no_progress with_reducible apply upd_core (Closed.mono cl (by decide))) | (fail_if_no_progress with_reducible apply upd_core_splice (Closed.mono cl (by decide))) | dsimp only | split)
  repeat' first | with_reducible assumption | exact Closed.mono cl (by decide) | (with_reducible intro _) | with_reducible apply onlyIte | with_reducible apply State.fset_only | (fail_if_no_progress with_reducible apply upd_core (Closed.mono cl (by decide))) | (fail_if_no_progress with_reducible apply upd_core_splice (Closed.mono cl (by decide))) | dsimp only | split

theorem State.flywheel_only {P : State → Prop} (cl : Closed P 0x200000804) {s : State} (h : Sat P s) (tell : Bool) : Sat P (State.flywheel s tell) := by
  unfold State.flywheel
  extract_lets +onlyGivenNames v_told
  repeat' first | with_reducible assumption | exact Closed.mono cl (by decide) | (with_reducible intro _) | with_reducible apply onlyIte | with_reducible apply State.raiseAt_only | with_reducible apply State.fset_only | with_reducible apply State.gridAt_only | (fail_if_no_progress with_reducible apply upd_core (Closed.mono cl (by decide))) | dsimp only | split

theorem State.loseAnchor_only {P : State → Prop} (cl : Closed P 0x200000804) {s : State} (h : Sat P s)  : Sat P (State.loseAnchor s) := by
  unfold State.loseAnchor
  repeat' first | with_reducible assumption | exact Closed.mono cl (by decide) | (with_reducible intro _) | with_reducible apply onlyIte | with_reducible apply State.flywheel_only | dsimp only | split

theorem State.codeword_only {P : State → Prop} (cl : Closed P 0x200000000) {s : State} (h : Sat P s) (n : Nat) (w : RxWord) : Sat P (State.codeword s n w) := by
  unfold State.codeword
  extract_lets +onlyGivenNames v_first
  repeat' first | with_reducible assumption | exact Closed.mono cl (by decide) | (with_reducible intro _) | with_reducible apply onlyIte | with_reducible apply State.wset_only | with_reducible apply State.count_only | dsimp only | split

theorem State.latencyTerms_only {P : State → Prop} (cl : Closed P 0x200000100) {s : State} (h : Sat P s) (n : Nat) (w : RxWord) : Sat P (State.latencyTerms s n w) := by
  unfold State.latencyTerms
  extract_lets +onlyGivenNames v_x
  repeat' first | with_reducible assumption | exact Closed.mono cl (by decide) | (with_reducible intro _) | with_reducible apply onlyIte | with_reducible apply State.setLane_only | with_reducible apply State.fset_only | dsimp only | split

theorem State.loopedWord_only {P : State → Prop} (cl : Closed P 0x100000000) {s : State} (h : Sat P s) (n : Nat) (w : RxWord) : Sat P (State.loopedWord s n w).1 := by
  unfold State.loopedWord
  repeat' first | with_reducible assumption | exact Closed.mono cl (by decide) | (with_reducible intro _) | with_reducible apply onlyIte | with_reducible apply onlyIteFst | with_reducible apply State.drawn_only | dsimp only | split

theorem State.feMark_only {P : State → Prop} (cl : Closed P 0x200000000) {s : State} (h : Sat P s) (n : Nat) (slipped : Bool) : Sat P (State.feMark s n slipped) := by
  unfold State.feMark
  repeat' first | with_reducible assumption | exact Closed.mono cl (by decide) | (with_reducible intro _) | with_reducible apply onlyIte | with_reducible apply State.fset_only | dsimp only | split

theorem State.feTake_only {P : State → Prop} (cl : Closed P 0x200000100) {s : State} (h : Sat P s) (n : Nat) (w : RxWord) : Sat P (State.feTake s n w) := by
  unfold State.feTake
  repeat' first | with_reducible assumption | exact Closed.mono cl (by decide) | (with_reducible intro _) | with_reducible apply onlyIte | with_reducible apply State.setLane_only | with_reducible apply State.feMark_only | dsimp only | split

theorem State.countBits_only {P : State → Prop} (cl : Closed P 0x100) {s : State} (h : Sat P s) (n : Nat) : Sat P (State.countBits s n) := by
  unfold State.countBits
  extract_lets +onlyGivenNames v_x v_c v_u
  try (have h_u : Sat P v_u := by repeat' first | with_reducible assumption | exact Closed.mono cl (by decide) | (with_reducible intro _) | with_reducible apply onlyIte | with_reducible apply State.setLane_only | dsimp only | split)
  repeat' first | with_reducible assumption | exact Closed.mono cl (by decide) | (with_reducible intro _) | with_reducible apply onlyIte | with_reducible apply State.setLane_only | dsimp only | split

theorem State.wordConditions_only {P : State → Prop} (cl : Closed P 0x4000) {s : State} (h : Sat P s) (n : Nat) (w : RxWord) : Sat P (State.wordConditions s n w) := by
  unfold State.wordConditions
  extract_lets +onlyGivenNames v_s1 v_s2 v_s3
  try (have h_s1 : Sat P v_s1 := by repeat' first | with_reducible assumption | exact Closed.mono cl (by decide) | (with_reducible intro _) | with_reducible apply onlyIte | with_reducible apply State.aggregate_only | dsimp only | split)
  try (have h_s2 : Sat P v_s2 := by repeat' first | with_reducible assumption | exact Closed.mono cl (by decide) | (with_reducible intro _) | with_reducible apply onlyIte | with_reducible apply State.aggregate_only | dsimp only | split)
  try (have h_s3 : Sat P v_s3 := by repeat' first | with_reducible assumption | exact Closed.mono cl (by decide) | (with_reducible intro _) | with_reducible apply onlyIte | with_reducible apply State.aggregate_only | dsimp only | split)
  repeat' first | with_reducible assumption | exact Closed.mono cl (by decide) | (with_reducible intro _) | with_reducible apply onlyIte | with_reducible apply State.aggregate_only | dsimp only | split

theorem State.rxWord_only {P : State → Prop} (cl : Closed P 0x300026304) {s : State} (h : Sat P s) (n : Nat) (w0 : RxWord) : Sat P (State.rxWord s n w0) := by
  unfold State.rxWord
  repeat' first | with_reducible assumption | exact Closed.mono cl (by decide) | (with_reducible intro _) | with_reducible apply onlyIte | with_reducible apply State.writeMarks_only | with_reducible apply State.loopedWord_only | with_reducible apply State.setLane_only | with_reducible apply State.latencyTerms_only | with_reducible apply State.countBits_only | with_reducible apply State.count_only | with_reducible apply State.wordConditions_only | with_reducible apply State.codeword_only | with_reducible apply State.prbsWord_only | with_reducible apply State.feTake_only | with_reducible apply State.capWord_only | with_reducible apply State.anchorWord_only | dsimp only | split

theorem State.wakeBits_only {P : State → Prop} (cl : Closed P 0x2000000) {s : State} (h : Sat P s) (n : Nat) (w : RxWord) : Sat P (State.wakeBits s n w) := by
  unfold State.wakeBits
  repeat' first | with_reducible assumption | exact Closed.mono cl (by decide) | (with_reducible intro _) | with_reducible apply onlyIte | with_reducible refine onlyFoldl ?_ ?_ | (fail_if_no_progress with_reducible apply upd_power (Closed.mono cl (by decide))) | dsimp only | split

theorem execLaneRxWord_only {P : State → Prop} (cl : Closed P 0x302026304) {s : State} (h : Sat P s) (lane : LaneId) (w : RxWord) : OnlyO P (execLaneRxWord lane w s) := by
  unfold execLaneRxWord
  repeat' first | with_reducible assumption | exact Closed.mono cl (by decide) | (with_reducible intro _) | with_reducible apply onlyIte | with_reducible apply onlyIteO | with_reducible apply onlyNext | with_reducible apply State.rxWord_only | with_reducible apply State.wakeBits_only | dsimp only | split

theorem State.stampWord_only {P : State → Prop} (cl : Closed P 0x300002000) {s : State} (h : Sat P s) (n : Nat) (w : TxWord) : Sat P (State.stampWord s n w) := by
  unfold State.stampWord
  repeat' first | with_reducible assumption | exact Closed.mono cl (by decide) | (with_reducible intro _) | with_reducible apply onlyIte | with_reducible apply State.drawn_only | with_reducible apply State.txqPush_only | dsimp only | split

theorem State.emit_only {P : State → Prop} (cl : Closed P 0x100) {s : State} (h : Sat P s) (n : Nat) (w : Option TxWord) (bits : Option (BitVec 80)) : Sat P (State.emit s n w bits) := by
  unfold State.emit
  extract_lets +onlyGivenNames v_x v_syms
  repeat' first | with_reducible assumption | exact Closed.mono cl (by decide) | (with_reducible intro _) | with_reducible apply onlyIte | with_reducible apply State.setLane_only | dsimp only | split

theorem State.feGive_only {P : State → Prop} (cl : Closed P 0x300000100) {s : State} (h : Sat P s) (n : Nat) : Sat P (State.feGive s n) := by
  unfold State.feGive
  extract_lets +onlyGivenNames v_x v_w v_last
  repeat' first | with_reducible assumption | exact Closed.mono cl (by decide) | (with_reducible intro _) | with_reducible apply onlyIte | with_reducible apply State.drawn_only | with_reducible apply State.setLane_only | with_reducible apply State.feMark_only | with_reducible apply State.emit_only | dsimp only | split

theorem State.prbsSend_only {P : State → Prop} (cl : Closed P 0x100000100) {s : State} (h : Sat P s) (n : Nat) : Sat P (State.prbsSend s n) := by
  unfold State.prbsSend
  extract_lets +onlyGivenNames v_taps
  repeat' first | with_reducible assumption | exact Closed.mono cl (by decide) | (with_reducible intro _) | with_reducible apply onlyIte | with_reducible apply State.drawn_only | with_reducible apply State.emit_only | with_reducible apply State.setLane_only | dsimp only | split

theorem State.txSelect_only {P : State → Prop} (cl : Closed P 0x300003D40) {s : State} (h : Sat P s) (n : Nat) (v : TxWord) : Sat P (State.txSelect s n v) := by
  unfold State.txSelect
  extract_lets +onlyGivenNames v_w
  repeat' first | with_reducible assumption | exact Closed.mono cl (by decide) | (with_reducible intro _) | with_reducible apply onlyIte | with_reducible apply State.emit_only | with_reducible apply State.stampWord_only | with_reducible apply State.patWord_only | with_reducible apply State.prbsSend_only | dsimp only | split

theorem State.txWord_only {P : State → Prop} (cl : Closed P 0x300003D40) {s : State} (h : Sat P s) (n : Nat) (w : TxWord) : Sat P (State.txWord s n w) := by
  unfold State.txWord
  repeat' first | with_reducible assumption | exact Closed.mono cl (by decide) | (with_reducible intro _) | with_reducible apply onlyIte | with_reducible apply State.setLane_only | with_reducible apply State.emit_only | with_reducible apply State.feGive_only | with_reducible apply State.txSelect_only | dsimp only | split

theorem execLaneTxWord_only {P : State → Prop} (cl : Closed P 0x300003D40) {s : State} (h : Sat P s) (lane : LaneId) (w : TxWord) : OnlyO P (execLaneTxWord lane w s) := by
  unfold execLaneTxWord
  repeat' first | with_reducible assumption | exact Closed.mono cl (by decide) | (with_reducible intro _) | with_reducible apply onlyIte | with_reducible apply onlyIteO | with_reducible apply onlyNext | with_reducible apply State.watch_only | with_reducible apply State.txWord_only | dsimp only | split

theorem State.sset_only {P : State → Prop} (cl : Closed P 0x200000000) {s : State} (h : Sat P s) (f : Fld) (v : Int) : Sat P (State.sset s f v) := by
  unfold State.sset
  repeat' first | with_reducible assumption | exact Closed.mono cl (by decide) | (with_reducible intro _) | with_reducible apply onlyIte | with_reducible apply State.fset_only | dsimp only | split

theorem State.calConflict_only {P : State → Prop} (cl : Closed P 0x200000800) {s : State} (h : Sat P s) (n : Nat) : Sat P (State.calConflict s n) := by
  unfold State.calConflict
  extract_lets +onlyGivenNames v_dO v_dT v_s1 v_lO v_lT v_bad v_was v_s2
  try (have h_s1 : Sat P v_s1 := by repeat' first | with_reducible assumption | exact Closed.mono cl (by decide) | (with_reducible intro _) | with_reducible apply onlyIte | with_reducible apply State.fset_only | with_reducible apply State.setBit_only | with_reducible apply State.raiseAt_only | dsimp only | split)
  try (have h_s2 : Sat P v_s2 := by repeat' first | with_reducible assumption | exact Closed.mono cl (by decide) | (with_reducible intro _) | with_reducible apply onlyIte | with_reducible apply State.fset_only | with_reducible apply State.setBit_only | with_reducible apply State.raiseAt_only | dsimp only | split)
  repeat' first | with_reducible assumption | exact Closed.mono cl (by decide) | (with_reducible intro _) | with_reducible apply onlyIte | with_reducible apply State.fset_only | with_reducible apply State.setBit_only | with_reducible apply State.raiseAt_only | dsimp only | split

theorem State.emitCal_only {P : State → Prop} (cl : Closed P 0x200002200) {s : State} (h : Sat P s) (n : Nat) (r : W128) : Sat P (State.emitCal s n r) := by
  unfold State.emitCal
  extract_lets +onlyGivenNames v_s1
  try (have h_s1 : Sat P v_s1 := by repeat' first | with_reducible assumption | exact Closed.mono cl (by decide) | (with_reducible intro _) | with_reducible apply onlyIte | with_reducible apply State.writeMarks_only | with_reducible apply State.count_only | with_reducible apply State.capRecord_only | dsimp only | split)
  repeat' first | with_reducible assumption | exact Closed.mono cl (by decide) | (with_reducible intro _) | with_reducible apply onlyIte | with_reducible apply State.writeMarks_only | with_reducible apply State.count_only | with_reducible apply State.capRecord_only | dsimp only | split

theorem State.calChange_only {P : State → Prop} (cl : Closed P 0x200000100) {s : State} (h : Sat P s) (n : Nat) (c : CalChange) : Sat P (State.calChange s n c) := by
  unfold State.calChange
  repeat' first | with_reducible assumption | exact Closed.mono cl (by decide) | (with_reducible intro _) | with_reducible apply onlyIte | with_reducible apply State.setLane_only | with_reducible apply State.sset_only | dsimp only | split

theorem State.calUnlock_only {P : State → Prop} (cl : Closed P 0x200000100) {s : State} (h : Sat P s) (n : Nat) : Sat P (State.calUnlock s n) := by
  unfold State.calUnlock
  extract_lets +onlyGivenNames v_x
  repeat' first | with_reducible assumption | exact Closed.mono cl (by decide) | (with_reducible intro _) | with_reducible apply onlyIte | with_reducible refine onlyEach ?_ ?_ | with_reducible apply State.setLane_only | with_reducible apply State.sset_only | dsimp only | split

theorem State.disturb_only {P : State → Prop} (cl : Closed P 0x200000100) {s : State} (h : Sat P s) (n : Nat) : Sat P (State.disturb s n) := by
  unfold State.disturb
  extract_lets +onlyGivenNames v_x
  repeat' first | with_reducible assumption | exact Closed.mono cl (by decide) | (with_reducible intro _) | with_reducible apply onlyIte | with_reducible apply State.setLane_only | with_reducible apply State.count_only | dsimp only | split

theorem State.calStep_only {P : State → Prop} (cl : Closed P 0x200000900) {s : State} (h : Sat P s) (n : Nat) (c : CalSel) (up : Bool) : Sat P (State.calStep s n c up) := by
  unfold State.calStep
  extract_lets +onlyGivenNames v_top v_old v_new
  repeat' first | with_reducible assumption | exact Closed.mono cl (by decide) | (with_reducible intro _) | with_reducible apply onlyIte | with_reducible apply State.sset_only | with_reducible apply State.calConflict_only | with_reducible apply State.calChange_only | with_reducible apply State.disturb_only | dsimp only | split

theorem State.calApplyOne_only {P : State → Prop} (cl : Closed P 0x200002300) {s : State} (h : Sat P s) (n : Nat) (c : CalChange) (wireBit : BitVec 40) (ts : W64) : Sat P (State.calApplyOne s n c wireBit ts) := by
  unfold State.calApplyOne
  extract_lets +onlyGivenNames v_old
  repeat' first | with_reducible assumption | exact Closed.mono cl (by decide) | (with_reducible intro _) | with_reducible apply onlyIte | with_reducible apply State.sset_only | with_reducible apply State.emitCal_only | with_reducible apply State.disturb_only | dsimp only | split

theorem State.calBoundary_only {P : State → Prop} (cl : Closed P 0x200002300) {s : State} (h : Sat P s) (n : Nat) (wireBit : BitVec 40) (ts : W64) : Sat P (State.calBoundary s n wireBit ts) := by
  unfold State.calBoundary
  extract_lets +onlyGivenNames v_x v_todo
  repeat' first | with_reducible assumption | exact Closed.mono cl (by decide) | (with_reducible intro _) | with_reducible apply onlyIte | with_reducible refine onlyEach ?_ ?_ | with_reducible apply State.setLane_only | with_reducible apply State.calApplyOne_only | dsimp only | split

theorem State.pinChange_only {P : State → Prop} (cl : Closed P 0x200000100) {s : State} (h : Sat P s) (n : Nat) (thr pin : Bool) : Sat P (State.pinChange s n thr pin) := by
  unfold State.pinChange
  repeat' first | with_reducible assumption | exact Closed.mono cl (by decide) | (with_reducible intro _) | with_reducible apply onlyIte | with_reducible refine onlyEach ?_ ?_ | with_reducible apply State.calChange_only | dsimp only | split

theorem State.calPin_only {P : State → Prop} (cl : Closed P 0x200000900) {s : State} (h : Sat P s) (n : Nat) (v : BitVec 2) : Sat P (State.calPin s n v) := by
  unfold State.calPin
  extract_lets +onlyGivenNames v_o v_t v_o' v_t' v_s1 v_s2 v_s3
  try (have h_t : Sat P v_t := by repeat' first | with_reducible assumption | exact Closed.mono cl (by decide) | (with_reducible intro _) | with_reducible apply onlyIte | with_reducible apply State.setBit_only | with_reducible apply State.pinChange_only | with_reducible apply State.calConflict_only | dsimp only | split)
  try (have h_t' : Sat P v_t' := by repeat' first | with_reducible assumption | exact Closed.mono cl (by decide) | (with_reducible intro _) | with_reducible apply onlyIte | with_reducible apply State.setBit_only | with_reducible apply State.pinChange_only | with_reducible apply State.calConflict_only | dsimp only | split)
  try (have h_s1 : Sat P v_s1 := by repeat' first | with_reducible assumption | exact Closed.mono cl (by decide) | (with_reducible intro _) | with_reducible apply onlyIte | with_reducible apply State.setBit_only | with_reducible apply State.pinChange_only | with_reducible apply State.calConflict_only | dsimp only | split)
  try (have h_s2 : Sat P v_s2 := by repeat' first | with_reducible assumption | exact Closed.mono cl (by decide) | (with_reducible intro _) | with_reducible apply onlyIte | with_reducible apply State.setBit_only | with_reducible apply State.pinChange_only | with_reducible apply State.calConflict_only | dsimp only | split)
  try (have h_s3 : Sat P v_s3 := by repeat' first | with_reducible assumption | exact Closed.mono cl (by decide) | (with_reducible intro _) | with_reducible apply onlyIte | with_reducible apply State.setBit_only | with_reducible apply State.pinChange_only | with_reducible apply State.calConflict_only | dsimp only | split)
  repeat' first | with_reducible assumption | exact Closed.mono cl (by decide) | (with_reducible intro _) | with_reducible apply onlyIte | with_reducible apply State.setBit_only | with_reducible apply State.pinChange_only | with_reducible apply State.calConflict_only | dsimp only | split

theorem execCalMicroStep_only {P : State → Prop} (cl : Closed P 0x200000900) {s : State} (h : Sat P s) (lane : LaneId) (sel : CalSel) (up : Bool) : OnlyO P (execCalMicroStep lane sel up s) := by
  unfold execCalMicroStep
  repeat' first | with_reducible assumption | exact Closed.mono cl (by decide) | (with_reducible intro _) | with_reducible apply onlyIte | with_reducible apply onlyIteO | with_reducible apply onlyNext | with_reducible apply State.calStep_only | dsimp only | split

theorem execCalApply_only {P : State → Prop} (cl : Closed P 0x200002300) {s : State} (h : Sat P s) (lane : LaneId) (wireBit : BitVec 40) (ts : W64) : OnlyO P (execCalApply lane wireBit ts s) := by
  unfold execCalApply
  repeat' first | with_reducible assumption | exact Closed.mono cl (by decide) | (with_reducible intro _) | with_reducible apply onlyIte | with_reducible apply onlyIteO | with_reducible apply onlyNext | with_reducible apply State.calBoundary_only | dsimp only | split

theorem execCalPin_only {P : State → Prop} (cl : Closed P 0x302101940) {s : State} (h : Sat P s) (lane : LaneId) (v : BitVec 2) : OnlyO P (execCalPin lane v s) := by
  unfold execCalPin
  repeat' first | with_reducible assumption | exact Closed.mono cl (by decide) | (with_reducible intro _) | with_reducible apply onlyIte | with_reducible apply onlyIteO | with_reducible apply onlyNext | with_reducible apply State.hostCmd_only | with_reducible apply State.calPin_only | dsimp only | split

theorem State.scanTo_only {P : State → Prop} (cl : Closed P 0x200000100) {s : State} (h : Sat P s) (n : Nat) (next : Option Nat) : Sat P (State.scanTo s n next) := by
  unfold State.scanTo
  repeat' first | with_reducible assumption | exact Closed.mono cl (by decide) | (with_reducible intro _) | with_reducible apply onlyIte | with_reducible apply State.setLane_only | with_reducible apply State.fset_only | dsimp only | split

theorem State.scanStart_only {P : State → Prop} (cl : Closed P 0x200000100) {s : State} (h : Sat P s) (n : Nat) : Sat P (State.scanStart s n) := by
  unfold State.scanStart
  repeat' first | with_reducible assumption | exact Closed.mono cl (by decide) | (with_reducible intro _) | with_reducible apply onlyIte | with_reducible apply State.fset_only | with_reducible apply State.setLane_only | with_reducible apply State.scanTo_only | dsimp only | split

theorem State.scanAbort_only {P : State → Prop} (cl : Closed P 0x200000000) {s : State} (h : Sat P s) (n : Nat) : Sat P (State.scanAbort s n) := by
  unfold State.scanAbort
  repeat' first | with_reducible assumption | exact Closed.mono cl (by decide) | (with_reducible intro _) | with_reducible apply onlyIte | with_reducible apply State.fset_only | dsimp only | split

theorem State.scanPoint_only {P : State → Prop} (cl : Closed P 0x200000100) {s : State} (h : Sat P s) (n m : Nat) : Sat P (State.scanPoint s n m) := by
  unfold State.scanPoint
  repeat' first | with_reducible assumption | exact Closed.mono cl (by decide) | (with_reducible intro _) | with_reducible apply onlyIte | with_reducible apply State.setLane_only | with_reducible apply State.count_only | with_reducible apply State.scanTo_only | dsimp only | split

theorem execEyeScanStart_only {P : State → Prop} (cl : Closed P 0x302101140) {s : State} (h : Sat P s) (lane : LaneId) : OnlyO P (execEyeScanStart lane s) := by
  unfold execEyeScanStart
  repeat' first | with_reducible assumption | exact Closed.mono cl (by decide) | (with_reducible intro _) | with_reducible apply onlyIte | with_reducible apply onlyIteO | with_reducible apply onlyNext | with_reducible apply State.hostCmd_only | with_reducible apply State.scanStart_only | dsimp only | split

theorem execEyeScanAbort_only {P : State → Prop} (cl : Closed P 0x302101040) {s : State} (h : Sat P s) (lane : LaneId) : OnlyO P (execEyeScanAbort lane s) := by
  unfold execEyeScanAbort
  repeat' first | with_reducible assumption | exact Closed.mono cl (by decide) | (with_reducible intro _) | with_reducible apply onlyIte | with_reducible apply onlyIteO | with_reducible apply onlyNext | with_reducible apply State.hostCmd_only | with_reducible apply State.scanAbort_only | dsimp only | split

theorem execEyeScanPoint_only {P : State → Prop} (cl : Closed P 0x200000100) {s : State} (h : Sat P s) (lane : LaneId) (mismatches : Nat) : OnlyO P (execEyeScanPoint lane mismatches s) := by
  unfold execEyeScanPoint
  repeat' first | with_reducible assumption | exact Closed.mono cl (by decide) | (with_reducible intro _) | with_reducible apply onlyIte | with_reducible apply onlyIteO | with_reducible apply onlyNext | with_reducible apply State.scanPoint_only | dsimp only | split

theorem State.chkClear_only {P : State → Prop} (cl : Closed P 0x200000000) {s : State} (h : Sat P s) (n : Nat) : Sat P (State.chkClear s n) := by
  unfold State.chkClear
  repeat' first | with_reducible assumption | exact Closed.mono cl (by decide) | (with_reducible intro _) | with_reducible apply onlyIte | with_reducible apply State.fset_only | with_reducible apply State.wset_only | dsimp only | split

theorem execChkClr_only {P : State → Prop} (cl : Closed P 0x302101040) {s : State} (h : Sat P s) (lane : LaneId) : OnlyO P (execChkClr lane s) := by
  unfold execChkClr
  repeat' first | with_reducible assumption | exact Closed.mono cl (by decide) | (with_reducible intro _) | with_reducible apply onlyIte | with_reducible apply onlyIteO | with_reducible apply onlyNext | with_reducible apply State.hostCmd_only | with_reducible apply State.chkClear_only | dsimp only | split

theorem execChkLock_only {P : State → Prop} (cl : Closed P 0x200000100) {s : State} (h : Sat P s) (lane : LaneId) (locked : Bool) : OnlyO P (execChkLock lane locked s) := by
  unfold execChkLock
  repeat' first | with_reducible assumption | exact Closed.mono cl (by decide) | (with_reducible intro _) | with_reducible apply onlyIte | with_reducible apply onlyIteO | with_reducible apply onlyNext | with_reducible apply State.chkLock_only | dsimp only | split

theorem State.lockMarks_only {P : State → Prop} (cl : Closed P 0x200002200) {s : State} (h : Sat P s) (n : Nat) (wireBit : BitVec 40) (ts : W64) : Sat P (State.lockMarks s n wireBit ts) := by
  unfold State.lockMarks
  repeat' first | with_reducible assumption | exact Closed.mono cl (by decide) | (with_reducible intro _) | with_reducible apply onlyIte | with_reducible refine onlyEach ?_ ?_ | with_reducible apply State.emitCal_only | dsimp only | split

theorem State.unitStart_only {P : State → Prop} (cl : Closed P 0x100) {s : State} (h : Sat P s) (n : Nat) (wireBit : BitVec 40) : Sat P (State.unitStart s n wireBit) := by
  unfold State.unitStart
  repeat' first | with_reducible assumption | exact Closed.mono cl (by decide) | (with_reducible intro _) | with_reducible apply onlyIte | with_reducible apply State.setLane_only | dsimp only | split

theorem State.pcsLockNow_only {P : State → Prop} (cl : Closed P 0x200022304) {s : State} (h : Sat P s) (n : Nat) (wireBit : BitVec 40) (ts : W64) : Sat P (State.pcsLockNow s n wireBit ts) := by
  unfold State.pcsLockNow
  extract_lets +onlyGivenNames v_s0 v_s1
  try (have h_s0 : Sat P v_s0 := by repeat' first | with_reducible assumption | exact Closed.mono cl (by decide) | (with_reducible intro _) | with_reducible apply onlyIte | with_reducible apply State.lockMarks_only | with_reducible apply State.unitStart_only | with_reducible apply State.anchorLocked_only | dsimp only | split)
  try (have h_s1 : Sat P v_s1 := by repeat' first | with_reducible assumption | exact Closed.mono cl (by decide) | (with_reducible intro _) | with_reducible apply onlyIte | with_reducible apply State.lockMarks_only | with_reducible apply State.unitStart_only | with_reducible apply State.anchorLocked_only | dsimp only | split)
  repeat' first | with_reducible assumption | exact Closed.mono cl (by decide) | (with_reducible intro _) | with_reducible apply onlyIte | with_reducible apply State.lockMarks_only | with_reducible apply State.unitStart_only | with_reducible apply State.anchorLocked_only | dsimp only | split

theorem State.dskLose_only {P : State → Prop} (cl : Closed P 0x200000100) {s : State} (h : Sat P s) (n : Nat) : Sat P (State.dskLose s n) := by
  unfold State.dskLose
  repeat' first | with_reducible assumption | exact Closed.mono cl (by decide) | (with_reducible intro _) | with_reducible apply onlyIte | with_reducible refine onlyEach ?_ ?_ | with_reducible apply State.fset_only | with_reducible apply State.setLane_only | dsimp only | split

theorem State.dskAlign_only {P : State → Prop} (cl : Closed P 0x200000000) {s : State} (h : Sat P s) (n : Nat) : Sat P (State.dskAlign s n) := by
  unfold State.dskAlign
  extract_lets +onlyGivenNames v_g v_at_ v_first
  repeat' first | with_reducible assumption | exact Closed.mono cl (by decide) | (with_reducible intro _) | with_reducible apply onlyIte | with_reducible refine onlyEach ?_ ?_ | with_reducible refine onlyFoldl ?_ ?_ | with_reducible apply State.fset_only | dsimp only | split

theorem State.laneLock_only {P : State → Prop} (cl : Closed P 0x200022304) {s : State} (h : Sat P s) (n : Nat) (stage : LaneStage) (skew : Nat) (wireBit : BitVec 40) (ts : W64) : Sat P (State.laneLock s n stage skew wireBit ts) := by
  unfold State.laneLock
  extract_lets +onlyGivenNames v_rs
  repeat' first | with_reducible assumption | exact Closed.mono cl (by decide) | (with_reducible intro _) | with_reducible apply onlyIte | with_reducible apply State.fset_only | with_reducible apply State.setLane_only | with_reducible apply State.setCap_only | with_reducible apply State.pcsLockNow_only | with_reducible apply State.unitStart_only | with_reducible apply State.dskAlign_only | dsimp only | split

theorem State.loseStages_only {P : State → Prop} (cl : Closed P 0x200000100) {s : State} (h : Sat P s) (n : Nat) (stage : LaneStage) : Sat P (State.loseStages s n stage) := by
  unfold State.loseStages
  extract_lets +onlyGivenNames v_s1
  try (have h_s1 : Sat P v_s1 := by repeat' first | with_reducible assumption | exact Closed.mono cl (by decide) | (with_reducible intro _) | with_reducible apply onlyIte | with_reducible apply State.fset_only | with_reducible apply State.dskLose_only | dsimp only | split)
  repeat' first | with_reducible assumption | exact Closed.mono cl (by decide) | (with_reducible intro _) | with_reducible apply onlyIte | with_reducible apply State.fset_only | with_reducible apply State.dskLose_only | dsimp only | split

theorem State.rxInvalid_only {P : State → Prop} (cl : Closed P 0x100) {s : State} (h : Sat P s) (n : Nat) : Sat P (State.rxInvalid s n) := by
  unfold State.rxInvalid
  repeat' first | with_reducible assumption | exact Closed.mono cl (by decide) | (with_reducible intro _) | with_reducible apply onlyIte | with_reducible apply State.setLane_only | dsimp only | split

theorem State.groupLoss_only {P : State → Prop} (cl : Closed P 0x200000100) {s : State} (h : Sat P s) (n : Nat) : Sat P (State.groupLoss s n) := by
  unfold State.groupLoss
  repeat' first | with_reducible assumption | exact Closed.mono cl (by decide) | (with_reducible intro _) | with_reducible apply onlyIte | with_reducible refine onlyEach ?_ ?_ | with_reducible apply State.rxInvalid_only | with_reducible apply State.fset_only | dsimp only | split

theorem State.anchorGone_only {P : State → Prop} (cl : Closed P 0x200000804) {s : State} (h : Sat P s) (n : Nat) : Sat P (State.anchorGone s n) := by
  unfold State.anchorGone
  repeat' first | with_reducible assumption | exact Closed.mono cl (by decide) | (with_reducible intro _) | with_reducible apply onlyIte | with_reducible apply State.loseAnchor_only | dsimp only | split

theorem State.laneLoss_only {P : State → Prop} (cl : Closed P 0x200004B04) {s : State} (h : Sat P s) (n : Nat) (stage : LaneStage) : Sat P (State.laneLoss s n stage) := by
  unfold State.laneLoss
  repeat' first | with_reducible assumption | exact Closed.mono cl (by decide) | (with_reducible intro _) | with_reducible apply onlyIte | with_reducible apply State.groupLoss_only | with_reducible apply State.loseStages_only | with_reducible apply State.rxInvalid_only | with_reducible apply State.fset_only | with_reducible apply State.aggregate_only | with_reducible apply State.anchorGone_only | with_reducible apply State.calUnlock_only | with_reducible apply State.setCap_only | with_reducible apply State.scanAbort_only | dsimp only | split

theorem State.laneStill_only {P : State → Prop} (cl : Closed P 0x200000100) {s : State} (h : Sat P s) (n : Nat) : Sat P (State.laneStill s n) := by
  unfold State.laneStill
  repeat' first | with_reducible assumption | exact Closed.mono cl (by decide) | (with_reducible intro _) | with_reducible apply onlyIte | with_reducible apply State.calUnlock_only | with_reducible apply State.scanAbort_only | with_reducible apply State.loseStages_only | dsimp only | split

theorem State.laneEnable_only {P : State → Prop} (cl : Closed P 0x200000000) {s : State} (h : Sat P s) (n : Nat) : Sat P (State.laneEnable s n) := by
  unfold State.laneEnable
  repeat' first | with_reducible assumption | exact Closed.mono cl (by decide) | (with_reducible intro _) | with_reducible apply onlyIte | with_reducible apply State.fset_only | dsimp only | split

theorem State.laneDisable_only {P : State → Prop} (cl : Closed P 0x200000904) {s : State} (h : Sat P s) (n : Nat) : Sat P (State.laneDisable s n) := by
  unfold State.laneDisable
  repeat' first | with_reducible assumption | exact Closed.mono cl (by decide) | (with_reducible intro _) | with_reducible apply onlyIte | with_reducible apply State.fset_only | with_reducible apply State.rxInvalid_only | with_reducible apply State.groupLoss_only | with_reducible apply State.loseStages_only | with_reducible apply State.scanAbort_only | with_reducible apply State.anchorGone_only | with_reducible apply State.calUnlock_only | with_reducible apply State.setLane_only | dsimp only | split

theorem State.laneShutdownDone_only {P : State → Prop} (cl : Closed P 0x200000000) {s : State} (h : Sat P s) (n : Nat) : Sat P (State.laneShutdownDone s n) := by
  unfold State.laneShutdownDone
  repeat' first | with_reducible assumption | exact Closed.mono cl (by decide) | (with_reducible intro _) | with_reducible apply onlyIte | with_reducible apply State.fset_only | dsimp only | split

theorem execLaneEnable_only {P : State → Prop} (cl : Closed P 0x302101040) {s : State} (h : Sat P s) (lane : LaneId) : OnlyO P (execLaneEnable lane s) := by
  unfold execLaneEnable
  repeat' first | with_reducible assumption | exact Closed.mono cl (by decide) | (with_reducible intro _) | with_reducible apply onlyIte | with_reducible apply onlyIteO | with_reducible apply onlyNext | with_reducible apply State.hostCmd_only | with_reducible apply State.laneEnable_only | dsimp only | split

theorem execLaneDisable_only {P : State → Prop} (cl : Closed P 0x302101944) {s : State} (h : Sat P s) (lane : LaneId) : OnlyO P (execLaneDisable lane s) := by
  unfold execLaneDisable
  repeat' first | with_reducible assumption | exact Closed.mono cl (by decide) | (with_reducible intro _) | with_reducible apply onlyIte | with_reducible apply onlyIteO | with_reducible apply onlyNext | with_reducible apply State.hostCmd_only | with_reducible apply State.laneDisable_only | dsimp only | split

theorem execLaneLock_only {P : State → Prop} (cl : Closed P 0x200022304) {s : State} (h : Sat P s) (lane : LaneId) (stage : LaneStage) (skew : BitVec 7) (wireBit : BitVec 40) (ts : W64) : OnlyO P (execLaneLock lane stage skew wireBit ts s) := by
  unfold execLaneLock
  repeat' first | with_reducible assumption | exact Closed.mono cl (by decide) | (with_reducible intro _) | with_reducible apply onlyIte | with_reducible apply onlyIteO | with_reducible apply onlyNext | with_reducible apply State.laneLock_only | dsimp only | split

theorem execLaneLockLoss_only {P : State → Prop} (cl : Closed P 0x200004B04) {s : State} (h : Sat P s) (lane : LaneId) (stage : LaneStage) : OnlyO P (execLaneLockLoss lane stage s) := by
  unfold execLaneLockLoss
  repeat' first | with_reducible assumption | exact Closed.mono cl (by decide) | (with_reducible intro _) | with_reducible apply onlyIte | with_reducible apply onlyIteO | with_reducible apply onlyNext | with_reducible apply State.laneLoss_only | dsimp only | split

theorem execTxSrc_only {P : State → Prop} (cl : Closed P 0x302101040) {s : State} (h : Sat P s) (lane : LaneId) (v : BitVec 2) : OnlyO P (execTxSrc lane v s) := by
  unfold execTxSrc
  repeat' first | with_reducible assumption | exact Closed.mono cl (by decide) | (with_reducible intro _) | with_reducible apply onlyIte | with_reducible apply onlyIteO | with_reducible apply onlyNext | with_reducible apply State.hostCmd_only | with_reducible apply State.fset_only | dsimp only | split

theorem execNeLpbk_only {P : State → Prop} (cl : Closed P 0x302101040) {s : State} (h : Sat P s) (lane : LaneId) (v : Bool) : OnlyO P (execNeLpbk lane v s) := by
  unfold execNeLpbk
  repeat' first | with_reducible assumption | exact Closed.mono cl (by decide) | (with_reducible intro _) | with_reducible apply onlyIte | with_reducible apply onlyIteO | with_reducible apply onlyNext | with_reducible apply State.hostCmd_only | with_reducible apply State.setBit_only | dsimp only | split

theorem execFeLpbk_only {P : State → Prop} (cl : Closed P 0x302101040) {s : State} (h : Sat P s) (lane : LaneId) (v : Bool) : OnlyO P (execFeLpbk lane v s) := by
  unfold execFeLpbk
  repeat' first | with_reducible assumption | exact Closed.mono cl (by decide) | (with_reducible intro _) | with_reducible apply onlyIte | with_reducible apply onlyIteO | with_reducible apply onlyNext | with_reducible apply State.hostCmd_only | with_reducible apply State.setBit_only | dsimp only | split

theorem State.feSlip_only {P : State → Prop} (cl : Closed P 0x200000100) {s : State} (h : Sat P s) (n : Nat) : Sat P (State.feSlip s n) := by
  unfold State.feSlip
  extract_lets +onlyGivenNames v_x v_l
  repeat' first | with_reducible assumption | exact Closed.mono cl (by decide) | (with_reducible intro _) | with_reducible apply onlyIte | with_reducible apply State.setLane_only | with_reducible apply State.fset_only | dsimp only | split

theorem execFeSlip_only {P : State → Prop} (cl : Closed P 0x200000100) {s : State} (h : Sat P s) (lane : LaneId) : OnlyO P (execFeSlip lane s) := by
  unfold execFeSlip
  repeat' first | with_reducible assumption | exact Closed.mono cl (by decide) | (with_reducible intro _) | with_reducible apply onlyIte | with_reducible apply onlyIteO | with_reducible apply onlyNext | with_reducible apply State.feSlip_only | dsimp only | split

theorem State.trigCount_only {P : State → Prop} (cl : Closed P 0x200000000) {s : State} (h : Sat P s) (c n : Nat) : Sat P (State.trigCount s c n) := by
  unfold State.trigCount
  repeat' first | with_reducible assumption | exact Closed.mono cl (by decide) | (with_reducible intro _) | with_reducible apply onlyIte | with_reducible apply State.count_only | dsimp only | split

theorem State.trigEdge_only {P : State → Prop} (cl : Closed P 0x200004000) {s : State} (h : Sat P s)  : Sat P (State.trigEdge s) := by
  unfold State.trigEdge
  extract_lets +onlyGivenNames v_now v_s1 v_tout
  try (have h_s1 : Sat P v_s1 := by repeat' first | with_reducible assumption | exact Closed.mono cl (by decide) | (with_reducible intro _) | with_reducible apply onlyIte | with_reducible refine onlyEach ?_ ?_ | with_reducible apply State.trigCount_only | (fail_if_no_progress with_reducible apply upd_trig (Closed.mono cl (by decide))) | dsimp only | split)
  repeat' first | with_reducible assumption | exact Closed.mono cl (by decide) | (with_reducible intro _) | with_reducible apply onlyIte | with_reducible refine onlyEach ?_ ?_ | with_reducible apply State.trigCount_only | (fail_if_no_progress with_reducible apply upd_trig (Closed.mono cl (by decide))) | dsimp only | split

theorem State.cntReset_only {P : State → Prop} (cl : Closed P 0x200004000) {s : State} (h : Sat P s) (c : Nat) : Sat P (State.cntReset s c) := by
  unfold State.cntReset
  repeat' first | with_reducible assumption | exact Closed.mono cl (by decide) | (with_reducible intro _) | with_reducible apply onlyIte | with_reducible apply State.fset_only | (fail_if_no_progress with_reducible apply upd_trig (Closed.mono cl (by decide))) | dsimp only | split

theorem State.trigTimers_only {P : State → Prop} (cl : Closed P 0x200000000) {s : State} (h : Sat P s) (ns : Nat) : Sat P (State.trigTimers s ns) := by
  unfold State.trigTimers
  repeat' first | with_reducible assumption | exact Closed.mono cl (by decide) | (with_reducible intro _) | with_reducible apply onlyIte | with_reducible refine onlyEach ?_ ?_ | with_reducible apply State.trigCount_only | dsimp only | split

theorem State.freeze_only {P : State → Prop} (cl : Closed P 0x200000000) {s : State} (h : Sat P s) (v : Bool) : Sat P (State.freeze s v) := by
  unfold State.freeze
  repeat' first | with_reducible assumption | exact Closed.mono cl (by decide) | (with_reducible intro _) | with_reducible apply onlyIte | with_reducible apply State.setBit_only | dsimp only | split

theorem State.thaw_only {P : State → Prop} (cl : Closed P 0x200000000) {s : State} (h : Sat P s)  : Sat P (State.thaw s) := by
  unfold State.thaw
  repeat' first | with_reducible assumption | exact Closed.mono cl (by decide) | (with_reducible intro _) | with_reducible apply onlyIte | with_reducible apply State.freeze_only | dsimp only | split

theorem State.doCap_only {P : State → Prop} (cl : Closed P 0x200) {s : State} (h : Sat P s) (l : Issued) : Sat P (State.doCap s l) := by
  unfold State.doCap
  extract_lets +onlyGivenNames v_sets
  repeat' first | with_reducible assumption | exact Closed.mono cl (by decide) | (with_reducible intro _) | with_reducible apply onlyIte | with_reducible refine onlyEach ?_ ?_ | with_reducible apply State.capTrig_only | dsimp only | split

theorem State.doMark_only {P : State → Prop} (cl : Closed P 0x200) {s : State} (h : Sat P s) (l : Issued) : Sat P (State.doMark s l) := by
  unfold State.doMark
  repeat' first | with_reducible assumption | exact Closed.mono cl (by decide) | (with_reducible intro _) | with_reducible apply onlyIte | with_reducible refine onlyEach ?_ ?_ | with_reducible apply State.capRecord_only | dsimp only | split

theorem State.doPat_only {P : State → Prop} (cl : Closed P 0x200004400) {s : State} (h : Sat P s) (done : List Nat) (l : Issued) : Sat P (s.doPat done l) := by
  induction l generalizing s done with
  | nil => exact h
  | cons p l ih =>
    unfold State.doPat
    dsimp only
    split
    · exact ih h _
    · split
      · exact ih (State.fset_only (cl.mono rfl) h _ _) _
      · exact ih (onlyEach h fun t x ht => onlyIte (State.fset_only (cl.mono rfl) ht _ _) (State.meet_only (cl.mono rfl) (State.patOp_only (cl.mono rfl) ht _ _) _)) _

theorem State.doTout_only {P : State → Prop} (cl : Closed P 0x24000) {s : State} (h : Sat P s) (l : Issued) : Sat P (State.doTout s l) := by
  unfold State.doTout
  repeat' first | with_reducible assumption | exact Closed.mono cl (by decide) | (with_reducible intro _) | with_reducible apply onlyIte | with_reducible refine onlyEach ?_ ?_ | (fail_if_no_progress with_reducible apply upd_trig (Closed.mono cl (by decide))) | (fail_if_no_progress with_reducible apply upd_splice (Closed.mono cl (by decide))) | dsimp only | split

theorem State.doHold_only {P : State → Prop} (cl : Closed P 0x200004000) {s : State} (h : Sat P s) (l : Issued) : Sat P (State.doHold s l) := by
  unfold State.doHold
  repeat' first | with_reducible assumption | exact Closed.mono cl (by decide) | (with_reducible intro _) | with_reducible apply onlyIte | with_reducible apply State.freeze_only | with_reducible apply State.meet_only | with_reducible apply State.thaw_only | dsimp only | split

theorem State.doFlag_only {P : State → Prop} (cl : Closed P 0x4000) {s : State} (h : Sat P s) (l : Issued) : Sat P (State.doFlag s l) := by
  unfold State.doFlag
  repeat' first | with_reducible assumption | exact Closed.mono cl (by decide) | (with_reducible intro _) | with_reducible apply onlyIte | with_reducible refine onlyEach ?_ ?_ | with_reducible apply State.pulse_only | dsimp only | split

theorem State.doPost_only {P : State → Prop} (cl : Closed P 0x600000840) {s : State} (h : Sat P s) (l : Issued) : Sat P (State.doPost s l) := by
  unfold State.doPost
  repeat' first | with_reducible assumption | exact Closed.mono cl (by decide) | (with_reducible intro _) | with_reducible apply onlyIte | with_reducible refine onlyEach ?_ ?_ | with_reducible apply State.postBy_only | dsimp only | split

theorem State.issueActions_only {P : State → Prop} (cl : Closed P 0x600024E40) {s : State} (h : Sat P s) (l : Issued) : Sat P (State.issueActions s l) := by
  unfold State.issueActions
  repeat' first | with_reducible assumption | exact Closed.mono cl (by decide) | (with_reducible intro _) | with_reducible apply onlyIte | with_reducible apply State.doCap_only | with_reducible apply State.doMark_only | with_reducible apply State.doPat_only | with_reducible apply State.doTout_only | with_reducible apply State.doHold_only | with_reducible apply State.doFlag_only | with_reducible apply State.doPost_only | dsimp only | split

theorem State.enterKnot_only {P : State → Prop} (cl : Closed P 0x200004000) {s : State} (h : Sat P s) (n k : Nat) : Sat P (State.enterKnot s n k).1 := by
  unfold State.enterKnot
  extract_lets +onlyGivenNames v_s1 v_c v_s2
  try (have h_s1 : Sat P v_s1 := by repeat' first | with_reducible assumption | exact Closed.mono cl (by decide) | (with_reducible intro _) | with_reducible apply onlyIte | with_reducible apply onlyIteFst | with_reducible apply State.fset_only | with_reducible apply State.cntReset_only | dsimp only | split)
  try (have h_s2 : Sat P v_s2 := by repeat' first | with_reducible assumption | exact Closed.mono cl (by decide) | (with_reducible intro _) | with_reducible apply onlyIte | with_reducible apply onlyIteFst | with_reducible apply State.fset_only | with_reducible apply State.cntReset_only | dsimp only | split)
  repeat' first | with_reducible assumption | exact Closed.mono cl (by decide) | (with_reducible intro _) | with_reducible apply onlyIte | with_reducible apply onlyIteFst | with_reducible apply State.fset_only | with_reducible apply State.cntReset_only | dsimp only | split

theorem State.seqStart_only {P : State → Prop} (cl : Closed P 0x600024E40) {s : State} (h : Sat P s) (n : Nat) : Sat P (State.seqStart s n) := by
  unfold State.seqStart
  repeat' first | with_reducible assumption | exact Closed.mono cl (by decide) | (with_reducible intro _) | with_reducible apply onlyIte | with_reducible apply State.enterKnot_only | with_reducible apply State.issueActions_only | dsimp only | split

theorem State.seqStop_only {P : State → Prop} (cl : Closed P 0x200000000) {s : State} (h : Sat P s) (n : Nat) : Sat P (State.seqStop s n) := by
  unfold State.seqStop
  repeat' first | with_reducible assumption | exact Closed.mono cl (by decide) | (with_reducible intro _) | with_reducible apply onlyIte | with_reducible apply State.fset_only | dsimp only | split

theorem knotStep_only {P : State → Prop} (cl : Closed P 0x600024E40) {x : State × Issued} (h : Sat P x.1) (n : Nat) : Sat P (knotStep x n).1 :=
  State.enterKnot_only (cl.mono rfl) h _ _

theorem knotSteps_only {P : State → Prop} (cl : Closed P 0x600024E40) (l : List Nat) {x : State × Issued} (h : Sat P x.1) : Sat P (l.foldl knotStep x).1 := by
  induction l generalizing x with
  | nil => exact h
  | cons n l ih => exact ih (knotStep_only cl h n)

theorem State.knots_only {P : State → Prop} (cl : Closed P 0x600024E40) {s : State} (h : Sat P s) (seqs : BitVec 8) (inputs : BitVec 256) : Sat P (s.knots seqs inputs) :=
  State.issueActions_only (cl.mono rfl) (knotSteps_only cl _ h) _

theorem State.soft_only {P : State → Prop} (cl : Closed P 0x4000) {s : State} (h : Sat P s) (v : Nat) : Sat P (State.soft s v) := by
  unfold State.soft
  repeat' first | with_reducible assumption | exact Closed.mono cl (by decide) | (with_reducible intro _) | with_reducible apply onlyIte | with_reducible refine onlyEach ?_ ?_ | with_reducible apply State.pulse_only | dsimp only | split

theorem execSeqStart_only {P : State → Prop} (cl : Closed P 0x702125E40) {s : State} (h : Sat P s) (n : BitVec 3) : OnlyO P (execSeqStart n s) := by
  unfold execSeqStart
  repeat' first | with_reducible assumption | exact Closed.mono cl (by decide) | (with_reducible intro _) | with_reducible apply onlyIte | with_reducible apply onlyIteO | with_reducible apply onlyNext | with_reducible apply State.hostCmd_only | with_reducible apply State.watch_only | with_reducible apply State.seqStart_only | dsimp only | split

theorem execSeqStop_only {P : State → Prop} (cl : Closed P 0x302101040) {s : State} (h : Sat P s) (n : BitVec 3) : OnlyO P (execSeqStop n s) := by
  unfold execSeqStop
  repeat' first | with_reducible assumption | exact Closed.mono cl (by decide) | (with_reducible intro _) | with_reducible apply onlyIte | with_reducible apply onlyIteO | with_reducible apply onlyNext | with_reducible apply State.hostCmd_only | with_reducible apply State.seqStop_only | dsimp only | split

theorem execKnotTransition_only {P : State → Prop} (cl : Closed P 0x600024E40) {s : State} (h : Sat P s) (seqs : BitVec 8) (inputs : BitVec 256) : OnlyO P (execKnotTransition seqs inputs s) := by
  unfold execKnotTransition
  repeat' first | with_reducible assumption | exact Closed.mono cl (by decide) | (with_reducible intro _) | with_reducible apply onlyIte | with_reducible apply onlyIteO | with_reducible apply onlyNext | with_reducible apply State.watch_only | with_reducible apply State.knots_only | dsimp only | split

theorem execThaw_only {P : State → Prop} (cl : Closed P 0x302101040) {s : State} (h : Sat P s)  : OnlyO P (execThaw s) := by
  unfold execThaw
  repeat' first | with_reducible assumption | exact Closed.mono cl (by decide) | (with_reducible intro _) | with_reducible apply onlyIte | with_reducible apply onlyIteO | with_reducible apply onlyNext | with_reducible apply State.hostCmd_only | with_reducible apply State.thaw_only | dsimp only | split

theorem execTrgSoft_only {P : State → Prop} (cl : Closed P 0x302105040) {s : State} (h : Sat P s) (v : BitVec 8) : OnlyO P (execTrgSoft v s) := by
  unfold execTrgSoft
  repeat' first | with_reducible assumption | exact Closed.mono cl (by decide) | (with_reducible intro _) | with_reducible apply onlyIte | with_reducible apply onlyIteO | with_reducible apply onlyNext | with_reducible apply State.hostCmd_only | with_reducible apply State.soft_only | dsimp only | split

theorem execClr_only {P : State → Prop} (cl : Closed P 0x302105040) {s : State} (h : Sat P s) (c : BitVec 6) : OnlyO P (execClr c s) := by
  unfold execClr
  repeat' first | with_reducible assumption | exact Closed.mono cl (by decide) | (with_reducible intro _) | with_reducible apply onlyIte | with_reducible apply onlyIteO | with_reducible apply onlyNext | with_reducible apply State.hostCmd_only | with_reducible apply State.cntReset_only | dsimp only | split

theorem State.releaseEvent_only {P : State → Prop} (cl : Closed P 0x700004840) {s : State} (h : Sat P s) (e g : Nat) : Sat P (State.releaseEvent s e g) := by
  unfold State.releaseEvent
  extract_lets +onlyGivenNames v_turn v_s1
  try (have h_s1 : Sat P v_s1 := by repeat' first | with_reducible assumption | exact Closed.mono cl (by decide) | (with_reducible intro _) | with_reducible apply onlyIte | with_reducible apply State.pulse_only | with_reducible apply State.postBy_only | with_reducible apply State.drawn_only | with_reducible apply State.raise_only | dsimp only | split)
  repeat' first | with_reducible assumption | exact Closed.mono cl (by decide) | (with_reducible intro _) | with_reducible apply onlyIte | with_reducible apply State.pulse_only | with_reducible apply State.postBy_only | with_reducible apply State.drawn_only | with_reducible apply State.raise_only | dsimp only | split

theorem State.diverge_only {P : State → Prop} (cl : Closed P 0x200000800) {s : State} (h : Sat P s) (j : Nat) : Sat P (State.diverge s j) := by
  unfold State.diverge
  extract_lets +onlyGivenNames v_s1
  try (have h_s1 : Sat P v_s1 := by repeat' first | with_reducible assumption | exact Closed.mono cl (by decide) | (with_reducible intro _) | with_reducible apply onlyIte | with_reducible apply State.raiseAt_only | with_reducible apply State.fset_only | with_reducible apply State.wset_only | dsimp only | split)
  repeat' first | with_reducible assumption | exact Closed.mono cl (by decide) | (with_reducible intro _) | with_reducible apply onlyIte | with_reducible apply State.raiseAt_only | with_reducible apply State.fset_only | with_reducible apply State.wset_only | dsimp only | split

theorem State.digestUpdate_only {P : State → Prop} (cl : Closed P 0x200020800) {s : State} (h : Sat P s) (w : W64) : Sat P (State.digestUpdate s w) := by
  unfold State.digestUpdate
  extract_lets +onlyGivenNames v_j v_old v_new v_s1 v_s2
  try (have h_s1 : Sat P v_s1 := by repeat' first | with_reducible assumption | exact Closed.mono cl (by decide) | (with_reducible intro _) | with_reducible apply onlyIte | with_reducible apply State.wset_only | with_reducible apply State.diverge_only | (fail_if_no_progress with_reducible apply upd_splice (Closed.mono cl (by decide))) | dsimp only | split)
  try (have h_s2 : Sat P v_s2 := by repeat' first | with_reducible assumption | exact Closed.mono cl (by decide) | (with_reducible intro _) | with_reducible apply onlyIte | with_reducible apply State.wset_only | with_reducible apply State.diverge_only | (fail_if_no_progress with_reducible apply upd_splice (Closed.mono cl (by decide))) | dsimp only | split)
  repeat' first | with_reducible assumption | exact Closed.mono cl (by decide) | (with_reducible intro _) | with_reducible apply onlyIte | with_reducible apply State.wset_only | with_reducible apply State.diverge_only | (fail_if_no_progress with_reducible apply upd_splice (Closed.mono cl (by decide))) | dsimp only | split

theorem State.flushPort_only {P : State → Prop} (cl : Closed P 0x600000864) {s : State} (h : Sat P s) (k : Nat) : Sat P (State.flushPort s k) := by
  unfold State.flushPort
  repeat' first | with_reducible assumption | exact Closed.mono cl (by decide) | (with_reducible intro _) | with_reducible apply onlyIte | with_reducible refine onlyEach ?_ ?_ | with_reducible apply State.accessNext_only | dsimp only | split

theorem State.commitState_only {P : State → Prop} (cl : Closed P 0x60000086C) {s : State} (h : Sat P s)  : Sat P (State.commitState s) := by
  unfold State.commitState
  extract_lets +onlyGivenNames v_s1 v_s2 v_after v_s3
  try (have h_s1 : Sat P v_s1 := by repeat' first | with_reducible assumption | exact Closed.mono cl (by decide) | (with_reducible intro _) | with_reducible apply onlyIte | with_reducible refine onlyEach ?_ ?_ | with_reducible apply State.flushPort_only | with_reducible apply State.clearBights_only | (fail_if_no_progress with_reducible apply upd_strands (Closed.mono cl (by decide))) | (fail_if_no_progress with_reducible apply upd_core (Closed.mono cl (by decide))) | dsimp only | split)
  try (have h_s2 : Sat P v_s2 := by repeat' first | with_reducible assumption | exact Closed.mono cl (by decide) | (with_reducible intro _) | with_reducible apply onlyIte | with_reducible refine onlyEach ?_ ?_ | with_reducible apply State.flushPort_only | with_reducible apply State.clearBights_only | (fail_if_no_progress with_reducible apply upd_strands (Closed.mono cl (by decide))) | (fail_if_no_progress with_reducible apply upd_core (Closed.mono cl (by decide))) | dsimp only | split)
  try (have h_s3 : Sat P v_s3 := by repeat' first | with_reducible assumption | exact Closed.mono cl (by decide) | (with_reducible intro _) | with_reducible apply onlyIte | with_reducible refine onlyEach ?_ ?_ | with_reducible apply State.flushPort_only | with_reducible apply State.clearBights_only | (fail_if_no_progress with_reducible apply upd_strands (Closed.mono cl (by decide))) | (fail_if_no_progress with_reducible apply upd_core (Closed.mono cl (by decide))) | dsimp only | split)
  repeat' first | with_reducible assumption | exact Closed.mono cl (by decide) | (with_reducible intro _) | with_reducible apply onlyIte | with_reducible refine onlyEach ?_ ?_ | with_reducible apply State.flushPort_only | with_reducible apply State.clearBights_only | (fail_if_no_progress with_reducible apply upd_strands (Closed.mono cl (by decide))) | (fail_if_no_progress with_reducible apply upd_core (Closed.mono cl (by decide))) | dsimp only | split

theorem State.commitEvents_only {P : State → Prop} (cl : Closed P 0x700004844) {s : State} (h : Sat P s)  : Sat P (State.commitEvents s) := by
  unfold State.commitEvents
  repeat' first | with_reducible assumption | exact Closed.mono cl (by decide) | (with_reducible intro _) | with_reducible apply onlyIte | with_reducible refine onlyEach ?_ ?_ | with_reducible apply State.releaseEvent_only | (fail_if_no_progress with_reducible apply upd_core (Closed.mono cl (by decide))) | dsimp only | split

theorem State.commitEnd_only {P : State → Prop} (cl : Closed P 0x200000044) {s : State} (h : Sat P s)  : Sat P (State.commitEnd s) := by
  unfold State.commitEnd
  extract_lets +onlyGivenNames v_iso v_s1 v_s2
  try (have h_s1 : Sat P v_s1 := by repeat' first | with_reducible assumption | exact Closed.mono cl (by decide) | (with_reducible intro _) | with_reducible apply onlyIte | with_reducible refine onlyEach ?_ ?_ | with_reducible apply State.wset_only | with_reducible apply State.fset_only | (fail_if_no_progress with_reducible apply upd_core_ring (Closed.mono cl (by decide))) | dsimp only | split)
  try (have h_s2 : Sat P v_s2 := by repeat' first | with_reducible assumption | exact Closed.mono cl (by decide) | (with_reducible intro _) | with_reducible apply onlyIte | with_reducible refine onlyEach ?_ ?_ | with_reducible apply State.wset_only | with_reducible apply State.fset_only | (fail_if_no_progress with_reducible apply upd_core_ring (Closed.mono cl (by decide))) | dsimp only | split)
  repeat' first | with_reducible assumption | exact Closed.mono cl (by decide) | (with_reducible intro _) | with_reducible apply onlyIte | with_reducible refine onlyEach ?_ ?_ | with_reducible apply State.wset_only | with_reducible apply State.fset_only | (fail_if_no_progress with_reducible apply upd_core_ring (Closed.mono cl (by decide))) | dsimp only | split

theorem State.commitTurn_only {P : State → Prop} (cl : Closed P 0x70002486C) {s : State} (h : Sat P s)  : Sat P (State.commitTurn s) := by
  unfold State.commitTurn
  repeat' first | with_reducible assumption | exact Closed.mono cl (by decide) | (with_reducible intro _) | with_reducible apply onlyIte | with_reducible refine onlyFoldl ?_ ?_ | with_reducible apply State.commitState_only | with_reducible apply State.commitEvents_only | with_reducible apply State.digestUpdate_only | with_reducible apply State.commitEnd_only | dsimp only | split

theorem State.cancelPrefix_only {P : State → Prop} (cl : Closed P 0x20000104C) {s : State} (h : Sat P s)  : Sat P (State.cancelPrefix s) := by
  unfold State.cancelPrefix
  extract_lets +onlyGivenNames v_s1 v_after v_s2 v_s3
  try (have h_s1 : Sat P v_s1 := by repeat' first | with_reducible assumption | exact Closed.mono cl (by decide) | (with_reducible intro _) | with_reducible apply onlyIte | with_reducible apply State.clearBights_only | with_reducible apply State.cancelProbes_only | with_reducible apply State.count_only | with_reducible apply State.fset_only | (fail_if_no_progress with_reducible apply upd_strands (Closed.mono cl (by decide))) | (fail_if_no_progress with_reducible apply upd_core_ring (Closed.mono cl (by decide))) | dsimp only | split)
  try (have h_s2 : Sat P v_s2 := by repeat' first | with_reducible assumption | exact Closed.mono cl (by decide) | (with_reducible intro _) | with_reducible apply onlyIte | with_reducible apply State.clearBights_only | with_reducible apply State.cancelProbes_only | with_reducible apply State.count_only | with_reducible apply State.fset_only | (fail_if_no_progress with_reducible apply upd_strands (Closed.mono cl (by decide))) | (fail_if_no_progress with_reducible apply upd_core_ring (Closed.mono cl (by decide))) | dsimp only | split)
  try (have h_s3 : Sat P v_s3 := by repeat' first | with_reducible assumption | exact Closed.mono cl (by decide) | (with_reducible intro _) | with_reducible apply onlyIte | with_reducible apply State.clearBights_only | with_reducible apply State.cancelProbes_only | with_reducible apply State.count_only | with_reducible apply State.fset_only | (fail_if_no_progress with_reducible apply upd_strands (Closed.mono cl (by decide))) | (fail_if_no_progress with_reducible apply upd_core_ring (Closed.mono cl (by decide))) | dsimp only | split)
  repeat' first | with_reducible assumption | exact Closed.mono cl (by decide) | (with_reducible intro _) | with_reducible apply onlyIte | with_reducible apply State.clearBights_only | with_reducible apply State.cancelProbes_only | with_reducible apply State.count_only | with_reducible apply State.fset_only | (fail_if_no_progress with_reducible apply upd_strands (Closed.mono cl (by decide))) | (fail_if_no_progress with_reducible apply upd_core_ring (Closed.mono cl (by decide))) | dsimp only | split

theorem State.showHeld_only {P : State → Prop} (cl : Closed P 0x200000000) {s : State} (h : Sat P s)  : Sat P (State.showHeld s) := by
  unfold State.showHeld
  repeat' first | with_reducible assumption | exact Closed.mono cl (by decide) | (with_reducible intro _) | with_reducible apply onlyIte | with_reducible apply State.fset_only | dsimp only | split

theorem State.applyDelta_only {P : State → Prop} (cl : Closed P 0x200010000) {s : State} (h : Sat P s) (d : FlowDelta) : Sat P (State.applyDelta s d) := by
  unfold State.applyDelta
  extract_lets +onlyGivenNames v_f v_qf v_s1 v_s2 v_s3
  try (have h_s1 : Sat P v_s1 := by repeat' first | with_reducible assumption | exact Closed.mono cl (by decide) | (with_reducible intro _) | with_reducible apply onlyIte | with_reducible refine onlyEach ?_ ?_ | with_reducible apply State.setReg_only | with_reducible apply State.setFlow_only | with_reducible apply State.setDelays_only | dsimp only | split)
  try (have h_s2 : Sat P v_s2 := by repeat' first | with_reducible assumption | exact Closed.mono cl (by decide) | (with_reducible intro _) | with_reducible apply onlyIte | with_reducible refine onlyEach ?_ ?_ | with_reducible apply State.setReg_only | with_reducible apply State.setFlow_only | with_reducible apply State.setDelays_only | dsimp only | split)
  try (have h_s3 : Sat P v_s3 := by repeat' first | with_reducible assumption | exact Closed.mono cl (by decide) | (with_reducible intro _) | with_reducible apply onlyIte | with_reducible refine onlyEach ?_ ?_ | with_reducible apply State.setReg_only | with_reducible apply State.setFlow_only | with_reducible apply State.setDelays_only | dsimp only | split)
  repeat' first | with_reducible assumption | exact Closed.mono cl (by decide) | (with_reducible intro _) | with_reducible apply onlyIte | with_reducible refine onlyEach ?_ ?_ | with_reducible apply State.setReg_only | with_reducible apply State.setFlow_only | with_reducible apply State.setDelays_only | dsimp only | split

theorem State.takeHeld_only {P : State → Prop} (cl : Closed P 0x200030004) {s : State} (h : Sat P s) (j b : Nat) : Sat P (State.takeHeld s j b) := by
  unfold State.takeHeld
  extract_lets +onlyGivenNames v_h v_fl v_words v_s1 v_s2 v_a v_s3
  try (have h_s1 : Sat P v_s1 := by repeat' first | with_reducible assumption | exact Closed.mono cl (by decide) | (with_reducible intro _) | with_reducible apply onlyIte | with_reducible refine onlyEach ?_ ?_ | with_reducible apply State.applyDelta_only | with_reducible apply State.fset_only | with_reducible apply State.showHeld_only | (fail_if_no_progress with_reducible apply upd_core (Closed.mono cl (by decide))) | (fail_if_no_progress with_reducible apply upd_splice (Closed.mono cl (by decide))) | dsimp only | split)
  try (have h_s2 : Sat P v_s2 := by repeat' first | with_reducible assumption | exact Closed.mono cl (by decide) | (with_reducible intro _) | with_reducible apply onlyIte | with_reducible refine onlyEach ?_ ?_ | with_reducible apply State.applyDelta_only | with_reducible apply State.fset_only | with_reducible apply State.showHeld_only | (fail_if_no_progress with_reducible apply upd_core (Closed.mono cl (by decide))) | (fail_if_no_progress with_reducible apply upd_splice (Closed.mono cl (by decide))) | dsimp only | split)
  try (have h_s3 : Sat P v_s3 := by repeat' first | with_reducible assumption | exact Closed.mono cl (by decide) | (with_reducible intro _) | with_reducible apply onlyIte | with_reducible refine onlyEach ?_ ?_ | with_reducible apply State.applyDelta_only | with_reducible apply State.fset_only | with_reducible apply State.showHeld_only | (fail_if_no_progress with_reducible apply upd_core (Closed.mono cl (by decide))) | (fail_if_no_progress with_reducible apply upd_splice (Closed.mono cl (by decide))) | dsimp only | split)
  repeat' first | with_reducible assumption | exact Closed.mono cl (by decide) | (with_reducible intro _) | with_reducible apply onlyIte | with_reducible refine onlyEach ?_ ?_ | with_reducible apply State.applyDelta_only | with_reducible apply State.fset_only | with_reducible apply State.showHeld_only | (fail_if_no_progress with_reducible apply upd_core (Closed.mono cl (by decide))) | (fail_if_no_progress with_reducible apply upd_splice (Closed.mono cl (by decide))) | dsimp only | split

theorem State.beatOut_only {P : State → Prop} (cl : Closed P 0x20000) {s : State} (h : Sat P s) (b : Nat) (starts : Option Nat) : Sat P (State.beatOut s b starts) := by
  unfold State.beatOut
  extract_lets +onlyGivenNames v_dg v_s1 v_s2
  try (have h_s1 : Sat P v_s1 := by repeat' first | with_reducible assumption | exact Closed.mono cl (by decide) | (with_reducible intro _) | with_reducible apply onlyIte | with_reducible apply State.mirror_only | (fail_if_no_progress with_reducible apply upd_splice (Closed.mono cl (by decide))) | dsimp only | split)
  try (have h_s2 : Sat P v_s2 := by repeat' first | with_reducible assumption | exact Closed.mono cl (by decide) | (with_reducible intro _) | with_reducible apply onlyIte | with_reducible apply State.mirror_only | (fail_if_no_progress with_reducible apply upd_splice (Closed.mono cl (by decide))) | dsimp only | split)
  repeat' first | with_reducible assumption | exact Closed.mono cl (by decide) | (with_reducible intro _) | with_reducible apply onlyIte | with_reducible apply State.mirror_only | (fail_if_no_progress with_reducible apply upd_splice (Closed.mono cl (by decide))) | dsimp only | split

theorem State.restOut_only {P : State → Prop} (cl : Closed P 0x100020000) {s : State} (h : Sat P s) (b j : Nat) : Sat P (State.restOut s b j) := by
  unfold State.restOut
  repeat' first | with_reducible assumption | exact Closed.mono cl (by decide) | (with_reducible intro _) | with_reducible apply onlyIte | with_reducible refine onlyEach ?_ ?_ | with_reducible apply State.mirror_only | with_reducible apply State.drawn_only | dsimp only | split

theorem State.startTurn_only {P : State → Prop} (cl : Closed P 0x300030064) {s : State} (h : Sat P s) (b : Nat) : Sat P (State.startTurn s b) := by
  unfold State.startTurn
  extract_lets +onlyGivenNames v_j v_s0 v_inj v_s1
  try (have h_s0 : Sat P v_s0 := by repeat' first | with_reducible assumption | exact Closed.mono cl (by decide) | (with_reducible intro _) | with_reducible apply onlyIte | with_reducible refine onlyFoldl ?_ ?_ | with_reducible apply State.takeHeld_only | with_reducible apply State.deferredDue_only | with_reducible apply State.fset_only | with_reducible apply State.restOut_only | with_reducible apply State.beatOut_only | (fail_if_no_progress with_reducible apply upd_core_ring (Closed.mono cl (by decide))) | dsimp only | split)
  try (have h_s1 : Sat P v_s1 := by repeat' first | with_reducible assumption | exact Closed.mono cl (by decide) | (with_reducible intro _) | with_reducible apply onlyIte | with_reducible refine onlyFoldl ?_ ?_ | with_reducible apply State.takeHeld_only | with_reducible apply State.deferredDue_only | with_reducible apply State.fset_only | with_reducible apply State.restOut_only | with_reducible apply State.beatOut_only | (fail_if_no_progress with_reducible apply upd_core_ring (Closed.mono cl (by decide))) | dsimp only | split)
  repeat' first | with_reducible assumption | exact Closed.mono cl (by decide) | (with_reducible intro _) | with_reducible apply onlyIte | with_reducible refine onlyFoldl ?_ ?_ | with_reducible apply State.takeHeld_only | with_reducible apply State.deferredDue_only | with_reducible apply State.fset_only | with_reducible apply State.restOut_only | with_reducible apply State.beatOut_only | (fail_if_no_progress with_reducible apply upd_core_ring (Closed.mono cl (by decide))) | dsimp only | split

theorem State.skipTurn_only {P : State → Prop} (cl : Closed P 0x200020004) {s : State} (h : Sat P s) (b : Nat) : Sat P (State.skipTurn s b) := by
  unfold State.skipTurn
  extract_lets +onlyGivenNames v_s1 v_s2 v_s3
  try (have h_s1 : Sat P v_s1 := by repeat' first | with_reducible assumption | exact Closed.mono cl (by decide) | (with_reducible intro _) | with_reducible apply onlyIte | with_reducible apply State.count_only | with_reducible apply State.fset_only | with_reducible apply State.beatOut_only | (fail_if_no_progress with_reducible apply upd_core (Closed.mono cl (by decide))) | dsimp only | split)
  try (have h_s2 : Sat P v_s2 := by repeat' first | with_reducible assumption | exact Closed.mono cl (by decide) | (with_reducible intro _) | with_reducible apply onlyIte | with_reducible apply State.count_only | with_reducible apply State.fset_only | with_reducible apply State.beatOut_only | (fail_if_no_progress with_reducible apply upd_core (Closed.mono cl (by decide))) | dsimp only | split)
  try (have h_s3 : Sat P v_s3 := by repeat' first | with_reducible assumption | exact Closed.mono cl (by decide) | (with_reducible intro _) | with_reducible apply onlyIte | with_reducible apply State.count_only | with_reducible apply State.fset_only | with_reducible apply State.beatOut_only | (fail_if_no_progress with_reducible apply upd_core (Closed.mono cl (by decide))) | dsimp only | split)
  repeat' first | with_reducible assumption | exact Closed.mono cl (by decide) | (with_reducible intro _) | with_reducible apply onlyIte | with_reducible apply State.count_only | with_reducible apply State.fset_only | with_reducible apply State.beatOut_only | (fail_if_no_progress with_reducible apply upd_core (Closed.mono cl (by decide))) | dsimp only | split

theorem State.spliceHold_only {P : State → Prop} (cl : Closed P 0x200000800) {s : State} (h : Sat P s) (b : Nat) : Sat P (State.spliceHold s b) := by
  unfold State.spliceHold
  extract_lets +onlyGivenNames v_st
  repeat' first | with_reducible assumption | exact Closed.mono cl (by decide) | (with_reducible intro _) | with_reducible apply onlyIte | with_reducible apply State.fset_only | with_reducible apply State.raiseAt_only | with_reducible apply State.count_only | dsimp only | split

theorem State.findBs_only {P : State → Prop} (cl : Closed P 0x20000) {s : State} (h : Sat P s) (b : Nat) : Sat P (State.findBs s b) := by
  unfold State.findBs
  repeat' first | with_reducible assumption | exact Closed.mono cl (by decide) | (with_reducible intro _) | with_reducible apply onlyIte | (fail_if_no_progress with_reducible apply upd_splice (Closed.mono cl (by decide))) | dsimp only | split

theorem State.beatMiss_only {P : State → Prop} (cl : Closed P 0x200020000) {s : State} (h : Sat P s)  : Sat P (State.beatMiss s) := by
  unfold State.beatMiss
  extract_lets +onlyGivenNames v_s1
  try (have h_s1 : Sat P v_s1 := by repeat' first | with_reducible assumption | exact Closed.mono cl (by decide) | (with_reducible intro _) | with_reducible apply onlyIte | with_reducible apply State.count_only | (fail_if_no_progress with_reducible apply upd_splice (Closed.mono cl (by decide))) | dsimp only | split)
  repeat' first | with_reducible assumption | exact Closed.mono cl (by decide) | (with_reducible intro _) | with_reducible apply onlyIte | with_reducible apply State.count_only | (fail_if_no_progress with_reducible apply upd_splice (Closed.mono cl (by decide))) | dsimp only | split

theorem State.stepEnds_only {P : State → Prop} (cl : Closed P 0x200000004) {s : State} (h : Sat P s)  : Sat P (State.stepEnds s) := by
  unfold State.stepEnds
  repeat' first | with_reducible assumption | exact Closed.mono cl (by decide) | (with_reducible intro _) | with_reducible apply onlyIte | with_reducible apply State.fset_only | (fail_if_no_progress with_reducible apply upd_core (Closed.mono cl (by decide))) | dsimp only | split

theorem State.boundaryNow_only {P : State → Prop} (cl : Closed P 0x30003986C) {s : State} (h : Sat P s)  : Sat P (State.boundaryNow s) := by
  unfold State.boundaryNow
  extract_lets +onlyGivenNames v_b v_s0 v_s1 v_s2 v_s3 v_s3' v_s4 v_s5 v_s6
  try (have h_s0 : Sat P v_s0 := by repeat' first | with_reducible assumption | exact Closed.mono cl (by decide) | (with_reducible intro _) | with_reducible apply onlyIte | with_reducible refine onlyEach ?_ ?_ | with_reducible apply State.fset_only | with_reducible apply State.trimWindow_only | with_reducible apply State.beatMiss_only | with_reducible apply State.spliceHold_only | with_reducible apply State.cancelPrefix_only | with_reducible apply State.stepEnds_only | with_reducible apply State.startTurn_only | with_reducible apply State.skipTurn_only | with_reducible apply State.findBs_only | with_reducible apply State.mirrorFill_only | (fail_if_no_progress with_reducible apply upd_core (Closed.mono cl (by decide))) | (fail_if_no_progress with_reducible apply upd_core_edge (Closed.mono cl (by decide))) | dsimp only | split)
  try (have h_s1 : Sat P v_s1 := by repeat' first | with_reducible assumption | exact Closed.mono cl (by decide) | (with_reducible intro _) | with_reducible apply onlyIte | with_reducible refine onlyEach ?_ ?_ | with_reducible apply State.fset_only | with_reducible apply State.trimWindow_only | with_reducible apply State.beatMiss_only | with_reducible apply State.spliceHold_only | with_reducible apply State.cancelPrefix_only | with_reducible apply State.stepEnds_only | with_reducible apply State.startTurn_only | with_reducible apply State.skipTurn_only | with_reducible apply State.findBs_only | with_reducible apply State.mirrorFill_only | (fail_if_no_progress with_reducible apply upd_core (Closed.mono cl (by decide))) | (fail_if_no_progress with_reducible apply upd_core_edge (Closed.mono cl (by decide))) | dsimp only | split)
  try (have h_s2 : Sat P v_s2 := by repeat' first | with_reducible assumption | exact Closed.mono cl (by decide) | (with_reducible intro _) | with_reducible apply onlyIte | with_reducible refine onlyEach ?_ ?_ | with_reducible apply State.fset_only | with_reducible apply State.trimWindow_only | with_reducible apply State.beatMiss_only | with_reducible apply State.spliceHold_only | with_reducible apply State.cancelPrefix_only | with_reducible apply State.stepEnds_only | with_reducible apply State.startTurn_only | with_reducible apply State.skipTurn_only | with_reducible apply State.findBs_only | with_reducible apply State.mirrorFill_only | (fail_if_no_progress with_reducible apply upd_core (Closed.mono cl (by decide))) | (fail_if_no_progress with_reducible apply upd_core_edge (Closed.mono cl (by decide))) | dsimp only | split)
  try (have h_s3 : Sat P v_s3 := by repeat' first | with_reducible assumption | exact Closed.mono cl (by decide) | (with_reducible intro _) | with_reducible apply onlyIte | with_reducible refine onlyEach ?_ ?_ | with_reducible apply State.fset_only | with_reducible apply State.trimWindow_only | with_reducible apply State.beatMiss_only | with_reducible apply State.spliceHold_only | with_reducible apply State.cancelPrefix_only | with_reducible apply State.stepEnds_only | with_reducible apply State.startTurn_only | with_reducible apply State.skipTurn_only | with_reducible apply State.findBs_only | with_reducible apply State.mirrorFill_only | (fail_if_no_progress with_reducible apply upd_core (Closed.mono cl (by decide))) | (fail_if_no_progress with_reducible apply upd_core_edge (Closed.mono cl (by decide))) | dsimp only | split)
  try (have h_s3' : Sat P v_s3' := by repeat' first | with_reducible assumption | exact Closed.mono cl (by decide) | (with_reducible intro _) | with_reducible apply onlyIte | with_reducible refine onlyEach ?_ ?_ | with_reducible apply State.fset_only | with_reducible apply State.trimWindow_only | with_reducible apply State.beatMiss_only | with_reducible apply State.spliceHold_only | with_reducible apply State.cancelPrefix_only | with_reducible apply State.stepEnds_only | with_reducible apply State.startTurn_only | with_reducible apply State.skipTurn_only | with_reducible apply State.findBs_only | with_reducible apply State.mirrorFill_only | (fail_if_no_progress with_reducible apply upd_core (Closed.mono cl (by decide))) | (fail_if_no_progress with_reducible apply upd_core_edge (Closed.mono cl (by decide))) | dsimp only | split)
  try (have h_s4 : Sat P v_s4 := by repeat' first | with_reducible assumption | exact Closed.mono cl (by decide) | (with_reducible intro _) | with_reducible apply onlyIte | with_reducible refine onlyEach ?_ ?_ | with_reducible apply State.fset_only | with_reducible apply State.trimWindow_only | with_reducible apply State.beatMiss_only | with_reducible apply State.spliceHold_only | with_reducible apply State.cancelPrefix_only | with_reducible apply State.stepEnds_only | with_reducible apply State.startTurn_only | with_reducible apply State.skipTurn_only | with_reducible apply State.findBs_only | with_reducible apply State.mirrorFill_only | (fail_if_no_progress with_reducible apply upd_core (Closed.mono cl (by decide))) | (fail_if_no_progress with_reducible apply upd_core_edge (Closed.mono cl (by decide))) | dsimp only | split)
  try (have h_s5 : Sat P v_s5 := by repeat' first | with_reducible assumption | exact Closed.mono cl (by decide) | (with_reducible intro _) | with_reducible apply onlyIte | with_reducible refine onlyEach ?_ ?_ | with_reducible apply State.fset_only | with_reducible apply State.trimWindow_only | with_reducible apply State.beatMiss_only | with_reducible apply State.spliceHold_only | with_reducible apply State.cancelPrefix_only | with_reducible apply State.stepEnds_only | with_reducible apply State.startTurn_only | with_reducible apply State.skipTurn_only | with_reducible apply State.findBs_only | with_reducible apply State.mirrorFill_only | (fail_if_no_progress with_reducible apply upd_core (Closed.mono cl (by decide))) | (fail_if_no_progress with_reducible apply upd_core_edge (Closed.mono cl (by decide))) | dsimp only | split)
  try (have h_s6 : Sat P v_s6 := by repeat' first | with_reducible assumption | exact Closed.mono cl (by decide) | (with_reducible intro _) | with_reducible apply onlyIte | with_reducible refine onlyEach ?_ ?_ | with_reducible apply State.fset_only | with_reducible apply State.trimWindow_only | with_reducible apply State.beatMiss_only | with_reducible apply State.spliceHold_only | with_reducible apply State.cancelPrefix_only | with_reducible apply State.stepEnds_only | with_reducible apply State.startTurn_only | with_reducible apply State.skipTurn_only | with_reducible apply State.findBs_only | with_reducible apply State.mirrorFill_only | (fail_if_no_progress with_reducible apply upd_core (Closed.mono cl (by decide))) | (fail_if_no_progress with_reducible apply upd_core_edge (Closed.mono cl (by decide))) | dsimp only | split)
  repeat' first | with_reducible assumption | exact Closed.mono cl (by decide) | (with_reducible intro _) | with_reducible apply onlyIte | with_reducible refine onlyEach ?_ ?_ | with_reducible apply State.fset_only | with_reducible apply State.trimWindow_only | with_reducible apply State.beatMiss_only | with_reducible apply State.spliceHold_only | with_reducible apply State.cancelPrefix_only | with_reducible apply State.stepEnds_only | with_reducible apply State.startTurn_only | with_reducible apply State.skipTurn_only | with_reducible apply State.findBs_only | with_reducible apply State.mirrorFill_only | (fail_if_no_progress with_reducible apply upd_core (Closed.mono cl (by decide))) | (fail_if_no_progress with_reducible apply upd_core_edge (Closed.mono cl (by decide))) | dsimp only | split

theorem State.releaseOutputs_only {P : State → Prop} (cl : Closed P 0x8004) {s : State} (h : Sat P s)  : Sat P (State.releaseOutputs s) := by
  unfold State.releaseOutputs
  repeat' first | with_reducible assumption | exact Closed.mono cl (by decide) | (with_reducible intro _) | with_reducible apply onlyIte | (fail_if_no_progress with_reducible apply upd_core_edge (Closed.mono cl (by decide))) | dsimp only | split

theorem State.overrun_only {P : State → Prop} (cl : Closed P 0x300000804) {s : State} (h : Sat P s)  : Sat P (State.overrun s) := by
  unfold State.overrun
  repeat' first | with_reducible assumption | exact Closed.mono cl (by decide) | (with_reducible intro _) | with_reducible apply onlyIte | with_reducible apply State.drawn_only | with_reducible apply State.raise_only | with_reducible apply State.count_only | with_reducible apply State.fset_only | (fail_if_no_progress with_reducible apply upd_core (Closed.mono cl (by decide))) | dsimp only | split

theorem State.haltNow_only {P : State → Prop} (cl : Closed P 0x200000000) {s : State} (h : Sat P s) (v : Bool) : Sat P (State.haltNow s v) := by
  unfold State.haltNow
  repeat' first | with_reducible assumption | exact Closed.mono cl (by decide) | (with_reducible intro _) | with_reducible apply onlyIte | with_reducible apply State.setBit_only | dsimp only | split

theorem State.relockNow_only {P : State → Prop} (cl : Closed P 0x200000004) {s : State} (h : Sat P s)  : Sat P (State.relockNow s) := by
  unfold State.relockNow
  repeat' first | with_reducible assumption | exact Closed.mono cl (by decide) | (with_reducible intro _) | with_reducible apply onlyIte | with_reducible apply State.fset_only | (fail_if_no_progress with_reducible apply upd_core (Closed.mono cl (by decide))) | dsimp only | split

theorem State.newT0_only {P : State → Prop} (cl : Closed P 0x200000004) {s : State} (h : Sat P s)  : Sat P (State.newT0 s) := by
  unfold State.newT0
  repeat' first | with_reducible assumption | exact Closed.mono cl (by decide) | (with_reducible intro _) | with_reducible apply onlyIte | with_reducible apply State.gridAt_only | dsimp only | split

theorem State.realignNow_only {P : State → Prop} (cl : Closed P 0x200020004) {s : State} (h : Sat P s)  : Sat P (State.realignNow s) := by
  unfold State.realignNow
  repeat' first | with_reducible assumption | exact Closed.mono cl (by decide) | (with_reducible intro _) | with_reducible apply onlyIte | with_reducible apply State.wset_only | with_reducible apply State.newT0_only | with_reducible apply State.rebin_only | with_reducible apply State.fset_only | (fail_if_no_progress with_reducible apply upd_core_splice (Closed.mono cl (by decide))) | dsimp only | split

theorem State.scrubWord_only {P : State → Prop} (cl : Closed P 0x200000010) {s : State} (h : Sat P s) (g t : Nat) : Sat P (State.scrubWord s g t) := by
  unfold State.scrubWord
  repeat' first | with_reducible assumption | exact Closed.mono cl (by decide) | (with_reducible intro _) | with_reducible apply onlyIte | with_reducible apply State.countUe_only | with_reducible apply State.count_only | with_reducible apply State.setReg_only | (fail_if_no_progress with_reducible apply upd_instrs (Closed.mono cl (by decide))) | dsimp only | split

theorem State.scrub_only {P : State → Prop} (cl : Closed P 0x200000010) {s : State} (h : Sat P s) (c : Nat) : Sat P (State.scrub s c) := by
  unfold State.scrub
  repeat' first | with_reducible assumption | exact Closed.mono cl (by decide) | (with_reducible intro _) | with_reducible apply onlyIte | with_reducible refine onlyEach ?_ ?_ | with_reducible apply State.scrubWord_only | with_reducible apply State.fset_only | with_reducible apply State.countWrap_only | dsimp only | split

theorem execCommit_only {P : State → Prop} (cl : Closed P 0x70002486C) {s : State} (h : Sat P s)  : OnlyO P (execCommit s) := by
  unfold execCommit
  repeat' first | with_reducible assumption | exact Closed.mono cl (by decide) | (with_reducible intro _) | with_reducible apply onlyIte | with_reducible apply onlyIteO | with_reducible apply onlyNext | with_reducible apply State.watch_only | with_reducible apply State.commitTurn_only | dsimp only | split

theorem execTurnBoundary_only {P : State → Prop} (cl : Closed P 0x30003986C) {s : State} (h : Sat P s)  : OnlyO P (execTurnBoundary s) := by
  unfold execTurnBoundary
  repeat' first | with_reducible assumption | exact Closed.mono cl (by decide) | (with_reducible intro _) | with_reducible apply onlyIte | with_reducible apply onlyIteO | with_reducible apply onlyNext | with_reducible apply State.fset_only | with_reducible apply State.drawn_only | with_reducible apply State.watch_only | with_reducible apply State.boundaryNow_only | dsimp only | split

theorem execPrefixStart_only {P : State → Prop} (cl : Closed P 0x4) {s : State} (h : Sat P s)  : OnlyO P (execPrefixStart s) := by
  unfold execPrefixStart
  repeat' first | with_reducible assumption | exact Closed.mono cl (by decide) | (with_reducible intro _) | with_reducible apply onlyIte | with_reducible apply onlyIteO | with_reducible apply onlyNext | (fail_if_no_progress with_reducible apply upd_core (Closed.mono cl (by decide))) | dsimp only | split

theorem execPrefixCancel_only {P : State → Prop} (cl : Closed P 0x20000104C) {s : State} (h : Sat P s)  : OnlyO P (execPrefixCancel s) := by
  unfold execPrefixCancel
  repeat' first | with_reducible assumption | exact Closed.mono cl (by decide) | (with_reducible intro _) | with_reducible apply onlyIte | with_reducible apply onlyIteO | with_reducible apply onlyNext | with_reducible apply State.cancelPrefix_only | dsimp only | split

theorem execOutputRelease_only {P : State → Prop} (cl : Closed P 0x8004) {s : State} (h : Sat P s)  : OnlyO P (execOutputRelease s) := by
  unfold execOutputRelease
  repeat' first | with_reducible assumption | exact Closed.mono cl (by decide) | (with_reducible intro _) | with_reducible apply onlyIte | with_reducible apply onlyIteO | with_reducible apply onlyNext | with_reducible apply State.releaseOutputs_only | dsimp only | split

theorem execTurnOverrun_only {P : State → Prop} (cl : Closed P 0x300000804) {s : State} (h : Sat P s)  : OnlyO P (execTurnOverrun s) := by
  unfold execTurnOverrun
  repeat' first | with_reducible assumption | exact Closed.mono cl (by decide) | (with_reducible intro _) | with_reducible apply onlyIte | with_reducible apply onlyIteO | with_reducible apply onlyNext | with_reducible apply State.watch_only | with_reducible apply State.overrun_only | dsimp only | split

theorem execScrubStep_only {P : State → Prop} (cl : Closed P 0x200000010) {s : State} (h : Sat P s) (cord : CordId) : OnlyO P (execScrubStep cord s) := by
  unfold execScrubStep
  repeat' first | with_reducible assumption | exact Closed.mono cl (by decide) | (with_reducible intro _) | with_reducible apply onlyIte | with_reducible apply onlyIteO | with_reducible apply onlyNext | with_reducible apply State.scrub_only | dsimp only | split

theorem execAnchorLost_only {P : State → Prop} (cl : Closed P 0x200000804) {s : State} (h : Sat P s)  : OnlyO P (execAnchorLost s) := by
  unfold execAnchorLost
  repeat' first | with_reducible assumption | exact Closed.mono cl (by decide) | (with_reducible intro _) | with_reducible apply onlyIte | with_reducible apply onlyIteO | with_reducible apply onlyNext | with_reducible apply State.loseAnchor_only | dsimp only | split

theorem execHalt_only {P : State → Prop} (cl : Closed P 0x302101040) {s : State} (h : Sat P s) (v : Bool) : OnlyO P (execHalt v s) := by
  unfold execHalt
  repeat' first | with_reducible assumption | exact Closed.mono cl (by decide) | (with_reducible intro _) | with_reducible apply onlyIte | with_reducible apply onlyIteO | with_reducible apply onlyNext | with_reducible apply State.hostCmd_only | with_reducible apply State.haltNow_only | dsimp only | split

theorem State.stepNow_only {P : State → Prop} (cl : Closed P 0x200000000) {s : State} (h : Sat P s)  : Sat P (State.stepNow s) := by
  unfold State.stepNow
  repeat' first | with_reducible assumption | exact Closed.mono cl (by decide) | (with_reducible intro _) | with_reducible apply onlyIte | with_reducible apply State.fset_only | dsimp only | split

theorem execSingleStep_only {P : State → Prop} (cl : Closed P 0x302101040) {s : State} (h : Sat P s)  : OnlyO P (execSingleStep s) := by
  unfold execSingleStep
  repeat' first | with_reducible assumption | exact Closed.mono cl (by decide) | (with_reducible intro _) | with_reducible apply onlyIte | with_reducible apply onlyIteO | with_reducible apply onlyNext | with_reducible apply State.hostCmd_only | with_reducible apply State.stepNow_only | dsimp only | split

theorem execRelock_only {P : State → Prop} (cl : Closed P 0x302101044) {s : State} (h : Sat P s)  : OnlyO P (execRelock s) := by
  unfold execRelock
  repeat' first | with_reducible assumption | exact Closed.mono cl (by decide) | (with_reducible intro _) | with_reducible apply onlyIte | with_reducible apply onlyIteO | with_reducible apply onlyNext | with_reducible apply State.hostCmd_only | with_reducible apply State.relockNow_only | dsimp only | split

theorem execRealign_only {P : State → Prop} (cl : Closed P 0x302121044) {s : State} (h : Sat P s)  : OnlyO P (execRealign s) := by
  unfold execRealign
  repeat' first | with_reducible assumption | exact Closed.mono cl (by decide) | (with_reducible intro _) | with_reducible apply onlyIte | with_reducible apply onlyIteO | with_reducible apply onlyNext | with_reducible apply State.hostCmd_only | with_reducible apply State.realignNow_only | dsimp only | split

theorem execSlackRst_only {P : State → Prop} (cl : Closed P 0x302101040) {s : State} (h : Sat P s)  : OnlyO P (execSlackRst s) := by
  unfold execSlackRst
  repeat' first | with_reducible assumption | exact Closed.mono cl (by decide) | (with_reducible intro _) | with_reducible apply onlyIte | with_reducible apply onlyIteO | with_reducible apply onlyNext | with_reducible apply State.hostCmd_only | with_reducible apply State.fset_only | dsimp only | split

theorem State.plainStart_only {P : State → Prop} (cl : Closed P 0x4200000000) {s : State} (h : Sat P s) (por : Bool) : Sat P (State.plainStart s por) := by
  unfold State.plainStart
  repeat' first | with_reducible assumption | exact Closed.mono cl (by decide) | (with_reducible intro _) | with_reducible apply onlyIte | with_reducible apply State.restart_only | with_reducible apply State.fset_only | dsimp only | split

theorem State.faultStart_only {P : State → Prop} (cl : Closed P 0x4200000000) {s : State} (h : Sat P s) (code : Nat) : Sat P (State.faultStart s code) := by
  unfold State.faultStart
  repeat' first | with_reducible assumption | exact Closed.mono cl (by decide) | (with_reducible intro _) | with_reducible apply onlyIte | with_reducible apply State.restart_only | with_reducible apply State.fset_only | dsimp only | split

theorem State.countReset_only {P : State → Prop} (cl : Closed P 0x4000000) {s : State} (h : Sat P s)  : Sat P (State.countReset s) := by
  unfold State.countReset
  repeat' first | with_reducible assumption | exact Closed.mono cl (by decide) | (with_reducible intro _) | with_reducible apply onlyIte | (fail_if_no_progress with_reducible apply upd_store (Closed.mono cl (by decide))) | with_reducible exact rfl | dsimp only | split

theorem State.countCycle_only {P : State → Prop} (cl : Closed P 0x4000000) {s : State} (h : Sat P s)  : Sat P (State.countCycle s) := by
  unfold State.countCycle
  repeat' first | with_reducible assumption | exact Closed.mono cl (by decide) | (with_reducible intro _) | with_reducible apply onlyIte | (fail_if_no_progress with_reducible apply upd_store (Closed.mono cl (by decide))) | with_reducible exact rfl | dsimp only | split

theorem State.latchIds_only {P : State → Prop} (cl : Closed P 0x8000000) {s : State} (h : Sat P s)  : Sat P (State.latchIds s) := by
  unfold State.latchIds
  repeat' first | with_reducible assumption | exact Closed.mono cl (by decide) | (with_reducible intro _) | with_reducible apply onlyIte | (fail_if_no_progress with_reducible apply upd_sec (Closed.mono cl (by decide))) | dsimp only | split

theorem execPorN_only {P : State → Prop} (cl : Closed P 0x424C000000) {s : State} (h : Sat P s) (asserted : Bool) : OnlyO P (execPorN asserted s) := by
  unfold execPorN
  repeat' first | with_reducible assumption | exact Closed.mono cl (by decide) | (with_reducible intro _) | with_reducible apply onlyIte | with_reducible apply onlyIteO | with_reducible apply onlyNext | with_reducible apply State.countReset_only | with_reducible apply State.countCycle_only | with_reducible apply State.plainStart_only | with_reducible apply State.latchIds_only | (fail_if_no_progress with_reducible apply upd_por (Closed.mono cl (by decide))) | dsimp only | split

theorem execWarmN_only {P : State → Prop} (cl : Closed P 0x4288000000) {s : State} (h : Sat P s) (asserted : Bool) : OnlyO P (execWarmN asserted s) := by
  unfold execWarmN
  repeat' first | with_reducible assumption | exact Closed.mono cl (by decide) | (with_reducible intro _) | with_reducible apply onlyIte | with_reducible apply onlyIteO | with_reducible apply onlyNext | with_reducible apply State.plainStart_only | with_reducible apply State.latchIds_only | (fail_if_no_progress with_reducible apply upd_warm (Closed.mono cl (by decide))) | dsimp only | split

theorem execBrownout_only {P : State → Prop} (cl : Closed P 0x420C000000) {s : State} (h : Sat P s)  : OnlyO P (execBrownout s) := by
  unfold execBrownout
  repeat' first | with_reducible assumption | exact Closed.mono cl (by decide) | (with_reducible intro _) | with_reducible apply onlyIte | with_reducible apply onlyIteO | with_reducible apply onlyNext | with_reducible apply State.countReset_only | with_reducible apply State.plainStart_only | with_reducible apply State.latchIds_only | dsimp only | split

theorem State.trigIn_only {P : State → Prop} (cl : Closed P 0x220004000) {s : State} (h : Sat P s) (i : Nat) : Sat P (State.trigIn s i) := by
  unfold State.trigIn
  extract_lets +onlyGivenNames v_l v_bit v_conflict v_was v_v v_s1 v_s2 v_keep
  try (have h_s1 : Sat P v_s1 := by repeat' first | with_reducible assumption | exact Closed.mono cl (by decide) | (with_reducible intro _) | with_reducible apply onlyIte | with_reducible apply State.fset_only | with_reducible apply State.level_only | (fail_if_no_progress with_reducible apply upd_pins (Closed.mono cl (by decide))) | dsimp only | split)
  try (have h_s2 : Sat P v_s2 := by repeat' first | with_reducible assumption | exact Closed.mono cl (by decide) | (with_reducible intro _) | with_reducible apply onlyIte | with_reducible apply State.fset_only | with_reducible apply State.level_only | (fail_if_no_progress with_reducible apply upd_pins (Closed.mono cl (by decide))) | dsimp only | split)
  repeat' first | with_reducible assumption | exact Closed.mono cl (by decide) | (with_reducible intro _) | with_reducible apply onlyIte | with_reducible apply State.fset_only | with_reducible apply State.level_only | (fail_if_no_progress with_reducible apply upd_pins (Closed.mono cl (by decide))) | dsimp only | split

theorem State.trigIns_only {P : State → Prop} (cl : Closed P 0x220004000) {s : State} (h : Sat P s)  : Sat P (State.trigIns s) := by
  unfold State.trigIns
  repeat' first | with_reducible assumption | exact Closed.mono cl (by decide) | (with_reducible intro _) | with_reducible apply onlyIte | with_reducible refine onlyEach ?_ ?_ | with_reducible apply State.trigIn_only | dsimp only | split

theorem State.filterRestart_only {P : State → Prop} (cl : Closed P 0x40000) {s : State} (h : Sat P s) (n : Nat) : Sat P (State.filterRestart s n) := by
  unfold State.filterRestart
  extract_lets +onlyGivenNames v_v
  repeat' first | with_reducible assumption | exact Closed.mono cl (by decide) | (with_reducible intro _) | with_reducible apply onlyIte | (fail_if_no_progress with_reducible apply upd_pinIn (Closed.mono cl (by decide))) | dsimp only | split

theorem State.cellMoves_only {P : State → Prop} (cl : Closed P 0x8000) {s : State} (h : Sat P s) (n : Nat) : Sat P (State.cellMoves s n) := by
  unfold State.cellMoves
  repeat' first | with_reducible assumption | exact Closed.mono cl (by decide) | (with_reducible intro _) | with_reducible apply onlyIte | with_reducible apply State.setIo_only | dsimp only | split

theorem State.pinSwitch_only {P : State → Prop} (cl : Closed P 0x320048000) {s : State} (h : Sat P s) (n : Nat) (v : W32) : Sat P (State.pinSwitch s n v) := by
  unfold State.pinSwitch
  extract_lets +onlyGivenNames v_old v_new v_cell v_free v_was v_s1 v_s2 v_s3
  try (have h_s1 : Sat P v_s1 := by repeat' first | with_reducible assumption | exact Closed.mono cl (by decide) | (with_reducible intro _) | with_reducible apply onlyIte | with_reducible apply State.fset_only | with_reducible apply State.drawn_only | with_reducible apply State.cellMoves_only | with_reducible apply State.setIo_only | with_reducible apply State.filterRestart_only | (fail_if_no_progress with_reducible apply upd_pins (Closed.mono cl (by decide))) | dsimp only | split)
  try (have h_s2 : Sat P v_s2 := by repeat' first | with_reducible assumption | exact Closed.mono cl (by decide) | (with_reducible intro _) | with_reducible apply onlyIte | with_reducible apply State.fset_only | with_reducible apply State.drawn_only | with_reducible apply State.cellMoves_only | with_reducible apply State.setIo_only | with_reducible apply State.filterRestart_only | (fail_if_no_progress with_reducible apply upd_pins (Closed.mono cl (by decide))) | dsimp only | split)
  try (have h_s3 : Sat P v_s3 := by repeat' first | with_reducible assumption | exact Closed.mono cl (by decide) | (with_reducible intro _) | with_reducible apply onlyIte | with_reducible apply State.fset_only | with_reducible apply State.drawn_only | with_reducible apply State.cellMoves_only | with_reducible apply State.setIo_only | with_reducible apply State.filterRestart_only | (fail_if_no_progress with_reducible apply upd_pins (Closed.mono cl (by decide))) | dsimp only | split)
  repeat' first | with_reducible assumption | exact Closed.mono cl (by decide) | (with_reducible intro _) | with_reducible apply onlyIte | with_reducible apply State.fset_only | with_reducible apply State.drawn_only | with_reducible apply State.cellMoves_only | with_reducible apply State.setIo_only | with_reducible apply State.filterRestart_only | (fail_if_no_progress with_reducible apply upd_pins (Closed.mono cl (by decide))) | dsimp only | split

theorem State.pinEnable_only {P : State → Prop} (cl : Closed P 0x200040000) {s : State} (h : Sat P s) (b : Nat) (v : W32) : Sat P (State.pinEnable s b v) := by
  unfold State.pinEnable
  extract_lets +onlyGivenNames v_gone
  repeat' first | with_reducible assumption | exact Closed.mono cl (by decide) | (with_reducible intro _) | with_reducible apply onlyIte | with_reducible refine onlyEach ?_ ?_ | with_reducible apply State.setReg_only | with_reducible apply State.filterRestart_only | dsimp only | split

theorem State.pinEdge_only {P : State → Prop} (cl : Closed P 0x32004C000) {s : State} (h : Sat P s)  : Sat P (State.pinEdge s) := by
  unfold State.pinEdge
  extract_lets +onlyGivenNames v_l v_due v_s1
  try (have h_s1 : Sat P v_s1 := by repeat' first | with_reducible assumption | exact Closed.mono cl (by decide) | (with_reducible intro _) | with_reducible apply onlyIte | with_reducible refine onlyEach ?_ ?_ | with_reducible apply State.pinSwitch_only | with_reducible apply State.trigIns_only | (fail_if_no_progress with_reducible apply upd_pins (Closed.mono cl (by decide))) | dsimp only | split)
  repeat' first | with_reducible assumption | exact Closed.mono cl (by decide) | (with_reducible intro _) | with_reducible apply onlyIte | with_reducible refine onlyEach ?_ ?_ | with_reducible apply State.pinSwitch_only | with_reducible apply State.trigIns_only | (fail_if_no_progress with_reducible apply upd_pins (Closed.mono cl (by decide))) | dsimp only | split

theorem State.pinCfg_only {P : State → Prop} (cl : Closed P 0x220000000) {s : State} (h : Sat P s) (n : Nat) (v : W32) : Sat P (State.pinCfg s n v) := by
  unfold State.pinCfg
  repeat' first | with_reducible assumption | exact Closed.mono cl (by decide) | (with_reducible intro _) | with_reducible apply onlyIte | with_reducible apply State.setReg_only | (fail_if_no_progress with_reducible apply upd_pins (Closed.mono cl (by decide))) | dsimp only | split

theorem State.pinLock_only {P : State → Prop} (cl : Closed P 0x220000000) {s : State} (h : Sat P s) (v : W32) : Sat P (State.pinLock s v) := by
  unfold State.pinLock
  extract_lets +onlyGivenNames v_p v_key v_seq
  repeat' first | with_reducible assumption | exact Closed.mono cl (by decide) | (with_reducible intro _) | with_reducible apply onlyIte | with_reducible refine onlyEach ?_ ?_ | with_reducible apply State.fset_only | (fail_if_no_progress with_reducible apply upd_pins (Closed.mono cl (by decide))) | dsimp only | split

theorem State.pinPasses_only {P : State → Prop} (cl : Closed P 0x220064000) {s : State} (h : Sat P s) (p : PinId) (level : Bool) : Sat P (State.pinPasses s p level) := by
  unfold State.pinPasses
  extract_lets +onlyGivenNames v_s1
  try (have h_s1 : Sat P v_s1 := by repeat' first | with_reducible assumption | exact Closed.mono cl (by decide) | (with_reducible intro _) | with_reducible apply onlyIte | with_reducible apply State.trigIn_only | (fail_if_no_progress with_reducible apply upd_pinIn (Closed.mono cl (by decide))) | (fail_if_no_progress with_reducible apply upd_splice (Closed.mono cl (by decide))) | dsimp only | split)
  repeat' first | with_reducible assumption | exact Closed.mono cl (by decide) | (with_reducible intro _) | with_reducible apply onlyIte | with_reducible apply State.trigIn_only | (fail_if_no_progress with_reducible apply upd_pinIn (Closed.mono cl (by decide))) | (fail_if_no_progress with_reducible apply upd_splice (Closed.mono cl (by decide))) | dsimp only | split

theorem State.pinLevelChange_only {P : State → Prop} (cl : Closed P 0x2200EC000) {s : State} (h : Sat P s) (p : PinId) (level filtered : Bool) : Sat P (State.pinLevelChange s p level filtered) := by
  unfold State.pinLevelChange
  repeat' first | with_reducible assumption | exact Closed.mono cl (by decide) | (with_reducible intro _) | with_reducible apply onlyIte | with_reducible apply State.pinPasses_only | with_reducible apply State.cellMoves_only | (fail_if_no_progress with_reducible apply upd_land (Closed.mono cl (by decide))) | (fail_if_no_progress with_reducible apply upd_pinIn_splice (Closed.mono cl (by decide))) | dsimp only | split

theorem execPinCfg_only {P : State → Prop} (cl : Closed P 0x322101040) {s : State} (h : Sat P s) (n : BitVec 8) (v : W32) : OnlyO P (execPinCfg n v s) := by
  unfold execPinCfg
  repeat' first | with_reducible assumption | exact Closed.mono cl (by decide) | (with_reducible intro _) | with_reducible apply onlyIte | with_reducible apply onlyIteO | with_reducible apply onlyNext | with_reducible apply State.hostCmd_only | with_reducible apply State.pinCfg_only | dsimp only | split

theorem execPinLock_only {P : State → Prop} (cl : Closed P 0x322101040) {s : State} (h : Sat P s) (v : W32) : OnlyO P (execPinLock v s) := by
  unfold execPinLock
  repeat' first | with_reducible assumption | exact Closed.mono cl (by decide) | (with_reducible intro _) | with_reducible apply onlyIte | with_reducible apply onlyIteO | with_reducible apply onlyNext | with_reducible apply State.hostCmd_only | with_reducible apply State.pinLock_only | dsimp only | split

theorem execPinInput_only {P : State → Prop} (cl : Closed P 0x2200EC000) {s : State} (h : Sat P s) (p : PinId) (level : PinLevel) : OnlyO P (execPinInput p level s) := by
  unfold execPinInput
  repeat' first | with_reducible assumption | exact Closed.mono cl (by decide) | (with_reducible intro _) | with_reducible apply onlyIte | with_reducible apply onlyIteO | with_reducible apply onlyNext | with_reducible apply State.pinLevelChange_only | with_reducible apply State.level_only | dsimp only | split

theorem State.endStrobes_only {P : State → Prop} (cl : Closed P 0x8000) {s : State} (h : Sat P s) (die : Nat) : Sat P (State.endStrobes s die) := by
  unfold State.endStrobes
  extract_lets +onlyGivenNames v_keep
  repeat' first | with_reducible assumption | exact Closed.mono cl (by decide) | (with_reducible intro _) | with_reducible apply onlyIte | (fail_if_no_progress with_reducible apply upd_edge (Closed.mono cl (by decide))) | dsimp only | split

theorem State.clockEdge_only {P : State → Prop} (cl : Closed P 0x32004C000) {s : State} (h : Sat P s) (die : Nat) (clk : EdgeClk) : Sat P (State.clockEdge s die clk) := by
  unfold State.clockEdge
  repeat' first | with_reducible assumption | exact Closed.mono cl (by decide) | (with_reducible intro _) | with_reducible apply onlyIte | with_reducible apply State.pinEdge_only | with_reducible apply State.trigEdge_only | with_reducible apply State.fabricEdge_only | with_reducible apply State.readEdge_only | with_reducible apply State.endStrobes_only | dsimp only | split

theorem execBlockClockEdge_only {P : State → Prop} (cl : Closed P 0x32004C000) {s : State} (h : Sat P s) (die : Bool) (clk : EdgeClk) : OnlyO P (execBlockClockEdge die clk s) := by
  unfold execBlockClockEdge
  repeat' first | with_reducible assumption | exact Closed.mono cl (by decide) | (with_reducible intro _) | with_reducible apply onlyIte | with_reducible apply onlyIteO | with_reducible apply onlyNext | with_reducible apply State.clockEdge_only | dsimp only | split

theorem execCalibratorUpdate_only {P : State → Prop} (cl : Closed P 0x200000000) {s : State} (h : Sat P s) (k : BitVec 3) (taps : BitVec 10) : OnlyO P (execCalibratorUpdate k taps s) := by
  unfold execCalibratorUpdate
  repeat' first | with_reducible assumption | exact Closed.mono cl (by decide) | (with_reducible intro _) | with_reducible apply onlyIte | with_reducible apply onlyIteO | with_reducible apply onlyNext | with_reducible apply State.fset_only | dsimp only | split

theorem State.loseReports_only {P : State → Prop} (cl : Closed P 0x200000800) {s : State} (h : Sat P s) (gone : Nat → Bool) : Sat P (State.loseReports s gone) := by
  unfold State.loseReports
  extract_lets +onlyGivenNames v_lost v_srcs
  repeat' first | with_reducible assumption | exact Closed.mono cl (by decide) | (with_reducible intro _) | with_reducible apply onlyIte | with_reducible refine onlyEach ?_ ?_ | with_reducible apply State.fset_only | (fail_if_no_progress with_reducible apply upd_reports (Closed.mono cl (by decide))) | dsimp only | split

theorem State.takeover_only {P : State → Prop} (cl : Closed P 0x200020000) {s : State} (h : Sat P s)  : Sat P (State.takeover s) := by
  unfold State.takeover
  extract_lets +onlyGivenNames v_s1
  try (have h_s1 : Sat P v_s1 := by repeat' first | with_reducible assumption | exact Closed.mono cl (by decide) | (with_reducible intro _) | with_reducible apply onlyIte | with_reducible apply State.fset_only | (fail_if_no_progress with_reducible apply upd_splice (Closed.mono cl (by decide))) | dsimp only | split)
  repeat' first | with_reducible assumption | exact Closed.mono cl (by decide) | (with_reducible intro _) | with_reducible apply onlyIte | with_reducible apply State.fset_only | (fail_if_no_progress with_reducible apply upd_splice (Closed.mono cl (by decide))) | dsimp only | split

theorem State.logEntry_only {P : State → Prop} (cl : Closed P 0x200000000) {s : State} (h : Sat P s) (code cls : Nat) : Sat P (State.logEntry s code cls) := by
  unfold State.logEntry
  extract_lets +onlyGivenNames v_i v_a v_s1 v_s2 v_s3
  try (have h_s1 : Sat P v_s1 := by repeat' first | with_reducible assumption | exact Closed.mono cl (by decide) | (with_reducible intro _) | with_reducible apply onlyIte | with_reducible apply State.setReg_only | with_reducible apply State.setWords_only | with_reducible apply State.fset_only | dsimp only | split)
  try (have h_s2 : Sat P v_s2 := by repeat' first | with_reducible assumption | exact Closed.mono cl (by decide) | (with_reducible intro _) | with_reducible apply onlyIte | with_reducible apply State.setReg_only | with_reducible apply State.setWords_only | with_reducible apply State.fset_only | dsimp only | split)
  try (have h_s3 : Sat P v_s3 := by repeat' first | with_reducible assumption | exact Closed.mono cl (by decide) | (with_reducible intro _) | with_reducible apply onlyIte | with_reducible apply State.setReg_only | with_reducible apply State.setWords_only | with_reducible apply State.fset_only | dsimp only | split)
  repeat' first | with_reducible assumption | exact Closed.mono cl (by decide) | (with_reducible intro _) | with_reducible apply onlyIte | with_reducible apply State.setReg_only | with_reducible apply State.setWords_only | with_reducible apply State.fset_only | dsimp only | split

theorem State.safeOn_only {P : State → Prop} (cl : Closed P 0x200000000) {s : State} (h : Sat P s) (code : Nat) : Sat P (State.safeOn s code) := by
  unfold State.safeOn
  repeat' first | with_reducible assumption | exact Closed.mono cl (by decide) | (with_reducible intro _) | with_reducible apply onlyIte | with_reducible apply State.fset_only | dsimp only | split

theorem State.enterSafe_only {P : State → Prop} (cl : Closed P 0x204000200) {s : State} (h : Sat P s) (code cls : Nat) : Sat P (State.enterSafe s code cls) := by
  unfold State.enterSafe
  repeat' first | with_reducible assumption | exact Closed.mono cl (by decide) | (with_reducible intro _) | with_reducible apply onlyIte | with_reducible refine onlyEach ?_ ?_ | with_reducible apply State.safeOn_only | with_reducible apply State.capRecord_only | with_reducible apply State.logEntry_only | (fail_if_no_progress with_reducible apply upd_store (Closed.mono cl (by decide))) | with_reducible exact rfl | dsimp only | split

theorem State.failover_only {P : State → Prop} (cl : Closed P 0x204220200) {s : State} (h : Sat P s) (code : Nat) : Sat P (State.failover s code) := by
  unfold State.failover
  extract_lets +onlyGivenNames v_s1 v_s2
  try (have h_s1 : Sat P v_s1 := by repeat' first | with_reducible assumption | exact Closed.mono cl (by decide) | (with_reducible intro _) | with_reducible apply onlyIte | with_reducible apply State.takeover_only | with_reducible apply State.enterSafe_only | (fail_if_no_progress with_reducible apply upd_flt_splice (Closed.mono cl (by decide))) | dsimp only | split)
  try (have h_s2 : Sat P v_s2 := by repeat' first | with_reducible assumption | exact Closed.mono cl (by decide) | (with_reducible intro _) | with_reducible apply onlyIte | with_reducible apply State.takeover_only | with_reducible apply State.enterSafe_only | (fail_if_no_progress with_reducible apply upd_flt_splice (Closed.mono cl (by decide))) | dsimp only | split)
  repeat' first | with_reducible assumption | exact Closed.mono cl (by decide) | (with_reducible intro _) | with_reducible apply onlyIte | with_reducible apply State.takeover_only | with_reducible apply State.enterSafe_only | (fail_if_no_progress with_reducible apply upd_flt_splice (Closed.mono cl (by decide))) | dsimp only | split

theorem State.c3Action_only {P : State → Prop} (cl : Closed P 0x4204220200) {s : State} (h : Sat P s) (code : Nat) : Sat P (State.c3Action s code) := by
  unfold State.c3Action
  repeat' first | with_reducible assumption | exact Closed.mono cl (by decide) | (with_reducible intro _) | with_reducible apply onlyIte | with_reducible apply State.logEntry_only | with_reducible apply State.faultStart_only | with_reducible apply State.failover_only | dsimp only | split

theorem State.startGrace_only {P : State → Prop} (cl : Closed P 0x200202000) {s : State} (h : Sat P s) (code : Nat) : Sat P (State.startGrace s code) := by
  unfold State.startGrace
  extract_lets +onlyGivenNames v_s1
  try (have h_s1 : Sat P v_s1 := by repeat' first | with_reducible assumption | exact Closed.mono cl (by decide) | (with_reducible intro _) | with_reducible apply onlyIte | with_reducible apply State.fset_only | (fail_if_no_progress with_reducible apply upd_flt_time (Closed.mono cl (by decide))) | dsimp only | split)
  repeat' first | with_reducible assumption | exact Closed.mono cl (by decide) | (with_reducible intro _) | with_reducible apply onlyIte | with_reducible apply State.fset_only | (fail_if_no_progress with_reducible apply upd_flt_time (Closed.mono cl (by decide))) | dsimp only | split

theorem State.stopGrace_only {P : State → Prop} (cl : Closed P 0x200000000) {s : State} (h : Sat P s)  : Sat P (State.stopGrace s) := by
  unfold State.stopGrace
  repeat' first | with_reducible assumption | exact Closed.mono cl (by decide) | (with_reducible intro _) | with_reducible apply onlyIte | with_reducible apply State.fset_only | dsimp only | split

theorem State.graceRun_only {P : State → Prop} (cl : Closed P 0x200002000) {s : State} (h : Sat P s)  : Sat P (State.graceRun s) := by
  unfold State.graceRun
  extract_lets +onlyGivenNames v_us
  repeat' first | with_reducible assumption | exact Closed.mono cl (by decide) | (with_reducible intro _) | with_reducible apply onlyIte | with_reducible apply State.fset_only | (fail_if_no_progress with_reducible apply upd_time (Closed.mono cl (by decide))) | dsimp only | split

theorem State.react_only {P : State → Prop} (cl : Closed P 0x4204220200) {s : State} (h : Sat P s) (l : List (Nat × Nat)) : Sat P (State.react s l) := by
  unfold State.react
  repeat' first | with_reducible assumption | exact Closed.mono cl (by decide) | (with_reducible intro _) | with_reducible apply onlyIte | with_reducible apply State.c3Action_only | with_reducible apply State.enterSafe_only | dsimp only | split

theorem State.reactOrWait_only {P : State → Prop} (cl : Closed P 0x4204220200) {s : State} (h : Sat P s) (l : List (Nat × Nat)) : Sat P (State.reactOrWait s l) := by
  unfold State.reactOrWait
  repeat' first | with_reducible assumption | exact Closed.mono cl (by decide) | (with_reducible intro _) | with_reducible apply onlyIte | with_reducible apply State.react_only | (fail_if_no_progress with_reducible apply upd_flt (Closed.mono cl (by decide))) | dsimp only | split

theorem State.expired_only {P : State → Prop} (cl : Closed P 0x200000000) {s : State} (h : Sat P s)  : Sat P (State.expired s) := by
  unfold State.expired
  repeat' first | with_reducible assumption | exact Closed.mono cl (by decide) | (with_reducible intro _) | with_reducible apply onlyIte | with_reducible apply State.stopGrace_only | with_reducible apply State.fset_only | dsimp only | split

theorem State.escalate_only {P : State → Prop} (cl : Closed P 0x4204220200) {s : State} (h : Sat P s)  : Sat P (State.escalate s) := by
  unfold State.escalate
  repeat' first | with_reducible assumption | exact Closed.mono cl (by decide) | (with_reducible intro _) | with_reducible apply onlyIte | with_reducible apply State.expired_only | with_reducible apply State.reactOrWait_only | dsimp only | split

theorem State.record_only {P : State → Prop} (cl : Closed P 0x200000000) {s : State} (h : Sat P s) (r : Report) : Sat P (State.record s r) := by
  unfold State.record
  repeat' first | with_reducible assumption | exact Closed.mono cl (by decide) | (with_reducible intro _) | with_reducible apply onlyIte | with_reducible apply State.setReg_only | with_reducible apply State.wset_only | dsimp only | split

theorem State.fetchOne_only {P : State → Prop} (cl : Closed P 0x200202000) {s : State} (h : Sat P s) (r : Report) : Sat P (State.fetchOne s r) := by
  unfold State.fetchOne
  extract_lets +onlyGivenNames v_s1
  try (have h_s1 : Sat P v_s1 := by repeat' first | with_reducible assumption | exact Closed.mono cl (by decide) | (with_reducible intro _) | with_reducible apply onlyIte | with_reducible apply State.count_only | with_reducible apply State.record_only | with_reducible apply State.startGrace_only | dsimp only | split)
  repeat' first | with_reducible assumption | exact Closed.mono cl (by decide) | (with_reducible intro _) | with_reducible apply onlyIte | with_reducible apply State.count_only | with_reducible apply State.record_only | with_reducible apply State.startGrace_only | dsimp only | split

theorem State.releaseNow_only {P : State → Prop} (cl : Closed P 0x200000000) {s : State} (h : Sat P s)  : Sat P (State.releaseNow s) := by
  unfold State.releaseNow
  repeat' first | with_reducible assumption | exact Closed.mono cl (by decide) | (with_reducible intro _) | with_reducible apply onlyIte | with_reducible apply State.stopGrace_only | with_reducible apply State.fset_only | dsimp only | split

theorem State.releaseWrite_only {P : State → Prop} (cl : Closed P 0x200000000) {s : State} (h : Sat P s)  : Sat P (State.releaseWrite s) := by
  unfold State.releaseWrite
  repeat' first | with_reducible assumption | exact Closed.mono cl (by decide) | (with_reducible intro _) | with_reducible apply onlyIte | with_reducible apply State.expired_only | with_reducible apply State.safeOn_only | with_reducible apply State.releaseNow_only | dsimp only | split

theorem State.continueSafe_only {P : State → Prop} (cl : Closed P 0x200000000) {s : State} (h : Sat P s) (l : List (Nat × Nat)) : Sat P (State.continueSafe s l) := by
  unfold State.continueSafe
  repeat' first | with_reducible assumption | exact Closed.mono cl (by decide) | (with_reducible intro _) | with_reducible apply onlyIte | with_reducible apply State.safeOn_only | dsimp only | split

theorem State.fetch_only {P : State → Prop} (cl : Closed P 0x4204222A00) {s : State} (h : Sat P s) (srcs : List Nat) (release : Bool) : Sat P (State.fetch s srcs release) := by
  unfold State.fetch
  repeat' first | with_reducible assumption | exact Closed.mono cl (by decide) | (with_reducible intro _) | with_reducible apply onlyIte | with_reducible refine onlyEach ?_ ?_ | with_reducible apply State.expired_only | with_reducible apply State.releaseNow_only | with_reducible apply State.fset_only | with_reducible apply State.fetchOne_only | with_reducible apply State.continueSafe_only | with_reducible apply State.reactOrWait_only | (fail_if_no_progress with_reducible apply upd_reports (Closed.mono cl (by decide))) | dsimp only | split

theorem State.wireBad_only {P : State → Prop} (cl : Closed P 0x4204222200) {s : State} (h : Sat P s) (src pair : Nat) (release : Bool) : Sat P (State.wireBad s src pair release) := by
  unfold State.wireBad
  extract_lets +onlyGivenNames v_t
  try (have h_t : Sat P v_t := by repeat' first | with_reducible assumption | exact Closed.mono cl (by decide) | (with_reducible intro _) | with_reducible apply onlyIte | with_reducible apply State.releaseWrite_only | with_reducible apply State.fset_only | with_reducible apply State.fetchOne_only | with_reducible apply State.continueSafe_only | with_reducible apply State.reactOrWait_only | dsimp only | split)
  repeat' first | with_reducible assumption | exact Closed.mono cl (by decide) | (with_reducible intro _) | with_reducible apply onlyIte | with_reducible apply State.releaseWrite_only | with_reducible apply State.fset_only | with_reducible apply State.fetchOne_only | with_reducible apply State.continueSafe_only | with_reducible apply State.reactOrWait_only | dsimp only | split

theorem State.wireGood_only {P : State → Prop} (cl : Closed P 0x200200000) {s : State} (h : Sat P s) (src : Nat) : Sat P (State.wireGood s src) := by
  unfold State.wireGood
  repeat' first | with_reducible assumption | exact Closed.mono cl (by decide) | (with_reducible intro _) | with_reducible apply onlyIte | with_reducible apply State.fset_only | with_reducible apply State.setBit_only | (fail_if_no_progress with_reducible apply upd_flt (Closed.mono cl (by decide))) | dsimp only | split

theorem State.thermCodes_only {P : State → Prop} (cl : Closed P 0x200200800) {s : State} (h : Sat P s) (n : Nat) (t : Int) : Sat P (State.thermCodes s n t) := by
  unfold State.thermCodes
  repeat' first | with_reducible assumption | exact Closed.mono cl (by decide) | (with_reducible intro _) | with_reducible apply onlyIte | with_reducible refine onlyEach ?_ ?_ | with_reducible apply State.raiseAt_only | (fail_if_no_progress with_reducible apply upd_flt (Closed.mono cl (by decide))) | dsimp only | split

theorem State.enterOff_only {P : State → Prop} (cl : Closed P 0x6A00000000) {s : State} (h : Sat P s) : Sat P s.enterOff := by
  unfold State.enterOff
  dsimp only
  exact State.fset_only (cl.mono rfl) (upd_regsOf (cl.mono rfl) (State.restart_only (cl.mono rfl) h false)
    (upd_regs (cl.mono rfl) h (f := fun p => persisted p.1 || wakeReg p.1))) _ _

theorem State.therm_only {P : State → Prop} (cl : Closed P 0x6A02200800) {s : State} (h : Sat P s) (n : Nat) (t : Int) : Sat P (State.therm s n t) := by
  unfold State.therm
  repeat' first | with_reducible assumption | exact Closed.mono cl (by decide) | (with_reducible intro _) | with_reducible apply onlyIte | with_reducible apply State.enterOff_only | with_reducible apply State.fset_only | with_reducible apply State.thermCodes_only | (fail_if_no_progress with_reducible apply upd_power (Closed.mono cl (by decide))) | dsimp only | split

theorem State.injectGo_only {P : State → Prop} (cl : Closed P 0x200000800) {s : State} (h : Sat P s)  : Sat P (State.injectGo s) := by
  unfold State.injectGo
  repeat' first | with_reducible assumption | exact Closed.mono cl (by decide) | (with_reducible intro _) | with_reducible apply onlyIte | with_reducible apply State.raiseAt_only | dsimp only | split

theorem State.injectWire_only {P : State → Prop} (cl : Closed P 0x4204222200) {s : State} (h : Sat P s)  : Sat P (State.injectWire s) := by
  unfold State.injectWire
  extract_lets +onlyGivenNames v_src
  repeat' first | with_reducible assumption | exact Closed.mono cl (by decide) | (with_reducible intro _) | with_reducible apply onlyIte | with_reducible apply State.wireBad_only | (fail_if_no_progress with_reducible apply upd_flt (Closed.mono cl (by decide))) | dsimp only | split

theorem State.meetsRelease_only {P : State → Prop} (cl : Closed P 0x302101040) {s : State} (h : Sat P s) (release : Bool) (f : State → Bool → State) (hf : ∀ b t, Sat P t → Sat P (f t b)) : Sat P (s.meetsRelease release f) := by
  unfold State.meetsRelease
  refine onlyIte (State.hostCmd_only (cl.mono rfl) h _ _ _ _ fun t ht => hf _ t ht) (hf _ _ (onlyIte ?_ h))
  exact State.hostCmd_only (cl.mono rfl) h _ _ _ _ fun t ht => State.releaseWrite_only (cl.mono rfl) ht

theorem execFaultFetch_only {P : State → Prop} (cl : Closed P 0x4306323A40) {s : State} (h : Sat P s) (srcs : List (BitVec 10)) (release : Bool) : OnlyO P (execFaultFetch srcs release s) := by
  unfold execFaultFetch
  repeat' first | with_reducible assumption | exact Closed.mono cl (by decide) | (with_reducible intro _) | with_reducible apply onlyIte | with_reducible apply onlyIteO | with_reducible apply onlyNext | with_reducible apply State.watch_only | with_reducible apply State.meetsRelease_only | with_reducible apply State.fetch_only | dsimp only | split

theorem execWireFault_only {P : State → Prop} (cl : Closed P 0x4306323240) {s : State} (h : Sat P s) (src : BitVec 10) (pair : WirePair) : OnlyO P (execWireFault src pair s) := by
  unfold execWireFault
  repeat' first | with_reducible assumption | exact Closed.mono cl (by decide) | (with_reducible intro _) | with_reducible apply onlyIte | with_reducible apply onlyIteO | with_reducible apply onlyNext | with_reducible apply State.watch_only | with_reducible apply State.meetsRelease_only | with_reducible apply State.wireBad_only | dsimp only | split

theorem execWireBadEnd_only {P : State → Prop} (cl : Closed P 0x200200000) {s : State} (h : Sat P s) (src : BitVec 10) (pair : BitVec 2) : OnlyO P (execWireBadEnd src pair s) := by
  unfold execWireBadEnd
  repeat' first | with_reducible assumption | exact Closed.mono cl (by decide) | (with_reducible intro _) | with_reducible apply onlyIte | with_reducible apply onlyIteO | with_reducible apply onlyNext | with_reducible apply State.wireGood_only | dsimp only | split

theorem execGraceExpiry_only {P : State → Prop} (cl : Closed P 0x4204220200) {s : State} (h : Sat P s)  : OnlyO P (execGraceExpiry s) := by
  unfold execGraceExpiry
  repeat' first | with_reducible assumption | exact Closed.mono cl (by decide) | (with_reducible intro _) | with_reducible apply onlyIte | with_reducible apply onlyIteO | with_reducible apply onlyNext | with_reducible apply State.watch_only | with_reducible apply State.escalate_only | dsimp only | split

theorem execAck_only {P : State → Prop} (cl : Closed P 0x302101040) {s : State} (h : Sat P s)  : OnlyO P (execAck s) := by
  unfold execAck
  repeat' first | with_reducible assumption | exact Closed.mono cl (by decide) | (with_reducible intro _) | with_reducible apply onlyIte | with_reducible apply onlyIteO | with_reducible apply onlyNext | with_reducible apply State.hostCmd_only | with_reducible apply State.stopGrace_only | dsimp only | split

theorem execRelease_only {P : State → Prop} (cl : Closed P 0x302101040) {s : State} (h : Sat P s)  : OnlyO P (execRelease s) := by
  unfold execRelease
  repeat' first | with_reducible assumption | exact Closed.mono cl (by decide) | (with_reducible intro _) | with_reducible apply onlyIte | with_reducible apply onlyIteO | with_reducible apply onlyNext | with_reducible apply State.hostCmd_only | with_reducible apply State.releaseWrite_only | dsimp only | split

theorem execFltInjGo_only {P : State → Prop} (cl : Closed P 0x302101840) {s : State} (h : Sat P s)  : OnlyO P (execFltInjGo s) := by
  unfold execFltInjGo
  repeat' first | with_reducible assumption | exact Closed.mono cl (by decide) | (with_reducible intro _) | with_reducible apply onlyIte | with_reducible apply onlyIteO | with_reducible apply onlyNext | with_reducible apply State.hostCmd_only | with_reducible apply State.injectGo_only | dsimp only | split

theorem execFltInjWire_only {P : State → Prop} (cl : Closed P 0x4306323240) {s : State} (h : Sat P s)  : OnlyO P (execFltInjWire s) := by
  unfold execFltInjWire
  repeat' first | with_reducible assumption | exact Closed.mono cl (by decide) | (with_reducible intro _) | with_reducible apply onlyIte | with_reducible apply onlyIteO | with_reducible apply onlyNext | with_reducible apply State.hostCmd_only | with_reducible apply State.watch_only | with_reducible apply State.injectWire_only | dsimp only | split

theorem execThermSample_only {P : State → Prop} (cl : Closed P 0x6A02200800) {s : State} (h : Sat P s) (sensor : BitVec 4) (milliC : Int) : OnlyO P (execThermSample sensor milliC s) := by
  unfold execThermSample
  repeat' first | with_reducible assumption | exact Closed.mono cl (by decide) | (with_reducible intro _) | with_reducible apply onlyIte | with_reducible apply onlyIteO | with_reducible apply onlyNext | with_reducible apply State.therm_only | dsimp only | split

theorem execRailFault_only {P : State → Prop} (cl : Closed P 0x200000800) {s : State} (h : Sat P s) (rail : BitVec 3) : OnlyO P (execRailFault rail s) := by
  unfold execRailFault
  repeat' first | with_reducible assumption | exact Closed.mono cl (by decide) | (with_reducible intro _) | with_reducible apply onlyIte | with_reducible apply onlyIteO | with_reducible apply onlyNext | with_reducible apply State.raiseAt_only | dsimp only | split

theorem State.pairUp_only {P : State → Prop} (cl : Closed P 0x200020000) {s : State} (h : Sat P s) (h : Hello) : Sat P (State.pairUp s h) := by
  unfold State.pairUp
  repeat' first | with_reducible assumption | exact Closed.mono cl (by decide) | (with_reducible intro _) | with_reducible apply onlyIte | with_reducible apply State.fset_only | (fail_if_no_progress with_reducible apply upd_splice (Closed.mono cl (by decide))) | dsimp only | split

theorem State.pairFail_only {P : State → Prop} (cl : Closed P 0x200020800) {s : State} (h : Sat P s)  : Sat P (State.pairFail s) := by
  unfold State.pairFail
  repeat' first | with_reducible assumption | exact Closed.mono cl (by decide) | (with_reducible intro _) | with_reducible apply onlyIte | with_reducible apply State.fset_only | with_reducible apply State.raiseAt_only | (fail_if_no_progress with_reducible apply upd_splice (Closed.mono cl (by decide))) | dsimp only | split

theorem State.setHeld_only {P : State → Prop} (cl : Closed P 0x200020000) {s : State} (h : Sat P s) (j : Nat) (h : HeldTurn) : Sat P (State.setHeld s j h) := by
  unfold State.setHeld
  repeat' first | with_reducible assumption | exact Closed.mono cl (by decide) | (with_reducible intro _) | with_reducible apply onlyIte | with_reducible apply State.showHeld_only | (fail_if_no_progress with_reducible apply upd_splice (Closed.mono cl (by decide))) | dsimp only | split

theorem State.mirrored_only {P : State → Prop} (cl : Closed P 0x0) {s : State} (h : Sat P s) (f : State → State) (hf : ∀ t, Sat P t → Sat P (f t)) : Sat P (State.mirrored s f) := by
  unfold State.mirrored
  repeat' first | with_reducible assumption | exact Closed.mono cl (by decide) | (with_reducible intro _) | with_reducible apply onlyIte | with_reducible apply hf | dsimp only | split

theorem State.heartbeat_only {P : State → Prop} (cl : Closed P 0x200020000) {s : State} (h : Sat P s) (h : Heartbeat) : Sat P (State.heartbeat s h) := by
  unfold State.heartbeat
  repeat' first | with_reducible assumption | exact Closed.mono cl (by decide) | (with_reducible intro _) | with_reducible apply onlyIte | with_reducible apply State.mirrored_only | with_reducible apply State.setHeld_only | (fail_if_no_progress with_reducible apply upd_splice (Closed.mono cl (by decide))) | dsimp only | split

theorem State.adjust_only {P : State → Prop} (cl : Closed P 0x200023004) {s : State} (h : Sat P s) (a : TimeAdj) : Sat P (s.adjust a) := by
  cases a with
  | freq v => exact State.setFreq_only (cl.mono rfl) h v
  | step p => exact State.stepTime_only (cl.mono rfl) h _
  | slew p => exact State.fset_only (cl.mono rfl) (upd_time (cl.mono rfl) h) _ _
  | tod t => exact State.loadTod_only (cl.mono rfl) h _ _

theorem State.promote_only {P : State → Prop} (cl : Closed P 0x304020200) {s : State} (h : Sat P s)  : Sat P (State.promote s) := by
  unfold State.promote
  extract_lets +onlyGivenNames v_st
  repeat' first | with_reducible assumption | exact Closed.mono cl (by decide) | (with_reducible intro _) | with_reducible apply onlyIte | with_reducible apply State.drawn_only | with_reducible apply State.enterSafe_only | with_reducible apply State.wset_only | with_reducible apply State.fset_only | with_reducible apply State.showHeld_only | (fail_if_no_progress with_reducible apply upd_splice (Closed.mono cl (by decide))) | dsimp only | split

theorem State.partnerLost_only {P : State → Prop} (cl : Closed P 0x200020800) {s : State} (h : Sat P s)  : Sat P (State.partnerLost s) := by
  unfold State.partnerLost
  extract_lets +onlyGivenNames v_s1
  try (have h_s1 : Sat P v_s1 := by repeat' first | with_reducible assumption | exact Closed.mono cl (by decide) | (with_reducible intro _) | with_reducible apply onlyIte | with_reducible apply State.fset_only | with_reducible apply State.raiseAt_only | (fail_if_no_progress with_reducible apply upd_splice (Closed.mono cl (by decide))) | dsimp only | split)
  repeat' first | with_reducible assumption | exact Closed.mono cl (by decide) | (with_reducible intro _) | with_reducible apply onlyIte | with_reducible apply State.fset_only | with_reducible apply State.raiseAt_only | (fail_if_no_progress with_reducible apply upd_splice (Closed.mono cl (by decide))) | dsimp only | split

theorem State.loss_only {P : State → Prop} (cl : Closed P 0x304020A00) {s : State} (h : Sat P s) (why : LossCause) : Sat P (State.loss s why) := by
  unfold State.loss
  extract_lets +onlyGivenNames v_st
  repeat' first | with_reducible assumption | exact Closed.mono cl (by decide) | (with_reducible intro _) | with_reducible apply onlyIte | with_reducible apply State.takeover_only | with_reducible apply State.partnerLost_only | with_reducible apply State.promote_only | dsimp only | split

theorem State.promoted_only {P : State → Prop} (cl : Closed P 0x200020800) {s : State} (h : Sat P s)  : Sat P (State.promoted s) := by
  unfold State.promoted
  repeat' first | with_reducible assumption | exact Closed.mono cl (by decide) | (with_reducible intro _) | with_reducible apply onlyIte | with_reducible refine onlyEach ?_ ?_ | with_reducible apply State.fset_only | with_reducible apply State.wset_only | with_reducible apply State.driveFlag_only | with_reducible apply State.raiseAt_only | (fail_if_no_progress with_reducible apply upd_splice (Closed.mono cl (by decide))) | dsimp only | split

theorem State.linkDown_only {P : State → Prop} (cl : Closed P 0x200000904) {s : State} (h : Sat P s)  : Sat P (State.linkDown s) := by
  unfold State.linkDown
  extract_lets +onlyGivenNames v_s1
  try (have h_s1 : Sat P v_s1 := by repeat' first | with_reducible assumption | exact Closed.mono cl (by decide) | (with_reducible intro _) | with_reducible apply onlyIte | with_reducible refine onlyEach ?_ ?_ | with_reducible apply State.fset_only | with_reducible apply State.laneDisable_only | dsimp only | split)
  repeat' first | with_reducible assumption | exact Closed.mono cl (by decide) | (with_reducible intro _) | with_reducible apply onlyIte | with_reducible refine onlyEach ?_ ?_ | with_reducible apply State.fset_only | with_reducible apply State.laneDisable_only | dsimp only | split

theorem State.linkUp_only {P : State → Prop} (cl : Closed P 0x200000000) {s : State} (h : Sat P s)  : Sat P (State.linkUp s) := by
  unfold State.linkUp
  extract_lets +onlyGivenNames v_s1
  try (have h_s1 : Sat P v_s1 := by repeat' first | with_reducible assumption | exact Closed.mono cl (by decide) | (with_reducible intro _) | with_reducible apply onlyIte | with_reducible refine onlyEach ?_ ?_ | with_reducible apply State.fset_only | with_reducible apply State.laneEnable_only | dsimp only | split)
  repeat' first | with_reducible assumption | exact Closed.mono cl (by decide) | (with_reducible intro _) | with_reducible apply onlyIte | with_reducible refine onlyEach ?_ ?_ | with_reducible apply State.fset_only | with_reducible apply State.laneEnable_only | dsimp only | split

theorem State.linkEn_only {P : State → Prop} (cl : Closed P 0x200000904) {s : State} (h : Sat P s) (v : Bool) : Sat P (State.linkEn s v) := by
  unfold State.linkEn
  repeat' first | with_reducible assumption | exact Closed.mono cl (by decide) | (with_reducible intro _) | with_reducible apply onlyIte | with_reducible apply State.linkDown_only | with_reducible apply State.fset_only | with_reducible apply State.linkUp_only | dsimp only | split

theorem State.shutdownEnd_only {P : State → Prop} (cl : Closed P 0x200000000) {s : State} (h : Sat P s) (n : Nat) : Sat P (State.shutdownEnd s n) := by
  unfold State.shutdownEnd
  extract_lets +onlyGivenNames v_s1
  try (have h_s1 : Sat P v_s1 := by repeat' first | with_reducible assumption | exact Closed.mono cl (by decide) | (with_reducible intro _) | with_reducible apply onlyIte | with_reducible apply State.laneShutdownDone_only | with_reducible apply State.linkUp_only | dsimp only | split)
  repeat' first | with_reducible assumption | exact Closed.mono cl (by decide) | (with_reducible intro _) | with_reducible apply onlyIte | with_reducible apply State.laneShutdownDone_only | with_reducible apply State.linkUp_only | dsimp only | split

theorem State.relinquish_only {P : State → Prop} (cl : Closed P 0x200020000) {s : State} (h : Sat P s)  : Sat P (State.relinquish s) := by
  unfold State.relinquish
  repeat' first | with_reducible assumption | exact Closed.mono cl (by decide) | (with_reducible intro _) | with_reducible apply onlyIte | with_reducible apply State.takeover_only | dsimp only | split

theorem execHello_only {P : State → Prop} (cl : Closed P 0x200020000) {s : State} (h : Sat P s) (h : Hello) : OnlyO P (execHello h s) := by
  unfold execHello
  repeat' first | with_reducible assumption | exact Closed.mono cl (by decide) | (with_reducible intro _) | with_reducible apply onlyIte | with_reducible apply onlyIteO | with_reducible apply onlyNext | with_reducible apply State.pairUp_only | dsimp only | split

theorem execPairFail_only {P : State → Prop} (cl : Closed P 0x200020800) {s : State} (h : Sat P s)  : OnlyO P (execPairFail s) := by
  unfold execPairFail
  repeat' first | with_reducible assumption | exact Closed.mono cl (by decide) | (with_reducible intro _) | with_reducible apply onlyIte | with_reducible apply onlyIteO | with_reducible apply onlyNext | with_reducible apply State.pairFail_only | dsimp only | split

theorem execHeartbeat_only {P : State → Prop} (cl : Closed P 0x200020000) {s : State} (h : Sat P s) (h : Heartbeat) : OnlyO P (execHeartbeat h s) := by
  unfold execHeartbeat
  repeat' first | with_reducible assumption | exact Closed.mono cl (by decide) | (with_reducible intro _) | with_reducible apply onlyIte | with_reducible apply onlyIteO | with_reducible apply onlyNext | with_reducible apply State.heartbeat_only | dsimp only | split

theorem execMirrorWord_only {P : State → Prop} (cl : Closed P 0x200020000) {s : State} (h : Sat P s) (turn : W64) (idx : BitVec 32) (data : W128) : OnlyO P (execMirrorWord turn idx data s) := by
  unfold execMirrorWord
  repeat' first | with_reducible assumption | exact Closed.mono cl (by decide) | (with_reducible intro _) | with_reducible apply onlyIte | with_reducible apply onlyIteO | with_reducible apply onlyNext | with_reducible apply State.mirrored_only | with_reducible apply State.setHeld_only | dsimp only | split

theorem execWrittenFlags_only {P : State → Prop} (cl : Closed P 0x200020000) {s : State} (h : Sat P s) (turn : W64) (flags : List Bool) : OnlyO P (execWrittenFlags turn flags s) := by
  unfold execWrittenFlags
  repeat' first | with_reducible assumption | exact Closed.mono cl (by decide) | (with_reducible intro _) | with_reducible apply onlyIte | with_reducible apply onlyIteO | with_reducible apply onlyNext | with_reducible apply State.mirrored_only | with_reducible apply State.setHeld_only | dsimp only | split

theorem execFlowContextDelta_only {P : State → Prop} (cl : Closed P 0x200020000) {s : State} (h : Sat P s) (d : FlowDelta) : OnlyO P (execFlowContextDelta d s) := by
  unfold execFlowContextDelta
  repeat' first | with_reducible assumption | exact Closed.mono cl (by decide) | (with_reducible intro _) | with_reducible apply onlyIte | with_reducible apply onlyIteO | with_reducible apply onlyNext | with_reducible apply State.mirrored_only | with_reducible apply State.setHeld_only | dsimp only | split

theorem execTimeAdjustment_only {P : State → Prop} (cl : Closed P 0x200023004) {s : State} (h : Sat P s) (a : TimeAdj) : OnlyO P (execTimeAdjustment a s) := by
  unfold execTimeAdjustment
  repeat' first | with_reducible assumption | exact Closed.mono cl (by decide) | (with_reducible intro _) | with_reducible apply onlyIte | with_reducible apply onlyIteO | with_reducible apply onlyNext | with_reducible apply State.mirrored_only | with_reducible apply State.adjust_only | dsimp only | split

theorem execPartnerTrigOut_only {P : State → Prop} (cl : Closed P 0x4000) {s : State} (h : Sat P s) (j : BitVec 3) : OnlyO P (execPartnerTrigOut j s) := by
  unfold execPartnerTrigOut
  repeat' first | with_reducible assumption | exact Closed.mono cl (by decide) | (with_reducible intro _) | with_reducible apply onlyIte | with_reducible apply onlyIteO | with_reducible apply onlyNext | with_reducible apply State.pulse_only | dsimp only | split

theorem execPartTurnNumbers_only {P : State → Prop} (cl : Closed P 0x20000) {s : State} (h : Sat P s) (release : Bool) (turn : W64) : OnlyO P (execPartTurnNumbers release turn s) := by
  unfold execPartTurnNumbers
  repeat' first | with_reducible assumption | exact Closed.mono cl (by decide) | (with_reducible intro _) | with_reducible apply onlyIte | with_reducible apply onlyIteO | with_reducible apply onlyNext | with_reducible apply State.mirrored_only | (fail_if_no_progress with_reducible apply upd_splice (Closed.mono cl (by decide))) | dsimp only | split

theorem execPartnerLoss_only {P : State → Prop} (cl : Closed P 0x304020A00) {s : State} (h : Sat P s) (why : LossCause) : OnlyO P (execPartnerLoss why s) := by
  unfold execPartnerLoss
  repeat' first | with_reducible assumption | exact Closed.mono cl (by decide) | (with_reducible intro _) | with_reducible apply onlyIte | with_reducible apply onlyIteO | with_reducible apply onlyNext | with_reducible apply State.watch_only | with_reducible apply State.loss_only | dsimp only | split

theorem execPromotionComplete_only {P : State → Prop} (cl : Closed P 0x200020800) {s : State} (h : Sat P s)  : OnlyO P (execPromotionComplete s) := by
  unfold execPromotionComplete
  repeat' first | with_reducible assumption | exact Closed.mono cl (by decide) | (with_reducible intro _) | with_reducible apply onlyIte | with_reducible apply onlyIteO | with_reducible apply onlyNext | with_reducible apply State.watch_only | with_reducible apply State.promoted_only | dsimp only | split

theorem execRelinquish_only {P : State → Prop} (cl : Closed P 0x302121040) {s : State} (h : Sat P s)  : OnlyO P (execRelinquish s) := by
  unfold execRelinquish
  repeat' first | with_reducible assumption | exact Closed.mono cl (by decide) | (with_reducible intro _) | with_reducible apply onlyIte | with_reducible apply onlyIteO | with_reducible apply onlyNext | with_reducible apply State.hostCmd_only | with_reducible apply State.relinquish_only | dsimp only | split

theorem execLinkEn_only {P : State → Prop} (cl : Closed P 0x302101944) {s : State} (h : Sat P s) (v : Bool) : OnlyO P (execLinkEn v s) := by
  unfold execLinkEn
  repeat' first | with_reducible assumption | exact Closed.mono cl (by decide) | (with_reducible intro _) | with_reducible apply onlyIte | with_reducible apply onlyIteO | with_reducible apply onlyNext | with_reducible apply State.hostCmd_only | with_reducible apply State.linkEn_only | dsimp only | split

theorem execLaneShutdownDone_only {P : State → Prop} (cl : Closed P 0x200000000) {s : State} (h : Sat P s) (lane : LaneId) : OnlyO P (execLaneShutdownDone lane s) := by
  unfold execLaneShutdownDone
  repeat' first | with_reducible assumption | exact Closed.mono cl (by decide) | (with_reducible intro _) | with_reducible apply onlyIte | with_reducible apply onlyIteO | with_reducible apply onlyNext | with_reducible apply State.shutdownEnd_only | dsimp only | split

theorem State.clearProbe_only {P : State → Prop} (cl : Closed P 0x200000000) {s : State} (h : Sat P s) (n : Nat) : Sat P (State.clearProbe s n) := by
  unfold State.clearProbe
  repeat' first | with_reducible assumption | exact Closed.mono cl (by decide) | (with_reducible intro _) | with_reducible apply onlyIte | with_reducible apply State.wset_only | dsimp only | split

theorem execPrbClr_only {P : State → Prop} (cl : Closed P 0x302101040) {s : State} (h : Sat P s) (n : BitVec 6) : OnlyO P (execPrbClr n s) := by
  unfold execPrbClr
  repeat' first | with_reducible assumption | exact Closed.mono cl (by decide) | (with_reducible intro _) | with_reducible apply onlyIte | with_reducible apply onlyIteO | with_reducible apply onlyNext | with_reducible apply State.hostCmd_only | with_reducible apply State.clearProbe_only | dsimp only | split

theorem State.bwRead_only {P : State → Prop} (cl : Closed P 0x200100040) {s : State} (h : Sat P s) (n : Nat) : Sat P (State.bwRead s n) := by
  unfold State.bwRead
  extract_lets +onlyGivenNames v_v v_s1
  try (have h_s1 : Sat P v_s1 := by repeat' first | with_reducible assumption | exact Closed.mono cl (by decide) | (with_reducible intro _) | with_reducible apply onlyIte | with_reducible refine onlyEach ?_ ?_ | with_reducible apply State.setReg_only | (fail_if_no_progress with_reducible apply upd_host_ring (Closed.mono cl (by decide))) | dsimp only | split)
  repeat' first | with_reducible assumption | exact Closed.mono cl (by decide) | (with_reducible intro _) | with_reducible apply onlyIte | with_reducible refine onlyEach ?_ ?_ | with_reducible apply State.setReg_only | (fail_if_no_progress with_reducible apply upd_host_ring (Closed.mono cl (by decide))) | dsimp only | split

theorem execG32BwRead_only {P : State → Prop} (cl : Closed P 0x302101040) {s : State} (h : Sat P s) (n : BitVec 3) : OnlyO P (execG32BwRead n s) := by
  unfold execG32BwRead
  repeat' first | with_reducible assumption | exact Closed.mono cl (by decide) | (with_reducible intro _) | with_reducible apply onlyIte | with_reducible apply onlyIteO | with_reducible apply onlyNext | with_reducible apply State.hostGet_only | with_reducible apply State.bwRead_only | dsimp only | split

theorem State.closeStations_only {P : State → Prop} (cl : Closed P 0x200800000) {s : State} (h : Sat P s) (l : List Nat) : Sat P (State.closeStations s l) := by
  unfold State.closeStations
  repeat' first | with_reducible assumption | exact Closed.mono cl (by decide) | (with_reducible intro _) | with_reducible apply onlyIte | with_reducible refine onlyEach ?_ ?_ | with_reducible apply State.fset_only | (fail_if_no_progress with_reducible apply upd_recon (Closed.mono cl (by decide))) | dsimp only | split

theorem State.swapTable_only {P : State → Prop} (cl : Closed P 0x200800000) {s : State} (h : Sat P s) (stn : Nat) : Sat P (State.swapTable s stn) := by
  unfold State.swapTable
  extract_lets +onlyGivenNames v_s1
  try (have h_s1 : Sat P v_s1 := by repeat' first | with_reducible assumption | exact Closed.mono cl (by decide) | (with_reducible intro _) | with_reducible apply onlyIte | with_reducible apply State.setBit_only | with_reducible apply State.fset_only | (fail_if_no_progress with_reducible apply upd_recon (Closed.mono cl (by decide))) | dsimp only | split)
  repeat' first | with_reducible assumption | exact Closed.mono cl (by decide) | (with_reducible intro _) | with_reducible apply onlyIte | with_reducible apply State.setBit_only | with_reducible apply State.fset_only | (fail_if_no_progress with_reducible apply upd_recon (Closed.mono cl (by decide))) | dsimp only | split

end Sys2Proof.Machine
end

