-- ==== Sys2Proof/Laws/OnlyLoad.lean ====
section
/-! SUPPORT. What the functions of loads, trace, power, security, host accesses, packets and the clock may change. -/

set_option linter.all false
set_option linter.unreachableTactic false
set_option linter.unusedTactic false
set_option linter.unusedVariables false

namespace Sys2Proof.Machine

theorem State.holdKey_only {P : State → Prop} (cl : Closed P 0x8000000) {s : State} (h : Sat P s) (h : CastHdr) : Sat P (State.holdKey s h) := by
  unfold State.holdKey
  repeat' first | with_reducible assumption | exact Closed.mono cl (by decide) | (with_reducible intro _) | with_reducible apply onlyIte | (fail_if_no_progress with_reducible apply upd_sec (Closed.mono cl (by decide))) | dsimp only | split

theorem State.resetWords_only {P : State → Prop} (cl : Closed P 0x800000000) {s : State} (h : Sat P s) (base stride n : Nat) (offs : List Nat) :
    Sat P (s.resetWords base stride n offs) := upd_regs (cl.mono rfl) h

theorem State.idleLanes_only {P : State → Prop} (cl : Closed P 0x200000100) {s : State} (h : Sat P s)  : Sat P (State.idleLanes s) := by
  unfold State.idleLanes
  extract_lets +onlyGivenNames v_s1
  try (have h_s1 : Sat P v_s1 := by repeat' first | with_reducible assumption | exact Closed.mono cl (by decide) | (with_reducible intro _) | with_reducible apply onlyIte | with_reducible refine onlyEach ?_ ?_ | with_reducible apply State.fset_only | with_reducible apply State.laneStill_only | (fail_if_no_progress with_reducible apply upd_lanes (Closed.mono cl (by decide))) | dsimp only | split)
  repeat' first | with_reducible assumption | exact Closed.mono cl (by decide) | (with_reducible intro _) | with_reducible apply onlyIte | with_reducible refine onlyEach ?_ ?_ | with_reducible apply State.fset_only | with_reducible apply State.laneStill_only | (fail_if_no_progress with_reducible apply upd_lanes (Closed.mono cl (by decide))) | dsimp only | split

theorem State.idleChannels_only {P : State → Prop} (cl : Closed P 0x800000600) {s : State} (h : Sat P s)  : Sat P (State.idleChannels s) := by
  unfold State.idleChannels
  extract_lets +onlyGivenNames v_s1 v_s2
  try (have h_s1 : Sat P v_s1 := by repeat' first | with_reducible assumption | exact Closed.mono cl (by decide) | (with_reducible intro _) | with_reducible apply onlyIte | with_reducible apply State.resetWords_only | (fail_if_no_progress with_reducible apply upd_caps_pats (Closed.mono cl (by decide))) | dsimp only | split)
  try (have h_s2 : Sat P v_s2 := by repeat' first | with_reducible assumption | exact Closed.mono cl (by decide) | (with_reducible intro _) | with_reducible apply onlyIte | with_reducible apply State.resetWords_only | (fail_if_no_progress with_reducible apply upd_caps_pats (Closed.mono cl (by decide))) | dsimp only | split)
  repeat' first | with_reducible assumption | exact Closed.mono cl (by decide) | (with_reducible intro _) | with_reducible apply onlyIte | with_reducible apply State.resetWords_only | (fail_if_no_progress with_reducible apply upd_caps_pats (Closed.mono cl (by decide))) | dsimp only | split

theorem State.clearAction_only {P : State → Prop} (cl : Closed P 0xA00010000) {s : State} (h : Sat P s)  : Sat P (State.clearAction s) := by
  unfold State.clearAction
  extract_lets +onlyGivenNames v_s1 v_s2 v_s3
  try (have h_s1 : Sat P v_s1 := by repeat' first | with_reducible assumption | exact Closed.mono cl (by decide) | (with_reducible intro _) | with_reducible apply onlyIte | with_reducible apply State.resetWords_only | with_reducible apply State.fset_only | (fail_if_no_progress with_reducible apply upd_act (Closed.mono cl (by decide))) | dsimp only | split)
  try (have h_s2 : Sat P v_s2 := by repeat' first | with_reducible assumption | exact Closed.mono cl (by decide) | (with_reducible intro _) | with_reducible apply onlyIte | with_reducible apply State.resetWords_only | with_reducible apply State.fset_only | (fail_if_no_progress with_reducible apply upd_act (Closed.mono cl (by decide))) | dsimp only | split)
  try (have h_s3 : Sat P v_s3 := by repeat' first | with_reducible assumption | exact Closed.mono cl (by decide) | (with_reducible intro _) | with_reducible apply onlyIte | with_reducible apply State.resetWords_only | with_reducible apply State.fset_only | (fail_if_no_progress with_reducible apply upd_act (Closed.mono cl (by decide))) | dsimp only | split)
  repeat' first | with_reducible assumption | exact Closed.mono cl (by decide) | (with_reducible intro _) | with_reducible apply onlyIte | with_reducible apply State.resetWords_only | with_reducible apply State.fset_only | (fail_if_no_progress with_reducible apply upd_act (Closed.mono cl (by decide))) | dsimp only | split

theorem State.openStations_only {P : State → Prop} (cl : Closed P 0x200000000) {s : State} (h : Sat P s)  : Sat P (State.openStations s) := by
  unfold State.openStations
  repeat' first | with_reducible assumption | exact Closed.mono cl (by decide) | (with_reducible intro _) | with_reducible apply onlyIte | with_reducible refine onlyEach ?_ ?_ | with_reducible apply State.fset_only | dsimp only | split

theorem State.clearCore_only {P : State → Prop} (cl : Closed P 0x20010C06C) {s : State} (h : Sat P s)  : Sat P (State.clearCore s) := by
  unfold State.clearCore
  extract_lets +onlyGivenNames v_s1 v_s1_ v_s2 v_s3
  try (have h_s1 : Sat P v_s1 := by repeat' first | with_reducible assumption | exact Closed.mono cl (by decide) | (with_reducible intro _) | with_reducible apply onlyIte | with_reducible refine onlyEach ?_ ?_ | with_reducible apply State.dropPorts_only | with_reducible apply State.level_only | with_reducible apply State.fset_only | with_reducible apply State.openStations_only | (fail_if_no_progress with_reducible apply upd_core_edge_host_ring_strands (Closed.mono cl (by decide))) | (fail_if_no_progress with_reducible apply upd_trig (Closed.mono cl (by decide))) | dsimp only | split)
  try (have h_s1_ : Sat P v_s1_ := by repeat' first | with_reducible assumption | exact Closed.mono cl (by decide) | (with_reducible intro _) | with_reducible apply onlyIte | with_reducible refine onlyEach ?_ ?_ | with_reducible apply State.dropPorts_only | with_reducible apply State.level_only | with_reducible apply State.fset_only | with_reducible apply State.openStations_only | (fail_if_no_progress with_reducible apply upd_core_edge_host_ring_strands (Closed.mono cl (by decide))) | (fail_if_no_progress with_reducible apply upd_trig (Closed.mono cl (by decide))) | dsimp only | split)
  try (have h_s2 : Sat P v_s2 := by repeat' first | with_reducible assumption | exact Closed.mono cl (by decide) | (with_reducible intro _) | with_reducible apply onlyIte | with_reducible refine onlyEach ?_ ?_ | with_reducible apply State.dropPorts_only | with_reducible apply State.level_only | with_reducible apply State.fset_only | with_reducible apply State.openStations_only | (fail_if_no_progress with_reducible apply upd_core_edge_host_ring_strands (Closed.mono cl (by decide))) | (fail_if_no_progress with_reducible apply upd_trig (Closed.mono cl (by decide))) | dsimp only | split)
  try (have h_s3 : Sat P v_s3 := by repeat' first | with_reducible assumption | exact Closed.mono cl (by decide) | (with_reducible intro _) | with_reducible apply onlyIte | with_reducible refine onlyEach ?_ ?_ | with_reducible apply State.dropPorts_only | with_reducible apply State.level_only | with_reducible apply State.fset_only | with_reducible apply State.openStations_only | (fail_if_no_progress with_reducible apply upd_core_edge_host_ring_strands (Closed.mono cl (by decide))) | (fail_if_no_progress with_reducible apply upd_trig (Closed.mono cl (by decide))) | dsimp only | split)
  repeat' first | with_reducible assumption | exact Closed.mono cl (by decide) | (with_reducible intro _) | with_reducible apply onlyIte | with_reducible refine onlyEach ?_ ?_ | with_reducible apply State.dropPorts_only | with_reducible apply State.level_only | with_reducible apply State.fset_only | with_reducible apply State.openStations_only | (fail_if_no_progress with_reducible apply upd_core_edge_host_ring_strands (Closed.mono cl (by decide))) | (fail_if_no_progress with_reducible apply upd_trig (Closed.mono cl (by decide))) | dsimp only | split

theorem State.clearSplice_only {P : State → Prop} (cl : Closed P 0x200020000) {s : State} (h : Sat P s)  : Sat P (State.clearSplice s) := by
  unfold State.clearSplice
  extract_lets +onlyGivenNames v_s1 v_s2
  try (have h_s1 : Sat P v_s1 := by repeat' first | with_reducible assumption | exact Closed.mono cl (by decide) | (with_reducible intro _) | with_reducible apply onlyIte | with_reducible apply State.fset_only | with_reducible apply State.wset_only | (fail_if_no_progress with_reducible apply upd_splice (Closed.mono cl (by decide))) | dsimp only | split)
  try (have h_s2 : Sat P v_s2 := by repeat' first | with_reducible assumption | exact Closed.mono cl (by decide) | (with_reducible intro _) | with_reducible apply onlyIte | with_reducible apply State.fset_only | with_reducible apply State.wset_only | (fail_if_no_progress with_reducible apply upd_splice (Closed.mono cl (by decide))) | dsimp only | split)
  repeat' first | with_reducible assumption | exact Closed.mono cl (by decide) | (with_reducible intro _) | with_reducible apply onlyIte | with_reducible apply State.fset_only | with_reducible apply State.wset_only | (fail_if_no_progress with_reducible apply upd_splice (Closed.mono cl (by decide))) | dsimp only | split

theorem State.clearOwners_only {P : State → Prop} (cl : Closed P 0xA20004040) {s : State} (h : Sat P s)  : Sat P (State.clearOwners s) := by
  unfold State.clearOwners
  extract_lets +onlyGivenNames v_s1 v_s2 v_s3
  try (have h_s1 : Sat P v_s1 := by repeat' first | with_reducible assumption | exact Closed.mono cl (by decide) | (with_reducible intro _) | with_reducible apply onlyIte | with_reducible refine onlyEach ?_ ?_ | with_reducible apply State.fset_only | with_reducible apply State.trigIns_only | with_reducible apply State.resetWords_only | (fail_if_no_progress with_reducible apply upd_pins_ring (Closed.mono cl (by decide))) | dsimp only | split)
  try (have h_s2 : Sat P v_s2 := by repeat' first | with_reducible assumption | exact Closed.mono cl (by decide) | (with_reducible intro _) | with_reducible apply onlyIte | with_reducible refine onlyEach ?_ ?_ | with_reducible apply State.fset_only | with_reducible apply State.trigIns_only | with_reducible apply State.resetWords_only | (fail_if_no_progress with_reducible apply upd_pins_ring (Closed.mono cl (by decide))) | dsimp only | split)
  try (have h_s3 : Sat P v_s3 := by repeat' first | with_reducible assumption | exact Closed.mono cl (by decide) | (with_reducible intro _) | with_reducible apply onlyIte | with_reducible refine onlyEach ?_ ?_ | with_reducible apply State.fset_only | with_reducible apply State.trigIns_only | with_reducible apply State.resetWords_only | (fail_if_no_progress with_reducible apply upd_pins_ring (Closed.mono cl (by decide))) | dsimp only | split)
  repeat' first | with_reducible assumption | exact Closed.mono cl (by decide) | (with_reducible intro _) | with_reducible apply onlyIte | with_reducible refine onlyEach ?_ ?_ | with_reducible apply State.fset_only | with_reducible apply State.trigIns_only | with_reducible apply State.resetWords_only | (fail_if_no_progress with_reducible apply upd_pins_ring (Closed.mono cl (by decide))) | dsimp only | split

theorem State.enterLoad_only {P : State → Prop} (cl : Closed P 0xA2893C7EC) {s : State} (h : Sat P s)  : Sat P (State.enterLoad s) := by
  unfold State.enterLoad
  extract_lets +onlyGivenNames v_s1 v_s2
  try (have h_s1 : Sat P v_s1 := by repeat' first | with_reducible assumption | exact Closed.mono cl (by decide) | (with_reducible intro _) | with_reducible apply onlyIte | with_reducible apply State.idleLanes_only | with_reducible apply State.idleChannels_only | with_reducible apply State.clearAction_only | with_reducible apply State.clearCore_only | with_reducible apply State.clearSplice_only | with_reducible apply State.clearOwners_only | with_reducible apply State.fset_only | (fail_if_no_progress with_reducible apply upd_image_recon_sec (Closed.mono cl (by decide))) | dsimp only | split)
  try (have h_s2 : Sat P v_s2 := by repeat' first | with_reducible assumption | exact Closed.mono cl (by decide) | (with_reducible intro _) | with_reducible apply onlyIte | with_reducible apply State.idleLanes_only | with_reducible apply State.idleChannels_only | with_reducible apply State.clearAction_only | with_reducible apply State.clearCore_only | with_reducible apply State.clearSplice_only | with_reducible apply State.clearOwners_only | with_reducible apply State.fset_only | (fail_if_no_progress with_reducible apply upd_image_recon_sec (Closed.mono cl (by decide))) | dsimp only | split)
  repeat' first | with_reducible assumption | exact Closed.mono cl (by decide) | (with_reducible intro _) | with_reducible apply onlyIte | with_reducible apply State.idleLanes_only | with_reducible apply State.idleChannels_only | with_reducible apply State.clearAction_only | with_reducible apply State.clearCore_only | with_reducible apply State.clearSplice_only | with_reducible apply State.clearOwners_only | with_reducible apply State.fset_only | (fail_if_no_progress with_reducible apply upd_image_recon_sec (Closed.mono cl (by decide))) | dsimp only | split

theorem State.applyLanes_only {P : State → Prop} (cl : Closed P 0xA00000000) {s : State} (h : Sat P s)  : Sat P (State.applyLanes s) := by
  unfold State.applyLanes
  extract_lets +onlyGivenNames v_s1 v_s2 v_s3
  try (have h_s1 : Sat P v_s1 := by repeat' first | with_reducible assumption | exact Closed.mono cl (by decide) | (with_reducible intro _) | with_reducible apply onlyIte | with_reducible refine onlyEach ?_ ?_ | with_reducible apply State.resetWords_only | with_reducible apply State.setReg_only | with_reducible apply State.fset_only | with_reducible apply State.wset_only | dsimp only | split)
  try (have h_s2 : Sat P v_s2 := by repeat' first | with_reducible assumption | exact Closed.mono cl (by decide) | (with_reducible intro _) | with_reducible apply onlyIte | with_reducible refine onlyEach ?_ ?_ | with_reducible apply State.resetWords_only | with_reducible apply State.setReg_only | with_reducible apply State.fset_only | with_reducible apply State.wset_only | dsimp only | split)
  try (have h_s3 : Sat P v_s3 := by repeat' first | with_reducible assumption | exact Closed.mono cl (by decide) | (with_reducible intro _) | with_reducible apply onlyIte | with_reducible refine onlyEach ?_ ?_ | with_reducible apply State.resetWords_only | with_reducible apply State.setReg_only | with_reducible apply State.fset_only | with_reducible apply State.wset_only | dsimp only | split)
  repeat' first | with_reducible assumption | exact Closed.mono cl (by decide) | (with_reducible intro _) | with_reducible apply onlyIte | with_reducible refine onlyEach ?_ ?_ | with_reducible apply State.resetWords_only | with_reducible apply State.setReg_only | with_reducible apply State.fset_only | with_reducible apply State.wset_only | dsimp only | split

theorem State.applyPorts_only {P : State → Prop} (cl : Closed P 0x200000000) {s : State} (h : Sat P s) (cords : Nat → Bool) : Sat P (State.applyPorts s cords) := by
  unfold State.applyPorts
  extract_lets +onlyGivenNames v_s1
  try (have h_s1 : Sat P v_s1 := by repeat' first | with_reducible assumption | exact Closed.mono cl (by decide) | (with_reducible intro _) | with_reducible apply onlyIte | with_reducible refine onlyEach ?_ ?_ | with_reducible apply State.fset_only | with_reducible apply State.wset_only | dsimp only | split)
  repeat' first | with_reducible assumption | exact Closed.mono cl (by decide) | (with_reducible intro _) | with_reducible apply onlyIte | with_reducible refine onlyEach ?_ ?_ | with_reducible apply State.fset_only | with_reducible apply State.wset_only | dsimp only | split

theorem State.applySlots_only {P : State → Prop} (cl : Closed P 0x40) {s : State} (h : Sat P s)  : Sat P (State.applySlots s) := by
  unfold State.applySlots
  repeat' first | with_reducible assumption | exact Closed.mono cl (by decide) | (with_reducible intro _) | with_reducible apply onlyIte | (fail_if_no_progress with_reducible apply upd_ring (Closed.mono cl (by decide))) | dsimp only | split

theorem State.commitSlots_only {P : State → Prop} (cl : Closed P 0x200000000) {s : State} (h : Sat P s)  : Sat P (State.commitSlots s) := by
  unfold State.commitSlots
  repeat' first | with_reducible assumption | exact Closed.mono cl (by decide) | (with_reducible intro _) | with_reducible apply onlyIte | with_reducible refine onlyEach ?_ ?_ | with_reducible apply State.fset_only | dsimp only | split

theorem State.applyEdge_only {P : State → Prop} (cl : Closed P 0x8000) {s : State} (h : Sat P s)  : Sat P (State.applyEdge s) := by
  unfold State.applyEdge
  extract_lets +onlyGivenNames v_m v_d
  repeat' first | with_reducible assumption | exact Closed.mono cl (by decide) | (with_reducible intro _) | with_reducible apply onlyIte | (fail_if_no_progress with_reducible apply upd_edge (Closed.mono cl (by decide))) | dsimp only | split

theorem State.clearMemories_only {P : State → Prop} (cl : Closed P 0x1000000000) {s : State} (h : Sat P s) : Sat P s.clearMemories := upd_mem (cl.mono rfl) h

theorem State.setBorder_only {P : State → Prop} (cl : Closed P 0x808080) {s : State} (h : Sat P s) (m : SMap Nat) : Sat P (State.setBorder s m) := by
  unfold State.setBorder
  repeat' first | with_reducible assumption | exact Closed.mono cl (by decide) | (with_reducible intro _) | with_reducible apply onlyIte | (fail_if_no_progress with_reducible apply upd_edge_image_recon (Closed.mono cl (by decide))) | dsimp only | split

theorem State.contention_only {P : State → Prop} (cl : Closed P 0x200008800) {s : State} (h : Sat P s)  : Sat P (State.contention s) := by
  unfold State.contention
  extract_lets +onlyGivenNames v_l v_n v_s1
  try (have h_s1 : Sat P v_s1 := by repeat' first | with_reducible assumption | exact Closed.mono cl (by decide) | (with_reducible intro _) | with_reducible apply onlyIte | with_reducible apply State.fset_only | with_reducible apply State.setReg_only | with_reducible apply State.raiseAt_only | (fail_if_no_progress with_reducible apply upd_edge (Closed.mono cl (by decide))) | dsimp only | split)
  clear_value v_l
  repeat' first | with_reducible assumption | exact Closed.mono cl (by decide) | (with_reducible intro _) | with_reducible apply onlyIte | with_reducible apply State.fset_only | with_reducible apply State.setReg_only | with_reducible apply State.raiseAt_only | (fail_if_no_progress with_reducible apply upd_edge (Closed.mono cl (by decide))) | dsimp only | split

theorem State.commitTurns_only {P : State → Prop} (cl : Closed P 0x200000004) {s : State} (h : Sat P s) (d : Decl) (closed : Bool) : Sat P (State.commitTurns s d closed) := by
  unfold State.commitTurns
  extract_lets +onlyGivenNames v_s1 v_s2 v_s3 v_s4 v_s5
  try (have h_s1 : Sat P v_s1 := by repeat' first | with_reducible assumption | exact Closed.mono cl (by decide) | (with_reducible intro _) | with_reducible apply onlyIte | with_reducible apply State.fset_only | with_reducible apply State.wset_only | with_reducible apply State.setBit_only | with_reducible apply State.newT0_only | (fail_if_no_progress with_reducible apply upd_core (Closed.mono cl (by decide))) | dsimp only | split)
  try (have h_s2 : Sat P v_s2 := by repeat' first | with_reducible assumption | exact Closed.mono cl (by decide) | (with_reducible intro _) | with_reducible apply onlyIte | with_reducible apply State.fset_only | with_reducible apply State.wset_only | with_reducible apply State.setBit_only | with_reducible apply State.newT0_only | (fail_if_no_progress with_reducible apply upd_core (Closed.mono cl (by decide))) | dsimp only | split)
  try (have h_s3 : Sat P v_s3 := by repeat' first | with_reducible assumption | exact Closed.mono cl (by decide) | (with_reducible intro _) | with_reducible apply onlyIte | with_reducible apply State.fset_only | with_reducible apply State.wset_only | with_reducible apply State.setBit_only | with_reducible apply State.newT0_only | (fail_if_no_progress with_reducible apply upd_core (Closed.mono cl (by decide))) | dsimp only | split)
  try (have h_s4 : Sat P v_s4 := by repeat' first | with_reducible assumption | exact Closed.mono cl (by decide) | (with_reducible intro _) | with_reducible apply onlyIte | with_reducible apply State.fset_only | with_reducible apply State.wset_only | with_reducible apply State.setBit_only | with_reducible apply State.newT0_only | (fail_if_no_progress with_reducible apply upd_core (Closed.mono cl (by decide))) | dsimp only | split)
  try (have h_s5 : Sat P v_s5 := by repeat' first | with_reducible assumption | exact Closed.mono cl (by decide) | (with_reducible intro _) | with_reducible apply onlyIte | with_reducible apply State.fset_only | with_reducible apply State.wset_only | with_reducible apply State.setBit_only | with_reducible apply State.newT0_only | (fail_if_no_progress with_reducible apply upd_core (Closed.mono cl (by decide))) | dsimp only | split)
  repeat' first | with_reducible assumption | exact Closed.mono cl (by decide) | (with_reducible intro _) | with_reducible apply onlyIte | with_reducible apply State.fset_only | with_reducible apply State.wset_only | with_reducible apply State.setBit_only | with_reducible apply State.newT0_only | (fail_if_no_progress with_reducible apply upd_core (Closed.mono cl (by decide))) | dsimp only | split

theorem State.measureLref_only {P : State → Prop} (cl : Closed P 0x100000080) {s : State} (h : Sat P s)  : Sat P (State.measureLref s) := by
  unfold State.measureLref
  repeat' first | with_reducible assumption | exact Closed.mono cl (by decide) | (with_reducible intro _) | with_reducible apply onlyIte | with_reducible refine onlyEach ?_ ?_ | with_reducible apply State.drawn_only | (fail_if_no_progress with_reducible apply upd_image (Closed.mono cl (by decide))) | dsimp only | split

theorem State.commitLanes_only {P : State → Prop} (cl : Closed P 0x200000000) {s : State} (h : Sat P s) (paired : Bool) : Sat P (State.commitLanes s paired) := by
  unfold State.commitLanes
  extract_lets +onlyGivenNames v_s1
  try (have h_s1 : Sat P v_s1 := by repeat' first | with_reducible assumption | exact Closed.mono cl (by decide) | (with_reducible intro _) | with_reducible apply onlyIte | with_reducible refine onlyEach ?_ ?_ | with_reducible apply State.fset_only | with_reducible apply State.setReg_only | with_reducible apply State.setBit_only | dsimp only | split)
  repeat' first | with_reducible assumption | exact Closed.mono cl (by decide) | (with_reducible intro _) | with_reducible apply onlyIte | with_reducible refine onlyEach ?_ ?_ | with_reducible apply State.fset_only | with_reducible apply State.setReg_only | with_reducible apply State.setBit_only | dsimp only | split

theorem State.commitEq_only {P : State → Prop} (cl : Closed P 0x200000000) {s : State} (h : Sat P s)  : Sat P (State.commitEq s) := by
  unfold State.commitEq
  extract_lets +onlyGivenNames v_eq v_board
  repeat' first | with_reducible assumption | exact Closed.mono cl (by decide) | (with_reducible intro _) | with_reducible apply onlyIte | with_reducible refine onlyEach ?_ ?_ | with_reducible apply State.setReg_only | dsimp only | split

theorem State.commitCal_only {P : State → Prop} (cl : Closed P 0x200000800) {s : State} (h : Sat P s)  : Sat P (State.commitCal s) := by
  unfold State.commitCal
  repeat' first | with_reducible assumption | exact Closed.mono cl (by decide) | (with_reducible intro _) | with_reducible apply onlyIte | with_reducible refine onlyEach ?_ ?_ | with_reducible apply State.sset_only | with_reducible apply State.calConflict_only | dsimp only | split

theorem State.initFabric_only {P : State → Prop} (cl : Closed P 0x8000) {s : State} (h : Sat P s) (rows : Nat → Bool) : Sat P (State.initFabric s rows) := by
  unfold State.initFabric
  extract_lets +onlyGivenNames v_s1
  try (have h_s1 : Sat P v_s1 := by repeat' first | with_reducible assumption | exact Closed.mono cl (by decide) | (with_reducible intro _) | with_reducible apply onlyIte | with_reducible refine onlyEach ?_ ?_ | with_reducible apply State.setEdgeSt_only | with_reducible apply State.setMemSt_only | dsimp only | split)
  repeat' first | with_reducible assumption | exact Closed.mono cl (by decide) | (with_reducible intro _) | with_reducible apply onlyIte | with_reducible refine onlyEach ?_ ?_ | with_reducible apply State.setEdgeSt_only | with_reducible apply State.setMemSt_only | dsimp only | split

theorem State.commitEdge_only {P : State → Prop} (cl : Closed P 0x200008800) {s : State} (h : Sat P s) (closed : Bool) : Sat P (State.commitEdge s closed) := by
  unfold State.commitEdge
  extract_lets +onlyGivenNames v_s1 v_s2 v_s3
  try (have h_s1 : Sat P v_s1 := by repeat' first | with_reducible assumption | exact Closed.mono cl (by decide) | (with_reducible intro _) | with_reducible apply onlyIte | with_reducible refine onlyEach ?_ ?_ | with_reducible apply State.initFabric_only | with_reducible apply State.fset_only | with_reducible apply State.setReg_only | with_reducible apply State.setBit_only | with_reducible apply State.contention_only | dsimp only | split)
  try (have h_s2 : Sat P v_s2 := by repeat' first | with_reducible assumption | exact Closed.mono cl (by decide) | (with_reducible intro _) | with_reducible apply onlyIte | with_reducible refine onlyEach ?_ ?_ | with_reducible apply State.initFabric_only | with_reducible apply State.fset_only | with_reducible apply State.setReg_only | with_reducible apply State.setBit_only | with_reducible apply State.contention_only | dsimp only | split)
  try (have h_s3 : Sat P v_s3 := by repeat' first | with_reducible assumption | exact Closed.mono cl (by decide) | (with_reducible intro _) | with_reducible apply onlyIte | with_reducible refine onlyEach ?_ ?_ | with_reducible apply State.initFabric_only | with_reducible apply State.fset_only | with_reducible apply State.setReg_only | with_reducible apply State.setBit_only | with_reducible apply State.contention_only | dsimp only | split)
  repeat' first | with_reducible assumption | exact Closed.mono cl (by decide) | (with_reducible intro _) | with_reducible apply onlyIte | with_reducible refine onlyEach ?_ ?_ | with_reducible apply State.initFabric_only | with_reducible apply State.fset_only | with_reducible apply State.setReg_only | with_reducible apply State.setBit_only | with_reducible apply State.contention_only | dsimp only | split

theorem State.commitPins_only {P : State → Prop} (cl : Closed P 0x20000000) {s : State} (h : Sat P s)  : Sat P (State.commitPins s) := by
  unfold State.commitPins
  extract_lets +onlyGivenNames v_l
  repeat' first | with_reducible assumption | exact Closed.mono cl (by decide) | (with_reducible intro _) | with_reducible apply onlyIte | (fail_if_no_progress with_reducible apply upd_pins (Closed.mono cl (by decide))) | dsimp only | split

theorem State.commitRegions_only {P : State → Prop} (cl : Closed P 0xA00000000) {s : State} (h : Sat P s)  : Sat P (State.commitRegions s) := by
  unfold State.commitRegions
  extract_lets +onlyGivenNames v_r v_s1
  try (have h_s1 : Sat P v_s1 := by repeat' first | with_reducible assumption | exact Closed.mono cl (by decide) | (with_reducible intro _) | with_reducible apply onlyIte | with_reducible refine onlyEach ?_ ?_ | with_reducible apply State.fset_only | with_reducible apply State.setBit_only | with_reducible apply State.resetWords_only | dsimp only | split)
  repeat' first | with_reducible assumption | exact Closed.mono cl (by decide) | (with_reducible intro _) | with_reducible apply onlyIte | with_reducible refine onlyEach ?_ ?_ | with_reducible apply State.fset_only | with_reducible apply State.setBit_only | with_reducible apply State.resetWords_only | dsimp only | split

theorem State.applySetting_only {P : State → Prop} (cl : Closed P 0x200018200) {s : State} (h : Sat P s) (x : Setting) : Sat P (State.applySetting s x) := by
  unfold State.applySetting
  repeat' first | with_reducible assumption | exact Closed.mono cl (by decide) | (with_reducible intro _) | with_reducible apply onlyIte | with_reducible apply State.setReg_only | with_reducible apply State.fset_only | with_reducible apply State.setFlow_only | with_reducible apply State.capArm_only | (fail_if_no_progress with_reducible apply upd_act (Closed.mono cl (by decide))) | (fail_if_no_progress with_reducible apply upd_edge (Closed.mono cl (by decide))) | dsimp only | split

theorem State.emptyQueues_only {P : State → Prop} (cl : Closed P 0x200000000) {s : State} (h : Sat P s)  : Sat P (State.emptyQueues s) := by
  unfold State.emptyQueues
  repeat' first | with_reducible assumption | exact Closed.mono cl (by decide) | (with_reducible intro _) | with_reducible apply onlyIte | with_reducible refine onlyEach ?_ ?_ | with_reducible apply State.driveFlag_only | dsimp only | split

theorem State.applyAction_only {P : State → Prop} (cl : Closed P 0xA00018200) {s : State} (h : Sat P s)  : Sat P (State.applyAction s) := by
  unfold State.applyAction
  repeat' first | with_reducible assumption | exact Closed.mono cl (by decide) | (with_reducible intro _) | with_reducible apply onlyIte | with_reducible refine onlyEach ?_ ?_ | with_reducible apply State.clearAction_only | with_reducible apply State.applySetting_only | with_reducible apply State.emptyQueues_only | dsimp only | split

theorem State.applyHeld_only {P : State → Prop} (cl : Closed P 0x1A00018258) {s : State} (h : Sat P s)  : Sat P (State.applyHeld s) := by
  unfold State.applyHeld
  extract_lets +onlyGivenNames v_s1
  try (have h_s1 : Sat P v_s1 := by repeat' first | with_reducible assumption | exact Closed.mono cl (by decide) | (with_reducible intro _) | with_reducible apply onlyIte | with_reducible apply State.applyLanes_only | with_reducible apply State.applyPorts_only | with_reducible apply State.applySlots_only | with_reducible apply State.applyEdge_only | with_reducible apply State.applyAction_only | with_reducible apply State.clearMemories_only | (fail_if_no_progress with_reducible apply upd_instrs_strands (Closed.mono cl (by decide))) | dsimp only | split)
  repeat' first | with_reducible assumption | exact Closed.mono cl (by decide) | (with_reducible intro _) | with_reducible apply onlyIte | with_reducible apply State.applyLanes_only | with_reducible apply State.applyPorts_only | with_reducible apply State.applySlots_only | with_reducible apply State.applyEdge_only | with_reducible apply State.applyAction_only | with_reducible apply State.clearMemories_only | (fail_if_no_progress with_reducible apply upd_instrs_strands (Closed.mono cl (by decide))) | dsimp only | split

theorem State.commitPlane_only {P : State → Prop} (cl : Closed P 0x200018200) {s : State} (h : Sat P s)  : Sat P (State.commitPlane s) := by
  unfold State.commitPlane
  repeat' first | with_reducible assumption | exact Closed.mono cl (by decide) | (with_reducible intro _) | with_reducible apply onlyIte | with_reducible refine onlyEach ?_ ?_ | with_reducible apply State.applySetting_only | with_reducible apply State.fset_only | dsimp only | split

theorem State.commitFaults_only {P : State → Prop} (cl : Closed P 0x200200000) {s : State} (h : Sat P s)  : Sat P (State.commitFaults s) := by
  unfold State.commitFaults
  extract_lets +onlyGivenNames v_b v_s1
  try (have h_s1 : Sat P v_s1 := by repeat' first | with_reducible assumption | exact Closed.mono cl (by decide) | (with_reducible intro _) | with_reducible apply onlyIte | with_reducible refine onlyFoldl ?_ ?_ | with_reducible apply State.setReg_only | with_reducible apply State.fset_only | (fail_if_no_progress with_reducible apply upd_flt (Closed.mono cl (by decide))) | dsimp only | split)
  repeat' first | with_reducible assumption | exact Closed.mono cl (by decide) | (with_reducible intro _) | with_reducible apply onlyIte | with_reducible refine onlyFoldl ?_ ?_ | with_reducible apply State.setReg_only | with_reducible apply State.fset_only | (fail_if_no_progress with_reducible apply upd_flt (Closed.mono cl (by decide))) | dsimp only | split

theorem State.commitSplice_only {P : State → Prop} (cl : Closed P 0x200020000) {s : State} (h : Sat P s)  : Sat P (State.commitSplice s) := by
  unfold State.commitSplice
  extract_lets +onlyGivenNames v_b v_role v_s1 v_s2 v_s3 v_s4
  try (have h_s1 : Sat P v_s1 := by repeat' first | with_reducible assumption | exact Closed.mono cl (by decide) | (with_reducible intro _) | with_reducible apply onlyIte | with_reducible refine onlyEach ?_ ?_ | with_reducible apply State.wset_only | with_reducible apply State.fset_only | with_reducible apply State.setReg_only | (fail_if_no_progress with_reducible apply upd_splice (Closed.mono cl (by decide))) | dsimp only | split)
  try (have h_s2 : Sat P v_s2 := by repeat' first | with_reducible assumption | exact Closed.mono cl (by decide) | (with_reducible intro _) | with_reducible apply onlyIte | with_reducible refine onlyEach ?_ ?_ | with_reducible apply State.wset_only | with_reducible apply State.fset_only | with_reducible apply State.setReg_only | (fail_if_no_progress with_reducible apply upd_splice (Closed.mono cl (by decide))) | dsimp only | split)
  try (have h_s3 : Sat P v_s3 := by repeat' first | with_reducible assumption | exact Closed.mono cl (by decide) | (with_reducible intro _) | with_reducible apply onlyIte | with_reducible refine onlyEach ?_ ?_ | with_reducible apply State.wset_only | with_reducible apply State.fset_only | with_reducible apply State.setReg_only | (fail_if_no_progress with_reducible apply upd_splice (Closed.mono cl (by decide))) | dsimp only | split)
  try (have h_s4 : Sat P v_s4 := by repeat' first | with_reducible assumption | exact Closed.mono cl (by decide) | (with_reducible intro _) | with_reducible apply onlyIte | with_reducible refine onlyEach ?_ ?_ | with_reducible apply State.wset_only | with_reducible apply State.fset_only | with_reducible apply State.setReg_only | (fail_if_no_progress with_reducible apply upd_splice (Closed.mono cl (by decide))) | dsimp only | split)
  repeat' first | with_reducible assumption | exact Closed.mono cl (by decide) | (with_reducible intro _) | with_reducible apply onlyIte | with_reducible refine onlyEach ?_ ?_ | with_reducible apply State.wset_only | with_reducible apply State.fset_only | with_reducible apply State.setReg_only | (fail_if_no_progress with_reducible apply upd_splice (Closed.mono cl (by decide))) | dsimp only | split

theorem State.commitDomains_only {P : State → Prop} (cl : Closed P 0x200000000) {s : State} (h : Sat P s) (closed : Bool) : Sat P (State.commitDomains s closed) := by
  unfold State.commitDomains
  repeat' first | with_reducible assumption | exact Closed.mono cl (by decide) | (with_reducible intro _) | with_reducible apply onlyIte | with_reducible refine onlyEach ?_ ?_ | with_reducible apply State.fset_only | dsimp only | split

theorem State.commitStatus_only {P : State → Prop} (cl : Closed P 0x208000000) {s : State} (h : Sat P s) (h : CastHdr) : Sat P (State.commitStatus s h) := by
  unfold State.commitStatus
  extract_lets +onlyGivenNames v_s1 v_s2 v_s3
  try (have h_s1 : Sat P v_s1 := by repeat' first | with_reducible assumption | exact Closed.mono cl (by decide) | (with_reducible intro _) | with_reducible apply onlyIte | with_reducible refine onlyEach ?_ ?_ | with_reducible apply State.fset_only | with_reducible apply State.setBit_only | with_reducible apply State.setReg_only | (fail_if_no_progress with_reducible apply upd_sec (Closed.mono cl (by decide))) | dsimp only | split)
  try (have h_s2 : Sat P v_s2 := by repeat' first | with_reducible assumption | exact Closed.mono cl (by decide) | (with_reducible intro _) | with_reducible apply onlyIte | with_reducible refine onlyEach ?_ ?_ | with_reducible apply State.fset_only | with_reducible apply State.setBit_only | with_reducible apply State.setReg_only | (fail_if_no_progress with_reducible apply upd_sec (Closed.mono cl (by decide))) | dsimp only | split)
  try (have h_s3 : Sat P v_s3 := by repeat' first | with_reducible assumption | exact Closed.mono cl (by decide) | (with_reducible intro _) | with_reducible apply onlyIte | with_reducible refine onlyEach ?_ ?_ | with_reducible apply State.fset_only | with_reducible apply State.setBit_only | with_reducible apply State.setReg_only | (fail_if_no_progress with_reducible apply upd_sec (Closed.mono cl (by decide))) | dsimp only | split)
  repeat' first | with_reducible assumption | exact Closed.mono cl (by decide) | (with_reducible intro _) | with_reducible apply onlyIte | with_reducible refine onlyEach ?_ ?_ | with_reducible apply State.fset_only | with_reducible apply State.setBit_only | with_reducible apply State.setReg_only | (fail_if_no_progress with_reducible apply upd_sec (Closed.mono cl (by decide))) | dsimp only | split

theorem State.initStores_only {P : State → Prop} (cl : Closed P 0x4000008) {s : State} (h : Sat P s) (cords : Nat → Bool) : Sat P (State.initStores s cords) := by
  unfold State.initStores
  repeat' first | with_reducible assumption | exact Closed.mono cl (by decide) | (with_reducible intro _) | with_reducible apply onlyIte | with_reducible refine onlyEach ?_ ?_ | with_reducible apply State.setStrand_only | (fail_if_no_progress with_reducible apply upd_store (Closed.mono cl (by decide))) | with_reducible exact rfl | dsimp only | split

theorem State.placeInit_only {P : State → Prop} (cl : Closed P 0x400000000) {s : State} (h : Sat P s) (a : Nat) (f : Bytes) : Sat P (State.placeInit s a f) := by
  unfold State.placeInit
  repeat' first | with_reducible assumption | exact Closed.mono cl (by decide) | (with_reducible intro _) | with_reducible apply onlyIte | with_reducible apply State.wrBytes_only | dsimp only | split

theorem State.dropDict_only {P : State → Prop} (cl : Closed P 0x1400000000) {s : State} (h : Sat P s)  : Sat P (State.dropDict s) := by
  unfold State.dropDict
  extract_lets +onlyGivenNames v_s1
  try (have h_s1 : Sat P v_s1 := by repeat' first | with_reducible assumption | exact Closed.mono cl (by decide) | (with_reducible intro _) | with_reducible apply onlyIte | with_reducible refine onlyEach ?_ ?_ | with_reducible apply State.placeInit_only | (fail_if_no_progress with_reducible apply upd_mem (Closed.mono cl (by decide))) | dsimp only | split)
  repeat' first | with_reducible assumption | exact Closed.mono cl (by decide) | (with_reducible intro _) | with_reducible apply onlyIte | with_reducible refine onlyEach ?_ ?_ | with_reducible apply State.placeInit_only | (fail_if_no_progress with_reducible apply upd_mem (Closed.mono cl (by decide))) | dsimp only | split

theorem State.keepCast_only {P : State → Prop} (cl : Closed P 0x80) {s : State} (h : Sat P s)  : Sat P (State.keepCast s) := by
  unfold State.keepCast
  extract_lets +onlyGivenNames v_init
  repeat' first | with_reducible assumption | exact Closed.mono cl (by decide) | (with_reducible intro _) | with_reducible apply onlyIte | (fail_if_no_progress with_reducible apply upd_image (Closed.mono cl (by decide))) | dsimp only | split

theorem State.commitImage_only {P : State → Prop} (cl : Closed P 0x1F2CE38AEC) {s : State} (h : Sat P s)  : Sat P (State.commitImage s) := by
  unfold State.commitImage
  extract_lets +onlyGivenNames v_h v_d v_closed v_role v_range v_s0 v_s1 v_s2 v_s3 v_s4 v_s5
  try (have h_s0 : Sat P v_s0 := by repeat' first | with_reducible assumption | exact Closed.mono cl (by decide) | (with_reducible intro _) | with_reducible apply onlyIte | with_reducible apply State.dropDict_only | with_reducible apply State.commitSlots_only | with_reducible apply State.dropPorts_only | with_reducible apply State.initStores_only | with_reducible apply State.commitTurns_only | with_reducible apply State.commitSplice_only | with_reducible apply State.measureLref_only | with_reducible apply State.commitLanes_only | with_reducible apply State.commitEq_only | with_reducible apply State.commitCal_only | with_reducible apply State.commitEdge_only | with_reducible apply State.setBorder_only | with_reducible apply State.commitPins_only | with_reducible apply State.commitRegions_only | with_reducible apply State.commitPlane_only | with_reducible apply State.commitFaults_only | with_reducible apply State.commitDomains_only | with_reducible apply State.commitStatus_only | with_reducible apply State.keepCast_only | (fail_if_no_progress with_reducible apply upd_image_strands (Closed.mono cl (by decide))) | (fail_if_no_progress with_reducible apply upd_load (Closed.mono cl (by decide))) | dsimp only | split)
  try (have h_s1 : Sat P v_s1 := by repeat' first | with_reducible assumption | exact Closed.mono cl (by decide) | (with_reducible intro _) | with_reducible apply onlyIte | with_reducible apply State.dropDict_only | with_reducible apply State.commitSlots_only | with_reducible apply State.dropPorts_only | with_reducible apply State.initStores_only | with_reducible apply State.commitTurns_only | with_reducible apply State.commitSplice_only | with_reducible apply State.measureLref_only | with_reducible apply State.commitLanes_only | with_reducible apply State.commitEq_only | with_reducible apply State.commitCal_only | with_reducible apply State.commitEdge_only | with_reducible apply State.setBorder_only | with_reducible apply State.commitPins_only | with_reducible apply State.commitRegions_only | with_reducible apply State.commitPlane_only | with_reducible apply State.commitFaults_only | with_reducible apply State.commitDomains_only | with_reducible apply State.commitStatus_only | with_reducible apply State.keepCast_only | (fail_if_no_progress with_reducible apply upd_image_strands (Closed.mono cl (by decide))) | (fail_if_no_progress with_reducible apply upd_load (Closed.mono cl (by decide))) | dsimp only | split)
  try (have h_s2 : Sat P v_s2 := by repeat' first | with_reducible assumption | exact Closed.mono cl (by decide) | (with_reducible intro _) | with_reducible apply onlyIte | with_reducible apply State.dropDict_only | with_reducible apply State.commitSlots_only | with_reducible apply State.dropPorts_only | with_reducible apply State.initStores_only | with_reducible apply State.commitTurns_only | with_reducible apply State.commitSplice_only | with_reducible apply State.measureLref_only | with_reducible apply State.commitLanes_only | with_reducible apply State.commitEq_only | with_reducible apply State.commitCal_only | with_reducible apply State.commitEdge_only | with_reducible apply State.setBorder_only | with_reducible apply State.commitPins_only | with_reducible apply State.commitRegions_only | with_reducible apply State.commitPlane_only | with_reducible apply State.commitFaults_only | with_reducible apply State.commitDomains_only | with_reducible apply State.commitStatus_only | with_reducible apply State.keepCast_only | (fail_if_no_progress with_reducible apply upd_image_strands (Closed.mono cl (by decide))) | (fail_if_no_progress with_reducible apply upd_load (Closed.mono cl (by decide))) | dsimp only | split)
  try (have h_s3 : Sat P v_s3 := by repeat' first | with_reducible assumption | exact Closed.mono cl (by decide) | (with_reducible intro _) | with_reducible apply onlyIte | with_reducible apply State.dropDict_only | with_reducible apply State.commitSlots_only | with_reducible apply State.dropPorts_only | with_reducible apply State.initStores_only | with_reducible apply State.commitTurns_only | with_reducible apply State.commitSplice_only | with_reducible apply State.measureLref_only | with_reducible apply State.commitLanes_only | with_reducible apply State.commitEq_only | with_reducible apply State.commitCal_only | with_reducible apply State.commitEdge_only | with_reducible apply State.setBorder_only | with_reducible apply State.commitPins_only | with_reducible apply State.commitRegions_only | with_reducible apply State.commitPlane_only | with_reducible apply State.commitFaults_only | with_reducible apply State.commitDomains_only | with_reducible apply State.commitStatus_only | with_reducible apply State.keepCast_only | (fail_if_no_progress with_reducible apply upd_image_strands (Closed.mono cl (by decide))) | (fail_if_no_progress with_reducible apply upd_load (Closed.mono cl (by decide))) | dsimp only | split)
  try (have h_s4 : Sat P v_s4 := by repeat' first | with_reducible assumption | exact Closed.mono cl (by decide) | (with_reducible intro _) | with_reducible apply onlyIte | with_reducible apply State.dropDict_only | with_reducible apply State.commitSlots_only | with_reducible apply State.dropPorts_only | with_reducible apply State.initStores_only | with_reducible apply State.commitTurns_only | with_reducible apply State.commitSplice_only | with_reducible apply State.measureLref_only | with_reducible apply State.commitLanes_only | with_reducible apply State.commitEq_only | with_reducible apply State.commitCal_only | with_reducible apply State.commitEdge_only | with_reducible apply State.setBorder_only | with_reducible apply State.commitPins_only | with_reducible apply State.commitRegions_only | with_reducible apply State.commitPlane_only | with_reducible apply State.commitFaults_only | with_reducible apply State.commitDomains_only | with_reducible apply State.commitStatus_only | with_reducible apply State.keepCast_only | (fail_if_no_progress with_reducible apply upd_image_strands (Closed.mono cl (by decide))) | (fail_if_no_progress with_reducible apply upd_load (Closed.mono cl (by decide))) | dsimp only | split)
  try (have h_s5 : Sat P v_s5 := by repeat' first | with_reducible assumption | exact Closed.mono cl (by decide) | (with_reducible intro _) | with_reducible apply onlyIte | with_reducible apply State.dropDict_only | with_reducible apply State.commitSlots_only | with_reducible apply State.dropPorts_only | with_reducible apply State.initStores_only | with_reducible apply State.commitTurns_only | with_reducible apply State.commitSplice_only | with_reducible apply State.measureLref_only | with_reducible apply State.commitLanes_only | with_reducible apply State.commitEq_only | with_reducible apply State.commitCal_only | with_reducible apply State.commitEdge_only | with_reducible apply State.setBorder_only | with_reducible apply State.commitPins_only | with_reducible apply State.commitRegions_only | with_reducible apply State.commitPlane_only | with_reducible apply State.commitFaults_only | with_reducible apply State.commitDomains_only | with_reducible apply State.commitStatus_only | with_reducible apply State.keepCast_only | (fail_if_no_progress with_reducible apply upd_image_strands (Closed.mono cl (by decide))) | (fail_if_no_progress with_reducible apply upd_load (Closed.mono cl (by decide))) | dsimp only | split)
  repeat' first | with_reducible assumption | exact Closed.mono cl (by decide) | (with_reducible intro _) | with_reducible apply onlyIte | with_reducible apply State.dropDict_only | with_reducible apply State.commitSlots_only | with_reducible apply State.dropPorts_only | with_reducible apply State.initStores_only | with_reducible apply State.commitTurns_only | with_reducible apply State.commitSplice_only | with_reducible apply State.measureLref_only | with_reducible apply State.commitLanes_only | with_reducible apply State.commitEq_only | with_reducible apply State.commitCal_only | with_reducible apply State.commitEdge_only | with_reducible apply State.setBorder_only | with_reducible apply State.commitPins_only | with_reducible apply State.commitRegions_only | with_reducible apply State.commitPlane_only | with_reducible apply State.commitFaults_only | with_reducible apply State.commitDomains_only | with_reducible apply State.commitStatus_only | with_reducible apply State.keepCast_only | (fail_if_no_progress with_reducible apply upd_image_strands (Closed.mono cl (by decide))) | (fail_if_no_progress with_reducible apply upd_load (Closed.mono cl (by decide))) | dsimp only | split

theorem State.chainQuiet_only {P : State → Prop} (cl : Closed P 0x200000000) {s : State} (h : Sat P s)  : Sat P (State.chainQuiet s) := by
  unfold State.chainQuiet
  repeat' first | with_reducible assumption | exact Closed.mono cl (by decide) | (with_reducible intro _) | with_reducible apply onlyIte | with_reducible apply State.fset_only | dsimp only | split

theorem State.refuseLoad_only {P : State → Prop} (cl : Closed P 0x200400000) {s : State} (h : Sat P s) (code sec frame : Nat) : Sat P (State.refuseLoad s code sec frame) := by
  unfold State.refuseLoad
  extract_lets +onlyGivenNames v_s1
  try (have h_s1 : Sat P v_s1 := by repeat' first | with_reducible assumption | exact Closed.mono cl (by decide) | (with_reducible intro _) | with_reducible apply onlyIte | with_reducible apply State.fset_only | with_reducible apply State.chainQuiet_only | (fail_if_no_progress with_reducible apply upd_load (Closed.mono cl (by decide))) | dsimp only | split)
  repeat' first | with_reducible assumption | exact Closed.mono cl (by decide) | (with_reducible intro _) | with_reducible apply onlyIte | with_reducible apply State.fset_only | with_reducible apply State.chainQuiet_only | (fail_if_no_progress with_reducible apply upd_load (Closed.mono cl (by decide))) | dsimp only | split

theorem State.refuseEarly_only {P : State → Prop} (cl : Closed P 0x200400000) {s : State} (h : Sat P s) (code : Nat) : Sat P (State.refuseEarly s code) := by
  unfold State.refuseEarly
  repeat' first | with_reducible assumption | exact Closed.mono cl (by decide) | (with_reducible intro _) | with_reducible apply onlyIte | with_reducible apply State.refuseLoad_only | dsimp only | split

theorem State.refuseHere_only {P : State → Prop} (cl : Closed P 0x200400000) {s : State} (h : Sat P s) (code frame : Nat) : Sat P (State.refuseHere s code frame) := by
  unfold State.refuseHere
  repeat' first | with_reducible assumption | exact Closed.mono cl (by decide) | (with_reducible intro _) | with_reducible apply onlyIte | with_reducible apply State.refuseLoad_only | dsimp only | split

theorem State.openCast_only {P : State → Prop} (cl : Closed P 0x208400000) {s : State} (h : Sat P s) (h : CastHdr) : Sat P (State.openCast s h) := by
  unfold State.openCast
  repeat' first | with_reducible assumption | exact Closed.mono cl (by decide) | (with_reducible intro _) | with_reducible apply onlyIte | with_reducible apply State.refuseEarly_only | with_reducible apply State.holdKey_only | (fail_if_no_progress with_reducible apply upd_load (Closed.mono cl (by decide))) | dsimp only | split

theorem State.dropSk_only {P : State → Prop} (cl : Closed P 0x8000000) {s : State} (h : Sat P s)  : Sat P (State.dropSk s) := by
  unfold State.dropSk
  repeat' first | with_reducible assumption | exact Closed.mono cl (by decide) | (with_reducible intro _) | with_reducible apply onlyIte | (fail_if_no_progress with_reducible apply upd_sec (Closed.mono cl (by decide))) | dsimp only | split

theorem State.openEntry_only {P : State → Prop} (cl : Closed P 0x208400000) {s : State} (h : Sat P s) (b : Bytes) (i : Nat) (h : CastHdr) : Sat P (State.openEntry s b i h) := by
  unfold State.openEntry
  extract_lets +onlyGivenNames v_s1 v_s2
  try (have h_s1 : Sat P v_s1 := by repeat' first | with_reducible assumption | exact Closed.mono cl (by decide) | (with_reducible intro _) | with_reducible apply onlyIte | with_reducible apply State.fset_only | with_reducible apply State.openCast_only | (fail_if_no_progress with_reducible apply upd_load (Closed.mono cl (by decide))) | dsimp only | split)
  try (have h_s2 : Sat P v_s2 := by repeat' first | with_reducible assumption | exact Closed.mono cl (by decide) | (with_reducible intro _) | with_reducible apply onlyIte | with_reducible apply State.fset_only | with_reducible apply State.openCast_only | (fail_if_no_progress with_reducible apply upd_load (Closed.mono cl (by decide))) | dsimp only | split)
  repeat' first | with_reducible assumption | exact Closed.mono cl (by decide) | (with_reducible intro _) | with_reducible apply onlyIte | with_reducible apply State.fset_only | with_reducible apply State.openCast_only | (fail_if_no_progress with_reducible apply upd_load (Closed.mono cl (by decide))) | dsimp only | split

theorem State.awaitEntry_only {P : State → Prop} (cl : Closed P 0x200400000) {s : State} (h : Sat P s) (b : Bytes) (i : Nat) : Sat P (State.awaitEntry s b i) := by
  unfold State.awaitEntry
  repeat' first | with_reducible assumption | exact Closed.mono cl (by decide) | (with_reducible intro _) | with_reducible apply onlyIte | with_reducible apply State.fset_only | (fail_if_no_progress with_reducible apply upd_load (Closed.mono cl (by decide))) | dsimp only | split

theorem State.bootEntries_only {P : State → Prop} (cl : Closed P 0x208400000) {s : State} (h : Sat P s) (b : Bytes) (h : CastHdr) : Sat P (State.bootEntries s b h) := by
  unfold State.bootEntries
  repeat' first | with_reducible assumption | exact Closed.mono cl (by decide) | (with_reducible intro _) | with_reducible apply onlyIte | with_reducible apply State.fset_only | with_reducible apply State.refuseEarly_only | with_reducible apply State.awaitEntry_only | with_reducible apply State.openEntry_only | dsimp only | split

theorem State.bootLoad_only {P : State → Prop} (cl : Closed P 0x208400000) {s : State} (h : Sat P s) (dir : Option Bytes) (h : CastHdr) : Sat P (State.bootLoad s dir h) := by
  unfold State.bootLoad
  repeat' first | with_reducible assumption | exact Closed.mono cl (by decide) | (with_reducible intro _) | with_reducible apply onlyIte | with_reducible apply State.fset_only | with_reducible apply State.dropSk_only | with_reducible apply State.bootEntries_only | dsimp only | split

theorem State.cfgLoad_only {P : State → Prop} (cl : Closed P 0xA28D3C7EC) {s : State} (h : Sat P s) (entry : Nat) : Sat P (State.cfgLoad s entry) := by
  unfold State.cfgLoad
  extract_lets +onlyGivenNames v_start v_s1
  try (have h_s1 : Sat P v_s1 := by repeat' first | with_reducible assumption | exact Closed.mono cl (by decide) | (with_reducible intro _) | with_reducible apply onlyIte | with_reducible apply State.fset_only | with_reducible apply State.enterLoad_only | with_reducible apply State.chainQuiet_only | (fail_if_no_progress with_reducible apply upd_load (Closed.mono cl (by decide))) | dsimp only | split)
  repeat' first | with_reducible assumption | exact Closed.mono cl (by decide) | (with_reducible intro _) | with_reducible apply onlyIte | with_reducible apply State.fset_only | with_reducible apply State.enterLoad_only | with_reducible apply State.chainQuiet_only | (fail_if_no_progress with_reducible apply upd_load (Closed.mono cl (by decide))) | dsimp only | split

theorem State.chainIn_only {P : State → Prop} (cl : Closed P 0x208400000) {s : State} (h : Sat P s) (h : CastHdr) : Sat P (State.chainIn s h) := by
  unfold State.chainIn
  repeat' first | with_reducible assumption | exact Closed.mono cl (by decide) | (with_reducible intro _) | with_reducible apply onlyIte | with_reducible apply State.dropSk_only | with_reducible apply State.fset_only | with_reducible apply State.openCast_only | (fail_if_no_progress with_reducible apply upd_load (Closed.mono cl (by decide))) | dsimp only | split

theorem State.recordRead_only {P : State → Prop} (cl : Closed P 0x400000) {s : State} (h : Sat P s) (n : Nat) : Sat P (State.recordRead s n) := by
  unfold State.recordRead
  repeat' first | with_reducible assumption | exact Closed.mono cl (by decide) | (with_reducible intro _) | with_reducible apply onlyIte | (fail_if_no_progress with_reducible apply upd_load (Closed.mono cl (by decide))) | dsimp only | split

theorem State.takeRecs_only {P : State → Prop} (cl : Closed P 0x200400000) {s : State} (h : Sat P s) (data : Bytes) : Sat P (State.takeRecs s data) := by
  unfold State.takeRecs
  repeat' first | with_reducible assumption | exact Closed.mono cl (by decide) | (with_reducible intro _) | with_reducible apply onlyIte | with_reducible apply State.refuseHere_only | with_reducible apply State.recordRead_only | (fail_if_no_progress with_reducible apply upd_load (Closed.mono cl (by decide))) | dsimp only | split

theorem State.edgeFrame_only {P : State → Prop} (cl : Closed P 0x400000) {s : State} (h : Sat P s) (a : Nat) (f : Bytes) : ∀ t, s.edgeFrame a f = .ok t → Sat P t := by
  intro t e
  unfold State.edgeFrame at e
  dsimp only at e
  split at e
  · cases e
  · split at e
    · cases e
    · cases e
      exact upd_load (cl.mono rfl) h

theorem State.scheduleFrame_only {P : State → Prop} (cl : Closed P 0x400010) {s : State} (h : Sat P s) (a : Nat) (f : Bytes) : ∀ t, s.scheduleFrame a f = .ok t → Sat P t := by
  intro t e
  unfold State.scheduleFrame at e
  dsimp only at e
  repeat' (split at e)
  all_goals first | cases e | skip
  all_goals first | exact upd_load (cl.mono rfl) h | exact upd_instrs_load (cl.mono rfl) h

theorem State.initFrame_only {P : State → Prop} (cl : Closed P 0x400400000) {s : State} (h : Sat P s) (a : Nat) (f : Bytes) : ∀ t, s.initFrame a f = .ok t → Sat P t := by
  intro t e
  unfold State.initFrame at e
  dsimp only at e
  repeat' (split at e)
  all_goals first | cases e | skip
  all_goals first
    | exact upd_load (cl.mono rfl) (State.placeInit_only (cl.mono rfl) h _ _)
    | (repeat' first | with_reducible assumption | exact Closed.mono cl (by decide) | with_reducible apply onlyIte | with_reducible apply State.placeInit_only | (fail_if_no_progress with_reducible apply upd_load (Closed.mono cl (by decide))) | dsimp only | split)

theorem State.writeFrame_only {P : State → Prop} (cl : Closed P 0x600400010) {s : State} (h : Sat P s) (a : Nat) (f : Bytes) : Sat P (s.writeFrame a f) := by
  unfold State.writeFrame
  dsimp only
  split
  · exact h
  · split
    · exact State.refuseHere_only (cl.mono rfl) h _ _
    · rename_i t e
      refine upd_load (cl.mono rfl) ?_
      split at e
      · exact State.edgeFrame_only (cl.mono rfl) h _ _ _ e
      · split at e
        · exact State.scheduleFrame_only (cl.mono rfl) h _ _ _ e
        · split at e
          · exact State.initFrame_only (cl.mono rfl) h _ _ _ e
          · cases e

theorem State.writeFrames_only {P : State → Prop} (cl : Closed P 0x600400010) {s : State} (h : Sat P s) (f : Bytes) (a stride n : Nat) : Sat P (s.writeFrames f a stride n) := by
  induction n generalizing s a with
  | zero => exact h
  | succ n ih =>
    unfold State.writeFrames
    split
    · exact ih (State.writeFrame_only (cl.mono rfl) h _ f) _
    · exact h

theorem State.takeDict_only {P : State → Prop} (cl : Closed P 0x600400000) {s : State} (h : Sat P s) (i : Nat) (f : Bytes) : Sat P (State.takeDict s i f) := by
  unfold State.takeDict
  repeat' first | with_reducible assumption | exact Closed.mono cl (by decide) | (with_reducible intro _) | with_reducible apply onlyIte | with_reducible apply State.refuseHere_only | with_reducible apply State.recordRead_only | with_reducible apply State.wrBytes_only | (fail_if_no_progress with_reducible apply upd_load (Closed.mono cl (by decide))) | dsimp only | split

theorem State.takeRepl_only {P : State → Prop} (cl : Closed P 0x600400010) {s : State} (h : Sat P s) (i a n stride : Nat) : Sat P (s.takeRepl i a n stride) := by
  unfold State.takeRepl
  split
  · exact h
  · split
    · exact State.refuseHere_only (cl.mono rfl) h _ _
    · exact State.writeFrames_only (cl.mono rfl) (State.recordRead_only (cl.mono rfl) h _) _ _ _ _

theorem State.afterPre_only {P : State → Prop} (cl : Closed P 0x200000000) {s : State} (h : Sat P s)  : Sat P (State.afterPre s) := by
  unfold State.afterPre
  repeat' first | with_reducible assumption | exact Closed.mono cl (by decide) | (with_reducible intro _) | with_reducible apply onlyIte | with_reducible apply State.fset_only | dsimp only | split

theorem State.startForward_only {P : State → Prop} (cl : Closed P 0x300400000) {s : State} (h : Sat P s)  : Sat P (State.startForward s) := by
  unfold State.startForward
  repeat' first | with_reducible assumption | exact Closed.mono cl (by decide) | (with_reducible intro _) | with_reducible apply onlyIte | with_reducible apply State.drawn_only | with_reducible apply State.setBit_only | with_reducible apply State.chainQuiet_only | (fail_if_no_progress with_reducible apply upd_load (Closed.mono cl (by decide))) | dsimp only | split

theorem State.endForward_only {P : State → Prop} (cl : Closed P 0x200400000) {s : State} (h : Sat P s)  : Sat P (State.endForward s) := by
  unfold State.endForward
  repeat' first | with_reducible assumption | exact Closed.mono cl (by decide) | (with_reducible intro _) | with_reducible apply onlyIte | with_reducible apply State.fset_only | with_reducible apply State.chainQuiet_only | (fail_if_no_progress with_reducible apply upd_load (Closed.mono cl (by decide))) | dsimp only | split

theorem State.applyPart_only {P : State → Prop} (cl : Closed P 0x200008050) {s : State} (h : Sat P s)  : Sat P (State.applyPart s) := by
  unfold State.applyPart
  extract_lets +onlyGivenNames v_c v_cordIn v_s1 v_shadow v_mine v_kept v_new v_s2
  try (have h_s1 : Sat P v_s1 := by repeat' first | with_reducible assumption | exact Closed.mono cl (by decide) | (with_reducible intro _) | with_reducible apply onlyIte | with_reducible refine onlyFoldl ?_ ?_ | with_reducible apply State.applyPorts_only | (fail_if_no_progress with_reducible apply upd_instrs_ring (Closed.mono cl (by decide))) | (fail_if_no_progress with_reducible apply upd_edge (Closed.mono cl (by decide))) | dsimp only | split)
  try (have h_s2 : Sat P v_s2 := by repeat' first | with_reducible assumption | exact Closed.mono cl (by decide) | (with_reducible intro _) | with_reducible apply onlyIte | with_reducible refine onlyFoldl ?_ ?_ | with_reducible apply State.applyPorts_only | (fail_if_no_progress with_reducible apply upd_instrs_ring (Closed.mono cl (by decide))) | (fail_if_no_progress with_reducible apply upd_edge (Closed.mono cl (by decide))) | dsimp only | split)
  repeat' first | with_reducible assumption | exact Closed.mono cl (by decide) | (with_reducible intro _) | with_reducible apply onlyIte | with_reducible refine onlyFoldl ?_ ?_ | with_reducible apply State.applyPorts_only | (fail_if_no_progress with_reducible apply upd_instrs_ring (Closed.mono cl (by decide))) | (fail_if_no_progress with_reducible apply upd_edge (Closed.mono cl (by decide))) | dsimp only | split

theorem State.startRelease_only {P : State → Prop} (cl : Closed P 0x200800000) {s : State} (h : Sat P s)  : Sat P (State.startRelease s) := by
  unfold State.startRelease
  extract_lets +onlyGivenNames v_s1
  try (have h_s1 : Sat P v_s1 := by repeat' first | with_reducible assumption | exact Closed.mono cl (by decide) | (with_reducible intro _) | with_reducible apply onlyIte | with_reducible apply State.fset_only | with_reducible apply State.closeStations_only | (fail_if_no_progress with_reducible apply upd_recon (Closed.mono cl (by decide))) | dsimp only | split)
  repeat' first | with_reducible assumption | exact Closed.mono cl (by decide) | (with_reducible intro _) | with_reducible apply onlyIte | with_reducible apply State.fset_only | with_reducible apply State.closeStations_only | (fail_if_no_progress with_reducible apply upd_recon (Closed.mono cl (by decide))) | dsimp only | split

theorem State.sectionDone_only {P : State → Prop} (cl : Closed P 0x1B00C18258) {s : State} (h : Sat P s)  : Sat P (State.sectionDone s) := by
  unfold State.sectionDone
  extract_lets +onlyGivenNames v_t v_h v_i v_s1 v_more v_s2
  try (have h_t : Sat P v_t := by repeat' first | with_reducible assumption | exact Closed.mono cl (by decide) | (with_reducible intro _) | with_reducible apply onlyIte | with_reducible apply State.applyPart_only | with_reducible apply State.applyHeld_only | with_reducible apply State.startRelease_only | with_reducible apply State.afterPre_only | with_reducible apply State.fset_only | with_reducible apply State.startForward_only | (fail_if_no_progress with_reducible apply upd_load (Closed.mono cl (by decide))) | dsimp only | split)
  try (have h_s1 : Sat P v_s1 := by repeat' first | with_reducible assumption | exact Closed.mono cl (by decide) | (with_reducible intro _) | with_reducible apply onlyIte | with_reducible apply State.applyPart_only | with_reducible apply State.applyHeld_only | with_reducible apply State.startRelease_only | with_reducible apply State.afterPre_only | with_reducible apply State.fset_only | with_reducible apply State.startForward_only | (fail_if_no_progress with_reducible apply upd_load (Closed.mono cl (by decide))) | dsimp only | split)
  try (have h_s2 : Sat P v_s2 := by repeat' first | with_reducible assumption | exact Closed.mono cl (by decide) | (with_reducible intro _) | with_reducible apply onlyIte | with_reducible apply State.applyPart_only | with_reducible apply State.applyHeld_only | with_reducible apply State.startRelease_only | with_reducible apply State.afterPre_only | with_reducible apply State.fset_only | with_reducible apply State.startForward_only | (fail_if_no_progress with_reducible apply upd_load (Closed.mono cl (by decide))) | dsimp only | split)
  repeat' first | with_reducible assumption | exact Closed.mono cl (by decide) | (with_reducible intro _) | with_reducible apply onlyIte | with_reducible apply State.applyPart_only | with_reducible apply State.applyHeld_only | with_reducible apply State.startRelease_only | with_reducible apply State.afterPre_only | with_reducible apply State.fset_only | with_reducible apply State.startForward_only | (fail_if_no_progress with_reducible apply upd_load (Closed.mono cl (by decide))) | dsimp only | split

theorem State.sectionEnd_only {P : State → Prop} (cl : Closed P 0x1B00C18258) {s : State} (h : Sat P s) (stored : Bytes) : Sat P (State.sectionEnd s stored) := by
  unfold State.sectionEnd
  repeat' first | with_reducible assumption | exact Closed.mono cl (by decide) | (with_reducible intro _) | with_reducible apply onlyIte | with_reducible apply State.refuseHere_only | with_reducible apply State.sectionDone_only | with_reducible apply State.refuseLoad_only | (fail_if_no_progress with_reducible apply upd_load (Closed.mono cl (by decide))) | dsimp only | split

theorem State.refuseNow_only {P : State → Prop} (cl : Closed P 0x200400000) {s : State} (h : Sat P s) (code : Nat) : Sat P (State.refuseNow s code) := by
  unfold State.refuseNow
  repeat' first | with_reducible assumption | exact Closed.mono cl (by decide) | (with_reducible intro _) | with_reducible apply onlyIte | with_reducible apply State.refuseLoad_only | with_reducible apply State.refuseEarly_only | dsimp only | split

theorem State.nvmFails_only {P : State → Prop} (cl : Closed P 0x200400000) {s : State} (h : Sat P s)  : Sat P (State.nvmFails s) := by
  unfold State.nvmFails
  repeat' first | with_reducible assumption | exact Closed.mono cl (by decide) | (with_reducible intro _) | with_reducible apply onlyIte | with_reducible apply State.refuseNow_only | with_reducible apply State.refuseEarly_only | (fail_if_no_progress with_reducible apply upd_load (Closed.mono cl (by decide))) | dsimp only | split

theorem State.chainFails_only {P : State → Prop} (cl : Closed P 0x200400000) {s : State} (h : Sat P s)  : Sat P (State.chainFails s) := by
  unfold State.chainFails
  repeat' first | with_reducible assumption | exact Closed.mono cl (by decide) | (with_reducible intro _) | with_reducible apply onlyIte | with_reducible apply State.refuseNow_only | with_reducible apply State.fset_only | with_reducible apply State.refuseEarly_only | (fail_if_no_progress with_reducible apply upd_load (Closed.mono cl (by decide))) | dsimp only | split

theorem State.forwardFails_only {P : State → Prop} (cl : Closed P 0x200400000) {s : State} (h : Sat P s)  : Sat P (State.forwardFails s) := by
  unfold State.forwardFails
  repeat' first | with_reducible assumption | exact Closed.mono cl (by decide) | (with_reducible intro _) | with_reducible apply onlyIte | with_reducible apply State.endForward_only | with_reducible apply State.fset_only | dsimp only | split

theorem State.chainReady_only {P : State → Prop} (cl : Closed P 0x300400000) {s : State} (h : Sat P s) (level : Bool) : Sat P (State.chainReady s level) := by
  unfold State.chainReady
  extract_lets +onlyGivenNames v_s1
  try (have h_s1 : Sat P v_s1 := by repeat' first | with_reducible assumption | exact Closed.mono cl (by decide) | (with_reducible intro _) | with_reducible apply onlyIte | with_reducible apply State.drawn_only | with_reducible apply State.endForward_only | with_reducible apply State.fset_only | with_reducible apply State.setBit_only | (fail_if_no_progress with_reducible apply upd_load (Closed.mono cl (by decide))) | dsimp only | split)
  repeat' first | with_reducible assumption | exact Closed.mono cl (by decide) | (with_reducible intro _) | with_reducible apply onlyIte | with_reducible apply State.drawn_only | with_reducible apply State.endForward_only | with_reducible apply State.fset_only | with_reducible apply State.setBit_only | (fail_if_no_progress with_reducible apply upd_load (Closed.mono cl (by decide))) | dsimp only | split

theorem State.nvmGo_only {P : State → Prop} (cl : Closed P 0x201000000) {s : State} (h : Sat P s) (op : Nat) : Sat P (State.nvmGo s op) := by
  unfold State.nvmGo
  extract_lets +onlyGivenNames v_dev v_a v_len
  repeat' first | with_reducible assumption | exact Closed.mono cl (by decide) | (with_reducible intro _) | with_reducible apply onlyIte | with_reducible apply State.fset_only | (fail_if_no_progress with_reducible apply upd_nvm (Closed.mono cl (by decide))) | dsimp only | split

theorem State.fillBuf_only {P : State → Prop} (cl : Closed P 0x200000000) {s : State} (h : Sat P s) (k : Nat) (bs : Bytes) : Sat P (s.fillBuf k bs) := by
  induction bs generalizing s k with
  | nil => exact h
  | cons b bs ih => exact ih (State.fset_only (cl.mono rfl) h _ _) _

theorem State.nvmEnd_only {P : State → Prop} (cl : Closed P 0x201000000) {s : State} (h : Sat P s) (ok : Bool) (data : Bytes) : Sat P (s.nvmEnd ok data) := by
  unfold State.nvmEnd
  split
  · exact h
  · have h1 : Sat P (State.fset { s with nvm := none } F.CFG_NVM_STAT_BUSY 0) :=
      State.fset_only (cl.mono rfl) (upd_nvm (cl.mono rfl) h) _ _
    dsimp only
    split
    · exact State.fset_only (cl.mono rfl) h1 _ _
    · refine State.fset_only (cl.mono rfl) ?_ _ _
      split
      · exact State.fillBuf_only (cl.mono rfl) h1 _ _
      · exact h1

theorem execBootLoad_only {P : State → Prop} (cl : Closed P 0x208400000) {s : State} (h : Sat P s) (dir : Option Bytes) (hdr : CastHdr) : OnlyO P (execBootLoad dir hdr s) := by
  unfold execBootLoad
  repeat' first | with_reducible assumption | exact Closed.mono cl (by decide) | (with_reducible intro _) | with_reducible apply onlyIte | with_reducible apply onlyIteO | with_reducible apply onlyNext | with_reducible apply State.watch_only | with_reducible apply State.bootLoad_only | dsimp only | split

theorem execCfgLoad_only {P : State → Prop} (cl : Closed P 0xB2AD3D7EC) {s : State} (h : Sat P s) (entry : BitVec 6) : OnlyO P (execCfgLoad entry s) := by
  unfold execCfgLoad
  repeat' first | with_reducible assumption | exact Closed.mono cl (by decide) | (with_reducible intro _) | with_reducible apply onlyIte | with_reducible apply onlyIteO | with_reducible apply onlyNext | with_reducible apply State.hostCmd_only | with_reducible apply State.watch_only | with_reducible apply State.cfgLoad_only | dsimp only | split

theorem execNvmError_only {P : State → Prop} (cl : Closed P 0x200400000) {s : State} (h : Sat P s)  : OnlyO P (execNvmError s) := by
  unfold execNvmError
  repeat' first | with_reducible assumption | exact Closed.mono cl (by decide) | (with_reducible intro _) | with_reducible apply onlyIte | with_reducible apply onlyIteO | with_reducible apply onlyNext | with_reducible apply State.watch_only | with_reducible apply State.nvmFails_only | dsimp only | split

theorem execSectionEnd_only {P : State → Prop} (cl : Closed P 0x1B00C18258) {s : State} (h : Sat P s) (stored : Bytes) : OnlyO P (execSectionEnd stored s) := by
  unfold execSectionEnd
  repeat' first | with_reducible assumption | exact Closed.mono cl (by decide) | (with_reducible intro _) | with_reducible apply onlyIte | with_reducible apply onlyIteO | with_reducible apply onlyNext | with_reducible apply State.watch_only | with_reducible apply State.sectionEnd_only | dsimp only | split

theorem execDict_only {P : State → Prop} (cl : Closed P 0x600400000) {s : State} (h : Sat P s) (idx : BitVec 16) (frame : Bytes) : OnlyO P (execDict idx frame s) := by
  unfold execDict
  repeat' first | with_reducible assumption | exact Closed.mono cl (by decide) | (with_reducible intro _) | with_reducible apply onlyIte | with_reducible apply onlyIteO | with_reducible apply onlyNext | with_reducible apply State.watch_only | with_reducible apply State.takeDict_only | dsimp only | split

theorem execFrameWrite_only {P : State → Prop} (cl : Closed P 0x600400010) {s : State} (h : Sat P s) (faddr : W32) (frame : Bytes) : OnlyO P (execFrameWrite faddr frame s) := by
  unfold execFrameWrite
  repeat' first | with_reducible assumption | exact Closed.mono cl (by decide) | (with_reducible intro _) | with_reducible apply onlyIte | with_reducible apply onlyIteO | with_reducible apply onlyNext | with_reducible apply State.watch_only | with_reducible apply State.recordRead_only | with_reducible apply State.writeFrame_only | dsimp only | split

theorem execRepl_only {P : State → Prop} (cl : Closed P 0x600400010) {s : State} (h : Sat P s) (idx : BitVec 16) (faddr count stride : W32) : OnlyO P (execRepl idx faddr count stride s) := by
  unfold execRepl
  repeat' first | with_reducible assumption | exact Closed.mono cl (by decide) | (with_reducible intro _) | with_reducible apply onlyIte | with_reducible apply onlyIteO | with_reducible apply onlyNext | with_reducible apply State.watch_only | with_reducible apply State.takeRepl_only | dsimp only | split

theorem execZeroFrames_only {P : State → Prop} (cl : Closed P 0x600400010) {s : State} (h : Sat P s) (faddr count : W32) : OnlyO P (execZeroFrames faddr count s) := by
  unfold execZeroFrames
  repeat' first | with_reducible assumption | exact Closed.mono cl (by decide) | (with_reducible intro _) | with_reducible apply onlyIte | with_reducible apply onlyIteO | with_reducible apply onlyNext | with_reducible apply State.watch_only | with_reducible apply State.recordRead_only | with_reducible apply State.writeFrames_only | dsimp only | split

theorem execRecs_only {P : State → Prop} (cl : Closed P 0x200400000) {s : State} (h : Sat P s) (data : Bytes) : OnlyO P (execRecs data s) := by
  unfold execRecs
  repeat' first | with_reducible assumption | exact Closed.mono cl (by decide) | (with_reducible intro _) | with_reducible apply onlyIte | with_reducible apply onlyIteO | with_reducible apply onlyNext | with_reducible apply State.watch_only | with_reducible apply State.takeRecs_only | dsimp only | split

theorem execChainIn_only {P : State → Prop} (cl : Closed P 0x208400000) {s : State} (h : Sat P s) (hdr : CastHdr) : OnlyO P (execChainIn hdr s) := by
  unfold execChainIn
  repeat' first | with_reducible assumption | exact Closed.mono cl (by decide) | (with_reducible intro _) | with_reducible apply onlyIte | with_reducible apply onlyIteO | with_reducible apply onlyNext | with_reducible apply State.watch_only | with_reducible apply State.chainIn_only | dsimp only | split

theorem execChainFail_only {P : State → Prop} (cl : Closed P 0x200400000) {s : State} (h : Sat P s)  : OnlyO P (execChainFail s) := by
  unfold execChainFail
  repeat' first | with_reducible assumption | exact Closed.mono cl (by decide) | (with_reducible intro _) | with_reducible apply onlyIte | with_reducible apply onlyIteO | with_reducible apply onlyNext | with_reducible apply State.watch_only | with_reducible apply State.chainFails_only | dsimp only | split

theorem execFwdFail_only {P : State → Prop} (cl : Closed P 0x200400000) {s : State} (h : Sat P s)  : OnlyO P (execFwdFail s) := by
  unfold execFwdFail
  repeat' first | with_reducible assumption | exact Closed.mono cl (by decide) | (with_reducible intro _) | with_reducible apply onlyIte | with_reducible apply onlyIteO | with_reducible apply onlyNext | with_reducible apply State.forwardFails_only | dsimp only | split

theorem execChainRdyN_only {P : State → Prop} (cl : Closed P 0x300400000) {s : State} (h : Sat P s) (level : Bool) : OnlyO P (execChainRdyN level s) := by
  unfold execChainRdyN
  repeat' first | with_reducible assumption | exact Closed.mono cl (by decide) | (with_reducible intro _) | with_reducible apply onlyIte | with_reducible apply onlyIteO | with_reducible apply onlyNext | with_reducible apply State.chainReady_only | dsimp only | split

theorem execNvmRead_only {P : State → Prop} (cl : Closed P 0x303101040) {s : State} (h : Sat P s)  : OnlyO P (execNvmRead s) := by
  unfold execNvmRead
  repeat' first | with_reducible assumption | exact Closed.mono cl (by decide) | (with_reducible intro _) | with_reducible apply onlyIte | with_reducible apply onlyIteO | with_reducible apply onlyNext | with_reducible apply State.hostCmd_only | with_reducible apply State.nvmGo_only | dsimp only | split

theorem execNvmWrite_only {P : State → Prop} (cl : Closed P 0x303101040) {s : State} (h : Sat P s)  : OnlyO P (execNvmWrite s) := by
  unfold execNvmWrite
  repeat' first | with_reducible assumption | exact Closed.mono cl (by decide) | (with_reducible intro _) | with_reducible apply onlyIte | with_reducible apply onlyIteO | with_reducible apply onlyNext | with_reducible apply State.hostCmd_only | with_reducible apply State.nvmGo_only | dsimp only | split

theorem execNvmErase_only {P : State → Prop} (cl : Closed P 0x303101040) {s : State} (h : Sat P s)  : OnlyO P (execNvmErase s) := by
  unfold execNvmErase
  repeat' first | with_reducible assumption | exact Closed.mono cl (by decide) | (with_reducible intro _) | with_reducible apply onlyIte | with_reducible apply onlyIteO | with_reducible apply onlyNext | with_reducible apply State.hostCmd_only | with_reducible apply State.nvmGo_only | dsimp only | split

theorem execNvmDone_only {P : State → Prop} (cl : Closed P 0x201000000) {s : State} (h : Sat P s) (ok : Bool) (data : Bytes) : OnlyO P (execNvmDone ok data s) := by
  unfold execNvmDone
  repeat' first | with_reducible assumption | exact Closed.mono cl (by decide) | (with_reducible intro _) | with_reducible apply onlyIte | with_reducible apply onlyIteO | with_reducible apply onlyNext | with_reducible apply State.watch_only | with_reducible apply State.nvmEnd_only | dsimp only | split

theorem State.partGo_only {P : State → Prop} (cl : Closed P 0x200800000) {s : State} (h : Sat P s)  : Sat P (State.partGo s) := by
  unfold State.partGo
  extract_lets +onlyGivenNames v_st
  repeat' first | with_reducible assumption | exact Closed.mono cl (by decide) | (with_reducible intro _) | with_reducible apply onlyIte | with_reducible apply State.fset_only | (fail_if_no_progress with_reducible apply upd_recon (Closed.mono cl (by decide))) | dsimp only | split

theorem State.partHold_only {P : State → Prop} (cl : Closed P 0x200800000) {s : State} (h : Sat P s)  : Sat P (State.partHold s) := by
  unfold State.partHold
  extract_lets +onlyGivenNames v_cords v_rows
  repeat' first | with_reducible assumption | exact Closed.mono cl (by decide) | (with_reducible intro _) | with_reducible apply onlyIte | with_reducible apply State.fset_only | (fail_if_no_progress with_reducible apply upd_recon (Closed.mono cl (by decide))) | dsimp only | split

theorem State.startLoading_only {P : State → Prop} (cl : Closed P 0x200008050) {s : State} (h : Sat P s)  : Sat P (State.startLoading s) := by
  unfold State.startLoading
  extract_lets +onlyGivenNames v_s1
  try (have h_s1 : Sat P v_s1 := by repeat' first | with_reducible assumption | exact Closed.mono cl (by decide) | (with_reducible intro _) | with_reducible apply onlyIte | with_reducible apply State.fset_only | with_reducible apply State.applyPart_only | dsimp only | split)
  repeat' first | with_reducible assumption | exact Closed.mono cl (by decide) | (with_reducible intro _) | with_reducible apply onlyIte | with_reducible apply State.fset_only | with_reducible apply State.applyPart_only | dsimp only | split

theorem State.verified_only {P : State → Prop} (cl : Closed P 0x208C08050) {s : State} (h : Sat P s) (h : CastHdr) : Sat P (State.verified s h) := by
  unfold State.verified
  extract_lets +onlyGivenNames v_s1
  try (have h_s1 : Sat P v_s1 := by repeat' first | with_reducible assumption | exact Closed.mono cl (by decide) | (with_reducible intro _) | with_reducible apply onlyIte | with_reducible apply State.holdKey_only | with_reducible apply State.startLoading_only | with_reducible apply State.fset_only | (fail_if_no_progress with_reducible apply upd_load (Closed.mono cl (by decide))) | (fail_if_no_progress with_reducible apply upd_recon (Closed.mono cl (by decide))) | dsimp only | split)
  repeat' first | with_reducible assumption | exact Closed.mono cl (by decide) | (with_reducible intro _) | with_reducible apply onlyIte | with_reducible apply State.holdKey_only | with_reducible apply State.startLoading_only | with_reducible apply State.fset_only | (fail_if_no_progress with_reducible apply upd_load (Closed.mono cl (by decide))) | (fail_if_no_progress with_reducible apply upd_recon (Closed.mono cl (by decide))) | dsimp only | split

theorem State.partVerify_only {P : State → Prop} (cl : Closed P 0x208C08050) {s : State} (h : Sat P s) (h : CastHdr) : Sat P (State.partVerify s h) := by
  unfold State.partVerify
  repeat' first | with_reducible assumption | exact Closed.mono cl (by decide) | (with_reducible intro _) | with_reducible apply onlyIte | with_reducible apply State.refuseEarly_only | with_reducible apply State.verified_only | (fail_if_no_progress with_reducible apply upd_load (Closed.mono cl (by decide))) | dsimp only | split

theorem State.isolateRegion_only {P : State → Prop} (cl : Closed P 0x200828054) {s : State} (h : Sat P s)  : Sat P (State.isolateRegion s) := by
  unfold State.isolateRegion
  repeat' first | with_reducible assumption | exact Closed.mono cl (by decide) | (with_reducible intro _) | with_reducible apply onlyIte | with_reducible refine onlyEach ?_ ?_ | with_reducible apply State.fset_only | with_reducible apply State.setBit_only | with_reducible apply State.startLoading_only | with_reducible apply State.mirror_only | (fail_if_no_progress with_reducible apply upd_core_edge_recon_splice (Closed.mono cl (by decide))) | (fail_if_no_progress with_reducible apply upd_recon (Closed.mono cl (by decide))) | dsimp only | split

theorem State.releaseCords_only {P : State → Prop} (cl : Closed P 0x2040000EC) {s : State} (h : Sat P s)  : Sat P (State.releaseCords s) := by
  unfold State.releaseCords
  extract_lets +onlyGivenNames v_l v_gone v_d v_mask v_s1
  try (have h_s1 : Sat P v_s1 := by repeat' first | with_reducible assumption | exact Closed.mono cl (by decide) | (with_reducible intro _) | with_reducible apply onlyIte | with_reducible refine onlyEach ?_ ?_ | with_reducible refine onlyFoldl ?_ ?_ | with_reducible apply State.dropPorts_only | with_reducible apply State.initStores_only | with_reducible apply State.fset_only | (fail_if_no_progress with_reducible apply upd_core_image_strands (Closed.mono cl (by decide))) | dsimp only | split)
  repeat' first | with_reducible assumption | exact Closed.mono cl (by decide) | (with_reducible intro _) | with_reducible apply onlyIte | with_reducible refine onlyEach ?_ ?_ | with_reducible refine onlyFoldl ?_ ?_ | with_reducible apply State.dropPorts_only | with_reducible apply State.initStores_only | with_reducible apply State.fset_only | (fail_if_no_progress with_reducible apply upd_core_image_strands (Closed.mono cl (by decide))) | dsimp only | split

theorem State.releaseEdge_only {P : State → Prop} (cl : Closed P 0x200008800) {s : State} (h : Sat P s)  : Sat P (State.releaseEdge s) := by
  unfold State.releaseEdge
  extract_lets +onlyGivenNames v_rows v_rowIn v_new v_s1 v_mems v_s2 v_s3
  try (have h_s1 : Sat P v_s1 := by repeat' first | with_reducible assumption | exact Closed.mono cl (by decide) | (with_reducible intro _) | with_reducible apply onlyIte | with_reducible refine onlyEach ?_ ?_ | with_reducible apply State.setEdgeSt_only | with_reducible apply State.setMemSt_only | with_reducible apply State.fset_only | with_reducible apply State.contention_only | (fail_if_no_progress with_reducible apply upd_edge (Closed.mono cl (by decide))) | dsimp only | split)
  try (have h_s2 : Sat P v_s2 := by repeat' first | with_reducible assumption | exact Closed.mono cl (by decide) | (with_reducible intro _) | with_reducible apply onlyIte | with_reducible refine onlyEach ?_ ?_ | with_reducible apply State.setEdgeSt_only | with_reducible apply State.setMemSt_only | with_reducible apply State.fset_only | with_reducible apply State.contention_only | (fail_if_no_progress with_reducible apply upd_edge (Closed.mono cl (by decide))) | dsimp only | split)
  try (have h_s3 : Sat P v_s3 := by repeat' first | with_reducible assumption | exact Closed.mono cl (by decide) | (with_reducible intro _) | with_reducible apply onlyIte | with_reducible refine onlyEach ?_ ?_ | with_reducible apply State.setEdgeSt_only | with_reducible apply State.setMemSt_only | with_reducible apply State.fset_only | with_reducible apply State.contention_only | (fail_if_no_progress with_reducible apply upd_edge (Closed.mono cl (by decide))) | dsimp only | split)
  repeat' first | with_reducible assumption | exact Closed.mono cl (by decide) | (with_reducible intro _) | with_reducible apply onlyIte | with_reducible refine onlyEach ?_ ?_ | with_reducible apply State.setEdgeSt_only | with_reducible apply State.setMemSt_only | with_reducible apply State.fset_only | with_reducible apply State.contention_only | (fail_if_no_progress with_reducible apply upd_edge (Closed.mono cl (by decide))) | dsimp only | split

theorem State.releaseMeasures_only {P : State → Prop} (cl : Closed P 0x8000000) {s : State} (h : Sat P s)  : Sat P (State.releaseMeasures s) := by
  unfold State.releaseMeasures
  extract_lets +onlyGivenNames v_h v_i v_m
  repeat' first | with_reducible assumption | exact Closed.mono cl (by decide) | (with_reducible intro _) | with_reducible apply onlyIte | (fail_if_no_progress with_reducible apply upd_sec (Closed.mono cl (by decide))) | dsimp only | split

theorem State.releaseRegion_only {P : State → Prop} (cl : Closed P 0x20CC288EC) {s : State} (h : Sat P s)  : Sat P (State.releaseRegion s) := by
  unfold State.releaseRegion
  repeat' first | with_reducible assumption | exact Closed.mono cl (by decide) | (with_reducible intro _) | with_reducible apply onlyIte | with_reducible apply State.releaseCords_only | with_reducible apply State.releaseEdge_only | with_reducible apply State.releaseMeasures_only | with_reducible apply State.setBorder_only | with_reducible apply State.mirror_only | with_reducible apply State.fset_only | with_reducible apply State.partGo_only | (fail_if_no_progress with_reducible apply upd_load_recon_splice (Closed.mono cl (by decide))) | dsimp only | split

theorem execPartGo_only {P : State → Prop} (cl : Closed P 0x302901040) {s : State} (h : Sat P s)  : OnlyO P (execPartGo s) := by
  unfold execPartGo
  repeat' first | with_reducible assumption | exact Closed.mono cl (by decide) | (with_reducible intro _) | with_reducible apply onlyIte | with_reducible apply onlyIteO | with_reducible apply onlyNext | with_reducible apply State.hostCmd_only | with_reducible apply State.watch_only | with_reducible apply State.partGo_only | dsimp only | split

theorem execPartHold_only {P : State → Prop} (cl : Closed P 0x302901040) {s : State} (h : Sat P s)  : OnlyO P (execPartHold s) := by
  unfold execPartHold
  repeat' first | with_reducible assumption | exact Closed.mono cl (by decide) | (with_reducible intro _) | with_reducible apply onlyIte | with_reducible apply onlyIteO | with_reducible apply onlyNext | with_reducible apply State.hostCmd_only | with_reducible apply State.partHold_only | dsimp only | split

theorem execPartVerifyDone_only {P : State → Prop} (cl : Closed P 0x208C08050) {s : State} (h : Sat P s) (hdr : CastHdr) : OnlyO P (execPartVerifyDone hdr s) := by
  unfold execPartVerifyDone
  repeat' first | with_reducible assumption | exact Closed.mono cl (by decide) | (with_reducible intro _) | with_reducible apply onlyIte | with_reducible apply onlyIteO | with_reducible apply onlyNext | with_reducible apply State.watch_only | with_reducible apply State.partVerify_only | dsimp only | split

theorem execRegionIsolate_only {P : State → Prop} (cl : Closed P 0x200828054) {s : State} (h : Sat P s)  : OnlyO P (execRegionIsolate s) := by
  unfold execRegionIsolate
  repeat' first | with_reducible assumption | exact Closed.mono cl (by decide) | (with_reducible intro _) | with_reducible apply onlyIte | with_reducible apply onlyIteO | with_reducible apply onlyNext | with_reducible apply State.watch_only | with_reducible apply State.isolateRegion_only | dsimp only | split

theorem execRegionRelease_only {P : State → Prop} (cl : Closed P 0x20CC288EC) {s : State} (h : Sat P s)  : OnlyO P (execRegionRelease s) := by
  unfold execRegionRelease
  repeat' first | with_reducible assumption | exact Closed.mono cl (by decide) | (with_reducible intro _) | with_reducible apply onlyIte | with_reducible apply onlyIteO | with_reducible apply onlyNext | with_reducible apply State.watch_only | with_reducible apply State.releaseRegion_only | dsimp only | split

theorem State.storeLine_only {P : State → Prop} (cl : Closed P 0x600000840) {s : State} (h : Sat P s) (a : Nat) (bs : Bytes) : Sat P (State.storeLine s a bs) := by
  unfold State.storeLine
  repeat' first | with_reducible assumption | exact Closed.mono cl (by decide) | (with_reducible intro _) | with_reducible apply onlyIte | with_reducible apply State.wrBytes_only | with_reducible apply State.memRefused_only | with_reducible apply State.fset_only | (fail_if_no_progress with_reducible apply upd_ring (Closed.mono cl (by decide))) | dsimp only | split

theorem State.bufEnd_only {P : State → Prop} (cl : Closed P 0x200001000) {s : State} (h : Sat P s)  : Sat P (State.bufEnd s) := by
  unfold State.bufEnd
  repeat' first | with_reducible assumption | exact Closed.mono cl (by decide) | (with_reducible intro _) | with_reducible apply onlyIte | with_reducible apply State.fset_only | (fail_if_no_progress with_reducible apply upd_trace (Closed.mono cl (by decide))) | dsimp only | split

theorem State.writeLines_only {P : State → Prop} (cl : Closed P 0x600001840) {s : State} (h : Sat P s) (n : Nat) : Sat P (s.writeLines n) := by
  induction n generalizing s with
  | zero => exact h
  | succ n ih =>
    unfold State.writeLines
    split
    · exact h
    · exact ih (State.bufEnd_only (cl.mono rfl)
        (State.fset_only (cl.mono rfl) (upd_trace (cl.mono rfl) (State.storeLine_only (cl.mono rfl) h _ _)) _ _))

theorem State.streamBytes_only {P : State → Prop} (cl : Closed P 0x600001840) {s : State} (h : Sat P s) (bs : Bytes) : Sat P (s.streamBytes bs) :=
  State.writeLines_only (cl.mono rfl) (upd_trace (cl.mono rfl) h) _

theorem State.portTake_only {P : State → Prop} (cl : Closed P 0x1000) {s : State} (h : Sat P s) (bs : Bytes) : Sat P (State.portTake s bs) := by
  unfold State.portTake
  extract_lets +onlyGivenNames v_at_
  repeat' first | with_reducible assumption | exact Closed.mono cl (by decide) | (with_reducible intro _) | with_reducible apply onlyIte | (fail_if_no_progress with_reducible apply upd_trace (Closed.mono cl (by decide))) | dsimp only | split

theorem State.portCopy_only {P : State → Prop} (cl : Closed P 0x300001000) {s : State} (h : Sat P s) (bs : Bytes) : Sat P (State.portCopy s bs) := by
  unfold State.portCopy
  repeat' first | with_reducible assumption | exact Closed.mono cl (by decide) | (with_reducible intro _) | with_reducible apply onlyIte | with_reducible apply State.portTake_only | with_reducible apply State.drawn_only | with_reducible apply State.count_only | dsimp only | split

theorem State.padTo_only {P : State → Prop} (cl : Closed P 0x600001840) {s : State} (h : Sat P s) (n : Nat) : Sat P (State.padTo s n) := by
  unfold State.padTo
  extract_lets +onlyGivenNames v_pos
  repeat' first | with_reducible assumption | exact Closed.mono cl (by decide) | (with_reducible intro _) | with_reducible apply onlyIte | with_reducible apply State.streamBytes_only | dsimp only | split

theorem State.writeSync_only {P : State → Prop} (cl : Closed P 0x700001840) {s : State} (h : Sat P s)  : Sat P (State.writeSync s) := by
  unfold State.writeSync
  extract_lets +onlyGivenNames v_bs v_s1
  try (have h_s1 : Sat P v_s1 := by repeat' first | with_reducible assumption | exact Closed.mono cl (by decide) | (with_reducible intro _) | with_reducible apply onlyIte | with_reducible apply State.streamBytes_only | with_reducible apply State.portCopy_only | with_reducible apply State.count_only | (fail_if_no_progress with_reducible apply upd_trace (Closed.mono cl (by decide))) | dsimp only | split)
  repeat' first | with_reducible assumption | exact Closed.mono cl (by decide) | (with_reducible intro _) | with_reducible apply onlyIte | with_reducible apply State.streamBytes_only | with_reducible apply State.portCopy_only | with_reducible apply State.count_only | (fail_if_no_progress with_reducible apply upd_trace (Closed.mono cl (by decide))) | dsimp only | split

theorem State.writePacket_only {P : State → Prop} (cl : Closed P 0x700001840) {s : State} (h : Sat P s) (n t recs : Nat) (f : Nat → Bytes) : Sat P (State.writePacket s n t recs f) := by
  unfold State.writePacket
  extract_lets +onlyGivenNames v_pos v_need v_s1
  try (have h_s1 : Sat P v_s1 := by repeat' first | with_reducible assumption | exact Closed.mono cl (by decide) | (with_reducible intro _) | with_reducible apply onlyIte | with_reducible apply State.padTo_only | with_reducible apply State.count_only | with_reducible apply State.writeSync_only | with_reducible apply State.streamBytes_only | with_reducible apply State.portCopy_only | (fail_if_no_progress with_reducible apply upd_trace (Closed.mono cl (by decide))) | dsimp only | split)
  repeat' first | with_reducible assumption | exact Closed.mono cl (by decide) | (with_reducible intro _) | with_reducible apply onlyIte | with_reducible apply State.padTo_only | with_reducible apply State.count_only | with_reducible apply State.writeSync_only | with_reducible apply State.streamBytes_only | with_reducible apply State.portCopy_only | (fail_if_no_progress with_reducible apply upd_trace (Closed.mono cl (by decide))) | dsimp only | split

theorem State.writeOverflow_only {P : State → Prop} (cl : Closed P 0x700001840) {s : State} (h : Sat P s)  : Sat P (State.writeOverflow s) := by
  unfold State.writeOverflow
  repeat' first | with_reducible assumption | exact Closed.mono cl (by decide) | (with_reducible intro _) | with_reducible apply onlyIte | with_reducible apply State.writePacket_only | (fail_if_no_progress with_reducible apply upd_trace (Closed.mono cl (by decide))) | dsimp only | split

theorem State.handleRec_only {P : State → Prop} (cl : Closed P 0x700001840) {s : State} (h : Sat P s) (q : QueuedRec) : Sat P (State.handleRec s q) := by
  unfold State.handleRec
  extract_lets +onlyGivenNames v_r v_s1 v_data v_s2
  try (have h_s1 : Sat P v_s1 := by repeat' first | with_reducible assumption | exact Closed.mono cl (by decide) | (with_reducible intro _) | with_reducible apply onlyIte | with_reducible apply State.fset_only | with_reducible apply State.writePacket_only | dsimp only | split)
  try (have h_s2 : Sat P v_s2 := by repeat' first | with_reducible assumption | exact Closed.mono cl (by decide) | (with_reducible intro _) | with_reducible apply onlyIte | with_reducible apply State.fset_only | with_reducible apply State.writePacket_only | dsimp only | split)
  repeat' first | with_reducible assumption | exact Closed.mono cl (by decide) | (with_reducible intro _) | with_reducible apply onlyIte | with_reducible apply State.fset_only | with_reducible apply State.writePacket_only | dsimp only | split

theorem State.traceNext_only {P : State → Prop} (cl : Closed P 0x700001840) {s : State} (h : Sat P s)  : Sat P (State.traceNext s) := by
  unfold State.traceNext
  extract_lets +onlyGivenNames v_s0
  try (have h_s0 : Sat P v_s0 := by repeat' first | with_reducible assumption | exact Closed.mono cl (by decide) | (with_reducible intro _) | with_reducible apply onlyIte | with_reducible apply State.writeOverflow_only | with_reducible apply State.handleRec_only | (fail_if_no_progress with_reducible apply upd_trace (Closed.mono cl (by decide))) | dsimp only | split)
  repeat' first | with_reducible assumption | exact Closed.mono cl (by decide) | (with_reducible intro _) | with_reducible apply onlyIte | with_reducible apply State.writeOverflow_only | with_reducible apply State.handleRec_only | (fail_if_no_progress with_reducible apply upd_trace (Closed.mono cl (by decide))) | dsimp only | split

theorem State.traceDrain_only {P : State → Prop} (cl : Closed P 0x700001840) {s : State} (h : Sat P s)  : Sat P (State.traceDrain s) := by
  unfold State.traceDrain
  repeat' first | with_reducible assumption | exact Closed.mono cl (by decide) | (with_reducible intro _) | with_reducible apply onlyIte | with_reducible refine onlyEach ?_ ?_ | with_reducible apply State.traceNext_only | with_reducible apply State.writeOverflow_only | dsimp only | split

theorem State.traceFlush_only {P : State → Prop} (cl : Closed P 0x600001840) {s : State} (h : Sat P s)  : Sat P (State.traceFlush s) := by
  unfold State.traceFlush
  repeat' first | with_reducible assumption | exact Closed.mono cl (by decide) | (with_reducible intro _) | with_reducible apply onlyIte | with_reducible apply State.padTo_only | dsimp only | split

theorem State.traceStart_only {P : State → Prop} (cl : Closed P 0x200001000) {s : State} (h : Sat P s)  : Sat P (State.traceStart s) := by
  unfold State.traceStart
  repeat' first | with_reducible assumption | exact Closed.mono cl (by decide) | (with_reducible intro _) | with_reducible apply onlyIte | with_reducible apply State.fset_only | with_reducible apply State.setBit_only | (fail_if_no_progress with_reducible apply upd_trace (Closed.mono cl (by decide))) | dsimp only | split

theorem State.traceEnable_only {P : State → Prop} (cl : Closed P 0x200001000) {s : State} (h : Sat P s)  : Sat P (State.traceEnable s) := by
  unfold State.traceEnable
  repeat' first | with_reducible assumption | exact Closed.mono cl (by decide) | (with_reducible intro _) | with_reducible apply onlyIte | with_reducible apply State.fset_only | with_reducible apply State.traceStart_only | dsimp only | split

theorem State.traceDisable_only {P : State → Prop} (cl : Closed P 0x700001840) {s : State} (h : Sat P s)  : Sat P (State.traceDisable s) := by
  unfold State.traceDisable
  extract_lets +onlyGivenNames v_s0
  try (have h_s0 : Sat P v_s0 := by repeat' first | with_reducible assumption | exact Closed.mono cl (by decide) | (with_reducible intro _) | with_reducible apply onlyIte | with_reducible apply State.fset_only | with_reducible apply State.traceDrain_only | with_reducible apply State.traceFlush_only | dsimp only | split)
  repeat' first | with_reducible assumption | exact Closed.mono cl (by decide) | (with_reducible intro _) | with_reducible apply onlyIte | with_reducible apply State.fset_only | with_reducible apply State.traceDrain_only | with_reducible apply State.traceFlush_only | dsimp only | split

theorem State.traceShut_only {P : State → Prop} (cl : Closed P 0x200001000) {s : State} (h : Sat P s)  : Sat P (State.traceShut s) := by
  unfold State.traceShut
  repeat' first | with_reducible assumption | exact Closed.mono cl (by decide) | (with_reducible intro _) | with_reducible apply onlyIte | with_reducible apply State.fset_only | with_reducible apply State.traceStart_only | dsimp only | split

theorem State.traceSleep_only {P : State → Prop} (cl : Closed P 0x700001840) {s : State} (h : Sat P s) (target : Nat) : Sat P (State.traceSleep s target) := by
  unfold State.traceSleep
  repeat' first | with_reducible assumption | exact Closed.mono cl (by decide) | (with_reducible intro _) | with_reducible apply onlyIte | with_reducible apply State.traceDrain_only | with_reducible apply State.writePacket_only | with_reducible apply State.traceFlush_only | (fail_if_no_progress with_reducible apply upd_trace (Closed.mono cl (by decide))) | dsimp only | split

theorem State.bufLost_only {P : State → Prop} (cl : Closed P 0x200001000) {s : State} (h : Sat P s)  : Sat P (State.bufLost s) := by
  unfold State.bufLost
  extract_lets +onlyGivenNames v_s1 v_s2
  try (have h_s1 : Sat P v_s1 := by repeat' first | with_reducible assumption | exact Closed.mono cl (by decide) | (with_reducible intro _) | with_reducible apply onlyIte | with_reducible apply State.fset_only | with_reducible apply State.setBit_only | (fail_if_no_progress with_reducible apply upd_trace (Closed.mono cl (by decide))) | dsimp only | split)
  try (have h_s2 : Sat P v_s2 := by repeat' first | with_reducible assumption | exact Closed.mono cl (by decide) | (with_reducible intro _) | with_reducible apply onlyIte | with_reducible apply State.fset_only | with_reducible apply State.setBit_only | (fail_if_no_progress with_reducible apply upd_trace (Closed.mono cl (by decide))) | dsimp only | split)
  repeat' first | with_reducible assumption | exact Closed.mono cl (by decide) | (with_reducible intro _) | with_reducible apply onlyIte | with_reducible apply State.fset_only | with_reducible apply State.setBit_only | (fail_if_no_progress with_reducible apply upd_trace (Closed.mono cl (by decide))) | dsimp only | split

theorem State.traceWake_only {P : State → Prop} (cl : Closed P 0x200001000) {s : State} (h : Sat P s) (deep : Bool) (us : Nat) : Sat P (State.traceWake s deep us) := by
  unfold State.traceWake
  extract_lets +onlyGivenNames v_s1
  try (have h_s1 : Sat P v_s1 := by repeat' first | with_reducible assumption | exact Closed.mono cl (by decide) | (with_reducible intro _) | with_reducible apply onlyIte | with_reducible apply State.bufLost_only | (fail_if_no_progress with_reducible apply upd_trace (Closed.mono cl (by decide))) | dsimp only | split)
  repeat' first | with_reducible assumption | exact Closed.mono cl (by decide) | (with_reducible intro _) | with_reducible apply onlyIte | with_reducible apply State.bufLost_only | (fail_if_no_progress with_reducible apply upd_trace (Closed.mono cl (by decide))) | dsimp only | split

theorem execTraceRecord_only {P : State → Prop} (cl : Closed P 0x200001000) {s : State} (h : Sat P s) (r : TraceRec) : OnlyO P (execTraceRecord r s) := by
  unfold execTraceRecord
  repeat' first | with_reducible assumption | exact Closed.mono cl (by decide) | (with_reducible intro _) | with_reducible apply onlyIte | with_reducible apply onlyIteO | with_reducible apply onlyNext | with_reducible apply State.watch_only | with_reducible apply State.traceOffer_only | dsimp only | split

theorem execTracePacketWrite_only {P : State → Prop} (cl : Closed P 0x700001840) {s : State} (h : Sat P s)  : OnlyO P (execTracePacketWrite s) := by
  unfold execTracePacketWrite
  repeat' first | with_reducible assumption | exact Closed.mono cl (by decide) | (with_reducible intro _) | with_reducible apply onlyIte | with_reducible apply onlyIteO | with_reducible apply onlyNext | with_reducible apply State.watch_only | with_reducible apply State.traceNext_only | dsimp only | split

theorem execTraceEnable_only {P : State → Prop} (cl : Closed P 0x302101040) {s : State} (h : Sat P s)  : OnlyO P (execTraceEnable s) := by
  unfold execTraceEnable
  repeat' first | with_reducible assumption | exact Closed.mono cl (by decide) | (with_reducible intro _) | with_reducible apply onlyIte | with_reducible apply onlyIteO | with_reducible apply onlyNext | with_reducible apply State.hostCmd_only | with_reducible apply State.watch_only | with_reducible apply State.traceEnable_only | dsimp only | split

theorem execTraceDisable_only {P : State → Prop} (cl : Closed P 0x702101840) {s : State} (h : Sat P s)  : OnlyO P (execTraceDisable s) := by
  unfold execTraceDisable
  repeat' first | with_reducible assumption | exact Closed.mono cl (by decide) | (with_reducible intro _) | with_reducible apply onlyIte | with_reducible apply onlyIteO | with_reducible apply onlyNext | with_reducible apply State.hostCmd_only | with_reducible apply State.watch_only | with_reducible apply State.traceDisable_only | dsimp only | split

theorem execTraceFlush_only {P : State → Prop} (cl : Closed P 0x702101840) {s : State} (h : Sat P s)  : OnlyO P (execTraceFlush s) := by
  unfold execTraceFlush
  repeat' first | with_reducible assumption | exact Closed.mono cl (by decide) | (with_reducible intro _) | with_reducible apply onlyIte | with_reducible apply onlyIteO | with_reducible apply onlyNext | with_reducible apply State.hostCmd_only | with_reducible apply State.watch_only | with_reducible apply State.traceFlush_only | dsimp only | split

theorem execTraceIdleFlush_only {P : State → Prop} (cl : Closed P 0x600001840) {s : State} (h : Sat P s)  : OnlyO P (execTraceIdleFlush s) := by
  unfold execTraceIdleFlush
  repeat' first | with_reducible assumption | exact Closed.mono cl (by decide) | (with_reducible intro _) | with_reducible apply onlyIte | with_reducible apply onlyIteO | with_reducible apply onlyNext | with_reducible apply State.watch_only | with_reducible apply State.traceFlush_only | dsimp only | split

theorem execTraceShutdownDone_only {P : State → Prop} (cl : Closed P 0x200001000) {s : State} (h : Sat P s)  : OnlyO P (execTraceShutdownDone s) := by
  unfold execTraceShutdownDone
  repeat' first | with_reducible assumption | exact Closed.mono cl (by decide) | (with_reducible intro _) | with_reducible apply onlyIte | with_reducible apply onlyIteO | with_reducible apply onlyNext | with_reducible apply State.watch_only | with_reducible apply State.traceShut_only | dsimp only | split

theorem State.pwrEnter_only {P : State → Prop} (cl : Closed P 0x202000000) {s : State} (h : Sat P s) (target : Nat) : Sat P (State.pwrEnter s target) := by
  unfold State.pwrEnter
  extract_lets +onlyGivenNames v_s1
  try (have h_s1 : Sat P v_s1 := by repeat' first | with_reducible assumption | exact Closed.mono cl (by decide) | (with_reducible intro _) | with_reducible apply onlyIte | with_reducible apply State.fset_only | (fail_if_no_progress with_reducible apply upd_power (Closed.mono cl (by decide))) | dsimp only | split)
  repeat' first | with_reducible assumption | exact Closed.mono cl (by decide) | (with_reducible intro _) | with_reducible apply onlyIte | with_reducible apply State.fset_only | (fail_if_no_progress with_reducible apply upd_power (Closed.mono cl (by decide))) | dsimp only | split

theorem State.pwrDecide_only {P : State → Prop} (cl : Closed P 0x202000000) {s : State} (h : Sat P s) (target : Nat) : Sat P (State.pwrDecide s target) := by
  unfold State.pwrDecide
  repeat' first | with_reducible assumption | exact Closed.mono cl (by decide) | (with_reducible intro _) | with_reducible apply onlyIte | with_reducible apply State.pwrExit_only | with_reducible apply State.fset_only | with_reducible apply State.pwrEnter_only | dsimp only | split

theorem State.pwrRequest_only {P : State → Prop} (cl : Closed P 0x202000000) {s : State} (h : Sat P s) (target : Nat) : Sat P (State.pwrRequest s target) := by
  unfold State.pwrRequest
  repeat' first | with_reducible assumption | exact Closed.mono cl (by decide) | (with_reducible intro _) | with_reducible apply onlyIte | with_reducible apply State.pwrDecide_only | (fail_if_no_progress with_reducible apply upd_power (Closed.mono cl (by decide))) | dsimp only | split

theorem State.flagYields_only {P : State → Prop} (cl : Closed P 0x202000000) {s : State} (h : Sat P s)  : Sat P (State.flagYields s) := by
  unfold State.flagYields
  repeat' first | with_reducible assumption | exact Closed.mono cl (by decide) | (with_reducible intro _) | with_reducible apply onlyIte | with_reducible apply State.fset_only | (fail_if_no_progress with_reducible apply upd_power (Closed.mono cl (by decide))) | dsimp only | split

theorem State.hostGo_only {P : State → Prop} (cl : Closed P 0x202000000) {s : State} (h : Sat P s) (target : Nat) : Sat P (State.hostGo s target) := by
  unfold State.hostGo
  extract_lets +onlyGivenNames v_s1
  try (have h_s1 : Sat P v_s1 := by repeat' first | with_reducible assumption | exact Closed.mono cl (by decide) | (with_reducible intro _) | with_reducible apply onlyIte | with_reducible apply State.flagYields_only | with_reducible apply State.pwrRequest_only | (fail_if_no_progress with_reducible apply upd_power (Closed.mono cl (by decide))) | dsimp only | split)
  repeat' first | with_reducible assumption | exact Closed.mono cl (by decide) | (with_reducible intro _) | with_reducible apply onlyIte | with_reducible apply State.flagYields_only | with_reducible apply State.pwrRequest_only | (fail_if_no_progress with_reducible apply upd_power (Closed.mono cl (by decide))) | dsimp only | split

theorem State.flagRequest_only {P : State → Prop} (cl : Closed P 0x202000000) {s : State} (h : Sat P s)  : Sat P (State.flagRequest s) := by
  unfold State.flagRequest
  repeat' first | with_reducible assumption | exact Closed.mono cl (by decide) | (with_reducible intro _) | with_reducible apply onlyIte | with_reducible apply State.fset_only | with_reducible apply State.pwrRequest_only | (fail_if_no_progress with_reducible apply upd_power (Closed.mono cl (by decide))) | dsimp only | split

theorem State.lanesListen_only {P : State → Prop} (cl : Closed P 0x200000100) {s : State} (h : Sat P s) (which : Nat → Bool) : Sat P (State.lanesListen s which) := by
  unfold State.lanesListen
  extract_lets +onlyGivenNames v_s1
  try (have h_s1 : Sat P v_s1 := by repeat' first | with_reducible assumption | exact Closed.mono cl (by decide) | (with_reducible intro _) | with_reducible apply onlyIte | with_reducible refine onlyEach ?_ ?_ | with_reducible apply State.laneStill_only | (fail_if_no_progress with_reducible apply upd_lanes (Closed.mono cl (by decide))) | dsimp only | split)
  repeat' first | with_reducible assumption | exact Closed.mono cl (by decide) | (with_reducible intro _) | with_reducible apply onlyIte | with_reducible refine onlyEach ?_ ?_ | with_reducible apply State.laneStill_only | (fail_if_no_progress with_reducible apply upd_lanes (Closed.mono cl (by decide))) | dsimp only | split

theorem State.loseMem_only {P : State → Prop} (cl : Closed P 0x1000000000) {s : State} (h : Sat P s) (gone : Nat → Bool) : Sat P (s.loseMem gone) := upd_mem (cl.mono rfl) h

theorem State.loseStrands_only {P : State → Prop} (cl : Closed P 0x200000078) {s : State} (h : Sat P s) (gone : Nat → Bool) : Sat P (State.loseStrands s gone) := by
  unfold State.loseStrands
  extract_lets +onlyGivenNames v_lost
  repeat' first | with_reducible assumption | exact Closed.mono cl (by decide) | (with_reducible intro _) | with_reducible apply onlyIte | with_reducible apply State.dropPorts_only | (fail_if_no_progress with_reducible apply upd_instrs_strands (Closed.mono cl (by decide))) | dsimp only | split

theorem State.loseEdge_only {P : State → Prop} (cl : Closed P 0x8000) {s : State} (h : Sat P s) (gone : Nat → Bool) : Sat P (State.loseEdge s gone) := by
  unfold State.loseEdge
  extract_lets +onlyGivenNames v_on v_e
  repeat' first | with_reducible assumption | exact Closed.mono cl (by decide) | (with_reducible intro _) | with_reducible apply onlyIte | (fail_if_no_progress with_reducible apply upd_edge (Closed.mono cl (by decide))) | dsimp only | split

theorem State.channelsOff_only {P : State → Prop} (cl : Closed P 0x200000600) {s : State} (h : Sat P s) (which : Nat → Bool) : Sat P (State.channelsOff s which) := by
  unfold State.channelsOff
  extract_lets +onlyGivenNames v_s1
  try (have h_s1 : Sat P v_s1 := by repeat' first | with_reducible assumption | exact Closed.mono cl (by decide) | (with_reducible intro _) | with_reducible apply onlyIte | with_reducible refine onlyEach ?_ ?_ | with_reducible apply State.fset_only | (fail_if_no_progress with_reducible apply upd_caps_pats (Closed.mono cl (by decide))) | dsimp only | split)
  repeat' first | with_reducible assumption | exact Closed.mono cl (by decide) | (with_reducible intro _) | with_reducible apply onlyIte | with_reducible refine onlyEach ?_ ?_ | with_reducible apply State.fset_only | (fail_if_no_progress with_reducible apply upd_caps_pats (Closed.mono cl (by decide))) | dsimp only | split

theorem State.lanesLost_only {P : State → Prop} (cl : Closed P 0x2A00000100) {s : State} (h : Sat P s) (which : Nat → Bool) : Sat P (State.lanesLost s which) := by
  unfold State.lanesLost
  extract_lets +onlyGivenNames v_s0 v_s1
  try (have h_s0 : Sat P v_s0 := by repeat' first | with_reducible assumption | exact Closed.mono cl (by decide) | (with_reducible intro _) | with_reducible apply onlyIte | with_reducible refine onlyEach ?_ ?_ | with_reducible apply State.setReg_only | with_reducible apply State.fset_only | (fail_if_no_progress with_reducible apply upd_lanes (Closed.mono cl (by decide))) | (fail_if_no_progress with_reducible apply upd_regs (Closed.mono cl (by decide))) | dsimp only | split)
  try (have h_s1 : Sat P v_s1 := by repeat' first | with_reducible assumption | exact Closed.mono cl (by decide) | (with_reducible intro _) | with_reducible apply onlyIte | with_reducible refine onlyEach ?_ ?_ | with_reducible apply State.setReg_only | with_reducible apply State.fset_only | (fail_if_no_progress with_reducible apply upd_lanes (Closed.mono cl (by decide))) | (fail_if_no_progress with_reducible apply upd_regs (Closed.mono cl (by decide))) | dsimp only | split)
  repeat' first | with_reducible assumption | exact Closed.mono cl (by decide) | (with_reducible intro _) | with_reducible apply onlyIte | with_reducible refine onlyEach ?_ ?_ | with_reducible apply State.setReg_only | with_reducible apply State.fset_only | (fail_if_no_progress with_reducible apply upd_lanes (Closed.mono cl (by decide))) | (fail_if_no_progress with_reducible apply upd_regs (Closed.mono cl (by decide))) | dsimp only | split

theorem State.loseUnits_only {P : State → Prop} (cl : Closed P 0x200010000) {s : State} (h : Sat P s) (d : Nat) : Sat P (State.loseUnits s d) := by
  unfold State.loseUnits
  repeat' first | with_reducible assumption | exact Closed.mono cl (by decide) | (with_reducible intro _) | with_reducible apply onlyIte | with_reducible refine onlyEach ?_ ?_ | with_reducible apply State.setReg_only | (fail_if_no_progress with_reducible apply upd_act (Closed.mono cl (by decide))) | dsimp only | split

theorem State.deepLoss_only {P : State → Prop} (cl : Closed P 0x3A0810DF7C) {s : State} (h : Sat P s)  : Sat P (State.deepLoss s) := by
  unfold State.deepLoss
  extract_lets +onlyGivenNames v_all v_s1 v_c v_s2
  try (have h_s1 : Sat P v_s1 := by repeat' first | with_reducible assumption | exact Closed.mono cl (by decide) | (with_reducible intro _) | with_reducible apply onlyIte | with_reducible apply State.loseMem_only | with_reducible apply State.loseStrands_only | with_reducible apply State.loseEdge_only | with_reducible apply State.channelsOff_only | with_reducible apply State.lanesLost_only | with_reducible apply State.loseReports_only | with_reducible apply State.fset_only | (fail_if_no_progress with_reducible apply upd_core_host_ring_sec_trace_trig (Closed.mono cl (by decide))) | dsimp only | split)
  try (have h_s2 : Sat P v_s2 := by repeat' first | with_reducible assumption | exact Closed.mono cl (by decide) | (with_reducible intro _) | with_reducible apply onlyIte | with_reducible apply State.loseMem_only | with_reducible apply State.loseStrands_only | with_reducible apply State.loseEdge_only | with_reducible apply State.channelsOff_only | with_reducible apply State.lanesLost_only | with_reducible apply State.loseReports_only | with_reducible apply State.fset_only | (fail_if_no_progress with_reducible apply upd_core_host_ring_sec_trace_trig (Closed.mono cl (by decide))) | dsimp only | split)
  repeat' first | with_reducible assumption | exact Closed.mono cl (by decide) | (with_reducible intro _) | with_reducible apply onlyIte | with_reducible apply State.loseMem_only | with_reducible apply State.loseStrands_only | with_reducible apply State.loseEdge_only | with_reducible apply State.channelsOff_only | with_reducible apply State.lanesLost_only | with_reducible apply State.loseReports_only | with_reducible apply State.fset_only | (fail_if_no_progress with_reducible apply upd_core_host_ring_sec_trace_trig (Closed.mono cl (by decide))) | dsimp only | split

theorem State.leaveRun_only {P : State → Prop} (cl : Closed P 0x722005B44) {s : State} (h : Sat P s) (target : Nat) : Sat P (State.leaveRun s target) := by
  unfold State.leaveRun
  extract_lets +onlyGivenNames v_s1 v_low v_dbg v_s2
  try (have h_s1 : Sat P v_s1 := by repeat' first | with_reducible assumption | exact Closed.mono cl (by decide) | (with_reducible intro _) | with_reducible apply onlyIte | with_reducible apply State.flywheel_only | with_reducible apply State.markAll_only | with_reducible apply State.drawn_only | with_reducible apply State.trigIns_only | with_reducible apply State.traceSleep_only | with_reducible apply State.lanesListen_only | (fail_if_no_progress with_reducible apply upd_pins (Closed.mono cl (by decide))) | (fail_if_no_progress with_reducible apply upd_power (Closed.mono cl (by decide))) | dsimp only | split)
  try (have h_s2 : Sat P v_s2 := by repeat' first | with_reducible assumption | exact Closed.mono cl (by decide) | (with_reducible intro _) | with_reducible apply onlyIte | with_reducible apply State.flywheel_only | with_reducible apply State.markAll_only | with_reducible apply State.drawn_only | with_reducible apply State.trigIns_only | with_reducible apply State.traceSleep_only | with_reducible apply State.lanesListen_only | (fail_if_no_progress with_reducible apply upd_pins (Closed.mono cl (by decide))) | (fail_if_no_progress with_reducible apply upd_power (Closed.mono cl (by decide))) | dsimp only | split)
  repeat' first | with_reducible assumption | exact Closed.mono cl (by decide) | (with_reducible intro _) | with_reducible apply onlyIte | with_reducible apply State.flywheel_only | with_reducible apply State.markAll_only | with_reducible apply State.drawn_only | with_reducible apply State.trigIns_only | with_reducible apply State.traceSleep_only | with_reducible apply State.lanesListen_only | (fail_if_no_progress with_reducible apply upd_pins (Closed.mono cl (by decide))) | (fail_if_no_progress with_reducible apply upd_power (Closed.mono cl (by decide))) | dsimp only | split

theorem State.coldStart_only {P : State → Prop} (cl : Closed P 0x6A0C000000) {s : State} (h : Sat P s) (src : Nat) : Sat P (s.coldStart src) := by
  unfold State.coldStart
  dsimp only
  refine State.fset_only (cl.mono rfl) ?_ _ _
  have h0 := State.countCycle_only (cl.mono rfl) h
  have h1 : Sat P (if s.power.tripped then s.countCycle.restart true else s.countCycle.plainStart true) :=
    onlyIte (State.restart_only (cl.mono rfl) h0 true) (State.plainStart_only (cl.mono rfl) h0 true)
  have h2 := State.latchIds_only (cl.mono rfl)
    (upd_regsOf (cl.mono rfl) h1 (upd_regs (cl.mono rfl) h (f := fun p => persisted p.1 || wakeReg p.1)))
  exact onlyIte h2 (State.fset_only (cl.mono rfl) h2 _ _)

theorem State.endTransition_only {P : State → Prop} (cl : Closed P 0x4204220200) {s : State} (h : Sat P s)  : Sat P (State.endTransition s) := by
  unfold State.endTransition
  extract_lets +onlyGivenNames v_l
  repeat' first | with_reducible assumption | exact Closed.mono cl (by decide) | (with_reducible intro _) | with_reducible apply onlyIte | with_reducible apply State.fset_only | with_reducible apply State.react_only | (fail_if_no_progress with_reducible apply upd_flt (Closed.mono cl (by decide))) | dsimp only | split

theorem State.servePwr_only {P : State → Prop} (cl : Closed P 0x202000000) {s : State} (h : Sat P s)  : Sat P (State.servePwr s) := by
  unfold State.servePwr
  repeat' first | with_reducible assumption | exact Closed.mono cl (by decide) | (with_reducible intro _) | with_reducible apply onlyIte | with_reducible apply State.pwrDecide_only | (fail_if_no_progress with_reducible apply upd_power (Closed.mono cl (by decide))) | dsimp only | split

theorem State.entryDone_only {P : State → Prop} (cl : Closed P 0x4206220200) {s : State} (h : Sat P s) (target : Nat) : Sat P (State.entryDone s target) := by
  unfold State.entryDone
  extract_lets +onlyGivenNames v_s1 v_s2
  try (have h_s1 : Sat P v_s1 := by repeat' first | with_reducible assumption | exact Closed.mono cl (by decide) | (with_reducible intro _) | with_reducible apply onlyIte | with_reducible apply State.fset_only | with_reducible apply State.endTransition_only | with_reducible apply State.pwrExit_only | with_reducible apply State.servePwr_only | (fail_if_no_progress with_reducible apply upd_power (Closed.mono cl (by decide))) | dsimp only | split)
  try (have h_s2 : Sat P v_s2 := by repeat' first | with_reducible assumption | exact Closed.mono cl (by decide) | (with_reducible intro _) | with_reducible apply onlyIte | with_reducible apply State.fset_only | with_reducible apply State.endTransition_only | with_reducible apply State.pwrExit_only | with_reducible apply State.servePwr_only | (fail_if_no_progress with_reducible apply upd_power (Closed.mono cl (by decide))) | dsimp only | split)
  repeat' first | with_reducible assumption | exact Closed.mono cl (by decide) | (with_reducible intro _) | with_reducible apply onlyIte | with_reducible apply State.fset_only | with_reducible apply State.endTransition_only | with_reducible apply State.pwrExit_only | with_reducible apply State.servePwr_only | (fail_if_no_progress with_reducible apply upd_power (Closed.mono cl (by decide))) | dsimp only | split

theorem State.closeDomains_only {P : State → Prop} (cl : Closed P 0x7A0E32DF7C) {s : State} (h : Sat P s)  : Sat P (State.closeDomains s) := by
  unfold State.closeDomains
  extract_lets +onlyGivenNames v_target
  repeat' first | with_reducible assumption | exact Closed.mono cl (by decide) | (with_reducible intro _) | with_reducible apply onlyIte | with_reducible apply State.enterOff_only | with_reducible apply State.coldStart_only | with_reducible apply State.deepLoss_only | with_reducible apply State.entryDone_only | (fail_if_no_progress with_reducible apply upd_power (Closed.mono cl (by decide))) | dsimp only | split

theorem State.stopClock_only {P : State → Prop} (cl : Closed P 0x7F2E32DF7C) {s : State} (h : Sat P s)  : Sat P (State.stopClock s) := by
  unfold State.stopClock
  extract_lets +onlyGivenNames v_awake
  repeat' first | with_reducible assumption | exact Closed.mono cl (by decide) | (with_reducible intro _) | with_reducible apply onlyIte | with_reducible apply State.entryDone_only | with_reducible apply State.leaveRun_only | with_reducible apply State.closeDomains_only | dsimp only | split

theorem State.wakeUp_only {P : State → Prop} (cl : Closed P 0x6A0E000000) {s : State} (h : Sat P s) (src : Nat) : Sat P (State.wakeUp s src) := by
  unfold State.wakeUp
  repeat' first | with_reducible assumption | exact Closed.mono cl (by decide) | (with_reducible intro _) | with_reducible apply onlyIte | with_reducible apply State.coldStart_only | with_reducible apply State.wakeAwake_only | dsimp only | split

theorem State.wakeSleep_only {P : State → Prop} (cl : Closed P 0x200011200) {s : State} (h : Sat P s)  : Sat P (State.wakeSleep s) := by
  unfold State.wakeSleep
  extract_lets +onlyGivenNames v_s1
  try (have h_s1 : Sat P v_s1 := by repeat' first | with_reducible assumption | exact Closed.mono cl (by decide) | (with_reducible intro _) | with_reducible apply onlyIte | with_reducible refine onlyEach ?_ ?_ | with_reducible apply State.markAll_only | with_reducible apply State.traceWake_only | with_reducible apply State.expire_only | dsimp only | split)
  repeat' first | with_reducible assumption | exact Closed.mono cl (by decide) | (with_reducible intro _) | with_reducible apply onlyIte | with_reducible refine onlyEach ?_ ?_ | with_reducible apply State.markAll_only | with_reducible apply State.traceWake_only | with_reducible apply State.expire_only | dsimp only | split

theorem State.pinsBack_only {P : State → Prop} (cl : Closed P 0x20000000) {s : State} (h : Sat P s)  : Sat P (State.pinsBack s) := by
  unfold State.pinsBack
  extract_lets +onlyGivenNames v_back
  repeat' first | with_reducible assumption | exact Closed.mono cl (by decide) | (with_reducible intro _) | with_reducible apply onlyIte | (fail_if_no_progress with_reducible apply upd_pins (Closed.mono cl (by decide))) | dsimp only | split

theorem State.exitDone_only {P : State → Prop} (cl : Closed P 0x4226235204) {s : State} (h : Sat P s)  : Sat P (State.exitDone s) := by
  unfold State.exitDone
  extract_lets +onlyGivenNames v_st v_us v_s0 v_s1 v_s2 v_s3
  try (have h_s0 : Sat P v_s0 := by repeat' first | with_reducible assumption | exact Closed.mono cl (by decide) | (with_reducible intro _) | with_reducible apply onlyIte | with_reducible apply State.pinsBack_only | with_reducible apply State.trigIns_only | with_reducible apply State.fset_only | with_reducible apply State.wakeSleep_only | with_reducible apply State.traceWake_only | with_reducible apply State.endTransition_only | with_reducible apply State.servePwr_only | (fail_if_no_progress with_reducible apply upd_core_power (Closed.mono cl (by decide))) | dsimp only | split)
  try (have h_s1 : Sat P v_s1 := by repeat' first | with_reducible assumption | exact Closed.mono cl (by decide) | (with_reducible intro _) | with_reducible apply onlyIte | with_reducible apply State.pinsBack_only | with_reducible apply State.trigIns_only | with_reducible apply State.fset_only | with_reducible apply State.wakeSleep_only | with_reducible apply State.traceWake_only | with_reducible apply State.endTransition_only | with_reducible apply State.servePwr_only | (fail_if_no_progress with_reducible apply upd_core_power (Closed.mono cl (by decide))) | dsimp only | split)
  try (have h_s2 : Sat P v_s2 := by repeat' first | with_reducible assumption | exact Closed.mono cl (by decide) | (with_reducible intro _) | with_reducible apply onlyIte | with_reducible apply State.pinsBack_only | with_reducible apply State.trigIns_only | with_reducible apply State.fset_only | with_reducible apply State.wakeSleep_only | with_reducible apply State.traceWake_only | with_reducible apply State.endTransition_only | with_reducible apply State.servePwr_only | (fail_if_no_progress with_reducible apply upd_core_power (Closed.mono cl (by decide))) | dsimp only | split)
  try (have h_s3 : Sat P v_s3 := by repeat' first | with_reducible assumption | exact Closed.mono cl (by decide) | (with_reducible intro _) | with_reducible apply onlyIte | with_reducible apply State.pinsBack_only | with_reducible apply State.trigIns_only | with_reducible apply State.fset_only | with_reducible apply State.wakeSleep_only | with_reducible apply State.traceWake_only | with_reducible apply State.endTransition_only | with_reducible apply State.servePwr_only | (fail_if_no_progress with_reducible apply upd_core_power (Closed.mono cl (by decide))) | dsimp only | split)
  repeat' first | with_reducible assumption | exact Closed.mono cl (by decide) | (with_reducible intro _) | with_reducible apply onlyIte | with_reducible apply State.pinsBack_only | with_reducible apply State.trigIns_only | with_reducible apply State.fset_only | with_reducible apply State.wakeSleep_only | with_reducible apply State.traceWake_only | with_reducible apply State.endTransition_only | with_reducible apply State.servePwr_only | (fail_if_no_progress with_reducible apply upd_core_power (Closed.mono cl (by decide))) | dsimp only | split

theorem State.pwrExitComplete_only {P : State → Prop} (cl : Closed P 0x4226235204) {s : State} (h : Sat P s)  : Sat P (State.pwrExitComplete s) := by
  unfold State.pwrExitComplete
  repeat' first | with_reducible assumption | exact Closed.mono cl (by decide) | (with_reducible intro _) | with_reducible apply onlyIte | with_reducible apply State.exitDone_only | dsimp only | split

theorem State.newOrigin_only {P : State → Prop} (cl : Closed P 0x200000004) {s : State} (h : Sat P s)  : Sat P (State.newOrigin s) := by
  unfold State.newOrigin
  repeat' first | with_reducible assumption | exact Closed.mono cl (by decide) | (with_reducible intro _) | with_reducible apply onlyIte | with_reducible apply State.fset_only | with_reducible apply State.newT0_only | (fail_if_no_progress with_reducible apply upd_core (Closed.mono cl (by decide))) | dsimp only | split

theorem State.reloaded_only {P : State → Prop} (cl : Closed P 0xE00018214) {s : State} (h : Sat P s)  : Sat P (State.reloaded s) := by
  unfold State.reloaded
  extract_lets +onlyGivenNames v_s1 v_s2 v_s3
  try (have h_s1 : Sat P v_s1 := by repeat' first | with_reducible assumption | exact Closed.mono cl (by decide) | (with_reducible intro _) | with_reducible apply onlyIte | with_reducible refine onlyEach ?_ ?_ | with_reducible apply State.placeInit_only | with_reducible apply State.initFabric_only | with_reducible apply State.clearAction_only | with_reducible apply State.applySetting_only | with_reducible apply State.emptyQueues_only | with_reducible apply State.fset_only | with_reducible apply State.newOrigin_only | (fail_if_no_progress with_reducible apply upd_instrs (Closed.mono cl (by decide))) | dsimp only | split)
  try (have h_s2 : Sat P v_s2 := by repeat' first | with_reducible assumption | exact Closed.mono cl (by decide) | (with_reducible intro _) | with_reducible apply onlyIte | with_reducible refine onlyEach ?_ ?_ | with_reducible apply State.placeInit_only | with_reducible apply State.initFabric_only | with_reducible apply State.clearAction_only | with_reducible apply State.applySetting_only | with_reducible apply State.emptyQueues_only | with_reducible apply State.fset_only | with_reducible apply State.newOrigin_only | (fail_if_no_progress with_reducible apply upd_instrs (Closed.mono cl (by decide))) | dsimp only | split)
  try (have h_s3 : Sat P v_s3 := by repeat' first | with_reducible assumption | exact Closed.mono cl (by decide) | (with_reducible intro _) | with_reducible apply onlyIte | with_reducible refine onlyEach ?_ ?_ | with_reducible apply State.placeInit_only | with_reducible apply State.initFabric_only | with_reducible apply State.clearAction_only | with_reducible apply State.applySetting_only | with_reducible apply State.emptyQueues_only | with_reducible apply State.fset_only | with_reducible apply State.newOrigin_only | (fail_if_no_progress with_reducible apply upd_instrs (Closed.mono cl (by decide))) | dsimp only | split)
  repeat' first | with_reducible assumption | exact Closed.mono cl (by decide) | (with_reducible intro _) | with_reducible apply onlyIte | with_reducible refine onlyEach ?_ ?_ | with_reducible apply State.placeInit_only | with_reducible apply State.initFabric_only | with_reducible apply State.clearAction_only | with_reducible apply State.applySetting_only | with_reducible apply State.emptyQueues_only | with_reducible apply State.fset_only | with_reducible apply State.newOrigin_only | (fail_if_no_progress with_reducible apply upd_instrs (Closed.mono cl (by decide))) | dsimp only | split

theorem State.deepReload_only {P : State → Prop} (cl : Closed P 0xE2A93C7FC) {s : State} (h : Sat P s) (h : CastHdr) (stored : List Bytes) : Sat P (State.deepReload s h stored) := by
  unfold State.deepReload
  repeat' first | with_reducible assumption | exact Closed.mono cl (by decide) | (with_reducible intro _) | with_reducible apply onlyIte | with_reducible apply State.reloaded_only | with_reducible apply State.enterLoad_only | with_reducible apply State.fset_only | (fail_if_no_progress with_reducible apply upd_power (Closed.mono cl (by decide))) | dsimp only | split

theorem State.domainGate_only {P : State → Prop} (cl : Closed P 0x202000000) {s : State} (h : Sat P s) (d : Nat) : Sat P (State.domainGate s d) := by
  unfold State.domainGate
  repeat' first | with_reducible assumption | exact Closed.mono cl (by decide) | (with_reducible intro _) | with_reducible apply onlyIte | with_reducible apply State.fset_only | (fail_if_no_progress with_reducible apply upd_power (Closed.mono cl (by decide))) | dsimp only | split

theorem State.domainUp_only {P : State → Prop} (cl : Closed P 0x202000000) {s : State} (h : Sat P s) (d : Nat) : Sat P (State.domainUp s d) := by
  unfold State.domainUp
  repeat' first | with_reducible assumption | exact Closed.mono cl (by decide) | (with_reducible intro _) | with_reducible apply onlyIte | with_reducible apply State.fset_only | (fail_if_no_progress with_reducible apply upd_power (Closed.mono cl (by decide))) | dsimp only | split

theorem State.domainGated_only {P : State → Prop} (cl : Closed P 0x3A02018F78) {s : State} (h : Sat P s) (d : Nat) : Sat P (State.domainGated s d) := by
  unfold State.domainGated
  repeat' first | with_reducible assumption | exact Closed.mono cl (by decide) | (with_reducible intro _) | with_reducible apply onlyIte | with_reducible apply State.loseMem_only | with_reducible apply State.loseStrands_only | with_reducible apply State.loseEdge_only | with_reducible apply State.channelsOff_only | with_reducible apply State.loseReports_only | with_reducible apply State.lanesListen_only | with_reducible apply State.lanesLost_only | with_reducible apply State.loseUnits_only | with_reducible apply State.fset_only | with_reducible apply State.domainUp_only | dsimp only | split

theorem State.domainEnable_only {P : State → Prop} (cl : Closed P 0x202000000) {s : State} (h : Sat P s) (d : Nat) : Sat P (State.domainEnable s d) := by
  unfold State.domainEnable
  repeat' first | with_reducible assumption | exact Closed.mono cl (by decide) | (with_reducible intro _) | with_reducible apply onlyIte | with_reducible apply State.fset_only | with_reducible apply State.domainUp_only | dsimp only | split

theorem State.domainPowered_only {P : State → Prop} (cl : Closed P 0x202000000) {s : State} (h : Sat P s) (d : Nat) : Sat P (State.domainPowered s d) := by
  unfold State.domainPowered
  repeat' first | with_reducible assumption | exact Closed.mono cl (by decide) | (with_reducible intro _) | with_reducible apply onlyIte | with_reducible apply State.fset_only | (fail_if_no_progress with_reducible apply upd_power (Closed.mono cl (by decide))) | dsimp only | split

theorem execPwrGo_only {P : State → Prop} (cl : Closed P 0x202000000) {s : State} (h : Sat P s) (target : BitVec 3) : OnlyO P (execPwrGo target s) := by
  unfold execPwrGo
  repeat' first | with_reducible assumption | exact Closed.mono cl (by decide) | (with_reducible intro _) | with_reducible apply onlyIte | with_reducible apply onlyIteO | with_reducible apply onlyNext | with_reducible apply State.trainLink_only | with_reducible apply State.watch_only | with_reducible apply State.fset_only | with_reducible apply State.hostGo_only | dsimp only | split

theorem execPwrFlagRequest_only {P : State → Prop} (cl : Closed P 0x202000000) {s : State} (h : Sat P s) (flag : BitVec 3) : OnlyO P (execPwrFlagRequest flag s) := by
  unfold execPwrFlagRequest
  repeat' first | with_reducible assumption | exact Closed.mono cl (by decide) | (with_reducible intro _) | with_reducible apply onlyIte | with_reducible apply onlyIteO | with_reducible apply onlyNext | with_reducible apply State.watch_only | with_reducible apply State.flagRequest_only | dsimp only | split

theorem execStepClockStop_only {P : State → Prop} (cl : Closed P 0x7F2E32DF7C) {s : State} (h : Sat P s)  : OnlyO P (execStepClockStop s) := by
  unfold execStepClockStop
  repeat' first | with_reducible assumption | exact Closed.mono cl (by decide) | (with_reducible intro _) | with_reducible apply onlyIte | with_reducible apply onlyIteO | with_reducible apply onlyNext | with_reducible apply State.watch_only | with_reducible apply State.stopClock_only | dsimp only | split

theorem execWake_only {P : State → Prop} (cl : Closed P 0x6A0E000000) {s : State} (h : Sat P s) (src : BitVec 2) : OnlyO P (execWake src s) := by
  unfold execWake
  repeat' first | with_reducible assumption | exact Closed.mono cl (by decide) | (with_reducible intro _) | with_reducible apply onlyIte | with_reducible apply onlyIteO | with_reducible apply onlyNext | with_reducible apply State.watch_only | with_reducible apply State.wakeUp_only | dsimp only | split

theorem execPwrExitComplete_only {P : State → Prop} (cl : Closed P 0x4226235204) {s : State} (h : Sat P s)  : OnlyO P (execPwrExitComplete s) := by
  unfold execPwrExitComplete
  repeat' first | with_reducible assumption | exact Closed.mono cl (by decide) | (with_reducible intro _) | with_reducible apply onlyIte | with_reducible apply onlyIteO | with_reducible apply onlyNext | with_reducible apply State.watch_only | with_reducible apply State.pwrExitComplete_only | dsimp only | split

theorem execDeepSleepReload_only {P : State → Prop} (cl : Closed P 0xE2A93C7FC) {s : State} (h : Sat P s) (hdr : CastHdr) (stored : List Bytes) : OnlyO P (execDeepSleepReload hdr stored s) := by
  unfold execDeepSleepReload
  repeat' first | with_reducible assumption | exact Closed.mono cl (by decide) | (with_reducible intro _) | with_reducible apply onlyIte | with_reducible apply onlyIteO | with_reducible apply onlyNext | with_reducible apply State.watch_only | with_reducible apply State.deepReload_only | dsimp only | split

theorem execDomainGate_only {P : State → Prop} (cl : Closed P 0x302101040) {s : State} (h : Sat P s) (d : BitVec 7) : OnlyO P (execDomainGate d s) := by
  unfold execDomainGate
  repeat' first | with_reducible assumption | exact Closed.mono cl (by decide) | (with_reducible intro _) | with_reducible apply onlyIte | with_reducible apply onlyIteO | with_reducible apply onlyNext | with_reducible apply State.hostCmd_only | with_reducible apply State.domainGate_only | dsimp only | split

theorem execDomainGated_only {P : State → Prop} (cl : Closed P 0x3A02018F78) {s : State} (h : Sat P s) (d : BitVec 7) : OnlyO P (execDomainGated d s) := by
  unfold execDomainGated
  repeat' first | with_reducible assumption | exact Closed.mono cl (by decide) | (with_reducible intro _) | with_reducible apply onlyIte | with_reducible apply onlyIteO | with_reducible apply onlyNext | with_reducible apply State.domainGated_only | dsimp only | split

theorem execDomainEnable_only {P : State → Prop} (cl : Closed P 0x302101040) {s : State} (h : Sat P s) (d : BitVec 7) : OnlyO P (execDomainEnable d s) := by
  unfold execDomainEnable
  repeat' first | with_reducible assumption | exact Closed.mono cl (by decide) | (with_reducible intro _) | with_reducible apply onlyIte | with_reducible apply onlyIteO | with_reducible apply onlyNext | with_reducible apply State.hostCmd_only | with_reducible apply State.domainEnable_only | dsimp only | split

theorem execDomainPowered_only {P : State → Prop} (cl : Closed P 0x202000000) {s : State} (h : Sat P s) (d : BitVec 7) : OnlyO P (execDomainPowered d s) := by
  unfold execDomainPowered
  repeat' first | with_reducible assumption | exact Closed.mono cl (by decide) | (with_reducible intro _) | with_reducible apply onlyIte | with_reducible apply onlyIteO | with_reducible apply onlyNext | with_reducible apply State.domainPowered_only | dsimp only | split

theorem State.attestGo_only {P : State → Prop} (cl : Closed P 0x208000000) {s : State} (h : Sat P s)  : Sat P (State.attestGo s) := by
  unfold State.attestGo
  repeat' first | with_reducible assumption | exact Closed.mono cl (by decide) | (with_reducible intro _) | with_reducible apply onlyIte | with_reducible apply State.fset_only | (fail_if_no_progress with_reducible apply upd_sec (Closed.mono cl (by decide))) | dsimp only | split

theorem State.attEnd_only {P : State → Prop} (cl : Closed P 0x208000000) {s : State} (h : Sat P s) (code : Nat) (report : Bytes) : Sat P (State.attEnd s code report) := by
  unfold State.attEnd
  extract_lets +onlyGivenNames v_s1
  try (have h_s1 : Sat P v_s1 := by repeat' first | with_reducible assumption | exact Closed.mono cl (by decide) | (with_reducible intro _) | with_reducible apply onlyIte | with_reducible apply State.setWords_only | with_reducible apply State.fset_only | (fail_if_no_progress with_reducible apply upd_sec (Closed.mono cl (by decide))) | dsimp only | split)
  repeat' first | with_reducible assumption | exact Closed.mono cl (by decide) | (with_reducible intro _) | with_reducible apply onlyIte | with_reducible apply State.setWords_only | with_reducible apply State.fset_only | (fail_if_no_progress with_reducible apply upd_sec (Closed.mono cl (by decide))) | dsimp only | split

theorem State.attSigned_only {P : State → Prop} (cl : Closed P 0x308000000) {s : State} (h : Sat P s) (body : Bytes) : Sat P (State.attSigned s body) := by
  unfold State.attSigned
  repeat' first | with_reducible assumption | exact Closed.mono cl (by decide) | (with_reducible intro _) | with_reducible apply onlyIte | with_reducible apply State.drawn_only | with_reducible apply State.attEnd_only | dsimp only | split

theorem State.attestDone_only {P : State → Prop} (cl : Closed P 0x308000000) {s : State} (h : Sat P s)  : Sat P (State.attestDone s) := by
  unfold State.attestDone
  repeat' first | with_reducible assumption | exact Closed.mono cl (by decide) | (with_reducible intro _) | with_reducible apply onlyIte | with_reducible apply State.attEnd_only | with_reducible apply State.attSigned_only | with_reducible apply State.drawn_only | (fail_if_no_progress with_reducible apply upd_sec (Closed.mono cl (by decide))) | dsimp only | split

theorem State.rbAdvance_only {P : State → Prop} (cl : Closed P 0x200000000) {s : State} (h : Sat P s) (i : Nat) : Sat P (State.rbAdvance s i) := by
  unfold State.rbAdvance
  extract_lets +onlyGivenNames v_v v_s1
  try (have h_s1 : Sat P v_s1 := by repeat' first | with_reducible assumption | exact Closed.mono cl (by decide) | (with_reducible intro _) | with_reducible apply onlyIte | with_reducible apply State.fset_only | dsimp only | split)
  repeat' first | with_reducible assumption | exact Closed.mono cl (by decide) | (with_reducible intro _) | with_reducible apply onlyIte | with_reducible apply State.fset_only | dsimp only | split

theorem State.fuseProgram_only {P : State → Prop} (cl : Closed P 0x208000000) {s : State} (h : Sat P s) (ctl : W32) : Sat P (State.fuseProgram s ctl) := by
  unfold State.fuseProgram
  extract_lets +onlyGivenNames v_w v_s1 v_data v_cfg
  try (have h_s1 : Sat P v_s1 := by repeat' first | with_reducible assumption | exact Closed.mono cl (by decide) | (with_reducible intro _) | with_reducible apply onlyIte | with_reducible apply State.fset_only | (fail_if_no_progress with_reducible apply upd_sec (Closed.mono cl (by decide))) | dsimp only | split)
  repeat' first | with_reducible assumption | exact Closed.mono cl (by decide) | (with_reducible intro _) | with_reducible apply onlyIte | with_reducible apply State.fset_only | (fail_if_no_progress with_reducible apply upd_sec (Closed.mono cl (by decide))) | dsimp only | split

theorem State.closeDebug_only {P : State → Prop} (cl : Closed P 0x210201000) {s : State} (h : Sat P s)  : Sat P (State.closeDebug s) := by
  unfold State.closeDebug
  extract_lets +onlyGivenNames v_priv v_s1 v_s2 v_s3
  try (have h_s1 : Sat P v_s1 := by repeat' first | with_reducible assumption | exact Closed.mono cl (by decide) | (with_reducible intro _) | with_reducible apply onlyIte | with_reducible refine onlyEach ?_ ?_ | with_reducible apply State.fset_only | with_reducible apply State.wireGood_only | (fail_if_no_progress with_reducible apply upd_tap (Closed.mono cl (by decide))) | (fail_if_no_progress with_reducible apply upd_trace (Closed.mono cl (by decide))) | dsimp only | split)
  try (have h_s2 : Sat P v_s2 := by repeat' first | with_reducible assumption | exact Closed.mono cl (by decide) | (with_reducible intro _) | with_reducible apply onlyIte | with_reducible refine onlyEach ?_ ?_ | with_reducible apply State.fset_only | with_reducible apply State.wireGood_only | (fail_if_no_progress with_reducible apply upd_tap (Closed.mono cl (by decide))) | (fail_if_no_progress with_reducible apply upd_trace (Closed.mono cl (by decide))) | dsimp only | split)
  try (have h_s3 : Sat P v_s3 := by repeat' first | with_reducible assumption | exact Closed.mono cl (by decide) | (with_reducible intro _) | with_reducible apply onlyIte | with_reducible refine onlyEach ?_ ?_ | with_reducible apply State.fset_only | with_reducible apply State.wireGood_only | (fail_if_no_progress with_reducible apply upd_tap (Closed.mono cl (by decide))) | (fail_if_no_progress with_reducible apply upd_trace (Closed.mono cl (by decide))) | dsimp only | split)
  repeat' first | with_reducible assumption | exact Closed.mono cl (by decide) | (with_reducible intro _) | with_reducible apply onlyIte | with_reducible refine onlyEach ?_ ?_ | with_reducible apply State.fset_only | with_reducible apply State.wireGood_only | (fail_if_no_progress with_reducible apply upd_tap (Closed.mono cl (by decide))) | (fail_if_no_progress with_reducible apply upd_trace (Closed.mono cl (by decide))) | dsimp only | split

theorem State.fuseDone_only {P : State → Prop} (cl : Closed P 0x8218201000) {s : State} (h : Sat P s) (took : W32) : Sat P (State.fuseDone s took) := by
  unfold State.fuseDone
  repeat' first | with_reducible assumption | exact Closed.mono cl (by decide) | (with_reducible intro _) | with_reducible apply onlyIte | with_reducible apply State.fset_only | with_reducible apply State.closeDebug_only | (fail_if_no_progress with_reducible apply upd_sec_fuses (Closed.mono cl (by decide))) | dsimp only | split

theorem State.tapLoad_only {P : State → Prop} (cl : Closed P 0x10000000) {s : State} (h : Sat P s) (ir : TapInstr) (dr : Nat) (driven floating : Bool) : Sat P (State.tapLoad s ir dr driven floating) := by
  unfold State.tapLoad
  repeat' first | with_reducible assumption | exact Closed.mono cl (by decide) | (with_reducible intro _) | with_reducible apply onlyIte | (fail_if_no_progress with_reducible apply upd_tap (Closed.mono cl (by decide))) | dsimp only | split

theorem State.tapSample_only {P : State → Prop} (cl : Closed P 0x10000000) {s : State} (h : Sat P s) (pins : List Bool) : Sat P (State.tapSample s pins) := by
  unfold State.tapSample
  repeat' first | with_reducible assumption | exact Closed.mono cl (by decide) | (with_reducible intro _) | with_reducible apply onlyIte | (fail_if_no_progress with_reducible apply upd_tap (Closed.mono cl (by decide))) | dsimp only | split

theorem State.privateLoad_only {P : State → Prop} (cl : Closed P 0x318000000) {s : State} (h : Sat P s) (ir : TapInstr) : Sat P (State.privateLoad s ir) := by
  unfold State.privateLoad
  repeat' first | with_reducible assumption | exact Closed.mono cl (by decide) | (with_reducible intro _) | with_reducible apply onlyIte | with_reducible apply State.tapLoad_only | with_reducible apply State.drawn_only | with_reducible apply State.fset_only | (fail_if_no_progress with_reducible apply upd_sec (Closed.mono cl (by decide))) | dsimp only | split

theorem State.boardIdNow_only {P : State → Prop} (cl : Closed P 0x14000000) {s : State} (h : Sat P s) (shift : BitVec 33) : Sat P (State.boardIdNow s shift) := by
  unfold State.boardIdNow
  extract_lets +onlyGivenNames v_s1
  try (have h_s1 : Sat P v_s1 := by repeat' first | with_reducible assumption | exact Closed.mono cl (by decide) | (with_reducible intro _) | with_reducible apply onlyIte | with_reducible apply State.tapLoad_only | (fail_if_no_progress with_reducible apply upd_store (Closed.mono cl (by decide))) | with_reducible exact rfl | dsimp only | split)
  repeat' first | with_reducible assumption | exact Closed.mono cl (by decide) | (with_reducible intro _) | with_reducible apply onlyIte | with_reducible apply State.tapLoad_only | (fail_if_no_progress with_reducible apply upd_store (Closed.mono cl (by decide))) | with_reducible exact rfl | dsimp only | split

theorem State.lifeWrite_only {P : State → Prop} (cl : Closed P 0x4000000) {s : State} (h : Sat P s) (t : Int) : Sat P (State.lifeWrite s t) := by
  unfold State.lifeWrite
  repeat' first | with_reducible assumption | exact Closed.mono cl (by decide) | (with_reducible intro _) | with_reducible apply onlyIte | (fail_if_no_progress with_reducible apply upd_store (Closed.mono cl (by decide))) | with_reducible exact rfl | dsimp only | split

theorem execAttestGo_only {P : State → Prop} (cl : Closed P 0x30A101040) {s : State} (h : Sat P s)  : OnlyO P (execAttestGo s) := by
  unfold execAttestGo
  repeat' first | with_reducible assumption | exact Closed.mono cl (by decide) | (with_reducible intro _) | with_reducible apply onlyIte | with_reducible apply onlyIteO | with_reducible apply onlyNext | with_reducible apply State.hostCmd_only | with_reducible apply State.attestGo_only | dsimp only | split

theorem execAttestDone_only {P : State → Prop} (cl : Closed P 0x308000000) {s : State} (h : Sat P s)  : OnlyO P (execAttestDone s) := by
  unfold execAttestDone
  repeat' first | with_reducible assumption | exact Closed.mono cl (by decide) | (with_reducible intro _) | with_reducible apply onlyIte | with_reducible apply onlyIteO | with_reducible apply onlyNext | with_reducible apply State.attestDone_only | dsimp only | split

theorem execRbAdvance_only {P : State → Prop} (cl : Closed P 0x302101040) {s : State} (h : Sat P s) (i : BitVec 4) : OnlyO P (execRbAdvance i s) := by
  unfold execRbAdvance
  repeat' first | with_reducible assumption | exact Closed.mono cl (by decide) | (with_reducible intro _) | with_reducible apply onlyIte | with_reducible apply onlyIteO | with_reducible apply onlyNext | with_reducible apply State.hostCmd_only | with_reducible apply State.rbAdvance_only | dsimp only | split

theorem execFuseProgram_only {P : State → Prop} (cl : Closed P 0x30A101040) {s : State} (h : Sat P s) (ctl : W32) : OnlyO P (execFuseProgram ctl s) := by
  unfold execFuseProgram
  repeat' first | with_reducible assumption | exact Closed.mono cl (by decide) | (with_reducible intro _) | with_reducible apply onlyIte | with_reducible apply onlyIteO | with_reducible apply onlyNext | with_reducible apply State.hostCmd_only | with_reducible apply State.fuseProgram_only | dsimp only | split

theorem execFuseProgramDone_only {P : State → Prop} (cl : Closed P 0x8218201000) {s : State} (h : Sat P s) (took : W32) : OnlyO P (execFuseProgramDone took s) := by
  unfold execFuseProgramDone
  repeat' first | with_reducible assumption | exact Closed.mono cl (by decide) | (with_reducible intro _) | with_reducible apply onlyIte | with_reducible apply onlyIteO | with_reducible apply onlyNext | with_reducible apply State.watch_only | with_reducible apply State.fuseDone_only | dsimp only | split

theorem execBypass_only {P : State → Prop} (cl : Closed P 0x10000000) {s : State} (h : Sat P s)  : OnlyO P (execBypass s) := by
  unfold execBypass
  repeat' first | with_reducible assumption | exact Closed.mono cl (by decide) | (with_reducible intro _) | with_reducible apply onlyIte | with_reducible apply onlyIteO | with_reducible apply onlyNext | with_reducible apply State.tapLoad_only | dsimp only | split

theorem execIdcode_only {P : State → Prop} (cl : Closed P 0x10000000) {s : State} (h : Sat P s)  : OnlyO P (execIdcode s) := by
  unfold execIdcode
  repeat' first | with_reducible assumption | exact Closed.mono cl (by decide) | (with_reducible intro _) | with_reducible apply onlyIte | with_reducible apply onlyIteO | with_reducible apply onlyNext | with_reducible apply State.tapLoad_only | dsimp only | split

theorem execSamplePreload_only {P : State → Prop} (cl : Closed P 0x10000000) {s : State} (h : Sat P s) (pins preload : List Bool) : OnlyO P (execSamplePreload pins preload s) := by
  unfold execSamplePreload
  extract_lets +onlyGivenNames v_s1
  try (have h_s1 : Sat P v_s1 := by repeat' first | with_reducible assumption | exact Closed.mono cl (by decide) | (with_reducible intro _) | with_reducible apply onlyIte | with_reducible apply onlyIteO | with_reducible apply onlyNext | with_reducible apply State.tapSample_only | with_reducible apply State.tapLoad_only | (fail_if_no_progress with_reducible apply upd_tap (Closed.mono cl (by decide))) | dsimp only | split)
  repeat' first | with_reducible assumption | exact Closed.mono cl (by decide) | (with_reducible intro _) | with_reducible apply onlyIte | with_reducible apply onlyIteO | with_reducible apply onlyNext | with_reducible apply State.tapSample_only | with_reducible apply State.tapLoad_only | (fail_if_no_progress with_reducible apply upd_tap (Closed.mono cl (by decide))) | dsimp only | split

theorem execExtest_only {P : State → Prop} (cl : Closed P 0x10000000) {s : State} (h : Sat P s) (pins : List Bool) : OnlyO P (execExtest pins s) := by
  unfold execExtest
  repeat' first | with_reducible assumption | exact Closed.mono cl (by decide) | (with_reducible intro _) | with_reducible apply onlyIte | with_reducible apply onlyIteO | with_reducible apply onlyNext | with_reducible apply State.tapSample_only | with_reducible apply State.tapLoad_only | dsimp only | split

theorem execClamp_only {P : State → Prop} (cl : Closed P 0x10000000) {s : State} (h : Sat P s)  : OnlyO P (execClamp s) := by
  unfold execClamp
  repeat' first | with_reducible assumption | exact Closed.mono cl (by decide) | (with_reducible intro _) | with_reducible apply onlyIte | with_reducible apply onlyIteO | with_reducible apply onlyNext | with_reducible apply State.tapLoad_only | dsimp only | split

theorem execHighz_only {P : State → Prop} (cl : Closed P 0x10000000) {s : State} (h : Sat P s)  : OnlyO P (execHighz s) := by
  unfold execHighz
  repeat' first | with_reducible assumption | exact Closed.mono cl (by decide) | (with_reducible intro _) | with_reducible apply onlyIte | with_reducible apply onlyIteO | with_reducible apply onlyNext | with_reducible apply State.tapLoad_only | dsimp only | split

theorem execPrivateInstruction_only {P : State → Prop} (cl : Closed P 0x318000000) {s : State} (h : Sat P s) (k : PrivateInstr) : OnlyO P (execPrivateInstruction k s) := by
  unfold execPrivateInstruction
  repeat' first | with_reducible assumption | exact Closed.mono cl (by decide) | (with_reducible intro _) | with_reducible apply onlyIte | with_reducible apply onlyIteO | with_reducible apply onlyNext | with_reducible apply State.privateLoad_only | dsimp only | split

theorem execBoardId_only {P : State → Prop} (cl : Closed P 0x14000000) {s : State} (h : Sat P s) (shift : BitVec 33) : OnlyO P (execBoardId shift s) := by
  unfold execBoardId
  repeat' first | with_reducible assumption | exact Closed.mono cl (by decide) | (with_reducible intro _) | with_reducible apply onlyIte | with_reducible apply onlyIteO | with_reducible apply onlyNext | with_reducible apply State.boardIdNow_only | dsimp only | split

theorem execLifetime_only {P : State → Prop} (cl : Closed P 0x10000000) {s : State} (h : Sat P s)  : OnlyO P (execLifetime s) := by
  unfold execLifetime
  repeat' first | with_reducible assumption | exact Closed.mono cl (by decide) | (with_reducible intro _) | with_reducible apply onlyIte | with_reducible apply onlyIteO | with_reducible apply onlyNext | with_reducible apply State.tapLoad_only | dsimp only | split

theorem execLifetimeWrite_only {P : State → Prop} (cl : Closed P 0x4000000) {s : State} (h : Sat P s) (milliC : Int) : OnlyO P (execLifetimeWrite milliC s) := by
  unfold execLifetimeWrite
  repeat' first | with_reducible assumption | exact Closed.mono cl (by decide) | (with_reducible intro _) | with_reducible apply onlyIte | with_reducible apply onlyIteO | with_reducible apply onlyNext | with_reducible apply State.lifeWrite_only | dsimp only | split

theorem execTrstN_only {P : State → Prop} (cl : Closed P 0x10000000) {s : State} (h : Sat P s) (asserted : Bool) : OnlyO P (execTrstN asserted s) := by
  unfold execTrstN
  repeat' first | with_reducible assumption | exact Closed.mono cl (by decide) | (with_reducible intro _) | with_reducible apply onlyIte | with_reducible apply onlyIteO | with_reducible apply onlyNext | (fail_if_no_progress with_reducible apply upd_tap (Closed.mono cl (by decide))) | dsimp only | split

theorem State.dmaStopped_only {P : State → Prop} (cl : Closed P 0x200000000) {s : State} (h : Sat P s) (e : Nat) : Sat P (State.dmaStopped s e) := by
  unfold State.dmaStopped
  repeat' first | with_reducible assumption | exact Closed.mono cl (by decide) | (with_reducible intro _) | with_reducible apply onlyIte | with_reducible apply State.fset_only | dsimp only | split

theorem State.dmaEnable_only {P : State → Prop} (cl : Closed P 0x200000000) {s : State} (h : Sat P s) (e : Nat) : Sat P (State.dmaEnable s e) := by
  unfold State.dmaEnable
  repeat' first | with_reducible assumption | exact Closed.mono cl (by decide) | (with_reducible intro _) | with_reducible apply onlyIte | with_reducible apply State.fset_only | dsimp only | split

theorem State.dmaDisable_only {P : State → Prop} (cl : Closed P 0x200100000) {s : State} (h : Sat P s) (e : Nat) : Sat P (State.dmaDisable s e) := by
  unfold State.dmaDisable
  extract_lets +onlyGivenNames v_s0
  try (have h_s0 : Sat P v_s0 := by repeat' first | with_reducible assumption | exact Closed.mono cl (by decide) | (with_reducible intro _) | with_reducible apply onlyIte | with_reducible apply State.fset_only | with_reducible apply State.dmaStopped_only | (fail_if_no_progress with_reducible apply upd_host (Closed.mono cl (by decide))) | dsimp only | split)
  repeat' first | with_reducible assumption | exact Closed.mono cl (by decide) | (with_reducible intro _) | with_reducible apply onlyIte | with_reducible apply State.fset_only | with_reducible apply State.dmaStopped_only | (fail_if_no_progress with_reducible apply upd_host (Closed.mono cl (by decide))) | dsimp only | split

theorem State.dmaTail_only {P : State → Prop} (cl : Closed P 0x200000000) {s : State} (h : Sat P s) (e : Nat) (v : W32) : Sat P (State.dmaTail s e v) := by
  unfold State.dmaTail
  extract_lets +onlyGivenNames v_i
  repeat' first | with_reducible assumption | exact Closed.mono cl (by decide) | (with_reducible intro _) | with_reducible apply onlyIte | with_reducible apply State.fset_only | dsimp only | split

theorem State.dmaCtl_only {P : State → Prop} (cl : Closed P 0x200100000) {s : State} (h : Sat P s) (e : Nat) (v : W32) : Sat P (State.dmaCtl s e v) := by
  unfold State.dmaCtl
  extract_lets +onlyGivenNames v_k v_s1
  try (have h_s1 : Sat P v_s1 := by repeat' first | with_reducible assumption | exact Closed.mono cl (by decide) | (with_reducible intro _) | with_reducible apply onlyIte | with_reducible apply State.fset_only | with_reducible apply State.dmaEnable_only | with_reducible apply State.dmaDisable_only | dsimp only | split)
  repeat' first | with_reducible assumption | exact Closed.mono cl (by decide) | (with_reducible intro _) | with_reducible apply onlyIte | with_reducible apply State.fset_only | with_reducible apply State.dmaEnable_only | with_reducible apply State.dmaDisable_only | dsimp only | split

theorem State.dmaReads_only {P : State → Prop} (cl : Closed P 0x300001840) {s : State} (h : Sat P s) (n : Nat) (l : List Nat) : Sat P (s.dmaReads n l) := by
  induction n generalizing s l with
  | zero => exact h
  | succ n ih =>
    cases l with
    | nil => exact h
    | cons a l =>
      unfold State.dmaReads
      exact ih (State.readLines_only (cl.mono rfl) h _ _ _ _ _ fun t ht => onlyIte ht (State.memRefused_only (cl.mono rfl) ht _ _ _)) _

theorem State.hostBytes_only {P : State → Prop} (cl : Closed P 0x100000) {s : State} (h : Sat P s) (a : Nat) (bs : Bytes) : Sat P (State.hostBytes s a bs) := by
  unfold State.hostBytes
  extract_lets +onlyGivenNames v_mem
  repeat' first | with_reducible assumption | exact Closed.mono cl (by decide) | (with_reducible intro _) | with_reducible apply onlyIte | with_reducible refine onlyFoldl ?_ ?_ | (fail_if_no_progress with_reducible apply upd_host (Closed.mono cl (by decide))) | dsimp only | split

theorem State.dmaComplete_only {P : State → Prop} (cl : Closed P 0x200100000) {s : State} (h : Sat P s) (e code tag bytes : Nat) : Sat P (State.dmaComplete s e code tag bytes) := by
  unfold State.dmaComplete
  extract_lets +onlyGivenNames v_h v_at_ v_s1 v_s2 v_s3
  try (have h_s1 : Sat P v_s1 := by repeat' first | with_reducible assumption | exact Closed.mono cl (by decide) | (with_reducible intro _) | with_reducible apply onlyIte | with_reducible apply State.hostBytes_only | with_reducible apply State.fset_only | with_reducible apply State.dmaStopped_only | dsimp only | split)
  try (have h_s2 : Sat P v_s2 := by repeat' first | with_reducible assumption | exact Closed.mono cl (by decide) | (with_reducible intro _) | with_reducible apply onlyIte | with_reducible apply State.hostBytes_only | with_reducible apply State.fset_only | with_reducible apply State.dmaStopped_only | dsimp only | split)
  try (have h_s3 : Sat P v_s3 := by repeat' first | with_reducible assumption | exact Closed.mono cl (by decide) | (with_reducible intro _) | with_reducible apply onlyIte | with_reducible apply State.hostBytes_only | with_reducible apply State.fset_only | with_reducible apply State.dmaStopped_only | dsimp only | split)
  repeat' first | with_reducible assumption | exact Closed.mono cl (by decide) | (with_reducible intro _) | with_reducible apply onlyIte | with_reducible apply State.hostBytes_only | with_reducible apply State.fset_only | with_reducible apply State.dmaStopped_only | dsimp only | split

theorem State.dmaDone_only {P : State → Prop} (cl : Closed P 0x300101840) {s : State} (h : Sat P s) (e : Nat) (desc : Bytes) : Sat P (State.dmaDone s e desc) := by
  unfold State.dmaDone
  repeat' first | with_reducible assumption | exact Closed.mono cl (by decide) | (with_reducible intro _) | with_reducible apply onlyIte | with_reducible apply State.dmaComplete_only | with_reducible apply State.dmaReads_only | with_reducible apply State.hostBytes_only | dsimp only | split

theorem State.clearRc_only {P : State → Prop} (cl : Closed P 0x200000000) {s : State} (h : Sat P s) (a : Nat) : Sat P (State.clearRc s a) := by
  unfold State.clearRc
  extract_lets +onlyGivenNames v_m
  repeat' first | with_reducible assumption | exact Closed.mono cl (by decide) | (with_reducible intro _) | with_reducible apply onlyIte | with_reducible apply State.setReg_only | dsimp only | split

theorem State.answer_only {P : State → Prop} (cl : Closed P 0x100000) {s : State} (h : Sat P s) (v : W32) : Sat P (State.answer s v) := by
  unfold State.answer
  repeat' first | with_reducible assumption | exact Closed.mono cl (by decide) | (with_reducible intro _) | with_reducible apply onlyIte | (fail_if_no_progress with_reducible apply upd_host (Closed.mono cl (by decide))) | dsimp only | split

theorem State.readLow_only {P : State → Prop} (cl : Closed P 0x200102001) {s : State} (h : Sat P s) (a n : Nat) : Sat P (State.readLow s a n) := by
  unfold State.readLow
  extract_lets +onlyGivenNames v_snap v_s1 v_s2
  try (have h_s1 : Sat P v_s1 := by repeat' first | with_reducible assumption | exact Closed.mono cl (by decide) | (with_reducible intro _) | with_reducible apply onlyIte | with_reducible refine onlyEach ?_ ?_ | with_reducible refine onlyFoldl ?_ ?_ | with_reducible apply State.answer_only | with_reducible apply State.clearRc_only | with_reducible apply State.fset_only | (fail_if_no_progress with_reducible apply upd_snap (Closed.mono cl (by decide))) | (fail_if_no_progress with_reducible apply upd_time (Closed.mono cl (by decide))) | dsimp only | split)
  try (have h_s2 : Sat P v_s2 := by repeat' first | with_reducible assumption | exact Closed.mono cl (by decide) | (with_reducible intro _) | with_reducible apply onlyIte | with_reducible refine onlyEach ?_ ?_ | with_reducible refine onlyFoldl ?_ ?_ | with_reducible apply State.answer_only | with_reducible apply State.clearRc_only | with_reducible apply State.fset_only | (fail_if_no_progress with_reducible apply upd_snap (Closed.mono cl (by decide))) | (fail_if_no_progress with_reducible apply upd_time (Closed.mono cl (by decide))) | dsimp only | split)
  repeat' first | with_reducible assumption | exact Closed.mono cl (by decide) | (with_reducible intro _) | with_reducible apply onlyIte | with_reducible refine onlyEach ?_ ?_ | with_reducible refine onlyFoldl ?_ ?_ | with_reducible apply State.answer_only | with_reducible apply State.clearRc_only | with_reducible apply State.fset_only | (fail_if_no_progress with_reducible apply upd_snap (Closed.mono cl (by decide))) | (fail_if_no_progress with_reducible apply upd_time (Closed.mono cl (by decide))) | dsimp only | split

theorem State.readHigh_only {P : State → Prop} (cl : Closed P 0x100000) {s : State} (h : Sat P s) (a : Nat) : Sat P (State.readHigh s a) := by
  unfold State.readHigh
  repeat' first | with_reducible assumption | exact Closed.mono cl (by decide) | (with_reducible intro _) | with_reducible apply onlyIte | with_reducible apply State.answer_only | dsimp only | split

theorem State.readReg_only {P : State → Prop} (cl : Closed P 0x200102041) {s : State} (h : Sat P s) (a : Nat) : Sat P (State.readReg s a) := by
  unfold State.readReg
  repeat' first | with_reducible assumption | exact Closed.mono cl (by decide) | (with_reducible intro _) | with_reducible apply onlyIte | with_reducible apply State.txqPop_only | with_reducible apply State.bwRead_only | with_reducible apply State.readLow_only | with_reducible apply State.readHigh_only | with_reducible apply State.answer_only | with_reducible apply State.fset_only | dsimp only | split

theorem State.readNarrow_only {P : State → Prop} (cl : Closed P 0x100000) {s : State} (h : Sat P s) (a bytes : Nat) : Sat P (State.readNarrow s a bytes) := by
  unfold State.readNarrow
  repeat' first | with_reducible assumption | exact Closed.mono cl (by decide) | (with_reducible intro _) | with_reducible apply onlyIte | with_reducible apply State.answer_only | dsimp only | split

theorem State.plainWord_only {P : State → Prop} (cl : Closed P 0x200000000) {s : State} (h : Sat P s) (a : Nat) (v : W32) : Sat P (State.plainWord s a v) := by
  unfold State.plainWord
  extract_lets +onlyGivenNames v_d v_m
  repeat' first | with_reducible assumption | exact Closed.mono cl (by decide) | (with_reducible intro _) | with_reducible apply onlyIte | with_reducible apply State.setReg_only | dsimp only | split

theorem State.plain_only {P : State → Prop} (cl : Closed P 0x200000000) {s : State} (h : Sat P s) (a : Nat) (vs : List W32) : Sat P (s.plain a vs) := by
  induction vs generalizing s a with
  | nil => exact h
  | cons v vs ih => exact ih (State.plainWord_only (cl.mono rfl) h _ _) _

theorem State.writeHst_only {P : State → Prop} (cl : Closed P 0x200100000) {s : State} (h : Sat P s) (a : Nat) (vs : List W32) : Sat P (State.writeHst s a vs) := by
  unfold State.writeHst
  repeat' first | with_reducible assumption | exact Closed.mono cl (by decide) | (with_reducible intro _) | with_reducible apply onlyIte | with_reducible apply State.dmaCtl_only | with_reducible apply State.dmaTail_only | with_reducible apply State.plain_only | dsimp only | split

theorem State.writeFlt_only {P : State → Prop} (cl : Closed P 0x4204222A00) {s : State} (h : Sat P s) (a : Nat) (vs : List W32) : Sat P (State.writeFlt s a vs) := by
  unfold State.writeFlt
  extract_lets +onlyGivenNames v_v
  repeat' first | with_reducible assumption | exact Closed.mono cl (by decide) | (with_reducible intro _) | with_reducible apply onlyIte | with_reducible refine onlyWhen ?_ ?_ | with_reducible apply State.stopGrace_only | with_reducible apply State.releaseWrite_only | with_reducible apply State.plain_only | with_reducible apply State.injectGo_only | with_reducible apply State.injectWire_only | dsimp only | split

theorem State.writePwr_only {P : State → Prop} (cl : Closed P 0x202000000) {s : State} (h : Sat P s) (a : Nat) (vs : List W32) : Sat P (State.writePwr s a vs) := by
  unfold State.writePwr
  extract_lets +onlyGivenNames v_v
  repeat' first | with_reducible assumption | exact Closed.mono cl (by decide) | (with_reducible intro _) | with_reducible apply onlyIte | with_reducible apply State.plain_only | with_reducible apply State.hostGo_only | with_reducible apply State.wakeAwake_only | with_reducible apply State.domainEnable_only | with_reducible apply State.domainGate_only | dsimp only | split

theorem State.timeCtl_only {P : State → Prop} (cl : Closed P 0x200022000) {s : State} (h : Sat P s) (v : W32) : Sat P (State.timeCtl s v) := by
  unfold State.timeCtl
  extract_lets +onlyGivenNames v_s1 v_s2
  try (have h_s1 : Sat P v_s1 := by repeat' first | with_reducible assumption | exact Closed.mono cl (by decide) | (with_reducible intro _) | with_reducible apply onlyIte | with_reducible refine onlyWhen ?_ ?_ | with_reducible apply State.plainWord_only | with_reducible apply State.todCancel_only | with_reducible apply State.todArm_only | with_reducible apply State.phaseGo_only | dsimp only | split)
  try (have h_s2 : Sat P v_s2 := by repeat' first | with_reducible assumption | exact Closed.mono cl (by decide) | (with_reducible intro _) | with_reducible apply onlyIte | with_reducible refine onlyWhen ?_ ?_ | with_reducible apply State.plainWord_only | with_reducible apply State.todCancel_only | with_reducible apply State.todArm_only | with_reducible apply State.phaseGo_only | dsimp only | split)
  repeat' first | with_reducible assumption | exact Closed.mono cl (by decide) | (with_reducible intro _) | with_reducible apply onlyIte | with_reducible refine onlyWhen ?_ ?_ | with_reducible apply State.plainWord_only | with_reducible apply State.todCancel_only | with_reducible apply State.todArm_only | with_reducible apply State.phaseGo_only | dsimp only | split

theorem State.toutCtl_only {P : State → Prop} (cl : Closed P 0x200002000) {s : State} (h : Sat P s) (n : Nat) (v : W32) : Sat P (State.toutCtl s n v) := by
  unfold State.toutCtl
  extract_lets +onlyGivenNames v_en v_s1
  try (have h_s1 : Sat P v_s1 := by repeat' first | with_reducible assumption | exact Closed.mono cl (by decide) | (with_reducible intro _) | with_reducible apply onlyIte | with_reducible apply State.plainWord_only | with_reducible apply State.setBit_only | with_reducible apply State.toutEnable_only | with_reducible apply State.toutDisable_only | dsimp only | split)
  repeat' first | with_reducible assumption | exact Closed.mono cl (by decide) | (with_reducible intro _) | with_reducible apply onlyIte | with_reducible apply State.plainWord_only | with_reducible apply State.setBit_only | with_reducible apply State.toutEnable_only | with_reducible apply State.toutDisable_only | dsimp only | split

theorem State.writeTime_only {P : State → Prop} (cl : Closed P 0x200022000) {s : State} (h : Sat P s) (a : Nat) (vs : List W32) : Sat P (State.writeTime s a vs) := by
  unfold State.writeTime
  repeat' first | with_reducible assumption | exact Closed.mono cl (by decide) | (with_reducible intro _) | with_reducible apply onlyIte | with_reducible apply State.timeCtl_only | with_reducible apply State.writeFreq_only | with_reducible apply State.toutCtl_only | with_reducible apply State.plain_only | dsimp only | split

theorem State.writePin_only {P : State → Prop} (cl : Closed P 0x220040000) {s : State} (h : Sat P s) (a : Nat) (vs : List W32) : Sat P (State.writePin s a vs) := by
  unfold State.writePin
  repeat' first | with_reducible assumption | exact Closed.mono cl (by decide) | (with_reducible intro _) | with_reducible apply onlyIte | with_reducible apply State.pinLock_only | with_reducible apply State.pinCfg_only | with_reducible apply State.pinEnable_only | with_reducible apply State.plain_only | dsimp only | split

theorem State.writeCfg_only {P : State → Prop} (cl : Closed P 0xA29D3C7EC) {s : State} (h : Sat P s) (a : Nat) (vs : List W32) : Sat P (State.writeCfg s a vs) := by
  unfold State.writeCfg
  extract_lets +onlyGivenNames v_v v_s1
  try (have h_s1 : Sat P v_s1 := by repeat' first | with_reducible assumption | exact Closed.mono cl (by decide) | (with_reducible intro _) | with_reducible apply onlyIte | with_reducible refine onlyWhen ?_ ?_ | with_reducible apply State.plain_only | with_reducible apply State.cfgLoad_only | with_reducible apply State.partGo_only | with_reducible apply State.partHold_only | with_reducible apply State.nvmGo_only | dsimp only | split)
  repeat' first | with_reducible assumption | exact Closed.mono cl (by decide) | (with_reducible intro _) | with_reducible apply onlyIte | with_reducible refine onlyWhen ?_ ?_ | with_reducible apply State.plain_only | with_reducible apply State.cfgLoad_only | with_reducible apply State.partGo_only | with_reducible apply State.partHold_only | with_reducible apply State.nvmGo_only | dsimp only | split

theorem State.writeSec_only {P : State → Prop} (cl : Closed P 0x208000000) {s : State} (h : Sat P s) (a : Nat) (vs : List W32) : Sat P (State.writeSec s a vs) := by
  unfold State.writeSec
  extract_lets +onlyGivenNames v_v
  repeat' first | with_reducible assumption | exact Closed.mono cl (by decide) | (with_reducible intro _) | with_reducible apply onlyIte | with_reducible refine onlyWhen ?_ ?_ | with_reducible apply State.attestGo_only | with_reducible apply State.plain_only | with_reducible apply State.rbAdvance_only | with_reducible apply State.fuseProgram_only | dsimp only | split

theorem State.writeSpl_only {P : State → Prop} (cl : Closed P 0x200020904) {s : State} (h : Sat P s) (a : Nat) (vs : List W32) : Sat P (State.writeSpl s a vs) := by
  unfold State.writeSpl
  extract_lets +onlyGivenNames v_v
  repeat' first | with_reducible assumption | exact Closed.mono cl (by decide) | (with_reducible intro _) | with_reducible apply onlyIte | with_reducible refine onlyWhen ?_ ?_ | with_reducible apply State.setBit_only | with_reducible apply State.linkEn_only | with_reducible apply State.relinquish_only | with_reducible apply State.plain_only | dsimp only | split

theorem State.traceCtl_only {P : State → Prop} (cl : Closed P 0x700001840) {s : State} (h : Sat P s) (v : W32) : Sat P (State.traceCtl s v) := by
  unfold State.traceCtl
  extract_lets +onlyGivenNames v_en v_s1 v_s2
  try (have h_s1 : Sat P v_s1 := by repeat' first | with_reducible assumption | exact Closed.mono cl (by decide) | (with_reducible intro _) | with_reducible apply onlyIte | with_reducible refine onlyWhen ?_ ?_ | with_reducible apply State.plainWord_only | with_reducible apply State.setBit_only | with_reducible apply State.traceEnable_only | with_reducible apply State.traceDisable_only | with_reducible apply State.traceFlush_only | dsimp only | split)
  try (have h_s2 : Sat P v_s2 := by repeat' first | with_reducible assumption | exact Closed.mono cl (by decide) | (with_reducible intro _) | with_reducible apply onlyIte | with_reducible refine onlyWhen ?_ ?_ | with_reducible apply State.plainWord_only | with_reducible apply State.setBit_only | with_reducible apply State.traceEnable_only | with_reducible apply State.traceDisable_only | with_reducible apply State.traceFlush_only | dsimp only | split)
  repeat' first | with_reducible assumption | exact Closed.mono cl (by decide) | (with_reducible intro _) | with_reducible apply onlyIte | with_reducible refine onlyWhen ?_ ?_ | with_reducible apply State.plainWord_only | with_reducible apply State.setBit_only | with_reducible apply State.traceEnable_only | with_reducible apply State.traceDisable_only | with_reducible apply State.traceFlush_only | dsimp only | split

theorem State.writeTrc_only {P : State → Prop} (cl : Closed P 0x700001840) {s : State} (h : Sat P s) (a : Nat) (vs : List W32) : Sat P (State.writeTrc s a vs) := by
  unfold State.writeTrc
  repeat' first | with_reducible assumption | exact Closed.mono cl (by decide) | (with_reducible intro _) | with_reducible apply onlyIte | with_reducible apply State.traceCtl_only | with_reducible apply State.plain_only | dsimp only | split

theorem State.writeTurn_only {P : State → Prop} (cl : Closed P 0x200020004) {s : State} (h : Sat P s) (a : Nat) (vs : List W32) : Sat P (State.writeTurn s a vs) := by
  unfold State.writeTurn
  extract_lets +onlyGivenNames v_v
  repeat' first | with_reducible assumption | exact Closed.mono cl (by decide) | (with_reducible intro _) | with_reducible apply onlyIte | with_reducible refine onlyWhen ?_ ?_ | with_reducible apply State.plain_only | with_reducible apply State.haltNow_only | with_reducible apply State.stepNow_only | with_reducible apply State.relockNow_only | with_reducible apply State.realignNow_only | with_reducible apply State.fset_only | dsimp only | split

theorem State.laneCtl_only {P : State → Prop} (cl : Closed P 0x200000904) {s : State} (h : Sat P s) (n : Nat) (v : W32) : Sat P (State.laneCtl s n v) := by
  unfold State.laneCtl
  repeat' first | with_reducible assumption | exact Closed.mono cl (by decide) | (with_reducible intro _) | with_reducible apply onlyIte | with_reducible apply State.fset_only | with_reducible apply State.setBit_only | with_reducible apply State.laneEnable_only | with_reducible apply State.laneDisable_only | dsimp only | split

theorem State.calPinned_only {P : State → Prop} (cl : Closed P 0x200000900) {s : State} (h : Sat P s) (n : Nat) (thr : Bool) (vs : List W32) : Sat P (s.calPinned n thr vs) := by
  unfold State.calPinned
  exact State.calConflict_only (cl.mono rfl) (onlyEach (State.plain_only (cl.mono rfl) h _ _) fun _ _ ht =>
    State.calChange_only (cl.mono rfl) ht _ _) _

theorem State.writeLane_only {P : State → Prop} (cl : Closed P 0x200000904) {s : State} (h : Sat P s) (a : Nat) (vs : List W32) : Sat P (State.writeLane s a vs) := by
  unfold State.writeLane
  extract_lets +onlyGivenNames v_n v_o v_v
  repeat' first | with_reducible assumption | exact Closed.mono cl (by decide) | (with_reducible intro _) | with_reducible apply onlyIte | with_reducible refine onlyWhen ?_ ?_ | with_reducible apply State.laneCtl_only | with_reducible apply State.plain_only | with_reducible apply State.chkClear_only | with_reducible apply State.fset_only | with_reducible apply State.calPin_only | with_reducible apply State.calPinned_only | with_reducible apply State.calConflict_only | with_reducible apply State.scanStart_only | with_reducible apply State.scanAbort_only | dsimp only | split

theorem State.seqCtl_only {P : State → Prop} (cl : Closed P 0x600024E40) {s : State} (h : Sat P s) (n : Nat) (v : W32) : Sat P (State.seqCtl s n v) := by
  unfold State.seqCtl
  extract_lets +onlyGivenNames v_s1
  try (have h_s1 : Sat P v_s1 := by repeat' first | with_reducible assumption | exact Closed.mono cl (by decide) | (with_reducible intro _) | with_reducible apply onlyIte | with_reducible refine onlyWhen ?_ ?_ | with_reducible apply State.setBit_only | with_reducible apply State.seqStop_only | with_reducible apply State.seqStart_only | dsimp only | split)
  repeat' first | with_reducible assumption | exact Closed.mono cl (by decide) | (with_reducible intro _) | with_reducible apply onlyIte | with_reducible refine onlyWhen ?_ ?_ | with_reducible apply State.setBit_only | with_reducible apply State.seqStop_only | with_reducible apply State.seqStart_only | dsimp only | split

theorem State.writeCap_only {P : State → Prop} (cl : Closed P 0x200004200) {s : State} (h : Sat P s) (a : Nat) (vs : List W32) : Sat P (State.writeCap s a vs) := by
  unfold State.writeCap
  extract_lets +onlyGivenNames v_n v_o v_v
  repeat' first | with_reducible assumption | exact Closed.mono cl (by decide) | (with_reducible intro _) | with_reducible apply onlyIte | with_reducible apply State.capCommand_only | with_reducible apply State.plain_only | dsimp only | split

theorem State.writeTrg_only {P : State → Prop} (cl : Closed P 0x600024E40) {s : State} (h : Sat P s) (a : Nat) (vs : List W32) : Sat P (State.writeTrg s a vs) := by
  unfold State.writeTrg
  extract_lets +onlyGivenNames v_v
  repeat' first | with_reducible assumption | exact Closed.mono cl (by decide) | (with_reducible intro _) | with_reducible apply onlyIte | with_reducible refine onlyEach ?_ ?_ | with_reducible refine onlyWhen ?_ ?_ | with_reducible apply State.thaw_only | with_reducible apply State.soft_only | with_reducible apply State.capCommand_only | with_reducible apply State.seqCtl_only | with_reducible apply State.plain_only | with_reducible apply State.cntReset_only | with_reducible apply State.writeCap_only | dsimp only | split

theorem State.patCtl_only {P : State → Prop} (cl : Closed P 0x200004400) {s : State} (h : Sat P s) (n : Nat) (v : W32) : Sat P (State.patCtl s n v) := by
  unfold State.patCtl
  extract_lets +onlyGivenNames v_src v_s1 v_s2
  try (have h_s1 : Sat P v_s1 := by repeat' first | with_reducible assumption | exact Closed.mono cl (by decide) | (with_reducible intro _) | with_reducible apply onlyIte | with_reducible refine onlyWhen ?_ ?_ | with_reducible apply State.patSource_only | with_reducible apply State.patEnable_only | with_reducible apply State.patDisable_only | with_reducible apply State.patGo_only | dsimp only | split)
  try (have h_s2 : Sat P v_s2 := by repeat' first | with_reducible assumption | exact Closed.mono cl (by decide) | (with_reducible intro _) | with_reducible apply onlyIte | with_reducible refine onlyWhen ?_ ?_ | with_reducible apply State.patSource_only | with_reducible apply State.patEnable_only | with_reducible apply State.patDisable_only | with_reducible apply State.patGo_only | dsimp only | split)
  repeat' first | with_reducible assumption | exact Closed.mono cl (by decide) | (with_reducible intro _) | with_reducible apply onlyIte | with_reducible refine onlyWhen ?_ ?_ | with_reducible apply State.patSource_only | with_reducible apply State.patEnable_only | with_reducible apply State.patDisable_only | with_reducible apply State.patGo_only | dsimp only | split

theorem State.writeAct_only {P : State → Prop} (cl : Closed P 0x200000000) {s : State} (h : Sat P s) (a : Nat) (vs : List W32) : Sat P (State.writeAct s a vs) := by
  unfold State.writeAct
  repeat' first | with_reducible assumption | exact Closed.mono cl (by decide) | (with_reducible intro _) | with_reducible apply onlyIte | with_reducible apply State.setFlags_only | with_reducible apply State.plain_only | dsimp only | split

theorem State.writeValue_only {P : State → Prop} (cl : Closed P 0x4F2FF7FFEC) {s : State} (h : Sat P s) (master : MasterId) (a : Nat) (vs : List W32) : Sat P (State.writeValue s master a vs) := by
  unfold State.writeValue
  repeat' first | with_reducible assumption | exact Closed.mono cl (by decide) | (with_reducible intro _) | with_reducible apply onlyIte | with_reducible refine onlyWhen ?_ ?_ | with_reducible apply State.writeHst_only | with_reducible apply State.writeFlt_only | with_reducible apply State.writePwr_only | with_reducible apply State.writeTime_only | with_reducible apply State.writePin_only | with_reducible apply State.writeCfg_only | with_reducible apply State.writeSec_only | with_reducible apply State.writeSpl_only | with_reducible apply State.writeTrc_only | with_reducible apply State.plain_only | with_reducible apply State.clearProbe_only | with_reducible apply State.writeTurn_only | with_reducible apply State.writeLane_only | with_reducible apply State.writeTrg_only | with_reducible apply State.patCtl_only | with_reducible apply State.writeAct_only | with_reducible apply State.requestBank_only | dsimp only | split

theorem State.writeReg_only {P : State → Prop} (cl : Closed P 0x4F2FF7FFEE) {s : State} (h : Sat P s) (master : MasterId) (a : Nat) (v : W32) : Sat P (State.writeReg s master a v) := by
  unfold State.writeReg
  repeat' first | with_reducible assumption | exact Closed.mono cl (by decide) | (with_reducible intro _) | with_reducible apply onlyIte | with_reducible apply State.hostPost_only | with_reducible apply State.writeValue_only | (fail_if_no_progress with_reducible apply upd_staged (Closed.mono cl (by decide))) | dsimp only | split

theorem State.readSized_only {P : State → Prop} (cl : Closed P 0x200102041) {s : State} (h : Sat P s) (a bytes : Nat) : Sat P (State.readSized s a bytes) := by
  unfold State.readSized
  repeat' first | with_reducible assumption | exact Closed.mono cl (by decide) | (with_reducible intro _) | with_reducible apply onlyIte | with_reducible apply State.readReg_only | with_reducible apply State.readNarrow_only | dsimp only | split

theorem State.writeSized_only {P : State → Prop} (cl : Closed P 0x4F2FF7FFEE) {s : State} (h : Sat P s) (master : MasterId) (a bytes : Nat) (v : W32) : Sat P (State.writeSized s master a bytes v) := by
  unfold State.writeSized
  repeat' first | with_reducible assumption | exact Closed.mono cl (by decide) | (with_reducible intro _) | with_reducible apply onlyIte | with_reducible apply State.writeReg_only | dsimp only | split

theorem State.awayRead_only {P : State → Prop} (cl : Closed P 0x100100000) {s : State} (h : Sat P s) (a : Nat) : Sat P (State.awayRead s a) := by
  unfold State.awayRead
  repeat' first | with_reducible assumption | exact Closed.mono cl (by decide) | (with_reducible intro _) | with_reducible apply onlyIte | with_reducible apply State.answer_only | with_reducible apply State.drawn_only | (fail_if_no_progress with_reducible apply upd_host (Closed.mono cl (by decide))) | dsimp only | split

theorem State.readVia_only {P : State → Prop} (cl : Closed P 0x300001040) {s : State} (h : Sat P s) (master : MasterId) (a : Nat) (f : State → State) (hf : ∀ t, Sat P t → Sat P (f t)) : Sat P (State.readVia s master a f) := by
  unfold State.readVia
  repeat' first | with_reducible assumption | exact Closed.mono cl (by decide) | (with_reducible intro _) | with_reducible apply onlyIte | with_reducible apply hf | with_reducible apply State.transact_only | dsimp only | split

theorem State.hostRead_only {P : State → Prop} (cl : Closed P 0x302103041) {s : State} (h : Sat P s) (a bytes : Nat) : Sat P (State.hostRead s a bytes) := by
  unfold State.hostRead
  repeat' first | with_reducible assumption | exact Closed.mono cl (by decide) | (with_reducible intro _) | with_reducible apply onlyIte | with_reducible apply State.awayRead_only | with_reducible apply State.hostGet_only | with_reducible apply State.answer_only | with_reducible apply State.busError_only | with_reducible apply State.trainLink_only | with_reducible apply State.hostPark_only | with_reducible apply State.readVia_only | with_reducible apply State.readSized_only | dsimp only | split

theorem State.innerRead_only {P : State → Prop} (cl : Closed P 0x200102041) {s : State} (h : Sat P s) (a bytes : Nat) : Sat P (State.innerRead s a bytes) := by
  unfold State.innerRead
  repeat' first | with_reducible assumption | exact Closed.mono cl (by decide) | (with_reducible intro _) | with_reducible apply onlyIte | with_reducible apply State.answer_only | with_reducible apply State.count_only | with_reducible apply State.readSized_only | (fail_if_no_progress with_reducible apply upd_host (Closed.mono cl (by decide))) | dsimp only | split

theorem State.innerWrite_only {P : State → Prop} (cl : Closed P 0x4F2FF7FFEE) {s : State} (h : Sat P s) (master : MasterId) (a bytes : Nat) (v : W32) : Sat P (State.innerWrite s master a bytes v) := by
  unfold State.innerWrite
  repeat' first | with_reducible assumption | exact Closed.mono cl (by decide) | (with_reducible intro _) | with_reducible apply onlyIte | with_reducible apply State.count_only | with_reducible apply State.writeSized_only | dsimp only | split

theorem State.hostStore_only {P : State → Prop} (cl : Closed P 0x4F2FF7FFEE) {s : State} (h : Sat P s) (a bytes : Nat) (v : W32) : Sat P (State.hostStore s a bytes v) := by
  unfold State.hostStore
  repeat' first | with_reducible assumption | exact Closed.mono cl (by decide) | (with_reducible intro _) | with_reducible apply onlyIte | with_reducible apply State.trainLink_only | with_reducible apply State.hostPark_only | with_reducible apply State.transact_only | with_reducible apply State.writeReg_only | with_reducible apply State.hostCmd_only | with_reducible apply State.busError_only | with_reducible apply State.writeSized_only | dsimp only | split

theorem execRegisterWrite_only {P : State → Prop} (cl : Closed P 0x4F2FF7FFEE) {s : State} (h : Sat P s) (master : MasterId) (addr v : W32) (bytes : BitVec 3) : OnlyO P (execRegisterWrite master addr v bytes s) := by
  unfold execRegisterWrite
  repeat' first | with_reducible assumption | exact Closed.mono cl (by decide) | (with_reducible intro _) | with_reducible apply onlyIte | with_reducible apply onlyIteO | with_reducible apply onlyNext | with_reducible apply State.watch_only | with_reducible apply State.hostStore_only | with_reducible apply State.transact_only | with_reducible apply State.innerWrite_only | dsimp only | split

theorem execRegisterRead_only {P : State → Prop} (cl : Closed P 0x302103041) {s : State} (h : Sat P s) (master : MasterId) (addr : W32) (bytes : BitVec 3) : OnlyO P (execRegisterRead master addr bytes s) := by
  unfold execRegisterRead
  repeat' first | with_reducible assumption | exact Closed.mono cl (by decide) | (with_reducible intro _) | with_reducible apply onlyIte | with_reducible apply onlyIteO | with_reducible apply onlyNext | with_reducible apply State.watch_only | with_reducible apply State.hostRead_only | with_reducible apply State.answer_only | with_reducible apply State.readVia_only | with_reducible apply State.innerRead_only | dsimp only | split

theorem execDmaTail_only {P : State → Prop} (cl : Closed P 0x302101040) {s : State} (h : Sat P s) (e : BitVec 4) (v : W32) : OnlyO P (execDmaTail e v s) := by
  unfold execDmaTail
  repeat' first | with_reducible assumption | exact Closed.mono cl (by decide) | (with_reducible intro _) | with_reducible apply onlyIte | with_reducible apply onlyIteO | with_reducible apply onlyNext | with_reducible apply State.hostCmd_only | with_reducible apply State.watch_only | with_reducible apply State.dmaTail_only | dsimp only | split

theorem execDmaDescriptorDone_only {P : State → Prop} (cl : Closed P 0x300101840) {s : State} (h : Sat P s) (e : BitVec 4) (desc : Bytes) : OnlyO P (execDmaDescriptorDone e desc s) := by
  unfold execDmaDescriptorDone
  repeat' first | with_reducible assumption | exact Closed.mono cl (by decide) | (with_reducible intro _) | with_reducible apply onlyIte | with_reducible apply onlyIteO | with_reducible apply onlyNext | with_reducible apply State.watch_only | with_reducible apply State.dmaDone_only | dsimp only | split

theorem execDmaEnable_only {P : State → Prop} (cl : Closed P 0x302101040) {s : State} (h : Sat P s) (e : BitVec 4) : OnlyO P (execDmaEnable e s) := by
  unfold execDmaEnable
  repeat' first | with_reducible assumption | exact Closed.mono cl (by decide) | (with_reducible intro _) | with_reducible apply onlyIte | with_reducible apply onlyIteO | with_reducible apply onlyNext | with_reducible apply State.hostCmd_only | with_reducible apply State.dmaEnable_only | dsimp only | split

theorem execDmaDisable_only {P : State → Prop} (cl : Closed P 0x302101040) {s : State} (h : Sat P s) (e : BitVec 4) : OnlyO P (execDmaDisable e s) := by
  unfold execDmaDisable
  repeat' first | with_reducible assumption | exact Closed.mono cl (by decide) | (with_reducible intro _) | with_reducible apply onlyIte | with_reducible apply onlyIteO | with_reducible apply onlyNext | with_reducible apply State.hostCmd_only | with_reducible apply State.dmaDisable_only | dsimp only | split

theorem execPciePerstN_only {P : State → Prop} (cl : Closed P 0x100000) {s : State} (h : Sat P s) (asserted : Bool) : OnlyO P (execPciePerstN asserted s) := by
  unfold execPciePerstN
  repeat' first | with_reducible assumption | exact Closed.mono cl (by decide) | (with_reducible intro _) | with_reducible apply onlyIte | with_reducible apply onlyIteO | with_reducible apply onlyNext | (fail_if_no_progress with_reducible apply upd_host (Closed.mono cl (by decide))) | dsimp only | split

theorem State.scriptNext_only {P : State → Prop} (cl : Closed P 0x200400000) {s : State} (h : Sat P s)  : Sat P (State.scriptNext s) := by
  unfold State.scriptNext
  extract_lets +onlyGivenNames v_s1
  try (have h_s1 : Sat P v_s1 := by repeat' first | with_reducible assumption | exact Closed.mono cl (by decide) | (with_reducible intro _) | with_reducible apply onlyIte | with_reducible apply State.afterPre_only | (fail_if_no_progress with_reducible apply upd_load (Closed.mono cl (by decide))) | dsimp only | split)
  repeat' first | with_reducible assumption | exact Closed.mono cl (by decide) | (with_reducible intro _) | with_reducible apply onlyIte | with_reducible apply State.afterPre_only | (fail_if_no_progress with_reducible apply upd_load (Closed.mono cl (by decide))) | dsimp only | split

theorem State.scriptFail_only {P : State → Prop} (cl : Closed P 0x200400000) {s : State} (h : Sat P s)  : Sat P (State.scriptFail s) := by
  unfold State.scriptFail
  repeat' first | with_reducible assumption | exact Closed.mono cl (by decide) | (with_reducible intro _) | with_reducible apply onlyIte | with_reducible apply State.refuseLoad_only | dsimp only | split

theorem State.scriptRead_only {P : State → Prop} (cl : Closed P 0x300103041) {s : State} (h : Sat P s) (a : Nat) : Sat P (State.scriptRead s a) := by
  unfold State.scriptRead
  repeat' first | with_reducible assumption | exact Closed.mono cl (by decide) | (with_reducible intro _) | with_reducible apply onlyIte | with_reducible apply State.readVia_only | with_reducible apply State.innerRead_only | dsimp only | split

theorem State.scriptStore_only {P : State → Prop} (cl : Closed P 0x4F2FF7FFEE) {s : State} (h : Sat P s) (a : Nat) (v : W32) : Sat P (State.scriptStore s a v) := by
  unfold State.scriptStore
  repeat' first | with_reducible assumption | exact Closed.mono cl (by decide) | (with_reducible intro _) | with_reducible apply onlyIte | with_reducible apply State.transact_only | with_reducible apply State.innerWrite_only | dsimp only | split

theorem State.scriptWrite_only {P : State → Prop} (cl : Closed P 0x4F2FF7FFEF) {s : State} (h : Sat P s)  : Sat P (State.scriptWrite s) := by
  unfold State.scriptWrite
  extract_lets +onlyGivenNames v_r v_a v_m
  repeat' first | with_reducible assumption | exact Closed.mono cl (by decide) | (with_reducible intro _) | with_reducible apply onlyIte | with_reducible apply State.scriptFail_only | with_reducible apply State.scriptStore_only | with_reducible apply State.scriptNext_only | with_reducible apply State.scriptRead_only | dsimp only | split

theorem State.scriptPoll_only {P : State → Prop} (cl : Closed P 0x300503041) {s : State} (h : Sat P s)  : Sat P (State.scriptPoll s) := by
  unfold State.scriptPoll
  extract_lets +onlyGivenNames v_r v_s1
  try (have h_s1 : Sat P v_s1 := by repeat' first | with_reducible assumption | exact Closed.mono cl (by decide) | (with_reducible intro _) | with_reducible apply onlyIte | with_reducible apply State.scriptRead_only | with_reducible apply State.scriptNext_only | dsimp only | split)
  repeat' first | with_reducible assumption | exact Closed.mono cl (by decide) | (with_reducible intro _) | with_reducible apply onlyIte | with_reducible apply State.scriptRead_only | with_reducible apply State.scriptNext_only | dsimp only | split

theorem State.scriptCommit_only {P : State → Prop} (cl : Closed P 0x1F2CE38AEC) {s : State} (h : Sat P s)  : Sat P (State.scriptCommit s) := by
  unfold State.scriptCommit
  extract_lets +onlyGivenNames v_t
  try (have h_t : Sat P v_t := by repeat' first | with_reducible assumption | exact Closed.mono cl (by decide) | (with_reducible intro _) | with_reducible apply onlyIte | with_reducible apply State.commitImage_only | (fail_if_no_progress with_reducible apply upd_load (Closed.mono cl (by decide))) | dsimp only | split)
  repeat' first | with_reducible assumption | exact Closed.mono cl (by decide) | (with_reducible intro _) | with_reducible apply onlyIte | with_reducible apply State.commitImage_only | (fail_if_no_progress with_reducible apply upd_load (Closed.mono cl (by decide))) | dsimp only | split

theorem State.scriptEnd_only {P : State → Prop} (cl : Closed P 0x400000) {s : State} (h : Sat P s)  : Sat P (State.scriptEnd s) := by
  unfold State.scriptEnd
  repeat' first | with_reducible assumption | exact Closed.mono cl (by decide) | (with_reducible intro _) | with_reducible apply onlyIte | (fail_if_no_progress with_reducible apply upd_load (Closed.mono cl (by decide))) | dsimp only | split

theorem execScriptWrite_only {P : State → Prop} (cl : Closed P 0x4F2FF7FFEF) {s : State} (h : Sat P s)  : OnlyO P (execScriptWrite s) := by
  unfold execScriptWrite
  repeat' first | with_reducible assumption | exact Closed.mono cl (by decide) | (with_reducible intro _) | with_reducible apply onlyIte | with_reducible apply onlyIteO | with_reducible apply onlyNext | with_reducible apply State.watch_only | with_reducible apply State.scriptWrite_only | dsimp only | split

theorem execScriptWait_only {P : State → Prop} (cl : Closed P 0x200400000) {s : State} (h : Sat P s)  : OnlyO P (execScriptWait s) := by
  unfold execScriptWait
  repeat' first | with_reducible assumption | exact Closed.mono cl (by decide) | (with_reducible intro _) | with_reducible apply onlyIte | with_reducible apply onlyIteO | with_reducible apply onlyNext | with_reducible apply State.watch_only | with_reducible apply State.scriptNext_only | dsimp only | split

theorem execScriptPoll_only {P : State → Prop} (cl : Closed P 0x300503041) {s : State} (h : Sat P s)  : OnlyO P (execScriptPoll s) := by
  unfold execScriptPoll
  repeat' first | with_reducible assumption | exact Closed.mono cl (by decide) | (with_reducible intro _) | with_reducible apply onlyIte | with_reducible apply onlyIteO | with_reducible apply onlyNext | with_reducible apply State.watch_only | with_reducible apply State.scriptPoll_only | dsimp only | split

theorem execScriptPollTimeout_only {P : State → Prop} (cl : Closed P 0x200400000) {s : State} (h : Sat P s)  : OnlyO P (execScriptPollTimeout s) := by
  unfold execScriptPollTimeout
  repeat' first | with_reducible assumption | exact Closed.mono cl (by decide) | (with_reducible intro _) | with_reducible apply onlyIte | with_reducible apply onlyIteO | with_reducible apply onlyNext | with_reducible apply State.watch_only | with_reducible apply State.scriptFail_only | dsimp only | split

theorem execScriptCommit_only {P : State → Prop} (cl : Closed P 0x1F2CE38AEC) {s : State} (h : Sat P s)  : OnlyO P (execScriptCommit s) := by
  unfold execScriptCommit
  repeat' first | with_reducible assumption | exact Closed.mono cl (by decide) | (with_reducible intro _) | with_reducible apply onlyIte | with_reducible apply onlyIteO | with_reducible apply onlyNext | with_reducible apply State.watch_only | with_reducible apply State.scriptCommit_only | dsimp only | split

theorem execScriptEnd_only {P : State → Prop} (cl : Closed P 0x400000) {s : State} (h : Sat P s)  : OnlyO P (execScriptEnd s) := by
  unfold execScriptEnd
  repeat' first | with_reducible assumption | exact Closed.mono cl (by decide) | (with_reducible intro _) | with_reducible apply onlyIte | with_reducible apply onlyIteO | with_reducible apply onlyNext | with_reducible apply State.scriptEnd_only | dsimp only | split

theorem State.respond_only {P : State → Prop} (cl : Closed P 0x100000040) {s : State} (h : Sat P s) (p : Packet) (data : Bool) (status : Nat) (payload : List W128) : Sat P (State.respond s p data status payload) := by
  unfold State.respond
  repeat' first | with_reducible assumption | exact Closed.mono cl (by decide) | (with_reducible intro _) | with_reducible apply onlyIte | with_reducible apply State.drawn_only | (fail_if_no_progress with_reducible apply upd_ring (Closed.mono cl (by decide))) | dsimp only | split

theorem State.acked_only {P : State → Prop} (cl : Closed P 0x100000040) {s : State} (h : Sat P s) (p : Packet) (posted : Bool) (status : Nat) : Sat P (State.acked s p posted status) := by
  unfold State.acked
  repeat' first | with_reducible assumption | exact Closed.mono cl (by decide) | (with_reducible intro _) | with_reducible apply onlyIte | with_reducible apply State.respond_only | dsimp only | split

theorem State.wordRead_only {P : State → Prop} (cl : Closed P 0x200102041) {s : State} (h : Sat P s) (w : Nat × Nat) : Sat P (State.wordRead s w).1 := by
  unfold State.wordRead
  repeat' first | with_reducible assumption | exact Closed.mono cl (by decide) | (with_reducible intro _) | with_reducible apply onlyIte | with_reducible apply onlyIteFst | with_reducible apply State.innerRead_only | dsimp only | split

theorem State.wordReads_only {P : State → Prop} (cl : Closed P 0x300102041) {s : State} (h : Sat P s) (l : List (Nat × Nat)) : Sat P (s.wordReads l).1 := by
  induction l generalizing s with
  | nil => exact h
  | cons p l ih => exact ih (State.wordRead_only (cl.mono rfl) h _)

theorem State.regsRead_only {P : State → Prop} (cl : Closed P 0x300102041) {s : State} (h : Sat P s) (p : Packet) : Sat P (s.regsRead p) :=
  State.respond_only (cl.mono rfl) (upd_host (cl.mono rfl) (State.wordReads_only (cl.mono rfl) h _)) _ _ _ _

theorem State.regsWrite_only {P : State → Prop} (cl : Closed P 0x4F2FF7FFEE) {s : State} (h : Sat P s) (p : Packet) (posted : Bool) : Sat P (State.regsWrite s p posted) := by
  unfold State.regsWrite
  extract_lets +onlyGivenNames v_s1
  try (have h_s1 : Sat P v_s1 := by repeat' first | with_reducible assumption | exact Closed.mono cl (by decide) | (with_reducible intro _) | with_reducible apply onlyIte | with_reducible refine onlyEach ?_ ?_ | with_reducible apply State.innerWrite_only | with_reducible apply State.acked_only | dsimp only | split)
  repeat' first | with_reducible assumption | exact Closed.mono cl (by decide) | (with_reducible intro _) | with_reducible apply onlyIte | with_reducible refine onlyEach ?_ ?_ | with_reducible apply State.innerWrite_only | with_reducible apply State.acked_only | dsimp only | split

theorem State.refusedAccess_only {P : State → Prop} (cl : Closed P 0x200000800) {s : State} (h : Sat P s) (p : Packet) (acc : Nat) : Sat P (State.refusedAccess s p acc) := by
  unfold State.refusedAccess
  extract_lets +onlyGivenNames v_a
  repeat' first | with_reducible assumption | exact Closed.mono cl (by decide) | (with_reducible intro _) | with_reducible apply onlyIte | with_reducible apply State.nonOwner_only | with_reducible apply State.regionDenied_only | dsimp only | split

theorem State.readGranted_only {P : State → Prop} (cl : Closed P 0x100000040) {s : State} (h : Sat P s) (p : Packet) : Sat P (State.readGranted s p) := by
  unfold State.readGranted
  repeat' first | with_reducible assumption | exact Closed.mono cl (by decide) | (with_reducible intro _) | with_reducible apply onlyIte | with_reducible apply State.respond_only | dsimp only | split

theorem State.writeGranted_only {P : State → Prop} (cl : Closed P 0x500000040) {s : State} (h : Sat P s) (p : Packet) (posted : Bool) : Sat P (State.writeGranted s p posted) := by
  unfold State.writeGranted
  repeat' first | with_reducible assumption | exact Closed.mono cl (by decide) | (with_reducible intro _) | with_reducible apply onlyIte | with_reducible apply State.wrEnabled_only | with_reducible apply State.acked_only | dsimp only | split

theorem State.waitIn_only {P : State → Prop} (cl : Closed P 0x40) {s : State} (h : Sat P s) (p : Packet) (write posted : Bool) : Sat P (State.waitIn s p write posted) := by
  unfold State.waitIn
  repeat' first | with_reducible assumption | exact Closed.mono cl (by decide) | (with_reducible intro _) | with_reducible apply onlyIte | (fail_if_no_progress with_reducible apply upd_ring (Closed.mono cl (by decide))) | dsimp only | split

theorem State.targetRead_only {P : State → Prop} (cl : Closed P 0x300102841) {s : State} (h : Sat P s) (p : Packet) : Sat P (State.targetRead s p) := by
  unfold State.targetRead
  repeat' first | with_reducible assumption | exact Closed.mono cl (by decide) | (with_reducible intro _) | with_reducible apply onlyIte | with_reducible apply State.readGranted_only | with_reducible apply State.waitIn_only | with_reducible apply State.refusedAccess_only | with_reducible apply State.respond_only | with_reducible apply State.count_only | with_reducible apply State.regsRead_only | dsimp only | split

theorem State.asleepWrite_only {P : State → Prop} (cl : Closed P 0x300000840) {s : State} (h : Sat P s) (p : Packet) (posted : Bool) : Sat P (State.asleepWrite s p posted) := by
  unfold State.asleepWrite
  repeat' first | with_reducible assumption | exact Closed.mono cl (by decide) | (with_reducible intro _) | with_reducible apply onlyIte | with_reducible apply State.droppedAsleep_only | with_reducible apply State.count_only | with_reducible apply State.respond_only | dsimp only | split

theorem State.targetWrite_only {P : State → Prop} (cl : Closed P 0x4F2FF7FFEE) {s : State} (h : Sat P s) (p : Packet) (posted : Bool) : Sat P (State.targetWrite s p posted) := by
  unfold State.targetWrite
  repeat' first | with_reducible assumption | exact Closed.mono cl (by decide) | (with_reducible intro _) | with_reducible apply onlyIte | with_reducible apply State.writeGranted_only | with_reducible apply State.waitIn_only | with_reducible apply State.refusedAccess_only | with_reducible apply State.acked_only | with_reducible apply State.asleepWrite_only | with_reducible apply State.regsWrite_only | dsimp only | split

theorem State.targetStream_only {P : State → Prop} (cl : Closed P 0x200000800) {s : State} (h : Sat P s) (p : Packet) : Sat P (State.targetStream s p) := by
  unfold State.targetStream
  repeat' first | with_reducible assumption | exact Closed.mono cl (by decide) | (with_reducible intro _) | with_reducible apply onlyIte | with_reducible apply State.droppedAsleep_only | dsimp only | split

theorem State.target_only {P : State → Prop} (cl : Closed P 0x4F2FF7FFEF) {s : State} (h : Sat P s) (op : Nat) (p : Packet) : Sat P (State.target s op p) := by
  unfold State.target
  repeat' first | with_reducible assumption | exact Closed.mono cl (by decide) | (with_reducible intro _) | with_reducible apply onlyIte | with_reducible apply State.targetRead_only | with_reducible apply State.targetWrite_only | with_reducible apply State.targetStream_only | dsimp only | split

theorem State.carry_only {P : State → Prop} (cl : Closed P 0x200001040) {s : State} (h : Sat P s) (op : Nat) (p : Packet) (f : State → State) (hf : ∀ t, Sat P t → Sat P (f t)) : Sat P (State.carry s op p f) := by
  unfold State.carry
  repeat' first | with_reducible assumption | exact Closed.mono cl (by decide) | (with_reducible intro _) | with_reducible apply onlyIte | with_reducible apply hf | with_reducible apply State.seeRequest_only | dsimp only | split

theorem State.park_only {P : State → Prop} (cl : Closed P 0x40) {s : State} (h : Sat P s) (op : Nat) (p : Packet) : Sat P (State.park s op p) := by
  unfold State.park
  repeat' first | with_reducible assumption | exact Closed.mono cl (by decide) | (with_reducible intro _) | with_reducible apply onlyIte | (fail_if_no_progress with_reducible apply upd_ring (Closed.mono cl (by decide))) | dsimp only | split

theorem State.send_only {P : State → Prop} (cl : Closed P 0x300001040) {s : State} (h : Sat P s) (op : Nat) (p : Packet) (f : State → State) (hf : ∀ t, Sat P t → Sat P (f t)) : Sat P (State.send s op p f) := by
  unfold State.send
  extract_lets +onlyGivenNames v_src v_c
  repeat' first | with_reducible assumption | exact Closed.mono cl (by decide) | (with_reducible intro _) | with_reducible apply onlyIte | with_reducible apply hf | with_reducible apply State.carry_only | with_reducible apply State.park_only | with_reducible apply State.drawn_only | with_reducible apply State.count_only | dsimp only | split

theorem State.readRequest_only {P : State → Prop} (cl : Closed P 0x300103841) {s : State} (h : Sat P s) (p : Packet) : Sat P (State.readRequest s p) := by
  unfold State.readRequest
  repeat' first | with_reducible assumption | exact Closed.mono cl (by decide) | (with_reducible intro _) | with_reducible apply onlyIte | with_reducible apply State.send_only | with_reducible apply State.targetRead_only | dsimp only | split

theorem State.writeRequest_only {P : State → Prop} (cl : Closed P 0x4F2FF7FFEE) {s : State} (h : Sat P s) (posted : Bool) (p : Packet) : Sat P (State.writeRequest s posted p) := by
  unfold State.writeRequest
  repeat' first | with_reducible assumption | exact Closed.mono cl (by decide) | (with_reducible intro _) | with_reducible apply onlyIte | with_reducible apply State.send_only | with_reducible apply State.targetWrite_only | dsimp only | split

theorem State.streamRequest_only {P : State → Prop} (cl : Closed P 0x300001840) {s : State} (h : Sat P s) (p : Packet) : Sat P (State.streamRequest s p) := by
  unfold State.streamRequest
  repeat' first | with_reducible assumption | exact Closed.mono cl (by decide) | (with_reducible intro _) | with_reducible apply onlyIte | with_reducible apply State.send_only | with_reducible apply State.targetStream_only | dsimp only | split

theorem State.unpark_only {P : State → Prop} (cl : Closed P 0x4F2FF7FFEF) {s : State} (h : Sat P s)  : Sat P (State.unpark s) := by
  unfold State.unpark
  repeat' first | with_reducible assumption | exact Closed.mono cl (by decide) | (with_reducible intro _) | with_reducible apply onlyIte | with_reducible refine onlyEach ?_ ?_ | with_reducible apply State.send_only | with_reducible apply State.target_only | (fail_if_no_progress with_reducible apply upd_ring (Closed.mono cl (by decide))) | dsimp only | split

theorem State.hostGate_only {P : State → Prop} (cl : Closed P 0x302000040) {s : State} (h : Sat P s) (p : Packet) (write : Bool) (f : State → State) (hf : ∀ t, Sat P t → Sat P (f t)) : Sat P (State.hostGate s p write f) := by
  unfold State.hostGate
  extract_lets +onlyGivenNames v_a v_zero
  repeat' first | with_reducible assumption | exact Closed.mono cl (by decide) | (with_reducible intro _) | with_reducible apply onlyIte | with_reducible apply hf | with_reducible apply State.respond_only | with_reducible apply State.count_only | with_reducible apply State.wakeAwake_only | dsimp only | split

theorem State.hostOffer_only {P : State → Prop} (cl : Closed P 0x4F2FF7FFEF) {s : State} (h : Sat P s) (r : HostReq) : Sat P (State.hostOffer s r) := by
  unfold State.hostOffer
  repeat' first | with_reducible assumption | exact Closed.mono cl (by decide) | (with_reducible intro _) | with_reducible apply onlyIte | with_reducible apply State.hostPark_only | with_reducible apply State.hostStore_only | with_reducible apply State.hostRead_only | with_reducible apply State.hostGate_only | with_reducible apply State.writeRequest_only | with_reducible apply State.readRequest_only | dsimp only | split

theorem State.hostServe_only {P : State → Prop} (cl : Closed P 0x4F2FF7FFEF) {s : State} (h : Sat P s)  : Sat P (State.hostServe s) := by
  unfold State.hostServe
  repeat' first | with_reducible assumption | exact Closed.mono cl (by decide) | (with_reducible intro _) | with_reducible apply onlyIte | with_reducible refine onlyEach ?_ ?_ | with_reducible apply State.hostOffer_only | (fail_if_no_progress with_reducible apply upd_host (Closed.mono cl (by decide))) | dsimp only | split

theorem State.hostPacket_only {P : State → Prop} (cl : Closed P 0x4F2FF7FFEF) {s : State} (h : Sat P s) (op : Nat) (p : Packet) : Sat P (State.hostPacket s op p) := by
  unfold State.hostPacket
  extract_lets +onlyGivenNames v_base
  repeat' first | with_reducible assumption | exact Closed.mono cl (by decide) | (with_reducible intro _) | with_reducible apply onlyIte | with_reducible apply State.trainLink_only | with_reducible apply State.hostOffer_only | dsimp only | split

theorem State.offered_only {P : State → Prop} (cl : Closed P 0x4F2FF7FFEF) {s : State} (h : Sat P s) (op : Nat) (p : Packet) (f : State → State) (hf : ∀ t, Sat P t → Sat P (f t)) : Sat P (State.offered s op p f) := by
  unfold State.offered
  repeat' first | with_reducible assumption | exact Closed.mono cl (by decide) | (with_reducible intro _) | with_reducible apply onlyIte | with_reducible apply hf | with_reducible apply State.watch_only | with_reducible apply State.hostPacket_only | dsimp only | split

theorem State.hostAnswer_only {P : State → Prop} (cl : Closed P 0x200100000) {s : State} (h : Sat P s) (r : Response) : Sat P (State.hostAnswer s r) := by
  unfold State.hostAnswer
  extract_lets +onlyGivenNames v_st v_s1 v_data
  try (have h_s1 : Sat P v_s1 := by repeat' first | with_reducible assumption | exact Closed.mono cl (by decide) | (with_reducible intro _) | with_reducible apply onlyIte | with_reducible apply State.busError_only | (fail_if_no_progress with_reducible apply upd_host (Closed.mono cl (by decide))) | dsimp only | split)
  repeat' first | with_reducible assumption | exact Closed.mono cl (by decide) | (with_reducible intro _) | with_reducible apply onlyIte | with_reducible apply State.busError_only | (fail_if_no_progress with_reducible apply upd_host (Closed.mono cl (by decide))) | dsimp only | split

theorem State.response_only {P : State → Prop} (cl : Closed P 0x4F2FF7FFEF) {s : State} (h : Sat P s) (data : Bool) (p : Packet) (edges : Nat) : Sat P (State.response s data p edges) := by
  unfold State.response
  repeat' first | with_reducible assumption | exact Closed.mono cl (by decide) | (with_reducible intro _) | with_reducible apply onlyIte | with_reducible apply State.seeResponse_only | with_reducible apply State.hostAnswer_only | with_reducible apply State.hostServe_only | (fail_if_no_progress with_reducible apply upd_ring (Closed.mono cl (by decide))) | dsimp only | split

theorem State.serveWait_only {P : State → Prop} (cl : Closed P 0x700000864) {s : State} (h : Sat P s) (w : BankWait) : Sat P (State.serveWait s w) := by
  unfold State.serveWait
  repeat' first | with_reducible assumption | exact Closed.mono cl (by decide) | (with_reducible intro _) | with_reducible apply onlyIte | with_reducible apply State.writeGranted_only | with_reducible apply State.readGranted_only | with_reducible apply State.serveOp_only | dsimp only | split

theorem execStationDrainEnd_only {P : State → Prop} (cl : Closed P 0x200000000) {s : State} (h : Sat P s) (stn : StnId) : OnlyO P (execStationDrainEnd stn s) := by
  unfold execStationDrainEnd
  repeat' first | with_reducible assumption | exact Closed.mono cl (by decide) | (with_reducible intro _) | with_reducible apply onlyIte | with_reducible apply onlyIteO | with_reducible apply onlyNext | with_reducible apply State.fset_only | dsimp only | split

theorem State.handover_only {P : State → Prop} (cl : Closed P 0x700000864) {s : State} (h : Sat P s) (b : Nat) : Sat P (State.handover s b) := by
  unfold State.handover
  repeat' first | with_reducible assumption | exact Closed.mono cl (by decide) | (with_reducible intro _) | with_reducible apply onlyIte | with_reducible refine onlyEach ?_ ?_ | with_reducible apply State.takeBank_only | with_reducible apply State.serveWait_only | (fail_if_no_progress with_reducible apply upd_ring (Closed.mono cl (by decide))) | dsimp only | split

theorem execRead_only {P : State → Prop} (cl : Closed P 0x4F2FF7FFEF) {s : State} (h : Sat P s) (p : Packet) : OnlyO P (execRead p s) := by
  unfold execRead
  repeat' first | with_reducible assumption | exact Closed.mono cl (by decide) | (with_reducible intro _) | with_reducible apply onlyIte | with_reducible apply onlyIteO | with_reducible apply onlyNext | with_reducible apply State.offered_only | with_reducible apply State.readRequest_only | dsimp only | split

theorem execWrite_only {P : State → Prop} (cl : Closed P 0x4F2FF7FFEF) {s : State} (h : Sat P s) (p : Packet) : OnlyO P (execWrite p s) := by
  unfold execWrite
  repeat' first | with_reducible assumption | exact Closed.mono cl (by decide) | (with_reducible intro _) | with_reducible apply onlyIte | with_reducible apply onlyIteO | with_reducible apply onlyNext | with_reducible apply State.offered_only | with_reducible apply State.writeRequest_only | dsimp only | split

theorem execPostedWrite_only {P : State → Prop} (cl : Closed P 0x4F2FF7FFEF) {s : State} (h : Sat P s) (p : Packet) : OnlyO P (execPostedWrite p s) := by
  unfold execPostedWrite
  repeat' first | with_reducible assumption | exact Closed.mono cl (by decide) | (with_reducible intro _) | with_reducible apply onlyIte | with_reducible apply onlyIteO | with_reducible apply onlyNext | with_reducible apply State.offered_only | with_reducible apply State.writeRequest_only | dsimp only | split

theorem execStream_only {P : State → Prop} (cl : Closed P 0x300001840) {s : State} (h : Sat P s) (p : Packet) : OnlyO P (execStream p s) := by
  unfold execStream
  repeat' first | with_reducible assumption | exact Closed.mono cl (by decide) | (with_reducible intro _) | with_reducible apply onlyIte | with_reducible apply onlyIteO | with_reducible apply onlyNext | with_reducible apply State.watch_only | with_reducible apply State.streamRequest_only | dsimp only | split

theorem execRespData_only {P : State → Prop} (cl : Closed P 0x4F2FF7FFEF) {s : State} (h : Sat P s) (p : Packet) (edges : Nat) : OnlyO P (execRespData p edges s) := by
  unfold execRespData
  repeat' first | with_reducible assumption | exact Closed.mono cl (by decide) | (with_reducible intro _) | with_reducible apply onlyIte | with_reducible apply onlyIteO | with_reducible apply onlyNext | with_reducible apply State.watch_only | with_reducible apply State.response_only | dsimp only | split

theorem execRespAck_only {P : State → Prop} (cl : Closed P 0x4F2FF7FFEF) {s : State} (h : Sat P s) (p : Packet) (edges : Nat) : OnlyO P (execRespAck p edges s) := by
  unfold execRespAck
  repeat' first | with_reducible assumption | exact Closed.mono cl (by decide) | (with_reducible intro _) | with_reducible apply onlyIte | with_reducible apply onlyIteO | with_reducible apply onlyNext | with_reducible apply State.watch_only | with_reducible apply State.response_only | dsimp only | split

theorem execTableSwap_only {P : State → Prop} (cl : Closed P 0x4F2FF7FFEF) {s : State} (h : Sat P s) (stn : StnId) : OnlyO P (execTableSwap stn s) := by
  unfold execTableSwap
  repeat' first | with_reducible assumption | exact Closed.mono cl (by decide) | (with_reducible intro _) | with_reducible apply onlyIte | with_reducible apply onlyIteO | with_reducible apply onlyNext | with_reducible apply State.watch_only | with_reducible apply State.swapTable_only | with_reducible apply State.unpark_only | with_reducible apply State.hostServe_only | dsimp only | split

theorem execHandoverComplete_only {P : State → Prop} (cl : Closed P 0x4F2FF7FFEF) {s : State} (h : Sat P s) (bank : BitVec 6) : OnlyO P (execHandoverComplete bank s) := by
  unfold execHandoverComplete
  repeat' first | with_reducible assumption | exact Closed.mono cl (by decide) | (with_reducible intro _) | with_reducible apply onlyIte | with_reducible apply onlyIteO | with_reducible apply onlyNext | with_reducible apply State.watch_only | with_reducible apply State.handover_only | with_reducible apply State.hostServe_only | dsimp only | split

theorem State.aliveTick_only {P : State → Prop} (cl : Closed P 0x200002000) {s : State} (h : Sat P s)  : Sat P (State.aliveTick s) := by
  unfold State.aliveTick
  repeat' first | with_reducible assumption | exact Closed.mono cl (by decide) | (with_reducible intro _) | with_reducible apply onlyIte | with_reducible apply State.countWrap_only | (fail_if_no_progress with_reducible apply upd_time (Closed.mono cl (by decide))) | dsimp only | split

theorem State.deviceTick_only {P : State → Prop} (cl : Closed P 0x300027204) {s : State} (h : Sat P s)  : Sat P (State.deviceTick s) := by
  unfold State.deviceTick
  extract_lets +onlyGivenNames v_u
  try (have h_u : Sat P v_u := by repeat' first | with_reducible assumption | exact Closed.mono cl (by decide) | (with_reducible intro _) | with_reducible apply onlyIte | with_reducible apply State.timeEdge_only | with_reducible apply State.writeMarks_only | with_reducible apply State.graceRun_only | with_reducible apply State.trigTimers_only | dsimp only | split)
  repeat' first | with_reducible assumption | exact Closed.mono cl (by decide) | (with_reducible intro _) | with_reducible apply onlyIte | with_reducible apply State.timeEdge_only | with_reducible apply State.writeMarks_only | with_reducible apply State.graceRun_only | with_reducible apply State.trigTimers_only | dsimp only | split

theorem State.tickEdge_only {P : State → Prop} (cl : Closed P 0x300027204) {s : State} (h : Sat P s)  : Sat P (State.tickEdge s) := by
  unfold State.tickEdge
  extract_lets +onlyGivenNames v_t
  try (have h_t : Sat P v_t := by repeat' first | with_reducible assumption | exact Closed.mono cl (by decide) | (with_reducible intro _) | with_reducible apply onlyIte | with_reducible apply State.aliveTick_only | with_reducible apply State.deviceTick_only | dsimp only | split)
  repeat' first | with_reducible assumption | exact Closed.mono cl (by decide) | (with_reducible intro _) | with_reducible apply onlyIte | with_reducible apply State.aliveTick_only | with_reducible apply State.deviceTick_only | dsimp only | split

end Sys2Proof.Machine
end

