-- ==== Sys2Proof/Laws/Registers.lean ====
section
/-! SUPPORT. Laws of register words and fields: what a read gives after a write. -/

namespace Sys2Proof.Machine

/-! ### Words -/

theorem State.reg_setReg (s : State) (a b : Nat) (v : W32) : (s.setReg a v).reg b = if b = a then v else s.reg b := by
  simp only [State.reg, State.setReg]
  exact SMap.get_set _ _ _ _ _

@[simp] theorem State.reg_setReg_self (s : State) (a : Nat) (v : W32) : (s.setReg a v).reg a = v := by
  simp [State.reg_setReg]

theorem State.reg_setReg_ne (s : State) {a b : Nat} (v : W32) (h : b ≠ a) : (s.setReg a v).reg b = s.reg b := by
  simp [State.reg_setReg, h]

theorem State.reg_fset_ne (s : State) (f : Fld) (x : Nat) {a : Nat} (h : a ≠ f.addr) : (s.fset f x).reg a = s.reg a :=
  s.reg_setReg_ne _ h

/-- A register write keeps the register file canonical. -/
theorem State.setReg_wf {s : State} (h : SMap.Wf RegMap.resetWord s.regs) (a : Nat) (v : W32) :
    SMap.Wf RegMap.resetWord (s.setReg a v).regs := SMap.set_wf RegMap.resetWord s.regs a v h

/-! ### Fields of a word -/

/-- The parts of a number at a field: above it, the field, below it. -/
theorem field_split (v lo w : Nat) : v = v / 2 ^ (lo + w) * 2 ^ (lo + w) + v / 2 ^ lo % 2 ^ w * 2 ^ lo + v % 2 ^ lo := by
  have h1 := Nat.div_add_mod v (2 ^ lo)
  have h2 := Nat.div_add_mod (v / 2 ^ lo) (2 ^ w)
  have h3 : v / 2 ^ (lo + w) = v / 2 ^ lo / 2 ^ w := by rw [Nat.pow_add, Nat.div_div_eq_div_mul]
  rw [h3, Nat.pow_add]
  calc v = 2 ^ lo * (v / 2 ^ lo) + v % 2 ^ lo := h1.symm
    _ = 2 ^ lo * (2 ^ w * (v / 2 ^ lo / 2 ^ w) + v / 2 ^ lo % 2 ^ w) + v % 2 ^ lo := by rw [h2]
    _ = _ := by ring

theorem Fld.write_toNat (f : Fld) (v : W32) (x : Nat) (h : f.lo + f.w ≤ 32) :
    (f.write v x).toNat = v.toNat / 2 ^ (f.lo + f.w) * 2 ^ (f.lo + f.w) + x % 2 ^ f.w * 2 ^ f.lo + v.toNat % 2 ^ f.lo := by
  have hs := field_split v.toNat f.lo f.w
  have hw : f.write v x = BitVec.ofNat 32
      (v.toNat / 2 ^ (f.lo + f.w) * 2 ^ (f.lo + f.w) + x % 2 ^ f.w * 2 ^ f.lo + v.toNat % 2 ^ f.lo) := by
    simp only [Fld.write, Fld.read]
    congr 1
    omega
  rw [hw, BitVec.toNat_ofNat, Nat.mod_eq_of_lt]
  have hv := v.isLt
  have h1 : x % 2 ^ f.w + 1 ≤ 2 ^ f.w := Nat.mod_lt _ (Nat.two_pow_pos _)
  have h2 : v.toNat % 2 ^ f.lo < 2 ^ f.lo := Nat.mod_lt _ (Nat.two_pow_pos _)
  have h3 : v.toNat / 2 ^ (f.lo + f.w) + 1 ≤ 2 ^ (32 - (f.lo + f.w)) := by
    have : v.toNat < 2 ^ (f.lo + f.w) * 2 ^ (32 - (f.lo + f.w)) := by
      rw [← Nat.pow_add, Nat.add_sub_cancel' h]; exact hv
    exact Nat.div_lt_of_lt_mul this
  have h4 : (v.toNat / 2 ^ (f.lo + f.w) + 1) * 2 ^ (f.lo + f.w) ≤ 2 ^ (32 - (f.lo + f.w)) * 2 ^ (f.lo + f.w) :=
    Nat.mul_le_mul_right _ h3
  have h5 : 2 ^ (32 - (f.lo + f.w)) * 2 ^ (f.lo + f.w) = 2 ^ 32 := by rw [← Nat.pow_add, Nat.sub_add_cancel h]
  have h6 : (x % 2 ^ f.w + 1) * 2 ^ f.lo ≤ 2 ^ f.w * 2 ^ f.lo := Nat.mul_le_mul_right _ h1
  have h7 : 2 ^ f.w * 2 ^ f.lo = 2 ^ (f.lo + f.w) := by rw [← Nat.pow_add, Nat.add_comm]
  rw [Nat.add_mul, Nat.one_mul] at h4 h6
  omega

/-- A written field reads as what was written, cut to its width. -/
theorem Fld.read_write (f : Fld) (v : W32) (x : Nat) (h : f.lo + f.w ≤ 32) : f.read (f.write v x) = x % 2 ^ f.w := by
  rw [Fld.read, Fld.write_toNat f v x h]
  have h2 : v.toNat % 2 ^ f.lo < 2 ^ f.lo := Nat.mod_lt _ (Nat.two_pow_pos _)
  have : v.toNat / 2 ^ (f.lo + f.w) * 2 ^ (f.lo + f.w) + x % 2 ^ f.w * 2 ^ f.lo + v.toNat % 2 ^ f.lo
      = v.toNat % 2 ^ f.lo + 2 ^ f.lo * (v.toNat / 2 ^ (f.lo + f.w) * 2 ^ f.w + x % 2 ^ f.w) := by
    rw [Nat.pow_add]; ring
  rw [this, Nat.add_mul_div_left _ _ (Nat.two_pow_pos _), Nat.div_eq_of_lt h2, Nat.zero_add]
  rw [Nat.add_comm, Nat.add_mul_mod_self_right, Nat.mod_mod]

/-- Two fields that share no bit: of different words, or in different places of one. -/
def Fld.apart (f g : Fld) : Prop := f.addr ≠ g.addr ∨ f.lo + f.w ≤ g.lo ∨ g.lo + g.w ≤ f.lo

/-- Writing a field leaves the fields above and below it as they were. -/
theorem Fld.read_write_apart (f g : Fld) (v : W32) (x : Nat) (h : f.lo + f.w ≤ 32)
    (hd : f.lo + f.w ≤ g.lo ∨ g.lo + g.w ≤ f.lo) : g.read (f.write v x) = g.read v := by
  rw [Fld.read, Fld.read, Fld.write_toNat f v x h]
  have h1 : x % 2 ^ f.w + 1 ≤ 2 ^ f.w := Nat.mod_lt _ (Nat.two_pow_pos _)
  have h2 : v.toNat % 2 ^ f.lo < 2 ^ f.lo := Nat.mod_lt _ (Nat.two_pow_pos _)
  have h6 : (x % 2 ^ f.w + 1) * 2 ^ f.lo ≤ 2 ^ f.w * 2 ^ f.lo := Nat.mul_le_mul_right _ h1
  have h7 : 2 ^ f.w * 2 ^ f.lo = 2 ^ (f.lo + f.w) := by rw [← Nat.pow_add, Nat.add_comm]
  rw [Nat.add_mul, Nat.one_mul] at h6
  rcases hd with hd | hd
  · obtain ⟨k, hk⟩ := Nat.exists_eq_add_of_le hd
    have hp : 2 ^ (f.lo + f.w + k) = 2 ^ (f.lo + f.w) * 2 ^ k := Nat.pow_add _ _ _
    rw [hk, hp, ← Nat.div_div_eq_div_mul, ← Nat.div_div_eq_div_mul]
    congr 2
    have : v.toNat / 2 ^ (f.lo + f.w) * 2 ^ (f.lo + f.w) + x % 2 ^ f.w * 2 ^ f.lo + v.toNat % 2 ^ f.lo
        = (x % 2 ^ f.w * 2 ^ f.lo + v.toNat % 2 ^ f.lo) + 2 ^ (f.lo + f.w) * (v.toNat / 2 ^ (f.lo + f.w)) := by ring
    rw [this, Nat.add_mul_div_left _ _ (Nat.two_pow_pos _), Nat.div_eq_of_lt (by omega), Nat.zero_add]
  · have key : ∀ n : Nat, n / 2 ^ g.lo % 2 ^ g.w = n % 2 ^ f.lo / 2 ^ g.lo % 2 ^ g.w := by
      intro n
      obtain ⟨k, hk⟩ := Nat.exists_eq_add_of_le hd
      rw [hk, Nat.pow_add, Nat.pow_add, Nat.mul_assoc, Nat.mod_mul_right_div_self, Nat.mod_mul_right_mod]
    rw [key, key v.toNat]
    congr 2
    have : v.toNat / 2 ^ (f.lo + f.w) * 2 ^ (f.lo + f.w) + x % 2 ^ f.w * 2 ^ f.lo + v.toNat % 2 ^ f.lo
        = v.toNat % 2 ^ f.lo + 2 ^ f.lo * (v.toNat / 2 ^ (f.lo + f.w) * 2 ^ f.w + x % 2 ^ f.w) := by
      rw [Nat.pow_add]; ring
    rw [this, Nat.add_mul_mod_self_left, Nat.mod_mod]

theorem State.fget_fset (s : State) (f : Fld) (x : Nat) (h : f.lo + f.w ≤ 32) : (s.fset f x).fget f = x % 2 ^ f.w := by
  simp only [State.fget, State.fset, State.reg_setReg_self]
  exact Fld.read_write f _ x h

theorem State.fget_fset_apart (s : State) (f g : Fld) (x : Nat) (h : f.lo + f.w ≤ 32) (hd : f.apart g) :
    (s.fset f x).fget g = s.fget g := by
  simp only [State.fget, State.fset, State.reg_setReg]
  split
  · rename_i he
    rw [he]
    refine Fld.read_write_apart f g _ x h ?_
    rcases hd with hd | hd
    · exact absurd he.symm hd
    · exact hd
  · rfl

theorem State.bit_setBit (s : State) (f : Fld) (b : Bool) (h : f.lo + f.w ≤ 32) (hw : 0 < f.w) :
    (s.setBit f b).bit f = b := by
  simp only [State.bit, State.setBit, State.fget_fset s f _ h]
  have : (1 : Nat) < 2 ^ f.w := Nat.one_lt_two_pow (by omega)
  cases b <;> simp [Nat.mod_eq_of_lt this, Nat.mod_eq_of_lt (Nat.two_pow_pos f.w)]

theorem State.bit_fset_one (s : State) (f : Fld) (h : f.lo + f.w ≤ 32) (hw : 0 < f.w) : (s.fset f 1).bit f = true :=
  s.bit_setBit f true h hw

theorem State.bit_fset_zero (s : State) (f : Fld) (h : f.lo + f.w ≤ 32) (hw : 0 < f.w) : (s.fset f 0).bit f = false :=
  s.bit_setBit f false h hw

theorem State.bit_fset_apart (s : State) (f g : Fld) (x : Nat) (h : f.lo + f.w ≤ 32) (hd : f.apart g) :
    (s.fset f x).bit g = s.bit g := by simp only [State.bit, s.fget_fset_apart f g x h hd]

/-- A field reads the same where its word does. -/
theorem State.fget_congr {s t : State} (f : Fld) (h : t.reg f.addr = s.reg f.addr) : t.fget f = s.fget f := by
  simp only [State.fget, h]

theorem State.bit_congr {s t : State} (f : Fld) (h : t.reg f.addr = s.reg f.addr) : t.bit f = s.bit f := by
  simp only [State.bit, State.fget_congr f h]

/-- A field is below its width's top. -/
theorem State.fget_lt (s : State) (f : Fld) : s.fget f < 2 ^ f.w := Nat.mod_lt _ (Nat.two_pow_pos _)

/-! ### Values of several words -/

theorem State.reg_setWords (n : Nat) : ∀ (s : State) (a x b : Nat), (b < a ∨ a + 4 * n ≤ b ∨ ¬ 4 ∣ (b - a)) →
    (s.setWords a n x).reg b = s.reg b := by
  induction n with
  | zero => intros; rfl
  | succ n ih =>
    intro s a x b h
    rw [State.setWords, ih, State.reg_setReg_ne]
    · rintro rfl; omega
    · omega

theorem State.words_congr (n : Nat) : ∀ (s t : State) (a : Nat), (∀ i, i < n → s.reg (a + 4 * i) = t.reg (a + 4 * i)) →
    s.words a n = t.words a n := by
  induction n with
  | zero => intros; rfl
  | succ n ih =>
    intro s t a h
    simp only [State.words]
    have h0 := h 0 (by omega)
    rw [Nat.mul_zero, Nat.add_zero] at h0
    rw [h0, ih s t (a + 4) fun i hi => by have := h (i + 1) (by omega); rwa [show a + 4 + 4 * i = a + 4 * (i + 1) by ring]]

theorem State.words_setWords (n : Nat) : ∀ (s : State) (a x : Nat), (s.setWords a n x).words a n = x % 2 ^ (32 * n) := by
  induction n with
  | zero => intro s a x; simp [State.words, Nat.mod_one]
  | succ n ih =>
    intro s a x
    rw [State.setWords, State.words, State.reg_setWords, State.reg_setReg_self, ih, BitVec.toNat_ofNat]
    · rw [show 32 * (n + 1) = 32 + 32 * n by ring, Nat.pow_add, Nat.mod_mul]
    · omega

/-- A written wide value reads as what was written, cut to its width. -/
theorem State.wget_wset (s : State) (w : Wide) (x : Nat) (h : w.w ≤ 32 * w.nw) : (s.wset w x).wget w = x % 2 ^ w.w := by
  simp only [State.wget, State.wset, State.words_setWords]
  rw [Nat.mod_mod_of_dvd _ (Nat.pow_dvd_pow 2 h), Nat.mod_mod]

/-- Writing a wide value leaves every word outside it as it was. -/
theorem State.reg_wset (s : State) (w : Wide) (x b : Nat) (h : b < w.addr ∨ w.addr + 4 * w.nw ≤ b) :
    (s.wset w x).reg b = s.reg b := by
  refine State.reg_setWords _ _ _ _ _ ?_
  omega

theorem State.wget_congr {s t : State} (w : Wide) (h : ∀ i, i < w.nw → s.reg (w.addr + 4 * i) = t.reg (w.addr + 4 * i)) :
    s.wget w = t.wget w := by
  simp only [State.wget, State.words_congr _ _ _ _ h]

theorem State.wget_setReg_ne (s : State) (w : Wide) (a : Nat) (v : W32) (h : a < w.addr ∨ w.addr + 4 * w.nw ≤ a) :
    (s.setReg a v).wget w = s.wget w :=
  State.wget_congr w fun i hi => s.reg_setReg_ne v (by omega)

/-! ### Words that other updates leave -/

/-- A register reads the same where the register files are the same. -/
theorem State.reg_congr {s t : State} (h : t.regs = s.regs) (a : Nat) : t.reg a = s.reg a := by simp only [State.reg, h]

end Sys2Proof.Machine
end

