-- ==== Sys2Proof/Laws/Exec.lean ====
section
/-! SUPPORT. The frame law of every command, gathered over exec. -/

namespace Sys2Proof.Machine

/-- A property that every update keeps, every command keeps. -/
theorem exec_only {P : State → Prop} (cl : Closed P (2 ^ 40 - 1)) {s : State} (hs : Sat P s) (c : Instr) : OnlyO P (exec c s) := by
  cases c with
  | nop g => exact execNop_only (cl.mono rfl) hs g
  | eval g => exact execEval_only (cl.mono rfl) hs g
  | evalLatch g => exact execEvalLatch_only (cl.mono rfl) hs g
  | stateRead g => exact execStateRead_only (cl.mono rfl) hs g
  | evalSend g => exact execEvalSend_only (cl.mono rfl) hs g
  | evalPort g => exact execEvalPort_only (cl.mono rfl) hs g
  | evalCheck g => exact execEvalCheck_only (cl.mono rfl) hs g
  | turnEnd g => exact execTurnEnd_only (cl.mono rfl) hs g
  | commit => exact execCommit_only (cl.mono rfl) hs
  | prefixStart => exact execPrefixStart_only (cl.mono rfl) hs
  | prefixCancel => exact execPrefixCancel_only (cl.mono rfl) hs
  | turnBoundary => exact execTurnBoundary_only (cl.mono rfl) hs
  | outputRelease => exact execOutputRelease_only (cl.mono rfl) hs
  | turnOverrun => exact execTurnOverrun_only (cl.mono rfl) hs
  | scrubStep cord => exact execScrubStep_only (cl.mono rfl) hs cord
  | anchorLost => exact execAnchorLost_only (cl.mono rfl) hs
  | halt v => exact execHalt_only (cl.mono rfl) hs v
  | singleStep => exact execSingleStep_only (cl.mono rfl) hs
  | relock => exact execRelock_only (cl.mono rfl) hs
  | realign => exact execRealign_only (cl.mono rfl) hs
  | slackRst => exact execSlackRst_only (cl.mono rfl) hs
  | bightDelivery stn dir pos => exact execBightDelivery_only (cl.mono rfl) hs stn dir pos
  | read p => exact execRead_only (cl.mono rfl) hs p
  | write p => exact execWrite_only (cl.mono rfl) hs p
  | postedWrite p => exact execPostedWrite_only (cl.mono rfl) hs p
  | stream p => exact execStream_only (cl.mono rfl) hs p
  | respData p edges => exact execRespData_only (cl.mono rfl) hs p edges
  | respAck p edges => exact execRespAck_only (cl.mono rfl) hs p edges
  | g32BwRead n => exact execG32BwRead_only (cl.mono rfl) hs n
  | prbClr n => exact execPrbClr_only (cl.mono rfl) hs n
  | stationDrainEnd stn => exact execStationDrainEnd_only (cl.mono rfl) hs stn
  | tableSwap stn => exact execTableSwap_only (cl.mono rfl) hs stn
  | portAccess cord q => exact execPortAccess_only (cl.mono rfl) hs cord q
  | bankDelayedAccess cord q => exact execBankDelayedAccess_only (cl.mono rfl) hs cord q
  | portReturn cord q => exact execPortReturn_only (cl.mono rfl) hs cord q
  | deferredDataArrival cord q => exact execDeferredDataArrival_only (cl.mono rfl) hs cord q
  | bnkOwnWrite bank master value => exact execBnkOwnWrite_only (cl.mono rfl) hs bank master value
  | handoverComplete bank => exact execHandoverComplete_only (cl.mono rfl) hs bank
  | turnInputWrite die port cord word data => exact execTurnInputWrite_only (cl.mono rfl) hs die port cord word data
  | turnOutputRead die port cord word => exact execTurnOutputRead_only (cl.mono rfl) hs die port cord word
  | laneRxWord lane w => exact execLaneRxWord_only (cl.mono rfl) hs lane w
  | laneTxWord lane w => exact execLaneTxWord_only (cl.mono rfl) hs lane w
  | laneEnable lane => exact execLaneEnable_only (cl.mono rfl) hs lane
  | laneDisable lane => exact execLaneDisable_only (cl.mono rfl) hs lane
  | laneShutdownDone lane => exact execLaneShutdownDone_only (cl.mono rfl) hs lane
  | txSrc lane v => exact execTxSrc_only (cl.mono rfl) hs lane v
  | neLpbk lane v => exact execNeLpbk_only (cl.mono rfl) hs lane v
  | feLpbk lane v => exact execFeLpbk_only (cl.mono rfl) hs lane v
  | laneLock lane stage lag wireBit ts => exact execLaneLock_only (cl.mono rfl) hs lane stage lag wireBit ts
  | laneLockLoss lane stage => exact execLaneLockLoss_only (cl.mono rfl) hs lane stage
  | calMicroStep lane sel up => exact execCalMicroStep_only (cl.mono rfl) hs lane sel up
  | calApply lane wireBit ts => exact execCalApply_only (cl.mono rfl) hs lane wireBit ts
  | calPin lane v => exact execCalPin_only (cl.mono rfl) hs lane v
  | eyeScanStart lane => exact execEyeScanStart_only (cl.mono rfl) hs lane
  | eyeScanAbort lane => exact execEyeScanAbort_only (cl.mono rfl) hs lane
  | eyeScanPoint lane mismatches => exact execEyeScanPoint_only (cl.mono rfl) hs lane mismatches
  | chkClr lane => exact execChkClr_only (cl.mono rfl) hs lane
  | todArm => exact execTodArm_only (cl.mono rfl) hs
  | todCancel => exact execTodCancel_only (cl.mono rfl) hs
  | phaseGo => exact execPhaseGo_only (cl.mono rfl) hs
  | slewDone => exact execSlewDone_only (cl.mono rfl) hs
  | timeFreq v => exact execTimeFreq_only (cl.mono rfl) hs v
  | ppsEdge pin => exact execPpsEdge_only (cl.mono rfl) hs pin
  | ppsLoss => exact execPpsLoss_only (cl.mono rfl) hs
  | timeRefLost => exact execTimeRefLost_only (cl.mono rfl) hs
  | refQualified => exact execRefQualified_only (cl.mono rfl) hs
  | txqPop k => exact execTxqPop_only (cl.mono rfl) hs k
  | toutEnable n => exact execToutEnable_only (cl.mono rfl) hs n
  | toutDisable n => exact execToutDisable_only (cl.mono rfl) hs n
  | toutPulse n => exact execToutPulse_only (cl.mono rfl) hs n
  | toutPulseEnd n => exact execToutPulseEnd_only (cl.mono rfl) hs n
  | timeMark => exact execTimeMark_only (cl.mono rfl) hs
  | capArm set n => exact execCapArm_only (cl.mono rfl) hs set n
  | capTrig set n => exact execCapTrig_only (cl.mono rfl) hs set n
  | capStop set n => exact execCapStop_only (cl.mono rfl) hs set n
  | capBlockClose n why => exact execCapBlockClose_only (cl.mono rfl) hs n why
  | capBlockWrite n => exact execCapBlockWrite_only (cl.mono rfl) hs n
  | seqStart n => exact execSeqStart_only (cl.mono rfl) hs n
  | seqStop n => exact execSeqStop_only (cl.mono rfl) hs n
  | knotTransition seqs inputs => exact execKnotTransition_only (cl.mono rfl) hs seqs inputs
  | thaw => exact execThaw_only (cl.mono rfl) hs
  | trgSoft v => exact execTrgSoft_only (cl.mono rfl) hs v
  | clr c => exact execClr_only (cl.mono rfl) hs c
  | patEnable n => exact execPatEnable_only (cl.mono rfl) hs n
  | patDisable n => exact execPatDisable_only (cl.mono rfl) hs n
  | patShutdownDone n => exact execPatShutdownDone_only (cl.mono rfl) hs n
  | patSrc n v => exact execPatSrc_only (cl.mono rfl) hs n v
  | patGo n => exact execPatGo_only (cl.mono rfl) hs n
  | patSourceSwitch n => exact execPatSourceSwitch_only (cl.mono rfl) hs n
  | patDescFetch n => exact execPatDescFetch_only (cl.mono rfl) hs n
  | patSegmentEnd n => exact execPatSegmentEnd_only (cl.mono rfl) hs n
  | patUnderrun n => exact execPatUnderrun_only (cl.mono rfl) hs n
  | queuePost master q item => exact execQueuePost_only (cl.mono rfl) hs master q item
  | hpost w3 => exact execHpost_only (cl.mono rfl) hs w3
  | dispatch die => exact execDispatch_only (cl.mono rfl) hs die
  | affinityWaitExpiry f => exact execAffinityWaitExpiry_only (cl.mono rfl) hs f
  | actEnd u => exact execActEnd_only (cl.mono rfl) hs u
  | movi u => exact execMovi_only (cl.mono rfl) hs u
  | add u => exact execAdd_only (cl.mono rfl) hs u
  | logic u => exact execLogic_only (cl.mono rfl) hs u
  | shift u => exact execShift_only (cl.mono rfl) hs u
  | fieldNode u => exact execFieldNode_only (cl.mono rfl) hs u
  | cmp u => exact execCmp_only (cl.mono rfl) hs u
  | test u => exact execTest_only (cl.mono rfl) hs u
  | hash u => exact execHash_only (cl.mono rfl) hs u
  | now u => exact execNow_only (cl.mono rfl) hs u
  | load u => exact execLoad_only (cl.mono rfl) hs u
  | store u => exact execStore_only (cl.mono rfl) hs u
  | count u => exact execCount_only (cl.mono rfl) hs u
  | build u => exact execBuild_only (cl.mono rfl) hs u
  | patch u => exact execPatch_only (cl.mono rfl) hs u
  | fcs u => exact execFcs_only (cl.mono rfl) hs u
  | tsreq u => exact execTsreq_only (cl.mono rfl) hs u
  | sendp u => exact execSendp_only (cl.mono rfl) hs u
  | sendt u => exact execSendt_only (cl.mono rfl) hs u
  | post u => exact execPost_only (cl.mono rfl) hs u
  | event u => exact execEvent_only (cl.mono rfl) hs u
  | delay u => exact execDelay_only (cl.mono rfl) hs u
  | cancel u => exact execCancel_only (cl.mono rfl) hs u
  | mask u => exact execMask_only (cl.mono rfl) hs u
  | clrf u => exact execClrf_only (cl.mono rfl) hs u
  | actOpComplete u => exact execActOpComplete_only (cl.mono rfl) hs u
  | delayTick d => exact execDelayTick_only (cl.mono rfl) hs d
  | actFlSet f v => exact execActFlSet_only (cl.mono rfl) hs f v
  | porN asserted => exact execPorN_only (cl.mono rfl) hs asserted
  | warmN asserted => exact execWarmN_only (cl.mono rfl) hs asserted
  | bootLoad dir hdr => exact execBootLoad_only (cl.mono rfl) hs dir hdr
  | cfgLoad entry => exact execCfgLoad_only (cl.mono rfl) hs entry
  | nvmError => exact execNvmError_only (cl.mono rfl) hs
  | sectionEnd stored => exact execSectionEnd_only (cl.mono rfl) hs stored
  | dict idx frame => exact execDict_only (cl.mono rfl) hs idx frame
  | frameWrite faddr frame => exact execFrameWrite_only (cl.mono rfl) hs faddr frame
  | repl idx faddr count stride => exact execRepl_only (cl.mono rfl) hs idx faddr count stride
  | zeroFrames faddr count => exact execZeroFrames_only (cl.mono rfl) hs faddr count
  | recs data => exact execRecs_only (cl.mono rfl) hs data
  | scriptWrite => exact execScriptWrite_only (cl.mono rfl) hs
  | scriptWait => exact execScriptWait_only (cl.mono rfl) hs
  | scriptPoll => exact execScriptPoll_only (cl.mono rfl) hs
  | scriptPollTimeout => exact execScriptPollTimeout_only (cl.mono rfl) hs
  | scriptCommit => exact execScriptCommit_only (cl.mono rfl) hs
  | scriptEnd => exact execScriptEnd_only (cl.mono rfl) hs
  | chainIn hdr => exact execChainIn_only (cl.mono rfl) hs hdr
  | chainFail => exact execChainFail_only (cl.mono rfl) hs
  | fwdFail => exact execFwdFail_only (cl.mono rfl) hs
  | partGo => exact execPartGo_only (cl.mono rfl) hs
  | partHold => exact execPartHold_only (cl.mono rfl) hs
  | regionIsolate => exact execRegionIsolate_only (cl.mono rfl) hs
  | regionRelease => exact execRegionRelease_only (cl.mono rfl) hs
  | nvmRead => exact execNvmRead_only (cl.mono rfl) hs
  | nvmWrite => exact execNvmWrite_only (cl.mono rfl) hs
  | nvmErase => exact execNvmErase_only (cl.mono rfl) hs
  | nvmDone ok data => exact execNvmDone_only (cl.mono rfl) hs ok data
  | hello h => exact execHello_only (cl.mono rfl) hs h
  | pairFail => exact execPairFail_only (cl.mono rfl) hs
  | heartbeat h => exact execHeartbeat_only (cl.mono rfl) hs h
  | mirrorWord turn idx data => exact execMirrorWord_only (cl.mono rfl) hs turn idx data
  | writtenFlags turn flags => exact execWrittenFlags_only (cl.mono rfl) hs turn flags
  | flowContextDelta d => exact execFlowContextDelta_only (cl.mono rfl) hs d
  | timeAdjustment a => exact execTimeAdjustment_only (cl.mono rfl) hs a
  | partnerTrigOut j => exact execPartnerTrigOut_only (cl.mono rfl) hs j
  | partTurnNumbers release turn => exact execPartTurnNumbers_only (cl.mono rfl) hs release turn
  | partnerLoss why => exact execPartnerLoss_only (cl.mono rfl) hs why
  | promotionComplete => exact execPromotionComplete_only (cl.mono rfl) hs
  | relinquish => exact execRelinquish_only (cl.mono rfl) hs
  | linkEn v => exact execLinkEn_only (cl.mono rfl) hs v
  | faultFetch srcs release => exact execFaultFetch_only (cl.mono rfl) hs srcs release
  | wireFault src pair => exact execWireFault_only (cl.mono rfl) hs src pair
  | graceExpiry => exact execGraceExpiry_only (cl.mono rfl) hs
  | ack => exact execAck_only (cl.mono rfl) hs
  | release => exact execRelease_only (cl.mono rfl) hs
  | fltInjGo => exact execFltInjGo_only (cl.mono rfl) hs
  | fltInjWire => exact execFltInjWire_only (cl.mono rfl) hs
  | thermSample sensor milliC => exact execThermSample_only (cl.mono rfl) hs sensor milliC
  | railFault rail => exact execRailFault_only (cl.mono rfl) hs rail
  | brownout => exact execBrownout_only (cl.mono rfl) hs
  | pwrGo target => exact execPwrGo_only (cl.mono rfl) hs target
  | pwrFlagRequest flag => exact execPwrFlagRequest_only (cl.mono rfl) hs flag
  | stepClockStop => exact execStepClockStop_only (cl.mono rfl) hs
  | wake src => exact execWake_only (cl.mono rfl) hs src
  | pwrExitComplete => exact execPwrExitComplete_only (cl.mono rfl) hs
  | deepSleepReload hdr stored => exact execDeepSleepReload_only (cl.mono rfl) hs hdr stored
  | domainGate d => exact execDomainGate_only (cl.mono rfl) hs d
  | domainGated d => exact execDomainGated_only (cl.mono rfl) hs d
  | domainEnable d => exact execDomainEnable_only (cl.mono rfl) hs d
  | traceRecord r => exact execTraceRecord_only (cl.mono rfl) hs r
  | tracePacketWrite => exact execTracePacketWrite_only (cl.mono rfl) hs
  | traceEnable => exact execTraceEnable_only (cl.mono rfl) hs
  | traceDisable => exact execTraceDisable_only (cl.mono rfl) hs
  | traceFlush => exact execTraceFlush_only (cl.mono rfl) hs
  | traceIdleFlush => exact execTraceIdleFlush_only (cl.mono rfl) hs
  | dmaTail e v => exact execDmaTail_only (cl.mono rfl) hs e v
  | dmaDescriptorDone e desc => exact execDmaDescriptorDone_only (cl.mono rfl) hs e desc
  | dmaEnable e => exact execDmaEnable_only (cl.mono rfl) hs e
  | dmaDisable e => exact execDmaDisable_only (cl.mono rfl) hs e
  | attestGo => exact execAttestGo_only (cl.mono rfl) hs
  | attestDone => exact execAttestDone_only (cl.mono rfl) hs
  | rbAdvance i => exact execRbAdvance_only (cl.mono rfl) hs i
  | fuseProgram ctl => exact execFuseProgram_only (cl.mono rfl) hs ctl
  | fuseProgramDone took => exact execFuseProgramDone_only (cl.mono rfl) hs took
  | bypass => exact execBypass_only (cl.mono rfl) hs
  | idcode => exact execIdcode_only (cl.mono rfl) hs
  | samplePreload pins preload => exact execSamplePreload_only (cl.mono rfl) hs pins preload
  | extest pins => exact execExtest_only (cl.mono rfl) hs pins
  | clamp => exact execClamp_only (cl.mono rfl) hs
  | highz => exact execHighz_only (cl.mono rfl) hs
  | privateInstruction k => exact execPrivateInstruction_only (cl.mono rfl) hs k
  | boardId shift => exact execBoardId_only (cl.mono rfl) hs shift
  | lifetime => exact execLifetime_only (cl.mono rfl) hs
  | lifetimeWrite milliC => exact execLifetimeWrite_only (cl.mono rfl) hs milliC
  | pinCfg n v => exact execPinCfg_only (cl.mono rfl) hs n v
  | pinLock v => exact execPinLock_only (cl.mono rfl) hs v
  | pinInput p level => exact execPinInput_only (cl.mono rfl) hs p level
  | registerWrite master addr v bytes => exact execRegisterWrite_only (cl.mono rfl) hs master addr v bytes
  | blockClockEdge die clk => exact execBlockClockEdge_only (cl.mono rfl) hs die clk
  | registerRead master addr bytes => exact execRegisterRead_only (cl.mono rfl) hs master addr bytes
  | domainPowered d => exact execDomainPowered_only (cl.mono rfl) hs d
  | chkLock lane locked => exact execChkLock_only (cl.mono rfl) hs lane locked
  | feSlip lane => exact execFeSlip_only (cl.mono rfl) hs lane
  | partVerifyDone hdr => exact execPartVerifyDone_only (cl.mono rfl) hs hdr
  | chainRdyN level => exact execChainRdyN_only (cl.mono rfl) hs level
  | wireBadEnd src pair => exact execWireBadEnd_only (cl.mono rfl) hs src pair
  | traceShutdownDone => exact execTraceShutdownDone_only (cl.mono rfl) hs
  | calibratorUpdate k taps => exact execCalibratorUpdate_only (cl.mono rfl) hs k taps
  | trstN asserted => exact execTrstN_only (cl.mono rfl) hs asserted
  | pciePerstN asserted => exact execPciePerstN_only (cl.mono rfl) hs asserted

end Sys2Proof.Machine
end

