-- ==== Sys2Proof/Laws/Host.lean ====
section
/-! SUPPORT. The host's way to a block: a command that reaches its block has its own effect and nothing else. -/

namespace Sys2Proof.Machine

/-- The watch of poll conditions adds nothing where none of them rises. -/
theorem watch_quiet {s : State} {bits : List Nat} {f : State → State}
    (h : ∀ b ∈ bits, s.pollBit b = false → (f s).pollBit b = false) : s.watch bits f = f s := by
  unfold State.watch
  have : (bits.filter fun b => !s.pollBit b && (f s).pollBit b) = [] := by
    simp only [List.filter_eq_nil_iff, Bool.and_eq_true, Bool.not_eq_true', not_and, Bool.not_eq_true]
    intro b hb h1
    exact h b hb h1
  simp [this]

/-- A device in Run with no transition in progress is not woken. -/
theorem wakeAwake_run {s : State} (src : Nat) (h1 : s.power.entering = false) (h2 : s.power.exiting = false)
    (h3 : s.fget F.PWR_STAT_STATE = 0) : s.wakeAwake src = s := by
  unfold State.wakeAwake
  simp [h1, h2, h3]

/-- A link that has trained does so no more. -/
theorem trainLink_done {s : State} (h : s.reg R.HST_LINK ≠ 0) : s.trainLink = s := if_neg h

/-- A request that nothing observes is its effect. -/
theorem transact_unseen {s : State} {p : Packet} (h : s.sees p.src = false) (op : Nat) (f : State → State)
    (ans : State → Nat × List W128) : s.transact op p f ans = f s := by
  unfold State.transact
  simp [h]

/-- What `hostRuns` says, part by part. -/
theorem hostRuns_parts {s : State} {a : Nat} (h : s.hostRuns a = true) :
    s.hostAway = false ∧ s.fget F.PWR_STAT_STATE = 0 ∧ s.bit F.PWR_STAT_TRANSITION = false ∧ s.power.entering = false ∧
      s.power.exiting = false ∧ ((!loadWritable a && !s.image.committed) || s.blockAbsent a) = false ∧
      s.blockOn a = true ∧ s.reg R.HST_LINK ≠ 0 ∧ s.hostHeld (.write a 4 0 0) = false ∧ s.sees 0 = false := by
  unfold State.hostRuns State.hostFree at h
  simp only [Bool.and_eq_true, Bool.not_eq_true', beq_iff_eq, bne_iff_ne, Bool.or_eq_true] at h
  obtain ⟨⟨⟨⟨⟨⟨⟨⟨⟨h1, h2⟩, h3⟩, h4⟩, h5⟩, h6⟩, h7⟩, h8⟩, h9⟩, ⟨h10, h11⟩, h12⟩ := h
  refine ⟨?_, h3, h4, h5, h6, ?_, h9, h10, h11, h12⟩
  · unfold State.hostAway; simp [h1, h2, h3]
  · rcases h7 with h7 | h7 <;> simp [h7, h8]

/-- A command of the host that reaches its block is its effect `f`, where that leaves the power state, the trace unit's overflow and the
captured bus error as they were. -/
theorem hostCmd_runs {s : State} {a : Nat} {mask v : W32} {f : State → State} (h : s.hostRuns a = true)
    (h1 : (f s).power.entering = s.power.entering) (h2 : (f s).power.exiting = s.power.exiting)
    (h3 : (f s).reg R.PWR_STAT = s.reg R.PWR_STAT) (h4 : (f s).reg R.HST_BERR = s.reg R.HST_BERR)
    (h5 : (f s).reg R.TRC_STAT = s.reg R.TRC_STAT) : s.hostCmd a mask v f = f s := by
  obtain ⟨p1, p2, p3, p4, p5, p6, p7, p8, p9, p10⟩ := hostRuns_parts h
  have hs : (f s).fget F.PWR_STAT_STATE = 0 := (State.fget_congr F.PWR_STAT_STATE h3).trans p2
  have hw : (s.hostWrite a ((s.reg a &&& ~~~mask) ||| v) f).wakeAwake 3 = f s := by
    unfold State.hostWrite
    simp only [p6, transact_unseen (p := regPacket 0 a (some ((s.reg a &&& ~~~mask) ||| v))) p10, p7]
    exact wakeAwake_run 3 (h1.trans p4) (h2.trans p5) hs
  have hh : s.hostHeld (.write a 4 mask v) = false := p9
  unfold State.hostCmd
  simp only [p1, Bool.false_eq_true, if_false, trainLink_done p8]
  have ha : s.asleep = false := by unfold State.asleep; simp [p2]
  rw [watch_quiet]
  · simp only [ha, hh, Bool.false_eq_true, if_false]; exact hw
  · simp only [ha, hh, Bool.false_eq_true, if_false, hw]
    intro b hb
    simp only [List.mem_cons, List.not_mem_nil, or_false] at hb
    rcases hb with rfl | rfl | rfl
    · show s.bit F.PWR_STAT_TRANSITION = false → (f s).bit F.PWR_STAT_TRANSITION = false
      rw [State.bit_congr F.PWR_STAT_TRANSITION h3]; exact id
    · show (s.bit F.TRC_STAT_FULL || s.bit F.TRC_STAT_OVF) = false → ((f s).bit F.TRC_STAT_FULL || (f s).bit F.TRC_STAT_OVF) = false
      rw [State.bit_congr F.TRC_STAT_FULL h5, State.bit_congr F.TRC_STAT_OVF h5]; exact id
    · show s.bit F.HST_BERR_VALID = false → (f s).bit F.HST_BERR_VALID = false
      rw [State.bit_congr F.HST_BERR_VALID h4]; exact id

/-- A command of the host in reset or Off has no effect. -/
theorem hostCmd_away {s : State} (a : Nat) (mask v : W32) (f : State → State) (h : s.hostAway = true) :
    s.hostCmd a mask v f = s := by
  unfold State.hostCmd
  simp [h]

end Sys2Proof.Machine
end

