-- ==== Sys2Proof/Laws/Same.lean ====
section
/-! SUPPORT. A function whose law has a mask leaves every part of the state that the mask does not reach as it was. -/

namespace Sys2Proof.Machine

/-- The kinds of update, as a mask, that reach a part of the state. -/
def Part_.reach : Part_ → Nat
  | .regs => 0x6A00000000
  | .snap => 0x4000000001
  | .staged => 0x4000000002
  | .mem => 0x5400000000
  | .core => 0x4000000004
  | .strands => 0x4000000008
  | .instrs => 0x4000000010
  | .ports => 0x4000000020
  | .ring => 0x4000000040
  | .image => 0x4000000080
  | .lanes => 0x4000000100
  | .caps => 0x4000000200
  | .pats => 0x4000000400
  | .reports => 0x4000000800
  | .trace => 0x4000001000
  | .time => 0x4000002000
  | .trig => 0x4000004000
  | .edge => 0x4000008000
  | .act => 0x4000010000
  | .splice => 0x4000020000
  | .pinIn => 0x4000040000
  | .land => 0x4000080000
  | .host => 0x4000100000
  | .flt => 0x4000200000
  | .load => 0x4000400000
  | .recon => 0x4000800000
  | .nvm => 0x4001000000
  | .power => 0x4002000000
  | .store => 0xC004000000
  | .sec => 0x4008000000
  | .tap => 0x4010000000
  | .pins => 0x4020000000
  | .por => 0x4040000000
  | .warm => 0x4080000000
  | .free => 0x4100000000

/-- The parts in `l` of `t` are those of `r`. -/
def State.sameOn (r : State) (l : List Part_) (t : State) : Prop := ∀ p ∈ l, r.same t p

theorem State.sameOn_refl (r : State) (l : List Part_) : r.sameOn l r := fun p _ => by cases p <;> rfl

theorem reach_absurd {l : List Part_} {m i : Nat} (e : ∀ p ∈ l, p.reach &&& m = 0) (h : m.testBit i = true) {p : Part_}
    (hp : p ∈ l) (hr : p.reach.testBit i = true) {Q : Prop} : Q := by
  have := congrArg (fun n => n.testBit i) (e p hp)
  simp [Nat.testBit_and, h, hr] at this

/-- Agreement on parts that a mask does not reach survives the updates of the mask. -/
theorem Closed.sameOn (r : State) (l : List Part_) {m : Nat} (e : ∀ p ∈ l, p.reach &&& m = 0) : Closed (r.sameOn l) m where
  snap h _ _ hs p hp := by have hs := hs p hp; cases p <;> first | exact reach_absurd e h hp rfl | exact hs
  staged h _ _ hs p hp := by have hs := hs p hp; cases p <;> first | exact reach_absurd e h hp rfl | exact hs
  core h _ _ hs p hp := by have hs := hs p hp; cases p <;> first | exact reach_absurd e h hp rfl | exact hs
  strands h _ _ hs p hp := by have hs := hs p hp; cases p <;> first | exact reach_absurd e h hp rfl | exact hs
  instrs h _ _ hs p hp := by have hs := hs p hp; cases p <;> first | exact reach_absurd e h hp rfl | exact hs
  ports h _ _ hs p hp := by have hs := hs p hp; cases p <;> first | exact reach_absurd e h hp rfl | exact hs
  ring h _ _ hs p hp := by have hs := hs p hp; cases p <;> first | exact reach_absurd e h hp rfl | exact hs
  image h _ _ hs p hp := by have hs := hs p hp; cases p <;> first | exact reach_absurd e h hp rfl | exact hs
  lanes h _ _ hs p hp := by have hs := hs p hp; cases p <;> first | exact reach_absurd e h hp rfl | exact hs
  caps h _ _ hs p hp := by have hs := hs p hp; cases p <;> first | exact reach_absurd e h hp rfl | exact hs
  pats h _ _ hs p hp := by have hs := hs p hp; cases p <;> first | exact reach_absurd e h hp rfl | exact hs
  reports h _ _ hs p hp := by have hs := hs p hp; cases p <;> first | exact reach_absurd e h hp rfl | exact hs
  trace h _ _ hs p hp := by have hs := hs p hp; cases p <;> first | exact reach_absurd e h hp rfl | exact hs
  time h _ _ hs p hp := by have hs := hs p hp; cases p <;> first | exact reach_absurd e h hp rfl | exact hs
  trig h _ _ hs p hp := by have hs := hs p hp; cases p <;> first | exact reach_absurd e h hp rfl | exact hs
  edge h _ _ hs p hp := by have hs := hs p hp; cases p <;> first | exact reach_absurd e h hp rfl | exact hs
  act h _ _ hs p hp := by have hs := hs p hp; cases p <;> first | exact reach_absurd e h hp rfl | exact hs
  splice h _ _ hs p hp := by have hs := hs p hp; cases p <;> first | exact reach_absurd e h hp rfl | exact hs
  pinIn h _ _ hs p hp := by have hs := hs p hp; cases p <;> first | exact reach_absurd e h hp rfl | exact hs
  land h _ _ hs p hp := by have hs := hs p hp; cases p <;> first | exact reach_absurd e h hp rfl | exact hs
  host h _ _ hs p hp := by have hs := hs p hp; cases p <;> first | exact reach_absurd e h hp rfl | exact hs
  flt h _ _ hs p hp := by have hs := hs p hp; cases p <;> first | exact reach_absurd e h hp rfl | exact hs
  load h _ _ hs p hp := by have hs := hs p hp; cases p <;> first | exact reach_absurd e h hp rfl | exact hs
  recon h _ _ hs p hp := by have hs := hs p hp; cases p <;> first | exact reach_absurd e h hp rfl | exact hs
  nvm h _ _ hs p hp := by have hs := hs p hp; cases p <;> first | exact reach_absurd e h hp rfl | exact hs
  power h _ _ hs p hp := by have hs := hs p hp; cases p <;> first | exact reach_absurd e h hp rfl | exact hs
  store h _ _ _ hs p hp := by have hs := hs p hp; cases p <;> first | exact reach_absurd e h hp rfl | exact hs
  sec h _ _ hs p hp := by have hs := hs p hp; cases p <;> first | exact reach_absurd e h hp rfl | exact hs
  tap h _ _ hs p hp := by have hs := hs p hp; cases p <;> first | exact reach_absurd e h hp rfl | exact hs
  pins h _ _ hs p hp := by have hs := hs p hp; cases p <;> first | exact reach_absurd e h hp rfl | exact hs
  por h _ _ hs p hp := by have hs := hs p hp; cases p <;> first | exact reach_absurd e h hp rfl | exact hs
  warm h _ _ hs p hp := by have hs := hs p hp; cases p <;> first | exact reach_absurd e h hp rfl | exact hs
  free h _ _ hs p hp := by have hs := hs p hp; cases p <;> first | exact reach_absurd e h hp rfl | exact hs
  setReg h _ _ _ hs p hp := by have hs := hs p hp; cases p <;> first | exact reach_absurd e h hp rfl | exact hs
  wrByte h _ _ _ hs p hp := by have hs := hs p hp; cases p <;> first | exact reach_absurd e h hp rfl | exact hs
  filterRegs h _ _ hs p hp := by have hs := hs p hp; cases p <;> first | exact reach_absurd e h hp rfl | exact hs
  filterMem h _ _ hs p hp := by have hs := hs p hp; cases p <;> first | exact reach_absurd e h hp rfl | exact hs
  regsOf h _ _ hs _ p hp := by have hs := hs p hp; cases p <;> first | exact reach_absurd e h hp rfl | exact hs
  restart h _ _ _ p hp := reach_absurd e h hp (by cases p <;> rfl)
  fuses h _ _ hs p hp := by have hs := hs p hp; cases p <;> first | exact reach_absurd e h hp rfl | exact hs

end Sys2Proof.Machine
end

