-- ==== Sys2Proof/Laws/Strand.lean ====
section
/-! SUPPORT. What the operations of a strand's step do to the strands, and how a step of each row unfolds. -/

namespace Sys2Proof.Machine

/-! ### Strands under the operations of a step -/

theorem strand_of_same {s t : State} (h : s.sameOn [.strands] t) (g : Nat) : t.strand g = s.strand g := by
  have : s.strands = t.strands := h .strands (by simp)
  unfold State.strand
  rw [this]

theorem strand_setStrand (s : State) (g h : Nat) (x : Strand) :
    (s.setStrand g x).strand h = if h = g then x else s.strand h := by
  unfold State.setStrand State.strand
  simp only [SMap.get_set]

@[simp] theorem strand_enterStep (s : State) (t h : Nat) : (s.enterStep t).strand h = s.strand h :=
  strand_of_same (State.enterStep_only (Closed.sameOn s _ (by decide)) (s.sameOn_refl _) t) h

@[simp] theorem strand_stepFault (s : State) (g t ord : Nat) (f : Nat × Nat × Nat) (h : Nat) :
    (s.stepFault g t ord f).strand h = s.strand h :=
  strand_of_same (State.stepFault_only (Closed.sameOn s _ (by decide)) (s.sameOn_refl _) g t ord f) h

@[simp] theorem strand_countCe (s : State) (g t : Nat) (y : Byte) (h : Nat) : (s.countCe g t y).strand h = s.strand h :=
  strand_of_same (State.countCe_only (Closed.sameOn s _ (by decide)) (s.sameOn_refl _) g t y) h

@[simp] theorem strand_countUe (s : State) (g t : Nat) (y : Byte) (n h : Nat) :
    (s.countUe g t y n).strand h = s.strand h :=
  strand_of_same (State.countUe_only (Closed.sameOn s _ (by decide)) (s.sameOn_refl _) g t y n) h

@[simp] theorem strand_matchEntries (s : State) (g t : Nat) (q : Bool) (n : Option (Nat × Bool)) (h : Nat) :
    (s.matchEntries g t q n).strand h = s.strand h :=
  strand_of_same (State.matchEntries_only (Closed.sameOn s _ (by decide)) (s.sameOn_refl _) g t q n) h

@[simp] theorem strand_fetchOperands (s : State) (g t : Nat) (b : Bool) (w : W64) (h : Nat) :
    (s.fetchOperands g t b w).1.strand h = s.strand h :=
  strand_of_same (State.fetchOperands_only (Closed.sameOn s _ (by decide)) (s.sameOn_refl _) g t b w) h

@[simp] theorem strand_stagePort (s : State) (g t b : Nat) (f r : Bool) (h : Nat) :
    (s.stagePort g t b f r).strand h = s.strand h := rfl

@[simp] theorem strand_markEvent (s : State) (g t e h : Nat) : (s.markEvent g t e).strand h = s.strand h :=
  strand_of_same (State.markEvent_only (Closed.sameOn s _ (by decide)) (s.sameOn_refl _) g t e) h

@[simp] theorem strand_endSchedule (s : State) (h : Nat) : s.endSchedule.strand h = s.strand h :=
  strand_of_same (State.endSchedule_only (Closed.sameOn s _ (by decide)) (s.sameOn_refl _)) h

theorem strand_enterResult (s : State) (g : Nat) (r : Bool) (h : Nat) :
    (s.enterResult g r).strand h = if h = g then (s.strand g).advance r else s.strand h := strand_setStrand _ _ _ _

theorem strand_stageState (s : State) (g t a : Nat) (r : Bool) (h : Nat) :
    (s.stageState g t a r).strand h =
      if h = g then { s.strand g with staged := SMap.put (s.strand g).staged a r } else s.strand h := by
  unfold State.stageState
  dsimp only
  split
  · rw [strand_stepFault, strand_setStrand]
  · rw [strand_setStrand]

/-- The strands of an EVAL_LATCH beside its own, and every part of its own but the staged values. -/
theorem strand_stageState_self (s : State) (g t a : Nat) (r : Bool) :
    (s.stageState g t a r).strand g = { s.strand g with staged := SMap.put (s.strand g).staged a r } := by
  simp [strand_stageState]

@[simp] theorem advance_hist (x : Strand) (r : Bool) : (x.advance r).hist = x.hist <<< 1 ||| (if r then 1 else 0) := rfl
@[simp] theorem advance_pos (x : Strand) (r : Bool) : (x.advance r).pos = x.pos + 1 := rfl
@[simp] theorem advance_store (x : Strand) (r : Bool) : (x.advance r).store = x.store := rfl
@[simp] theorem advance_staged (x : Strand) (r : Bool) : (x.advance r).staged = x.staged := rfl

/-! ### The row of a sound word -/

/-- A row whose strand fetches a sound word of its class that passes the checks executes that word. -/
theorem strandStep_runs {s : State} {op g : Nat} (h : s.runsClass op g) :
    s.strandStep op g = (s.enterStep (s.strand g).pos).runWord g (s.strand g).pos (wordData (s.fetched g)) := by
  obtain ⟨h1, h2, h3, h4⟩ := h
  unfold State.fetched at h2 h3 h4
  unfold State.strandStep State.fetched
  simp only [h1, h2, h3, correctedData, h4]
  simp

/-- A row whose strand may not step does nothing. -/
theorem strandStep_idle {s : State} {g : Nat} (op : Nat) (h : s.mayStep g = false) : s.strandStep op g = s := by
  unfold State.strandStep
  simp [h]

end Sys2Proof.Machine
end

