-- ==== Sys2Proof/WellFormed.lean ====
section
/-! DEFINITION. Which operands a command may have: numbers within what the spec gives the device, data of the sizes it gives. The
machine takes every command; a command that is not well formed stands for nothing outside the model. -/

namespace Sys2Proof

/-- Lanes and channels 0–1055 (R8). -/
def laneOk (n : Nat) : Bool := n < 1056

/-- Stations: cord stations 0x00–0x7F, end stations 0x80–0x9F (R95). -/
def stnOk (n : Nat) : Bool := n < 0xA0

/-- A packet carries the ID of a master (R364) and 0–8 payload flits of two words; a request names no receiver of a response and holds no status, and its
network is the one of its kind (R95, R109). -/
def requestOk (p : Packet) (vn : BitVec 2) (data : Bool) : Bool :=
  masterOk p.src && (!p.bar2 || p.src == 0) && p.vn == vn && p.len.toNat ≤ 8 && p.dstId == 0 && p.status == 0 && stnOk p.dstStn.toNat
    && p.payload.length == (if data then 2 * p.len.toNat else 0)

/-- A response travels on VN2 with a status other than 3 (R109). -/
def responseOk (p : Packet) (data : Bool) : Bool :=
  p.vn == 2 && p.len.toNat ≤ 8 && p.status != 3 && stnOk p.dstStn.toNat
    && p.payload.length == (if data then 2 * p.len.toNat else 0)

/-- A configuration frame's record data is 4,096 bytes long (R274). -/
def frameOk (b : Bytes) : Bool := b.length == 4096

/-- The outer header is 512 bytes long, a partition header 1,024 (R271, R272). -/
def hdrOk (h : CastHdr) : Bool := h.outer.length == 512 && h.part.length == 1024

/-- A TOD's nanoseconds stay below a second, its seconds within 48 bits (R210). -/
def todOk (t : BitVec 96) : Bool := decide (t.toNat / 65536 % 2 ^ 32 < 1000000000)

/-- A receive word: at most 15 symbols are corrected in a codeword (R191). -/
def rxOk (w : RxWord) : Bool := w.corr.toNat ≤ 15

def pinIdOk : PinId → Bool
  | .gpio n => n.toNat < 192
  | _ => true

def edgeClkOk : EdgeClk → Bool
  | .core => true
  | .laneSet k => k.toNat < 66

/-- Register accesses are of 1, 2 or 4 bytes, within one word (R11). -/
def accessOk (a : W32) (n : BitVec 3) : Bool :=
  (n == 1 || n == 2 || n == 4) && a.toNat % n.toNat == 0

/-- The check of a command's operands. -/
def Instr.wellFormed : Instr → Bool
  | .nop _ | .eval _ | .evalLatch _ | .stateRead _ | .evalSend _ | .evalPort _ | .evalCheck _ | .turnEnd _ => true
  | .commit | .prefixStart | .prefixCancel | .turnBoundary | .outputRelease | .turnOverrun | .scrubStep _ | .anchorLost => true
  | .halt _ | .singleStep | .relock | .realign | .slackRst => true
  | .bightDelivery stn dir _ => stnOk stn.toNat && dir.toNat < 5
  | .read p => requestOk p 1 false
  | .write p => requestOk p 1 true
  | .postedWrite p => requestOk p 3 true && p.src != 0
  | .stream p => requestOk p 3 true
  | .respData p _ => responseOk p true
  | .respAck p _ => responseOk p false
  | .g32BwRead _ | .prbClr _ => true
  | .stationDrainEnd stn => stnOk stn.toNat
  | .tableSwap stn => stnOk stn.toNat
  | .portAccess _ _ | .bankDelayedAccess _ _ | .portReturn _ _ | .deferredDataArrival _ _ => true
  | .bnkOwnWrite _ m _ => masterOk m
  | .handoverComplete _ => true
  | .turnInputWrite _ _ _ _ _ | .turnOutputRead _ _ _ _ => true
  | .laneRxWord l w => laneOk l.toNat && rxOk w
  | .laneTxWord l _ => laneOk l.toNat
  | .laneEnable l | .laneDisable l | .laneShutdownDone l => laneOk l.toNat
  | .txSrc l _ => laneOk l.toNat
  | .neLpbk l _ | .feLpbk l _ => laneOk l.toNat
  | .laneLock l _ _ _ _ => laneOk l.toNat
  | .laneLockLoss l _ => laneOk l.toNat
  | .calMicroStep l _ _ | .calApply l _ _ | .calPin l _ => laneOk l.toNat
  | .eyeScanStart l | .eyeScanAbort l | .chkClr l => laneOk l.toNat
  | .eyeScanPoint l _ => laneOk l.toNat
  | .todArm | .todCancel | .phaseGo | .slewDone | .timeFreq _ | .ppsEdge _ | .ppsLoss | .timeRefLost | .refQualified => true
  | .txqPop _ | .toutEnable _ | .toutDisable _ | .toutPulse _ | .toutPulseEnd _ | .timeMark => true
  | .capArm _ _ | .capTrig _ _ | .capStop _ _ | .capBlockClose _ _ | .capBlockWrite _ => true
  | .seqStart _ | .seqStop _ | .knotTransition _ _ | .thaw | .trgSoft _ | .clr _ => true
  | .patEnable _ | .patDisable _ | .patShutdownDone _ | .patSrc _ _ | .patGo _ | .patSourceSwitch _ | .patDescFetch _
  | .patSegmentEnd _ | .patUnderrun _ => true
  | .queuePost m _ _ => masterOk m
  | .hpost _ | .dispatch _ | .affinityWaitExpiry _ | .actEnd _ => true
  | .movi _ | .add _ | .logic _ | .shift _ | .fieldNode _ | .cmp _ | .test _ | .hash _ | .now _ | .load _ | .store _ | .count _
  | .build _ | .patch _ | .fcs _ | .tsreq _ | .sendp _ | .sendt _ | .post _ | .event _ | .delay _ | .cancel _ | .mask _
  | .clrf _ | .actOpComplete _ => true
  | .delayTick d => d.toNat < 3
  | .actFlSet _ _ => true
  | .porN _ | .warmN _ => true
  | .bootLoad d h => (match d with | some b => b.length == 4096 | none => true) && hdrOk h
  | .cfgLoad _ | .nvmError | .sectionEnd _ => true
  | .dict _ f => frameOk f
  | .frameWrite _ f => frameOk f
  | .repl _ _ _ _ | .zeroFrames _ _ | .recs _ => true
  | .scriptWrite | .scriptWait | .scriptPoll | .scriptPollTimeout | .scriptCommit | .scriptEnd => true
  | .chainIn h => hdrOk h
  | .chainFail | .fwdFail | .partGo | .partHold | .regionIsolate | .regionRelease => true
  | .nvmRead | .nvmWrite | .nvmErase => true
  | .nvmDone _ b => b.length ≤ 4096
  | .hello _ | .pairFail | .heartbeat _ | .mirrorWord _ _ _ | .writtenFlags _ _ => true
  | .flowContextDelta d => d.v.length == 8
  | .timeAdjustment a => match a with | .tod t => todOk t | _ => true
  | .partnerTrigOut _ | .partTurnNumbers _ _ | .partnerLoss _ | .promotionComplete | .relinquish | .linkEn _ => true
  | .faultFetch _ _ => true
  | .wireFault _ c => c.code == 0 || c.code == 3
  | .graceExpiry | .ack | .release | .fltInjGo | .fltInjWire => true
  | .thermSample _ _ => true
  | .railFault _ => true
  | .brownout => true
  | .pwrGo _ | .pwrFlagRequest _ | .stepClockStop | .wake _ | .pwrExitComplete => true
  | .deepSleepReload h _ => hdrOk h
  | .domainGate d | .domainGated d | .domainEnable d | .domainPowered d => d.toNat < 86
  | .traceRecord _ | .tracePacketWrite | .traceEnable | .traceDisable | .traceFlush | .traceIdleFlush | .traceShutdownDone => true
  | .dmaTail _ _ => true
  | .dmaDescriptorDone _ b => b.length == 32
  | .dmaEnable _ | .dmaDisable _ => true
  | .attestGo | .attestDone | .rbAdvance _ | .fuseProgram _ | .fuseProgramDone _ => true
  | .bypass | .idcode => true
  | .samplePreload a b => a.length == b.length
  | .extest _ => true
  | .clamp | .highz | .privateInstruction _ | .boardId _ | .lifetime | .lifetimeWrite _ => true
  | .pinCfg n _ => n.toNat < 192
  | .pinLock _ => true
  | .pinInput p _ => pinIdOk p
  | .registerWrite m a _ n => masterOk m && accessOk a n
  | .registerRead m a n => masterOk m && accessOk a n
  | .blockClockEdge _ c => edgeClkOk c
  | .chkLock l _ => laneOk l.toNat
  | .feSlip l => laneOk l.toNat
  | .partVerifyDone h => hdrOk h
  | .chainRdyN _ => true
  | .wireBadEnd _ c => c == 1 || c == 2
  | .calibratorUpdate k _ => k.toNat < 6
  | .trstN _ | .pciePerstN _ => true

end Sys2Proof
end

