-- ==== Sys2Proof/Tests/Slice0.lean ====
section
/-! SUPPORT. Tests: worked examples of the spec, ill-formed commands that the check refuses, and for each statement with hypotheses
a state and operands that meet them (`witness_<statement>`, one part for each clause). -/

namespace Sys2Proof.Machine.Tests

/-! ### Small states -/

/-- A machine that runs an image of the first 16 cords. -/
def ready : State :=
  let s := State.reset
  let s := { s with image := { s.image with committed := true, part := 0x4100, cords := 0xFFFF } }
  (s.fset F.CFG_STAT_STATE 5).setReg R.HST_LINK 9

/-- `ready` in a turn of `l` steps, strand 0 of cord 0 about to fetch `w`. -/
def stepping (l w : Nat) : State :=
  let s := ready.fset F.TURN_CFG_L l
  { s with core := { s.core with phase := .turn }, instrs := [(0, storedWord (BitVec.ofNat 64 w))] }

/-- A word of class `op` with selectors 0. -/
def word (op aux : Nat) : Nat := op * 2 ^ 60 + aux

/-- A port operation of strand 0 at the turn's start. -/
def anOp (mode : Nat) (write : Bool) : PortOp :=
  { mode, write, addr := 0, data := 0, be := 0xFF, strand := 0, step := 0, turn := 0, fire := 0, access := 0, ret := 0, time := 0 }
def withOp (s : State) (o : PortOp) : State := { s with ports := [(0, { ops := [o] })] }

/-- The edge fabric runs, with the given turn input assignments. -/
def tins (tin : List Nat) : State :=
  let s := ready.setBit F.EDG_STAT_RESET_HELD false
  { s with edge := { s.edge with die := { s.edge.die with mhz := some 500, tin } } }

/-- A bight at station `stn` in the turn's step 0, and a record of the slot tables for it. -/
def bightOf (stn : Nat) : Bight := { stn, dir := 0, pos := 0, val := true, at_ := 0, spec := false }
def withBight (stn : Nat) (slots : SMap W32) : State :=
  { ready with core := { ready.core with phase := .turn, cur := some 0 }, ring := { slots, bights := [bightOf stn] } }

/-- A packet of master 0x10 with one line to `addr`. -/
def pkt (addr : BitVec 48) : Packet := { src := 0x10, dstStn := 0, addr, len := 1, payload := [1, 2] }
/-- A response that waits for the packet. -/
def resp (data : Bool) (status : BitVec 2) (p : Packet) : Response :=
  { p := { p with dstId := p.src, status }, data, stn := 0 }
def withResp (r : Response) : State := { ready with ring := { resps := [r] } }

/-- The machine as the logic of an edge finds it. -/
def falling (die : Bool) (k : EdgeClk) (s : State) : State :=
  let s := if k = .core ∧ die = false then s.pinEdge.trigEdge else s
  s.each (if die then [] else s.edge.die.ios.filter fun p => p.2.clk == k) fun w p => w.ioFall p.1
/-- Lane `n` is configured and enabled. -/
def laneOf (n : Nat) : State := (ready.setBit (F.LANE_CFG_CONFIGURED n) true).setBit (F.LANE_CTL_EN n) true

/-- A node word (R259) with operation code, IMM and IMM2. -/
def node (op imm imm2 : Nat) : W128 := BitVec.ofNat 128 (op + imm * 2 ^ 32 + imm2 * 2 ^ 64)
/-- Unit 0 serves flow 0 at node `w`. -/
def atNode (w : W128) (x : Unit_) : State :=
  let s := (ready.setBit F.ACT_STAT_RUNNING true).setBit (F.ACT_UNIT_BUSY 0) true
  { s with act := { s.act with graph := [(0, w)], units := [(0, x)] } }
/-- Operation `o` of unit 0 is in flight. -/
def withAct (s : State) (o : ActOp) (wait : Option (Nat × Nat)) : State := s.setUnit 0 { ops := [o], wait }

/-- Sequencer 0 runs at knot 0, which waits for input 5. -/
def knotOn : State :=
  ((ready.setBit (F.TRG_SEQ_STAT_RUNNING 0) true).fset (F.TRG_KNOT_EV_A 0 0) 5).fset (F.TRG_KNOT_TERM_EN 0 0) 1

/-- Capture channel 0 has a ring of `n` blocks at the start of the DRAM. -/
def ringOf (n : Nat) : State :=
  (((ready.fset (F.BNK_GRN_USE 0) 1).wset (W.CAP_BASE_BASE 0) 0x010000000000).fset (F.CAP_SIZE_SIZE 0) n).fset (F.CAP_POST_POST 0) 1
def aBlock : CapBlock := { kind := 0, ts := 5 }
def openBlock (n : Nat) : OpenBlock :=
  { ts := 5, entries := List.replicate n 0, recs := [], err := false, fec := false, trig := false }
/-- A descriptor at the start of the DRAM that names one block in the next KiB. -/
def descIn : State :=
  let s := (ready.fset (F.BNK_GRN_USE 0) 2).wset (W.PAT_DESC_BASE_BASE 0) 0x010000000000
  { s with mem := [(0x010000000001, 0x10), (0x010000000005, 1), (0x010000000008, 1)] }
def aDesc (next : Nat) : PatDesc := { data := 0x010000000000, nblk := 1, loop := 0, ctl := 0, next, hasCtl := false }

theorem ready_knots : ∀ n < 8, ∀ k < 16, ∀ i < 8, ready.knotHas n k i = false := by decide +kernel
theorem ready_knot (n : Nat) (hn : n < 8) (k : Nat) (hk : k < 16) (i : Nat) : ready.knotHas n k i = false := by
  by_cases hi : i < 8
  · exact ready_knots n hn k hk i hi
  · obtain ⟨j, rfl⟩ := Nat.exists_eq_add_of_le (Nat.le_of_not_lt hi)
    rw [Nat.add_comm]; rfl
/-- No channel but channel 0 has a ring. -/
theorem ring_alone (m : Nat) (h : m ≠ 0) : ((ringOf 2).fset (F.CAP_STAT_STATE 0) capPost).capMember
    (((ringOf 2).fset (F.CAP_STAT_STATE 0) capPost).fget (F.CAP_CFG_SET 0)) m = false := by
  have all : ∀ m < 1024, m ≠ 0 → ((ringOf 2).fset (F.CAP_STAT_STATE 0) capPost).fget (F.CAP_SIZE_SIZE m) = 0 := by decide +kernel
  have here : ((ringOf 2).fset (F.CAP_STAT_STATE 0) capPost).big = true := by decide
  unfold State.capMember State.capHere
  rw [here]
  by_cases hm : m < 1024
  · rw [all m hm h]; simp
  · simp [hm]

/-- Headers with sections of the given types: a declaration of an AY4100 image of cords 0 to 127 with L = `l`, and a digest. -/
def hdrOf (l : Nat) (types : List Nat) (digest : Nat) : CastHdr :=
  { outer := [0]
    manifest := List.replicate 120 0 ++ leBytes 32 digest
    part := List.replicate 8 0 ++ leBytes 2 types.length ++ List.replicate 0x76 0
      ++ (leBytes 2 0 ++ leBytes 2 0x4100 ++ List.replicate 4 0 ++ leBytes 2 l ++ List.replicate 22 0 ++ List.replicate 16 255
          ++ List.replicate 80 0)
      ++ types.flatMap fun t => leBytes 1 t ++ List.replicate 15 0 }
/-- A full load is at the only section of its cast, of type `t`. -/
def loading (t : Nat) (recs : Bytes) : State :=
  let s := State.reset.fset F.CFG_STAT_STATE 3
  { s with load := { s.load with on := true, hdr := hdrOf 16 [t] 1, recs } }
/-- A directory with one BOOT entry, entry 1. -/
def dirBytes : Bytes := leBytes 4 0x52445941 ++ leBytes 2 1 ++ leBytes 2 2 ++ List.replicate 88 0 ++ [3] ++ List.replicate 100 0
/-- The host asks for entry `i` of the directory. -/
def single (i : Nat) : State :=
  let s := State.reset.fset F.CFG_CTL_LOAD_SEL i
  { s with load := { s.load with single := true } }
/-- `loading`, of a partial image for cord group 0. -/
def partLoading (t : Nat) : State :=
  let s := (loading t []).fset F.CFG_PART_STAT_STATE 2
  { s with load := { s.load with part := true }, recon := { cords := 1 } }
/-- A partial image waits for its headers; its directory entry is PARTIAL. -/
def partWaits (isolated : Bool) : State :=
  let b := leBytes 4 0x52445941 ++ leBytes 2 1 ++ leBytes 2 1 ++ List.replicate 56 0 ++ [5] ++ List.replicate 31 0
  { ready.fset F.CFG_PART_STAT_STATE 1 with image := { ready.image with dir := some b }, recon := { isolated } }
/-- A boot script whose first entry has code `op`, phase `post`, address, value and mask; the load is in state `st`. -/
def scripted (st op post addr : Nat) : State :=
  let s := State.reset.fset F.CFG_STAT_STATE st
  { s with load := { s.load with
      on := true, hdr := hdrOf 16 [1] 1
      held := [(1, leBytes 1 op ++ leBytes 1 post ++ leBytes 2 0 ++ leBytes 4 addr ++ leBytes 4 5 ++ leBytes 4 0xFFFFFFFF)] } }
/-- The state that a command leaves. -/
def after (c : Instr) (s : State) : State :=
  match exec c s with
  | .next t => t
  | _ => s

def aHello : Hello := { role := 2, imageId := 0, lag := 0, span := 0, lockSrc := false, serial := 0, latency := 0 }
def aBeat : Heartbeat := { boundary := 5, starts := none, digest := none }
/-- The splice link is up. -/
def linked : State :=
  let s := { ready.setBit F.SPL_CTL_LINK_EN true with image := { ready.image with part := 0x4060 } }
  s.each s.spliceLanes fun s n => s.setBit (F.LANE_STAT_ALIGNED n) true
/-- A pair in state `st` of SPL_STAT. -/
def paired (s : State) (st : Nat) : State :=
  let s := s.fset F.SPL_STAT_STATE st
  { s with splice := { s.splice with paired := true }, time := { s.time with now := 2 ^ 40 } }
/-- A report of source 5. -/
def report (code : Nat) : Report :=
  { src := 5, code, master := 0x85, acc := 1, addr := 0, time := 0, turn := 0, strand := 0, step := 0 }

theorem leNat_leBytes (n x : Nat) (h : x < 256 ^ n) : leNat (leBytes n x) = x := by
  induction n generalizing x with
  | zero => simp [leBytes, leNat] at *; omega
  | succ n ih =>
    have : x / 256 < 256 ^ n := by rw [Nat.div_lt_iff_lt_mul (by omega)]; rwa [Nat.pow_succ] at h
    simp only [leBytes, leNat, ih _ this, BitVec.toNat_ofNat]
    omega

/-- `loading` of sections of the given types whose first digest fits an empty section. -/
def fitting (types : List Nat) : State :=
  let s := State.reset.fset F.CFG_STAT_STATE 3
  { s with load := { s.load with on := true, hdr := hdrOf 16 types (Config.sm3 []).toNat } }
/-- `fitting`, of a partial image. -/
def partFitting (types : List Nat) : State :=
  let s := (fitting types).fset F.CFG_PART_STAT_STATE 2
  { s with load := { s.load with part := true } }
theorem fitting_digest (types : List Nat) : hDigest (fitting types).load.hdr (fitting types).load.sec = (Config.sm3 []).toNat := by
  have h : slice (List.replicate 120 0 ++ leBytes 32 (Config.sm3 []).toNat) 120 32 = leBytes 32 (Config.sm3 []).toNat := by
    rw [slice, List.drop_append_of_le_length (by simp), List.drop_eq_nil_of_le (by simp)]
    simp [leBytes_length, List.take_of_length_le]
  have lt : (Config.sm3 []).toNat < 256 ^ 32 := (Config.sm3 []).isLt
  show leNat (slice (List.replicate 120 0 ++ leBytes 32 (Config.sm3 []).toNat) 120 32) = _
  rw [h, leNat_leBytes _ _ lt]
theorem fitting_region (h : Config.regionRecords [] = .ok {}) (h4 : Config.portRecords [] = []) :
    earlier (fitting [8, 9]).load.bad (fitting [8, 9]).wholeChecks = none := by
  have t8 : (fitting [8, 9]).secType = 8 := by decide
  have r : (fitting [8, 9]).load.recs = [] := rfl
  have c : (fitting [8, 9]).section 4 = [] := by decide
  have a : (hTypes (fitting [8, 9]).load.hdr).contains 6 = false := by decide
  simp only [State.wholeChecks, t8, r, h, c, a]
  simp only [windowChecks, h4, Bool.false_eq_true, if_false]
  decide
/-- Two headers with different digests: a digest of the empty section fails against one of them. -/
theorem other_digest : ∃ (s : State) (b : Bytes), s.reading = true ∧ (Config.sm3 b).toNat ≠ hDigest s.load.hdr s.load.sec := by
  have h1 : hDigest (loading 1 []).load.hdr (loading 1 []).load.sec = 1 := by decide +kernel
  by_cases h : (Config.sm3 []).toNat = 1
  · refine ⟨{ loading 1 [] with load := { (loading 1 []).load with hdr := hdrOf 16 [1] 2 } }, [], by decide +kernel, ?_⟩
    rw [h]; decide +kernel
  · exact ⟨loading 1 [], [], by decide +kernel, by rw [h1]; exact h⟩

def okIs (e : Except Nat (List W64)) (ws : List W64) : Bool :=
  match e with
  | .ok l => l == ws
  | .error _ => false
theorem ok_of {e : Except Nat (List W64)} {ws : List W64} (h : okIs e ws = true) : e = .ok ws := by
  cases e with
  | ok l => rw [eq_of_beq h]
  | error c => exact absurd h Bool.false_ne_true

/-- A load at a SCHEDULE section of an image with L = 1024, and its frame of zeros. -/
def longLoad : State := { loading 9 [] with load := { (loading 9 []).load with hdr := hdrOf 1024 [9] 1 } }
theorem leNat_zeros (n : Nat) : leNat (List.replicate n 0) = 0 := by
  induction n with
  | zero => rfl
  | succ n ih => rw [List.replicate_succ, leNat, ih]; rfl
theorem zero_words : (List.range 512).map (fun i => BitVec.ofNat 64 (leNat (((wholeFrame []).drop (8 * i)).take 8))) =
    List.replicate 512 (0 : W64) := by
  have z : wholeFrame [] = List.replicate 4096 0 := by rw [wholeFrame, List.nil_append, zeroFrame, List.take_replicate]; rfl
  have f : (fun i => BitVec.ofNat 64 (leNat (((wholeFrame []).drop (8 * i)).take 8))) = fun _ => (0 : W64) := by
    funext i; rw [z, List.drop_replicate, List.take_replicate, leNat_zeros]; rfl
  rw [f, List.map_const', List.length_range]
theorem zero_frame : longLoad.frameWords (hDecl longLoad.load.hdr) longLoad.loadNb (longLoad.loadCopy 127) (127 * 1024 + 1023)
    (hGn32 longLoad.load.hdr) (512 * 0)
    ((List.range 512).map fun i => BitVec.ofNat 64 (leNat (((wholeFrame []).drop (8 * i)).take 8))) =
    .ok (List.replicate 512 0) := by
  rw [zero_words]; exact ok_of (by decide +kernel)

/-- The script is at COMMIT with nothing contended, a flywheel span of 1 and lock source `lock`. -/
def committing (lock : Nat) : State :=
  let d := leBytes 2 0 ++ leBytes 2 0x4100 ++ [0] ++ leBytes 1 lock ++ List.replicate 6 0 ++ leBytes 4 1 ++ List.replicate 112 0
  { scripted 4 4 1 0 with load := { (scripted 4 4 1 0).load with hdr := { outer := [0], part := List.replicate 0x80 0 ++ d } } }
theorem committing_settings (lock : Nat) (h12 : Config.sectionSettings 12 [] = []) :
    settingsOf 12 ((committing lock).section 12) = [] := by
  have b : (committing lock).section 12 = [] := rfl
  rw [b, settingsOf, h12]
  rfl
theorem committing_uses (lock : Nat) (h : Config.regionRecords [] = .ok {}) : (committing lock).regionCfg.uses = [] := by
  have a : (committing lock).section 8 = [] := rfl
  rw [State.regionCfg, a, h]

def aRec : TraceRec := .probe false false 0 0 0 0 0 0 0 0
/-- The record has been in the trace unit's queue for 512 ns. -/
def traced (s : State) : State := { s with trace := { queue := [⟨aRec, 0⟩] }, time := { s.time with now := 33554432 } }
/-- A descriptor of 64 bytes from bank 0. -/
def aDescriptor : Bytes := leBytes 8 0x04000000 ++ leBytes 8 0 ++ leBytes 4 64 ++ List.replicate 12 0
/-- An attestation request of mode `m`. -/
def request (m : Byte) : Bytes := m :: List.replicate 183 0
theorem request_zero (m : Byte) (i : Nat) (h : 1 ≤ i) : (request m).getD i 0 = 0 := by
  obtain ⟨j, rfl⟩ := Nat.exists_eq_add_of_le h
  rw [Nat.add_comm, request, List.getD_cons_succ, List.getD_eq_getElem?_getD, List.getElem?_replicate]
  split <;> rfl
theorem request_ok (m : Byte) (h : num (request m) 0 2 ≤ 2) :
    ¬(2 < num (request m) 0 2 ∨ (∃ i, 2 ≤ i ∧ i < 8 ∧ (request m).getD i 0 ≠ 0) ∨
      num (request m) 0 2 ≠ 1 ∧ ∃ i, 40 ≤ i ∧ i < 184 ∧ (request m).getD i 0 ≠ 0) := by
  rintro (h1 | ⟨i, h1, -, h2⟩ | ⟨-, i, h1, -, h2⟩)
  · omega
  · exact h2 (request_zero m i (by omega))
  · exact h2 (request_zero m i (by omega))

set_option maxRecDepth 20000

/-! ### Worked examples of the spec, and one step of each family of commands -/

/-- The worked EVAL word (R41). -/
theorem test_evalWord : (wOp 0x100080287F0F0000, wTT 0x100080287F0F0000, wAux 0x100080287F0F0000) = (1, 8, 0) ∧
    wSels 0x100080287F0F0000 = [0x02, 0x87, 0xF0, 0xF0] := by decide
/-- Truth table 0x0096 is odd parity of A, B and C (R41). -/
theorem test_truthTable : ∀ a b c : Bool, (0x0096 : Nat).testBit (ttIndex [a, b, c, false]) = (a ^^ b ^^ c) := by decide
/-- Two flipped data bits, 0 and 1, give syndrome 0x0C, which is uncorrectable (R32, chapter 15). -/
theorem test_checkCode : syndrome (storedWord 0x100080287F0F0000 ^^^ 3) = 0x0C ∧ decodeSyndrome 0x0C = .uncorrectable := by
  decide
/-- One flipped data bit is corrected (R32). -/
theorem test_corrected : correctedData (storedWord 0x100080287F0F0000 ^^^ 1) = 0x100080287F0F0000 ∧
    decodeSyndrome (syndrome (storedWord 0x100080287F0F0000 ^^^ 1)) = .data 0 := by decide
/-- The word, where there is one. -/
def okWord (e : Except Nat W64) : Option W64 :=
  match e with
  | .ok w => some w
  | .error _ => none
/-- The worked GN32 word and tap (R67, R68). -/
theorem test_gn32 : okWord (gnExpand 5 0x2060050021F0) = some 0x200060083F0F0005 ∧ gnSel 13 0x62 = some 0xAA := by decide
/-- The worked EVAL_LATCH word, with a bight of value 1 in IB3. -/
def latching : State :=
  (stepping 16 0x200060083F0F0005).setStrand 0 { inbox := [(3, { val := true, valid := true })] }
/-- The parity of H0 = 0 and IB3 = 1 is staged for S[5] (R55, R58). -/
theorem test_evalLatch : let t := after (.evalLatch 0) latching
    (t.strand 0).staged = [(5, true)] ∧ (t.strand 0).hist = 1 ∧ (t.strand 0).pos = 1 := by decide
/-- Without a bight in this turn the step reports LATE_OPERAND and goes on with the old value (R54, R55). -/
theorem test_lateOperand : let t := after (.evalLatch 0) (stepping 16 0x200060083F0F0005)
    t.reports.map (fun r => (r.code, r.addr, r.acc)) = [(0x0107, 0x83, 4)] ∧ (t.strand 0).staged = [(5, false)] := by decide
/-- The worked window address: bit 12 of 0x014A_82A4 is S[300] of strand 37.12.5 (R49). -/
theorem test_window : windowAt 0x014A82A4 = some (37, 0x82A4) ∧
    (((ready.fset (F.CRD_WIN_SEL_PLY 37) 12).setStrand (37 * 1024 + 197) { store := 1#1024 <<< 300 }).windowWord
      37 0x82A4) = 0x1000 := by decide
/-- The worked slot records of cords 37 and 70 (R101, R102). -/
theorem test_slotRecords : (slotStn 0x251F410C4C518000, slotStep 0x251F410C4C518000, slotSide 0x251F410C4C518000,
      slotDir 0x251F410C4C518000, slotPos 0x251F410C4C518000, slotEntry 0x251F410C4C518000) =
      (0x25, 0x1F4, 0, 1, 12, 0x4C518000) ∧
    (entryKind 0x4C518000, entryStrand 0x4C518000, entryTag 0x4C518000) = (1, 197, 3) ∧
    (entryInDir 0x89800000, entryInPos 0x89800000) = (1, 12) ∧
    (slotStn 0x46209A0C43920000, slotStep 0x46209A0C43920000, slotSide 0x46209A0C43920000) = (0x46, 0x209, 1) := by decide
/-- The worked route: west from cord 32 over the bridge to cord 7, south from cord 30 over the bridge to cord 70. -/
theorem test_route : linkOf false 37 1 = some (36, false) ∧ linkOf false 32 1 = some (7, true) ∧
    linkOf false 6 2 = some (14, false) ∧ linkOf false 30 2 = some (70, true) := by decide
/-- A scratch operation fired at step 299 accesses at 319 and returns at 339 under LP-A, 316 and 333 under LP-B (R126). -/
theorem test_portTiming : let t := ready.portTiming 2
    let u := (ready.fset F.NOC_STAT_PROFILE 1).portTiming 2
    (299 + t.1, 299 + t.2, 299 + u.1, 299 + u.2) = (319, 339, 316, 333) := by decide
/-- The worked receive correction on lane 17: t_fix and the corrected short timestamp (R218). -/
theorem test_rxTime : rxFix 6 53125000 = 10249830 ∧
    (((((ready.fset (F.LANE_CFG_PCS 17) 6).fset (F.LANE_RATE_KBPS 17) 53125000).fset (F.LANE_RXLAT_GB_TERM 17) 40960).fset
      (F.LANE_RXLAT_CDR_TERM 17) 0xFFFFFC00).rxCorrect 17 (BitVec.ofNat 64 (320 * 65536))).toNat = 162 * 65536 + 64922 := by
  decide
/-- The worked block header of lane 17 (R229). -/
theorem test_capInfo : let s := (((ready.fset (F.CAP_SEQ_SEQ 17) 0x2A0F3).fset (F.LANE_CFG_PCS 17) 6).fset
      (F.LANE_CFG_MOD 17) 1).fset (F.LANE_RATE_KBPS 17) 53125000
    s.capInfo 17 { kind := 0, ts := 0, entries := List.replicate 60 0, recs := [0], spec := true } = 0x6A480F838112A0F3 := by
  decide
/-- The worked calibration record of lane 17 (R199); wire bit 8,000,006,400 is 0x01_DCD6_6900. -/
theorem test_calMark : (leBytes 16 (calMark 2 .thr0 66 56 8000006400 0).toNat).take 8 = [0x02, 0x42, 0x38, 0x00, 0x69, 0xD6, 0xDC, 0x01] := by
  decide
/-- The worked SENDP node: the low 64 bits of node 5 (R259). -/
theorem test_nodeFields : (nOp 0x1118600011, nNext 0x1118600011, nAlt 0x1118600011, nImm 0x1118600011, nImm2 0x1118600011) =
    (0x11, 6, 6, 17, 0) := by decide
/-- The first-error record of the worked fault (R316): source, master and effective class of INSTR_UNCORRECTABLE. -/
theorem test_faultClass : ready.effClass 0x0101 = 1 ∧
    let t := after (.eval 0) { stepping 16 0 with instrs := [(0, storedWord 0x100080287F0F0000 ^^^ 3)] }
    t.reports.map (fun r => (r.code, r.addr, r.master.toNat, r.acc)) = [(0x0101, 0x0C, 0x80, 3)] ∧ (t.strand 0).hist = 0 := by
  decide

/-- The host's commands set the fields they name, at the places of the register tables. -/
theorem test_hostFields : (after (.halt true) ready).fget F.TURN_CTL_HALT = 1 ∧
    (after (.relock) ready).fget F.TURN_CTL_HALT = 0 ∧
    (after (.actFlSet 3 0x81) ready).flags 3 = 0x81 ∧
    (after (.timeFreq 0x12345) ready).reg R.TIME_FREQ = 0x12345 := by decide
/-- Reads of 4, 1 and 2 bytes of a register answer the bytes they name (R10, R11). -/
theorem test_registerBytes : let t := after (.registerWrite 0 R.TIME_FREQ 0xAABBCCDD 4) ready
    (after (.registerRead 0 R.TIME_FREQ 4) t).host.data = 0xAABBCCDD ∧
    (after (.registerRead 0 (R.TIME_FREQ + 1) 1) t).host.data = 0xCC ∧
    (after (.registerRead 0 (R.TIME_FREQ + 2) 2) t).host.data = 0xAABB := by decide
/-- ADD: V[DST] becomes V[SA] + V[SB] + IMM (R259). -/
theorem test_add : let t := after (.add 0) (atNode 0x00000001001A2202 (({} : Unit_).setReg 2 41))
    (t.actUnit 0).reg 2 = 42 := by decide
/-- Without a command the step is an edge of the time clock; it answers a next state and leaves the queue empty (log 1). -/
theorem test_idle : (match step State.reset with
    | .next t => t.pending == []
    | _ => false) = true := by decide
/-- The front command runs, and only it leaves the queue. -/
theorem test_queue : (match step { ready with pending := [.halt true, .halt false] } with
    | .next t => t.pending == [.halt false] && t.bit F.TURN_CTL_HALT
    | _ => false) = true := by decide

/-! ### Ill-formed commands, which Instr.wellFormed refuses: one at least for each check -/

def aHdr (outer part : Nat) : CastHdr := { outer := List.replicate outer 0, part := List.replicate part 0 }
def badHdr : CastHdr := aHdr 511 1024
theorem test_wf_stations : [Instr.bightDelivery 0xA0 0 0, .bightDelivery 0 5 0, .stationDrainEnd 0xA0, .tableSwap 0xA0].all
    (fun c => !c.wellFormed) = true := by decide
theorem test_wf_requests : [Instr.read { pkt 0 with payload := [] , vn := 2 }, .read (pkt 0), .read { pkt 0 with payload := [], dstId := 1 },
    .read { pkt 0 with payload := [], dstStn := 0xA0 }, .read { pkt 0 with payload := [], len := 9 },
    .read { pkt 0 with payload := [], status := 1 }, .read { pkt 0 with payload := [], src := 4 },
    .read { pkt 0 with payload := [], bar2 := true }, .postedWrite { pkt 0 with src := 0, vn := 3 }, .write { pkt 0 with vn := 3 }, .write { pkt 0 with payload := [] },
    .postedWrite (pkt 0), .stream (pkt 0)].all (fun c => !c.wellFormed) = true := by decide
theorem test_wf_responses : [Instr.respData (pkt 0) 0, .respData { pkt 0 with vn := 2, status := 3 } 0, .respData { pkt 0 with vn := 2, payload := [] } 0,
    .respAck { pkt 0 with vn := 2 } 0, .respAck { pkt 0 with vn := 2, payload := [], dstStn := 0xA0 } 0].all
    (fun c => !c.wellFormed) = true := by decide
theorem test_wf_lanes : [Instr.laneRxWord 1056 { data := 0 }, .laneRxWord 0 { data := 0, corr := 16 }, .laneTxWord 1056 { data := 0 },
    .laneEnable 1056, .laneDisable 1056, .laneShutdownDone 1056, .txSrc 1056 0,
    .neLpbk 1056 true, .feLpbk 1056 true, .laneLock 1056 .cdr 0 0 0, .laneLockLoss 1056 .cdr,
    .calMicroStep 1056 .ofs0 true, .calApply 1056 0 0, .calPin 1056 0, .eyeScanStart 1056, .eyeScanAbort 1056, .chkClr 1056,
    .eyeScanPoint 1056 0, .chkLock 1056 true, .feSlip 1056].all (fun c => !c.wellFormed) = true := by decide
theorem test_wf_loads : [Instr.bootLoad (some []) (aHdr 512 1024), .bootLoad none badHdr, .bootLoad none (aHdr 512 1023), .dict 0 [],
    .frameWrite 0 [], .chainIn badHdr, .partVerifyDone badHdr, .deepSleepReload badHdr [],
    .nvmDone true (List.replicate 4097 0)].all (fun c => !c.wellFormed) = true := by decide
theorem test_wf_others : [Instr.delayTick 3, .flowContextDelta { turn := 0, flow := 0, flags := 0, mask := 0, v := [], added := [], removed := [] },
    .timeAdjustment (.tod (1000000000 * 65536)), .wireFault 0 ⟨1, false⟩, .wireBadEnd 0 3, .bnkOwnWrite 0 4 0, .domainGate 86, .domainGated 86, .domainEnable 86,
    .domainPowered 86, .dmaDescriptorDone 0 [], .samplePreload [true] [], .pinCfg 192 0, .pinInput (.gpio 192) ⟨true, true⟩,
    .queuePost 4 0 0, .registerWrite 4 0 0 4, .registerRead 4 0 4, .registerWrite 0 0 0 3, .registerWrite 0 2 0 4, .registerRead 0 1 2, .registerRead 0 0 0, .blockClockEdge true (.laneSet 66),
    .calibratorUpdate 6 0].all (fun c => !c.wellFormed) = true := by decide
/-- Commands at the bounds of their operands are well formed. -/
theorem test_wf_bounds : [Instr.bightDelivery 0x9F 4 63, .read { pkt 0 with payload := [] }, .write (pkt 0), .laneEnable 1055,
    .laneTxWord 1055 { data := 0 }, .bootLoad none (aHdr 512 1024), .domainGate 85, .pinCfg 191 0,
    .registerRead 0 2 2, .calibratorUpdate 5 0, .wireFault 0 ⟨3, true⟩, .wireBadEnd 0 2, .timeAdjustment (.tod (999999999 * 65536))].all
    (fun c => c.wellFormed) = true := by decide

/-! ### Witnesses -/

theorem witness_ExecKeepsQueue :
    ∃ (c : Instr) (s : State) (t : State), exec c s = Host.Outcome.next t :=
  ⟨.slackRst, ready, after .slackRst ready, rfl⟩

theorem witness_StepKeepsInv :
    ∃ (s : State) (t : State), s.Inv ∧ step s = Host.Outcome.next t :=
  ⟨{ ready with pending := [.slackRst] }, after .slackRst ready, ⟨by unfold State.Inv; decide, rfl⟩⟩

theorem witness_FusesOneWay :
    ∃ (c : Instr) (s : State) (t : State) (w : Nat) (i : Nat), exec c s = .next t ∧ (s.fuse w).getLsbD i = true ∧ (∀ took, c ≠
      .fuseProgramDone took) :=
  ⟨.slackRst, { ready with store := { ready.store with fuses := [(44, 0x80000000)] } }, after .slackRst
    { ready with store := { ready.store with fuses := [(44, 0x80000000)] } }, 44, 31, ⟨rfl, by decide, by simp⟩⟩

theorem witness_ExecFrame :
    ∃ (c : Instr) (s : State) (t : State) (p : Part_), exec c s = Host.Outcome.next t ∧ (¬p ∈ mayChange c) :=
  ⟨.slackRst, ready, after .slackRst ready, .mem, ⟨rfl, by decide⟩⟩

theorem witness_Operands :
    (∃ (p : (StrandId → Instr) × Nat) (g : StrandId) (s : State), p ∈ [(Instr.eval, opEval), (Instr.evalLatch, opEvalLatch),
      (Instr.evalSend, opEvalSend), (Instr.evalPort, opEvalPort), (Instr.evalCheck, opEvalCheck)] ∧ s.runsClass p.snd g.toNat) ∧
    (∃ (s : State) (k : Nat), k < 128) ∧
    (∃ (s : State) (g : Nat) (t : Nat) (m : Nat), m < 32 ∧ ((s.strand g).latch m).at_ = some t) ∧
    (∃ (s : State) (g : Nat) (t : Nat) (m : Nat), m < 32 ∧ ((s.strand g).latch m).at_ ≠ some t) ∧
    (∃ (s : State) (g : Nat) (j : Nat), j < 16 ∧ g / 16 * 16 + j ≠ g) ∧
    (∃ (s : State) (m : Nat), m < 8) :=
  ⟨⟨(.eval, opEval), 0, stepping 64 (word opEval 0), ⟨by simp, by unfold State.runsClass; decide⟩⟩,
    ⟨ready, 0 , by decide⟩,
    ⟨(ready.setStrand 0 (({} : Strand).setLatch 31 { val := true, valid := true, at_ := some 7 })), 0, 7, 31, by decide⟩,
    ⟨ready, 0, 0, 0 , by decide⟩,
    ⟨ready, 1, 0 , by decide⟩,
    ⟨ready, 0, by decide⟩⟩

theorem witness_StrandRows :
    (∃ (p : (StrandId → Instr) × Nat) (g : StrandId) (s : State), p ∈ [(Instr.nop, opNop), (Instr.eval, opEval),
      (Instr.evalLatch, opEvalLatch), (Instr.stateRead, opStateRead), (Instr.evalSend, opEvalSend), (Instr.evalPort,
      opEvalPort), (Instr.evalCheck, opEvalCheck), (Instr.turnEnd, opTurnEnd)] ∧ s.runsClass p.snd g.toNat ∧ (p.snd = opNop ∨
      p.snd = opTurnEnd)) ∧
    (∃ (p : (StrandId → Instr) × Nat) (g : StrandId) (s : State), p ∈ [(Instr.nop, opNop), (Instr.eval, opEval),
      (Instr.evalLatch, opEvalLatch), (Instr.stateRead, opStateRead), (Instr.evalSend, opEvalSend), (Instr.evalPort,
      opEvalPort), (Instr.evalCheck, opEvalCheck), (Instr.turnEnd, opTurnEnd)] ∧ s.runsClass p.snd g.toNat ∧ p.snd =
      opStateRead) :=
  ⟨⟨(.turnEnd, opTurnEnd), 0, stepping 1 (word opTurnEnd 0), ⟨by simp, by unfold State.runsClass; decide, by decide⟩⟩,
    ⟨(.stateRead, opStateRead), 0, stepping 64 (word opStateRead 0), ⟨by simp, by unfold State.runsClass; decide, by decide⟩⟩⟩

theorem witness_StrandEffects :
    (∃ (g : StrandId) (s : State), s.runsClass opEvalLatch g.toNat ∧ (SMap.find (s.strand g.toNat).staged (wAux (wordData
      (s.fetched g.toNat)) % 1024)).isSome = true ∧ (s.strand g.toNat).redo ≤ (s.strand g.toNat).pos ∧ s.srcOn (gCord g.toNat)
      = true) ∧
    (∃ (g : StrandId) (s : State), s.runsClass opEvalSend g.toNat ∧ ((∃ e, e ∈ List.filter (fun e => decide (entryKind e.snd =
      1 ∧ entryStrand e.snd = g.toNat % 1024)) (s.outEntries (gCord g.toNat) (s.strand g.toNat).pos) ∧ entryTag e.snd ≠ wAux
      (wordData (s.fetched g.toNat)) % 32) ∨ ∀ (e : Nat × Nat), e ∈ List.filter (fun e => decide (entryKind e.snd = 1 ∧
      entryStrand e.snd = g.toNat % 1024)) (s.outEntries (gCord g.toNat) (s.strand g.toNat).pos) → entryTag e.snd ≠ wAux
      (wordData (s.fetched g.toNat)) % 32) ∧ s.srcOn (gCord g.toNat) = true) ∧
    (∃ (p : (StrandId → Instr) × Nat) (g : StrandId) (s : State), p ∈ [(Instr.nop, opNop), (Instr.eval, opEval),
      (Instr.evalLatch, opEvalLatch), (Instr.stateRead, opStateRead), (Instr.evalPort, opEvalPort), (Instr.evalCheck,
      opEvalCheck), (Instr.turnEnd, opTurnEnd)] ∧ s.runsClass p.snd g.toNat ∧ (∃ e, e ∈ s.outEntries (gCord g.toNat) (s.strand
      g.toNat).pos ∧ entryKind e.snd = 1 ∧ entryStrand e.snd = g.toNat % 1024) ∧ s.srcOn (gCord g.toNat) = true) ∧
    (∃ (g : StrandId) (s : State), s.runsClass opEvalPort g.toNat ∧ (¬(((s.enterStep (s.strand g.toNat).pos).port (portKey
      (gCord g.toNat) (gGroup g.toNat))).wstep = s.core.base + (s.strand g.toNat).pos ∧ ∃ m, SMap.find ((s.enterStep (s.strand
      g.toNat).pos).port (portKey (gCord g.toNat) (gGroup g.toNat))).writers (wAux (wordData (s.fetched g.toNat)) % 256) = some
      m ∧ m < g.toNat % 1024))) ∧
    (∃ (g : StrandId) (s : State), s.runsClass opEvalPort g.toNat ∧ ((s.enterStep (s.strand g.toNat).pos).port (portKey (gCord
      g.toNat) (gGroup g.toNat))).wstep = s.core.base + (s.strand g.toNat).pos ∧ (∃ m, SMap.find ((s.enterStep (s.strand
      g.toNat).pos).port (portKey (gCord g.toNat) (gGroup g.toNat))).writers (wAux (wordData (s.fetched g.toNat)) % 256) = some
      m ∧ m < g.toNat % 1024)) ∧
    (∃ (g : StrandId) (s : State), s.runsClass opEvalPort g.toNat ∧ (wAux (wordData (s.fetched g.toNat))).testBit 11 = true) ∧
    (∃ (g : StrandId) (s : State), s.runsClass opEvalPort g.toNat ∧ (wAux (wordData (s.fetched g.toNat))).testBit 11 = false) ∧
    (∃ (g : StrandId) (s : State), s.runsClass opEvalCheck g.toNat) ∧
    (∃ (g : StrandId) (s : State), s.runsClass opTurnEnd g.toNat) :=
  ⟨⟨0, { stepping 64 (word opEvalLatch 1023) with strands := [(0, { staged := [(1023, true)] })] },
      ⟨by unfold State.runsClass; decide, by decide, by decide, by decide⟩⟩,
    ⟨0, stepping 64 (word opEvalSend 1023), ⟨by unfold State.runsClass; decide, .inr (by decide), by decide⟩⟩,
    ⟨(.eval, opEval), 0, { stepping 64 (word opEval 1023) with ring := { slots := [(slotKey 0 0 0 0 0 0, 0x40000000)] } },
      ⟨by simp, by unfold State.runsClass; decide, ⟨(0, 0x40000000), by decide⟩, by decide⟩⟩,
    ⟨0, stepping 64 (word opEvalPort 0xFF), ⟨by unfold State.runsClass; decide, fun ⟨_, m, _, h⟩ => Nat.not_lt_zero m h⟩⟩,
    ⟨0x101,
      { stepping 64 0 with instrs := [(0x101 * 4096, storedWord (BitVec.ofNat 64 (word opEvalPort 0xFF)))], ports := [(1, { writers := [(0xFF, 0)] })] },
      ⟨by unfold State.runsClass; decide, by decide, 0, by decide⟩⟩,
    ⟨0, { stepping 64 (word opEvalPort 0x8FF) with ports := [(0, { wstep := 5 })] },
      ⟨by unfold State.runsClass; decide, by decide⟩⟩,
    ⟨0, { stepping 64 (word opEvalPort 0xFF) with ports := [(0, { wstep := 5 })] },
      ⟨by unfold State.runsClass; decide, by decide⟩⟩,
    ⟨0, stepping 64 (word opEvalCheck 1023), by unfold State.runsClass; decide⟩,
    ⟨0, stepping 1 (word opTurnEnd 0), by unfold State.runsClass; decide⟩⟩

theorem witness_WordFaults :
    (∃ (w : W64), opReserved (wOp w) = true) ∧
    (∃ (w : W64), wOp w = opTurnEnd) ∧
    (∃ (w : W64), opFetches (wOp w) = true ∧ (∃ x, x ∈ wSels w ∧ selReserved x = true)) ∧
    (∃ (w : W64), (∀ (x : Nat), x ∈ wSels w → selReserved x = false) ∧ wOp w = opEvalPort) ∧
    (∃ (w : W64), (∀ (x : Nat), x ∈ wSels w → selReserved x = false) ∧ opFetches (wOp w) = true ∧ wOp w ≠ opEvalPort ∧ (∃ x, x
      ∈ wSels w ∧ selPort x = true)) ∧
    (∃ (w : W64) (inPrefix : Bool), opReserved (wOp w) = false ∧ wOp w ≠ opTurnEnd ∧ (opFetches (wOp w) = true → ∀ (x : Nat), x
      ∈ wSels w → selReserved x = false) ∧ (inPrefix = true → wOp w ≠ opEvalPort ∧ (opFetches (wOp w) = true → ∀ (x : Nat), x ∈
      wSels w → selPort x = false))) ∧
    (∃ (c : StrandId → Instr) (g : StrandId) (s : State), c ∈ [Instr.nop, Instr.eval, Instr.evalLatch, Instr.stateRead,
      Instr.evalSend, Instr.evalPort, Instr.evalCheck, Instr.turnEnd] ∧ s.mayStep g.toNat = false) ∧
    (∃ (c : StrandId → Instr) (g : StrandId) (s : State) (code : Nat), c ∈ [Instr.nop, Instr.eval, Instr.evalLatch,
      Instr.stateRead, Instr.evalSend, Instr.evalPort, Instr.evalCheck, Instr.turnEnd] ∧ s.mayStep g.toNat = true ∧
      (decodeSyndrome (syndrome (s.fetched g.toNat)) = Syn.uncorrectable ∧ code = 257 ∨ decodeSyndrome (syndrome (s.fetched
      g.toNat)) ≠ Syn.uncorrectable ∧ ∃ addr acc, verdict (correctedData (s.fetched g.toNat)) ((s.strand g.toNat).pos + 1 ==
      s.schedL) (s.prefixStep (s.strand g.toNat).pos) = Verdict.stopped code addr acc) ∧ s.srcOn (gCord g.toNat) = true) ∧
    (∃ (c : StrandId → Instr) (g : StrandId) (s : State), c ∈ [Instr.nop, Instr.eval, Instr.evalLatch, Instr.stateRead,
      Instr.evalSend, Instr.evalPort, Instr.evalCheck, Instr.turnEnd] ∧ s.mayStep g.toNat = true ∧ decodeSyndrome (syndrome
      (s.fetched g.toNat)) ≠ Syn.uncorrectable ∧ verdict (correctedData (s.fetched g.toNat)) ((s.strand g.toNat).pos + 1 ==
      s.schedL) (s.prefixStep (s.strand g.toNat).pos) = Verdict.asNop ∧ s.srcOn (gCord g.toNat) = true) ∧
    (∃ (c : StrandId → Instr) (g : StrandId) (s : State), c ∈ [Instr.nop, Instr.eval, Instr.evalLatch, Instr.stateRead,
      Instr.evalSend, Instr.evalPort, Instr.evalCheck, Instr.turnEnd] ∧ s.mayStep g.toNat = true ∧ decodeSyndrome (syndrome
      (s.fetched g.toNat)) ≠ Syn.uncorrectable ∧ verdict (correctedData (s.fetched g.toNat)) ((s.strand g.toNat).pos + 1 ==
      s.schedL) (s.prefixStep (s.strand g.toNat).pos) = Verdict.asNop ∧ (s.strand g.toNat).pos + 1 = s.schedL) ∧
    (∃ (p : (StrandId → Instr) × Nat) (g : StrandId) (s : State), p ∈ [(Instr.nop, opNop), (Instr.eval, opEval),
      (Instr.evalLatch, opEvalLatch), (Instr.stateRead, opStateRead), (Instr.evalSend, opEvalSend), (Instr.evalPort,
      opEvalPort), (Instr.evalCheck, opEvalCheck), (Instr.turnEnd, opTurnEnd)] ∧ s.mayStep g.toNat = true ∧ decodeSyndrome
      (syndrome (s.fetched g.toNat)) ≠ Syn.uncorrectable ∧ decodeSyndrome (syndrome (s.fetched g.toNat)) ≠ Syn.clean ∧ wOp
      (correctedData (s.fetched g.toNat)) = p.snd ∧ verdict (correctedData (s.fetched g.toNat)) ((s.strand g.toNat).pos + 1 ==
      s.schedL) (s.prefixStep (s.strand g.toNat).pos) = Verdict.runs) :=
  ⟨⟨18446744073709551615 , by decide⟩,
    ⟨0x8000000000000000, by decide⟩,
    ⟨0x1000000000000B8 <<< 12 ||| 0x1000000000000000, ⟨by decide, 0xB8, by decide⟩⟩,
    ⟨0x5000000000000000, by decide⟩,
    ⟨0x1000000000000000 ||| 0xB0 <<< 12, ⟨by decide, by decide, by decide, 0xB0, by decide⟩⟩,
    ⟨0, false , by decide⟩,
    ⟨.nop, 0, ready, ⟨by simp, by decide⟩⟩,
    ⟨.eval, 0, { stepping 64 0 with instrs := [(0, 3)] }, 257, ⟨by simp, by decide, .inl (by decide), by decide⟩⟩,
    ⟨.eval, 0, stepping 1 0, ⟨by simp, by decide, by decide, by decide, by decide⟩⟩,
    ⟨.eval, 0, stepping 1 0, ⟨by simp, by decide, by decide, by decide, by decide⟩⟩,
    ⟨(.nop, opNop), 0, { stepping 64 0 with instrs := [(0, 1)] },
      ⟨by simp, by decide, by decide, by decide, by decide, by decide⟩⟩⟩

theorem witness_InstructionEcc :
    (∃ (i : Nat), i < 72) ∧
    (∃ (i : Nat) (j : Nat), i < j ∧ j < 72) ∧
    (∃ (cord : CordId) (s : State), s.cordOn cord.toNat = true ∧ s.isolated cord.toNat = false ∧ s.bit (F.CRD_SCRUB_EN
      cord.toNat) = true ∧ s.coreIdle = true ∧ s.fget F.PWR_STAT_STATE = 0) ∧
    (∃ (cord : CordId) (s : State), (s.cordOn cord.toNat = false ∨ s.isolated cord.toNat = true ∨ s.bit (F.CRD_SCRUB_EN
      cord.toNat) = false ∨ s.coreIdle = false ∨ s.fget F.PWR_STAT_STATE ≠ 0)) :=
  ⟨⟨0 , by decide⟩,
    ⟨0, 1 , by decide⟩,
    ⟨0, ready , by decide⟩,
    ⟨0, { ready with image := { ready.image with committed := !true } }, by decide⟩⟩

theorem witness_HostRequests :
    (∃ (c : Instr) (a : Nat) (s : State), hostRegister c = some a ∧ s.hostAway = true) ∧
    (∃ (c : Instr) (a : Nat) (s : State), hostRegister c = some a ∧ s.hostAway = false ∧ s.asleep = true) ∧
    (∃ (c : Instr) (a : Nat) (s : State), hostRegister c = some a ∧ s.hostAway = false ∧ s.fget F.PWR_STAT_STATE = 0 ∧
      s.power.entering = false ∧ s.power.exiting = false ∧ s.hostHeld (HostReq.write a 4 0 0) = true) ∧
    (∃ (c : Instr) (a : Nat) (s : State), hostRegister c = some a ∧ s.hostAway = false ∧ s.fget F.PWR_STAT_STATE = 0 ∧
      s.power.entering = false ∧ s.power.exiting = false ∧ s.hostHeld (HostReq.write a 4 0 0) = false ∧ (s.blockAbsent a = true
      ∨ loadWritable a = false ∧ s.image.committed = false)) ∧
    (∃ (c : Instr) (a : Nat) (s : State), hostRegister c = some a ∧ s.hostAway = false ∧ s.fget F.PWR_STAT_STATE = 0 ∧
      s.power.entering = false ∧ s.power.exiting = false ∧ s.hostHeld (HostReq.write a 4 0 0) = false ∧ s.observed = false ∧
      s.blockAbsent a = false ∧ (loadWritable a = true ∨ s.image.committed = true) ∧ s.blockOn a = false ∧ s.bit
      F.HST_BERR_VALID = false) :=
  ⟨⟨.slackRst, R.TURN_CTL, { ready with por := true }, by decide⟩,
    ⟨.slackRst, R.TURN_CTL, ready.fset F.PWR_STAT_STATE 2, by decide⟩,
    ⟨.slackRst, R.TURN_CTL, { ready with host := { queue := [.read 0 4] } }, by decide⟩,
    ⟨.slackRst, R.TURN_CTL, State.reset.setReg R.HST_LINK 9, by decide⟩,
    ⟨.slackRst, R.TURN_CTL, ready.fset (F.PWR_DOM_ON 0) 0, by decide⟩⟩

theorem witness_TurnHostAndEvents :
    (∃ (s : State), s.hostRuns R.TURN_CTL = true ∧ s.bit F.TURN_STAT_HALTED = true) ∧
    (∃ (s : State), s.hostRuns R.TURN_CTL = true ∧ s.bit F.TURN_STAT_HALTED = false) ∧
    (∃ (s : State), s.hostRuns R.TURN_CTL = true ∧ s.bit F.TURN_STAT_FLYWHEEL = true ∧ s.pcsLocked (s.fget F.TURN_ANCHOR_LANE)
      = true) ∧
    (∃ (s : State), s.hostRuns R.TURN_CTL = true ∧ (s.bit F.TURN_STAT_FLYWHEEL && s.pcsLocked (s.fget F.TURN_ANCHOR_LANE)) =
      false) ∧
    (∃ (s : State) (o : OutSet) (os : List OutSet), s.core.outComm = o :: os ∧ o.due = true) ∧
    (∃ (s : State) (o : OutSet) (os : List OutSet), (s.core.outComm = [] ∨ s.core.outComm = o :: os ∧ o.due = false)) ∧
    (∃ (s : State) (at_ : Nat), s.core.phase = Phase.turn ∧ s.core.missed = some at_ ∧ s.srcOn 640 = true ∧ (∀ (q : Report), q
      ∈ s.reports → q.src ≠ 640)) ∧
    (∃ (s : State), (s.core.phase ≠ Phase.turn ∨ s.core.missed = none)) ∧
    (∃ (s : State), s.bit F.TURN_CFG_LOCK_SRC = true ∧ s.image.committed = true ∧ s.bit F.TURN_STAT_LOCK_WAIT = false ∧ s.bit
      F.TURN_STAT_FLYWHEEL = true ∧ s.pcsLocked (s.fget F.TURN_ANCHOR_LANE) = false) ∧
    (∃ (s : State), s.bit F.TURN_CFG_LOCK_SRC = true ∧ s.image.committed = true ∧ s.bit F.TURN_STAT_LOCK_WAIT = false ∧ s.bit
      F.TURN_STAT_FLYWHEEL = true ∧ s.pcsLocked (s.fget F.TURN_ANCHOR_LANE) = true ∧ s.srcOn 640 = true) ∧
    (∃ (s : State), s.bit F.TURN_CFG_LOCK_SRC = true ∧ s.image.committed = true ∧ s.bit F.TURN_STAT_LOCK_WAIT = false ∧ s.bit
      F.TURN_STAT_FLYWHEEL = false ∧ s.srcOn 640 = true) ∧
    (∃ (s : State), s.bit F.TURN_CFG_LOCK_SRC = true ∧ s.image.committed = true ∧ s.bit F.TURN_STAT_LOCK_WAIT = false ∧ s.bit
      F.TURN_STAT_FLYWHEEL = false ∧ s.core.anchorT0 = none) ∧
    (∃ (s : State), (s.bit F.TURN_CFG_LOCK_SRC = false ∨ s.image.committed = false ∨ s.bit F.TURN_STAT_LOCK_WAIT = true)) :=
  ⟨⟨ready.setBit F.TURN_STAT_HALTED true , by decide⟩,
    ⟨ready , by decide⟩,
    ⟨(ready.setBit F.TURN_STAT_FLYWHEEL true).setBit (F.LANE_STAT_PCS_LOCK ((ready.setBit F.TURN_STAT_FLYWHEEL true).fget
      F.TURN_ANCHOR_LANE)) true , by decide⟩,
    ⟨ready , by decide⟩,
    ⟨{ ready with core := { ready.core with outComm := [⟨true, 1, []⟩] } }, ⟨true, 1, []⟩, [], by decide⟩,
    ⟨ready, ⟨false, 1, []⟩, [], by decide⟩,
    ⟨{ ready with core := { phase := .turn, missed := some 0 } }, 0, by decide⟩,
    ⟨ready , by decide⟩,
    ⟨(ready.setBit F.TURN_CFG_LOCK_SRC true).setBit F.TURN_STAT_FLYWHEEL true , by decide⟩,
    ⟨((ready.setBit F.TURN_CFG_LOCK_SRC true).setBit F.TURN_STAT_FLYWHEEL true).setBit (F.LANE_STAT_PCS_LOCK (((ready.setBit
      F.TURN_CFG_LOCK_SRC true).setBit F.TURN_STAT_FLYWHEEL true).fget F.TURN_ANCHOR_LANE)) true , by decide⟩,
    ⟨ready.setBit F.TURN_CFG_LOCK_SRC true , by decide⟩,
    ⟨ready.setBit F.TURN_CFG_LOCK_SRC true , by decide⟩,
    ⟨ready, by decide⟩⟩

theorem witness_Realign :
    (∃ (s : State), s.hostRuns R.TURN_CTL = true ∧ s.bit F.TURN_STAT_HALTED = true ∧ s.bit F.TURN_CFG_LOCK_SRC = false ∧ 0 <
      s.span ∧ s.fget F.TURN_PHASE_VALUE < s.span ∧ s.time.now + 10000 * 65536 + s.span < 2 ^ 96) ∧
    (∃ (s : State), s.hostRuns R.TURN_CTL = true ∧ (s.bit F.TURN_STAT_HALTED = false ∨ s.bit F.TURN_CFG_LOCK_SRC = true)) :=
  ⟨⟨(ready.setBit F.TURN_STAT_HALTED true).fset F.TURN_SPAN_VALUE 1, by decide⟩,
    ⟨ready, by decide⟩⟩

theorem witness_TurnCommit :
    (∃ (s : State), s.core.phase = Phase.turn ∧ s.core.cur = some (s.schedL - 1) ∧ s.ports = [] ∧ s.core.asserts = [] ∧ (∀ (b :
      Bight), b ∈ s.ring.bights → b.stn < 160)) ∧
    (∃ (s : State) (e : Nat) (n : Nat) (g : Nat), s.core.phase = Phase.turn ∧ s.core.cur = some (s.schedL - 1) ∧ s.ports = [] ∧
      s.core.asserts = [(e, n, g)] ∧ (∀ (b : Bight), b ∈ s.ring.bights → b.stn < 160) ∧ e < 1024 ∧ gCord g < 128 ∧ s.bit
      (F.TRG_AEMAP_EN e) = false ∧ SMap.find s.act.eventQ e = none ∧ s.srcOn (gCord g) = true ∧ (∀ (q : Report), q ∈ s.reports
      → q.src ≠ gCord g)) ∧
    (∃ (s : State) (k : Nat) (p : Port), s.core.phase = Phase.turn ∧ s.core.cur = some (s.schedL - 1) ∧ s.ports = [(k, p)] ∧ k
      < 512 ∧ (∀ (b : Bight), b ∈ s.ring.bights → b.stn < 160) ∧ s.core.asserts = [] ∧ ((∀ (o : PortOp), o ∈ p.ops → o.mode =
      1) ∨ ∀ (o : PortOp), o ∈ p.ops → o.mode = 4 ∨ o.mode = 5) ∧ (∀ (o : PortOp), o ∈ p.ops → o.delayed = false ∧ o.waiting =
      false ∧ o.access < s.core.base + s.schedL + 24)) ∧
    (∃ (s : State), (s.core.phase ≠ Phase.turn ∨ s.core.cur ≠ some (s.schedL - 1))) :=
  ⟨⟨{ ready with core := { ready.core with phase := .turn, cur := some (ready.schedL - 1) } }, by decide⟩,
    ⟨{ ready with core := { phase := .turn, cur := some (ready.schedL - 1), asserts := [(0, 0, 0)] } }, 0, 0, 0, by decide⟩,
    ⟨{ ready with core := { phase := .turn, cur := some (ready.schedL - 1) }, ports := [(0, { ops := [anOp 1 false] })] }, 0,
      { ops := [anOp 1 false] }, ⟨by decide, by decide, rfl, by decide, by decide, by decide, .inl (by decide), by decide⟩⟩,
    ⟨ready, by decide⟩⟩

theorem witness_TurnPrefix :
    (∃ (s : State), s.image.committed = true ∧ s.core.phase = Phase.slack ∧ s.core.started = true ∧ s.core.earlyOk = true ∧
      s.bit F.TURN_CTL_EARLY_EN = true ∧ 0 < s.schedE ∧ s.prefixHold = false) ∧
    (∃ (s : State), (s.image.committed = false ∨ s.core.phase ≠ Phase.slack ∨ s.core.started = false ∨ s.core.earlyOk = false ∨
      s.bit F.TURN_CTL_EARLY_EN = false ∨ s.schedE = 0 ∨ s.prefixHold = true)) ∧
    (∃ (s : State), s.core.phase = Phase.early ∧ s.prefixHold = true ∧ (∀ (b : Bight), b ∈ s.ring.bights → b.stn < 160)) ∧
    (∃ (s : State), (s.core.phase ≠ Phase.early ∨ s.prefixHold = false)) :=
  ⟨⟨{ (ready.setBit F.TURN_CTL_EARLY_EN true).fset F.TURN_CFG_E 1 with core := { ready.core with started := true, earlyOk := true } },
      by decide⟩,
    ⟨ready , by decide⟩,
    ⟨State.fset { ready with core := { ready.core with phase := Phase.early } } { addr := R.TURN_HOLD_SRC, lo := 0, w := 7 } 1
      , by decide⟩,
    ⟨ready, by decide⟩⟩

theorem witness_TurnBoundary :
    (∃ (s : State), s.gridRuns = false) ∧
    (∃ (s : State), s.gridRuns = true ∧ s.core.boundary = s.core.origin ∧ s.core.anchorT0 = none) ∧
    (∃ (s : State), s.gridRuns = true ∧ s.fget F.SPL_STAT_STATE = 0 ∧ s.splice.paired = false ∧ s.core.phase = Phase.early ∧
      s.turnHold = true ∧ (s.core.boundary ≠ s.core.origin ∨ s.core.anchorT0 ≠ none) ∧ (∀ (b : Bight), b ∈ s.ring.bights →
      b.stn < 160)) ∧
    (∃ (s : State), s.gridRuns = true ∧ s.fget F.SPL_STAT_STATE = 0 ∧ s.splice.paired = false ∧ s.core.phase ≠ Phase.turn ∧ (if
      s.core.boundary = s.core.origin ∧ s.core.anchorT0 = none then s.fset F.TURN_HOLD_SRC_LOCK 0 else s).turnHold = false ∧
      s.tooSoon s.core.boundary = false) ∧
    (∃ (s : State), s.gridRuns = true ∧ s.fget F.SPL_STAT_STATE = 0 ∧ s.splice.paired = false ∧ s.core.phase = Phase.slack ∧
      (s.tooSoon s.core.boundary = true ∨ s.bit F.TURN_HOLD_SRC_HALT = true ∧ s.bit F.TURN_STAT_STEPPING = false ∧
      s.core.stepping = false) ∧ s.bit F.TURN_HOLD_SRC_HALT = true) ∧
    (∃ (s : State), s.gridRuns = true ∧ s.fget F.SPL_STAT_STATE = 0 ∧ s.splice.paired = false ∧ s.core.phase = Phase.turn) :=
  ⟨⟨{ ready with image := { ready.image with committed := !true } } , by decide⟩,
    ⟨ready , by decide⟩,
    ⟨{ ready.fset ⟨R.TURN_HOLD_SRC, 0, 6⟩ 1 with core := { phase := .early, boundary := 1 } },
      ⟨by decide, by decide, by decide, by decide, by decide, .inl (by decide), by decide⟩⟩,
    ⟨ready , by decide⟩,
    ⟨ready.setBit F.TURN_HOLD_SRC_HALT true , by decide⟩,
    ⟨{ ready with core := { ready.core with phase := Phase.turn } }, by decide⟩⟩

theorem witness_BightDelivery :
    (∃ (stn : StnId) (dir : BitVec 3) (pos : BitVec 6) (s : State), s.bightAt stn.toNat dir.toNat pos.toNat = none) ∧
    (∃ (stn : StnId) (dir : BitVec 3) (pos : BitVec 6) (s : State) (b : Bight), s.bightAt stn.toNat dir.toNat pos.toNat = some
      b ∧ b.stn < 128 ∧ entryKind (State.delivEntry
      { s with ring := { s.ring with bights := List.filter (fun x => x != b) s.ring.bights } } b.stn b.at_ b.dir b.pos) = 1 ∧
      State.isolated { s with ring := { s.ring with bights := List.filter (fun x => x != b) s.ring.bights } } b.stn = false ∧
      State.outranked { s with ring := { s.ring with bights := List.filter (fun x => x != b) s.ring.bights } } b.stn b.at_
      (State.delivEntry { s with ring := { s.ring with bights := List.filter (fun x => x != b) s.ring.bights } } b.stn b.at_
      b.dir b.pos) (b.dir * 64 + b.pos) = false ∧ ((s.strand (b.stn * 1024 + entryStrand (State.delivEntry
      { s with ring := { s.ring with bights := List.filter (fun x => x != b) s.ring.bights } } b.stn b.at_ b.dir b.pos))).latch
      (entryTag (State.delivEntry { s with ring := { s.ring with bights := List.filter (fun x => x != b) s.ring.bights } }
      b.stn b.at_ b.dir b.pos))).valid = true ∧ s.reruns b.stn b.at_ = false ∧ s.srcOn (gCord (b.stn * 1024 + entryStrand
      (State.delivEntry { s with ring := { s.ring with bights := List.filter (fun x => x != b) s.ring.bights } } b.stn b.at_
      b.dir b.pos))) = true) ∧
    (∃ (stn : StnId) (dir : BitVec 3) (pos : BitVec 6) (s : State) (b : Bight), s.bightAt stn.toNat dir.toNat pos.toNat = some
      b ∧ b.stn < 128 ∧ entryKind (State.delivEntry
      { s with ring := { s.ring with bights := List.filter (fun x => x != b) s.ring.bights } } b.stn b.at_ b.dir b.pos) = 1 ∧
      State.isolated { s with ring := { s.ring with bights := List.filter (fun x => x != b) s.ring.bights } } b.stn = false ∧
      State.outranked { s with ring := { s.ring with bights := List.filter (fun x => x != b) s.ring.bights } } b.stn b.at_
      (State.delivEntry { s with ring := { s.ring with bights := List.filter (fun x => x != b) s.ring.bights } } b.stn b.at_
      b.dir b.pos) (b.dir * 64 + b.pos) = true ∧ s.srcOn (gCord (b.stn * 1024 + entryStrand (State.delivEntry
      { s with ring := { s.ring with bights := List.filter (fun x => x != b) s.ring.bights } } b.stn b.at_ b.dir b.pos))) =
      true) ∧
    (∃ (stn : StnId) (dir : BitVec 3) (pos : BitVec 6) (s : State) (b : Bight), s.bightAt stn.toNat dir.toNat pos.toNat = some
      b ∧ (b.stn < 128 → entryKind (State.delivEntry
      { s with ring := { s.ring with bights := List.filter (fun x => x != b) s.ring.bights } } b.stn b.at_ b.dir b.pos) ≠ 1) ∧
      List.filter (fun x => decide (entryKind x.snd = 2 ∧ entryInDir x.snd = b.dir ∧ entryInPos x.snd = b.pos))
      (State.outEntries { s with ring := { s.ring with bights := List.filter (fun x => x != b) s.ring.bights } } b.stn b.at_) =
      []) ∧
    (∃ (stn : StnId) (dir : BitVec 3) (pos : BitVec 6) (s : State) (b : Bight) (x : Nat × Nat), s.bightAt stn.toNat dir.toNat
      pos.toNat = some b ∧ (b.stn < 128 → entryKind (State.delivEntry
      { s with ring := { s.ring with bights := List.filter (fun x => x != b) s.ring.bights } } b.stn b.at_ b.dir b.pos) ≠ 1) ∧
      List.filter (fun x => decide (entryKind x.snd = 2 ∧ entryInDir x.snd = b.dir ∧ entryInPos x.snd = b.pos))
      (State.outEntries { s with ring := { s.ring with bights := List.filter (fun x => x != b) s.ring.bights } } b.stn b.at_) =
      [x]) ∧
    (∃ (stn : StnId) (dir : BitVec 3) (pos : BitVec 6) (s : State) (b : Bight) (d : Nat) (far : Nat) (bridge : Bool), s.bightAt
      stn.toNat dir.toNat pos.toNat = some b ∧ linkOf s.closed b.stn d = some (far, bridge)) :=
  ⟨⟨0, 0, 0, ready , by decide⟩,
    ⟨0, 0, 0,
      { withBight 0 [(slotKey 0 0 1 0 0 0, 0x40000000)] with strands := [(0, ({} : Strand).setLatch 0 { val := true, valid := true, at_ := none })] },
      bightOf 0, by decide⟩,
    ⟨0, 0, 1,
      { withBight 0 [] with strands := [(0, ({} : Strand).setLatch 0 { val := true, valid := true, at_ := some 0 })], ring := { slots := [(slotKey 0 0 1 0 0 1, 0x40000000)], bights := [{ bightOf 0 with pos := 1 }] } },
      { bightOf 0 with pos := 1 }, by decide⟩,
    ⟨0x90, 0, 0, withBight 0x90 [], bightOf 0x90, by decide⟩,
    ⟨0, 0, 0, withBight 0 [(slotKey 0 0 0 0 0 0, 0x80000000)], bightOf 0, (0, 0x80000000), by decide⟩,
    ⟨0, 0, 0, withBight 0 [], bightOf 0, 0, 1, false, by decide⟩⟩

theorem witness_PacketMemory :
    (∃ (p : Packet) (s : State), s.wayOpen (s.located (s.sent p)) = true ∧ s.requestRuns p false = true ∧ s.packetAnswer
      p.src.toNat (s.located (s.sent p)) false = Target.granted) ∧
    (∃ (p : Packet) (s : State), s.wayOpen (s.located (s.sent p)) = true ∧ s.requestRuns p false = true ∧ s.packetAnswer
      p.src.toNat (s.located (s.sent p)) false = Target.nowhere ∧ s.beyond (s.located (s.sent p)) = false ∧ s.regsAsleep
      (s.located (s.sent p)) false = false) ∧
    (∃ (p : Packet) (s : State), s.wayOpen (s.located (s.sent p)) = true ∧ s.requestRuns p true = true ∧ s.packetAnswer
      p.src.toNat (s.located (s.sent p)) true = Target.granted ∧ p.src ≠ 0) ∧
    (∃ (p : Packet) (s : State), p.src = 0) ∧
    (∃ (p : Packet) (s : State), masterOk p.src = false) ∧
    (∃ (p : Packet) (s : State), p.src ≠ 0 ∧ masterOk p.src = true ∧ s.inReset = true) ∧
    (∃ (p : Packet) (s : State), p.src ≠ 0 ∧ masterOk p.src = true ∧ s.inReset = false ∧ s.wayOpen (s.located p) = false ∧
      s.mayReroute (entryStn p.src.toNat (BitVec.toNat (s.located p).dstStn)) (s.located p) = false) ∧
    (∃ (p : Packet) (s : State), p.src ≠ 0 ∧ masterOk p.src = true ∧ s.inReset = false ∧ s.wayOpen (s.located p) = true ∧
      s.unobserved ∧ s.packetAnswer p.src.toNat (s.located p) false = Target.granted) ∧
    (∃ (p : Packet) (s : State), p.src ≠ 0 ∧ masterOk p.src = true ∧ s.inReset = false ∧ s.wayOpen (s.located p) = true ∧
      s.unobserved ∧ s.packetAnswer p.src.toNat (s.located p) true = Target.granted) ∧
    (∃ (p : Packet) (s : State), p.src ≠ 0 ∧ masterOk p.src = true ∧ s.inReset = false ∧ s.wayOpen (s.located p) = true ∧
      s.unobserved ∧ s.packetAnswer p.src.toNat (s.located p) false = Target.waits) ∧
    (∃ (p : Packet) (s : State), p.src ≠ 0 ∧ masterOk p.src = true ∧ s.inReset = false ∧ s.wayOpen (s.located p) = true ∧
      s.unobserved ∧ s.packetAnswer p.src.toNat (s.located p) true = Target.waits) ∧
    (∃ (p : Packet) (s : State), p.src ≠ 0 ∧ masterOk p.src = true ∧ s.inReset = false ∧ s.wayOpen (s.located p) = true ∧
      s.unobserved ∧ (s.packetAnswer p.src.toNat (s.located p) false = Target.asleep ∨ s.packetAnswer p.src.toNat (s.located p)
      false = Target.nowhere ∧ s.beyond (s.located p) = false ∧ s.regsAsleep (s.located p) false = true) ∧ true = true) ∧
    (∃ (p : Packet) (s : State), p.src ≠ 0 ∧ masterOk p.src = true ∧ s.inReset = false ∧ s.wayOpen (s.located p) = true ∧
      s.unobserved ∧ (s.packetAnswer p.src.toNat (s.located p) true = Target.asleep ∨ s.packetAnswer p.src.toNat (s.located p)
      true = Target.nowhere ∧ s.beyond (s.located p) = false ∧ s.regsAsleep (s.located p) true = true) ∧ s.srcOn (stnSource
      (BitVec.toNat (s.located p).dstStn)) = true) ∧
    (∃ (p : Packet) (s : State) (i : Nat), p.src ≠ 0 ∧ masterOk p.src = true ∧ s.inReset = false ∧ s.wayOpen (s.located p) =
      true ∧ s.unobserved ∧ i < 8 ∧ p.len = 1 ∧ p.be = BitVec.ofNat 32 (15 * 2 ^ (4 * i)) ∧ packetBase p + 32 ≤ 2 ^ 32 ∧
      s.packetAnswer p.src.toNat (s.located p) true = Target.nowhere ∧ s.regsAsleep (s.located p) true = false) ∧
    (∃ (p : Packet) (s : State), p.src ≠ 0 ∧ masterOk p.src = true ∧ s.inReset = false ∧ s.wayOpen (s.located p) = true ∧
      s.unobserved ∧ s.packetAnswer p.src.toNat (s.located p) false = Target.refused ∧ true = true) ∧
    (∃ (p : Packet) (s : State), p.src ≠ 0 ∧ masterOk p.src = true ∧ s.inReset = false ∧ s.wayOpen (s.located p) = true ∧
      s.unobserved ∧ s.packetAnswer p.src.toNat (s.located p) false = Target.refused ∧ s.inScratch (packetBase p) = true ∧
      s.srcOn (256 + bankOf p.addr.toNat) = true) ∧
    (∃ (p : Packet) (s : State), p.src ≠ 0 ∧ masterOk p.src = true ∧ s.inReset = false ∧ s.wayOpen (s.located p) = true ∧
      s.unobserved ∧ s.packetAnswer p.src.toNat (s.located p) false = Target.refused ∧ s.inScratch (packetBase p) = false ∧
      s.inDram (packetBase p) = true ∧ s.srcOn (320 + stackOf p.addr.toNat) = true) ∧
    (∃ (p : Packet) (s : State), p.src ≠ 0 ∧ masterOk p.src = true ∧ s.inReset = false ∧ s.wayOpen (s.located p) = true ∧
      s.unobserved ∧ s.packetAnswer p.src.toNat (s.located p) true = Target.refused ∧ s.inScratch (packetBase p) = true ∧
      s.srcOn (256 + bankOf p.addr.toNat) = true) ∧
    (∃ (p : Packet) (s : State), p.src ≠ 0 ∧ masterOk p.src = true ∧ s.inReset = false ∧ s.wayOpen (s.located p) = true ∧
      s.unobserved ∧ s.packetAnswer p.src.toNat (s.located p) true = Target.refused ∧ s.inScratch (packetBase p) = false ∧
      s.inDram (packetBase p) = true ∧ s.srcOn (320 + stackOf p.addr.toNat) = true) ∧
    (∃ (p : Packet) (s : State) (a : Nat), p.src ≠ 0 ∧ masterOk p.src = true ∧ (a < packetBase p ∨ packetBase p + (packetBytes
      p).length ≤ a)) :=
  ⟨⟨pkt 0x04000000, ready.fset (F.BNK_OWN_OWNER 0) 0x10, by decide⟩,
    ⟨pkt 0, ready, by decide⟩,
    ⟨pkt 0x04000000, ready.fset (F.BNK_OWN_OWNER 0) 0x10, by decide⟩,
    ⟨{ pkt 0x04000000 with src := 0 }, ready, by decide⟩,
    ⟨{ pkt 0x04000000 with src := 4 }, ready, by decide⟩,
    ⟨pkt 0, { ready with por := true }, by decide⟩,
    ⟨pkt 0x04000000, ready.setBit (F.ESTN_STAT_CLOSED 0) true, by decide⟩,
    ⟨pkt 0x04000000, ready.fset (F.BNK_OWN_OWNER 0) 0x10, by unfold State.unobserved; decide⟩,
    ⟨pkt 0x04000000, ready.fset (F.BNK_OWN_OWNER 0) 0x10, by unfold State.unobserved; decide⟩,
    ⟨pkt 0x04000000, { ready.fset (F.BNK_STAT_STATE 0) 1 with ring := { nextOwner := [(0, 0x10, false)] } },
      by unfold State.unobserved; decide⟩,
    ⟨pkt 0x04000000, { ready.fset (F.BNK_STAT_STATE 0) 1 with ring := { nextOwner := [(0, 0x10, false)] } },
      by unfold State.unobserved; decide⟩,
    ⟨pkt 0x04000000, ready.fset (F.PWR_DOM_ON 10) 0, by unfold State.unobserved; decide⟩,
    ⟨pkt 0x04000000, ready.fset (F.PWR_DOM_ON 10) 0, by unfold State.unobserved; decide⟩,
    ⟨{ pkt 0x10000 with be := 15 }, ready, 0, by unfold State.unobserved; decide⟩,
    ⟨pkt 0x04000000, ready, by unfold State.unobserved; decide⟩,
    ⟨pkt 0x04000000, ready, by unfold State.unobserved; decide⟩,
    ⟨pkt 0x010000000000, ready, by unfold State.unobserved; decide⟩,
    ⟨pkt 0x04000000, ready, by unfold State.unobserved; decide⟩,
    ⟨pkt 0x010000000000, ready, by unfold State.unobserved; decide⟩,
    ⟨pkt 0x04000000, ready, 0x04000020, by decide⟩⟩

theorem witness_PacketsSeen :
    (∃ (p : Packet) (s : State), s.inReset = false ∧ masterOk p.src = true ∧ s.wayOpen p = true ∧ s.streamAsleep p = false ∧
      s.unobserved) ∧
    (∃ (p : Packet) (s : State), s.inReset = false ∧ masterOk p.src = true ∧ s.wayOpen p = true ∧ s.unobserved ∧ s.streamAsleep
      p = true ∧ s.srcOn (stnSource p.dstStn.toNat) = true) ∧
    (∃ (p : Packet) (s : State), takeResponse true p s.ring.resps = none) ∧
    (∃ (p : Packet) (s : State), takeResponse false p s.ring.resps = none) ∧
    (∃ (p : Packet) (s : State) (r : Response) (rest : List Response), s.answerOpen r = false ∧ takeResponse true p
      s.ring.resps = some (r, rest)) ∧
    (∃ (p : Packet) (s : State) (r : Response) (rest : List Response), s.answerOpen r = false ∧ takeResponse false p
      s.ring.resps = some (r, rest)) ∧
    (∃ (p : Packet) (s : State) (r : Response) (rest : List Response), s.answerOpen r = true ∧ (r.p.dstId = 0 → s.host.queue =
      []) ∧ takeResponse true p s.ring.resps = some (r, rest) ∧ r.p.dstId ≠ 0) ∧
    (∃ (p : Packet) (s : State) (r : Response) (rest : List Response), s.answerOpen r = true ∧ (r.p.dstId = 0 → s.host.queue =
      []) ∧ takeResponse true p s.ring.resps = some (r, rest) ∧ r.p.dstId = 0) ∧
    (∃ (p : Packet) (s : State) (r : Response) (rest : List Response), s.answerOpen r = true ∧ (r.p.dstId = 0 → s.host.queue =
      []) ∧ takeResponse false p s.ring.resps = some (r, rest) ∧ r.p.dstId ≠ 0) ∧
    (∃ (p : Packet) (s : State) (r : Response) (rest : List Response), s.answerOpen r = true ∧ (r.p.dstId = 0 → s.host.queue =
      []) ∧ takeResponse false p s.ring.resps = some (r, rest) ∧ r.p.dstId = 0) ∧
    (∃ (p : Packet) (s : State) (r : Response) (rest : List Response), s.unobserved ∧ r.p.dstId ≠ 0 ∧ s.answerOpen r = true ∧
      takeResponse true p s.ring.resps = some (r, rest)) ∧
    (∃ (p : Packet) (s : State) (r : Response) (rest : List Response), s.unobserved ∧ r.p.dstId ≠ 0 ∧ s.answerOpen r = true ∧
      takeResponse false p s.ring.resps = some (r, rest)) ∧
    (∃ (p : Packet) (s : State) (r : Response) (rest : List Response), s.unobserved ∧ r.p.dstId = 0 ∧ r.p.status = 0 ∧
      s.host.queue = [] ∧ s.answerOpen r = true ∧ takeResponse true p s.ring.resps = some (r, rest)) ∧
    (∃ (n : BitVec 6) (s : State), s.hostRuns (R.NOC_PRB_CTL n.toNat) = true) ∧
    (∃ (n : BitVec 3) (s : State), s.hostReads (R.G32_BW n.toNat) = true) ∧
    (∃ (stn : StnId) (s : State), stn.toNat < 160 ∧ s.bit (stnClosed stn.toNat) = true ∧ (∀ (r : Response), r ∈ s.ring.resps →
      r.stn ≠ stn.toNat) ∧ s.ring.waits = []) ∧
    (∃ (stn : StnId) (s : State), (160 ≤ stn.toNat ∨ s.bit (stnClosed stn.toNat) = false ∨ ∃ r, r ∈ s.ring.resps ∧ r.stn =
      stn.toNat ∧ s.answerOpen r = true)) ∧
    (∃ (stn : StnId) (s : State), stn.toNat < 160 ∧ s.bit (stnSwapPend stn.toNat) = true ∧ s.bit (stnDraining stn.toNat) =
      false ∧ s.core.phase = Phase.slack ∧ s.ring.parked = [] ∧ s.host.queue = []) ∧
    (∃ (stn : StnId) (s : State), (160 ≤ stn.toNat ∨ s.bit (stnSwapPend stn.toNat) = false ∨ s.bit (stnDraining stn.toNat) =
      true ∨ s.core.phase ≠ Phase.slack)) :=
  ⟨⟨pkt 0x04000000, ready, by unfold State.unobserved; decide⟩,
    ⟨{ pkt 0x04000000 with dstStn := 0x80 }, ready.fset (F.PWR_DOM_ON 10) 0, by unfold State.unobserved; decide⟩,
    ⟨pkt 0x04000000, ready, by decide⟩,
    ⟨pkt 0x04000000, ready, by decide⟩,
    ⟨{ pkt 0x04000000 with dstId := 0x10 }, (withResp (resp true 0 { pkt 0x04000000 with dstStn := 1 })).setBit
      (F.STN_STAT_CLOSED 1) true, resp true 0 { pkt 0x04000000 with dstStn := 1 }, [], by decide⟩,
    ⟨{ pkt 0x04000000 with dstId := 0x10 }, (withResp (resp false 0 { pkt 0x04000000 with dstStn := 1 })).setBit
      (F.STN_STAT_CLOSED 1) true, resp false 0 { pkt 0x04000000 with dstStn := 1 }, [], by decide⟩,
    ⟨{ pkt 0x04000000 with dstId := 0x10 }, withResp (resp true 0 (pkt 0x04000000)), resp true 0 (pkt 0x04000000), [],
      by decide⟩,
    ⟨{ pkt 0x04000000 with dstId := 0 }, withResp (resp true 0 { pkt 0x04000000 with src := 0 }), resp true 0
      { pkt 0x04000000 with src := 0 }, [], by decide⟩,
    ⟨{ pkt 0x04000000 with dstId := 0x10 }, withResp (resp false 0 (pkt 0x04000000)), resp false 0 (pkt 0x04000000), [],
      by decide⟩,
    ⟨{ pkt 0x04000000 with dstId := 0 }, withResp (resp false 2 { pkt 0x04000000 with src := 0 }), resp false 2
      { pkt 0x04000000 with src := 0 }, [], by decide⟩,
    ⟨{ pkt 0x04000000 with dstId := 0x10 }, withResp (resp true 0 (pkt 0x04000000)), resp true 0 (pkt 0x04000000), [],
      by unfold State.unobserved; decide⟩,
    ⟨{ pkt 0x04000000 with dstId := 0x10 }, withResp (resp false 0 (pkt 0x04000000)), resp false 0 (pkt 0x04000000), [],
      by unfold State.unobserved; decide⟩,
    ⟨pkt 0x04000000, withResp (resp true 0 { pkt 0x04000000 with src := 0 }), resp true 0 { pkt 0x04000000 with src := 0 }, [],
      by unfold State.unobserved; decide⟩,
    ⟨0, ready , by decide⟩,
    ⟨0, ready , by decide⟩,
    ⟨0, ready.setBit (stnClosed 0) true , by decide⟩,
    ⟨0, ready , by decide⟩,
    ⟨0, ready.setBit (stnSwapPend 0) true , by decide⟩,
    ⟨0, ready, by decide⟩⟩

theorem witness_Ports :
    (∃ (g : StrandId) (s : State) (k : Nat) (step : Nat) (strand : Nat) (p : Port), s.runsClass opNop g.toNat ∧ s.core.cur ≠
      some (s.strand g.toNat).pos ∧ s.ports = [(k, p)] ∧ k < 512 ∧ p.fire = some (step, strand) ∧ s.portFull (k / 4) (k % 4)
      (s.fget (F.DMP_CFG_MODE (k / 4) (k % 4))) (p.stage.getLsbD 184) = true ∧ s.srcOn (k / 4) = true) ∧
    (∃ (g : StrandId) (s : State) (k : Nat) (step : Nat) (strand : Nat) (p : Port), s.runsClass opNop g.toNat ∧ s.core.cur ≠
      some (s.strand g.toNat).pos ∧ s.ports = [(k, p)] ∧ k < 512 ∧ p.fire = some (step, strand) ∧ s.portFull (k / 4) (k % 4)
      (s.fget (F.DMP_CFG_MODE (k / 4) (k % 4))) (p.stage.getLsbD 184) = false ∧ (s.wget (W.DMP_SIZE_SIZE (k / 4) (k % 4)) ≤
      field p.stage.toNat 128 48 ∨ s.fget (F.DMP_CFG_MODE (k / 4) (k % 4)) = 4 ∧ p.stage.getLsbD 184 = true ∨ s.fget
      (F.DMP_CFG_MODE (k / 4) (k % 4)) = 5 ∧ p.stage.getLsbD 184 = false) ∧ p.stage.getLsbD 184 = true ∧ s.srcOn (k / 4) =
      true) ∧
    (∃ (g : StrandId) (s : State) (k : Nat) (step : Nat) (strand : Nat) (p : Port), s.runsClass opNop g.toNat ∧ s.core.cur ≠
      some (s.strand g.toNat).pos ∧ s.ports = [(k, p)] ∧ k < 512 ∧ p.fire = some (step, strand) ∧ s.portFull (k / 4) (k % 4)
      (s.fget (F.DMP_CFG_MODE (k / 4) (k % 4))) (p.stage.getLsbD 184) = false ∧ (s.wget (W.DMP_SIZE_SIZE (k / 4) (k % 4)) ≤
      field p.stage.toNat 128 48 ∨ s.fget (F.DMP_CFG_MODE (k / 4) (k % 4)) = 4 ∧ p.stage.getLsbD 184 = true ∨ s.fget
      (F.DMP_CFG_MODE (k / 4) (k % 4)) = 5 ∧ p.stage.getLsbD 184 = false) ∧ p.stage.getLsbD 184 = false ∧ s.srcOn (k / 4) =
      true) ∧
    (∃ (g : StrandId) (s : State) (k : Nat) (step : Nat) (strand : Nat) (p : Port), s.runsClass opNop g.toNat ∧ s.core.cur ≠
      some (s.strand g.toNat).pos ∧ s.ports = [(k, p)] ∧ k < 512 ∧ p.fire = some (step, strand) ∧ s.portFull (k / 4) (k % 4)
      (s.fget (F.DMP_CFG_MODE (k / 4) (k % 4))) (p.stage.getLsbD 184) = false ∧ (¬(s.wget (W.DMP_SIZE_SIZE (k / 4) (k % 4)) ≤
      field p.stage.toNat 128 48 ∨ s.fget (F.DMP_CFG_MODE (k / 4) (k % 4)) = 4 ∧ p.stage.getLsbD 184 = true ∨ s.fget
      (F.DMP_CFG_MODE (k / 4) (k % 4)) = 5 ∧ p.stage.getLsbD 184 = false))) ∧
    (∃ (cord : CordId) (q : BitVec 2) (s : State), List.find? (fun o => o.open_ && !o.delayed) (s.port (portKey cord.toNat
      q.toNat)).ops = none) ∧
    (∃ (cord : CordId) (q : BitVec 2) (s : State), List.find? (fun o => o.open_ && o.delayed) (s.port (portKey cord.toNat
      q.toNat)).ops = none) ∧
    (∃ (cord : CordId) (q : BitVec 2) (s : State) (o : PortOp), List.find? (fun o => o.open_ && !o.delayed) (s.port (portKey
      cord.toNat q.toNat)).ops = some o ∧ o.mode ≠ 3 ∧ s.absNow < o.access ∧ s.core.base ≤ o.fire) ∧
    (∃ (cord : CordId) (q : BitVec 2) (s : State) (o : PortOp), List.find? (fun o => o.open_ && !o.delayed) (s.port (portKey
      cord.toNat q.toNat)).ops = some o ∧ (o.access ≤ s.absNow ∨ o.fire < s.core.base) ∧ o.mode = 1 ∧ o.write = true) ∧
    (∃ (cord : CordId) (q : BitVec 2) (s : State) (o : PortOp), List.find? (fun o => o.open_ && !o.delayed) (s.port (portKey
      cord.toNat q.toNat)).ops = some o ∧ (o.access ≤ s.absNow ∨ o.fire < s.core.base) ∧ o.mode = 1 ∧ o.write = false) ∧
    (∃ (cord : CordId) (q : BitVec 2) (s : State) (o : PortOp), List.find? (fun o => o.open_ && !o.delayed) (s.port (portKey
      cord.toNat q.toNat)).ops = some o ∧ (o.access ≤ s.absNow ∨ o.fire < s.core.base) ∧ o.mode = 4 ∧ o.write = false) ∧
    (∃ (cord : CordId) (q : BitVec 2) (s : State) (o : PortOp), List.find? (fun o => o.open_ && !o.delayed) (s.port (portKey
      cord.toNat q.toNat)).ops = some o ∧ (o.access ≤ s.absNow ∨ o.fire < s.core.base) ∧ o.mode = 5 ∧ o.write = true) ∧
    (∃ (cord : CordId) (q : BitVec 2) (s : State) (o : PortOp), List.find? (fun o => o.open_ && !o.delayed) (s.port (portKey
      cord.toNat q.toNat)).ops = some o ∧ (o.access ≤ s.absNow ∨ o.fire < s.core.base) ∧ o.mode = 2 ∧ s.delayedBefore (s.opBank
      (portKey cord.toNat q.toNat) o) o = true) ∧
    (∃ (cord : CordId) (q : BitVec 2) (s : State) (o : PortOp), List.find? (fun o => o.open_ && !o.delayed) (s.port (portKey
      cord.toNat q.toNat)).ops = some o ∧ (o.access ≤ s.absNow ∨ o.fire < s.core.base) ∧ o.mode = 2 ∧ s.delayedBefore (s.opBank
      (portKey cord.toNat q.toNat) o) o = false ∧ s.bankCount (s.opBank (portKey cord.toNat q.toNat) o) o.access + s.bankAhead
      (s.opBank (portKey cord.toNat q.toNat) o) (portKey cord.toNat q.toNat) o < 4 ∧ s.bankAnswer (s.opBank (portKey cord.toNat
      q.toNat) o) (128 + portKey cord.toNat q.toNat / 4) = BankAnswer.granted ∧ o.write = true) ∧
    (∃ (cord : CordId) (q : BitVec 2) (s : State) (o : PortOp), List.find? (fun o => o.open_ && !o.delayed) (s.port (portKey
      cord.toNat q.toNat)).ops = some o ∧ (o.access ≤ s.absNow ∨ o.fire < s.core.base) ∧ o.mode = 2 ∧ s.delayedBefore (s.opBank
      (portKey cord.toNat q.toNat) o) o = false ∧ s.bankCount (s.opBank (portKey cord.toNat q.toNat) o) o.access + s.bankAhead
      (s.opBank (portKey cord.toNat q.toNat) o) (portKey cord.toNat q.toNat) o < 4 ∧ s.bankAnswer (s.opBank (portKey cord.toNat
      q.toNat) o) (128 + portKey cord.toNat q.toNat / 4) = BankAnswer.granted ∧ o.write = false) ∧
    (∃ (cord : CordId) (q : BitVec 2) (s : State) (o : PortOp), List.find? (fun o => o.open_ && !o.delayed) (s.port (portKey
      cord.toNat q.toNat)).ops = some o ∧ (o.access ≤ s.absNow ∨ o.fire < s.core.base) ∧ o.mode = 2 ∧ s.delayedBefore (s.opBank
      (portKey cord.toNat q.toNat) o) o = false ∧ s.bankCount (s.opBank (portKey cord.toNat q.toNat) o) o.access + s.bankAhead
      (s.opBank (portKey cord.toNat q.toNat) o) (portKey cord.toNat q.toNat) o < 4 ∧ s.bankAnswer (s.opBank (portKey cord.toNat
      q.toNat) o) (128 + portKey cord.toNat q.toNat / 4) = BankAnswer.refused ∧ o.granted = false ∧ o.write = true) ∧
    (∃ (cord : CordId) (q : BitVec 2) (s : State) (o : PortOp), List.find? (fun o => o.open_ && !o.delayed) (s.port (portKey
      cord.toNat q.toNat)).ops = some o ∧ (o.access ≤ s.absNow ∨ o.fire < s.core.base) ∧ o.mode = 2 ∧ s.delayedBefore (s.opBank
      (portKey cord.toNat q.toNat) o) o = false ∧ s.bankCount (s.opBank (portKey cord.toNat q.toNat) o) o.access + s.bankAhead
      (s.opBank (portKey cord.toNat q.toNat) o) (portKey cord.toNat q.toNat) o < 4 ∧ s.bankAnswer (s.opBank (portKey cord.toNat
      q.toNat) o) (128 + portKey cord.toNat q.toNat / 4) = BankAnswer.refused ∧ o.granted = false ∧ o.write = false) ∧
    (∃ (cord : CordId) (q : BitVec 2) (s : State) (o : PortOp), List.find? (fun o => o.open_ && !o.delayed) (s.port (portKey
      cord.toNat q.toNat)).ops = some o ∧ (o.access ≤ s.absNow ∨ o.fire < s.core.base) ∧ o.mode = 2 ∧ s.delayedBefore (s.opBank
      (portKey cord.toNat q.toNat) o) o = false ∧ s.bankCount (s.opBank (portKey cord.toNat q.toNat) o) o.access + s.bankAhead
      (s.opBank (portKey cord.toNat q.toNat) o) (portKey cord.toNat q.toNat) o < 4 ∧ s.bankAnswer (s.opBank (portKey cord.toNat
      q.toNat) o) (128 + portKey cord.toNat q.toNat / 4) = BankAnswer.refused ∧ o.granted = false ∧ s.srcOn (256 + bankOf
      (s.portAddr (portKey cord.toNat q.toNat / 4) (portKey cord.toNat q.toNat % 4) o.addr)) = true) ∧
    (∃ (cord : CordId) (q : BitVec 2) (s : State) (o : PortOp), List.find? (fun o => o.open_ && !o.delayed) (s.port (portKey
      cord.toNat q.toNat)).ops = some o ∧ (o.access ≤ s.absNow ∨ o.fire < s.core.base) ∧ o.mode = 2 ∧ s.delayedBefore (s.opBank
      (portKey cord.toNat q.toNat) o) o = false ∧ s.bankCount (s.opBank (portKey cord.toNat q.toNat) o) o.access + s.bankAhead
      (s.opBank (portKey cord.toNat q.toNat) o) (portKey cord.toNat q.toNat) o < 4 ∧ s.bankAnswer (s.opBank (portKey cord.toNat
      q.toNat) o) (128 + portKey cord.toNat q.toNat / 4) = BankAnswer.waits ∧ o.granted = false) ∧
    (∃ (cord : CordId) (q : BitVec 2) (s : State) (o : PortOp), List.find? (fun o => o.open_ && !o.delayed) (s.port (portKey
      cord.toNat q.toNat)).ops = some o ∧ (o.access ≤ s.absNow ∨ o.fire < s.core.base) ∧ o.mode = 2 ∧ s.delayedBefore (s.opBank
      (portKey cord.toNat q.toNat) o) o = false ∧ 4 ≤ s.bankCount (s.opBank (portKey cord.toNat q.toNat) o) o.access +
      s.bankAhead (s.opBank (portKey cord.toNat q.toNat) o) (portKey cord.toNat q.toNat) o) ∧
    (∃ (cord : CordId) (q : BitVec 2) (s : State) (o : PortOp), List.find? (fun o => o.open_ && !o.delayed) (s.port (portKey
      cord.toNat q.toNat)).ops = some o ∧ o.mode = 3 ∧ o.write = true ∧ s.dramAllows (128 + portKey cord.toNat q.toNat / 4)
      (s.portAddr (portKey cord.toNat q.toNat / 4) (portKey cord.toNat q.toNat % 4) o.addr) true = true) ∧
    (∃ (cord : CordId) (q : BitVec 2) (s : State) (o : PortOp), List.find? (fun o => o.open_ && !o.delayed) (s.port (portKey
      cord.toNat q.toNat)).ops = some o ∧ o.mode = 3 ∧ (o.write = true ∨ s.olderDramWrite o.turn = false) ∧ s.dramAllows (128 +
      portKey cord.toNat q.toNat / 4) (s.portAddr (portKey cord.toNat q.toNat / 4) (portKey cord.toNat q.toNat % 4) o.addr)
      o.write = false ∧ o.write = false) ∧
    (∃ (cord : CordId) (q : BitVec 2) (s : State) (o : PortOp), List.find? (fun o => o.open_ && !o.delayed) (s.port (portKey
      cord.toNat q.toNat)).ops = some o ∧ o.mode = 3 ∧ (o.write = true ∨ s.olderDramWrite o.turn = false) ∧ s.dramAllows (128 +
      portKey cord.toNat q.toNat / 4) (s.portAddr (portKey cord.toNat q.toNat / 4) (portKey cord.toNat q.toNat % 4) o.addr)
      o.write = false ∧ s.inDram (s.portAddr (portKey cord.toNat q.toNat / 4) (portKey cord.toNat q.toNat % 4) o.addr) = true ∧
      s.domainOn (s.addrDomain (s.portAddr (portKey cord.toNat q.toNat / 4) (portKey cord.toNat q.toNat % 4) o.addr)) = true ∧
      s.srcOn (320 + stackOf (s.portAddr (portKey cord.toNat q.toNat / 4) (portKey cord.toNat q.toNat % 4) o.addr)) = true) ∧
    (∃ (cord : CordId) (q : BitVec 2) (s : State) (o : PortOp), List.find? (fun o => o.open_ && !o.delayed) (s.port (portKey
      cord.toNat q.toNat)).ops = some o ∧ o.mode = 3 ∧ o.write = false ∧ s.olderDramWrite o.turn = true) ∧
    (∃ (cord : CordId) (q : BitVec 2) (s : State) (o : PortOp), List.find? (fun o => o.open_ && !o.delayed) (s.port (portKey
      cord.toNat q.toNat)).ops = some o ∧ o.mode = 3 ∧ o.write = false ∧ s.olderDramWrite o.turn = false ∧ s.dramAllows (128 +
      portKey cord.toNat q.toNat / 4) (s.portAddr (portKey cord.toNat q.toNat / 4) (portKey cord.toNat q.toNat % 4) o.addr)
      false = true) ∧
    (∃ (cord : CordId) (q : BitVec 2) (s : State) (o : PortOp), List.find? (fun o => o.open_ && o.delayed) (s.port (portKey
      cord.toNat q.toNat)).ops = some o ∧ (s.opReached o o.access = false ∨ s.delayedBefore (s.opBank (portKey cord.toNat
      q.toNat) o) o = true)) ∧
    (∃ (cord : CordId) (q : BitVec 2) (s : State) (o : PortOp), List.find? (fun o => o.open_ && o.delayed) (s.port (portKey
      cord.toNat q.toNat)).ops = some o ∧ s.opReached o o.access = true ∧ s.delayedBefore (s.opBank (portKey cord.toNat
      q.toNat) o) o = false ∧ s.bankCount (s.opBank (portKey cord.toNat q.toNat) o) o.access + s.bankAhead (s.opBank (portKey
      cord.toNat q.toNat) o) (portKey cord.toNat q.toNat) o < 4 ∧ o.mode = 2 ∧ (o.granted = true ∨ s.bankAnswer (s.opBank
      (portKey cord.toNat q.toNat) o) (128 + portKey cord.toNat q.toNat / 4) = BankAnswer.granted) ∧ o.write = true) ∧
    (∃ (cord : CordId) (q : BitVec 2) (s : State) (o : PortOp), List.find? (fun o => o.open_ && o.delayed) (s.port (portKey
      cord.toNat q.toNat)).ops = some o ∧ s.opReached o o.access = true ∧ s.delayedBefore (s.opBank (portKey cord.toNat
      q.toNat) o) o = false ∧ s.bankCount (s.opBank (portKey cord.toNat q.toNat) o) o.access + s.bankAhead (s.opBank (portKey
      cord.toNat q.toNat) o) (portKey cord.toNat q.toNat) o < 4 ∧ o.mode = 2 ∧ (o.granted = true ∨ s.bankAnswer (s.opBank
      (portKey cord.toNat q.toNat) o) (128 + portKey cord.toNat q.toNat / 4) = BankAnswer.granted) ∧ o.write = false) ∧
    (∃ (cord : CordId) (q : BitVec 2) (s : State), nextReturn s.core (s.port (portKey cord.toNat q.toNat)).ops = none) ∧
    (∃ (cord : CordId) (q : BitVec 2) (s : State) (o : PortOp), nextReturn s.core (s.port (portKey cord.toNat q.toNat)).ops =
      some o ∧ s.core.base ≤ o.fire ∧ min (s.absNow + 1) (s.core.base + s.schedL + 23) < o.ret) ∧
    (∃ (cord : CordId) (q : BitVec 2) (s : State) (o : PortOp), nextReturn s.core (s.port (portKey cord.toNat q.toNat)).ops =
      some o ∧ s.core.base ≤ o.fire ∧ o.ret ≤ min (s.absNow + 1) (s.core.base + s.schedL + 23)) ∧
    (∃ (cord : CordId) (q : BitVec 2) (s : State) (o : PortOp), nextReturn s.core (s.port (portKey cord.toNat q.toNat)).ops =
      some o ∧ o.fire < s.core.base ∧ s.core.base ≤ o.ret ∧ (s.core.phase ≠ Phase.turn ∨ o.delayed = true ∧ s.lateNow + 1 <
      o.ret)) ∧
    (∃ (cord : CordId) (q : BitVec 2) (s : State) (o : PortOp), nextReturn s.core (s.port (portKey cord.toNat q.toNat)).ops =
      some o ∧ o.fire < s.core.base ∧ (¬(s.core.base ≤ o.ret ∧ (s.core.phase ≠ Phase.turn ∨ o.delayed = true ∧ s.lateNow + 1 <
      o.ret)))) ∧
    (∃ (c : Core) (os : List PortOp) (o : PortOp) (p : PortOp), nextReturn c os = some o ∧ p ∈ os ∧ p.write = false ∧ p.mode ≠
      3 ∧ p.accessed = true) ∧
    (∃ (c : Core) (o : PortOp) (p : PortOp), nextReturn c [o, p] = some p ∧ o.write = false ∧ o.mode ≠ 3 ∧ o.accessed = true) ∧
    (∃ (cord : CordId) (q : BitVec 2) (s : State), List.find? (fun o => o.mode == 3 && !o.write && o.accessed && !o.arrived)
      (s.port (portKey cord.toNat q.toNat)).ops = none) ∧
    (∃ (cord : CordId) (q : BitVec 2) (s : State) (o : PortOp), List.find? (fun o => o.mode == 3 && !o.write && o.accessed &&
      !o.arrived) (s.port (portKey cord.toNat q.toNat)).ops = some o ∧ o.late = false) ∧
    (∃ (cord : CordId) (q : BitVec 2) (s : State) (o : PortOp), List.find? (fun o => o.mode == 3 && !o.write && o.accessed &&
      !o.arrived) (s.port (portKey cord.toNat q.toNat)).ops = some o ∧ o.late = true) :=
  ⟨⟨0,
      { ((stepping 64 0).fset (F.DMP_CFG_MODE 0 0) 2).fset (F.DMP_STAT_RD_OUT 0 0) 8 with ports := [(0, { fire := some (0, 0) })] },
      0, 0, 0, { fire := some (0, 0) },
      ⟨by unfold State.runsClass; decide, by decide, rfl, by decide, rfl, by decide, by decide⟩⟩,
    ⟨0, { (stepping 64 0).fset (F.DMP_CFG_MODE 0 0) 2 with ports := [(0, { fire := some (0, 0), stage := 1 <<< 184 })] }, 0, 0,
      0, { fire := some (0, 0), stage := 1 <<< 184 },
      ⟨by unfold State.runsClass; decide, by decide, rfl, by decide, rfl, by decide, .inl (by decide), by decide, by decide⟩⟩,
    ⟨0, { (stepping 64 0).fset (F.DMP_CFG_MODE 0 0) 2 with ports := [(0, { fire := some (0, 0) })] }, 0, 0, 0,
      { fire := some (0, 0) },
      ⟨by unfold State.runsClass; decide, by decide, rfl, by decide, rfl, by decide, .inl (by decide), by decide, by decide⟩⟩,
    ⟨0,
      { ((stepping 64 0).fset (F.DMP_CFG_MODE 0 0) 2).wset (W.DMP_SIZE_SIZE 0 0) 1 with ports := [(0, { fire := some (0, 0) })] },
      0, 0, 0, { fire := some (0, 0) },
      ⟨by unfold State.runsClass; decide, by decide, rfl, by decide, rfl, by decide, by decide⟩⟩,
    ⟨0, 0, ready , by decide⟩,
    ⟨0, 0, ready , by decide⟩,
    ⟨0, 0, withOp ready ({ anOp 1 true with access := 1 }), { anOp 1 true with access := 1 }, by decide⟩,
    ⟨0, 0, withOp ready (anOp 1 true), anOp 1 true, by decide⟩,
    ⟨0, 0, withOp ready (anOp 1 false), anOp 1 false, by decide⟩,
    ⟨0, 0, withOp ready (anOp 4 false), anOp 4 false, by decide⟩,
    ⟨0, 0, withOp ready (anOp 5 true), anOp 5 true, by decide⟩,
    ⟨0, 0, { ready with ports := [(0, { ops := [{ anOp 2 true with delayed := true }, { anOp 2 true with fire := 1 }] })] },
      { anOp 2 true with fire := 1 }, by decide⟩,
    ⟨0, 0, withOp (ready.setBit (F.BNK_OWN_CORDS 0) true) (anOp 2 true), anOp 2 true, by decide⟩,
    ⟨0, 0, withOp (ready.setBit (F.BNK_OWN_CORDS 0) true) (anOp 2 false), anOp 2 false, by decide⟩,
    ⟨0, 0, withOp ready (anOp 2 true), anOp 2 true, by decide⟩,
    ⟨0, 0, withOp ready (anOp 2 false), anOp 2 false, by decide⟩,
    ⟨0, 0, withOp ready (anOp 2 true), anOp 2 true, by decide⟩,
    ⟨0, 0, withOp ({ ready.fset (F.BNK_STAT_STATE 0) 1 with ring := { nextOwner := [(0, 0x80, true)] } }) (anOp 2 true), anOp 2
      true, by decide⟩,
    ⟨0, 0, withOp ({ ready with ring := { bankUse := [(0, ⟨0, 4, 0, 0⟩)] } }) (anOp 2 true), anOp 2 true, by decide⟩,
    ⟨0, 0, withOp (ready.fset (F.BNK_GRN_USE 0) 3) (anOp 3 true), anOp 3 true, by decide⟩,
    ⟨0, 0, withOp ready (anOp 3 false), anOp 3 false, by decide⟩,
    ⟨0, 0, withOp (ready.wset (W.DMP_BASE_BASE 0 0) 0x010000000000) (anOp 3 true), anOp 3 true, by decide⟩,
    ⟨0, 0, { ready with ports := [(0, { ops := [{ anOp 3 false with turn := 1 }, { anOp 3 true with accessed := true }] })] },
      { anOp 3 false with turn := 1 }, by decide⟩,
    ⟨0, 0, withOp (ready.fset (F.BNK_GRN_USE 0) 3) (anOp 3 false), anOp 3 false, by decide⟩,
    ⟨0, 0, withOp ready ({ anOp 2 true with delayed := true, access := 1 }), { anOp 2 true with delayed := true, access := 1 },
      by decide⟩,
    ⟨0, 0, withOp ready ({ anOp 2 true with delayed := true, granted := true }),
      { anOp 2 true with delayed := true, granted := true }, by decide⟩,
    ⟨0, 0, withOp ready ({ anOp 2 false with delayed := true, granted := true }),
      { anOp 2 false with delayed := true, granted := true }, by decide⟩,
    ⟨0, 0, ready , by decide⟩,
    ⟨0, 0, withOp (ready) ({ anOp 1 false with accessed := true, ret := 2 }), { anOp 1 false with accessed := true, ret := 2 },
      by decide⟩,
    ⟨0, 0, withOp (ready) ({ anOp 1 false with accessed := true, ret := 1 }), { anOp 1 false with accessed := true, ret := 1 },
      by decide⟩,
    ⟨0, 0, withOp ({ ready with core := { base := 5 } }) ({ anOp 1 false with accessed := true, ret := 10 }),
      { anOp 1 false with accessed := true, ret := 10 }, by decide⟩,
    ⟨0, 0, withOp ({ ready with core := { base := 5 } }) ({ anOp 1 false with accessed := true }),
      { anOp 1 false with accessed := true }, by decide⟩,
    ⟨{}, [{ anOp 1 false with accessed := true }], { anOp 1 false with accessed := true },
      { anOp 1 false with accessed := true }, by decide⟩,
    ⟨{}, { anOp 1 false with accessed := true, ret := 50 }, { anOp 1 false with accessed := true }, by decide⟩,
    ⟨0, 0, ready , by decide⟩,
    ⟨0, 0, withOp (ready) ({ anOp 3 false with accessed := true }), { anOp 3 false with accessed := true }, by decide⟩,
    ⟨0, 0, withOp (ready) ({ anOp 3 false with accessed := true, late := true }),
      { anOp 3 false with accessed := true, late := true }, by decide⟩⟩

theorem witness_BankOwnership :
    (∃ (bank : BitVec 6) (master : MasterId) (s : State), (if master = 0 then s.hostRuns (R.BNK_OWN bank.toNat) else !s.inReset
      && masterOk master) = true ∧ s.bankHere bank.toNat = true ∧ s.fget (F.BNK_STAT_STATE bank.toNat) = 0 ∧ (master = 0 ∨
      master = 1 ∨ isOwner master.toNat (s.fget (F.BNK_OWN_OWNER bank.toNat)) (s.bit (F.BNK_OWN_CORDS bank.toNat)) = true)) ∧
    (∃ (bank : BitVec 6) (master : MasterId) (s : State), (if master = 0 then s.hostRuns (R.BNK_OWN bank.toNat) else !s.inReset
      && masterOk master && !s.observed) = true ∧ s.bankHere bank.toNat = true ∧ (s.fget (F.BNK_STAT_STATE bank.toNat) ≠ 0 ∨
      master ≠ 0 ∧ master ≠ 1 ∧ isOwner master.toNat (s.fget (F.BNK_OWN_OWNER bank.toNat)) (s.bit (F.BNK_OWN_CORDS bank.toNat))
      = false)) ∧
    (∃ (bank : BitVec 6) (s : State), (s.fget (F.BNK_STAT_STATE bank.toNat) = 0 ∨ s.oldOwnerBusy bank.toNat = true) ∧
      s.host.queue = []) ∧
    (∃ (bank : BitVec 6) (s : State) (o : MasterId) (cords : Bool), s.fget (F.BNK_STAT_STATE bank.toNat) ≠ 0 ∧ s.oldOwnerBusy
      bank.toNat = false ∧ s.host.queue = [] ∧ SMap.find s.ring.nextOwner bank.toNat = some (o, cords) ∧ (∀ (w : Nat ×
      BankWait), w ∈ s.ring.waits → w.fst ≠ bank.toNat)) ∧
    (∃ (s : State) (bank : Nat), s.fget (F.BNK_STAT_STATE bank) = 0) ∧
    (∃ (s : State) (bank : Nat) (o : MasterId) (g : Bool), s.fget (F.BNK_STAT_STATE bank) ≠ 0 ∧ SMap.find s.ring.nextOwner bank
      = some (o, g)) :=
  ⟨⟨0, 0, ready , by decide⟩,
    ⟨0, 0, ready.fset (F.BNK_STAT_STATE 0) 1 , by decide⟩,
    ⟨0, ready , by decide⟩,
    ⟨0,
      { ready.fset (F.BNK_STAT_STATE 0) 1 with ring := { (ready.fset (F.BNK_STAT_STATE 0) 1).ring with nextOwner := SMap.put (ready.fset (F.BNK_STAT_STATE 0) 1).ring.nextOwner 0 (0, false) } },
      0, false , by decide⟩,
    ⟨ready, 0 , by decide⟩,
    ⟨{ ready.fset (F.BNK_STAT_STATE 0) 1 with ring := { (ready.fset (F.BNK_STAT_STATE 0) 1).ring with nextOwner := SMap.put (ready.fset (F.BNK_STAT_STATE 0) 1).ring.nextOwner 0 (0, false) } },
      0, 0, false, by decide⟩⟩

theorem witness_TurnBuffers :
    (∃ (die : Bool) (s : State), die = true ∧ s.closed = true) ∧
    (∃ (die : Bool) (port : BitVec 5) (s : State), (die = true → s.closed = false) ∧ (s.fabricOn = false ∨ s.cutOff
      s.edge.die.tinWe (die.toNat * 32 + port.toNat) = true)) ∧
    (∃ (die : Bool) (port : BitVec 5) (s : State), (die = true → s.closed = false) ∧ s.fabricOn = true ∧ s.cutOff
      s.edge.die.tinWe (die.toNat * 32 + port.toNat) = false ∧ s.standby = true ∧ s.splice.bs = none) ∧
    (∃ (die : Bool) (port : BitVec 5) (cord : CordId) (word : BitVec 11) (s : State), (die = true → s.closed = false) ∧
      s.fabricOn = true ∧ s.cutOff s.edge.die.tinWe (die.toNat * 32 + port.toNat) = false ∧ (s.standby = false ∨
      s.splice.bs.isSome = true) ∧ (s.cordOn cord.toNat = false ∨ ¬cord.toNat * 2048 + word.toNat ∈ s.edge.die.tin)) ∧
    (∃ (die : Bool) (port : BitVec 5) (cord : CordId) (word : BitVec 11) (s : State), (die = true → s.closed = false) ∧
      s.fabricOn = true ∧ s.cutOff s.edge.die.tinWe (die.toNat * 32 + port.toNat) = false ∧ (s.standby = false ∨
      s.splice.bs.isSome = true) ∧ s.cordOn cord.toNat = true ∧ cord.toNat * 2048 + word.toNat ∈ s.edge.die.tin ∧
      s.core.started = false) ∧
    (∃ (die : Bool) (port : BitVec 5) (cord : CordId) (word : BitVec 11) (s : State), (die = true → s.closed = false) ∧
      s.fabricOn = true ∧ s.cutOff s.edge.die.tinWe (die.toNat * 32 + port.toNat) = false ∧ (s.standby = false ∨
      s.splice.bs.isSome = true) ∧ s.cordOn cord.toNat = true ∧ cord.toNat * 2048 + word.toNat ∈ s.edge.die.tin ∧
      s.core.started = true ∧ s.isolated cord.toNat = false ∧ SMap.find s.core.windows (s.closing * 2 ^ 18 + (cord.toNat * 2048
      + word.toNat)) = none) :=
  ⟨⟨true, ready.setBit F.NOC_STAT_CLOSED true , by decide⟩,
    ⟨false, 0, ready , by decide⟩,
    ⟨false, 0, (tins []).fset F.SPL_STAT_STATE 3, by decide⟩,
    ⟨false, 0, 0, 2047, tins [], by decide⟩,
    ⟨false, 0, 0, 2047, tins [2047], by decide⟩,
    ⟨false, 0, 0, 2047, { tins [2047] with core := { started := true } }, by decide⟩⟩

theorem witness_LaneCommands :
    (∃ (lane : LaneId) (s : State), s.hostRuns (R.LANE_CTL lane.toNat) = true ∧ s.laneOn lane.toNat = true ∧ s.bit
      (F.LANE_CTL_EN lane.toNat) = false ∧ s.bit (F.LANE_STAT_SHUTTING lane.toNat) = true) ∧
    (∃ (lane : LaneId) (s : State), s.hostRuns (R.LANE_CTL lane.toNat) = true ∧ s.laneOn lane.toNat = true ∧ s.bit
      (F.LANE_CTL_EN lane.toNat) = false ∧ s.bit (F.LANE_STAT_SHUTTING lane.toNat) = false) ∧
    (∃ (lane : LaneId) (s : State), s.hostRuns (R.LANE_CTL lane.toNat) = true ∧ s.laneOn lane.toNat = true ∧ s.bit
      (F.LANE_CTL_EN lane.toNat) = true ∧ s.dskWidth lane.toNat = 1 ∧ (s.pcsLocked lane.toNat = false ∨ s.isAnchor lane.toNat =
      false ∧ (s.lane lane.toNat).cal = [])) ∧
    (∃ (lane : LaneId) (s : State), s.hostRuns (R.LANE_CTL lane.toNat) = true ∧ s.laneOn lane.toNat = true ∧ lane.toNat < 1024) ∧
    (∃ (lane : LaneId) (s : State), s.hostRuns (R.LANE_CTL lane.toNat) = true ∧ s.laneOn lane.toNat = true ∧ 1024 ≤ lane.toNat) ∧
    (∃ (lane : LaneId) (s : State), s.hostRuns (R.LANE_CTL lane.toNat) = true ∧ s.laneOn lane.toNat = false) ∧
    (∃ (lane : LaneId) (s : State), s.hostRuns (R.LANE_PRBS lane.toNat) = true ∧ s.laneHere lane.toNat = true) ∧
    (∃ (lane : LaneId) (s : State), s.laneHere lane.toNat = false) ∧
    (∃ (lane : LaneId) (s : State), s.laneHere lane.toNat = true ∧ s.bit (F.LANE_STAT_SHUTTING lane.toNat) = false ∧ s.bit
      F.SPL_STAT_PENDING_ENABLE = false) ∧
    (∃ (lane : LaneId) (s : State), s.laneHere lane.toNat = true ∧ s.bit (F.LANE_STAT_SHUTTING lane.toNat) = true ∧ (s.bit
      F.SPL_STAT_PENDING_ENABLE = false ∨ (s.fset (F.LANE_STAT_SHUTTING lane.toNat) 0).linkShutting = true) ∧ s.bit
      (F.LANE_STAT_PENDING_ENABLE lane.toNat) = false) ∧
    (∃ (lane : LaneId) (s : State), s.laneHere lane.toNat = true ∧ s.bit (F.LANE_STAT_SHUTTING lane.toNat) = true ∧ (s.bit
      F.SPL_STAT_PENDING_ENABLE = false ∨ (s.fset (F.LANE_STAT_SHUTTING lane.toNat) 0).linkShutting = true) ∧ s.bit
      (F.LANE_STAT_PENDING_ENABLE lane.toNat) = true) ∧
    (∃ (lane : LaneId) (s : State), s.laneHere lane.toNat = true ∧ s.bit (F.LANE_STAT_SHUTTING lane.toNat) = true ∧ s.bit
      F.SPL_STAT_PENDING_ENABLE = true ∧ (s.fset (F.LANE_STAT_SHUTTING lane.toNat) 0).linkShutting = false) ∧
    (∃ (lane : LaneId) (s : State), s.laneOn lane.toNat = true ∧ s.bit (F.LANE_CTL_EN lane.toNat) = true ∧ s.bit
      (F.LANE_STAT_SHUTTING lane.toNat) = false) ∧
    (∃ (lane : LaneId) (s : State), s.laneLive lane.toNat = true ∧ s.bit (F.LANE_CTL_EN lane.toNat) = true ∧ s.bit
      (F.LANE_STAT_SHUTTING lane.toNat) = false ∧ (s.bit (F.LANE_STAT_SIG_DET lane.toNat) = false ∨ s.pllLocked lane.toNat =
      false)) ∧
    (∃ (lane : LaneId) (s : State), s.laneLive lane.toNat = true ∧ s.bit (F.LANE_CTL_EN lane.toNat) = true ∧ s.bit
      (F.LANE_STAT_SHUTTING lane.toNat) = false ∧ s.bit (F.LANE_STAT_SIG_DET lane.toNat) = true ∧ s.bit (F.LANE_STAT_CDR_LOCK
      lane.toNat) = false ∧ s.pllLocked lane.toNat = true ∧ s.pcs lane.toNat ≠ 0) ∧
    (∃ (lane : LaneId) (s : State) (wb : BitVec 40), s.laneLive lane.toNat = true ∧ s.bit (F.LANE_CTL_EN lane.toNat) = true ∧
      s.bit (F.LANE_STAT_SHUTTING lane.toNat) = false ∧ (s.bit (F.LANE_STAT_CDR_LOCK lane.toNat) = false ∨ s.pcs lane.toNat ≠ 0
      ∧ s.nextUnit lane.toNat wb = false)) ∧
    (∃ (lane : LaneId) (s : State) (wb : BitVec 40), s.laneLive lane.toNat = true ∧ s.bit (F.LANE_CTL_EN lane.toNat) = true ∧
      s.bit (F.LANE_STAT_SHUTTING lane.toNat) = false ∧ s.bit (F.LANE_STAT_CDR_LOCK lane.toNat) = true ∧ s.bit
      (F.LANE_STAT_PCS_LOCK lane.toNat) = false ∧ (s.pcs lane.toNat = 0 ∨ s.nextUnit lane.toNat wb = true) ∧ s.pcs lane.toNat ≠
      0 ∧ s.isAnchor lane.toNat = false) ∧
    (∃ (lane : LaneId) (s : State) (wb : BitVec 40), s.laneLive lane.toNat = true ∧ s.bit (F.LANE_CTL_EN lane.toNat) = true ∧
      s.bit (F.LANE_STAT_SHUTTING lane.toNat) = false ∧ s.bit (F.LANE_STAT_PCS_LOCK lane.toNat) = true ∧ s.rsLane lane.toNat =
      true ∧ s.bit (F.LANE_STAT_FEC_LOCK lane.toNat) = false ∧ s.nextUnit lane.toNat wb = true) ∧
    (∃ (lane : LaneId) (s : State) (wb : BitVec 40), s.laneLive lane.toNat = true ∧ s.bit (F.LANE_CTL_EN lane.toNat) = true ∧
      s.bit (F.LANE_STAT_SHUTTING lane.toNat) = false ∧ (s.bit (F.LANE_STAT_PCS_LOCK lane.toNat) = false ∨ s.rsLane lane.toNat
      = false ∨ s.nextUnit lane.toNat wb = false)) ∧
    (∃ (lane : LaneId) (s : State), s.laneLive lane.toNat = true ∧ s.bit (F.LANE_CTL_EN lane.toNat) = true ∧ s.bit
      (F.LANE_STAT_SHUTTING lane.toNat) = false ∧ s.bit (F.LANE_STAT_PCS_LOCK lane.toNat) = true ∧ (s.rsLane lane.toNat = true
      → s.bit (F.LANE_STAT_FEC_LOCK lane.toNat) = true) ∧ s.dskWidth lane.toNat ≠ 1 ∧ lane.toNat ∈ s.dskLanes lane.toNat ∧
      s.bit (F.LANE_STAT_ALIGNED lane.toNat) = false ∧ (∃ m, m ∈ s.dskLanes lane.toNat ∧ m ≠ lane.toNat ∧ (s.lane m).skew =
      none)) ∧
    (∃ (lane : LaneId) (s : State) (lag : BitVec 7) (at_ : Nat → Nat), s.laneLive lane.toNat = true ∧ s.bit (F.LANE_CTL_EN
      lane.toNat) = true ∧ s.bit (F.LANE_STAT_SHUTTING lane.toNat) = false ∧ s.bit (F.LANE_STAT_PCS_LOCK lane.toNat) = true ∧
      (s.rsLane lane.toNat = true → s.bit (F.LANE_STAT_FEC_LOCK lane.toNat) = true) ∧ s.dskWidth lane.toNat ≠ 1 ∧ lane.toNat ∈
      s.dskLanes lane.toNat ∧ s.bit (F.LANE_STAT_ALIGNED lane.toNat) = false ∧ (∀ (m : Nat), m ∈ s.dskLanes lane.toNat →
      ((s.setLane lane.toNat { s.lane lane.toNat with skew := some lag.toNat }).lane m).skew = some (at_ m) ∧ at_ m < 128) ∧ (∃
      m, m ∈ s.dskLanes lane.toNat ∧ ∃ k, k ∈ s.dskLanes lane.toNat ∧ at_ k + 63 < at_ m)) ∧
    (∃ (lane : LaneId) (s : State) (lag : BitVec 7) (at_ : Nat → Nat) (k : Nat), s.laneLive lane.toNat = true ∧ s.bit
      (F.LANE_CTL_EN lane.toNat) = true ∧ s.bit (F.LANE_STAT_SHUTTING lane.toNat) = false ∧ s.bit (F.LANE_STAT_PCS_LOCK
      lane.toNat) = true ∧ (s.rsLane lane.toNat = true → s.bit (F.LANE_STAT_FEC_LOCK lane.toNat) = true) ∧ s.dskWidth
      lane.toNat ≠ 1 ∧ lane.toNat ∈ s.dskLanes lane.toNat ∧ s.bit (F.LANE_STAT_ALIGNED lane.toNat) = false ∧ (∀ (m : Nat), m ∈
      s.dskLanes lane.toNat → ((s.setLane lane.toNat { s.lane lane.toNat with skew := some lag.toNat }).lane m).skew = some
      (at_ m) ∧ at_ m < 128) ∧ k ∈ s.dskLanes lane.toNat ∧ (∀ (m : Nat), m ∈ s.dskLanes lane.toNat → at_ k ≤ at_ m ∧ at_ m ≤
      at_ k + 63)) ∧
    (∃ (lane : LaneId) (s : State) (stage : LaneStage), (s.laneOn lane.toNat = false ∨ s.hasStage lane.toNat stage = false)) ∧
    (∃ (lane : LaneId) (s : State) (stage : LaneStage), s.laneOn lane.toNat = true ∧ s.hasStage lane.toNat stage = true ∧ stage
      = LaneStage.signal) ∧
    (∃ (lane : LaneId) (s : State) (stage : LaneStage), s.laneOn lane.toNat = true ∧ s.hasStage lane.toNat stage = true ∧ stage
      = LaneStage.cdr) ∧
    (∃ (lane : LaneId) (s : State) (stage : LaneStage), s.laneOn lane.toNat = true ∧ s.hasStage lane.toNat stage = true ∧ stage
      = LaneStage.pcs) ∧
    (∃ (lane : LaneId) (s : State) (stage : LaneStage), s.laneOn lane.toNat = true ∧ s.hasStage lane.toNat stage = true ∧
      s.dskWidth lane.toNat = 1 ∧ (s.pcsLocked lane.toNat = false ∨ s.isAnchor lane.toNat = false ∧ (s.lane lane.toNat).cal =
      [])) ∧
    (∃ (lane : LaneId) (s : State) (v : Bool), s.laneOn lane.toNat = true ∧ s.chkMay lane.toNat v = true) ∧
    (∃ (lane : LaneId) (s : State) (v : Bool), (s.laneOn lane.toNat = false ∨ s.chkMay lane.toNat v = false)) ∧
    (∃ (lane : LaneId) (s : State), s.laneOn lane.toNat = true ∧ s.bit (F.LANE_CTL_FE_LPBK lane.toNat) = true ∧ s.bit
      (F.LANE_CTL_NE_LPBK lane.toNat) = false ∧ 64 < (s.lane lane.toNat).fe.length) ∧
    (∃ (lane : LaneId) (s : State), (s.laneOn lane.toNat = false ∨ s.bit (F.LANE_CTL_FE_LPBK lane.toNat) = false ∨ s.bit
      (F.LANE_CTL_NE_LPBK lane.toNat) = true)) :=
  ⟨⟨0, (ready.setBit (F.LANE_CFG_CONFIGURED 0) true).setBit (F.LANE_STAT_SHUTTING 0) true , by decide⟩,
    ⟨0, ready.setBit (F.LANE_CFG_CONFIGURED 0) true , by decide⟩,
    ⟨0, (ready.setBit (F.LANE_CFG_CONFIGURED 0) true).setBit (F.LANE_CTL_EN 0) true , by decide⟩,
    ⟨0, ready.setBit (F.LANE_CFG_CONFIGURED 0) true , by decide⟩,
    ⟨1024, ready.setBit (F.LANE_CFG_CONFIGURED 1024) true , by decide⟩,
    ⟨0, ready , by decide⟩,
    ⟨0, ready , by decide⟩,
    ⟨2047, ready , by decide⟩,
    ⟨0, ready , by decide⟩,
    ⟨0, ready.setBit (F.LANE_STAT_SHUTTING 0) true , by decide⟩,
    ⟨0, (ready.setBit (F.LANE_STAT_SHUTTING 0) true).setBit (F.LANE_STAT_PENDING_ENABLE 0) true , by decide⟩,
    ⟨0, (ready.setBit (F.LANE_STAT_SHUTTING 0) true).setBit F.SPL_STAT_PENDING_ENABLE true , by decide⟩,
    ⟨0, (ready.setBit (F.LANE_CFG_CONFIGURED 0) true).setBit (F.LANE_CTL_EN 0) true , by decide⟩,
    ⟨0, (ready.setBit (F.LANE_CFG_CONFIGURED 0) true).setBit (F.LANE_CTL_EN 0) true , by decide⟩,
    ⟨0, let s := ((laneOf 0).setBit (F.LANE_STAT_SIG_DET 0) true).fset (F.LANE_CFG_PCS 0) 1;
      { s with image := { s.image with lref := [(0, 0)] } }, by decide⟩,
    ⟨0, (ready.setBit (F.LANE_CFG_CONFIGURED 0) true).setBit (F.LANE_CTL_EN 0) true, 0 , by decide⟩,
    ⟨0, (((ready.setBit (F.LANE_CFG_CONFIGURED 0) true).setBit (F.LANE_CTL_EN 0) true).setBit (F.LANE_STAT_CDR_LOCK 0)
      true).fset (F.LANE_CFG_PCS 0) 1, 0 , by decide⟩,
    ⟨0, (((ready.setBit (F.LANE_CFG_CONFIGURED 0) true).setBit (F.LANE_CTL_EN 0) true).setBit (F.LANE_STAT_PCS_LOCK 0)
      true).fset (F.LANE_CFG_PCS 0) 5, 0 , by decide⟩,
    ⟨0, (ready.setBit (F.LANE_CFG_CONFIGURED 0) true).setBit (F.LANE_CTL_EN 0) true, 0 , by decide⟩,
    ⟨0, (((laneOf 0).setBit (F.LANE_STAT_PCS_LOCK 0) true).fset (F.LANE_CFG_PCS 0) 2).fset (F.LANE_CFG_DSK_W 0) 1,
      ⟨by decide, by decide, by decide, by decide, by decide, by decide, by decide, by decide, 1, by decide⟩⟩,
    ⟨0, ((((laneOf 0).setBit (F.LANE_STAT_PCS_LOCK 0) true).fset (F.LANE_CFG_PCS 0) 2).fset (F.LANE_CFG_DSK_W 0) 1).setLane 1
      { skew := some 0 }, 127, (fun m => if m = 0 then 127 else 0),
      ⟨by decide, by decide, by decide, by decide, by decide, by decide, by decide, by decide, by decide, 0, by decide, 1, by decide⟩⟩,
    ⟨0, ((((laneOf 0).setBit (F.LANE_STAT_PCS_LOCK 0) true).fset (F.LANE_CFG_PCS 0) 2).fset (F.LANE_CFG_DSK_W 0) 1).setLane 1
      { skew := some 0 }, 5, (fun m => if m = 0 then 5 else 0), 1,
      ⟨by decide, by decide, by decide, by decide, by decide, by decide, by decide, by decide, by decide, by decide, by decide⟩⟩,
    ⟨0, ready, LaneStage.signal , by decide⟩,
    ⟨0, (laneOf 0).setBit (F.LANE_STAT_SIG_DET 0) true, .signal, by decide⟩,
    ⟨0, (laneOf 0).setBit (F.LANE_STAT_CDR_LOCK 0) true, .cdr, by decide⟩,
    ⟨0, (laneOf 0).setBit (F.LANE_STAT_PCS_LOCK 0) true, .pcs, by decide⟩,
    ⟨0, (laneOf 0).setBit (F.LANE_STAT_SIG_DET 0) true, .signal, by decide⟩,
    ⟨0, ((laneOf 0).fset (F.LANE_PRBS_CHK_POLY 0) 1).setLane 0 { matched := 64 }, true, by decide⟩,
    ⟨0, ready, false , by decide⟩,
    ⟨0, ((laneOf 0).setBit (F.LANE_CTL_FE_LPBK 0) true).setLane 0 { fe := List.replicate 65 true }, by decide⟩,
    ⟨0, ready, by decide⟩⟩

theorem witness_LaneWords :
    (∃ (lane : LaneId) (s : State), (s.laneLive lane.toNat = false ∨ s.bit (F.LANE_CTL_EN lane.toNat) = false ∨ s.bit
      (F.LANE_STAT_SHUTTING lane.toNat) = true)) ∧
    (∃ (lane : LaneId) (s : State), s.laneLive lane.toNat = true ∧ s.bit (F.LANE_CTL_EN lane.toNat) = true ∧ s.bit
      (F.LANE_STAT_SHUTTING lane.toNat) = false ∧ s.acquired lane.toNat = false) ∧
    (∃ (lane : LaneId) (s : State), s.laneLive lane.toNat = true ∧ s.bit (F.LANE_CTL_EN lane.toNat) = true ∧ s.bit
      (F.LANE_STAT_SHUTTING lane.toNat) = false ∧ s.bit (F.LANE_CTL_NE_LPBK lane.toNat) = false) ∧
    (∃ (lane : LaneId) (s : State), s.laneLive lane.toNat = true ∧ s.bit (F.LANE_CTL_EN lane.toNat) = true ∧ s.bit
      (F.LANE_STAT_SHUTTING lane.toNat) = false ∧ s.bit (F.LANE_CTL_NE_LPBK lane.toNat) = true ∧ (s.lane lane.toNat).txSrc ≠ 3
      ∧ s.pcs lane.toNat ≠ 0) ∧
    (∃ (lane : LaneId) (s : State), s.laneLive lane.toNat = true ∧ s.bit (F.LANE_CTL_EN lane.toNat) = true ∧ s.bit
      (F.LANE_STAT_SHUTTING lane.toNat) = false ∧ s.bit (F.LANE_CTL_NE_LPBK lane.toNat) = true ∧ s.pcs lane.toNat = 0) ∧
    (∃ (lane : LaneId) (s : State), s.laneLive lane.toNat = true ∧ s.bit (F.LANE_CTL_EN lane.toNat) = true ∧ s.bit
      (F.LANE_STAT_SHUTTING lane.toNat) = false ∧ s.bit (F.LANE_CTL_NE_LPBK lane.toNat) = true ∧ (s.lane lane.toNat).tx = none) ∧
    (∃ (taps : List Nat) (n : Nat) (i : Nat), n ≤ 80 ∧ i < n ∧ (∀ (t : Nat), t ∈ taps → 1 ≤ t ∧ t ≤ 32)) ∧
    (∃ (lane : LaneId) (s : State), s.laneLive lane.toNat = false) ∧
    (∃ (lane : LaneId) (s : State), s.laneLive lane.toNat = true ∧ s.txOn lane.toNat = false) ∧
    (∃ (lane : LaneId) (s : State), s.laneLive lane.toNat = true ∧ s.txOn lane.toNat = true ∧ s.safeIdle lane.toNat = true) ∧
    (∃ (lane : LaneId) (s : State), s.laneLive lane.toNat = true ∧ s.txOn lane.toNat = true ∧ s.safeIdle lane.toNat = false ∧
      (s.bit (F.LANE_CTL_FE_LPBK lane.toNat) && !s.bit (F.LANE_CTL_NE_LPBK lane.toNat)) = true ∧ (s.lane lane.toNat).fe.length
      < wireBits (s.pcs lane.toNat)) ∧
    (∃ (lane : LaneId) (s : State), s.laneLive lane.toNat = true ∧ s.txOn lane.toNat = true ∧ s.safeIdle lane.toNat = false ∧
      (s.bit (F.LANE_CTL_FE_LPBK lane.toNat) && !s.bit (F.LANE_CTL_NE_LPBK lane.toNat)) = false ∧ 1024 ≤ lane.toNat) ∧
    (∃ (lane : LaneId) (s : State), s.laneLive lane.toNat = true ∧ s.txOn lane.toNat = true ∧ s.safeIdle lane.toNat = false ∧
      (s.bit (F.LANE_CTL_FE_LPBK lane.toNat) && !s.bit (F.LANE_CTL_NE_LPBK lane.toNat)) = false ∧ lane.toNat < 1024 ∧ s.fget
      (F.LANE_CTL_TX_SRC lane.toNat) = 0) ∧
    (∃ (lane : LaneId) (s : State), s.laneLive lane.toNat = true ∧ s.txOn lane.toNat = true ∧ s.safeIdle lane.toNat = false ∧
      (s.bit (F.LANE_CTL_FE_LPBK lane.toNat) && !s.bit (F.LANE_CTL_NE_LPBK lane.toNat)) = false ∧ lane.toNat < 1024 ∧ s.fget
      (F.LANE_CTL_TX_SRC lane.toNat) = 1) ∧
    (∃ (lane : LaneId) (s : State), s.laneLive lane.toNat = true ∧ s.txOn lane.toNat = true ∧ s.safeIdle lane.toNat = false ∧
      (s.bit (F.LANE_CTL_FE_LPBK lane.toNat) && !s.bit (F.LANE_CTL_NE_LPBK lane.toNat)) = false ∧ lane.toNat < 1024 ∧ s.fget
      (F.LANE_CTL_TX_SRC lane.toNat) = 2 ∧ s.bit (F.PAT_CTL_EN lane.toNat) = false ∧ (s.bit (F.PAT_STAT_SHUTTING lane.toNat) =
      false ∨ (s.pat lane.toNat).idx = 0)) ∧
    (∃ (lane : LaneId) (s : State), s.laneLive lane.toNat = true ∧ s.txOn lane.toNat = true ∧ s.safeIdle lane.toNat = false ∧
      (s.bit (F.LANE_CTL_FE_LPBK lane.toNat) && !s.bit (F.LANE_CTL_NE_LPBK lane.toNat)) = false ∧ lane.toNat < 1024 ∧ s.fget
      (F.LANE_CTL_TX_SRC lane.toNat) = 2 ∧ s.bit (F.PAT_CTL_EN lane.toNat) = true ∧ ((s.pat lane.toNat).idx ≠ 0 ∨ (s.pat
      lane.toNat).ended = false) ∧ s.fget (F.PAT_STAT_ACT_SRC lane.toNat) = 0) ∧
    (∃ (lane : LaneId) (s : State), s.laneLive lane.toNat = true ∧ s.txOn lane.toNat = true ∧ s.safeIdle lane.toNat = false ∧
      (s.bit (F.LANE_CTL_FE_LPBK lane.toNat) && !s.bit (F.LANE_CTL_NE_LPBK lane.toNat)) = false ∧ lane.toNat < 1024 ∧ s.fget
      (F.LANE_CTL_TX_SRC lane.toNat) = 2 ∧ s.bit (F.PAT_CTL_EN lane.toNat) = true ∧ ((s.pat lane.toNat).idx ≠ 0 ∨ (s.pat
      lane.toNat).ended = false) ∧ s.fget (F.PAT_STAT_ACT_SRC lane.toNat) = 1 ∧ (0 < (s.pat lane.toNat).idle ∨ (s.pat
      lane.toNat).desc = none)) ∧
    (∃ (lane : LaneId) (s : State), s.laneLive lane.toNat = true ∧ s.txOn lane.toNat = true ∧ s.safeIdle lane.toNat = false ∧
      (s.bit (F.LANE_CTL_FE_LPBK lane.toNat) && !s.bit (F.LANE_CTL_NE_LPBK lane.toNat)) = false ∧ lane.toNat < 1024 ∧ s.fget
      (F.LANE_CTL_TX_SRC lane.toNat) = 2 ∧ s.bit (F.PAT_CTL_EN lane.toNat) = true ∧ ((s.pat lane.toNat).idx ≠ 0 ∨ (s.pat
      lane.toNat).ended = false) ∧ s.fget (F.PAT_STAT_ACT_SRC lane.toNat) = 1 ∧ (s.pat lane.toNat).idle = 0) ∧
    (∃ (lane : LaneId) (s : State), s.laneLive lane.toNat = true ∧ s.txOn lane.toNat = true ∧ s.safeIdle lane.toNat = false ∧
      (s.bit (F.LANE_CTL_FE_LPBK lane.toNat) && !s.bit (F.LANE_CTL_NE_LPBK lane.toNat)) = false ∧ lane.toNat < 1024 ∧ s.fget
      (F.LANE_CTL_TX_SRC lane.toNat) = 2 ∧ s.bit (F.PAT_CTL_EN lane.toNat) = true ∧ ((s.pat lane.toNat).idx ≠ 0 ∨ (s.pat
      lane.toNat).ended = false) ∧ s.fget (F.PAT_STAT_ACT_SRC lane.toNat) = 2) ∧
    (∃ (lane : LaneId) (s : State), s.laneLive lane.toNat = true ∧ s.txOn lane.toNat = true ∧ s.safeIdle lane.toNat = false ∧
      (s.bit (F.LANE_CTL_FE_LPBK lane.toNat) && !s.bit (F.LANE_CTL_NE_LPBK lane.toNat)) = false ∧ lane.toNat < 1024 ∧ s.fget
      (F.LANE_CTL_TX_SRC lane.toNat) = 2 ∧ s.bit (F.PAT_CTL_EN lane.toNat) = true ∧ ((s.pat lane.toNat).idx ≠ 0 ∨ (s.pat
      lane.toNat).ended = false) ∧ s.fget (F.PAT_STAT_ACT_SRC lane.toNat) = 3) ∧
    (∃ (lane : LaneId) (s : State), s.laneLive lane.toNat = true ∧ s.txOn lane.toNat = true ∧ s.safeIdle lane.toNat = false ∧
      (s.bit (F.LANE_CTL_FE_LPBK lane.toNat) && !s.bit (F.LANE_CTL_NE_LPBK lane.toNat)) = false ∧ lane.toNat < 1024 ∧ s.fget
      (F.LANE_CTL_TX_SRC lane.toNat) = 3 ∧ prbsTaps (s.fget (F.LANE_PRBS_GEN_POLY lane.toNat)) = []) ∧
    (∃ (lane : LaneId) (s : State), s.laneLive lane.toNat = true ∧ s.txOn lane.toNat = true ∧ s.safeIdle lane.toNat = false ∧
      (s.bit (F.LANE_CTL_FE_LPBK lane.toNat) && !s.bit (F.LANE_CTL_NE_LPBK lane.toNat)) = false ∧ lane.toNat < 1024 ∧ s.fget
      (F.LANE_CTL_TX_SRC lane.toNat) = 3 ∧ prbsTaps (s.fget (F.LANE_PRBS_GEN_POLY lane.toNat)) ≠ []) :=
  ⟨⟨0, ready , by decide⟩,
    ⟨0, (ready.setBit (F.LANE_CFG_CONFIGURED 0) true).setBit (F.LANE_CTL_EN 0) true , by decide⟩,
    ⟨0, (ready.setBit (F.LANE_CFG_CONFIGURED 0) true).setBit (F.LANE_CTL_EN 0) true , by decide⟩,
    ⟨0, (((ready.setBit (F.LANE_CFG_CONFIGURED 0) true).setBit (F.LANE_CTL_EN 0) true).setBit (F.LANE_CTL_NE_LPBK 0) true).fset
      (F.LANE_CFG_PCS 0) 1 , by decide⟩,
    ⟨0, ((ready.setBit (F.LANE_CFG_CONFIGURED 0) true).setBit (F.LANE_CTL_EN 0) true).setBit (F.LANE_CTL_NE_LPBK 0) true ,
      by decide⟩,
    ⟨0, ((ready.setBit (F.LANE_CFG_CONFIGURED 0) true).setBit (F.LANE_CTL_EN 0) true).setBit (F.LANE_CTL_NE_LPBK 0) true ,
      by decide⟩,
    ⟨[], 1, 0 , by decide⟩,
    ⟨0, ready , by decide⟩,
    ⟨0, ready.setBit (F.LANE_CFG_CONFIGURED 0) true , by decide⟩,
    ⟨0, (((ready.setBit (F.LANE_CFG_CONFIGURED 0) true).setBit (F.LANE_CTL_EN 0) true).setBit F.FLT_STAT_SAFE true).setBit
      F.FLT_POLICY_SAFE_TX true , by decide⟩,
    ⟨0, ((ready.setBit (F.LANE_CFG_CONFIGURED 0) true).setBit (F.LANE_CTL_EN 0) true).setBit (F.LANE_CTL_FE_LPBK 0) true ,
      by decide⟩,
    ⟨1024, (ready.setBit (F.LANE_CFG_CONFIGURED 1024) true).setBit (F.LANE_CTL_EN 1024) true , by decide⟩,
    ⟨0, (ready.setBit (F.LANE_CFG_CONFIGURED 0) true).setBit (F.LANE_CTL_EN 0) true , by decide⟩,
    ⟨0, ((ready.setBit (F.LANE_CFG_CONFIGURED 0) true).setBit (F.LANE_CTL_EN 0) true).fset (F.LANE_CTL_TX_SRC 0) 1 , by decide⟩,
    ⟨0, ((ready.setBit (F.LANE_CFG_CONFIGURED 0) true).setBit (F.LANE_CTL_EN 0) true).fset (F.LANE_CTL_TX_SRC 0) 2 , by decide⟩,
    ⟨0, (((ready.setBit (F.LANE_CFG_CONFIGURED 0) true).setBit (F.LANE_CTL_EN 0) true).fset (F.LANE_CTL_TX_SRC 0) 2).setBit
      (F.PAT_CTL_EN 0) true , by decide⟩,
    ⟨0, ((((ready.setBit (F.LANE_CFG_CONFIGURED 0) true).setBit (F.LANE_CTL_EN 0) true).fset (F.LANE_CTL_TX_SRC 0) 2).setBit
      (F.PAT_CTL_EN 0) true).fset (F.PAT_STAT_ACT_SRC 0) 1 , by decide⟩,
    ⟨0, ((((ready.setBit (F.LANE_CFG_CONFIGURED 0) true).setBit (F.LANE_CTL_EN 0) true).fset (F.LANE_CTL_TX_SRC 0) 2).setBit
      (F.PAT_CTL_EN 0) true).fset (F.PAT_STAT_ACT_SRC 0) 1 , by decide⟩,
    ⟨0, ((((ready.setBit (F.LANE_CFG_CONFIGURED 0) true).setBit (F.LANE_CTL_EN 0) true).fset (F.LANE_CTL_TX_SRC 0) 2).setBit
      (F.PAT_CTL_EN 0) true).fset (F.PAT_STAT_ACT_SRC 0) 2 , by decide⟩,
    ⟨0, ((((ready.setBit (F.LANE_CFG_CONFIGURED 0) true).setBit (F.LANE_CTL_EN 0) true).fset (F.LANE_CTL_TX_SRC 0) 2).setBit
      (F.PAT_CTL_EN 0) true).fset (F.PAT_STAT_ACT_SRC 0) 3 , by decide⟩,
    ⟨0, ((ready.setBit (F.LANE_CFG_CONFIGURED 0) true).setBit (F.LANE_CTL_EN 0) true).fset (F.LANE_CTL_TX_SRC 0) 3 , by decide⟩,
    ⟨0, ((laneOf 0).fset (F.LANE_CTL_TX_SRC 0) 3).fset (F.LANE_PRBS_GEN_POLY 0) 1, by decide⟩⟩

theorem witness_LaneMeasurement :
    (∃ (lane : LaneId) (c : CalSel) (up : Bool) (s : State), (s.laneLive lane.toNat = false ∨ s.bit (F.LANE_CTL_EN lane.toNat)
      = false ∨ s.calActive lane.toNat c = false ∨ max (-if calIsThr c = true then 127 else 63) (min (if calIsThr c = true then
      127 else 63) (if up = true then s.sget (calShadow lane.toNat c) + 1 else s.sget (calShadow lane.toNat c) - 1)) = s.sget
      (calShadow lane.toNat c))) ∧
    (∃ (lane : LaneId) (c : CalSel) (up : Bool) (s : State), s.laneLive lane.toNat = true ∧ s.bit (F.LANE_CTL_EN lane.toNat) =
      true ∧ s.calActive lane.toNat c = true ∧ max (-if calIsThr c = true then 127 else 63) (min (if calIsThr c = true then 127
      else 63) (if up = true then s.sget (calShadow lane.toNat c) + 1 else s.sget (calShadow lane.toNat c) - 1)) ≠ s.sget
      (calShadow lane.toNat c) ∧ s.calPinOn lane.toNat c = true) ∧
    (∃ (lane : LaneId) (c : CalSel) (up : Bool) (s : State), s.laneLive lane.toNat = true ∧ s.bit (F.LANE_CTL_EN lane.toNat) =
      true ∧ s.calActive lane.toNat c = true ∧ max (-if calIsThr c = true then 127 else 63) (min (if calIsThr c = true then 127
      else 63) (if up = true then s.sget (calShadow lane.toNat c) + 1 else s.sget (calShadow lane.toNat c) - 1)) ≠ s.sget
      (calShadow lane.toNat c) ∧ s.calPinOn lane.toNat c = false ∧ s.pcsLocked lane.toNat = false) ∧
    (∃ (lane : LaneId) (c : CalSel) (up : Bool) (s : State), s.laneLive lane.toNat = true ∧ s.bit (F.LANE_CTL_EN lane.toNat) =
      true ∧ s.calActive lane.toNat c = true ∧ max (-if calIsThr c = true then 127 else 63) (min (if calIsThr c = true then 127
      else 63) (if up = true then s.sget (calShadow lane.toNat c) + 1 else s.sget (calShadow lane.toNat c) - 1)) ≠ s.sget
      (calShadow lane.toNat c) ∧ s.calPinOn lane.toNat c = false ∧ s.pcsLocked lane.toNat = true) ∧
    (∃ (lane : LaneId) (wb : BitVec 40) (s : State), (s.laneHere lane.toNat && s.pcsLocked lane.toNat && s.onUnit lane.toNat
      wb) = false) ∧
    (∃ (lane : LaneId) (wb : BitVec 40) (s : State), (s.laneHere lane.toNat && s.pcsLocked lane.toNat && s.onUnit lane.toNat
      wb) = true) ∧
    (∃ (lane : LaneId) (s : State), s.hostRuns (R.LANE_CAL_PIN lane.toNat) = true ∧ s.laneHere lane.toNat = true) ∧
    (∃ (lane : LaneId) (s : State), s.hostRuns (R.LANE_ES_CTL lane.toNat) = true ∧ s.laneHere lane.toNat = true ∧ s.bit
      (F.LANE_ES_STAT_BUSY lane.toNat) = true) ∧
    (∃ (lane : LaneId) (s : State), s.hostRuns (R.LANE_ES_CTL lane.toNat) = true ∧ s.laneHere lane.toNat = true ∧ s.bit
      (F.LANE_ES_STAT_BUSY lane.toNat) = false ∧ s.bit (F.LANE_STAT_CDR_LOCK lane.toNat) = false) ∧
    (∃ (lane : LaneId) (s : State) (i : Nat) (rest : List Nat), s.hostRuns (R.LANE_ES_CTL lane.toNat) = true ∧ s.laneHere
      lane.toNat = true ∧ s.bit (F.LANE_ES_STAT_BUSY lane.toNat) = false ∧ s.bit (F.LANE_STAT_CDR_LOCK lane.toNat) = true ∧
      s.scanPoints lane.toNat = i :: rest) ∧
    (∃ (lane : LaneId) (s : State), s.bit (F.LANE_ES_STAT_BUSY lane.toNat) = true ∧ List.find? (fun i => decide ((s.lane
      lane.toNat).point < i)) (s.scanPoints lane.toNat) = none) ∧
    (∃ (m : Nat), 0 < m ∧ eyeCode m < 254) :=
  ⟨⟨0, CalSel.ofs0, false, ready , by decide⟩,
    ⟨0, .ofs1, true, (laneOf 0).setBit (F.LANE_CAL_PIN_PIN_OFS 0) true, by decide⟩,
    ⟨0, CalSel.ofs0, false, ((ready.setBit (F.LANE_CFG_CONFIGURED 0) true).setBit (F.LANE_CTL_EN 0) true).setBit
      (F.LANE_CFG_MOD 0) true , by decide⟩,
    ⟨0, CalSel.ofs0, false, (((ready.setBit (F.LANE_CFG_CONFIGURED 0) true).setBit (F.LANE_CTL_EN 0) true).setBit
      (F.LANE_CFG_MOD 0) true).setBit (F.LANE_STAT_PCS_LOCK 0) true , by decide⟩,
    ⟨0, 0, ready , by decide⟩,
    ⟨0, 0, ready.setBit (F.LANE_STAT_PCS_LOCK 0) true , by decide⟩,
    ⟨0, ready , by decide⟩,
    ⟨0, ready.setBit (F.LANE_ES_STAT_BUSY 0) true , by decide⟩,
    ⟨0, ready , by decide⟩,
    ⟨0, (laneOf 0).setBit (F.LANE_STAT_CDR_LOCK 0) true, 0, ((laneOf 0).setBit (F.LANE_STAT_CDR_LOCK 0) true |>.scanPoints
      0).tail, by decide⟩,
    ⟨0, ((laneOf 0).setBit (F.LANE_ES_STAT_BUSY 0) true).setLane 0 { point := 4095 }, by decide⟩,
    ⟨1, by decide⟩⟩

theorem witness_TimeOutputs :
    (∃ (s : State), s.hostRuns R.TIME_CTL = true ∧ s.standby = false ∧ s.bit F.TIME_STAT_TOD_ARMED = true) ∧
    (∃ (s : State), s.hostRuns R.TIME_CTL = true ∧ s.standby = false ∧ s.bit F.TIME_STAT_TOD_ARMED = false ∧ 999999999 < s.wget
      W.TIME_TOD_TIME / 65536 % 2 ^ 32) ∧
    (∃ (s : State), s.hostRuns R.TIME_CTL = true ∧ s.standby = false ∧ s.bit F.TIME_STAT_TOD_ARMED = false ∧ s.wget
      W.TIME_TOD_TIME / 65536 % 2 ^ 32 ≤ 999999999) ∧
    (∃ (s : State), s.hostRuns R.TIME_CTL = true ∧ s.standby = false ∧ (s.bit F.TIME_STAT_PHASE_BUSY = true ∨ 10 ^ 9 * 2 ^ 16 ≤
      s.phase.natAbs)) ∧
    (∃ (s : State), s.hostRuns R.TIME_CTL = true ∧ s.standby = false ∧ s.bit F.TIME_STAT_PHASE_BUSY = false ∧ s.phase.natAbs <
      10 ^ 9 * 2 ^ 16 ∧ s.bit F.TIME_CTL_PHASE_MODE = false) ∧
    (∃ (s : State), s.hostRuns R.TIME_CTL = true ∧ s.standby = false ∧ s.bit F.TIME_STAT_PHASE_BUSY = false ∧ s.phase.natAbs <
      10 ^ 9 * 2 ^ 16 ∧ s.bit F.TIME_CTL_PHASE_MODE = true) ∧
    (∃ (s : State), s.hostRuns R.TIME_FREQ = true ∧ s.standby = false ∧ s.splice.paired = false) ∧
    (∃ (s : State), s.standby = true ∧ s.hostRuns R.TIME_FREQ = true) ∧
    (∃ (s : State), s.standby = true ∧ s.hostRuns R.TIME_CTL = true) ∧
    (∃ (k : BitVec 6) (s : State), s.hostReads (R.TXQ_ENT k.toNat) = true ∧ s.txqList k.toNat = []) ∧
    (∃ (k : BitVec 6) (s : State) (e : TxStamp) (es : List TxStamp), s.hostReads (R.TXQ_ENT k.toNat) = true ∧ s.txqList k.toNat
      = e :: es) ∧
    (∃ (n : BitVec 4) (s : State), s.hostRuns (R.TOUT_CTL n.toNat) = true ∧ s.bit (F.TOUT_CTL_EN n.toNat) = true) ∧
    (∃ (n : BitVec 4) (s : State), s.hostRuns (R.TOUT_CTL n.toNat) = true ∧ s.bit (F.TOUT_CTL_EN n.toNat) = false ∧ (s.tout
      n.toNat).active = true) ∧
    (∃ (n : BitVec 4) (s : State), s.hostRuns (R.TOUT_CTL n.toNat) = true ∧ s.bit (F.TOUT_CTL_EN n.toNat) = false ∧ (s.tout
      n.toNat).active = false ∧ s.toutOk n.toNat = false) ∧
    (∃ (n : BitVec 4) (s : State), s.hostRuns (R.TOUT_CTL n.toNat) = true ∧ s.bit (F.TOUT_CTL_EN n.toNat) = false ∧ (s.tout
      n.toNat).active = false ∧ s.toutOk n.toNat = true ∧ shortPast (s.wget (W.TOUT_START_START n.toNat)) s.time.now = false) ∧
    (∃ (n : BitVec 4) (s : State), s.hostRuns (R.TOUT_CTL n.toNat) = true ∧ s.bit (F.TOUT_CTL_EN n.toNat) = false ∧ (s.tout
      n.toNat).active = false ∧ s.toutOk n.toNat = true ∧ shortPast (s.wget (W.TOUT_START_START n.toNat)) s.time.now = true ∧
      s.bit (F.TOUT_CTL_MODE n.toNat) = true) ∧
    (∃ (n : BitVec 4) (s : State), s.hostRuns (R.TOUT_CTL n.toNat) = true ∧ s.bit (F.TOUT_CTL_EN n.toNat) = false ∧ (s.tout
      n.toNat).active = false ∧ s.toutOk n.toNat = true ∧ shortPast (s.wget (W.TOUT_START_START n.toNat)) s.time.now = true ∧
      s.bit (F.TOUT_CTL_MODE n.toNat) = false) ∧
    (∃ (n : BitVec 4) (s : State), (s.bit (F.TOUT_CTL_EN n.toNat) = false ∨ (s.tout n.toNat).active = true ∨ s.bit
      (F.TOUT_CTL_MODE n.toNat) = false ∧ (s.tout n.toNat).fired = true ∨ s.toutDue n.toNat = false)) ∧
    (∃ (n : BitVec 4) (s : State), s.bit (F.TOUT_CTL_EN n.toNat) = true ∧ (s.tout n.toNat).active = false ∧ (s.bit
      (F.TOUT_CTL_MODE n.toNat) = true ∨ (s.tout n.toNat).fired = false) ∧ s.toutDue n.toNat = true ∧ s.bit (F.TOUT_CTL_MODE
      n.toNat) = true) ∧
    (∃ (n : BitVec 4) (s : State), s.bit (F.TOUT_CTL_EN n.toNat) = true ∧ (s.tout n.toNat).active = false ∧ (s.bit
      (F.TOUT_CTL_MODE n.toNat) = true ∨ (s.tout n.toNat).fired = false) ∧ s.toutDue n.toNat = true ∧ s.bit (F.TOUT_CTL_MODE
      n.toNat) = false) ∧
    (∃ (n : BitVec 4) (s : State), ((s.tout n.toNat).active = false ∨ ↑s.time.now < (s.tout n.toNat).ends)) ∧
    (∃ (n : BitVec 4) (s : State), (s.tout n.toNat).active = true ∧ (s.tout n.toNat).ends ≤ ↑s.time.now ∧ s.bit
      (F.TOUT_CTL_PENDING_ENABLE n.toNat) = false) ∧
    (∃ (k : Nat) (s : State) (e : TxStamp), e.lane / 16 = k ∧ k < 64 ∧ (s.txqList k).length < 32) ∧
    (∃ (k : Nat) (s : State) (e : TxStamp), e.lane / 16 = k ∧ k < 64 ∧ 32 ≤ (s.txqList k).length) :=
  ⟨⟨ready.setBit F.TIME_STAT_TOD_ARMED true , by decide⟩,
    ⟨ready.wset W.TIME_TOD_TIME (1000000000 * 65536), by decide⟩,
    ⟨ready , by decide⟩,
    ⟨ready.setBit F.TIME_STAT_PHASE_BUSY true , by decide⟩,
    ⟨ready , by decide⟩,
    ⟨ready.setBit F.TIME_CTL_PHASE_MODE true , by decide⟩,
    ⟨ready , by decide⟩,
    ⟨ready.fset F.SPL_STAT_STATE 3 , by decide⟩,
    ⟨ready.fset F.SPL_STAT_STATE 3 , by decide⟩,
    ⟨0, ready , by decide⟩,
    ⟨0, { ready with time := { ready.time with txq := [(0, [⟨1, 0, false, 5⟩])] } }, ⟨1, 0, false, 5⟩, [], by decide⟩,
    ⟨0, ready.setBit (F.TOUT_CTL_EN 0) true , by decide⟩,
    ⟨0, ready.setTout 0 { active := true }, by decide⟩,
    ⟨0, ready , by decide⟩,
    ⟨0, (ready.fset (F.TOUT_WIDTH_WIDTH 0) 4).wset (W.TOUT_START_START 0) (2 ^ 63), by decide⟩,
    ⟨0, (((ready.fset (F.TOUT_WIDTH_WIDTH 0) 4).wset (W.TOUT_PERIOD_PERIOD 0) 1048576).wset (W.TOUT_START_START 0) (2 ^ 63 +
      1)).setBit (F.TOUT_CTL_MODE 0) true, by decide⟩,
    ⟨0, (ready.fset (F.TOUT_WIDTH_WIDTH 0) 4).wset (W.TOUT_START_START 0) (2 ^ 63 + 1), by decide⟩,
    ⟨0, ready , by decide⟩,
    ⟨0, ((ready.setBit (F.TOUT_CTL_EN 0) true).setBit (F.TOUT_CTL_MODE 0) true).setTout 0 { from_ := -5 }, by decide⟩,
    ⟨0, (ready.setBit (F.TOUT_CTL_EN 0) true).setTout 0 { from_ := -5 }, by decide⟩,
    ⟨0, ready , by decide⟩,
    ⟨0, ready.setTout 0 { active := true }, by decide⟩,
    ⟨63, ready, ⟨1, 1023, false, 5⟩, by decide⟩,
    ⟨0, { ready with time := { ready.time with txq := [(0, List.replicate 32 ⟨1, 0, false, 5⟩)] } }, ⟨1, 15, false, 5⟩,
      by decide⟩⟩

theorem witness_TimeEdge :
    (∃ (s : State), s.inReset = false ∧ s.fget F.PWR_STAT_STATE < 3 ∧ s.time.sub < 2 ^ 32 ∧ s.time.now < timeTop ∧ (s.bit
      F.TIME_STAT_TOD_ARMED = false ∨ s.bit F.TIME_CTL_PPS_SRC = false) ∧ s.time.slew ≠ none) ∧
    (∃ (s : State), s.inReset = false ∧ s.fget F.PWR_STAT_STATE < 3 ∧ s.time.sub < 2 ^ 32 ∧ s.time.now < timeTop ∧ (s.bit
      F.TIME_STAT_TOD_ARMED = false ∨ s.bit F.TIME_CTL_PPS_SRC = false) ∧ s.time.step ≠ none) ∧
    (∃ (s : State), (s.inReset = true ∨ 3 ≤ s.fget F.PWR_STAT_STATE)) ∧
    (∃ (s : State), (s.inReset = true ∨ s.fget F.PWR_STAT_STATE = 4)) ∧
    (∃ (s : State), s.inReset = false ∧ s.fget F.PWR_STAT_STATE ≠ 4 ∧ s.time.tick + 1 < 1000) ∧
    (∃ (s : State), s.inReset = false ∧ s.fget F.PWR_STAT_STATE ≠ 4 ∧ 1000 ≤ s.time.tick + 1) :=
  ⟨⟨{ ready with time := { ready.time with slew := some 1 } }, by decide⟩,
    ⟨{ ready with time := { ready.time with step := some 1 } }, by decide⟩,
    ⟨{ ready with por := true } , by decide⟩,
    ⟨{ ready with por := true } , by decide⟩,
    ⟨ready , by decide⟩,
    ⟨{ ready with time := { ready.time with tick := 999 } }, by decide⟩⟩

theorem witness_TimeEvents :
    (∃ (s : State), (s.inReset = true ∨ 3 ≤ s.fget F.PWR_STAT_STATE)) ∧
    (∃ (s : State) (pin : Bool), s.inReset = false ∧ s.fget F.PWR_STAT_STATE < 3 ∧ s.bit F.TIME_CTL_PPS_SRC = pin) ∧
    (∃ (s : State), s.inReset = false ∧ s.fget F.PWR_STAT_STATE < 3 ∧ s.bit F.TIME_CTL_PPS_SRC = false ∧ s.bit
      F.TIME_STAT_TOD_ARMED = false) ∧
    (∃ (s : State), s.inReset = false ∧ s.fget F.PWR_STAT_STATE < 3 ∧ s.bit F.TIME_CTL_PPS_SRC = false ∧ s.bit
      F.TIME_STAT_TOD_ARMED = true) ∧
    (∃ (s : State), s.inReset = false ∧ s.fget F.PWR_STAT_STATE < 3 ∧ s.bit F.TIME_CTL_PPS_SRC = true ∧ (s.time.now % oneSecond
      ≠ 0 ∨ s.time.ppsAt = some s.time.now)) ∧
    (∃ (s : State), s.inReset = false ∧ s.fget F.PWR_STAT_STATE < 3 ∧ s.bit F.TIME_CTL_PPS_SRC = true ∧ s.time.now % oneSecond
      = 0 ∧ s.time.ppsAt ≠ some s.time.now ∧ s.time.now < timeTop ∧ s.bit F.TIME_STAT_TOD_ARMED = false) ∧
    (∃ (s : State), s.inReset = false ∧ s.fget F.PWR_STAT_STATE < 3 ∧ s.bit F.TIME_CTL_PPS_SRC = true ∧ s.time.now % oneSecond
      = 0 ∧ s.time.ppsAt ≠ some s.time.now ∧ s.time.now < timeTop ∧ s.bit F.TIME_STAT_TOD_ARMED = true) ∧
    (∃ (s : State), s.inReset = false ∧ s.fget F.PWR_STAT_STATE < 3 ∧ s.bit F.TIME_STAT_PPS_OK = true) ∧
    (∃ (s : State), s.inReset = false ∧ s.fget F.PWR_STAT_STATE < 3 ∧ s.bit F.TIME_STAT_PPS_OK = false) ∧
    (∃ (s : State), s.inReset = false ∧ s.fget F.PWR_STAT_STATE < 3 ∧ s.bit F.TIME_STAT_REF_OK = true ∧ s.srcOn 641 = true) ∧
    (∃ (s : State), s.inReset = false ∧ s.fget F.PWR_STAT_STATE < 3 ∧ s.bit F.TIME_STAT_REF_OK = false) ∧
    (∃ (s : State), s.inReset = false ∧ s.fget F.PWR_STAT_STATE < 3 ∧ s.time.slew = none) ∧
    (∃ (s : State) (r : Int), s.inReset = false ∧ s.fget F.PWR_STAT_STATE < 3 ∧ s.time.slew = some r ∧ 3276800 < r.natAbs) ∧
    (∃ (s : State) (r : Int), s.inReset = false ∧ s.fget F.PWR_STAT_STATE < 3 ∧ s.time.slew = some r ∧ r.natAbs ≤ 3276800) :=
  ⟨⟨{ ready with por := true } , by decide⟩,
    ⟨ready, false , by decide⟩,
    ⟨ready , by decide⟩,
    ⟨ready.setBit F.TIME_STAT_TOD_ARMED true , by decide⟩,
    ⟨{ ready.setBit F.TIME_CTL_PPS_SRC true with time := { (ready.setBit F.TIME_CTL_PPS_SRC true).time with ppsAt := some (ready.setBit F.TIME_CTL_PPS_SRC true).time.now } }
      , by decide⟩,
    ⟨ready.setBit F.TIME_CTL_PPS_SRC true , by decide⟩,
    ⟨(ready.setBit F.TIME_CTL_PPS_SRC true).setBit F.TIME_STAT_TOD_ARMED true , by decide⟩,
    ⟨ready.setBit F.TIME_STAT_PPS_OK true , by decide⟩,
    ⟨ready , by decide⟩,
    ⟨ready.setBit F.TIME_STAT_REF_OK true , by decide⟩,
    ⟨ready , by decide⟩,
    ⟨ready , by decide⟩,
    ⟨{ ready with time := { ready.time with slew := some 3276801 } }, 3276801, by decide⟩,
    ⟨{ ready with time := { ready.time with slew := some 3276800 } }, 3276800, by decide⟩⟩

theorem witness_CaptureCommands :
    (∃ (c : BitVec 10) (s : State), s.hostRuns (R.CAP_CTL c.toNat) = true ∧ s.meets (Meeting.cap c.toNat) = true) ∧
    (∃ (c : BitVec 10) (s : State), s.hostRuns (R.CAP_CTL c.toNat) = true ∧ s.meets (Meeting.cap c.toNat) = false ∧ (s.capState
      c.toNat = capIdle ∨ s.capState c.toNat = capDoneState ∨ s.capState c.toNat = capOverflow) ∧ s.ringOk c.toNat = true) ∧
    (∃ (c : BitVec 10) (s : State), s.hostRuns (R.CAP_CTL c.toNat) = true ∧ s.meets (Meeting.cap c.toNat) = false ∧ (s.capState
      c.toNat = capIdle ∨ s.capState c.toNat = capDoneState ∨ s.capState c.toNat = capOverflow) ∧ s.ringOk c.toNat = false) ∧
    (∃ (c : BitVec 10) (s : State), s.hostRuns (R.CAP_CTL c.toNat) = true ∧ s.meets (Meeting.cap c.toNat) = false ∧ s.capState
      c.toNat = capStopping ∧ s.bit (F.CAP_STAT_PENDING_ENABLE c.toNat) = true) ∧
    (∃ (c : BitVec 10) (s : State), s.hostRuns (R.CAP_CTL c.toNat) = true ∧ s.meets (Meeting.cap c.toNat) = false ∧ s.capState
      c.toNat = capStopping ∧ s.bit (F.CAP_STAT_PENDING_ENABLE c.toNat) = false) ∧
    (∃ (c : BitVec 10) (s : State), s.hostRuns (R.CAP_CTL c.toNat) = true ∧ s.meets (Meeting.cap c.toNat) = false ∧ s.capState
      c.toNat = capArmed ∧ (s.cap c.toNat).lost = none) ∧
    (∃ (c : BitVec 10) (s : State), s.hostRuns (R.CAP_CTL c.toNat) = true ∧ s.capState c.toNat ≠ capArmed ∧ s.capState c.toNat
      ≠ capPost ∧ s.capState c.toNat ≠ capStopping) ∧
    (∃ (c : BitVec 10) (s : State), s.hostRuns (R.CAP_CTL c.toNat) = true ∧ s.meets (Meeting.cap c.toNat) = false ∧ (s.capState
      c.toNat = capArmed ∨ s.capState c.toNat = capPost) ∧ (s.cap c.toNat).lost = none ∧ ((s.cap c.toNat).opened ≠ none ∨
      (s.cap c.toNat).held ≠ [])) ∧
    (∃ (c : BitVec 10) (s : State), s.hostRuns (R.CAP_CTL c.toNat) = true ∧ s.meets (Meeting.cap c.toNat) = false ∧ (s.capState
      c.toNat = capArmed ∨ s.capState c.toNat = capPost) ∧ (s.cap c.toNat).lost = none ∧ (s.cap c.toNat).opened = none ∧ (s.cap
      c.toNat).held = [] ∧ s.bit (F.CAP_STAT_PENDING_ENABLE c.toNat) = false ∧ (∀ (m : Nat), s.capMember (s.fget (F.CAP_CFG_SET
      c.toNat)) m = true → m ≠ c.toNat → s.capDone m = true)) ∧
    (∃ (n : Nat) (e : CapEntry) (s : State), s.capRuns n = true ∧ (s.cap n).held.length < 64 ∧ (s.cap n).trigWait = true ∧
      e.fresh = true) ∧
    (∃ (k : BitVec 10) (s : State), s.hostRuns (R.CAP_SET k.toNat) = true) :=
  ⟨⟨0, (ringOf 2).meet (.cap 0), by decide⟩,
    ⟨0, ringOf 2, ⟨by decide, by decide, .inl (by decide), by decide⟩⟩,
    ⟨0, ready , by decide⟩,
    ⟨0, (ready.fset (F.CAP_STAT_STATE 0) capStopping).setBit (F.CAP_STAT_PENDING_ENABLE 0) true , by decide⟩,
    ⟨0, ready.fset (F.CAP_STAT_STATE 0) capStopping , by decide⟩,
    ⟨0, ready.fset (F.CAP_STAT_STATE 0) capArmed , by decide⟩,
    ⟨0, ready , by decide⟩,
    ⟨0, ((ringOf 2).fset (F.CAP_STAT_STATE 0) capArmed).setCap 0 { held := [aBlock] }, by decide⟩,
    ⟨0, (ringOf 2).fset (F.CAP_STAT_STATE 0) capPost,
      ⟨by decide, by decide, by decide, by decide, by decide, by decide, by decide, fun m h1 h2 => absurd h1 (Bool.eq_false_iff.mp (ring_alone m h2))⟩⟩,
    ⟨0, ⟨0, 0, false, false, true⟩, ((ringOf 4).fset (F.CAP_STAT_STATE 0) capArmed).setCap 0 { trigWait := true }, by decide⟩,
    ⟨0, ready, by decide⟩⟩

theorem witness_CaptureBlocks :
    (∃ (c : BitVec 10) (s : State), (s.cap c.toNat).opened = none) ∧
    (∃ (c : BitVec 10) (why : CloseReason) (s : State) (b : OpenBlock), (s.cap c.toNat).opened = some b ∧ s.closes c.toNat b
      why = false) ∧
    (∃ (c : BitVec 10) (why : CloseReason) (s : State) (b : OpenBlock), (s.cap c.toNat).opened = some b ∧ s.closes c.toNat b
      why = true) ∧
    (∃ (c : BitVec 10) (s : State) (b : OpenBlock), (s.cap c.toNat).opened = some b ∧ 62 ≤ b.entries.length + 2 *
      b.recs.length) ∧
    (∃ (c : BitVec 10) (s : State), ((s.cap c.toNat).held = [] ∨ 2 ≤ s.fget F.PWR_STAT_STATE)) ∧
    (∃ (c : BitVec 10) (s : State) (b : CapBlock) (rest : List CapBlock), (s.cap c.toNat).held = b :: rest ∧ s.fget
      F.PWR_STAT_STATE < 2 ∧ s.dramAllows 16 (s.wget (W.CAP_BASE_BASE c.toNat) + 512 * s.fget (F.CAP_WPTR_WPTR c.toNat)) true =
      true ∧ b.kind = 0 ∧ b.entries.length + 2 * b.recs.length ≤ 62) ∧
    (∃ (c : BitVec 10) (s : State) (b : CapBlock) (rest : List CapBlock), (s.cap c.toNat).held = b :: rest ∧ s.fget
      F.PWR_STAT_STATE < 2 ∧ s.dramAllows 16 (s.wget (W.CAP_BASE_BASE c.toNat) + 512 * s.fget (F.CAP_WPTR_WPTR c.toNat)) true =
      true ∧ b.trig = true) ∧
    (∃ (c : BitVec 10) (s : State) (b : CapBlock) (rest : List CapBlock), (s.cap c.toNat).held = b :: rest ∧ s.fget
      F.PWR_STAT_STATE < 2 ∧ s.dramAllows 16 (s.wget (W.CAP_BASE_BASE c.toNat) + 512 * s.fget (F.CAP_WPTR_WPTR c.toNat)) true =
      true ∧ s.bit (F.CAP_STAT_PENDING_ENABLE c.toNat) = false ∧ s.fget (F.CAP_WPTR_WPTR c.toNat) + 1 = s.fget (F.CAP_SIZE_SIZE
      c.toNat) ∧ b.spec = true) ∧
    (∃ (c : BitVec 10) (s : State) (b : CapBlock) (rest : List CapBlock), (s.cap c.toNat).held = b :: rest ∧ s.fget
      F.PWR_STAT_STATE < 2 ∧ s.dramAllows 16 (s.wget (W.CAP_BASE_BASE c.toNat) + 512 * s.fget (F.CAP_WPTR_WPTR c.toNat)) true =
      true ∧ s.bit (F.CAP_STAT_PENDING_ENABLE c.toNat) = false ∧ s.capState c.toNat = capPost ∧ (s.cap c.toNat).lost = none ∧
      b.spec = false ∧ (s.cap c.toNat).posted + 1 = s.fget (F.CAP_POST_POST c.toNat)) ∧
    (∃ (c : BitVec 10) (s : State) (b : CapBlock) (rest : List CapBlock), (s.cap c.toNat).held = b :: rest ∧ s.fget
      F.PWR_STAT_STATE < 2 ∧ s.dramAllows 16 (s.wget (W.CAP_BASE_BASE c.toNat) + 512 * s.fget (F.CAP_WPTR_WPTR c.toNat)) true =
      true ∧ s.bit (F.CAP_STAT_PENDING_ENABLE c.toNat) = false ∧ rest = [] ∧ s.capState c.toNat = capStopping ∧ (s.cap
      c.toNat).lost = none) ∧
    (∃ (c : BitVec 10) (s : State) (b : CapBlock) (rest : List CapBlock), (s.cap c.toNat).held = b :: rest ∧ s.fget
      F.PWR_STAT_STATE < 2 ∧ s.dramAllows 16 (s.wget (W.CAP_BASE_BASE c.toNat) + 512 * s.fget (F.CAP_WPTR_WPTR c.toNat)) true =
      true ∧ (¬(s.capState c.toNat = capPost ∧ (s.cap c.toNat).lost = none ∧ b.spec = false ∧ (s.cap c.toNat).posted + 1 =
      s.fget (F.CAP_POST_POST c.toNat))) ∧ rest ≠ []) ∧
    (∃ (c : BitVec 10) (s : State) (b : CapBlock) (rest : List CapBlock), (s.cap c.toNat).held = b :: rest ∧ s.fget
      F.PWR_STAT_STATE < 2 ∧ s.dramAllows 16 (s.wget (W.CAP_BASE_BASE c.toNat) + 512 * s.fget (F.CAP_WPTR_WPTR c.toNat)) true =
      true ∧ rest = [] ∧ (s.cap c.toNat).lost ≠ none ∧ s.srcOn (512 + c.toNat / 16) = true) ∧
    (∃ (c : BitVec 10) (s : State) (b : CapBlock) (rest : List CapBlock), (s.cap c.toNat).held = b :: rest ∧ s.fget
      F.PWR_STAT_STATE < 2 ∧ s.dramAllows 16 (s.wget (W.CAP_BASE_BASE c.toNat) + 512 * s.fget (F.CAP_WPTR_WPTR c.toNat)) true =
      true ∧ rest = [] ∧ s.capState c.toNat = capStopping ∧ (s.cap c.toNat).lost = none ∧ s.bit (F.CAP_STAT_PENDING_ENABLE
      c.toNat) = true ∧ s.ringOk c.toNat = true) ∧
    (∃ (s : State), (2 ≤ s.fget F.PWR_STAT_STATE ∨ (s.time.marks ++ if s.markDue = true then [(s.time.now, false)] else []) =
      [])) :=
  ⟨⟨0, ready , by decide⟩,
    ⟨0, .filter, ready.setCap 0 { opened := some (openBlock 0) }, openBlock 0, by decide⟩,
    ⟨0, .full, ready.setCap 0 { opened := some (openBlock 62) }, openBlock 62, by decide⟩,
    ⟨0, ready.setCap 0 { opened := some (openBlock 62) }, openBlock 62, by decide⟩,
    ⟨0, ready , by decide⟩,
    ⟨0, ((ringOf 2)).setCap 0 { held := [aBlock] }, aBlock, [], by decide⟩,
    ⟨0, ((ringOf 2)).setCap 0 { held := [{ aBlock with trig := true }] }, { aBlock with trig := true }, [], by decide⟩,
    ⟨0, ((ringOf 2).fset (F.CAP_WPTR_WPTR 0) 1).setCap 0 { held := [{ aBlock with spec := true }] },
      { aBlock with spec := true }, [], by decide⟩,
    ⟨0, ((ringOf 2).fset (F.CAP_STAT_STATE 0) capPost).setCap 0 { held := [aBlock] }, aBlock, [], by decide⟩,
    ⟨0, ((ringOf 2).fset (F.CAP_STAT_STATE 0) capStopping).setCap 0 { held := [aBlock] }, aBlock, [], by decide⟩,
    ⟨0, ((ringOf 2)).setCap 0 { held := [aBlock, aBlock] }, aBlock, [aBlock], by decide⟩,
    ⟨0, ((ringOf 2)).setCap 0 { held := [aBlock], lost := some 0 }, aBlock, [], by decide⟩,
    ⟨0, (((ringOf 2).fset (F.CAP_STAT_STATE 0) capStopping).setBit (F.CAP_STAT_PENDING_ENABLE 0) true).setCap 0
      { held := [aBlock] }, aBlock, [], by decide⟩,
    ⟨ready.fset F.PWR_STAT_STATE 2, by decide⟩⟩

theorem witness_TriggerAndPatternCommands :
    (∃ (c : BitVec 3) (s : State), s.hostRuns (R.TRG_SEQ_CTL c.toNat) = true ∧ s.bit (F.TRG_SEQ_CTL_EN c.toNat) = false) ∧
    (∃ (c : BitVec 3) (s : State), s.hostRuns (R.TRG_SEQ_CTL c.toNat) = true ∧ s.bit (F.TRG_SEQ_CTL_EN c.toNat) = true ∧ s.bit
      (F.TRG_KNOT_END c.toNat 0) = false) ∧
    (∃ (c : BitVec 3) (s : State), s.hostRuns (R.TRG_SEQ_CTL c.toNat) = true ∧ s.bit (F.TRG_SEQ_CTL_EN c.toNat) = true ∧ s.bit
      (F.TRG_KNOT_END c.toNat 0) = true) ∧
    (∃ (s : State), s.hostRuns R.TRG_CTL = true ∧ s.meets Meeting.freeze = true) ∧
    (∃ (s : State), s.hostRuns R.TRG_CTL = true ∧ s.meets Meeting.freeze = false) ∧
    (∃ (s : State), s.hostRuns R.TRG_SOFT = true) ∧
    (∃ (c : BitVec 6) (s : State), s.hostRuns (R.TRG_CNT_CFG c.toNat) = true) ∧
    (∃ (c : BitVec 10) (s : State), s.hostRuns (R.PAT_CTL c.toNat) = true ∧ s.bit (F.PAT_CTL_EN c.toNat) = true) ∧
    (∃ (c : BitVec 10) (s : State), s.hostRuns (R.PAT_CTL c.toNat) = true ∧ s.bit (F.PAT_CTL_EN c.toNat) = false ∧ s.bit
      (F.PAT_STAT_SHUTTING c.toNat) = true) ∧
    (∃ (c : BitVec 10) (s : State), s.hostRuns (R.PAT_CTL c.toNat) = true ∧ s.bit (F.PAT_CTL_EN c.toNat) = false ∧ s.bit
      (F.PAT_STAT_SHUTTING c.toNat) = false) ∧
    (∃ (c : BitVec 10) (s : State), (s.bit (F.PAT_STAT_SHUTTING c.toNat) = false ∨ s.patDone c.toNat = false)) ∧
    (∃ (c : BitVec 10) (s : State), s.bit (F.PAT_STAT_SHUTTING c.toNat) = true ∧ s.patDone c.toNat = true ∧ s.bit
      (F.PAT_STAT_PENDING_ENABLE c.toNat) = true) ∧
    (∃ (c : BitVec 10) (s : State), s.bit (F.PAT_STAT_SHUTTING c.toNat) = true ∧ s.patDone c.toNat = true ∧ s.bit
      (F.PAT_STAT_PENDING_ENABLE c.toNat) = false) :=
  ⟨⟨0, ready , by decide⟩,
    ⟨0, ready.setBit (F.TRG_SEQ_CTL_EN 0) true , by decide⟩,
    ⟨0, (ready.setBit (F.TRG_SEQ_CTL_EN 0) true).setBit (F.TRG_KNOT_END 0 0) true , by decide⟩,
    ⟨ready.meet .freeze, by decide⟩,
    ⟨ready , by decide⟩,
    ⟨ready , by decide⟩,
    ⟨0, ready , by decide⟩,
    ⟨0, ready.setBit (F.PAT_CTL_EN 0) true , by decide⟩,
    ⟨0, ready.setBit (F.PAT_STAT_SHUTTING 0) true , by decide⟩,
    ⟨0, ready , by decide⟩,
    ⟨0, ready , by decide⟩,
    ⟨0, (ready.setBit (F.PAT_STAT_SHUTTING 0) true).setBit (F.PAT_STAT_PENDING_ENABLE 0) true , by decide⟩,
    ⟨0, ready.setBit (F.PAT_STAT_SHUTTING 0) true, by decide⟩⟩

theorem witness_KnotConditions :
    (∃ (seqs : BitVec 8) (inputs : BitVec 256) (s : State), (∀ (n : Nat), n < 8 → seqs.getLsbD n = true → s.knotFires (inputs
      ||| s.trigInputs) n = false)) ∧
    (∃ (s : State), 2 ≤ s.fget F.PWR_STAT_STATE) ∧
    (∃ (seqs : BitVec 8) (inputs : BitVec 256) (s : State) (n : Nat), s.awake = true ∧ s.firesAlone seqs inputs n ∧ (∀ (i :
      Nat), s.knotHas n (s.fget (F.TRG_SEQ_STAT_KNOT n)) i = false) ∧ s.bit (F.TRG_KNOT_END n (s.fget (F.TRG_KNOT_NEXT n
      (s.fget (F.TRG_SEQ_STAT_KNOT n))))) = false) ∧
    (∃ (seqs : BitVec 8) (inputs : BitVec 256) (s : State) (n : Nat), s.awake = true ∧ s.firesAlone seqs inputs n ∧ (∀ (i :
      Nat), s.knotHas n (s.fget (F.TRG_SEQ_STAT_KNOT n)) i = false) ∧ s.bit (F.TRG_KNOT_END n (s.fget (F.TRG_KNOT_NEXT n
      (s.fget (F.TRG_SEQ_STAT_KNOT n))))) = true ∧ (∀ (i : Nat), s.knotHas n (s.fget (F.TRG_KNOT_NEXT n (s.fget
      (F.TRG_SEQ_STAT_KNOT n)))) i = false)) ∧
    (∃ (s : State), s.awake = true ∧ ∀ (n : Nat), n < 8 → ∀ (k : Nat), k < 16 → ∀ (i : Nat), s.knotHas n k i = false) :=
  ⟨⟨0, 0, ready , by decide⟩,
    ⟨ready.fset F.PWR_STAT_STATE 2 , by decide⟩,
    ⟨1, 32, knotOn, 0,
      ⟨by decide, by unfold State.firesAlone; decide, by intro j; rcases j with _ | _ | _ | _ | _ | _ | _ | _ | j <;> first | decide | simp [State.knotHas], by decide⟩⟩,
    ⟨1, 32, (knotOn.fset (F.TRG_KNOT_NEXT 0 0) 1).setBit (F.TRG_KNOT_END 0 1) true, 0,
      ⟨by decide, by unfold State.firesAlone; decide, by intro j; rcases j with _ | _ | _ | _ | _ | _ | _ | _ | j <;> first | decide | simp [State.knotHas], by decide, by intro j; rcases j with _ | _ | _ | _ | _ | _ | _ | _ | j <;> first | decide | simp [State.knotHas]⟩⟩,
    ⟨ready, ⟨by decide, ready_knot⟩⟩⟩

theorem witness_KnotActions :
    (∃ (seqs : BitVec 8) (inputs : BitVec 256) (s : State) (n : Nat), s.awake = true ∧ s.firesAlone seqs inputs n ∧ s.bit
      (F.TRG_KNOT_END n (s.fget (F.TRG_KNOT_NEXT n (s.fget (F.TRG_SEQ_STAT_KNOT n))))) = false ∧ (∀ (j : Nat), s.knotHas n
      (s.fget (F.TRG_SEQ_STAT_KNOT n)) j = decide (j = 0))) ∧
    (∃ (seqs : BitVec 8) (inputs : BitVec 256) (s : State) (n : Nat), s.awake = true ∧ s.firesAlone seqs inputs n ∧ s.bit
      (F.TRG_KNOT_END n (s.fget (F.TRG_KNOT_NEXT n (s.fget (F.TRG_SEQ_STAT_KNOT n))))) = false ∧ (∀ (j : Nat), s.knotHas n
      (s.fget (F.TRG_SEQ_STAT_KNOT n)) j = decide (j = 1))) ∧
    (∃ (seqs : BitVec 8) (inputs : BitVec 256) (s : State) (n : Nat), s.awake = true ∧ s.firesAlone seqs inputs n ∧ s.bit
      (F.TRG_KNOT_END n (s.fget (F.TRG_KNOT_NEXT n (s.fget (F.TRG_SEQ_STAT_KNOT n))))) = false ∧ (∀ (j : Nat), s.knotHas n
      (s.fget (F.TRG_SEQ_STAT_KNOT n)) j = decide (j = 2)) ∧ s.fget (F.TRG_KNOT_PAT_OP n (s.fget (F.TRG_SEQ_STAT_KNOT n))) ≠ 0) ∧
    (∃ (seqs : BitVec 8) (inputs : BitVec 256) (s : State) (n : Nat), s.awake = true ∧ s.firesAlone seqs inputs n ∧ s.bit
      (F.TRG_KNOT_END n (s.fget (F.TRG_KNOT_NEXT n (s.fget (F.TRG_SEQ_STAT_KNOT n))))) = false ∧ (∀ (j : Nat), s.knotHas n
      (s.fget (F.TRG_SEQ_STAT_KNOT n)) j = decide (j = 2)) ∧ s.fget (F.TRG_KNOT_PAT_OP n (s.fget (F.TRG_SEQ_STAT_KNOT n))) = 1) ∧
    (∃ (seqs : BitVec 8) (inputs : BitVec 256) (s : State) (n : Nat), s.awake = true ∧ s.firesAlone seqs inputs n ∧ s.bit
      (F.TRG_KNOT_END n (s.fget (F.TRG_KNOT_NEXT n (s.fget (F.TRG_SEQ_STAT_KNOT n))))) = false ∧ (∀ (j : Nat), s.knotHas n
      (s.fget (F.TRG_SEQ_STAT_KNOT n)) j = decide (j = 2)) ∧ s.fget (F.TRG_KNOT_PAT_OP n (s.fget (F.TRG_SEQ_STAT_KNOT n))) = 2) ∧
    (∃ (seqs : BitVec 8) (inputs : BitVec 256) (s : State) (n : Nat), s.awake = true ∧ s.firesAlone seqs inputs n ∧ s.bit
      (F.TRG_KNOT_END n (s.fget (F.TRG_KNOT_NEXT n (s.fget (F.TRG_SEQ_STAT_KNOT n))))) = false ∧ (∀ (j : Nat), s.knotHas n
      (s.fget (F.TRG_SEQ_STAT_KNOT n)) j = decide (j = 2)) ∧ s.fget (F.TRG_KNOT_PAT_OP n (s.fget (F.TRG_SEQ_STAT_KNOT n))) = 3) ∧
    (∃ (seqs : BitVec 8) (inputs : BitVec 256) (s : State) (n : Nat), s.awake = true ∧ s.firesAlone seqs inputs n ∧ s.bit
      (F.TRG_KNOT_END n (s.fget (F.TRG_KNOT_NEXT n (s.fget (F.TRG_SEQ_STAT_KNOT n))))) = false ∧ (∀ (j : Nat), s.knotHas n
      (s.fget (F.TRG_SEQ_STAT_KNOT n)) j = decide (j = 3))) ∧
    (∃ (seqs : BitVec 8) (inputs : BitVec 256) (s : State) (n : Nat), s.awake = true ∧ s.firesAlone seqs inputs n ∧ s.bit
      (F.TRG_KNOT_END n (s.fget (F.TRG_KNOT_NEXT n (s.fget (F.TRG_SEQ_STAT_KNOT n))))) = false ∧ ((fun i => ∀ (j : Nat),
      s.knotHas n (s.fget (F.TRG_SEQ_STAT_KNOT n)) j = decide (j = i)) 4 ∨ ∀ (j : Nat), s.knotHas n (s.fget
      (F.TRG_SEQ_STAT_KNOT n)) j = decide (j = 4 ∨ j = 5))) ∧
    (∃ (seqs : BitVec 8) (inputs : BitVec 256) (s : State) (n : Nat), s.awake = true ∧ s.firesAlone seqs inputs n ∧ s.bit
      (F.TRG_KNOT_END n (s.fget (F.TRG_KNOT_NEXT n (s.fget (F.TRG_SEQ_STAT_KNOT n))))) = false ∧ (∀ (j : Nat), s.knotHas n
      (s.fget (F.TRG_SEQ_STAT_KNOT n)) j = decide (j = 5)) ∧ s.meets Meeting.freeze = false) ∧
    (∃ (seqs : BitVec 8) (inputs : BitVec 256) (s : State) (n : Nat), s.awake = true ∧ s.firesAlone seqs inputs n ∧ s.bit
      (F.TRG_KNOT_END n (s.fget (F.TRG_KNOT_NEXT n (s.fget (F.TRG_SEQ_STAT_KNOT n))))) = false ∧ (∀ (j : Nat), s.knotHas n
      (s.fget (F.TRG_SEQ_STAT_KNOT n)) j = decide (j = 5)) ∧ s.meets Meeting.freeze = true) ∧
    (∃ (seqs : BitVec 8) (inputs : BitVec 256) (s : State) (n : Nat), s.awake = true ∧ s.firesAlone seqs inputs n ∧ s.bit
      (F.TRG_KNOT_END n (s.fget (F.TRG_KNOT_NEXT n (s.fget (F.TRG_SEQ_STAT_KNOT n))))) = false ∧ (∀ (j : Nat), s.knotHas n
      (s.fget (F.TRG_SEQ_STAT_KNOT n)) j = decide (j = 6))) ∧
    (∃ (seqs : BitVec 8) (inputs : BitVec 256) (s : State) (n : Nat), s.awake = true ∧ s.firesAlone seqs inputs n ∧ s.bit
      (F.TRG_KNOT_END n (s.fget (F.TRG_KNOT_NEXT n (s.fget (F.TRG_SEQ_STAT_KNOT n))))) = false ∧ (∀ (j : Nat), s.knotHas n
      (s.fget (F.TRG_SEQ_STAT_KNOT n)) j = decide (j = 7)) ∧ s.standby = false ∧ s.bit (F.ACT_Q_CFG_EN (s.fget
      (F.TRG_KNOT_QUEUE n (s.fget (F.TRG_SEQ_STAT_KNOT n))))) = true ∧ 2 ^ s.fget (F.ACT_Q_CFG_K (s.fget (F.TRG_KNOT_QUEUE n
      (s.fget (F.TRG_SEQ_STAT_KNOT n))))) ≤ s.fget (F.ACT_Q_STAT_LEVEL (s.fget (F.TRG_KNOT_QUEUE n (s.fget (F.TRG_SEQ_STAT_KNOT
      n)))))) :=
  ⟨⟨1, 32, knotOn.setBit (F.TRG_KNOT_CAP 0 0) true, 0,
      ⟨by decide, by unfold State.firesAlone; decide, by decide, by intro j; rcases j with _ | _ | _ | _ | _ | _ | _ | _ | j <;> first | decide | simp [State.knotHas]⟩⟩,
    ⟨1, 32, knotOn.setBit (F.TRG_KNOT_MARK 0 0) true, 0,
      ⟨by decide, by unfold State.firesAlone; decide, by decide, by intro j; rcases j with _ | _ | _ | _ | _ | _ | _ | _ | j <;> first | decide | simp [State.knotHas]⟩⟩,
    ⟨1, 32, knotOn.fset (F.TRG_KNOT_PAT_OP 0 0) 1, 0,
      ⟨by decide, by unfold State.firesAlone; decide, by decide, by intro j; rcases j with _ | _ | _ | _ | _ | _ | _ | _ | j <;> first | decide | simp [State.knotHas], by decide⟩⟩,
    ⟨1, 32, knotOn.fset (F.TRG_KNOT_PAT_OP 0 0) 1, 0,
      ⟨by decide, by unfold State.firesAlone; decide, by decide, by intro j; rcases j with _ | _ | _ | _ | _ | _ | _ | _ | j <;> first | decide | simp [State.knotHas], by decide⟩⟩,
    ⟨1, 32, knotOn.fset (F.TRG_KNOT_PAT_OP 0 0) 2, 0,
      ⟨by decide, by unfold State.firesAlone; decide, by decide, by intro j; rcases j with _ | _ | _ | _ | _ | _ | _ | _ | j <;> first | decide | simp [State.knotHas], by decide⟩⟩,
    ⟨1, 32, knotOn.fset (F.TRG_KNOT_PAT_OP 0 0) 3, 0,
      ⟨by decide, by unfold State.firesAlone; decide, by decide, by intro j; rcases j with _ | _ | _ | _ | _ | _ | _ | _ | j <;> first | decide | simp [State.knotHas], by decide⟩⟩,
    ⟨1, 32, knotOn.setBit (F.TRG_KNOT_TOUT 0 0) true, 0,
      ⟨by decide, by unfold State.firesAlone; decide, by decide, by intro j; rcases j with _ | _ | _ | _ | _ | _ | _ | _ | j <;> first | decide | simp [State.knotHas]⟩⟩,
    ⟨1, 32, knotOn.setBit (F.TRG_KNOT_FREEZE 0 0) true, 0,
      ⟨by decide, by unfold State.firesAlone; decide, by decide, .inl (by intro j; rcases j with _ | _ | _ | _ | _ | _ | _ | _ | j <;> first | decide | simp [State.knotHas])⟩⟩,
    ⟨1, 32, knotOn.setBit (F.TRG_KNOT_THAW 0 0) true, 0,
      ⟨by decide, by unfold State.firesAlone; decide, by decide, by intro j; rcases j with _ | _ | _ | _ | _ | _ | _ | _ | j <;> first | decide | simp [State.knotHas], by decide⟩⟩,
    ⟨1, 32, (knotOn.setBit (F.TRG_KNOT_THAW 0 0) true).meet .freeze, 0,
      ⟨by decide, by unfold State.firesAlone; decide, by decide, by intro j; rcases j with _ | _ | _ | _ | _ | _ | _ | _ | j <;> first | decide | simp [State.knotHas], by decide⟩⟩,
    ⟨1, 32, knotOn.setBit (F.TRG_KNOT_FLAG 0 0) true, 0,
      ⟨by decide, by unfold State.firesAlone; decide, by decide, by intro j; rcases j with _ | _ | _ | _ | _ | _ | _ | _ | j <;> first | decide | simp [State.knotHas]⟩⟩,
    ⟨1, 32, ((knotOn.setBit (F.TRG_KNOT_POST 0 0) true).setBit (F.ACT_Q_CFG_EN 0) true).fset (F.ACT_Q_STAT_LEVEL 0) 1, 0,
      ⟨by decide, by unfold State.firesAlone; decide, by decide, by intro j; rcases j with _ | _ | _ | _ | _ | _ | _ | _ | j <;> first | decide | simp [State.knotHas], by decide⟩⟩⟩

theorem witness_PatternProgram :
    (∃ (s : State) (n : Nat) (i : Nat) (d : PatDesc) (x : Nat), s.checkDesc n i = some d ∧ d.data ≤ x ∧ x < d.data + 512 *
      d.nblk) ∧
    (∃ (c : BitVec 10) (s : State), ((s.pat c.toNat).request = none ∨ (s.pat c.toNat).idx ≠ 0 ∨ s.fget (F.PAT_STAT_ACT_SRC
      c.toNat) = 3 ∧ (s.pat c.toNat).frame ≠ [])) ∧
    (∃ (c : BitVec 10) (s : State) (src : Nat) (i : Nat), (s.pat c.toNat).request = some (src, i) ∧ (s.pat c.toNat).idx = 0 ∧
      (s.fget (F.PAT_STAT_ACT_SRC c.toNat) ≠ 3 ∨ (s.pat c.toNat).frame = []) ∧ src ≠ 1) ∧
    (∃ (c : BitVec 10) (s : State) (src : Nat) (i : Nat), (s.pat c.toNat).request = some (src, i) ∧ (s.pat c.toNat).idx = 0 ∧
      (s.fget (F.PAT_STAT_ACT_SRC c.toNat) ≠ 3 ∨ (s.pat c.toNat).frame = []) ∧ src = 1 ∧ ((s.pat c.toNat).fetched = some (i,
      none) ∨ (s.pat c.toNat).fetched = none ∧ s.checkDesc c.toNat i = none) ∧ s.srcOn (512 + c.toNat / 16) = true) ∧
    (∃ (c : BitVec 10) (s : State), ((s.pat c.toNat).ended = false ∨ (s.pat c.toNat).desc = none)) ∧
    (∃ (c : BitVec 10) (s : State) (d : PatDesc), (s.pat c.toNat).ended = true ∧ (s.pat c.toNat).desc = some d ∧ d.next =
      65535) ∧
    (∃ (c : BitVec 10) (s : State) (d : PatDesc), (s.pat c.toNat).ended = true ∧ (s.pat c.toNat).desc = some d ∧ d.next ≠
      65535) ∧
    (∃ (c : BitVec 10) (s : State),
      ((match (s.pat c.toNat).request, (s.pat c.toNat).desc with | some (1, i), x => some i | x, some d => if d.next = 65535 then none else some d.next | x, none => none) = none)) ∧
    (∃ (c : BitVec 10) (s : State) (i : Nat),
      ((match (s.pat c.toNat).request, (s.pat c.toNat).desc with | some (1, i), x => some i | x, some d => if d.next = 65535 then none else some d.next | x, none => none) = some i)
      ∧ (s.inDram (s.wget (W.PAT_DESC_BASE_BASE c.toNat) + 32 * i) = false ∨ s.dramAllows 32 (s.wget (W.PAT_DESC_BASE_BASE
      c.toNat) + 32 * i) false = true ∧ s.observed = false)) ∧
    (∃ (c : BitVec 10) (s : State) (i : Nat),
      ((match (s.pat c.toNat).request, (s.pat c.toNat).desc with | some (1, i), x => some i | x, some d => if d.next = 65535 then none else some d.next | x, none => none) = some i)
      ∧ s.inDram (s.wget (W.PAT_DESC_BASE_BASE c.toNat) + 32 * i) = true ∧ s.dramAllows 32 (s.wget (W.PAT_DESC_BASE_BASE
      c.toNat) + 32 * i) false = false ∧ s.domainOn (s.addrDomain (s.wget (W.PAT_DESC_BASE_BASE c.toNat) + 32 * i)) = true ∧
      (s.wget (W.PAT_DESC_BASE_BASE c.toNat) + 32 * i) % 64 ≤ 32 ∧ s.srcOn (320 + stackOf (s.wget (W.PAT_DESC_BASE_BASE
      c.toNat) + 32 * i)) = true) ∧
    (∃ (c : BitVec 10) (s : State), (¬(s.fget (F.PAT_STAT_ACT_SRC c.toNat) = 1 ∧ (s.pat c.toNat).idx = 0 ∧ (s.pat c.toNat).desc
      ≠ none))) ∧
    (∃ (c : BitVec 10) (s : State), s.fget (F.PAT_STAT_ACT_SRC c.toNat) = 1 ∧ (s.pat c.toNat).idx = 0 ∧ (s.pat c.toNat).desc ≠
      none ∧ s.srcOn (512 + c.toNat / 16) = true) :=
  ⟨⟨descIn, 0, 0, { data := 0x010000001000, nblk := 1, loop := 0, ctl := 0, next := 0, hasCtl := false }, 0x0100000011FF,
      by decide⟩,
    ⟨0, ready , by decide⟩,
    ⟨0, ready.setPat 0 { request := some (2, 0) }, 2, 0, by decide⟩,
    ⟨0, ready.setPat 0 { request := some (1, 0), fetched := some (0, none) }, 1, 0, by decide⟩,
    ⟨0, ready , by decide⟩,
    ⟨0, ready.setPat 0 { ended := true, desc := some (aDesc 65535) }, aDesc 65535, by decide⟩,
    ⟨0, ready.setPat 0 { ended := true, desc := some (aDesc 65534) }, aDesc 65534, by decide⟩,
    ⟨0, ready , by decide⟩,
    ⟨0, ready.setPat 0 { request := some (1, 0) }, 0, ⟨by decide, .inl (by decide)⟩⟩,
    ⟨0, (ready.wset (W.PAT_DESC_BASE_BASE 0) 0x010000000000).setPat 0 { request := some (1, 0) }, 0, by decide⟩,
    ⟨0, ready , by decide⟩,
    ⟨0, (ready.fset (F.PAT_STAT_ACT_SRC 0) 1).setPat 0 { desc := some (aDesc 0) }, by decide⟩⟩

theorem witness_ActNodes :
    (∃ (b : BitVec 6) (s : State), s.actReady b.toNat 0 = false) ∧
    (∃ (b : BitVec 6) (s : State), s.actReady b.toNat 1 = false) ∧
    (∃ (b : BitVec 6) (s : State), s.actReady b.toNat 2 = false) ∧
    (∃ (b : BitVec 6) (s : State), s.actReady b.toNat 3 = false) ∧
    (∃ (b : BitVec 6) (s : State), s.actReady b.toNat 4 = false) ∧
    (∃ (b : BitVec 6) (s : State), s.actReady b.toNat 5 = false) ∧
    (∃ (b : BitVec 6) (s : State), s.actReady b.toNat 6 = false) ∧
    (∃ (b : BitVec 6) (s : State), s.actReady b.toNat 7 = false) ∧
    (∃ (b : BitVec 6) (s : State), s.actReady b.toNat 8 = false) ∧
    (∃ (b : BitVec 6) (s : State), s.actReady b.toNat 9 = false) ∧
    (∃ (b : BitVec 6) (s : State), s.actReady b.toNat 14 = false) ∧
    (∃ (b : BitVec 6) (s : State), s.actReady b.toNat 15 = false) ∧
    (∃ (b : BitVec 6) (s : State), s.actReady b.toNat 16 = false) ∧
    (∃ (b : BitVec 6) (s : State), s.actReady b.toNat 23 = false) ∧
    (∃ (b : BitVec 6) (s : State), s.actReady b.toNat 24 = false) ∧
    (∃ (b : BitVec 6) (s : State), (s.actUnit b.toNat).nodes + 1 < 4096 ∧ s.actReady b.toNat 1 = true) ∧
    (∃ (b : BitVec 6) (s : State), (s.actUnit b.toNat).nodes + 1 < 4096 ∧ s.actReady b.toNat 2 = true) ∧
    (∃ (b : BitVec 6) (s : State), (s.actUnit b.toNat).nodes + 1 < 4096 ∧ s.actReady b.toNat 3 = true) ∧
    (∃ (b : BitVec 6) (s : State), (s.actUnit b.toNat).nodes + 1 < 4096 ∧ s.actReady b.toNat 4 = true) ∧
    (∃ (b : BitVec 6) (s : State), (s.actUnit b.toNat).nodes + 1 < 4096 ∧ s.actReady b.toNat 5 = true) ∧
    (∃ (b : BitVec 6) (s : State), (s.actUnit b.toNat).nodes + 1 < 4096 ∧ s.actReady b.toNat 6 = true) ∧
    (∃ (b : BitVec 6) (s : State), (s.actUnit b.toNat).nodes + 1 < 4096 ∧ s.actReady b.toNat 7 = true) ∧
    (∃ (b : BitVec 6) (s : State), (s.actUnit b.toNat).nodes + 1 < 4096 ∧ s.actReady b.toNat 8 = true) ∧
    (∃ (b : BitVec 6) (s : State), (s.actUnit b.toNat).nodes + 1 < 4096 ∧ s.actReady b.toNat 9 = true) ∧
    (∃ (b : BitVec 6) (s : State), (s.actUnit b.toNat).nodes + 1 < 4096 ∧ s.actReady b.toNat 14 = true ∧ nImm (s.nodeAt
      b.toNat) % 2048 + (nImm (s.nodeAt b.toNat) / 4096 % 8 + 1) ≤ 8 * (s.actUnit b.toNat).frame.length) ∧
    (∃ (b : BitVec 6) (s : State), (s.actUnit b.toNat).nodes + 1 < 4096 ∧ s.actReady b.toNat 14 = true ∧ 8 * (s.actUnit
      b.toNat).frame.length < nImm (s.nodeAt b.toNat) % 2048 + (nImm (s.nodeAt b.toNat) / 4096 % 8 + 1) ∧ s.srcOn (384 +
      b.toNat) = true) ∧
    (∃ (b : BitVec 6) (s : State), (s.actUnit b.toNat).nodes + 1 < 4096 ∧ s.actReady b.toNat 15 = true ∧ BitVec.toNat (nImm2
      (s.nodeAt b.toNat)) % 2048 + 4 ≤ 8 * (s.actUnit b.toNat).frame.length) ∧
    (∃ (b : BitVec 6) (s : State), (s.actUnit b.toNat).nodes + 1 < 4096 ∧ s.actReady b.toNat 15 = true ∧ 8 * (s.actUnit
      b.toNat).frame.length < BitVec.toNat (nImm2 (s.nodeAt b.toNat)) % 2048 + 4 ∧ s.srcOn (384 + b.toNat) = true) ∧
    (∃ (b : BitVec 6) (s : State), (s.actUnit b.toNat).nodes + 1 < 4096 ∧ s.actReady b.toNat 16 = true ∧ nImm (s.nodeAt
      b.toNat) % 256 < (s.actUnit b.toNat).frame.length) ∧
    (∃ (b : BitVec 6) (s : State), (s.actUnit b.toNat).nodes + 1 < 4096 ∧ s.actReady b.toNat 16 = true ∧ (s.actUnit
      b.toNat).frame.length ≤ nImm (s.nodeAt b.toNat) % 256 ∧ s.srcOn (384 + b.toNat) = true) ∧
    (∃ (b : BitVec 6) (s : State), (s.actUnit b.toNat).nodes + 1 < 4096 ∧ s.actReady b.toNat 23 = true) ∧
    (∃ (b : BitVec 6) (s : State), (s.actUnit b.toNat).nodes + 1 < 4096 ∧ s.actReady b.toNat 24 = true) ∧
    (∃ (b : BitVec 6) (s : State), s.actReady b.toNat 1 = true ∧ (s.actUnit b.toNat).nodes = 4095 ∧ s.srcOn (384 + b.toNat) =
      true) ∧
    (∃ (b : BitVec 6) (s : State), s.actReady b.toNat 0 = true ∧ (s.actUnit b.toNat).ops = []) ∧
    (∃ (b : BitVec 6) (s : State), s.actReady b.toNat 0 = true ∧ (s.actUnit b.toNat).ops ≠ []) :=
  ⟨⟨0, ready , by decide⟩,
    ⟨0, ready , by decide⟩,
    ⟨0, ready , by decide⟩,
    ⟨0, ready , by decide⟩,
    ⟨0, ready , by decide⟩,
    ⟨0, ready , by decide⟩,
    ⟨0, ready , by decide⟩,
    ⟨0, ready , by decide⟩,
    ⟨0, ready , by decide⟩,
    ⟨0, ready , by decide⟩,
    ⟨0, ready , by decide⟩,
    ⟨0, ready , by decide⟩,
    ⟨0, ready , by decide⟩,
    ⟨0, ready , by decide⟩,
    ⟨0, ready , by decide⟩,
    ⟨0, atNode (node 1 0 0) {}, by decide⟩,
    ⟨0, atNode (node 2 0 0) {}, by decide⟩,
    ⟨0, atNode (node 3 0 0) {}, by decide⟩,
    ⟨0, atNode (node 4 0 0) {}, by decide⟩,
    ⟨0, atNode (node 5 0 0) {}, by decide⟩,
    ⟨0, atNode (node 6 0 0) {}, by decide⟩,
    ⟨0, atNode (node 7 0 0) {}, by decide⟩,
    ⟨0, atNode (node 8 0 0) {}, by decide⟩,
    ⟨0, atNode (node 9 0 0) {}, by decide⟩,
    ⟨0, atNode (node 14 28672 0) { frame := [{ data := 0 }] }, by decide⟩,
    ⟨0, atNode (node 14 0 0) {}, by decide⟩,
    ⟨0, atNode (node 15 0 4) { frame := [{ data := 0 }] }, by decide⟩,
    ⟨0, atNode (node 15 0 0) {}, by decide⟩,
    ⟨0, atNode (node 16 0 0) { frame := [{ data := 0 }] }, by decide⟩,
    ⟨0, atNode (node 16 0 0) {}, by decide⟩,
    ⟨0, atNode (node 23 0 0) {}, by decide⟩,
    ⟨0, atNode (node 24 0 0) {}, by decide⟩,
    ⟨0, atNode (node 1 0 0) { nodes := 4095 }, by decide⟩,
    ⟨0, (ready.setBit F.ACT_STAT_RUNNING true).setBit (F.ACT_UNIT_BUSY 0) true , by decide⟩,
    ⟨0, atNode (node 0 0 0) { ops := [.soft 0] }, by decide⟩⟩

theorem witness_ActOperations :
    (∃ (b : BitVec 6) (s : State), (s.actReady b.toNat 10 && s.slotFree b.toNat) = false) ∧
    (∃ (b : BitVec 6) (s : State), (s.actReady b.toNat 11 && s.slotFree b.toNat) = false) ∧
    (∃ (b : BitVec 6) (s : State), (s.actReady b.toNat 12 && s.slotFree b.toNat) = false) ∧
    (∃ (b : BitVec 6) (s : State), (s.actReady b.toNat 13 && s.slotFree b.toNat) = false) ∧
    (∃ (b : BitVec 6) (s : State), (s.actReady b.toNat 17 && s.slotFree b.toNat) = false) ∧
    (∃ (b : BitVec 6) (s : State), (s.actReady b.toNat 18 && s.slotFree b.toNat) = false) ∧
    (∃ (b : BitVec 6) (s : State), (s.actReady b.toNat 19 && s.slotFree b.toNat) = false) ∧
    (∃ (b : BitVec 6) (s : State), (s.actReady b.toNat 20 && s.slotFree b.toNat) = false) ∧
    (∃ (b : BitVec 6) (s : State), (s.actReady b.toNat 21 && s.slotFree b.toNat) = false) ∧
    (∃ (b : BitVec 6) (s : State), (s.actReady b.toNat 22 && s.slotFree b.toNat) = false) ∧
    (∃ (b : BitVec 6) (s : State), (s.actUnit b.toNat).nodes + 1 < 4096 ∧ (s.actReady b.toNat 10 && s.slotFree b.toNat) = true
      ∧ BitVec.toNat ((s.actUnit b.toNat).reg (nA (s.nodeAt b.toNat)) + BitVec.ofNat 64 (nImm (s.nodeAt b.toNat))) % 8 = 0) ∧
    (∃ (b : BitVec 6) (s : State), (s.actUnit b.toNat).nodes + 1 < 4096 ∧ (s.actReady b.toNat 10 && s.slotFree b.toNat) = true
      ∧ BitVec.toNat ((s.actUnit b.toNat).reg (nA (s.nodeAt b.toNat)) + BitVec.ofNat 64 (nImm (s.nodeAt b.toNat))) % 8 ≠ 0 ∧
      s.srcOn (384 + b.toNat) = true) ∧
    (∃ (b : BitVec 6) (s : State), (s.actUnit b.toNat).nodes + 1 < 4096 ∧ (s.actReady b.toNat 11 && s.slotFree b.toNat) = true
      ∧ BitVec.toNat ((s.actUnit b.toNat).reg (nA (s.nodeAt b.toNat)) + BitVec.ofNat 64 (nImm (s.nodeAt b.toNat))) % 8 = 0) ∧
    (∃ (b : BitVec 6) (s : State), (s.actUnit b.toNat).nodes + 1 < 4096 ∧ (s.actReady b.toNat 11 && s.slotFree b.toNat) = true
      ∧ BitVec.toNat ((s.actUnit b.toNat).reg (nA (s.nodeAt b.toNat)) + BitVec.ofNat 64 (nImm (s.nodeAt b.toNat))) % 8 ≠ 0 ∧
      s.srcOn (384 + b.toNat) = true) ∧
    (∃ (b : BitVec 6) (s : State), (s.actUnit b.toNat).nodes + 1 < 4096 ∧ (s.actReady b.toNat 12 && s.slotFree b.toNat) = true
      ∧ BitVec.toNat ((s.actUnit b.toNat).reg (nA (s.nodeAt b.toNat)) + BitVec.ofNat 64 (nImm (s.nodeAt b.toNat))) % 8 = 0) ∧
    (∃ (b : BitVec 6) (s : State), (s.actUnit b.toNat).nodes + 1 < 4096 ∧ (s.actReady b.toNat 12 && s.slotFree b.toNat) = true
      ∧ BitVec.toNat ((s.actUnit b.toNat).reg (nA (s.nodeAt b.toNat)) + BitVec.ofNat 64 (nImm (s.nodeAt b.toNat))) % 8 ≠ 0 ∧
      s.srcOn (384 + b.toNat) = true) ∧
    (∃ (b : BitVec 6) (s : State), (s.actUnit b.toNat).nodes + 1 < 4096 ∧ (s.actReady b.toNat 13 && s.slotFree b.toNat) = true) ∧
    (∃ (b : BitVec 6) (s : State), (s.actUnit b.toNat).nodes + 1 < 4096 ∧ (s.actReady b.toNat 17 && s.slotFree b.toNat) = true) ∧
    (∃ (b : BitVec 6) (s : State), (s.actUnit b.toNat).nodes + 1 < 4096 ∧ (s.actReady b.toNat 18 && s.slotFree b.toNat) = true) ∧
    (∃ (b : BitVec 6) (s : State), (s.actUnit b.toNat).nodes + 1 < 4096 ∧ (s.actReady b.toNat 19 && s.slotFree b.toNat) = true) ∧
    (∃ (b : BitVec 6) (s : State), (s.actUnit b.toNat).nodes + 1 < 4096 ∧ (s.actReady b.toNat 20 && s.slotFree b.toNat) = true) ∧
    (∃ (b : BitVec 6) (s : State), (s.actUnit b.toNat).nodes + 1 < 4096 ∧ (s.actReady b.toNat 21 && s.slotFree b.toNat) = true) ∧
    (∃ (b : BitVec 6) (s : State), (s.actUnit b.toNat).nodes + 1 < 4096 ∧ (s.actReady b.toNat 22 && s.slotFree b.toNat) = true) :=
  ⟨⟨0, ready , by decide⟩,
    ⟨0, ready , by decide⟩,
    ⟨0, ready , by decide⟩,
    ⟨0, ready , by decide⟩,
    ⟨0, ready , by decide⟩,
    ⟨0, ready , by decide⟩,
    ⟨0, ready , by decide⟩,
    ⟨0, ready , by decide⟩,
    ⟨0, ready , by decide⟩,
    ⟨0, ready , by decide⟩,
    ⟨0, atNode (node 10 0 0) {}, by decide⟩,
    ⟨0, atNode (node 10 4 0) {}, by decide⟩,
    ⟨0, atNode (node 11 0 0) {}, by decide⟩,
    ⟨0, atNode (node 11 4 0) {}, by decide⟩,
    ⟨0, atNode (node 12 0 0) {}, by decide⟩,
    ⟨0, atNode (node 12 4 0) {}, by decide⟩,
    ⟨0, atNode (node 13 0 0) {}, by decide⟩,
    ⟨0, atNode (node 17 0 0) {}, by decide⟩,
    ⟨0, atNode (node 18 0 0) {}, by decide⟩,
    ⟨0, atNode (node 19 0 0) {}, by decide⟩,
    ⟨0, atNode (node 20 0 0) {}, by decide⟩,
    ⟨0, atNode (node 21 0 0) {}, by decide⟩,
    ⟨0, atNode (node 22 0 0) {}, by decide⟩⟩

theorem witness_ActCompletions :
    (∃ (b : BitVec 6) (s : State), (s.actUnit b.toNat).ops = []) ∧
    (∃ (b : BitVec 6) (s : State) (o : ActOp) (os : List ActOp), (s.actUnit b.toNat).ops = o :: os ∧ s.opWaits o = true) ∧
    (∃ (b : BitVec 6) (s : State) (o : ActOp) (os : List ActOp) (n : Nat) (e : Nat) (dst : Nat) (a : Nat), (s.actUnit
      b.toNat).ops = o :: os ∧ s.opWaits o = false ∧ (s.actUnit b.toNat).nodes + 1 < 4096 ∧ (s.actUnit b.toNat).ended = false ∧
      (s.actUnit b.toNat).wait = some (n, e) ∧ o = ActOp.load dst a) ∧
    (∃ (b : BitVec 6) (s : State) (o : ActOp) (os : List ActOp) (n : Nat) (e : Nat) (a : Nat), (s.actUnit b.toNat).ops = o ::
      os ∧ s.opWaits o = false ∧ (s.actUnit b.toNat).nodes + 1 < 4096 ∧ (s.actUnit b.toNat).ended = false ∧ (s.actUnit
      b.toNat).wait = some (n, e) ∧ o = ActOp.build a ∧ (∀ (p : Nat × Nat), p ∈ actParts a 8 → s.actMem p.fst false =
      MemAnswer.granted) ∧ 1 ≤ leNat (s.rdBytes a 2) ∧ leNat (s.rdBytes a 2) ≤ 256 ∧ (∀ (p : Nat × Nat), p ∈ actParts (a + 8)
      (templateSize (leNat (s.rdBytes a 2))) → s.actMem p.fst false = MemAnswer.granted)) ∧
    (∃ (b : BitVec 6) (s : State) (o : ActOp) (os : List ActOp) (n : Nat) (e : Nat) (a : Nat), (s.actUnit b.toNat).ops = o ::
      os ∧ s.opWaits o = false ∧ (s.actUnit b.toNat).nodes + 1 < 4096 ∧ (s.actUnit b.toNat).ended = false ∧ (s.actUnit
      b.toNat).wait = some (n, e) ∧ o = ActOp.build a ∧ (∀ (p : Nat × Nat), p ∈ actParts a 8 → s.actMem p.fst false =
      MemAnswer.granted) ∧ (leNat (s.rdBytes a 2) = 0 ∨ 256 < leNat (s.rdBytes a 2)) ∧ s.srcOn (384 + b.toNat) = true) ∧
    (∃ (b : BitVec 6) (s : State) (o : ActOp) (os : List ActOp) (n : Nat) (e : Nat) (c : Nat), (s.actUnit b.toNat).ops = o ::
      os ∧ s.opWaits o = false ∧ (s.actUnit b.toNat).nodes + 1 < 4096 ∧ (s.actUnit b.toNat).ended = false ∧ (s.actUnit
      b.toNat).wait = some (n, e) ∧ o = ActOp.sendp c ∧ s.bit (F.PAT_CTL_EN c) = true ∧ (s.pat c).fifoBytes + 8 * (s.actUnit
      b.toNat).frame.length ≤ 16384) ∧
    (∃ (b : BitVec 6) (s : State) (o : ActOp) (os : List ActOp) (n : Nat) (e : Nat) (c : Nat), (s.actUnit b.toNat).ops = o ::
      os ∧ s.opWaits o = false ∧ (s.actUnit b.toNat).nodes + 1 < 4096 ∧ (s.actUnit b.toNat).ended = false ∧ (s.actUnit
      b.toNat).wait = some (n, e) ∧ o = ActOp.sendp c ∧ (¬(s.bit (F.PAT_CTL_EN c) = true ∧ (s.pat c).fifoBytes + 8 * (s.actUnit
      b.toNat).frame.length ≤ 16384))) ∧
    (∃ (b : BitVec 6) (s : State) (o : ActOp) (os : List ActOp) (n : Nat) (e : Nat) (q : Nat) (item : W128), (s.actUnit
      b.toNat).ops = o :: os ∧ s.opWaits o = false ∧ (s.actUnit b.toNat).nodes + 1 < 4096 ∧ (s.actUnit b.toNat).ended = false ∧
      (s.actUnit b.toNat).wait = some (n, e) ∧ o = ActOp.post q item ∧ q < 16384) ∧
    (∃ (b : BitVec 6) (s : State) (o : ActOp) (os : List ActOp) (n : Nat) (e : Nat) (d : Nat) (g : Nat) (at_ : Nat), (s.actUnit
      b.toNat).ops = o :: os ∧ s.opWaits o = false ∧ (s.actUnit b.toNat).nodes + 1 < 4096 ∧ (s.actUnit b.toNat).ended = false ∧
      (s.actUnit b.toNat).wait = some (n, e) ∧ o = ActOp.delay d g at_ ∧ d < 4 ∧ 4096 ≤ (s.delays d).length) ∧
    (∃ (b : BitVec 6) (s : State) (o : ActOp) (os : List ActOp) (n : Nat) (e : Nat) (d : Nat) (g : Nat) (at_ : Nat), (s.actUnit
      b.toNat).ops = o :: os ∧ s.opWaits o = false ∧ (s.actUnit b.toNat).nodes + 1 < 4096 ∧ (s.actUnit b.toNat).ended = false ∧
      (s.actUnit b.toNat).wait = some (n, e) ∧ o = ActOp.delay d g at_ ∧ d < 4 ∧ (s.delays d).length < 4096 ∧ s.tickNow d < at_
      ∧ List.Pairwise (fun p q => p.at_ ≤ q.at_) (s.delays d)) ∧
    (∃ (b : BitVec 6) (s : State) (o : ActOp) (os : List ActOp) (n : Nat) (e : Nat) (d : Nat) (g : Nat) (dst : Nat), (s.actUnit
      b.toNat).ops = o :: os ∧ s.opWaits o = false ∧ (s.actUnit b.toNat).nodes + 1 < 4096 ∧ (s.actUnit b.toNat).ended = false ∧
      (s.actUnit b.toNat).wait = some (n, e) ∧ o = ActOp.cancel d g dst ∧ d < 4 ∧ g < 32 ∧ BitVec.getLsbD (s.queueFlags
      (s.unitFlow b.toNat)) g = false) ∧
    (∃ (b : BitVec 6) (s : State) (o : ActOp) (os : List ActOp) (a : Nat) (v : W64), (s.actUnit b.toNat).ops = o :: os ∧
      s.opWaits o = false ∧ (s.actUnit b.toNat).nodes + 1 < 4096 ∧ (s.actUnit b.toNat).ended = false ∧ (s.actUnit b.toNat).wait
      = none ∧ o = ActOp.store a v ∧ s.actMem a true = MemAnswer.granted) ∧
    (∃ (b : BitVec 6) (s : State) (o : ActOp) (os : List ActOp) (a : Nat) (v : W64), (s.actUnit b.toNat).ops = o :: os ∧
      s.opWaits o = false ∧ (s.actUnit b.toNat).nodes + 1 < 4096 ∧ (s.actUnit b.toNat).ended = false ∧ (s.actUnit b.toNat).wait
      = none ∧ o = ActOp.count a v ∧ a % 8 = 0 ∧ s.actMem a true = MemAnswer.granted ∧ s.actMem a false = MemAnswer.granted) ∧
    (∃ (b : BitVec 6) (s : State) (o : ActOp) (os : List ActOp) (c : Nat) (k : Nat) (d : W128), (s.actUnit b.toNat).ops = o ::
      os ∧ s.opWaits o = false ∧ (s.actUnit b.toNat).nodes + 1 < 4096 ∧ (s.actUnit b.toNat).ended = false ∧ (s.actUnit
      b.toNat).wait = none ∧ o = ActOp.sendt c k d ∧ (s.cordOn c = false ∨ ¬(b.toNat, c * 2048 + k) ∈ s.act.tin)) ∧
    (∃ (b : BitVec 6) (s : State) (o : ActOp) (os : List ActOp) (c : Nat) (k : Nat) (d : W128), (s.actUnit b.toNat).ops = o ::
      os ∧ s.opWaits o = false ∧ (s.actUnit b.toNat).nodes + 1 < 4096 ∧ (s.actUnit b.toNat).ended = false ∧ (s.actUnit
      b.toNat).wait = none ∧ o = ActOp.sendt c k d ∧ s.cordOn c = true ∧ (b.toNat, c * 2048 + k) ∈ s.act.tin ∧ k < 2048 ∧
      s.core.started = true ∧ s.bit (F.CRD_STAT_REGION_LOAD c) = false ∧ SMap.find s.core.windows (s.closing * 2 ^ 18 + (c *
      2048 + k)) = none) ∧
    (∃ (b : BitVec 6) (s : State) (o : ActOp) (os : List ActOp) (g : Nat) (h : Nat), (s.actUnit b.toNat).ops = o :: os ∧
      s.opWaits o = false ∧ (s.actUnit b.toNat).nodes + 1 < 4096 ∧ (s.actUnit b.toNat).ended = false ∧ (s.actUnit b.toNat).wait
      = none ∧ o = ActOp.flag g h ∧ g < 4096 ∧ h < 32) ∧
    (∃ (b : BitVec 6) (s : State) (o : ActOp) (os : List ActOp) (i : Nat), (s.actUnit b.toNat).ops = o :: os ∧ s.opWaits o =
      false ∧ (s.actUnit b.toNat).nodes + 1 < 4096 ∧ (s.actUnit b.toNat).ended = false ∧ (s.actUnit b.toNat).wait = none ∧ o =
      ActOp.soft i) :=
  ⟨⟨0, ready , by decide⟩,
    ⟨0, withAct ({ ready.fset (F.BNK_STAT_STATE 0) 1 with ring := { nextOwner := [(0, 0x30, false)] } }) (.load 0 0x04000000)
      none, .load 0 0x04000000, [], by decide⟩,
    ⟨0, withAct (ready) (.load 15 0x04000000) (some (1, 2)), .load 15 0x04000000, [], 1, 2, 15, 0x04000000, by decide⟩,
    ⟨0, withAct ({ ready.fset (F.BNK_OWN_OWNER 0) 0x30 with mem := [(0x04000001, 1)] }) (.build 0x04000000) (some (1, 2)),
      .build 0x04000000, [], 1, 2, 0x04000000, by decide⟩,
    ⟨0, withAct ({ ready.fset (F.BNK_OWN_OWNER 0) 0x30 with mem := [(0x04000000, 1), (0x04000001, 1)] }) (.build 0x04000000)
      (some (1, 2)), .build 0x04000000, [], 1, 2, 0x04000000, by decide⟩,
    ⟨0, withAct (ready.setBit (F.PAT_CTL_EN 0) true) (.sendp 0) (some (1, 2)), .sendp 0, [], 1, 2, 0, by decide⟩,
    ⟨0, withAct (ready) (.sendp 0) (some (1, 2)), .sendp 0, [], 1, 2, 0, by decide⟩,
    ⟨0, withAct (ready) (.post 16383 0) (some (1, 2)), .post 16383 0, [], 1, 2, 16383, 0, by decide⟩,
    ⟨0, withAct (ready.setDelays 3 (List.replicate 4096 ⟨0, 0, 0⟩)) (.delay 3 0 1) (some (1, 2)), .delay 3 0 1, [], 1, 2, 3, 0,
      1, by decide +kernel⟩,
    ⟨0, withAct (ready) (.delay 3 0 1) (some (1, 2)), .delay 3 0 1, [], 1, 2, 3, 0, 1, by decide⟩,
    ⟨0, withAct (ready) (.cancel 3 31 0) (some (1, 2)), .cancel 3 31 0, [], 1, 2, 3, 31, 0, by decide⟩,
    ⟨0, withAct (ready.fset (F.BNK_OWN_OWNER 0) 0x30) (.store 0x04000000 0) none, .store 0x04000000 0, [], 0x04000000, 0,
      by decide⟩,
    ⟨0, withAct (ready.fset (F.BNK_OWN_OWNER 0) 0x30) (.count 0x04000000 0) none, .count 0x04000000 0, [], 0x04000000, 0,
      by decide⟩,
    ⟨0, withAct (ready) (.sendt 16 0 0) none, .sendt 16 0 0, [], 16, 0, 0, by decide⟩,
    ⟨0, withAct ({ ready with core := { ready.core with started := true }, act := { ready.act with tin := [(0, 2047)] } })
      (.sendt 0 2047 0) none, .sendt 0 2047 0, [], 0, 2047, 0, by decide⟩,
    ⟨0, withAct (ready) (.flag 4095 31) none, .flag 4095 31, [], 4095, 31, by decide⟩,
    ⟨0, withAct (ready) (.soft 7) none, .soft 7, [], 7, by decide⟩⟩

theorem witness_ActFlows :
    (∃ (s : State) (f : Nat), f ∈ s.readyFlows) ∧
    (∃ (s : State), (s.dispatchOn = false ∨ s.readyFlows = [])) ∧
    (∃ (die : Bool) (s : State) (f : Nat) (u : Nat) (g : Nat) (fs : List Nat), s.dispatchOn = true ∧ s.readyFlows = f :: fs ∧
      s.choose f = Choice.unit u ∧ unitDie u = die.toNat ∧ s.itemWaits f = false ∧
      (have v := s.flags f &&& s.reg (R.ACT_FL_MASK f); BitVec.getLsbD v g = true ∧ ∀ (j : Nat), j < g → BitVec.getLsbD v j = false)
      ∧ s.queueOf f g = none ∧ BitVec.getLsbD (s.queueFlags f) g = false) ∧
    (∃ (c : BitVec 12) (s : State), (s.bit (F.ACT_FL_STAT_WAIT_AFF c.toNat) = false ∨ s.dispatchOn = false)) ∧
    (∃ (c : BitVec 12) (s : State), s.bit (F.ACT_FL_STAT_WAIT_AFF c.toNat) = true ∧ s.dispatchOn = true ∧ s.flowReady c.toNat =
      false) ∧
    (∃ (c : BitVec 12) (s : State) (u : Nat), s.bit (F.ACT_FL_STAT_WAIT_AFF c.toNat) = true ∧ s.dispatchOn = true ∧ s.flowReady
      c.toNat = true ∧ s.itemWaits c.toNat = false ∧ (s.actFlow c.toNat).served = true ∧ s.unitFree (s.fget
      (F.ACT_FL_STAT_LAST_UNIT c.toNat)) = false ∧ s.freeUnit (unitDie (s.fget (F.ACT_FL_STAT_LAST_UNIT c.toNat))) = some u) ∧
    (∃ (c : BitVec 12) (s : State), s.hostRuns (R.ACT_FL_SET c.toNat) = true) ∧
    (∃ (s : State), s.image.committed = false) ∧
    (∃ (s : State), s.image.committed = true ∧ 2 ≤ s.fget F.PWR_STAT_STATE) ∧
    (∃ (s : State), s.image.committed = true ∧ s.fget F.PWR_STAT_STATE < 2) :=
  ⟨⟨((ready.setBit F.ACT_STAT_RUNNING true).setReg (R.ACT_FL_FLAGS 0) 1).setReg (R.ACT_FL_MASK 0) 1, 0, by decide⟩,
    ⟨ready , by decide⟩,
    ⟨false, ((ready.setBit F.ACT_STAT_RUNNING true).setReg (R.ACT_FL_FLAGS 0) 1).setReg (R.ACT_FL_MASK 0) 1, 0, 0, 0, [],
      by decide⟩,
    ⟨0, ready , by decide⟩,
    ⟨0, (ready.setBit (F.ACT_FL_STAT_WAIT_AFF 0) true).setBit F.ACT_STAT_RUNNING true , by decide⟩,
    ⟨0, (((((ready.setBit F.ACT_STAT_RUNNING true).setReg (R.ACT_FL_FLAGS 0) 1).setReg (R.ACT_FL_MASK 0) 1).setBit
      (F.ACT_FL_STAT_WAIT_AFF 0) true).setBit (F.ACT_UNIT_BUSY 0) true).setFlow 0 { served := true }, 1, by decide⟩,
    ⟨0, ready , by decide⟩,
    ⟨{ ready with image := { ready.image with committed := false } } , by decide⟩,
    ⟨ready.fset F.PWR_STAT_STATE 2 , by decide⟩,
    ⟨ready, by decide⟩⟩

theorem witness_ActQueues :
    (∃ (m : MasterId) (s : State), (masterOk m = false ∨ m = 114 ∧ s.fabricPosts = false)) ∧
    (∃ (m : MasterId) (s : State), masterOk m = true ∧ (m = 114 → s.fabricPosts = true) ∧ s.standby = true) ∧
    (∃ (m : MasterId) (c : BitVec 14) (s : State), masterOk m = true ∧ (m = 114 → s.fabricPosts = true) ∧ s.standby = false ∧
      s.bit (F.ACT_Q_CFG_EN c.toNat) = false) ∧
    (∃ (m : MasterId) (c : BitVec 14) (s : State), masterOk m = true ∧ (m = 114 → s.fabricPosts = true) ∧ s.standby = false ∧
      s.bit (F.ACT_Q_CFG_EN c.toNat) = true ∧ 2 ^ s.fget (F.ACT_Q_CFG_K c.toNat) ≤ s.fget (F.ACT_Q_STAT_LEVEL c.toNat) ∧ m =
      113) ∧
    (∃ (m : MasterId) (c : BitVec 14) (s : State), masterOk m = true ∧ (m = 114 → s.fabricPosts = true) ∧ s.standby = false ∧
      s.bit (F.ACT_Q_CFG_EN c.toNat) = true ∧ 2 ^ s.fget (F.ACT_Q_CFG_K c.toNat) ≤ s.fget (F.ACT_Q_STAT_LEVEL c.toNat) ∧ m ≠
      113) ∧
    (∃ (m : MasterId) (c : BitVec 14) (s : State), masterOk m = true ∧ (m = 114 → s.fabricPosts = true) ∧ s.standby = false ∧
      s.bit (F.ACT_Q_CFG_EN c.toNat) = true ∧ (¬2 ^ s.fget (F.ACT_Q_CFG_K c.toNat) ≤ s.fget (F.ACT_Q_STAT_LEVEL c.toNat)) ∧
      s.fget (F.ACT_Q_CFG_K c.toNat) ≤ 12 ∧ s.actMem (s.fget (F.ACT_Q_BASE_BASE c.toNat) + 16 * ((s.queueHead c.toNat + s.fget
      (F.ACT_Q_STAT_LEVEL c.toNat)) % 2 ^ s.fget (F.ACT_Q_CFG_K c.toNat))) true = MemAnswer.granted) ∧
    (∃ (s : State), s.hostRuns (R.ACT_HPOST_ITEM + 12) = true) :=
  ⟨⟨5, ready , by decide⟩,
    ⟨0, ready.fset F.SPL_STAT_STATE 3 , by decide⟩,
    ⟨0, 0, ready , by decide⟩,
    ⟨113, 0, (ready.setBit (F.ACT_Q_CFG_EN 0) true).fset (F.ACT_Q_STAT_LEVEL 0) 1, by decide⟩,
    ⟨0, 0, (ready.setBit (F.ACT_Q_CFG_EN 0) true).fset (F.ACT_Q_STAT_LEVEL 0) 1 , by decide⟩,
    ⟨0x85, 0, ((ready.fset (F.BNK_OWN_OWNER 0) 0x30).setBit (F.ACT_Q_CFG_EN 0) true).fset (F.ACT_Q_BASE_BASE 0) 0x04000000,
      by decide⟩,
    ⟨ready, by decide⟩⟩

theorem witness_Resets :
    (∃ (s : State), s.por = false) ∧
    (∃ (s : State), s.warm = false ∧ s.fget F.PWR_STAT_STATE ≠ 4) ∧
    (∃ (s : State), s.fget F.PWR_STAT_STATE = 4) ∧
    (∃ (s : State), s.por = true) ∧
    (∃ (s : State), s.warm = true ∧ s.fget F.PWR_STAT_STATE ≠ 4) :=
  ⟨⟨ready , by decide⟩,
    ⟨ready , by decide⟩,
    ⟨ready.fset F.PWR_STAT_STATE 4 , by decide⟩,
    ⟨{ ready with por := true } , by decide⟩,
    ⟨{ ready with warm := true }, by decide⟩⟩

theorem witness_LoadStart :
    (∃ (d : Option Bytes) (s : State) (b : Bytes), s.wantsDir = true ∧ (s.load.dir = some b ∨ s.load.dir = none ∧ d = some b) ∧
      num b 0 4 ≠ 1380211009) ∧
    (∃ (d : Option Bytes) (s : State) (b : Bytes), s.wantsDir = true ∧ (s.load.dir = some b ∨ s.load.dir = none ∧ d = some b) ∧
      num b 0 4 = 1380211009 ∧ s.load.chain = false ∧ s.load.part = false ∧ s.load.single = false ∧ nextBoot b s.load.next =
      none) ∧
    (∃ (d : Option Bytes) (h : CastHdr) (s : State) (b : Bytes) (i : Nat), s.wantsDir = true ∧ (s.load.dir = some b ∨
      s.load.dir = none ∧ d = some b) ∧ num b 0 4 = 1380211009 ∧ s.load.chain = false ∧ s.load.part = false ∧ s.load.single =
      false ∧ nextBoot b s.load.next = some i ∧ List.isEmpty h.outer = true) ∧
    (∀ (h : CastHdr), List.isEmpty h.outer = false → firstRefusal [State.reset.headerChecks h false, State.reset.passOne h] =
      none → ∃ (d : Option Bytes) (s : State) (b : Bytes) (i : Nat), s.wantsDir = true ∧ (s.load.dir = some b ∨ s.load.dir =
      none ∧ d = some b) ∧ num b 0 4 = 1380211009 ∧ s.load.chain = false ∧ s.load.part = false ∧ s.load.single = false ∧
      nextBoot b s.load.next = some i ∧ firstRefusal [s.headerChecks h false, s.passOne h] = none) ∧
    (∃ (d : Option Bytes) (h : CastHdr) (s : State) (b : Bytes) (i : Nat) (c : Nat), s.wantsDir = true ∧ (s.load.dir = some b ∨
      s.load.dir = none ∧ d = some b) ∧ num b 0 4 = 1380211009 ∧ s.load.chain = false ∧ s.load.part = false ∧ s.load.single =
      false ∧ nextBoot b s.load.next = some i ∧ List.isEmpty h.outer = false ∧ firstRefusal [s.headerChecks h false, s.passOne
      h] = some c) ∧
    (∃ (d : Option Bytes) (s : State) (b : Bytes), s.wantsDir = true ∧ (s.load.dir = some b ∨ s.load.dir = none ∧ d = some b) ∧
      num b 0 4 = 1380211009 ∧ s.load.chain = false ∧ s.load.part = false ∧ s.load.single = true ∧ (¬(s.fget F.CFG_CTL_LOAD_SEL
      < num b 6 2 ∧ dirFlags b (s.fget F.CFG_CTL_LOAD_SEL) % 2 = 1 ∧ (dirFlags b (s.fget F.CFG_CTL_LOAD_SEL)).testBit 2 =
      false))) ∧
    (∃ (d : Option Bytes) (h : CastHdr) (s : State) (b : Bytes), s.wantsDir = true ∧ (s.load.dir = some b ∨ s.load.dir = none ∧
      d = some b) ∧ num b 0 4 = 1380211009 ∧ s.load.chain = false ∧ s.load.part = false ∧ s.load.single = true ∧ s.fget
      F.CFG_CTL_LOAD_SEL < num b 6 2 ∧ dirFlags b (s.fget F.CFG_CTL_LOAD_SEL) % 2 = 1 ∧ (dirFlags b (s.fget
      F.CFG_CTL_LOAD_SEL)).testBit 2 = false ∧ List.isEmpty h.outer = true) ∧
    (∀ (h : CastHdr), List.isEmpty h.outer = false → firstRefusal [(single 1).headerChecks h false, (single 1).passOne h] =
      none → ∃ (d : Option Bytes) (s : State) (b : Bytes), s.wantsDir = true ∧ (s.load.dir = some b ∨ s.load.dir = none ∧ d =
      some b) ∧ num b 0 4 = 1380211009 ∧ s.load.chain = false ∧ s.load.part = false ∧ s.load.single = true ∧ s.fget
      F.CFG_CTL_LOAD_SEL < num b 6 2 ∧ dirFlags b (s.fget F.CFG_CTL_LOAD_SEL) % 2 = 1 ∧ (dirFlags b (s.fget
      F.CFG_CTL_LOAD_SEL)).testBit 2 = false ∧ firstRefusal [s.headerChecks h false, s.passOne h] = none) ∧
    (∃ (d : Option Bytes) (h : CastHdr) (s : State) (b : Bytes) (c : Nat), s.wantsDir = true ∧ (s.load.dir = some b ∨
      s.load.dir = none ∧ d = some b) ∧ num b 0 4 = 1380211009 ∧ s.load.chain = false ∧ s.load.part = false ∧ s.load.single =
      true ∧ s.fget F.CFG_CTL_LOAD_SEL < num b 6 2 ∧ dirFlags b (s.fget F.CFG_CTL_LOAD_SEL) % 2 = 1 ∧ (dirFlags b (s.fget
      F.CFG_CTL_LOAD_SEL)).testBit 2 = false ∧ List.isEmpty h.outer = false ∧ firstRefusal [s.headerChecks h false, s.passOne
      h] = some c) ∧
    (∃ (b : Bytes) (k : Nat) (i : Nat) (j : Nat), nextBoot b k = some i ∧ k ≤ j ∧ j < i) ∧
    (∃ (s : State), s.hostRuns R.CFG_CTL = true) ∧
    (∃ (h : CastHdr) (s : State) (c : Nat), s.fget F.CFG_STAT_STATE = 7 ∧ s.inReset = false ∧ s.load.part = false ∧
      firstRefusal [s.headerChecks h false, s.passOne h] = some c) ∧
    (∃ (s : State), s.load.on = true ∧ s.load.chain = false ∧ (s.reading = true ∨ List.isEmpty s.load.hdr.outer = true)) ∧
    (∃ (s : State), s.load.on = true ∧ s.load.chain = false ∧ s.reading = false ∧ List.isEmpty s.load.hdr.outer = false) ∧
    (∃ (s : State), s.load.on = true ∧ s.load.chain = true) ∧
    (∃ (s : State), s.load.on = false ∧ s.fget F.CFG_PART_STAT_STATE = 1) ∧
    (∃ (s : State), s.load.on = false ∧ s.fget F.CFG_PART_STAT_STATE ≠ 1 ∧ s.wantsDir = false) ∧
    (∃ (s : State), s.load.on = false ∧ s.fget F.CFG_PART_STAT_STATE ≠ 1 ∧ s.wantsDir = true ∧ s.load.dir = none) ∧
    (∃ (s : State) (b : Bytes) (i : Nat), s.load.on = false ∧ s.fget F.CFG_PART_STAT_STATE ≠ 1 ∧ s.wantsDir = true ∧
      s.load.part = false ∧ s.load.dir = some b ∧ nextBoot b s.load.next = some i) ∧
    (∃ (s : State), (s.load.on = false ∨ s.load.chain = false) ∧ (s.fget F.CFG_STAT_STATE ≠ 7 ∨ s.inReset = true)) ∧
    (∃ (s : State), (s.load.on = false ∨ s.load.chain = false) ∧ s.fget F.CFG_STAT_STATE = 7 ∧ s.inReset = false ∧ s.load.part
      = false) ∧
    (∃ (s : State), s.load.fwd = true ∧ s.load.rdyN = true) ∧
    (∃ (s : State), (s.load.fwd = false ∨ s.load.rdyN = false)) ∧
    (∃ (s : State), s.load.fwd = false) :=
  ⟨⟨none,
      { State.fset { ready with image := { ready.image with committed := !true } } F.CFG_STAT_STATE 0 with load := { (State.fset { ready with image := { ready.image with committed := !true } } F.CFG_STAT_STATE 0).load with dir := some [] } },
      [] , by decide⟩,
    ⟨some (leBytes 4 0x52445941), State.reset, leBytes 4 0x52445941, by decide⟩,
    ⟨some dirBytes, {}, State.reset, dirBytes, 1, by decide⟩,
    fun h _ e => ⟨some dirBytes, State.reset, dirBytes, 1, by decide, by decide, by decide, rfl, rfl, rfl, by decide, e⟩,
    ⟨some dirBytes, { outer := [0] }, State.reset, dirBytes, 1, 1, by decide +kernel⟩,
    ⟨some (leBytes 4 0x52445941), single 0, leBytes 4 0x52445941, by decide⟩,
    ⟨some dirBytes, {}, single 1, dirBytes, by decide⟩,
    fun h _ e => ⟨some dirBytes, single 1, dirBytes, by decide, by decide, by decide, rfl, rfl, rfl, by decide, by decide, by
      decide, e⟩,
    ⟨some dirBytes, { outer := [0] }, single 1, dirBytes, 1, by decide +kernel⟩,
    ⟨dirBytes, 0, 1, 0, by decide⟩,
    ⟨ready , by decide⟩,
    ⟨{}, State.reset.fset F.CFG_STAT_STATE 7, 1, by decide +kernel⟩,
    ⟨{ ready with load := { ready.load with on := true } } , by decide⟩,
    ⟨committing 0, by decide⟩,
    ⟨{ loading 1 [] with load := { (loading 1 []).load with chain := true } }, by decide⟩,
    ⟨ready.fset F.CFG_PART_STAT_STATE 1 , by decide⟩,
    ⟨ready , by decide⟩,
    ⟨State.fset { ready with image := { ready.image with committed := !true } } F.CFG_STAT_STATE 0 , by decide⟩,
    ⟨{ State.reset with load := { State.reset.load with dir := some dirBytes } }, dirBytes, 1, by decide⟩,
    ⟨ready , by decide⟩,
    ⟨ready.fset F.CFG_STAT_STATE 7 , by decide⟩,
    ⟨{ ready with load := { ready.load with fwd := true } } , by decide⟩,
    ⟨ready , by decide⟩,
    ⟨ready, by decide⟩⟩

theorem witness_LoadSections :
    (∃ (s : State), s.reading = false) ∧
    (∃ (s : State) (b : Bytes), s.reading = true ∧ frameType s.secType = false ∧ firstRefusal [s.entryChecks s.secType
      (s.load.recs ++ s.payload b), s.slotEscape (s.load.recs ++ s.payload b)] = none) ∧
    (∃ (s : State) (b : Bytes) (c : Nat) (i : Nat), s.reading = true ∧ frameType s.secType = false ∧ firstRefusal
      [s.entryChecks s.secType (s.load.recs ++ s.payload b), s.slotEscape (s.load.recs ++ s.payload b)] = some (c, i) ∧
      s.waitsForRegion = false) ∧
    (∃ (s : State) (b : Bytes) (c : Nat) (i : Nat), s.reading = true ∧ frameType s.secType = false ∧ firstRefusal
      [s.entryChecks s.secType (s.load.recs ++ s.payload b), s.slotEscape (s.load.recs ++ s.payload b)] = some (c, i) ∧
      s.waitsForRegion = true) ∧
    (∃ (s : State) (i : BitVec 16), s.reading = true ∧ frameType s.secType = true ∧ i.toNat < 2048 ∧ s.load.part = true) ∧
    (∃ (s : State) (i : BitVec 16), s.reading = true ∧ (frameType s.secType = false ∨ 2048 ≤ i.toNat)) ∧
    (Config.regionRecords [] = .ok { owners := [(0, 0x30, false)] } → ∃ (s : State) (a : W32), s.reading = true ∧ s.secType =
      10 ∧ a.toNat < 2 ^ 31 ∧ s.initPlace (a.toNat * 4096) = true ∧ inDictBanks (a.toNat * 4096) = true ∧ s.load.part = false) ∧
    (∃ (s : State) (a : W32), s.reading = true ∧ s.secType = 10 ∧ a.toNat < 2 ^ 31 ∧ s.initPlace (a.toNat * 4096) = true ∧
      (inDictBanks (a.toNat * 4096) = false ∨ s.load.part = true)) ∧
    (∃ (s : State) (a : W32), s.reading = true ∧ s.secType = 10 ∧ a.toNat < 2 ^ 31 ∧ s.initPlace (a.toNat * 4096) = false ∧
      s.load.part = false) ∧
    (∃ (s : State) (b : Bytes) (a : W32) (c : Nat), s.reading = true ∧ s.secType = 9 ∧ s.scheduleFrame a.toNat (wholeFrame
      (s.payload b)) = Except.error c) ∧
    (∃ (s : State) (b : Bytes) (a : W32) (c : Nat) (j : Nat) (k : Nat) (ws : List W64), s.reading = true ∧ s.secType = 9 ∧
      a.toNat = 2 ^ 13 * c + 8 * j + k ∧ c < (hDecl s.load.hdr).nCords ∧ j < 1024 ∧ k < 8 ∧ 512 * k < (hDecl s.load.hdr).l ∧
      s.cordIn c = true ∧ (hDecl s.load.hdr).cords.getLsbD c = true ∧ s.frameWords (hDecl s.load.hdr) s.loadNb (s.loadCopy c)
      (c * 1024 + j) (hGn32 s.load.hdr) (512 * k) (List.map (fun i => BitVec.ofNat 64 (leNat (List.take 8 (List.drop (8 * i)
      (wholeFrame (s.payload b)))))) (List.range 512)) = Except.ok ws) ∧
    (∃ (s : State) (i : BitVec 16), s.reading = true ∧ s.dictFrame i.toNat = none) ∧
    (∃ (s : State) (i : BitVec 16) (f : Bytes) (c : Nat) (k : Nat), s.reading = true ∧ s.secType = 10 ∧ c < (hDecl
      s.load.hdr).nCords ∧ k < 64 ∧ s.cordIn c = true ∧ s.dictFrame i.toNat = some f ∧ List.length f = 4096) ∧
    (∃ (s : State) (c : Nat) (k : Nat) (n : Nat), s.reading = true ∧ s.secType = 10 ∧ c < (hDecl s.load.hdr).nCords ∧ k + n ≤
      64 ∧ s.cordIn c = true) ∧
    (∃ (s : State) (b : Bytes), s.reading = true ∧ (Config.sm3 b).toNat ≠ hDigest s.load.hdr s.load.sec) ∧
    (∃ (s : State) (b : Bytes) (c : Nat) (sec : Nat) (i : Nat), s.reading = true ∧ (Config.sm3 b).toNat = hDigest s.load.hdr
      s.load.sec ∧ s.waitsForRegion = false ∧ earlier s.load.bad s.wholeChecks = some (c, sec, i)) ∧
    (∃ (s : State) (b : Bytes), s.reading = true ∧ (Config.sm3 b).toNat = hDigest s.load.hdr s.load.sec ∧ (s.waitsForRegion =
      true ∨ earlier s.load.bad s.wholeChecks = none) ∧ s.load.part = false ∧ s.secType ≠ 1 ∧ s.secType ≠ 8 ∧ s.load.sec + 1 <
      hNsec s.load.hdr) ∧
    (∃ (s : State) (b : Bytes), s.reading = true ∧ (Config.sm3 b).toNat = hDigest s.load.hdr s.load.sec ∧ (s.waitsForRegion =
      true ∨ earlier s.load.bad s.wholeChecks = none) ∧ s.load.part = false ∧ s.secType = 1) ∧
    (Config.regionRecords [] = .ok {} → Config.portRecords [] = [] → ∃ (s : State) (b : Bytes), s.reading = true ∧ (Config.sm3
      b).toNat = hDigest s.load.hdr s.load.sec ∧ (s.waitsForRegion = true ∨ earlier s.load.bad s.wholeChecks = none) ∧
      s.load.part = false ∧ s.secType = 8 ∧ s.load.sec + 1 < hNsec s.load.hdr) ∧
    (∃ (s : State) (b : Bytes), s.reading = true ∧ (Config.sm3 b).toNat = hDigest s.load.hdr s.load.sec ∧ (s.waitsForRegion =
      true ∨ earlier s.load.bad s.wholeChecks = none) ∧ s.load.part = false ∧ s.secType ≠ 1 ∧ s.secType ≠ 8 ∧ (¬s.load.sec + 1
      < hNsec s.load.hdr)) ∧
    (∃ (s : State) (b : Bytes), s.reading = true ∧ (Config.sm3 b).toNat = hDigest s.load.hdr s.load.sec ∧ earlier s.load.bad
      s.wholeChecks = none ∧ s.load.part = true ∧ s.load.sec + 1 < hNsec s.load.hdr ∧ (9 ≤ s.secType ∨ hType s.load.hdr
      (s.load.sec + 1) < 9)) ∧
    (∃ (s : State) (b : Bytes), s.reading = true ∧ (Config.sm3 b).toNat = hDigest s.load.hdr s.load.sec ∧ earlier s.load.bad
      s.wholeChecks = none ∧ s.load.part = true ∧ (¬s.load.sec + 1 < hNsec s.load.hdr)) :=
  ⟨⟨ready , by decide⟩,
    ⟨loading 3 [], [], by decide⟩,
    ⟨loading 1 [], List.replicate 16 255, 2, 0, by decide⟩,
    ⟨loading 5 [], List.replicate 8 255, 34, 0, by decide⟩,
    ⟨partLoading 9, 2047, by decide⟩,
    ⟨loading 9 [], 2048, by decide⟩,
    fun h => ⟨loading 10 [], 0x4000, by decide, by decide, by decide, by
      { have e : (loading 10 []).section 8 = [] := (by decide); rw [State.initPlace, State.regionCfg, e, h]; decide }, by
      decide, by decide⟩,
    ⟨(((partLoading 10).fset (F.DMP_CFG_MODE 0 0) 2).wset (W.DMP_SIZE_SIZE 0 0) 1).wset (W.DMP_BASE_BASE 0 0) 0x04000000,
      0x4000, by decide +kernel⟩,
    ⟨loading 10 [], 0, ⟨by decide, by decide, by decide, rfl, by decide⟩⟩,
    ⟨loading 9 [], [], 0x100000, 2, ⟨by decide, by decide, rfl⟩⟩,
    ⟨longLoad, [], BitVec.ofNat 32 (8192 * 127 + 8 * 1023), 127, 1023, 0, List.replicate 512 0,
      ⟨by decide, by decide, by decide, by decide, by decide, by decide, by decide, by decide, by decide, zero_frame⟩⟩,
    ⟨loading 1 [], 0, by decide⟩,
    ⟨{ partLoading 10 with load := { (partLoading 10).load with dict := [(0, List.replicate 4096 0)] } }, 0, List.replicate
      4096 0, 0, 63, ⟨by decide, by decide, by decide, by decide, by decide, rfl, List.length_replicate⟩⟩,
    ⟨loading 10 [], 0, 0, 64, by decide⟩,
    other_digest,
    ⟨fitting [1], [], 2, 0, 0, ⟨by decide, (fitting_digest _).symm, by decide, by decide⟩⟩,
    ⟨fitting [2, 5], [], ⟨by decide, (fitting_digest _).symm, by decide, by decide, by decide, by decide, by decide⟩⟩,
    ⟨{ fitting [1] with load := { (fitting [1]).load with recs := [4, 1] ++ List.replicate 30 0 } }, [],
      ⟨by decide, (fitting_digest _).symm, by decide, by decide, by decide⟩⟩,
    fun h h4 => ⟨fitting [8, 9], [], by decide, (fitting_digest _).symm, .inr (fitting_region h h4), by decide, by decide, by
      decide⟩,
    ⟨fitting [2], [], ⟨by decide, (fitting_digest _).symm, by decide, by decide, by decide, by decide, by decide⟩⟩,
    ⟨partFitting [2, 5], [], ⟨by decide, (fitting_digest _).symm, by decide, by decide, by decide, by decide⟩⟩,
    ⟨partFitting [2], [], ⟨by decide, (fitting_digest _).symm, by decide, by decide, by decide⟩⟩⟩

theorem witness_ScriptAndCommit :
    (∃ (s : State), s.scriptAt 1 = false) ∧
    (∃ (s : State), s.scriptAt 2 = false) ∧
    (∃ (s : State), s.scriptAt 3 = false) ∧
    (∃ (s : State), s.scriptAt 4 = false) ∧
    (∃ (s : State), s.scriptAt 1 = true ∧ 327680 ≤ num s.scriptEntry 4 4 ∧ num s.scriptEntry 4 4 < 458752) ∧
    (∃ (s : State) (u : State), s.scriptAt 1 = true ∧ num s.scriptEntry 12 4 = 4294967295 ∧ (¬(327680 ≤ num s.scriptEntry 4 4 ∧
      num s.scriptEntry 4 4 < 458752)) ∧ exec (Instr.registerWrite 1 (BitVec.ofNat 32 (num s.scriptEntry 4 4)) (BitVec.ofNat 32
      (num s.scriptEntry 8 4)) 4) s = Host.Outcome.next u ∧ u.fget F.CFG_STAT_STATE = 4) ∧
    (∃ (s : State) (c : Nat), s.scriptAt 1 = true ∧ c < 64 ∧ num s.scriptEntry 4 4 = R.TRG_CNT_CMP c ∧ s.observed = false ∧
      s.bit (F.PWR_DOM_ON 0) = true ∧ s.fget F.CFG_STAT_STATE = 4) ∧
    (∃ (s : State), s.scriptAt 2 = true ∧ s.fget F.CFG_STAT_STATE = 4) ∧
    (∃ (s : State), s.scriptAt 2 = true ∧ s.fget F.CFG_STAT_STATE = 2) ∧
    (∃ (s : State) (c : Nat), s.scriptAt 3 = true ∧ c < 64 ∧ num s.scriptEntry 4 4 = R.TRG_CNT_CMP c ∧ s.observed = false ∧
      s.bit (F.PWR_DOM_ON 0) = true ∧ s.fget F.CFG_STAT_STATE = 4) ∧
    (Config.sectionSettings 12 [] = [] → Config.regionRecords [] = .ok {} → ∃ (s : State), s.scriptAt 4 = true ∧ contended
      s.edge.blocks = [] ∧ num (s.section 14) 2 1 = 0 ∧ (∀ x, x ∈ settingsOf 12 (s.section 12) → settingInPlace x) ∧ (∀ p, p ∈
      s.regionCfg.uses → p.1 < 384) ∧ (hDecl s.load.hdr).lock ≠ 0) ∧
    (Config.sectionSettings 12 [] = [] → Config.regionRecords [] = .ok {} → ∃ (s : State), s.scriptAt 4 = true ∧ contended
      s.edge.blocks = [] ∧ num (s.section 14) 2 1 = 0 ∧ (∀ x, x ∈ settingsOf 12 (s.section 12) → settingInPlace x) ∧ (∀ p, p ∈
      s.regionCfg.uses → p.1 < 384) ∧ (hDecl s.load.hdr).lock = 0 ∧ 0 < (hDecl s.load.hdr).span ∧ (hDecl s.load.hdr).span < 2 ^
      32 ∧ (hDecl s.load.hdr).phase < 2 ^ 32 ∧ s.time.now < 2 ^ 80) ∧
    (∃ (s : State), s.load.on = false ∧ s.load.pc ≠ 0) ∧
    (∃ (s : State), (s.load.on = true ∨ s.load.pc = 0)) :=
  ⟨⟨ready , by decide⟩,
    ⟨ready , by decide⟩,
    ⟨ready , by decide⟩,
    ⟨ready , by decide⟩,
    ⟨scripted 4 1 1 0x50000, by decide⟩,
    ⟨scripted 4 1 1 R.HST_EVT, after (.registerWrite 1 (BitVec.ofNat 32 R.HST_EVT) 5 4) (scripted 4 1 1 R.HST_EVT),
      ⟨by decide, by decide, by decide, rfl, by decide +kernel⟩⟩,
    ⟨scripted 4 1 1 (R.TRG_CNT_CMP 63), 63, by decide⟩,
    ⟨scripted 4 2 1 0, by decide⟩,
    ⟨scripted 2 2 0 0, by decide⟩,
    ⟨scripted 4 3 1 (R.TRG_CNT_CMP 63), 63, by decide⟩,
    fun h2 h3 => ⟨committing 1, by decide, by decide, by decide, (by intro x hx; rw [committing_settings _ h2] at hx; cases
      hx), (by intro p hp; rw [committing_uses _ h3] at hp; cases hp), by decide⟩,
    fun h2 h3 => ⟨committing 0, by decide, by decide, by decide, (by intro x hx; rw [committing_settings _ h2] at hx; cases
      hx), (by intro p hp; rw [committing_uses _ h3] at hp; cases hp), by decide, by decide, by decide, by decide, by decide⟩,
    ⟨{ State.reset with load := { State.reset.load with pc := 1 } }, by decide⟩,
    ⟨ready, by decide⟩⟩

theorem witness_PartialReconfiguration :
    (∃ (s : State), s.hostRuns R.CFG_PART_CTL = true ∧ s.image.committed = false) ∧
    (∃ (s : State), s.hostRuns R.CFG_PART_CTL = true ∧ s.image.committed = true ∧ (s.fget F.CFG_PART_STAT_STATE = 1 ∨ s.fget
      F.CFG_PART_STAT_STATE = 2)) ∧
    (∃ (s : State), s.hostRuns R.CFG_PART_CTL = true ∧ s.image.committed = true ∧ s.fget F.CFG_PART_STAT_STATE = 3) ∧
    (∃ (s : State), s.hostRuns R.CFG_PART_CTL = true ∧ s.image.committed = true ∧ (s.fget F.CFG_PART_STAT_STATE = 0 ∨ 4 ≤
      s.fget F.CFG_PART_STAT_STATE)) ∧
    (∃ (s : State), s.hostRuns R.CFG_PART_CTL = true ∧ s.image.committed = true ∧ (s.fget F.CFG_PART_STAT_STATE ≠ 0 ∨
      s.recon.waits = true ∨ BitVec.ofNat 16 (s.fget F.CFG_PART_CORDS_CORDS) = 0 ∧ BitVec.ofNat 64 (s.wget
      W.CFG_PART_EDGE_EDGE) = 0)) ∧
    (∃ (s : State), s.hostRuns R.CFG_PART_CTL = true ∧ s.image.committed = true ∧ s.fget F.CFG_PART_STAT_STATE = 0 ∧
      s.recon.waits = false ∧ (BitVec.ofNat 16 (s.fget F.CFG_PART_CORDS_CORDS) ≠ 0 ∨ BitVec.ofNat 64 (s.wget
      W.CFG_PART_EDGE_EDGE) ≠ 0)) ∧
    (∃ (s : State), (s.fget F.CFG_PART_STAT_STATE ≠ 1 ∨ s.load.on = true)) ∧
    (∃ (h : CastHdr) (s : State) (c : Nat), s.fget F.CFG_PART_STAT_STATE = 1 ∧ s.load.on = false ∧ firstRefusal [s.partEntry,
      s.headerChecks h true, s.regionCheck h, s.passOne h, s.partTiming h, s.partDecl h] = some c) ∧
    (∀ (h : CastHdr), firstRefusal [(partWaits true).headerChecks h true, (partWaits true).regionCheck h, (partWaits
      true).passOne h, (partWaits true).partTiming h, (partWaits true).partDecl h] = none → ∃ (s : State), s.fget
      F.CFG_PART_STAT_STATE = 1 ∧ s.load.on = false ∧ firstRefusal [s.partEntry, s.headerChecks h true, s.regionCheck h,
      s.passOne h, s.partTiming h, s.partDecl h] = none ∧ s.recon.isolated = true) ∧
    (∀ (h : CastHdr), firstRefusal [(partWaits false).headerChecks h true, (partWaits false).regionCheck h, (partWaits
      false).passOne h, (partWaits false).partTiming h, (partWaits false).partDecl h] = none → ∃ (s : State), s.fget
      F.CFG_PART_STAT_STATE = 1 ∧ s.load.on = false ∧ firstRefusal [s.partEntry, s.headerChecks h true, s.regionCheck h,
      s.passOne h, s.partTiming h, s.partDecl h] = none ∧ s.recon.isolated = false) ∧
    (∃ (s : State), (s.recon.waits = false ∨ s.betweenTurns = false)) ∧
    (∃ (s : State), s.recon.waits = true ∧ s.betweenTurns = true ∧ s.standby = false ∧ s.load.on = false ∧ s.fget
      F.CFG_PART_STAT_STATE = 1) ∧
    (∃ (s : State), (s.fget F.CFG_PART_STAT_STATE ≠ 3 ∨ s.recon.swapping ≠ [] ∨ s.betweenTurns = false)) ∧
    (∃ (s : State), s.fget F.CFG_PART_STAT_STATE = 3 ∧ s.recon.swapping = [] ∧ s.betweenTurns = true ∧ s.standby = false ∧
      contended s.edge.blocks = [] ∧ s.image.committed = true) ∧
    (∃ (s : State), s.hostRuns R.CFG_NVM_CTL = true ∧ (s.bit F.CFG_NVM_STAT_BUSY = true ∨ s.fget F.CFG_NVM_CTL_DEV = 3 ∨ s.fget
      F.CFG_NVM_LEN_LEN = 0 ∨ 4096 < s.fget F.CFG_NVM_LEN_LEN)) ∧
    (∃ (s : State), s.hostRuns R.CFG_NVM_CTL = true ∧ ((s.bit F.CFG_NVM_STAT_BUSY = true ∨ s.fget F.CFG_NVM_CTL_DEV = 3 ∨
      s.fget F.CFG_NVM_LEN_LEN = 0 ∨ 4096 < s.fget F.CFG_NVM_LEN_LEN) ∨ s.fget F.CFG_PART_STAT_STATE ≠ 4 ∧ s.fget
      F.CFG_PART_STAT_STATE ≠ 5 ∧ s.fget F.CFG_STAT_STATE ≠ 6)) ∧
    (∃ (s : State), s.hostRuns R.CFG_NVM_CTL = true ∧ (¬(s.bit F.CFG_NVM_STAT_BUSY = true ∨ s.fget F.CFG_NVM_CTL_DEV = 3 ∨
      s.fget F.CFG_NVM_LEN_LEN = 0 ∨ 4096 < s.fget F.CFG_NVM_LEN_LEN)) ∧ (¬(s.fget F.CFG_PART_STAT_STATE ≠ 4 ∧ s.fget
      F.CFG_PART_STAT_STATE ≠ 5 ∧ s.fget F.CFG_STAT_STATE ≠ 6)) ∧ s.image.nvm = none ∧ (s.fget F.CFG_STAT_STATE ≠ 5 ∨ s.fget
      F.CFG_NVM_CTL_DEV ≠ 0 ∨ 4096 ≤ s.wget W.CFG_NVM_ADDR_ADDR)) ∧
    (∃ (s : State), s.nvm = none) ∧
    (∃ (s : State) (o : NvmOp), s.nvm = some o ∧ o.op = 0 ∧ o.len ≤ 4096) ∧
    (∃ (s : State) (o : NvmOp), s.nvm = some o ∧ o.op ≠ 0) :=
  ⟨⟨{ ready with image := { ready.image with committed := false } } , by decide⟩,
    ⟨ready.fset F.CFG_PART_STAT_STATE 1 , by decide⟩,
    ⟨ready.fset F.CFG_PART_STAT_STATE 3 , by decide⟩,
    ⟨ready , by decide⟩,
    ⟨ready , by decide⟩,
    ⟨ready.fset F.CFG_PART_CORDS_CORDS 1, by decide⟩,
    ⟨ready , by decide⟩,
    ⟨{}, { ready.fset F.CFG_PART_STAT_STATE 1 with image := { ready.image with dir := none } }, 8, by decide +kernel⟩,
    fun h e => ⟨partWaits true, by decide, by decide, (by
      { have p : (partWaits true).partEntry = none := (by decide); rw [p]; exact e }), rfl⟩,
    fun h e => ⟨partWaits false, by decide, by decide, (by
      { have p : (partWaits false).partEntry = none := (by decide); rw [p]; exact e }), rfl⟩,
    ⟨ready , by decide⟩,
    ⟨State.fset { ready with recon := { ready.recon with waits := true } } F.CFG_PART_STAT_STATE 1 , by decide⟩,
    ⟨ready , by decide⟩,
    ⟨ready.fset F.CFG_PART_STAT_STATE 3 , by decide⟩,
    ⟨ready , by decide⟩,
    ⟨ready , by decide⟩,
    ⟨((ready.fset F.CFG_NVM_LEN_LEN 1).fset F.CFG_PART_STAT_STATE 4).fset F.CFG_STAT_STATE 0 , by decide⟩,
    ⟨ready , by decide⟩,
    ⟨{ ready with nvm := some ⟨0, 0, 0, 4096⟩ }, ⟨0, 0, 0, 4096⟩, by decide⟩,
    ⟨{ ready with nvm := some ⟨0, 1, 0, 4096⟩ }, ⟨0, 1, 0, 4096⟩, by decide⟩⟩

theorem witness_SplicePairing :
    (∃ (h : Hello) (s : State), (s.fget F.SPL_STAT_STATE ≠ 1 ∨ s.linkAligned = false ∨ s.helloFits h = false)) ∧
    (∃ (h : Hello) (s : State), s.fget F.SPL_STAT_STATE = 1 ∧ s.linkAligned = true ∧ s.helloFits h = true ∧ s.fget
      F.SPL_CFG_ROLE = 1) ∧
    (∃ (s : State), s.fget F.SPL_STAT_STATE ≠ 1) ∧
    (∃ (s : State), s.fget F.SPL_STAT_STATE = 1 ∧ s.srcOn 644 = true) ∧
    (∃ (s : State), s.fget F.SPL_STAT_STATE = 1 ∧ s.fget F.SPL_CFG_ROLE ≠ 1) ∧
    (∃ (s : State), (s.splice.paired = false ∨ s.linkAligned = false)) ∧
    (∃ (s : State), (s.splice.paired = false ∨ s.linkAligned = false ∨ s.fget F.SPL_STAT_STATE ≠ 3)) ∧
    (∃ (s : State), s.splice.paired = true ∧ s.linkAligned = true ∧ s.fget F.SPL_STAT_STATE ≠ 3) ∧
    (∃ (h : Heartbeat) (s : State), s.splice.paired = true ∧ s.linkAligned = true ∧ s.fget F.SPL_STAT_STATE = 3 ∧ h.starts =
      none) ∧
    (∃ (h : Heartbeat) (s : State), s.splice.paired = true ∧ s.linkAligned = true ∧ s.fget F.SPL_STAT_STATE = 3 ∧ h.digest =
      none) ∧
    (∃ (s : State) (i : BitVec 32), s.splice.paired = true ∧ s.linkAligned = true ∧ s.fget F.SPL_STAT_STATE = 3 ∧ i.toNat <
      s.fillWords.length) :=
  ⟨⟨aHello, ready, by decide⟩,
    ⟨aHello, (linked.fset F.SPL_STAT_STATE 1).fset F.SPL_CFG_ROLE 1, by decide +kernel⟩,
    ⟨ready , by decide⟩,
    ⟨ready.fset F.SPL_STAT_STATE 1 , by decide⟩,
    ⟨ready.fset F.SPL_STAT_STATE 1 , by decide⟩,
    ⟨ready , by decide⟩,
    ⟨ready , by decide⟩,
    ⟨paired linked 2, by decide +kernel⟩,
    ⟨aBeat, paired linked 3, by decide +kernel⟩,
    ⟨aBeat, paired linked 3, by decide +kernel⟩,
    ⟨{ paired linked 3 with act := { ready.act with tin := [(0, 0)] } }, 0, by decide +kernel⟩⟩

theorem witness_SpliceLoss :
    (∃ (why : LossCause) (s : State), (s.splice.paired = false ∨ s.lossSeen why = false)) ∧
    (∃ (why : LossCause) (s : State), s.splice.paired = true ∧ s.lossSeen why = true ∧ s.fget F.SPL_STAT_STATE = 2 ∧ why =
      LossCause.pins 3) ∧
    (∃ (why : LossCause) (s : State), s.splice.paired = true ∧ s.lossSeen why = true ∧ s.fget F.SPL_STAT_STATE = 2 ∧ why ≠
      LossCause.pins 3 ∧ s.srcOn 644 = true) ∧
    (∃ (why : LossCause) (s : State), s.splice.paired = true ∧ s.lossSeen why = true ∧ s.fget F.SPL_STAT_STATE = 3 ∧
      s.flt.deposed = false ∧ (s.bit F.SPL_CTL_DIV_POLICY = false ∨ s.bit F.SPL_STAT_DIVERGED = false)) ∧
    (∃ (why : LossCause) (s : State), s.splice.paired = true ∧ s.lossSeen why = true ∧ (s.fget F.SPL_STAT_STATE = 6 ∨ s.fget
      F.SPL_STAT_STATE = 3 ∧ s.bit F.SPL_CTL_DIV_POLICY = true ∧ s.bit F.SPL_STAT_DIVERGED = true) ∧ s.bit F.FLT_STAT_SAFE =
      false) ∧
    (∃ (s : State), (s.fget F.SPL_STAT_STATE ≠ 5 ∨ s.flt.deposed = true ∨ s.splice.bs = none ∨ ↑s.time.now < s.splice.promoAt +
      131072000 ∨ ∃ x, s.splice.bs = some x ∧ s.core.boundary ≤ x + 1)) ∧
    (∃ (s : State) (x : Nat), s.fget F.SPL_STAT_STATE = 5 ∧ s.flt.deposed = false ∧ s.splice.bs = some x ∧ x + 1 <
      s.core.boundary ∧ s.splice.promoAt + 131072000 ≤ ↑s.time.now ∧ s.srcOn 644 = true) ∧
    (∃ (s : State), s.hostRuns R.SPL_CTL = true ∧ s.fget F.SPL_STAT_STATE ≠ 2) ∧
    (∃ (s : State), s.hostRuns R.SPL_CTL = true ∧ s.fget F.SPL_STAT_STATE = 2) ∧
    (∃ (s : State), s.hostRuns R.SPL_CTL = true ∧ s.linkShutting = true) ∧
    (∃ (s : State), s.hostRuns R.SPL_CTL = true ∧ s.linkShutting = false) :=
  ⟨⟨LossCause.heartbeat, ready , by decide⟩,
    ⟨.pins 3, { paired ready 2 with pinIn := [(pinKey .partnerP, true), (pinKey .partnerN, true)] }, by decide⟩,
    ⟨.pins 0, paired ready 2, by decide⟩,
    ⟨.heartbeat, paired ready 3, by decide⟩,
    ⟨.heartbeat, paired ready 6, by decide⟩,
    ⟨ready , by decide⟩,
    ⟨{ paired ready 5 with splice := { ready.splice with bs := some 0 }, core := { ready.core with boundary := 2 } }, 0,
      by decide⟩,
    ⟨ready , by decide⟩,
    ⟨ready.fset F.SPL_STAT_STATE 2 , by decide⟩,
    ⟨ready.setBit (F.LANE_STAT_SHUTTING 1055) true, by decide⟩,
    ⟨ready, by decide⟩⟩

theorem witness_FaultFetch :
    (∃ (c : BitVec 10) (r : Report) (s : State), List.filter (fun x => x.src == c.toNat) s.reports = [r] ∧ r.code < 5120 ∧
      s.bit (F.FLT_SRC_STAT_WIRE_BAD c.toNat) = false ∧ s.fget F.PWR_STAT_STATE < 3 ∧ s.inReset = false ∧ s.bit
      F.PWR_STAT_TRANSITION = false ∧ s.bit F.FLT_STAT_SAFE = false ∧ s.graceDue = false ∧ (max (s.imageClass r.code) (s.fget
      (F.FLT_CLASS_HOST r.code)) < 3 ∨ s.bit F.FLT_POLICY_C3 = false) ∧ s.fget (F.FLT_SRC_STAT_PAIR c.toNat) = 2) ∧
    (∃ (c : BitVec 10) (r : Report) (s : State), List.filter (fun x => x.src == c.toNat) s.reports = [r] ∧ r.code < 5120 ∧
      s.bit (F.FLT_SRC_STAT_WIRE_BAD c.toNat) = false ∧ s.fget F.PWR_STAT_STATE < 3 ∧ s.inReset = false ∧ s.bit
      F.PWR_STAT_TRANSITION = false ∧ s.bit F.FLT_STAT_SAFE = false ∧ s.graceDue = false ∧ (max (s.imageClass r.code) (s.fget
      (F.FLT_CLASS_HOST r.code)) < 3 ∨ s.bit F.FLT_POLICY_C3 = false) ∧ s.bit F.FLT_FER_VALID = false ∧ max (s.imageClass
      r.code) (s.fget (F.FLT_CLASS_HOST r.code)) ≤ 3 ∧ r.acc < 8) ∧
    (∃ (c : BitVec 10) (r : Report) (s : State), List.filter (fun x => x.src == c.toNat) s.reports = [r] ∧ r.code < 5120 ∧
      s.bit (F.FLT_SRC_STAT_WIRE_BAD c.toNat) = false ∧ s.fget F.PWR_STAT_STATE < 3 ∧ s.inReset = false ∧ s.bit
      F.PWR_STAT_TRANSITION = false ∧ s.bit F.FLT_STAT_SAFE = false ∧ s.graceDue = false ∧ max (s.imageClass r.code) (s.fget
      (F.FLT_CLASS_HOST r.code)) = 0) ∧
    (∃ (c : BitVec 10) (r : Report) (s : State), List.filter (fun x => x.src == c.toNat) s.reports = [r] ∧ r.code < 5120 ∧
      s.bit (F.FLT_SRC_STAT_WIRE_BAD c.toNat) = false ∧ s.fget F.PWR_STAT_STATE < 3 ∧ s.inReset = false ∧ s.bit
      F.PWR_STAT_TRANSITION = false ∧ s.bit F.FLT_STAT_SAFE = false ∧ s.graceDue = false ∧ max (s.imageClass r.code) (s.fget
      (F.FLT_CLASS_HOST r.code)) = 1 ∧ s.bit F.FLT_STAT_GRACE_RUN = false) ∧
    (∃ (c : BitVec 10) (r : Report) (s : State), List.filter (fun x => x.src == c.toNat) s.reports = [r] ∧ r.code < 5120 ∧
      s.bit (F.FLT_SRC_STAT_WIRE_BAD c.toNat) = false ∧ s.fget F.PWR_STAT_STATE < 3 ∧ s.inReset = false ∧ s.bit
      F.PWR_STAT_TRANSITION = false ∧ s.bit F.FLT_STAT_SAFE = false ∧ s.graceDue = false ∧ max (s.imageClass r.code) (s.fget
      (F.FLT_CLASS_HOST r.code)) = 1 ∧ s.bit F.FLT_STAT_GRACE_RUN = true) ∧
    (∃ (c : BitVec 10) (r : Report) (s : State), List.filter (fun x => x.src == c.toNat) s.reports = [r] ∧ r.code < 5120 ∧
      s.bit (F.FLT_SRC_STAT_WIRE_BAD c.toNat) = false ∧ s.fget F.PWR_STAT_STATE < 3 ∧ s.inReset = false ∧ s.bit
      F.PWR_STAT_TRANSITION = false ∧ s.bit F.FLT_STAT_SAFE = false ∧ s.graceDue = false ∧ max (s.imageClass r.code) (s.fget
      (F.FLT_CLASS_HOST r.code)) = 2) ∧
    (∃ (c : BitVec 10) (r : Report) (s : State), List.filter (fun x => x.src == c.toNat) s.reports = [r] ∧ r.code < 5120 ∧
      s.bit (F.FLT_SRC_STAT_WIRE_BAD c.toNat) = false ∧ s.fget F.PWR_STAT_STATE < 3 ∧ s.inReset = false ∧ s.bit
      F.PWR_STAT_TRANSITION = false ∧ s.bit F.FLT_STAT_SAFE = false ∧ s.graceDue = false ∧ max (s.imageClass r.code) (s.fget
      (F.FLT_CLASS_HOST r.code)) = 3 ∧ s.bit F.FLT_POLICY_C3 = false ∧ s.fget F.SPL_STAT_STATE = 2) ∧
    (∃ (c : BitVec 10) (r : Report) (s : State), List.filter (fun x => x.src == c.toNat) s.reports = [r] ∧ r.code < 5120 ∧
      s.bit (F.FLT_SRC_STAT_WIRE_BAD c.toNat) = false ∧ s.fget F.PWR_STAT_STATE < 3 ∧ s.inReset = false ∧ s.bit
      F.PWR_STAT_TRANSITION = false ∧ s.bit F.FLT_STAT_SAFE = false ∧ s.graceDue = false ∧ max (s.imageClass r.code) (s.fget
      (F.FLT_CLASS_HOST r.code)) = 3 ∧ s.bit F.FLT_POLICY_C3 = true) ∧
    (∃ (l : List (BitVec 10)) (s : State), s.graceDue = false ∧ ((∀ (c : BitVec 10), c ∈ l → s.bit (F.FLT_SRC_STAT_WIRE_BAD
      c.toNat) = true) ∨ 3 ≤ s.fget F.PWR_STAT_STATE ∨ s.inReset = true)) ∧
    (∃ (s : State), s.graceDue = true ∧ s.fget F.PWR_STAT_STATE < 3 ∧ s.inReset = false ∧ s.bit F.PWR_STAT_TRANSITION = false ∧
      s.bit F.FLT_STAT_SAFE = false) ∧
    (∃ (c : BitVec 10) (r : Report) (s : State), List.filter (fun x => x.src == c.toNat) s.reports = [r] ∧ r.code < 5120 ∧
      s.bit (F.FLT_SRC_STAT_WIRE_BAD c.toNat) = false ∧ s.hostRuns R.FLT_CTL = true ∧ s.graceDue = false ∧ s.bit
      F.FLT_STAT_SAFE = true ∧ s.bit F.FLT_STAT_C3_BUSY = false ∧ s.effClass r.code = 2) :=
  ⟨⟨5, report 0x10E, { ready.fset (F.FLT_SRC_STAT_PAIR 5) 2 with reports := [report 0x10E] }, by decide⟩,
    ⟨5, report 0x10E, { ready with reports := [report 0x10E] }, by decide⟩,
    ⟨5, report 0x10E, { ready with reports := [report 0x10E] }, by decide⟩,
    ⟨5, report 0x10E, { ready.fset (F.FLT_CLASS_HOST 0x10E) 1 with reports := [report 0x10E] }, by decide⟩,
    ⟨5, report 0x10E,
      { ((ready.fset (F.FLT_CLASS_HOST 0x10E) 1).setBit F.FLT_STAT_GRACE_RUN true).fset F.FLT_GRACE_LEFT_US 1 with reports := [report 0x10E] },
      by decide⟩,
    ⟨5, report 0x10E, { ready.fset (F.FLT_CLASS_HOST 0x10E) 2 with reports := [report 0x10E] }, by decide⟩,
    ⟨5, report 0x10E,
      { ((ready.fset (F.FLT_CLASS_HOST 0x10E) 3).setBit F.FLT_POLICY_C3 false).fset F.SPL_STAT_STATE 2 with reports := [report 0x10E] },
      by decide⟩,
    ⟨5, report 0x10E, { (ready.fset (F.FLT_CLASS_HOST 0x10E) 3).setBit F.FLT_POLICY_C3 true with reports := [report 0x10E] },
      by decide⟩,
    ⟨[], ready , by decide⟩,
    ⟨ready.setBit F.FLT_STAT_GRACE_RUN true , by decide⟩,
    ⟨5, report 0x10E, { (ready.fset (F.FLT_CLASS_HOST 0x10E) 2).setBit F.FLT_STAT_SAFE true with reports := [report 0x10E] },
      by decide⟩⟩

theorem witness_FaultEvents :
    (∃ (c : BitVec 10) (p : BitVec 2) (s : State), (s.bit (F.FLT_SRC_STAT_WIRE_BAD c.toNat) = true ∨ p = 1 ∨ p = 2 ∨ s.srcOn
      c.toNat = false ∨ 3 ≤ s.fget F.PWR_STAT_STATE)) ∧
    (∃ (c : BitVec 10) (p : BitVec 2) (s : State), s.bit (F.FLT_SRC_STAT_WIRE_BAD c.toNat) = false ∧ (p = 0 ∨ p = 3) ∧ s.srcOn
      c.toNat = true ∧ s.fget F.PWR_STAT_STATE < 3 ∧ s.effClass 2049 < 2 ∧ s.effClass 2049 = 1) ∧
    (∃ (c : BitVec 10) (p : BitVec 2) (s : State), s.bit (F.FLT_SRC_STAT_WIRE_BAD c.toNat) = false ∧ (p = 0 ∨ p = 3) ∧ s.srcOn
      c.toNat = true ∧ s.hostRuns R.FLT_CTL = true ∧ s.bit F.FLT_STAT_SAFE = true ∧ s.bit F.FLT_STAT_C3_BUSY = false ∧
      s.graceDue = false ∧ s.effClass 2049 = 2) ∧
    (∃ (c : BitVec 10) (p : BitVec 2) (s : State), (p = 0 ∨ p = 3 ∨ s.bit (F.FLT_SRC_STAT_WIRE_BAD c.toNat) = false ∨ 3 ≤
      s.fget F.PWR_STAT_STATE ∨ s.inReset = true)) ∧
    (∃ (c : BitVec 10) (p : BitVec 2) (s : State), (p = 1 ∨ p = 2) ∧ s.bit (F.FLT_SRC_STAT_WIRE_BAD c.toNat) = true ∧ s.fget
      F.PWR_STAT_STATE < 3 ∧ s.inReset = false) ∧
    (∃ (s : State), (s.bit F.FLT_STAT_GRACE_RUN = false ∨ s.fget F.FLT_GRACE_LEFT_US ≠ 0 ∨ 3 ≤ s.fget F.PWR_STAT_STATE ∨
      s.inReset = true)) ∧
    (∃ (s : State), s.bit F.FLT_STAT_GRACE_RUN = true ∧ s.fget F.FLT_GRACE_LEFT_US = 0 ∧ s.fget F.PWR_STAT_STATE < 3 ∧
      s.inReset = false ∧ s.bit F.PWR_STAT_TRANSITION = false ∧ s.bit F.FLT_STAT_SAFE = false) ∧
    (∃ (s : State), s.bit F.FLT_STAT_GRACE_RUN = true ∧ s.fget F.FLT_GRACE_LEFT_US = 0 ∧ s.fget F.PWR_STAT_STATE < 3 ∧
      s.inReset = false ∧ s.bit F.PWR_STAT_TRANSITION = true) ∧
    (∃ (s : State), s.hostRuns R.FLT_CTL = true ∧ (s.bit F.FLT_STAT_SAFE = false ∨ s.bit F.FLT_STAT_C3_BUSY = true ∧ s.graceDue
      = false)) ∧
    (∃ (s : State), s.hostRuns R.FLT_CTL = true ∧ s.bit F.FLT_STAT_SAFE = true ∧ s.graceDue = true) ∧
    (∃ (n : BitVec 4) (s : State), (s.srcPowered (768 + n.toNat) = false ∨ s.inReset = true)) ∧
    (∃ (n : BitVec 4) (s : State), s.srcOn (768 + n.toNat) = true ∧ s.fget F.PWR_STAT_STATE < 3) ∧
    (∃ (x : Int) (s : State), s.fget F.PWR_STAT_STATE < 3 ∧ x ≤ 120000) ∧
    (∃ (x : Int) (s : State), s.fget F.PWR_STAT_STATE = 3 ∧ x ≤ 130000) ∧
    (∃ (n : BitVec 4) (x : Int) (s : State), s.srcPowered (768 + n.toNat) = true ∧ s.inReset = false ∧ s.fget F.PWR_STAT_STATE
      = 3 ∧ 130000 < x) ∧
    (∃ (s : State), s.fget F.PWR_STAT_STATE = 4) ∧
    (∃ (k : BitVec 3) (s : State), s.fget F.PWR_STAT_STATE ≤ 4 ∧ (¬(s.inReset = false ∧ (s.fget F.PWR_STAT_STATE < 3 ∨ s.fget
      F.PWR_STAT_STATE = 3 ∧ 6 ≤ k.toNat)) ∨ s.railWatched k.toNat = false)) ∧
    (∃ (k : BitVec 3) (s : State), s.inReset = false ∧ (s.fget F.PWR_STAT_STATE < 3 ∨ s.fget F.PWR_STAT_STATE = 3 ∧ 6 ≤
      k.toNat) ∧ s.railWatched k.toNat = true ∧ s.srcOn 784 = true) ∧
    (∃ (s : State), s.hostRuns R.FLT_INJ = true ∧ s.factoryMode = false) ∧
    (∃ (s : State), s.hostRuns R.FLT_INJ = true ∧ s.factoryMode = true ∧ (codeKnown (s.fget F.FLT_INJ_CODE) = false ∨ s.srcOn
      (s.fget F.FLT_INJ_SRC) = false)) ∧
    (∃ (s : State), s.hostRuns R.FLT_INJ = true ∧ s.factoryMode = true ∧ codeKnown (s.fget F.FLT_INJ_CODE) = true ∧ s.srcOn
      (s.fget F.FLT_INJ_SRC) = true) ∧
    (∃ (s : State), s.hostRuns R.FLT_INJ = true ∧ s.factoryMode = true ∧ 2 < s.fget F.FLT_INJ_CYCLES ∧ s.effClass 2049 < 2 ∧
      s.srcOn (s.fget F.FLT_INJ_SRC) = true) ∧
    (∃ (s : State), s.hostRuns R.FLT_INJ = true ∧ s.factoryMode = true ∧ s.fget F.FLT_INJ_CYCLES ≤ 2) :=
  ⟨⟨0, 0, ready.setBit (F.FLT_SRC_STAT_WIRE_BAD 0) true , by decide⟩,
    ⟨0, 0, ready , by decide⟩,
    ⟨5, 0, (ready.fset (F.FLT_CLASS_HOST 2049) 2).setBit F.FLT_STAT_SAFE true, by decide⟩,
    ⟨0, 0, ready , by decide⟩,
    ⟨0, 1, ready.setBit (F.FLT_SRC_STAT_WIRE_BAD 0) true , by decide⟩,
    ⟨ready , by decide⟩,
    ⟨ready.setBit F.FLT_STAT_GRACE_RUN true , by decide⟩,
    ⟨(ready.setBit F.FLT_STAT_GRACE_RUN true).setBit F.PWR_STAT_TRANSITION true , by decide⟩,
    ⟨ready , by decide⟩,
    ⟨(ready.setBit F.FLT_STAT_SAFE true).setBit F.FLT_STAT_GRACE_RUN true , by decide⟩,
    ⟨0, { ready with por := true } , by decide⟩,
    ⟨0, ready , by decide⟩,
    ⟨120000, ready, by decide⟩,
    ⟨130000, ready.fset F.PWR_STAT_STATE 3, by decide⟩,
    ⟨15, 130001, ready.fset F.PWR_STAT_STATE 3, by decide⟩,
    ⟨ready.fset F.PWR_STAT_STATE 4 , by decide⟩,
    ⟨0, { ready with por := true } , by decide⟩,
    ⟨0, ready , by decide⟩,
    ⟨ready , by decide⟩,
    ⟨{ ready with tap := { ready.tap with ir := TapInstr.factory } } , by decide⟩,
    ⟨State.fset { ready with tap := { ready.tap with ir := TapInstr.factory } } F.FLT_INJ_CODE 4096 , by decide⟩,
    ⟨State.fset { ready with tap := { ready.tap with ir := TapInstr.factory } } F.FLT_INJ_CYCLES 3 , by decide⟩,
    ⟨{ ready with tap := { ready.tap with ir := TapInstr.factory } }, by decide⟩⟩

theorem witness_PowerStates :
    (∃ (s : State), s.hostAway = true) ∧
    (∃ (s : State), s.hostAway = false ∧ s.power.flagAt ≠ some s.time.now ∧ s.bit F.PWR_STAT_TRANSITION = true) ∧
    (∃ (g : BitVec 3) (s : State), s.hostAway = false ∧ s.power.flagAt ≠ some s.time.now ∧ s.bit F.PWR_STAT_TRANSITION = false
      ∧ g.toNat = 0 ∧ s.fget F.PWR_STAT_STATE ≠ 0) ∧
    (∃ (g : BitVec 3) (s : State), s.hostAway = false ∧ s.power.flagAt ≠ some s.time.now ∧ s.bit F.PWR_STAT_TRANSITION = false
      ∧ (¬(g.toNat = 0 ∧ s.fget F.PWR_STAT_STATE ≠ 0)) ∧ (g.toNat = s.fget F.PWR_STAT_STATE ∨ 4 < g.toNat ∨ s.fget
      F.CFG_STAT_STATE ≠ 5 ∨ 1 ≤ s.fget F.CFG_PART_STAT_STATE ∧ s.fget F.CFG_PART_STAT_STATE ≤ 3 ∨ 2 ≤ g.toNat ∧ (s.fget
      F.SPL_STAT_STATE = 2 ∨ s.fget F.SPL_STAT_STATE = 3 ∨ s.fget F.SPL_STAT_STATE = 5) ∨ s.fget F.PWR_STAT_STATE = 2 ∧ g.toNat
      = 1 ∨ 3 ≤ s.fget F.PWR_STAT_STATE)) ∧
    (∃ (g : BitVec 3) (s : State), s.hostAway = false ∧ s.power.flagAt ≠ some s.time.now ∧ s.bit F.PWR_STAT_TRANSITION = false
      ∧ (¬(g.toNat = s.fget F.PWR_STAT_STATE ∨ 4 < g.toNat ∨ s.fget F.CFG_STAT_STATE ≠ 5 ∨ 1 ≤ s.fget F.CFG_PART_STAT_STATE ∧
      s.fget F.CFG_PART_STAT_STATE ≤ 3 ∨ 2 ≤ g.toNat ∧ (s.fget F.SPL_STAT_STATE = 2 ∨ s.fget F.SPL_STAT_STATE = 3 ∨ s.fget
      F.SPL_STAT_STATE = 5) ∨ s.fget F.PWR_STAT_STATE = 2 ∧ g.toNat = 1 ∨ 3 ≤ s.fget F.PWR_STAT_STATE)) ∧ (¬(g.toNat = 0 ∧
      s.fget F.PWR_STAT_STATE ≠ 0))) ∧
    (∃ (s : State), s.hostAway = false ∧ s.power.flagAt = some s.time.now ∧ s.flagYields.bit F.PWR_STAT_TRANSITION = true) ∧
    (∃ (g : BitVec 3) (s : State), s.hostAway = false ∧ s.power.flagAt = some s.time.now ∧ s.flagYields.bit
      F.PWR_STAT_TRANSITION = false ∧ g.toNat = 0 ∧ s.flagYields.fget F.PWR_STAT_STATE ≠ 0) ∧
    (∃ (g : BitVec 3) (s : State), s.hostAway = false ∧ s.power.flagAt = some s.time.now ∧ s.flagYields.bit
      F.PWR_STAT_TRANSITION = false ∧ (¬(g.toNat = 0 ∧ s.flagYields.fget F.PWR_STAT_STATE ≠ 0)) ∧ (g.toNat = s.flagYields.fget
      F.PWR_STAT_STATE ∨ 4 < g.toNat ∨ s.flagYields.fget F.CFG_STAT_STATE ≠ 5 ∨ 1 ≤ s.flagYields.fget F.CFG_PART_STAT_STATE ∧
      s.flagYields.fget F.CFG_PART_STAT_STATE ≤ 3 ∨ 2 ≤ g.toNat ∧ (s.flagYields.fget F.SPL_STAT_STATE = 2 ∨ s.flagYields.fget
      F.SPL_STAT_STATE = 3 ∨ s.flagYields.fget F.SPL_STAT_STATE = 5) ∨ s.flagYields.fget F.PWR_STAT_STATE = 2 ∧ g.toNat = 1 ∨ 3
      ≤ s.flagYields.fget F.PWR_STAT_STATE)) ∧
    (∃ (g : BitVec 3) (s : State), s.hostAway = false ∧ s.power.flagAt = some s.time.now ∧ s.flagYields.bit
      F.PWR_STAT_TRANSITION = false ∧ (¬(g.toNat = s.flagYields.fget F.PWR_STAT_STATE ∨ 4 < g.toNat ∨ s.flagYields.fget
      F.CFG_STAT_STATE ≠ 5 ∨ 1 ≤ s.flagYields.fget F.CFG_PART_STAT_STATE ∧ s.flagYields.fget F.CFG_PART_STAT_STATE ≤ 3 ∨ 2 ≤
      g.toNat ∧ (s.flagYields.fget F.SPL_STAT_STATE = 2 ∨ s.flagYields.fget F.SPL_STAT_STATE = 3 ∨ s.flagYields.fget
      F.SPL_STAT_STATE = 5) ∨ s.flagYields.fget F.PWR_STAT_STATE = 2 ∧ g.toNat = 1 ∨ 3 ≤ s.flagYields.fget F.PWR_STAT_STATE)) ∧
      (¬(g.toNat = 0 ∧ s.flagYields.fget F.PWR_STAT_STATE ≠ 0))) ∧
    (∃ (s : State), s.hostAway = false ∧ s.power.flagAt = some s.time.now ∧ s.power.entering = true) ∧
    (∃ (f : BitVec 3) (s : State), (¬(s.bit F.PWR_TRIG_EN = true ∧ s.fget F.PWR_TRIG_SEL = f.toNat ∧ s.fget F.PWR_STAT_STATE <
      2))) ∧
    (∃ (f : BitVec 3) (s : State), s.bit F.PWR_TRIG_EN = true ∧ s.fget F.PWR_TRIG_SEL = f.toNat ∧ s.fget F.PWR_STAT_STATE < 2 ∧
      s.power.goAt = some s.time.now) ∧
    (∃ (f : BitVec 3) (s : State), s.bit F.PWR_TRIG_EN = true ∧ s.fget F.PWR_TRIG_SEL = f.toNat ∧ s.fget F.PWR_STAT_STATE < 2 ∧
      s.power.goAt ≠ some s.time.now ∧ s.bit F.PWR_STAT_TRANSITION = true) ∧
    (∃ (f : BitVec 3) (s : State), s.bit F.PWR_TRIG_EN = true ∧ s.fget F.PWR_TRIG_SEL = f.toNat ∧ s.fget F.PWR_STAT_STATE < 2 ∧
      s.power.goAt ≠ some s.time.now ∧ s.bit F.PWR_STAT_TRANSITION = false ∧ (¬(s.fget F.PWR_TRIG_TARGET + 1 = 0 ∧ s.fget
      F.PWR_STAT_STATE ≠ 0)) ∧ (s.fget F.PWR_TRIG_TARGET + 1 = s.fget F.PWR_STAT_STATE ∨ 4 < s.fget F.PWR_TRIG_TARGET + 1 ∨
      s.fget F.CFG_STAT_STATE ≠ 5 ∨ 1 ≤ s.fget F.CFG_PART_STAT_STATE ∧ s.fget F.CFG_PART_STAT_STATE ≤ 3 ∨ 2 ≤ s.fget
      F.PWR_TRIG_TARGET + 1 ∧ (s.fget F.SPL_STAT_STATE = 2 ∨ s.fget F.SPL_STAT_STATE = 3 ∨ s.fget F.SPL_STAT_STATE = 5) ∨
      s.fget F.PWR_STAT_STATE = 2 ∧ s.fget F.PWR_TRIG_TARGET + 1 = 1 ∨ 3 ≤ s.fget F.PWR_STAT_STATE)) ∧
    (∃ (f : BitVec 3) (s : State), s.bit F.PWR_TRIG_EN = true ∧ s.fget F.PWR_TRIG_SEL = f.toNat ∧ s.fget F.PWR_STAT_STATE < 2 ∧
      s.power.goAt ≠ some s.time.now ∧ s.bit F.PWR_STAT_TRANSITION = false ∧ (¬(s.fget F.PWR_TRIG_TARGET + 1 = s.fget
      F.PWR_STAT_STATE ∨ 4 < s.fget F.PWR_TRIG_TARGET + 1 ∨ s.fget F.CFG_STAT_STATE ≠ 5 ∨ 1 ≤ s.fget F.CFG_PART_STAT_STATE ∧
      s.fget F.CFG_PART_STAT_STATE ≤ 3 ∨ 2 ≤ s.fget F.PWR_TRIG_TARGET + 1 ∧ (s.fget F.SPL_STAT_STATE = 2 ∨ s.fget
      F.SPL_STAT_STATE = 3 ∨ s.fget F.SPL_STAT_STATE = 5) ∨ s.fget F.PWR_STAT_STATE = 2 ∧ s.fget F.PWR_TRIG_TARGET + 1 = 1 ∨ 3
      ≤ s.fget F.PWR_STAT_STATE)) ∧ (¬(s.fget F.PWR_TRIG_TARGET + 1 = 0 ∧ s.fget F.PWR_STAT_STATE ≠ 0))) ∧
    (∃ (s : State), (s.power.entering = false ∨ s.core.phase ≠ Phase.slack ∨ s.power.target ≠ 1 ∧ s.fget F.PWR_STAT_STATE < 2 ∧
      s.power.stopped = false ∧ s.core.outComm ≠ [])) ∧
    (∃ (s : State), s.power.entering = true ∧ s.core.phase = Phase.slack ∧ s.power.held = none ∧ s.flt.deferred = [] ∧
      s.power.target = 1 ∧ s.power.wakes = 0) ∧
    (∃ (s : State), s.power.entering = true ∧ s.core.phase = Phase.slack ∧ s.power.held = none ∧ s.flt.deferred = [] ∧ 2 ≤
      s.power.target ∧ s.power.target ≤ 4 ∧ (¬s.fget F.PWR_STAT_STATE < 2) ∧ s.fget F.PWR_STAT_STATE = 2 ∧ s.power.target = 2 ∧
      s.power.wakes = 0) ∧
    (∃ (s : State), s.power.entering = true ∧ s.core.phase = Phase.slack ∧ s.power.held = none ∧ s.flt.deferred = [] ∧ 2 ≤
      s.power.target ∧ s.power.target ≤ 4 ∧ (¬s.fget F.PWR_STAT_STATE < 2) ∧ s.fget F.PWR_STAT_STATE = 2 ∧ s.power.target = 3 ∧
      s.power.wakes = 0) ∧
    (∃ (s : State), s.power.entering = true ∧ s.core.phase = Phase.slack ∧ s.power.held = none ∧ s.flt.deferred = [] ∧ 2 ≤
      s.power.target ∧ s.power.target ≤ 4 ∧ (¬s.fget F.PWR_STAT_STATE < 2) ∧ s.fget F.PWR_STAT_STATE = 2 ∧ s.power.target = 4 ∧
      s.power.wakes = 0) ∧
    (∃ (s : State), s.power.entering = true ∧ s.core.phase = Phase.slack ∧ s.power.held = none ∧ s.flt.deferred = [] ∧ 2 ≤
      s.power.target ∧ s.power.target ≤ 4 ∧ s.fget F.PWR_STAT_STATE < 2 ∧ (s.power.stopped = true ∨ s.core.outComm = []) ∧
      s.power.stopped = true ∧ ((∃ p, p ∈ s.act.units ∧ p.snd.ops ≠ []) ∨ s.ring.waits ≠ [] ∨ s.ring.resps ≠ [])) ∧
    (∃ (s : State), s.power.entering = true ∧ s.core.phase = Phase.slack ∧ s.power.held = none ∧ s.flt.deferred = [] ∧ 2 ≤
      s.power.target ∧ s.power.target ≤ 4 ∧ s.fget F.PWR_STAT_STATE < 2 ∧ (s.power.stopped = true ∨ s.core.outComm = []) ∧
      (s.power.stopped = true ∨ s.bit F.TRC_CTL_EN = false) ∧ (¬(fun s => (∃ p, p ∈ s.act.units ∧ p.snd.ops ≠ []) ∨
      s.ring.waits ≠ [] ∨ s.ring.resps ≠ []) s) ∧ s.power.target = 2 ∧ s.power.wakes = 0) ∧
    (∃ (s : State), s.power.entering = true ∧ s.core.phase = Phase.slack ∧ s.power.held = none ∧ s.flt.deferred = [] ∧ 2 ≤
      s.power.target ∧ s.power.target ≤ 4 ∧ s.fget F.PWR_STAT_STATE < 2 ∧ (s.power.stopped = true ∨ s.core.outComm = []) ∧
      (s.power.stopped = true ∨ s.bit F.TRC_CTL_EN = false) ∧ (¬(fun s => (∃ p, p ∈ s.act.units ∧ p.snd.ops ≠ []) ∨
      s.ring.waits ≠ [] ∨ s.ring.resps ≠ []) s) ∧ s.power.target = 2 ∧ s.power.stopped = false ∧ s.bit F.TURN_CFG_LOCK_SRC =
      true ∧ s.image.committed = true ∧ s.bit F.TURN_STAT_LOCK_WAIT = false) ∧
    (∃ (s : State), s.power.entering = true ∧ s.core.phase = Phase.slack ∧ s.power.held = none ∧ s.flt.deferred = [] ∧ 2 ≤
      s.power.target ∧ s.power.target ≤ 4 ∧ s.fget F.PWR_STAT_STATE < 2 ∧ (s.power.stopped = true ∨ s.core.outComm = []) ∧
      (s.power.stopped = true ∨ s.bit F.TRC_CTL_EN = false) ∧ (¬(fun s => (∃ p, p ∈ s.act.units ∧ p.snd.ops ≠ []) ∨
      s.ring.waits ≠ [] ∨ s.ring.resps ≠ []) s) ∧ s.power.target = 3 ∧ s.power.wakes = 0) ∧
    (∃ (s : State), s.power.entering = true ∧ s.core.phase = Phase.slack ∧ s.power.held = none ∧ s.flt.deferred = [] ∧ 2 ≤
      s.power.target ∧ s.power.target ≤ 4 ∧ s.fget F.PWR_STAT_STATE < 2 ∧ (s.power.stopped = true ∨ s.core.outComm = []) ∧
      (s.power.stopped = true ∨ s.bit F.TRC_CTL_EN = false) ∧ (¬(fun s => (∃ p, p ∈ s.act.units ∧ p.snd.ops ≠ []) ∨
      s.ring.waits ≠ [] ∨ s.ring.resps ≠ []) s) ∧ s.power.target = 4 ∧ s.power.wakes = 0) ∧
    (∃ (src : BitVec 2) (s : State), (s.wakeSeen src.toNat = false ∨ (s.fget F.PWR_WAKE_EN_EN).testBit src.toNat = false ∨
      s.fget F.PWR_STAT_STATE ≠ 4 ∧ s.power.entering = false ∧ (s.power.exiting = true ∨ s.fget F.PWR_STAT_STATE = 0) ∧
      ¬(s.power.exiting = true ∧ s.power.exitAt = (s.time.now, s.reg R.HST_ALIVE) ∧ src.toNat < s.fget F.PWR_STAT_LAST_WAKE) ∨
      s.fget F.PWR_STAT_STATE = 4 ∧ src ≠ 2)) ∧
    (∃ (src : BitVec 2) (s : State), s.wakeSeen src.toNat = true ∧ (s.fget F.PWR_WAKE_EN_EN).testBit src.toNat = true ∧ s.fget
      F.PWR_STAT_STATE ≠ 4 ∧ s.power.entering = true) ∧
    (∃ (src : BitVec 2) (s : State), s.wakeSeen src.toNat = true ∧ (s.fget F.PWR_WAKE_EN_EN).testBit src.toNat = true ∧ s.fget
      F.PWR_STAT_STATE ≠ 4 ∧ s.power.entering = false ∧ s.power.exiting = true ∧ s.power.exitAt = (s.time.now, s.reg
      R.HST_ALIVE) ∧ src.toNat < s.fget F.PWR_STAT_LAST_WAKE) ∧
    (∃ (src : BitVec 2) (s : State), s.wakeSeen src.toNat = true ∧ (s.fget F.PWR_WAKE_EN_EN).testBit src.toNat = true ∧ 1 ≤
      s.fget F.PWR_STAT_STATE ∧ s.fget F.PWR_STAT_STATE ≤ 3 ∧ s.power.entering = false ∧ s.power.exiting = false) ∧
    (∃ (src : BitVec 2) (s : State), s.wakeSeen src.toNat = true ∧ (s.fget F.PWR_WAKE_EN_EN).testBit src.toNat = true ∧ s.fget
      F.PWR_STAT_STATE = 4 ∧ src = 2) ∧
    (∃ (s : State), (s.power.exiting = false ∨ s.fget F.PWR_STAT_STATE = 3 ∧ s.power.reloaded = false)) ∧
    (∃ (s : State), s.power.exiting = true ∧ s.power.held = none ∧ s.flt.deferred = [] ∧ (s.fget F.PWR_STAT_STATE ≠ 3 ∨
      s.power.reloaded = true) ∧ s.fget F.PWR_STAT_STATE < 2) ∧
    (∃ (s : State), s.power.exiting = true ∧ s.power.held = none ∧ s.flt.deferred = [] ∧ (s.fget F.PWR_STAT_STATE ≠ 3 ∨
      s.power.reloaded = true) ∧ 2 ≤ s.fget F.PWR_STAT_STATE) ∧
    (∃ (s : State), (¬(s.power.exiting = true ∧ s.fget F.PWR_STAT_STATE = 3 ∧ s.power.reloaded = false))) ∧
    (∃ (h : CastHdr) (l : List Bytes) (s : State) (c : Nat) (i : Nat), s.power.exiting = true ∧ s.fget F.PWR_STAT_STATE = 3 ∧
      s.power.reloaded = false ∧ s.reloadRefusal h l = some (c, i)) :=
  ⟨⟨{ ready with por := true }, by decide⟩,
    ⟨ready.setBit F.PWR_STAT_TRANSITION true , by decide⟩,
    ⟨0, ready.fset F.PWR_STAT_STATE 1 , by decide⟩,
    ⟨0, ready , by decide⟩,
    ⟨1, ready , by decide⟩,
    ⟨{ ready.setBit F.PWR_STAT_TRANSITION true with power := { flagAt := some ready.time.now } }, by decide⟩,
    ⟨0, { ready.fset F.PWR_STAT_STATE 1 with power := { flagAt := some ready.time.now } }, by decide⟩,
    ⟨0, { ready with power := { ready.power with flagAt := some ready.time.now } } , by decide⟩,
    ⟨1, { ready with power := { ready.power with flagAt := some ready.time.now } } , by decide⟩,
    ⟨{ ready with power := { flagAt := some ready.time.now, entering := true } }, by decide⟩,
    ⟨0, ready , by decide⟩,
    ⟨0,
      { ready.setBit F.PWR_TRIG_EN true with power := { (ready.setBit F.PWR_TRIG_EN true).power with goAt := some (ready.setBit F.PWR_TRIG_EN true).time.now } }
      , by decide⟩,
    ⟨0, (ready.setBit F.PWR_TRIG_EN true).setBit F.PWR_STAT_TRANSITION true , by decide⟩,
    ⟨0, (ready.setBit F.PWR_TRIG_EN true).fset F.CFG_STAT_STATE 0 , by decide⟩,
    ⟨0, ready.setBit F.PWR_TRIG_EN true , by decide⟩,
    ⟨ready , by decide⟩,
    ⟨{ ready with power := { entering := true, target := 1 } }, by decide⟩,
    ⟨{ State.fset { ready with power := { ready.power with entering := true } } F.PWR_STAT_STATE 2 with power := { (State.fset { ready with power := { ready.power with entering := true } } F.PWR_STAT_STATE 2).power with target := 2 } }
      , by decide⟩,
    ⟨{ State.fset { ready with power := { ready.power with entering := true } } F.PWR_STAT_STATE 2 with power := { (State.fset { ready with power := { ready.power with entering := true } } F.PWR_STAT_STATE 2).power with target := 3 } }
      , by decide⟩,
    ⟨{ State.fset { ready with power := { ready.power with entering := true } } F.PWR_STAT_STATE 2 with power := { (State.fset { ready with power := { ready.power with entering := true } } F.PWR_STAT_STATE 2).power with target := 4 } }
      , by decide⟩,
    ⟨{ withResp (resp true 0 (pkt 0)) with power := { entering := true, target := 2, stopped := true } }, by decide⟩,
    ⟨{ ready with power := { entering := true, target := 2 } }, by decide⟩,
    ⟨{ ready.setBit F.TURN_CFG_LOCK_SRC true with power := { entering := true, target := 2 } }, by decide⟩,
    ⟨{ ready with power := { entering := true, target := 3 } }, by decide⟩,
    ⟨{ ready with power := { entering := true, target := 4 } }, by decide⟩,
    ⟨0, ready , by decide⟩,
    ⟨3, { ready with power := { ready.power with entering := true } } , by decide⟩,
    ⟨3, { ready with power := { ready.power with exiting := true } } , by decide⟩,
    ⟨3, ready.fset F.PWR_STAT_STATE 1 , by decide⟩,
    ⟨2, { (ready.fset F.PWR_STAT_STATE 4).fset F.PWR_WAKE_EN_EN 4 with pinIn := [(193, true)] }, by decide⟩,
    ⟨ready , by decide⟩,
    ⟨{ ready with power := { ready.power with exiting := true } } , by decide⟩,
    ⟨State.fset { ready with power := { ready.power with exiting := true } } F.PWR_STAT_STATE 2 , by decide⟩,
    ⟨ready , by decide⟩,
    ⟨{}, [], { ready.fset F.PWR_STAT_STATE 3 with power := { exiting := true } }, 1, 255, by decide +kernel⟩⟩

theorem witness_PowerDomains :
    (∃ (s : State) (d : Nat), s.domainHere d = true ∧ s.domainOutside d = false) ∧
    (∃ (d : BitVec 7) (s : State), s.hostRuns (R.PWR_DOM d.toNat) = true ∧ s.domainHere d.toNat = false) ∧
    (∃ (d : BitVec 7) (s : State), s.hostRuns (R.PWR_DOM d.toNat) = true ∧ s.domainHere d.toNat = true ∧ s.bit
      (F.PWR_DOM_SHUTTING d.toNat) = true) ∧
    (∃ (d : BitVec 7) (s : State), s.hostRuns (R.PWR_DOM d.toNat) = true ∧ s.domainHere d.toNat = true ∧ s.bit
      (F.PWR_DOM_SHUTTING d.toNat) = false ∧ (s.bit (F.PWR_DOM_EN d.toNat) = false ∨ s.gateable d.toNat = false)) ∧
    (∃ (d : BitVec 7) (s : State), s.hostRuns (R.PWR_DOM d.toNat) = true ∧ s.domainHere d.toNat = true ∧ s.bit
      (F.PWR_DOM_SHUTTING d.toNat) = false ∧ s.bit (F.PWR_DOM_EN d.toNat) = true ∧ s.gateable d.toNat = true) ∧
    (∃ (d : BitVec 7) (s : State), s.hostRuns (R.PWR_DOM d.toNat) = true ∧ s.domainHere d.toNat = true ∧ s.bit
      (F.PWR_DOM_SHUTTING d.toNat) = false ∧ s.bit (F.PWR_DOM_EN d.toNat) = false) ∧
    (∃ (d : BitVec 7) (s : State), (s.bit (F.PWR_DOM_SHUTTING d.toNat) = false ∨ s.domainOwed d.toNat = true)) ∧
    (∃ (d : BitVec 7) (s : State), s.bit (F.PWR_DOM_SHUTTING d.toNat) = true ∧ s.domainOwed d.toNat = false ∧ d.toNat < 86 ∧
      s.bit (F.PWR_DOM_PENDING_ENABLE d.toNat) = true) ∧
    (∃ (d : BitVec 7) (s : State), s.bit (F.PWR_DOM_SHUTTING d.toNat) = true ∧ s.domainOwed d.toNat = false ∧ d.toNat < 86 ∧
      s.bit (F.PWR_DOM_PENDING_ENABLE d.toNat) = false) ∧
    (∃ (d : BitVec 7) (s : State), s.bit (F.PWR_DOM_SHUTTING d.toNat) = true ∧ s.domainOwed d.toNat = false ∧ d.toNat < 86 ∧
      d.toNat ≠ 10 ∧ d.toNat ≠ 11) ∧
    (∃ (d : BitVec 7) (s : State), (¬d.toNat ∈ s.power.powering)) ∧
    (∃ (d : BitVec 7) (s : State), d.toNat ∈ s.power.powering) :=
  ⟨⟨ready, 0 , by decide⟩,
    ⟨127, ready , by decide⟩,
    ⟨0, ready.setBit (F.PWR_DOM_SHUTTING 0) true , by decide⟩,
    ⟨0, ready , by decide⟩,
    ⟨5, ready , by decide⟩,
    ⟨0, ready.setBit (F.PWR_DOM_EN 0) false , by decide⟩,
    ⟨0, ready , by decide⟩,
    ⟨0, (ready.setBit (F.PWR_DOM_SHUTTING 0) true).setBit (F.PWR_DOM_PENDING_ENABLE 0) true , by decide⟩,
    ⟨0, ready.setBit (F.PWR_DOM_SHUTTING 0) true , by decide⟩,
    ⟨0, ready.setBit (F.PWR_DOM_SHUTTING 0) true , by decide⟩,
    ⟨0, ready , by decide⟩,
    ⟨85, { ready with power := { ready.power with powering := [85] } }, by decide⟩⟩

theorem witness_TraceTests :
    (∃ (s : State) (q : QueuedRec), s.trace.queue = [q] ∧ s.trace.lost = 0 ∧ s.bit F.TRC_STAT_ACTIVE = false ∧ s.reg
      R.TRC_STOP_SEL = 0 ∧ s.traceDue = true) ∧
    (∃ (s : State) (p : Packet) (r : Response) (rest : List Response), takeResponse true p s.ring.resps = some (r, rest) ∧
      s.answerOpen r = true ∧ s.traceAdmits (TraceRec.txn true 8 r.p r.p.dstStn.toNat) = true ∧ s.bit F.TRC_STAT_FULL = false ∧
      s.trace.queue.length < 100 ∧ (∀ (n : Nat), n < 64 → s.bit (F.NOC_PRB_CTL_EN n) = false)) :=
  ⟨⟨traced ready, ⟨aRec, 0⟩, by decide⟩,
    ⟨{ ((ready.setBit F.TRC_CTL_EN true).fset ⟨R.TRC_MSTR 0, 0, 32⟩ 0x10000) with ring := { resps := [resp true 0 (pkt 0x04000000)] }, trace := { queue := List.replicate 99 ⟨aRec, 0⟩ } },
      { pkt 0x04000000 with dstId := 0x10 }, resp true 0 (pkt 0x04000000), [], by decide⟩⟩

theorem witness_TraceUnit :
    (∃ (r : TraceRec) (s : State),
      (¬(s.bit F.TRC_CTL_EN = true ∧ s.bit F.TRC_STAT_SHUTTING = false ∧ s.fget F.PWR_STAT_STATE < 2 ∧ (match r with | TraceRec.txn resp op p src => have m := BitVec.toNat (if resp = true then p.dstId else p.src); decide (m < 128) && s.selBit R.TRC_MSTR m | TraceRec.port cmd c q mode step addr be turn data => s.bit F.TRC_CTL_DMP && s.selBit R.TRC_DMP_CORD c.toNat | x => s.bit F.TRC_CTL_PROBE) = true))) ∧
    (∃ (r : TraceRec) (s : State), s.bit F.TRC_CTL_EN = true ∧ s.bit F.TRC_STAT_SHUTTING = false ∧ s.fget F.PWR_STAT_STATE < 2
      ∧
      ((match r with | TraceRec.txn resp op p src => have m := BitVec.toNat (if resp = true then p.dstId else p.src); decide (m < 128) && s.selBit R.TRC_MSTR m | TraceRec.port cmd c q mode step addr be turn data => s.bit F.TRC_CTL_DMP && s.selBit R.TRC_DMP_CORD c.toNat | x => s.bit F.TRC_CTL_PROBE) = true)
      ∧ s.bit F.TRC_STAT_FULL = true) ∧
    (∃ (r : TraceRec) (s : State), s.bit F.TRC_CTL_EN = true ∧ s.bit F.TRC_STAT_SHUTTING = false ∧ s.fget F.PWR_STAT_STATE < 2
      ∧
      ((match r with | TraceRec.txn resp op p src => have m := BitVec.toNat (if resp = true then p.dstId else p.src); decide (m < 128) && s.selBit R.TRC_MSTR m | TraceRec.port cmd c q mode step addr be turn data => s.bit F.TRC_CTL_DMP && s.selBit R.TRC_DMP_CORD c.toNat | x => s.bit F.TRC_CTL_PROBE) = true)
      ∧ s.bit F.TRC_STAT_FULL = false ∧ s.trace.queue.length < 256) ∧
    (∃ (r : TraceRec) (s : State), s.bit F.TRC_CTL_EN = true ∧ s.bit F.TRC_STAT_SHUTTING = false ∧ s.fget F.PWR_STAT_STATE < 2
      ∧
      ((match r with | TraceRec.txn resp op p src => have m := BitVec.toNat (if resp = true then p.dstId else p.src); decide (m < 128) && s.selBit R.TRC_MSTR m | TraceRec.port cmd c q mode step addr be turn data => s.bit F.TRC_CTL_DMP && s.selBit R.TRC_DMP_CORD c.toNat | x => s.bit F.TRC_CTL_PROBE) = true)
      ∧ s.bit F.TRC_STAT_FULL = false ∧ 256 ≤ s.trace.queue.length) ∧
    (∃ (s : State), s.traceDue = false) ∧
    (∃ (s : State), s.traceDue = true) ∧
    (∃ (s : State) (q : QueuedRec), s.trace.queue = [q] ∧ s.trace.lost = 0 ∧ s.reg R.TRC_STOP_SEL = 0 ∧ q.stamp + 33554432 ≤
      s.time.now ∧ s.bit F.TRC_STAT_ACTIVE = false ∧ s.reg R.TRC_START_SEL = 0) ∧
    (∃ (s : State) (q : QueuedRec), s.trace.queue = [q] ∧ s.trace.lost = 0 ∧ s.reg R.TRC_STOP_SEL = 0 ∧ q.stamp + 33554432 ≤
      s.time.now ∧ s.bit F.TRC_STAT_ACTIVE = true ∧ s.reg R.TRC_QUAL_SEL = 0 ∧ s.bit F.TRC_STAT_FULL = true) ∧
    (∃ (s : State) (q : QueuedRec), s.trace.queue = [q] ∧ s.trace.lost = 0 ∧ s.reg R.TRC_STOP_SEL = 0 ∧ q.stamp + 33554432 ≤
      s.time.now ∧ s.bit F.TRC_STAT_ACTIVE = true ∧ s.reg R.TRC_QUAL_SEL = 0 ∧ s.bit F.TRC_STAT_FULL = false ∧ s.trace.owed = 0
      ∧ s.trace.sinceSync < 4096 ∧ q.stamp ≤ s.trace.lastSync + 65536000 ∧ (s.fget F.TRC_WPTR_WPTR + List.length s.trace.line)
      % 4096 ≠ 0 ∧ (s.fget F.TRC_WPTR_WPTR + List.length s.trace.line) % 4096 + List.length (recPacket (s.bit F.TRC_CTL_DATA) 0
      q.item) ≤ 4096 ∧ List.length s.trace.line + List.length (recPacket (s.bit F.TRC_CTL_DATA) 0 q.item) < 64 ∧ (s.bit
      F.TRC_CTL_PORT_EN = false ∨ s.debugClosed = true ∨ s.portFree ≤ s.time.now)) ∧
    (∃ (s : State) (q : QueuedRec), s.trace.queue = [q] ∧ s.trace.lost = 0 ∧ s.reg R.TRC_STOP_SEL = 0 ∧ q.stamp + 33554432 ≤
      s.time.now ∧ s.bit F.TRC_STAT_ACTIVE = true ∧ s.reg R.TRC_QUAL_SEL = 0 ∧ s.bit F.TRC_STAT_FULL = false ∧ s.trace.owed = 1
      ∧ (s.fget F.TRC_WPTR_WPTR + List.length s.trace.line) % 4096 + 32 + List.length (recPacket (s.bit F.TRC_CTL_DATA) 0
      q.item) ≤ 4096 ∧ List.length s.trace.line + 32 + List.length (recPacket (s.bit F.TRC_CTL_DATA) 0 q.item) < 64) ∧
    (∃ (s : State), s.hostRuns R.TRC_CTL = true ∧ s.bit F.TRC_CTL_EN = true) ∧
    (∃ (s : State), s.hostRuns R.TRC_CTL = true ∧ s.bit F.TRC_CTL_EN = false ∧ s.bit F.TRC_STAT_SHUTTING = true) ∧
    (∃ (s : State), s.hostRuns R.TRC_CTL = true ∧ s.bit F.TRC_CTL_EN = false ∧ s.bit F.TRC_STAT_SHUTTING = false ∧ s.bufOk =
      false) ∧
    (∃ (s : State), s.hostRuns R.TRC_CTL = true ∧ s.bit F.TRC_CTL_EN = false ∧ s.bit F.TRC_STAT_SHUTTING = false ∧ s.bufOk =
      true) ∧
    (∃ (s : State), s.hostRuns R.TRC_CTL = true ∧ (s.bit F.TRC_STAT_SHUTTING = true ∨ s.trace.line = [])) ∧
    (∃ (s : State) (c : Instr), (c = Instr.traceFlush ∧ s.hostRuns R.TRC_CTL = true ∧ s.bit F.TRC_STAT_SHUTTING = false ∨ c =
      Instr.traceIdleFlush ∧ s.traceQuiet = true) ∧ s.trace.line = []) ∧
    (∃ (s : State) (c : Instr), (c = Instr.traceFlush ∧ s.hostRuns R.TRC_CTL = true ∧ s.bit F.TRC_STAT_SHUTTING = false ∨ c =
      Instr.traceIdleFlush ∧ s.traceQuiet = true) ∧ s.trace.line ≠ [] ∧ List.length s.trace.line < 64 ∧ s.fget F.TRC_WPTR_WPTR
      % 64 = 0 ∧ s.fget F.TRC_WPTR_WPTR + 64 < s.fget F.TRC_SIZE_SIZE ∧ s.bit F.TRC_CTL_BUF = false ∧ s.inScratch (s.wget
      W.TRC_BASE_BASE + s.fget F.TRC_WPTR_WPTR) = true ∧ s.bankAnswer (bankOf (s.wget W.TRC_BASE_BASE + s.fget
      F.TRC_WPTR_WPTR)) 112 = BankAnswer.granted) ∧
    (∃ (s : State), s.time.now < s.trace.lastPkt + 655360000) ∧
    (∃ (s : State), s.bit F.TRC_STAT_SHUTTING = true ∧ s.bit F.TRC_STAT_PENDING_ENABLE = false) ∧
    (∃ (s : State), s.bit F.TRC_STAT_SHUTTING = true ∧ s.bit F.TRC_STAT_PENDING_ENABLE = true ∧ s.bufOk = false) :=
  ⟨⟨aRec, ready, by decide⟩,
    ⟨aRec, ((ready.setBit F.TRC_CTL_EN true).setBit F.TRC_CTL_PROBE true).setBit F.TRC_STAT_FULL true, by decide⟩,
    ⟨aRec,
      { ((ready.setBit F.TRC_CTL_EN true).setBit F.TRC_CTL_PROBE true) with trace := { queue := List.replicate 255 ⟨aRec, 0⟩ } },
      by decide⟩,
    ⟨aRec,
      { ((ready.setBit F.TRC_CTL_EN true).setBit F.TRC_CTL_PROBE true) with trace := { queue := List.replicate 256 ⟨aRec, 0⟩ } },
      by decide +kernel⟩,
    ⟨ready , by decide⟩,
    ⟨traced ready, by decide⟩,
    ⟨traced ready, ⟨aRec, 0⟩, by decide⟩,
    ⟨traced ((ready.setBit F.TRC_STAT_ACTIVE true).setBit F.TRC_STAT_FULL true), ⟨aRec, 0⟩, by decide⟩,
    ⟨{ traced (ready.setBit F.TRC_STAT_ACTIVE true) with trace := { queue := [⟨aRec, 0⟩], line := [0] } }, ⟨aRec, 0⟩,
      by decide⟩,
    ⟨{ traced (ready.setBit F.TRC_STAT_ACTIVE true) with trace := { queue := [⟨aRec, 0⟩], owed := 1 } }, ⟨aRec, 0⟩, by decide⟩,
    ⟨ready.setBit F.TRC_CTL_EN true, by decide⟩,
    ⟨ready.setBit F.TRC_STAT_SHUTTING true , by decide⟩,
    ⟨ready , by decide⟩,
    ⟨((ready.wset W.TRC_BASE_BASE 0x04000000).fset (F.BNK_OWN_OWNER 0) 0x70).fset F.TRC_SIZE_SIZE 4096, by decide⟩,
    ⟨ready , by decide⟩,
    ⟨ready, .traceFlush, by decide⟩,
    ⟨{ ((ready.wset W.TRC_BASE_BASE 0x04000000).fset (F.BNK_OWN_OWNER 0) 0x70).fset F.TRC_SIZE_SIZE 65 with trace := { line := [0] } },
      .traceFlush, by decide⟩,
    ⟨ready , by decide⟩,
    ⟨ready.setBit F.TRC_STAT_SHUTTING true , by decide⟩,
    ⟨(ready.setBit F.TRC_STAT_SHUTTING true).setBit F.TRC_STAT_PENDING_ENABLE true, by decide⟩⟩

theorem witness_Registers :
    (∃ (m : MasterId) (a : W32) (s : State), a.toNat % 4 = 0 ∧ (m = 0 ∧ s.hostRuns a.toNat = true ∨ (fun m a s => m ≠ 0 ∧
      masterOk m = true ∧ s.inReset = false ∧ s.observed = false ∧ s.blockAbsent a = false ∧ s.blockOn a = true) m a.toNat s) ∧
      (groupAt a.toNat).fst % 4 = 0 ∧ groupAt a.toNat = (a.toNat, 1) ∧ s.plainWrite a.toNat = true ∧ groupWritable a.toNat 1 =
      true) ∧
    (∃ (m : MasterId) (a : W32) (s : State), a.toNat % 4 = 0 ∧ (m = 0 ∧ s.hostRuns a.toNat = true ∨ (fun m a s => m ≠ 0 ∧
      masterOk m = true ∧ s.inReset = false ∧ s.observed = false ∧ s.blockAbsent a = false ∧ s.blockOn a = true) m a.toNat s) ∧
      (groupAt a.toNat).fst % 4 = 0 ∧ groupWritable (groupAt a.toNat).fst (groupAt a.toNat).snd = false) ∧
    (∃ (m : MasterId) (a : W32) (s : State) (base : Nat) (n : Nat), a.toNat % 4 = 0 ∧ (m = 0 ∧ s.hostRuns a.toNat = true ∨ (fun
      m a s => m ≠ 0 ∧ masterOk m = true ∧ s.inReset = false ∧ s.observed = false ∧ s.blockAbsent a = false ∧ s.blockOn a =
      true) m a.toNat s) ∧ (groupAt a.toNat).fst % 4 = 0 ∧ groupAt a.toNat = (base, n) ∧ 2 ≤ n ∧ s.plainWrite base = true ∧
      groupWritable base n = true ∧ a.toNat + 4 < base + 4 * n) ∧
    (∃ (m : MasterId) (a : W32) (v : W32) (s : State) (base : Nat) (n : Nat) (w : Nat → W32), a.toNat % 4 = 0 ∧ (m = 0 ∧
      s.hostRuns a.toNat = true ∨ (fun m a s => m ≠ 0 ∧ masterOk m = true ∧ s.inReset = false ∧ s.observed = false ∧
      s.blockAbsent a = false ∧ s.blockOn a = true) m a.toNat s) ∧ (groupAt a.toNat).fst % 4 = 0 ∧ groupAt a.toNat = (base, n)
      ∧ 2 ≤ n ∧ s.plainWrite base = true ∧ groupWritable base n = true ∧ a.toNat + 4 = base + 4 * n ∧ w (n - 1) = v ∧ (∀ (i :
      Nat), i + 1 < n → SMap.find s.staged (base + 4 * i) = some (w i))) ∧
    (∃ (m : MasterId) (a : W32) (s : State), a.toNat % 4 = 0 ∧ (m = 0 ∧ s.hostReads a.toNat = true ∨ (fun m a s => m ≠ 0 ∧
      masterOk m = true ∧ s.inReset = false ∧ s.observed = false ∧ s.blockAbsent a = false ∧ s.blockOn a = true) m a.toNat s) ∧
      plainRead a.toNat = true ∧ (readGroup a.toNat).fst = a.toNat) ∧
    (∃ (m : MasterId) (s : State), masterOk m = false) ∧
    (∃ (n : Nat) (b : BitVec 3) (s : State), n < 64 ∧ s.hostRuns (R.TRG_CNT_CMP n) = true ∧ b ≠ 4) ∧
    (∃ (n : Nat) (s : State) (k : Nat), n < 64 ∧ s.hostRuns (R.TRG_CNT_CMP n) = true ∧ k < 4) ∧
    (∃ (n : Nat) (s : State) (m : MasterId), n < 64 ∧ m ≠ 0 ∧ masterOk m = true ∧ s.inReset = true) ∧
    (∃ (n : Nat) (s : State) (m : MasterId), n < 64 ∧ m ≠ 0 ∧ masterOk m = true ∧ s.inReset = false ∧ s.observed = false ∧
      s.bit (F.PWR_DOM_ON 0) = true) ∧
    (∃ (n : Nat) (s : State), n < 64 ∧ s.hostAway = false ∧ s.reg R.HST_LINK ≠ 0 ∧ s.asleep = true ∧ (s.fget
      F.PWR_WAKE_EN_EN).testBit 3 = false) ∧
    (∃ (n : Nat) (v : W32) (s : State), n < 64 ∧ s.hostRuns (R.NOC_PRB_ALO n) = true ∧ SMap.find s.staged (R.NOC_PRB_ALO n) =
      some v) ∧
    (∃ (n : Nat) (w : W32) (s : State), n < 64 ∧ s.hostRuns (R.NOC_PRB_ALO n) = true ∧ SMap.find s.snap (R.NOC_PRB_ALO n + 4) =
      some w) ∧
    (∃ (s : State), s.hostRuns R.HST_POLL = true) ∧
    (∃ (s : State), s.hostRuns R.PWR_STAT = true) ∧
    (∃ (s : State), s.hostAway = false ∧ s.hostFree (HostReq.read R.PWR_ASLEEP_ACC 4) = true) ∧
    (∃ (s : State), s.hostAway = true) ∧
    (∃ (m : MasterId) (a : W32) (s : State), m ≠ 0 ∧ masterOk m = true ∧ s.inReset = false ∧ s.observed = false ∧ s.blockAbsent
      (a.toNat / 4 * 4) = false ∧ s.blockOn a.toNat = false) :=
  ⟨⟨0, BitVec.ofNat 32 (R.TRG_CNT_CMP 0), ready, ⟨by decide, .inl (by decide), by decide⟩⟩,
    ⟨0, 0, ready , by decide⟩,
    ⟨0, BitVec.ofNat 32 (R.NOC_PRB_ALO 0), ready, R.NOC_PRB_ALO 0, 2, ⟨by decide, .inl (by decide), by decide⟩⟩,
    ⟨0, BitVec.ofNat 32 (R.NOC_PRB_ALO 0 + 4), 0, { ready with staged := [(R.NOC_PRB_ALO 0, 0)] }, R.NOC_PRB_ALO 0, 2, fun _ =>
      0,
      ⟨by decide, .inl (by decide), by decide, by decide, by decide, by decide, by decide, by decide, rfl, fun i h => by obtain rfl : i = 0 := (by omega); decide⟩⟩,
    ⟨0, 0, ready , by decide⟩,
    ⟨5, ready , by decide⟩,
    ⟨0, 0, ready , by decide⟩,
    ⟨0, ready, 0 , by decide⟩,
    ⟨0, { ready with por := true }, 1 , by decide⟩,
    ⟨0, ready, 1 , by decide⟩,
    ⟨63, (ready.fset F.PWR_STAT_STATE 2).fset F.PWR_WAKE_EN_EN 4, by decide⟩,
    ⟨0, 0, { ready with staged := SMap.put ready.staged (R.NOC_PRB_ALO 0) 0 } , by decide⟩,
    ⟨0, 0, { ready with snap := SMap.put ready.snap (R.NOC_PRB_ALO 0 + 4) 0 } , by decide⟩,
    ⟨ready , by decide⟩,
    ⟨ready , by decide⟩,
    ⟨ready , by decide⟩,
    ⟨{ ready with por := true }, by decide⟩,
    ⟨1, 0, ready.setBit (F.PWR_DOM_ON (blockDomain 0)) !true, by decide⟩⟩

theorem witness_DmaEngines :
    (∃ (e : BitVec 4) (v : W32) (s : State), s.hostRuns (R.DMA_TAIL e.toNat) = true ∧ v.toNat % 2 ^ 16 < 2 ^ s.fget
      (F.DMA_CTL_K e.toNat)) ∧
    (∃ (e : BitVec 4) (v : W32) (s : State), s.hostRuns (R.DMA_TAIL e.toNat) = true ∧ 2 ^ s.fget (F.DMA_CTL_K e.toNat) ≤
      v.toNat % 2 ^ 16) ∧
    (∃ (e : BitVec 4) (s : State), s.hostRuns (R.DMA_CTL e.toNat) = true ∧ s.bit (F.DMA_CTL_EN e.toNat) = false ∧ s.bit
      (F.DMA_STAT_SHUTTING e.toNat) = true) ∧
    (∃ (e : BitVec 4) (s : State), s.hostRuns (R.DMA_CTL e.toNat) = true ∧ s.bit (F.DMA_CTL_EN e.toNat) = false ∧ s.bit
      (F.DMA_STAT_SHUTTING e.toNat) = false) ∧
    (∃ (e : BitVec 4) (s : State), s.hostRuns (R.DMA_CTL e.toNat) = true ∧ s.bit (F.DMA_CTL_EN e.toNat) = true ∧ (s.bit
      (F.DMA_STAT_SHUTTING e.toNat) = true ∨ s.fget (F.DMA_HEAD_INDEX e.toNat) ≠ s.fget (F.DMA_TAIL_INDEX e.toNat))) ∧
    (∃ (e : BitVec 4) (s : State), s.hostRuns (R.DMA_CTL e.toNat) = true ∧ s.bit (F.DMA_CTL_EN e.toNat) = true ∧ (¬(s.bit
      (F.DMA_STAT_SHUTTING e.toNat) = true ∨ s.fget (F.DMA_HEAD_INDEX e.toNat) ≠ s.fget (F.DMA_TAIL_INDEX e.toNat)))) ∧
    (∃ (e : BitVec 4) (desc : Bytes) (s : State), (¬(s.hostAway = false ∧ s.asleep = false ∧ (s.bit (F.DMA_STAT_SHUTTING
      e.toNat) = true ∨ s.bit (F.DMA_CTL_EN e.toNat) = true ∧ s.fget (F.DMA_HEAD_INDEX e.toNat) ≠ s.fget (F.DMA_TAIL_INDEX
      e.toNat)) ∧ List.length desc = 32))) ∧
    (∃ (e : BitVec 4) (desc : Bytes) (s : State), s.hostAway = false ∧ s.asleep = false ∧ (s.bit (F.DMA_STAT_SHUTTING e.toNat)
      = true ∨ s.bit (F.DMA_CTL_EN e.toNat) = true ∧ s.fget (F.DMA_HEAD_INDEX e.toNat) ≠ s.fget (F.DMA_TAIL_INDEX e.toNat)) ∧
      List.length desc = 32 ∧ (num desc 0 8 % 64 ≠ 0 ∨ num desc 8 8 % 64 ≠ 0 ∨ num desc 16 4 % 64 ≠ 0 ∨ num desc 16 4 = 0 ∨ num
      desc 22 2 ≠ 0 ∨ s.dmaInside (num desc 0 8) (num desc 16 4) = false) ∧ s.bit (F.DMA_STAT_SHUTTING e.toNat) = false) ∧
    (∃ (e : BitVec 4) (desc : Bytes) (s : State), s.hostAway = false ∧ s.asleep = false ∧ (s.bit (F.DMA_STAT_SHUTTING e.toNat)
      = true ∨ s.bit (F.DMA_CTL_EN e.toNat) = true ∧ s.fget (F.DMA_HEAD_INDEX e.toNat) ≠ s.fget (F.DMA_TAIL_INDEX e.toNat)) ∧
      List.length desc = 32 ∧ (num desc 0 8 % 64 ≠ 0 ∨ num desc 8 8 % 64 ≠ 0 ∨ num desc 16 4 % 64 ≠ 0 ∨ num desc 16 4 = 0 ∨ num
      desc 22 2 ≠ 0 ∨ s.dmaInside (num desc 0 8) (num desc 16 4) = false) ∧ s.bit (F.DMA_STAT_SHUTTING e.toNat) = true) ∧
    (∃ (e : BitVec 4) (desc : Bytes) (s : State), s.hostAway = false ∧ s.asleep = false ∧ (s.bit (F.DMA_STAT_SHUTTING e.toNat)
      = true ∨ s.bit (F.DMA_CTL_EN e.toNat) = true ∧ s.fget (F.DMA_HEAD_INDEX e.toNat) ≠ s.fget (F.DMA_TAIL_INDEX e.toNat)) ∧
      List.length desc = 32 ∧ (¬(num desc 0 8 % 64 ≠ 0 ∨ num desc 8 8 % 64 ≠ 0 ∨ num desc 16 4 % 64 ≠ 0 ∨ num desc 16 4 = 0 ∨
      num desc 22 2 ≠ 0 ∨ s.dmaInside (num desc 0 8) (num desc 16 4) = false)) ∧ (∃ a, a ∈ dmaParts desc ∧ s.dmaAnswer a =
      BankAnswer.waits)) ∧
    (∃ (e : BitVec 4) (desc : Bytes) (s : State), s.hostAway = false ∧ s.asleep = false ∧ (s.bit (F.DMA_STAT_SHUTTING e.toNat)
      = true ∨ s.bit (F.DMA_CTL_EN e.toNat) = true ∧ s.fget (F.DMA_HEAD_INDEX e.toNat) ≠ s.fget (F.DMA_TAIL_INDEX e.toNat)) ∧
      List.length desc = 32 ∧ (¬(num desc 0 8 % 64 ≠ 0 ∨ num desc 8 8 % 64 ≠ 0 ∨ num desc 16 4 % 64 ≠ 0 ∨ num desc 16 4 = 0 ∨
      num desc 22 2 ≠ 0 ∨ s.dmaInside (num desc 0 8) (num desc 16 4) = false)) ∧ (∀ (a : Nat), a ∈ dmaParts desc → s.dmaAnswer
      a ≠ BankAnswer.waits) ∧ s.bit (F.DMA_STAT_SHUTTING e.toNat) = false) ∧
    (∃ (e : BitVec 4) (desc : Bytes) (s : State), s.hostAway = false ∧ s.asleep = false ∧ (s.bit (F.DMA_STAT_SHUTTING e.toNat)
      = true ∨ s.bit (F.DMA_CTL_EN e.toNat) = true ∧ s.fget (F.DMA_HEAD_INDEX e.toNat) ≠ s.fget (F.DMA_TAIL_INDEX e.toNat)) ∧
      List.length desc = 32 ∧ (¬(num desc 0 8 % 64 ≠ 0 ∨ num desc 8 8 % 64 ≠ 0 ∨ num desc 16 4 % 64 ≠ 0 ∨ num desc 16 4 = 0 ∨
      num desc 22 2 ≠ 0 ∨ s.dmaInside (num desc 0 8) (num desc 16 4) = false)) ∧ (∀ (a : Nat), a ∈ dmaParts desc → s.dmaAnswer
      a ≠ BankAnswer.waits) ∧ s.bit (F.DMA_STAT_SHUTTING e.toNat) = true) :=
  ⟨⟨0, 0, ready , by decide⟩,
    ⟨0, 0xFFFF, ready, by decide⟩,
    ⟨0, ready.setBit (F.DMA_STAT_SHUTTING 0) true , by decide⟩,
    ⟨0, ready , by decide⟩,
    ⟨0, (ready.setBit (F.DMA_CTL_EN 0) true).setBit (F.DMA_STAT_SHUTTING 0) true , by decide⟩,
    ⟨0, ready.setBit (F.DMA_CTL_EN 0) true , by decide⟩,
    ⟨0, [], ready , by decide⟩,
    ⟨0, List.replicate 32 0, ((ready.setBit (F.DMA_CTL_EN 0) true).fset (F.DMA_TAIL_INDEX 0) 1), by decide⟩,
    ⟨0, List.replicate 32 0, ((ready.setBit (F.DMA_STAT_SHUTTING 0) true).fset (F.DMA_TAIL_INDEX 0) 1), by decide⟩,
    ⟨0, aDescriptor,
      { ((ready.setBit (F.DMA_CTL_EN 0) true).fset (F.DMA_TAIL_INDEX 0) 1).fset (F.BNK_STAT_STATE 0) 1 with ring := { nextOwner := [(0, 0, false)] } },
      ⟨by decide, by decide, by decide, by decide, by decide, 0x04000000, by decide, by decide⟩⟩,
    ⟨0, aDescriptor, ((ready.setBit (F.DMA_CTL_EN 0) true).fset (F.DMA_TAIL_INDEX 0) 1), by decide⟩,
    ⟨0, aDescriptor, ((ready.setBit (F.DMA_STAT_SHUTTING 0) true).fset (F.DMA_TAIL_INDEX 0) 1), by decide⟩⟩

theorem witness_Attestation :
    (∃ (s : State), s.hostRuns R.SEC_ATT_CTL = true ∧ s.bit F.SEC_ATT_STAT_BUSY = true) ∧
    (∃ (s : State), s.hostRuns R.SEC_ATT_CTL = true ∧ s.bit F.SEC_ATT_STAT_BUSY = false) ∧
    (∃ (s : State) (req : Bytes) (i : Nat), List.length req = 184 ∧ i < 16) ∧
    (∃ (s : State), s.sec.att = none) ∧
    (∃ (s : State) (req : Bytes) (snap : Bytes), s.sec.att = some (req, snap) ∧ List.length req = 184 ∧ List.length snap = 232
      ∧ (2 < num req 0 2 ∨ (∃ i, 2 ≤ i ∧ i < 8 ∧ List.getD req i 0 ≠ 0) ∨ num req 0 2 ≠ 1 ∧ ∃ i, 40 ≤ i ∧ i < 184 ∧ List.getD
      req i 0 ≠ 0)) ∧
    (∃ (s : State) (req : Bytes) (snap : Bytes), s.sec.att = some (req, snap) ∧ List.length req = 184 ∧ List.length snap = 232
      ∧ (¬(2 < num req 0 2 ∨ (∃ i, 2 ≤ i ∧ i < 8 ∧ List.getD req i 0 ≠ 0) ∨ num req 0 2 ≠ 1 ∧ ∃ i, 40 ≤ i ∧ i < 184 ∧ List.getD
      req i 0 ≠ 0)) ∧ num req 0 2 = 0) ∧
    (∃ (s : State) (req : Bytes), s.sec.att = some (req, List.replicate 232 0) ∧ List.length req = 184 ∧ ¬(2 < num req 0 2 ∨ (∃
      i, 2 ≤ i ∧ i < 8 ∧ List.getD req i 0 ≠ 0) ∨ num req 0 2 ≠ 1 ∧ ∃ i, 40 ≤ i ∧ i < 184 ∧ List.getD req i 0 ≠ 0) ∧ num req 0
      2 = 1 ∧ (Config.sm2Exchange s.free (s.fuseBytes 4 8) s.idB (slice req 40 16) (slice req 56 64) (slice req 120 64) = none
      ∨ ∃ r v k, Config.sm2Exchange s.free (s.fuseBytes 4 8) s.idB (slice req 40 16) (slice req 56 64) (slice req 120 64) =
      some (r, v, k))) ∧
    (∃ (s : State) (req : Bytes) (snap : Bytes), s.sec.att = some (req, snap) ∧ List.length req = 184 ∧ List.length snap = 232
      ∧ (¬(2 < num req 0 2 ∨ (∃ i, 2 ≤ i ∧ i < 8 ∧ List.getD req i 0 ≠ 0) ∨ num req 0 2 ≠ 1 ∧ ∃ i, 40 ≤ i ∧ i < 184 ∧ List.getD
      req i 0 ≠ 0)) ∧ num req 0 2 = 2 ∧ s.sec.sk = none) ∧
    (∃ (s : State) (req : Bytes) (snap : Bytes) (k : W128), s.sec.att = some (req, snap) ∧ List.length req = 184 ∧ List.length
      snap = 232 ∧ (¬(2 < num req 0 2 ∨ (∃ i, 2 ≤ i ∧ i < 8 ∧ List.getD req i 0 ≠ 0) ∨ num req 0 2 ≠ 1 ∧ ∃ i, 40 ≤ i ∧ i < 184
      ∧ List.getD req i 0 ≠ 0)) ∧ num req 0 2 = 2 ∧ s.sec.sk = some k) ∧
    (∃ (i : BitVec 4) (s : State), s.hostRuns R.SEC_RB_CTL = true ∧ s.fget (F.SEC_RB_CNT_COUNT i.toNat) < s.fget
      F.SEC_RB_VAL_VALUE ∧ s.fget F.SEC_RB_VAL_VALUE ≤ s.elig i.toNat) ∧
    (∃ (i : BitVec 4) (s : State), s.hostRuns R.SEC_RB_CTL = true ∧ (¬(s.fget (F.SEC_RB_CNT_COUNT i.toNat) < s.fget
      F.SEC_RB_VAL_VALUE ∧ s.fget F.SEC_RB_VAL_VALUE ≤ s.elig i.toNat))) :=
  ⟨⟨ready.setBit F.SEC_ATT_STAT_BUSY true , by decide⟩,
    ⟨ready , by decide⟩,
    ⟨ready, List.replicate 184 0, 15, by decide⟩,
    ⟨ready , by decide⟩,
    ⟨{ ready with sec := { ready.sec with att := some (request 3, List.replicate 232 0) } }, request 3, List.replicate 232 0,
      ⟨rfl, by decide, by decide, .inl (by decide)⟩⟩,
    ⟨{ ready with sec := { ready.sec with att := some (request 0, List.replicate 232 0) } }, request 0, List.replicate 232 0,
      ⟨rfl, by decide, by decide, request_ok 0 (by decide), by decide⟩⟩,
    ⟨{ ready with sec := { ready.sec with att := some (request 1, List.replicate 232 0) } }, request 1,
      ⟨rfl, by decide, request_ok 1 (by decide), by decide, by rcases Config.sm2Exchange _ _ _ _ _ _ with _ | ⟨r, v, k⟩ <;> simp⟩⟩,
    ⟨{ ready with sec := { ready.sec with att := some (request 2, List.replicate 232 0), sk := none } }, request 2,
      List.replicate 232 0, ⟨rfl, by decide, by decide, request_ok 2 (by decide), by decide, rfl⟩⟩,
    ⟨{ ready with sec := { ready.sec with att := some (request 2, List.replicate 232 0), sk := some 5 } }, request 2,
      List.replicate 232 0, 5, ⟨rfl, by decide, by decide, request_ok 2 (by decide), by decide, rfl⟩⟩,
    ⟨15, { ready.fset F.SEC_RB_VAL_VALUE 1 with sec := { ready.sec with elig := [(15, 1)] } }, by decide⟩,
    ⟨0, ready, by decide⟩⟩

theorem witness_FusesAndTap :
    (∃ (ctl : W32) (s : State), s.hostRuns R.SEC_FUSE_CTL = true ∧ BitVec.getLsbD ctl 7 = false) ∧
    (∃ (ctl : W32) (s : State), s.hostRuns R.SEC_FUSE_CTL = true ∧ BitVec.getLsbD ctl 7 = true ∧ (¬(ctl.toNat / 2 ^ 16 = 61534
      ∧ (s.factoryDone = false ∨ 12 ≤ ctl.toNat % 128 ∧ ctl.toNat % 128 < 44 ∨ 64 ≤ ctl.toNat % 128 ∨ ctl.toNat % 128 = 44 ∧
      s.reg R.SEC_FUSE_DATA &&& ~~~31 = 0) ∧ s.bit F.SEC_FUSE_STAT_BUSY = false ∧ (s.fget F.CFG_STAT_STATE = 5 ∨ s.fget
      F.CFG_STAT_STATE = 6)))) ∧
    (∃ (ctl : W32) (s : State), s.hostRuns R.SEC_FUSE_CTL = true ∧ BitVec.getLsbD ctl 7 = true ∧ ctl.toNat / 2 ^ 16 = 61534 ∧
      (s.factoryDone = false ∨ 12 ≤ ctl.toNat % 128 ∧ ctl.toNat % 128 < 44 ∨ 64 ≤ ctl.toNat % 128 ∨ ctl.toNat % 128 = 44 ∧
      s.reg R.SEC_FUSE_DATA &&& ~~~31 = 0) ∧ s.bit F.SEC_FUSE_STAT_BUSY = false ∧ (s.fget F.CFG_STAT_STATE = 5 ∨ s.fget
      F.CFG_STAT_STATE = 6)) ∧
    (∃ (s : State), s.sec.fusing = none) ∧
    (∃ (s : State) (w : Nat) (data : W32), s.sec.fusing = some (w, data) ∧ (∀ (n : Nat), n ∈ s.flt.injected → n < 1024) ∧
      s.debugClosed = false) ∧
    (∃ (s : State) (pins : List Bool) (pre : List Bool) (k : PrivateInstr) (x : BitVec 33) (c : Instr), (s.tap.trst = true ∨
      s.fget F.PWR_STAT_STATE = 4) ∧ c ∈ [Instr.bypass, Instr.idcode, Instr.samplePreload pins pre, Instr.extest pins,
      Instr.clamp, Instr.highz, Instr.lifetime, Instr.privateInstruction k, Instr.boardId x]) ∧
    (∃ (s : State), s.tap.trst = false ∧ s.fget F.PWR_STAT_STATE ≠ 4 ∧ s.store.lifetime.length = 10 ∧ (∀ (c : Nat), c ∈
      s.store.lifetime → c < 2 ^ 32)) ∧
    (∃ (s : State), s.tap.trst = false ∧ s.fget F.PWR_STAT_STATE ≠ 4 ∧ s.debugClosed = true) ∧
    (∃ (s : State), s.tap.trst = false ∧ s.fget F.PWR_STAT_STATE ≠ 4 ∧ s.debugClosed = false) ∧
    (∃ (s : State), s.fget F.PWR_STAT_STATE = 4) :=
  ⟨⟨0, ready , by decide⟩,
    ⟨4294967295, ready , by decide⟩,
    ⟨0xF05E008C, ready, by decide⟩,
    ⟨ready , by decide⟩,
    ⟨{ ready with sec := { ready.sec with fusing := some (0, 0) } }, 0, 0 , by decide⟩,
    ⟨{ ready with tap := { ready.tap with trst := true } }, [], [], .internalScan, 0, .bypass, ⟨.inl rfl, by simp⟩⟩,
    ⟨ready , by decide⟩,
    ⟨{ ready with store := { ready.store with fuses := [(44, 0x10)] } }, by decide⟩,
    ⟨ready , by decide⟩,
    ⟨ready.fset F.PWR_STAT_STATE 4, by decide⟩⟩

theorem witness_PinSetup :
    (∃ (n : BitVec 8) (s : State), s.hostRuns (R.PIN_CFG n.toNat) = true ∧ (192 ≤ n.toNat ∨ s.selBit R.PIN_LOCKED n.toNat =
      true)) ∧
    (∃ (n : BitVec 8) (s : State), s.hostRuns (R.PIN_CFG n.toNat) = true ∧ n.toNat < 192 ∧ s.selBit R.PIN_LOCKED n.toNat =
      false) ∧
    (∃ (v : W32) (s : State), s.hostRuns R.PIN_LOCK = true ∧ s.fget F.PIN_STAT_LOCK_SEQ ≤ 2 ∧ v.toNat / 2 ^ 16 = 19229) ∧
    (∃ (v : W32) (s : State), s.hostRuns R.PIN_LOCK = true ∧ s.fget F.PIN_STAT_LOCK_SEQ ≤ 2 ∧ v.toNat / 2 ^ 16 ≠ 19229) ∧
    (∃ (n : BitVec 8) (level' : Bool) (filtered : Bool) (s : State), (192 ≤ n.toNat ∨ filtered = true ∧ (fun t n => SMap.get
      (fun x => false) t.land n) s n.toNat ≠ level')) ∧
    (∃ (n : BitVec 8) (level' : Bool) (filtered : Bool) (s : State), n.toNat < 192 ∧ (filtered = false ∨ (fun t n => SMap.get
      (fun x => false) t.land n) s n.toNat = level') ∧ filtered = false ∧ s.fget (F.PIN_CFG_FILT n.toNat) ≠ 0) ∧
    (∃ (n : BitVec 8) (level' : Bool) (filtered : Bool) (s : State), n.toNat < 192 ∧ (filtered = false ∨ (fun t n => SMap.get
      (fun x => false) t.land n) s n.toNat = level') ∧ (filtered = true ∨ s.fget (F.PIN_CFG_FILT n.toNat) = 0)) ∧
    (∃ (p : PinId) (level' : Bool) (filtered : Bool) (s : State), (∀ (n : BitVec 8), p ≠ PinId.gpio n) ∧ (¬(filtered = true ∧
      (fun t n => SMap.get (fun x => false) t.land n) s (pinKey p) = level' ∨ filtered = false ∧ s.filterOf p = 0))) ∧
    (∃ (p : PinId) (level' : Bool) (filtered : Bool) (s : State), (∀ (n : BitVec 8), p ≠ PinId.gpio n) ∧ (filtered = true ∧
      (fun t n => SMap.get (fun x => false) t.land n) s (pinKey p) = level' ∨ filtered = false ∧ s.filterOf p = 0) ∧
      State.partnerPins
      { if filtered = true then s else { s with land := SMap.set (fun x => false) s.land (pinKey p) level' } with pinIn := SMap.set (fun x => false) (if filtered = true then s else { s with land := SMap.set (fun x => false) s.land (pinKey p) level' }).pinIn (pinKey p) level' }
      = s.partnerPins) ∧
    (∃ (p : PinId) (level' : Bool) (filtered : Bool) (s : State), (∀ (n : BitVec 8), p ≠ PinId.gpio n) ∧ (filtered = true ∧
      (fun t n => SMap.get (fun x => false) t.land n) s (pinKey p) = level' ∨ filtered = false ∧ s.filterOf p = 0) ∧
      State.partnerPins
      { if filtered = true then s else { s with land := SMap.set (fun x => false) s.land (pinKey p) level' } with pinIn := SMap.set (fun x => false) (if filtered = true then s else { s with land := SMap.set (fun x => false) s.land (pinKey p) level' }).pinIn (pinKey p) level' }
      ≠ s.partnerPins) ∧
    (∃ (p : PinId) (s : State), (∀ (n : BitVec 8), p ≠ PinId.gpio n) ∧ (p = PinId.pps ∨ p = PinId.wake)) ∧
    (∃ (n : Nat) (v : W32) (s : State), s.fget F.PWR_STAT_STATE < 2 ∧ s.pins.waits = [(1, n, v)] ∧ n < 192) :=
  ⟨⟨255, ready , by decide⟩,
    ⟨0, ready , by decide⟩,
    ⟨0x4B1D0000, ready.fset F.PIN_STAT_LOCK_SEQ 2, by decide⟩,
    ⟨0, ready , by decide⟩,
    ⟨255, false, false, ready , by decide⟩,
    ⟨0, false, false, ready.fset (F.PIN_CFG_FILT 0) 1 , by decide⟩,
    ⟨0, false, false, ready , by decide⟩,
    ⟨PinId.pps, false, false, ready , by decide⟩,
    ⟨PinId.pps, false, true, ready , by decide⟩,
    ⟨.partnerP, true, true, { ready with land := [(pinKey .partnerP, true)] },
      ⟨(by intro n h; cases h), .inl (by decide), by decide⟩⟩,
    ⟨PinId.pps, ready , by decide⟩,
    ⟨0, 0, { ready with pins := { ready.pins with waits := [(1, 0, 0)] } }, by decide⟩⟩

theorem witness_FabricEdges :
    (∃ (die : Bool) (s : State), (die = true ∧ s.big = false ∨ 2 ≤ s.fget F.PWR_STAT_STATE)) ∧
    (∃ (k : EdgeClk) (s : State), k ≠ EdgeClk.core ∧ s.edgeRuns = false) ∧
    (∃ (die : Bool) (k : EdgeClk) (s : State), (die = true → s.big = true) ∧ s.fget F.PWR_STAT_STATE < 2 ∧ k ≠ EdgeClk.core) ∧
    (∃ (die : Bool) (k : EdgeClk) (s : State), (die = true → s.big = true) ∧ s.fget F.PWR_STAT_STATE < 2 ∧ k = EdgeClk.core) ∧
    (∃ (s : State) (i : Nat), i < 96) ∧
    (∃ (s : State) (c : BlockCfg) (mask : BitVec 192) (i : Nat), c.terms[i]? = some mask) ∧
    (∃ (die : Bool) (k : EdgeClk) (s : State) (b : Nat) (c : BlockCfg), (die = true → s.big = true) ∧ s.fget F.PWR_STAT_STATE <
      2 ∧ let w := falling die k s; w.edgeRuns = true ∧ (w.edgeRound die.toNat).edge = w.edge ∧ SMap.Sorted w.edge.blocks ∧ (b,
      c) ∈ w.edge.blocks ∧ blockDie b = die.toNat ∧ c.clk = k ∧ w.edgeIso b = false ∧ c.mode = BlockMode.ram) ∧
    (∃ (die : Bool) (k : EdgeClk) (s : State) (b : Nat) (c : BlockCfg), (die = true → s.big = true) ∧ s.fget F.PWR_STAT_STATE <
      2 ∧ let w := falling die k s; w.edgeRuns = true ∧ (w.edgeRound die.toNat).edge = w.edge ∧ SMap.Sorted w.edge.blocks ∧ (b,
      c) ∈ w.edge.blocks ∧ blockDie b = die.toNat ∧ c.clk = k ∧ w.edgeIso b = false ∧ c.mode = BlockMode.logic) ∧
    (∃ (k : BitVec 3) (s : State), 6 ≤ k.toNat) ∧
    (∃ (k : BitVec 3) (s : State), k.toNat < 6) :=
  ⟨⟨false, ready.fset F.PWR_STAT_STATE 2 , by decide⟩,
    ⟨.laneSet 0, ready, by decide⟩,
    ⟨false, .laneSet 0, ready, by decide⟩,
    ⟨false, EdgeClk.core, ready , by decide⟩,
    ⟨ready, 0 , by decide⟩,
    ⟨ready, { terms := [5] }, 5, 0, by decide⟩,
    ⟨false, .laneSet 0,
      { (ready.setBit F.EDG_STAT_RESET_HELD false) with edge := { (ready.setBit F.EDG_STAT_RESET_HELD false).edge with blocks := [(2047, { mode := .ram, clk := .laneSet 0 })], st := [] } },
      2047, { mode := .ram, clk := .laneSet 0 }, by decide⟩,
    ⟨false, .laneSet 0,
      { (ready.setBit F.EDG_STAT_RESET_HELD false) with edge := { (ready.setBit F.EDG_STAT_RESET_HELD false).edge with blocks := [(2047, { clk := .laneSet 0 })], st := [(2047, { out := 0xFFFFFFFFFFFFFFFF })] } },
      2047, { clk := .laneSet 0 }, by decide⟩,
    ⟨7, ready , by decide⟩,
    ⟨0, ready, by decide⟩⟩

end Sys2Proof.Machine.Tests
end

section
/-! What every step keeps: the queue, the part's identity and the canonical form of memory and register file (R1, R5, R11, R122). -/

namespace Sys2Proof.Machine

/-- The queue and the part's identity of `t` are those of `r`. -/
def State.identityOf (r t : State) : Prop := t.pending = r.pending ∧ t.part = r.part ∧ t.stepping = r.stepping

/-- No kind of update touches the queue or the part's identity. -/
theorem closed_identityOf (r : State) : Closed r.identityOf (2 ^ 40 - 1) :=
  Closed.of (fun _ _ _ _ _ _ _ _ _ _ _ _ _ _ _ _ _ _ _ _ _ _ _ _ _ _ _ _ _ _ _ _ _ _ h => h) (fun _ _ _ h => h)
    (fun _ _ _ h => h) (fun _ _ h => h) (fun _ _ h => h) (fun _ _ h _ => h)
    (fun _ b h => by cases b <;> exact h)

/-- A reset keeps the register file canonical: it filters the words and may write one back. -/
theorem State.restart_regs_wf {s : State} (h : SMap.Wf RegMap.resetWord s.regs) (por : Bool) :
    SMap.Wf RegMap.resetWord (s.restart por).regs := by
  have hf := SMap.filter_wf RegMap.resetWord s.regs (fun p => persisted p.1) h
  cases por with
  | true => exact hf
  | false => exact SMap.set_wf _ _ _ _ hf

theorem State.restart_mem (s : State) (por : Bool) : (s.restart por).mem = [] := by cases por <;> rfl

theorem State.restart_part (s : State) (por : Bool) : (s.restart por).part = s.part := by cases por <;> rfl

/-- Every kind of update keeps the invariant. -/
theorem closed_inv : Closed State.Inv (2 ^ 40 - 1) :=
  Closed.of (fun _ _ _ _ _ _ _ _ _ _ _ _ _ _ _ _ _ _ _ _ _ _ _ _ _ _ _ _ _ _ _ _ _ _ h => h)
    (fun _ a v ⟨hm, hr, hp⟩ => ⟨hm, State.setReg_wf hr a v, hp⟩)
    (fun _ a v ⟨hm, hr, hp⟩ => ⟨State.wrByte_wf hm a v, hr, hp⟩)
    (fun _ f ⟨hm, hr, hp⟩ => ⟨hm, SMap.filter_wf _ _ f hr, hp⟩)
    (fun _ f ⟨hm, hr, hp⟩ => ⟨SMap.filter_wf _ _ f hm, hr, hp⟩)
    (fun _ _ ⟨hm, _, hp⟩ ⟨_, hr, _⟩ => ⟨hm, hr, hp⟩)
    (fun s b ⟨_, hr, hp⟩ => ⟨(s.restart_mem b).symm ▸ SMap.nil_wf _, State.restart_regs_wf hr b, (s.restart_part b).symm ▸ hp⟩)

/-- Settles O3: the queue and the identity survive every kind of update, so every command and the clock's edge. -/
theorem execKeepsQueue : Obligations.ExecKeepsQueue := by
  unfold Obligations.ExecKeepsQueue
  refine ⟨fun c s t ht => ?_, fun s => ?_⟩
  · exact exec_only (closed_identityOf s) ⟨rfl, rfl, rfl⟩ c t ht
  · exact State.tickEdge_only ((closed_identityOf s).mono rfl) ⟨rfl, rfl, rfl⟩

/-- Settles O4: taking the front of the queue keeps the invariant, and so do every command and the clock's edge. -/
theorem stepKeepsInv : Obligations.StepKeepsInv := by
  unfold Obligations.StepKeepsInv
  intro s t hs ht
  unfold step at ht
  split at ht
  next c rest _ =>
    have hs' : Sat State.Inv { s with pending := rest } := hs
    exact exec_only closed_inv hs' c t ht
  next =>
    cases ht
    exact State.tickEdge_only (closed_inv.mono rfl) hs

/-- Settles O5: the state after reset lists no register word and no byte. -/
theorem resetInv : Obligations.ResetInv := by
  unfold Obligations.ResetInv
  have inv : State.reset.Inv := ⟨SMap.nil_wf _, SMap.nil_wf _, .inl rfl⟩
  exact ⟨inv, fun _ => rfl, rfl, rfl, rfl, rfl⟩

end Sys2Proof.Machine
end

section
/-! Resets by POR_N, WARM_N and a brownout (R14, R320, R375, R400, R403). -/

namespace Sys2Proof.Machine

theorem SMap.find_filter {α : Type} (m : SMap α) (f : Nat → Bool) (k : Nat) :
    SMap.find (m.filter fun p => f p.1) k = if f k = true then SMap.find m k else none := by
  induction m with
  | nil => simp
  | cons p m ih =>
    obtain ⟨j, v⟩ := p
    by_cases hj : f j = true
    · simp only [List.filter_cons, hj, if_true, SMap.find, ih]
      split
      · subst_vars; simp [hj]
      · rfl
    · simp only [List.filter_cons, hj, SMap.find]
      rw [if_neg (by simp), ih]
      split
      · split
        · subst_vars; contradiction
        · rfl
      · rfl

/-- A register file of which only some words are kept reads its reset value elsewhere. -/
theorem State.reg_filter (s : State) (f : Nat → Bool) (a : Nat) :
    ({ s with regs := s.regs.filter fun p => f p.1 } : State).reg a = if f a = true then s.reg a else RegMap.resetWord a := by
  simp only [State.reg, SMap.get, SMap.find_filter]
  split <;> rfl

/-- A restart keeps the words of the persistent store; DEBUG_SEEN survives all but POR_N (R320, R387). -/
theorem State.reg_restart (s : State) (por : Bool) (a : Nat) (h : a ≠ F.SEC_STAT_DEBUG_SEEN.addr) :
    (s.restart por).reg a = if persisted a = true then s.reg a else RegMap.resetWord a := by
  have hf := s.reg_filter persisted a
  cases por with
  | true => exact hf
  | false => exact (State.reg_fset_ne _ _ _ h).trans hf

theorem State.debugSeen_restart (s : State) (por : Bool) :
    (s.restart por).bit F.SEC_STAT_DEBUG_SEEN = (s.bit F.SEC_STAT_DEBUG_SEEN && !por) := by
  cases por with
  | true =>
    have hr : (s.restart true).reg F.SEC_STAT_DEBUG_SEEN.addr = 0 := s.reg_filter persisted F.SEC_STAT_DEBUG_SEEN.addr
    simp [State.bit, State.fget, hr, Fld.read]
  | false =>
    rw [Bool.not_false, Bool.and_true]
    exact State.bit_setBit _ F.SEC_STAT_DEBUG_SEEN _ (by decide) (by decide)

/-- What the start after a reset leaves: the persistent words with FAULT_RESET 0, every other word at its reset value, and the
state of no block but the persistent store (R14, R320). -/
structure State.startedFresh (s t : State) (por : Bool) : Prop where
  plain : ∀ a, persisted a = false → a ≠ F.SEC_STAT_DEBUG_SEEN.addr → t.reg a = RegMap.resetWord a
  kept : ∀ a, persisted a = true → a ≠ R.FLT_RST_CAUSE → t.reg a = s.reg a
  noFault : t.bit F.FLT_RST_CAUSE_FAULT_RESET = false
  code : t.fget F.FLT_RST_CAUSE_CODE = s.fget F.FLT_RST_CAUSE_CODE
  debugSeen : t.bit F.SEC_STAT_DEBUG_SEEN = (s.bit F.SEC_STAT_DEBUG_SEEN && !por)
  empty : t.mem = [] ∧ t.image = {} ∧ t.strands = [] ∧ t.instrs = [] ∧ t.reports = []
  identity : t.part = s.part ∧ t.store = s.store

theorem State.plainStart_startedFresh (s : State) (por : Bool) : s.startedFresh (s.plainStart por) por where
  plain a hp ha := by
    have hne : a ≠ F.FLT_RST_CAUSE_FAULT_RESET.addr := by rintro rfl; exact absurd hp (by decide)
    rw [State.plainStart, State.reg_fset_ne _ _ _ hne, s.reg_restart por a ha, hp, if_neg Bool.false_ne_true]
  kept a hp ha := by
    have hne : a ≠ F.SEC_STAT_DEBUG_SEEN.addr := by rintro rfl; exact absurd hp (by decide)
    rw [State.plainStart, State.reg_fset_ne _ _ _ ha, s.reg_restart por a hne, hp, if_pos rfl]
  noFault := State.bit_fset_zero _ _ (by decide) (by decide)
  code := by
    have hr : (s.restart por).reg F.FLT_RST_CAUSE_CODE.addr = s.reg F.FLT_RST_CAUSE_CODE.addr :=
      s.reg_restart por _ (by decide)
    exact (State.fget_fset_apart _ _ _ _ (by decide) (.inr (by decide))).trans (State.fget_congr _ hr)
  debugSeen := (State.bit_fset_apart _ _ _ _ (by decide) (.inl (by decide))).trans (s.debugSeen_restart por)
  empty := by cases por <;> exact ⟨rfl, rfl, rfl, rfl, rfl⟩
  identity := by cases por <;> exact ⟨rfl, rfl⟩

/-- The levels of the reset pins and the latched IDs are no part of what a start leaves. -/
theorem State.startedFresh.withLevels {s t : State} {por : Bool} (h : s.startedFresh t por) (p w : Bool) (x : Security) :
    s.startedFresh { t with por := p, warm := w, sec := x } por :=
  ⟨h.plain, h.kept, h.noFault, h.code, h.debugSeen, h.empty, h.identity⟩

theorem State.plainStart_levels (s : State) (por : Bool) :
    (s.plainStart por).por = s.por ∧ (s.plainStart por).warm = s.warm ∧ (s.plainStart por).store = s.store := by
  cases por <;> exact ⟨rfl, rfl, rfl⟩

/-- A reset by POR_N has counted itself, and out of Off a power cycle (R403, R413). -/
def State.porCounted (s : State) : State := { s with store := { s.store with
  resets := s.store.resets + 1, cycles := s.store.cycles + (if s.fget F.PWR_STAT_STATE = 4 then 1 else 0) } }

theorem State.countCycle_countReset (s : State) : s.countReset.countCycle = s.porCounted := by
  have hstate : s.countReset.fget F.PWR_STAT_STATE = s.fget F.PWR_STAT_STATE := rfl
  unfold State.countCycle State.porCounted
  rw [hstate]
  split <;> rfl

/-- Settles O42: the three causes share one start, from the state in which the reset has been counted. -/
theorem resets : Obligations.Resets := by
  unfold Obligations.Resets
  intro fresh
  have start : ∀ (s u t : State) (por : Bool), u.startedFresh t por → u.regs = s.regs → u.part = s.part →
      u.store.fuses = s.store.fuses → u.store.boardId = s.store.boardId →
      u.store.resets = s.store.resets + (if por then 1 else 0) → fresh s t por := by
    intro s u t por hu hr hpart hfuses hboard hresets
    have hreg := State.reg_congr hr
    obtain ⟨hmem, himage, hstrands, hinstrs, hreports⟩ := hu.empty
    obtain ⟨hpart', hstore⟩ := hu.identity
    exact ⟨hu.plain, fun a hp ha => (hu.kept a hp ha).trans (hreg a), hu.noFault, hu.code.trans (State.fget_congr _ (hreg _)),
      State.bit_congr F.SEC_STAT_DEBUG_SEEN (hreg _) ▸ hu.debugSeen, hmem, himage, hstrands, hinstrs, hreports,
      hpart'.trans hpart, hstore ▸ hfuses, hstore ▸ hboard, hstore ▸ hresets⟩
  refine ⟨fun s => ⟨if_pos (beq_self_eq_true _), if_pos (beq_self_eq_true _)⟩, fun s h => ?_, fun s h h4 => ?_,
    fun b s h4 => ?_, fun s h => ?_, fun s h h4 => ?_, fun s h4 => if_pos h4, fun s h4 => ?_⟩
  case refine_1 =>
    obtain ⟨-, hwarm, hstore⟩ := s.porCounted.plainStart_levels true
    refine ⟨{ s.porCounted.plainStart true with por := true }, ?_, rfl, hwarm,
      start s s.porCounted _ true ((s.porCounted.plainStart_startedFresh true).withLevels _ _ _) rfl rfl rfl rfl rfl, ?_⟩
    · simp only [exec, execPorN, h, State.countCycle_countReset]; rfl
    · exact congrArg Store.cycles hstore
  case refine_2 =>
    obtain ⟨hpor, -, hstore⟩ := s.plainStart_levels false
    refine ⟨{ s.plainStart false with warm := true }, ?_, rfl, hpor,
      start s s _ false ((s.plainStart_startedFresh false).withLevels _ _ _) rfl rfl rfl rfl rfl, congrArg Store.cycles hstore⟩
    simp only [exec, execWarmN, h, if_neg h4]; rfl
  case refine_3 =>
    simp only [exec, execWarmN, if_pos h4]
    split
    next hb => rw [eq_of_beq hb]
    next => rfl
  case refine_4 => simp only [exec, execPorN, h]; rfl
  case refine_5 => simp only [exec, execWarmN, h, if_neg h4]; rfl
  case refine_6 =>
    obtain ⟨hpor, hwarm, hstore⟩ := s.countReset.plainStart_levels true
    refine ⟨(s.countReset.plainStart true).latchIds, if_neg h4, hpor, hwarm,
      start s s.countReset _ true ((s.countReset.plainStart_startedFresh true).withLevels _ _ _) rfl rfl rfl rfl rfl, ?_⟩
    have hfuse : ∀ w, (s.countReset.plainStart true).fuse w = s.fuse w := fun w => by simp only [State.fuse, hstore]; rfl
    simp only [State.latchIds, hfuse]

end Sys2Proof.Machine
end

section
/-! The host's register commands: when they take effect (R3, R28, R117, R286, R330, R335, R341, R360, R362). -/

namespace Sys2Proof.Machine

/-! ### The training of the link writes one word -/

theorem State.trainLink_eq (s : State) : s.trainLink = { s with regs := s.trainLink.regs } := by
  unfold State.trainLink
  split <;> rfl

theorem State.trainLink_reg (s : State) {a : Nat} (h : a ≠ R.HST_LINK) : s.trainLink.reg a = s.reg a := by
  unfold State.trainLink
  split
  · exact s.reg_setReg_ne _ h
  · rfl

theorem State.trainLink_fget (s : State) (f : Fld) (h : f.addr ≠ R.HST_LINK) : s.trainLink.fget f = s.fget f :=
  State.fget_congr f (s.trainLink_reg h)

theorem State.trainLink_bit (s : State) (f : Fld) (h : f.addr ≠ R.HST_LINK) : s.trainLink.bit f = s.bit f :=
  State.bit_congr f (s.trainLink_reg h)

@[simp] theorem State.trainLink_power (s : State) : s.trainLink.power = s.power := by rw [s.trainLink_eq]
@[simp] theorem State.trainLink_part (s : State) : s.trainLink.part = s.part := by rw [s.trainLink_eq]
@[simp] theorem State.trainLink_ring (s : State) : s.trainLink.ring = s.ring := by rw [s.trainLink_eq]
@[simp] theorem State.trainLink_host (s : State) : s.trainLink.host = s.host := by rw [s.trainLink_eq]
@[simp] theorem State.trainLink_image (s : State) : s.trainLink.image = s.image := by rw [s.trainLink_eq]

@[simp] theorem State.trainLink_big (s : State) : s.trainLink.big = s.big := by simp [State.big]
@[simp] theorem State.trainLink_closed (s : State) : s.trainLink.closed = s.closed := by
  simp [State.closed, s.trainLink_bit F.NOC_STAT_CLOSED (by decide)]
@[simp] theorem State.trainLink_asleep (s : State) : s.trainLink.asleep = s.asleep := by
  simp [State.asleep, s.trainLink_fget F.PWR_STAT_STATE (by decide)]
@[simp] theorem State.trainLink_blockAbsent (s : State) (a : Nat) : s.trainLink.blockAbsent a = s.blockAbsent a := by
  simp [State.blockAbsent]

@[simp] theorem State.trainLink_domainOn (s : State) (d : Nat) : s.trainLink.domainOn d = s.domainOn d := by
  have hon : (F.PWR_DOM_ON d).addr ≠ R.HST_LINK := by simp only [R.HST_LINK]; omega
  simp only [State.domainOn, s.trainLink_bit _ hon, s.trainLink_fget F.PWR_STAT_STATE (by decide)]

@[simp] theorem State.trainLink_blockOn (s : State) (a : Nat) : s.trainLink.blockOn a = s.blockOn a := by
  simp [State.blockOn]

theorem stnClosed_addr_ge (n : Nat) : 0x90000 ≤ (stnClosed n).addr := by
  unfold stnClosed
  split <;> simp only <;> omega

@[simp] theorem State.trainLink_wayClosed (s : State) (c : Bool) (a b : Nat) : s.trainLink.wayClosed c a b = s.wayClosed c a b := by
  have hbit : ∀ n, s.trainLink.bit (stnClosed n) = s.bit (stnClosed n) := fun n =>
    s.trainLink_bit _ (by have := stnClosed_addr_ge n; simp only [R.HST_LINK]; omega)
  simp only [State.wayClosed, State.trainLink_closed, hbit]

@[simp] theorem State.trainLink_destStn (s : State) (p : Packet) : s.trainLink.destStn p = s.destStn p := by
  simp [State.destStn, State.addrDie, State.addrDomain, State.inScratch, State.inDram, State.bankHere]

@[simp] theorem State.trainLink_hostHeld (s : State) (r : HostReq) : s.trainLink.hostHeld r = s.hostHeld r := by
  cases r <;> simp [State.hostHeld, State.hostOwes, State.lineBusy, State.regClosed]

@[simp] theorem State.trainLink_sees (s : State) (m : MasterId) : s.trainLink.sees m = s.sees m := by
  have hsel : s.trainLink.selBit R.TRC_MSTR m.toNat = s.selBit R.TRC_MSTR m.toNat := by
    simp only [State.selBit]
    rw [s.trainLink_reg (by simp only [R.TRC_MSTR, R.HST_LINK]; omega)]
  have hen : ∀ n, s.trainLink.bit (F.NOC_PRB_CTL_EN n) = s.bit (F.NOC_PRB_CTL_EN n) := fun n =>
    s.trainLink_bit _ (by simp only [R.HST_LINK]; omega)
  have hvn : ∀ n, s.trainLink.fget (F.NOC_PRB_CTL_VNMASK n) = s.fget (F.NOC_PRB_CTL_VNMASK n) := fun n =>
    s.trainLink_fget _ (by simp only [R.HST_LINK]; omega)
  have hgen : ∀ n, s.trainLink.bit (F.G32_INIT_EN n) = s.bit (F.G32_INIT_EN n) := fun n =>
    s.trainLink_bit _ (by simp only [R.HST_LINK]; omega)
  have hgid : ∀ n, s.trainLink.fget (F.G32_INIT_ID n) = s.fget (F.G32_INIT_ID n) := fun n =>
    s.trainLink_fget _ (by simp only [R.HST_LINK]; omega)
  simp only [State.sees, s.trainLink_bit F.TRC_CTL_EN (by decide), hsel, hen, hvn, hgen, hgid]

/-! ### Commands of the host as writes of a register -/

/-- Every command that names a register of the host is a write of it. -/
theorem exec_hostRegister {c : Instr} {a : Nat} (h : hostRegister c = some a) (s : State) :
    ∃ mask v f, exec c s = .next (s.hostCmd a mask v f) := by
  cases c <;> cases h <;> exact ⟨_, _, _, rfl⟩

/-! ### States that differ in some register words -/

theorem State.onlyWords_refl (s : State) (l : List Nat) : s.onlyWords s l := ⟨rfl, fun _ _ => rfl⟩

theorem State.onlyWords.trans {s t u : State} {l : List Nat} (h : s.onlyWords t l) (h' : t.onlyWords u l) : s.onlyWords u l := by
  obtain ⟨ht, hw⟩ := h
  obtain ⟨hu, hw'⟩ := h'
  refine ⟨?_, fun a ha => (hw' a ha).trans (hw a ha)⟩
  rw [ht] at hu
  exact hu

theorem State.onlyWords.mono {s t : State} {l m : List Nat} (h : s.onlyWords t l) (hs : l ⊆ m) : s.onlyWords t m :=
  ⟨h.1, fun a ha => h.2 a fun hl => ha (hs hl)⟩

/-- What does not look at the registers is the same. -/
theorem State.onlyWords.unit {s t : State} {l : List Nat} (h : s.onlyWords t l) {α : Type} (g : State → α)
    (hg : ∀ r, g { s with regs := r } = g s) : g t = g s := (congrArg g h.1).trans (hg _)

theorem State.onlyWords_setReg (s : State) {l : List Nat} {a : Nat} (v : W32) (h : a ∈ l) : s.onlyWords (s.setReg a v) l :=
  ⟨rfl, fun _ hb => s.reg_setReg_ne v fun e => hb (e ▸ h)⟩

theorem State.onlyWords_fset (s : State) {l : List Nat} {f : Fld} (x : Nat) (h : f.addr ∈ l) : s.onlyWords (s.fset f x) l :=
  s.onlyWords_setReg _ h

theorem State.onlyWords_setWords (n : Nat) : ∀ (s : State) {l : List Nat} (a x : Nat), (∀ i < n, a + 4 * i ∈ l) →
    s.onlyWords (s.setWords a n x) l := by
  induction n with
  | zero => exact fun s l _ _ _ => s.onlyWords_refl l
  | succ n ih =>
    intro s l a x h
    refine (s.onlyWords_setReg _ (h 0 (by omega))).trans (ih _ _ _ fun i hi => ?_)
    have := h (i + 1) (by omega)
    rwa [show a + 4 + 4 * i = a + 4 * (i + 1) by ring]

theorem State.onlyWords_trainLink (s : State) {l : List Nat} (h : R.HST_LINK ∈ l) : s.onlyWords s.trainLink l :=
  ⟨s.trainLink_eq, fun _ ha => s.trainLink_reg fun e => ha (e ▸ h)⟩

/-! ### The watch of poll conditions writes one word -/

theorem watch_congr {s : State} (bits : List Nat) {f g : State → State} (h : f s = g s) : s.watch bits f = s.watch bits g := by
  simp only [State.watch, h]

theorem State.onlyWords_watch (s : State) (bits : List Nat) (f : State → State) {l : List Nat} (h : R.HST_EVT ∈ l) :
    (f s).onlyWords (s.watch bits f) l := by
  unfold State.watch
  dsimp only
  split
  · exact State.onlyWords_refl _ l
  · exact State.onlyWords_setReg _ _ h

theorem State.watch_reg (s : State) (bits : List Nat) (f : State → State) {a : Nat} (h : a ≠ R.HST_EVT) :
    (s.watch bits f).reg a = (f s).reg a := (s.onlyWords_watch bits f (List.mem_singleton_self _)).2 a (by simpa using h)

/-- The condition of each poll bit but TIME_STAT's PPS depends on the registers alone (R372). -/
theorem State.pollBit_congr {s t : State} (hr : t.regs = s.regs) (hp : t.time.ppsNew = s.time.ppsNew) (b : Nat) :
    t.pollBit b = s.pollBit b := by
  have hreg := State.reg_congr hr
  unfold State.pollBit State.anyCapDone State.capDone State.bit State.fget
  simp only [hreg, hr, hp]

/-- An effect on no register that any poll bit reads raises no poll bit. -/
theorem watch_sameRegs {s : State} (bits : List Nat) {f : State → State} (hr : (f s).regs = s.regs)
    (hp : (f s).time.ppsNew = s.time.ppsNew) : s.watch bits f = f s :=
  watch_quiet fun b _ h => (State.pollBit_congr hr hp b).trans h

/-! ### Requests that a gated block answers -/

theorem State.onlyWords_busError (s : State) (status a : Nat) (write : Bool) :
    s.onlyWords (s.busError status a write) [R.HST_BERR, R.HST_BERR_ADDR, R.HST_BERR_ADDR + 4] := by
  unfold State.busError
  refine .trans ?_ (State.onlyWords_fset _ _ (by simp))
  split
  · exact s.onlyWords_refl _
  · have h1 := s.onlyWords_fset (l := [R.HST_BERR, R.HST_BERR_ADDR, R.HST_BERR_ADDR + 4]) (f := F.HST_BERR_STATUS) status (by simp)
    have h2 := h1.trans (State.onlyWords_fset _ (f := F.HST_BERR_WRITE) write.toNat (by simp))
    have h3 := h2.trans (State.onlyWords_fset _ (f := F.HST_BERR_VALID) 1 (by simp))
    refine h3.trans (State.onlyWords_setWords _ _ _ _ fun i hi => ?_)
    obtain rfl | rfl : i = 0 ∨ i = 1 := by simp only at hi; omega
    · simp
    · simp

theorem State.busError_valid (s : State) (status a : Nat) (write : Bool) :
    (s.busError status a write).bit F.HST_BERR_VALID = true := by
  unfold State.busError
  refine (State.bit_fset_apart _ _ _ _ (by decide) (.inr (.inl (by decide)))).trans ?_
  split
  next h => exact h
  next => 
    refine (State.bit_congr _ (State.reg_wset _ _ _ _ (.inl (by decide)))).trans ?_
    exact State.bit_fset_one _ _ (by decide) (by decide)

/-- The first error is captured with its status, its direction and its address (R362). -/
theorem State.busError_captured {s : State} (h : s.bit F.HST_BERR_VALID = false) (status a : Nat) (write : Bool) :
    (s.busError status a write).fget F.HST_BERR_STATUS = status % 4 ∧
      (s.busError status a write).bit F.HST_BERR_WRITE = write ∧
      (s.busError status a write).wget W.HST_BERR_ADDR_ADDR = a % 2 ^ 48 := by
  unfold State.busError
  rw [if_neg (by simp [h])]
  have hword : ∀ t : State, (t.wset W.HST_BERR_ADDR_ADDR a).reg R.HST_BERR = t.reg R.HST_BERR := fun t =>
    State.reg_wset _ _ _ _ (.inl (by decide))
  refine ⟨?_, ?_, ?_⟩
  · rw [State.count, State.fget_fset_apart _ _ _ _ (by decide) (.inr (.inr (by decide))), State.fget_congr _ (hword _),
      State.fget_fset_apart _ _ _ _ (by decide) (.inr (.inr (by decide))), State.setBit,
      State.fget_fset_apart _ _ _ _ (by decide) (.inr (.inr (by decide))), State.fget_fset _ _ _ (by decide)]
    rfl
  · rw [State.count, State.bit_fset_apart _ _ _ _ (by decide) (.inr (.inr (by decide))), State.bit_congr _ (hword _),
      State.bit_fset_apart _ _ _ _ (by decide) (.inr (.inr (by decide))), State.bit_setBit _ _ _ (by decide) (by decide)]
  · rw [State.count, State.fset, State.wget_setReg_ne _ _ _ _ (.inl (by decide)), State.wget_wset _ _ _ (by decide)]

/-! ### The way of a command through the endpoint -/

/-- A command of the host whose write waits leaves it in the endpoint (R360). -/
theorem hostCmd_held {s : State} {a : Nat} (mask v : W32) (f : State → State) (haway : s.hostAway = false)
    (hrun : s.fget F.PWR_STAT_STATE = 0) (hentry : s.power.entering = false) (hexit : s.power.exiting = false)
    (hheld : s.hostHeld (.write a 4 0 0) = true) :
    s.hostCmd a mask v f = s.trainLink.hostPark (.write a 4 mask v) := by
  have hasleep : s.asleep = false := by simp [State.asleep, hrun]
  have hheld' : s.hostHeld (.write a 4 mask v) = true := hheld
  have hquiet : (s.trainLink.hostPark (.write a 4 mask v)).wakeAwake 3 = s.trainLink.hostPark (.write a 4 mask v) :=
    wakeAwake_run 3 (s.trainLink_power ▸ hentry) (s.trainLink_power ▸ hexit)
      ((s.trainLink_fget F.PWR_STAT_STATE (by decide)).trans hrun)
  rw [State.hostCmd, if_neg (by simp [haway])]
  rw [watch_congr (g := fun t => t.hostPark (.write a 4 mask v)) _ (by simpa [hasleep, hheld'] using hquiet)]
  exact watch_sameRegs _ rfl rfl

/-- In Run, with no transition in progress, a command of the host that does not wait is its write. -/
theorem hostCmd_served {s : State} {a : Nat} {mask v : W32} {f : State → State} {u : State} (haway : s.hostAway = false)
    (hrun : s.fget F.PWR_STAT_STATE = 0) (hheld : s.hostHeld (.write a 4 0 0) = false)
    (hu : s.trainLink.hostWrite a ((s.trainLink.reg a &&& ~~~mask) ||| v) f = u)
    (hentry : u.power.entering = false) (hexit : u.power.exiting = false) (hstate : u.fget F.PWR_STAT_STATE = 0) :
    s.hostCmd a mask v f = s.trainLink.watch [13, 16, 17] fun _ => u := by
  have hasleep : s.asleep = false := by simp [State.asleep, hrun]
  have hheld' : s.hostHeld (.write a 4 mask v) = false := hheld
  rw [State.hostCmd, if_neg (by simp [haway])]
  refine watch_congr _ ?_
  simp only [State.trainLink_asleep, hasleep, State.trainLink_hostHeld, hheld', Bool.false_eq_true, if_false, hu]
  exact wakeAwake_run 3 hentry hexit hstate

/-- Settles O13: every such command is a write of its register, so the way through the endpoint decides. -/
theorem hostRequests : Obligations.HostRequests := by
  unfold Obligations.HostRequests
  intro c a s hc
  obtain ⟨mask, v, f, hx⟩ := exec_hostRegister hc s
  rw [hx]
  refine ⟨fun haway => congrArg _ (hostCmd_away a mask v f haway), fun haway hasleep => ?_, fun haway hrun hentry hexit => ?_⟩
  · rw [State.hostCmd, if_neg (by simp [haway])]
    exact congrArg _ (watch_congr _ (by simp [hasleep]))
  have hstate : s.trainLink.fget F.PWR_STAT_STATE = 0 := (s.trainLink_fget _ (by decide)).trans hrun
  have hentry' : s.trainLink.power.entering = false := s.trainLink_power ▸ hentry
  have hexit' : s.trainLink.power.exiting = false := s.trainLink_power ▸ hexit
  refine ⟨fun hheld => ⟨mask, v, congrArg _ (hostCmd_held mask v f haway hrun hentry hexit hheld)⟩,
    fun hheld hbarred => ?_, fun hheld hsees hhere hopen hgated => ?_⟩
  · have hw : s.trainLink.hostWrite a ((s.trainLink.reg a &&& ~~~mask) ||| v) f = s.trainLink := by
      refine if_pos ?_
      rcases hbarred with h | ⟨h, h'⟩ <;> simp [*]
    rw [hostCmd_served haway hrun hheld hw hentry' hexit' hstate]
    exact congrArg _ (watch_sameRegs _ rfl rfl)
  · have hw : s.trainLink.hostWrite a ((s.trainLink.reg a &&& ~~~mask) ||| v) f = s.trainLink.asleepAnswer a true := by
      refine (if_neg (by rcases hopen with h | h <;> simp [h, hhere])).trans ?_
      rw [transact_unseen (by simpa [regPacket] using hsees)]
      simp [hgated]
    have hcount := s.trainLink.onlyWords_fset (f := F.NOC_ASLEEP_RESP_COUNT) (l := [R.NOC_ASLEEP_RESP])
      (satAdd (2 ^ 32 - 1) (s.trainLink.fget F.NOC_ASLEEP_RESP_COUNT) 1) (by simp)
    have hbus := State.onlyWords_busError (s.trainLink.count F.NOC_ASLEEP_RESP_COUNT 1) 1 a true
    have hall : s.onlyWords (s.trainLink.asleepAnswer a true)
        [R.NOC_ASLEEP_RESP, R.HST_BERR, R.HST_BERR_ADDR, R.HST_BERR_ADDR + 4, R.HST_EVT, R.HST_LINK] :=
      ((s.onlyWords_trainLink (by simp)).trans (hcount.mono (by simp))).trans (hbus.mono (by simp))
    have hpower : (s.trainLink.asleepAnswer a true).power = s.power := hall.unit State.power fun _ => rfl
    have hstate' : (s.trainLink.asleepAnswer a true).fget F.PWR_STAT_STATE = 0 :=
      (State.fget_congr _ (hall.2 _ (by decide))).trans hrun
    rw [hostCmd_served haway hrun hheld hw (hpower ▸ hentry) (hpower ▸ hexit) hstate']
    have hkeep : ∀ b, b ≠ R.HST_EVT → (s.trainLink.watch [13, 16, 17] fun _ => s.trainLink.asleepAnswer a true).reg b =
        (s.trainLink.asleepAnswer a true).reg b := fun b hb => State.watch_reg _ _ _ hb
    refine ⟨_, rfl, hall.trans (State.onlyWords_watch _ _ _ (by simp)), ?_, fun hfirst => ?_⟩
    · exact (State.bit_congr _ (hkeep _ (by decide))).trans (State.busError_valid _ _ _ _)
    · have hfirst' : (s.trainLink.count F.NOC_ASLEEP_RESP_COUNT 1).bit F.HST_BERR_VALID = false :=
        (State.bit_fset_apart _ _ _ _ (by decide) (.inl (by decide))).trans
          ((s.trainLink_bit _ (by decide)).trans hfirst)
      obtain ⟨hstatus, hwrite, haddr⟩ := State.busError_captured hfirst' 1 a true
      refine ⟨(State.fget_congr _ (hkeep _ (by decide))).trans hstatus, (State.bit_congr _ (hkeep _ (by decide))).trans hwrite,
        (State.wget_congr _ fun i hi => hkeep _ ?_).trans haddr⟩
      simp only at hi
      simp only [R.HST_EVT]
      omega

end Sys2Proof.Machine
end

section
/-! The host's time commands, transmit timestamp queues and timed outputs (R213–R224, R300). -/

namespace Sys2Proof.Machine

/-! ### A host request that reaches its block -/

/-- A command of the host that reaches its block is its effect `f`, where that leaves the power state and the words that the
endpoint watches as they were. -/
theorem hostCmd_effect {s : State} {a : Nat} {mask v : W32} {f : State → State} {l : List Nat} (h : s.hostRuns a = true)
    (hpower : (f s).power = s.power) (hw : s.wordsBut (f s) l) (h1 : R.PWR_STAT ∉ l) (h2 : R.HST_BERR ∉ l)
    (h3 : R.TRC_STAT ∉ l) : s.hostCmd a mask v f = f s :=
  hostCmd_runs h (by rw [hpower]) (by rw [hpower]) (hw _ h1) (hw _ h2) (hw _ h3)

/-- The same of an effect on register words alone. -/
theorem hostCmd_onlyWords {s : State} {a : Nat} {mask v : W32} {f : State → State} {l : List Nat} (h : s.hostRuns a = true)
    (hw : s.onlyWords (f s) l) (h1 : R.PWR_STAT ∉ l) (h2 : R.HST_BERR ∉ l) (h3 : R.TRC_STAT ∉ l) :
    s.hostCmd a mask v f = f s :=
  hostCmd_effect h (hw.unit State.power fun _ => rfl) hw.2 h1 h2 h3

/-- What `hostReads` says, part by part. -/
theorem hostReads_parts {s : State} {a : Nat} (h : s.hostReads a = true) :
    s.hostAway = false ∧ s.fget F.PWR_STAT_STATE = 0 ∧ s.power.entering = false ∧ s.power.exiting = false ∧
      s.blockAbsent a = false ∧ s.blockOn a = true ∧ s.reg R.HST_LINK ≠ 0 ∧ s.hostHeld (.read a 4) = false ∧ s.sees 0 = false := by
  unfold State.hostReads State.hostFree at h
  simpa only [Bool.and_eq_true, Bool.not_eq_true', beq_iff_eq, bne_iff_ne, ne_eq, and_assoc] using h

/-- A read of the host that reaches its block is its effect, on the state whose answer is 0, where that leaves the power state and
the words that the endpoint watches as they were. -/
theorem hostGet_runs {s : State} {a : Nat} {f : State → State} (h : s.hostReads a = true)
    (hpower : (f (s.answer 0)).power = s.power) (h1 : (f (s.answer 0)).reg R.PWR_STAT = s.reg R.PWR_STAT)
    (h2 : (f (s.answer 0)).reg R.HST_BERR = s.reg R.HST_BERR) (h3 : (f (s.answer 0)).reg R.TRC_STAT = s.reg R.TRC_STAT) :
    s.hostGet a f = f (s.answer 0) := by
  obtain ⟨haway, hrun, hentry, hexit, habsent, hon, hlink, hheld, hsees⟩ := hostReads_parts h
  have hasleep : s.asleep = false := by simp [State.asleep, hrun]
  have hfetch : s.hostFetch a f = f (s.answer 0) := by
    have hsees' : (s.answer 0).sees (regPacket 0 a none).src = false := hsees
    have hon' : (s.answer 0).blockOn a = true := hon
    unfold State.hostFetch
    simp only [habsent, Bool.false_eq_true, if_false]
    exact (transact_unseen hsees' _ _ _).trans (by rw [hon']; rfl)
  have hquiet : (f (s.answer 0)).wakeAwake 3 = f (s.answer 0) :=
    wakeAwake_run 3 (hpower ▸ hentry) (hpower ▸ hexit) ((State.fget_congr F.PWR_STAT_STATE h1).trans hrun)
  rw [State.hostGet, if_neg (by simp [haway]), trainLink_done hlink]
  rw [watch_congr (g := fun _ => f (s.answer 0)) _ (by simpa [hasleep, hheld, hfetch] using hquiet)]
  refine watch_quiet fun b hb => ?_
  simp only [List.mem_cons, List.not_mem_nil, or_false] at hb
  rcases hb with rfl | rfl | rfl
  · exact fun h => (State.bit_congr F.PWR_STAT_TRANSITION h1).trans h
  · intro h
    have hfull := State.bit_congr F.TRC_STAT_FULL h3
    have hovf := State.bit_congr F.TRC_STAT_OVF h3
    exact (congrArg₂ (· || ·) hfull hovf).trans h
  · exact fun h => (State.bit_congr F.HST_BERR_VALID h2).trans h

/-! ### Time of day, phase and rate -/

theorem State.mirror_eq (s : State) (i : MirrorItem) : s.mirror i = { s with splice := (s.mirror i).splice } := by
  unfold State.mirror
  split <;> rfl

@[simp] theorem State.mirror_reg (s : State) (i : MirrorItem) (a : Nat) : (s.mirror i).reg a = s.reg a := by
  rw [s.mirror_eq]; rfl

theorem State.mirror_unpaired {s : State} (h : s.splice.paired = false) (i : MirrorItem) : s.mirror i = s :=
  if_neg (by simp [h])

theorem todArm_discarded {s : State} (h : s.bit F.TIME_STAT_TOD_ARMED = true ∨ s.standby = true) : s.todArm = s := by
  unfold State.todArm
  rcases h with h | h <;> simp [h]

theorem todArm_bad {s : State} (harmed : s.bit F.TIME_STAT_TOD_ARMED = false) (hs : s.standby = false)
    (hns : 999999999 < s.wget W.TIME_TOD_TIME / 65536 % 2 ^ 32) : s.todArm = s.fset F.TIME_STAT_TOD_BAD 1 := by
  unfold State.todArm
  simp only [harmed, hs, Bool.or_self, Bool.false_eq_true, if_false, if_pos hns]

theorem todArm_armed {s : State} (harmed : s.bit F.TIME_STAT_TOD_ARMED = false) (hs : s.standby = false)
    (hns : s.wget W.TIME_TOD_TIME / 65536 % 2 ^ 32 ≤ 999999999) :
    s.todArm = ({ s with time := { s.time with tod := s.wget W.TIME_TOD_TIME } }).fset F.TIME_STAT_TOD_ARMED 1 := by
  unfold State.todArm
  simp only [harmed, hs, Bool.or_self, Bool.false_eq_true, if_false, if_neg (Nat.not_lt.mpr hns)]

theorem phaseGo_discarded {s : State} (h : s.bit F.TIME_STAT_PHASE_BUSY = true ∨ 10 ^ 9 * 2 ^ 16 ≤ s.phase.natAbs) :
    s.phaseGo = s.fset F.TIME_STAT_PHASE_DISCARDED 1 := if_pos h

/-- What PHASE_GO starts: a slew, which a paired device mirrors, or a step (R215, R300). -/
theorem phaseGo_started {s : State} (hbusy : s.bit F.TIME_STAT_PHASE_BUSY = false) (hp : s.phase.natAbs < 10 ^ 9 * 2 ^ 16) :
    let u := s.fset F.TIME_STAT_PHASE_BUSY 1
    s.phaseGo = if s.bit F.TIME_CTL_PHASE_MODE then
        { u with time := { s.time with slew := some (s.phase * 1000000) } }.mirror (.time (.slew (BitVec.ofInt 64 s.phase)))
      else { u with time := { s.time with step := some s.phase } } :=
  if_neg (by rintro (h | h) <;> [simp [hbusy] at h; omega])

/-- TOD_ARM and PHASE_GO write TIME_STAT, and of the units the time unit and the mirror stream. -/
theorem State.todArm_wordsBut (s : State) : s.wordsBut s.todArm [R.TIME_STAT] := by
  intro a ha
  have hne : a ≠ R.TIME_STAT := by simpa using ha
  unfold State.todArm
  dsimp only
  split
  · rfl
  · split <;> exact State.reg_fset_ne _ _ _ hne

theorem State.phaseGo_wordsBut (s : State) : s.wordsBut s.phaseGo [R.TIME_STAT] := by
  have hu : ∀ f x, f.addr = R.TIME_STAT → s.wordsBut (s.fset f x) [R.TIME_STAT] := fun f x hf =>
    (s.onlyWords_fset (l := [R.TIME_STAT]) x (by simp [hf])).2
  unfold State.phaseGo
  dsimp only
  split
  · exact hu _ _ rfl
  · split
    · exact fun a ha => (State.mirror_reg _ _ a).trans (hu _ _ rfl a ha)
    · exact hu _ _ rfl

theorem exec_todArm {s : State} (h : s.hostRuns R.TIME_CTL = true) : exec .todArm s = .next s.todArm :=
  congrArg Host.Outcome.next (hostCmd_effect h
    ((State.todArm_only (Closed.sameOn s [.power] (by decide)) (s.sameOn_refl _)) .power (by simp)).symm
    s.todArm_wordsBut (by decide) (by decide) (by decide))

theorem exec_todCancel {s : State} (h : s.hostRuns R.TIME_CTL = true) : exec .todCancel s = .next s.todCancel :=
  congrArg Host.Outcome.next (hostCmd_onlyWords h
    (s.onlyWords_fset (l := [R.TIME_STAT]) (f := F.TIME_STAT_TOD_ARMED) 0 (by simp)) (by decide) (by decide) (by decide))

theorem exec_phaseGo {s : State} (h : s.hostRuns R.TIME_CTL = true) : exec .phaseGo s = .next s.phaseGo :=
  congrArg Host.Outcome.next (hostCmd_effect h
    ((State.phaseGo_only (Closed.sameOn s [.power] (by decide)) (s.sameOn_refl _)) .power (by simp)).symm
    s.phaseGo_wordsBut (by decide) (by decide) (by decide))

theorem setFreq_wordsBut (s : State) (v : W32) : s.wordsBut (s.setFreq v) [R.TIME_FREQ, R.TIME_STAT] :=
  fun a ha => (State.mirror_reg _ _ a).trans
    (((s.onlyWords_setReg v (by simp)).trans (State.onlyWords_fset _ _ (by simp))).2 a ha)

theorem setFreq_eq (s : State) (v : W32) :
    s.setFreq v = { s with regs := (s.setFreq v).regs, splice := (s.setFreq v).splice } := by
  conv_lhs => rw [State.setFreq, State.mirror_eq]
  rw [State.setFreq, State.mirror_eq]
  rfl

theorem exec_timeFreq {s : State} (v : W32) (h : s.hostRuns R.TIME_FREQ = true) (hs : s.standby = false) :
    exec (.timeFreq v) s = .next (s.setFreq v) := by
  have he : s.writeFreq v = s.setFreq v := if_neg (by simp [hs])
  refine congrArg Host.Outcome.next ((hostCmd_effect h ?_ (he ▸ setFreq_wordsBut s v) (by decide) (by decide) (by decide)).trans he)
  rw [he, setFreq_eq]

/-- TIME_FREQ shows in FREQ_CLAMP whether the value lies beyond the limits (R214). -/
theorem freqApplied_ne (v : W32) : (freqApplied v != v.toInt) = decide (v.toInt < -3276800 ∨ 3276800 < v.toInt) := by
  unfold freqApplied
  rw [Bool.eq_iff_iff, bne_iff_ne, decide_eq_true_iff]
  omega

theorem phaseGo_step {s : State} (hbusy : s.bit F.TIME_STAT_PHASE_BUSY = false) (hp : s.phase.natAbs < 10 ^ 9 * 2 ^ 16) :
    s.phaseGo.bit F.TIME_STAT_PHASE_BUSY = true ∧ s.phaseGo.time.now = s.time.now ∧
      (s.bit F.TIME_CTL_PHASE_MODE = false → s.phaseGo.time.step = some s.phase ∧ s.phaseGo.time.slew = s.time.slew) ∧
      (s.bit F.TIME_CTL_PHASE_MODE = true →
        s.phaseGo.time.slew = some (s.phase * 1000000) ∧ s.phaseGo.time.step = s.time.step) := by
  have hset : (s.fset F.TIME_STAT_PHASE_BUSY 1).bit F.TIME_STAT_PHASE_BUSY = true := State.bit_fset_one _ _ (by decide) (by decide)
  rw [phaseGo_started hbusy hp]
  cases s.bit F.TIME_CTL_PHASE_MODE with
  | false => exact ⟨hset, rfl, fun _ => ⟨rfl, rfl⟩, nofun⟩
  | true =>
    simp only [if_true]
    rw [State.mirror_eq]
    exact ⟨hset, rfl, nofun, fun _ => ⟨rfl, rfl⟩⟩

/-! ### Transmit timestamp queues -/

theorem State.txqList_setTxq (s : State) (k j : Nat) (l : List TxStamp) :
    (s.setTxq k l).txqList j = if j = k then l else s.txqList j := SMap.get_set _ _ _ _ _

/-- The state in which a popped value stands in the answer, in the snapshots of its upper words and in TXQ_ENT. -/
def State.txqShown (s : State) (k v : Nat) : State :=
  ({ s with host := { data := BitVec.ofNat 32 v, status := 0 }
            snap := [1, 2, 3].foldl (fun m i => SMap.put m (R.TXQ_ENT k + 4 * i) (BitVec.ofNat 32 (v / 2 ^ (32 * i)))) s.snap }
    : State).wset ⟨R.TXQ_ENT k, 4, 128⟩ v

theorem txqPop_nil {s : State} {k : Nat} (h : s.txqList k = []) : s.txqPop k = s.txqShown k 0 := by
  unfold State.txqPop
  simp only [h]
  rfl

theorem txqPop_cons {s : State} {k : Nat} {e : TxStamp} {es : List TxStamp} (h : s.txqList k = e :: es) :
    s.txqPop k = (s.setTxq k es).txqShown k e.bits := by
  unfold State.txqPop
  simp only [h]
  rfl

/-- What a read of the queue shows: data, status and snapshots; the units, and every word but those of TXQ_ENT, are kept. -/
theorem State.txqShown_eq (s : State) (k v : Nat) : s.txqShown k v = { s with
    regs := (s.txqShown k v).regs, host := { data := BitVec.ofNat 32 v, status := 0 },
    snap := (s.txqShown k v).snap } := by
  unfold State.txqShown State.wset
  rw [State.setWords_eq]

theorem State.txqShown_reg (s : State) (k v : Nat) {a : Nat} (h : a < R.TXQ_ENT k ∨ R.TXQ_ENT k + 16 ≤ a) :
    (s.txqShown k v).reg a = s.reg a := State.reg_wset _ _ _ _ h

theorem State.txqShown_snap (s : State) (k v : Nat) {i : Nat} (h1 : 1 ≤ i) (h3 : i ≤ 3) :
    SMap.find (s.txqShown k v).snap (R.TXQ_ENT k + 4 * i) = some (BitVec.ofNat 32 (v / 2 ^ (32 * i))) := by
  unfold State.txqShown
  rw [State.wset_snap]
  simp only [List.foldl, SMap.find_put]
  obtain rfl | rfl | rfl : i = 1 ∨ i = 2 ∨ i = 3 := by omega
  all_goals simp

/-- A pop writes words of the queue's own registers. -/
theorem State.txqPop_reg (s : State) (k : Nat) {a : Nat} (h : a < R.TXQ_ENT k ∨ R.TXQ_ENT k + 20 ≤ a) :
    (s.txqPop k).reg a = s.reg a := by
  cases hl : s.txqList k with
  | nil => rw [txqPop_nil hl]; exact s.txqShown_reg k 0 (by omega)
  | cons e es =>
    rw [txqPop_cons hl, State.txqShown_reg _ k _ (by omega)]
    exact State.reg_fset_ne _ _ _ (by simp only [R.TXQ_ENT] at h; simp only; omega)

theorem exec_txqPop {k : BitVec 6} {s : State} (h : s.hostReads (R.TXQ_ENT k.toNat) = true) :
    exec (.txqPop k) s = .next ((s.answer 0).txqPop k.toNat) := by
  have hpower := (State.txqPop_only (s := s.answer 0) (Closed.sameOn (s.answer 0) [.power] (by decide)) (State.sameOn_refl _ _) k.toNat)
    .power (by simp)
  have hword : ∀ a, a < 0x31000 ∨ 0x40000 ≤ a → ((s.answer 0).txqPop k.toNat).reg a = s.reg a := fun a ha =>
    State.txqPop_reg (s.answer 0) _ (by simp only [R.TXQ_ENT]; omega)
  exact congrArg Host.Outcome.next (hostGet_runs h hpower.symm (hword _ (.inl (by decide))) (hword _ (.inl (by decide)))
    (hword _ (.inr (by decide))))

theorem txqPush_short {s : State} {e : TxStamp} {k : Nat} (he : e.lane / 16 = k) (hk : k < 64)
    (h : (s.txqList k).length < 32) : (s.txqPush e).txqList k = s.txqList k ++ [e] := by
  unfold State.txqPush
  simp only [he, Nat.not_le.mpr hk, h, if_false, if_true, State.txqList_setTxq]

theorem txqPush_full {s : State} {e : TxStamp} {k : Nat} (he : e.lane / 16 = k) (hk : k < 64)
    (h : 32 ≤ (s.txqList k).length) :
    (s.txqPush e).txqList k = s.txqList k ∧ (s.txqPush e).bit (F.TXQ_STAT_OVF k) = true := by
  have hpush : s.txqPush e = (s.fset (F.TXQ_STAT_OVF k) 1).count (F.TXQ_DROP_COUNT k) 1 := by
    unfold State.txqPush
    simp only [he, Nat.not_le.mpr hk, Nat.not_lt.mpr h, if_false]
  rw [hpush]
  refine ⟨rfl, (State.bit_fset_apart _ _ _ _ (by simp) (.inl ?_)).trans (State.bit_fset_one _ _ (by simp) (by simp))⟩
  simp only
  omega

/-! ### Timed outputs -/

theorem State.tout_setTout (s : State) (n m : Nat) (x : TimeOut) :
    (s.setTout n x).tout m = if m = n then x else s.tout m := SMap.get_set _ _ _ _ _

theorem State.toutDisable_onlyWords (s : State) (n : Nat) : s.onlyWords (s.toutDisable n) [R.TOUT_CTL n] :=
  (s.onlyWords_fset _ (by simp)).trans (State.onlyWords_fset _ _ (by simp))

/-- Arming writes the function's control word alone. -/
theorem State.toutArm_wordsBut (s : State) (n : Nat) : s.wordsBut (s.toutArm n) [R.TOUT_CTL n] := by
  intro a ha
  have hne : a ≠ R.TOUT_CTL n := by simpa using ha
  have hset : ∀ (t : State) (f : Fld) (x : Nat), f.addr = R.TOUT_CTL n → (t.fset f x).reg a = t.reg a :=
    fun t f x hf => State.reg_fset_ne _ _ _ (by rwa [hf])
  unfold State.toutArm
  dsimp only
  split
  · rw [hset _ _ _ rfl, hset _ _ _ rfl]
  · have hon : ∀ x, ((s.fset (F.TOUT_CTL_EN n) 1).setTout n x).reg a = s.reg a := fun x => hset s _ _ rfl
    split
    · split
      · rw [hset _ _ _ rfl, hon]
      · rw [hset _ _ _ rfl, hset _ _ _ rfl, hset _ _ _ rfl, hon]
    · exact hon _

theorem State.toutEnable_wordsBut (s : State) (n : Nat) : s.wordsBut (s.toutEnable n) [R.TOUT_CTL n] := by
  unfold State.toutEnable
  split
  · exact fun _ _ => rfl
  · split
    · exact (s.onlyWords_fset _ (by simp)).2
    · exact s.toutArm_wordsBut n

theorem toutCtl_apart (n : Nat) : R.PWR_STAT ∉ [R.TOUT_CTL n] ∧ R.HST_BERR ∉ [R.TOUT_CTL n] ∧ R.TRC_STAT ∉ [R.TOUT_CTL n] := by
  simp only [List.mem_singleton, R.PWR_STAT, R.HST_BERR, R.TRC_STAT, R.TOUT_CTL]
  omega

theorem exec_toutEnable {n : BitVec 4} {s : State} (h : s.hostRuns (R.TOUT_CTL n.toNat) = true) :
    exec (.toutEnable n) s = .next (s.toutEnable n.toNat) := by
  have hpower := (State.toutEnable_only (s := s) (Closed.sameOn s [.power] (by decide)) (State.sameOn_refl _ _) n.toNat)
    .power (by simp)
  exact congrArg Host.Outcome.next (hostCmd_effect h hpower.symm (s.toutEnable_wordsBut _)
    (toutCtl_apart _).1 (toutCtl_apart _).2.1 (toutCtl_apart _).2.2)

theorem exec_toutDisable {n : BitVec 4} {s : State} (h : s.hostRuns (R.TOUT_CTL n.toNat) = true) :
    exec (.toutDisable n) s = .next (s.toutDisable n.toNat) :=
  congrArg Host.Outcome.next (hostCmd_onlyWords h (s.toutDisable_onlyWords _)
    (toutCtl_apart _).1 (toutCtl_apart _).2.1 (toutCtl_apart _).2.2)

theorem toutArm_bad {s : State} {n : Nat} (h : s.toutOk n = false) :
    s.toutArm n = (s.fset (F.TOUT_CTL_BADCFG n) 1).fset (F.TOUT_CTL_EN n) 0 := by
  unfold State.toutArm
  simp [h]

/-- A function whose START lies ahead is armed (R223). -/
theorem toutArm_ahead {s : State} {n : Nat} (h : s.toutOk n = true)
    (hs : shortPast (s.wget (W.TOUT_START_START n)) s.time.now = false) :
    (s.toutArm n).bit (F.TOUT_CTL_EN n) = true ∧ ((s.toutArm n).tout n).fired = false ∧
      (s.toutArm n).bit (F.TOUT_CTL_LATE n) = s.bit (F.TOUT_CTL_LATE n) := by
  unfold State.toutArm
  simp only [h, hs, Bool.not_true, Bool.false_eq_true, if_false]
  refine ⟨State.bit_fset_one s _ (by simp) (by simp), ?_, State.bit_fset_apart s _ _ _ (by simp) (.inr (.inl (by simp)))⟩
  rw [State.tout_setTout, if_pos rfl]

/-- A function whose START has passed is late, and in mode 0 over (R224). -/
theorem toutArm_past {s : State} {n : Nat} (h : s.toutOk n = true)
    (hs : shortPast (s.wget (W.TOUT_START_START n)) s.time.now = true) :
    (s.toutArm n).bit (F.TOUT_CTL_LATE n) = true ∧
      (s.bit (F.TOUT_CTL_MODE n) = true → (s.toutArm n).bit (F.TOUT_CTL_EN n) = true) ∧
      (s.bit (F.TOUT_CTL_MODE n) = false →
        (s.toutArm n).bit (F.TOUT_CTL_EN n) = false ∧ (s.toutArm n).bit (F.TOUT_CTL_DONE n) = true) := by
  unfold State.toutArm
  simp only [h, hs, Bool.not_true, Bool.false_eq_true, if_false, if_true]
  cases s.bit (F.TOUT_CTL_MODE n) with
  | true =>
    refine ⟨State.bit_fset_one _ _ (by simp) (by simp), fun _ => ?_, nofun⟩
    exact (State.bit_fset_apart _ _ _ _ (by simp) (.inr (.inr (by simp)))).trans
      (State.bit_fset_one s _ (by simp) (by simp))
  | false =>
    refine ⟨?_, nofun, fun _ => ⟨State.bit_fset_zero _ _ (by simp) (by simp), ?_⟩⟩
    · exact (State.bit_fset_apart _ _ _ _ (by simp) (.inr (.inl (by simp)))).trans
        ((State.bit_fset_apart _ _ _ _ (by simp) (.inr (.inr (by simp)))).trans
          (State.bit_fset_one _ _ (by simp) (by simp)))
    · exact (State.bit_fset_apart _ _ _ _ (by simp) (.inr (.inl (by simp)))).trans
        (State.bit_fset_one _ _ (by simp) (by simp))

theorem toutPulse_idle {s : State} {n : Nat} (h : s.bit (F.TOUT_CTL_EN n) = false ∨ (s.tout n).active = true ∨
    (s.bit (F.TOUT_CTL_MODE n) = false ∧ (s.tout n).fired = true) ∨ s.toutDue n = false) : s.toutPulse n = s := by
  unfold State.toutPulse
  refine if_pos ?_
  rcases h with h | h | ⟨h, h'⟩ | h <;> simp [*]

/-- A due function starts its pulse, and in mode 0 is done (R223). -/
theorem toutPulse_due {s : State} {n : Nat} (hen : s.bit (F.TOUT_CTL_EN n) = true) (hact : (s.tout n).active = false)
    (hone : s.bit (F.TOUT_CTL_MODE n) = true ∨ (s.tout n).fired = false) (hdue : s.toutDue n = true) (hn : n < 16) :
    ((s.toutPulse n).tout n).active = true ∧ (s.toutPulse n).trig.pulse.getLsbD (192 + n) = true ∧
      (s.bit (F.TOUT_CTL_MODE n) = true → (s.toutPulse n).regs = s.regs) ∧
      (s.bit (F.TOUT_CTL_MODE n) = false →
        (s.toutPulse n).bit (F.TOUT_CTL_DONE n) = true ∧ s.wordsBut (s.toutPulse n) [R.TOUT_CTL n]) := by
  have hpulse : ∀ x : TimeOut, ((s.setTout n x).pulse (192 + n)).trig.pulse.getLsbD (192 + n) = true := fun x => by
    have hbit : (BitVec.ofNat 256 (2 ^ (192 + n))).getLsbD (192 + n) = true := by
      rw [BitVec.getLsbD_ofNat, Nat.testBit_two_pow_self, Bool.and_true, decide_eq_true_iff]
      omega
    simp only [State.pulse, BitVec.getLsbD_or, hbit, Bool.or_true]
  have htout : ∀ x : TimeOut, ((s.setTout n x).pulse (192 + n)).tout n = x := fun x =>
    (State.tout_setTout s n n x).trans (if_pos rfl)
  unfold State.toutPulse
  rw [if_neg (by rcases hone with h | h <;> simp [*])]
  cases s.bit (F.TOUT_CTL_MODE n) with
  | true => exact ⟨congrArg TimeOut.active (htout _), hpulse _, fun _ => rfl, nofun⟩
  | false =>
    exact ⟨congrArg TimeOut.active (htout _), hpulse _, nofun, fun _ =>
      ⟨State.bit_fset_one _ _ (by simp) (by simp), fun a ha => State.reg_fset_ne _ _ _ (by simpa using ha)⟩⟩

theorem toutEnd_early {s : State} {n : Nat} (h : (s.tout n).active = false ∨ s.time.now < (s.tout n).ends) :
    s.toutEnd n = s := by
  unfold State.toutEnd
  refine if_pos ?_
  rcases h with h | h <;> simp [h]

theorem toutEnd_over {s : State} {n : Nat} (hact : (s.tout n).active = true) (hend : (s.tout n).ends ≤ s.time.now)
    (hheld : s.bit (F.TOUT_CTL_PENDING_ENABLE n) = false) :
    s.toutEnd n = s.setTout n { s.tout n with active := false } := by
  have hheld' : (s.setTout n { s.tout n with active := false }).bit (F.TOUT_CTL_PENDING_ENABLE n) = false := hheld
  unfold State.toutEnd
  rw [if_neg (by simpa [hact] using hend)]
  exact if_neg (by simp [hheld'])

theorem State.txqList_congr {s t : State} (h : t.time = s.time) (k : Nat) : t.txqList k = s.txqList k := by
  simp only [State.txqList, h]

/-- A read of an empty queue answers 0; of another it answers and removes the oldest entry (R221). -/
theorem txqPop_answer {s : State} {k : Nat} :
    (s.txqList k = [] → (s.txqPop k).host.data = 0 ∧ (s.txqPop k).time = s.time ∧ (s.txqPop k).mem = s.mem) ∧
      ∀ e es, s.txqList k = e :: es → (s.txqPop k).host.data = BitVec.ofNat 32 e.bits ∧ (s.txqPop k).host.status = 0 ∧
        (∀ j, (s.txqPop k).txqList j = if j = k then es else s.txqList j) ∧
        (∀ i, 1 ≤ i → i ≤ 3 →
          SMap.find (s.txqPop k).snap (R.TXQ_ENT k + 4 * i) = some (BitVec.ofNat 32 (e.bits / 2 ^ (32 * i)))) ∧
        (s.txqPop k).fget (F.TXQ_STAT_LEVEL k) = es.length % 64 := by
  refine ⟨fun hl => ?_, fun e es hl => ?_⟩
  · rw [txqPop_nil hl, State.txqShown_eq]
    exact ⟨rfl, rfl, rfl⟩
  · rw [txqPop_cons hl]
    refine ⟨?_, ?_, fun j => ?_, fun i h1 h3 => State.txqShown_snap _ _ _ h1 h3, ?_⟩
    · rw [State.txqShown_eq]
    · rw [State.txqShown_eq]
    · have htime : ((s.setTxq k es).txqShown k e.bits).time = (s.setTxq k es).time := by rw [State.txqShown_eq]
      exact (State.txqList_congr htime j).trans (s.txqList_setTxq k j es)
    · have hword : ((s.setTxq k es).txqShown k e.bits).reg (F.TXQ_STAT_LEVEL k).addr = (s.setTxq k es).reg (F.TXQ_STAT_LEVEL k).addr :=
        State.txqShown_reg _ _ _ (by simp only [R.TXQ_ENT]; omega)
      exact (State.fget_congr _ hword).trans (State.fget_fset _ _ _ (by simp))

theorem toutEnable_on {s : State} {n : Nat} (h : s.bit (F.TOUT_CTL_EN n) = true) : s.toutEnable n = s := if_pos h

theorem toutEnable_held {s : State} {n : Nat} (h : s.bit (F.TOUT_CTL_EN n) = false) (hact : (s.tout n).active = true) :
    s.toutEnable n = s.fset (F.TOUT_CTL_PENDING_ENABLE n) 1 := by
  unfold State.toutEnable
  simp [h, hact]

theorem toutEnable_arms {s : State} {n : Nat} (h : s.bit (F.TOUT_CTL_EN n) = false) (hact : (s.tout n).active = false) :
    s.toutEnable n = s.toutArm n := by
  unfold State.toutEnable
  simp [h, hact]

/-- Settles O28: each command of the host is its effect on the time unit, and the outputs follow their settings. -/
theorem timeOutputs : Obligations.TimeOutputs := by
  unfold Obligations.TimeOutputs
  refine ⟨⟨fun s h hs => ?_, fun v s h hs => ?_, fun v s hs => ?_⟩, fun k s h => ?_, fun n s h => ?_, fun n s => ?_,
    fun k s e he hk => ?_⟩
  · rw [exec_todArm h, exec_todCancel h, exec_phaseGo h]
    refine ⟨fun harmed => by rw [todArm_discarded (.inl harmed)], fun harmed hns => by rw [todArm_bad harmed hs hns],
      fun harmed hns => ⟨_, rfl, ?_, ?_, ?_, s.todArm_wordsBut⟩, ⟨_, rfl, ?_, s.onlyWords_fset _ (by simp)⟩,
      fun hd => by rw [phaseGo_discarded hd], fun hbusy hp => ?_⟩
    · rw [todArm_armed harmed hs hns]; exact State.bit_fset_one _ _ (by decide) (by decide)
    · rw [todArm_armed harmed hs hns]; rfl
    · rw [todArm_armed harmed hs hns]; rfl
    · exact State.bit_fset_zero _ _ (by decide) (by decide)
    · obtain ⟨hset, hnow, hstep, hslew⟩ := phaseGo_step hbusy hp
      exact ⟨_, rfl, hset, hnow, s.phaseGo_wordsBut, hstep, hslew⟩
  · rw [exec_timeFreq v h hs]
    have hw := setFreq_wordsBut s v
    refine ⟨_, rfl, ?_, ?_, ?_, hw, fun hpair => ⟨?_, hw⟩⟩
    · rw [State.setFreq, State.mirror_reg, State.setBit, State.reg_fset_ne _ _ _ (by decide), State.reg_setReg_self]
    · rw [State.setFreq, State.bit_congr _ (State.mirror_reg _ _ _), State.bit_setBit _ _ _ (by decide) (by decide),
        freqApplied_ne]
    · rw [setFreq_eq]
    · have he : s.setFreq v = (s.setReg R.TIME_FREQ v).setBit F.TIME_STAT_FREQ_CLAMP (freqApplied v != v.toInt) :=
        State.mirror_unpaired (s := (s.setReg R.TIME_FREQ v).setBit F.TIME_STAT_FREQ_CLAMP _) hpair _
      rw [he]; rfl
  · refine ⟨fun h => ?_, fun h => by rw [exec_todArm h, todArm_discarded (.inr hs)]⟩
    have he : s.writeFreq v = s := if_pos hs
    exact congrArg Host.Outcome.next ((hostCmd_onlyWords (l := []) h (he.symm ▸ s.onlyWords_refl _) (by simp) (by simp)
      (by simp)).trans he)
  · rw [exec_txqPop h]
    obtain ⟨hnil, hcons⟩ := txqPop_answer (s := s.answer 0) (k := k.toNat)
    refine ⟨fun hl => ⟨_, rfl, hnil hl⟩, fun e es hl => ?_⟩
    obtain ⟨hdata, hstatus, hlists, hsnap, hlevel⟩ := hcons e es hl
    exact ⟨_, rfl, hdata, hstatus, (hlists _).trans (if_pos rfl), fun j hj => (hlists j).trans (if_neg hj), hsnap, hlevel⟩
  · intro i
    rw [exec_toutEnable h, exec_toutDisable h]
    refine ⟨fun hen => by rw [toutEnable_on hen], fun hen hact => by rw [toutEnable_held hen hact], fun hen hact hok => ?_,
      fun hen hact hok => ?_, _, rfl, s.toutDisable_onlyWords i, ?_, State.bit_fset_zero _ _ (by simp) (by simp)⟩
    · rw [toutEnable_arms hen hact, toutArm_bad hok]
      refine ⟨_, rfl, (s.onlyWords_fset _ (by simp)).trans (State.onlyWords_fset _ _ (by simp)), ?_,
        State.bit_fset_zero _ _ (by simp) (by simp)⟩
      exact (State.bit_fset_apart _ _ _ _ (by simp) (.inr (.inl (by simp)))).trans (State.bit_fset_one _ _ (by simp) (by simp))
    · have hmem := (State.toutArm_only (s := s) (Closed.sameOn s [.mem] (by decide)) (State.sameOn_refl _ _) i) .mem (by simp)
      rw [toutEnable_arms hen hact]
      exact ⟨_, rfl, s.toutArm_wordsBut i, hmem.symm, fun hs => toutArm_ahead hok hs, fun hs => toutArm_past hok hs⟩
    · exact (State.bit_fset_apart _ _ _ _ (by simp) (.inr (.inr (by simp)))).trans (State.bit_fset_zero _ _ (by simp) (by simp))
  · intro i
    refine ⟨fun h => congrArg Host.Outcome.next (toutPulse_idle h), fun hen hact hone hdue =>
      ⟨_, rfl, toutPulse_due hen hact hone hdue n.isLt⟩, fun h => congrArg Host.Outcome.next (toutEnd_early h),
      fun hact hend hheld => ⟨_, rfl, ?_⟩⟩
    rw [toutEnd_over hact hend hheld, State.tout_setTout, if_pos rfl]
    exact ⟨rfl, rfl, rfl⟩
  · exact ⟨txqPush_short he hk, txqPush_full he hk⟩

end Sys2Proof.Machine
end

section
/-! A host's register write to the scratch window of a bank that the part does not have (R3, R117). -/

namespace Sys2Proof.Machine

/-- A host write that reaches the window of an absent bank is no register write: its error is captured (R3, R362). -/
theorem hostStore_absentWindow {s : State} {a : Nat} (v : W32) (hruns : s.hostRuns (a / 4 * 4) = true)
    (habsent : s.absentWindow a = true) : (s.hostStore a 4 v).bit F.HST_BERR_VALID = true := by
  obtain ⟨haway, hrun, -, hentry, hexit, hreach, hon, hlink, hheld, hsees⟩ := hostRuns_parts hruns
  have hbus := s.onlyWords_busError 2 a true
  have hpower : (s.busError 2 a true).power = s.power := hbus.unit State.power fun _ => rfl
  have hstate : (s.busError 2 a true).fget F.PWR_STAT_STATE = 0 := (State.fget_congr _ (hbus.2 _ (by decide))).trans hrun
  have hctl : a ≠ R.PWR_CTL := by
    rintro rfl
    exact absurd habsent (by simp [State.absentWindow, R.PWR_CTL])
  rw [State.hostStore, if_neg (by simp [haway]), if_neg (by simp [hctl])]
  rw [hostCmd_served (u := s.busError 2 a true) haway hrun hheld ?_ (hpower ▸ hentry) (hpower ▸ hexit) hstate]
  · exact (State.bit_congr _ (State.watch_reg _ _ _ (by decide))).trans (s.busError_valid 2 a true)
  · rw [trainLink_done hlink, State.hostWrite, if_neg (by simpa using hreach), transact_unseen hsees]
    simp [hon, habsent]

theorem exec_registerWrite_host (a v : W32) (b : BitVec 3) (s : State) :
    exec (.registerWrite 0 a v b) s = .next (s.watch allBits fun s => s.hostStore a.toNat b.toNat v) := rfl

/-- An AY4060 with an image and a trained link, which nothing observes. -/
def smallPart : State := { State.reset with part := 0x4060, image := { committed := true }, regs := [(R.HST_LINK, 9)] }

/-- Refutes O55: on an AY4060 a host write to the window of scratch bank 32, a value with no writable field, changes HST_BERR. -/
theorem not_registers : ¬ Obligations.Registers := by
  unfold Obligations.Registers
  rintro ⟨hwrites, -⟩
  have hruns : smallPart.hostRuns 0x0C000000 = true := by decide
  obtain ⟨-, hnone, -⟩ := hwrites 0 0x0C000000 0 smallPart (by decide) (.inl ⟨rfl, hruns⟩) (by decide)
  have hsame : exec (.registerWrite 0 0x0C000000 0 4) smallPart = .next smallPart := hnone (by decide)
  have hvalid : smallPart.bit F.HST_BERR_VALID = true := by
    rw [exec_registerWrite_host] at hsame
    have ht := congrArg (fun t : State => t.bit F.HST_BERR_VALID) (Host.Outcome.next.inj hsame)
    have hcaptured : (smallPart.hostStore 0x0C000000 4 0).bit F.HST_BERR_VALID = true :=
      hostStore_absentWindow 0 hruns (by decide)
    exact ht.symm.trans ((State.bit_congr _ (State.watch_reg _ _ _ (by decide))).trans hcaptured)
  exact absurd hvalid (by decide)

end Sys2Proof.Machine
end

section
/-! A write that a port holds after it has reached its memory: the commit leaves it there (R80, R126). -/

namespace Sys2Proof.Machine

/-- A write to cord memory that has been performed and has not left its port. -/
def doneWrite : PortOp :=
  { mode := 1, write := true, addr := 0, data := 0, be := 0xFF, strand := 0, step := 0, turn := 0, fire := 0, access := 1, ret := 2
    time := 0, accessed := true }

/-- The last step of a turn of 16 steps, with such a write in port 0 of cord 0. -/
def lastStepWithWrite : State :=
  { State.reset.fset F.TURN_CFG_L 16 with
    core := { phase := .turn, cur := some 15 }, ports := [(0, { ops := [doneWrite] })] }

/-- Refutes O16: its clause on ports does not exclude a performed write that is still listed, which the commit does not touch. -/
theorem not_turnCommit : ¬ Obligations.TurnCommit := by
  unfold Obligations.TurnCommit
  rintro ⟨-, -, -, hports, -⟩
  have hops : ∀ {q : PortOp → Prop}, q doneWrite → ∀ o ∈ ({ ops := [doneWrite] } : Port).ops, q o := by
    intro q hq o ho
    rwa [List.mem_singleton.mp ho]
  obtain ⟨t, ht, hleft⟩ := hports lastStepWithWrite 0 { ops := [doneWrite] } rfl (by decide) rfl (by decide)
    (fun _ hb => nomatch hb) rfl (.inl (hops rfl)) (hops ⟨rfl, rfl, by decide⟩)
  have hwatch : t.ports = lastStepWithWrite.commitTurn.ports := by
    cases ht
    exact (State.onlyWords_watch _ _ _ (List.mem_singleton_self _)).unit State.ports fun _ => rfl
  have hkept : doneWrite ∈ (t.port 0).ops := by
    rw [State.port, hwatch]
    decide
  exact Bool.noConfusion (hleft doneWrite hkept).1

end Sys2Proof.Machine
end

section
/-! The start-up script (R281, R285): where it stands, what its accesses of a trigger counter's CMP do, and how it is refused. -/

namespace Sys2Proof.Machine

/-! ### The watch of poll conditions writes HST_EVT alone -/

/-- What does not look at the registers is that of the effect. -/
theorem State.watch_unit (s : State) (bits : List Nat) (f : State → State) {α : Type} (g : State → α)
    (hg : ∀ t r, g { t with regs := r } = g t) : g (s.watch bits f) = g (f s) :=
  (s.onlyWords_watch bits f (List.mem_singleton_self _)).unit g (hg _)

theorem State.watch_fget (s : State) (bits : List Nat) (f : State → State) (d : Fld) (h : d.addr ≠ R.HST_EVT) :
    (s.watch bits f).fget d = (f s).fget d := State.fget_congr d (s.watch_reg bits f h)

theorem State.watch_bit (s : State) (bits : List Nat) (f : State → State) (d : Fld) (h : d.addr ≠ R.HST_EVT) :
    (s.watch bits f).bit d = (f s).bit d := State.bit_congr d (s.watch_reg bits f h)

/-! ### Where the script is -/

/-- What `scriptAt` says of the load and the device. -/
theorem scriptAt_parts {s : State} {op : Nat} (h : s.scriptAt op = true) :
    s.load.part = false ∧ s.inReset = false ∧
      ((s.fget F.CFG_STAT_STATE = 2 ∧ s.preNext = true) ∨ s.fget F.CFG_STAT_STATE = 4) := by
  unfold State.scriptAt at h
  simp only [Bool.and_eq_true, Bool.not_eq_true', beq_iff_eq, Bool.or_eq_true] at h
  obtain ⟨⟨⟨⟨⟨_, hpart⟩, hreset⟩, _⟩, _⟩, hstate⟩ := h
  exact ⟨hpart, hreset, hstate⟩

/-- Among the last entries the script goes on to the next one. -/
theorem scriptNext_last {s : State} (h : s.fget F.CFG_STAT_STATE = 4) :
    s.scriptNext = { s with load := { s.load with pc := s.load.pc + 1 } } :=
  if_neg fun hstate : s.fget F.CFG_STAT_STATE = 2 => absurd (h.symm.trans hstate) (by decide)

/-! ### A refusal of a full load -/

/-- The words that the refusal of a full load shows: code, section and frame, and the next state (R282). -/
def State.showRefusal (s : State) (code sec frame state : Nat) : State :=
  ((((s.fset F.CFG_REFUSE_CODE code).fset F.CFG_REFUSE_SECTION sec).fset F.CFG_REFUSE_FRAME_FRAME frame).fset
    F.CFG_STAT_STATE state).fset F.CFG_CHAIN_IN_ACTIVE 0

theorem refuseLoad_full {s : State} (h : s.load.part = false) (code sec frame : Nat) :
    s.refuseLoad code sec frame =
      { s.showRefusal code sec frame (if s.bootsOn then 1 else 6) with
        load := { s.load.rest with dir := s.load.dir, next := s.load.next, start := s.load.start } } := by
  unfold State.refuseLoad
  simp only [h, Bool.false_eq_true, if_false]
  rfl

theorem State.showRefusal_shows (s : State) (code sec frame : Nat) {state : Nat} (h : state < 2 ^ 4) :
    let t := s.showRefusal code sec frame state
    t.fget F.CFG_REFUSE_CODE = code % 256 ∧ t.fget F.CFG_REFUSE_SECTION = sec % 256 ∧
      t.fget F.CFG_REFUSE_FRAME_FRAME = frame % 2 ^ 32 ∧ t.fget F.CFG_STAT_STATE = state ∧
      t.bit F.CFG_CHAIN_IN_ACTIVE = false := by
  unfold State.showRefusal
  refine ⟨?_, ?_, ?_, ?_, State.bit_fset_zero _ _ (by decide) (by decide)⟩
  · rw [State.fget_fset_apart _ _ _ _ (by decide) (.inl (by decide)), State.fget_fset_apart _ _ _ _ (by decide) (.inl (by decide)),
      State.fget_fset_apart _ _ _ _ (by decide) (.inl (by decide)),
      State.fget_fset_apart _ _ _ _ (by decide) (.inr (.inr (by decide))), State.fget_fset _ _ _ (by decide)]
    rfl
  · rw [State.fget_fset_apart _ _ _ _ (by decide) (.inl (by decide)), State.fget_fset_apart _ _ _ _ (by decide) (.inl (by decide)),
      State.fget_fset_apart _ _ _ _ (by decide) (.inl (by decide)), State.fget_fset _ _ _ (by decide)]
    rfl
  · rw [State.fget_fset_apart _ _ _ _ (by decide) (.inl (by decide)), State.fget_fset_apart _ _ _ _ (by decide) (.inl (by decide)),
      State.fget_fset _ _ _ (by decide)]
  · rw [State.fget_fset_apart _ _ _ _ (by decide) (.inl (by decide)), State.fget_fset _ _ _ (by decide)]
    exact Nat.mod_eq_of_lt h

/-- A refusal of a full load is one as R282 describes it. -/
theorem refuseLoad_refusedWith {s : State} (h : s.load.part = false) (code sec frame : Nat) :
    s.refusedWith (s.refuseLoad code sec frame) code sec frame := by
  rw [refuseLoad_full h]
  obtain ⟨hcode, hsec, hframe, hstate, hchain⟩ :=
    s.showRefusal_shows code sec frame (state := if s.bootsOn then 1 else 6) (by split <;> decide)
  exact ⟨hcode, hsec, hframe, rfl, rfl, rfl, rfl, fun _ => ⟨hstate, hchain⟩, fun hp => absurd (h.symm.trans hp) (by decide)⟩

/-- What a refusal shows stands in words that the watch of poll conditions does not write. -/
theorem refusedWith_watch {s : State} {f : State → State} {code sec frame : Nat} (bits : List Nat)
    (h : s.refusedWith (f s) code sec frame) : s.refusedWith (s.watch bits f) code sec frame := by
  obtain ⟨hcode, hsec, hframe, hon, hmem, hinstrs, himage, hfull, hpart⟩ := h
  refine ⟨?_, ?_, ?_, ?_, ?_, ?_, ?_, fun hp => ?_, fun hp => ?_⟩
  · rwa [s.watch_fget bits f _ (by decide)]
  · rwa [s.watch_fget bits f _ (by decide)]
  · rwa [s.watch_fget bits f _ (by decide)]
  · rwa [s.watch_unit bits f State.load fun _ _ => rfl]
  · rwa [s.watch_unit bits f State.mem fun _ _ => rfl]
  · rwa [s.watch_unit bits f State.instrs fun _ _ => rfl]
  · rwa [s.watch_unit bits f State.image fun _ _ => rfl]
  · obtain ⟨hstate, hchain⟩ := hfull hp
    exact ⟨(s.watch_fget bits f _ (by decide)).trans hstate, (s.watch_bit bits f _ (by decide)).trans hchain⟩
  · obtain ⟨hc, hs, hl⟩ := hpart hp
    exact ⟨(s.watch_fget bits f _ (by decide)).trans hc, (s.watch_fget bits f _ (by decide)).trans hs,
      (s.watch_fget bits f _ (by decide)).trans hl⟩

/-- The script's refusal names its entry (R281). -/
theorem scriptFail_refusedWith {s : State} (h : s.load.part = false) :
    s.refusedWith s.scriptFail 0x09 (secIndex s.load.hdr 1) s.load.pc := refuseLoad_refusedWith h _ _ _

/-! ### Accesses to a trigger counter's CMP -/

theorem groupAt_counterCompare : ∀ c < 64, groupAt (R.TRG_CNT_CMP c) = (R.TRG_CNT_CMP c, 1) := by decide

theorem desc_counterCompare : ∀ c < 64, RegMap.desc (R.TRG_CNT_CMP c) = { rw := 0xFFFFFFFF, reset := 0xFFFFFFFF } := by decide

theorem inst_none {a base stride n : Nat} (h : ¬ (base ≤ a ∧ a < base + stride * n)) (hs : 0 < stride) : inst a base stride n = none := by
  unfold inst
  refine if_neg fun ⟨hb, _, hn⟩ => h ⟨hb, ?_⟩
  have := (Nat.div_lt_iff_lt_mul hs).mp hn
  rw [Nat.mul_comm] at this
  omega

/-- The trigger engine's counters are on every part. -/
theorem blockAbsent_counterCompare (s : State) {c : Nat} (hc : c < 64) : s.blockAbsent (R.TRG_CNT_CMP c) = false := by
  have hdom : (outsideDomains.any fun d => R.TRG_CNT_CMP c == R.PWR_DOM d) = false := by
    simp only [List.any_eq_false, beq_iff_eq]
    intro d hd
    have hsmall : ∀ d ∈ outsideDomains, d < 86 := by decide
    have := hsmall d hd
    simp only [R.TRG_CNT_CMP, R.PWR_DOM]
    omega
  unfold State.blockAbsent
  rw [hdom]
  simp [R.TRG_CNT_CMP]
  omega

/-- They stand in domain 0, which no power state gates. -/
theorem blockOn_counterCompare {s : State} (h : s.bit (F.PWR_DOM_ON 0) = true) {c : Nat} (hc : c < 64) :
    s.blockOn (R.TRG_CNT_CMP c) = true := by
  have hdom : blockDomain (R.TRG_CNT_CMP c) = 0 := by
    unfold blockDomain
    simp only [R.TRG_CNT_CMP]
    repeat rw [if_neg (by omega)]
  simp [State.blockOn, hdom, State.domainOn, h, stateGates]

theorem live_counterCompare (s : State) {c : Nat} (hc : c < 64) : s.live (R.TRG_CNT_CMP c) = s.reg (R.TRG_CNT_CMP c) := by
  have hstn : stationBlock (R.TRG_CNT_CMP c) = none := by
    unfold stationBlock
    rw [if_neg (by simp only [R.TRG_CNT_CMP]; omega), if_neg (by simp only [R.TRG_CNT_CMP]; omega)]
  unfold State.live
  simp only [hstn, R.TRG_CNT_CMP, R.SPL_STAT, R.TRC_CTL, R.TRC_STAT, R.NOC_STAT, Option.isSome_none, Bool.false_eq_true, if_false]
  repeat rw [if_neg (by omega)]

/-- A read of a counter's CMP answers it and does nothing else. -/
theorem readReg_counterCompare (s : State) {c : Nat} (hc : c < 64) :
    s.readReg (R.TRG_CNT_CMP c) = s.answer (s.reg (R.TRG_CNT_CMP c)) := by
  have hgroup : readGroup (R.TRG_CNT_CMP c) = (R.TRG_CNT_CMP c, 1) := by
    unfold readGroup
    rw [if_neg (by simp only [R.TRG_CNT_CMP, R.FLT_FER]; omega), groupAt_counterCompare c hc]
  have htxq : inst (R.TRG_CNT_CMP c) (R.TXQ_ENT 0) 0x20 64 = none := inst_none (by simp only [R.TRG_CNT_CMP, R.TXQ_ENT]; omega) (by decide)
  have hbw : inst (R.TRG_CNT_CMP c) (R.G32_BW 0) 0x80 8 = none := inst_none (by simp only [R.TRG_CNT_CMP, R.G32_BW]; omega) (by decide)
  have hwin : windowAt (R.TRG_CNT_CMP c) = none := if_neg (by simp only [R.TRG_CNT_CMP]; omega)
  have hcur : s.current (R.TRG_CNT_CMP c) = s.reg (R.TRG_CNT_CMP c) := by rw [State.current, hwin]; exact live_counterCompare s hc
  have hrc : ∀ t : State, t.clearRc (R.TRG_CNT_CMP c) = t := fun t => by simp [State.clearRc, desc_counterCompare c hc]
  have hlow : s.readLow (R.TRG_CNT_CMP c) 1 = s.answer (s.reg (R.TRG_CNT_CMP c)) := by
    unfold State.readLow
    simp only [hcur, List.range_one, Nat.sub_self, List.range_zero, List.foldl_nil, State.each, List.foldl_cons, Nat.mul_zero,
      Nat.add_zero, hrc]
    rw [if_neg (by simp only [R.TRG_CNT_CMP, R.TIME_PPS_CAP]; omega), if_neg (by simp only [R.TRG_CNT_CMP, R.ACT_STAT]; omega)]
  unfold State.readReg
  simp only [hgroup, htxq, hbw, hwin, if_true, hlow]

theorem plain_counterCompare (s : State) {c : Nat} (hc : c < 64) (v : W32) :
    s.plain (R.TRG_CNT_CMP c) [v] = s.setReg (R.TRG_CNT_CMP c) v := by
  have hm : BitVec.ofNat 32 (0xFFFFFFFF ||| 0) = BitVec.allOnes 32 := by decide
  have h0 : BitVec.ofNat 32 0 = 0#32 := rfl
  simp only [State.plain, State.plainWord, desc_counterCompare c hc]
  rw [hm, h0, BitVec.not_allOnes, BitVec.and_zero, BitVec.zero_or, BitVec.and_allOnes, BitVec.and_zero, BitVec.not_zero,
    BitVec.and_allOnes]

theorem writeValue_counterCompare (s : State) (m : MasterId) {c : Nat} (hc : c < 64) (v : W32) :
    s.writeValue m (R.TRG_CNT_CMP c) [v] = s.setReg (R.TRG_CNT_CMP c) v := by
  have hset : inst (R.TRG_CNT_CMP c) (R.CAP_SET 0) 4 16 = none := inst_none (by simp only [R.TRG_CNT_CMP, R.CAP_SET]; omega) (by decide)
  have hseq : inst (R.TRG_CNT_CMP c) (R.TRG_SEQ_CTL 0) 0x200 8 = none :=
    inst_none (by simp only [R.TRG_CNT_CMP, R.TRG_SEQ_CTL]; omega) (by decide)
  have hcfg : inst (R.TRG_CNT_CMP c) (R.TRG_CNT_CFG 0) 0x10 64 = none :=
    if_neg (by simp only [R.TRG_CNT_CMP, R.TRG_CNT_CFG]; omega)
  have hlagg : (decide (R.TRG_LAGG 0 ≤ R.TRG_CNT_CMP c) && decide (R.TRG_CNT_CMP c < R.TRG_LAGG 32)) = false := by
    simp only [R.TRG_CNT_CMP, R.TRG_LAGG, Bool.and_eq_false_iff, decide_eq_false_iff_not]
    omega
  unfold State.writeValue
  repeat rw [if_neg (by simp only [R.TRG_CNT_CMP]; omega)]
  rw [if_pos (by simp only [R.TRG_CNT_CMP]; omega)]
  unfold State.writeTrg
  simp only [hset, hseq, hcfg, hlagg, Bool.false_and, Bool.false_eq_true, if_false]
  rw [if_neg (by simp only [R.TRG_CNT_CMP, R.TRG_CTL]; omega), if_neg (by simp only [R.TRG_CNT_CMP, R.TRG_SOFT]; omega),
    if_neg (by simp only [R.TRG_CNT_CMP, R.CAP_CFG]; omega), plain_counterCompare s hc]

/-- The value `v` stored in the CMP of counter `c`, with nothing left staged of it. -/
def State.storeCompare (s : State) (c : Nat) (v : W32) : State :=
  { s with staged := SMap.drop s.staged (R.TRG_CNT_CMP c) (R.TRG_CNT_CMP c + 4 * 1) }.setReg (R.TRG_CNT_CMP c) v

/-- A write of a counter's CMP stores the value. -/
theorem writeReg_counterCompare (s : State) (m : MasterId) {c : Nat} (hc : c < 64) (v : W32) :
    s.writeReg m (R.TRG_CNT_CMP c) v = s.storeCompare c v := by
  have hwritable : groupWritable (R.TRG_CNT_CMP c) 1 = true := by simp [groupWritable, desc_counterCompare c hc]
  unfold State.writeReg
  simp only [groupAt_counterCompare c hc, hwritable]
  rw [if_neg (by simp), if_neg (by simp only [R.TRG_CNT_CMP, R.ACT_HPOST_ITEM]; omega), if_neg (by omega)]
  exact writeValue_counterCompare _ m hc v

theorem wholeWord_counterCompare (c : Nat) : wholeWord (R.TRG_CNT_CMP c) 4 = true := by
  simp only [wholeWord, R.TRG_CNT_CMP, BEq.rfl, Bool.true_and, beq_iff_eq]
  omega

theorem counterCompare_aligned (c : Nat) : R.TRG_CNT_CMP c / 4 * 4 = R.TRG_CNT_CMP c := by
  simp only [R.TRG_CNT_CMP]
  omega

/-- Where nothing observes the rings, no master's accesses are seen. -/
theorem sees_of_unobserved {s : State} (h : s.observed = false) (m : MasterId) : s.sees m = false := by
  unfold State.observed at h
  simp only [Bool.or_eq_false_iff, List.any_eq_false, Bool.not_eq_true] at h
  obtain ⟨⟨htrace, hprobe⟩, hmonitor⟩ := h
  simp only [State.sees, htrace, Bool.false_and, Bool.false_or, Bool.or_eq_false_iff, List.any_eq_false]
  exact ⟨fun n hn => by simp [hprobe n hn], fun n hn => by simp [hmonitor n hn]⟩

/-- The script's read of a counter's CMP answers it and does nothing else. -/
theorem scriptRead_counterCompare {s : State} (ho : s.observed = false) (hd : s.bit (F.PWR_DOM_ON 0) = true) {c : Nat} (hc : c < 64) :
    s.scriptRead (R.TRG_CNT_CMP c) = s.answer (s.reg (R.TRG_CNT_CMP c)) := by
  unfold State.scriptRead State.readVia
  rw [transact_unseen (sees_of_unobserved ho _)]
  simp only [State.innerRead, counterCompare_aligned, blockAbsent_counterCompare s hc, blockOn_counterCompare hd hc,
    State.readSized, wholeWord_counterCompare, readReg_counterCompare s hc]
  rfl

/-- The script's write of a counter's CMP stores the value. -/
theorem scriptStore_counterCompare {s : State} (ho : s.observed = false) (hd : s.bit (F.PWR_DOM_ON 0) = true) {c : Nat} (hc : c < 64)
    (v : W32) : s.scriptStore (R.TRG_CNT_CMP c) v = s.storeCompare c v := by
  unfold State.scriptStore
  rw [transact_unseen (sees_of_unobserved ho _)]
  simp only [State.innerWrite, counterCompare_aligned, blockAbsent_counterCompare s hc, blockOn_counterCompare hd hc,
    State.writeSized, wholeWord_counterCompare, writeReg_counterCompare s _ hc]
  rfl

end Sys2Proof.Machine
end

section
/-! The script's commands before the commit (R280, R281, R372). -/

namespace Sys2Proof.Machine

/-! ### What the poll conditions read (R372) -/

/-- A channel listed as DONE or OVERFLOW after a write elsewhere is so before it. -/
theorem State.anyCapDone_of_setReg {s : State} {x : Nat} {v : W32} (hx : ∀ n, x ≠ R.CAP_STAT n)
    (h : (s.setReg x v).anyCapDone = true) : s.anyCapDone = true := by
  unfold State.anyCapDone at h ⊢
  simp only [List.any_eq_true, Bool.and_eq_true, decide_eq_true_eq, beq_iff_eq] at h ⊢
  obtain ⟨p, hp, hrange, hdone⟩ := h
  have hword : ∀ n, (s.setReg x v).capDone n = s.capDone n := fun n => by
    simp only [State.capDone, State.fget_congr (F.CAP_STAT_STATE n) (s.reg_setReg_ne v (hx n).symm)]
  have hne : p.1 ≠ x := fun he => hx ((p.1 - R.CAP_STAT 0) / 0x40) (by
    obtain ⟨⟨hlo, hhi⟩, hmod⟩ := hrange
    simp only [R.CAP_STAT] at *
    omega)
  have hlisted : p ∈ s.regs := by
    change p ∈ SMap.set RegMap.resetWord s.regs x v at hp
    unfold SMap.set at hp
    split at hp
    · exact List.mem_of_mem_filter hp
    · exact (SMap.mem_put _ _ _ _ hp).resolve_left fun he => hne (he ▸ rfl)
  exact ⟨p, hlisted, hrange, (hword _).symm.trans hdone⟩

/-- A write to a word that no poll condition reads raises none. -/
theorem State.pollBit_setReg {s : State} {x : Nat} {v : W32} (hx : x = R.CFG_STAT ∨ ∃ c < 64, x = R.TRG_CNT_CMP c)
    {b : Nat}
    (h3 : x = R.CFG_STAT → b ≠ 3) (h4 : x = R.CFG_STAT → b ≠ 4) (h : s.pollBit b = false) :
    (s.setReg x v).pollBit b = false := by
  have hne : ∀ a, a ≠ R.CFG_STAT → (a % 16 ≠ 8 ∨ a < 0x3002000) → a ≠ x := by
    obtain hx | ⟨c, -, hx⟩ := hx
    · exact fun a h _ he => h (he.trans hx)
    · intro a _ ha
      simp only [hx, R.TRG_CNT_CMP]
      omega
  have hget : ∀ f : Fld, f.addr ≠ R.CFG_STAT → (f.addr % 16 ≠ 8 ∨ f.addr < 0x3002000) →
      (s.setReg x v).fget f = s.fget f := fun f h1 h2 => State.fget_congr f (s.reg_setReg_ne v (hne _ h1 h2))
  have hbit : ∀ f : Fld, f.addr ≠ R.CFG_STAT → (f.addr % 16 ≠ 8 ∨ f.addr < 0x3002000) →
      (s.setReg x v).bit f = s.bit f := fun f h1 h2 => State.bit_congr f (s.reg_setReg_ne v (hne _ h1 h2))
  have hstate : (x = R.CFG_STAT → False) → (s.setReg x v).fget F.CFG_STAT_STATE = s.fget F.CFG_STAT_STATE := fun hc =>
    State.fget_congr _ (s.reg_setReg_ne v fun he => hc he.symm)
  have hcaps : ∀ n, x ≠ R.CAP_STAT n := by
    obtain hx | ⟨c, hc, hx⟩ := hx <;> intro n <;> simp only [hx, R.CFG_STAT, R.TRG_CNT_CMP, R.CAP_STAT] <;> omega
  have hcap : s.anyCapDone = false → (s.setReg x v).anyCapDone = false := fun h6 => by
    by_contra hd
    have := State.anyCapDone_of_setReg hcaps (Bool.eq_true_of_not_eq_false hd)
    exact absurd (h6.symm.trans this) (by decide)
  have hdma : ∀ e, (s.setReg x v).bit (F.DMA_STAT_ERR e) = s.bit (F.DMA_STAT_ERR e) ∧
      (s.setReg x v).bit (F.DMA_STAT_TAIL_BAD e) = s.bit (F.DMA_STAT_TAIL_BAD e) :=
    fun e => ⟨hbit _ (by simp only [R.CFG_STAT]; omega) (by simp only; omega),
      hbit _ (by simp only [R.CFG_STAT]; omega) (by simp only; omega)⟩
  have htxq : ∀ k, (s.setReg x v).fget (F.TXQ_STAT_LEVEL k) = s.fget (F.TXQ_STAT_LEVEL k) ∧
      (s.setReg x v).bit (F.TXQ_STAT_OVF k) = s.bit (F.TXQ_STAT_OVF k) :=
    fun k => ⟨hget _ (by simp only [R.CFG_STAT]; omega) (by simp only; omega),
      hbit _ (by simp only [R.CFG_STAT]; omega) (by simp only; omega)⟩
  unfold State.pollBit at h ⊢
  simp only [hbit F.FLT_FER_VALID (by decide) (by decide), hbit F.FLT_STAT_SAFE (by decide) (by decide),
    hbit F.FLT_STAT_GRACE_RUN (by decide) (by decide), hget F.CFG_PART_STAT_STATE (by decide) (by decide),
    hbit F.TURN_STAT_HALTED (by decide) (by decide), hbit F.TURN_STAT_OVERRUN (by decide) (by decide),
    hbit F.PWR_STAT_TRANSITION (by decide) (by decide), hbit F.SPL_STAT_DIVERGED (by decide) (by decide),
    hbit F.SPL_STAT_PARTNER_LOST (by decide) (by decide), hbit F.SPL_STAT_PROMOTED (by decide) (by decide),
    hbit F.TRG_STAT_FROZEN (by decide) (by decide), hbit F.TRC_STAT_FULL (by decide) (by decide),
    hbit F.TRC_STAT_OVF (by decide) (by decide), hbit F.HST_BERR_VALID (by decide) (by decide),
    hbit F.CFG_NVM_STAT_DONE (by decide) (by decide), hbit F.ACT_HPOST_STAT_DONE (by decide) (by decide), hdma, htxq]
  split at h
  case h_4 => simpa only [hstate fun hc => h3 hc rfl] using h
  case h_5 => simpa only [hstate fun hc => h4 hc rfl] using h
  case h_7 => exact hcap h
  all_goals exact h

/-- A trigger counter's CMP is no word of a poll condition. -/
theorem watch_counterCompare {s : State} (bits : List Nat) {f : State → State} {c : Nat} {v : W32} (hc : c < 64)
    (hr : (f s).regs = (s.setReg (R.TRG_CNT_CMP c) v).regs) (hp : (f s).time.ppsNew = s.time.ppsNew) :
    s.watch bits f = f s :=
  watch_quiet fun b _ h => (State.pollBit_congr (s := s.setReg (R.TRG_CNT_CMP c) v) hr hp b).trans
    (State.pollBit_setReg (.inr ⟨c, hc, rfl⟩) (fun he => absurd he (by simp only [R.TRG_CNT_CMP, R.CFG_STAT]; omega))
      (fun he => absurd he (by simp only [R.TRG_CNT_CMP, R.CFG_STAT]; omega)) h)

/-! ### The commands -/

theorem exec_scriptWrite {s : State} (h : s.scriptAt 0x01 = true) : exec .scriptWrite s = .next (s.watch allBits State.scriptWrite) :=
  congrArg Host.Outcome.next (if_pos h)

theorem exec_scriptWait {s : State} (h : s.scriptAt 0x02 = true) : exec .scriptWait s = .next (s.watch allBits State.scriptNext) :=
  congrArg Host.Outcome.next (if_pos h)

theorem exec_scriptPoll {s : State} (h : s.scriptAt 0x03 = true) : exec .scriptPoll s = .next (s.watch allBits State.scriptPoll) :=
  congrArg Host.Outcome.next (if_pos h)

theorem exec_scriptPollTimeout {s : State} (h : s.scriptAt 0x03 = true) :
    exec .scriptPollTimeout s = .next (s.watch allBits State.scriptFail) :=
  congrArg Host.Outcome.next (if_pos h)

theorem exec_scriptCommit {s : State} (h : s.scriptAt 0x04 = true) :
    exec .scriptCommit s = .next (s.watch allBits State.scriptCommit) :=
  congrArg Host.Outcome.next (if_pos h)

/-- A script command at another entry changes nothing. -/
theorem script_elsewhere (s : State) :
    (s.scriptAt 0x01 = false → exec .scriptWrite s = .next s) ∧ (s.scriptAt 0x02 = false → exec .scriptWait s = .next s) ∧
      (s.scriptAt 0x03 = false → exec .scriptPoll s = .next s ∧ exec .scriptPollTimeout s = .next s) ∧
      (s.scriptAt 0x04 = false → exec .scriptCommit s = .next s) := by
  have hne : ∀ {op}, s.scriptAt op = false → ¬ s.scriptAt op = true := fun h h' => absurd (h.symm.trans h') (by decide)
  exact ⟨fun h => congrArg Host.Outcome.next (if_neg (hne h)), fun h => congrArg Host.Outcome.next (if_neg (hne h)),
    fun h => ⟨congrArg Host.Outcome.next (if_neg (hne h)), congrArg Host.Outcome.next (if_neg (hne h))⟩,
    fun h => congrArg Host.Outcome.next (if_neg (hne h))⟩

/-- The address of a WRITE lies in the CFG_ or SEC_ block exactly when it is barred. -/
theorem scriptBarred_iff (a : Nat) : scriptBarred a = true ↔ 0x50000 ≤ a ∧ a < 0x70000 := by
  simp only [scriptBarred, Bool.or_eq_true, Bool.and_eq_true, decide_eq_true_eq]
  omega

/-- A WRITE to the loader's own blocks refuses the load. -/
theorem scriptWrite_barred {s : State} (h : s.scriptAt 0x01 = true) (hlo : 0x50000 ≤ num s.scriptEntry 4 4)
    (hhi : num s.scriptEntry 4 4 < 0x70000) :
    ∃ t, exec .scriptWrite s = .next t ∧ s.refusedWith t 0x09 (secIndex s.load.hdr 1) s.load.pc := by
  have hfail : s.scriptWrite = s.scriptFail := if_pos ((scriptBarred_iff _).mpr ⟨hlo, hhi⟩)
  refine ⟨_, exec_scriptWrite h, refusedWith_watch _ ?_⟩
  rw [hfail]
  exact scriptFail_refusedWith (scriptAt_parts h).1

/-- The watch does not look at the loader. -/
theorem watch_load (s : State) (bits : List Nat) (g : State → State) (f : Loader → Loader) :
    s.watch bits (fun t => { g t with load := f (g t).load }) =
      { s.watch bits g with load := f (s.watch bits g).load } := by
  have hbit : ∀ b, State.pollBit { g s with load := f (g s).load } b = (g s).pollBit b := fun b => State.pollBit_congr rfl rfl b
  simp only [State.watch, hbit]
  split <;> rfl

theorem leNat_lt (b : Bytes) : leNat b < 256 ^ b.length := by
  induction b with
  | nil => simp [leNat]
  | cons x xs ih =>
    have hx := x.isLt
    simp only [leNat, List.length_cons, Nat.pow_succ]
    omega

theorem num_lt (b : Bytes) (o n : Nat) : num b o n < 256 ^ n :=
  (leNat_lt _).trans_le (Nat.pow_le_pow_right (by decide) (List.length_take_le n _))

/-- The store of a WRITE with a full mask. -/
def State.scriptStoreAll (s : State) : State := s.scriptStore (scriptAddr s.scriptEntry) (scriptValue s.scriptEntry)

theorem scriptWrite_eq {s : State} (hbar : scriptBarred (scriptAddr s.scriptEntry) = false)
    (hmask : scriptMask s.scriptEntry = 0xFFFFFFFF) : s.scriptWrite = s.scriptStoreAll.scriptNext := by
  simp only [State.scriptWrite, hbar, hmask, Bool.false_eq_true, if_false, if_true, State.scriptStoreAll]

theorem scriptWrite_masked {s : State} (hbar : scriptBarred (scriptAddr s.scriptEntry) = false)
    (hmask : scriptMask s.scriptEntry ≠ 0xFFFFFFFF) :
    s.scriptWrite = ((s.scriptRead (scriptAddr s.scriptEntry)).scriptStore (scriptAddr s.scriptEntry)
      (((s.scriptRead (scriptAddr s.scriptEntry)).host.data &&& ~~~scriptMask s.scriptEntry) |||
        (scriptValue s.scriptEntry &&& scriptMask s.scriptEntry))).scriptNext := by
  simp only [State.scriptWrite, hbar, hmask, Bool.false_eq_true, if_false]

theorem exec_registerWrite_boot {s : State} (h : s.inReset = false) {a : Nat} (ha : a < 2 ^ 32) (v : W32) :
    exec (.registerWrite 1 (BitVec.ofNat 32 a) v 4) s = .next (s.watch allBits fun s => s.scriptStore a v) := by
  have haddr : (BitVec.ofNat 32 a).toNat = a := Nat.mod_eq_of_lt ha
  refine congrArg Host.Outcome.next (watch_congr _ ?_)
  have hmaster : (s.inReset || !masterOk 1) = false := by rw [h]; decide
  simp only [hmaster, haddr]
  rfl

/-- A WRITE with a full mask among the last entries is the register write of the boot sequencer (R281). -/
theorem scriptWrite_full {s u : State} (h : s.scriptAt 0x01 = true) (hmask : num s.scriptEntry 12 4 = 0xFFFFFFFF)
    (hout : ¬ (0x50000 ≤ num s.scriptEntry 4 4 ∧ num s.scriptEntry 4 4 < 0x70000))
    (hu : exec (.registerWrite 1 (BitVec.ofNat 32 (num s.scriptEntry 4 4)) (BitVec.ofNat 32 (num s.scriptEntry 8 4)) 4) s = .next u)
    (hstate : u.fget F.CFG_STAT_STATE = 4) :
    exec .scriptWrite s = .next { u with load := { u.load with pc := u.load.pc + 1 } } := by
  obtain ⟨-, hreset, -⟩ := scriptAt_parts h
  have haddr : num s.scriptEntry 4 4 < 2 ^ 32 := num_lt _ _ 4
  have hu' : s.watch allBits State.scriptStoreAll = u := by
    have hsame : s.scriptStoreAll = s.scriptStore (num s.scriptEntry 4 4) (BitVec.ofNat 32 (num s.scriptEntry 8 4)) := rfl
    rw [exec_registerWrite_boot hreset haddr] at hu
    rw [watch_congr (g := fun t => t.scriptStore (num s.scriptEntry 4 4) (BitVec.ofNat 32 (num s.scriptEntry 8 4))) allBits hsame]
    exact Host.Outcome.next.inj hu
  have hlast : s.scriptStoreAll.fget F.CFG_STAT_STATE = 4 := by
    rw [← hu', s.watch_fget allBits _ _ (by decide)] at hstate
    exact hstate
  have hbar : scriptBarred (scriptAddr s.scriptEntry) = false :=
    Bool.eq_false_iff.mpr fun hb => hout ((scriptBarred_iff _).mp hb)
  have hfull : scriptMask s.scriptEntry = 0xFFFFFFFF := by rw [scriptMask, hmask]; rfl
  have hwrite := (scriptWrite_eq hbar hfull).trans (scriptNext_last hlast)
  rw [exec_scriptWrite h, watch_congr allBits
    (g := fun t => { t.scriptStoreAll with load := { t.scriptStoreAll.load with pc := t.scriptStoreAll.load.pc + 1 } }) hwrite,
    watch_load s allBits State.scriptStoreAll fun l => { l with pc := l.pc + 1 }, hu']

/-- A WRITE to a counter's CMP keeps its bits outside the mask and changes nothing else but what is staged of it (R281). -/
theorem scriptWrite_counterCompare {s : State} {c : Nat} (hc : c < 64)
    (ha : num s.scriptEntry 4 4 = R.TRG_CNT_CMP c) (ho : s.observed = false) (hd : s.bit (F.PWR_DOM_ON 0) = true)
    (hstate : s.fget F.CFG_STAT_STATE = 4) :
    s.scriptWrite.regs = (s.setReg (R.TRG_CNT_CMP c) ((s.reg (R.TRG_CNT_CMP c) &&& ~~~scriptMask s.scriptEntry) |||
        (scriptValue s.scriptEntry &&& scriptMask s.scriptEntry))).regs ∧
      s.scriptWrite.time.ppsNew = s.time.ppsNew ∧ s.scriptWrite.mem = s.mem ∧
      s.scriptWrite.load = { s.load with pc := s.load.pc + 1 } := by
  have haddr : scriptAddr s.scriptEntry = R.TRG_CNT_CMP c := ha
  have hbar : scriptBarred (scriptAddr s.scriptEntry) = false := Bool.eq_false_iff.mpr fun hb => by
    have := (scriptBarred_iff _).mp hb
    simp only [haddr, R.TRG_CNT_CMP] at this
    omega
  have hkept : ∀ (t : State) (v : W32), t.regs = s.regs → (t.storeCompare c v).fget F.CFG_STAT_STATE = 4 := fun t v hr =>
    (State.fget_congr (s := s) _ ((t.reg_setReg_ne v (by simp only [R.TRG_CNT_CMP]; omega)).trans (State.reg_congr hr _))).trans hstate
  by_cases hmask : scriptMask s.scriptEntry = 0xFFFFFFFF
  · have hall : scriptMask s.scriptEntry = BitVec.allOnes 32 := hmask.trans (by decide)
    rw [scriptWrite_eq hbar hmask, State.scriptStoreAll, haddr, scriptStore_counterCompare ho hd hc,
      scriptNext_last (hkept s _ rfl), hall, BitVec.not_allOnes, BitVec.and_zero, BitVec.zero_or, BitVec.and_allOnes]
    exact ⟨rfl, rfl, rfl, rfl⟩
  · rw [scriptWrite_masked hbar hmask, haddr, scriptRead_counterCompare ho hd hc,
      scriptStore_counterCompare (s := s.answer (s.reg (R.TRG_CNT_CMP c))) ho hd hc,
      scriptNext_last (hkept (s.answer (s.reg (R.TRG_CNT_CMP c))) _ rfl)]
    exact ⟨rfl, rfl, rfl, rfl⟩

theorem scriptWrite_keepsUnmasked {s : State} {c : Nat} (h : s.scriptAt 0x01 = true) (hc : c < 64)
    (ha : num s.scriptEntry 4 4 = R.TRG_CNT_CMP c) (ho : s.observed = false) (hd : s.bit (F.PWR_DOM_ON 0) = true)
    (hstate : s.fget F.CFG_STAT_STATE = 4) :
    ∃ t, exec .scriptWrite s = .next t ∧ t.load = { s.load with pc := s.load.pc + 1 } ∧ t.mem = s.mem ∧
      (let m : W32 := BitVec.ofNat 32 (num s.scriptEntry 12 4)
       t.reg (R.TRG_CNT_CMP c) = ((s.reg (R.TRG_CNT_CMP c) &&& ~~~m) ||| (BitVec.ofNat 32 (num s.scriptEntry 8 4) &&& m))) ∧
      s.wordsBut t [R.TRG_CNT_CMP c] := by
  obtain ⟨hregs, hpps, hmem, hload⟩ := scriptWrite_counterCompare hc ha ho hd hstate
  refine ⟨s.scriptWrite, (exec_scriptWrite h).trans (congrArg Host.Outcome.next (watch_counterCompare _ hc hregs hpps)), hload, hmem,
    (State.reg_congr hregs _).trans (s.reg_setReg_self _ _), fun a hne => ?_⟩
  exact (State.reg_congr hregs a).trans (s.reg_setReg_ne _ (by simpa using hne))

/-- The next entry is the script's and the program counter's alone. -/
theorem preNext_congr {s t : State} (h : t.load = s.load) : t.preNext = s.preNext := by simp only [State.preNext, State.section, h]

/-- After a PRE entry the script moves on with STATE showing PRE, SECTIONS or POST (R280). -/
theorem scriptNext_pre {s : State} (h : s.fget F.CFG_STAT_STATE = 2) :
    s.scriptNext = { s with load := { s.load with pc := s.load.pc + 1 } }.fset F.CFG_STAT_STATE
      (if s.scriptNext.preNext then 2 else if s.load.sec < hNsec s.load.hdr then 3 else 4) := by
  have hpre : s.scriptNext = State.afterPre { s with load := { s.load with pc := s.load.pc + 1 } } := if_pos h
  have hnext : s.scriptNext.preNext = State.preNext { s with load := { s.load with pc := s.load.pc + 1 } } :=
    preNext_congr (hpre ▸ (by unfold State.afterPre; split_ifs <;> rfl))
  rw [hnext, hpre]
  unfold State.afterPre
  by_cases hp : State.preNext { s with load := { s.load with pc := s.load.pc + 1 } } = true
  · rw [if_pos hp, if_pos hp]
  · rw [if_neg hp, if_neg hp]
    by_cases hs : hNsec s.load.hdr ≤ s.load.sec
    · rw [if_pos hs, if_neg (Nat.not_lt.mpr hs)]
    · rw [if_neg hs, if_pos (Nat.lt_of_not_le hs)]

/-- STATE showing a load that goes on raises no poll condition. -/
theorem pollBit_loading {s : State} {x : Nat} (hx : x < 5) {b : Nat} (h : s.pollBit b = false) :
    (s.fset F.CFG_STAT_STATE x).pollBit b = false := by
  have hstate : (s.fset F.CFG_STAT_STATE x).fget F.CFG_STAT_STATE = x :=
    (s.fget_fset _ _ (by decide)).trans (Nat.mod_eq_of_lt (lt_trans hx (by decide)))
  by_cases h3 : b = 3
  · subst h3
    simp only [State.pollBit, hstate, beq_eq_false_iff_ne]
    omega
  by_cases h4 : b = 4
  · subst h4
    simp only [State.pollBit, hstate, beq_eq_false_iff_ne]
    omega
  exact State.pollBit_setReg (.inl rfl) (fun _ => h3) (fun _ => h4) h

/-- A WAIT that is over goes on: to the next PRE entry, and after the last one to the sections (R280, R281). -/
theorem scriptWait_next {s : State} (h : s.scriptAt 0x02 = true) : ∃ t, exec .scriptWait s = .next t ∧
    t.load = { s.load with pc := s.load.pc + 1 } ∧ s.wordsBut t [R.CFG_STAT] ∧
    (s.fget F.CFG_STAT_STATE = 4 → t.fget F.CFG_STAT_STATE = 4) ∧
    (s.fget F.CFG_STAT_STATE = 2 → t.fget F.CFG_STAT_STATE = (if t.preNext then 2
      else if s.load.sec < hNsec s.load.hdr then 3 else 4)) := by
  obtain ⟨-, -, ⟨hstate, -⟩ | hstate⟩ := scriptAt_parts h
  · have hpre := scriptNext_pre hstate
    generalize hx : (if s.scriptNext.preNext then 2 else if s.load.sec < hNsec s.load.hdr then 3 else 4 : Nat) = x at hpre
    have hlt : x < 5 := by
      subst hx
      split_ifs <;> decide
    have hquiet : s.watch allBits State.scriptNext = s.scriptNext := watch_quiet fun b _ hb => by
      rw [hpre]
      exact pollBit_loading hlt ((State.pollBit_congr rfl rfl b).trans hb)
    refine ⟨s.scriptNext, (exec_scriptWait h).trans (congrArg Host.Outcome.next hquiet), ?_, ?_, fun h4 => ?_, fun _ => ?_⟩
    · rw [hpre]
      rfl
    · intro a ha
      rw [hpre]
      exact State.reg_fset_ne _ _ _ (by simpa using ha)
    · exact absurd (hstate.symm.trans h4) (by decide)
    · rw [hx]
      nth_rewrite 1 [hpre]
      exact (State.fget_fset _ _ _ (by decide)).trans (Nat.mod_eq_of_lt (lt_trans hlt (by decide)))
  · refine ⟨_, (exec_scriptWait h).trans (congrArg Host.Outcome.next ((watch_congr _ (scriptNext_last hstate)).trans
      (watch_sameRegs (f := fun t => { t with load := { s.load with pc := s.load.pc + 1 } }) _ rfl rfl))), rfl, fun _ _ => rfl, fun _ => hstate,
      fun h2 => absurd (hstate.symm.trans h2) (by decide)⟩

/-- A POLL of a counter's CMP goes on exactly when the masked value matches (R281). -/
theorem scriptPoll_counterCompare {s : State} {c : Nat} (h : s.scriptAt 0x03 = true) (hc : c < 64)
    (ha : num s.scriptEntry 4 4 = R.TRG_CNT_CMP c) (ho : s.observed = false) (hd : s.bit (F.PWR_DOM_ON 0) = true)
    (hstate : s.fget F.CFG_STAT_STATE = 4) :
    ∃ t, exec .scriptPoll s = .next t ∧ t.regs = s.regs ∧ t.mem = s.mem ∧
      t.load = { s.load with pc := s.load.pc +
        (if s.reg (R.TRG_CNT_CMP c) &&& BitVec.ofNat 32 (num s.scriptEntry 12 4) = BitVec.ofNat 32 (num s.scriptEntry 8 4)
         then 1 else 0) } := by
  have hpoll : s.scriptPoll = (if s.reg (R.TRG_CNT_CMP c) &&& BitVec.ofNat 32 (num s.scriptEntry 12 4) =
      BitVec.ofNat 32 (num s.scriptEntry 8 4) then (s.answer (s.reg (R.TRG_CNT_CMP c))).scriptNext
      else s.answer (s.reg (R.TRG_CNT_CMP c))) := by
    unfold State.scriptPoll
    simp only [scriptAddr, ha, scriptRead_counterCompare ho hd hc]
    rfl
  rw [scriptNext_last (s := s.answer (s.reg (R.TRG_CNT_CMP c))) hstate] at hpoll
  refine ⟨s.scriptPoll, (exec_scriptPoll h).trans (congrArg Host.Outcome.next (watch_sameRegs _ ?_ ?_)), ?_, ?_, ?_⟩ <;>
    rw [hpoll] <;> split <;> rfl

/-- The timeout of a POLL refuses the load. -/
theorem scriptPollTimeout_refused {s : State} (h : s.scriptAt 0x03 = true) :
    ∃ t, exec .scriptPollTimeout s = .next t ∧ s.refusedWith t 0x09 (secIndex s.load.hdr 1) s.load.pc :=
  ⟨_, exec_scriptPollTimeout h, refusedWith_watch _ (scriptFail_refusedWith (scriptAt_parts h).1)⟩

/-- END ends the script directly after COMMIT, and elsewhere does nothing. -/
theorem scriptEnd_after (s : State) :
    (s.load.on = false → s.load.pc ≠ 0 → exec .scriptEnd s = .next { s with load := { s.load with pc := 0 } }) ∧
      (s.load.on = true ∨ s.load.pc = 0 → exec .scriptEnd s = .next s) := by
  refine ⟨fun hon hpc => congrArg Host.Outcome.next (if_pos (by simp [hon, hpc])), fun h => congrArg Host.Outcome.next (if_neg ?_)⟩
  rcases h with h | h <;> simp [h]

end Sys2Proof.Machine
end

section
/-! What each step of the commit leaves unchanged (R285). -/

namespace Sys2Proof.Machine

/-! ### Folds -/

/-- A fold keeps what each of its steps keeps. -/
theorem State.each_keeps {α β : Type} {s : State} {l : List α} {f : State → α → State} (g : State → β)
    (h : ∀ t, ∀ x ∈ l, g (f t x) = g t) : g (s.each l f) = g s := by
  induction l generalizing s with
  | nil => rfl
  | cons x l ih =>
    exact (ih (s := f s x) fun t y hy => h t y (List.mem_cons_of_mem _ hy)).trans (h s x List.mem_cons_self)

/-- A fold keeps a property that each of its steps keeps. -/
theorem State.each_inv {α : Type} {P : State → Prop} {s : State} {l : List α} {f : State → α → State} (hs : P s)
    (h : ∀ t, ∀ x ∈ l, P t → P (f t x)) : P (s.each l f) := by
  induction l generalizing s with
  | nil => exact hs
  | cons x l ih => exact ih (h s x List.mem_cons_self hs) fun t y hy => h t y (List.mem_cons_of_mem _ hy)

/-- Words set to their reset values leave those below and above them. -/
theorem State.resetWords_reg (s : State) (base stride n : Nat) (offs : List Nat) {a : Nat} (h : a < base ∨ base + stride * n ≤ a) :
    (s.resetWords base stride n offs).reg a = s.reg a := by
  unfold State.resetWords
  dsimp only
  rw [State.reg_filter s (fun a => !(decide (base ≤ a) && decide (a < base + stride * n) && offs.contains ((a - base) % stride)))]
  refine if_pos ?_
  obtain h | h := h
  · simp [Nat.not_le.mpr h]
  · simp [Nat.not_lt.mpr h]

/-! ### The words that the commit shows -/

/-- The words of the commit's outcome: those of the turn unit, LANE_CTL, and the status words of the action plane, the fabric and the
loader. -/
def shownWord (a : Nat) : Prop :=
  (0x100000 ≤ a ∧ a < 0x100040) ∨ (0x2000000 ≤ a ∧ a < 0x2000000 + 1056 * 0x2000 ∧ a % 0x2000 = 8) ∨ a = R.ACT_STAT ∨
    a = R.EDG_STAT ∨ a = R.CFG_STAT

theorem commitSlots_reg (s : State) {a : Nat} (h : shownWord a ∨ 0x2000000 ≤ a) : s.commitSlots.reg a = s.reg a := by
  refine State.each_keeps (fun t => t.reg a) fun t n hn => ?_
  have hlt := List.mem_range.mp hn
  have hne : a ≠ (stnActive n).addr := by
    unfold stnActive
    simp only [shownWord, R.ACT_STAT, R.EDG_STAT, R.CFG_STAT] at h
    split <;> simp only <;> omega
  split
  · rfl
  · exact t.reg_fset_ne _ _ hne

theorem dropPorts_reg (s : State) (gone : Nat → Bool) {a : Nat} (h : shownWord a ∨ 0x2000000 ≤ a) : (s.dropPorts gone).reg a = s.reg a := by
  refine State.each_keeps (fun t => t.reg a) fun t k hk => ?_
  have hlt := List.mem_range.mp (List.mem_of_mem_filter hk)
  have hne : a ≠ R.DMP_STAT (k / 4) (k % 4) := by
    simp only [shownWord, R.DMP_STAT, R.ACT_STAT, R.EDG_STAT, R.CFG_STAT] at h ⊢
    omega
  dsimp only
  split
  · rfl
  · rw [State.reg_fset_ne _ _ _ hne, State.reg_fset_ne _ _ _ hne, State.reg_fset_ne _ _ _ hne]

theorem State.setBit_reg_ne (s : State) (f : Fld) (b : Bool) {a : Nat} (h : a ≠ f.addr) : (s.setBit f b).reg a = s.reg a :=
  s.reg_fset_ne f _ h

/-- Without a partner the splice unit's words are all that its record writes. -/
theorem commitSplice_reg {s : State} (hrole : num (s.section 0x0E) 2 1 = 0) {a : Nat} (h : shownWord a) :
    s.commitSplice.reg a = s.reg a := by
  have hlo : ¬ (0x70000 ≤ a ∧ a < 0x70080) := by
    simp only [shownWord, R.ACT_STAT, R.EDG_STAT, R.CFG_STAT] at h
    omega
  have hword : ∀ (t : State) (f : Fld) (x : Nat), 0x70000 ≤ f.addr ∧ f.addr < 0x70080 → (t.fset f x).reg a = t.reg a := fun t f x hf =>
    t.reg_fset_ne f x (by omega)
  have hwide : ∀ (t : State) (w : Wide) (x : Nat), 0x70000 ≤ w.addr ∧ w.addr + 4 * w.nw ≤ 0x70080 → (t.wset w x).reg a = t.reg a :=
    fun t w x hw => t.reg_wset w x a (by omega)
  have hid : ∀ (t : State) (b : Bytes), (t.each (List.range 8) fun s i =>
      s.setReg (R.SPL_IMAGE_ID i) (BitVec.ofNat 32 (num b (8 + 4 * i) 4))).reg a = t.reg a := fun t b =>
    State.each_keeps (fun t => t.reg a) fun t i hi => t.reg_setReg_ne _ (by
      have := List.mem_range.mp hi
      simp only [R.SPL_IMAGE_ID]
      omega)
  unfold State.commitSplice
  dsimp only
  rw [if_pos hrole, hword _ _ _ (by decide)]
  split
  · rw [hid, hwide _ _ _ (by decide), hword _ _ _ (by decide), hword _ _ _ (by decide), hwide _ _ _ (by decide)]
    rfl
  · rw [hword _ _ _ (by decide), hid, hwide _ _ _ (by decide), hword _ _ _ (by decide), hword _ _ _ (by decide),
      hwide _ _ _ (by decide)]
    rfl

theorem commitLanes_reg (s : State) {a : Nat} (hl : ∀ n, a ≠ R.LANE_CTL n) : (s.commitLanes false).reg a = s.reg a := by
  refine State.each_keeps (fun t => t.reg a) fun t r hr => ?_
  rw [State.reg_fset_ne _ _ _ (hl _), State.reg_fset_ne _ _ _ (hl _)]

theorem commitEq_reg (s : State) {a : Nat} (h : shownWord a) : s.commitEq.reg a = s.reg a := by
  refine State.each_keeps (fun t => t.reg a) fun t n hn => ?_
  simp only [shownWord, R.ACT_STAT, R.EDG_STAT, R.CFG_STAT] at h
  dsimp only
  split
  · rfl
  · refine (State.each_keeps (fun t => t.reg a) fun t j hj => t.reg_setReg_ne _ ?_).trans ?_
    · have := List.mem_range.mp hj
      simp only [R.LANE_EQ_DFE]
      omega
    · rw [State.reg_setReg_ne _ _ (by simp only [R.LANE_EQ_RX]; omega), State.reg_setReg_ne _ _ (by simp only [R.LANE_EQ_TX]; omega)]

theorem raiseAt_reg (s : State) (src code master acc addr : Nat) {a : Nat} (h : a ≠ R.FLT_SRC_STAT src) :
    (s.raiseAt src code master acc addr).reg a = s.reg a := by
  unfold State.raiseAt State.raise
  split
  · rfl
  · dsimp only
    split
    · exact State.reg_fset_ne _ _ _ h
    · rfl

theorem commitCal_reg (s : State) {a : Nat} (h : shownWord a) : s.commitCal.reg a = s.reg a := by
  refine State.each_keeps (fun t => t.reg a) fun t n hn => ?_
  have hn := List.mem_range.mp (List.mem_of_mem_filter hn)
  simp only [shownWord, R.ACT_STAT, R.EDG_STAT, R.CFG_STAT] at h
  have hconf : ∀ t : State, (t.calConflict n).reg a = t.reg a := fun t => by
    have hdist : a ≠ R.LANE_CAL_DIST n := by simp only [R.LANE_CAL_DIST]; omega
    have hstat : a ≠ R.LANE_STAT n := by simp only [R.LANE_STAT]; omega
    have hsrc : a ≠ R.FLT_SRC_STAT (0x80 + n / 16) := by simp only [R.FLT_SRC_STAT]; omega
    unfold State.calConflict
    dsimp only
    split
    · rw [raiseAt_reg _ _ _ _ _ _ hsrc, State.setBit_reg_ne _ _ _ hstat, State.reg_fset_ne _ _ _ hdist, State.reg_fset_ne _ _ _ hdist]
    · rw [State.setBit_reg_ne _ _ _ hstat, State.reg_fset_ne _ _ _ hdist, State.reg_fset_ne _ _ _ hdist]
  refine (hconf _).trans (State.each_keeps (fun t => t.reg a) fun t c _ => ?_)
  have hsh : a ≠ (calShadow n c).addr := by cases c <;> simp only [calShadow] <;> omega
  have hap : a ≠ (calApplied n c).addr := by cases c <;> simp only [calApplied] <;> omega
  exact (State.reg_fset_ne _ _ _ hap).trans (State.reg_fset_ne _ _ _ hsh)

theorem initFabric_regs (s : State) (rows : Nat → Bool) : (s.initFabric rows).regs = s.regs :=
  (State.initFabric_only (Closed.sameOn s [.regs] (by decide)) (State.sameOn_refl _ _) rows .regs (by simp)).symm

/-- Without contention only the count of contended lines is written. -/
theorem contention_reg {s : State} (hc : contended s.edge.blocks = []) {a : Nat} (h : a ≠ R.EDG_CONT_CNT) :
    s.contention.reg a = s.reg a := by
  unfold State.contention
  simp only [hc]
  exact State.reg_fset_ne _ _ _ h

/-- The blocks of the fabric stay configured as they are. -/
theorem initFabric_blocks (s : State) (rows : Nat → Bool) : (s.initFabric rows).edge.blocks = s.edge.blocks := by
  have hst : ∀ (t : State) (l : SMap BlockCfg), (t.each l fun s p => s.setEdgeSt p.1 (initBlock p.2)).edge.blocks = t.edge.blocks :=
    fun t l => State.each_keeps (fun t => t.edge.blocks) fun _ _ _ => rfl
  have hmem : ∀ (t : State) (l : List Nat), (t.each l fun s b => s.setMemSt b (initMem s.edge.memInit b)).edge.blocks =
      t.edge.blocks := fun t l => State.each_keeps (fun t => t.edge.blocks) fun _ _ _ => rfl
  unfold State.initFabric
  dsimp only
  rw [hmem, hst]

/-- The I/O cells of the pins that are not locked take their words. -/
def State.setCells (s : State) (l : SMap W32) : State :=
  s.each l fun s p => if s.selBit R.PIN_LOCKED p.1 then s else s.setReg (R.EDG_IOC p.1) p.2

/-- The fabric out of reset, before the drivers of its long lines are counted. -/
def State.startFabric (s : State) (closed : Bool) : State :=
  let s1 := (s.initFabric fun _ => true).fset F.EDG_CLK_MHZ (s.edge.die.mhz.getD 1000)
  let s2 := s1.setCells s1.edge.die.iocs
  (s2.fset F.EDG_STAT_RESET_HELD 0).setBit F.EDG_STAT_BRIDGE_UP (s2.big && !closed && !s2.edge.die.bridge.isEmpty)

theorem commitEdge_eq (s : State) (closed : Bool) : s.commitEdge closed = (s.startFabric closed).contention := rfl

theorem setCells_edge (s : State) (l : SMap W32) : (s.setCells l).edge = s.edge :=
  State.each_keeps State.edge fun t p _ => by split <;> rfl

theorem setCells_reg (s : State) (l : SMap W32) {a : Nat} (h : a < 0x3401000) : (s.setCells l).reg a = s.reg a :=
  State.each_keeps (fun t => t.reg a) fun t p _ => by
    split
    · rfl
    · exact t.reg_setReg_ne _ (by simp only [R.EDG_IOC]; omega)

theorem startFabric_blocks (s : State) (closed : Bool) : (s.startFabric closed).edge.blocks = s.edge.blocks :=
  (congrArg Edge.blocks (setCells_edge _ _)).trans (initFabric_blocks s _)

theorem startFabric_reg (s : State) (closed : Bool) {a : Nat} (h : a < 0x3401000) (hs : a ≠ R.EDG_STAT) (hc : a ≠ R.EDG_CLK) :
    (s.startFabric closed).reg a = s.reg a :=
  (State.setBit_reg_ne _ _ _ hs).trans ((State.reg_fset_ne _ _ _ hs).trans ((setCells_reg _ _ h).trans
    ((State.reg_fset_ne _ _ _ hc).trans (State.reg_congr (initFabric_regs s _) a))))

theorem commitEdge_reg {s : State} (hc : contended s.edge.blocks = []) (closed : Bool) {a : Nat} (h : shownWord a) (hs : a ≠ R.EDG_STAT) :
    (s.commitEdge closed).reg a = s.reg a := by
  have hlow : a < 0x3400000 := by
    simp only [shownWord, R.ACT_STAT, R.EDG_STAT, R.CFG_STAT] at h hs
    omega
  have hcont : contended (s.startFabric closed).edge.blocks = [] := (startFabric_blocks s closed) ▸ hc
  rw [commitEdge_eq, contention_reg hcont (by simp only [R.EDG_CONT_CNT]; omega),
    startFabric_reg s closed (by omega) hs (by simp only [R.EDG_CLK]; omega)]

/-- The fabric leaves reset (R178). -/
theorem commitEdge_out {s : State} (hc : contended s.edge.blocks = []) (closed : Bool) :
    (s.commitEdge closed).bit F.EDG_STAT_RESET_HELD = false := by
  have hcont : contended (s.startFabric closed).edge.blocks = [] := (startFabric_blocks s closed) ▸ hc
  rw [commitEdge_eq, State.bit_congr (s := s.startFabric closed) _ (contention_reg hcont (by decide))]
  exact (State.bit_fset_apart _ _ _ _ (by decide) (.inr (.inr (by decide)))).trans (State.bit_fset_zero _ _ (by decide) (by decide))

theorem commitRegions_reg {s : State} (hu : ∀ p ∈ s.regionCfg.uses, p.1 < 384) {a : Nat} (h : shownWord a) :
    s.commitRegions.reg a = s.reg a := by
  simp only [shownWord, R.ACT_STAT, R.EDG_STAT, R.CFG_STAT] at h
  have hown : ∀ (t : State) (r : RegionCfg), (t.each (List.range 64) fun s b =>
      (s.fset (F.BNK_OWN_OWNER b) (if ((SMap.find r.owners b).getD (0, false)).2 then 0x80 else ((SMap.find r.owners b).getD (0, false)).1)).setBit
        (F.BNK_OWN_CORDS b) ((SMap.find r.owners b).getD (0, false)).2).reg a = t.reg a := fun t r =>
    State.each_keeps (fun t => t.reg a) fun t b hb => by
      have := List.mem_range.mp hb
      have hne : a ≠ R.BNK_OWN b := by simp only [R.BNK_OWN]; omega
      exact (State.setBit_reg_ne _ _ _ hne).trans (State.reg_fset_ne _ _ _ hne)
  unfold State.commitRegions
  dsimp only
  refine (State.each_keeps (fun t => t.reg a) fun t p hp => ?_).trans ?_
  · have := hu p hp
    exact State.reg_fset_ne _ _ _ (by simp only; omega)
  · exact (State.resetWords_reg _ _ _ _ _ (by simp only [R.BNK_GRN]; omega)).trans (hown s s.regionCfg)

/-- An ARM writes the channel's own block. -/
theorem capArm_reg (s : State) {n a : Nat} (h : a < R.CAP_CFG n ∨ R.CAP_CFG n + 0x40 ≤ a) : (s.capArm n).reg a = s.reg a := by
  have hstat : a ≠ R.CAP_STAT n := by simp only [R.CAP_STAT, R.CAP_CFG] at h ⊢; omega
  have hwptr : a ≠ R.CAP_WPTR n := by simp only [R.CAP_WPTR, R.CAP_CFG] at h ⊢; omega
  have hseq : a ≠ R.CAP_SEQ n := by simp only [R.CAP_SEQ, R.CAP_CFG] at h ⊢; omega
  have harm : (s.armNow n).reg a = s.reg a := by
    unfold State.armNow
    split
    · exact s.reg_fset_ne _ _ hstat
    · exact (State.reg_fset_ne _ _ _ hseq).trans ((State.reg_fset_ne _ _ _ hwptr).trans ((State.reg_fset_ne _ _ _ hstat).trans
        (State.reg_fset_ne _ _ _ hstat)))
  unfold State.capArm
  dsimp only
  split_ifs
  · rfl
  · exact harm
  · exact s.reg_fset_ne _ _ hstat
  · rfl

theorem setFlow_reg (s : State) (f : Nat) (x : Flow) (a : Nat) : (s.setFlow f x).reg a = s.reg a := rfl

/-- A setting stays among the registers of the trigger engine, the channels and the action plane. -/
theorem applySetting_reg (s : State) {x : Setting} (hx : settingInPlace x) {a : Nat} (h : a < 0x3000000 ∨ 0x3300000 ≤ a) :
    (s.applySetting x).reg a = s.reg a := by
  cases x with
  | reg b v => exact s.reg_setReg_ne v (by simp only [settingInPlace] at hx; omega)
  | queue q f g k b =>
    simp only [settingInPlace] at hx
    exact (State.reg_setReg_ne _ _ (by simp only [R.ACT_Q_BASE]; omega)).trans (State.reg_setReg_ne _ _ (by simp only [R.ACT_Q_CFG]; omega))
  | flow f c =>
    simp only [settingInPlace] at hx
    have hstat : a ≠ R.ACT_FL_STAT f := by simp only [R.ACT_FL_STAT]; omega
    have hmask : a ≠ R.ACT_FL_MASK f := by simp only [R.ACT_FL_MASK]; omega
    have hflags : a ≠ R.ACT_FL_FLAGS f := by simp only [R.ACT_FL_FLAGS]; omega
    unfold State.applySetting
    dsimp only
    rw [setFlow_reg, State.reg_fset_ne _ _ _ hstat, State.reg_fset_ne _ _ _ hstat, State.reg_setReg_ne _ _ hmask,
      State.reg_setReg_ne _ _ hflags]
  | node i w => rfl
  | tin u w => rfl
  | eventQueue e q => rfl
  | arm n =>
    simp only [settingInPlace] at hx
    exact capArm_reg s (by simp only [R.CAP_CFG]; omega)
  | keep n m => rfl

theorem commitPlane_reg {s : State} (hx : ∀ x ∈ settingsOf 0x0C (s.section 0x0C), settingInPlace x) {a : Nat} (h : shownWord a)
    (hs : a ≠ R.ACT_STAT) : s.commitPlane.reg a = s.reg a := by
  have hout : a < 0x3000000 ∨ 0x3300000 ≤ a := by
    simp only [shownWord, R.ACT_STAT, R.EDG_STAT, R.CFG_STAT] at h hs
    omega
  exact (State.reg_fset_ne _ _ _ hs).trans (State.each_keeps (fun t => t.reg a) fun t x hm => applySetting_reg t (hx x hm) hout)

theorem commitFaults_reg (s : State) {a : Nat} (h : shownWord a) : s.commitFaults.reg a = s.reg a := by
  simp only [shownWord, R.ACT_STAT, R.EDG_STAT, R.CFG_STAT] at h
  have hgrace : a ≠ R.FLT_GRACE := by simp only [R.FLT_GRACE]; omega
  have hpolicy : a ≠ R.FLT_POLICY := by simp only [R.FLT_POLICY]; omega
  unfold State.commitFaults
  dsimp only
  split
  · rw [State.reg_setReg_ne _ _ hpolicy, State.reg_setReg_ne _ _ hgrace]
    rfl
  · rw [State.reg_fset_ne _ _ _ hpolicy, State.reg_fset_ne _ _ _ hpolicy, State.reg_fset_ne _ _ _ hgrace]
    rfl

theorem commitDomains_reg (s : State) (closed : Bool) {a : Nat} (h : shownWord a) : (s.commitDomains closed).reg a = s.reg a := by
  unfold State.commitDomains
  split
  · refine State.each_keeps (fun t => t.reg a) fun t d hd => ?_
    have hsmall : ∀ d ∈ outsideDomains, d < 86 := by decide
    have := hsmall d hd
    have hne : a ≠ R.PWR_DOM d := by
      simp only [shownWord, R.ACT_STAT, R.EDG_STAT, R.CFG_STAT, R.PWR_DOM] at h ⊢
      omega
    exact (State.reg_fset_ne _ _ _ hne).trans (State.reg_fset_ne _ _ _ hne)
  · rfl

/-- The loader's words and the marks of an encrypted image. -/
def State.showStatus (s : State) (h : CastHdr) : State :=
  let s1 := ((s.fset F.CFG_STAT_STATE 5).setBit F.CFG_STAT_ENC (hEnc h)).setBit F.CFG_STAT_GN32 (hGn32 h)
  let s2 := s1.setReg R.CFG_LOAD_TIME (s1.reg R.HST_ALIVE - s1.load.start)
  if hEnc h then s2.each (List.range 128) fun s c => if s.cordHere c then s.fset (F.CRD_STAT_INSTR_CLOSED c) 1 else s else s2

theorem commitStatus_regs (s : State) (h : CastHdr) : (s.commitStatus h).regs = (s.showStatus h).regs := rfl

theorem showStatus_marks (s : State) {a : Nat} (h : ∀ c < 128, a ≠ R.CRD_STAT c) :
    (s.each (List.range 128) fun s c => if s.cordHere c then s.fset (F.CRD_STAT_INSTR_CLOSED c) 1 else s).reg a = s.reg a :=
  State.each_keeps (fun t => t.reg a) fun t c hc => by
    split
    · exact t.reg_fset_ne _ _ (h c (List.mem_range.mp hc))
    · rfl

theorem shownWord_apart {a : Nat} (h : shownWord a) : a ≠ R.CFG_LOAD_TIME ∧ ∀ c < 128, a ≠ R.CRD_STAT c := by
  simp only [shownWord, R.ACT_STAT, R.EDG_STAT, R.CFG_STAT] at h
  exact ⟨by simp only [R.CFG_LOAD_TIME]; omega, fun c hc => by simp only [R.CRD_STAT]; omega⟩

theorem commitStatus_reg (s : State) (h : CastHdr) {a : Nat} (ha : shownWord a) (hs : a ≠ R.CFG_STAT) :
    (s.commitStatus h).reg a = s.reg a := by
  obtain ⟨htime, hcord⟩ := shownWord_apart ha
  rw [State.reg_congr (commitStatus_regs s h)]
  unfold State.showStatus
  dsimp only
  split
  · rw [showStatus_marks _ hcord, State.reg_setReg_ne _ _ htime, State.setBit_reg_ne _ _ _ hs, State.setBit_reg_ne _ _ _ hs,
      State.reg_fset_ne _ _ _ hs]
  · rw [State.reg_setReg_ne _ _ htime, State.setBit_reg_ne _ _ _ hs, State.setBit_reg_ne _ _ _ hs, State.reg_fset_ne _ _ _ hs]

/-- STATE shows COMMITTED. -/
theorem commitStatus_state (s : State) (h : CastHdr) : (s.commitStatus h).fget F.CFG_STAT_STATE = 5 := by
  have hshown : ((s.showStatus h).reg F.CFG_STAT_STATE.addr) =
      (((s.fset F.CFG_STAT_STATE 5).setBit F.CFG_STAT_ENC (hEnc h)).setBit F.CFG_STAT_GN32 (hGn32 h)).reg F.CFG_STAT_STATE.addr := by
    obtain ⟨htime, hcord⟩ := shownWord_apart (a := R.CFG_STAT) (by simp [shownWord])
    unfold State.showStatus
    dsimp only
    split
    · rw [showStatus_marks _ hcord, State.reg_setReg_ne _ _ htime]
    · rw [State.reg_setReg_ne _ _ htime]
  rw [State.fget_congr _ ((State.reg_congr (commitStatus_regs s h) _).trans hshown)]
  rw [State.setBit, State.fget_fset_apart _ _ _ _ (by decide) (.inr (.inr (by decide))), State.setBit,
    State.fget_fset_apart _ _ _ _ (by decide) (.inr (.inr (by decide))), State.fget_fset _ _ _ (by decide)]
  rfl

end Sys2Proof.Machine
end

section
/-! The steps of the commit, and what they show (R9, R23, R73, R181, R266, R285). -/

namespace Sys2Proof.Machine

/-! ### The steps of the commit, named -/

/-- The dictionary gone, the slot tables and ports at their start. -/
def State.dropAll (s : State) : State := ((s.dropDict).commitSlots).dropPorts fun _ => true

/-- The image that the commit puts in force. -/
def State.imageNow (s : State) : Image :=
  let range := if s.load.chain then none else s.load.dir.map fun b => dirRange b (s.fget F.CFG_STAT_ENTRY)
  { imageOf s.load.hdr (s.section 0x0E) range with rows := rowsOf s.edge.blocks, dir := if s.load.chain then none else s.load.dir }

/-- An image in force, and no strand state. -/
def State.withImage (s : State) (i : Image) : State := { s with image := i, strands := [] }

/-- The commit's first step. -/
def State.commitBase (s : State) : State := s.dropAll.withImage s.imageNow

/-- The state stores and the turn unit. -/
def State.commitCore (s : State) (h : CastHdr) : State :=
  (s.initStores fun _ => true).commitTurns (hDecl h) ((hDecl h).part == 0x4060)

/-- The splice unit's record, the lane sets' references, and the lanes. -/
def State.commitLinks (s : State) (paired : Bool) : State := s.commitSplice.measureLref.commitLanes paired

/-- Equalization and calibration, the fabric, and the border of the regions. -/
def State.commitFabric (s : State) (h : CastHdr) (m : SMap Nat) : State :=
  (((s.commitEq).commitCal).commitEdge ((hDecl h).part == 0x4060)).setBorder m

/-- Pins, banks and granules, and the action plane. -/
def State.commitUnits (s : State) : State := ((s.commitPins).commitRegions).commitPlane

/-- Classes, domains, the loader's status, and what Deep sleep reads again. -/
def State.commitFinish (s : State) (h : CastHdr) : State :=
  (((s.commitFaults).commitDomains ((hDecl h).part == 0x4060)).commitStatus h).keepCast

/-- The commit step by step. -/
def State.commitLast (s : State) : State :=
  let u := ((s.commitBase.commitCore s.load.hdr).commitLinks (num (s.section 0x0E) 2 1 != 0))
  ((u.commitFabric s.load.hdr (borderMap (s.section 0x0B))).commitUnits).commitFinish s.load.hdr

theorem commitImage_eq (s : State) : s.commitImage = { s.commitLast with load := s.commitLast.load.rest } := rfl

/-! ### Parts that the steps leave as they are -/

theorem section_congr {s t : State} (h : t.load = s.load) (k : Nat) : t.section k = s.section k := by simp only [State.section, h]

theorem dropAll_same (s : State) :
    s.sameOn [.load, .time, .edge] s.dropAll :=
  State.dropPorts_only (Closed.sameOn s _ (by decide)) (State.commitSlots_only (Closed.sameOn s _ (by decide))
    (State.dropDict_only (Closed.sameOn s _ (by decide)) (s.sameOn_refl _))) _

theorem commitCore_same (s : State) (h : CastHdr) : s.sameOn [.load, .time, .edge, .mem, .image] (s.commitCore h) :=
  State.commitTurns_only (Closed.sameOn s _ (by decide)) (State.initStores_only (Closed.sameOn s _ (by decide)) (s.sameOn_refl _) _) _ _

theorem commitLinks_same (s : State) (paired : Bool) : s.sameOn [.load, .edge, .mem, .core, .strands] (s.commitLinks paired) :=
  State.commitLanes_only (Closed.sameOn s _ (by decide)) (State.measureLref_only (Closed.sameOn s _ (by decide))
    (State.commitSplice_only (Closed.sameOn s _ (by decide)) (s.sameOn_refl _))) _

theorem commitFabric_same (s : State) (h : CastHdr) (m : SMap Nat) :
    s.sameOn [.load, .mem, .core, .strands, .splice] (s.commitFabric h m) :=
  State.setBorder_only (Closed.sameOn s _ (by decide)) (State.commitEdge_only (Closed.sameOn s _ (by decide))
    (State.commitCal_only (Closed.sameOn s _ (by decide)) (State.commitEq_only (Closed.sameOn s _ (by decide)) (s.sameOn_refl _))) _) _

theorem commitUnits_same (s : State) : s.sameOn [.load, .mem, .core, .strands, .splice, .image] s.commitUnits :=
  State.commitPlane_only (Closed.sameOn s _ (by decide)) (State.commitRegions_only (Closed.sameOn s _ (by decide))
    (State.commitPins_only (Closed.sameOn s _ (by decide)) (s.sameOn_refl _)))

theorem commitFinish_same (s : State) (h : CastHdr) : s.sameOn [.load, .mem, .core, .strands, .splice] (s.commitFinish h) :=
  State.keepCast_only (Closed.sameOn s _ (by decide)) (State.commitStatus_only (Closed.sameOn s _ (by decide))
    (State.commitDomains_only (Closed.sameOn s _ (by decide)) (State.commitFaults_only (Closed.sameOn s _ (by decide)) (s.sameOn_refl _)) _) _)

theorem withImage_load (s : State) (i : Image) : (s.withImage i).load = s.load := rfl

theorem commitBase_load (s : State) : s.commitBase.load = s.load :=
  (withImage_load _ _).trans (dropAll_same s .load (by simp)).symm

theorem withImage_time (s : State) (i : Image) : (s.withImage i).time = s.time := rfl

theorem commitBase_time (s : State) : s.commitBase.time = s.time :=
  (withImage_time _ _).trans (dropAll_same s .time (by simp)).symm

theorem withImage_edge (s : State) (i : Image) : (s.withImage i).edge = s.edge := rfl

theorem commitBase_edge (s : State) : s.commitBase.edge = s.edge :=
  (withImage_edge _ _).trans (dropAll_same s .edge (by simp)).symm


/-! ### The image -/

/-- That an image is in force, and the cords it declares. -/
def Image.inForce (i : Image) : Bool × BitVec 128 := (i.committed, i.cords)

theorem commitBase_inForce (s : State) : s.commitBase.image.inForce = (true, (hDecl s.load.hdr).cords) := rfl

theorem setBorder_inForce (s : State) (m : SMap Nat) : (s.setBorder m).image.inForce = s.image.inForce := rfl

theorem keepCast_inForce (s : State) : s.keepCast.image.inForce = s.image.inForce := rfl

theorem commitLinks_inForce (s : State) (paired : Bool) : (s.commitLinks paired).image.inForce = s.image.inForce := by
  have hlanes : ∀ t : State, (t.commitLanes paired).image = t.image := fun t =>
    (State.commitLanes_only (Closed.sameOn t [.image] (by decide)) (t.sameOn_refl _) paired .image (by simp)).symm
  have hsplice : s.commitSplice.image = s.image :=
    (State.commitSplice_only (Closed.sameOn s [.image] (by decide)) (s.sameOn_refl _) .image (by simp)).symm
  have hlref : ∀ t : State, t.measureLref.image.inForce = t.image.inForce := fun t =>
    State.each_keeps (fun t => t.image.inForce) fun _ _ _ => rfl
  rw [State.commitLinks, hlanes, hlref, hsplice]

theorem commitFabric_inForce (s : State) (h : CastHdr) (m : SMap Nat) : (s.commitFabric h m).image.inForce = s.image.inForce := by
  have hfabric : (((s.commitEq).commitCal).commitEdge ((hDecl h).part == 0x4060)).image = s.image :=
    (State.commitEdge_only (Closed.sameOn s [.image] (by decide)) (State.commitCal_only (Closed.sameOn s _ (by decide))
      (State.commitEq_only (Closed.sameOn s _ (by decide)) (s.sameOn_refl _))) _ .image (by simp)).symm
  rw [State.commitFabric, setBorder_inForce, hfabric]

theorem commitFinish_inForce (s : State) (h : CastHdr) : (s.commitFinish h).image.inForce = s.image.inForce := by
  have hstatus : (((s.commitFaults).commitDomains ((hDecl h).part == 0x4060)).commitStatus h).image = s.image :=
    (State.commitStatus_only (Closed.sameOn s [.image] (by decide)) (State.commitDomains_only (Closed.sameOn s _ (by decide))
      (State.commitFaults_only (Closed.sameOn s _ (by decide)) (s.sameOn_refl _)) _) _ .image (by simp)).symm
  rw [State.commitFinish, keepCast_inForce, hstatus]

/-! ### The words that the commit shows -/

theorem withImage_reg (s : State) (i : Image) (a : Nat) : (s.withImage i).reg a = s.reg a := rfl

theorem setBorder_reg (s : State) (m : SMap Nat) (a : Nat) : (s.setBorder m).reg a = s.reg a := rfl

theorem keepCast_reg (s : State) (a : Nat) : s.keepCast.reg a = s.reg a := rfl

theorem commitBase_reg (s : State) {a : Nat} (h : shownWord a ∨ 0x2000000 ≤ a) : s.commitBase.reg a = s.reg a := by
  have hdict : s.dropDict.regs = s.regs :=
    (State.dropDict_only (Closed.sameOn s [.regs] (by decide)) (s.sameOn_refl _) .regs (by simp)).symm
  rw [State.commitBase, withImage_reg, State.dropAll, dropPorts_reg _ _ h, commitSlots_reg _ h, State.reg_congr hdict]

theorem commitLinks_reg {s : State} (hrole : num (s.section 0x0E) 2 1 = 0) {a : Nat} (h : shownWord a) (hl : ∀ n, a ≠ R.LANE_CTL n) :
    (s.commitLinks false).reg a = s.reg a := by
  have hlref : ∀ t : State, t.measureLref.regs = t.regs := fun t =>
    (State.measureLref_only (Closed.sameOn t [.regs] (by decide)) (t.sameOn_refl _) .regs (by simp)).symm
  rw [State.commitLinks, commitLanes_reg _ hl, State.reg_congr (hlref _), commitSplice_reg hrole h]

theorem commitCal_edge (s : State) : s.commitEq.commitCal.edge = s.edge :=
  (State.commitCal_only (Closed.sameOn s [.edge] (by decide)) (State.commitEq_only (Closed.sameOn s _ (by decide)) (s.sameOn_refl _))
    .edge (by simp)).symm

theorem commitFabric_reg {s : State} (hc : contended s.edge.blocks = []) (h : CastHdr) (m : SMap Nat) {a : Nat} (ha : shownWord a)
    (hs : a ≠ R.EDG_STAT) : (s.commitFabric h m).reg a = s.reg a := by
  have hc' : contended s.commitEq.commitCal.edge.blocks = [] := by
    rw [commitCal_edge]
    exact hc
  rw [State.commitFabric, setBorder_reg, commitEdge_reg hc' _ ha hs, commitCal_reg _ ha, commitEq_reg _ ha]

theorem commitFabric_out {s : State} (hc : contended s.edge.blocks = []) (h : CastHdr) (m : SMap Nat) :
    (s.commitFabric h m).bit F.EDG_STAT_RESET_HELD = false := by
  have hc' : contended s.commitEq.commitCal.edge.blocks = [] := by
    rw [commitCal_edge]
    exact hc
  rw [State.commitFabric, State.bit_congr F.EDG_STAT_RESET_HELD (setBorder_reg _ m _)]
  exact commitEdge_out hc' _

/-- The settings and the granules that the held sections give stay in their blocks. -/
structure State.SettingsInPlace (s : State) : Prop where
  settings : ∀ x ∈ settingsOf 0x0C (s.section 0x0C), settingInPlace x
  granules : ∀ p ∈ s.regionCfg.uses, p.1 < 384

theorem State.SettingsInPlace.congr {s t : State} (h : s.SettingsInPlace) (hl : t.load = s.load) : t.SettingsInPlace := by
  have hcfg : t.regionCfg = s.regionCfg := by simp only [State.regionCfg, section_congr hl]
  exact ⟨fun x hx => h.settings x (section_congr hl 0x0C ▸ hx), fun p hp => h.granules p (hcfg ▸ hp)⟩

theorem commitUnits_reg {s : State} (h : s.SettingsInPlace) {a : Nat} (ha : shownWord a) (hs : a ≠ R.ACT_STAT) :
    s.commitUnits.reg a = s.reg a := by
  have hpins : s.commitPins.SettingsInPlace := h.congr rfl
  have hregions : s.commitPins.commitRegions.SettingsInPlace := hpins.congr
    (State.commitRegions_only (Closed.sameOn s.commitPins [.load] (by decide)) (State.sameOn_refl _ _) .load (by simp)).symm
  rw [State.commitUnits, commitPlane_reg hregions.settings ha hs, commitRegions_reg hpins.granules ha]
  rfl

/-- Dispatch starts (R266). -/
theorem commitUnits_runs (s : State) : s.commitUnits.bit F.ACT_STAT_RUNNING = true :=
  State.bit_fset_one _ _ (by decide) (by decide)

theorem commitFinish_reg (s : State) (h : CastHdr) {a : Nat} (ha : shownWord a) (hs : a ≠ R.CFG_STAT) :
    (s.commitFinish h).reg a = s.reg a := by
  rw [State.commitFinish, keepCast_reg, commitStatus_reg _ _ ha hs, commitDomains_reg _ _ ha, commitFaults_reg _ ha]

end Sys2Proof.Machine
end

section
/-! What the commit's steps set: memory, strands, the turn unit, the lanes (R9, R23, R36, R73, R205, R276, R285). -/

namespace Sys2Proof.Machine

/-! ### Memory and strands -/

/-- An INIT frame of the dictionary's banks writes nothing outside them. -/
theorem placeInit_outside (s : State) {k : Nat} (hk : k < 2 ^ 31) (hin : inDictBanks (k * 4096) = true) (f : Bytes) {a : Nat}
    (ha : inDictBanks a = false) : (s.placeInit k (f.take 4096)).rdByte a = s.rdByte a := by
  have hlen := List.length_take_le 4096 f
  simp only [inDictBanks, Bool.and_eq_true, decide_eq_true_eq, Bool.and_eq_false_iff, decide_eq_false_iff_not] at hin ha
  unfold State.placeInit
  rw [if_neg (by omega)]
  exact State.rdByte_wrBytes_ne _ _ _ _ (by omega)

/-- Outside the dictionary's banks memory is kept (R276). -/
theorem dropDict_rdByte (s : State) {a : Nat} (ha : inDictBanks a = false) : s.dropDict.rdByte a = s.rdByte a := by
  have hdrop : State.rdByte { s with mem := s.mem.filter fun p => !inDictBanks p.1 } a = s.rdByte a := by
    simp only [State.rdByte, SMap.get, SMap.find_filter s.mem (fun a => !inDictBanks a), ha]
    rfl
  refine (State.each_keeps (fun t => t.rdByte a) fun t p hp => ?_).trans hdrop
  have hframe := List.of_mem_filter hp
  simp only [decide_eq_true_eq] at hframe
  obtain ⟨hlo, hhi, hin⟩ := hframe
  exact placeInit_outside t (by omega) hin p.2 ha

/-- A strand with no history and an empty inbox. -/
def State.strandsFresh (s : State) : Prop := ∀ g, (s.strand g).hist = 0 ∧ (s.strand g).inbox = []

/-- The state stores take their initial values, and nothing else of a strand changes. -/
theorem initStores_fresh {s : State} (h : s.strandsFresh) (cords : Nat → Bool) : (s.initStores cords).strandsFresh := by
  refine State.each_inv h fun t p _ ht => State.each_inv ht fun t j _ ht g => ?_
  simp only [State.strand, State.setStrand, SMap.get_set]
  split
  · exact ht _
  · exact ht g

theorem withImage_fresh (s : State) (i : Image) : (s.withImage i).strandsFresh := fun _ => ⟨rfl, rfl⟩

/-! ### Lanes -/

/-- A fold over a list with `r` in it ends with what the step for `r` brings about and every step keeps. -/
theorem State.each_establishes {α : Type} {P : State → Prop} {l : List α} {f : State → α → State} {r : α} (hr : r ∈ l)
    (hset : ∀ t, P (f t r)) (hkeep : ∀ t x, P t → P (f t x)) (s : State) : P (s.each l f) := by
  induction l generalizing s with
  | nil => exact absurd hr List.not_mem_nil
  | cons x l ih =>
    rcases List.mem_cons.mp hr with rfl | hr
    · exact State.each_inv (s := f s r) (hset s) fun t x _ ht => hkeep t x ht
    · exact ih hr (f s x)

/-- Every lane of the table is enabled (R205). -/
theorem commitLanes_enables (s : State) {r : Bytes} (hr : r ∈ records (s.section 2) 0 16) :
    (s.commitLanes false).bit (F.LANE_CTL_EN (laneNo r)) = true := by
  refine State.each_establishes (P := fun t => t.bit (F.LANE_CTL_EN (laneNo r)) = true) hr (fun t => ?_) (fun t x ht => ?_) s
  · exact (State.bit_fset_apart _ _ _ _ (by simp) (.inr (.inr (by simp)))).trans (State.bit_fset_one _ _ (by simp) (by simp))
  · refine (State.bit_fset_apart _ _ _ _ (by simp) (.inr (.inr (by simp)))).trans ?_
    by_cases hn : laneNo x = laneNo r
    · rw [hn]
      exact State.bit_fset_one _ _ (by simp) (by simp)
    · exact (State.bit_fset_apart _ _ _ _ (by simp) (.inl (by simp only; omega))).trans ht

/-! ### The turn unit -/

/-- The words of the turn unit as the image declares them (R285). -/
def State.turnWords (s : State) (d : Decl) (closed : Bool) : State :=
  let s1 := (((s.fset F.TURN_CFG_L d.l).fset F.TURN_CFG_E d.e).fset F.TURN_CFG_LOCK_SRC d.lock).fset F.TURN_ANCHOR_LANE d.anchor
  let s2 := ((s1.fset F.TURN_SPAN_VALUE d.span).fset F.TURN_DOUT_VALUE d.dout).fset F.TURN_PHASE_VALUE d.phase
  let s3 := ((s2.wset W.TURN_NUM_TURN 0).wset W.TURN_LT_OFFSET_OFFSET 0).fset F.TURN_HOLD_SRC_LOCK 0
  (s3.fset F.NOC_STAT_PROFILE d.profile).setBit F.NOC_STAT_CLOSED closed

/-- The strand core before the first turn of the cords in `cords`. -/
def State.withFirst (s : State) (cords : BitVec 128) : State := { s with core := { first := cords } }

theorem State.fget_fset_other (s : State) (f g : Fld) (x : Nat)
    (h : f.lo + f.w ≤ 32 ∧ (f.addr ≠ g.addr ∨ f.lo + f.w ≤ g.lo ∨ g.lo + g.w ≤ f.lo)) : (s.fset f x).fget g = s.fget g :=
  s.fget_fset_apart f g x h.1 h.2

theorem State.fget_wset_other (s : State) (w : Wide) (f : Fld) (x : Nat) (h : f.addr < w.addr ∨ w.addr + 4 * w.nw ≤ f.addr) :
    (s.wset w x).fget f = s.fget f := State.fget_congr f (s.reg_wset w x f.addr h)

theorem State.wget_fset_other (s : State) (w : Wide) (f : Fld) (x : Nat) (h : f.addr < w.addr ∨ w.addr + 4 * w.nw ≤ f.addr) :
    (s.fset f x).wget w = s.wget w := s.wget_setReg_ne w f.addr _ h

theorem State.wget_wset_other (s : State) (v w : Wide) (x : Nat) (h : v.addr + 4 * v.nw ≤ w.addr ∨ w.addr + 4 * w.nw ≤ v.addr) :
    (s.wset v x).wget w = s.wget w := State.wget_congr w fun i hi => s.reg_wset v x _ (by omega)

theorem turnWords_shows (s : State) (d : Decl) (closed : Bool) :
    let t := s.turnWords d closed
    t.wget W.TURN_NUM_TURN = 0 ∧ t.fget F.TURN_CFG_L = d.l % 2 ^ 13 ∧ t.fget F.TURN_CFG_E = d.e % 2 ^ 13 ∧
      t.fget F.TURN_CFG_LOCK_SRC = d.lock % 2 ∧ t.fget F.TURN_SPAN_VALUE = d.span % 2 ^ 32 ∧
      t.fget F.TURN_DOUT_VALUE = d.dout % 2 ^ 32 ∧ t.fget F.TURN_PHASE_VALUE = d.phase % 2 ^ 32 ∧
      t.bit F.TURN_HOLD_SRC_LOCK = false := by
  simp (disch := decide) only [State.turnWords, State.setBit, State.bit, State.fget_fset_other, State.fget_wset_other,
    State.wget_fset_other, State.wget_wset_other, State.fget_fset, State.wget_wset]
  exact ⟨rfl, trivial, trivial, rfl, trivial, trivial, trivial, rfl⟩

/-- Only the words of the turn unit and NOC_STAT are written. -/
theorem turnWords_reg (s : State) (d : Decl) (closed : Bool) {a : Nat} (h : ¬ (0x100000 ≤ a ∧ a < 0x100040)) (hn : a ≠ R.NOC_STAT) :
    (s.turnWords d closed).reg a = s.reg a := by
  have hword : ∀ (t : State) (f : Fld) (x : Nat), 0x100000 ≤ f.addr ∧ f.addr < 0x100040 → (t.fset f x).reg a = t.reg a :=
    fun t f x hf => t.reg_fset_ne f x (by omega)
  have hwide : ∀ (t : State) (w : Wide) (x : Nat), 0x100000 ≤ w.addr ∧ w.addr + 4 * w.nw ≤ 0x100040 → (t.wset w x).reg a = t.reg a :=
    fun t w x hw => t.reg_wset w x a (by omega)
  unfold State.turnWords
  dsimp only
  rw [State.setBit_reg_ne _ _ _ hn, State.reg_fset_ne _ _ _ hn]
  simp (disch := decide) only [hword, hwide]

theorem withFirst_reg (s : State) (cords : BitVec 128) (a : Nat) : (s.withFirst cords).reg a = s.reg a := rfl

theorem withFirst_core (s : State) (cords : BitVec 128) : (s.withFirst cords).core = { first := cords } := rfl

theorem withFirst_time (s : State) (cords : BitVec 128) : (s.withFirst cords).time = s.time := rfl

/-- The turn unit as declared, with the cords in their first turn. -/
def State.turnsDeclared (s : State) (d : Decl) (closed : Bool) : State := (s.turnWords d closed).withFirst d.cords

theorem turnsDeclared_reg (s : State) (d : Decl) (closed : Bool) (a : Nat) :
    (s.turnsDeclared d closed).reg a = (s.turnWords d closed).reg a := withFirst_reg _ _ a

theorem turnsDeclared_time (s : State) (d : Decl) (closed : Bool) : (s.turnsDeclared d closed).time = s.time := by
  rw [State.turnsDeclared, withFirst_time, State.turnWords, State.setBit]
  repeat rw [State.fset_time]
  repeat rw [State.wset_time]
  repeat rw [State.fset_time]

theorem turnsDeclared_ltOff (s : State) (d : Decl) (closed : Bool) : (s.turnsDeclared d closed).core.ltOff = 0 := by
  rw [State.turnsDeclared, withFirst_core]

theorem turnsDeclared_pcsLocked (s : State) (d : Decl) (closed : Bool) (n : Nat) :
    (s.turnsDeclared d closed).pcsLocked n = s.pcsLocked n := by
  have hreg : ∀ a, 0x2000000 ≤ a → (s.turnsDeclared d closed).reg a = s.reg a := fun a ha =>
    (turnsDeclared_reg s d closed a).trans (turnWords_reg s d closed (by omega) (by simp only [R.NOC_STAT]; omega))
  unfold State.pcsLocked State.pcs
  rw [State.bit_congr (F.LANE_STAT_PCS_LOCK n) (hreg _ (by simp only; omega)),
    State.bit_congr (F.LANE_STAT_CDR_LOCK n) (hreg _ (by simp only; omega)),
    State.fget_congr (F.LANE_CFG_PCS n) (hreg _ (by simp only; omega))]

theorem commitTurns_timebase {s : State} {d : Decl} (closed : Bool) (h : d.lock = 0) :
    s.commitTurns d closed = (s.turnsDeclared d closed).newT0 := if_pos h

/-- An anchor lane that is locked: T0 follows 10 µs later. -/
def State.awaitAnchor (s u : State) : State :=
  { u with core := { u.core with anchor := s.core.anchor, rateAt := s.time.now, anchorT0 := some (s.time.now + tenMicro) } }

theorem commitTurns_locked {s : State} {d : Decl} (closed : Bool) (h : d.lock ≠ 0) (hl : s.pcsLocked d.anchor = true) :
    s.commitTurns d closed = s.awaitAnchor (s.turnsDeclared d closed) :=
  (if_neg h).trans (if_pos ((turnsDeclared_pcsLocked s d closed _).trans hl))

theorem commitTurns_waiting {s : State} {d : Decl} (closed : Bool) (h : d.lock ≠ 0) (hl : s.pcsLocked d.anchor = false) :
    s.commitTurns d closed = ((s.turnsDeclared d closed).fset F.TURN_STAT_LOCK_WAIT 1).fset F.TURN_HOLD_SRC_LOCK 1 :=
  (if_neg h).trans (if_neg fun hu => absurd (((turnsDeclared_pcsLocked s d closed _).trans hl).symm.trans hu) (by decide))

theorem gridAt_reg (s : State) (t0 : Nat) {a : Nat} (h : a < 0x100028 ∨ 0x100034 ≤ a) : (s.gridAt t0).reg a = s.reg a :=
  s.reg_wset W.TURN_T0_T0 t0 a h

theorem newT0_reg (s : State) {a : Nat} (h : a < 0x100028 ∨ 0x100034 ≤ a) : s.newT0.reg a = s.reg a := by
  rw [State.newT0, gridAt_reg _ _ h]

theorem awaitAnchor_reg (s u : State) (a : Nat) : (s.awaitAnchor u).reg a = u.reg a := rfl

/-- But for T0 and the wait for a lock the words are those declared. -/
theorem commitTurns_reg (s : State) (d : Decl) (closed : Bool) {a : Nat} (h : a < 0x100028 ∨ 0x100034 ≤ a) (hs : a ≠ R.TURN_STAT)
    (hh : a ≠ R.TURN_HOLD_SRC) : (s.commitTurns d closed).reg a = (s.turnWords d closed).reg a := by
  by_cases hlock : d.lock = 0
  · rw [commitTurns_timebase closed hlock, newT0_reg _ h, turnsDeclared_reg]
  · cases hl : s.pcsLocked d.anchor with
    | true =>
      rw [commitTurns_locked closed hlock hl, awaitAnchor_reg, turnsDeclared_reg]
    | false =>
      rw [commitTurns_waiting closed hlock hl, State.reg_fset_ne _ _ _ hh, State.reg_fset_ne _ _ _ hs, turnsDeclared_reg]

/-- The first turn's cords, an idle core, and the anchor's T0. -/
theorem commitTurns_core (s : State) (d : Decl) (closed : Bool) :
    (s.commitTurns d closed).core.first = d.cords ∧ (s.commitTurns d closed).core.phase = .slack ∧
      (d.lock ≠ 0 → (s.commitTurns d closed).core.anchorT0 = if s.pcsLocked d.anchor then some (s.time.now + tenMicro) else none) := by
  by_cases hlock : d.lock = 0
  · rw [commitTurns_timebase closed hlock]
    exact ⟨rfl, rfl, fun h => absurd hlock h⟩
  · cases hl : s.pcsLocked d.anchor with
    | true =>
      rw [commitTurns_locked closed hlock hl]
      exact ⟨rfl, rfl, fun _ => rfl⟩
    | false =>
      rw [commitTurns_waiting closed hlock hl]
      exact ⟨rfl, rfl, fun _ => rfl⟩

/-- The lock holds the turns exactly while the anchor lane is not locked. -/
theorem commitTurns_hold (s : State) (d : Decl) (closed : Bool) :
    (s.commitTurns d closed).bit F.TURN_HOLD_SRC_LOCK = (d.lock != 0 && !s.pcsLocked d.anchor) := by
  obtain ⟨-, -, -, -, -, -, -, hfree⟩ := turnWords_shows s d closed
  by_cases hlock : d.lock = 0
  · rw [commitTurns_timebase closed hlock, hlock,
      State.bit_congr (s := s.turnWords d closed) F.TURN_HOLD_SRC_LOCK ((newT0_reg _ (by decide)).trans (turnsDeclared_reg s d closed _))]
    exact hfree
  · have hne : (d.lock != 0) = true := by simpa using hlock
    cases hl : s.pcsLocked d.anchor with
    | true =>
      rw [commitTurns_locked closed hlock hl, hne,
        State.bit_congr (s := s.turnWords d closed) F.TURN_HOLD_SRC_LOCK ((awaitAnchor_reg _ _ _).trans (turnsDeclared_reg s d closed _))]
      exact hfree
    | false =>
      rw [commitTurns_waiting closed hlock hl, hne]
      exact State.bit_fset_one _ _ (by decide) (by decide)

theorem gridAt_wget (s : State) (t0 : Nat) (w : Wide) : (s.gridAt t0).wget w = (s.wset W.TURN_T0_T0 t0).wget w :=
  State.wget_congr w fun _ _ => rfl

/-- What a placing of T0 shows. -/
theorem newT0_t0 (s : State) : s.newT0.wget W.TURN_T0_T0 = s.t0After s.lineTime.toNat % 2 ^ 96 := by
  rw [State.newT0, gridAt_wget, State.wget_wset _ _ _ (by decide)]

/-- A T0 near the commit fits the 96 bits that show it. -/
theorem t0_fits {now span t : Nat} (hnow : now < 2 ^ 80) (hspan : span < 2 ^ 32) (ht : t < now + 655360000 + span) : t < 2 ^ 96 := by
  omega

/-- The first time from `m` on that is `p` modulo `n`. -/
theorem firstAfter (m p : Nat) {n : Nat} (hn : 0 < n) :
    let t := m + (p + n - m % n) % n
    m ≤ t ∧ t < m + n ∧ t % n = p % n := by
  have hm := Nat.mod_lt m hn
  refine ⟨Nat.le_add_right _ _, Nat.add_lt_add_left (Nat.mod_lt _ hn) m, ?_⟩
  rw [Nat.add_mod_mod]
  have hdiv := Nat.div_add_mod m n
  have hsum : m + (p + n - m % n) = p + n * (m / n + 1) := by
    rw [Nat.mul_add]
    omega
  rw [hsum, Nat.add_mul_mod_self_left]

/-- Under timebase lock T0 is the first time at least 10 µs away that is PHASE modulo SPAN (R73). -/
theorem commitTurns_t0 {s : State} {d : Decl} (closed : Bool) (hlock : d.lock = 0) (hspan : 0 < d.span) (hs32 : d.span < 2 ^ 32)
    (hp32 : d.phase < 2 ^ 32) (hnow : s.time.now < 2 ^ 80) :
    let t0 := (s.commitTurns d closed).wget W.TURN_T0_T0
    s.time.now + 655360000 ≤ t0 ∧ t0 < s.time.now + 655360000 + d.span ∧ t0 % d.span = d.phase % d.span := by
  obtain ⟨-, -, -, hsrc, hspanw, -, hphase, -⟩ := turnWords_shows s d closed
  have hget : ∀ f : Fld, (s.turnsDeclared d closed).fget f = (s.turnWords d closed).fget f := fun f =>
    State.fget_congr f (turnsDeclared_reg s d closed _)
  have hline : (s.turnsDeclared d closed).lineTime = s.time.now := by
    have hbit : (s.turnsDeclared d closed).bit F.TURN_CFG_LOCK_SRC = false := by
      simp only [State.bit, hget, hsrc, hlock]
      rfl
    unfold State.lineTime
    rw [hbit, turnsDeclared_time, turnsDeclared_ltOff]
    simp
  have ht0 : (s.turnsDeclared d closed).t0After (s.turnsDeclared d closed).lineTime.toNat =
      s.time.now + tenMicro + (d.phase + d.span - (s.time.now + tenMicro) % d.span) % d.span := by
    rw [hline, Int.toNat_natCast]
    simp only [State.t0After, State.span, hget, hspanw, hphase, Nat.mod_eq_of_lt hs32, Nat.mod_eq_of_lt hp32,
      Nat.max_eq_left (Nat.succ_le_of_lt hspan)]
  obtain ⟨hge, hlt, hmod⟩ := firstAfter (s.time.now + tenMicro) d.phase hspan
  have hten : tenMicro = 655360000 := rfl
  rw [hten] at hge hlt hmod ht0
  rw [commitTurns_timebase closed hlock, newT0_t0, ht0, Nat.mod_eq_of_lt (t0_fits hnow hs32 hlt)]
  exact ⟨hge, hlt, hmod⟩

end Sys2Proof.Machine
end

section
/-! The commit as a whole (R285), and the statement about the script. -/

namespace Sys2Proof.Machine

/-! ### The commit, stage by stage -/

/-- The image has no line contention and no partner, and its settings stay in their blocks. -/
structure State.CommitFits (s : State) : Prop where
  lines : contended s.edge.blocks = []
  alone : num (s.section 0x0E) 2 1 = 0
  inPlace : s.SettingsInPlace

/-- The core's stage, the links', the fabric's and the units' of the commit. -/
def State.coreStage (s : State) : State := s.commitBase.commitCore s.load.hdr
def State.linksStage (s : State) : State := s.coreStage.commitLinks false
def State.fabricStage (s : State) : State := s.linksStage.commitFabric s.load.hdr (borderMap (s.section 0x0B))
def State.unitsStage (s : State) : State := s.fabricStage.commitUnits

variable {s : State}

theorem commitLast_eq (h : s.CommitFits) : s.commitLast = s.unitsStage.commitFinish s.load.hdr := by
  unfold State.commitLast
  rw [h.alone]
  rfl

theorem coreStage_load (s : State) : s.coreStage.load = s.load :=
  (commitCore_same s.commitBase s.load.hdr .load (by simp)).symm.trans (commitBase_load s)

theorem coreStage_edge (s : State) : s.coreStage.edge = s.edge :=
  (commitCore_same s.commitBase s.load.hdr .edge (by simp)).symm.trans (commitBase_edge s)

theorem linksStage_load (s : State) : s.linksStage.load = s.load :=
  (commitLinks_same s.coreStage false .load (by simp)).symm.trans (coreStage_load s)

theorem linksStage_edge (s : State) : s.linksStage.edge = s.edge :=
  (commitLinks_same s.coreStage false .edge (by simp)).symm.trans (coreStage_edge s)

theorem fabricStage_load (s : State) : s.fabricStage.load = s.load :=
  (commitFabric_same s.linksStage s.load.hdr _ .load (by simp)).symm.trans (linksStage_load s)

theorem linksStage_lines (h : s.CommitFits) : contended s.linksStage.edge.blocks = [] := by
  rw [linksStage_edge]
  exact h.lines

/-- Parts that no stage after the core's touches. -/
theorem coreStage_kept (h : s.CommitFits) : s.coreStage.sameOn [.mem, .core, .strands] s.commitLast := by
  rw [commitLast_eq h]
  intro p hp
  fin_cases hp
  · exact (commitLinks_same _ _ .mem (by simp)).trans ((commitFabric_same _ _ _ .mem (by simp)).trans
      ((commitUnits_same _ .mem (by simp)).trans (commitFinish_same _ _ .mem (by simp))))
  · exact (commitLinks_same _ _ .core (by simp)).trans ((commitFabric_same _ _ _ .core (by simp)).trans
      ((commitUnits_same _ .core (by simp)).trans (commitFinish_same _ _ .core (by simp))))
  · exact (commitLinks_same _ _ .strands (by simp)).trans ((commitFabric_same _ _ _ .strands (by simp)).trans
      ((commitUnits_same _ .strands (by simp)).trans (commitFinish_same _ _ .strands (by simp))))

/-- The lanes' words stand from the links' stage on. -/
theorem commitLast_reg_lane (h : s.CommitFits) {a : Nat} (ha : shownWord a) (hact : a ≠ R.ACT_STAT) (hedge : a ≠ R.EDG_STAT)
    (hcfg : a ≠ R.CFG_STAT) : s.commitLast.reg a = s.linksStage.reg a := by
  rw [commitLast_eq h, commitFinish_reg _ _ ha hcfg, State.unitsStage, commitUnits_reg (h.inPlace.congr (fabricStage_load s)) ha hact,
    State.fabricStage, commitFabric_reg (linksStage_lines h) _ _ ha hedge]

/-- The turn unit's words stand from the core's stage on. -/
theorem commitLast_reg_turn (h : s.CommitFits) {a : Nat} (ha : 0x100000 ≤ a ∧ a < 0x100040) :
    s.commitLast.reg a = s.coreStage.reg a := by
  have hrole : num (s.coreStage.section 0x0E) 2 1 = 0 := by
    rw [section_congr (coreStage_load s)]
    exact h.alone
  rw [commitLast_reg_lane h (.inl ha) (by simp only [R.ACT_STAT]; omega) (by simp only [R.EDG_STAT]; omega)
    (by simp only [R.CFG_STAT]; omega), State.linksStage,
    commitLinks_reg hrole (.inl ha) fun n => by simp only [R.LANE_CTL]; omega]

/-! ### What the commit shows -/

theorem commitLast_state (h : s.CommitFits) : s.commitLast.fget F.CFG_STAT_STATE = 5 := by
  rw [commitLast_eq h, State.commitFinish, State.fget_congr F.CFG_STAT_STATE (keepCast_reg _ _)]
  exact commitStatus_state _ _

theorem commitLast_dispatch (h : s.CommitFits) : s.commitLast.bit F.ACT_STAT_RUNNING = true := by
  rw [commitLast_eq h, State.bit_congr F.ACT_STAT_RUNNING (commitFinish_reg _ _ (by simp [shownWord, R.ACT_STAT]) (by decide))]
  exact commitUnits_runs _

theorem commitLast_fabric (h : s.CommitFits) : s.commitLast.bit F.EDG_STAT_RESET_HELD = false := by
  have hshown : shownWord R.EDG_STAT := by simp [shownWord, R.EDG_STAT]
  rw [commitLast_eq h, State.bit_congr F.EDG_STAT_RESET_HELD (commitFinish_reg _ _ hshown (by decide)), State.unitsStage,
    State.bit_congr F.EDG_STAT_RESET_HELD (commitUnits_reg (h.inPlace.congr (fabricStage_load s)) hshown (by decide))]
  exact commitFabric_out (linksStage_lines h) _ _

theorem commitLast_inForce (h : s.CommitFits) : s.commitLast.image.inForce = (true, (hDecl s.load.hdr).cords) := by
  have hunits : s.unitsStage.image = s.fabricStage.image := (commitUnits_same _ .image (by simp)).symm
  have hcore : s.coreStage.image = s.commitBase.image := (commitCore_same _ _ .image (by simp)).symm
  rw [commitLast_eq h, commitFinish_inForce, hunits, State.fabricStage, commitFabric_inForce, State.linksStage, commitLinks_inForce, hcore]
  exact commitBase_inForce s

/-- Without a partner the splice unit only shows OK_OUT valid. -/
theorem commitSplice_alone {s : State} (hrole : num (s.section 0x0E) 2 1 = 0) : s.commitSplice.splice.okOut = 2 := by
  have hid : ∀ (t : State) (b : Bytes), (t.each (List.range 8) fun s i =>
      s.setReg (R.SPL_IMAGE_ID i) (BitVec.ofNat 32 (num b (8 + 4 * i) 4))).splice = t.splice := fun t b =>
    State.each_keeps State.splice fun _ _ _ => rfl
  unfold State.commitSplice
  dsimp only
  rw [if_pos hrole, State.fset_splice]
  split
  · rw [hid, State.wset_splice, State.fset_splice, State.fset_splice, State.wset_splice]
  · rw [State.fset_splice, hid, State.wset_splice, State.fset_splice, State.fset_splice, State.wset_splice]

/-- OK_OUT is valid (R298). -/
theorem commitLast_okOut (h : s.CommitFits) : s.commitLast.splice.okOut = 2 := by
  have hrole : num (s.coreStage.section 0x0E) 2 1 = 0 := by
    rw [section_congr (coreStage_load s)]
    exact h.alone
  have hlinks : s.linksStage.splice = s.coreStage.commitSplice.splice :=
    (State.commitLanes_only (Closed.sameOn s.coreStage.commitSplice [.splice] (by decide))
      (State.measureLref_only (Closed.sameOn _ _ (by decide)) (State.sameOn_refl _ _)) false .splice (by simp)).symm
  have hrest : s.commitLast.splice = s.linksStage.splice := by
    rw [commitLast_eq h]
    exact ((commitFabric_same _ _ _ .splice (by simp)).trans
      ((commitUnits_same _ .splice (by simp)).trans (commitFinish_same _ _ .splice (by simp)))).symm
  rw [hrest, hlinks]
  exact commitSplice_alone hrole

theorem commitLast_lanes (h : s.CommitFits) {r : Bytes} (hr : r ∈ records (s.section 2) 0 16) (hn : laneNo r < 1056) :
    s.commitLast.bit (F.LANE_CTL_EN (laneNo r)) = true := by
  have hload : s.coreStage.commitSplice.measureLref.load = s.load :=
    (State.measureLref_only (Closed.sameOn s.coreStage [.load] (by decide))
      (State.commitSplice_only (Closed.sameOn _ _ (by decide)) (State.sameOn_refl _ _)) .load (by simp)).symm.trans (coreStage_load s)
  have hshown : shownWord (R.LANE_CTL (laneNo r)) := .inr (.inl (by simp only [R.LANE_CTL]; omega))
  rw [State.bit_congr (F.LANE_CTL_EN (laneNo r)) (commitLast_reg_lane h hshown (by simp only [R.ACT_STAT]; omega)
    (by simp only [R.EDG_STAT]; omega) (by simp only [R.CFG_STAT]; omega))]
  refine commitLanes_enables _ ?_
  rw [section_congr hload]
  exact hr

theorem dropAll_mem (s : State) : s.dropAll.mem = s.dropDict.mem :=
  (State.dropPorts_only (Closed.sameOn s.dropDict [.mem] (by decide)) (State.commitSlots_only (Closed.sameOn _ _ (by decide))
    (State.sameOn_refl _ _)) _ .mem (by simp)).symm

theorem State.rdByte_congr {s t : State} (h : t.mem = s.mem) (a : Nat) : t.rdByte a = s.rdByte a := by simp only [State.rdByte, h]

theorem withImage_mem (s : State) (i : Image) : (s.withImage i).mem = s.mem := rfl

theorem commitLast_memory (h : s.CommitFits) {a : Nat} (ha : inDictBanks a = false) : s.commitLast.rdByte a = s.rdByte a := by
  have hmem : s.commitLast.mem = s.dropDict.mem :=
    (coreStage_kept h .mem (by simp)).symm.trans ((commitCore_same s.commitBase s.load.hdr .mem (by simp)).symm.trans
      ((withImage_mem _ _).trans (dropAll_mem s)))
  rw [State.rdByte_congr hmem]
  exact dropDict_rdByte s ha

theorem State.strandsFresh_congr {s t : State} (h : t.strands = s.strands) (hs : s.strandsFresh) : t.strandsFresh := fun g => by
  have hg : t.strand g = s.strand g := by simp only [State.strand, h]
  rw [hg]
  exact hs g

theorem commitLast_strands (h : s.CommitFits) : s.commitLast.strandsFresh := by
  refine State.strandsFresh_congr (coreStage_kept h .strands (by simp)).symm ?_
  refine State.strandsFresh_congr (s := s.commitBase.initStores fun _ => true) ?_ (initStores_fresh (withImage_fresh _ _) _)
  exact (State.commitTurns_only (Closed.sameOn _ [.strands] (by decide)) (State.sameOn_refl _ _) _ _ .strands (by simp)).symm

/-! ### The turn unit after the commit -/

/-- The state whose turn unit the commit sets. -/
def State.storesStage (s : State) : State := s.commitBase.initStores fun _ => true

theorem coreStage_eq (s : State) :
    s.coreStage = s.storesStage.commitTurns (hDecl s.load.hdr) ((hDecl s.load.hdr).part == 0x4060) := rfl

theorem storesStage_time (s : State) : s.storesStage.time = s.time :=
  (State.initStores_only (Closed.sameOn s.commitBase [.time] (by decide)) (State.sameOn_refl _ _) _ .time (by simp)).symm.trans
    (commitBase_time s)

theorem storesStage_pcsLocked (s : State) (n : Nat) : s.storesStage.pcsLocked n = s.pcsLocked n := by
  have hregs : s.storesStage.regs = s.commitBase.regs :=
    (State.initStores_only (Closed.sameOn s.commitBase [.regs] (by decide)) (State.sameOn_refl _ _) _ .regs (by simp)).symm
  have hreg : ∀ a, 0x2000000 ≤ a → s.storesStage.reg a = s.reg a := fun a ha =>
    (State.reg_congr hregs a).trans (commitBase_reg s (.inr ha))
  unfold State.pcsLocked State.pcs
  rw [State.bit_congr (F.LANE_STAT_PCS_LOCK n) (hreg _ (by simp only; omega)),
    State.bit_congr (F.LANE_STAT_CDR_LOCK n) (hreg _ (by simp only; omega)),
    State.fget_congr (F.LANE_CFG_PCS n) (hreg _ (by simp only; omega))]

/-- The words that the image declares. -/
theorem commitLast_declared (h : s.CommitFits) :
    let d := hDecl s.load.hdr
    let t := s.commitLast
    t.wget W.TURN_NUM_TURN = 0 ∧ t.fget F.TURN_CFG_L = d.l % 2 ^ 13 ∧ t.fget F.TURN_CFG_E = d.e % 2 ^ 13 ∧
      t.fget F.TURN_SPAN_VALUE = d.span % 2 ^ 32 ∧ t.fget F.TURN_DOUT_VALUE = d.dout % 2 ^ 32 := by
  have hreg : ∀ a, 0x10000C ≤ a ∧ a < 0x100028 → s.commitLast.reg a =
      (s.storesStage.turnWords (hDecl s.load.hdr) ((hDecl s.load.hdr).part == 0x4060)).reg a := fun a ha => by
    rw [commitLast_reg_turn h (by omega), coreStage_eq,
      commitTurns_reg _ _ _ (by omega) (by simp only [R.TURN_STAT]; omega) (by simp only [R.TURN_HOLD_SRC]; omega)]
  obtain ⟨hnum, hl, he, -, hspan, hdout, -, -⟩ :=
    turnWords_shows s.storesStage (hDecl s.load.hdr) ((hDecl s.load.hdr).part == 0x4060)
  refine ⟨(State.wget_congr _ fun i hi => hreg _ ?_).trans hnum, (State.fget_congr _ (hreg _ (by decide))).trans hl,
    (State.fget_congr _ (hreg _ (by decide))).trans he, (State.fget_congr _ (hreg _ (by decide))).trans hspan,
    (State.fget_congr _ (hreg _ (by decide))).trans hdout⟩
  simp only at hi ⊢
  omega

theorem commitLast_hold (h : s.CommitFits) :
    s.commitLast.bit F.TURN_HOLD_SRC_LOCK = ((hDecl s.load.hdr).lock != 0 && !s.pcsLocked (hDecl s.load.hdr).anchor) := by
  rw [State.bit_congr F.TURN_HOLD_SRC_LOCK (commitLast_reg_turn h (by decide)), coreStage_eq, commitTurns_hold, storesStage_pcsLocked]

theorem commitLast_core (h : s.CommitFits) :
    let d := hDecl s.load.hdr
    s.commitLast.core.first = d.cords ∧ s.commitLast.core.phase = .slack ∧
      (d.lock ≠ 0 → s.commitLast.core.anchorT0 = if s.pcsLocked d.anchor then some (s.time.now + tenMicro) else none) := by
  obtain ⟨hfirst, hphase, hanchor⟩ := commitTurns_core s.storesStage (hDecl s.load.hdr) ((hDecl s.load.hdr).part == 0x4060)
  rw [storesStage_pcsLocked, storesStage_time] at hanchor
  dsimp only
  rw [← coreStage_kept h .core (by simp), coreStage_eq]
  exact ⟨hfirst, hphase, hanchor⟩

theorem commitLast_t0 (h : s.CommitFits) (hlock : (hDecl s.load.hdr).lock = 0) (hspan : 0 < (hDecl s.load.hdr).span)
    (hs32 : (hDecl s.load.hdr).span < 2 ^ 32) (hp32 : (hDecl s.load.hdr).phase < 2 ^ 32) (hnow : s.time.now < 2 ^ 80) :
    let t0 := s.commitLast.wget W.TURN_T0_T0
    s.time.now + 655360000 ≤ t0 ∧ t0 < s.time.now + 655360000 + (hDecl s.load.hdr).span ∧
      t0 % (hDecl s.load.hdr).span = (hDecl s.load.hdr).phase % (hDecl s.load.hdr).span := by
  have ht0 : s.commitLast.wget W.TURN_T0_T0 = s.coreStage.wget W.TURN_T0_T0 := State.wget_congr _ fun i hi =>
    commitLast_reg_turn h (by simp only at hi ⊢; omega)
  have hplaced := commitTurns_t0 (s := s.storesStage) ((hDecl s.load.hdr).part == 0x4060) hlock hspan hs32 hp32
    (by rw [storesStage_time]; exact hnow)
  rw [storesStage_time] at hplaced
  rw [ht0, coreStage_eq]
  exact hplaced

/-! ### The command -/

def State.withLoad (s : State) (l : Loader) : State := { s with load := l }

theorem withLoad_reg (s : State) (l : Loader) (a : Nat) : (s.withLoad l).reg a = s.reg a := rfl

theorem scriptCommit_eq (s : State) :
    s.scriptCommit = s.commitLast.withLoad { s.commitLast.load.rest with pc := s.load.pc + 1 } := by
  unfold State.scriptCommit
  rw [commitImage_eq]
  rfl

/-- What the command leaves, apart from HST_EVT and the loader, is the commit's outcome. -/
theorem scriptCommit_shows (s : State) :
    let t := s.watch allBits State.scriptCommit
    (∀ a, a ≠ R.HST_EVT → t.reg a = s.commitLast.reg a) ∧ t.image = s.commitLast.image ∧ t.core = s.commitLast.core ∧
      t.strands = s.commitLast.strands ∧ t.mem = s.commitLast.mem ∧ t.splice = s.commitLast.splice ∧ t.load.on = false := by
  have heq := scriptCommit_eq s
  refine ⟨fun a ha => ?_, ?_, ?_, ?_, ?_, ?_, ?_⟩
  · rw [s.watch_reg allBits _ ha, heq, withLoad_reg]
  · rw [s.watch_unit allBits _ State.image fun _ _ => rfl, heq]
    rfl
  · rw [s.watch_unit allBits _ State.core fun _ _ => rfl, heq]
    rfl
  · rw [s.watch_unit allBits _ State.strands fun _ _ => rfl, heq]
    rfl
  · rw [s.watch_unit allBits _ State.mem fun _ _ => rfl, heq]
    rfl
  · rw [s.watch_unit allBits _ State.splice fun _ _ => rfl, heq]
    rfl
  · rw [s.watch_unit allBits _ (fun t => t.load.on) fun _ _ => rfl, heq]
    rfl

/-! ### The statement -/

/-- Settles O45: each command of the script by its own lemma, and the commit by what its stages set and keep. -/
theorem scriptAndCommit : Obligations.ScriptAndCommit := by
  unfold Obligations.ScriptAndCommit
  refine ⟨script_elsewhere, fun s h => ⟨scriptWrite_barred h, fun u hmask hout => scriptWrite_full h hmask hout,
    fun c hc ha ho hd hstate => scriptWrite_keepsUnmasked h hc ha ho hd hstate⟩, fun s h => scriptWait_next h,
    fun s c h hc ha ho hd hstate => scriptPoll_counterCompare h hc ha ho hd hstate, fun s h => scriptPollTimeout_refused h,
    fun s h hlines halone hset hgran => ?_, scriptEnd_after⟩
  have hfits : s.CommitFits := ⟨hlines, halone, hset, hgran⟩
  obtain ⟨hreg, himage, hcore, hstrands, hmem, hsplice, hon⟩ := scriptCommit_shows s
  obtain ⟨hcommitted, hcords⟩ := Prod.mk.inj (commitLast_inForce hfits)
  obtain ⟨hfirst, hphase, hanchor⟩ := commitLast_core hfits
  obtain ⟨hnum, hl, he, hspan, hdout⟩ := commitLast_declared hfits
  have hget : ∀ f : Fld, f.addr ≠ R.HST_EVT → (s.watch allBits State.scriptCommit).fget f = s.commitLast.fget f := fun f hf =>
    State.fget_congr f (hreg _ hf)
  have hbit : ∀ f : Fld, f.addr ≠ R.HST_EVT → (s.watch allBits State.scriptCommit).bit f = s.commitLast.bit f := fun f hf =>
    State.bit_congr f (hreg _ hf)
  have hwide : ∀ w : Wide, R.HST_EVT < w.addr → (s.watch allBits State.scriptCommit).wget w = s.commitLast.wget w := fun w hw =>
    State.wget_congr w fun i _ => hreg _ (by omega)
  refine ⟨_, exec_scriptCommit h, himage ▸ hcommitted, himage ▸ hcords, hcore ▸ hfirst, hcore ▸ hphase, hon,
    (hget _ (by decide)).trans (commitLast_state hfits), (hbit _ (by decide)).trans (commitLast_dispatch hfits),
    (hbit _ (by decide)).trans (commitLast_fabric hfits), hsplice ▸ commitLast_okOut hfits,
    fun a ha => (State.rdByte_congr hmem a).trans (commitLast_memory hfits ha), (hwide _ (by decide)).trans hnum,
    (hget _ (by decide)).trans hl, (hget _ (by decide)).trans he, (hget _ (by decide)).trans hspan, (hget _ (by decide)).trans hdout,
    (hbit _ (by decide)).trans (commitLast_hold hfits), fun hlock => hcore ▸ hanchor hlock,
    State.strandsFresh_congr hstrands (commitLast_strands hfits),
    fun r hr hn => (hbit _ (by simp only [R.HST_EVT]; omega)).trans (commitLast_lanes hfits hr hn),
    fun hlock hpos hs32 hp32 hnow => ?_⟩
  rw [hwide _ (by decide)]
  exact commitLast_t0 hfits hlock hpos hs32 hp32 hnow

end Sys2Proof.Machine
end

section
/-! What observes a request (R118, R120, R345): the words it writes, and what it leaves as it is. -/

namespace Sys2Proof.Machine

/-! ### Words that observation writes -/

/-- A word of the trace unit, of a probe's or a monitor's counters, or HST_EVT. -/
def observedWord (a : Nat) : Prop := a = R.HST_EVT ∨ (0x80000 ≤ a ∧ a < 0x90000) ∨ (0x91000 ≤ a ∧ a < 0x92400)

variable {a : Nat}

theorem traceOffer_reg (s : State) (r : TraceRec) (h : ¬ observedWord a) : (s.traceOffer r).reg a = s.reg a := by
  have hlost : a ≠ R.TRC_LOST := by simp only [observedWord, R.TRC_LOST] at h ⊢; omega
  have hstat : a ≠ R.TRC_STAT := by simp only [observedWord, R.TRC_STAT] at h ⊢; omega
  have hevt : a ≠ R.HST_EVT := fun he => h (.inl he)
  unfold State.traceOffer
  split_ifs
  · rfl
  · exact s.reg_fset_ne _ _ hlost
  · rfl
  · rw [State.watch_reg _ _ _ hevt, State.reg_fset_ne _ _ _ hstat]
    exact State.reg_fset_ne _ _ _ hlost

theorem probeCount_reg (s : State) {n : Nat} (bytes : Nat) (hn : n < 64) (h : ¬ observedWord a) :
    (s.probeCount n bytes).reg a = s.reg a := by
  simp only [observedWord] at h
  exact (State.reg_wset _ _ _ _ (by simp only; omega)).trans (State.reg_wset _ _ _ _ (by simp only; omega))

theorem probeHit_reg (s : State) {n : Nat} (bytes : Nat) (r : TraceRec) (hn : n < 64) (h : ¬ observedWord a) :
    (s.probeHit n bytes r).reg a = s.reg a := by
  unfold State.probeHit
  dsimp only
  split_ifs
  · rw [traceOffer_reg _ _ h, probeCount_reg s bytes hn h]
  · rw [traceOffer_reg _ _ h]
  · rw [probeCount_reg s bytes hn h]
  · rfl

theorem probePacket_reg (s : State) (stn side op : Nat) (p : Packet) (h : ¬ observedWord a) :
    (s.probePacket stn side op p).reg a = s.reg a :=
  State.each_keeps (fun t => t.reg a) fun t n hn => by
    dsimp only
    split
    · exact probeHit_reg t _ _ (List.mem_range.mp hn) h
    · rfl

theorem travel_reg (s : State) (src op : Nat) (p : Packet) (h : ¬ observedWord a) : (s.travel src op p).reg a = s.reg a := by
  unfold State.travel
  dsimp only
  split
  · rw [probePacket_reg _ _ _ _ _ h]
    exact (State.each_keeps (fun t => t.reg a) fun t w _ => probePacket_reg t _ _ _ _ h).trans (probePacket_reg s _ _ _ _ h)
  · rfl

theorem monitor_reg (s : State) (m bytes : Nat) (edges : Option Nat) (h : ¬ observedWord a) :
    (s.monitor m bytes edges).reg a = s.reg a :=
  State.each_keeps (fun t => t.reg a) fun t n hn => by
    have := List.mem_range.mp hn
    have hbw : a ≠ R.G32_BW n := by simp only [observedWord, R.G32_BW] at h ⊢; omega
    dsimp only
    split
    · split
      · exact t.reg_fset_ne _ _ hbw
      · exact t.reg_fset_ne _ _ hbw
    · rfl

/-- A request that is observed writes only the observers' words and HST_EVT. -/
theorem seeRequest_reg (s : State) (op : Nat) (p : Packet) (h : ¬ observedWord a) : (s.seeRequest op p).reg a = s.reg a := by
  unfold State.seeRequest
  dsimp only
  split
  · rw [monitor_reg _ _ _ _ h, traceOffer_reg _ _ h, travel_reg _ _ _ _ h]
  · exact travel_reg s _ _ _ h

/-! ### What observation leaves -/

/-- The ring without the latency bins. -/
def Ring.unbinned (r : Ring) : Ring := { r with bins := [] }

theorem monitor_ring (s : State) (m bytes : Nat) (edges : Option Nat) :
    (s.monitor m bytes edges).ring.unbinned = s.ring.unbinned :=
  State.each_keeps (fun t => t.ring.unbinned) fun t n _ => by
    dsimp only
    split
    · split <;> rfl
    · rfl

theorem seeRequest_ring (s : State) (op : Nat) (p : Packet) : (s.seeRequest op p).ring.unbinned = s.ring.unbinned := by
  have htravel : (s.travel (entryStn p.src.toNat p.dstStn.toNat) op p).ring = s.ring :=
    (State.travel_only (Closed.sameOn s [.ring] (by decide)) (s.sameOn_refl _) _ _ _ .ring (by simp)).symm
  have htrace : ∀ (t : State) (r : TraceRec), (t.traceOffer r).ring = t.ring := fun t r =>
    (State.traceOffer_only (Closed.sameOn t [.ring] (by decide)) (t.sameOn_refl _) r .ring (by simp)).symm
  unfold State.seeRequest
  dsimp only
  split
  · rw [monitor_ring, htrace, htravel]
  · rw [htravel]

theorem seeRequest_resps (s : State) (op : Nat) (p : Packet) : (s.seeRequest op p).ring.resps = s.ring.resps := by
  have h := congrArg Ring.resps (seeRequest_ring s op p)
  exact h

theorem seeRequest_nextOwner (s : State) (op : Nat) (p : Packet) : (s.seeRequest op p).ring.nextOwner = s.ring.nextOwner := by
  have h := congrArg Ring.nextOwner (seeRequest_ring s op p)
  exact h

theorem seeRequest_mem (s : State) (op : Nat) (p : Packet) : (s.seeRequest op p).mem = s.mem :=
  (State.seeRequest_only (Closed.sameOn s [.mem] (by decide)) (s.sameOn_refl _) op p .mem (by simp)).symm

theorem seeRequest_part (s : State) (op : Nat) (p : Packet) : (s.seeRequest op p).part = s.part :=
  (State.seeRequest_only ((closed_identityOf s).mono rfl) ⟨rfl, rfl, rfl⟩ op p).2.1

/-! ### Where nothing observes -/

theorem traceOffer_off {s : State} (h : s.bit F.TRC_CTL_EN = false) (r : TraceRec) : s.traceOffer r = s := by
  unfold State.traceOffer State.traceAdmits
  simp [h]

theorem State.each_same {α : Type} {s : State} {l : List α} {f : State → α → State} (h : ∀ x ∈ l, f s x = s) : s.each l f = s := by
  induction l with
  | nil => rfl
  | cons x l ih =>
    show State.each (f s x) l f = s
    rw [h x List.mem_cons_self]
    exact ih fun y hy => h y (List.mem_cons_of_mem _ hy)

theorem probePacket_off {s : State} (h : ∀ n < 64, s.bit (F.NOC_PRB_CTL_EN n) = false) (stn side op : Nat) (p : Packet) :
    s.probePacket stn side op p = s :=
  State.each_same fun n hn => by
    have hoff : s.probeAt n stn side p.vn.toNat = false := by simp [State.probeAt, h n (List.mem_range.mp hn)]
    simp [hoff]

theorem monitor_off {s : State} (h : ∀ n < 8, s.bit (F.G32_INIT_EN n) = false) (m bytes : Nat) (edges : Option Nat) :
    s.monitor m bytes edges = s :=
  State.each_same fun n hn => by simp [h n (List.mem_range.mp hn)]

theorem travel_off {s : State} (h : ∀ n < 64, s.bit (F.NOC_PRB_CTL_EN n) = false) (src op : Nat) (p : Packet) :
    s.travel src op p = s := by
  unfold State.travel
  dsimp only
  rw [probePacket_off h, State.each_same fun w _ => probePacket_off h _ _ _ _, probePacket_off h, ite_self]

/-- A request that nothing observes passes unseen. -/
theorem seeRequest_unobserved {s : State} (h : s.unobserved) (op : Nat) (p : Packet) : s.seeRequest op p = s := by
  obtain ⟨hprobe, hmon, htrace⟩ := h
  unfold State.seeRequest
  dsimp only
  rw [travel_off hprobe, traceOffer_off htrace, monitor_off hmon, ite_self]

theorem sees_unobserved {s : State} (h : s.unobserved) (m : MasterId) : s.sees m = false := by
  obtain ⟨hprobe, hmon, htrace⟩ := h
  refine sees_of_unobserved ?_ m
  simp only [State.observed, htrace, Bool.false_or, Bool.or_eq_false_iff, List.any_eq_false, List.mem_range, Bool.not_eq_true]
  exact ⟨hprobe, hmon⟩

end Sys2Proof.Machine
end

section
/-! What the target of a request answers does not depend on what observed it (R117, R135, R136, R139). -/

namespace Sys2Proof.Machine

/-! ### Domains -/

theorem bankOf_lt (s : State) {a : Nat} (h : s.inScratch a = true) : bankOf a < 64 := by
  unfold State.inScratch State.bankHere at h
  simp only [Bool.and_eq_true, decide_eq_true_eq] at h
  obtain ⟨_, hb⟩ := h
  split at hb <;> omega

theorem stackOf_lt (s : State) {a : Nat} (h : s.inDram a = true) : stackOf a < 8 := by
  unfold State.inDram at h
  simp only [Bool.and_eq_true, decide_eq_true_eq] at h
  obtain ⟨hlo, hhi⟩ := h
  unfold stackOf granuleOf
  split at hhi <;> omega

theorem blockDomain_lt (a : Nat) : blockDomain a < 86 := by
  unfold blockDomain
  split_ifs <;> omega

theorem addrDomain_lt (s : State) (a : Nat) : s.addrDomain a < 86 := by
  unfold State.addrDomain
  split_ifs with hs hd
  · have := bankOf_lt s hs
    omega
  · have := stackOf_lt s hd
    omega
  · exact blockDomain_lt a

/-! ### Observed states -/

/-- `t` is `s` as observation leaves it: the part, the words that observation does not write, and the owners to come are the same. -/
structure State.SeenAs (s t : State) : Prop where
  part : t.part = s.part
  words : ∀ a, ¬ observedWord a → t.reg a = s.reg a
  owners : t.ring.nextOwner = s.ring.nextOwner

theorem seeRequest_seenAs (s : State) (op : Nat) (p : Packet) : s.SeenAs (s.seeRequest op p) :=
  ⟨seeRequest_part s op p, fun _ h => seeRequest_reg s op p h, seeRequest_nextOwner s op p⟩

variable {s t : State} (h : s.SeenAs t)
include h

theorem State.SeenAs.big : t.big = s.big := by simp only [State.big, h.part]

theorem State.SeenAs.fget {f : Fld} (hf : ¬ observedWord f.addr) : t.fget f = s.fget f := State.fget_congr f (h.words _ hf)

theorem State.SeenAs.bit {f : Fld} (hf : ¬ observedWord f.addr) : t.bit f = s.bit f := State.bit_congr f (h.words _ hf)

theorem State.SeenAs.bankHere (b : Nat) : t.bankHere b = s.bankHere b := by simp only [State.bankHere, h.big]

theorem State.SeenAs.inScratch (a : Nat) : t.inScratch a = s.inScratch a := by simp only [State.inScratch, h.bankHere]

theorem State.SeenAs.absentWindow (a : Nat) : t.absentWindow a = s.absentWindow a := by simp only [State.absentWindow, h.bankHere]

theorem State.SeenAs.inDram (a : Nat) : t.inDram a = s.inDram a := by simp only [State.inDram, h.big]

theorem State.SeenAs.domainOn {d : Nat} (hd : d < 86) : t.domainOn d = s.domainOn d := by
  have hon : ¬ observedWord (F.PWR_DOM_ON d).addr := by simp only [observedWord, R.HST_EVT]; omega
  simp only [State.domainOn, h.bit hon, h.fget (f := F.PWR_STAT_STATE) (by simp [observedWord, R.HST_EVT])]

theorem State.SeenAs.addrDomain (a : Nat) : t.addrDomain a = s.addrDomain a := by
  simp only [State.addrDomain, h.inScratch, h.inDram]

theorem State.SeenAs.closed : t.closed = s.closed := by
  simp only [State.closed, h.big, h.bit (f := F.NOC_STAT_CLOSED) (by simp [observedWord, R.HST_EVT])]

theorem State.SeenAs.bankAnswer (b m : Nat) : t.bankAnswer b m = s.bankAnswer b m := by
  have hstat : ¬ observedWord (F.BNK_STAT_STATE b).addr := by simp only [observedWord, R.HST_EVT]; omega
  have hown : ¬ observedWord (F.BNK_OWN_OWNER b).addr := by simp only [observedWord, R.HST_EVT]; omega
  simp only [State.bankAnswer, h.fget hstat, h.fget (f := F.BNK_OWN_OWNER b) hown, h.bit (f := F.BNK_OWN_CORDS b) hown, h.owners]

theorem State.SeenAs.dramAllows (m a : Nat) (write : Bool) : t.dramAllows m a write = s.dramAllows m a write := by
  have huse : ¬ observedWord (F.BNK_GRN_USE (granuleOf a)).addr := by simp only [observedWord, R.HST_EVT]; omega
  simp only [State.dramAllows, State.granuleAllows, h.fget huse, h.fget (f := F.CFG_STAT_STATE) (by simp [observedWord, R.HST_EVT]),
    h.bit (f := F.TURN_STAT_HALTED) (by simp [observedWord, R.HST_EVT])]

theorem State.SeenAs.lineAnswer (m a : Nat) (write : Bool) : t.lineAnswer m a write = s.lineAnswer m a write := by
  simp only [State.lineAnswer, h.inScratch, h.inDram, h.addrDomain, h.domainOn (addrDomain_lt s a), h.bankAnswer, h.dramAllows]

theorem State.SeenAs.packetAnswer (m : Nat) (p : Packet) (write : Bool) : t.packetAnswer m p write = s.packetAnswer m p write := by
  simp only [State.packetAnswer, h.lineAnswer]

theorem State.SeenAs.beyond (p : Packet) : t.beyond p = s.beyond p := by simp only [State.beyond, h.absentWindow]

theorem State.SeenAs.blockAbsent (a : Nat) : t.blockAbsent a = s.blockAbsent a := by simp only [State.blockAbsent, h.big]

theorem State.SeenAs.blockOn (a : Nat) : t.blockOn a = s.blockOn a := by
  simp only [State.blockOn, h.domainOn (blockDomain_lt a), h.closed]

theorem State.SeenAs.regsAsleep (p : Packet) (write : Bool) : t.regsAsleep p write = s.regsAsleep p write := by
  simp only [State.regsAsleep, State.blockAsleep, h.blockAbsent, h.blockOn]

end Sys2Proof.Machine
end

section
/-! How a request reaches its target (R109, R112, R116, R286, R341, R359, R360). -/

namespace Sys2Proof.Machine

variable {s : State} {p q : Packet}

/-! ### The way -/

/-- On an open way a request reaches its target. -/
theorem send_open (h : s.wayOpen q = true) (op : Nat) (f : State → State) : s.send op q f = f (s.seeRequest op q) := if_pos h

/-- A request that meets a closed station, and that may take no other way, waits (R116). -/
theorem send_closed (h : s.wayOpen q = false) (hr : s.mayReroute (entryStn p.src.toNat q.dstStn.toNat) q = false) (hs : q.src = p.src)
    (op : Nat) (f : State → State) : s.send op q f = s.park op q := by
  rw [← hs] at hr
  unfold State.send
  unfold State.wayOpen at h
  simp only [h, hr]
  rfl

/-- A READ, and a write, of an open way at their targets. -/
theorem readRequest_open (h : s.wayOpen (s.located p) = true) :
    s.readRequest p = (s.seeRequest 0 (s.located p)).targetRead (s.located p) := send_open h 0 _

theorem writeRequest_open (h : s.wayOpen (s.located p) = true) :
    s.writeRequest false p = (s.seeRequest 1 (s.located p)).targetWrite (s.located p) false := send_open h 1 _

theorem postedRequest_open (h : s.wayOpen (s.located p) = true) :
    s.writeRequest true p = (s.seeRequest 2 (s.located p)).targetWrite (s.located p) true := send_open h 2 _

/-! ### Masters other than the host -/

theorem offered_inner (h0 : p.src ≠ 0) (hr : s.inReset = false) (hm : masterOk p.src = true) (op : Nat) (f : State → State) :
    s.offered op p f = s.watch allBits f :=
  watch_congr _ (by rw [if_neg h0, if_neg (by simp [hr, hm])])

theorem offered_barred (h0 : p.src ≠ 0) (h : s.inReset = true ∨ masterOk p.src = false) (op : Nat) (f : State → State) :
    s.offered op p f = s := by
  have hnone : s.offered op p f = s.watch allBits fun s => s := watch_congr _ (by
    rw [if_neg h0, if_pos (by rcases h with h | h <;> simp [h])])
  rw [hnone]
  exact watch_sameRegs _ rfl rfl

theorem exec_read_inner (h0 : p.src ≠ 0) (hr : s.inReset = false) (hm : masterOk p.src = true) :
    exec (.read p) s = .next (s.watch allBits fun s => s.readRequest p) :=
  congrArg Host.Outcome.next (offered_inner h0 hr hm 0 _)

theorem exec_write_inner (h0 : p.src ≠ 0) (hr : s.inReset = false) (hm : masterOk p.src = true) :
    exec (.write p) s = .next (s.watch allBits fun s => s.writeRequest false p) :=
  congrArg Host.Outcome.next (offered_inner h0 hr hm 1 _)

theorem exec_postedWrite_inner (h0 : p.src ≠ 0) (hr : s.inReset = false) (hm : masterOk p.src = true) :
    exec (.postedWrite p) s = .next (s.watch allBits fun s => s.writeRequest true p) :=
  congrArg Host.Outcome.next (offered_inner h0 hr hm 2 _)

/-- In reset, or of a reserved master ID, no packet has an effect. -/
theorem exec_packet_barred (h0 : p.src ≠ 0) (h : s.inReset = true ∨ masterOk p.src = false) :
    exec (.read p) s = .next s ∧ exec (.write p) s = .next s ∧ exec (.postedWrite p) s = .next s ∧ exec (.stream p) s = .next s :=
  ⟨congrArg Host.Outcome.next (offered_barred h0 h 0 _), congrArg Host.Outcome.next (offered_barred h0 h 1 _),
    congrArg Host.Outcome.next (offered_barred h0 h 2 _),
    congrArg Host.Outcome.next (if_pos (by rcases h with h | h <;> simp [h]))⟩

/-- The host posts no writes (R360). -/
theorem exec_postedWrite_host (h0 : p.src = 0) : exec (.postedWrite p) s = .next s := by
  refine congrArg Host.Outcome.next ?_
  have hnone : s.offered 2 p (fun s => s.writeRequest true p) = s.watch allBits fun s => s := watch_congr _ (by simp [h0])
  exact hnone.trans (watch_sameRegs _ rfl rfl)

/-- A request waits before a closed station. -/
theorem watch_park (op : Nat) {f : State → State} (h : f s = s.park op q) : s.watch allBits f = s.park op q :=
  (watch_congr (g := fun s => s.park op q) _ h).trans (watch_sameRegs _ rfl rfl)

/-! ### The host -/

theorem wakeAwake_keeps (s : State) (src : Nat) : (s.wakeAwake src).mem = s.mem ∧ (s.wakeAwake src).ring = s.ring :=
  have hsame := State.wakeAwake_only (Closed.sameOn s [.mem, .ring] (by decide)) (s.sameOn_refl _) src
  ⟨(hsame .mem (by simp)).symm, (hsame .ring (by simp)).symm⟩

/-- A request that no load bars, of a device that is not asleep, passes the gate. -/
theorem hostGate_passes {write : Bool} (hrun : s.fget F.PWR_STAT_STATE = 0)
    (hload : write = true → loadWritable p.addr.toNat = true ∨ s.image.committed = true) (f : State → State) :
    (s.hostGate p write f).mem = (f s).mem ∧ (s.hostGate p write f).ring = (f s).ring := by
  have hawake : s.asleep = false := by simp [State.asleep, hrun]
  have hopen : (write && !loadWritable p.addr.toNat && !s.image.committed) = false := by
    cases write with
    | false => rfl
    | true => rcases hload rfl with h | h <;> simp [h]
  unfold State.hostGate
  simp only [hawake, hopen, Bool.false_eq_true, if_false]
  split_ifs
  · exact ⟨rfl, rfl⟩
  · exact ⟨rfl, rfl⟩
  · exact wakeAwake_keeps (f s) 3

/-- The address of a host's packet on the rings. -/
theorem hostPacket_addr (h0 : p.src = 0) :
    { p with addr := BitVec.ofNat 48 ((if p.bar2 then s.wget W.HST_AP_BASE_BASE else 0) + p.addr.toNat) } = s.sent p := by
  unfold State.sent
  by_cases hb : p.bar2 = true
  · rw [if_pos hb, if_pos ⟨h0, hb⟩]
  · rw [if_neg hb, if_neg fun h => hb h.2, Nat.zero_add, BitVec.ofNat_toNat, BitVec.setWidth_eq]

/-- What `requestRuns` says of a request of the host. -/
theorem requestRuns_host {write : Bool} (h0 : p.src = 0) (h : s.requestRuns p write = true) :
    s.hostAway = false ∧ s.fget F.PWR_STAT_STATE = 0 ∧ s.reg R.HST_LINK ≠ 0 ∧
      s.hostHeld (.packet (if write then 1 else 0) (s.sent p)) = false ∧
      (write = true → loadWritable (s.sent p).addr.toNat = true ∨ s.image.committed = true) := by
  unfold State.requestRuns at h
  rw [if_pos h0] at h
  simp only [Bool.and_eq_true, Bool.not_eq_true', beq_iff_eq, bne_iff_ne, Bool.or_eq_true] at h
  obtain ⟨⟨⟨⟨⟨⟨haway, hrun⟩, _⟩, _⟩, hlink⟩, hheld⟩, hload⟩ := h
  refine ⟨haway, hrun, hlink, hheld, fun hw => ?_⟩
  subst hw
  simpa [or_assoc] using hload

theorem sent_src (s : State) (p : Packet) : (s.sent p).src = p.src := by
  unfold State.sent
  split <;> rfl

theorem sent_tag (s : State) (p : Packet) : (s.sent p).tag = p.tag := by
  unfold State.sent
  split <;> rfl

/-- A host's request that runs goes onto the rings. -/
theorem hostPacket_runs {write : Bool} (h0 : p.src = 0) (h : s.requestRuns p write = true) :
    s.hostPacket (if write then 1 else 0) p =
      s.hostGate (s.sent p) write fun s' => if write then s'.writeRequest false (s.sent p) else s'.readRequest (s.sent p) := by
  obtain ⟨haway, -, hlink, hheld, -⟩ := requestRuns_host h0 h
  unfold State.hostPacket
  dsimp only
  rw [if_neg (by simp [haway]), trainLink_done hlink, hostPacket_addr h0]
  unfold State.hostOffer
  rw [if_neg (by simp [haway]), if_neg (by simp [hheld])]
  cases write <;> rfl

theorem sent_inner (h0 : p.src ≠ 0) : s.sent p = p := if_neg fun h => h0 h.1

theorem requestRuns_inner {write : Bool} (h0 : p.src ≠ 0) (h : s.requestRuns p write = true) :
    s.inReset = false ∧ masterOk p.src = true := by
  unfold State.requestRuns at h
  rw [if_neg h0] at h
  simpa using h

/-- A READ that goes onto the rings does to memory and the ring what its target does. -/
theorem read_runs (h : s.requestRuns p false = true) (ho : s.wayOpen (s.located (s.sent p)) = true) :
    ∃ t, exec (.read p) s = .next t ∧
      t.mem = ((s.seeRequest 0 (s.located (s.sent p))).targetRead (s.located (s.sent p))).mem ∧
      t.ring = ((s.seeRequest 0 (s.located (s.sent p))).targetRead (s.located (s.sent p))).ring := by
  rw [← readRequest_open ho]
  by_cases h0 : p.src = 0
  · obtain ⟨-, hrun, -, -, hload⟩ := requestRuns_host h0 h
    have hgate : s.offered 0 p (fun s => s.readRequest p) =
        s.watch allBits fun s' => s'.hostGate (s.sent p) false fun s' => s'.readRequest (s.sent p) :=
      watch_congr _ ((if_pos h0).trans ((if_neg (by decide)).trans (hostPacket_runs h0 h)))
    obtain ⟨hmem, hring⟩ := hostGate_passes (p := s.sent p) hrun hload fun s' => s'.readRequest (s.sent p)
    refine ⟨_, congrArg Host.Outcome.next hgate, ?_, ?_⟩
    · rw [State.watch_unit _ _ _ State.mem fun _ _ => rfl]
      exact hmem
    · rw [State.watch_unit _ _ _ State.ring fun _ _ => rfl]
      exact hring
  · obtain ⟨hr, hm⟩ := requestRuns_inner h0 h
    rw [sent_inner h0]
    exact ⟨_, exec_read_inner h0 hr hm, State.watch_unit _ _ _ State.mem fun _ _ => rfl, State.watch_unit _ _ _ State.ring fun _ _ => rfl⟩

/-- So does a WRITE. -/
theorem write_runs (h : s.requestRuns p true = true) (ho : s.wayOpen (s.located (s.sent p)) = true) :
    ∃ t, exec (.write p) s = .next t ∧
      t.mem = ((s.seeRequest 1 (s.located (s.sent p))).targetWrite (s.located (s.sent p)) false).mem ∧
      t.ring = ((s.seeRequest 1 (s.located (s.sent p))).targetWrite (s.located (s.sent p)) false).ring := by
  rw [← writeRequest_open ho]
  by_cases h0 : p.src = 0
  · obtain ⟨-, hrun, -, -, hload⟩ := requestRuns_host h0 h
    have hgate : s.offered 1 p (fun s => s.writeRequest false p) =
        s.watch allBits fun s' => s'.hostGate (s.sent p) true fun s' => s'.writeRequest false (s.sent p) :=
      watch_congr _ ((if_pos h0).trans ((if_neg (by decide)).trans (hostPacket_runs h0 h)))
    obtain ⟨hmem, hring⟩ := hostGate_passes (p := s.sent p) hrun hload fun s' => s'.writeRequest false (s.sent p)
    refine ⟨_, congrArg Host.Outcome.next hgate, ?_, ?_⟩
    · rw [State.watch_unit _ _ _ State.mem fun _ _ => rfl]
      exact hmem
    · rw [State.watch_unit _ _ _ State.ring fun _ _ => rfl]
      exact hring
  · obtain ⟨hr, hm⟩ := requestRuns_inner h0 h
    rw [sent_inner h0]
    exact ⟨_, exec_write_inner h0 hr hm, State.watch_unit _ _ _ State.mem fun _ _ => rfl, State.watch_unit _ _ _ State.ring fun _ _ => rfl⟩

end Sys2Proof.Machine
end

section
/-! What the target of a request does (R109, R117, R136, R139, R360). -/

namespace Sys2Proof.Machine

variable {s t : State} {p q : Packet}

/-! ### Responses -/

/-- From `s` to `t` one response to `q` goes onto the ring. -/
def State.answersTo (s t : State) (q : Packet) (data : Bool) (status : BitVec 2) (payload : List W128) : Prop :=
  ∃ r : Response, t.ring.resps = s.ring.resps ++ [r] ∧ r.data = data ∧ r.p.status = status ∧ r.p.dstId = q.src ∧ r.p.tag = q.tag ∧
    r.p.addr = q.addr ∧ r.p.payload = payload

theorem respond_answers (s : State) (q : Packet) (data : Bool) (status : Nat) (payload : List W128) :
    s.answersTo (s.respond q data status payload) q data (BitVec.ofNat 2 status) payload :=
  ⟨_, rfl, rfl, rfl, rfl, rfl, rfl, rfl⟩

theorem State.answersTo.of_resps {u : State} {data : Bool} {status : BitVec 2} {payload : List W128}
    (h : s.answersTo t q data status payload) (hs : s.ring.resps = u.ring.resps) : u.answersTo t q data status payload := by
  obtain ⟨r, hr, hrest⟩ := h
  exact ⟨r, hs ▸ hr, hrest⟩

theorem State.answersTo.of_ring {u : State} {data : Bool} {status : BitVec 2} {payload : List W128}
    (h : s.answersTo t q data status payload) (ht : u.ring = t.ring) : s.answersTo u q data status payload := by
  obtain ⟨r, hr, hrest⟩ := h
  exact ⟨r, ht ▸ hr, hrest⟩

/-- A response keeps memory, and takes two free values. -/
theorem respond_mem (s : State) (q : Packet) (data : Bool) (status : Nat) (payload : List W128) :
    (s.respond q data status payload).mem = s.mem := rfl

/-! ### The five answers -/

theorem targetRead_granted (h : s.packetAnswer q.src.toNat q false = .granted) : s.targetRead q = s.readGranted q := by
  unfold State.targetRead
  rw [h]

theorem targetRead_waits (h : s.packetAnswer q.src.toNat q false = .waits) : s.targetRead q = s.waitIn q false false := by
  unfold State.targetRead
  rw [h]

theorem targetRead_refused (h : s.packetAnswer q.src.toNat q false = .refused) :
    s.targetRead q = (s.refusedAccess q accRead).respond q true 2 (zeroData q) := by
  unfold State.targetRead
  rw [h]

/-- The target's domain is gated, for memory or for a register that is written or read (R117). -/
def State.targetAsleep (s : State) (q : Packet) (write : Bool) : Prop :=
  s.packetAnswer q.src.toNat q write = .asleep ∨
    (s.packetAnswer q.src.toNat q write = .nowhere ∧ s.beyond q = false ∧ s.regsAsleep q write = true)

theorem targetRead_asleep (h : s.targetAsleep q false) :
    s.targetRead q = (s.count F.NOC_ASLEEP_RESP_COUNT 1).respond q true 1 [] := by
  unfold State.targetRead
  obtain h | ⟨h, hb, hr⟩ := h
  · rw [h]
  · simp only [h, hb, hr, Bool.false_eq_true, if_false, if_true]

theorem targetRead_registers (h : s.packetAnswer q.src.toNat q false = .nowhere) (hb : s.beyond q = false)
    (hr : s.regsAsleep q false = false) : s.targetRead q = s.regsRead q := by
  unfold State.targetRead
  simp only [h, hb, hr, Bool.false_eq_true, if_false]

theorem targetWrite_granted (h : s.packetAnswer q.src.toNat q true = .granted) (posted : Bool) :
    s.targetWrite q posted = s.writeGranted q posted := by
  unfold State.targetWrite
  rw [h]

theorem targetWrite_waits (h : s.packetAnswer q.src.toNat q true = .waits) (posted : Bool) :
    s.targetWrite q posted = s.waitIn q true posted := by
  unfold State.targetWrite
  rw [h]

theorem targetWrite_refused (h : s.packetAnswer q.src.toNat q true = .refused) (posted : Bool) :
    s.targetWrite q posted = (s.refusedAccess q (if posted then accPosted else accWrite)).acked q posted 2 := by
  unfold State.targetWrite
  rw [h]

theorem targetWrite_asleep (h : s.targetAsleep q true) (posted : Bool) : s.targetWrite q posted = s.asleepWrite q posted := by
  unfold State.targetWrite
  obtain h | ⟨h, hb, hr⟩ := h
  · rw [h]
  · simp only [h, hb, hr, Bool.false_eq_true, if_false, if_true]

theorem targetWrite_registers (h : s.packetAnswer q.src.toNat q true = .nowhere) (hb : s.beyond q = false)
    (hr : s.regsAsleep q true = false) (posted : Bool) : s.targetWrite q posted = s.regsWrite q posted := by
  unfold State.targetWrite
  simp only [h, hb, hr, Bool.false_eq_true, if_false]

/-! ### Registers -/

theorem bwRead_resps (s : State) (n : Nat) : (s.bwRead n).ring.resps = s.ring.resps := by
  have hhist : (s.each (List.range 16) fun s b => s.setReg (R.G32_HIST n b) (BitVec.ofNat 32 (s.latencyBin n b))).ring = s.ring :=
    State.each_keeps State.ring fun _ _ _ => rfl
  unfold State.bwRead
  dsimp only
  rw [hhist]

theorem readReg_resps (s : State) (a : Nat) : (s.readReg a).ring.resps = s.ring.resps := by
  have hlow : ∀ n, (s.readLow a n).ring = s.ring := fun n =>
    (State.readLow_only (Closed.sameOn s [.ring] (by decide)) (s.sameOn_refl _) a n .ring (by simp)).symm
  have htxq : ∀ k, (s.txqPop k).ring = s.ring := fun k =>
    (State.txqPop_only (Closed.sameOn s [.ring] (by decide)) (s.sameOn_refl _) k .ring (by simp)).symm
  unfold State.readReg
  dsimp only
  split
  · rw [htxq]
  split
  · exact bwRead_resps s _
  split
  · split
    · split
      · rw [hlow]
      · rfl
    · rfl
  · split
    · rw [hlow]
    · rfl

theorem innerRead_resps (s : State) (a n : Nat) : (s.innerRead a n).ring.resps = s.ring.resps := by
  unfold State.innerRead State.readSized
  split
  · rfl
  split
  · rfl
  split
  · exact readReg_resps s a
  · rfl

theorem wordReads_resps (l : List (Nat × Nat)) : ∀ s : State, (s.wordReads l).1.ring.resps = s.ring.resps := by
  induction l with
  | nil => exact fun _ => rfl
  | cons w l ih =>
    intro s
    have hword : (s.wordRead w).1.ring.resps = s.ring.resps := by
      unfold State.wordRead
      split
      · exact innerRead_resps s _ _
      · split <;> rfl
    exact (ih _).trans hword

theorem wordReads_mem (s : State) (l : List (Nat × Nat)) : (s.wordReads l).1.mem = s.mem :=
  (State.wordReads_only (Closed.sameOn s [.mem] (by decide)) (s.sameOn_refl _) l .mem (by simp)).symm

/-- The host's port of the state before, which no other master's read touches. -/
def State.withHost (s : State) (h : HostPort) : State := { s with host := h }

theorem withHost_resps (s : State) (h : HostPort) : (s.withHost h).ring.resps = s.ring.resps := rfl

theorem withHost_mem (s : State) (h : HostPort) : (s.withHost h).mem = s.mem := rfl

theorem regsRead_eq (s : State) (q : Packet) :
    s.regsRead q = ((s.wordReads (packetWords q false)).1.withHost s.host).respond q true 0
      (flitWords (s.wordReads (packetWords q false)).2) := rfl

/-- A read of registers answers OKAY and changes no memory. -/
theorem regsRead_answers (s : State) (q : Packet) :
    (s.regsRead q).mem = s.mem ∧ ∃ payload, s.answersTo (s.regsRead q) q true 0 payload := by
  rw [regsRead_eq]
  refine ⟨?_, _, (respond_answers _ q true 0 _).of_resps ?_⟩
  · rw [respond_mem, withHost_mem, wordReads_mem]
  · rw [withHost_resps, wordReads_resps]

end Sys2Proof.Machine
end

section
/-! What a granted request answers, observed or not (R116, R117, R139, R360). -/

namespace Sys2Proof.Machine

variable {s t : State} {p q : Packet}

/-! ### Memory alone -/

theorem rdBytes_congr (h : t.mem = s.mem) (n : Nat) : ∀ a, t.rdBytes a n = s.rdBytes a n := by
  induction n with
  | zero => exact fun _ => rfl
  | succ n ih =>
    intro a
    simp only [State.rdBytes, State.rdByte, h, ih]

theorem rdWord_congr (h : t.mem = s.mem) (a : Nat) : t.rdWord a = s.rdWord a := by
  simp only [State.rdWord, rdBytes_congr h]

theorem wrEnabled_congr (bs : List (Bool × Byte)) :
    ∀ {s t : State}, t.mem = s.mem → ∀ a, (t.wrEnabled a bs).mem = (s.wrEnabled a bs).mem := by
  induction bs with
  | nil => exact fun h _ => h
  | cons b bs ih =>
    intro s t h a
    refine ih ?_ (a + 1)
    split
    · simp only [State.wrByte, h]
    · exact h

/-- Bytes outside the range stay. -/
theorem rdByte_wrEnabled_ne (bs : List (Bool × Byte)) :
    ∀ (s : State) (a b : Nat), (b < a ∨ a + bs.length ≤ b) → (s.wrEnabled a bs).rdByte b = s.rdByte b := by
  induction bs with
  | nil => exact fun _ _ _ _ => rfl
  | cons v bs ih =>
    intro s a b h
    simp only [List.length_cons] at h
    rw [State.wrEnabled, ih _ _ _ (by omega)]
    split
    · rw [State.rdByte_wrByte, if_neg (by omega)]
    · rfl

/-! ### Granted requests at their target -/

/-- The lines that a READ wants, as memory holds them. -/
def State.readData (s : State) (q : Packet) : List W128 :=
  (List.range (2 * packetLines q false)).map fun i => s.rdWord (packetBase q + 16 * i)

theorem readData_congr (h : t.mem = s.mem) (q : Packet) : t.readData q = s.readData q := by
  simp only [State.readData, rdWord_congr h]

theorem readGranted_eq (s : State) (q : Packet) : s.readGranted q = s.respond q true 0 (s.readData q) := rfl

theorem writeGranted_acked (s : State) (q : Packet) :
    s.writeGranted q false = (s.wrEnabled (packetBase q) (packetBytes q)).respond q false 0 [] := rfl

theorem writeGranted_posted (s : State) (q : Packet) : s.writeGranted q true = s.wrEnabled (packetBase q) (packetBytes q) := rfl

/-! ### Observed requests -/

/-- Observation changes none of the five answers. -/
theorem seen_packetAnswer (s : State) (op m : Nat) (q : Packet) (write : Bool) :
    (s.seeRequest op q).packetAnswer m q write = s.packetAnswer m q write := (seeRequest_seenAs s op q).packetAnswer m q write

/-- A granted READ answers what memory holds. -/
theorem seen_readGranted (h : s.packetAnswer q.src.toNat q false = .granted) (op : Nat) :
    ((s.seeRequest op q).targetRead q).mem = s.mem ∧ s.answersTo ((s.seeRequest op q).targetRead q) q true 0 (s.readData q) := by
  rw [targetRead_granted ((seen_packetAnswer s op _ q false).trans h), readGranted_eq,
    readData_congr (seeRequest_mem s op q)]
  exact ⟨(respond_mem _ _ _ _ _).trans (seeRequest_mem s op q),
    (respond_answers (s.seeRequest op q) q true 0 _).of_resps (seeRequest_resps s op q)⟩

/-- A READ of registers that are on is answered OKAY. -/
theorem seen_readRegisters (h : s.packetAnswer q.src.toNat q false = .nowhere) (hb : s.beyond q = false)
    (hr : s.regsAsleep q false = false) (op : Nat) :
    ((s.seeRequest op q).targetRead q).mem = s.mem ∧
      ∃ payload, s.answersTo ((s.seeRequest op q).targetRead q) q true 0 payload := by
  have hseen := seeRequest_seenAs s op q
  rw [targetRead_registers ((seen_packetAnswer s op _ q false).trans h) ((hseen.beyond q).trans hb)
    ((hseen.regsAsleep q false).trans hr)]
  obtain ⟨hmem, payload, hans⟩ := regsRead_answers (s.seeRequest op q) q
  exact ⟨hmem.trans (seeRequest_mem s op q), payload, hans.of_resps (seeRequest_resps s op q)⟩

/-- A granted WRITE stores the enabled bytes and is acknowledged. -/
theorem seen_writeGranted (h : s.packetAnswer q.src.toNat q true = .granted) (op : Nat) :
    ((s.seeRequest op q).targetWrite q false).mem = (s.wrEnabled (packetBase q) (packetBytes q)).mem ∧
      s.answersTo ((s.seeRequest op q).targetWrite q false) q false 0 [] := by
  rw [targetWrite_granted ((seen_packetAnswer s op _ q true).trans h), writeGranted_acked]
  refine ⟨(respond_mem _ _ _ _ _).trans (wrEnabled_congr _ (seeRequest_mem s op q) _),
    (respond_answers _ q false 0 _).of_resps ?_⟩
  rw [State.wrEnabled_ring, seeRequest_resps]

/-- A granted POSTED_WRITE stores them with no answer. -/
theorem seen_postedGranted (h : s.packetAnswer q.src.toNat q true = .granted) (op : Nat) :
    ((s.seeRequest op q).targetWrite q true).mem = (s.wrEnabled (packetBase q) (packetBytes q)).mem ∧
      ((s.seeRequest op q).targetWrite q true).ring.resps = s.ring.resps := by
  rw [targetWrite_granted ((seen_packetAnswer s op _ q true).trans h), writeGranted_posted]
  refine ⟨wrEnabled_congr _ (seeRequest_mem s op q) _, ?_⟩
  rw [State.wrEnabled_ring, seeRequest_resps]

/-! ### The packet that arrives -/

theorem located_src (s : State) (p : Packet) : (s.located p).src = p.src := rfl

theorem sent_packetBytes (s t : State) (p : Packet) : packetBytes (t.located (s.sent p)) = packetBytes p := by
  unfold State.sent
  split <;> rfl

theorem sent_packetLines (s t : State) (p : Packet) (write : Bool) :
    packetLines (t.located (s.sent p)) write = packetLines p write := by
  unfold State.sent
  split <;> rfl

/-- A response to the packet that arrived is one to the packet that was sent. -/
theorem State.answersTo.response {s t u : State} {data : Bool} {status : BitVec 2} {payload : List W128}
    (h : s.answersTo t (u.located (u.sent p)) data status payload) :
    ∃ r, t.ring.resps = s.ring.resps ++ [r] ∧ r.data = data ∧ r.p.status = status ∧ r.p.dstId = p.src ∧ r.p.tag = p.tag ∧
      r.p.addr = (u.located (u.sent p)).addr ∧ r.p.payload = payload := by
  obtain ⟨r, hresps, hdata, hstatus, hdst, htag, haddr, hpayload⟩ := h
  exact ⟨r, hresps, hdata, hstatus, hdst.trans (sent_src u p), htag.trans (sent_tag u p), haddr, hpayload⟩

/-! ### A request that goes onto the rings -/

section
variable (ho : s.wayOpen (s.located (s.sent p)) = true)
include ho

theorem read_granted (hr : s.requestRuns p false = true)
    (h : s.packetAnswer p.src.toNat (s.located (s.sent p)) false = .granted) :
    ∃ t, exec (.read p) s = .next t ∧ t.mem = s.mem ∧
      s.answersTo t (s.located (s.sent p)) true 0 (s.readData (s.located (s.sent p))) := by
  obtain ⟨t, ht, hmem, hring⟩ := read_runs hr ho
  obtain ⟨hmem', hans⟩ := seen_readGranted (by rwa [located_src, sent_src]) 0
  exact ⟨t, ht, hmem.trans hmem', hans.of_ring hring⟩

theorem read_registers (hr : s.requestRuns p false = true)
    (h : s.packetAnswer p.src.toNat (s.located (s.sent p)) false = .nowhere) (hb : s.beyond (s.located (s.sent p)) = false)
    (hon : s.regsAsleep (s.located (s.sent p)) false = false) :
    ∃ t payload, exec (.read p) s = .next t ∧ t.mem = s.mem ∧ s.answersTo t (s.located (s.sent p)) true 0 payload := by
  obtain ⟨t, ht, hmem, hring⟩ := read_runs hr ho
  obtain ⟨hmem', payload, hans⟩ := seen_readRegisters (by rwa [located_src, sent_src]) hb hon 0
  exact ⟨t, payload, ht, hmem.trans hmem', hans.of_ring hring⟩

theorem write_granted (hr : s.requestRuns p true = true)
    (h : s.packetAnswer p.src.toNat (s.located (s.sent p)) true = .granted) :
    ∃ t, exec (.write p) s = .next t ∧
      t.mem = (s.wrEnabled (packetBase (s.located (s.sent p))) (packetBytes p)).mem ∧
      s.answersTo t (s.located (s.sent p)) false 0 [] := by
  obtain ⟨t, ht, hmem, hring⟩ := write_runs hr ho
  obtain ⟨hmem', hans⟩ := seen_writeGranted (by rwa [located_src, sent_src]) 1
  rw [sent_packetBytes] at hmem'
  exact ⟨t, ht, hmem.trans hmem', hans.of_ring hring⟩

theorem posted_granted (hr : s.requestRuns p true = true) (h0 : p.src ≠ 0)
    (h : s.packetAnswer p.src.toNat (s.located (s.sent p)) true = .granted) :
    ∃ t, exec (.postedWrite p) s = .next t ∧
      t.mem = (s.wrEnabled (packetBase (s.located (s.sent p))) (packetBytes p)).mem ∧ t.ring.resps = s.ring.resps := by
  obtain ⟨hreset, hm⟩ := requestRuns_inner h0 hr
  obtain ⟨hmem, hresps⟩ := seen_postedGranted (by rwa [located_src, sent_src]) 2
  rw [sent_packetBytes] at hmem
  rw [sent_inner h0] at ho hmem hresps ⊢
  rw [← postedRequest_open ho] at hmem hresps
  refine ⟨_, exec_postedWrite_inner h0 hreset hm, ?_, ?_⟩
  · rw [State.watch_unit _ _ _ State.mem fun _ _ => rfl, hmem]
  · rw [State.watch_unit _ _ _ State.ring fun _ _ => rfl, hresps]

end

end Sys2Proof.Machine
end

section
/-! What a request that is not granted tells: the counters and the reports of the sources (R117, R136, R139, R310). -/

namespace Sys2Proof.Machine

variable {s t u : State} {f : Fld}

/-! ### Sources -/

theorem lt_of_ite_eq_some {c : Prop} [Decidable c] {a d n : Nat} {o : Option Nat} (ha : c → a < n) (ho : o = some d → d < n)
    (h : (if c then some a else o) = some d) : d < n := by
  by_cases hc : c
  · rw [if_pos hc, Option.some.injEq] at h
    exact h ▸ ha hc
  · exact ho (by rwa [if_neg hc] at h)

theorem srcDomain_lt {src d : Nat} : srcDomain src = some d → d < 86 := by
  unfold srcDomain
  iterate 14 refine lt_of_ite_eq_some (by omega) ?_
  simp

/-- Whether a source reports depends on the words of the power unit alone. -/
theorem srcOn_fset (h : 0x30000 ≤ f.addr) (x src : Nat) : (s.fset f x).srcOn src = s.srcOn src := by
  have hbit : ∀ d, srcDomain src = some d → (s.fset f x).bit (F.PWR_DOM_ON d) = s.bit (F.PWR_DOM_ON d) := fun d hd =>
    State.bit_congr _ (s.reg_fset_ne f x (by have := srcDomain_lt hd; simp only; omega))
  have hstate : (s.fset f x).fget F.PWR_STAT_STATE = s.fget F.PWR_STAT_STATE :=
    State.fget_congr _ (s.reg_fset_ne f x (by simp only; omega))
  have hpowered : (s.fset f x).srcPowered src = s.srcPowered src := by
    unfold State.srcPowered
    split
    · next d hd => rw [hbit d hd]; rfl
    · rfl
  unfold State.srcOn
  rw [hpowered, hstate]
  rfl

theorem exists_mem_addReport (l : List Report) (r : Report) : ∃ x ∈ addReport l r, x.src = r.src ∧ x.code = r.code := by
  induction l with
  | nil => exact ⟨r, by simp [addReport], rfl, rfl⟩
  | cons q l ih =>
    unfold addReport
    split
    · next h => exact ⟨_, List.mem_cons_self, by dsimp only; split <;> simp [h], by dsimp only; split <;> simp [h]⟩
    · obtain ⟨x, hx, hxr⟩ := ih
      exact ⟨x, List.mem_cons_of_mem _ hx, hxr⟩

theorem raise_reports {r : Report} (h : s.srcOn r.src = true) : ∃ x ∈ (s.raise r).reports, x.src = r.src ∧ x.code = r.code := by
  unfold State.raise
  rw [if_neg (by simp [h])]
  dsimp only
  split <;> exact exists_mem_addReport s.reports r

theorem raise_reg (s : State) (r : Report) {a : Nat} (h : a ≠ R.FLT_SRC_STAT r.src) : (s.raise r).reg a = s.reg a := by
  unfold State.raise
  split_ifs
  · rfl
  · exact State.reg_fset_ne _ _ _ h
  · rfl

theorem raise_keeps (s : State) (r : Report) : (s.raise r).mem = s.mem ∧ (s.raise r).ring = s.ring := by
  unfold State.raise
  split_ifs <;> exact ⟨rfl, rfl⟩

/-! ### Counters -/

theorem satAdd_one_word (x : Nat) : satAdd (2 ^ 32 - 1) x 1 = min (2 ^ 32 - 1) (x + 1) := by
  unfold satAdd
  split <;> omega

theorem fget_count_self (s : State) (h : f.lo + f.w ≤ 32) : (s.count f 1).fget f = satAdd (2 ^ f.w - 1) (s.fget f) 1 := by
  refine (s.fget_fset f _ h).trans (Nat.mod_eq_of_lt ?_)
  have := Nat.two_pow_pos f.w
  unfold satAdd
  split <;> omega

/-! ### What is told -/

/-- From `s` to `t` the counter `f` went up by one, and source `src`, where it is on, has a report with `code`. -/
def State.tells (s t : State) (f : Fld) (src code : Nat) : Prop :=
  t.fget f = satAdd (2 ^ f.w - 1) (s.fget f) 1 ∧ (s.srcOn src = true → ∃ r ∈ t.reports, r.src = src ∧ r.code = code)

theorem State.tells.of_same {src code : Nat} (h : s.tells t f src code) (hf : u.fget f = t.fget f) (hr : u.reports = t.reports) :
    s.tells u f src code := ⟨hf.trans h.1, fun hon => hr ▸ h.2 hon⟩

/-- A count and a report. -/
theorem tells_count_raise (s : State) (hf : f.lo + f.w ≤ 32) (ha : 0x30000 ≤ f.addr) {r : Report} (hr : r.src < 0x1000) :
    s.tells ((s.count f 1).raise r) f r.src r.code := by
  refine ⟨?_, fun hon => raise_reports ((srcOn_fset ha _ _).trans hon)⟩
  rw [State.fget_congr f (raise_reg (s.count f 1) r (by simp only [R.FLT_SRC_STAT]; omega)), fget_count_self s hf]

theorem stnSource_lt (stn : BitVec 8) : stnSource stn.toNat < 0x1000 := by
  have := stn.isLt
  unfold stnSource
  split <;> omega

/-- A posted write to a closed domain is counted and reported. -/
theorem droppedAsleep_tells (s : State) (q : Packet) :
    s.tells (s.droppedAsleep q) F.NOC_ASLEEP_DROP_COUNT (stnSource q.dstStn.toNat) 0x0201 :=
  tells_count_raise s (by decide) (by decide) (stnSource_lt q.dstStn)

theorem droppedAsleep_keeps (s : State) (q : Packet) : (s.droppedAsleep q).mem = s.mem ∧ (s.droppedAsleep q).ring = s.ring :=
  raise_keeps _ _

theorem bankOf_base (p : Packet) : bankOf (packetBase p) = bankOf p.addr.toNat := by
  unfold bankOf packetBase
  omega

theorem stackOf_base (p : Packet) : stackOf (packetBase p) = stackOf p.addr.toNat := by
  unfold stackOf granuleOf packetBase dramBase
  omega

theorem nonOwner_tells (s : State) {master : Nat} (hm : master ≠ 0) {a : Nat} (hb : bankOf a < 64) (acc : Nat) :
    s.tells (s.nonOwner master a acc) (F.BNK_STAT_NONOWN_CNT (bankOf a)) (0x100 + bankOf a) 0x010E := by
  unfold State.nonOwner State.nonOwnerAt
  rw [if_neg hm]
  exact tells_count_raise s (by simp) (by simp only; omega) (by simp only; omega)

theorem nonOwner_keeps (s : State) (master a acc : Nat) :
    (s.nonOwner master a acc).mem = s.mem ∧ (s.nonOwner master a acc).ring = s.ring := by
  unfold State.nonOwner State.nonOwnerAt
  dsimp only
  split
  · exact ⟨rfl, rfl⟩
  · exact raise_keeps _ _

theorem regionDenied_tells (s : State) {master : Nat} (hm : master ≠ 0) {a : Nat} (hk : stackOf a < 8) (acc : Nat) :
    s.tells (s.regionDenied master a acc) F.BNK_DRAM_DENIED_COUNT (0x140 + stackOf a) 0x0202 := by
  unfold State.regionDenied
  rw [if_neg hm]
  exact tells_count_raise s (by decide) (by decide) (by simp only; omega)

theorem regionDenied_keeps (s : State) (master a acc : Nat) :
    (s.regionDenied master a acc).mem = s.mem ∧ (s.regionDenied master a acc).ring = s.ring := by
  unfold State.regionDenied
  dsimp only
  split
  · exact ⟨rfl, rfl⟩
  · exact raise_keeps _ _

theorem refusedAccess_keeps (s : State) (q : Packet) (acc : Nat) :
    (s.refusedAccess q acc).mem = s.mem ∧ (s.refusedAccess q acc).ring = s.ring := by
  unfold State.refusedAccess
  dsimp only
  split_ifs
  · exact nonOwner_keeps s _ _ _
  · exact regionDenied_keeps s _ _ _
  · exact ⟨rfl, rfl⟩

/-- A refused access to a bank tells NON_OWNER. -/
theorem refusedAccess_bank {q : Packet} (h0 : q.src ≠ 0) (h : s.inScratch (packetBase q) = true) (acc : Nat) :
    s.tells (s.refusedAccess q acc) (F.BNK_STAT_NONOWN_CNT (bankOf q.addr.toNat)) (0x100 + bankOf q.addr.toNat) 0x010E := by
  unfold State.refusedAccess
  simp only [h, if_true]
  exact nonOwner_tells s (by simpa [BitVec.toNat_eq] using h0) (bankOf_base q ▸ bankOf_lt s h) acc

/-- One to a granule tells REGION_DENIED. -/
theorem refusedAccess_granule {q : Packet} (h0 : q.src ≠ 0) (hs : s.inScratch (packetBase q) = false)
    (h : s.inDram (packetBase q) = true) (acc : Nat) :
    s.tells (s.refusedAccess q acc) F.BNK_DRAM_DENIED_COUNT (0x140 + stackOf q.addr.toNat) 0x0202 := by
  unfold State.refusedAccess
  simp only [h, hs, if_true, Bool.false_eq_true, if_false]
  exact regionDenied_tells s (by simpa [BitVec.toNat_eq] using h0) (stackOf_base q ▸ stackOf_lt s h) acc

end Sys2Proof.Machine
end

section
/-! Requests of masters other than the host that nothing observes (R116, R117, R136, R139), and the statement about them all. -/

namespace Sys2Proof.Machine

variable {s t : State} {p q : Packet}

/-! ### Responses and the poll bits -/

/-- A response adds itself to the ring and takes two free values. -/
theorem respond_eq (s : State) (q : Packet) (data : Bool) (status : Nat) (payload : List W128) :
    s.respond q data status payload =
      { s with ring := { s.ring with resps := (s.respond q data status payload).ring.resps }, free := s.free + 2 } := rfl

theorem respond_regs (s : State) (q : Packet) (data : Bool) (status : Nat) (payload : List W128) :
    (s.respond q data status payload).regs = s.regs := rfl

theorem respond_ppsNew (s : State) (q : Packet) (data : Bool) (status : Nat) (payload : List W128) :
    (s.respond q data status payload).time.ppsNew = s.time.ppsNew := rfl

/-- A response, the acknowledgement of a write. -/
def State.withResponse (s : State) (r : Response) : State :=
  { s with ring := { s.ring with resps := s.ring.resps ++ [r] }, free := s.free + 2 }

theorem respond_withResponse (s : State) (q : Packet) (data : Bool) (status : Nat) (payload : List W128) :
    s.respond q data status payload = s.withResponse ⟨s.responseTo q status payload, data, q.dstStn.toNat⟩ := rfl

theorem withResponse_regs (s : State) (r : Response) : (s.withResponse r).regs = s.regs := rfl

theorem withResponse_setReg (s : State) (r : Response) (a : Nat) (v : W32) :
    (s.withResponse r).setReg a v = (s.setReg a v).withResponse r := rfl

theorem withResponse_pollBit (s : State) (r : Response) (b : Nat) : (s.withResponse r).pollBit b = s.pollBit b :=
  State.pollBit_congr rfl rfl b

/-- The poll bits do not see a response. -/
theorem watch_withResponse {f g : State → State} {r : Response} (h : f s = (g s).withResponse r) (bits : List Nat) :
    s.watch bits f = (s.watch bits g).withResponse r := by
  unfold State.watch
  simp only [h, withResponse_pollBit, State.reg_congr (withResponse_regs (g s) r), withResponse_setReg]
  split <;> rfl

/-! ### What a master's request does where nothing observes -/

section
variable (h0 : p.src ≠ 0) (hr : s.inReset = false) (hm : masterOk p.src = true)
include h0 hr hm

section
variable (hs : s.wayOpen (s.located p) = false) (hw : s.mayReroute (entryStn p.src.toNat (s.located p).dstStn.toNat) (s.located p) = false)
include hs hw

theorem exec_read_closed : exec (.read p) s = .next (s.park 0 (s.located p)) :=
  (exec_read_inner h0 hr hm).trans (congrArg Host.Outcome.next (watch_park 0 (send_closed hs hw rfl 0 _)))

theorem exec_write_closed : exec (.write p) s = .next (s.park 1 (s.located p)) :=
  (exec_write_inner h0 hr hm).trans (congrArg Host.Outcome.next (watch_park 1 (send_closed hs hw rfl 1 _)))

theorem exec_postedWrite_closed : exec (.postedWrite p) s = .next (s.park 2 (s.located p)) :=
  (exec_postedWrite_inner h0 hr hm).trans (congrArg Host.Outcome.next (watch_park 2 (send_closed hs hw rfl 2 _)))

end

section
variable (ho : s.wayOpen (s.located p) = true) (hu : s.unobserved)
include ho hu

theorem exec_read_unseen : exec (.read p) s = .next (s.watch allBits fun s' => s'.targetRead (s.located p)) :=
  (exec_read_inner h0 hr hm).trans
    (congrArg Host.Outcome.next (watch_congr _ (by rw [readRequest_open ho, seeRequest_unobserved hu])))

theorem exec_write_unseen : exec (.write p) s = .next (s.watch allBits fun s' => s'.targetWrite (s.located p) false) :=
  (exec_write_inner h0 hr hm).trans
    (congrArg Host.Outcome.next (watch_congr _ (by rw [writeRequest_open ho, seeRequest_unobserved hu])))

theorem exec_postedWrite_unseen : exec (.postedWrite p) s = .next (s.watch allBits fun s' => s'.targetWrite (s.located p) true) :=
  (exec_postedWrite_inner h0 hr hm).trans
    (congrArg Host.Outcome.next (watch_congr _ (by rw [postedRequest_open ho, seeRequest_unobserved hu])))

/-- Of a target that touches no register, the effect is the target's. -/
theorem exec_read_target (hq : (s.targetRead (s.located p)).regs = s.regs)
    (hp : (s.targetRead (s.located p)).time.ppsNew = s.time.ppsNew) : exec (.read p) s = .next (s.targetRead (s.located p)) :=
  (exec_read_unseen h0 hr hm ho hu).trans
    (congrArg Host.Outcome.next (watch_sameRegs (f := fun s' => s'.targetRead (s.located p)) _ hq hp))

theorem exec_write_target (hq : (s.targetWrite (s.located p) false).regs = s.regs)
    (hp : (s.targetWrite (s.located p) false).time.ppsNew = s.time.ppsNew) :
    exec (.write p) s = .next (s.targetWrite (s.located p) false) :=
  (exec_write_unseen h0 hr hm ho hu).trans
    (congrArg Host.Outcome.next (watch_sameRegs (f := fun s' => s'.targetWrite (s.located p) false) _ hq hp))

theorem exec_postedWrite_target (hq : (s.targetWrite (s.located p) true).regs = s.regs)
    (hp : (s.targetWrite (s.located p) true).time.ppsNew = s.time.ppsNew) :
    exec (.postedWrite p) s = .next (s.targetWrite (s.located p) true) :=
  (exec_postedWrite_unseen h0 hr hm ho hu).trans
    (congrArg Host.Outcome.next (watch_sameRegs (f := fun s' => s'.targetWrite (s.located p) true) _ hq hp))

/-! Granted, and waiting in a bank in handover. -/

theorem unseen_read_granted (h : s.packetAnswer p.src.toNat (s.located p) false = .granted) :
    exec (.read p) s = .next (s.respond (s.located p) true 0 (s.readData (s.located p))) := by
  have ht : s.targetRead (s.located p) = s.respond (s.located p) true 0 (s.readData (s.located p)) := targetRead_granted h
  rw [exec_read_target h0 hr hm ho hu (ht ▸ respond_regs _ _ _ _ _) (ht ▸ respond_ppsNew _ _ _ _ _), ht]

theorem unseen_write_granted (h : s.packetAnswer p.src.toNat (s.located p) true = .granted) :
    exec (.write p) s =
      .next ((s.wrEnabled (packetBase (s.located p)) (packetBytes (s.located p))).respond (s.located p) false 0 []) := by
  have ht := (targetWrite_granted (q := s.located p) h false).trans (writeGranted_acked s _)
  rw [exec_write_target h0 hr hm ho hu (by rw [ht, respond_regs, State.wrEnabled_regs])
    (by rw [ht, respond_ppsNew, State.wrEnabled_eq]), ht]

theorem unseen_postedWrite_granted (h : s.packetAnswer p.src.toNat (s.located p) true = .granted) :
    exec (.postedWrite p) s = .next (s.wrEnabled (packetBase p) (packetBytes p)) := by
  have ht := (targetWrite_granted (q := s.located p) h true).trans (writeGranted_posted s _)
  rw [exec_postedWrite_target h0 hr hm ho hu (by rw [ht, State.wrEnabled_regs]) (by rw [ht, State.wrEnabled_eq]), ht]
  rfl

theorem unseen_read_waits (h : s.packetAnswer p.src.toNat (s.located p) false = .waits) :
    exec (.read p) s = .next (s.waitIn (s.located p) false false) := by
  have ht := targetRead_waits (q := s.located p) h
  rw [exec_read_target h0 hr hm ho hu (by rw [ht]; rfl) (by rw [ht]; rfl), ht]

theorem unseen_write_waits (h : s.packetAnswer p.src.toNat (s.located p) true = .waits) :
    exec (.write p) s = .next (s.waitIn (s.located p) true false) ∧
      exec (.postedWrite p) s = .next (s.waitIn (s.located p) true true) := by
  have ht := targetWrite_waits (q := s.located p) h
  rw [exec_write_target h0 hr hm ho hu (by rw [ht]; rfl) (by rw [ht]; rfl),
    exec_postedWrite_target h0 hr hm ho hu (by rw [ht]; rfl) (by rw [ht]; rfl), ht, ht]
  exact ⟨rfl, rfl⟩

end
end

/-! ### Error answers -/

/-- Command `c` ends in a state with the memory, the ring, the reports and the words of `x`, but HST_EVT. -/
def State.endsAs (s x : State) (c : Instr) : Prop :=
  ∃ t, exec c s = .next t ∧ t.mem = x.mem ∧ t.ring = x.ring ∧ t.reports = x.reports ∧
    ∀ f : Fld, f.addr ≠ R.HST_EVT → t.fget f = x.fget f

theorem endsAs_watch {c : Instr} {bits : List Nat} {f : State → State} (h : exec c s = .next (s.watch bits f)) : s.endsAs (f s) c :=
  ⟨_, h, State.watch_unit _ _ _ State.mem fun _ _ => rfl, State.watch_unit _ _ _ State.ring fun _ _ => rfl,
    State.watch_unit _ _ _ State.reports fun _ _ => rfl, fun d hd => s.watch_fget bits f d hd⟩

/-- Command `c` ends in `t` with memory kept and one response to `p`, with the data of an error where it has data. -/
def State.answersError (s : State) (p : Packet) (c : Instr) (status : BitVec 2) (data : Bool) (t : State) : Prop :=
  exec c s = .next t ∧ t.mem = s.mem ∧
    ∃ r, t.ring.resps = s.ring.resps ++ [r] ∧ r.data = data ∧ r.p.status = status ∧ r.p.dstId = p.src ∧ r.p.tag = p.tag ∧
      (data = true → r.p.payload = if status = 1 then [] else List.replicate (2 * packetLines p false) 0)

/-- The effect `x` on counters and reports, and then a response, answer an error. -/
theorem answersError_respond {x : State} {c : Instr} {data : Bool} {status : Nat} {payload : List W128}
    (h : s.endsAs (x.respond (s.located p) data status payload) c) (hmem : x.mem = s.mem) (hring : x.ring = s.ring)
    (hpay : data = true →
      payload = if BitVec.ofNat 2 status = 1 then [] else List.replicate (2 * packetLines p false) 0) :
    ∃ t, s.answersError p c (BitVec.ofNat 2 status) data t ∧ t.reports = x.reports ∧
      ∀ f : Fld, f.addr ≠ R.HST_EVT → t.fget f = x.fget f := by
  obtain ⟨t, ht, htmem, htring, htreports, htwords⟩ := h
  obtain ⟨r, hresps, hdata, hstatus, hdst, htag, -, hpayload⟩ := respond_answers x (s.located p) data status payload
  refine ⟨t, ⟨ht, htmem.trans hmem, r, ?_, hdata, hstatus, hdst, htag, fun hd => hpayload.trans (hpay hd)⟩, htreports, htwords⟩
  rw [htring, hresps, hring]

theorem count_respond_told (s : State) :
    (s.count F.NOC_ASLEEP_RESP_COUNT 1).fget F.NOC_ASLEEP_RESP_COUNT = min (2 ^ 32 - 1) (s.fget F.NOC_ASLEEP_RESP_COUNT + 1) :=
  (fget_count_self s (by decide)).trans (satAdd_one_word _)

/-- From `s` to `t` a refused access is counted and reported as NON_OWNER, or as REGION_DENIED. -/
def State.tellsRefusal (s t : State) (p : Packet) : Prop :=
  (s.inScratch (packetBase p) = true →
    s.tells t (F.BNK_STAT_NONOWN_CNT (bankOf p.addr.toNat)) (0x100 + bankOf p.addr.toNat) 0x010E) ∧
  (s.inScratch (packetBase p) = false → s.inDram (packetBase p) = true →
    s.tells t F.BNK_DRAM_DENIED_COUNT (0x140 + stackOf p.addr.toNat) 0x0202)

theorem tellsRefusal_of (h0 : p.src ≠ 0) (acc : Nat) (hr : t.reports = (s.refusedAccess (s.located p) acc).reports)
    (hw : ∀ f : Fld, f.addr ≠ R.HST_EVT → t.fget f = (s.refusedAccess (s.located p) acc).fget f) : s.tellsRefusal t p :=
  ⟨fun hs => (refusedAccess_bank (q := s.located p) h0 hs acc).of_same (hw _ (by simp only [R.HST_EVT]; omega)) hr,
    fun hs hd => (refusedAccess_granule (q := s.located p) h0 hs hd acc).of_same (hw _ (by decide)) hr⟩

section
variable (h0 : p.src ≠ 0) (hr : s.inReset = false) (hm : masterOk p.src = true)
variable (ho : s.wayOpen (s.located p) = true) (hu : s.unobserved)
include h0 hr hm ho hu

theorem unseen_read_asleep (h : s.targetAsleep (s.located p) false) :
    ∃ t, s.answersError p (.read p) 1 true t ∧
      t.fget F.NOC_ASLEEP_RESP_COUNT = min (2 ^ 32 - 1) (s.fget F.NOC_ASLEEP_RESP_COUNT + 1) := by
  have hends := endsAs_watch (exec_read_unseen h0 hr hm ho hu)
  rw [targetRead_asleep h] at hends
  obtain ⟨t, ht, -, hw⟩ := answersError_respond hends rfl rfl fun _ => rfl
  exact ⟨t, ht, (hw _ (by decide)).trans (count_respond_told s)⟩

theorem unseen_write_asleep (h : s.targetAsleep (s.located p) true) :
    ∃ t, s.answersError p (.write p) 1 false t ∧
      t.fget F.NOC_ASLEEP_RESP_COUNT = min (2 ^ 32 - 1) (s.fget F.NOC_ASLEEP_RESP_COUNT + 1) := by
  have hends := endsAs_watch (exec_write_unseen h0 hr hm ho hu)
  rw [targetWrite_asleep h] at hends
  obtain ⟨t, ht, -, hw⟩ := answersError_respond hends rfl rfl (by simp)
  exact ⟨t, ht, (hw _ (by decide)).trans (count_respond_told s)⟩

/-- A POSTED_WRITE to a closed domain is dropped, counted and reported. -/
theorem unseen_postedWrite_asleep (h : s.targetAsleep (s.located p) true) :
    ∃ t, exec (.postedWrite p) s = .next t ∧ t.mem = s.mem ∧ t.ring.resps = s.ring.resps ∧
      s.tells t F.NOC_ASLEEP_DROP_COUNT (stnSource (s.located p).dstStn.toNat) 0x0201 := by
  obtain ⟨t, ht, hmem, hring, hreports, hw⟩ := endsAs_watch (exec_postedWrite_unseen h0 hr hm ho hu)
  rw [(targetWrite_asleep h true).trans (if_pos rfl)] at hmem hring hreports hw
  obtain ⟨hkmem, hkring⟩ := droppedAsleep_keeps s (s.located p)
  exact ⟨t, ht, hmem.trans hkmem, congrArg Ring.resps (hring.trans hkring),
    (droppedAsleep_tells s (s.located p)).of_same (hw _ (by decide)) hreports⟩

theorem unseen_read_refused (h : s.packetAnswer p.src.toNat (s.located p) false = .refused) :
    ∃ t, s.answersError p (.read p) 2 true t ∧ s.tellsRefusal t p := by
  have hends := endsAs_watch (exec_read_unseen h0 hr hm ho hu)
  rw [targetRead_refused (q := s.located p) h] at hends
  obtain ⟨hkmem, hkring⟩ := refusedAccess_keeps s (s.located p) accRead
  obtain ⟨t, ht, hreports, hw⟩ := answersError_respond hends hkmem hkring fun _ => rfl
  exact ⟨t, ht, tellsRefusal_of h0 _ hreports hw⟩

theorem unseen_write_refused (h : s.packetAnswer p.src.toNat (s.located p) true = .refused) :
    ∃ t, s.answersError p (.write p) 2 false t ∧ s.tellsRefusal t p := by
  have hends := endsAs_watch (exec_write_unseen h0 hr hm ho hu)
  rw [targetWrite_refused (q := s.located p) h] at hends
  obtain ⟨hkmem, hkring⟩ := refusedAccess_keeps s (s.located p) accWrite
  obtain ⟨t, ht, hreports, hw⟩ := answersError_respond hends hkmem hkring (by simp)
  exact ⟨t, ht, tellsRefusal_of h0 _ hreports hw⟩

theorem unseen_postedWrite_refused (h : s.packetAnswer p.src.toNat (s.located p) true = .refused) :
    ∃ t, exec (.postedWrite p) s = .next t ∧ t.mem = s.mem ∧ t.ring.resps = s.ring.resps ∧ s.tellsRefusal t p := by
  obtain ⟨t, ht, hmem, hring, hreports, hw⟩ := endsAs_watch (exec_postedWrite_unseen h0 hr hm ho hu)
  have htarget : s.targetWrite (s.located p) true = s.refusedAccess (s.located p) accPosted :=
    (targetWrite_refused (q := s.located p) h true).trans (if_pos rfl)
  rw [htarget] at hmem hring hreports hw
  obtain ⟨hkmem, hkring⟩ := refusedAccess_keeps s (s.located p) accPosted
  exact ⟨t, ht, hmem.trans hkmem, congrArg Ring.resps (hring.trans hkring), tellsRefusal_of h0 _ hreports hw⟩

end

/-! ### One register word -/

/-- A flit with the enables of one word writes that word. -/
theorem packetWords_single {i : Nat} (hi : i < 8) (hlen : p.len = 1) (hbe : p.be = BitVec.ofNat 32 (15 * 2 ^ (4 * i))) :
    ((packetWords p true).zipIdx.filter fun w => w.1.2 == 15) = [((packetBase p + 4 * i, 15), i)] := by
  have hlines : packetLines p true = 1 := by simp [packetLines, hlen]
  unfold packetWords
  rw [hlines, hbe]
  interval_cases i <;> rfl

/-- Word `i` of a flit is written to its register. -/
def State.storeWord (s : State) (p : Packet) (i : Nat) : State :=
  s.innerWrite p.src (packetBase p + 4 * i) 4 (payloadWord p i)

theorem regsWrite_single {i : Nat} (hi : i < 8) (hlen : p.len = 1) (hbe : p.be = BitVec.ofNat 32 (15 * 2 ^ (4 * i))) (s : State)
    (posted : Bool) : s.regsWrite p posted = (s.storeWord p i).acked p posted 0 := by
  unfold State.regsWrite
  rw [packetWords_single hi hlen hbe]
  rfl

theorem storeWord_located (s t : State) (p : Packet) (i : Nat) : s.storeWord (t.located p) i = s.storeWord p i := rfl

/-- A register write of the word at its address stores it. -/
theorem exec_registerWrite_inner (h0 : p.src ≠ 0) (hr : s.inReset = false) (hm : masterOk p.src = true) (hu : s.unobserved)
    {i : Nat} (hi : packetBase p + 4 * i < 2 ^ 32) :
    exec (.registerWrite p.src (BitVec.ofNat 32 (packetBase p + 4 * i)) (payloadWord p i) 4) s =
      .next (s.watch allBits fun s' => s'.storeWord p i) := by
  refine congrArg Host.Outcome.next (watch_congr _ ?_)
  rw [if_neg h0, if_neg (by simp [hr, hm]), transact_unseen (sees_unobserved hu _), BitVec.toNat_ofNat, Nat.mod_eq_of_lt hi]
  rfl

end Sys2Proof.Machine
end

section
/-! Requests to memories and registers over the ring. -/

namespace Sys2Proof.Machine

variable {s : State} {p : Packet}

section
variable (h0 : p.src ≠ 0) (hr : s.inReset = false) (hm : masterOk p.src = true)
variable (ho : s.wayOpen (s.located p) = true) (hu : s.unobserved)
include h0 hr hm ho hu

/-- A WRITE or POSTED_WRITE of one whole register word does what a register write of that master does. -/
theorem unseen_write_register {i : Nat} (hi : i < 8) (hlen : p.len = 1) (hbe : p.be = BitVec.ofNat 32 (15 * 2 ^ (4 * i)))
    (hfits : packetBase p + 32 ≤ 2 ^ 32) (h : s.packetAnswer p.src.toNat (s.located p) true = .nowhere)
    (hon : s.regsAsleep (s.located p) true = false) :
    ∃ u, exec (.registerWrite p.src (BitVec.ofNat 32 (packetBase p + 4 * i)) (payloadWord p i) 4) s = .next u ∧
      exec (.postedWrite p) s = .next u ∧
      ∃ t r, exec (.write p) s = .next t ∧ r.data = false ∧ r.p.status = 0 ∧ r.p.dstId = p.src ∧ r.p.tag = p.tag ∧
        t = u.withResponse r := by
  have hbeyond : s.beyond (s.located p) = false := by
    unfold State.beyond
    rw [located_src, beq_false_of_ne h0, Bool.false_and]
  have htarget : ∀ posted, s.targetWrite (s.located p) posted = (s.storeWord p i).acked (s.located p) posted 0 := fun posted => by
    rw [targetWrite_registers (q := s.located p) h hbeyond hon posted,
      regsWrite_single (p := s.located p) hi hlen hbe s posted, storeWord_located]
  have hwrite := (exec_write_unseen h0 hr hm ho hu).trans (congrArg Host.Outcome.next
    (watch_withResponse (g := fun s' => s'.storeWord p i)
      ((htarget false).trans (respond_withResponse _ _ _ _ _)) allBits))
  exact ⟨_, exec_registerWrite_inner h0 hr hm hu (by omega),
    (exec_postedWrite_unseen h0 hr hm ho hu).trans (congrArg Host.Outcome.next (watch_congr _ (htarget true))),
    _, _, hwrite, rfl, rfl, rfl, rfl, rfl⟩

end

/-- `tells` of a counter of a whole word. -/
theorem State.tells.word {t : State} {f : Fld} {src code : Nat} (h : s.tells t f src code) (hf : f.w = 32) :
    t.fget f = min (2 ^ 32 - 1) (s.fget f + 1) := by
  obtain ⟨hcount, -⟩ := h
  rw [hcount, hf, satAdd_one_word]

/-- A refusal as the statement words it. -/
theorem State.tellsRefusal.parts {t : State} (h : s.tellsRefusal t p) :
    (s.inScratch (packetBase p) = true →
      t.fget (F.BNK_STAT_NONOWN_CNT (bankOf p.addr.toNat)) =
          satAdd (2 ^ (F.BNK_STAT_NONOWN_CNT (bankOf p.addr.toNat)).w - 1) (s.fget (F.BNK_STAT_NONOWN_CNT (bankOf p.addr.toNat))) 1 ∧
        (s.srcOn (0x100 + bankOf p.addr.toNat) = true →
          ∃ r ∈ t.reports, r.src = 0x100 + bankOf p.addr.toNat ∧ r.code = 0x010E)) ∧
    (s.inScratch (packetBase p) = false → s.inDram (packetBase p) = true →
      t.fget F.BNK_DRAM_DENIED_COUNT = min (2 ^ 32 - 1) (s.fget F.BNK_DRAM_DENIED_COUNT + 1) ∧
        (s.srcOn (0x140 + stackOf p.addr.toNat) = true →
          ∃ r ∈ t.reports, r.src = 0x140 + stackOf p.addr.toNat ∧ r.code = 0x0202)) :=
  ⟨h.1, fun hs hd => ⟨(h.2 hs hd).word rfl, (h.2 hs hd).2⟩⟩

/-- Settles O20: the request's way, the target's answer by its five cases, and the frame of what the target writes. -/
theorem packetMemory : Obligations.PacketMemory := by
  unfold Obligations.PacketMemory
  refine ⟨fun p s => ?_, fun p s h0 => exec_postedWrite_host h0, fun p s hm => ?_, fun p s h0 hm => ?_⟩
  · intro q ho
    refine ⟨fun hr => ⟨fun h => ?_, fun h hb hon => ?_⟩, fun hr h => ⟨?_, fun h0 => posted_granted ho hr h0 h⟩⟩
    · obtain ⟨t, ht, hmem, hans⟩ := read_granted ho hr h
      obtain ⟨r, hresps, hdata, hstatus, hdst, htag, haddr, hpayload⟩ := hans.response
      rw [← sent_packetLines s s p]
      exact ⟨t, r, ht, hresps, hdata, hstatus, hdst, htag, haddr, hpayload, hmem⟩
    · obtain ⟨t, payload, ht, hmem, hans⟩ := read_registers ho hr h hb hon
      obtain ⟨r, hresps, hdata, hstatus, hdst, htag, haddr, -⟩ := hans.response
      exact ⟨t, r, ht, hresps, hdata, hstatus, hdst, htag, haddr, hmem⟩
    · obtain ⟨t, ht, hmem, hans⟩ := write_granted ho hr h
      obtain ⟨r, hresps, hdata, hstatus, hdst, htag, -, -⟩ := hans.response
      exact ⟨t, r, ht, hresps, hdata, hstatus, hdst, htag, hmem⟩
  · have h0 : p.src ≠ 0 := by
      rintro h0
      rw [h0] at hm
      exact absurd hm (by decide)
    exact exec_packet_barred h0 (.inr hm)
  · intro q base answered
    refine ⟨fun hr => exec_packet_barred h0 (.inl hr), fun hr hs hw => ?_, fun hr ho hu => ⟨?_, ?_, ?_, ?_, ?_, ?_, ?_⟩, ?_⟩
    · exact ⟨exec_read_closed h0 hr hm hs hw, exec_write_closed h0 hr hm hs hw, exec_postedWrite_closed h0 hr hm hs hw⟩
    · exact fun h => ⟨_, unseen_read_granted h0 hr hm ho hu h, respond_eq _ _ _ _ _, rfl⟩
    · intro h
      refine ⟨⟨_, unseen_write_granted h0 hr hm ho hu h, ?_, ?_⟩, unseen_postedWrite_granted h0 hr hm ho hu h⟩
      · rw [respond_regs, State.wrEnabled_regs]
      · rw [respond_eq, State.wrEnabled_strands]
    · exact fun h => unseen_read_waits h0 hr hm ho hu h
    · exact fun h => unseen_write_waits h0 hr hm ho hu h
    · refine ⟨fun h => unseen_read_asleep h0 hr hm ho hu h, fun h => ⟨unseen_write_asleep h0 hr hm ho hu h, ?_⟩⟩
      obtain ⟨t, ht, hmem, hresps, htold⟩ := unseen_postedWrite_asleep h0 hr hm ho hu h
      exact ⟨t, ht, hmem, hresps, htold.word rfl, htold.2⟩
    · exact fun i hi hlen hbe hfits h hon => unseen_write_register h0 hr hm ho hu hi hlen hbe hfits h hon
    · refine ⟨fun h => ?_, fun h => ⟨?_, ?_⟩⟩
      · obtain ⟨t, ht, htold⟩ := unseen_read_refused h0 hr hm ho hu h
        exact ⟨t, ht, htold.parts⟩
      · obtain ⟨t, ht, htold⟩ := unseen_write_refused h0 hr hm ho hu h
        exact ⟨t, ht, htold.parts⟩
      · obtain ⟨t, ht, hmem, hresps, htold⟩ := unseen_postedWrite_refused h0 hr hm ho hu h
        exact ⟨t, ht, hmem, hresps, htold.parts⟩
    · exact fun a ha => rdByte_wrEnabled_ne _ s _ a ha

end Sys2Proof.Machine
end

section
/-! Turn-input words on their way into a window, and turn-output reads (R20, R21, R79, R173, R174, R175, R305). -/

namespace Sys2Proof.Machine

/-! ### Words entering a window -/

theorem binKeeps_vacant {s : State} {win key : Nat} (h : SMap.find s.core.windows (win * 2 ^ 18 + key) = none) (w : BinWord) :
    s.binKeeps win key w = true := by
  unfold State.binKeeps
  rw [h]

/-- Binning a word touches the windows, and the register that counts a dropped word. -/
theorem binWord_eq (s : State) (win key : Nat) (w : BinWord) :
    s.binWord win key w = { s with
      regs := (s.binWord win key w).regs
      core := { s.core with
        windows := if s.binKeeps win key w then SMap.put s.core.windows (win * 2 ^ 18 + key) w else s.core.windows } } := by
  unfold State.binWord
  dsimp only
  cases (SMap.find s.core.windows (win * 2 ^ 18 + key)).isSome <;> cases s.binKeeps win key w <;> rfl

theorem binWord_windows (s : State) (win key : Nat) (w : BinWord) :
    (s.binWord win key w).core.windows =
      if s.binKeeps win key w then SMap.put s.core.windows (win * 2 ^ 18 + key) w else s.core.windows := by
  rw [binWord_eq]

theorem binWord_strands (s : State) (win key : Nat) (w : BinWord) : (s.binWord win key w).strands = s.strands := by
  rw [binWord_eq]

theorem binWord_mem (s : State) (win key : Nat) (w : BinWord) : (s.binWord win key w).mem = s.mem := by
  rw [binWord_eq]

/-- The place of a binned word is taken afterwards, and by that word where it was vacant. -/
theorem find_binWord_self (s : State) (win key : Nat) (w : BinWord) :
    ∃ v, SMap.find (s.binWord win key w).core.windows (win * 2 ^ 18 + key) = some v ∧
      (SMap.find s.core.windows (win * 2 ^ 18 + key) = none → v = w) := by
  rw [binWord_windows]
  cases hfind : SMap.find s.core.windows (win * 2 ^ 18 + key) with
  | none =>
    rw [if_pos (binKeeps_vacant hfind w), SMap.find_put_self]
    exact ⟨w, rfl, fun _ => rfl⟩
  | some old =>
    split
    · exact ⟨w, SMap.find_put_self _ _ _, nofun⟩
    · exact ⟨old, hfind, nofun⟩

theorem find_binWord_ne (s : State) {win key k : Nat} (w : BinWord) (hk : k ≠ win * 2 ^ 18 + key) :
    SMap.find (s.binWord win key w).core.windows k = SMap.find s.core.windows k := by
  rw [binWord_windows]
  split
  · exact SMap.find_put_ne _ _ hk
  · rfl

/-- The mirror stream lies outside windows, strands and memory. -/
theorem mirrorFill_eq (s : State) (key : Nat) (data : W128) :
    s.mirrorFill key data = { s with splice := (s.mirrorFill key data).splice } := State.mirror_eq _ _

theorem fillWord_unstarted {s : State} (h : s.core.started = false) (key rank : Nat) (data : W128) :
    s.fillWord key rank data = s := by
  unfold State.fillWord
  rw [h]
  rfl

/-- After the first boundary, and for a cord that no region load isolates, a word enters the window of the boundary that closes
next; only the mirror stream may take it too. -/
theorem fillWord_started {s : State} {key : Nat} (hstarted : s.core.started = true) (hloaded : s.isolated (key / 2048) = false)
    (rank : Nat) (data : W128) :
    ∃ sp, s.fillWord key rank data =
      { s.binWord s.closing key ⟨data, s.lineTime.toNat, rank⟩ with splice := sp } := by
  unfold State.isolated at hloaded
  unfold State.fillWord
  rw [hstarted, hloaded]
  simp only [Bool.not_true, Bool.or_self, Bool.false_eq_true, if_false]
  split
  · exact ⟨_, mirrorFill_eq _ _ _⟩
  · exact ⟨_, rfl⟩

/-! ### The turn-input ports -/

theorem exec_turnInputWrite_closed {s : State} (h : s.closed = true) (port : BitVec 5) (cord : CordId) (word : BitVec 11)
    (data : W128) : exec (.turnInputWrite true port cord word data) s = .next s :=
  congrArg Host.Outcome.next (if_pos h)

theorem exec_turnInputWrite_here {s : State} {die : Bool} (h : die = true → s.closed = false) (port : BitVec 5) (cord : CordId)
    (word : BitVec 11) (data : W128) : exec (.turnInputWrite die port cord word data) s =
      .next (s.turnInput die.toNat port.toNat cord.toNat word.toNat data) :=
  congrArg Host.Outcome.next (if_neg (by simpa using h))

/-- A port that no fabric presents a word at, or whose WE is forced to 0 (R182), writes nothing. -/
theorem turnInput_silent {s : State} {die port : Nat}
    (h : s.fabricOn = false ∨ s.cutOff s.edge.die.tinWe (die * 32 + port) = true) (cord word : Nat) (data : W128) :
    s.turnInput die port cord word data = s :=
  if_pos (by simpa using h)

section
variable {s : State} {die port : Nat} (hon : s.fabricOn = true) (hcut : s.cutOff s.edge.die.tinWe (die * 32 + port) = false)
include hon hcut

theorem turnInput_standby (hstandby : s.standby = true) (hbs : s.splice.bs = none) (cord word : Nat) (data : W128) :
    s.turnInput die port cord word data = s.count F.EDG_TIN_STBY_COUNT 1 := by
  simp [State.turnInput, hon, hcut, hstandby, hbs]

variable (hruns : s.standby = false ∨ s.splice.bs.isSome = true)
include hruns

/-- A port that is heard by a device that is no STANDBY, or knows its boundary: assignment decides. -/
theorem turnInput_heard (cord word : Nat) (data : W128) : s.turnInput die port cord word data =
    if !s.cordOn cord || !s.edge.die.tin.contains (cord * 2048 + word) then s.count (F.EDG_TIN_UNASSIGNED_COUNT die) 1
    else s.fillWord (cord * 2048 + word) (0x72 * 64 + die * 32 + port) data := by
  have hstandby : (s.standby && s.splice.bs.isNone) = false := by
    rcases hruns with h | h <;> simp [h]
  simp [State.turnInput, hon, hcut, hstandby]

theorem turnInput_unassigned {cord word : Nat} (h : s.cordOn cord = false ∨ cord * 2048 + word ∉ s.edge.die.tin) (data : W128) :
    s.turnInput die port cord word data = s.count (F.EDG_TIN_UNASSIGNED_COUNT die) 1 :=
  (turnInput_heard hon hcut hruns _ _ _).trans (if_pos (by simpa using h))

theorem turnInput_assigned {cord word : Nat} (hcord : s.cordOn cord = true) (hword : cord * 2048 + word ∈ s.edge.die.tin)
    (data : W128) : s.turnInput die port cord word data =
      s.fillWord (cord * 2048 + word) (0x72 * 64 + die * 32 + port) data :=
  (turnInput_heard hon hcut hruns _ _ _).trans (if_neg (by simp [hcord, hword]))

end

/-! ### The turn-output ports -/

theorem exec_turnOutputRead_closed {s : State} (h : s.closed = true) (port : BitVec 5) (cord : CordId) (word : BitVec 11) :
    exec (.turnOutputRead true port cord word) s = .next s :=
  congrArg Host.Outcome.next (if_pos h)

theorem exec_turnOutputRead_here {s : State} {die : Bool} (h : die = true → s.closed = false) (port : BitVec 5) (cord : CordId)
    (word : BitVec 11) : exec (.turnOutputRead die port cord word) s =
      .next (s.turnOutput die.toNat port.toNat cord.toNat word.toNat) :=
  congrArg Host.Outcome.next (if_neg (by simpa using h))

/-- Settles O24: the port's way to the binning stage decides, and a word that gets there enters its window by `binWord`. -/
theorem turnBuffers : Obligations.TurnBuffers := by
  unfold Obligations.TurnBuffers
  refine ⟨fun die port cord word data s => ?_, fun die port cord word s => ⟨?_, fun hdie => ?_⟩⟩
  · intro key c cut
    refine ⟨?_, fun hdie => ?_⟩
    · rintro rfl hclosed
      exact exec_turnInputWrite_closed hclosed port cord word data
    · have hexec := exec_turnInputWrite_here hdie port cord word data
      refine ⟨fun hsilent => ?_, fun hon hcut hstandby hbs => ?_, fun hon hcut hruns => ⟨fun h => ?_, ?_, ?_⟩⟩
      · rw [hexec, turnInput_silent hsilent]
      · rw [hexec, turnInput_standby hon hcut hstandby hbs]
      · rw [hexec, turnInput_unassigned hon hcut hruns h]
      · intro hcord hword hstarted
        rw [hexec, turnInput_assigned hon hcut hruns hcord hword, fillWord_unstarted hstarted]
      · intro hcord hword hstarted hisolated
        have hkey : key / 2048 = cord.toNat := by omega
        obtain ⟨sp, hfill⟩ := fillWord_started hstarted (hkey ▸ hisolated) (0x72 * 64 + die.toNat * 32 + port.toNat) data
        obtain ⟨w, hw, hvacant⟩ := find_binWord_self s s.closing key
          ⟨data, s.lineTime.toNat, 0x72 * 64 + die.toNat * 32 + port.toNat⟩
        rw [turnInput_assigned hon hcut hruns hcord hword, hfill] at hexec
        refine ⟨_, w, hexec, hw, fun h => ?_, fun k hk => find_binWord_ne s _ hk, binWord_strands _ _ _ _, binWord_mem _ _ _ _⟩
        rw [hvacant h]
        exact ⟨rfl, rfl⟩
  · rintro rfl hclosed
    exact exec_turnOutputRead_closed hclosed port cord word
  · exact exec_turnOutputRead_here hdie port cord word

end Sys2Proof.Machine
end

section
/-! What a strand's step leaves of the register words and of the sources (R45, R57, R61, R115). -/

namespace Sys2Proof.Machine

/-! ### Words that a step writes -/

/-- A word of an observer or HST_EVT, of a fault source, or of a memory port: the words that entering a step and matching the
slot table entries write. -/
def stepWord (a : Nat) : Prop := observedWord a ∨ (0x1D000 ≤ a ∧ a < 0x1E000) ∨ (0x1000000 ≤ a ∧ 0xC000 ≤ a % 0x20000)

variable {a : Nat}

theorem srcDomain_isSome_lt {src d : Nat} (h : srcDomain src = some d) : src < 0x311 := by
  by_contra hge
  unfold srcDomain at h
  iterate 14 rw [if_neg (by omega)] at h
  cases h

/-- A fault writes at most the word of a source that there is. -/
theorem raise_reg_outside (s : State) (r : Report) (h : ¬ stepWord a) : (s.raise r).reg a = s.reg a := by
  by_cases hon : s.srcOn r.src = true
  · have hsrc : r.src < 0x311 := by
      unfold State.srcOn State.srcPowered at hon
      split at hon
      · next d hd => exact srcDomain_isSome_lt hd
      · simp at hon
    refine raise_reg s r ?_
    simp only [stepWord, R.FLT_SRC_STAT] at h ⊢
    omega
  · unfold State.raise
    rw [if_pos (by simpa using hon)]

theorem stepFault_reg (s : State) (g t ord : Nat) (f : Nat × Nat × Nat) (h : ¬ stepWord a) :
    (s.stepFault g t ord f).reg a = s.reg a := raise_reg_outside s _ h

theorem reg_ite {c : Prop} [Decidable c] {x y : State} {v : W32} (hx : x.reg a = v) (hy : y.reg a = v) :
    (if c then x else y).reg a = v := by
  split
  · exact hx
  · exact hy

theorem probeBight_reg (s : State) (stn side pos step : Nat) (val spec : Bool) (h : ¬ observedWord a) :
    (s.probeBight stn side pos step val spec).reg a = s.reg a :=
  State.each_keeps (fun t => t.reg a) fun t _ hn =>
    have hhit := probeHit_reg t 0 _ (List.mem_range.mp hn) h
    reg_ite (reg_ite hhit hhit) rfl

theorem launch_reg (s : State) (stn dir pos step : Nat) (val spec : Bool) (h : ¬ observedWord a) :
    (s.launch stn dir pos step val spec).reg a = s.reg a := by
  unfold State.launch
  split
  · rfl
  · dsimp only
    split
    · exact probeBight_reg _ _ _ _ _ _ _ h
    · rfl

theorem inject_reg (s : State) (stn dir pos step : Nat) (val spec : Bool) (h : ¬ observedWord a) :
    (s.inject stn dir pos step val spec).reg a = s.reg a :=
  (probeBight_reg _ _ _ _ _ _ _ h).trans (launch_reg s _ _ _ _ _ _ h)

theorem injectEntry_reg (s : State) (stn dir pos step : Nat) (val spec : Bool) (h : ¬ observedWord a) :
    (s.injectEntry stn dir pos step val spec).reg a = s.reg a := inject_reg _ _ _ _ _ _ _ h

theorem startOp_reg (s : State) (k step strand : Nat) (h : ¬ stepWord a) : (s.startOp k step strand).reg a = s.reg a := by
  have hobs : ¬ observedWord a := fun ho => h (.inl ho)
  have hstat : a ≠ R.DMP_STAT (k / 4) (k % 4) := by simp only [stepWord, R.DMP_STAT] at h ⊢; omega
  unfold State.startOp State.portFault
  dsimp only
  refine reg_ite (raise_reg_outside _ _ h) ?_
  have h1 : ∀ (b : Bool) (x y : Port), (if b then s.setPort k x else (s.setPort k x).setPort k y).reg a = s.reg a :=
    fun _ _ _ => reg_ite rfl rfl
  have h3 : ∀ (u : State) (r : TraceRec), u.reg a = s.reg a → (u.traceOffer r).reg a = s.reg a :=
    fun u r hu => (traceOffer_reg u r hobs).trans hu
  refine reg_ite ((raise_reg_outside _ _ h).trans (h3 _ _ ?_)) (h3 _ _ ?_)
  all_goals
    refine reg_ite ?_ (reg_ite ?_ (reg_ite ?_ (h1 _ _ _)))
    · exact (State.reg_fset_ne _ _ _ hstat).trans (h1 _ _ _)
    · exact (State.reg_fset_ne _ _ _ hstat).trans (h1 _ _ _)
    · exact (State.reg_fset_ne _ _ _ hstat).trans (h1 _ _ _)

theorem startFires_reg (s : State) (h : ¬ stepWord a) : s.startFires.reg a = s.reg a :=
  State.each_keeps (fun t => t.reg a) fun t _ _ => by
    split
    · exact startOp_reg t _ _ _ h
    · rfl

theorem injectIsolated_reg (s : State) (t : Nat) (h : ¬ observedWord a) : (s.injectIsolated t).reg a = s.reg a :=
  State.each_keeps (fun u => u.reg a) fun _ _ _ =>
    reg_ite (State.each_keeps (fun v => v.reg a) fun v _ _ => reg_ite (inject_reg v _ _ _ _ _ _ h) rfl) rfl

theorem enterStep_reg (s : State) (t : Nat) (h : ¬ stepWord a) : (s.enterStep t).reg a = s.reg a :=
  reg_ite rfl ((injectIsolated_reg _ _ fun ho => h (.inl ho)).trans (startFires_reg _ h))

/-- What matching the slot table entries keeps: a property that survives a carried value and a fault of the step (R59). -/
theorem matchEntries_inv {P : State → Prop} {g t : Nat}
    (hinject : ∀ u dir pos val spec, P u → P (State.injectEntry u (gCord g) dir pos t val spec))
    (hfault : ∀ u ord f, P u → P (State.stepFault u g t ord f)) {s : State} (hs : P s) (quiet : Bool)
    (send : Option (Nat × Bool)) : P (s.matchEntries g t quiet send) := by
  unfold State.matchEntries
  dsimp only
  generalize (s.outEntries _ _).filter _ = mine
  have hmine : ∀ f : State → Nat × Nat → State, (∀ u e, P u → P (f u e)) → P (s.each mine f) := fun f hf =>
    State.each_inv hs fun u e _ hu => hf u e hu
  cases send with
  | none =>
    refine hmine _ fun u e hu => ?_
    dsimp only
    split
    · exact hinject _ _ _ _ _ hu
    · exact hfault _ _ _ (hinject _ _ _ _ _ hu)
  | some p =>
    have heach := hmine (fun u e => if entryTag e.2 = p.1 then u.injectEntry (gCord g) (e.1 / 64) (e.1 % 64) t p.2 (s.prefixStep t)
        else (u.injectEntry (gCord g) (e.1 / 64) (e.1 % 64) t false (s.prefixStep t)).slotOwner g t (e.1 % 64) (e.1 / 64) (entryTag e.2))
      fun u e hu => by
        split
        · exact hinject _ _ _ _ _ hu
        · exact hfault _ _ _ (hinject _ _ _ _ _ hu)
    dsimp only
    split
    · exact heach
    · exact hfault _ _ _ heach

theorem matchEntries_reg (s : State) (g t : Nat) (quiet : Bool) (send : Option (Nat × Bool)) (h : ¬ stepWord a) :
    (s.matchEntries g t quiet send).reg a = s.reg a :=
  matchEntries_inv (P := fun u => u.reg a = s.reg a)
    (fun u _ _ _ _ hu => (injectEntry_reg u _ _ _ _ _ _ fun ho => h (.inl ho)).trans hu)
    (fun u _ _ hu => (stepFault_reg u _ _ _ _ h).trans hu) rfl quiet send

/-! ### What the step is and who reports -/

/-- Whether a source reports is told by the words of the power unit, the part and the reset levels. -/
theorem srcOn_congr {s t : State} (hwords : ∀ a, 0x20000 ≤ a → a < 0x30000 → t.reg a = s.reg a) (hpart : t.part = s.part)
    (hpor : t.por = s.por) (hwarm : t.warm = s.warm) (src : Nat) : t.srcOn src = s.srcOn src := by
  have hbit : ∀ d, srcDomain src = some d → t.bit (F.PWR_DOM_ON d) = s.bit (F.PWR_DOM_ON d) := fun d hd =>
    State.bit_congr _ (hwords _ (by simp only; omega) (by have := srcDomain_lt hd; simp only; omega))
  have hstate : t.fget F.PWR_STAT_STATE = s.fget F.PWR_STAT_STATE := State.fget_congr _ (hwords _ (by decide) (by decide))
  have hpowered : t.srcPowered src = s.srcPowered src := by
    unfold State.srcPowered State.big
    split
    · next d hd => rw [hbit d hd, hpart]
    · rfl
  simp only [State.srcOn, State.inReset, hpowered, hstate, hpor, hwarm]

/-- `t` has the words of `s` that no step writes, and its part and reset levels. -/
structure State.StepAs (s t : State) : Prop where
  words : ∀ a, ¬ stepWord a → t.reg a = s.reg a
  part : t.part = s.part
  por : t.por = s.por
  warm : t.warm = s.warm

theorem enterStep_stepAs (s : State) (t : Nat) : s.StepAs (s.enterStep t) where
  words _ h := enterStep_reg s t h
  part := (State.enterStep_only ((closed_identityOf s).mono rfl) ⟨rfl, rfl, rfl⟩ t).2.1
  por := (State.enterStep_only (Closed.sameOn s [.por] (by decide)) (s.sameOn_refl _) t .por (by simp)).symm
  warm := (State.enterStep_only (Closed.sameOn s [.warm] (by decide)) (s.sameOn_refl _) t .warm (by simp)).symm

section

variable {s t : State} (h : s.StepAs t)
include h

theorem State.StepAs.fget {f : Fld} (hf : ¬ stepWord f.addr) : t.fget f = s.fget f := State.fget_congr f (h.words _ hf)

theorem State.StepAs.bit {f : Fld} (hf : ¬ stepWord f.addr) : t.bit f = s.bit f := State.bit_congr f (h.words _ hf)

theorem State.StepAs.schedL : t.schedL = s.schedL := h.fget (by simp [stepWord, observedWord, R.HST_EVT])

theorem State.StepAs.prefixStep (n : Nat) : t.prefixStep n = s.prefixStep n := by
  have hE : t.schedE = s.schedE := h.fget (by simp [stepWord, observedWord, R.HST_EVT])
  simp only [State.prefixStep, hE]

theorem State.StepAs.srcOn (src : Nat) : t.srcOn src = s.srcOn src :=
  srcOn_congr (fun a _ _ => h.words a (by simp only [stepWord, observedWord, R.HST_EVT]; omega)) h.part h.por h.warm src

end

/-! ### Reports -/

/-- A report of source `src` with code `code` is held. -/
def State.told (s : State) (src code : Nat) : Prop := ∃ r ∈ s.reports, r.src = src ∧ r.code = code

variable {src code : Nat}

theorem State.told.congr {s t : State} (h : s.told src code) (ht : t.reports = s.reports) : t.told src code := by
  unfold State.told
  rwa [ht]

/-- A held report stays held when another comes. -/
theorem addReport_keeps {l : List Report} (r : Report) (h : ∃ x ∈ l, x.src = src ∧ x.code = code) :
    ∃ x ∈ addReport l r, x.src = src ∧ x.code = code := by
  induction l with
  | nil => obtain ⟨_, hx, _⟩ := h; cases hx
  | cons q l ih =>
    obtain ⟨x, hx, hxs⟩ := h
    unfold addReport
    split
    · next hq =>
      rcases List.mem_cons.mp hx with rfl | hx
      · exact ⟨_, List.mem_cons_self, by dsimp only; split <;> simp_all, by dsimp only; split <;> simp_all⟩
      · exact ⟨x, List.mem_cons_of_mem _ hx, hxs⟩
    · rcases List.mem_cons.mp hx with rfl | hx
      · exact ⟨x, List.mem_cons_self, hxs⟩
      · obtain ⟨y, hy, hys⟩ := ih ⟨x, hx, hxs⟩
        exact ⟨y, List.mem_cons_of_mem _ hy, hys⟩

theorem State.told.raise {s : State} (h : s.told src code) (r : Report) : (s.raise r).told src code := by
  unfold State.told State.raise
  split
  · exact h
  · dsimp only
    split <;> exact addReport_keeps r h

theorem told_stepFault {s : State} {g t ord : Nat} {f : Nat × Nat × Nat} (hon : s.srcOn (gCord g) = true) :
    (s.stepFault g t ord f).told (gCord g) f.1 := raise_reports hon

theorem injectEntry_reports (s : State) (stn dir pos step : Nat) (val spec : Bool) :
    (s.injectEntry stn dir pos step val spec).reports = s.reports :=
  (State.injectEntry_only (Closed.sameOn s [.reports] (by decide)) (s.sameOn_refl _) stn dir pos step val spec .reports (by simp)).symm

theorem State.told.matchEntries {s : State} (h : s.told src code) (g t : Nat) (quiet : Bool) (send : Option (Nat × Bool)) :
    (s.matchEntries g t quiet send).told src code :=
  matchEntries_inv (P := fun u => u.told src code) (fun u _ _ _ _ hu => hu.congr (injectEntry_reports u _ _ _ _ _ _))
    (fun _ _ _ hu => hu.raise _) h quiet send

end Sys2Proof.Machine
end

section
/-! The result of a strand's step, and what each operand selector reads (R38, R41, R42, R52, R55, R128). -/

namespace Sys2Proof.Machine

/-! ### The rows -/

/-- The eight rows that execute an instruction word, each with the operation code of its class. -/
def rowClasses : List ((StrandId → Instr) × Nat) :=
  [(.nop, opNop), (.eval, opEval), (.evalLatch, opEvalLatch), (.stateRead, opStateRead), (.evalSend, opEvalSend),
    (.evalPort, opEvalPort), (.evalCheck, opEvalCheck), (.turnEnd, opTurnEnd)]

theorem exec_rowClass {p : (StrandId → Instr) × Nat} (hp : p ∈ rowClasses) (g : StrandId) (s : State) :
    exec (p.1 g) s = .next (s.strandStep p.2 g.toNat) := by
  simp only [rowClasses, List.mem_cons, List.not_mem_nil, or_false] at hp
  rcases hp with rfl | rfl | rfl | rfl | rfl | rfl | rfl | rfl <;> rfl

/-! ### The result -/

/-- The result that a word which executes as its class enters in the history (R52). -/
def State.wordResult (s : State) (g t : Nat) (w : W64) : Bool :=
  if opFetches (wOp w) then
    (wTT w).testBit (ttIndex ((wSels w).map fun x => (s.operand g t (s.prefixStep t) x).1))
  else if wOp w = opStateRead then (s.strand g).readState (wAux w)
  else false

theorem fetchOperands_snd (s : State) (g t : Nat) (inPrefix : Bool) (w : W64) :
    (s.fetchOperands g t inPrefix w).2 = (wSels w).map fun x => (s.operand g t inPrefix x).1 :=
  List.map_map ..

/-- What evaluating, and the side effects of a word beside a staged state write, do to the strands. -/
theorem strand_evaluated (s : State) (g t : Nat) (w : W64) (r : Bool) (h : Nat) :
    ((s.fetchOperands g t (s.prefixStep t) w).1.enterResult g r).strand h = if h = g then (s.strand g).advance r else s.strand h := by
  rw [strand_enterResult, strand_fetchOperands, strand_fetchOperands]

/-- A word that executes enters its result in its strand's history and moves it on; beside that an EVAL_LATCH stages it. -/
theorem strand_runWord (s : State) (g t : Nat) (w : W64) (h : Nat) :
    (s.runWord g t w).strand h =
      if h = g then
        (if wOp w = opEvalLatch then
          { (s.strand g).advance (s.wordResult g t w) with
              staged := SMap.put (s.strand g).staged (wAux w % 1024) (s.wordResult g t w) }
        else (s.strand g).advance (s.wordResult g t w))
      else s.strand h := by
  unfold State.runWord State.wordResult
  dsimp only
  by_cases hf : opFetches (wOp w) = true
  · simp only [hf, if_true, fetchOperands_snd]
    generalize (wTT w).testBit _ = r
    have hev := strand_evaluated s g t w r
    by_cases hlatch : wOp w = opEvalLatch
    · simp only [hlatch, if_true, strand_matchEntries, strand_stageState, hev]
      by_cases hg : h = g
      · simp only [hg, if_true, advance_staged]
      · simp only [hg, if_false]
    · simp only [hlatch, if_false]
      rw [← hev h]
      split_ifs <;> simp only [strand_matchEntries, strand_stagePort, strand_markEvent]
  · have hlatch : wOp w ≠ opEvalLatch := fun e => hf (by rw [e]; rfl)
    simp only [hf, hlatch, if_false, Bool.false_eq_true]
    by_cases hread : wOp w = opStateRead
    · simp only [hread, if_true, strand_matchEntries, strand_enterResult]
    · by_cases hend : wOp w = opTurnEnd
      · rw [hend] at hread
        simp only [hend, hread, if_true, if_false, strand_endSchedule, strand_matchEntries, strand_enterResult]
      · simp only [hread, hend, if_false, strand_matchEntries, strand_enterResult]

theorem strand_runWord_ne (s : State) (g t : Nat) (w : W64) {h : Nat} (hne : h ≠ g) :
    (s.runWord g t w).strand h = s.strand h := by rw [strand_runWord, if_neg hne]

/-- The strand of a word that executes, apart from what is staged. -/
theorem strand_runWord_self (s : State) (g t : Nat) (w : W64) :
    ∃ staged, (s.runWord g t w).strand g = { (s.strand g).advance (s.wordResult g t w) with staged } := by
  rw [strand_runWord, if_pos rfl]
  split
  · exact ⟨_, rfl⟩
  · exact ⟨(s.strand g).staged, rfl⟩

theorem wordResult_silent {s : State} {g t : Nat} {w : W64} (h : wOp w = opNop ∨ wOp w = opTurnEnd) :
    s.wordResult g t w = false := by
  unfold State.wordResult
  rcases h with h | h <;> simp [h, opFetches, opNop, opTurnEnd, opStateRead]

theorem wordResult_stateRead {s : State} {g t : Nat} {w : W64} (h : wOp w = opStateRead) :
    s.wordResult g t w = (s.strand g).readState (wAux w) := by
  unfold State.wordResult
  simp [h, opFetches, opStateRead]

theorem wordResult_evaluates {s : State} {g t : Nat} {w : W64} (h : opFetches (wOp w) = true) :
    s.wordResult g t w = (wTT w).testBit (ttIndex ((wSels w).map fun x => (s.operand g t (s.prefixStep t) x).1)) := by
  unfold State.wordResult
  rw [if_pos h]

/-- A row whose strand fetches a sound word of its class that passes the checks executes that word. -/
theorem exec_runsClass {p : (StrandId → Instr) × Nat} (hp : p ∈ rowClasses) {g : StrandId} {s : State}
    (h : s.runsClass p.2 g.toNat) : exec (p.1 g) s =
      .next ((s.enterStep (s.strand g.toNat).pos).runWord g.toNat (s.strand g.toNat).pos (wordData (s.fetched g.toNat))) := by
  rw [exec_rowClass hp, strandStep_runs h]

/-- The parts of the state that no strand row changes. -/
theorem strandStep_keeps (s : State) (op g : Nat) :
    s.sameOn [.instrs, .mem, .lanes, .image, .store] (s.strandStep op g) :=
  State.strandStep_only (Closed.sameOn s _ (by decide)) (s.sameOn_refl _) op g

/-- Settles O9: the row executes its word, whose result `wordResult` is, and no strand's step reaches the other parts. -/
theorem strandRows : Obligations.StrandRows := by
  unfold Obligations.StrandRows
  intro p hp g s hruns
  have hexec := exec_rowClass hp g s
  have hkeeps := strandStep_keeps s p.2 g.toNat
  rw [strandStep_runs hruns] at hexec hkeeps
  obtain ⟨-, -, hop, -⟩ := hruns
  set u := s.enterStep (s.strand g.toNat).pos with hu
  have hstrand : ∀ h, u.strand h = s.strand h := strand_enterStep s _
  obtain ⟨staged, hself⟩ := strand_runWord_self u g.toNat (s.strand g.toNat).pos (wordData (s.fetched g.toNat))
  rw [hstrand] at hself
  refine ⟨_, u.wordResult g.toNat (s.strand g.toNat).pos (wordData (s.fetched g.toNat)), hexec, ?_, ?_, ?_, ?_, ?_, ?_,
    (hkeeps .instrs (by simp)).symm, (hkeeps .mem (by simp)).symm, (hkeeps .lanes (by simp)).symm,
    (hkeeps .image (by simp)).symm, (hkeeps .store (by simp)).symm⟩
  · rw [hself]; rfl
  · exact fun h => wordResult_silent (hop ▸ h)
  · exact fun h => (wordResult_stateRead (hop.trans h)).trans (by rw [hstrand])
  · rw [hself]; rfl
  · rw [hself]; rfl
  · exact fun h hne => (strand_runWord_ne u _ _ _ hne).trans (hstrand h)

/-! ### Operands -/

section

variable (s : State) (g t : Nat) (inPrefix : Bool)

theorem operand_hist {k : Nat} (hk : k < 0x80) : s.operand g t inPrefix k = ((s.strand g).hist.getLsbD k, none) := if_pos hk

theorem operand_inbox {m : Nat} (hm : m < 32) : s.operand g t inPrefix (0x80 + m) =
    ((((s.strand g).latch m).seen t).1,
      if (((s.strand g).latch m).seen t).2 then none else some (if inPrefix then 0x0108 else 0x0107, 0x80 + m, accBight)) := by
  unfold State.operand
  dsimp only
  rw [if_neg (by omega), if_pos (by omega), Nat.add_sub_cancel_left]

theorem operand_neighbour {j : Nat} (hj : j < 16) : s.operand g t inPrefix (0xA0 + j) =
    ((s.strand (g / 16 * 16 + j)).hist.getLsbD
      (if g / 16 * 16 + j ≠ g ∧ t < (s.strand (g / 16 * 16 + j)).pos then 1 else 0), none) := by
  unfold State.operand
  dsimp only
  rw [if_neg (by omega), if_neg (by omega), if_pos (by omega), Nat.add_sub_cancel_left]

theorem operand_portLatch {m : Nat} (hm : m < 8) : s.operand g t inPrefix (0xB0 + m) =
    let p := s.port (portKey (gCord g) (gGroup g))
    ((p.seen (s.core.base + t)).getLsbD (8 * (gPly g % 16) + m),
      if p.lateTurn then some (0x010A, gGroup g, accRead)
      else if p.early (s.core.base + t) then some (0x0109, gGroup g, accRead) else none) := by
  unfold State.operand
  dsimp only
  rw [if_neg (by omega), if_neg (by omega), if_neg (by omega), if_pos (by omega), Nat.add_sub_cancel_left]

end

theorem ttIndex_four (a b c d : Bool) : ttIndex [a, b, c, d] = 8 * d.toNat + 4 * c.toNat + 2 * b.toNat + a.toNat := by
  simp only [ttIndex]
  omega

/-- Settles O8: the result of an evaluating word is `wordResult`, and each range of selectors has its own reading rule. -/
theorem operands : Obligations.Operands := by
  unfold Obligations.Operands
  refine ⟨⟨ttIndex_four, fun p hp g s hruns => ?_⟩, fun s g t inPrefix => ⟨?_, rfl, rfl, rfl, rfl, fun m hm => ?_, fun j hj hne => ?_, ?_⟩,
    fun s g t m inPrefix hm => operand_portLatch s g t inPrefix hm⟩
  · have hrow : p ∈ rowClasses ∧ opFetches p.2 = true := by
      simp only [List.mem_cons, List.not_mem_nil, or_false] at hp
      rcases hp with rfl | rfl | rfl | rfl | rfl <;> exact ⟨by simp [rowClasses], rfl⟩
    obtain ⟨hmem, hfetch⟩ := hrow
    have hexec := exec_runsClass hmem hruns
    obtain ⟨-, -, hop, -⟩ := hruns
    obtain ⟨staged, hself⟩ := strand_runWord_self (s.enterStep (s.strand g.toNat).pos) g.toNat (s.strand g.toNat).pos
      (wordData (s.fetched g.toNat))
    refine ⟨_, hexec, ?_⟩
    rw [hself, wordResult_evaluates (hop.symm ▸ hfetch), strand_enterStep, (enterStep_stepAs s _).prefixStep]
    rfl
  · exact fun k hk => operand_hist s g t inPrefix hk
  · rw [operand_inbox s g t inPrefix hm]
    refine ⟨fun hat => ?_, fun hat => ?_, rfl⟩
    · simp only [Latch.seen, hat, if_true]
    · simp only [Latch.seen, hat, if_false]
  · rw [operand_neighbour s g t inPrefix hj]
    simp only [ne_eq, hne, not_false_eq_true, true_and]
  · have hself : g / 16 * 16 + g % 16 = g := by omega
    rw [operand_neighbour s g t inPrefix (Nat.mod_lt _ (by decide)), hself]
    simp only [ne_eq, not_true_eq_false, false_and, if_false]

end Sys2Proof.Machine
end

section
/-! Words that the checks stop, words with an error, and the end of the schedule (R40, R42, R45, R46, R66, R98). -/

namespace Sys2Proof.Machine

/-! ### The verdict of the checks -/

theorem checked_of_fetches {op : Nat} (h : opFetches op = true) : opReserved op = false ∧ op ≠ opTurnEnd := by
  simp only [opFetches, Bool.or_eq_true, beq_iff_eq] at h
  rcases h with (((rfl | rfl) | rfl) | rfl) | rfl <;> decide

section

variable {w : W64} {inPrefix : Bool}

theorem verdict_reserved (h : opReserved (wOp w) = true) : verdict w false inPrefix = .stopped 0x0102 (wOp w) accInstr := by
  simp [verdict, h]

theorem verdict_turnEnd (h : wOp w = opTurnEnd) : verdict w false inPrefix = .asNop := by
  have hres : opReserved opTurnEnd = false := rfl
  simp [verdict, h, hres]

/-- The first reserved selector that a class fetches stops the word. -/
theorem verdict_selReserved (hop : opFetches (wOp w) = true) (hsel : ∃ x ∈ wSels w, selReserved x = true) :
    ∃ i x, (wSels w)[i]? = some x ∧ selReserved x = true ∧ (∀ j < i, ∀ y, (wSels w)[j]? = some y → selReserved y = false) ∧
      verdict w false inPrefix = .stopped 0x0103 (x + i * 256) accInstr := by
  obtain ⟨hres, hend⟩ := checked_of_fetches hop
  obtain ⟨i, hfind⟩ : ∃ i, (wSels w).findIdx? selReserved = some i :=
    Option.isSome_iff_exists.mp (by simpa [List.findIdx?_isSome] using hsel)
  obtain ⟨hi, hx, hbefore⟩ := List.findIdx?_eq_some_iff_getElem.mp hfind
  refine ⟨i, (wSels w)[i], List.getElem?_eq_getElem hi, hx, fun j hj y hy => ?_, ?_⟩
  · obtain ⟨_, rfl⟩ := List.getElem?_eq_some_iff.mp hy
    exact Bool.eq_false_iff.mpr (hbefore j hj)
  · simp [verdict, hres, hend, hfind, hop, hi]

theorem findIdx_selReserved_none (h : ∀ x ∈ wSels w, selReserved x = false) : (wSels w).findIdx? selReserved = none :=
  List.findIdx?_eq_none_iff.mpr h

theorem verdict_portPrefix (hsel : ∀ x ∈ wSels w, selReserved x = false) (hop : wOp w = opEvalPort) :
    verdict w false true = .stopped 0x0108 256 accBight := by
  have hres : opReserved opEvalPort = false := rfl
  have hend : opEvalPort ≠ opTurnEnd := by decide
  simp [verdict, hop, hres, hend, findIdx_selReserved_none hsel]

/-- A port latch that a class fetches at a step of an early start stops the word. -/
theorem verdict_latchPrefix (hsel : ∀ x ∈ wSels w, selReserved x = false) (hop : opFetches (wOp w) = true) (hport : wOp w ≠ opEvalPort)
    (hlatch : ∃ x ∈ wSels w, selPort x = true) :
    ∃ x ∈ wSels w, selPort x = true ∧ verdict w false true = .stopped 0x0108 x accBight := by
  obtain ⟨hres, hend⟩ := checked_of_fetches hop
  obtain ⟨x, hfind⟩ : ∃ x, (wSels w).find? selPort = some x := by
    rw [← Option.isSome_iff_exists, List.find?_isSome]
    exact hlatch
  refine ⟨x, List.mem_of_find?_eq_some hfind, List.find?_some hfind, ?_⟩
  simp [verdict, hres, hend, hport, findIdx_selReserved_none hsel, hfind, hop]

theorem verdict_runs (hres : opReserved (wOp w) = false) (hend : wOp w ≠ opTurnEnd)
    (hsel : opFetches (wOp w) = true → ∀ x ∈ wSels w, selReserved x = false)
    (hprefix : inPrefix = true → wOp w ≠ opEvalPort ∧ (opFetches (wOp w) = true → ∀ x ∈ wSels w, selPort x = false)) :
    verdict w false inPrefix = .runs := by
  unfold verdict
  simp only [Bool.false_eq_true, if_false, hres, hend]
  by_cases hop : opFetches (wOp w) = true
  · have hnone : inPrefix = true → (wSels w).find? selPort = none := fun hp =>
      List.find?_eq_none.mpr fun x hx => by simp [(hprefix hp).2 hop x hx]
    simp only [findIdx_selReserved_none (hsel hop)]
    cases inPrefix with
    | false => simp; split <;> rfl
    | true => simp [(hprefix rfl).1, hnone rfl]
  · have hport : wOp w ≠ opEvalPort := fun e => hop (by rw [e]; rfl)
    simp only [hop, Bool.and_false, Bool.false_eq_true, if_false]
    split
    · rfl
    · simp [hport]
      split <;> rfl

end

/-! ### The steps of stopped and corrected words -/

section

variable {s : State} {g : Nat} (cls : Nat)

theorem strandStep_uncorrectable (hmay : s.mayStep g = true) (hsyn : decodeSyndrome (syndrome (s.fetched g)) = .uncorrectable) :
    s.strandStep cls g =
      (((((s.enterStep (s.strand g).pos).countUe g (s.strand g).pos (syndrome (s.fetched g)) 0).stepFault g (s.strand g).pos 0
        (0x0101, (syndrome (s.fetched g)).toNat, accInstr)).enterResult g false).matchEntries g (s.strand g).pos true none) := by
  unfold State.strandStep
  unfold State.fetched at hsyn ⊢
  simp [hmay, hsyn]

/-- The start of a step with a correctable or no error: the step is entered, and an error is counted and located (R45). -/
def State.fetchedStep (s : State) (g : Nat) : State :=
  if decodeSyndrome (syndrome (s.fetched g)) = .clean then s.enterStep (s.strand g).pos
  else (s.enterStep (s.strand g).pos).countCe g (s.strand g).pos (syndrome (s.fetched g))

theorem strandStep_stopped {code addr acc : Nat} (hmay : s.mayStep g = true)
    (hsyn : decodeSyndrome (syndrome (s.fetched g)) ≠ .uncorrectable)
    (hv : verdict (correctedData (s.fetched g)) ((s.strand g).pos + 1 == s.schedL) (s.prefixStep (s.strand g).pos) = .stopped code addr acc) :
    s.strandStep cls g = (((s.fetchedStep g).stepFault g (s.strand g).pos 0 (code, addr, acc)).enterResult g false).matchEntries g
      (s.strand g).pos true none := by
  unfold State.strandStep State.fetchedStep
  unfold State.fetched at hsyn hv ⊢
  simp [hmay, hsyn, hv]

theorem strandStep_asNop (hmay : s.mayStep g = true) (hsyn : decodeSyndrome (syndrome (s.fetched g)) ≠ .uncorrectable)
    (hv : verdict (correctedData (s.fetched g)) ((s.strand g).pos + 1 == s.schedL) (s.prefixStep (s.strand g).pos) = .asNop) :
    s.strandStep cls g =
      let t := (((s.fetchedStep g).stepFault g (s.strand g).pos 0
        (0x0102, wOp (correctedData (s.fetched g)), accInstr)).enterResult g false).matchEntries g (s.strand g).pos false none
      if (s.strand g).pos + 1 = s.schedL then t.endSchedule else t := by
  unfold State.strandStep State.fetchedStep
  unfold State.fetched at hsyn hv ⊢
  simp [hmay, hsyn, hv]

variable {cls}

theorem strandStep_corrected (hmay : s.mayStep g = true) (hsyn : decodeSyndrome (syndrome (s.fetched g)) ≠ .uncorrectable)
    (hop : wOp (correctedData (s.fetched g)) = cls)
    (hv : verdict (correctedData (s.fetched g)) ((s.strand g).pos + 1 == s.schedL) (s.prefixStep (s.strand g).pos) = .runs) :
    s.strandStep cls g = (s.fetchedStep g).runWord g (s.strand g).pos (correctedData (s.fetched g)) := by
  unfold State.strandStep State.fetchedStep
  unfold State.fetched at hsyn hv hop ⊢
  simp [hmay, hsyn, hv, hop]

end

/-! ### The start of the step with an error -/

theorem fetchedStep_strand (s : State) (g h : Nat) : (s.fetchedStep g).strand h = s.strand h := by
  unfold State.fetchedStep
  split
  · rw [strand_enterStep]
  · rw [strand_countCe, strand_enterStep]

theorem countCe_reg (s : State) (g t : Nat) (syn : Byte) {a : Nat} (hexec : a ≠ R.CRD_CE_EXEC (gCord g)) (hloc : a ≠ R.CRD_CE_LOC (gCord g)) :
    (s.countCe g t syn).reg a = s.reg a := (State.reg_setReg_ne _ _ hloc).trans (State.reg_fset_ne _ _ _ hexec)

theorem countUe_reg (s : State) (g t : Nat) (syn : Byte) (src : Nat) {a : Nat} (hcnt : a ≠ R.CRD_UE_CNT (gCord g))
    (hloc : a ≠ R.CRD_UE_LOC (gCord g)) : (s.countUe g t syn src).reg a = s.reg a :=
  reg_ite (State.reg_fset_ne _ _ _ hcnt) ((State.reg_setReg_ne _ _ hloc).trans (State.reg_fset_ne _ _ _ hcnt))

/-- `v` is the start of strand `g`'s step in `s`, apart from the words of the cord's error registers. -/
structure State.BegunAs (s v : State) (g : Nat) : Prop where
  strand : v.strand g = s.strand g
  ports : v.ports = (s.enterStep (s.strand g).pos).ports
  core : v.core = (s.enterStep (s.strand g).pos).core
  srcOn : ∀ src, v.srcOn src = s.srcOn src
  schedL : v.schedL = s.schedL

theorem enterStep_begunAs (s : State) (g : Nat) : s.BegunAs (s.enterStep (s.strand g).pos) g where
  strand := strand_enterStep _ _ _
  ports := rfl
  core := rfl
  srcOn := (enterStep_stepAs s _).srcOn
  schedL := (enterStep_stepAs s _).schedL

/-- Writes of words of the cord's error registers keep the start of the step. -/
theorem State.BegunAs.of_words {s u v : State} {g : Nat} (h : s.BegunAs u g) (hkeeps : u.sameOn [.strands, .ports, .core, .por, .warm] v)
    (hpart : v.part = u.part) (hwords : ∀ a, a < 0x1000000 → v.reg a = u.reg a) : s.BegunAs v g where
  strand := (strand_of_same (fun p hp => hkeeps p (by simp_all)) g).trans h.strand
  ports := (hkeeps .ports (by simp)).symm.trans h.ports
  core := (hkeeps .core (by simp)).symm.trans h.core
  srcOn src := (srcOn_congr (fun a _ _ => hwords a (by omega)) hpart (hkeeps .por (by simp)).symm (hkeeps .warm (by simp)).symm src).trans
    (h.srcOn src)
  schedL := (State.fget_congr F.TURN_CFG_L (hwords _ (by decide))).trans h.schedL

theorem State.BegunAs.countCe {s u : State} {g : Nat} (h : s.BegunAs u g) (t : Nat) (syn : Byte) : s.BegunAs (u.countCe g t syn) g :=
  h.of_words (State.countCe_only (Closed.sameOn u _ (by decide)) (u.sameOn_refl _) g t syn)
    (State.countCe_only ((closed_identityOf u).mono rfl) ⟨rfl, rfl, rfl⟩ g t syn).2.1
    fun _ ha => countCe_reg u g t syn (by simp only [R.CRD_CE_EXEC]; omega) (by simp only [R.CRD_CE_LOC]; omega)

theorem State.BegunAs.countUe {s u : State} {g : Nat} (h : s.BegunAs u g) (t : Nat) (syn : Byte) (src : Nat) :
    s.BegunAs (u.countUe g t syn src) g :=
  h.of_words (State.countUe_only (Closed.sameOn u _ (by decide)) (u.sameOn_refl _) g t syn src)
    (State.countUe_only ((closed_identityOf u).mono rfl) ⟨rfl, rfl, rfl⟩ g t syn src).2.1
    fun _ ha => countUe_reg u g t syn src (by simp only [R.CRD_UE_CNT]; omega) (by simp only [R.CRD_UE_LOC]; omega)

theorem fetchedStep_begunAs (s : State) (g : Nat) : s.BegunAs (s.fetchedStep g) g := by
  unfold State.fetchedStep
  split
  · exact enterStep_begunAs s g
  · exact (enterStep_begunAs s g).countCe _ _

/-! ### Steps with result 0 -/

/-- `t` is after a step of strand `g` in `s` that enters 0 without a side effect of its word and reports `code`. -/
structure State.Zeroed (s t : State) (g code : Nat) : Prop where
  strand : t.strand g = { s.strand g with hist := (s.strand g).hist <<< 1, pos := (s.strand g).pos + 1 }
  ports : t.ports = (s.enterStep (s.strand g).pos).ports
  asserts : t.core.asserts = (s.enterStep (s.strand g).pos).core.asserts
  told : s.srcOn (gCord g) = true → t.told (gCord g) code
  schedL : t.schedL = s.schedL

theorem advance_false (x : Strand) : x.advance false = { x with hist := x.hist <<< 1, pos := x.pos + 1 } := by
  unfold Strand.advance
  simp

/-- A fault of the step, the result 0 and the inject entries with it. -/
theorem State.BegunAs.zeroed {s v : State} {g : Nat} (h : s.BegunAs v g) (ord : Nat) (f : Nat × Nat × Nat) (quiet : Bool) :
    s.Zeroed (((v.stepFault g (s.strand g).pos ord f).enterResult g false).matchEntries g (s.strand g).pos quiet none) g f.1 := by
  set n := (s.strand g).pos
  have hkeeps : v.sameOn [.ports, .core] (((v.stepFault g n ord f).enterResult g false).matchEntries g n quiet none) :=
    State.matchEntries_only (Closed.sameOn v _ (by decide)) (State.enterResult_only (Closed.sameOn v _ (by decide))
      (State.stepFault_only (Closed.sameOn v _ (by decide)) (v.sameOn_refl _) g n ord f) g false) g n quiet none
  refine ⟨?_, (hkeeps .ports (by simp)).symm.trans h.ports, ?_, fun hon => ?_, ?_⟩
  · rw [strand_matchEntries, strand_enterResult, if_pos rfl, strand_stepFault, h.strand, advance_false]
  · exact (congrArg Core.asserts (hkeeps .core (by simp)).symm).trans (congrArg Core.asserts h.core)
  · have htold : (v.stepFault g n ord f).told (gCord g) f.1 := told_stepFault ((h.srcOn _).trans hon)
    exact State.told.matchEntries (State.told.congr (t := (v.stepFault g n ord f).enterResult g false) htold rfl) g n quiet none
  · have hword : ¬ stepWord F.TURN_CFG_L.addr := by simp [stepWord, observedWord, R.HST_EVT]
    have hreg : (((v.stepFault g n ord f).enterResult g false).matchEntries g n quiet none).reg F.TURN_CFG_L.addr = v.reg F.TURN_CFG_L.addr :=
      (matchEntries_reg _ g n quiet none hword).trans (stepFault_reg v g n ord f hword)
    exact (State.fget_congr F.TURN_CFG_L hreg).trans h.schedL

/-! ### The end of the schedule -/

theorem stnStray_addr (stn : Nat) : (stnStray stn).addr % 0x100 = 4 := by
  unfold stnStray
  split <;> simp only <;> omega

theorem clearBights_reg (s : State) (p : Bight → Bool) {a : Nat} (h : a % 0x100 ≠ 4) : (s.clearBights p).reg a = s.reg a :=
  State.each_keeps (fun t => t.reg a) fun t b _ => State.reg_fset_ne t _ _ fun e => h (e ▸ stnStray_addr b.stn)

theorem clearBights_bights (s : State) (p : Bight → Bool) : ∀ b ∈ (s.clearBights p).ring.bights, p b = false := fun b hb => by
  simpa using (List.mem_filter.mp hb).2

theorem endSchedule_bights (s : State) : ∀ b ∈ s.endSchedule.ring.bights, b.at_ < s.schedL := fun b hb => by
  simpa using clearBights_bights s _ b hb

theorem State.Zeroed.endSchedule {s t : State} {g code : Nat} (h : s.Zeroed t g code) : s.Zeroed t.endSchedule g code := by
  have hkeeps : t.sameOn [.ports, .core, .reports] t.endSchedule :=
    State.endSchedule_only (Closed.sameOn t _ (by decide)) (t.sameOn_refl _)
  exact ⟨(strand_endSchedule t g).trans h.strand, (hkeeps .ports (by simp)).symm.trans h.ports,
    (congrArg Core.asserts (hkeeps .core (by simp)).symm).trans h.asserts,
    fun hon => (h.told hon).congr (hkeeps .reports (by simp)).symm,
    (State.fget_congr F.TURN_CFG_L (clearBights_reg t _ (by decide))).trans h.schedL⟩

/-! ### Words that a word's execution writes -/

theorem fetchOperands_reg (s : State) (g t : Nat) (inPrefix : Bool) (w : W64) {a : Nat} (h : ¬ stepWord a) :
    (s.fetchOperands g t inPrefix w).1.reg a = s.reg a :=
  State.each_keeps (fun u => u.reg a) fun u _ _ => by
    split
    · exact stepFault_reg u _ _ _ _ h
    · rfl

theorem stageState_reg (s : State) (g t n : Nat) (r : Bool) {a : Nat} (h : ¬ stepWord a) : (s.stageState g t n r).reg a = s.reg a :=
  reg_ite (stepFault_reg _ _ _ _ _ h) rfl

theorem stagePort_reg (s : State) (g t bit : Nat) (fire r : Bool) (a : Nat) : (s.stagePort g t bit fire r).reg a = s.reg a := rfl

theorem markEvent_reg (s : State) (g t e a : Nat) : (s.markEvent g t e).reg a = s.reg a := reg_ite rfl rfl

theorem runWord_reg (s : State) (g t : Nat) (w : W64) {a : Nat} (h : ¬ stepWord a) (hstray : a % 0x100 ≠ 4) :
    (s.runWord g t w).reg a = s.reg a := by
  have hmatch := fun (u : State) (send : Option (Nat × Bool)) => matchEntries_reg u g t false send h
  have heval : ∀ r, ((s.fetchOperands g t (s.prefixStep t) w).1.enterResult g r).reg a = s.reg a := fun r =>
    fetchOperands_reg s g t _ w h
  unfold State.runWord
  refine reg_ite (reg_ite ?_ (reg_ite ?_ (reg_ite ?_ (reg_ite ?_ ?_)))) (reg_ite ?_ (reg_ite ?_ ?_))
  · exact ((hmatch _ _).trans (stageState_reg _ _ _ _ _ h)).trans (heval _)
  · exact (hmatch _ _).trans (heval _)
  · exact ((hmatch _ _).trans (stagePort_reg _ _ _ _ _ _ _)).trans (heval _)
  · exact (hmatch _ _).trans (reg_ite ((markEvent_reg _ _ _ _ _).trans (heval _)) (heval _))
  · exact (hmatch _ _).trans (heval _)
  · exact hmatch _ _
  · exact (clearBights_reg _ _ hstray).trans (hmatch _ _)
  · exact hmatch _ _

/-! ### The statement -/

theorem verdict_last (w : W64) (inPrefix : Bool) : verdict w true inPrefix = if wOp w = opTurnEnd then .runs else .asNop := rfl

/-- A step whose word is uncorrectable or stopped by the checks enters 0 under every row. -/
theorem strandStep_zeroed {s : State} {g code : Nat} (cls : Nat) (hmay : s.mayStep g = true)
    (h : decodeSyndrome (syndrome (s.fetched g)) = .uncorrectable ∧ code = 0x0101 ∨
      decodeSyndrome (syndrome (s.fetched g)) ≠ .uncorrectable ∧ ∃ addr acc, verdict (correctedData (s.fetched g))
        ((s.strand g).pos + 1 == s.schedL) (s.prefixStep (s.strand g).pos) = .stopped code addr acc) :
    s.Zeroed (s.strandStep cls g) g code := by
  rcases h with ⟨hsyn, rfl⟩ | ⟨hsyn, addr, acc, hv⟩
  · rw [strandStep_uncorrectable cls hmay hsyn]
    exact ((enterStep_begunAs s g).countUe _ _ _).zeroed 0 _ true
  · rw [strandStep_stopped cls hmay hsyn hv]
    exact (fetchedStep_begunAs s g).zeroed 0 (code, addr, acc) true

/-- A word that executes as no operation of its own enters 0; at the last step it ends the schedule. -/
theorem strandStep_asNop_zeroed {s : State} {g : Nat} (cls : Nat) (hmay : s.mayStep g = true)
    (hsyn : decodeSyndrome (syndrome (s.fetched g)) ≠ .uncorrectable)
    (hv : verdict (correctedData (s.fetched g)) ((s.strand g).pos + 1 == s.schedL) (s.prefixStep (s.strand g).pos) = .asNop) :
    s.Zeroed (s.strandStep cls g) g 0x0102 ∧
      ((s.strand g).pos + 1 = s.schedL → ∀ b ∈ (s.strandStep cls g).ring.bights, b.at_ < s.schedL) := by
  have hz := (fetchedStep_begunAs s g).zeroed 0 (0x0102, wOp (correctedData (s.fetched g)), accInstr) false
  rw [strandStep_asNop cls hmay hsyn hv]
  dsimp only
  split
  · exact ⟨hz.endSchedule, fun _ b hb => hz.schedL ▸ endSchedule_bights _ b hb⟩
  · next hlast => exact ⟨hz, fun h => absurd h hlast⟩

/-- The count and the place of a corrected word (R45) stay through its execution. -/
theorem strandStep_countsCe {s : State} {g : Nat} (hclean : decodeSyndrome (syndrome (s.fetched g)) ≠ .clean) (w : W64) :
    let t := (s.fetchedStep g).runWord g (s.strand g).pos w
    t.fget (F.CRD_CE_EXEC_COUNT (gCord g)) = satAdd (2 ^ 32 - 1) (s.fget (F.CRD_CE_EXEC_COUNT (gCord g))) 1 ∧
      t.reg (R.CRD_CE_LOC (gCord g)) =
        BitVec.ofNat 32 (locWord (g % 1024) (s.strand g).pos (syndrome (s.fetched g)) 0) := by
  have hexec : ¬ stepWord (R.CRD_CE_EXEC (gCord g)) := by simp only [stepWord, observedWord, R.HST_EVT, R.CRD_CE_EXEC]; omega
  have hloc : ¬ stepWord (R.CRD_CE_LOC (gCord g)) := by simp only [stepWord, observedWord, R.HST_EVT, R.CRD_CE_LOC]; omega
  unfold State.fetchedStep
  rw [if_neg hclean]
  refine ⟨?_, ?_⟩
  · have hrun : ∀ u : State, (u.runWord g (s.strand g).pos w).fget (F.CRD_CE_EXEC_COUNT (gCord g)) = u.fget (F.CRD_CE_EXEC_COUNT (gCord g)) :=
      fun u => State.fget_congr _ (runWord_reg u g _ w hexec (by simp only; omega))
    rw [hrun, ← (enterStep_stepAs s (s.strand g).pos).fget (f := F.CRD_CE_EXEC_COUNT (gCord g)) hexec]
    exact (State.fget_congr _ (State.reg_setReg_ne _ _ (by simp only [R.CRD_CE_LOC]; omega))).trans
      (fget_count_self _ (f := F.CRD_CE_EXEC_COUNT (gCord g)) (by simp))
  · rw [runWord_reg _ g _ w hloc (by simp only [R.CRD_CE_LOC]; omega)]
    exact State.reg_setReg_self _ _ _

/-- The eight rows without their classes, as the statement lists them. -/
theorem exec_row {c : StrandId → Instr} (hc : c ∈ [Instr.nop, .eval, .evalLatch, .stateRead, .evalSend, .evalPort, .evalCheck, .turnEnd])
    (g : StrandId) (s : State) : ∃ cls, exec (c g) s = .next (s.strandStep cls g.toNat) := by
  have hrow : ∃ p ∈ rowClasses, p.1 = c := by
    simpa [rowClasses, eq_comm] using hc
  obtain ⟨p, hp, rfl⟩ := hrow
  exact ⟨p.2, exec_rowClass hp g s⟩

/-- Settles O11: the verdict case by case, and the step that each verdict gives. -/
theorem wordFaults : Obligations.WordFaults := by
  unfold Obligations.WordFaults
  refine ⟨⟨verdict_last, fun w p h => verdict_reserved h, fun w p h => verdict_turnEnd h, fun w p h hsel => verdict_selReserved h hsel,
    fun w hsel hop => verdict_portPrefix hsel hop, fun w hsel hop hport hlatch => verdict_latchPrefix hsel hop hport hlatch,
    fun w p hres hend hsel hprefix => verdict_runs hres hend hsel hprefix⟩, fun c hc g s => ?_, fun c hc g s => ?_, fun p hp g s => ?_⟩
  · obtain ⟨cls, hexec⟩ := exec_row hc g s
    refine ⟨fun hmay => by rw [hexec, strandStep_idle cls hmay], fun code hmay h => ?_⟩
    have hz := strandStep_zeroed cls hmay h
    exact ⟨_, hexec, hz.strand, hz.ports, hz.asserts, hz.told⟩
  · intro x w hmay hsyn hv
    obtain ⟨cls, hexec⟩ := exec_row hc g s
    obtain ⟨hz, hlast⟩ := strandStep_asNop_zeroed cls hmay hsyn hv
    exact ⟨_, hexec, hz.strand, hz.ports, hz.told, hlast⟩
  · intro x w c hmay hsyn hclean hop hv
    have hexec := exec_rowClass hp g s
    rw [strandStep_corrected hmay hsyn hop hv] at hexec
    obtain ⟨staged, hself⟩ := strand_runWord_self (s.fetchedStep g.toNat) g.toNat (s.strand g.toNat).pos (correctedData w)
    rw [fetchedStep_strand] at hself
    obtain ⟨hcount, hloc⟩ := strandStep_countsCe hclean (correctedData w)
    exact ⟨_, _, hexec, by rw [hself]; rfl, by rw [hself]; rfl, hcount, hloc⟩

end Sys2Proof.Machine
end

section
/-! The error-correcting code of the instruction store (R32), whose syndrome is linear in a word's bits, and the scrubber (R47). -/

namespace Sys2Proof.Machine

/-! ### Linearity -/

/-- The fold of `checkByte`, over any columns. -/
theorem columns_xor (l : List (Nat × Nat)) (d e : W64) : ∀ x y : Byte,
    l.foldl (fun x p => if (d ^^^ e).getLsbD p.2 then x ^^^ BitVec.ofNat 8 p.1 else x) (x ^^^ y) =
      l.foldl (fun x p => if d.getLsbD p.2 then x ^^^ BitVec.ofNat 8 p.1 else x) x ^^^
        l.foldl (fun x p => if e.getLsbD p.2 then x ^^^ BitVec.ofNat 8 p.1 else x) y := by
  induction l with
  | nil => exact fun _ _ => rfl
  | cons p l ih =>
    intro x y
    have hstep : (if (d ^^^ e).getLsbD p.2 then (x ^^^ y) ^^^ BitVec.ofNat 8 p.1 else x ^^^ y) =
        (if d.getLsbD p.2 then x ^^^ BitVec.ofNat 8 p.1 else x) ^^^ (if e.getLsbD p.2 then y ^^^ BitVec.ofNat 8 p.1 else y) := by
      rw [BitVec.getLsbD_xor]
      have hself : (x ^^^ BitVec.ofNat 8 p.1) ^^^ (y ^^^ BitVec.ofNat 8 p.1) = x ^^^ y := by
        rw [BitVec.xor_assoc, BitVec.xor_comm y, ← BitVec.xor_assoc (BitVec.ofNat 8 p.1), BitVec.xor_self, BitVec.zero_xor]
      cases d.getLsbD p.2 <;> cases e.getLsbD p.2
      · rfl
      · exact BitVec.xor_assoc _ _ _
      · show (x ^^^ y) ^^^ _ = (x ^^^ _) ^^^ y
        ac_rfl
      · exact hself.symm
    simp only [List.foldl_cons, hstep, ih]

theorem checkByte_xor (d e : W64) : checkByte (d ^^^ e) = checkByte d ^^^ checkByte e := columns_xor _ d e 0 0

theorem wordData_xor (v w : BitVec 72) : wordData (v ^^^ w) = wordData v ^^^ wordData w := BitVec.setWidth_xor

theorem wordCheck_xor (v w : BitVec 72) : wordCheck (v ^^^ w) = wordCheck v ^^^ wordCheck w := by
  simp only [wordCheck, BitVec.ushiftRight_xor_distrib, BitVec.setWidth_xor]

theorem syndrome_xor (v w : BitVec 72) : syndrome (v ^^^ w) = syndrome v ^^^ syndrome w := by
  simp only [syndrome, wordData_xor, wordCheck_xor, checkByte_xor]
  ac_rfl

theorem wordData_storedWord (d : W64) : wordData (storedWord d) = d := by
  unfold wordData storedWord
  ext i hi
  simp

theorem wordCheck_storedWord (d : W64) : wordCheck (storedWord d) = checkByte d := by
  unfold wordCheck storedWord
  ext i hi
  have hlow : i < 72 := by omega
  have hhigh : 64 + i < 72 := by omega
  simp [BitVec.getLsbD_eq_getElem hi, hlow, hhigh]

theorem syndrome_storedWord (d : W64) : syndrome (storedWord d) = 0 := by
  rw [syndrome, wordData_storedWord, wordCheck_storedWord]
  exact BitVec.xor_self

/-! ### Errors -/

/-- One bit in error. -/
def errorBit (i : Nat) : BitVec 72 := BitVec.ofNat 72 (2 ^ i)

theorem decode_errorBit : ∀ i < 72, decodeSyndrome (syndrome (errorBit i)) = if i < 64 then .data i else .check := by decide +kernel

theorem wordData_errorBit : ∀ i < 72, wordData (errorBit i) = if i < 64 then BitVec.ofNat 64 (2 ^ i) else 0 := by decide +kernel

/-- Every single bit shows an odd number of set bits in the syndrome. -/
theorem odd_errorBit : ∀ i < 72, ones8 (syndrome (errorBit i)).toNat % 2 = 1 := by decide +kernel

theorem checkBits_distinct : ∀ i < 8, ∀ j < i, syndrome (errorBit (64 + i)) ≠ syndrome (errorBit (64 + j)) := by decide +kernel

theorem syndrome_errorBit_ne {i j : Nat} (hij : i < j) (hj : j < 72) : syndrome (errorBit i) ≠ syndrome (errorBit j) := by
  intro h
  have hdecode := congrArg decodeSyndrome h
  rw [decode_errorBit i (by omega), decode_errorBit j hj] at hdecode
  by_cases hi : i < 64
  · rw [if_pos hi] at hdecode
    split at hdecode
    · exact absurd (Syn.data.inj hdecode) (by omega)
    · cases hdecode
  · have hne := checkBits_distinct (j - 64) (by omega) (i - 64) (by omega)
    rw [Nat.add_sub_cancel' (by omega), Nat.add_sub_cancel' (by omega)] at hne
    exact hne h.symm

/-- The parity of the set bits is linear. -/
theorem ones8_xor (x y : Nat) : ones8 (x ^^^ y) % 2 = (ones8 x + ones8 y) % 2 := by
  unfold ones8
  generalize List.range 8 = l
  induction l with
  | nil => rfl
  | cons i l ih =>
    simp only [List.filter_cons, Nat.testBit_xor] at ih ⊢
    cases x.testBit i <;> cases y.testBit i <;> simp only [Bool.xor_false, Bool.xor_true, Bool.not_false, Bool.not_true,
      Bool.false_eq_true, if_true, if_false, List.length_cons] <;> omega

theorem ones8_column {c : Nat} (h : c ∈ eccColumns) : ones8 c % 2 = 1 := by
  rcases List.mem_append.mp h with h | h
  · have := (List.mem_filter.mp h).2
    simp_all
  · have := (List.mem_filter.mp (List.mem_of_mem_take h)).2
    simp_all

/-- A syndrome other than 0 with an even number of set bits is of no column and of no check bit. -/
theorem decode_even {y : Byte} (h0 : y ≠ 0) (heven : ones8 y.toNat % 2 = 0) : decodeSyndrome y = .uncorrectable := by
  have hcolumn : eccColumns.findIdx? (fun c => c == y.toNat) = none := by
    rw [List.findIdx?_eq_none_iff]
    intro c hc
    by_contra hcy
    have hodd := ones8_column hc
    rw [show c = y.toNat by simpa using hcy] at hodd
    omega
  have hone : ones8 y.toNat ≠ 1 := by omega
  unfold decodeSyndrome
  rw [if_neg h0, hcolumn]
  exact if_neg hone

theorem storedWord_clean (d : W64) : decodeSyndrome (syndrome (storedWord d)) = .clean := by
  rw [syndrome_storedWord]
  rfl

theorem syndrome_storedWord_xor (d : W64) (e : BitVec 72) : syndrome (storedWord d ^^^ e) = syndrome e := by
  rw [syndrome_xor, syndrome_storedWord]
  exact BitVec.zero_xor

/-- A single error is found and corrected. -/
theorem single_error (d : W64) {i : Nat} (hi : i < 72) :
    correctedData (storedWord d ^^^ errorBit i) = d ∧
      decodeSyndrome (syndrome (storedWord d ^^^ errorBit i)) = if i < 64 then .data i else .check := by
  have hdecode := decode_errorBit i hi
  rw [← syndrome_storedWord_xor d] at hdecode
  refine ⟨?_, hdecode⟩
  have hdata := wordData_errorBit i hi
  unfold correctedData
  rw [hdecode, wordData_xor, wordData_storedWord, hdata]
  split_ifs
  · show (d ^^^ _) ^^^ _ = d
    rw [BitVec.xor_assoc, BitVec.xor_self, BitVec.xor_zero]
  · exact BitVec.xor_zero

/-- Two different errors are found and not corrected. -/
theorem double_error (d : W64) {i j : Nat} (hij : i < j) (hj : j < 72) :
    decodeSyndrome (syndrome (storedWord d ^^^ errorBit i ^^^ errorBit j)) = .uncorrectable := by
  rw [BitVec.xor_assoc, syndrome_storedWord_xor, syndrome_xor]
  refine decode_even (fun h => syndrome_errorBit_ne hij hj (BitVec.xor_eq_zero_iff.mp h)) ?_
  have hi := odd_errorBit i (by omega)
  have hj := odd_errorBit j hj
  rw [BitVec.toNat_xor, ones8_xor]
  omega

/-! ### The scrubber -/

/-- A stored word after the scrubber's visit. -/
def scrubbed (w : BitVec 72) : BitVec 72 :=
  match decodeSyndrome (syndrome w) with
  | .clean | .uncorrectable => w
  | _ => storedWord (correctedData w)

theorem countUe_instrs (s : State) (g t : Nat) (syn : Byte) (src : Nat) : (s.countUe g t syn src).instrs = s.instrs :=
  (State.countUe_only (Closed.sameOn s [.instrs] (by decide)) (s.sameOn_refl _) g t syn src .instrs (by simp)).symm

theorem scrubWord_instrs (s : State) (g t : Nat) : (s.scrubWord g t).instrs = s.instrs ∧
      (∀ w, SMap.find s.instrs (g * 4096 + t) = some w → scrubbed w = w) ∨
    ∃ w, SMap.find s.instrs (g * 4096 + t) = some w ∧ (s.scrubWord g t).instrs = SMap.put s.instrs (g * 4096 + t) (scrubbed w) := by
  unfold State.scrubWord
  cases hfind : SMap.find s.instrs (g * 4096 + t) with
  | none => exact .inl ⟨rfl, by simp⟩
  | some w =>
    dsimp only
    unfold scrubbed
    split
    · next hsyn => exact .inl ⟨rfl, by rintro x ⟨⟩; rw [hsyn]⟩
    · next hsyn => exact .inl ⟨countUe_instrs _ _ _ _ _, by rintro x ⟨⟩; rw [hsyn]⟩
    · next hclean hue =>
      refine .inr ⟨w, rfl, ?_⟩
      show SMap.put _ _ _ = _
      split
      · next hsyn => exact absurd hsyn hclean
      · next hsyn => exact absurd hsyn hue
      · rfl

theorem find_scrubWord (s : State) (g t k : Nat) : SMap.find (s.scrubWord g t).instrs k =
    if k = g * 4096 + t then (SMap.find s.instrs k).map scrubbed else SMap.find s.instrs k := by
  rcases scrubWord_instrs s g t with ⟨hsame, hfix⟩ | ⟨w, hw, hput⟩
  · rw [hsame]
    split
    · next hk =>
      cases hfind : SMap.find s.instrs k with
      | none => rfl
      | some w => exact congrArg some (hfix w (hk ▸ hfind)).symm
    · rfl
  · rw [hput, SMap.find_put]
    split
    · next hk => rw [hk, hw, Option.map_some]
    · rfl

/-- The words of `n` strands of a cord at step `t`. -/
theorem find_scrubWords (s : State) (c t : Nat) (ht : t < 4096) (n : Nat) (hn : n ≤ 1024) (k : Nat) :
    SMap.find (s.each (List.range n) fun s m => s.scrubWord (c * 1024 + m) t).instrs k =
      if k / 4096 / 1024 = c ∧ k % 4096 = t ∧ k / 4096 % 1024 < n then (SMap.find s.instrs k).map scrubbed else SMap.find s.instrs k := by
  induction n with
  | zero =>
    rw [if_neg (by omega)]
    rfl
  | succ n ih =>
    have hsplit : ∀ f : State → Nat → State, s.each (List.range (n + 1)) f = f (s.each (List.range n) f) n := fun f => by
      simp [State.each, List.range_succ, List.foldl_append]
    rw [hsplit, find_scrubWord, ih (by omega)]
    by_cases hk : k = (c * 1024 + n) * 4096 + t
    · rw [if_pos hk, if_neg (by omega), if_pos (by omega)]
    · rw [if_neg hk]
      by_cases hin : k / 4096 / 1024 = c ∧ k % 4096 = t ∧ k / 4096 % 1024 < n
      · rw [if_pos hin, if_pos (by omega)]
      · rw [if_neg hin, if_neg (by omega)]

theorem scrub_idle {s : State} {c : Nat} (h : s.cordOn c = false ∨ s.isolated c = true ∨ s.bit (F.CRD_SCRUB_EN c) = false ∨
    s.coreIdle = false ∨ s.fget F.PWR_STAT_STATE ≠ 0) : s.scrub c = s := by
  unfold State.scrub
  refine if_neg ?_
  rcases h with h | h | h | h | h <;> simp [h]

/-- The state after the scrubber's visit to a step's words, before the pointer moves. -/
def State.scrubWords (s : State) (c t : Nat) : State := s.each (List.range 1024) fun s n => s.scrubWord (c * 1024 + n) t

theorem scrub_eq {s : State} {c : Nat} (hon : s.cordOn c = true) (hiso : s.isolated c = false)
    (hen : s.bit (F.CRD_SCRUB_EN c) = true) (hidle : s.coreIdle = true) (hrun : s.fget F.PWR_STAT_STATE = 0) :
    s.scrub c =
      let t := s.fget (F.CRD_SCRUB_PTR c)
      let u := (s.scrubWords c t).fset (F.CRD_SCRUB_PTR c) (t + 1)
      if t = 4095 then u.countWrap (F.CRD_SCRUB_PASS_PASSES c) 1 else u := by
  unfold State.scrub
  simp only [hon, hiso, hen, hidle, hrun, Bool.not_false, Bool.and_self, beq_self_eq_true, if_true]
  rfl

theorem scrub_pointer {s : State} {c : Nat} (hon : s.cordOn c = true) (hiso : s.isolated c = false)
    (hen : s.bit (F.CRD_SCRUB_EN c) = true) (hidle : s.coreIdle = true) (hrun : s.fget F.PWR_STAT_STATE = 0) :
    (s.scrub c).fget (F.CRD_SCRUB_PTR c) = (s.fget (F.CRD_SCRUB_PTR c) + 1) % 4096 ∧
      (s.scrub c).instrs = (s.scrubWords c (s.fget (F.CRD_SCRUB_PTR c))).instrs := by
  rw [scrub_eq hon hiso hen hidle hrun]
  have hptr := State.fget_fset (s.scrubWords c (s.fget (F.CRD_SCRUB_PTR c))) (F.CRD_SCRUB_PTR c) (s.fget (F.CRD_SCRUB_PTR c) + 1) (by simp)
  dsimp only
  split
  · refine ⟨(State.fget_fset_apart _ _ _ _ (by simp) (.inl ?_)).trans hptr, by rw [State.countWrap_instrs, State.fset_instrs]⟩
    simp only [ne_eq]
    omega
  · exact ⟨hptr, by rw [State.fset_instrs]⟩

/-- Settles O12: the code finds errors by the parity of the syndrome, and the scrubber visits each word of the step once. -/
theorem instructionEcc : Obligations.InstructionEcc := by
  unfold Obligations.InstructionEcc
  refine ⟨fun d => ⟨storedWord_clean d, fun i hi => single_error d hi, fun i j hij hj => double_error d hij hj⟩,
    fun cord s hon hiso hen hidle hrun => ?_, fun cord s h => congrArg Host.Outcome.next (scrub_idle h)⟩
  obtain ⟨hptr, hinstrs⟩ := scrub_pointer hon hiso hen hidle hrun
  have hkeeps : s.sameOn [.strands, .reports] (s.scrub cord.toNat) :=
    State.scrub_only (Closed.sameOn s _ (by decide)) (s.sameOn_refl _) cord.toNat
  refine ⟨_, rfl, hptr, (hkeeps .strands (by simp)).symm, (hkeeps .reports (by simp)).symm, fun k => ?_⟩
  have ht : s.fget (F.CRD_SCRUB_PTR cord.toNat) < 4096 := s.fget_lt (F.CRD_SCRUB_PTR cord.toNat)
  have hlt : k / 4096 % 1024 < 1024 := Nat.mod_lt _ (by decide)
  rw [hinstrs, State.scrubWords, find_scrubWords s _ _ ht 1024 le_rfl k]
  cases SMap.find s.instrs k with
  | none => simp
  | some w =>
    simp only [hlt, and_true, Option.map_some]
    unfold scrubbed
    cases decodeSyndrome (syndrome w) <;> rfl

end Sys2Proof.Machine
end

section
/-! Early-start prefixes: start and cancellation (R44, R77, R84, R85). -/

namespace Sys2Proof.Machine

theorem exec_prefixStart_runs {s : State} (h : s.prefixMayStart = true) :
    exec .prefixStart s = .next { s with core := { s.core with phase := .early, cur := none } } := if_pos h

theorem exec_prefixStart_idle {s : State} (h : s.prefixMayStart = false) : exec .prefixStart s = .next s :=
  if_neg (by simp [h])

theorem exec_prefixCancel_runs {s : State} (hphase : s.core.phase = .early) (hhold : s.prefixHold = true) :
    exec .prefixCancel s = .next s.cancelPrefix := if_pos ⟨hphase, hhold⟩

theorem exec_prefixCancel_idle {s : State} (h : s.core.phase ≠ .early ∨ s.prefixHold = false) : exec .prefixCancel s = .next s :=
  if_neg fun hc => by
    obtain ⟨hphase, hhold⟩ := hc
    rcases h with h | h
    · exact h hphase
    · exact absurd (h.symm.trans hhold) (by decide)

/-! ### Clearing the ring -/

theorem clearBights_ring (s : State) (p : Bight → Bool) :
    (s.clearBights p).ring = { s.ring with bights := s.ring.bights.filter fun b => !p b } := by
  have hring : ∀ l : List Bight, (s.each l fun s b => s.count (stnStray b.stn) 1).ring = s.ring := fun l =>
    State.each_keeps (fun t => t.ring) fun t b _ => t.count_ring _ _
  unfold State.clearBights
  simp only [hring]

theorem clearBights_strandOn (s : State) (p : Bight → Bool) (g : Nat) : (s.clearBights p).strandOn g = s.strandOn g := by
  have himage : (s.clearBights p).image = s.image :=
    (State.clearBights_only (Closed.sameOn s [.image] (by decide)) (s.sameOn_refl _) p .image (by simp)).symm
  have hpart : (s.clearBights p).part = s.part :=
    (State.clearBights_only ((closed_identityOf s).mono rfl) ⟨rfl, rfl, rfl⟩ p).2.1
  have hiso : (s.clearBights p).isolated (gCord g) = s.isolated (gCord g) :=
    State.bit_congr _ (clearBights_reg s p (by simp only; omega))
  unfold State.strandOn State.cordOn State.cordHere State.big
  rw [himage, hpart, hiso]

/-! ### What a cancellation sets -/

theorem cancelProbes_reg (s : State) {a : Nat} (h : ¬ observedWord a) : s.cancelProbes.reg a = s.reg a :=
  State.each_keeps (fun t => t.reg a) fun t _ _ => traceOffer_reg t _ h

theorem cancelProbes_ring (s : State) : s.cancelProbes.ring = { s.ring with specProbes := [] } := by
  have hring : ∀ l : List Nat, (s.each l fun s n => s.traceOffer (.cancel (BitVec.ofNat 6 n))).ring = s.ring := fun l =>
    State.each_keeps (fun t => t.ring) fun t n _ =>
      (State.traceOffer_only (Closed.sameOn t [.ring] (by decide)) (t.sameOn_refl _) _ .ring (by simp)).symm
  unfold State.cancelProbes
  simp only [hring]

/-- The strands of a state whose early start is cancelled. -/
def State.cancelledStrands (s : State) : SMap Strand :=
  SMap.mapv (fun _ => ({} : Strand)) (fun g x => if s.strandOn g then x.cancel else x) s.strands

/-- A cancellation before it counts itself: the ring cleared, the strands put back, the probes told. -/
def State.prefixCleared (s : State) : State :=
  { s.clearBights fun _ => true with strands := (s.clearBights fun _ => true).cancelledStrands }.cancelProbes

theorem cancelPrefix_eq (s : State) : ∃ core : Core, s.cancelPrefix =
      { (s.prefixCleared.count F.TURN_CANCEL_CNT_COUNT 1).fset F.TURN_STAT_CANCELLED 1 with
        ring := { s.prefixCleared.ring with specInj := [] }, core } ∧ core.outPend = s.prefixCleared.core.outPend :=
  ⟨_, rfl, rfl⟩

theorem cancelPrefix_strands (s : State) : s.cancelPrefix.strands = s.prefixCleared.strands := by
  obtain ⟨core, heq, -⟩ := cancelPrefix_eq s
  rw [heq, State.fset_strands, State.count_strands]

theorem cancelPrefix_bights (s : State) : s.cancelPrefix.ring.bights = s.prefixCleared.ring.bights := by
  obtain ⟨core, heq, -⟩ := cancelPrefix_eq s
  rw [heq]

theorem cancelPrefix_outPend (s : State) : s.cancelPrefix.core.outPend = s.prefixCleared.core.outPend := by
  obtain ⟨core, heq, hout⟩ := cancelPrefix_eq s
  rw [heq, ← hout]

theorem cancelPrefix_fget (s : State) (f : Fld) : s.cancelPrefix.fget f =
    ((s.prefixCleared.count F.TURN_CANCEL_CNT_COUNT 1).fset F.TURN_STAT_CANCELLED 1).fget f := by
  obtain ⟨core, heq, -⟩ := cancelPrefix_eq s
  rw [heq]
  simp only [State.fget, State.reg]

theorem prefixCleared_bights (s : State) : s.prefixCleared.ring.bights = [] := by
  rw [State.prefixCleared, cancelProbes_ring]
  show (s.clearBights _).ring.bights = []
  rw [clearBights_ring]
  exact List.filter_eq_nil_iff.mpr fun _ _ => by simp

theorem prefixCleared_reg (s : State) {a : Nat} (h : ¬ observedWord a) (hstray : a % 0x100 ≠ 4) : s.prefixCleared.reg a = s.reg a :=
  (cancelProbes_reg _ h).trans (clearBights_reg s _ hstray)

theorem prefixCleared_core (s : State) : s.prefixCleared.core = s.core :=
  have hclear : (s.clearBights fun _ => true).core = s.core :=
    (State.clearBights_only (Closed.sameOn s [.core] (by decide)) (s.sameOn_refl _) _ .core (by simp)).symm
  (State.cancelProbes_only (Closed.sameOn _ [.core] (by decide)) (State.sameOn_refl _ _) .core (by simp)).symm.trans hclear

theorem prefixCleared_strands (s : State) : s.prefixCleared.strands = (s.clearBights fun _ => true).cancelledStrands :=
  (State.cancelProbes_only (Closed.sameOn _ [.strands] (by decide)) (State.sameOn_refl _ _) .strands (by simp)).symm

theorem cancel_default : ({} : Strand).cancel = {} := rfl

theorem cancelPrefix_strand {s : State} {g : Nat} (h : s.strandOn g = true) : s.cancelPrefix.strand g = (s.strand g).cancel := by
  have hclear : (s.clearBights fun _ => true).strands = s.strands :=
    (State.clearBights_only (Closed.sameOn s [.strands] (by decide)) (s.sameOn_refl _) _ .strands (by simp)).symm
  unfold State.strand
  rw [cancelPrefix_strands, prefixCleared_strands, State.cancelledStrands, hclear, SMap.get_mapv]
  · rw [clearBights_strandOn, if_pos h]
  · rw [cancel_default, ite_self]

/-- Clearing valid bits keeps the values of the latches. -/
theorem latch_cancel (x : Strand) (m : Nat) : x.cancel.latch m = { val := (x.latch m).val } :=
  SMap.get_mapv (fun _ => ({} : Latch)) (fun _ l => { val := l.val }) x.inbox m rfl

/-- Settles O17: the start and the cancellation run exactly under their conditions, and a cancelled strand is `Strand.cancel`. -/
theorem turnPrefix : Obligations.TurnPrefix := by
  unfold Obligations.TurnPrefix
  refine ⟨fun s himage hphase hstarted hok hen hE hhold => exec_prefixStart_runs ?_, fun s h => exec_prefixStart_idle ?_,
    fun s hphase hhold => ?_, fun s h => exec_prefixCancel_idle h⟩
  · simp [State.prefixMayStart, himage, hphase, hstarted, hok, hen, hE, hhold]
  · unfold State.prefixMayStart
    rcases h with h | h | h | h | h | h | h <;> simp [h]
  · have hexec := exec_prefixCancel_runs hphase hhold
    have hkeeps : s.sameOn [.instrs, .ports] s.cancelPrefix :=
      State.cancelPrefix_only (Closed.sameOn s _ (by decide)) (s.sameOn_refl _)
    have hstrand := fun g (hg : s.strandOn g = true) => cancelPrefix_strand hg
    refine ⟨_, hexec, rfl, rfl, rfl, rfl, (cancelPrefix_bights s).trans (prefixCleared_bights s), ?_, (hkeeps .instrs (by simp)).symm,
      (hkeeps .ports (by simp)).symm, (cancelPrefix_outPend s).trans (congrArg Core.outPend (prefixCleared_core s)),
      fun _ => ⟨?_, fun g hg => ?_⟩⟩
    · rw [State.bit, cancelPrefix_fget]
      exact State.bit_fset_one _ F.TURN_STAT_CANCELLED (by decide) (by decide)
    · have hcount : s.prefixCleared.fget F.TURN_CANCEL_CNT_COUNT = s.fget F.TURN_CANCEL_CNT_COUNT :=
        State.fget_congr _ (prefixCleared_reg s (by simp [observedWord, R.HST_EVT]) (by decide))
      rw [cancelPrefix_fget, State.fget_fset_apart _ _ _ _ (by decide) (.inl (by decide)), fget_count_self _ (by decide), hcount]
      exact satAdd_one_word _
    · intro x
      rw [hstrand g hg]
      exact ⟨rfl, rfl, rfl, rfl, fun m => by rw [latch_cancel]; exact ⟨rfl, rfl⟩⟩

end Sys2Proof.Machine
end

section
/-! Bights arriving at a station (R37, R98, R99, R100, R104, R105). -/

namespace Sys2Proof.Machine

/-! ### Bights on links -/

theorem probeHit_ring (s : State) (n bytes : Nat) (r : TraceRec) : (s.probeHit n bytes r).ring = s.ring :=
  (State.probeHit_only (Closed.sameOn s [.ring] (by decide)) (s.sameOn_refl _) n bytes r .ring (by simp)).symm

theorem probeBight_bights (s : State) (stn side pos step : Nat) (val spec : Bool) :
    (s.probeBight stn side pos step val spec).ring.bights = s.ring.bights :=
  State.each_keeps (fun t => t.ring.bights) fun t n _ => by
    have hhit : ∀ bytes r, (t.probeHit n bytes r).ring.bights = t.ring.bights := fun bytes r =>
      congrArg Ring.bights (probeHit_ring t n bytes r)
    dsimp only
    split_ifs
    · exact hhit _ _
    · exact hhit _ _
    · exact hhit _ _
    · exact hhit _ _
    · rfl

/-- What a launch puts on a link. -/
def State.launched (s : State) (stn dir pos step : Nat) (val spec : Bool) : List Bight :=
  match linkOf s.closed stn dir with
  | none => []
  | some (far, bridge) => [⟨far, dir, pos, val, step + (if bridge then s.bridgeCost else 1), spec⟩]

theorem launch_bights (s : State) (stn dir pos step : Nat) (val spec : Bool) :
    (s.launch stn dir pos step val spec).ring.bights = s.ring.bights ++ s.launched stn dir pos step val spec := by
  unfold State.launch State.launched
  cases linkOf s.closed stn dir with
  | none => exact (List.append_nil _).symm
  | some p =>
    dsimp only
    split
    · exact probeBight_bights _ _ _ _ _ _ _
    · rfl

theorem launched_later (s : State) (stn dir pos step : Nat) (val spec : Bool) :
    ∀ c ∈ s.launched stn dir pos step val spec, step < c.at_ := by
  unfold State.launched State.bridgeCost
  split
  · exact fun _ hc => absurd hc List.not_mem_nil
  · intro c hc
    rw [List.mem_singleton.mp hc]
    dsimp only
    split_ifs <;> omega

/-- The bights of `t` are those of `s` and later ones. -/
def State.onlyLater (s t : State) (step : Nat) : Prop := ∃ l, t.ring.bights = s.ring.bights ++ l ∧ ∀ c ∈ l, step < c.at_

theorem State.onlyLater_refl (s : State) (step : Nat) : s.onlyLater s step := ⟨[], (List.append_nil _).symm, by simp⟩

theorem State.onlyLater.congr {s t u : State} {step : Nat} (h : s.onlyLater t step) (hu : u.ring.bights = t.ring.bights) :
    s.onlyLater u step := by
  obtain ⟨l, hl, hlater⟩ := h
  exact ⟨l, hu.trans hl, hlater⟩

theorem State.onlyLater.launch {s t : State} {step : Nat} (h : s.onlyLater t step) (stn dir pos : Nat) (val spec : Bool) :
    s.onlyLater (t.launch stn dir pos step val spec) step := by
  obtain ⟨l, hl, hlater⟩ := h
  refine ⟨l ++ t.launched stn dir pos step val spec, ?_, fun c hc => ?_⟩
  · rw [launch_bights, hl, List.append_assoc]
  · rcases List.mem_append.mp hc with hc | hc
    · exact hlater c hc
    · exact launched_later t _ _ _ _ _ _ c hc

/-! ### Deliveries -/

section

variable {s : State} {stn t dir pos e : Nat} {v : Bool}

theorem deliver_ring : (s.deliver stn t dir pos e v).ring = s.ring :=
  (State.deliver_only (Closed.sameOn s [.ring] (by decide)) (s.sameOn_refl _) stn t dir pos e v .ring (by simp)).symm

theorem deliver_outranked (hiso : s.isolated stn = false) (hout : s.outranked stn t e (dir * 64 + pos) = true) :
    s.deliver stn t dir pos e v = (s.stepFault (stn * 1024 + entryStrand e) t 6
      (0x0105, stn * 2 ^ 8 + dir * 2 ^ 5 + entryTag e, accBight)).count (F.STN_COLL_COUNT stn) 1 := by
  unfold State.deliver
  simp only [hiso, hout, if_true, Bool.false_eq_true, if_false]

/-- The strand that an entry names, with a bight delivered to its latch. -/
def State.withDelivery (s : State) (stn t dir pos e : Nat) (v : Bool) : State :=
  s.setStrand (stn * 1024 + entryStrand e) ((s.strand (stn * 1024 + entryStrand e)).setLatch (entryTag e)
    (((s.strand (stn * 1024 + entryStrand e)).latch (entryTag e)).deliver t (dir * 64 + pos) v))

theorem deliver_latched (hiso : s.isolated stn = false) (hout : s.outranked stn t e (dir * 64 + pos) = false) :
    s.deliver stn t dir pos e v =
      if ((s.strand (stn * 1024 + entryStrand e)).latch (entryTag e)).valid = true ∧ (!s.reruns stn t) = true then
        (s.withDelivery stn t dir pos e v).stepFault (stn * 1024 + entryStrand e) t 6
          (0x0106, stn * 2 ^ 8 + dir * 2 ^ 5 + entryTag e, accBight)
      else s.withDelivery stn t dir pos e v := by
  unfold State.deliver State.withDelivery
  simp only [hiso, hout, Bool.false_eq_true, if_false]

theorem latch_setLatch (x : Strand) (m k : Nat) (l : Latch) : (x.setLatch m l).latch k = if k = m then l else x.latch k :=
  SMap.get_set _ _ _ _ _

theorem deliver_latched_strand (hiso : s.isolated stn = false) (hout : s.outranked stn t e (dir * 64 + pos) = false) (h : Nat) :
    (s.deliver stn t dir pos e v).strand h = (s.withDelivery stn t dir pos e v).strand h := by
  rw [deliver_latched hiso hout]
  split
  · exact strand_stepFault _ _ _ _ _ _
  · rfl

theorem deliver_strand_ne {h : Nat} (hne : h ≠ stn * 1024 + entryStrand e) : (s.deliver stn t dir pos e v).strand h = s.strand h := by
  by_cases hiso : s.isolated stn = true
  · unfold State.deliver
    simp only [hiso, if_true]
  · have hiso := Bool.eq_false_iff.mpr hiso
    cases hout : s.outranked stn t e (dir * 64 + pos) with
    | true =>
      rw [deliver_outranked hiso hout]
      exact strand_stepFault _ _ _ _ _ _
    | false =>
      rw [deliver_latched_strand hiso hout]
      exact (strand_setStrand _ _ _ _).trans (if_neg hne)

theorem gCord_entry (stn e : Nat) : gCord (stn * 1024 + entryStrand e) = stn := by
  have : entryStrand e < 1024 := Nat.mod_lt _ (by decide)
  unfold gCord
  omega

end

/-! ### Arrivals -/

section

variable {s : State} {b : Bight}

/-- The entries of the station's output table that forward an arriving bight. -/
def State.forwards (s : State) (b : Bight) : List (Nat × Nat) :=
  (s.outEntries b.stn b.at_).filter fun x => entryKind x.2 = 2 ∧ entryInDir x.2 = b.dir ∧ entryInPos x.2 = b.pos

/-- The forwarding of an arriving bight. -/
def State.forward (s : State) (b : Bight) (l : List (Nat × Nat)) : State :=
  s.each l fun s x => s.launch b.stn (x.1 / 64) (x.1 % 64) b.at_ b.val b.spec

/-- The delivery record that an arriving bight meets: end stations have none. -/
def State.recordFor (s : State) (b : Bight) : Nat := if b.stn < 0x80 then s.delivEntry b.stn b.at_ b.dir b.pos else 0

theorem arrive_delivered (h : entryKind (s.recordFor b) = 1) :
    s.arrive b = ((s.deliver b.stn b.at_ b.dir b.pos (s.recordFor b) b.val).probeBight b.stn 4 b.pos b.at_ b.val b.spec).forward b (s.forwards b) := by
  unfold State.arrive
  unfold State.recordFor at h ⊢
  dsimp only
  rw [if_pos h, if_neg fun hstray => hstray.1 h]
  rfl

theorem arrive_passing (h : entryKind (s.recordFor b) ≠ 1) :
    s.arrive b = if s.forwards b = [] then s.count (stnStray b.stn) 1 else s.forward b (s.forwards b) := by
  unfold State.arrive
  unfold State.recordFor at h
  dsimp only
  rw [if_neg h]
  by_cases hnone : s.forwards b = []
  · rw [if_pos hnone]
    unfold State.forwards at hnone
    rw [if_pos ⟨h, hnone⟩, hnone]
    rfl
  · rw [if_neg hnone]
    exact if_neg fun hstray => hnone hstray.2

theorem recordFor_cord (h : b.stn < 0x80) : s.recordFor b = s.delivEntry b.stn b.at_ b.dir b.pos := if_pos h

/-- A bight whose station has no delivery record for it is not delivered. -/
theorem recordFor_passing (h : b.stn < 0x80 → entryKind (s.delivEntry b.stn b.at_ b.dir b.pos) ≠ 1) : entryKind (s.recordFor b) ≠ 1 := by
  by_cases hstn : b.stn < 0x80
  · rw [recordFor_cord hstn]
    exact h hstn
  · rw [State.recordFor, if_neg hstn]
    decide

theorem forward_strand (s : State) (b : Bight) (l : List (Nat × Nat)) (h : Nat) : (s.forward b l).strand h = s.strand h :=
  State.each_keeps (fun t => t.strand h) fun t _ _ =>
    strand_of_same (State.launch_only (Closed.sameOn t _ (by decide)) (t.sameOn_refl _) _ _ _ _ _ _) h

theorem forward_onlyLater {u : State} (h : u.onlyLater s b.at_) (l : List (Nat × Nat)) : u.onlyLater (s.forward b l) b.at_ :=
  State.each_inv (P := fun t => u.onlyLater t b.at_) h fun _ _ _ ht => ht.launch _ _ _ _ _

theorem arrive_onlyLater (s : State) (b : Bight) : s.onlyLater (s.arrive b) b.at_ := by
  by_cases h : entryKind (s.recordFor b) = 1
  · rw [arrive_delivered h]
    exact forward_onlyLater ((s.onlyLater_refl _).congr ((probeBight_bights _ _ _ _ _ _ _).trans (congrArg Ring.bights deliver_ring))) _
  · rw [arrive_passing h]
    split
    · exact (s.onlyLater_refl _).congr (congrArg Ring.bights (s.count_ring _ _))
    · exact forward_onlyLater (s.onlyLater_refl _) _

/-- After a delivery the probe and the forwarding change neither a strand nor a report. -/
theorem arrive_delivered_sameOn (h : entryKind (s.recordFor b) = 1) :
    (s.deliver b.stn b.at_ b.dir b.pos (s.recordFor b) b.val).sameOn [.strands, .reports] (s.arrive b) := by
  rw [arrive_delivered h]
  exact State.each_inv (P := State.sameOn _ [.strands, .reports])
    (State.probeBight_only (Closed.sameOn _ _ (by decide)) (State.sameOn_refl _ _) _ _ _ _ _ _) fun _ _ _ ht =>
      State.launch_only (Closed.sameOn _ _ (by decide)) ht _ _ _ _ _ _

theorem arrive_delivered_strand (h : entryKind (s.recordFor b) = 1) (k : Nat) :
    (s.arrive b).strand k = (s.deliver b.stn b.at_ b.dir b.pos (s.recordFor b) b.val).strand k :=
  strand_of_same (fun p hp => arrive_delivered_sameOn h p (by simp_all)) k

theorem arrive_delivered_reports (h : entryKind (s.recordFor b) = 1) :
    (s.arrive b).reports = (s.deliver b.stn b.at_ b.dir b.pos (s.recordFor b) b.val).reports :=
  (arrive_delivered_sameOn h .reports (by simp)).symm

theorem arrive_strand_far {k : Nat} (hk : k / 1024 ≠ b.stn) : (s.arrive b).strand k = s.strand k := by
  by_cases h : entryKind (s.recordFor b) = 1
  · rw [arrive_delivered_strand h]
    refine deliver_strand_ne fun e => hk ?_
    rw [e]
    exact gCord_entry b.stn (s.recordFor b)
  · rw [arrive_passing h]
    split
    · rfl
    · exact forward_strand _ _ _ _

theorem arrive_delivered_reg (h : entryKind (s.recordFor b) = 1) {a : Nat} (ha : ¬ observedWord a) :
    (s.arrive b).reg a = (s.deliver b.stn b.at_ b.dir b.pos (s.recordFor b) b.val).reg a := by
  rw [arrive_delivered h]
  exact (State.each_keeps (fun t => t.reg a) fun t _ _ => launch_reg t _ _ _ _ _ _ ha).trans (probeBight_reg _ _ _ _ _ _ _ ha)

end

/-! ### The command -/

/-- The state with a bight taken from its link. -/
def State.without (s : State) (b : Bight) : State :=
  { s with ring := { s.ring with bights := s.ring.bights.filter (· != b) } }

theorem exec_bightDelivery_none {stn : StnId} {dir : BitVec 3} {pos : BitVec 6} {s : State}
    (h : s.bightAt stn.toNat dir.toNat pos.toNat = none) : exec (.bightDelivery stn dir pos) s = .next s := by
  show execBightDelivery stn dir pos s = _
  unfold execBightDelivery
  rw [h]

theorem exec_bightDelivery_some {stn : StnId} {dir : BitVec 3} {pos : BitVec 6} {s : State} {b : Bight}
    (h : s.bightAt stn.toNat dir.toNat pos.toNat = some b) : exec (.bightDelivery stn dir pos) s = .next ((s.without b).arrive b) := by
  show execBightDelivery stn dir pos s = _
  unfold execBightDelivery
  rw [h]
  rfl

/-- A delivery that no lower bight outranks: the latch, and the report of a latch that was valid. -/
theorem arrive_latched {s : State} {b : Bight} (hstn : b.stn < 0x80) (hkind : entryKind (s.delivEntry b.stn b.at_ b.dir b.pos) = 1)
    (hiso : s.isolated b.stn = false)
    (hout : s.outranked b.stn b.at_ (s.delivEntry b.stn b.at_ b.dir b.pos) (b.dir * 64 + b.pos) = false) :
    (∀ k, (s.arrive b).strand k =
      (s.withDelivery b.stn b.at_ b.dir b.pos (s.delivEntry b.stn b.at_ b.dir b.pos) b.val).strand k) ∧
      (((s.strand (b.stn * 1024 + entryStrand (s.delivEntry b.stn b.at_ b.dir b.pos))).latch
          (entryTag (s.delivEntry b.stn b.at_ b.dir b.pos))).valid = true → s.reruns b.stn b.at_ = false →
        s.srcOn b.stn = true → (s.arrive b).told b.stn 0x0106) := by
  rw [← recordFor_cord hstn] at hkind hout ⊢
  refine ⟨fun k => (arrive_delivered_strand hkind k).trans (deliver_latched_strand hiso hout k), fun hvalid hrerun hon => ?_⟩
  refine State.told.congr (s := s.deliver b.stn b.at_ b.dir b.pos (s.recordFor b) b.val) ?_ (arrive_delivered_reports hkind)
  rw [deliver_latched hiso hout, if_pos ⟨hvalid, by simp [hrerun]⟩]
  have hcord := gCord_entry b.stn (s.recordFor b)
  have htold := told_stepFault (s := s.withDelivery b.stn b.at_ b.dir b.pos (s.recordFor b) b.val)
    (g := b.stn * 1024 + entryStrand (s.recordFor b)) (t := b.at_) (ord := 6)
    (f := (0x0106, b.stn * 2 ^ 8 + b.dir * 2 ^ 5 + entryTag (s.recordFor b), accBight)) (by rw [hcord]; exact hon)
  rwa [hcord] at htold

/-- A bight that a lower one outranks: discarded, counted and reported. -/
theorem arrive_outranked {s : State} {b : Bight} (hstn : b.stn < 0x80) (hkind : entryKind (s.delivEntry b.stn b.at_ b.dir b.pos) = 1)
    (hiso : s.isolated b.stn = false)
    (hout : s.outranked b.stn b.at_ (s.delivEntry b.stn b.at_ b.dir b.pos) (b.dir * 64 + b.pos) = true) :
    (s.arrive b).strands = s.strands ∧
      (s.arrive b).fget (F.STN_COLL_COUNT b.stn) = satAdd (2 ^ 32 - 1) (s.fget (F.STN_COLL_COUNT b.stn)) 1 ∧
      (s.srcOn b.stn = true → (s.arrive b).told b.stn 0x0105) := by
  rw [← recordFor_cord hstn] at hkind hout
  have hdeliver := deliver_outranked (v := b.val) hiso hout
  have hcord := gCord_entry b.stn (s.recordFor b)
  refine ⟨?_, ?_, fun hon => ?_⟩
  · rw [← arrive_delivered_sameOn hkind .strands (by simp), hdeliver, State.count_strands]
    exact State.raise_strands _ _
  · have hword : ¬ stepWord (F.STN_COLL_COUNT b.stn).addr := by simp only [stepWord, observedWord, R.HST_EVT]; omega
    rw [State.fget_congr _ (arrive_delivered_reg hkind fun ho => hword (.inl ho)), hdeliver, fget_count_self _ (by simp),
      State.fget_congr _ (stepFault_reg s _ _ _ _ hword)]
  · refine State.told.congr (s := s.deliver b.stn b.at_ b.dir b.pos (s.recordFor b) b.val) ?_ (arrive_delivered_reports hkind)
    have htold := told_stepFault (s := s) (g := b.stn * 1024 + entryStrand (s.recordFor b)) (t := b.at_) (ord := 6)
      (f := (0x0105, b.stn * 2 ^ 8 + b.dir * 2 ^ 5 + entryTag (s.recordFor b), accBight)) (by rw [hcord]; exact hon)
    rw [hdeliver]
    rw [hcord] at htold
    exact htold.congr (State.count_reports _ _ _)

theorem bightAt_mem {s : State} {stn dir pos : Nat} {b : Bight} (h : s.bightAt stn dir pos = some b) : b ∈ s.ring.bights := by
  unfold State.bightAt at h
  split at h
  · cases h
  · exact List.mem_of_find?_eq_some h

theorem launched_mem {s : State} {stn d p step far : Nat} {bridge val spec : Bool} (h : linkOf s.closed stn d = some (far, bridge)) :
    (⟨far, d, p, val, step + (if bridge then (if s.bit F.NOC_STAT_PROFILE then 4 else 6) else 1), spec⟩ : Bight) ∈
      (s.launch stn d p step val spec).ring.bights := by
  rw [launch_bights, State.launched, h]
  exact List.mem_append_right _ List.mem_cons_self

/-- In every case the bight leaves the link, the others stay, and no strand of another station changes. -/
theorem arrive_without (s : State) (b : Bight) : b ∉ ((s.without b).arrive b).ring.bights ∧
    (∀ c ∈ s.ring.bights, c ≠ b → c ∈ ((s.without b).arrive b).ring.bights) ∧
    (∀ h, h / 1024 ≠ b.stn → ((s.without b).arrive b).strand h = s.strand h) ∧
    ((s.without b).arrive b).core = s.core ∧ ((s.without b).arrive b).mem = s.mem := by
  obtain ⟨l, hl, hlater⟩ := arrive_onlyLater (s.without b) b
  have hkeeps : (s.without b).sameOn [.core, .mem] ((s.without b).arrive b) :=
    State.arrive_only (Closed.sameOn _ _ (by decide)) (State.sameOn_refl _ _) b
  refine ⟨fun hb => ?_, fun c hc hne => ?_, fun h hh => arrive_strand_far hh, (hkeeps .core (by simp)).symm, (hkeeps .mem (by simp)).symm⟩
  · rw [hl] at hb
    rcases List.mem_append.mp hb with hb | hb
    · simp [State.without] at hb
    · exact absurd (hlater b hb) (lt_irrefl _)
  · rw [hl]
    exact List.mem_append_left _ (List.mem_filter.mpr ⟨hc, by simpa using hne⟩)

/-- Settles O19: what an arrival does, by the delivery record and the forward entries that the bight meets. -/
theorem bightDelivery : Obligations.BightDelivery := by
  unfold Obligations.BightDelivery
  refine ⟨fun stn dir pos s h => exec_bightDelivery_none h, fun stn dir pos s b h => ?_⟩
  intro u e g forwards
  have hexec := exec_bightDelivery_some h
  have hcord : gCord g = b.stn := gCord_entry b.stn e
  refine ⟨⟨_, hexec, arrive_without s b⟩, fun hstn hkind hiso hout => ?_, fun hstn hkind hiso hout => ?_, fun hkind hnone => ?_,
    fun x hkind hone => ?_, fun d p far bridge hlink => launched_mem hlink⟩
  · obtain ⟨hstrand, htold⟩ := arrive_latched (s := u) hstn hkind hiso hout
    have hself : ((s.without b).arrive b).strand g = (s.strand g).setLatch (entryTag e) (((s.strand g).latch (entryTag e)).deliver b.at_
        (b.dir * 64 + b.pos) b.val) := (hstrand g).trans ((strand_setStrand _ _ _ _).trans (if_pos rfl))
    refine ⟨_, hexec, ?_, fun m hm => ?_, fun k hk => (hstrand k).trans ((strand_setStrand _ _ _ _).trans (if_neg hk)),
      (arrive_without s b).2.2.2.2, fun hvalid hrerun hon => ?_⟩
    · rw [hself]
      simp only [latch_setLatch, if_true]
      exact ⟨rfl, rfl, rfl, rfl, rfl⟩
    · rw [hself, latch_setLatch, if_neg hm]
    · rw [hcord] at hon ⊢
      exact htold hvalid hrerun hon
  · obtain ⟨hstrands, hcount, htold⟩ := arrive_outranked (s := u) hstn hkind hiso hout
    refine ⟨_, hexec, hstrands, hcount, fun hon => ?_⟩
    rw [hcord] at hon ⊢
    exact htold hon
  · have hnone : u.forwards b = [] := hnone
    rw [hexec]
    exact congrArg Host.Outcome.next ((arrive_passing (recordFor_passing hkind)).trans (if_pos hnone))
  · have hone : u.forwards b = [x] := hone
    rw [hexec]
    refine congrArg Host.Outcome.next ((arrive_passing (recordFor_passing hkind)).trans ((if_neg ?_).trans ?_))
    · show ¬ u.forwards b = []
      rw [hone]
      exact List.cons_ne_nil _ _
    · show u.forward b (u.forwards b) = _
      rw [hone]
      rfl

end Sys2Proof.Machine
end

section
/-! Requests of the power states (R332, R333, R340): what a request that is decided, held or refused leaves. -/

namespace Sys2Proof.Machine

/-- The power record is `p`, the instants of the requests aside. -/
def State.powerIs (t : State) (p : Power) : Prop := t.power = { p with goAt := t.power.goAt, flagAt := t.power.flagAt }

/-- From `s` an exit has begun in `t`, shown as that of source `src` (R335, R337). -/
def State.exitBegun (s t : State) (src : Nat) : Prop :=
  t.powerIs { s.power with exiting := true, target := 0, reloaded := false, wakes := 0, patHit := false,
                           exitAt := (s.time.now, s.reg R.HST_ALIVE) } ∧
    t.bit F.PWR_STAT_TRANSITION = true ∧ t.fget F.PWR_STAT_LAST_WAKE = src

/-- The checks of R332 refuse a request of state `g`. -/
def State.requestBarred (s : State) (g : Nat) : Prop :=
  let st := s.fget F.PWR_STAT_STATE
  let part := s.fget F.CFG_PART_STAT_STATE
  let spl := s.fget F.SPL_STAT_STATE
  g = st ∨ 4 < g ∨ s.fget F.CFG_STAT_STATE ≠ 5 ∨ (1 ≤ part ∧ part ≤ 3) ∨ (2 ≤ g ∧ (spl = 2 ∨ spl = 3 ∨ spl = 5)) ∨
    (st = 2 ∧ g = 1) ∨ 3 ≤ st

/-- The words that a request of a power state may change. -/
def requestWords : List Nat := [R.PWR_CTL, R.PWR_STAT, R.TURN_HOLD_SRC, R.HST_EVT, R.HST_LINK, R.CFG_STAT]

/-- In `t` the device `s` has answered a request of state `g`: it is held behind a transition, begins an exit or an entry, or is
refused. -/
def State.requestAnswered (s t : State) (g : Nat) : Prop :=
  let st := s.fget F.PWR_STAT_STATE
  t.mem = s.mem ∧ t.core = s.core ∧ s.wordsBut t requestWords ∧
  (s.bit F.PWR_STAT_TRANSITION = true → t.powerIs { s.power with held := some g } ∧ t.reg R.PWR_STAT = s.reg R.PWR_STAT) ∧
  (s.bit F.PWR_STAT_TRANSITION = false →
    (g = 0 → st ≠ 0 → s.exitBegun t (if (s.fget F.PWR_WAKE_EN_EN).testBit 3 then 3 else 4)) ∧
    (¬(g = 0 ∧ st ≠ 0) → s.requestBarred g → t.powerIs s.power ∧ t.bit F.PWR_STAT_REFUSED = true ∧
      t.bit F.PWR_STAT_TRANSITION = false ∧ t.fget F.PWR_STAT_STATE = st ∧ t.reg R.TURN_HOLD_SRC = s.reg R.TURN_HOLD_SRC) ∧
    (¬ s.requestBarred g → ¬(g = 0 ∧ st ≠ 0) → t.powerIs { s.power with entering := true, target := g } ∧
      t.bit F.PWR_STAT_TRANSITION = true ∧ t.bit F.TURN_HOLD_SRC_PWR = true ∧ t.fget F.PWR_STAT_STATE = st))

/-! ### The parts of a request -/

theorem pwrRefused_iff (s : State) (g : Nat) : s.pwrRefused g = true ↔ s.requestBarred g := by
  simp only [State.pwrRefused, State.requestBarred, Bool.or_eq_true, Bool.and_eq_true, beq_iff_eq, bne_iff_ne, decide_eq_true_eq, or_assoc]

/-- The registers at the start of an exit: TRANSITION, LAST_WAKE, no wake pending, and from Deep sleep the reload's state (R339). -/
def State.exitShown (s : State) (src : Nat) : State :=
  let s0 := ((s.fset F.PWR_STAT_TRANSITION 1).fset F.PWR_STAT_LAST_WAKE src).fset F.PWR_STAT_PENDING_WAKE 0
  if s.fget F.PWR_STAT_STATE = 3 then s0.fset F.CFG_STAT_STATE 3 else s0

/-- The power record at the start of an exit. -/
def State.exitPower (s : State) : Power :=
  { s.power with exiting := true, target := 0, reloaded := false, wakes := 0, patHit := false, exitAt := (s.time.now, s.reg R.HST_ALIVE) }

theorem State.exitShown_onlyWords (s : State) (src : Nat) : s.onlyWords (s.exitShown src) [R.PWR_STAT, R.CFG_STAT] := by
  have hbase : s.onlyWords (((s.fset F.PWR_STAT_TRANSITION 1).fset F.PWR_STAT_LAST_WAKE src).fset F.PWR_STAT_PENDING_WAKE 0)
      [R.PWR_STAT, R.CFG_STAT] :=
    ((s.onlyWords_fset _ (by simp)).trans (State.onlyWords_fset _ _ (by simp))).trans (State.onlyWords_fset _ _ (by simp))
  unfold State.exitShown
  dsimp only
  split
  · exact hbase.trans (State.onlyWords_fset _ _ (by simp))
  · exact hbase

theorem State.pwrExit_eq (s : State) (src : Nat) : s.pwrExit src = { s.exitShown src with power := s.exitPower } := by
  have hpower : (s.exitShown src).power = s.power := (s.exitShown_onlyWords src).unit State.power fun _ => rfl
  unfold State.exitPower
  rw [← hpower]
  rfl

theorem State.pwrExit_reg_eq (s : State) (src a : Nat) : (s.pwrExit src).reg a = (s.exitShown src).reg a := by
  rw [pwrExit_eq]
  rfl

/-- An exit changes the power record and words of PWR_STAT and CFG_STAT alone. -/
theorem State.pwrExit_reg (s : State) (src : Nat) {a : Nat} (hstat : a ≠ R.PWR_STAT) (hcfg : a ≠ R.CFG_STAT) :
    (s.pwrExit src).reg a = s.reg a := by
  rw [pwrExit_reg_eq]
  exact (s.exitShown_onlyWords src).2 a (by simp [hstat, hcfg])

theorem State.pwrExit_unit (s : State) (src : Nat) {α : Type} (g : State → α) (hg : ∀ t r p, g { t with regs := r, power := p } = g t) :
    g (s.pwrExit src) = g s := by
  rw [pwrExit_eq, (s.exitShown_onlyWords src).1]
  exact hg s _ _

/-- From a state other than Deep sleep CFG_STAT stays. -/
theorem pwrExit_reg_cfg {s : State} (h : s.fget F.PWR_STAT_STATE ≠ 3) (src : Nat) : (s.pwrExit src).reg R.CFG_STAT = s.reg R.CFG_STAT := by
  rw [State.pwrExit_reg_eq, State.exitShown, if_neg h]
  exact (State.reg_fset_ne _ _ _ (by decide)).trans ((State.reg_fset_ne _ _ _ (by decide)).trans (State.reg_fset_ne _ _ _ (by decide)))

/-- What an exit makes of PWR_STAT. -/
theorem State.pwrExit_stat (s : State) (src : Nat) : (s.pwrExit src).reg R.PWR_STAT =
    (((s.fset F.PWR_STAT_TRANSITION 1).fset F.PWR_STAT_LAST_WAKE src).fset F.PWR_STAT_PENDING_WAKE 0).reg R.PWR_STAT :=
  (s.pwrExit_reg_eq src _).trans <| reg_ite (c := s.fget F.PWR_STAT_STATE = 3) (State.reg_fset_ne _ _ _ (by decide)) rfl

theorem State.pwrExit_state (s : State) (src : Nat) : (s.pwrExit src).fget F.PWR_STAT_STATE = s.fget F.PWR_STAT_STATE := by
  rw [State.fget_congr F.PWR_STAT_STATE (s.pwrExit_stat src), State.fget_fset_other _ _ _ _ (by decide),
    State.fget_fset_other _ _ _ _ (by decide), State.fget_fset_other _ _ _ _ (by decide)]

theorem State.pwrExit_transition (s : State) (src : Nat) : (s.pwrExit src).bit F.PWR_STAT_TRANSITION = true := by
  rw [State.bit_congr F.PWR_STAT_TRANSITION (s.pwrExit_stat src), State.bit_fset_apart _ _ _ _ (by decide) (.inr (.inr (by decide))),
    State.bit_fset_apart _ _ _ _ (by decide) (.inr (.inr (by decide))), State.bit_fset_one _ _ (by decide) (by decide)]

theorem State.pwrExit_lastWake (s : State) {src : Nat} (h : src < 8) : (s.pwrExit src).fget F.PWR_STAT_LAST_WAKE = src := by
  rw [State.fget_congr F.PWR_STAT_LAST_WAKE (s.pwrExit_stat src), State.fget_fset_other _ _ _ _ (by decide),
    State.fget_fset _ _ _ (by decide)]
  exact Nat.mod_eq_of_lt h

theorem State.pwrExit_exitBegun (s : State) {src : Nat} (h : src < 8) : s.exitBegun (s.pwrExit src) src := by
  refine ⟨?_, s.pwrExit_transition src, s.pwrExit_lastWake h⟩
  have hpower : (s.pwrExit src).power = s.exitPower := by rw [State.pwrExit_eq]
  rw [State.powerIs, hpower]
  rfl

theorem State.pwrEnter_reg (s : State) (g : Nat) {a : Nat} (hstat : a ≠ R.PWR_STAT) (hhold : a ≠ R.TURN_HOLD_SRC) :
    (s.pwrEnter g).reg a = s.reg a := by
  show ((s.fset F.PWR_STAT_TRANSITION 1).fset F.TURN_HOLD_SRC_PWR 1).reg a = _
  rw [State.reg_fset_ne _ _ _ hhold, State.reg_fset_ne _ _ _ hstat]

theorem State.pwrEnter_shows (s : State) (g : Nat) : (s.pwrEnter g).bit F.PWR_STAT_TRANSITION = true ∧
    (s.pwrEnter g).bit F.TURN_HOLD_SRC_PWR = true ∧ (s.pwrEnter g).fget F.PWR_STAT_STATE = s.fget F.PWR_STAT_STATE := by
  show ((s.fset F.PWR_STAT_TRANSITION 1).fset F.TURN_HOLD_SRC_PWR 1).bit F.PWR_STAT_TRANSITION = true ∧
    ((s.fset F.PWR_STAT_TRANSITION 1).fset F.TURN_HOLD_SRC_PWR 1).bit F.TURN_HOLD_SRC_PWR = true ∧
    ((s.fset F.PWR_STAT_TRANSITION 1).fset F.TURN_HOLD_SRC_PWR 1).fget F.PWR_STAT_STATE = _
  refine ⟨?_, State.bit_fset_one _ _ (by decide) (by decide), ?_⟩
  · rw [State.bit_fset_apart _ _ _ _ (by decide) (.inl (by decide)), State.bit_fset_one _ _ (by decide) (by decide)]
  · rw [State.fget_fset_other _ _ _ _ (by decide), State.fget_fset_other _ _ _ _ (by decide)]

/-! ### A request is answered -/

theorem pwrRequest_held {s : State} (h : s.bit F.PWR_STAT_TRANSITION = true) (g : Nat) :
    s.pwrRequest g = { s with power := { s.power with held := some g } } := if_pos h

theorem pwrRequest_decided {s : State} (h : s.bit F.PWR_STAT_TRANSITION = false) (g : Nat) : s.pwrRequest g = s.pwrDecide g :=
  if_neg (by simp [h])

theorem pwrDecide_run {s : State} {g : Nat} (h : g = 0 ∧ s.fget F.PWR_STAT_STATE ≠ 0) : s.pwrDecide g = s.pwrExit s.runSource := if_pos h

theorem pwrDecide_refused {s : State} {g : Nat} (h : ¬(g = 0 ∧ s.fget F.PWR_STAT_STATE ≠ 0)) (hb : s.requestBarred g) :
    s.pwrDecide g = s.fset F.PWR_STAT_REFUSED 1 := (if_neg h).trans (if_pos ((pwrRefused_iff s g).mpr hb))

theorem pwrDecide_enters {s : State} {g : Nat} (h : ¬(g = 0 ∧ s.fget F.PWR_STAT_STATE ≠ 0)) (hb : ¬ s.requestBarred g) :
    s.pwrDecide g = s.pwrEnter g := (if_neg h).trans (if_neg fun hr => hb ((pwrRefused_iff s g).mp hr))

/-- A request leaves memory and the strand core, and words other than its own. -/
theorem State.pwrRequest_keeps (s : State) (g : Nat) :
    (s.pwrRequest g).mem = s.mem ∧ (s.pwrRequest g).core = s.core ∧ (s.pwrRequest g).time = s.time ∧
      s.wordsBut (s.pwrRequest g) [R.PWR_STAT, R.TURN_HOLD_SRC, R.CFG_STAT] := by
  cases ht : s.bit F.PWR_STAT_TRANSITION
  · rw [pwrRequest_decided ht]
    by_cases hrun : g = 0 ∧ s.fget F.PWR_STAT_STATE ≠ 0
    · rw [pwrDecide_run hrun]
      refine ⟨s.pwrExit_unit _ State.mem fun _ _ _ => rfl, s.pwrExit_unit _ State.core fun _ _ _ => rfl,
        s.pwrExit_unit _ State.time fun _ _ _ => rfl, fun a ha => ?_⟩
      simp only [List.mem_cons, List.not_mem_nil, or_false, not_or] at ha
      exact s.pwrExit_reg _ ha.1 ha.2.2
    · by_cases hb : s.requestBarred g
      · rw [pwrDecide_refused hrun hb]
        exact ⟨rfl, rfl, rfl, fun a ha => s.reg_fset_ne _ _ fun he => ha (by simp [he, R.PWR_STAT])⟩
      · rw [pwrDecide_enters hrun hb]
        refine ⟨rfl, rfl, rfl, fun a ha => ?_⟩
        simp only [List.mem_cons, List.not_mem_nil, or_false, not_or] at ha
        exact s.pwrEnter_reg g ha.1 ha.2.1
  · rw [pwrRequest_held ht]
    exact ⟨rfl, rfl, rfl, fun _ _ => rfl⟩

theorem State.runSource_lt (s : State) : s.runSource < 8 := by
  unfold State.runSource
  split <;> decide

theorem State.pwrRequest_answered (s : State) (g : Nat) : s.requestAnswered (s.pwrRequest g) g := by
  obtain ⟨hmem, hcore, -, hwords⟩ := s.pwrRequest_keeps g
  refine ⟨hmem, hcore, fun a ha => hwords a fun hm => ha ?_, fun ht => ?_, fun ht => ⟨fun h0 hst => ?_, fun hrun hb => ?_, fun hb hrun => ?_⟩⟩
  · simp only [List.mem_cons, List.not_mem_nil, or_false] at hm
    rcases hm with rfl | rfl | rfl <;> decide
  · rw [pwrRequest_held ht]
    exact ⟨rfl, rfl⟩
  · rw [pwrRequest_decided ht, pwrDecide_run ⟨h0, hst⟩]
    exact s.pwrExit_exitBegun s.runSource_lt
  · rw [pwrRequest_decided ht, pwrDecide_refused hrun hb]
    refine ⟨rfl, State.bit_fset_one _ _ (by decide) (by decide), ?_, State.fget_fset_other _ _ _ _ (by decide),
      State.reg_fset_ne _ _ _ (by decide)⟩
    rw [State.bit_fset_apart _ _ _ _ (by decide) (.inr (.inr (by decide)))]
    exact ht
  · rw [pwrRequest_decided ht, pwrDecide_enters hrun hb]
    exact ⟨rfl, s.pwrEnter_shows g⟩

/-- The answer shows in a state that differs in the instants of the requests and in HST_EVT. -/
theorem State.requestAnswered.shown {s t u : State} {g : Nat} (h : s.requestAnswered t g) (hmem : u.mem = t.mem) (hcore : u.core = t.core)
    (hpower : u.powerIs t.power) (hw : t.wordsBut u [R.HST_EVT]) : s.requestAnswered u g := by
  have hreg : ∀ a, a ≠ R.HST_EVT → u.reg a = t.reg a := fun a ha => hw a (by simpa using ha)
  have hstat := hreg R.PWR_STAT (by decide)
  have hhold := hreg R.TURN_HOLD_SRC (by decide)
  have hp : ∀ p, t.powerIs p → u.powerIs p := fun p hp => by
    unfold State.powerIs at hp hpower ⊢
    rw [hp] at hpower
    exact hpower
  obtain ⟨h1, h2, h3, h4, h5⟩ := h
  refine ⟨hmem.trans h1, hcore.trans h2, fun a ha => (hreg a fun he => ha (by simp [he, requestWords])).trans (h3 a ha),
    fun ht => ?_, fun ht => ?_⟩
  · exact ⟨hp _ (h4 ht).1, hstat.trans (h4 ht).2⟩
  · obtain ⟨hexit, hrefused, henter⟩ := h5 ht
    refine ⟨fun h0 hst => ?_, fun hrun hb => ?_, fun hb hrun => ?_⟩
    · obtain ⟨e1, e2, e3⟩ := hexit h0 hst
      exact ⟨hp _ e1, (State.bit_congr _ hstat).trans e2, (State.fget_congr _ hstat).trans e3⟩
    · obtain ⟨e1, e2, e3, e4, e5⟩ := hrefused hrun hb
      exact ⟨hp _ e1, (State.bit_congr _ hstat).trans e2, (State.bit_congr _ hstat).trans e3, (State.fget_congr _ hstat).trans e4,
        hhold.trans e5⟩
    · obtain ⟨e1, e2, e3, e4⟩ := henter hb hrun
      exact ⟨hp _ e1, (State.bit_congr _ hstat).trans e2, (State.bit_congr _ hhold).trans e3, (State.fget_congr _ hstat).trans e4⟩

/-- The way of the host to the request, which writes PWR_CTL and may train the link, changes nothing of the answer. -/
theorem State.requestAnswered.before {s s' t : State} {g : Nat} (hw : s.onlyWords s' [R.PWR_CTL, R.HST_LINK])
    (h : s'.requestAnswered t g) : s.requestAnswered t g := by
  obtain ⟨heq, hwords⟩ := hw
  have hreg : ∀ a, a ≠ R.PWR_CTL → a ≠ R.HST_LINK → s'.reg a = s.reg a := fun a h1 h2 => hwords a (by simp [h1, h2])
  have hfget : ∀ f : Fld, f.addr ≠ R.PWR_CTL → f.addr ≠ R.HST_LINK → s'.fget f = s.fget f := fun f h1 h2 =>
    State.fget_congr f (hreg _ h1 h2)
  have hbit : ∀ f : Fld, f.addr ≠ R.PWR_CTL → f.addr ≠ R.HST_LINK → s'.bit f = s.bit f := fun f h1 h2 => State.bit_congr f (hreg _ h1 h2)
  have hpower : s'.power = s.power := by rw [heq]
  have hnow : s'.time.now = s.time.now := by rw [heq]
  have hmem : s'.mem = s.mem := by rw [heq]
  have hcore : s'.core = s.core := by rw [heq]
  unfold State.requestAnswered State.exitBegun State.requestBarred at h ⊢
  rw [hpower, hnow, hmem, hcore, hbit F.PWR_STAT_TRANSITION (by decide) (by decide), hfget F.PWR_STAT_STATE (by decide) (by decide),
    hfget F.CFG_PART_STAT_STATE (by decide) (by decide), hfget F.SPL_STAT_STATE (by decide) (by decide),
    hfget F.CFG_STAT_STATE (by decide) (by decide), hfget F.PWR_WAKE_EN_EN (by decide) (by decide),
    hreg R.PWR_STAT (by decide) (by decide), hreg R.HST_ALIVE (by decide) (by decide), hreg R.TURN_HOLD_SRC (by decide) (by decide)] at h
  obtain ⟨h1, h2, h3, h45⟩ := h
  refine ⟨h1, h2, fun a ha => (h3 a ha).trans (hreg a ?_ ?_), h45⟩ <;> exact fun he => ha (by simp [he, requestWords])

end Sys2Proof.Machine
end

section
/-! The host's GO and the flag request (R137, R332, R333). -/

namespace Sys2Proof.Machine

/-! ### Two states that differ in some words, under one update -/

theorem State.onlyWords.fset_both {s s' : State} {l : List Nat} (h : s.onlyWords s' l) {f : Fld} (hf : f.addr ∉ l) (x : Nat) :
    (s.fset f x).onlyWords (s'.fset f x) l := by
  obtain ⟨heq, hw⟩ := h
  refine ⟨by rw [heq]; rfl, fun a ha => ?_⟩
  simp only [State.fset, State.reg_setReg, hw _ hf, hw _ ha]

theorem State.onlyWords.withPower {s s' : State} {l : List Nat} (h : s.onlyWords s' l) (p : Power) :
    { s with power := p }.onlyWords { s' with power := p } l := by
  obtain ⟨heq, hw⟩ := h
  exact ⟨by rw [heq], hw⟩

theorem State.bit_withPower (s : State) (p : Power) (f : Fld) : ({ s with power := p } : State).bit f = s.bit f := rfl

theorem State.reg_withPower (s : State) (p : Power) (a : Nat) : ({ s with power := p } : State).reg a = s.reg a := rfl

/-! ### A flag request of the instant of a GO -/

theorem flagYields_other {s : State} (h : s.power.flagAt ≠ some s.time.now) : s.flagYields = s := if_pos h

theorem flagYields_idle {s : State} (h : s.power.flagAt = some s.time.now) (he : s.power.entering = false) :
    s.flagYields = { s.fset F.PWR_STAT_REFUSED 1 with power := { s.power with flagAt := none } } :=
  (if_neg (not_not.mpr h)).trans (if_pos (by rw [he]; rfl))

theorem flagYields_entering {s : State} (h : s.power.flagAt = some s.time.now) (he : s.power.entering = true) :
    s.flagYields = { ((s.fset F.PWR_STAT_REFUSED 1).fset F.PWR_STAT_TRANSITION 0).fset F.TURN_HOLD_SRC_PWR 0 with
      power := { s.power with flagAt := none, entering := false } } :=
  (if_neg (not_not.mpr h)).trans (if_neg (by rw [he]; decide))

theorem flagYields_onlyWords {s s' : State} {l : List Nat} (h : s.onlyWords s' l) (hstat : R.PWR_STAT ∉ l) (hhold : R.TURN_HOLD_SRC ∉ l) :
    s.flagYields.onlyWords s'.flagYields l := by
  have hpower : s'.power = s.power := h.unit State.power fun _ => rfl
  have hnow : s'.time.now = s.time.now := h.unit (fun t => t.time.now) fun _ => rfl
  by_cases hf : s.power.flagAt = some s.time.now
  · have hf' : s'.power.flagAt = some s'.time.now := by rw [hpower, hnow, hf]
    cases he : s.power.entering
    · rw [flagYields_idle hf he, flagYields_idle hf' (by rw [hpower, he]), hpower]
      exact (h.fset_both hstat 1).withPower _
    · rw [flagYields_entering hf he, flagYields_entering hf' (by rw [hpower, he]), hpower]
      exact (((h.fset_both hstat 1).fset_both hstat 0).fset_both hhold 0).withPower _
  · have hf' : s'.power.flagAt ≠ some s'.time.now := by rwa [hpower, hnow]
    rwa [flagYields_other hf, flagYields_other hf']

theorem flagYields_ctl (s : State) : s.flagYields.reg R.PWR_CTL = s.reg R.PWR_CTL := by
  by_cases hf : s.power.flagAt = some s.time.now
  · cases he : s.power.entering
    · rw [flagYields_idle hf he, State.reg_withPower, State.reg_fset_ne _ _ _ (by decide)]
    · rw [flagYields_entering hf he, State.reg_withPower, State.reg_fset_ne _ _ _ (by decide), State.reg_fset_ne _ _ _ (by decide),
        State.reg_fset_ne _ _ _ (by decide)]
  · rw [flagYields_other hf]

/-- The flag request is refused, and is no longer of this instant. -/
theorem flagYields_refused {s : State} (h : s.power.flagAt = some s.time.now) :
    s.flagYields.bit F.PWR_STAT_REFUSED = true ∧ s.flagYields.power.flagAt = none ∧ s.flagYields.power.entering = false := by
  have hset := s.bit_fset_one F.PWR_STAT_REFUSED (by decide) (by decide)
  cases he : s.power.entering
  · rw [flagYields_idle h he]
    exact ⟨hset, rfl, he⟩
  · rw [flagYields_entering h he]
    refine ⟨?_, rfl, rfl⟩
    rw [State.bit_withPower, State.bit_fset_apart _ _ _ _ (by decide) (.inl (by decide)),
      State.bit_fset_apart _ _ _ _ (by decide) (.inr (.inl (by decide)))]
    exact hset

/-- An entry that the flag request has begun is undone. -/
theorem flagYields_undoes {s : State} (h : s.power.flagAt = some s.time.now) (he : s.power.entering = true) :
    s.flagYields.bit F.PWR_STAT_TRANSITION = false ∧ s.flagYields.bit F.TURN_HOLD_SRC_PWR = false := by
  rw [flagYields_entering h he]
  refine ⟨?_, ?_⟩ <;> rw [State.bit_withPower]
  · rw [State.bit_fset_apart _ _ _ _ (by decide) (.inl (by decide)), State.bit_fset_zero _ _ (by decide) (by decide)]
  · exact State.bit_fset_zero _ _ (by decide) (by decide)

/-- A request leaves REFUSED set. -/
theorem pwrRequest_keepsRefused {s : State} (h : s.bit F.PWR_STAT_REFUSED = true) (g : Nat) : (s.pwrRequest g).bit F.PWR_STAT_REFUSED = true := by
  cases ht : s.bit F.PWR_STAT_TRANSITION
  · rw [pwrRequest_decided ht]
    by_cases hrun : g = 0 ∧ s.fget F.PWR_STAT_STATE ≠ 0
    · rw [pwrDecide_run hrun, State.bit_congr _ (s.pwrExit_stat _), State.bit_fset_apart _ _ _ _ (by decide) (.inr (.inl (by decide))),
        State.bit_fset_apart _ _ _ _ (by decide) (.inr (.inr (by decide))), State.bit_fset_apart _ _ _ _ (by decide) (.inr (.inl (by decide)))]
      exact h
    · by_cases hb : s.requestBarred g
      · rw [pwrDecide_refused hrun hb]
        exact State.bit_fset_one _ _ (by decide) (by decide)
      · rw [pwrDecide_enters hrun hb]
        show ((s.fset F.PWR_STAT_TRANSITION 1).fset F.TURN_HOLD_SRC_PWR 1).bit F.PWR_STAT_REFUSED = true
        rw [State.bit_fset_apart _ _ _ _ (by decide) (.inl (by decide)), State.bit_fset_apart _ _ _ _ (by decide) (.inr (.inl (by decide)))]
        exact h
  · rw [pwrRequest_held ht]
    exact h

/-! ### The host's GO -/

/-- The state in which the host's GO meets the power controller: the link is trained, and TARGET shows the state asked for. -/
def State.goShown (s : State) (g : Nat) : State := s.trainLink.fset F.PWR_CTL_TARGET g

theorem State.goShown_onlyWords (s : State) (g : Nat) : s.onlyWords (s.goShown g) [R.PWR_CTL, R.HST_LINK] :=
  (s.onlyWords_trainLink (by simp)).trans (State.onlyWords_fset _ _ (by simp))

theorem exec_pwrGo_away {s : State} (h : s.hostAway = true) (g : BitVec 3) : exec (.pwrGo g) s = .next s := if_pos h

/-- What a GO that reaches the device does. -/
def State.goTaken (s : State) (g : Nat) : State :=
  s.trainLink.watch pwrBits fun t => (t.fset F.PWR_CTL_TARGET g).hostGo g

theorem exec_pwrGo_taken {s : State} (h : s.hostAway = false) (g : BitVec 3) : exec (.pwrGo g) s = .next (s.goTaken g.toNat) :=
  if_neg (by simp [h])

/-- But for HST_EVT the GO leaves what the request leaves, and is noted as one of this instant. -/
theorem State.goTaken_onlyWords (s : State) (g : Nat) : ((s.goShown g).hostGo g).onlyWords (s.goTaken g) [R.HST_EVT] :=
  s.trainLink.onlyWords_watch pwrBits _ (by simp)

theorem State.hostGo_answered (s : State) (g : Nat) : s.flagYields.requestAnswered (s.hostGo g) g :=
  (s.flagYields.pwrRequest_answered g).shown rfl rfl rfl fun _ _ => rfl

theorem State.goTaken_answered (s : State) (g : Nat) : s.flagYields.requestAnswered (s.goTaken g) g := by
  have hw := s.goTaken_onlyWords g
  have hpower : (s.goTaken g).power = ((s.goShown g).hostGo g).power := hw.unit State.power fun _ => rfl
  exact .before (flagYields_onlyWords (s.goShown_onlyWords g) (by decide) (by decide))
    (((s.goShown g).hostGo_answered g).shown (hw.unit State.mem fun _ => rfl) (hw.unit State.core fun _ => rfl)
      (by rw [State.powerIs, hpower]) hw.2)

theorem State.goTaken_goAt (s : State) (g : Nat) : (s.goTaken g).power.goAt = some s.time.now := by
  have hnow : (s.goShown g).time.now = s.time.now := (s.goShown_onlyWords g).unit (fun t => t.time.now) fun _ => rfl
  have h : (s.goTaken g).power.goAt = some (s.goShown g).time.now :=
    (s.goTaken_onlyWords g).unit (fun t => t.power.goAt) fun _ => rfl
  exact h.trans (congrArg some hnow)

theorem State.goTaken_target (s : State) {g : Nat} (h : g < 8) : (s.goTaken g).fget F.PWR_CTL_TARGET = g := by
  have hctl : ((s.goShown g).hostGo g).reg R.PWR_CTL = (s.goShown g).reg R.PWR_CTL :=
    (((s.goShown g).flagYields.pwrRequest_keeps g).2.2.2 _ (by decide)).trans (flagYields_ctl _)
  rw [State.fget_congr F.PWR_CTL_TARGET ((s.goTaken_onlyWords g).2 _ (by decide)), State.fget_congr F.PWR_CTL_TARGET hctl]
  exact (State.fget_fset _ _ _ (by decide)).trans (Nat.mod_eq_of_lt h)

theorem goTaken_refused {s : State} (h : s.power.flagAt = some s.time.now) (g : Nat) : (s.goTaken g).bit F.PWR_STAT_REFUSED = true := by
  have hw := s.goShown_onlyWords g
  have hpower : (s.goShown g).power = s.power := hw.unit State.power fun _ => rfl
  have hnow : (s.goShown g).time.now = s.time.now := hw.unit (fun t => t.time.now) fun _ => rfl
  have hyields := flagYields_refused (s := s.goShown g) (by rw [hpower, hnow, h])
  rw [State.bit_congr F.PWR_STAT_REFUSED ((s.goTaken_onlyWords g).2 _ (by decide))]
  exact pwrRequest_keepsRefused hyields.1 g

/-! ### The flag request -/

/-- The flag `f` requests a power state (R333). -/
def State.flagAsks (s : State) (f : BitVec 3) : Prop :=
  s.bit F.PWR_TRIG_EN = true ∧ s.fget F.PWR_TRIG_SEL = f.toNat ∧ s.fget F.PWR_STAT_STATE < 2

theorem exec_pwrFlagRequest_idle {s : State} {f : BitVec 3} (h : ¬ s.flagAsks f) : exec (.pwrFlagRequest f) s = .next s := if_neg h

theorem exec_pwrFlagRequest_runs {s : State} {f : BitVec 3} (h : s.flagAsks f) :
    exec (.pwrFlagRequest f) s = .next (s.watch pwrBits State.flagRequest) := if_pos h

theorem flagRequest_meetsGo {s : State} (h : s.power.goAt = some s.time.now) : s.flagRequest = s.fset F.PWR_STAT_REFUSED 1 := if_pos h

theorem flagRequest_asked {s : State} (h : s.power.goAt ≠ some s.time.now) : ∃ at_, s.flagRequest =
    { s.pwrRequest (s.fget F.PWR_TRIG_TARGET + 1) with
      power := { (s.pwrRequest (s.fget F.PWR_TRIG_TARGET + 1)).power with flagAt := at_ } } := by
  unfold State.flagRequest
  rw [if_neg h]
  dsimp only
  split
  · exact ⟨_, rfl⟩
  · exact ⟨(s.pwrRequest (s.fget F.PWR_TRIG_TARGET + 1)).power.flagAt, rfl⟩

theorem flagRequest_answered {s : State} (h : s.power.goAt ≠ some s.time.now) :
    s.requestAnswered (s.watch pwrBits State.flagRequest) (s.fget F.PWR_TRIG_TARGET + 1) ∧
      (s.watch pwrBits State.flagRequest).reg R.PWR_CTL = s.reg R.PWR_CTL := by
  obtain ⟨at_, heq⟩ := flagRequest_asked h
  have hw := s.onlyWords_watch pwrBits State.flagRequest (l := [R.HST_EVT]) (by simp)
  rw [heq] at hw
  have hpower := hw.unit State.power fun _ => rfl
  refine ⟨(s.pwrRequest_answered _).shown (hw.unit State.mem fun _ => rfl) (hw.unit State.core fun _ => rfl)
    (by rw [State.powerIs, hpower]) hw.2, (hw.2 _ (by decide)).trans ((s.pwrRequest_keeps _).2.2.2 _ (by decide))⟩

end Sys2Proof.Machine
end

section
/-! Wake sources, and the cold start out of Off (R335, R337, R340). -/

namespace Sys2Proof.Machine

/-! ### The watch of a transition -/

theorem watch_unchanged {s : State} (bits : List Nat) {f : State → State} (h : f s = s) : s.watch bits f = s :=
  (watch_sameRegs bits (by rw [h]) (by rw [h])).trans h

/-- An effect on PWR_STAT that leaves TRANSITION raises no condition of the poll block. -/
theorem pwrWatch_quiet {s : State} {f : State → State} (hw : s.wordsBut (f s) [R.PWR_STAT])
    (ht : (f s).bit F.PWR_STAT_TRANSITION = s.bit F.PWR_STAT_TRANSITION) : s.watch pwrBits f = f s := by
  have hbit : ∀ g : Fld, g.addr ≠ R.PWR_STAT → (f s).bit g = s.bit g := fun g hg => State.bit_congr g (hw _ (by simpa using hg))
  have hcfg : (f s).fget F.CFG_STAT_STATE = s.fget F.CFG_STAT_STATE := State.fget_congr _ (hw _ (by decide))
  refine watch_quiet fun b hb h => ?_
  simp only [pwrBits, List.mem_cons, List.not_mem_nil, or_false] at hb
  rcases hb with rfl | rfl | rfl | rfl | rfl | rfl
  · exact (hbit F.FLT_STAT_SAFE (by decide)).trans h
  · exact (congrArg (· == 5) hcfg).trans h
  · exact (congrArg (· == 6) hcfg).trans h
  · exact (hbit F.TURN_STAT_HALTED (by decide)).trans h
  · exact ht.trans h
  · exact (congrArg₂ (· || ·) (hbit F.TRC_STAT_FULL (by decide)) (hbit F.TRC_STAT_OVF (by decide))).trans h

/-! ### A wake source acts -/

theorem exec_wake (src : BitVec 2) (s : State) : exec (.wake src) s = .next (s.watch pwrBits fun t => t.wakeUp src.toNat) := rfl

theorem wakeUp_unseen {s : State} {src : Nat} (h : s.wakeSeen src = false) : s.wakeUp src = s := if_pos (by simp [h])

theorem wakeUp_awake {s : State} {src : Nat} (h : s.wakeSeen src = true) (hoff : s.fget F.PWR_STAT_STATE ≠ 4) :
    s.wakeUp src = s.wakeAwake src := (if_neg (by simp [h])).trans (if_neg hoff)

theorem wakeUp_off {s : State} {src : Nat} (h : s.wakeSeen src = true) (hoff : s.fget F.PWR_STAT_STATE = 4) :
    s.wakeUp src = if src = 2 && (s.fget F.PWR_WAKE_EN_EN).testBit 2 then s.coldStart src else s :=
  (if_neg (by simp [h])).trans (if_pos hoff)

theorem wakeAwake_disabled {s : State} {src : Nat} (h : (s.fget F.PWR_WAKE_EN_EN).testBit src = false) : s.wakeAwake src = s :=
  if_pos (by simp [h])

/-- A wake source is held behind an entry. -/
def State.holdsWake (s : State) (src : Nat) : State :=
  { s with power := { s.power with wakes := s.power.wakes ||| BitVec.ofNat 4 (2 ^ src) } }

theorem wakeAwake_entering {s : State} {src : Nat} (h : (s.fget F.PWR_WAKE_EN_EN).testBit src = true) (he : s.power.entering = true) :
    s.wakeAwake src = (s.holdsWake src).fset F.PWR_STAT_PENDING_WAKE 1 :=
  (if_neg (by simp [h])).trans (if_pos he)

/-- The exit in progress began at this instant, and shows a higher source. -/
def State.wakeFresh (s : State) (src : Nat) : Prop :=
  s.power.exitAt = (s.time.now, s.reg R.HST_ALIVE) ∧ src < s.fget F.PWR_STAT_LAST_WAKE

theorem wakeAwake_exiting {s : State} {src : Nat} (h : (s.fget F.PWR_WAKE_EN_EN).testBit src = true) (he : s.power.entering = false)
    (hx : s.power.exiting = true) [Decidable (s.wakeFresh src)] :
    s.wakeAwake src = if s.wakeFresh src then s.fset F.PWR_STAT_LAST_WAKE src else s := by
  refine (if_neg (by simp [h])).trans ((if_neg (by simp [he])).trans ((if_pos hx).trans ?_))
  refine if_congr ?_ rfl rfl
  simp only [State.wakeFresh, Bool.and_eq_true, decide_eq_true_eq]

theorem wakeAwake_still {s : State} {src : Nat} (he : s.power.entering = false) (hx : s.power.exiting = false)
    (hrun : s.fget F.PWR_STAT_STATE = 0) : s.wakeAwake src = s := wakeAwake_run src he hx hrun

theorem wakeAwake_exits {s : State} {src : Nat} (h : (s.fget F.PWR_WAKE_EN_EN).testBit src = true) (he : s.power.entering = false)
    (hx : s.power.exiting = false) (hrun : s.fget F.PWR_STAT_STATE ≠ 0) (hoff : s.fget F.PWR_STAT_STATE ≠ 4) :
    s.wakeAwake src = s.pwrExit src :=
  (if_neg (by simp [h])).trans ((if_neg (by simp [he])).trans ((if_neg (by simp [hx])).trans (if_neg fun hc => hc.elim hrun hoff)))

/-- A wake that is not enabled or not seen, that comes in Run, late in an exit, or in Off of another source than the WAKE pin. -/
theorem wake_ignored {src : BitVec 2} {s : State} (h : s.wakeSeen src.toNat = false ∨ (s.fget F.PWR_WAKE_EN_EN).testBit src.toNat = false ∨
      (s.fget F.PWR_STAT_STATE ≠ 4 ∧ s.power.entering = false ∧ (s.power.exiting = true ∨ s.fget F.PWR_STAT_STATE = 0) ∧
        ¬(s.power.exiting = true ∧ s.wakeFresh src.toNat)) ∨ (s.fget F.PWR_STAT_STATE = 4 ∧ src ≠ 2)) : s.wakeUp src.toNat = s := by
  classical
  cases hseen : s.wakeSeen src.toNat
  · exact wakeUp_unseen hseen
  · by_cases hoff : s.fget F.PWR_STAT_STATE = 4
    · rw [wakeUp_off hseen hoff]
      refine if_neg fun hc => ?_
      simp only [Bool.and_eq_true, decide_eq_true_eq] at hc
      obtain ⟨hsrc, hen⟩ := hc
      rcases h with h | h | ⟨h, -⟩ | ⟨-, h⟩
      · exact absurd (h.symm.trans hseen) (by decide)
      · rw [hsrc] at h
        exact absurd (h.symm.trans hen) (by decide)
      · exact h hoff
      · exact h (BitVec.eq_of_toNat_eq hsrc)
    · rw [wakeUp_awake hseen hoff]
      cases hen : (s.fget F.PWR_WAKE_EN_EN).testBit src.toNat
      · exact wakeAwake_disabled hen
      · rcases h with h | h | ⟨-, he, hx, hf⟩ | ⟨h, -⟩
        · exact absurd (h.symm.trans hseen) (by decide)
        · exact absurd (h.symm.trans hen) (by decide)
        · cases hexit : s.power.exiting
          · exact wakeAwake_still he hexit (hx.resolve_left (by simp [hexit]))
          · rw [wakeAwake_exiting hen he hexit, if_neg fun hc => hf ⟨hexit, hc⟩]
        · exact absurd h hoff

/-- Held behind an entry. -/
theorem wake_heldBehindEntry {src : BitVec 2} {s : State} (hseen : s.wakeSeen src.toNat = true)
    (hen : (s.fget F.PWR_WAKE_EN_EN).testBit src.toNat = true) (hoff : s.fget F.PWR_STAT_STATE ≠ 4) (he : s.power.entering = true) :
    ∃ t, exec (.wake src) s = .next t ∧ t.power = { s.power with wakes := t.power.wakes } ∧
      (∀ i < 4, t.power.wakes.getLsbD i = (s.power.wakes.getLsbD i || i == src.toNat)) ∧
      t.bit F.PWR_STAT_PENDING_WAKE = true ∧ s.onlyWords { t with power := s.power } [R.PWR_STAT] := by
  have hu : s.wakeUp src.toNat = (s.holdsWake src.toNat).fset F.PWR_STAT_PENDING_WAKE 1 :=
    (wakeUp_awake hseen hoff).trans (wakeAwake_entering hen he)
  have hwords : s.wordsBut ((s.holdsWake src.toNat).fset F.PWR_STAT_PENDING_WAKE 1) [R.PWR_STAT] := fun a ha =>
    (s.holdsWake src.toNat).reg_fset_ne _ _ (by simpa using ha)
  have hquiet : s.watch pwrBits (fun t => t.wakeUp src.toNat) = (s.holdsWake src.toNat).fset F.PWR_STAT_PENDING_WAKE 1 := by
    refine (pwrWatch_quiet (hu ▸ hwords) ?_).trans hu
    rw [hu, State.bit_fset_apart _ _ _ _ (by decide) (.inr (.inr (by decide)))]
    exact s.bit_withPower _ _
  refine ⟨_, (exec_wake src s).trans (congrArg _ hquiet), rfl, fun i hi => ?_, State.bit_fset_one _ _ (by decide) (by decide), rfl, hwords⟩
  show (s.power.wakes ||| BitVec.ofNat 4 (2 ^ src.toNat)).getLsbD i = _
  rw [BitVec.getLsbD_or, BitVec.getLsbD_ofNat, Nat.testBit_two_pow]
  simp [hi, Bool.beq_eq_decide_eq, eq_comm]

/-- Of the sources of the instant at which the exit began the lowest shows. -/
theorem wake_atExit {src : BitVec 2} {s : State} (hseen : s.wakeSeen src.toNat = true)
    (hen : (s.fget F.PWR_WAKE_EN_EN).testBit src.toNat = true) (hoff : s.fget F.PWR_STAT_STATE ≠ 4) (he : s.power.entering = false)
    (hx : s.power.exiting = true) (hf : s.wakeFresh src.toNat) : exec (.wake src) s = .next (s.fset F.PWR_STAT_LAST_WAKE src.toNat) := by
  classical
  have hu : s.wakeUp src.toNat = s.fset F.PWR_STAT_LAST_WAKE src.toNat := by
    rw [wakeUp_awake hseen hoff, wakeAwake_exiting hen he hx, if_pos hf]
  refine (exec_wake src s).trans (congrArg _ ((pwrWatch_quiet ?_ ?_).trans hu)) <;> rw [hu]
  · exact fun a ha => State.reg_fset_ne _ _ _ (by simpa using ha)
  · exact State.bit_fset_apart _ _ _ _ (by decide) (.inr (.inr (by decide)))

/-- In Idle, Sleep and Deep sleep the exit starts. -/
theorem wake_startsExit {src : BitVec 2} {s : State} (hseen : s.wakeSeen src.toNat = true)
    (hen : (s.fget F.PWR_WAKE_EN_EN).testBit src.toNat = true) (hrun : s.fget F.PWR_STAT_STATE ≠ 0) (hoff : s.fget F.PWR_STAT_STATE ≠ 4)
    (he : s.power.entering = false) (hx : s.power.exiting = false) :
    ∃ t, exec (.wake src) s = .next t ∧ s.exitBegun t src.toNat ∧
      s.onlyWords { t with power := s.power } [R.PWR_STAT, R.HST_EVT, R.CFG_STAT] := by
  have hu : s.wakeUp src.toNat = s.pwrExit src.toNat := (wakeUp_awake hseen hoff).trans (wakeAwake_exits hen he hx hrun hoff)
  have hw := s.onlyWords_watch pwrBits (fun t => t.wakeUp src.toNat) (l := [R.HST_EVT]) (by simp)
  rw [hu] at hw
  obtain ⟨hpower, htrans, hlast⟩ := s.pwrExit_exitBegun (src := src.toNat) (by have := src.isLt; omega)
  have hpower' : (s.watch pwrBits fun t => t.wakeUp src.toNat).power = (s.pwrExit src.toNat).power := hw.unit State.power fun _ => rfl
  have hstat := hw.2 R.PWR_STAT (by decide)
  refine ⟨_, exec_wake src s, ⟨by rw [State.powerIs, hpower']; exact hpower, (State.bit_congr _ hstat).trans htrans,
    (State.fget_congr _ hstat).trans hlast⟩, ?_, fun a ha => ?_⟩
  · rw [hw.1, State.pwrExit_eq, (s.exitShown_onlyWords _).1]
  · simp only [List.mem_cons, List.not_mem_nil, or_false, not_or] at ha
    exact (hw.2 a (by simpa using ha.2.1)).trans (s.pwrExit_reg _ ha.1 ha.2.2)

/-! ### Out of Off -/

/-- A word that Off keeps. -/
def offWord (a : Nat) : Bool := persisted a || wakeReg a

theorem State.enterOff_reg (s : State) {a : Nat} (h : a ≠ R.PWR_STAT) :
    s.enterOff.reg a = if offWord a then s.reg a else RegMap.resetWord a :=
  (State.reg_fset_ne _ _ _ h).trans (s.reg_filter offWord a)

theorem State.enterOff_state (s : State) : s.enterOff.fget F.PWR_STAT_STATE = 4 := State.fget_fset _ _ _ (by decide)

theorem State.enterOff_empties (s : State) : s.enterOff.mem = [] ∧ s.enterOff.image = {} ∧ s.enterOff.strands = [] ∧
    s.enterOff.store = s.store :=
  ⟨rfl, rfl, rfl, rfl⟩

/-- PWR_STAT after a cold start: its reset value, and the wake source. -/
theorem State.coldStart_stat (s : State) (src : Nat) : ∃ u : State, u.reg R.PWR_STAT = RegMap.resetWord R.PWR_STAT ∧
    s.coldStart src = u.fset F.PWR_STAT_LAST_WAKE src := by
  have hf := s.reg_filter offWord R.PWR_STAT
  unfold State.coldStart
  refine ⟨_, ?_, rfl⟩
  exact reg_ite hf ((State.reg_fset_ne _ _ _ (by decide)).trans hf)

theorem resetWord_pwrStat : F.PWR_STAT_STATE.read (RegMap.resetWord R.PWR_STAT) = 0 ∧
    F.PWR_STAT_TRANSITION.read (RegMap.resetWord R.PWR_STAT) = 0 := by decide +kernel

theorem State.coldStart_shows (s : State) {src : Nat} (h : src < 8) : (s.coldStart src).fget F.PWR_STAT_STATE = 0 ∧
    (s.coldStart src).bit F.PWR_STAT_TRANSITION = false ∧ (s.coldStart src).fget F.PWR_STAT_LAST_WAKE = src := by
  obtain ⟨u, hu, heq⟩ := s.coldStart_stat src
  obtain ⟨hstate, htrans⟩ := resetWord_pwrStat
  rw [← hu] at hstate htrans
  rw [heq, State.fget_fset_other _ _ _ _ (by decide), State.bit_fset_apart _ _ _ _ (by decide) (.inr (.inr (by decide))),
    State.fget_fset _ _ _ (by decide)]
  exact ⟨hstate, congrArg (· == 1) htrans, Nat.mod_eq_of_lt h⟩

theorem State.coldStart_empties (s : State) (src : Nat) : (s.coldStart src).mem = [] ∧ (s.coldStart src).image = {} ∧
    (s.coldStart src).strands = [] ∧ (s.coldStart src).store = s.countCycle.store := by
  unfold State.coldStart
  dsimp only
  split <;> exact ⟨rfl, rfl, rfl, rfl⟩

/-- In Off the WAKE pin starts the device cold. -/
theorem wake_outOfOff {src : BitVec 2} {s : State} (hseen : s.wakeSeen src.toNat = true)
    (hen : (s.fget F.PWR_WAKE_EN_EN).testBit src.toNat = true) (hoff : s.fget F.PWR_STAT_STATE = 4) (hsrc : src = 2) :
    ∃ t, exec (.wake src) s = .next t ∧ t.fget F.PWR_STAT_STATE = 0 ∧ t.bit F.PWR_STAT_TRANSITION = false ∧
      t.fget F.PWR_STAT_LAST_WAKE = 2 ∧ t.mem = [] ∧ t.image = {} ∧ t.store.fuses = s.store.fuses ∧
      t.store.cycles = s.store.cycles + 1 := by
  subst hsrc
  have hu : s.wakeUp 2 = s.coldStart 2 := (wakeUp_off hseen hoff).trans (if_pos (by
    rw [show (s.fget F.PWR_WAKE_EN_EN).testBit 2 = true from hen]
    rfl))
  have hw := s.onlyWords_watch pwrBits (fun t => t.wakeUp 2) (l := [R.HST_EVT]) (by simp)
  rw [hu] at hw
  have hcycle : s.countCycle = { s with store := { s.store with cycles := s.store.cycles + 1 } } := if_pos hoff
  obtain ⟨hstate, htrans, hlast⟩ := s.coldStart_shows (src := 2) (by decide)
  obtain ⟨hmem, himage, -, hstore⟩ := s.coldStart_empties 2
  rw [hcycle] at hstore
  refine ⟨_, exec_wake 2 s, ?_⟩
  generalize s.coldStart 2 = c at hw hstate htrans hlast hmem himage hstore
  have hstat := hw.2 R.PWR_STAT (by decide)
  have hstore' := (hw.unit State.store fun _ => rfl).trans hstore
  exact ⟨(State.fget_congr _ hstat).trans hstate, (State.bit_congr _ hstat).trans htrans, (State.fget_congr _ hstat).trans hlast,
    (hw.unit State.mem fun _ => rfl).trans hmem, (hw.unit State.image fun _ => rfl).trans himage, (congrArg Store.fuses hstore').trans rfl,
    (congrArg Store.cycles hstore').trans rfl⟩

end Sys2Proof.Machine
end

section
/-! The end of an exit, and the reload after Deep sleep (R337–R340). -/

namespace Sys2Proof.Machine

/-! ### The end of a transition -/

/-- No request and no fault waits behind the transition (R340). -/
def State.calm (s : State) : Prop := s.power.held = none ∧ s.flt.deferred = []

theorem endTransition_calm {s : State} (h : s.flt.deferred = []) : s.endTransition = s.fset F.PWR_STAT_TRANSITION 0 := by
  have hflt : ({ s.flt with deferred := [] } : Collector) = s.flt := by rw [← h]
  unfold State.endTransition
  rw [h, hflt]
  rfl

theorem servePwr_none {s : State} (h : s.power.held = none) : s.servePwr = s := by
  unfold State.servePwr
  rw [h]

/-! ### What an exit from Sleep and Deep sleep brings back -/

theorem markAll_reg (s : State) (t : Nat) (step gapStart gapEnd : Bool) (a : Nat) :
    (s.markAll t step gapStart gapEnd).reg a = s.reg a :=
  State.reg_congr (State.markAll_only (Closed.sameOn s [.regs] (by decide)) (s.sameOn_refl _) t step gapStart gapEnd .regs (by simp)).symm a

theorem State.bufLost_reg (s : State) {a : Nat} (h : a < 0x80000) : s.bufLost.reg a = s.reg a := by
  have hstat : a ≠ R.TRC_STAT := by simp only [R.TRC_STAT]; omega
  have hptr : a ≠ R.TRC_WPTR := by simp only [R.TRC_WPTR]; omega
  have hbase : ((((s.fset F.TRC_WPTR_WPTR 0).fset F.TRC_STAT_FULL 0).fset F.TRC_STAT_WRAPPED 0).fset F.TRC_STAT_BUF_LOST 1).reg a = s.reg a := by
    rw [State.reg_fset_ne _ _ _ hstat, State.reg_fset_ne _ _ _ hstat, State.reg_fset_ne _ _ _ hstat, State.reg_fset_ne _ _ _ hptr]
  unfold State.bufLost
  exact reg_ite ((State.setBit_reg_ne _ _ _ hstat).trans hbase) hbase

theorem traceWake_reg (s : State) (deep : Bool) (us : Nat) {a : Nat} (h : a < 0x80000) : (s.traceWake deep us).reg a = s.reg a := by
  have hlost : (if deep && s.bit F.TRC_CTL_BUF then s.bufLost else s).reg a = s.reg a := reg_ite (s.bufLost_reg h) rfl
  exact reg_ite hlost hlost

theorem State.expire_reg (s : State) (d : Nat) {a : Nat} (h : a < 0x80000) : (s.expire d).reg a = s.reg a := by
  unfold State.expire
  dsimp only
  refine (State.each_keeps (fun t => t.reg a) fun t e _ => t.reg_setReg_ne _ ?_).trans (State.reg_fset_ne _ _ _ ?_)
  · simp only [R.ACT_FL_FLAGS]; omega
  · dsimp only; omega

theorem State.wakeSleep_reg (s : State) {a : Nat} (h : a < 0x80000) : s.wakeSleep.reg a = s.reg a := by
  unfold State.wakeSleep
  rw [State.each_keeps (fun t => t.reg a) fun t d _ => t.expire_reg d h, traceWake_reg _ _ _ h, markAll_reg]

/-- Microseconds of HST_ALIVE since the entry (R339). -/
def State.gapUs (s : State) : Nat := (s.reg R.HST_ALIVE - s.power.sleptAt).toNat

/-- The pins return, and PWR_GAP_US shows the gap, after an exit from Sleep and deeper (R337, R393). -/
def State.pinsAndGap (s : State) : State :=
  if s.fget F.PWR_STAT_STATE < 2 then s else s.pinsBack.trigIns.fset F.PWR_GAP_US_COUNT s.gapUs

/-- The device in Run, what the state held back resumed. -/
def State.awakened (s : State) : State :=
  let s1 := s.pinsAndGap.fset F.PWR_STAT_STATE 0
  if s.fget F.PWR_STAT_STATE = 2 then s1.wakeSleep else if s.fget F.PWR_STAT_STATE = 3 then s1.traceWake true s.gapUs else s1

theorem pinsAndGap_sameOn (s : State) : s.sameOn [.power, .flt, .time] s.pinsAndGap := by
  have cl : Closed (s.sameOn [.power, .flt, .time]) 0x220004000 := Closed.sameOn s _ (by decide)
  refine onlyIte (P := s.sameOn [.power, .flt, .time]) (s.sameOn_refl _) (State.fset_only (cl.mono (by decide)) (State.trigIns_only cl ?_) _ _)
  exact State.pinsBack_only (Closed.sameOn s _ (by decide)) (s.sameOn_refl _)

theorem awakened_sameOn (s : State) : s.sameOn [.power, .flt, .time] s.awakened := by
  have cl : Closed (s.sameOn [.power, .flt, .time]) 0x200011200 := Closed.sameOn s _ (by decide)
  have h1 := State.fset_only (cl.mono (by decide)) (pinsAndGap_sameOn s) F.PWR_STAT_STATE 0
  exact onlyIte (State.wakeSleep_only cl h1) (onlyIte (State.traceWake_only (cl.mono (by decide)) h1 _ _) h1)

theorem State.awakened_reg (s : State) {a : Nat} (h : a < 0x80000) :
    s.awakened.reg a = (s.pinsAndGap.fset F.PWR_STAT_STATE 0).reg a := reg_ite (State.wakeSleep_reg _ h) (reg_ite (traceWake_reg _ _ _ h) rfl)

/-- An exit from Run and Idle resumes nothing. -/
theorem awakened_light {s : State} (h : s.fget F.PWR_STAT_STATE < 2) : s.awakened = s.fset F.PWR_STAT_STATE 0 := by
  have hpins : s.pinsAndGap = s := if_pos h
  unfold State.awakened
  rw [if_neg (by omega), if_neg (by omega), hpins]

theorem trigIns_latched (s : State) : s.trigIns.pins.latched = s.pins.latched :=
  State.each_keeps (fun t => t.pins.latched) fun t i _ => by
    unfold State.trigIn State.level
    dsimp only
    split_ifs <;> rfl

theorem pinsAndGap_latched {s : State} (h : 2 ≤ s.fget F.PWR_STAT_STATE) : s.pinsAndGap.pins.latched = none := by
  unfold State.pinsAndGap
  rw [if_neg (by omega)]
  exact trigIns_latched _

theorem State.awakened_latched {s : State} (h : 2 ≤ s.fget F.PWR_STAT_STATE) : s.awakened.pins.latched = none := by
  let r := s.pinsAndGap.fset F.PWR_STAT_STATE 0
  have cl : Closed (r.sameOn [.pins]) 0x200011200 := Closed.sameOn r _ (by decide)
  have hsame : r.sameOn [.pins] s.awakened :=
    onlyIte (State.wakeSleep_only cl (r.sameOn_refl _)) (onlyIte (State.traceWake_only (cl.mono (by decide)) (r.sameOn_refl _) _ _) (r.sameOn_refl _))
  have hpins : r.pins = s.awakened.pins := hsame .pins (by simp)
  exact (congrArg Pins.latched hpins.symm).trans (pinsAndGap_latched h)

/-- The first instant at which a turn may start after the exit: one span later, from Idle and Sleep (R84, R337). -/
def State.turnsFrom (s : State) : Option Int :=
  if s.fget F.PWR_STAT_STATE < 3 then some ((s.awakened.time.now : Int) + s.awakened.spanTime) else none

/-- The device awake before the transition ends. -/
def State.exitEnds (s : State) : State :=
  { s.awakened with
    power := { s.awakened.power with exiting := false, reloaded := false }
    core := { s.awakened.core with notBefore := s.turnsFrom } }

theorem exitDone_eq (s : State) : s.exitDone = ((s.exitEnds.fset F.TURN_HOLD_SRC_PWR 0).endTransition).servePwr := rfl

theorem exitDone_calm {s : State} (h : s.calm) :
    s.exitDone = (s.exitEnds.fset F.TURN_HOLD_SRC_PWR 0).fset F.PWR_STAT_TRANSITION 0 := by
  obtain ⟨hheld, hdeferred⟩ := h
  have hsame := awakened_sameOn s
  have hflt : s.flt = s.awakened.flt := hsame .flt (by simp)
  have hpower : s.power = s.awakened.power := hsame .power (by simp)
  have hend : (s.exitEnds.fset F.TURN_HOLD_SRC_PWR 0).flt.deferred = [] := (congrArg Collector.deferred hflt.symm).trans hdeferred
  rw [exitDone_eq, endTransition_calm hend]
  exact servePwr_none ((congrArg Power.held hpower.symm).trans hheld)

theorem exec_pwrExitComplete (s : State) : exec .pwrExitComplete s = .next (s.watch pwrBits State.pwrExitComplete) := rfl

theorem pwrExitComplete_idle {s : State}
    (h : s.power.exiting = false ∨ (s.fget F.PWR_STAT_STATE = 3 ∧ s.power.reloaded = false)) : s.pwrExitComplete = s := by
  refine if_pos ?_
  rcases h with h | ⟨h3, hr⟩
  · simp [h]
  · simp [h3, hr]

theorem pwrExitComplete_runs {s : State} (hx : s.power.exiting = true)
    (h : s.fget F.PWR_STAT_STATE ≠ 3 ∨ s.power.reloaded = true) : s.pwrExitComplete = s.exitDone := by
  refine if_neg ?_
  rcases h with h | h <;> simp [hx, h]

theorem spanTime_inRun (s : State) : (s.fset F.PWR_STAT_STATE 0).spanTime = s.spanTime := by
  have hfget : ∀ f : Fld, R.PWR_STAT ≠ f.addr → (s.fset F.PWR_STAT_STATE 0).fget f = s.fget f := fun f hf =>
    State.fget_fset_apart _ _ _ _ (by decide) (.inl hf)
  have hrate : ∀ n, (s.fset F.PWR_STAT_STATE 0).kbps n = s.kbps n := fun n =>
    hfget (F.LANE_RATE_KBPS n) (by simp only [R.PWR_STAT]; omega)
  have hpcs : ∀ n, (s.fset F.PWR_STAT_STATE 0).pcs n = s.pcs n := fun n =>
    hfget (F.LANE_CFG_PCS n) (by simp only [R.PWR_STAT]; omega)
  unfold State.spanTime State.span State.bit
  simp only [hfget F.TURN_CFG_LOCK_SRC (by decide), hfget F.TURN_ANCHOR_LANE (by decide), hfget F.TURN_SPAN_VALUE (by decide), hrate, hpcs]

/-- The words of an exit that has ended. -/
theorem exitDone_reg {s : State} (h : s.calm) {a : Nat} (hstat : a ≠ R.PWR_STAT) (hhold : a ≠ R.TURN_HOLD_SRC) :
    s.exitDone.reg a = s.awakened.reg a := by
  rw [exitDone_calm h, State.reg_fset_ne _ _ _ hstat, State.reg_fset_ne _ _ _ hhold]
  rfl

theorem exitDone_shows {s : State} (h : s.calm) : s.exitDone.fget F.PWR_STAT_STATE = 0 ∧ s.exitDone.bit F.PWR_STAT_TRANSITION = false ∧
    s.exitDone.bit F.TURN_HOLD_SRC_PWR = false := by
  rw [exitDone_calm h]
  refine ⟨?_, State.bit_fset_zero _ _ (by decide) (by decide), ?_⟩
  · rw [State.fget_fset_other _ _ _ _ (by decide), State.fget_fset_other _ _ _ _ (by decide)]
    exact (State.fget_congr (s := s.pinsAndGap.fset F.PWR_STAT_STATE 0) F.PWR_STAT_STATE (s.awakened_reg (by decide))).trans
      (State.fget_fset _ _ _ (by decide))
  · rw [State.bit_fset_apart _ _ _ _ (by decide) (.inl (by decide)), State.bit_fset_zero _ _ (by decide) (by decide)]

theorem exitDone_gap {s : State} (h : s.calm) (hst : 2 ≤ s.fget F.PWR_STAT_STATE) :
    s.exitDone.fget F.PWR_GAP_US_COUNT = s.gapUs ∧ s.exitDone.pins.latched = none := by
  have hpins : s.pinsAndGap = s.pinsBack.trigIns.fset F.PWR_GAP_US_COUNT s.gapUs := if_neg (by omega)
  constructor
  · rw [State.fget_congr F.PWR_GAP_US_COUNT (exitDone_reg h (by decide) (by decide)),
      State.fget_congr F.PWR_GAP_US_COUNT (s.awakened_reg (by decide)),
      State.fget_fset_other _ _ _ _ (by decide), hpins, State.fget_fset _ _ _ (by decide)]
    exact Nat.mod_eq_of_lt (BitVec.isLt _)
  · rw [exitDone_calm h]
    exact State.awakened_latched hst

theorem exitDone_power {s : State} (h : s.calm) : s.exitDone.power = { s.power with exiting := false, reloaded := false } := by
  have hpower : s.power = s.awakened.power := awakened_sameOn s .power (by simp)
  rw [exitDone_calm h, hpower]
  rfl

/-- From Run and Idle memory and the strand core stay, but for the hold of one span. -/
theorem exitDone_light {s : State} (h : s.calm) (hst : s.fget F.PWR_STAT_STATE < 2) : s.exitDone.mem = s.mem ∧
    s.exitDone.core = { s.core with notBefore := some ((s.time.now : Int) + s.spanTime) } ∧
    s.wordsBut s.exitDone [R.PWR_STAT, R.TURN_HOLD_SRC] := by
  have hlight := awakened_light hst
  have hcore : s.exitDone.core = { s.awakened.core with notBefore := s.turnsFrom } := by rw [exitDone_calm h]; rfl
  have hmem : s.exitDone.mem = s.awakened.mem := by rw [exitDone_calm h]; rfl
  rw [hlight] at hmem hcore
  refine ⟨hmem, ?_, fun a ha => ?_⟩
  · rw [hcore, State.turnsFrom, if_pos (by omega), hlight, spanTime_inRun]
    rfl
  · simp only [List.mem_cons, List.not_mem_nil, or_false, not_or] at ha
    rw [exitDone_reg h ha.1 ha.2, hlight, State.reg_fset_ne _ _ _ ha.1]

end Sys2Proof.Machine
end

section
/-! The reload of an exit from Deep sleep (R282, R339). -/

namespace Sys2Proof.Machine

/-- The reload is due: an exit from Deep sleep that has not reloaded. -/
def State.reloadDue (s : State) : Prop := s.power.exiting = true ∧ s.fget F.PWR_STAT_STATE = 3 ∧ s.power.reloaded = false

theorem exec_deepSleepReload (h : CastHdr) (l : List Bytes) (s : State) :
    exec (.deepSleepReload h l) s = .next (s.watch pwrBits fun t => t.deepReload h l) := rfl

theorem deepReload_idle {s : State} (hd : ¬ s.reloadDue) (h : CastHdr) (l : List Bytes) : s.deepReload h l = s := by
  refine if_pos ?_
  simp only [State.reloadDue, not_and, Bool.not_eq_false] at hd
  simp only [Bool.not_eq_true', Bool.and_eq_false_iff, Bool.not_eq_false', beq_eq_false_iff_ne]
  by_cases hx : s.power.exiting = true
  · by_cases h3 : s.fget F.PWR_STAT_STATE = 3
    · exact .inr (hd hx h3)
    · exact .inl (.inr h3)
  · exact .inl (.inl (by simpa using hx))

theorem reloadDue_guard {s : State} (hd : s.reloadDue) : ¬ (!(s.power.exiting && s.fget F.PWR_STAT_STATE == 3 && !s.power.reloaded)) = true := by
  obtain ⟨hx, h3, hr⟩ := hd
  simp [hx, h3, hr]

/-- The words of a refused reload: the load-time state with the code and the section (R282). -/
def State.reloadRefused (s : State) (code sec : Nat) : State :=
  (((s.enterLoad.fset F.CFG_STAT_STATE 6).fset F.CFG_REFUSE_CODE code).fset F.CFG_REFUSE_SECTION sec).fset F.CFG_REFUSE_FRAME_FRAME 0xFFFFFFFF

/-- The reload has had its answer. -/
def State.reloadMarked (s : State) : State := { s with power := { s.power with reloaded := true } }

theorem deepReload_refused {s : State} (hd : s.reloadDue) {h : CastHdr} {l : List Bytes} {c i : Nat} (hr : s.reloadRefusal h l = some (c, i)) :
    s.deepReload h l = (s.reloadRefused c i).reloadMarked := by
  unfold State.deepReload State.reloadRefused State.reloadMarked
  rw [if_neg (reloadDue_guard hd), hr]

theorem deepReload_passes {s : State} (hd : s.reloadDue) {h : CastHdr} {l : List Bytes} (hr : s.reloadRefusal h l = none) :
    s.deepReload h l = (s.reloaded.fset F.CFG_STAT_STATE 5).reloadMarked := by
  unfold State.deepReload State.reloadMarked
  rw [if_neg (reloadDue_guard hd), hr]

/-- What the mark and the watch leave of the reload's state. -/
theorem reloadMarked_watched {r t : State} (h : r.reloadMarked.onlyWords t [R.HST_EVT]) :
    t.power = { r.power with reloaded := true } ∧ (∀ a, a ≠ R.HST_EVT → t.reg a = r.reg a) ∧ t.image = r.image ∧
      t.instrs = r.instrs ∧ t.strands = r.strands ∧ t.core = r.core :=
  ⟨h.unit State.power fun _ => rfl, fun a ha => h.2 a (by simpa using ha), h.unit State.image fun _ => rfl, h.unit State.instrs fun _ => rfl,
    h.unit State.strands fun _ => rfl, h.unit State.core fun _ => rfl⟩

/-! ### A refusal -/

theorem State.enterLoad_power (s : State) : s.enterLoad.power = s.power :=
  (State.enterLoad_only (Closed.sameOn s [.power] (by decide)) (s.sameOn_refl _) .power (by simp)).symm

theorem State.reloadRefused_shows (s : State) (code sec : Nat) : (s.reloadRefused code sec).fget F.CFG_STAT_STATE = 6 ∧
    (s.reloadRefused code sec).fget F.CFG_REFUSE_CODE = code % 256 ∧ (s.reloadRefused code sec).fget F.CFG_REFUSE_SECTION = sec % 256 := by
  unfold State.reloadRefused
  refine ⟨?_, ?_, ?_⟩
  · rw [State.fget_fset_other _ _ _ _ (by decide), State.fget_fset_other _ _ _ _ (by decide), State.fget_fset_other _ _ _ _ (by decide),
      State.fget_fset _ _ _ (by decide)]
    rfl
  · rw [State.fget_fset_other _ _ _ _ (by decide), State.fget_fset_other _ _ _ _ (by decide), State.fget_fset _ _ _ (by decide)]
    rfl
  · rw [State.fget_fset_other _ _ _ _ (by decide), State.fget_fset _ _ _ (by decide)]
    rfl

theorem State.reloadRefused_power (s : State) (code sec : Nat) : (s.reloadRefused code sec).power = s.power := by
  unfold State.reloadRefused
  rw [State.fset_power, State.fset_power, State.fset_power, State.fset_power, enterLoad_power]

theorem State.reloadRefused_image (s : State) (code sec : Nat) : (s.reloadRefused code sec).image = {} := by
  unfold State.reloadRefused
  rw [State.fset_image, State.fset_image, State.fset_image, State.fset_image, State.enterLoad]

theorem reload_refused {s : State} (hd : s.reloadDue) {h : CastHdr} {l : List Bytes} {c i : Nat} (hr : s.reloadRefusal h l = some (c, i)) :
    ∃ t, exec (.deepSleepReload h l) s = .next t ∧ t.power = { s.power with reloaded := true } ∧ t.fget F.CFG_STAT_STATE = 6 ∧
      t.fget F.CFG_REFUSE_CODE = c % 256 ∧ t.fget F.CFG_REFUSE_SECTION = i % 256 ∧ t.image = {} := by
  have hw := s.onlyWords_watch pwrBits (fun t => t.deepReload h l) (l := [R.HST_EVT]) (by simp)
  rw [deepReload_refused hd hr] at hw
  obtain ⟨hpower, hreg, himage, -⟩ := reloadMarked_watched hw
  obtain ⟨hstate, hcode, hsec⟩ := s.reloadRefused_shows c i
  rw [s.reloadRefused_power c i] at hpower
  rw [s.reloadRefused_image c i] at himage
  exact ⟨_, exec_deepSleepReload h l s, hpower, (State.fget_congr F.CFG_STAT_STATE (hreg _ (by decide))).trans hstate,
    (State.fget_congr F.CFG_REFUSE_CODE (hreg _ (by decide))).trans hcode,
    (State.fget_congr F.CFG_REFUSE_SECTION (hreg _ (by decide))).trans hsec, himage⟩

/-! ### The reload -/

/-- What the reload gives back before dispatch runs: memory, instruction words, the edge fabric and the settings of the action plane. -/
def State.reloadedCast (s : State) : State :=
  let s1 := s.each s.image.init fun s p => s.placeInit p.1 p.2
  let s2 := ({ s1 with instrs := s1.image.instrs }.initFabric fun _ => true).clearAction
  (s2.each (settingsOf 6 s2.image.action) State.applySetting).emptyQueues

theorem reloaded_eq (s : State) : s.reloaded = (s.reloadedCast.fset F.ACT_STAT_RUNNING 1).newOrigin := rfl

theorem reloaded_sameOn (s : State) : s.sameOn [.power, .strands, .image] s.reloaded :=
  State.reloaded_only (Closed.sameOn s _ (by decide)) (s.sameOn_refl _)

theorem State.reloadedCast_instrs (s : State) : s.reloadedCast.instrs = s.image.instrs := by
  have himage : (s.each s.image.init fun s p => s.placeInit p.1 p.2).image = s.image :=
    State.each_keeps State.image fun t p _ =>
      (State.placeInit_only (Closed.sameOn t [.image] (by decide)) (t.sameOn_refl _) p.1 p.2 .image (by simp)).symm
  let u : State := { (s.each s.image.init fun s p => s.placeInit p.1 p.2) with
    instrs := (s.each s.image.init fun s p => s.placeInit p.1 p.2).image.instrs }
  have cl : Closed (u.sameOn [.instrs]) 0xA00018200 := Closed.sameOn u _ (by decide)
  have hfabric := State.clearAction_only (cl.mono (by decide)) (State.initFabric_only (cl.mono (by decide)) (u.sameOn_refl _) fun _ => true)
  have hsame : u.sameOn [.instrs] s.reloadedCast := State.emptyQueues_only (cl.mono (by decide))
    (onlyEach hfabric fun t x ht => State.applySetting_only (cl.mono (by decide)) ht x)
  have hinstrs : u.instrs = s.reloadedCast.instrs := hsame .instrs (by simp)
  exact hinstrs.symm.trans (congrArg Image.instrs himage)

theorem newOrigin_instrs (s : State) : s.newOrigin.instrs = s.instrs :=
  (State.newOrigin_only (Closed.sameOn s [.instrs] (by decide)) (s.sameOn_refl _) .instrs (by simp)).symm

theorem newOrigin_lock {s : State} (h : s.bit F.TURN_CFG_LOCK_SRC = true) : s.newOrigin =
    ((({ s with core := { s.core with anchorT0 := none } }.fset F.TURN_HOLD_SRC_LOCK 1).fset F.TURN_STAT_FLYWHEEL 0).fset
      F.TURN_STAT_LOCK_WAIT 1) := if_pos h

theorem newOrigin_free {s : State} (h : s.bit F.TURN_CFG_LOCK_SRC = false) : s.newOrigin = s.newT0 := if_neg (by simp [h])

theorem State.newOrigin_reg (s : State) {a : Nat} (h : a < 0x100000 ∨ 0x100034 ≤ a ∨ a = R.TURN_CFG) : s.newOrigin.reg a = s.reg a := by
  have hstat : a ≠ R.TURN_STAT := by simp only [R.TURN_STAT, R.TURN_CFG] at *; omega
  have hhold : a ≠ R.TURN_HOLD_SRC := by simp only [R.TURN_HOLD_SRC, R.TURN_CFG] at *; omega
  cases hl : s.bit F.TURN_CFG_LOCK_SRC
  · rw [newOrigin_free hl]
    exact gridAt_reg _ _ (by simp only [R.TURN_CFG] at h; omega)
  · rw [newOrigin_lock hl, State.reg_fset_ne _ _ _ hstat, State.reg_fset_ne _ _ _ hstat, State.reg_fset_ne _ _ _ hhold]
    rfl

/-- Under anchor lock the grid waits for the anchor; else it starts anew (R73, R339). -/
theorem State.newOrigin_grid (s : State) :
    (s.bit F.TURN_CFG_LOCK_SRC = true → s.newOrigin.bit F.TURN_HOLD_SRC_LOCK = true ∧ s.newOrigin.bit F.TURN_STAT_LOCK_WAIT = true) ∧
    (s.bit F.TURN_CFG_LOCK_SRC = false → s.newOrigin.core.origin = s.newOrigin.core.boundary) := by
  refine ⟨fun hl => ?_, fun hl => ?_⟩
  · rw [newOrigin_lock hl]
    refine ⟨?_, State.bit_fset_one _ _ (by decide) (by decide)⟩
    rw [State.bit_fset_apart _ _ _ _ (by decide) (.inl (by decide)), State.bit_fset_apart _ _ _ _ (by decide) (.inl (by decide)),
      State.bit_fset_one _ _ (by decide) (by decide)]
  · rw [newOrigin_free hl]
    rfl

/-- What the reload leaves before its mark. -/
theorem reloaded_shows (s : State) : s.reloaded.power = s.power ∧ s.reloaded.strands = s.strands ∧ s.reloaded.instrs = s.image.instrs ∧
    s.reloaded.bit F.ACT_STAT_RUNNING = true ∧
    (s.reloaded.bit F.TURN_CFG_LOCK_SRC = true → s.reloaded.bit F.TURN_HOLD_SRC_LOCK = true ∧ s.reloaded.bit F.TURN_STAT_LOCK_WAIT = true) ∧
    (s.reloaded.bit F.TURN_CFG_LOCK_SRC = false → s.reloaded.core.origin = s.reloaded.core.boundary) := by
  have hsame := reloaded_sameOn s
  refine ⟨(hsame .power (by simp)).symm, (hsame .strands (by simp)).symm, ?_⟩
  rw [reloaded_eq]
  have hinstrs : (s.reloadedCast.fset F.ACT_STAT_RUNNING 1).instrs = s.image.instrs := (State.fset_instrs _ _ _).trans s.reloadedCast_instrs
  have hruns : (s.reloadedCast.fset F.ACT_STAT_RUNNING 1).bit F.ACT_STAT_RUNNING = true := State.bit_fset_one _ _ (by decide) (by decide)
  generalize s.reloadedCast.fset F.ACT_STAT_RUNNING 1 = r at hinstrs hruns
  have hlock : r.newOrigin.bit F.TURN_CFG_LOCK_SRC = r.bit F.TURN_CFG_LOCK_SRC := State.bit_congr _ (r.newOrigin_reg (.inr (.inr rfl)))
  rw [hlock]
  exact ⟨(newOrigin_instrs r).trans hinstrs, (State.bit_congr F.ACT_STAT_RUNNING (r.newOrigin_reg (.inr (.inl (by decide))))).trans hruns,
    r.newOrigin_grid⟩

theorem reload_passes {s : State} (hd : s.reloadDue) {h : CastHdr} {l : List Bytes} (hr : s.reloadRefusal h l = none) :
    ∃ t, exec (.deepSleepReload h l) s = .next t ∧ t.power = { s.power with reloaded := true } ∧
      t.instrs = s.image.instrs ∧ t.bit F.ACT_STAT_RUNNING = true ∧ t.strands = s.strands ∧ t.fget F.CFG_STAT_STATE = 5 ∧
      (t.bit F.TURN_CFG_LOCK_SRC = true → t.bit F.TURN_HOLD_SRC_LOCK = true ∧ t.bit F.TURN_STAT_LOCK_WAIT = true) ∧
      (t.bit F.TURN_CFG_LOCK_SRC = false → t.core.origin = t.core.boundary) := by
  have hw := s.onlyWords_watch pwrBits (fun t => t.deepReload h l) (l := [R.HST_EVT]) (by simp)
  rw [deepReload_passes hd hr] at hw
  obtain ⟨hpower, hreg, -, hinstrs, hstrands, hcore⟩ := reloadMarked_watched hw
  obtain ⟨rpower, rstrands, rinstrs, rruns, rlock, rfree⟩ := reloaded_shows s
  rw [State.fset_power, rpower] at hpower
  rw [State.fset_core] at hcore
  have hbit : ∀ f : Fld, f.addr ≠ R.HST_EVT → f.addr ≠ R.CFG_STAT →
      (s.watch pwrBits fun t => t.deepReload h l).bit f = s.reloaded.bit f := fun f he hc =>
    State.bit_congr f ((hreg _ he).trans (State.reg_fset_ne _ _ _ hc))
  refine ⟨_, exec_deepSleepReload h l s, hpower, hinstrs.trans ((State.fset_instrs _ _ _).trans rinstrs),
    (hbit _ (by decide) (by decide)).trans rruns, hstrands.trans ((State.fset_strands _ _ _).trans rstrands), ?_, ?_, ?_⟩
  · exact (State.fget_congr F.CFG_STAT_STATE (hreg _ (by decide))).trans (State.fget_fset _ _ _ (by decide))
  · rw [hbit _ (by decide) (by decide), hbit F.TURN_HOLD_SRC_LOCK (by decide) (by decide), hbit F.TURN_STAT_LOCK_WAIT (by decide) (by decide)]
    exact rlock
  · rw [hbit _ (by decide) (by decide), hcore]
    exact rfree

end Sys2Proof.Machine
end

section
/-! Leaving Run and Idle for Sleep and deeper (R334, R354): which words change, and what is shown. -/

namespace Sys2Proof.Machine

/-- A word that leaving Run may write beside those of the turn unit: of a fault source, the pin status, the trace unit and the NoC, the
cords, the lanes and what stands above them. -/
def leaveWord (a : Nat) : Prop :=
  a = R.HST_EVT ∨ (0x1D000 ≤ a ∧ a < 0x1E000) ∨ a = R.PIN_STAT ∨ (0x80000 ≤ a ∧ a < 0x100000) ∨ 0x1000000 ≤ a

theorem not_stepWord_of_leave {a : Nat} (h : ¬ leaveWord a) : ¬ stepWord a := by
  simp only [leaveWord, stepWord, observedWord] at h ⊢
  omega

section
variable {a : Nat} (h : ¬ leaveWord a)
include h

/-! ### The trace unit's packets -/

theorem ne_traceWord {b : Nat} (hb : 0x80000 ≤ b ∧ b < 0x100000) : a ≠ b := fun he => h (.inr (.inr (.inr (.inl (he ▸ hb)))))

theorem ne_highWord {b : Nat} (hb : 0x1000000 ≤ b) : a ≠ b := fun he => h (.inr (.inr (.inr (.inr (he ▸ hb)))))

theorem memRefused_reg (s : State) (master addr acc : Nat) : (s.memRefused master addr acc).reg a = s.reg a := by
  have hstep := not_stepWord_of_leave h
  have hden : a ≠ F.BNK_DRAM_DENIED_COUNT.addr := ne_highWord h (by decide)
  have hbank : ∀ b, a ≠ (F.BNK_STAT_NONOWN_CNT b).addr := fun b => ne_highWord h (by dsimp only; omega)
  have hdropped := State.reg_fset_ne s F.NOC_ASLEEP_DROP_COUNT (satAdd (2 ^ F.NOC_ASLEEP_DROP_COUNT.w - 1) (s.fget F.NOC_ASLEEP_DROP_COUNT) 1)
    (ne_traceWord h (by decide))
  have hdenied := State.reg_fset_ne s F.BNK_DRAM_DENIED_COUNT (satAdd (2 ^ F.BNK_DRAM_DENIED_COUNT.w - 1) (s.fget F.BNK_DRAM_DENIED_COUNT) 1) hden
  have howner := State.reg_fset_ne s (F.BNK_STAT_NONOWN_CNT (bankOf addr))
    (satAdd (2 ^ (F.BNK_STAT_NONOWN_CNT (bankOf addr)).w - 1) (s.fget (F.BNK_STAT_NONOWN_CNT (bankOf addr))) 1) (hbank _)
  refine reg_ite (reg_ite ?_ (State.reg_fset_ne _ _ _ (ne_traceWord h (by decide)))) (reg_ite ?_ ?_)
  · exact (raise_reg_outside _ _ hstep).trans hdropped
  · exact reg_ite hdenied ((raise_reg_outside _ _ hstep).trans hdenied)
  · exact reg_ite howner ((raise_reg_outside _ _ hstep).trans howner)

theorem storeLine_reg (s : State) (addr : Nat) (bs : Bytes) : (s.storeLine addr bs).reg a = s.reg a := by
  have hbad : ((s.memRefused 0x70 addr accPosted).fset F.TRC_STAT_BUF_ERR 1).reg a = s.reg a :=
    (State.reg_fset_ne _ _ _ (ne_traceWord h (by decide))).trans (memRefused_reg h _ _ _ _)
  have hgood : (s.wrBytes addr bs).reg a = s.reg a := State.reg_congr (State.wrBytes_regs _ _ _) a
  unfold State.storeLine
  refine reg_ite (reg_ite hgood hbad) (reg_ite hbad ?_)
  split
  · exact hgood
  · exact hbad
  · rfl

theorem bufEnd_reg (s : State) : s.bufEnd.reg a = s.reg a := by
  have hwrap : ((s.fset F.TRC_WPTR_WPTR 0).fset F.TRC_STAT_WRAPPED 1).reg a = s.reg a :=
    (State.reg_fset_ne _ _ _ (ne_traceWord h (by decide))).trans (State.reg_fset_ne _ _ _ (ne_traceWord h (by decide)))
  exact reg_ite rfl (reg_ite hwrap (State.reg_fset_ne _ _ _ (ne_traceWord h (by decide))))

theorem writeLines_reg (n : Nat) : ∀ s : State, (s.writeLines n).reg a = s.reg a := by
  induction n with
  | zero => exact fun _ => rfl
  | succ n ih =>
    intro s
    refine reg_ite rfl ((ih _).trans ((bufEnd_reg h _).trans ?_))
    exact (State.reg_fset_ne _ _ _ (ne_traceWord h (by decide))).trans (storeLine_reg h _ _ _)

theorem streamBytes_reg (s : State) (bs : Bytes) : (s.streamBytes bs).reg a = s.reg a := writeLines_reg h _ _

theorem padTo_reg (s : State) (n : Nat) : (s.padTo n).reg a = s.reg a := streamBytes_reg h _ _

theorem portCopy_reg (s : State) (bs : Bytes) : (s.portCopy bs).reg a = s.reg a := by
  unfold State.portCopy
  exact reg_ite rfl (reg_ite rfl (reg_ite (State.reg_fset_ne s.drawn _ _ (ne_traceWord h (by decide))) rfl))

theorem packet_reg (s : State) (bs : Bytes) : (((s.streamBytes bs).portCopy bs).count F.TRC_PKTS_COUNT 1).reg a = s.reg a :=
  (State.reg_fset_ne _ _ _ (ne_traceWord h (by decide))).trans ((portCopy_reg h _ _).trans (streamBytes_reg h _ _))

theorem writeSync_reg (s : State) : s.writeSync.reg a = s.reg a := packet_reg h _ _

theorem writePacket_reg (s : State) (n t recs : Nat) (f : Nat → Bytes) : (s.writePacket n t recs f).reg a = s.reg a := by
  unfold State.writePacket
  dsimp only
  generalize hp : (if s.bit F.TRC_STAT_FULL || decide ((s.fget F.TRC_WPTR_WPTR + s.trace.line.length) % 4096 +
    (n + if s.syncDue t then 32 else 0) ≤ 4096) then s else s.padTo 4096) = u
  have hu : u.reg a = s.reg a := by rw [← hp]; exact reg_ite rfl (padTo_reg h _ _)
  refine reg_ite ((State.reg_fset_ne _ _ _ (ne_traceWord h (by decide))).trans hu) ((packet_reg h _ _).trans ?_)
  exact reg_ite (c := u.syncDue t = true) ((writeSync_reg h _).trans hu) hu

theorem writeOverflow_reg (s : State) : s.writeOverflow.reg a = s.reg a := reg_ite rfl (writePacket_reg h _ _ _ _ _)

theorem handleRec_reg (s : State) (q : QueuedRec) : (s.handleRec q).reg a = s.reg a := by
  have hstat : a ≠ R.TRC_STAT := ne_traceWord h (by decide)
  unfold State.handleRec
  dsimp only
  generalize h1 : (if !s.bit F.TRC_STAT_ACTIVE && s.selMatches (s.reg R.TRC_START_SEL) q.item then s.fset F.TRC_STAT_ACTIVE 1 else s) = u
  have hu : u.reg a = s.reg a := by rw [← h1]; exact reg_ite (State.reg_fset_ne _ _ _ hstat) rfl
  generalize h2 : (if u.bit F.TRC_STAT_ACTIVE && u.qualified q.item then
    u.writePacket (recPacket (u.bit F.TRC_CTL_DATA) 0 q.item).length q.stamp 1 fun dt => recPacket (u.bit F.TRC_CTL_DATA) dt q.item else u) = v
  have hv : v.reg a = s.reg a := by rw [← h2]; exact reg_ite ((writePacket_reg h _ _ _ _ _).trans hu) hu
  exact reg_ite ((State.reg_fset_ne _ _ _ hstat).trans hv) hv

theorem traceNext_reg (s : State) : s.traceNext.reg a = s.reg a := by
  unfold State.traceNext
  dsimp only
  split
  · exact writeOverflow_reg h s
  · exact (handleRec_reg h _ _).trans (writeOverflow_reg h s)

theorem traceDrain_reg (s : State) : s.traceDrain.reg a = s.reg a :=
  (writeOverflow_reg h _).trans (State.each_keeps (fun t => t.reg a) fun t _ _ => traceNext_reg h t)

theorem traceSleep_reg (s : State) (g : Nat) : (s.traceSleep g).reg a = s.reg a := by
  unfold State.traceSleep
  refine reg_ite rfl ?_
  refine (reg_ite (a := a) rfl (padTo_reg h _ _)).trans ((writePacket_reg h _ _ _ _ _).trans (traceDrain_reg h s))

/-! ### Lanes and pins -/

theorem dskLose_reg (s : State) (n : Nat) : (s.dskLose n).reg a = s.reg a :=
  State.each_keeps (fun t => t.reg a) fun t m _ => t.reg_fset_ne _ _ (ne_highWord h (by dsimp only; omega))

theorem loseStages_reg (s : State) (n : Nat) (stage : LaneStage) : (s.loseStages n stage).reg a = s.reg a := by
  have hstat : a ≠ R.LANE_STAT n := ne_highWord h (by simp only [R.LANE_STAT]; omega)
  have hf : ∀ (t : State) (f : Fld) (x : Nat), f.addr = R.LANE_STAT n → t.reg a = s.reg a → (t.fset f x).reg a = s.reg a := fun t f x hfa ht =>
    (t.reg_fset_ne f x (hfa ▸ hstat)).trans ht
  have h1 : ((s.fset (F.LANE_STAT_ALIGNED n) 0).dskLose n).reg a = s.reg a := (dskLose_reg h _ _).trans (State.reg_fset_ne _ _ _ hstat)
  have h2 := hf _ (F.LANE_STAT_FEC_LOCK n) 0 rfl h1
  have h3 := hf _ (F.LANE_STAT_PCS_LOCK n) 0 rfl h2
  have h4 := hf _ (F.LANE_STAT_CDR_LOCK n) 0 rfl h3
  exact reg_ite h1 (reg_ite h2 (reg_ite h3 (reg_ite h4 (hf _ _ _ rfl h4))))

theorem laneStill_reg (s : State) (n : Nat) : (s.laneStill n).reg a = s.reg a := by
  have hes : a ≠ R.LANE_ES_STAT n := ne_highWord h (by simp only [R.LANE_ES_STAT]; omega)
  have hap : ∀ c, a ≠ (calApplied n c).addr := fun c => ne_highWord h (by cases c <;> simp only [calApplied] <;> omega)
  have hcal : (s.calUnlock n).reg a = s.reg a := State.each_keeps (fun t => t.reg a) fun t c _ => t.reg_fset_ne _ _ (hap c.sel)
  have hscan : ∀ t : State, (t.scanAbort n).reg a = t.reg a := fun t =>
    reg_ite ((State.reg_fset_ne _ _ _ hes).trans (State.reg_fset_ne _ _ _ hes)) rfl
  exact reg_ite rfl ((loseStages_reg h _ _ _).trans ((hscan _).trans (reg_ite hcal rfl)))

theorem lanesListen_reg (s : State) (which : Nat → Bool) : (s.lanesListen which).reg a = s.reg a := by
  have hstill : (s.each ((List.range 1056).filter fun n => which n && s.laneHere n) fun s n => s.laneStill n).reg a = s.reg a :=
    State.each_keeps (fun t => t.reg a) fun t n _ => laneStill_reg h t n
  unfold State.lanesListen
  dsimp only
  generalize s.each _ _ = u at hstill
  exact hstill

end

theorem trigIn_reg (s : State) (i : Nat) {a : Nat} (h : a ≠ R.PIN_STAT) : (s.trigIn i).reg a = s.reg a := by
  have hset : ∀ (t : State) (f : Fld) (x : Nat), f.addr = R.PIN_STAT → (t.fset f x).reg a = t.reg a := fun t f x hf =>
    t.reg_fset_ne f x (hf ▸ h)
  unfold State.trigIn State.level
  dsimp only
  refine reg_ite (a := a) ((hset _ _ _ rfl).trans ?_) ?_ <;> exact reg_ite rfl (hset _ _ _ rfl)

theorem trigIns_reg (s : State) {a : Nat} (h : a ≠ R.PIN_STAT) : s.trigIns.reg a = s.reg a :=
  State.each_keeps (fun t => t.reg a) fun t i _ => trigIn_reg t i h

/-- Every lane listens: no word is under way in either direction (R334). -/
theorem lanesListen_quiet (s : State) (n : Nat) : ((s.lanesListen fun _ => true).lane n).tx = none ∧
    ((s.lanesListen fun _ => true).lane n).rx = none := by
  unfold State.lanesListen
  dsimp only
  generalize s.each _ _ = u
  have hlane : SMap.get (fun _ => ({} : Lane)) (SMap.mapv (fun _ => {}) (fun _ x => x.still) u.lanes) n = (u.lane n).still :=
    SMap.get_mapv _ _ _ n rfl
  exact ⟨congrArg Lane.tx hlane, congrArg Lane.rx hlane⟩

end Sys2Proof.Machine
end

section
/-! The device that has left Run or Idle (R88, R334). -/

namespace Sys2Proof.Machine

/-! ### The grid on the flywheel -/

theorem flywheel_idle {s : State} (h : (!s.bit F.TURN_CFG_LOCK_SRC || !s.image.committed || s.bit F.TURN_STAT_LOCK_WAIT) = true) :
    s.flywheel false = s := if_pos h

/-- A word that is neither TURN_STAT nor of TURN_T0. -/
def gridWord (a : Nat) : Prop := a = R.TURN_STAT ∨ (0x100028 ≤ a ∧ a < 0x100034)

theorem flywheel_starts {s : State} (hguard : (!s.bit F.TURN_CFG_LOCK_SRC || !s.image.committed || s.bit F.TURN_STAT_LOCK_WAIT) = false)
    (hfly : s.bit F.TURN_STAT_FLYWHEEL = false) : ∃ u : State, u.regs = (s.fset F.TURN_STAT_FLYWHEEL 1).regs ∧
      (s.flywheel false = u ∨ ∃ t0, s.flywheel false = u.gridAt t0) := by
  refine ⟨{ s with core := { s.core with flyCount := s.core.anchor - 1, flyAt := s.time.now } }.fset F.TURN_STAT_FLYWHEEL 1, rfl, ?_⟩
  unfold State.flywheel
  dsimp only
  rw [if_neg (by simp [hguard]), if_neg (by simp [hfly])]
  cases s.core.anchorT0 with
  | none => exact .inl rfl
  | some t => exact .inr ⟨_, rfl⟩

theorem flywheel_runs {s : State} (hguard : (!s.bit F.TURN_CFG_LOCK_SRC || !s.image.committed || s.bit F.TURN_STAT_LOCK_WAIT) = false)
    (hfly : s.bit F.TURN_STAT_FLYWHEEL = true) : s.flywheel false = { s with core := { s.core with anchorT0 := none } } := by
  unfold State.flywheel
  dsimp only
  rw [if_neg (by simp [hguard]), if_pos hfly]
  rfl

theorem State.flywheel_reg (s : State) {a : Nat} (h : ¬ gridWord a) : (s.flywheel false).reg a = s.reg a := by
  simp only [gridWord, not_or, not_and, Nat.not_lt] at h
  cases hguard : (!s.bit F.TURN_CFG_LOCK_SRC || !s.image.committed || s.bit F.TURN_STAT_LOCK_WAIT)
  · cases hfly : s.bit F.TURN_STAT_FLYWHEEL
    · obtain ⟨u, hu, hcase⟩ := flywheel_starts hguard hfly
      have hreg : u.reg a = s.reg a := (State.reg_congr hu a).trans (State.reg_fset_ne _ _ _ h.1)
      rcases hcase with heq | ⟨t0, heq⟩
      · rwa [heq]
      · rw [heq, gridAt_reg _ _ (by omega), hreg]
    · rw [flywheel_runs hguard hfly]
      rfl
  · rw [flywheel_idle hguard]

/-- Under anchor lock with a T0 the grid goes on by the flywheel. -/
theorem flywheel_shows {s : State} (hlock : s.bit F.TURN_CFG_LOCK_SRC = true) (hc : s.image.committed = true)
    (hwait : s.bit F.TURN_STAT_LOCK_WAIT = false) : (s.flywheel false).bit F.TURN_STAT_FLYWHEEL = true := by
  have hguard : (!s.bit F.TURN_CFG_LOCK_SRC || !s.image.committed || s.bit F.TURN_STAT_LOCK_WAIT) = false := by simp [hlock, hc, hwait]
  cases hfly : s.bit F.TURN_STAT_FLYWHEEL
  · obtain ⟨u, hu, hcase⟩ := flywheel_starts hguard hfly
    have hbit : u.bit F.TURN_STAT_FLYWHEEL = true :=
      (State.bit_congr F.TURN_STAT_FLYWHEEL (State.reg_congr hu _)).trans (State.bit_fset_one _ _ (by decide) (by decide))
    rcases hcase with heq | ⟨t0, heq⟩
    · rwa [heq]
    · rw [heq, State.bit_congr F.TURN_STAT_FLYWHEEL (gridAt_reg u t0 (by decide)), hbit]
  · rw [flywheel_runs hguard hfly]
    exact hfly

/-! ### The steps of leaving Run -/

/-- The grid on the flywheel, and the gap marked on the capture channels. -/
def State.gridLeft (s : State) : State := (s.flywheel false).markAll s.time.now false true false

/-- The pins latched at the levels that they drive (R334). -/
def State.pinsTaken (s : State) : State :=
  { (s.drawn).drawn with pins := { s.pins with latched := some (s.pinDrive (s.freeBits 192) ((s.drawn).freeBits 16)) } }

/-- The device before the trace unit and the lanes leave Run. -/
def State.pinsLatched (s : State) : State := s.gridLeft.pinsTaken.trigIns

/-- The device that has left Run, but for the mark that dispatch has stopped. -/
def State.listening (s : State) (g : Nat) : State := (s.pinsLatched.traceSleep g).lanesListen fun _ => true

theorem State.leaveRun_eq (s : State) (g : Nat) : s.leaveRun g =
    { s.listening g with power := { s.pinsLatched.power with stopped := true } } := by
  unfold State.leaveRun State.listening State.pinsLatched State.pinsTaken State.gridLeft
  dsimp only

/-- The parts of the state that an entry leaves as they are until the domains close. -/
def entryParts : List Part_ := [.power, .flt, .strands, .instrs, .act, .store, .image]

theorem State.pinsLatched_sameOn (s : State) : s.sameOn (.ring :: entryParts) s.pinsLatched := by
  have cl : Closed (s.sameOn (.ring :: entryParts)) 0x320004A04 := Closed.sameOn s _ (by decide)
  have h1 : Sat (s.sameOn (.ring :: entryParts)) s.gridLeft :=
    State.markAll_only (cl.mono (by decide)) (State.flywheel_only (cl.mono (by decide)) (s.sameOn_refl _) false) _ _ _ _
  unfold State.pinsLatched
  generalize s.gridLeft = u at h1
  exact State.trigIns_only (cl.mono (by decide)) (cl.pins rfl _ _ (cl.free rfl _ _ (cl.free rfl _ _ h1)))

theorem State.pinsLatched_latched (s : State) : s.pinsLatched.pins.latched.isSome = true := by
  unfold State.pinsLatched
  rw [trigIns_latched]
  generalize s.gridLeft = u
  rfl

theorem State.pinsLatched_reg (s : State) {a : Nat} (hp : a ≠ R.PIN_STAT) : s.pinsLatched.reg a = (s.flywheel false).reg a := by
  have hmark : s.gridLeft.reg a = (s.flywheel false).reg a := markAll_reg _ _ _ _ _ a
  unfold State.pinsLatched
  rw [trigIns_reg _ hp, ← hmark]
  generalize s.gridLeft = u
  rfl

theorem State.leaveRun_reg (s : State) (g : Nat) {a : Nat} (h : ¬ leaveWord a) : (s.leaveRun g).reg a = (s.flywheel false).reg a := by
  rw [State.leaveRun_eq, State.reg_withPower, State.listening, lanesListen_reg h, traceSleep_reg h]
  exact s.pinsLatched_reg fun he => h (.inr (.inr (.inl he)))

theorem State.leaveRun_power (s : State) (g : Nat) : (s.leaveRun g).power = { s.power with stopped := true } := by
  have hpower : s.power = s.pinsLatched.power := s.pinsLatched_sameOn .power (by decide)
  rw [State.leaveRun_eq, hpower]

theorem State.listening_sameOn (s : State) (g : Nat) : s.sameOn entryParts (s.listening g) := by
  have cl : Closed (s.sameOn entryParts) 0x700001940 := Closed.sameOn s _ (by decide)
  have h1 : Sat (s.sameOn entryParts) s.pinsLatched := fun p hp => s.pinsLatched_sameOn p (List.mem_cons_of_mem _ hp)
  exact State.lanesListen_only (cl.mono (by decide)) (State.traceSleep_only (cl.mono (by decide)) h1 g) _

theorem State.leaveRun_keeps (s : State) (g : Nat) : (s.leaveRun g).flt = s.flt ∧ (s.leaveRun g).strands = s.strands ∧
    (s.leaveRun g).instrs = s.instrs ∧ (s.leaveRun g).act = s.act ∧ (s.leaveRun g).store = s.store := by
  have h := s.listening_sameOn g
  have h1 := h .flt (by decide)
  have h2 := h .strands (by decide)
  have h3 := h .instrs (by decide)
  have h4 := h .act (by decide)
  have h5 := h .store (by decide)
  rw [State.leaveRun_eq]
  generalize s.listening g = u at h1 h2 h3 h4 h5
  exact ⟨h1.symm, h2.symm, h3.symm, h4.symm, h5.symm⟩

/-- A trace unit that is off sends nothing on the way out. -/
theorem leaveRun_ring {s : State} (h : s.bit F.TRC_CTL_EN = false) (g : Nat) : (s.leaveRun g).ring = s.ring := by
  have hoff : s.pinsLatched.bit F.TRC_CTL_EN = false := by
    rw [State.bit_congr F.TRC_CTL_EN (s.pinsLatched_reg (by decide)), State.bit_congr F.TRC_CTL_EN (s.flywheel_reg (by simp [gridWord]))]
    exact h
  have htrace : s.pinsLatched.traceSleep g = s.pinsLatched := if_pos (by simp [hoff])
  have h1 : s.ring = s.pinsLatched.ring := s.pinsLatched_sameOn .ring (by decide)
  have h2 : s.pinsLatched.ring = (s.listening g).ring := by
    unfold State.listening
    rw [htrace]
    exact State.lanesListen_only (Closed.sameOn s.pinsLatched [.ring] (by decide)) (State.sameOn_refl _ _) _ .ring (by simp)
  rw [State.leaveRun_eq]
  generalize s.listening g = u at h2
  exact h2.symm.trans h1.symm

/-- What leaving Run shows: the pins latched, the lanes listening, and the grid of a locked device on the flywheel (R334). -/
def State.showsLeft (s t : State) : Prop :=
  t.pins.latched.isSome = true ∧ (∀ n, (t.lane n).tx = none ∧ (t.lane n).rx = none) ∧
    (s.bit F.TURN_CFG_LOCK_SRC = true → s.image.committed = true → s.bit F.TURN_STAT_LOCK_WAIT = false →
      t.bit F.TURN_STAT_FLYWHEEL = true)

theorem State.leaveRun_showsLeft (s : State) (g : Nat) : s.showsLeft (s.leaveRun g) := by
  have hpins : s.pinsLatched.pins = (s.listening g).pins := by
    have cl : Closed (s.pinsLatched.sameOn [.pins]) 0x700001940 := Closed.sameOn _ _ (by decide)
    exact State.lanesListen_only (cl.mono (by decide)) (State.traceSleep_only (cl.mono (by decide)) (State.sameOn_refl _ _) g) _ .pins (by simp)
  have hlanes : ∀ n, ((s.listening g).lane n).tx = none ∧ ((s.listening g).lane n).rx = none := lanesListen_quiet _
  refine ⟨?_, fun n => ?_, fun hl hc hw => ?_⟩
  · rw [State.leaveRun_eq]
    generalize s.listening g = u at hpins
    exact (congrArg (fun p => p.latched.isSome) hpins.symm).trans s.pinsLatched_latched
  · rw [State.leaveRun_eq]
    generalize s.listening g = u at hlanes
    exact hlanes n
  · rw [State.bit_congr F.TURN_STAT_FLYWHEEL (s.leaveRun_reg g (by simp [leaveWord]))]
    exact flywheel_shows hl hc hw

/-- Words of neither kind are as before. -/
theorem State.leaveRun_reg_kept (s : State) (g : Nat) {a : Nat} (h : ¬ leaveWord a) (hg : ¬ gridWord a) : (s.leaveRun g).reg a = s.reg a :=
  (s.leaveRun_reg g h).trans (s.flywheel_reg hg)

end Sys2Proof.Machine
end

section
/-! What Deep sleep loses (R44, R330, R331). -/

namespace Sys2Proof.Machine

/-- Every domain is lost. -/
def everyDomain : Nat → Bool := fun _ => true

/-- The device with the contents of its domains lost, before the units' own records are. -/
def State.domainsLost (s : State) : State :=
  ((((((s.loseMem everyDomain).loseStrands everyDomain).loseEdge everyDomain).channelsOff everyDomain).lanesLost everyDomain).loseReports everyDomain)

/-- The records of the units after the loss. -/
def State.unitsLost (s : State) : State :=
  { s with
    core := { first := s.core.first, boundary := s.core.boundary, origin := s.core.origin, started := s.core.started, ltOff := s.core.ltOff }
    ring := { s.ring with bights := [], specProbes := [], resps := [], parked := [], waits := [], bankUse := [], oldWords := [],
                          lastInj := [], specInj := [] }
    host := { s.host with queue := [] }
    trig := {}, trace := { s.trace with queue := [], lost := 0 }, sec := { s.sec with sk := none } }

theorem deepLoss_eq (s : State) : s.deepLoss = s.domainsLost.unitsLost.fset F.PWR_STAT_TIME_STOPPED 1 := by
  unfold State.deepLoss State.domainsLost State.unitsLost everyDomain
  dsimp only

/-! ### The parts that are lost -/

theorem dropPorts_ports (s : State) (gone : Nat → Bool) : (s.dropPorts gone).ports = s.ports.filter fun p => !gone (p.1 / 4) := by
  unfold State.dropPorts
  dsimp only
  rw [State.each_keeps (g := State.ports)]
  intro t k _
  split
  · rfl
  · rw [State.fset_ports, State.fset_ports, State.fset_ports]

theorem loseStrands_lost (s : State) : (s.loseStrands everyDomain).instrs = [] ∧ (s.loseStrands everyDomain).ports = [] := by
  have hports : (s.loseStrands everyDomain).ports = (s.dropPorts fun c => everyDomain (2 + c / 32)).ports := by
    unfold State.loseStrands
    dsimp only
  refine ⟨List.filter_eq_nil_iff.mpr fun p _ => by simp [everyDomain], ?_⟩
  rw [hports, dropPorts_ports]
  exact List.filter_eq_nil_iff.mpr fun p _ => by simp [everyDomain]

/-- A strand keeps its state store alone (R44). -/
theorem loseStrands_strand (s : State) (g : Nat) : (s.loseStrands everyDomain).strand g = { store := (s.strand g).store } := by
  have h : SMap.get (fun _ => ({} : Strand)) (SMap.mapv (fun _ => {}) (fun _ x => x.asleep) s.strands) g = (s.strand g).asleep :=
    SMap.get_mapv _ _ _ g rfl
  unfold State.loseStrands State.strand
  dsimp only
  exact h

/-- The status words of a channel at rest. -/
def State.channelAtRest (s : State) (n : Nat) : State :=
  let s1 := if s.fget ⟨R.CAP_STAT n, 0, 4⟩ = 0 then s else (s.fset (F.CAP_STAT_STATE n) 0).fset (F.CAP_STAT_PENDING_ENABLE n) 0
  let s2 := if s1.bit (F.PAT_CTL_EN n) then s1.fset (F.PAT_CTL_EN n) 0 else s1
  if s2.reg (R.PAT_STAT n) = 0 then s2
  else
    (((s2.fset (F.PAT_STAT_ACT_SRC n) 0).fset (F.PAT_STAT_SHUTTING n) 0).fset (F.PAT_STAT_PENDING_ENABLE n) 0).fset
      (F.PAT_STAT_SW_PEND n) 0

/-- The device without the records of its channels. -/
def State.channelsGone (s : State) (which : Nat → Bool) : State :=
  { s with caps := s.caps.filter fun p => !which p.1, pats := s.pats.filter fun p => !which p.1 }

theorem channelsOff_eq (s : State) (which : Nat → Bool) : s.channelsOff which =
    (s.channelsGone which).each ((List.range 1024).filter fun n => which n && s.capHere n) State.channelAtRest := rfl

theorem State.channelAtRest_same (s : State) (n : Nat) : s.sameOn [.caps, .pats] (s.channelAtRest n) := by
  have cl : Closed (s.sameOn [.caps, .pats]) 0x200000000 := Closed.sameOn s _ (by decide)
  have hset : ∀ (t : State) (f : Fld) (x : Nat), Sat (s.sameOn [.caps, .pats]) t → Sat (s.sameOn [.caps, .pats]) (t.fset f x) :=
    fun t f x ht => State.fset_only cl ht f x
  have h1 := onlyIte (P := s.sameOn [.caps, .pats]) (c := s.fget ⟨R.CAP_STAT n, 0, 4⟩ = 0) (s.sameOn_refl _)
    (hset _ (F.CAP_STAT_PENDING_ENABLE n) 0 (hset s (F.CAP_STAT_STATE n) 0 (s.sameOn_refl _)))
  unfold State.channelAtRest
  dsimp only
  generalize (if s.fget ⟨R.CAP_STAT n, 0, 4⟩ = 0 then s else _) = u at h1
  have h2 := onlyIte (c := u.bit (F.PAT_CTL_EN n) = true) (hset _ (F.PAT_CTL_EN n) 0 h1) h1
  generalize (if u.bit (F.PAT_CTL_EN n) = true then u.fset (F.PAT_CTL_EN n) 0 else u) = v at h2
  exact onlyIte h2 (hset _ _ _ (hset _ _ _ (hset _ _ _ (hset _ _ _ h2))))

theorem channelsOff_lost (s : State) : (s.channelsOff everyDomain).caps = [] ∧ (s.channelsOff everyDomain).pats = [] := by
  have hcaps : (s.channelsGone everyDomain).caps = [] := List.filter_eq_nil_iff.mpr fun p _ => by simp [everyDomain]
  have hpats : (s.channelsGone everyDomain).pats = [] := List.filter_eq_nil_iff.mpr fun p _ => by simp [everyDomain]
  rw [channelsOff_eq]
  exact ⟨(State.each_keeps State.caps fun t n _ => (t.channelAtRest_same n .caps (by simp)).symm).trans hcaps,
    (State.each_keeps State.pats fun t n _ => (t.channelAtRest_same n .pats (by simp)).symm).trans hpats⟩

/-! ### The device after the loss -/

/-- From the strands' loss on. -/
theorem lossTail_sameOn (s : State) : (s.loseStrands everyDomain).sameOn [.instrs, .ports, .strands, .mem]
    ((((s.loseStrands everyDomain).loseEdge everyDomain).channelsOff everyDomain).lanesLost everyDomain |>.loseReports everyDomain) := by
  generalize s.loseStrands everyDomain = r
  have cl : Closed (r.sameOn [.instrs, .ports, .strands, .mem]) 0x2A00008F00 := Closed.sameOn r _ (by decide)
  exact State.loseReports_only (cl.mono (by decide)) (State.lanesLost_only (cl.mono (by decide))
    (State.channelsOff_only (cl.mono (by decide)) (State.loseEdge_only (cl.mono (by decide)) (r.sameOn_refl _) _) _) _) _

theorem domainsLost_lost (s : State) : s.domainsLost.instrs = [] ∧ s.domainsLost.ports = [] ∧
    ∀ g, s.domainsLost.strand g = { store := (s.strand g).store } := by
  have h := lossTail_sameOn (s.loseMem everyDomain)
  obtain ⟨hi, hp⟩ := loseStrands_lost (s.loseMem everyDomain)
  have h1 := h .instrs (by simp)
  have h2 := h .ports (by simp)
  have h3 := h .strands (by simp)
  have hstrand : ∀ g, s.domainsLost.strand g = ((s.loseMem everyDomain).loseStrands everyDomain).strand g := fun g =>
    congrArg (fun m => SMap.get (fun _ => ({} : Strand)) m g) h3.symm
  exact ⟨h1.symm.trans hi, h2.symm.trans hp, fun g => (hstrand g).trans (loseStrands_strand _ g)⟩

theorem domainsLost_channels (s : State) : s.domainsLost.caps = [] ∧ s.domainsLost.pats = [] := by
  unfold State.domainsLost
  generalize ((s.loseMem everyDomain).loseStrands everyDomain).loseEdge everyDomain = u
  obtain ⟨hc, hp⟩ := channelsOff_lost u
  generalize u.channelsOff everyDomain = r at hc hp
  have cl : Closed (r.sameOn [.caps, .pats]) 0x2A00000900 := Closed.sameOn r _ (by decide)
  have h := State.loseReports_only (cl.mono (by decide)) (State.lanesLost_only (cl.mono (by decide)) (r.sameOn_refl _) everyDomain) everyDomain
  exact ⟨(h .caps (by simp)).symm.trans hc, (h .pats (by simp)).symm.trans hp⟩

/-- Lost are cord memory, DRAM and the scratch banks but the trace unit's. -/
theorem domainsLost_mem (s : State) : ∀ p ∈ s.domainsLost.mem, p.1 < dramBase ∧
    s.fget (F.BNK_OWN_OWNER (bankOf p.1)) = 0x70 ∧ s.bit (F.BNK_OWN_CORDS (bankOf p.1)) = false := by
  intro p hp
  have hmem : s.domainsLost.mem = (s.loseMem everyDomain).mem :=
    (lossTail_sameOn (s.loseMem everyDomain) .mem (by simp)).symm.trans
      (State.loseStrands_only (Closed.sameOn (s.loseMem everyDomain) [.mem] (by decide)) (State.sameOn_refl _ _) everyDomain .mem (by simp)).symm
  rw [hmem] at hp
  have hkept : s.memGone everyDomain p.1 = false := by
    have := (List.mem_filter.mp hp).2
    simpa using this
  unfold State.memGone everyDomain at hkept
  split_ifs at hkept with hcord hdram
  simp only [Bool.true_and, Bool.not_eq_eq_eq_not, Bool.not_false, Bool.and_eq_true, beq_iff_eq] at hkept
  exact ⟨Nat.lt_of_not_le hdram, hkept⟩

theorem State.channelAtRest_reg (s : State) {n a : Nat} (hn : n < 1024) (h : 0x3300000 ≤ a) : (s.channelAtRest n).reg a = s.reg a := by
  have hcap : a ≠ R.CAP_STAT n := by simp only [R.CAP_STAT]; omega
  have hctl : a ≠ R.PAT_CTL n := by simp only [R.PAT_CTL]; omega
  have hpat : a ≠ R.PAT_STAT n := by simp only [R.PAT_STAT]; omega
  have h1 : (if s.fget ⟨R.CAP_STAT n, 0, 4⟩ = 0 then s
      else (s.fset (F.CAP_STAT_STATE n) 0).fset (F.CAP_STAT_PENDING_ENABLE n) 0).reg a = s.reg a :=
    reg_ite rfl ((State.reg_fset_ne _ _ _ hcap).trans (State.reg_fset_ne _ _ _ hcap))
  unfold State.channelAtRest
  dsimp only
  generalize (if s.fget ⟨R.CAP_STAT n, 0, 4⟩ = 0 then s else _) = u at h1
  have h2 : (if u.bit (F.PAT_CTL_EN n) = true then u.fset (F.PAT_CTL_EN n) 0 else u).reg a = s.reg a :=
    reg_ite ((State.reg_fset_ne _ _ _ hctl).trans h1) h1
  generalize (if u.bit (F.PAT_CTL_EN n) = true then u.fset (F.PAT_CTL_EN n) 0 else u) = v at h2
  refine reg_ite h2 (Eq.trans ?_ h2)
  rw [State.reg_fset_ne _ _ _ hpat, State.reg_fset_ne _ _ _ hpat, State.reg_fset_ne _ _ _ hpat, State.reg_fset_ne _ _ _ hpat]

theorem channelsOff_reg (s : State) (which : Nat → Bool) {a : Nat} (h : 0x3300000 ≤ a) : (s.channelsOff which).reg a = s.reg a := by
  rw [channelsOff_eq]
  exact (State.each_keeps (fun t => t.reg a) fun t n hn => t.channelAtRest_reg (List.mem_range.mp (List.mem_of_mem_filter hn)) h)

theorem laneStatus_high (which : Nat → Bool) {a : Nat} (h : 0x3300000 ≤ a) : laneStatus which a = false := by
  have hlane : ¬ a < R.LANE_CFG 0 + 0x2000 * 1056 := by simp only [R.LANE_CFG]; omega
  have hcap : ¬ a < R.CAP_CFG 0 + 0x40 * 1024 := by simp only [R.CAP_CFG]; omega
  have hpat : ¬ a < R.PAT_CFG 0 + 0x40 * 1024 := by simp only [R.PAT_CFG]; omega
  simp only [laneStatus, hlane, hcap, hpat, decide_false, Bool.and_false, Bool.false_and, Bool.or_false]

theorem lanesLost_reg (s : State) (which : Nat → Bool) {a : Nat} (h : 0x3300000 ≤ a) : (s.lanesLost which).reg a = s.reg a := by
  have hkept := s.reg_filter (fun a => !laneStatus which a) a
  rw [laneStatus_high which h] at hkept
  unfold State.lanesLost
  dsimp only
  refine (State.each_keeps (fun t => t.reg a) fun t n hn => ?_).trans hkept
  have hlt := List.mem_range.mp (List.mem_of_mem_filter hn)
  have hstat : a ≠ R.LANE_STAT n := by simp only [R.LANE_STAT]; omega
  have hprbs : a ≠ (F.LANE_PRBS_CHK_LOCK n).addr := by dsimp only; omega
  have h1 : (if t.reg (R.LANE_STAT n) &&& 0x80 = t.reg (R.LANE_STAT n) then t
      else t.setReg (R.LANE_STAT n) (t.reg (R.LANE_STAT n) &&& 0x80)).reg a = t.reg a := reg_ite rfl (t.reg_setReg_ne _ hstat)
  exact reg_ite ((State.reg_fset_ne _ _ _ hprbs).trans h1) h1

theorem loseReports_reg (s : State) (gone : Nat → Bool) {a : Nat} (h : 0x1E000 ≤ a) : (s.loseReports gone).reg a = s.reg a := by
  unfold State.loseReports
  dsimp only
  refine (State.each_keeps (fun t => t.reg a) fun t c hc => ?_).trans rfl
  have hlost : (srcDomain c).any gone = true := (List.mem_filter.mp hc).2
  obtain ⟨d, hd⟩ : ∃ d, srcDomain c = some d := by
    cases hsrc : srcDomain c with
    | none => rw [hsrc] at hlost; exact absurd hlost (by simp)
    | some d => exact ⟨d, rfl⟩
  have hlt := srcDomain_isSome_lt hd
  exact reg_ite (State.reg_fset_ne _ _ _ (by dsimp only; omega)) rfl

theorem loseStrands_reg (s : State) (gone : Nat → Bool) {a : Nat} (h : 0x3300000 ≤ a) : (s.loseStrands gone).reg a = s.reg a := by
  have hports := dropPorts_reg s (fun c => gone (2 + c / 32)) (.inr (a := shownWord a) (b := 0x2000000 ≤ a) (by omega))
  unfold State.loseStrands
  dsimp only
  generalize s.dropPorts _ = u at hports
  exact hports

theorem loseEdge_reg (s : State) (gone : Nat → Bool) (a : Nat) : (s.loseEdge gone).reg a = s.reg a := rfl

theorem loseMem_reg (s : State) (gone : Nat → Bool) (a : Nat) : (s.loseMem gone).reg a = s.reg a := rfl

theorem deepLoss_reg (s : State) {a : Nat} (h : 0x3300000 ≤ a) : s.deepLoss.reg a = s.reg a := by
  have hstat : a ≠ R.PWR_STAT := by simp only [R.PWR_STAT]; omega
  have hlost : s.domainsLost.reg a = s.reg a := by
    unfold State.domainsLost
    rw [loseReports_reg _ _ (by omega), lanesLost_reg _ _ h, channelsOff_reg _ _ h, loseEdge_reg, loseStrands_reg _ _ h, loseMem_reg]
  rw [deepLoss_eq, State.reg_fset_ne _ _ _ hstat]
  generalize s.domainsLost = u at hlost
  exact hlost

/-- The state that Deep sleep leaves of the device. -/
theorem deepLoss_lost (s : State) : s.deepLoss.instrs = [] ∧ s.deepLoss.ports = [] ∧ s.deepLoss.caps = [] ∧ s.deepLoss.pats = [] ∧
    s.deepLoss.sec.sk = none ∧ (∀ g, s.deepLoss.strand g = { store := (s.strand g).store }) ∧
    ∀ p ∈ s.deepLoss.mem, p.1 < dramBase ∧ s.fget (F.BNK_OWN_OWNER (bankOf p.1)) = 0x70 ∧ s.bit (F.BNK_OWN_CORDS (bankOf p.1)) = false := by
  obtain ⟨hi, hp, hstrand⟩ := domainsLost_lost s
  obtain ⟨hcaps, hpats⟩ := domainsLost_channels s
  have hmem := domainsLost_mem s
  rw [deepLoss_eq]
  generalize s.domainsLost = u at hi hp hstrand hcaps hpats hmem
  exact ⟨hi, hp, hcaps, hpats, rfl, hstrand, hmem⟩

theorem deepLoss_stopped (s : State) : s.deepLoss.bit F.PWR_STAT_TIME_STOPPED = true := by
  rw [deepLoss_eq]
  exact State.bit_fset_one _ _ (by decide) (by decide)

theorem deepLoss_sameOn (s : State) : s.sameOn [.power, .flt] s.deepLoss :=
  State.deepLoss_only (Closed.sameOn s _ (by decide)) (s.sameOn_refl _)

end Sys2Proof.Machine
end

section
/-! The end of an entry: the state is reached, and a wake held behind it starts the exit (R330, R334, R335, R340). -/

namespace Sys2Proof.Machine

/-! ### A state that differs in registers and the power record -/

/-- The lowest wake source held behind the entry (R335). -/
def State.lowestWake (s : State) (src : Nat) : Prop :=
  src < 4 ∧ s.power.wakes.getLsbD src = true ∧ ∀ i < src, s.power.wakes.getLsbD i = false

theorem heldWake_none {s : State} (h : s.power.wakes = 0) : s.heldWake = none :=
  List.find?_eq_none.mpr fun i _ => by simp [h]

theorem heldWake_lowest {s : State} {src : Nat} (h : s.lowestWake src) : s.heldWake = some src := by
  obtain ⟨hlt, hset, hlow⟩ := h
  exact List.find?_range_eq_some.mpr ⟨hset, List.mem_range.mpr hlt, fun j hj => by simp [hlow j hj]⟩

/-! ### The state is reached -/

/-- The power record once the state is reached. -/
def State.enteredPower (s : State) : Power :=
  { s.power with entering := false, wakes := 0, stopped := false, patWin := 0xFFFFFFFF, patRun := 0, patHit := false }

/-- State `g` shows. -/
def State.reaching (s : State) (g : Nat) : State := { s with power := s.enteredPower }.fset F.PWR_STAT_STATE g

/-- State `g` is reached, and the transition has ended. -/
def State.entered (s : State) (g : Nat) : State := (s.reaching g).fset F.PWR_STAT_TRANSITION 0

theorem State.entered_state (s : State) {g : Nat} (h : g < 8) : (s.entered g).fget F.PWR_STAT_STATE = g := by
  unfold State.entered State.reaching
  rw [State.fget_fset_other _ _ _ _ (by decide), State.fget_fset _ _ _ (by decide)]
  exact Nat.mod_eq_of_lt h

theorem State.entered_transition (s : State) (g : Nat) : (s.entered g).bit F.PWR_STAT_TRANSITION = false :=
  State.bit_fset_zero _ _ (by decide) (by decide)

theorem State.entered_reg (s : State) (g : Nat) {a : Nat} (h : a ≠ R.PWR_STAT) : (s.entered g).reg a = s.reg a := by
  unfold State.entered State.reaching
  rw [State.reg_fset_ne _ _ _ h, State.reg_fset_ne _ _ _ h, State.reg_withPower]

theorem State.entered_timeStopped (s : State) (g : Nat) : (s.entered g).bit F.PWR_STAT_TIME_STOPPED = s.bit F.PWR_STAT_TIME_STOPPED := by
  unfold State.entered State.reaching
  rw [State.bit_fset_apart _ _ _ _ (by decide) (.inr (.inl (by decide))), State.bit_fset_apart _ _ _ _ (by decide) (.inr (.inl (by decide))),
    State.bit_withPower]

theorem pwrExit_timeStopped (s : State) (src : Nat) : (s.pwrExit src).bit F.PWR_STAT_TIME_STOPPED = s.bit F.PWR_STAT_TIME_STOPPED := by
  rw [State.bit_congr F.PWR_STAT_TIME_STOPPED (s.pwrExit_stat src), State.bit_fset_apart _ _ _ _ (by decide) (.inr (.inl (by decide))),
    State.bit_fset_apart _ _ _ _ (by decide) (.inr (.inr (by decide))), State.bit_fset_apart _ _ _ _ (by decide) (.inr (.inl (by decide)))]

theorem reaching_ends {s : State} (h : s.flt.deferred = []) (g : Nat) : (s.reaching g).endTransition = s.entered g := endTransition_calm h

theorem entryDone_still {s : State} (h : s.calm) {g : Nat} (hw : s.heldWake = none) : s.entryDone g = s.entered g := by
  obtain ⟨hheld, hdeferred⟩ := h
  have hdone : s.entryDone g = (s.reaching g).endTransition.servePwr := by
    unfold State.entryDone
    rw [hw]
    rfl
  rw [hdone, reaching_ends hdeferred]
  exact servePwr_none hheld

theorem entryDone_wakes {s : State} (h : s.calm) {g src : Nat} (hg : g < 8) (hw : s.heldWake = some src) :
    s.entryDone g = (s.entered g).pwrExit src := by
  obtain ⟨hheld, hdeferred⟩ := h
  have hdone : s.entryDone g = (if (s.reaching g).endTransition.fget F.PWR_STAT_STATE = g then (s.reaching g).endTransition.pwrExit src
      else (s.reaching g).endTransition).servePwr := by
    unfold State.entryDone
    rw [hw]
    rfl
  have hheld' : ((s.entered g).pwrExit src).power.held = none := by
    rw [State.pwrExit_eq]
    exact hheld
  rw [hdone, reaching_ends hdeferred, if_pos (s.entered_state hg)]
  exact servePwr_none hheld'

/-- The end of an entry changes the power record and words of PWR_STAT and CFG_STAT alone. -/
theorem entryDone_unit {s : State} (h : s.calm) {g : Nat} (hg : g < 8) {α : Type} (f : State → α)
    (hf : ∀ t r p, f { t with regs := r, power := p } = f t) : f (s.entryDone g) = f s := by
  cases hw : s.heldWake with
  | none => exact (congrArg f (entryDone_still h hw)).trans (hf s (s.entered g).regs s.enteredPower)
  | some src =>
    rw [entryDone_wakes h hg hw, State.pwrExit_unit _ _ f hf]
    exact hf s (s.entered g).regs s.enteredPower

theorem entryDone_reg {s : State} (h : s.calm) {g : Nat} (hg : g < 8) {a : Nat} (hstat : a ≠ R.PWR_STAT) (hcfg : a ≠ R.CFG_STAT ∨ g ≠ 3) :
    (s.entryDone g).reg a = s.reg a := by
  cases hw : s.heldWake with
  | none => rw [entryDone_still h hw, s.entered_reg g hstat]
  | some src =>
    rw [entryDone_wakes h hg hw, ← s.entered_reg g hstat]
    by_cases ha : a = R.CFG_STAT
    · rw [ha]
      exact pwrExit_reg_cfg (by rw [s.entered_state hg]; exact hcfg.resolve_left (not_not.mpr ha)) src
    · exact (s.entered g).pwrExit_reg src hstat ha

theorem entryDone_timeStopped {s : State} (h : s.calm) {g : Nat} (hg : g < 8) :
    (s.entryDone g).bit F.PWR_STAT_TIME_STOPPED = s.bit F.PWR_STAT_TIME_STOPPED := by
  cases hw : s.heldWake with
  | none => rw [entryDone_still h hw, s.entered_timeStopped g]
  | some src => rw [entryDone_wakes h hg hw, pwrExit_timeStopped, s.entered_timeStopped g]

theorem entryDone_sleptAt {s : State} (h : s.calm) {g : Nat} (hg : g < 8) : (s.entryDone g).power.sleptAt = s.power.sleptAt := by
  cases hw : s.heldWake with
  | none => rw [entryDone_still h hw]; rfl
  | some src => rw [entryDone_wakes h hg hw, State.pwrExit_eq]; rfl

/-- The entry of `s` has ended in state `g`; a wake held behind it has started the exit. -/
def State.endsIn (s t : State) (g : Nat) : Prop :=
  t.fget F.PWR_STAT_STATE = g ∧
    (s.power.wakes = 0 → t.bit F.PWR_STAT_TRANSITION = false ∧ t.power.entering = false ∧ t.power.exiting = s.power.exiting) ∧
    ∀ src, s.lowestWake src → t.bit F.PWR_STAT_TRANSITION = true ∧ t.power.entering = false ∧ t.power.exiting = true ∧
      t.fget F.PWR_STAT_LAST_WAKE = src

theorem entryDone_endsIn {s : State} (h : s.calm) {g : Nat} (hg : g < 8) : s.endsIn (s.entryDone g) g := by
  refine ⟨?_, fun hw => ?_, fun src hsrc => ?_⟩
  · cases hw : s.heldWake with
    | none => rw [entryDone_still h hw, s.entered_state hg]
    | some src => rw [entryDone_wakes h hg hw, State.pwrExit_state, s.entered_state hg]
  · rw [entryDone_still h (heldWake_none hw)]
    exact ⟨s.entered_transition g, rfl, rfl⟩
  · have hlt : src < 8 := hsrc.1.trans (by decide)
    rw [entryDone_wakes h hg (heldWake_lowest hsrc)]
    refine ⟨State.pwrExit_transition _ _, ?_, ?_, State.pwrExit_lastWake _ hlt⟩ <;> rw [State.pwrExit_eq] <;> rfl

/-- The end of an entry as another state shows it. -/
theorem State.endsIn.shown {s t u : State} {g : Nat} (h : s.endsIn t g) (hstat : u.reg R.PWR_STAT = t.reg R.PWR_STAT)
    (hpower : u.power = t.power) : s.endsIn u g := by
  obtain ⟨h1, h2, h3⟩ := h
  have hstate := State.fget_congr F.PWR_STAT_STATE hstat
  have htrans := State.bit_congr F.PWR_STAT_TRANSITION hstat
  have hlast := State.fget_congr F.PWR_STAT_LAST_WAKE hstat
  unfold State.endsIn
  rw [hstate, htrans, hpower]
  simp only [hlast]
  exact ⟨h1, h2, h3⟩

theorem State.endsIn.of {s v t : State} {g : Nat} (h : v.endsIn t g) (hw : v.power.wakes = s.power.wakes)
    (hx : v.power.exiting = s.power.exiting) : s.endsIn t g := by
  unfold State.endsIn State.lowestWake at h ⊢
  rwa [hw, hx] at h

end Sys2Proof.Machine
end

section
/-! The entry to Idle, Sleep, Deep sleep and Off (R330, R334, R340). -/

namespace Sys2Proof.Machine

/-! ### The domains close -/

/-- HST_ALIVE at the entry is noted. -/
def State.sleeping (s : State) : State := { s with power := { s.power with sleptAt := s.reg R.HST_ALIVE } }

theorem closeDomains_sleep {s : State} (h : s.power.target = 2) : s.closeDomains = s.sleeping.entryDone 2 := by
  unfold State.closeDomains State.sleeping
  dsimp only
  rw [if_neg (by rw [h]; decide), if_neg (by rw [h]; decide), h]

theorem closeDomains_deep {s : State} (h : s.power.target = 3) : s.closeDomains = s.deepLoss.sleeping.entryDone 3 := by
  unfold State.closeDomains State.sleeping
  dsimp only
  rw [if_neg (by rw [h]; decide), if_pos h, h]

theorem closeDomains_off {s : State} (h : s.power.target = 4) (hw : s.heldWake = none) : s.closeDomains = s.enterOff := by
  unfold State.closeDomains
  dsimp only
  rw [if_pos h, hw]

theorem closeDomains_offAndOn {s : State} (h : s.power.target = 4) {src : Nat} (hw : s.heldWake = some src) :
    s.closeDomains = s.enterOff.coldStart src := by
  unfold State.closeDomains
  dsimp only
  rw [if_pos h, hw]

/-! ### What an entry from `s` has made of it -/

/-- The entry of `s` to its target has ended in `t`. -/
def State.entryMade (s t : State) : Prop :=
  (s.power.target = 2 → s.endsIn t 2 ∧ t.power.sleptAt = s.reg R.HST_ALIVE ∧ t.strands = s.strands ∧ t.instrs = s.instrs ∧
    (s.power.stopped = false → s.fget F.PWR_STAT_STATE < 2 → s.showsLeft t)) ∧
  (s.power.target = 3 → s.endsIn t 3 ∧ t.bit F.PWR_STAT_TIME_STOPPED = true ∧
    t.instrs = [] ∧ t.ports = [] ∧ t.caps = [] ∧ t.pats = [] ∧ t.sec.sk = none ∧
    (∀ g, t.strand g = { store := (s.strand g).store }) ∧
    ∀ p ∈ t.mem, p.1 < dramBase ∧ t.fget (F.BNK_OWN_OWNER (bankOf p.1)) = 0x70 ∧ t.bit (F.BNK_OWN_CORDS (bankOf p.1)) = false) ∧
  (s.power.target = 4 → t.mem = [] ∧ t.image = {} ∧ t.strands = [] ∧
    (s.power.wakes = 0 → t.fget F.PWR_STAT_STATE = 4 ∧ t.store = s.store ∧ ∀ a, a ≠ R.PWR_STAT → a ≠ R.HST_EVT →
      t.reg a = (if persisted a || wakeReg a then s.reg a else RegMap.resetWord a)) ∧
    ∀ src, s.lowestWake src → t.fget F.PWR_STAT_STATE = 0 ∧ t.fget F.PWR_STAT_LAST_WAKE = src)

/-- The device `v`, whose domains are about to close in the entry of `s`. -/
structure State.readyToClose (s v : State) : Prop where
  power : ∃ b, v.power = { s.power with stopped := b }
  flt : v.flt = s.flt
  strands : v.strands = s.strands
  instrs : v.instrs = s.instrs
  store : v.store = s.store
  alive : v.reg R.HST_ALIVE = s.reg R.HST_ALIVE
  off : ∀ a, offWord a = true → v.reg a = s.reg a
  left : s.power.stopped = false → s.fget F.PWR_STAT_STATE < 2 → s.showsLeft v

theorem State.readyToClose.self {s : State} (h : ¬(s.power.stopped = false ∧ s.fget F.PWR_STAT_STATE < 2)) : s.readyToClose s :=
  ⟨⟨s.power.stopped, rfl⟩, rfl, rfl, rfl, rfl, rfl, fun _ _ => rfl, fun hs hst => absurd ⟨hs, hst⟩ h⟩

theorem not_leaveWord_of_off {a : Nat} (h : offWord a = true) : ¬ leaveWord a ∧ ¬ gridWord a := by
  simp only [offWord, persisted, wakeReg, Bool.or_eq_true, Bool.and_eq_true, beq_iff_eq, decide_eq_true_eq, R.FLT_RST_CAUSE, R.FLT_LOG_IDX,
    R.FLT_LOG, R.SEC_RB_CNT, R.PWR_WAKE_EN, R.PWR_PAT, R.PWR_WAKE_LANE] at h
  simp only [leaveWord, gridWord, R.HST_EVT, R.PIN_STAT, R.TURN_STAT]
  omega

theorem State.readyToClose.afterRun (s : State) (g : Nat) : s.readyToClose (s.leaveRun g) := by
  obtain ⟨hflt, hstrands, hinstrs, -, hstore⟩ := s.leaveRun_keeps g
  exact ⟨⟨true, s.leaveRun_power g⟩, hflt, hstrands, hinstrs, hstore,
    s.leaveRun_reg_kept g (by simp [leaveWord, R.HST_ALIVE]) (by simp [gridWord, R.HST_ALIVE]),
    fun a ha => s.leaveRun_reg_kept g (not_leaveWord_of_off ha).1 (not_leaveWord_of_off ha).2, fun _ _ => s.leaveRun_showsLeft g⟩

section
variable {s v t : State} (hc : s.readyToClose v) (hcalm : s.calm) (hw : v.closeDomains.onlyWords t [R.HST_EVT])
include hc

theorem closing_target : v.power.target = s.power.target := by
  obtain ⟨b, hb⟩ := hc.power
  rw [hb]

theorem closing_wakes : v.power.wakes = s.power.wakes ∧ v.power.exiting = s.power.exiting := by
  obtain ⟨b, hb⟩ := hc.power
  rw [hb]
  exact ⟨rfl, rfl⟩

theorem closing_heldWake : v.heldWake = s.heldWake := by
  unfold State.heldWake
  rw [(closing_wakes hc).1]

include hcalm

theorem closing_calm : v.calm := by
  obtain ⟨b, hb⟩ := hc.power
  refine ⟨?_, ?_⟩
  · rw [hb]
    exact hcalm.1
  · rw [hc.flt]
    exact hcalm.2

include hw

/-- Sleep keeps the strands (R330). -/
theorem closing_sleep (ht : s.power.target = 2) : s.endsIn t 2 ∧ t.power.sleptAt = s.reg R.HST_ALIVE ∧ t.strands = s.strands ∧
    t.instrs = s.instrs ∧ (s.power.stopped = false → s.fget F.PWR_STAT_STATE < 2 → s.showsLeft t) := by
  have hcalm' := closing_calm hc hcalm
  have hv : v.sleeping.calm := hcalm'
  rw [closeDomains_sleep ((closing_target hc).trans ht)] at hw
  obtain ⟨hwakes, hexit⟩ := closing_wakes hc
  have hends := entryDone_endsIn hv (g := 2) (by decide)
  have hslept := entryDone_sleptAt hv (g := 2) (by decide)
  have hunit : ∀ {α : Type} (f : State → α) (_ : ∀ t r p, f { t with regs := r, power := p } = f t), f (v.sleeping.entryDone 2) = f v :=
    fun f hf => (entryDone_unit hv (by decide) f hf).trans (hf v v.regs _)
  have hreg : ∀ a, a ≠ R.PWR_STAT → (v.sleeping.entryDone 2).reg a = v.reg a := fun a ha =>
    (entryDone_reg hv (by decide) ha (.inr (by decide))).trans (v.reg_withPower _ a)
  have hstrands := (hunit State.strands fun _ _ _ => rfl).trans hc.strands
  have hinstrs := (hunit State.instrs fun _ _ _ => rfl).trans hc.instrs
  have hpins := hunit State.pins fun _ _ _ => rfl
  have hlanes := hunit State.lanes fun _ _ _ => rfl
  have hturn := hreg R.TURN_STAT (by decide)
  generalize v.sleeping.entryDone 2 = w at hw hends hslept hstrands hinstrs hpins hlanes hturn
  have hpower : t.power = w.power := hw.unit State.power fun _ => rfl
  refine ⟨(hends.shown (hw.2 _ (by decide)) hpower).of hwakes hexit, ?_, (hw.unit State.strands fun _ => rfl).trans hstrands,
    (hw.unit State.instrs fun _ => rfl).trans hinstrs, fun hs hst => ?_⟩
  · rw [hpower, hslept]
    exact hc.alive
  · obtain ⟨hp, hl, hf⟩ := hc.left hs hst
    have hpins' : t.pins = v.pins := (hw.unit State.pins fun _ => rfl).trans hpins
    have hlanes' : t.lanes = v.lanes := (hw.unit State.lanes fun _ => rfl).trans hlanes
    refine ⟨by rw [hpins']; exact hp, fun n => ?_, fun h1 h2 h3 => ?_⟩
    · unfold State.lane
      rw [hlanes']
      exact hl n
    · rw [State.bit_congr F.TURN_STAT_FLYWHEEL ((hw.2 _ (by decide)).trans hturn)]
      exact hf h1 h2 h3

/-- Deep sleep keeps the state stores, and of memory at most the trace bank (R330). -/
theorem closing_deep (ht : s.power.target = 3) : s.endsIn t 3 ∧ t.bit F.PWR_STAT_TIME_STOPPED = true ∧
    t.instrs = [] ∧ t.ports = [] ∧ t.caps = [] ∧ t.pats = [] ∧ t.sec.sk = none ∧
    (∀ g, t.strand g = { store := (s.strand g).store }) ∧
    ∀ p ∈ t.mem, p.1 < dramBase ∧ t.fget (F.BNK_OWN_OWNER (bankOf p.1)) = 0x70 ∧ t.bit (F.BNK_OWN_CORDS (bankOf p.1)) = false := by
  rw [closeDomains_deep ((closing_target hc).trans ht)] at hw
  have hpower : v.power = v.deepLoss.power := deepLoss_sameOn v .power (by simp)
  have hflt : v.flt = v.deepLoss.flt := deepLoss_sameOn v .flt (by simp)
  have hv : v.deepLoss.calm := by
    obtain ⟨h1, h2⟩ := closing_calm hc hcalm
    exact ⟨by rw [← hpower]; exact h1, by rw [← hflt]; exact h2⟩
  obtain ⟨hi, hp, hcap, hpat, hsk, hstrand, hmem⟩ := deepLoss_lost v
  have hstop := deepLoss_stopped v
  have hregs : ∀ a, 0x3300000 ≤ a → v.deepLoss.reg a = v.reg a := fun a ha => deepLoss_reg v ha
  generalize v.deepLoss = x at hw hpower hv hi hp hcap hpat hsk hstrand hmem hstop hregs
  obtain ⟨hwakes, hexit⟩ := closing_wakes hc
  have hs : x.sleeping.calm := hv
  have hends := entryDone_endsIn hs (g := 3) (by decide)
  have hunit : ∀ {α : Type} (f : State → α) (_ : ∀ t r p, f { t with regs := r, power := p } = f t), f (x.sleeping.entryDone 3) = f x :=
    fun f hf => (entryDone_unit hs (by decide) f hf).trans (hf x x.regs _)
  have hreg : ∀ a, 0x3300000 ≤ a → (x.sleeping.entryDone 3).reg a = v.reg a := fun a ha =>
    (entryDone_reg hs (by decide) (by simp only [R.PWR_STAT]; omega) (.inl (by simp only [R.CFG_STAT]; omega))).trans
      ((x.reg_withPower _ a).trans (hregs a ha))
  have htime := (entryDone_timeStopped hs (g := 3) (by decide)).trans hstop
  have ei := (hunit State.instrs fun _ _ _ => rfl).trans hi
  have ep := (hunit State.ports fun _ _ _ => rfl).trans hp
  have ec := (hunit State.caps fun _ _ _ => rfl).trans hcap
  have et := (hunit State.pats fun _ _ _ => rfl).trans hpat
  have ek := (hunit (fun t => t.sec.sk) fun _ _ _ => rfl).trans hsk
  have es := hunit State.strands fun _ _ _ => rfl
  have em := hunit State.mem fun _ _ _ => rfl
  have hends' : s.endsIn (x.sleeping.entryDone 3) 3 := by
    refine hends.of ?_ ?_
    · exact (congrArg Power.wakes hpower.symm).trans hwakes
    · exact (congrArg Power.exiting hpower.symm).trans hexit
  generalize x.sleeping.entryDone 3 = w at hw hends' hreg htime ei ep ec et ek es em
  have hstrands : t.strands = x.strands := (hw.unit State.strands fun _ => rfl).trans es
  have hmems : t.mem = x.mem := (hw.unit State.mem fun _ => rfl).trans em
  have hbank : ∀ b, t.reg (R.BNK_OWN b) = v.reg (R.BNK_OWN b) := fun b =>
    (hw.2 _ (by simp only [List.mem_singleton, R.BNK_OWN, R.HST_EVT]; omega)).trans (hreg _ (by simp only [R.BNK_OWN]; omega))
  refine ⟨hends'.shown (hw.2 _ (by decide)) (hw.unit State.power fun _ => rfl), (State.bit_congr _ (hw.2 _ (by decide))).trans htime,
    (hw.unit State.instrs fun _ => rfl).trans ei, (hw.unit State.ports fun _ => rfl).trans ep, (hw.unit State.caps fun _ => rfl).trans ec,
    (hw.unit State.pats fun _ => rfl).trans et, (hw.unit (fun t => t.sec.sk) fun _ => rfl).trans ek, fun g => ?_, fun p hp => ?_⟩
  · have hx : t.strand g = x.strand g := congrArg (fun m => SMap.get (fun _ => ({} : Strand)) m g) hstrands
    have hsg : v.strand g = s.strand g := congrArg (fun m => SMap.get (fun _ => ({} : Strand)) m g) hc.strands
    rw [hx, hstrand g, hsg]
  · rw [hmems] at hp
    obtain ⟨hlow, hown, hcords⟩ := hmem p hp
    exact ⟨hlow, (State.fget_congr (F.BNK_OWN_OWNER (bankOf p.1)) (hbank _)).trans hown,
      (State.bit_congr (F.BNK_OWN_CORDS (bankOf p.1)) (hbank _)).trans hcords⟩

omit hcalm in
/-- Off keeps the registers of the persistent store and the wake settings alone; a wake held behind the entry starts the device
(R330, R340). -/
theorem closing_off (ht : s.power.target = 4) : t.mem = [] ∧ t.image = {} ∧ t.strands = [] ∧
    (s.power.wakes = 0 → t.fget F.PWR_STAT_STATE = 4 ∧ t.store = s.store ∧ ∀ a, a ≠ R.PWR_STAT → a ≠ R.HST_EVT →
      t.reg a = (if persisted a || wakeReg a then s.reg a else RegMap.resetWord a)) ∧
    ∀ src, s.lowestWake src → t.fget F.PWR_STAT_STATE = 0 ∧ t.fget F.PWR_STAT_LAST_WAKE = src := by
  have ht' := (closing_target hc).trans ht
  cases hwake : s.heldWake with
  | none =>
    rw [closeDomains_off ht' ((closing_heldWake hc).trans hwake)] at hw
    obtain ⟨hmem, himage, hstrands, hstore⟩ := v.enterOff_empties
    have hstate := v.enterOff_state
    have hreg : ∀ a, a ≠ R.PWR_STAT → v.enterOff.reg a = if offWord a then s.reg a else RegMap.resetWord a := fun a ha => by
      rw [v.enterOff_reg ha]
      split
      · next ho => exact hc.off a ho
      · rfl
    generalize v.enterOff = w at hw hmem himage hstrands hstore hstate hreg
    refine ⟨(hw.unit State.mem fun _ => rfl).trans hmem, (hw.unit State.image fun _ => rfl).trans himage,
      (hw.unit State.strands fun _ => rfl).trans hstrands, fun _ => ⟨(State.fget_congr _ (hw.2 _ (by decide))).trans hstate,
        (hw.unit State.store fun _ => rfl).trans (hstore.trans hc.store), fun a ha he => (hw.2 a (by simpa using he)).trans (hreg a ha)⟩,
      fun src hsrc => absurd ((heldWake_lowest hsrc).symm.trans hwake) (by simp)⟩
  | some src =>
    rw [closeDomains_offAndOn ht' ((closing_heldWake hc).trans hwake)] at hw
    obtain ⟨hmem, himage, hstrands, -⟩ := v.enterOff.coldStart_empties src
    have hshows : src < 8 → _ := fun h => v.enterOff.coldStart_shows h
    generalize v.enterOff.coldStart src = w at hw hmem himage hstrands hshows
    refine ⟨(hw.unit State.mem fun _ => rfl).trans hmem, (hw.unit State.image fun _ => rfl).trans himage,
      (hw.unit State.strands fun _ => rfl).trans hstrands, fun h0 => absurd ((heldWake_none h0).symm.trans hwake) (by simp), fun k hk => ?_⟩
    have hkey : k = src := Option.some.inj ((heldWake_lowest hk).symm.trans hwake)
    subst hkey
    obtain ⟨hstate, -, hlast⟩ := hshows (hk.1.trans (by decide))
    have hstat := hw.2 R.PWR_STAT (by decide)
    exact ⟨(State.fget_congr _ hstat).trans hstate, (State.fget_congr _ hstat).trans hlast⟩

theorem closing_entryMade : s.entryMade t :=
  ⟨closing_sleep hc hcalm hw, closing_deep hc hcalm hw, closing_off hc hw⟩

end

end Sys2Proof.Machine
end

section
/-! STEP_CLOCK_STOP, and the power states settled (R330–R340). -/

namespace Sys2Proof.Machine

/-! ### The step clock stops -/

/-- Action operations or ring accesses are under way (R117, R334). -/
def State.inFlight (s : State) : Prop := (∃ p ∈ s.act.units, p.2.ops ≠ []) ∨ s.ring.waits ≠ [] ∨ s.ring.resps ≠ []

theorem quiet_iff (s : State) : (s.unitsQuiet && s.ringsQuiet) = true ↔ ¬ s.inFlight := by
  simp only [State.unitsQuiet, State.ringsQuiet, State.inFlight, Bool.and_eq_true, List.all_eq_true, List.isEmpty_iff, not_or, not_exists,
    not_and, ne_eq, not_not]

theorem exec_stepClockStop (s : State) : exec .stepClockStop s = .next (s.watch pwrBits State.stopClock) := rfl

theorem stopClock_waits {s : State} (h : s.power.entering = false ∨ s.core.phase ≠ .slack ∨
      (s.power.target ≠ 1 ∧ s.fget F.PWR_STAT_STATE < 2 ∧ s.power.stopped = false ∧ s.core.outComm ≠ [])) : s.stopClock = s := by
  unfold State.stopClock
  dsimp only
  rcases h with h | h | ⟨ht, hst, hs, hout⟩
  · exact if_pos (by simp [h])
  · exact if_pos (by simp [h])
  · by_cases hidle : (!s.power.entering || s.core.phase != .slack) = true
    · exact if_pos hidle
    · rw [if_neg hidle, if_neg ht, if_pos (by simp [hst, hs, hout])]

section
variable {s : State} (he : s.power.entering = true) (hp : s.core.phase = .slack)
include he hp

theorem stopClock_idle (ht : s.power.target = 1) : s.stopClock = s.entryDone 1 := by
  unfold State.stopClock
  dsimp only
  rw [if_neg (by simp [he, hp]), if_pos ht]

/-- An entry past its first step: what has not left Run leaves it, and the domains close when what is in flight has ended. -/
theorem stopClock_goes {v : State} (ht : s.power.target ≠ 1)
    (hout : (decide (s.fget F.PWR_STAT_STATE < 2) && !s.power.stopped && !s.core.outComm.isEmpty) = false)
    (hv : (if (decide (s.fget F.PWR_STAT_STATE < 2) && !s.power.stopped) = true then s.leaveRun s.power.target else s) = v) :
    (v.inFlight → s.fget F.PWR_STAT_STATE < 2 → s.stopClock = v) ∧
      (¬ (v.inFlight ∧ s.fget F.PWR_STAT_STATE < 2) → s.stopClock = v.closeDomains) := by
  have heq : s.stopClock = if (decide (s.fget F.PWR_STAT_STATE < 2) && !(v.unitsQuiet && v.ringsQuiet)) = true then v else v.closeDomains := by
    rw [← hv]
    exact (if_neg (by simp [he, hp])).trans ((if_neg ht).trans (if_neg (ne_true_of_eq_false hout)))
  have hq := quiet_iff v
  rw [heq]
  refine ⟨fun hf hst => if_pos ?_, fun hf => if_neg ?_⟩
  · have hbusy : (v.unitsQuiet && v.ringsQuiet) = false := eq_false_of_ne_true fun h => hq.mp h hf
    simp only [hbusy, hst, decide_true, Bool.not_false, Bool.and_self]
  · by_cases hst : s.fget F.PWR_STAT_STATE < 2
    · simp [hq.mpr fun h => hf ⟨h, hst⟩]
    · simp [hst]

/-- From Sleep the domains close at once. -/
theorem stopClock_dark (ht : s.power.target ≠ 1) (hst : ¬ s.fget F.PWR_STAT_STATE < 2) : s.stopClock = s.closeDomains :=
  (stopClock_goes he hp ht (by simp [hst]) (if_neg (by simp [hst]))).2 fun h => hst h.2

theorem stopClock_stopped (ht : s.power.target ≠ 1) (hs : s.power.stopped = true) :
    (s.inFlight → s.fget F.PWR_STAT_STATE < 2 → s.stopClock = s) ∧
      (¬ (s.inFlight ∧ s.fget F.PWR_STAT_STATE < 2) → s.stopClock = s.closeDomains) :=
  stopClock_goes he hp ht (by simp [hs]) (if_neg (by simp [hs]))

theorem stopClock_leaves (ht : s.power.target ≠ 1) (hst : s.fget F.PWR_STAT_STATE < 2) (hs : s.power.stopped = false)
    (hout : s.core.outComm = []) :
    ((s.leaveRun s.power.target).inFlight → s.fget F.PWR_STAT_STATE < 2 → s.stopClock = s.leaveRun s.power.target) ∧
      (¬ ((s.leaveRun s.power.target).inFlight ∧ s.fget F.PWR_STAT_STATE < 2) →
        s.stopClock = (s.leaveRun s.power.target).closeDomains) :=
  stopClock_goes he hp ht (by simp [hout]) (if_pos (by simp [hst, hs]))

/-- Idle is reached once the step clock has stopped. -/
theorem stepClockStop_idle (hcalm : s.calm) (ht : s.power.target = 1) : ∃ t, exec .stepClockStop s = .next t ∧ s.endsIn t 1 ∧
    t.core = s.core ∧ t.mem = s.mem ∧ t.strands = s.strands ∧ s.wordsBut t [R.PWR_STAT, R.HST_EVT] := by
  have hw := s.onlyWords_watch pwrBits State.stopClock (l := [R.HST_EVT]) (by simp)
  rw [stopClock_idle he hp ht] at hw
  have hends := entryDone_endsIn hcalm (g := 1) (by decide)
  have hcore := entryDone_unit hcalm (g := 1) (by decide) State.core fun _ _ _ => rfl
  have hmem := entryDone_unit hcalm (g := 1) (by decide) State.mem fun _ _ _ => rfl
  have hstrands := entryDone_unit hcalm (g := 1) (by decide) State.strands fun _ _ _ => rfl
  have hreg : ∀ a, a ≠ R.PWR_STAT → (s.entryDone 1).reg a = s.reg a := fun a ha =>
    entryDone_reg hcalm (by decide) ha (.inr (by decide))
  generalize s.entryDone 1 = w at hw hends hcore hmem hstrands hreg
  refine ⟨_, exec_stepClockStop s, hends.shown (hw.2 _ (by decide)) (hw.unit State.power fun _ => rfl),
    (hw.unit State.core fun _ => rfl).trans hcore, (hw.unit State.mem fun _ => rfl).trans hmem,
    (hw.unit State.strands fun _ => rfl).trans hstrands, fun a ha => ?_⟩
  simp only [List.mem_cons, List.not_mem_nil, or_false, not_or] at ha
  exact (hw.2 a (by simpa using ha.2)).trans (hreg a ha.1)

omit he hp in
/-- The domains of `v` close, and the entry of `s` has ended. -/
theorem stepClockStop_made {v : State} (hcalm : s.calm) (hc : s.readyToClose v) (heq : s.stopClock = v.closeDomains) :
    ∃ t, exec .stepClockStop s = .next t ∧ s.entryMade t := by
  have hw := s.onlyWords_watch pwrBits State.stopClock (l := [R.HST_EVT]) (by simp)
  rw [heq] at hw
  exact ⟨_, exec_stepClockStop s, closing_entryMade hc hcalm hw⟩

theorem stepClockStop_dark (hcalm : s.calm) (ht : s.power.target ≠ 1) (hst : ¬ s.fget F.PWR_STAT_STATE < 2) :
    ∃ t, exec .stepClockStop s = .next t ∧ s.entryMade t :=
  stepClockStop_made hcalm (.self fun h => hst h.2) (stopClock_dark he hp ht hst)

theorem stepClockStop_inFlight (ht : s.power.target ≠ 1) (hst : s.fget F.PWR_STAT_STATE < 2) (hs : s.power.stopped = true)
    (hf : s.inFlight) : exec .stepClockStop s = .next s :=
  (exec_stepClockStop s).trans (congrArg _ (watch_unchanged _ ((stopClock_stopped he hp ht hs).1 hf hst)))

/-- The entry from Run or Idle ends, or what is in flight holds it up with dispatch stopped. -/
theorem stepClockStop_awake (hcalm : s.calm) (ht : s.power.target ≠ 1) (hst : s.fget F.PWR_STAT_STATE < 2)
    (hout : s.power.stopped = true ∨ s.core.outComm = []) : ∃ t, exec .stepClockStop s = .next t ∧ (s.entryMade t ∨
      (t.inFlight ∧ t.power = { s.power with stopped := true } ∧ t.dispatchOn = false ∧
        t.fget F.PWR_STAT_STATE = s.fget F.PWR_STAT_STATE ∧ t.strands = s.strands ∧ t.instrs = s.instrs ∧
        (s.power.stopped = false → s.showsLeft t) ∧ (s.power.stopped = true → t = s))) := by
  cases hs : s.power.stopped
  · obtain ⟨hflight, hquiet⟩ := stopClock_leaves he hp ht hst hs (hout.resolve_left (by simp [hs]))
    by_cases hf : (s.leaveRun s.power.target).inFlight
    · have hw := s.onlyWords_watch pwrBits State.stopClock (l := [R.HST_EVT]) (by simp)
      rw [hflight hf hst] at hw
      have hpower := s.leaveRun_power s.power.target
      obtain ⟨-, hstrands, hinstrs, -, -⟩ := s.leaveRun_keeps s.power.target
      have hleft := s.leaveRun_showsLeft s.power.target
      have hstat := s.leaveRun_reg_kept s.power.target (a := R.PWR_STAT) (by simp [leaveWord, R.PWR_STAT, R.HST_EVT, R.PIN_STAT])
        (by simp [gridWord, R.PWR_STAT, R.TURN_STAT])
      generalize s.leaveRun s.power.target = v at hw hf hpower hstrands hinstrs hleft hstat
      obtain ⟨hpins, hlanes, hgrid⟩ := hleft
      have hact : (s.watch pwrBits State.stopClock).act = v.act := hw.unit State.act fun _ => rfl
      have hring : (s.watch pwrBits State.stopClock).ring = v.ring := hw.unit State.ring fun _ => rfl
      have hpower' : (s.watch pwrBits State.stopClock).power = { s.power with stopped := true } :=
        (hw.unit State.power fun _ => rfl).trans hpower
      have hlanes' : (s.watch pwrBits State.stopClock).lanes = v.lanes := hw.unit State.lanes fun _ => rfl
      refine ⟨_, exec_stepClockStop s, .inr ⟨?_, hpower', ?_, State.fget_congr F.PWR_STAT_STATE ((hw.2 _ (by decide)).trans hstat),
        (hw.unit State.strands fun _ => rfl).trans hstrands, (hw.unit State.instrs fun _ => rfl).trans hinstrs, fun _ => ⟨?_, fun n => ?_, ?_⟩,
        fun h => absurd h (by decide)⟩⟩
      · unfold State.inFlight
        rw [hact, hring]
        exact hf
      · unfold State.dispatchOn
        rw [hpower']
        simp
      · exact (hw.unit (fun t => t.pins.latched.isSome) fun _ => rfl).trans hpins
      · unfold State.lane
        rw [hlanes']
        exact hlanes n
      · rw [State.bit_congr F.TURN_STAT_FLYWHEEL (hw.2 _ (by decide))]
        exact hgrid
    · obtain ⟨t, ht', hmade⟩ := stepClockStop_made hcalm (.afterRun s _) (hquiet fun h => hf h.1)
      exact ⟨t, ht', .inl hmade⟩
  · by_cases hf : s.inFlight
    · refine ⟨s, stepClockStop_inFlight he hp ht hst hs hf, .inr ⟨hf, by rw [← hs], ?_, rfl, rfl, rfl,
        fun h => absurd h (by decide), fun _ => rfl⟩⟩
      unfold State.dispatchOn
      simp [hs]
    · obtain ⟨t, ht', hmade⟩ := stepClockStop_made hcalm (.self fun h => by simp [hs] at h) ((stopClock_stopped he hp ht hs).2 fun h => hf h.1)
      exact ⟨t, ht', .inl hmade⟩

/-- With nothing in flight, and no trace to send on the way, the entry ends at once. -/
theorem stepClockStop_quiet (hcalm : s.calm) (ht : s.power.target ≠ 1) (hst : s.fget F.PWR_STAT_STATE < 2)
    (hout : s.power.stopped = true ∨ s.core.outComm = []) (htrace : s.power.stopped = true ∨ s.bit F.TRC_CTL_EN = false)
    (hf : ¬ s.inFlight) : ∃ t, exec .stepClockStop s = .next t ∧ s.entryMade t := by
  cases hs : s.power.stopped
  · obtain ⟨-, hquiet⟩ := stopClock_leaves he hp ht hst hs (hout.resolve_left (by simp [hs]))
    have hring := leaveRun_ring (htrace.resolve_left (by simp [hs])) s.power.target
    obtain ⟨-, -, -, hact, -⟩ := s.leaveRun_keeps s.power.target
    refine stepClockStop_made hcalm (.afterRun s _) (hquiet fun ⟨hf', _⟩ => hf ?_)
    unfold State.inFlight at hf' ⊢
    rwa [hact, hring] at hf'
  · exact stepClockStop_made hcalm (.self fun h => by simp [hs] at h) ((stopClock_stopped he hp ht hs).2 fun h => hf h.1)

end

/-- Settles O51: each command is shown by its own lemmas — the request and its answer, the end of an entry from what leaving Run and the
loss of the domains keep, the wake, the end of an exit, and the reload. -/
theorem powerStates : Obligations.PowerStates := by
  unfold Obligations.PowerStates
  intro leaves asks calm lowest moving
  refine ⟨fun g s => ⟨fun h => exec_pwrGo_away h g, fun h hf => ?_, fun h hf => ?_⟩,
    fun f s => ⟨fun h => exec_pwrFlagRequest_idle h, fun h hgo => ?_, fun h hgo => ?_⟩,
    fun s h => (exec_stepClockStop s).trans (congrArg _ (watch_unchanged _ (stopClock_waits h))),
    fun s he hp hcalm => ⟨fun ht => stepClockStop_idle he hp hcalm ht, fun h2 _ hst _ => stepClockStop_dark he hp hcalm (by omega) hst,
      fun h2 _ hst hout => ⟨stepClockStop_awake he hp hcalm (by omega) hst hout,
        fun hs hf => stepClockStop_inFlight he hp (by omega) hst hs hf,
        fun htrace hf => stepClockStop_quiet he hp hcalm (by omega) hst hout htrace hf⟩⟩,
    fun src s => ⟨fun h => (exec_wake src s).trans (congrArg _ (watch_unchanged _ (wake_ignored h))),
      fun hseen hen hoff he => wake_heldBehindEntry hseen hen hoff he, fun hseen hen hoff he hx hf => wake_atExit hseen hen hoff he hx hf,
      fun hseen hen h1 h3 he hx => wake_startsExit hseen hen (by omega) (by omega) he hx,
      fun hseen hen hoff hsrc => wake_outOfOff hseen hen hoff hsrc⟩,
    fun s h => (exec_pwrExitComplete s).trans (congrArg _ (watch_unchanged _ (pwrExitComplete_idle h))), fun s hx hcalm h => ?_,
    fun h l s => ⟨fun hd => (exec_deepSleepReload h l s).trans (congrArg _ (watch_unchanged _ (deepReload_idle hd h l))),
      fun hd hr => reload_passes hd hr, fun c i hd hr => reload_refused hd hr⟩⟩
  case refine_1 =>
    have hyields := flagYields_other hf
    refine ⟨_, exec_pwrGo_taken h g, s.goTaken_target g.isLt, s.goTaken_goAt _, ?_⟩
    have hanswer := s.goTaken_answered g.toNat
    rw [hyields] at hanswer
    exact hanswer
  case refine_2 =>
    obtain ⟨-, hnone, hentering⟩ := flagYields_refused hf
    exact ⟨_, exec_pwrGo_taken h g, goTaken_refused hf _, s.goTaken_answered _, hnone, hentering, fun he => flagYields_undoes hf he⟩
  case refine_3 =>
    have hw := s.onlyWords_watch pwrBits State.flagRequest (l := [R.PWR_STAT, R.HST_EVT]) (by simp)
    rw [flagRequest_meetsGo hgo] at hw
    refine ⟨_, exec_pwrFlagRequest_runs h, ?_, (s.onlyWords_fset 1 (by simp)).trans hw⟩
    have hset := s.watch_bit pwrBits State.flagRequest F.PWR_STAT_REFUSED (by decide)
    rw [hset, flagRequest_meetsGo hgo]
    exact State.bit_fset_one _ _ (by decide) (by decide)
  case refine_4 =>
    obtain ⟨hanswer, hctl⟩ := flagRequest_answered hgo
    exact ⟨_, exec_pwrFlagRequest_runs h, hctl, hanswer⟩
  case refine_5 =>
    have hw := s.onlyWords_watch pwrBits State.pwrExitComplete (l := [R.HST_EVT]) (by simp)
    rw [pwrExitComplete_runs hx h] at hw
    obtain ⟨hstate, htrans, hhold⟩ := exitDone_shows hcalm
    have hpower := exitDone_power hcalm
    have hlight := fun hst => exitDone_light (s := s) hcalm hst
    have hgap := fun hst => exitDone_gap (s := s) hcalm hst
    generalize s.exitDone = w at hw hstate htrans hhold hpower hlight hgap
    have hstat := hw.2 R.PWR_STAT (by decide)
    refine ⟨_, exec_pwrExitComplete s, (State.fget_congr _ hstat).trans hstate, (State.bit_congr _ hstat).trans htrans,
      (hw.unit State.power fun _ => rfl).trans hpower, (State.bit_congr F.TURN_HOLD_SRC_PWR (hw.2 _ (by decide))).trans hhold,
      fun hst => ?_, fun hst => ?_⟩
    · obtain ⟨hmem, hcore, hwords⟩ := hlight hst
      refine ⟨(hw.unit State.mem fun _ => rfl).trans hmem, (hw.unit State.core fun _ => rfl).trans hcore, fun a ha => ?_⟩
      simp only [List.mem_cons, List.not_mem_nil, or_false, not_or] at ha
      exact (hw.2 a (by simpa using ha.2.2)).trans (hwords a (by simp [ha.1, ha.2.1]))
    · obtain ⟨hus, hlatched⟩ := hgap hst
      exact ⟨(hw.unit (fun t => t.pins.latched) fun _ => rfl).trans hlatched,
        (State.fget_congr F.PWR_GAP_US_COUNT (hw.2 _ (by decide))).trans hus⟩

end Sys2Proof.Machine
end

section
/-! What a word does before its station matches the slot table entries: the result and the row's own side effect (R52, R57, R58, R60, R62). -/

namespace Sys2Proof.Machine

/-! ### The state before the matching -/

/-- The operands are fetched, where the class does so, and the result is entered. -/
def State.resulted (s : State) (g t : Nat) (w : W64) : State :=
  (if opFetches (wOp w) then (s.fetchOperands g t (s.prefixStep t) w).1 else s).enterResult g (s.wordResult g t w)

/-- The state of a word's step that its station matches: the result is entered and a latch write, a port write or a check done. -/
def State.acted (s : State) (g t : Nat) (w : W64) : State :=
  if wOp w = opEvalLatch then (s.resulted g t w).stageState g t (wAux w % 1024) (s.wordResult g t w)
  else if wOp w = opEvalPort then
    (s.resulted g t w).stagePort g t (wAux w % 256) ((wAux w).testBit 11) (s.wordResult g t w)
  else if wOp w = opEvalCheck ∧ s.wordResult g t w = true then (s.resulted g t w).markEvent g t (wAux w % 1024)
  else s.resulted g t w

/-- What the word offers to the entries that name it: an EVAL_SEND its tag and its result. -/
def State.sends (s : State) (g t : Nat) (w : W64) : Option (Nat × Bool) :=
  if wOp w = opEvalSend then some (wAux w % 32, s.wordResult g t w) else none

section

variable {s : State} {g t : Nat} {w : W64}

theorem acted_evalLatch (h : wOp w = opEvalLatch) :
    s.acted g t w = (s.resulted g t w).stageState g t (wAux w % 1024) (s.wordResult g t w) := if_pos h

theorem acted_evalPort (h : wOp w = opEvalPort) :
    s.acted g t w = (s.resulted g t w).stagePort g t (wAux w % 256) ((wAux w).testBit 11) (s.wordResult g t w) := by
  have hlatch : opEvalPort ≠ opEvalLatch := by decide
  simp only [State.acted, h, hlatch, if_true, if_false]

theorem acted_evalCheck_set (h : wOp w = opEvalCheck) (hr : s.wordResult g t w = true) :
    s.acted g t w = (s.resulted g t w).markEvent g t (wAux w % 1024) := by
  have hother : opEvalCheck ≠ opEvalLatch ∧ opEvalCheck ≠ opEvalPort := by decide
  simp only [State.acted, h, hr, hother, and_self, if_true, if_false]

theorem acted_evalCheck_clear (h : wOp w = opEvalCheck) (hr : s.wordResult g t w = false) : s.acted g t w = s.resulted g t w := by
  have hother : opEvalCheck ≠ opEvalLatch ∧ opEvalCheck ≠ opEvalPort := by decide
  simp only [State.acted, h, hr, hother, Bool.false_eq_true, and_false, if_false]

theorem acted_plain (hlatch : wOp w ≠ opEvalLatch) (hport : wOp w ≠ opEvalPort) (hcheck : wOp w ≠ opEvalCheck) :
    s.acted g t w = s.resulted g t w := by
  simp only [State.acted, hlatch, hport, hcheck, false_and, if_false]

theorem sends_evalSend (h : wOp w = opEvalSend) : s.sends g t w = some (wAux w % 32, s.wordResult g t w) := if_pos h

theorem sends_other (h : wOp w ≠ opEvalSend) : s.sends g t w = none := if_neg h

/-- The step of a word that fetches its operands (R52). -/
theorem runWord_fetching (hf : opFetches (wOp w) = true) :
    s.runWord g t w = (s.acted g t w).matchEntries g t false (s.sends g t w) := by
  have hresulted : s.resulted g t w = (s.fetchOperands g t (s.prefixStep t) w).1.enterResult g (s.wordResult g t w) := by
    rw [State.resulted, if_pos hf]
  have hresult : (wTT w).testBit (ttIndex (s.fetchOperands g t (s.prefixStep t) w).2) = s.wordResult g t w := by
    rw [wordResult_evaluates hf, fetchOperands_snd]
  unfold State.runWord
  simp only [hf, if_true, hresult, ← hresulted]
  by_cases hlatch : wOp w = opEvalLatch
  · rw [if_pos hlatch, acted_evalLatch hlatch, sends_other (by rw [hlatch]; decide)]
  by_cases hsend : wOp w = opEvalSend
  · rw [if_neg hlatch, if_pos hsend, sends_evalSend hsend,
      acted_plain hlatch (by rw [hsend]; decide) (by rw [hsend]; decide)]
  rw [if_neg hlatch, if_neg hsend, sends_other hsend]
  by_cases hport : wOp w = opEvalPort
  · rw [if_pos hport, acted_evalPort hport]
  rw [if_neg hport]
  by_cases hcheck : wOp w = opEvalCheck
  · rw [if_pos hcheck]
    cases hr : s.wordResult g t w with
    | true => rw [acted_evalCheck_set hcheck hr, if_pos rfl]
    | false => rw [acted_evalCheck_clear hcheck hr, if_neg Bool.false_ne_true]
  · rw [if_neg hcheck, acted_plain hlatch hport hcheck]

/-- The step of a NOP, a STATE_READ or a TURN_END (R52). -/
theorem runWord_unfetching (hf : ¬ opFetches (wOp w) = true) : s.runWord g t w =
    if wOp w = opTurnEnd then ((s.acted g t w).matchEntries g t false (s.sends g t w)).endSchedule
    else (s.acted g t w).matchEntries g t false (s.sends g t w) := by
  have hnot : ∀ op, opFetches op = true → wOp w ≠ op := fun op hop e => hf (e ▸ hop)
  have hacted : s.acted g t w = s.enterResult g (s.wordResult g t w) := by
    rw [acted_plain (hnot _ rfl) (hnot _ rfl) (hnot _ rfl), State.resulted, if_neg hf]
  rw [hacted, sends_other (hnot _ rfl)]
  unfold State.runWord State.wordResult
  simp only [hf, if_false, Bool.false_eq_true]
  by_cases hread : wOp w = opStateRead
  · have hend : opStateRead ≠ opTurnEnd := by decide
    simp only [hread, hend, if_true, if_false]
  · simp only [hread, if_false]

/-- A word's step: what it does itself, the matching, and the end of the schedule after a TURN_END. -/
theorem runWord_acted (s : State) (g t : Nat) (w : W64) : s.runWord g t w =
    if wOp w = opTurnEnd then ((s.acted g t w).matchEntries g t false (s.sends g t w)).endSchedule
    else (s.acted g t w).matchEntries g t false (s.sends g t w) := by
  by_cases hf : opFetches (wOp w) = true
  · obtain ⟨-, hend⟩ := checked_of_fetches hf
    rw [runWord_fetching hf, if_neg hend]
  · exact runWord_unfetching hf

theorem runWord_turnEnd (h : wOp w = opTurnEnd) :
    s.runWord g t w = ((s.enterResult g false).matchEntries g t false none).endSchedule := by
  have hother : opTurnEnd ≠ opEvalLatch ∧ opTurnEnd ≠ opEvalPort ∧ opTurnEnd ≠ opEvalCheck ∧ opTurnEnd ≠ opEvalSend := by decide
  obtain ⟨hlatch, hport, hcheck, hsend⟩ := hother
  rw [runWord_acted, if_pos h, acted_plain (by rwa [h]) (by rwa [h]) (by rwa [h]), sends_other (by rwa [h]), State.resulted,
    wordResult_silent (.inr h), h]
  rfl

end

/-! ### What it leaves -/

theorem resulted_only {P : State → Prop} (cl : Closed P 0x200000808) {s : State} (h : Sat P s) (g t : Nat) (w : W64) :
    Sat P (s.resulted g t w) := by
  unfold State.resulted
  refine State.enterResult_only (cl.mono rfl) ?_ _ _
  split
  · exact State.fetchOperands_only (cl.mono rfl) h _ _ _ _
  · exact h

theorem acted_only {P : State → Prop} (cl : Closed P 0x20000082C) {s : State} (h : Sat P s) (g t : Nat) (w : W64) :
    Sat P (s.acted g t w) := by
  have hresulted := resulted_only (cl.mono rfl) h g t w
  unfold State.acted
  split_ifs
  · exact State.stageState_only (cl.mono rfl) hresulted _ _ _ _
  · exact State.stagePort_only (cl.mono rfl) hresulted _ _ _ _ _
  · exact State.markEvent_only (cl.mono rfl) hresulted _ _ _
  · exact hresulted

theorem resulted_sameOn (s : State) (g t : Nat) (w : W64) : s.sameOn [.core, .ports] (s.resulted g t w) :=
  resulted_only (Closed.sameOn s _ (by decide)) (s.sameOn_refl _) g t w

theorem resulted_core (s : State) (g t : Nat) (w : W64) : (s.resulted g t w).core = s.core :=
  (resulted_sameOn s g t w .core (by simp)).symm

theorem port_of_same {s t : State} (h : s.ports = t.ports) (k : Nat) : t.port k = s.port k := by
  unfold State.port
  rw [h]

theorem resulted_port (s : State) (g t : Nat) (w : W64) (k : Nat) : (s.resulted g t w).port k = s.port k :=
  port_of_same (resulted_sameOn s g t w .ports (by simp)) k

theorem resulted_strand (s : State) (g t : Nat) (w : W64) : (s.resulted g t w).strand g = (s.strand g).advance (s.wordResult g t w) := by
  unfold State.resulted
  rw [strand_enterResult, if_pos rfl]
  split
  · rw [strand_fetchOperands]
  · rfl

theorem acted_ring (s : State) (g t : Nat) (w : W64) : (s.acted g t w).ring = s.ring :=
  (acted_only (Closed.sameOn s [.ring] (by decide)) (s.sameOn_refl _) g t w .ring (by simp)).symm

theorem resulted_reg (s : State) (g t : Nat) (w : W64) {a : Nat} (h : ¬ stepWord a) : (s.resulted g t w).reg a = s.reg a := by
  have hfetched : (if opFetches (wOp w) then (s.fetchOperands g t (s.prefixStep t) w).1 else s).reg a = s.reg a :=
    reg_ite (fetchOperands_reg s g t _ w h) rfl
  exact hfetched

theorem acted_reg (s : State) (g t : Nat) (w : W64) {a : Nat} (h : ¬ stepWord a) : (s.acted g t w).reg a = s.reg a := by
  have hresulted := resulted_reg s g t w h
  exact reg_ite ((stageState_reg _ _ _ _ _ h).trans hresulted)
    (reg_ite hresulted (reg_ite ((markEvent_reg _ _ _ _ _).trans hresulted) hresulted))

/-- The matching and the end of the schedule change neither the core nor the ports. -/
theorem runWord_keeps (s : State) (g t : Nat) (w : W64) : (s.acted g t w).sameOn [.core, .ports] (s.runWord g t w) := by
  have hmatch : (s.acted g t w).sameOn [.core, .ports] ((s.acted g t w).matchEntries g t false (s.sends g t w)) :=
    State.matchEntries_only (Closed.sameOn _ _ (by decide)) (State.sameOn_refl _ _) g t false _
  rw [runWord_acted]
  split
  · exact State.endSchedule_only (Closed.sameOn _ _ (by decide)) hmatch
  · exact hmatch

theorem told_endSchedule {s : State} {src code : Nat} (h : s.told src code) : s.endSchedule.told src code :=
  h.congr (State.endSchedule_only (Closed.sameOn s [.reports] (by decide)) (s.sameOn_refl _) .reports (by simp)).symm

/-- What the matching tells is told after the step. -/
theorem told_runWord {s : State} {g t : Nat} {w : W64} {src code : Nat}
    (h : ((s.acted g t w).matchEntries g t false (s.sends g t w)).told src code) : (s.runWord g t w).told src code := by
  rw [runWord_acted]
  split
  · exact told_endSchedule h
  · exact h

/-- H0 after the step is the word's result. -/
theorem hist_runWord (s : State) (g t : Nat) (w : W64) : ((s.runWord g t w).strand g).hist.getLsbD 0 = s.wordResult g t w := by
  obtain ⟨staged, hself⟩ := strand_runWord_self s g t w
  rw [hself]
  show ((s.strand g).hist <<< 1 ||| (if s.wordResult g t w then 1 else 0)).getLsbD 0 = _
  cases s.wordResult g t w <;> simp

/-! ### The start of the step -/

/-- The start of a step changes the core's step and its time only. -/
theorem enterStep_core (s : State) (t : Nat) : ∃ cur stepAt, (s.enterStep t).core = { s.core with cur, stepAt } := by
  unfold State.enterStep
  split
  · exact ⟨_, _, rfl⟩
  · exact ⟨_, _, (State.injectIsolated_only (Closed.sameOn _ [.core] (by decide))
      (State.startFires_only (Closed.sameOn _ [.core] (by decide)) (State.sameOn_refl _ _)) t .core (by simp)).symm⟩

theorem enterStep_base (s : State) (t : Nat) : (s.enterStep t).core.base = s.core.base := by
  obtain ⟨_, _, h⟩ := enterStep_core s t
  rw [h]

theorem enterStep_asserts (s : State) (t : Nat) : (s.enterStep t).core.asserts = s.core.asserts := by
  obtain ⟨_, _, h⟩ := enterStep_core s t
  rw [h]

theorem probeBight_slots (s : State) (stn side pos step : Nat) (val spec : Bool) :
    (s.probeBight stn side pos step val spec).ring.slots = s.ring.slots :=
  State.each_keeps (fun t => t.ring.slots) fun t n _ => by
    have hhit : ∀ bytes r, (t.probeHit n bytes r).ring.slots = t.ring.slots := fun bytes r =>
      congrArg Ring.slots (probeHit_ring t n bytes r)
    dsimp only
    split
    · split <;> exact hhit _ _
    · rfl

theorem inject_slots (s : State) (stn dir pos step : Nat) (val spec : Bool) :
    (s.inject stn dir pos step val spec).ring.slots = s.ring.slots := by
  refine (probeBight_slots _ _ _ _ _ _ _).trans ?_
  unfold State.launch
  split
  · rfl
  · dsimp only
    split
    · exact probeBight_slots _ _ _ _ _ _ _
    · rfl

/-- No slot table entry changes at the start of a step. -/
theorem enterStep_slots (s : State) (t : Nat) : (s.enterStep t).ring.slots = s.ring.slots := by
  unfold State.enterStep
  split
  · rfl
  · set u : State := { s with core := { s.core with cur := some t, stepAt := s.time.now } }
    have hfires : u.startFires.ring = u.ring :=
      (State.startFires_only (Closed.sameOn u [.ring] (by decide)) (u.sameOn_refl _) .ring (by simp)).symm
    refine (State.each_keeps (fun v => v.ring.slots) fun v c _ => ?_).trans (congrArg Ring.slots hfires)
    split
    · refine State.each_keeps (fun v => v.ring.slots) fun v e _ => ?_
      split
      · exact inject_slots v _ _ _ _ _ _
      · rfl
    · rfl

/-! ### What the station finds -/

theorem State.stepAs_of {s t : State} (hwords : ∀ a, ¬ stepWord a → t.reg a = s.reg a) (hident : s.identityOf t)
    (hkeeps : s.sameOn [.por, .warm] t) : s.StepAs t where
  words := hwords
  part := hident.2.1
  por := (hkeeps .por (by simp)).symm
  warm := (hkeeps .warm (by simp)).symm

theorem State.StepAs.trans {s t u : State} (h : s.StepAs t) (k : t.StepAs u) : s.StepAs u where
  words a ha := (k.words a ha).trans (h.words a ha)
  part := k.part.trans h.part
  por := k.por.trans h.por
  warm := k.warm.trans h.warm

theorem resulted_stepAs (s : State) (g t : Nat) (w : W64) : s.StepAs (s.resulted g t w) :=
  State.stepAs_of (fun _ h => resulted_reg s g t w h) (resulted_only ((closed_identityOf s).mono rfl) ⟨rfl, rfl, rfl⟩ g t w)
    (resulted_only (Closed.sameOn s _ (by decide)) (s.sameOn_refl _) g t w)

theorem acted_stepAs (s : State) (g t : Nat) (w : W64) : s.StepAs (s.acted g t w) :=
  State.stepAs_of (fun _ h => acted_reg s g t w h) (acted_only ((closed_identityOf s).mono rfl) ⟨rfl, rfl, rfl⟩ g t w)
    (acted_only (Closed.sameOn s _ (by decide)) (s.sameOn_refl _) g t w)

theorem stepFault_stepAs (s : State) (g t ord : Nat) (f : Nat × Nat × Nat) : s.StepAs (s.stepFault g t ord f) :=
  State.stepAs_of (fun _ h => stepFault_reg s g t ord f h)
    (State.stepFault_only ((closed_identityOf s).mono rfl) ⟨rfl, rfl, rfl⟩ g t ord f)
    (State.stepFault_only (Closed.sameOn s _ (by decide)) (s.sameOn_refl _) g t ord f)

theorem injectEntry_stepAs (s : State) (stn dir pos step : Nat) (val spec : Bool) :
    s.StepAs (s.injectEntry stn dir pos step val spec) :=
  State.stepAs_of (fun _ h => injectEntry_reg s _ _ _ _ _ _ fun ho => h (.inl ho))
    (State.injectEntry_only ((closed_identityOf s).mono rfl) ⟨rfl, rfl, rfl⟩ stn dir pos step val spec)
    (State.injectEntry_only (Closed.sameOn s _ (by decide)) (s.sameOn_refl _) stn dir pos step val spec)

theorem State.StepAs.closed {s t : State} (h : s.StepAs t) : t.closed = s.closed := by
  simp only [State.closed, State.big, h.part, h.bit (f := F.NOC_STAT_CLOSED) (by simp [stepWord, observedWord, R.HST_EVT])]

theorem State.StepAs.bridgeCost {s t : State} (h : s.StepAs t) : t.bridgeCost = s.bridgeCost := by
  simp only [State.bridgeCost, h.bit (f := F.NOC_STAT_PROFILE) (by simp [stepWord, observedWord, R.HST_EVT])]

/-- The inject entries of its station that name strand `g` at step `t` (R59). -/
def State.naming (s : State) (g t : Nat) : List (Nat × Nat) :=
  (s.outEntries (gCord g) t).filter fun e => entryKind e.2 = 1 ∧ entryStrand e.2 = g % 1024

theorem State.StepAs.naming {s t : State} (h : s.StepAs t) (hslots : t.ring.slots = s.ring.slots) {g : Nat} (hg : g < 2 ^ 17)
    (n : Nat) : t.naming g n = s.naming g n := by
  have hcord : gCord g < 0x80 := by unfold gCord; omega
  have hactive : t.fget (stnActive (gCord g)) = s.fget (stnActive (gCord g)) :=
    h.fget (by simp only [stnActive, hcord, if_true, stepWord, observedWord, R.HST_EVT]; omega)
  simp only [State.naming, State.outEntries, hactive, hslots]

end Sys2Proof.Machine
end

section
/-! The station's matching of the slot table entries that name a strand (R59, R99, R100). -/

namespace Sys2Proof.Machine

/-! ### One entry -/

/-- The tag of an EVAL_SEND is the entry's. -/
def ownsEntry (send : Option (Nat × Bool)) (e : Nat × Nat) : Bool := send.any fun p => entryTag e.2 == p.1

/-- What an entry carries: the result of an EVAL_SEND with its tag, else 0. -/
def carriedValue (send : Option (Nat × Bool)) (e : Nat × Nat) : Bool := send.any fun p => entryTag e.2 == p.1 && p.2

/-- An entry takes its value; one that the word does not own is reported. -/
def State.matchEntry (s : State) (g t : Nat) (spec : Bool) (send : Option (Nat × Bool)) (e : Nat × Nat) : State :=
  let u := s.injectEntry (gCord g) (e.1 / 64) (e.1 % 64) t (carriedValue send e) spec
  if ownsEntry send e then u else u.slotOwner g t (e.1 % 64) (e.1 / 64) (entryTag e.2)

/-- The matching of a step that is not stopped: every entry, and then a tag that no entry has. -/
theorem matchEntries_entries (s : State) (g t : Nat) (send : Option (Nat × Bool)) :
    s.matchEntries g t false send =
      let u := s.each (s.naming g t) fun u e => u.matchEntry g t (s.prefixStep t) send e
      match send with
      | some p => if (s.naming g t).any (fun e => entryTag e.2 == p.1) then u else u.slotOwner g t 0 7 p.1
      | none => u := by
  have heach : (fun (u : State) (e : Nat × Nat) => u.matchEntry g t (s.prefixStep t) send e) = fun u e =>
      match send with
      | some (tag, r) =>
        if entryTag e.2 = tag then u.injectEntry (gCord g) (e.1 / 64) (e.1 % 64) t r (s.prefixStep t)
        else (u.injectEntry (gCord g) (e.1 / 64) (e.1 % 64) t false (s.prefixStep t)).slotOwner g t (e.1 % 64) (e.1 / 64) (entryTag e.2)
      | none => (u.injectEntry (gCord g) (e.1 / 64) (e.1 % 64) t false (s.prefixStep t)).slotOwner g t (e.1 % 64) (e.1 / 64) (entryTag e.2) := by
    funext u e
    cases send with
    | none => rfl
    | some p =>
      by_cases htag : entryTag e.2 = p.1
      · simp [State.matchEntry, carriedValue, ownsEntry, htag]
      · have hbeq : (entryTag e.2 == p.1) = false := beq_false_of_ne htag
        simp [State.matchEntry, carriedValue, ownsEntry, htag, hbeq]
  rw [heach]
  cases send <;> rfl

section

variable {s u : State} {g t : Nat} {spec : Bool} {send : Option (Nat × Bool)} {e : Nat × Nat}

theorem matchEntry_stepAs (h : s.StepAs u) : s.StepAs (u.matchEntry g t spec send e) := by
  have hinject := h.trans (injectEntry_stepAs u (gCord g) (e.1 / 64) (e.1 % 64) t (carriedValue send e) spec)
  unfold State.matchEntry
  dsimp only
  split
  · exact hinject
  · exact hinject.trans (stepFault_stepAs _ _ _ _ _)

theorem matchEntry_told_keeps {src code : Nat} (h : u.told src code) : (u.matchEntry g t spec send e).told src code := by
  have hinject := h.congr (injectEntry_reports u (gCord g) (e.1 / 64) (e.1 % 64) t (carriedValue send e) spec)
  unfold State.matchEntry
  dsimp only
  split
  · exact hinject
  · exact hinject.raise _

theorem told_slotOwner (hon : s.srcOn (gCord g) = true) (pos dir tag : Nat) : (s.slotOwner g t pos dir tag).told (gCord g) 0x0104 :=
  told_stepFault hon

/-- An entry that the word does not own raises SLOT_OWNER. -/
theorem matchEntry_tells (hon : s.srcOn (gCord g) = true) (h : s.StepAs u) (howns : ownsEntry send e = false) :
    (u.matchEntry g t spec send e).told (gCord g) 0x0104 := by
  have hinject := h.trans (injectEntry_stepAs u (gCord g) (e.1 / 64) (e.1 % 64) t (carriedValue send e) spec)
  unfold State.matchEntry
  dsimp only
  rw [if_neg (Bool.eq_false_iff.mp howns)]
  exact told_slotOwner ((hinject.srcOn _).trans hon) _ _ _

theorem slotOwner_ring (s : State) (g t pos dir tag : Nat) : (s.slotOwner g t pos dir tag).ring = s.ring :=
  (State.slotOwner_only (Closed.sameOn s [.ring] (by decide)) (s.sameOn_refl _) g t pos dir tag .ring (by simp)).symm

theorem injectEntry_bights (s : State) (stn dir pos step : Nat) (val spec : Bool) :
    (s.injectEntry stn dir pos step val spec).ring.bights = s.ring.bights ++ s.launched stn dir pos step val spec := by
  unfold State.injectEntry
  dsimp only
  refine (probeBight_bights _ _ _ _ _ _ _).trans ((launch_bights _ _ _ _ _ _ _).trans ?_)
  split <;> rfl

theorem matchEntry_bights : (u.matchEntry g t spec send e).ring.bights =
    u.ring.bights ++ u.launched (gCord g) (e.1 / 64) (e.1 % 64) t (carriedValue send e) spec := by
  rw [← injectEntry_bights]
  unfold State.matchEntry
  dsimp only
  split
  · rfl
  · rw [slotOwner_ring]

theorem launched_some {stn dir far : Nat} {bridge : Bool} (hlink : linkOf s.closed stn dir = some (far, bridge)) (pos step : Nat)
    (val spec : Bool) : s.launched stn dir pos step val spec =
      [⟨far, dir, pos, val, step + (if bridge then s.bridgeCost else 1), spec⟩] := by
  unfold State.launched
  rw [hlink]

theorem State.StepAs.launched (h : s.StepAs u) (stn dir pos step : Nat) (val spec : Bool) :
    u.launched stn dir pos step val spec = s.launched stn dir pos step val spec := by
  unfold State.launched
  rw [h.closed, h.bridgeCost]

end

/-! ### All entries -/

/-- A fold whose steps keep `Q` ends with what the step for `r` brings about where `Q` holds and every step keeps. -/
theorem State.each_reaches {α : Type} {P Q : State → Prop} {l : List α} {f : State → α → State} {r : α} (hr : r ∈ l)
    (hset : ∀ t, Q t → P (f t r)) (hQ : ∀ t x, Q t → Q (f t x)) (hP : ∀ t x, P t → P (f t x)) {s : State} (hs : Q s) :
    P (s.each l f) := by
  induction l generalizing s with
  | nil => exact absurd hr List.not_mem_nil
  | cons x l ih =>
    rcases List.mem_cons.mp hr with rfl | hr
    · exact State.each_inv (s := f s r) (hset s hs) fun t x _ ht => hP t x ht
    · exact ih hr (hQ s x hs)

theorem State.stepAs_refl (s : State) : s.StepAs s := ⟨fun _ _ => rfl, rfl, rfl, rfl⟩

section

variable {s : State} {g t : Nat} {send : Option (Nat × Bool)} {e : Nat × Nat}

/-- What the entry `e` brings about, and every entry and a last fault keep, holds after the matching. -/
theorem matchEntries_reaches {P : State → Prop} (he : e ∈ s.naming g t)
    (hset : ∀ u, s.StepAs u → P (u.matchEntry g t (s.prefixStep t) send e))
    (hkeep : ∀ u x, P u → P (u.matchEntry g t (s.prefixStep t) send x))
    (hfault : ∀ u tag, P u → P (State.slotOwner u g t 0 7 tag)) : P (s.matchEntries g t false send) := by
  have heach : P (s.each (s.naming g t) fun u x => u.matchEntry g t (s.prefixStep t) send x) :=
    State.each_reaches he hset (fun _ _ hu => matchEntry_stepAs hu) hkeep s.stepAs_refl
  rw [matchEntries_entries]
  cases send with
  | none => exact heach
  | some p =>
    dsimp only
    split
    · exact heach
    · exact hfault _ _ heach

/-- Each entry that names the strand launches what it carries. -/
theorem matchEntries_launches (he : e ∈ s.naming g t) {b : Bight}
    (hb : b ∈ s.launched (gCord g) (e.1 / 64) (e.1 % 64) t (carriedValue send e) (s.prefixStep t)) :
    b ∈ (s.matchEntries g t false send).ring.bights := by
  refine matchEntries_reaches (P := fun u => b ∈ u.ring.bights) he (fun u hu => ?_) (fun u x hu => ?_) fun u tag hu => ?_
  · rw [matchEntry_bights, hu.launched]
    exact List.mem_append_right _ hb
  · rw [matchEntry_bights]
    exact List.mem_append_left _ hu
  · rwa [slotOwner_ring]

/-- An entry that names the strand and that the word does not own raises SLOT_OWNER. -/
theorem matchEntries_tells (hon : s.srcOn (gCord g) = true) (he : e ∈ s.naming g t) (howns : ownsEntry send e = false) :
    (s.matchEntries g t false send).told (gCord g) 0x0104 :=
  matchEntries_reaches (P := fun u => u.told (gCord g) 0x0104) he (fun _ hu => matchEntry_tells hon hu howns)
    (fun _ _ hu => matchEntry_told_keeps hu) fun _ _ hu => hu.raise _

/-- A tag that no entry has raises SLOT_OWNER. -/
theorem matchEntries_tells_unowned {tag : Nat} {r : Bool} (hon : s.srcOn (gCord g) = true)
    (hnone : ∀ e ∈ s.naming g t, entryTag e.2 ≠ tag) : (s.matchEntries g t false (some (tag, r))).told (gCord g) 0x0104 := by
  have heach : s.StepAs (s.each (s.naming g t) fun u e => u.matchEntry g t (s.prefixStep t) (some (tag, r)) e) :=
    State.each_inv s.stepAs_refl fun _ _ _ hu => matchEntry_stepAs hu
  rw [matchEntries_entries]
  dsimp only
  rw [if_neg (by simpa using hnone)]
  exact told_slotOwner ((heach.srcOn _).trans hon) _ _ _

end

end Sys2Proof.Machine
end

section
/-! The side effect of each strand row (R57, R58, R59, R60, R61, R62, R105). -/

namespace Sys2Proof.Machine

/-! ### Staging a state bit -/

/-- A second write of a state bit in the turn raises STATE_WRITE_DUP, but not where the step is run again after a cancellation (R58). -/
theorem told_stageState {s : State} {g t a : Nat} {r : Bool} (hon : s.srcOn (gCord g) = true)
    (hdup : (SMap.find (s.strand g).staged a).isSome = true) (hredo : (s.strand g).redo ≤ t) :
    (s.stageState g t a r).told (gCord g) 0x010D := by
  unfold State.stageState
  dsimp only
  rw [if_pos ⟨hdup, hredo⟩]
  exact told_stepFault hon

/-! ### Writing a staging bit -/

/-- A lower strand of the cord has written the port's staging bit at this step. -/
def Port.lowerWrote (p : Port) (abs bit n : Nat) : Prop := p.wstep = abs ∧ ∃ m, SMap.find p.writers bit = some m ∧ m < n

/-- Strand `n` of the cord takes the port's staging bit at this step (R60). -/
def Port.takes (p : Port) (abs bit n : Nat) : Bool :=
  match SMap.find (if p.wstep = abs then p.writers else []) bit with
  | some m => decide (n ≤ m)
  | none => true

theorem takes_iff (p : Port) (abs bit n : Nat) : p.takes abs bit n = true ↔ ¬ p.lowerWrote abs bit n := by
  unfold Port.takes Port.lowerWrote
  by_cases hstep : p.wstep = abs
  · simp only [hstep, if_true, true_and]
    cases SMap.find p.writers bit <;> simp
  · simp [hstep]

theorem port_setPort_self (s : State) (k : Nat) (x : Port) : (s.setPort k x).port k = x := SMap.get_set_self _ _ _ _

theorem getLsbD_bitMask {bit : Nat} (hbit : bit < 256) (i : Nat) : (BitVec.ofNat 256 (2 ^ bit)).getLsbD i = decide (bit = i) := by
  rw [BitVec.getLsbD_ofNat, Nat.testBit_two_pow]
  by_cases h : bit = i
  · simp [← h, hbit]
  · simp [h]

theorem getLsbD_writeBit (x : BitVec 256) {bit : Nat} (hbit : bit < 256) (r : Bool) (i : Nat) :
    (if r then x ||| BitVec.ofNat 256 (2 ^ bit) else x &&& ~~~ BitVec.ofNat 256 (2 ^ bit)).getLsbD i =
      if i = bit then r else x.getLsbD i := by
  cases r with
  | true =>
    simp only [if_true, BitVec.getLsbD_or, getLsbD_bitMask hbit]
    by_cases hi : i = bit
    · simp [hi]
    · simp only [hi, Ne.symm hi, decide_false, Bool.or_false, if_false]
  | false =>
    simp only [Bool.false_eq_true, if_false, BitVec.getLsbD_and, BitVec.getLsbD_not, getLsbD_bitMask hbit]
    by_cases hi : i = bit
    · simp [hi]
    · simpa [hi, Ne.symm hi] using BitVec.lt_of_getLsbD

section

variable (s : State) (g t : Nat) {bit : Nat} (fire r : Bool)

theorem stagePort_stage (hbit : bit < 256) (i : Nat) :
    ((s.stagePort g t bit fire r).port (portKey (gCord g) (gGroup g))).stage.getLsbD i =
      if i = bit ∧ (s.port (portKey (gCord g) (gGroup g))).takes (s.core.base + t) bit (g % 1024) = true then r
      else (s.port (portKey (gCord g) (gGroup g))).stage.getLsbD i := by
  unfold State.stagePort
  rw [port_setPort_self]
  show (if (s.port (portKey (gCord g) (gGroup g))).takes (s.core.base + t) bit (g % 1024) then _ else _ : BitVec 256).getLsbD i = _
  split
  · next h => rw [getLsbD_writeBit _ hbit]; simp only [h, and_true]
  · next h => rw [if_neg fun hi => h hi.2]

theorem stagePort_fires : ((s.stagePort g t bit true r).port (portKey (gCord g) (gGroup g))).fire.isSome = true := by
  unfold State.stagePort
  rw [port_setPort_self]
  dsimp only
  rw [if_pos rfl]
  split <;> rfl

theorem stagePort_keepsFire : ((s.stagePort g t bit false r).port (portKey (gCord g) (gGroup g))).fire =
    (s.port (portKey (gCord g) (gGroup g))).fire := by
  unfold State.stagePort
  rw [port_setPort_self]
  rfl

end

/-! ### Marking an event -/

/-- An event that is marked is marked at this step or an earlier one (R62). -/
theorem markEvent_marks (s : State) (g t e : Nat) : ∃ m, SMap.find (s.markEvent g t e).core.asserts e = some m ∧ m.1 ≤ t := by
  have hput : SMap.find (SMap.put s.core.asserts e (t, g)) e = some (t, g) := SMap.find_put_self _ _ _
  unfold State.markEvent
  cases hheld : SMap.find s.core.asserts e with
  | none => exact ⟨_, hput, le_rfl⟩
  | some m =>
    dsimp only
    split
    · next h =>
      refine ⟨m, hheld, ?_⟩
      simp only [Bool.or_eq_true, Bool.and_eq_true, decide_eq_true_eq, beq_iff_eq] at h
      omega
    · exact ⟨_, hput, le_rfl⟩

/-! ### The rows -/

section

variable {s : State} {g : Nat} {w : W64}

theorem runsClass_op {op : Nat} (h : s.runsClass op g) : wOp (wordData (s.fetched g)) = op := by
  obtain ⟨-, -, hop, -⟩ := h
  exact hop

theorem acted_begun_stepAs (s : State) (g : Nat) (w : W64) :
    s.StepAs ((s.enterStep (s.strand g).pos).acted g (s.strand g).pos w) :=
  (enterStep_stepAs s _).trans (acted_stepAs _ _ _ _)

theorem acted_begun_naming (hg : g < 2 ^ 17) (w : W64) :
    ((s.enterStep (s.strand g).pos).acted g (s.strand g).pos w).naming g (s.strand g).pos = s.naming g (s.strand g).pos :=
  (acted_begun_stepAs s g w).naming ((congrArg Ring.slots (acted_ring _ _ _ _)).trans (enterStep_slots s _)) hg _

/-- An EVAL_LATCH stages its result in the strand, and tells of a second write. -/
theorem evalLatch_effects (hop : wOp w = opEvalLatch) :
    let u := s.enterStep (s.strand g).pos
    let t := u.runWord g (s.strand g).pos w
    (t.strand g).staged = SMap.put (s.strand g).staged (wAux w % 1024) ((t.strand g).hist.getLsbD 0) ∧
      ((SMap.find (s.strand g).staged (wAux w % 1024)).isSome = true → (s.strand g).redo ≤ (s.strand g).pos →
        s.srcOn (gCord g) = true → t.told (gCord g) 0x010D) := by
  intro u t
  have hu : u.strand g = s.strand g := strand_enterStep s _ _
  refine ⟨?_, fun hdup hredo hon => ?_⟩
  · rw [hist_runWord, strand_runWord, if_pos rfl, if_pos hop, hu]
  · have hstrand := resulted_strand u g (s.strand g).pos w
    have hsrc := ((enterStep_stepAs s (s.strand g).pos).trans (resulted_stepAs u g (s.strand g).pos w)).srcOn (gCord g)
    rw [hu] at hstrand
    refine told_runWord (State.told.matchEntries ?_ _ _ _ _)
    rw [acted_evalLatch hop]
    exact told_stageState (hsrc.trans hon) (by rw [hstrand]; exact hdup) (by rw [hstrand]; exact hredo)

/-- Each entry that names an EVAL_SEND's strand launches its result, or 0 where the tags differ (R59, R99). -/
theorem evalSend_launches (hg : g < 2 ^ 17) (hop : wOp w = opEvalSend) {e : Nat × Nat} (he : e ∈ s.naming g (s.strand g).pos)
    {far : Nat} {bridge : Bool} (hlink : linkOf s.closed (gCord g) (e.1 / 64) = some (far, bridge)) :
    let n := (s.strand g).pos
    let t := (s.enterStep n).runWord g n w
    (⟨far, e.1 / 64, e.1 % 64, entryTag e.2 == wAux w % 32 && (t.strand g).hist.getLsbD 0,
      n + (if bridge then s.bridgeCost else 1), s.prefixStep n⟩ : Bight) ∈ t.ring.bights := by
  intro n t
  have hacted := acted_begun_stepAs s g w
  have hend : wOp w ≠ opTurnEnd := by rw [hop]; decide
  have ht : t = ((s.enterStep n).acted g n w).matchEntries g n false (some (wAux w % 32, (t.strand g).hist.getLsbD 0)) := by
    rw [hist_runWord, ← sends_evalSend hop]
    exact (runWord_acted _ _ _ _).trans (if_neg hend)
  rw [ht]
  refine matchEntries_launches (e := e) ((acted_begun_naming hg w).symm ▸ he) ?_
  rw [hacted.launched, hacted.prefixStep, launched_some hlink, ← ht]
  exact List.mem_singleton.mpr rfl

/-- An EVAL_SEND tells of an entry with another tag, and of a tag that no entry has (R59). -/
theorem evalSend_tells (hg : g < 2 ^ 17) (hop : wOp w = opEvalSend) (hon : s.srcOn (gCord g) = true)
    (h : (∃ e ∈ s.naming g (s.strand g).pos, entryTag e.2 ≠ wAux w % 32) ∨
      ∀ e ∈ s.naming g (s.strand g).pos, entryTag e.2 ≠ wAux w % 32) :
    ((s.enterStep (s.strand g).pos).runWord g (s.strand g).pos w).told (gCord g) 0x0104 := by
  have hsrc := ((acted_begun_stepAs s g w).srcOn (gCord g)).trans hon
  rw [← acted_begun_naming hg w] at h
  refine told_runWord ?_
  rw [sends_evalSend hop]
  rcases h with ⟨e, he, htag⟩ | hnone
  · exact matchEntries_tells hsrc he (beq_false_of_ne htag)
  · exact matchEntries_tells_unowned hsrc hnone

/-- Any other word whose strand an entry names tells of it (R59). -/
theorem unsent_tells (hg : g < 2 ^ 17) (hop : wOp w ≠ opEvalSend) (hon : s.srcOn (gCord g) = true) {e : Nat × Nat}
    (he : e ∈ s.naming g (s.strand g).pos) : ((s.enterStep (s.strand g).pos).runWord g (s.strand g).pos w).told (gCord g) 0x0104 := by
  refine told_runWord ?_
  rw [sends_other hop]
  exact matchEntries_tells (((acted_begun_stepAs s g w).srcOn _).trans hon) ((acted_begun_naming hg w).symm ▸ he) rfl

/-- The port of an EVAL_PORT's strand after the step is that of the staging write. -/
theorem evalPort_port (hop : wOp w = opEvalPort) (u : State) (n k : Nat) : (u.runWord g n w).port k =
    ((u.resulted g n w).stagePort g n (wAux w % 256) ((wAux w).testBit 11) (u.wordResult g n w)).port k := by
  rw [port_of_same (runWord_keeps u g n w .ports (by simp)), acted_evalPort hop]

/-- An EVAL_PORT writes its result to its staging bit where it takes it, and no other bit (R60). -/
theorem evalPort_stage (hop : wOp w = opEvalPort) (u : State) (n i : Nat) :
    let p := u.port (portKey (gCord g) (gGroup g))
    let t := u.runWord g n w
    (t.port (portKey (gCord g) (gGroup g))).stage.getLsbD i =
      if i = wAux w % 256 ∧ p.takes (u.core.base + n) (wAux w % 256) (g % 1024) = true then (t.strand g).hist.getLsbD 0
      else p.stage.getLsbD i := by
  intro p t
  rw [evalPort_port hop, stagePort_stage _ _ _ _ _ (Nat.mod_lt _ (by decide)), resulted_port, resulted_core, hist_runWord]

/-- An EVAL_PORT with AUX[11] marks a port operation, without it none (R61). -/
theorem evalPort_fire (hop : wOp w = opEvalPort) (u : State) (n : Nat) :
    let f := ((u.runWord g n w).port (portKey (gCord g) (gGroup g))).fire
    ((wAux w).testBit 11 = true → f.isSome = true) ∧
      ((wAux w).testBit 11 = false → f = (u.port (portKey (gCord g) (gGroup g))).fire) := by
  intro f
  have hf : f = _ := congrArg Port.fire (evalPort_port hop u n (portKey (gCord g) (gGroup g)))
  refine ⟨fun h => ?_, fun h => ?_⟩
  · rw [hf, h]; exact stagePort_fires _ _ _ _
  · rw [hf, h, stagePort_keepsFire, resulted_port]

/-- An EVAL_CHECK with result 1 leaves its event marked, with result 0 it marks nothing (R62). -/
theorem evalCheck_effects (hop : wOp w = opEvalCheck) (u : State) (n : Nat) :
    let t := u.runWord g n w
    ((t.strand g).hist.getLsbD 0 = true → ∃ m, SMap.find t.core.asserts (wAux w % 1024) = some m ∧ m.1 ≤ n) ∧
      ((t.strand g).hist.getLsbD 0 = false → t.core.asserts = u.core.asserts) := by
  intro t
  have hcore : t.core = (u.acted g n w).core := (runWord_keeps u g n w .core (by simp)).symm
  rw [hist_runWord, hcore]
  refine ⟨fun hr => ?_, fun hr => ?_⟩
  · rw [acted_evalCheck_set hop hr]
    exact markEvent_marks _ _ _ _
  · rw [acted_evalCheck_clear hop hr, resulted_core]

/-- A TURN_END enters 0, its entries are matched, and then the schedule ends. -/
theorem turnEnd_endsSchedule {g : StrandId} (hruns : s.runsClass opTurnEnd g.toNat) :
    ∃ v : State, exec (.turnEnd g) s = .next v.endSchedule ∧ v.strand g.toNat = (s.strand g.toNat).advance false ∧
      v.ports = (s.enterStep (s.strand g.toNat).pos).ports := by
  have hexec := exec_runsClass (p := (.turnEnd, opTurnEnd)) (by simp [rowClasses]) hruns
  obtain ⟨-, -, hop, -⟩ := hruns
  rw [runWord_turnEnd hop] at hexec
  refine ⟨_, hexec, ?_, ?_⟩
  · rw [strand_matchEntries, strand_enterResult, if_pos rfl, strand_enterStep]
  · exact (State.matchEntries_only (Closed.sameOn _ [.ports] (by decide)) (State.sameOn_refl _ _) _ _ _ _ .ports (by simp)).symm

end

/-- Settles O10: each row's own effect stands in `State.acted`, the carried values and SLOT_OWNER come from the matching, and the
end of the schedule leaves no later bight. -/
theorem strandEffects : Obligations.StrandEffects := by
  unfold Obligations.StrandEffects
  refine ⟨fun g s hruns => ?_, fun g s hruns => ?_, fun p hp g s hruns he hon => ?_, fun g s hruns => ?_, fun g s hruns => ?_,
    fun g s hruns => ?_⟩
  case refine_1 =>
    intro a
    obtain ⟨hstaged, htold⟩ := evalLatch_effects (s := s) (runsClass_op hruns)
    refine ⟨_, exec_runsClass (p := (.evalLatch, opEvalLatch)) (by simp [rowClasses]) hruns, ?_, fun b hb => ?_, htold⟩
    · rw [hstaged]; exact SMap.find_put_self _ _ _
    · rw [hstaged]; exact SMap.find_put_ne _ _ hb
  case refine_2 =>
    intro c n tag mine
    have hop := runsClass_op hruns
    refine ⟨_, exec_runsClass (p := (.evalSend, opEvalSend)) (by simp [rowClasses]) hruns, fun e he far bridge hlink => ?_, fun h hon => ?_⟩
    · exact ⟨_, evalSend_launches g.isLt hop he hlink, rfl, rfl, rfl, rfl, rfl, rfl⟩
    · exact evalSend_tells g.isLt hop hon h
  case refine_3 =>
    have hrow : p ∈ rowClasses ∧ p.2 ≠ opEvalSend := by
      simp only [List.mem_cons, List.not_mem_nil, or_false] at hp
      rcases hp with rfl | rfl | rfl | rfl | rfl | rfl | rfl <;> exact ⟨by simp [rowClasses], by decide⟩
    obtain ⟨hmem, hsend⟩ := hrow
    obtain ⟨e, he, hnames⟩ := he
    have hop := runsClass_op hruns
    refine ⟨_, exec_runsClass hmem hruns, unsent_tells g.isLt (hop ▸ hsend) hon (e := e) ?_⟩
    exact List.mem_filter.mpr ⟨he, decide_eq_true hnames⟩
  case refine_4 =>
    intro k aux p lower
    have hop := runsClass_op hruns
    have hstage := evalPort_stage (g := g.toNat) hop (s.enterStep (s.strand g.toNat).pos) (s.strand g.toNat).pos
    have htakes : p.takes (s.core.base + (s.strand g.toNat).pos) (aux % 256) (g.toNat % 1024) = true ↔ ¬lower := takes_iff _ _ _ _
    simp only [enterStep_base] at hstage
    obtain ⟨hfires, hkeeps⟩ := evalPort_fire (g := g.toNat) hop (s.enterStep (s.strand g.toNat).pos) (s.strand g.toNat).pos
    refine ⟨_, exec_runsClass (p := (.evalPort, opEvalPort)) (by simp [rowClasses]) hruns, fun hlower => ?_, fun hlower => ?_,
      fun i hi => ?_, hfires, hkeeps⟩
    · exact (hstage _).trans (if_pos ⟨rfl, htakes.mpr hlower⟩)
    · exact (hstage _).trans (if_neg fun h => htakes.mp h.2 hlower)
    · exact (hstage i).trans (if_neg fun h => hi h.1)
  case refine_5 =>
    intro e
    obtain ⟨hset, hclear⟩ := evalCheck_effects (g := g.toNat) (runsClass_op hruns) (s.enterStep (s.strand g.toNat).pos) (s.strand g.toNat).pos
    exact ⟨_, exec_runsClass (p := (.evalCheck, opEvalCheck)) (by simp [rowClasses]) hruns, hset,
      fun hr => (hclear hr).trans (enterStep_asserts _ _)⟩
  case refine_6 =>
    obtain ⟨v, hexec, hstrand, hports⟩ := turnEnd_endsSchedule hruns
    exact ⟨v, hexec, hstrand, hports, endSchedule_bights v⟩

end Sys2Proof.Machine
end

section
/-! The host's turn commands and REALIGN, the release of outputs, the overrun of a turn, and the loss of the anchor (R81, R86–R90). -/

namespace Sys2Proof.Machine

/-! ### Commands of the host to the turn unit -/

/-- A command of the host to TURN_CTL that reaches the turn unit is its effect, where that writes words of the turn unit alone. -/
theorem hostCmd_turnCtl {s : State} {mask v : W32} {f : State → State} (h : s.hostRuns R.TURN_CTL = true)
    (hpower : (f s).power = s.power) (hw : ∀ a, a < 0x100000 → (f s).reg a = s.reg a) : s.hostCmd R.TURN_CTL mask v f = f s :=
  hostCmd_runs h (by rw [hpower]) (by rw [hpower]) (hw _ (by decide)) (hw _ (by decide)) (hw _ (by decide))

/-- A hold of the turns that is shown by its own bit is in force (R83). -/
theorem turnHold_of_lock {s : State} (h : s.bit F.TURN_HOLD_SRC_LOCK = true) : s.turnHold = true := by
  simp only [State.bit, State.turnHold, State.fget, Fld.read, R.TURN_HOLD_SRC, beq_iff_eq, bne_iff_ne] at h ⊢
  omega

section
variable {s : State} (hruns : s.hostRuns R.TURN_CTL = true)
include hruns

theorem exec_halt (v : Bool) : exec (.halt v) s = .next (s.haltNow v) :=
  congrArg _ (hostCmd_turnCtl hruns rfl fun a ha => by
    rw [State.haltNow, State.setBit_reg_ne _ _ _ (by simp only; omega), State.setBit_reg_ne _ _ _ (by simp only; omega)])

theorem exec_singleStep : exec .singleStep s = .next s.stepNow :=
  congrArg _ (hostCmd_turnCtl hruns
    (State.onlyWords.unit (l := [R.TURN_STAT]) (by
      unfold State.stepNow
      split
      · exact s.onlyWords_fset _ (by decide)
      · exact s.onlyWords_refl _) State.power fun _ => rfl)
    fun a ha => by
      unfold State.stepNow
      split
      · exact s.reg_fset_ne _ _ (by simp only; omega)
      · rfl)

theorem exec_relock : exec .relock s = .next s.relockNow :=
  congrArg _ (hostCmd_turnCtl hruns
    (State.relockNow_only (Closed.sameOn s [.power] (by decide)) (s.sameOn_refl _) .power (by simp)).symm
    fun a ha => by
      unfold State.relockNow
      split
      · exact State.reg_fset_ne _ _ _ (by simp only; omega)
      · rfl)

theorem exec_slackRst : exec .slackRst s = .next (s.fset F.TURN_SLACK_MIN_MIN 0x1FFF) :=
  congrArg Host.Outcome.next (hostCmd_turnCtl hruns (State.fset_power _ _ _) fun a ha => s.reg_fset_ne _ _ (by simp only; omega))

end

/-! ### REALIGN (R73, R90) -/

/-- Binning a word writes no word but that of the dropped words. -/
theorem binWord_reg (s : State) (win key : Nat) (w : BinWord) {a : Nat} (h : a ≠ R.TURN_BIN_DROP) :
    (s.binWord win key w).reg a = s.reg a := by
  have hcount : (s.count F.TURN_BIN_DROP_COUNT 1).reg a = s.reg a := s.reg_fset_ne _ _ h
  unfold State.binWord
  dsimp only
  cases (SMap.find s.core.windows (win * 2 ^ 18 + key)).isSome <;> cases s.binKeeps win key w <;> first | exact hcount | rfl

theorem rebin_reg (s : State) (t0 d : Int) {a : Nat} (h : a ≠ R.TURN_BIN_DROP) : (s.rebin t0 d).reg a = s.reg a :=
  State.each_keeps (fun t => t.reg a) fun t _ _ => binWord_reg t _ _ _ h

/-- The strand core but for the windows. -/
def Core.unbinned (c : Core) : Core := { c with windows := [] }

theorem rebin_core (s : State) (t0 d : Int) : (s.rebin t0 d).core.unbinned = s.core.unbinned :=
  State.each_keeps (fun t => t.core.unbinned) fun t _ _ => by rw [binWord_eq]; rfl

/-- The turn unit with TURN_LT_OFFSET at 0, and the first line time of an ACTIVE device's turn 0 moved with it (R71, R90, R299). -/
def State.offsetCleared (s : State) : State :=
  { s with
    core := { s.core with ltOff := 0 }
    splice := { s.splice with startAt := s.splice.startAt + s.core.ltOff } }.wset W.TURN_LT_OFFSET_OFFSET 0

theorem realignNow_runs {s : State} (hhalted : s.bit F.TURN_STAT_HALTED = true) (hlock : s.bit F.TURN_CFG_LOCK_SRC = false) :
    s.realignNow = (s.offsetCleared.newT0.rebin ((s.offsetCleared.newT0.wget W.TURN_T0_T0 : Int) - s.core.ltOff) s.core.ltOff).fset
      F.TURN_HOLD_SRC_LOCK 1 := if_pos (by simp [hhalted, hlock])

theorem realignNow_idle {s : State} (h : s.bit F.TURN_STAT_HALTED = false ∨ s.bit F.TURN_CFG_LOCK_SRC = true) : s.realignNow = s :=
  if_neg (by rcases h with h | h <;> simp [h])

theorem offsetCleared_reg (s : State) {a : Nat} (h : a ∉ [R.TURN_LT_OFFSET, R.TURN_LT_OFFSET + 4]) : s.offsetCleared.reg a = s.reg a :=
  (State.onlyWords_setWords 2 _ _ _ (by decide)).2 a h

theorem gridAt_wordsBut (s : State) (t0 : Nat) : s.wordsBut (s.gridAt t0) [R.TURN_T0, R.TURN_T0 + 4, R.TURN_T0 + 8] :=
  (State.onlyWords_setWords 3 s R.TURN_T0 (t0 % 2 ^ 96) (by decide)).2

theorem gridAt_core (s : State) (t0 : Nat) : (s.gridAt t0).core = { s.core with anchorT0 := none, origin := s.core.boundary } :=
  congrArg (fun c : Core => { c with anchorT0 := none, origin := c.boundary }) (s.wset_core W.TURN_T0_T0 t0)

/-- The words that a REALIGN writes. -/
def realignWords : List Nat :=
  [R.TURN_LT_OFFSET, R.TURN_LT_OFFSET + 4, R.TURN_T0, R.TURN_T0 + 4, R.TURN_T0 + 8, R.TURN_HOLD_SRC, R.TURN_BIN_DROP]

theorem realignNow_wordsBut (s : State) : s.wordsBut s.realignNow realignWords := fun a h => by
  simp only [realignWords, List.mem_cons, List.not_mem_nil, or_false, not_or] at h
  obtain ⟨hlo, hhi, ht0, ht4, ht8, hhold, hdrop⟩ := h
  unfold State.realignNow
  split
  · exact (State.reg_fset_ne _ _ _ hhold).trans ((rebin_reg _ _ _ hdrop).trans
      ((gridAt_wordsBut _ _ a (by simp [ht0, ht4, ht8])).trans (offsetCleared_reg s (by simp [hlo, hhi]))))
  · rfl

theorem exec_realign {s : State} (hruns : s.hostRuns R.TURN_CTL = true) : exec .realign s = .next s.realignNow :=
  congrArg _ (hostCmd_turnCtl hruns
    (State.realignNow_only (Closed.sameOn s [.power] (by decide)) (s.sameOn_refl _) .power (by simp)).symm
    fun a ha => realignNow_wordsBut s a (by simp only [realignWords, R.TURN_LT_OFFSET, R.TURN_T0, R.TURN_HOLD_SRC, R.TURN_BIN_DROP, List.mem_cons, List.not_mem_nil, or_false]; omega))

/-- With TURN_LT_OFFSET at 0 line time is device time, so the new T0 is the first time from 10 µs on that is PHASE modulo SPAN. -/
theorem offsetCleared_t0 {s : State} (hlock : s.bit F.TURN_CFG_LOCK_SRC = false) (hspan : 0 < s.span) :
    s.offsetCleared.t0After s.offsetCleared.lineTime.toNat =
      s.time.now + tenMicro + (s.fget F.TURN_PHASE_VALUE + s.span - (s.time.now + tenMicro) % s.span) % s.span := by
  have hget : ∀ f : Fld, f.addr < 0x100038 → s.offsetCleared.fget f = s.fget f := fun f hf =>
    State.fget_congr f (offsetCleared_reg s (by simp only [R.TURN_LT_OFFSET, List.mem_cons, List.not_mem_nil, or_false]; omega))
  have hnow : s.offsetCleared.time = s.time := State.wset_time _ _ _
  have hline : s.offsetCleared.lineTime = s.time.now := by
    have hsrc : s.offsetCleared.bit F.TURN_CFG_LOCK_SRC = false :=
      (State.bit_congr _ (offsetCleared_reg s (by decide))).trans hlock
    have hoff : s.offsetCleared.core.ltOff = 0 := congrArg Core.ltOff (State.wset_core _ _ _)
    unfold State.lineTime
    rw [hsrc, hnow, hoff]
    simp
  rw [hline, Int.toNat_natCast]
  unfold State.t0After State.span
  rw [hget _ (by decide), hget _ (by decide), Nat.max_eq_left (show 1 ≤ s.fget F.TURN_SPAN_VALUE from hspan)]

/-- The first time from `m` on that is `p` modulo `n` comes before all others. -/
theorem firstAfter_le {m p n x : Nat} (hn : 0 < n) (hp : p < n) (hm : m ≤ x) (hx : x % n = p) :
    m + (p + n - m % n) % n ≤ x := by
  obtain ⟨-, hlt, hmod⟩ := firstAfter m p hn
  by_contra hlate
  have hclose : m + (p + n - m % n) % n < x + n := by omega
  have heq : (m + (p + n - m % n) % n) % n = x % n := by rw [hmod, hx, Nat.mod_eq_of_lt hp]
  have hdvd := (Nat.modEq_iff_dvd' (by omega)).mp (Nat.ModEq.symm heq)
  exact absurd (Nat.le_of_dvd (by omega) hdvd) (by omega)

/-- Settles O15: the words and the core that a REALIGN sets, and `firstAfter` for the place of T0. -/
theorem realign : Obligations.Realign := by
  unfold Obligations.Realign
  intro s hruns
  refine ⟨fun hhalted hlock hspan hphase hfits => ?_, fun h => by rw [exec_realign hruns, realignNow_idle h]⟩
  have hten : tenMicro = 10000 * 65536 := rfl
  obtain ⟨hge, hlt, hmod⟩ := firstAfter (s.time.now + tenMicro) (s.fget F.TURN_PHASE_VALUE) hspan
  have heq := realignNow_runs hhalted hlock
  have hlower : ∀ a, a ≠ R.TURN_HOLD_SRC → a ≠ R.TURN_BIN_DROP → s.realignNow.reg a = s.offsetCleared.newT0.reg a := fun a h h' => by
    rw [heq, State.reg_fset_ne _ _ _ h, rebin_reg _ _ _ h']
  have hwide : ∀ w : Wide, R.TURN_HOLD_SRC < w.addr → w.addr + 4 * w.nw ≤ R.TURN_BIN_DROP →
      s.realignNow.wget w = s.offsetCleared.newT0.wget w := fun w hlo hhi =>
    State.wget_congr w fun i hi => hlower _ (by omega) (by omega)
  have hcore : s.realignNow.core.unbinned = { s.core with ltOff := 0, anchorT0 := none, origin := s.core.boundary, windows := [] } := by
    rw [heq, State.fset_core, rebin_core, State.newT0, gridAt_core, State.offsetCleared, State.wset_core]
    rfl
  have hboundary : s.realignNow.core.boundary = s.core.boundary := by
    simpa only [Core.unbinned] using congrArg (fun c : Core => c.boundary) hcore
  have horigin : s.realignNow.core.origin = s.realignNow.core.boundary :=
    Eq.trans (by simpa only [Core.unbinned] using congrArg (fun c : Core => c.origin) hcore) hboundary.symm
  have hoff : s.realignNow.wget W.TURN_LT_OFFSET_OFFSET = 0 := by
    rw [hwide _ (by decide) (by decide), State.newT0, gridAt_wget, State.wget_wset_other _ _ _ _ (by decide), State.offsetCleared,
      State.wget_wset _ _ _ (by decide), Nat.zero_mod]
  have ht0 : s.realignNow.wget W.TURN_T0_T0 =
      s.time.now + tenMicro + (s.fget F.TURN_PHASE_VALUE + s.span - (s.time.now + tenMicro) % s.span) % s.span := by
    rw [hwide _ (by decide) (by decide), newT0_t0, offsetCleared_t0 hlock hspan, Nat.mod_eq_of_lt (by omega)]
  have hhold : s.realignNow.bit F.TURN_HOLD_SRC_LOCK = true := by
    rw [heq]; exact State.bit_fset_one _ _ (by decide) (by decide)
  have hhalt : s.realignNow.bit F.TURN_HOLD_SRC_HALT = s.bit F.TURN_HOLD_SRC_HALT := by
    rw [heq, State.bit_fset_apart _ _ _ _ (by decide) (by simp [Fld.apart])]
    exact State.bit_congr _ ((rebin_reg _ _ _ (by decide)).trans ((newT0_reg _ (by decide)).trans (offsetCleared_reg s (by decide))))
  refine ⟨_, exec_realign hruns, hoff, ?_, hboundary, hhold, turnHold_of_lock hhold, hhalt, realignNow_wordsBut s⟩
  · dsimp only
    rw [State.boundaryAt, horigin, ht0, ← hten]
    refine ⟨hge, hmod.trans (Nat.mod_eq_of_lt hphase), fun x hx hxmod => firstAfter_le hspan hphase hx hxmod, ?_⟩
    rw [sub_self, zero_mul, add_zero]

/-! ### Release of outputs (R81) -/

theorem exec_outputRelease_due {s : State} {o : OutSet} {os : List OutSet} (h : s.core.outComm = o :: os) (hdue : o.due = true) :
    exec .outputRelease s = .next { s with
      core := { s.core with outVis := o.words, outComm := os }
      edge := { s.edge with rel := 3, relTurn := BitVec.ofNat 8 o.turn } } := by
  change Host.Outcome.next s.releaseOutputs = _
  rw [State.releaseOutputs, h]
  dsimp only
  rw [if_pos hdue]

theorem exec_outputRelease_early {s : State} {o : OutSet} {os : List OutSet}
    (h : s.core.outComm = [] ∨ (s.core.outComm = o :: os ∧ o.due = false)) : exec .outputRelease s = .next s := by
  change Host.Outcome.next s.releaseOutputs = _
  rw [State.releaseOutputs]
  obtain h | ⟨h, hdue⟩ := h
  · rw [h]
  · rw [h]
    dsimp only
    rw [if_neg (by simp [hdue])]

/-! ### Overrun (R87, R152) -/

/-- Where no report of the source is held, a report enters as it is. -/
theorem mem_addReport_fresh (r : Report) : ∀ l : List Report, (∀ q ∈ l, q.src ≠ r.src) → r ∈ addReport l r
  | [], _ => List.mem_singleton_self r
  | q :: l, h => by
    rw [addReport, if_neg fun hq => h q List.mem_cons_self hq.1]
    exact List.mem_cons_of_mem q (mem_addReport_fresh r l fun p hp => h p (List.mem_cons_of_mem q hp))

/-- A raised report is held, as it is where its source held none. -/
theorem raise_held {s : State} {r : Report} (h : s.srcOn r.src = true) : ∃ x ∈ (s.raise r).reports, x.src = r.src ∧ x.code = r.code ∧
    ((∀ q ∈ s.reports, q.src ≠ r.src) → x = r) := by
  by_cases hfresh : ∀ q ∈ s.reports, q.src ≠ r.src
  · refine ⟨r, ?_, rfl, rfl, fun _ => rfl⟩
    unfold State.raise
    rw [if_neg (by simp [h])]
    dsimp only
    split <;> exact mem_addReport_fresh r s.reports hfresh
  · obtain ⟨x, hx, hsrc, hcode⟩ := raise_reports h
    exact ⟨x, hx, hsrc, hcode, fun hall => absurd hall hfresh⟩

/-- The report of an overrun (R87, R152). -/
def State.overrunReport (s : State) (at_ : Nat) : Report :=
  { src := 0x280, code := 0x010F, master := 0, acc := accInstr, addr := 0, time := at_, turn := s.turnNum, strand := noStrand,
    step := s.missedStep }

/-- An overrun with its report raised. -/
def State.overrunTold (s : State) (at_ : Nat) : State :=
  { (s.drawn).raise (s.overrunReport at_) with core := { ((s.drawn).raise (s.overrunReport at_)).core with missed := none, overran := true } }

theorem overrun_runs {s : State} {at_ : Nat} (hphase : s.core.phase = .turn) (hmissed : s.core.missed = some at_) :
    s.overrun = (((s.overrunTold at_).count F.TURN_OVR_CNT_COUNT 1).fset F.TURN_STAT_OVERRUN 1).fset F.TURN_SLACK_MIN_MIN 0 := by
  unfold State.overrun
  rw [hphase, hmissed]
  rfl

theorem overrun_idle {s : State} (h : s.core.phase ≠ .turn ∨ s.core.missed = none) : s.overrun = s := by
  unfold State.overrun
  split
  · next hphase hmissed => rcases h with h | h <;> simp_all
  · rfl

theorem overrunTold_reg (s : State) (at_ : Nat) {a : Nat} (h : a ≠ R.FLT_SRC_STAT 0x280) : (s.overrunTold at_).reg a = s.reg a :=
  raise_reg s.drawn (s.overrunReport at_) h

theorem overrunTold_core (s : State) (at_ : Nat) : (s.overrunTold at_).core = { s.core with missed := none, overran := true } :=
  congrArg (fun c : Core => { c with missed := none, overran := true }) (State.raise_core _ _)

theorem exec_turnOverrun {s : State} {at_ : Nat} (hphase : s.core.phase = .turn) (hmissed : s.core.missed = some at_) :
    ∃ t, exec .turnOverrun s = .next t ∧ t.bit F.TURN_STAT_OVERRUN = true ∧ t.fget F.TURN_SLACK_MIN_MIN = 0 ∧
      t.fget F.TURN_OVR_CNT_COUNT = min (2 ^ 32 - 1) (s.fget F.TURN_OVR_CNT_COUNT + 1) ∧
      t.reports = (s.overrunTold at_).reports ∧ t.core = { s.core with missed := none, overran := true } ∧ t.strands = s.strands ∧
      s.wordsBut t [R.TURN_OVR_CNT, R.TURN_STAT, R.TURN_SLACK_MIN, (F.FLT_SRC_STAT_PAIR 0x280).addr, R.HST_EVT] := by
  have heq := overrun_runs hphase hmissed
  have hreg : ∀ a, a ≠ R.HST_EVT → (s.watch [11] fun s => s.overrun).reg a = s.overrun.reg a := fun a h => s.watch_reg _ _ h
  refine ⟨_, rfl, ?_, ?_, ?_, ?_, ?_, ?_, fun a ha => ?_⟩
  · rw [State.bit_congr _ (hreg _ (by decide)), heq, State.bit_fset_apart _ _ _ _ (by decide) (.inl (by decide))]
    exact State.bit_fset_one _ _ (by decide) (by decide)
  · rw [State.fget_congr _ (hreg _ (by decide)), heq, State.fget_fset _ _ _ (by decide), Nat.zero_mod]
  · rw [State.fget_congr _ (hreg _ (by decide)), heq, State.fget_fset_other _ _ _ _ (by decide), State.fget_fset_other _ _ _ _ (by decide),
      fget_count_self _ (by decide), satAdd_one_word, State.fget_congr _ (overrunTold_reg s at_ (by decide))]
  · rw [s.watch_unit _ _ State.reports fun _ _ => rfl, heq]
    rfl
  · rw [s.watch_unit _ _ State.core fun _ _ => rfl, heq]
    exact overrunTold_core s at_
  · rw [s.watch_unit _ _ State.strands fun _ _ => rfl, heq]
    exact State.raise_strands _ _
  · simp only [List.mem_cons, List.not_mem_nil, or_false, not_or] at ha
    obtain ⟨hcnt, hstat, hslack, hflt, hevt⟩ := ha
    rw [hreg a hevt, heq, State.reg_fset_ne _ _ _ hslack, State.reg_fset_ne _ _ _ hstat]
    exact (State.reg_fset_ne _ _ _ hcnt).trans (overrunTold_reg s at_ hflt)

/-! ### Loss of the anchor (R88) -/

theorem exec_anchorLost_told {s : State} (h : (s.bit F.TURN_STAT_FLYWHEEL && !s.pcsLocked (s.fget F.TURN_ANCHOR_LANE)) = true) :
    exec .anchorLost s = .next s := if_pos h

theorem exec_anchorLost_new {s : State} (h : (s.bit F.TURN_STAT_FLYWHEEL && !s.pcsLocked (s.fget F.TURN_ANCHOR_LANE)) = false) :
    exec .anchorLost s = .next s.loseAnchor := if_neg (by simp [h])

theorem loseAnchor_idle {s : State}
    (h : s.bit F.TURN_CFG_LOCK_SRC = false ∨ s.image.committed = false ∨ s.bit F.TURN_STAT_LOCK_WAIT = true) : s.loseAnchor = s :=
  if_pos (by rcases h with h | h | h <;> simp [h])

/-- The flywheel's start: the count before the loss, at the time of the loss, with ANCHOR_LOST. -/
def State.flywheelBegun (s : State) : State :=
  ({ s with core := { s.core with flyCount := s.core.anchor - 1, flyAt := s.time.now } }.fset F.TURN_STAT_FLYWHEEL 1).raiseAt 0x280 0x0403 0 0 0

theorem flywheelBegun_core (s : State) : s.flywheelBegun.core = { s.core with flyCount := s.core.anchor - 1, flyAt := s.time.now } :=
  State.raiseAt_core _ _ _ _ _ _

theorem flywheelBegun_reg (s : State) {a : Nat} (hstat : a ≠ R.TURN_STAT) (hflt : a ≠ R.FLT_SRC_STAT 0x280) :
    s.flywheelBegun.reg a = s.reg a := (raiseAt_reg _ _ _ _ _ _ hflt).trans (State.reg_fset_ne _ _ _ hstat)

theorem flywheelBegun_shows (s : State) : s.flywheelBegun.bit F.TURN_STAT_FLYWHEEL = true :=
  (State.bit_congr _ (raiseAt_reg _ _ _ _ _ _ (by decide))).trans (State.bit_fset_one _ _ (by decide) (by decide))

theorem flywheelBegun_told {s : State} (h : s.srcOn 0x280 = true) : s.flywheelBegun.told 0x280 0x0403 :=
  raise_reports ((srcOn_fset (by decide) _ _).trans h)

section
variable {s : State} (hlock : s.bit F.TURN_CFG_LOCK_SRC = true) (himage : s.image.committed = true)
  (hwait : s.bit F.TURN_STAT_LOCK_WAIT = false)
include hlock himage hwait

theorem loseAnchor_flying (hfly : s.bit F.TURN_STAT_FLYWHEEL = true) :
    s.loseAnchor = { s with core := { s.core with anchorT0 := none } }.raiseAt 0x280 0x0403 0 0 0 := by
  unfold State.loseAnchor State.flywheel
  simp [hlock, himage, hwait, hfly]

theorem loseAnchor_placed (hfly : s.bit F.TURN_STAT_FLYWHEEL = false) (hT0 : s.core.anchorT0 = none) :
    s.loseAnchor = s.flywheelBegun := by
  unfold State.loseAnchor State.flywheel
  simp [hlock, himage, hwait, hfly, hT0, State.flywheelBegun]

theorem loseAnchor_unplaced (hfly : s.bit F.TURN_STAT_FLYWHEEL = false) {a : Nat} (hT0 : s.core.anchorT0 = some a) :
    s.loseAnchor = s.flywheelBegun.gridAt (s.flywheelBegun.flyFirst a) := by
  unfold State.loseAnchor State.flywheel
  simp [hlock, himage, hwait, hfly, hT0, State.flywheelBegun]

end

/-- The flywheel's count of a word does not depend on where the grid's origin lies. -/
theorem flyFirst_gridAt (s : State) (t0 t : Nat) : (s.gridAt t0).flyFirst t = s.flyFirst t := by
  have hget : ∀ f : Fld, f.addr ∉ [R.TURN_T0, R.TURN_T0 + 4, R.TURN_T0 + 8] → (s.gridAt t0).fget f = s.fget f := fun f hf =>
    State.fget_congr f (gridAt_wordsBut s t0 _ hf)
  have hlane : ∀ f : Fld, 0x2000000 ≤ f.addr → f.addr ∉ [R.TURN_T0, R.TURN_T0 + 4, R.TURN_T0 + 8] := fun f hf => by
    simp only [R.TURN_T0, List.mem_cons, List.not_mem_nil, or_false]
    omega
  unfold State.flyFirst State.pcs State.kbps
  dsimp only
  rw [hget F.TURN_ANCHOR_LANE (by decide), hget (F.LANE_CFG_PCS _) (hlane _ (by simp only; omega)),
    hget (F.LANE_RATE_KBPS _) (hlane _ (by simp only; omega)), gridAt_core]

/-- The anchor's loss on the way to the flywheel, and a loss of a lane that had locked again on it. -/
theorem anchorLost_shows {s : State} (hlock : s.bit F.TURN_CFG_LOCK_SRC = true) (himage : s.image.committed = true)
    (hwait : s.bit F.TURN_STAT_LOCK_WAIT = false) (hfly : s.bit F.TURN_STAT_FLYWHEEL = false) :
    ∃ t, exec .anchorLost s = .next t ∧ t.bit F.TURN_STAT_FLYWHEEL = true ∧
      (s.srcOn 0x280 = true → ∃ r ∈ t.reports, r.src = 0x280 ∧ r.code = 0x0403) ∧
      t.core.flyCount = s.core.anchor - 1 ∧ t.core.flyAt = s.time.now ∧ t.core.anchorT0 = none ∧
      (s.core.anchorT0 = none → t.core = { s.core with flyCount := s.core.anchor - 1, flyAt := s.time.now } ∧
        s.wordsBut t [R.TURN_STAT, (F.FLT_SRC_STAT_PAIR 0x280).addr]) ∧
      (∀ a, s.core.anchorT0 = some a → t.core.origin = s.core.boundary ∧ t.wget W.TURN_T0_T0 = t.flyFirst a % 2 ^ 96 ∧
        s.wordsBut t [R.TURN_STAT, R.TURN_T0, R.TURN_T0 + 4, R.TURN_T0 + 8, (F.FLT_SRC_STAT_PAIR 0x280).addr]) := by
  refine ⟨_, exec_anchorLost_new (by simp [hfly]), ?_⟩
  have hcore := flywheelBegun_core s
  cases hT0 : s.core.anchorT0 with
  | none =>
    rw [loseAnchor_placed hlock himage hwait hfly hT0, hcore]
    refine ⟨flywheelBegun_shows s, fun h => flywheelBegun_told h, rfl, rfl, hT0, fun _ => ⟨rfl, fun a ha => ?_⟩, nofun⟩
    simp only [List.mem_cons, List.not_mem_nil, or_false, not_or] at ha
    exact flywheelBegun_reg s ha.1 ha.2
  | some t =>
    rw [loseAnchor_unplaced hlock himage hwait hfly hT0, gridAt_core, hcore]
    refine ⟨(State.bit_congr _ (gridAt_reg _ _ (by decide))).trans (flywheelBegun_shows s), fun h => ?_, rfl, rfl, rfl, nofun,
      fun a ha => ⟨rfl, ?_, fun b hb => ?_⟩⟩
    · exact (flywheelBegun_told h).congr
        (State.gridAt_only (Closed.sameOn _ [.reports] (by decide)) (State.sameOn_refl _ _) _ .reports (by simp)).symm
    · obtain rfl := Option.some.inj ha
      rw [flyFirst_gridAt, gridAt_wget, State.wget_wset _ _ _ (by decide)]
    · simp only [List.mem_cons, List.not_mem_nil, or_false, not_or] at hb
      obtain ⟨hstat, ht0, ht4, ht8, hflt⟩ := hb
      exact (gridAt_wordsBut _ _ b (by simp [ht0, ht4, ht8])).trans (flywheelBegun_reg s hstat hflt)

/-- Settles O14: each command is its effect on the turn unit, by its own lemma. -/
theorem turnHostAndEvents : Obligations.TurnHostAndEvents := by
  unfold Obligations.TurnHostAndEvents
  refine ⟨fun s hruns => ⟨fun v => ?_, fun h => ?_, fun h => ?_, fun hfly hlock => ?_, fun h => ?_, ?_⟩,
    fun s o os h hdue => exec_outputRelease_due h hdue, fun s o os h => exec_outputRelease_early h, fun s at_ hphase hmissed => ?_,
    fun s h => ?_, fun s hlock himage hwait => ⟨fun hfly hlocked => ?_, fun hfly hlocked => ?_, fun hfly => ?_⟩, fun s h => ?_⟩
  · refine ⟨_, exec_halt hruns v, rfl, ?_, State.bit_setBit _ _ _ (by decide) (by decide)⟩
    exact (State.bit_congr _ (State.setBit_reg_ne _ _ _ (by decide))).trans (State.bit_setBit _ _ _ (by decide) (by decide))
  · rw [exec_singleStep hruns, State.stepNow, if_pos h]
  · rw [exec_singleStep hruns, State.stepNow, if_neg (by simp [h])]
  · rw [exec_relock hruns, State.relockNow, if_pos (by simp [hfly, hlock])]
    rfl
  · rw [exec_relock hruns, State.relockNow, if_neg (by simp [h])]
  · exact ⟨_, exec_slackRst hruns, State.onlyWords_fset s _ (List.mem_singleton_self _), State.fget_fset _ _ _ (by decide)⟩
  · obtain ⟨t, ht, hover, hslack, hcnt, hreports, hcore, hstrands, hwords⟩ := exec_turnOverrun hphase hmissed
    refine ⟨t, ht, hover, hslack, hcnt, fun hon => ?_, hcore, hstrands, hwords⟩
    obtain ⟨r, hr, hsrc, hcode, hfresh⟩ := raise_held (s := s.drawn) (r := s.overrunReport at_) hon
    refine ⟨r, hreports ▸ hr, hsrc, hcode, fun h => ?_⟩
    rw [hfresh h]
    exact ⟨rfl, rfl, rfl⟩
  · change Host.Outcome.next (s.watch [11] fun s => s.overrun) = _
    rw [watch_unchanged _ (overrun_idle h)]
  · exact exec_anchorLost_told (by simp [hfly, hlocked])
  · refine ⟨_, exec_anchorLost_new (by simp [hlocked]), ?_⟩
    rw [loseAnchor_flying hlock himage hwait hfly]
    refine ⟨State.raiseAt_core _ _ _ _ _ _, fun hon => raise_reports (r := { src := 0x280, .. }) hon, fun a ha => ?_⟩
    exact raiseAt_reg _ _ _ _ _ _ (List.ne_of_not_mem_cons ha)
  · exact anchorLost_shows hlock himage hwait hfly
  · by_cases htold : (s.bit F.TURN_STAT_FLYWHEEL && !s.pcsLocked (s.fget F.TURN_ANCHOR_LANE)) = true
    · exact exec_anchorLost_told htold
    · rw [exec_anchorLost_new (Bool.eq_false_iff.mpr htold), loseAnchor_idle h]

end Sys2Proof.Machine
end

section
/-! What the steps of a boundary write: the holds, an early turn that meets one, the start of a turn and its omission (R79, R82, R84, R86, R131). -/

namespace Sys2Proof.Machine

/-! ### The steps of a boundary, named -/

/-- At the grid's origin the lock hold ends, and the closing window keeps the words of one SPAN (R79, R86). -/
def State.originMet (s : State) : State :=
  if s.core.boundary = s.core.origin ∧ s.core.anchorT0 = none then (s.fset F.TURN_HOLD_SRC_LOCK 0).trimWindow s.core.boundary else s

/-- An early turn in progress meets a hold (R84). -/
def State.prefixMet (s : State) : State := if s.core.phase = .early ∧ s.turnHold then s.cancelPrefix else s

/-- Every committed output set is due (R81). -/
def State.outputsDue (s : State) : State :=
  { s with core := { s.core with outComm := s.core.outComm.map fun (o : OutSet) => { o with due := true } } }

/-- The state in which the boundary finds the device. -/
def State.boundaryMet (s : State) : State := ((s.originMet.beatMiss).spliceHold s.core.boundary).prefixMet.outputsDue.stepEnds

/-- Boundary `b` has passed: the window goes to both dies, and its words to the mirror stream. -/
def State.boundaryPassed (s : State) (b : Nat) : State :=
  let t := s.findBs b
  let u := { t with
    edge := { t.edge with win := 3 }
    core := { t.core with boundary := b + 1, started := true, committed := false } }
  u.each (u.windowOf (b + 1)) fun s p => s.mirrorFill (p.1 % 2 ^ 18) p.2.data

theorem boundaryNow_eq (s : State) : s.boundaryNow =
    (if s.boundaryMet.core.phase ≠ .turn ∧ (!s.boundaryMet.turnHold ∨ s.boundaryMet.stepStarts) ∧ !s.boundaryMet.tooSoon s.core.boundary
      then s.boundaryMet.startTurn s.core.boundary else s.boundaryMet.skipTurn s.core.boundary).boundaryPassed s.core.boundary := rfl

/-! ### Before the turn is decided -/

theorem beatMiss_reg (s : State) {a : Nat} (h : a ≠ R.SPL_HB_MISS) : s.beatMiss.reg a = s.reg a := by
  unfold State.beatMiss
  dsimp only
  split
  · exact s.reg_fset_ne _ _ h
  · rfl

theorem spliceHold_lock (s : State) (b : Nat) : (s.spliceHold b).bit F.TURN_HOLD_SRC_LOCK = s.bit F.TURN_HOLD_SRC_LOCK := by
  have hset : ∀ (t : State) x, (t.fset F.TURN_HOLD_SRC_SPLICE x).bit F.TURN_HOLD_SRC_LOCK = t.bit F.TURN_HOLD_SRC_LOCK := fun t x =>
    t.bit_fset_apart _ _ _ (by decide) (by simp [Fld.apart])
  have hraise : ∀ (t : State), (t.raiseAt 0x284 0x0703 0 0 0).bit F.TURN_HOLD_SRC_LOCK = t.bit F.TURN_HOLD_SRC_LOCK := fun t =>
    State.bit_congr _ (raiseAt_reg _ _ _ _ _ _ (by decide))
  have hcount : ∀ (t : State), (t.count F.SPL_HOLD_CNT_COUNT 1).bit F.TURN_HOLD_SRC_LOCK = t.bit F.TURN_HOLD_SRC_LOCK := fun t =>
    State.bit_congr _ (t.reg_fset_ne _ _ (by decide))
  have hstate : (s.fset F.SPL_STAT_STATE 6).bit F.TURN_HOLD_SRC_LOCK = s.bit F.TURN_HOLD_SRC_LOCK :=
    State.bit_congr _ (s.reg_fset_ne _ _ (by decide))
  unfold State.spliceHold
  dsimp only
  split_ifs <;> simp only [hset, hraise, hcount, hstate]

theorem cancelPrefix_reg (s : State) {a : Nat} (hseen : ¬ observedWord a) (hstray : a % 0x100 ≠ 4) (hcnt : a ≠ R.TURN_CANCEL_CNT) :
    s.cancelPrefix.reg a = s.reg a := by
  have hstat : a ≠ R.TURN_STAT := fun h => hstray (h ▸ rfl)
  have heq : s.cancelPrefix.reg a = ((s.prefixCleared.count F.TURN_CANCEL_CNT_COUNT 1).fset F.TURN_STAT_CANCELLED 1).reg a := by
    obtain ⟨core, heq, -⟩ := cancelPrefix_eq s
    rw [heq]
    simp only [State.reg]
  rw [heq, State.reg_fset_ne _ _ _ hstat, State.count, State.reg_fset_ne _ _ _ hcnt]
  exact prefixCleared_reg s hseen hstray

theorem stepEnds_reg (s : State) {a : Nat} (h : a ≠ R.TURN_STAT) : s.stepEnds.reg a = s.reg a := by
  unfold State.stepEnds
  split
  · exact State.reg_fset_ne _ _ _ h
  · rfl

theorem stepEnds_eq (s : State) : s.stepEnds = { s with
    regs := s.stepEnds.regs
    core := { s.core with stepping := s.stepEnds.core.stepping } } := by
  unfold State.stepEnds
  split <;> rfl

theorem stepEnds_cancelled (s : State) : s.stepEnds.bit F.TURN_STAT_CANCELLED = s.bit F.TURN_STAT_CANCELLED := by
  unfold State.stepEnds
  split
  · exact State.bit_fset_apart _ _ _ _ (by decide) (by simp [Fld.apart])
  · rfl

/-! ### The start of a turn -/

theorem setPort_reg (s : State) (k : Nat) (p : Port) (a : Nat) : (s.setPort k p).reg a = s.reg a := rfl

theorem updOp_reg (s : State) (k : Nat) (o : PortOp) (f : PortOp → Option PortOp) (a : Nat) : (s.updOp k o f).reg a = s.reg a := rfl

/-- The ports' words are those of the cord blocks. -/
theorem deferredDue_reg (s : State) {a : Nat} (h : a < 0x100C000) : s.deferredDue.reg a = s.reg a := by
  refine State.each_keeps (fun t => t.reg a) fun t kp _ => ?_
  have hpend : ∀ u : State, (u.fset (F.DMP_STAT_DEF_PEND (kp.1 / 4) (kp.1 % 4)) 0).reg a = u.reg a := fun u =>
    u.reg_fset_ne _ _ (by simp only; omega)
  have hlate : ∀ u : State, (u.fset (F.DMP_STAT_LATE (kp.1 / 4) (kp.1 % 4)) 1).reg a = u.reg a := fun u =>
    u.reg_fset_ne _ _ (by simp only; omega)
  dsimp only
  split
  · exact setPort_reg _ _ _ a
  · split_ifs
    · rw [setPort_reg, updOp_reg, hpend]
    · rw [setPort_reg, hlate, updOp_reg, hpend]

theorem setDelays_reg (s : State) (d : Nat) (l : List DelayItem) {a : Nat} (h : a < 0x3200000) : (s.setDelays d l).reg a = s.reg a := by
  rw [State.setDelays, State.reg_fset_ne _ _ _ (by simp only; omega)]
  rfl

theorem applyDelta_reg (s : State) (d : FlowDelta) {a : Nat} (h : a < 0x3200000) : (s.applyDelta d).reg a = s.reg a := by
  unfold State.applyDelta
  dsimp only
  refine (State.each_keeps (fun t => t.reg a) fun t e _ => setDelays_reg t _ _ h).trans
    ((State.each_keeps (fun t => t.reg a) fun t e _ => setDelays_reg t _ _ h).trans ?_)
  rw [setFlow_reg, State.reg_setReg_ne _ _ (by simp only [R.ACT_FL_MASK]; omega), State.reg_setReg_ne _ _ (by simp only [R.ACT_FL_FLAGS]; omega)]

/-- A held window and its record write words of the splice unit and of the action plane alone. -/
theorem takeHeld_reg (s : State) (j b : Nat) {a : Nat} (h : a < 0x3200000) (hlag : a ≠ R.SPL_LAG) : (s.takeHeld j b).reg a = s.reg a := by
  unfold State.takeHeld
  dsimp only
  refine (State.reg_fset_ne _ _ _ hlag).trans ((State.reg_fset_ne _ _ _ hlag).trans ?_)
  exact (State.each_keeps (fun t => t.reg a) fun t d _ => applyDelta_reg t d h).trans (State.each_keeps (fun t => t.reg a) fun _ _ _ => rfl)

theorem takeHeld_core (s : State) (j b : Nat) : (s.takeHeld j b).core.unbinned = s.core.unbinned := by
  unfold State.takeHeld
  dsimp only
  refine (State.each_keeps (fun t => t.core.unbinned) fun t d _ => congrArg Core.unbinned ?_).trans
    (State.each_keeps (fun t => t.core.unbinned) fun _ _ _ => rfl)
  exact (State.applyDelta_only (Closed.sameOn t [.core] (by decide)) (t.sameOn_refl _) d .core (by simp)).symm

/-- The window that the turn reads: a STANDBY takes the one it holds. -/
def State.windowTaken (s : State) (b : Nat) : State :=
  if s.standby && (s.fget F.SPL_STAT_STATE != 5 || s.turnNum < s.splice.own) then s.takeHeld s.turnNum b else s

/-- The strand core of a turn that starts at boundary `b`. -/
def State.turnCore (s : State) (b : Nat) : Core :=
  { s.core with
    phase := .turn, readWin := b + 1, earlyOk := false, stepping := s.bit F.TURN_STAT_STEPPING,
    idle := s.core.idle - (if s.core.phase = Phase.early then s.core.ran else 0), missed := none, overran := false, notBefore := none,
    turnEdge := s.core.base + s.core.idle + 1,
    windows := s.core.windows.filter fun p => b * 2 ^ 18 ≤ p.1 }

/-- The turn is open: its core, and the values injected in its early steps. -/
def State.turnOpened (s : State) (b : Nat) : State :=
  { s with
    ring := { s.ring with
      lastInj := s.ring.specInj.foldl (fun m p => SMap.set (fun _ => false) m p.1 p.2) s.ring.lastInj, specInj := [] }
    core := s.turnCore b }

/-- The mirror stream of a starting turn lies outside everything but the splice unit. -/
theorem startTurn_sameOn (s : State) (b : Nat) :
    (((s.windowTaken b).turnOpened b).deferredDue.fset F.TURN_STAT_HALTED 0).sameOn [.regs, .core, .ring, .strands] (s.startTurn b) :=
  State.beatOut_only (Closed.sameOn _ _ (by decide)) (State.restOut_only (Closed.sameOn _ _ (by decide)) (State.sameOn_refl _ _) _ _) _ _

theorem windowTaken_reg (s : State) (b : Nat) {a : Nat} (h : a < 0x3200000) (hlag : a ≠ R.SPL_LAG) : (s.windowTaken b).reg a = s.reg a := by
  unfold State.windowTaken
  split
  · exact takeHeld_reg s _ _ h hlag
  · rfl

theorem windowTaken_core (s : State) (b : Nat) : (s.windowTaken b).core.unbinned = s.core.unbinned := by
  unfold State.windowTaken
  split
  · exact takeHeld_core s _ _
  · rfl

theorem startTurn_regs (s : State) (b : Nat) (a : Nat) :
    (s.startTurn b).reg a = (((s.windowTaken b).turnOpened b).deferredDue.fset F.TURN_STAT_HALTED 0).reg a :=
  State.reg_congr (startTurn_sameOn s b .regs (by simp)).symm a

theorem startTurn_reg (s : State) (b : Nat) {a : Nat} (h : a < 0x100C000) (hlag : a ≠ R.SPL_LAG) (hstat : a ≠ R.TURN_STAT) :
    (s.startTurn b).reg a = s.reg a := by
  rw [startTurn_regs, State.reg_fset_ne _ _ _ hstat, deferredDue_reg _ h]
  exact windowTaken_reg s b (by omega) hlag

theorem startTurn_runs (s : State) (b : Nat) : (s.startTurn b).bit F.TURN_STAT_HALTED = false :=
  (State.bit_congr _ (startTurn_regs s b _)).trans (State.bit_fset_zero _ _ (by decide) (by decide))

theorem startTurn_cancelled (s : State) (b : Nat) : (s.startTurn b).bit F.TURN_STAT_CANCELLED = s.bit F.TURN_STAT_CANCELLED := by
  rw [State.bit_congr _ (startTurn_regs s b _), State.bit_fset_apart _ _ _ _ (by decide) (by simp [Fld.apart])]
  exact State.bit_congr _ ((deferredDue_reg _ (by decide)).trans (windowTaken_reg s b (by decide) (by decide)))

theorem startTurn_core (s : State) (b : Nat) : (s.startTurn b).core = (s.windowTaken b).turnCore b := by
  rw [← startTurn_sameOn s b .core (by simp), State.fset_core]
  exact (State.deferredDue_only (Closed.sameOn _ [.core] (by decide)) (State.sameOn_refl _ _) .core (by simp)).symm

theorem startTurn_bights (s : State) (b : Nat) : (s.startTurn b).ring.bights = s.ring.bights := by
  rw [← startTurn_sameOn s b .ring (by simp), State.fset_ring,
    ← State.deferredDue_only (Closed.sameOn _ [.ring] (by decide)) (State.sameOn_refl _ _) .ring (by simp)]
  show (s.windowTaken b).ring.bights = _
  unfold State.windowTaken
  split
  · rw [← State.takeHeld_only (Closed.sameOn s [.ring] (by decide)) (s.sameOn_refl _) _ _ .ring (by simp)]
  · rfl

/-! ### No turn starts -/

/-- The boundary and the words of its window are counted (R79). -/
def State.slipCounted (s : State) (b : Nat) : State := (s.count F.TURN_IN_DROP_COUNT (s.windowOf b).length).count F.TURN_SLIP_COUNT 1

/-- The core at a boundary without a start: its window is discarded, and the first boundary that a turn misses is kept (R79, R87). -/
def State.skipCore (s : State) (b : Nat) : Core :=
  { s.core with
    windows := SMap.drop s.core.windows (b * 2 ^ 18) ((b + 1) * 2 ^ 18)
    missed := if s.core.phase = Phase.turn ∧ !s.core.overran ∧ s.core.missed.isNone then some s.time.now else s.core.missed }

/-- A boundary without a start, before the halt shows. -/
def State.boundarySkipped (s : State) (b : Nat) : State := { s.slipCounted b with core := s.skipCore b }

/-- A halt shows once no turn is in progress (R86). -/
def State.haltShown (s : State) : State :=
  if s.bit F.TURN_HOLD_SRC_HALT && s.core.phase != .turn then s.fset F.TURN_STAT_HALTED 1 else s

theorem skipTurn_sameOn (s : State) (b : Nat) : (s.boundarySkipped b).haltShown.sameOn [.regs, .core, .ring, .strands] (s.skipTurn b) :=
  State.beatOut_only (Closed.sameOn _ _ (by decide)) (State.sameOn_refl _ _) _ _

theorem haltShown_reg (s : State) {a : Nat} (h : a ≠ R.TURN_STAT) : s.haltShown.reg a = s.reg a := by
  unfold State.haltShown
  split
  · exact s.reg_fset_ne _ _ h
  · rfl

theorem State.haltShown_unit (s : State) {α : Type} (g : State → α) (hg : ∀ t r, g { t with regs := r } = g t) : g s.haltShown = g s := by
  unfold State.haltShown
  split
  · exact hg s _
  · rfl

theorem boundarySkipped_reg (s : State) (b a : Nat) : (s.boundarySkipped b).reg a = (s.slipCounted b).reg a := rfl

theorem skipTurn_regs (s : State) (b a : Nat) : (s.skipTurn b).reg a = (s.boundarySkipped b).haltShown.reg a :=
  State.reg_congr (skipTurn_sameOn s b .regs (by simp)).symm a

/-- The words that a boundary without a start writes. -/
theorem skipTurn_reg (s : State) (b : Nat) {a : Nat} (hdrop : a ≠ R.TURN_IN_DROP) (hslip : a ≠ R.TURN_SLIP) (hstat : a ≠ R.TURN_STAT) :
    (s.skipTurn b).reg a = s.reg a := by
  rw [skipTurn_regs, haltShown_reg _ hstat, boundarySkipped_reg, State.slipCounted, State.count, State.reg_fset_ne _ _ _ hslip]
  exact s.reg_fset_ne _ _ hdrop

theorem skipTurn_core (s : State) (b : Nat) : (s.skipTurn b).core = s.skipCore b := by
  rw [← skipTurn_sameOn s b .core (by simp), (s.boundarySkipped b).haltShown_unit State.core fun _ _ => rfl, State.boundarySkipped]

theorem skipTurn_bights (s : State) (b : Nat) : (s.skipTurn b).ring.bights = s.ring.bights := by
  rw [← skipTurn_sameOn s b .ring (by simp), (s.boundarySkipped b).haltShown_unit State.ring fun _ _ => rfl]
  show (s.slipCounted b).ring.bights = _
  rw [State.slipCounted, State.count_ring, State.count_ring]

theorem skipTurn_strands (s : State) (b : Nat) : (s.skipTurn b).strands = s.strands :=
  (State.skipTurn_only (Closed.sameOn s [.strands] (by decide)) (s.sameOn_refl _) b .strands (by simp)).symm

theorem skipTurn_cancelled (s : State) (b : Nat) : (s.skipTurn b).bit F.TURN_STAT_CANCELLED = s.bit F.TURN_STAT_CANCELLED := by
  have hcounted : (s.boundarySkipped b).bit F.TURN_STAT_CANCELLED = s.bit F.TURN_STAT_CANCELLED := State.bit_congr _ (by
    rw [boundarySkipped_reg, State.slipCounted, State.count, State.reg_fset_ne _ _ _ (by decide)]
    exact s.reg_fset_ne _ _ (by decide))
  rw [State.bit_congr _ (skipTurn_regs s b _), State.haltShown, ← hcounted]
  split
  · exact State.bit_fset_apart _ _ _ _ (by decide) (by simp [Fld.apart])
  · rfl

theorem satAdd_word (x n : Nat) : satAdd (2 ^ 32 - 1) x n = min (2 ^ 32 - 1) (x + n) := by
  unfold satAdd
  split <;> omega

/-- A counter of a whole word that goes up. -/
theorem fget_count_word (s : State) (a n : Nat) : (s.count ⟨a, 0, 32⟩ n).fget ⟨a, 0, 32⟩ = min (2 ^ 32 - 1) (s.fget ⟨a, 0, 32⟩ + n) := by
  refine (s.fget_fset ⟨a, 0, 32⟩ _ (Nat.le_refl 32)).trans ?_
  rw [satAdd_word]
  exact Nat.mod_eq_of_lt (by simp only; omega)

theorem skipTurn_slip (s : State) (b : Nat) : (s.skipTurn b).fget F.TURN_SLIP_COUNT = min (2 ^ 32 - 1) (s.fget F.TURN_SLIP_COUNT + 1) := by
  rw [State.fget_congr _ ((skipTurn_regs s b _).trans ((haltShown_reg _ (by decide)).trans (boundarySkipped_reg s b _))), State.slipCounted,
    fget_count_word, State.count, State.fget_fset_other _ _ _ _ (by decide)]

theorem skipTurn_drop (s : State) (b : Nat) :
    (s.skipTurn b).fget F.TURN_IN_DROP_COUNT = min (2 ^ 32 - 1) (s.fget F.TURN_IN_DROP_COUNT + (s.windowOf b).length) := by
  rw [State.fget_congr _ ((skipTurn_regs s b _).trans ((haltShown_reg _ (by decide)).trans (boundarySkipped_reg s b _))), State.slipCounted,
    State.count, State.fget_fset_other _ _ _ _ (by decide), fget_count_word]

/-- With no turn in progress the host halt shows (R86). -/
theorem skipTurn_halted {s : State} (b : Nat) (hphase : s.core.phase ≠ .turn) (hhalt : s.bit F.TURN_HOLD_SRC_HALT = true) :
    (s.skipTurn b).bit F.TURN_STAT_HALTED = true := by
  have hhold : (s.boundarySkipped b).bit F.TURN_HOLD_SRC_HALT = true := by
    rw [← hhalt]
    exact State.bit_congr _ (by
      rw [boundarySkipped_reg, State.slipCounted, State.count, State.reg_fset_ne _ _ _ (by decide)]
      exact s.reg_fset_ne _ _ (by decide))
  have hslack : ((s.boundarySkipped b).core.phase != .turn) = true := bne_iff_ne.mpr hphase
  rw [State.bit_congr _ (skipTurn_regs s b _), State.haltShown, if_pos (by rw [hhold, hslack]; rfl)]
  exact State.bit_fset_one _ _ (by decide) (by decide)

end Sys2Proof.Machine
end

section
/-! The boundary as a whole (R73, R79, R81, R82, R84, R86, R88). -/

namespace Sys2Proof.Machine

/-! ### The command -/

/-- The slack of a turn that has completed shows in TURN_SLACK_MIN (R87). -/
def State.slackShown (s : State) : State :=
  if s.core.committed then (s.fset F.TURN_SLACK_MIN_MIN (min (s.fget F.TURN_SLACK_MIN_MIN) (s.freeBits 13).toNat)).drawn else s

theorem State.slackShown_eq (s : State) : s.slackShown = { s with regs := s.slackShown.regs, free := s.slackShown.free } := by
  unfold State.slackShown
  split <;> rfl

theorem slackShown_reg (s : State) {a : Nat} (h : a ≠ R.TURN_SLACK_MIN) : s.slackShown.reg a = s.reg a := by
  unfold State.slackShown
  split
  · exact s.reg_fset_ne _ _ h
  · rfl

theorem slackShown_core (s : State) : s.slackShown.core = s.core := by rw [s.slackShown_eq]

/-- A turn starts at boundary `b`, or none does. -/
def State.turnDecided (s : State) (b : Nat) : State :=
  if s.core.phase ≠ .turn ∧ (!s.turnHold ∨ s.stepStarts) ∧ !s.tooSoon b then s.startTurn b else s.skipTurn b

theorem turnDecided_starts {s : State} {b : Nat} (hphase : s.core.phase ≠ .turn) (hhold : s.turnHold = false) (hsoon : s.tooSoon b = false) :
    s.turnDecided b = s.startTurn b := if_pos ⟨hphase, by simp [hhold], by simp [hsoon]⟩

theorem turnDecided_skips {s : State} {b : Nat}
    (h : s.core.phase = .turn ∨ s.tooSoon b = true ∨ (s.turnHold = true ∧ s.stepStarts = false)) : s.turnDecided b = s.skipTurn b :=
  if_neg fun ⟨hphase, hhold, hsoon⟩ => by
    rcases h with h | h | ⟨h, h'⟩
    · exact hphase h
    · simp [h] at hsoon
    · simp [h, h'] at hhold

/-- The state that TURN_BOUNDARY leaves. -/
def State.boundaryDone (s : State) : State := s.slackShown.watch [10] State.boundaryNow

theorem exec_turnBoundary_runs {s : State} (h : s.gridRuns = true) : exec .turnBoundary s = .next s.boundaryDone := if_neg (by simp [h])

theorem exec_turnBoundary_idle {s : State} (h : s.gridRuns = false) : exec .turnBoundary s = .next s := if_pos (by simp [h])

/-! ### After the decision -/

theorem boundaryPassed_sameOn (s : State) (b : Nat) :
    { s.findBs b with
      edge := { (s.findBs b).edge with win := 3 }
      core := { (s.findBs b).core with boundary := b + 1, started := true, committed := false } }.sameOn
      [.regs, .core, .edge, .ring, .strands, .instrs, .mem] (s.boundaryPassed b) := by
  unfold State.boundaryPassed
  exact State.each_inv (State.sameOn_refl _ _) fun t p _ h => State.mirrorFill_only (Closed.sameOn _ _ (by decide)) h _ _

theorem findBs_sameOn (s : State) (b : Nat) : s.sameOn [.regs, .core, .ring, .strands, .instrs, .mem] (s.findBs b) :=
  State.findBs_only (Closed.sameOn s _ (by decide)) (s.sameOn_refl _) b

theorem boundaryPassed_reg (s : State) (b a : Nat) : (s.boundaryPassed b).reg a = s.reg a :=
  (State.reg_congr (boundaryPassed_sameOn s b .regs (by simp)).symm a).trans (State.reg_congr (findBs_sameOn s b .regs (by simp)).symm a)

theorem boundaryPassed_core (s : State) (b : Nat) :
    (s.boundaryPassed b).core = { s.core with boundary := b + 1, started := true, committed := false } := by
  rw [← boundaryPassed_sameOn s b .core (by simp), ← findBs_sameOn s b .core (by simp)]

theorem boundaryPassed_ring (s : State) (b : Nat) : (s.boundaryPassed b).ring = s.ring :=
  (boundaryPassed_sameOn s b .ring (by simp)).symm.trans (findBs_sameOn s b .ring (by simp)).symm

theorem boundaryPassed_strands (s : State) (b : Nat) : (s.boundaryPassed b).strands = s.strands :=
  (boundaryPassed_sameOn s b .strands (by simp)).symm.trans (findBs_sameOn s b .strands (by simp)).symm

theorem boundaryPassed_win (s : State) (b : Nat) : (s.boundaryPassed b).edge.win = 3 := by
  rw [← boundaryPassed_sameOn s b .edge (by simp)]

section
variable (s : State)

/-- The state in which the boundary finds the device, once the slack shows. -/
def State.boundaryFound : State := s.slackShown.boundaryMet

/-- What a boundary leaves is what the decision about a turn leaves, but for what the passing of the boundary itself sets. -/
theorem boundaryNow_decided : s.slackShown.boundaryNow = (s.boundaryFound.turnDecided s.core.boundary).boundaryPassed s.core.boundary := by
  rw [boundaryNow_eq, slackShown_core]
  rfl

theorem boundaryDone_reg {a : Nat} (h : a ≠ R.HST_EVT) : s.boundaryDone.reg a = (s.boundaryFound.turnDecided s.core.boundary).reg a := by
  rw [State.boundaryDone, State.watch_reg _ _ _ h, boundaryNow_decided, boundaryPassed_reg]

theorem boundaryDone_core : s.boundaryDone.core =
    { (s.boundaryFound.turnDecided s.core.boundary).core with boundary := s.core.boundary + 1, started := true, committed := false } := by
  rw [State.boundaryDone, State.watch_unit _ _ _ State.core fun _ _ => rfl, boundaryNow_decided, boundaryPassed_core]

theorem boundaryDone_ring : s.boundaryDone.ring = (s.boundaryFound.turnDecided s.core.boundary).ring := by
  rw [State.boundaryDone, State.watch_unit _ _ _ State.ring fun _ _ => rfl, boundaryNow_decided, boundaryPassed_ring]

theorem boundaryDone_strands : s.boundaryDone.strands = (s.boundaryFound.turnDecided s.core.boundary).strands := by
  rw [State.boundaryDone, State.watch_unit _ _ _ State.strands fun _ _ => rfl, boundaryNow_decided, boundaryPassed_strands]

theorem boundaryDone_win : s.boundaryDone.edge.win = 3 := by
  rw [State.boundaryDone, State.watch_unit _ _ _ (fun t => t.edge.win) fun _ _ => rfl, boundaryNow_decided, boundaryPassed_win]

/-- No boundary reaches memory, instructions or the image. -/
theorem boundaryDone_sameOn : s.sameOn [.mem, .instrs, .image] s.boundaryDone := by
  have hshown : s.sameOn [.mem, .instrs, .image] s.slackShown := fun p hp => by
    rw [s.slackShown_eq]
    simp only [List.mem_cons, List.not_mem_nil, or_false] at hp
    rcases hp with rfl | rfl | rfl <;> rfl
  have hnow : s.sameOn [.mem, .instrs, .image] s.slackShown.boundaryNow := State.boundaryNow_only (Closed.sameOn s _ (by decide)) hshown
  intro p hp
  have hpart := hnow p hp
  simp only [List.mem_cons, List.not_mem_nil, or_false] at hp
  rcases hp with rfl | rfl | rfl
  · exact hpart.trans (State.watch_unit _ _ _ State.mem fun _ _ => rfl).symm
  · exact hpart.trans (State.watch_unit _ _ _ State.instrs fun _ _ => rfl).symm
  · exact hpart.trans (State.watch_unit _ _ _ State.image fun _ _ => rfl).symm

variable (b : Nat)

/-- Either way no word of the turn unit is written but its status, its counts of boundaries and the state of the ports. -/
theorem turnDecided_reg {a : Nat} (h : a < 0x100C000) (hlag : a ≠ R.SPL_LAG) (hstat : a ≠ R.TURN_STAT) (hdrop : a ≠ R.TURN_IN_DROP)
    (hslip : a ≠ R.TURN_SLIP) : (s.turnDecided b).reg a = s.reg a := by
  unfold State.turnDecided
  split
  · exact startTurn_reg s b h hlag hstat
  · exact skipTurn_reg s b hdrop hslip hstat

theorem turnDecided_cancelled : (s.turnDecided b).bit F.TURN_STAT_CANCELLED = s.bit F.TURN_STAT_CANCELLED := by
  unfold State.turnDecided
  split
  · exact startTurn_cancelled s b
  · exact skipTurn_cancelled s b

theorem turnDecided_bights : (s.turnDecided b).ring.bights = s.ring.bights := by
  unfold State.turnDecided
  split
  · exact startTurn_bights s b
  · exact skipTurn_bights s b

theorem turnDecided_strands : (s.turnDecided b).strands = s.strands := by
  unfold State.turnDecided
  split
  · exact (State.startTurn_only (Closed.sameOn s [.strands] (by decide)) (s.sameOn_refl _) b .strands (by simp)).symm
  · exact skipTurn_strands s b

theorem turnDecided_core : (s.turnDecided b).core.asserts = s.core.asserts ∧ (s.turnDecided b).core.outComm = s.core.outComm := by
  unfold State.turnDecided
  split
  · have hasserts := congrArg Core.asserts (windowTaken_core s b)
    have hout := congrArg Core.outComm (windowTaken_core s b)
    rw [startTurn_core]
    exact ⟨hasserts, hout⟩
  · rw [skipTurn_core]
    exact ⟨rfl, rfl⟩

end

/-! ### Every boundary -/

theorem prefixMet_lock (s : State) : s.prefixMet.bit F.TURN_HOLD_SRC_LOCK = s.bit F.TURN_HOLD_SRC_LOCK := by
  unfold State.prefixMet
  split
  · exact State.bit_congr _ (cancelPrefix_reg s (by simp [observedWord, R.HST_EVT]) (by decide) (by decide))
  · rfl

theorem boundaryMet_lock (s : State) : s.boundaryMet.bit F.TURN_HOLD_SRC_LOCK = s.originMet.bit F.TURN_HOLD_SRC_LOCK := by
  rw [State.boundaryMet, State.bit_congr _ (stepEnds_reg _ (by decide))]
  show (State.prefixMet _).bit F.TURN_HOLD_SRC_LOCK = _
  rw [prefixMet_lock, spliceHold_lock]
  exact State.bit_congr _ (beatMiss_reg _ (by decide))

/-- At T0 the lock hold ends (R86). -/
theorem originMet_lock {s : State} (h : s.core.boundary = s.core.origin) (hT0 : s.core.anchorT0 = none) :
    s.originMet.bit F.TURN_HOLD_SRC_LOCK = false := by
  rw [State.originMet, if_pos ⟨h, hT0⟩]
  exact State.bit_fset_zero s F.TURN_HOLD_SRC_LOCK (by decide) (by decide)

theorem boundaryFound_due (s : State) : ∀ o ∈ s.boundaryFound.core.outComm, o.due = true := by
  have hmap : ∃ l : List OutSet, s.boundaryFound.core.outComm = l.map fun (o : OutSet) => { o with due := true } := by
    unfold State.boundaryFound State.boundaryMet
    rw [stepEnds_eq]
    exact ⟨_, rfl⟩
  obtain ⟨l, hl⟩ := hmap
  intro o ho
  rw [hl, List.mem_map] at ho
  obtain ⟨o', -, rfl⟩ := ho
  rfl

theorem boundaryDone_due (s : State) : ∀ o ∈ s.boundaryDone.core.outComm, o.due = true := by
  have h := boundaryFound_due s
  rw [boundaryDone_core]
  show ∀ o ∈ (s.boundaryFound.turnDecided s.core.boundary).core.outComm, _
  rwa [(turnDecided_core _ _).2]

theorem boundaryDone_lock {s : State} (h : s.core.boundary = s.core.origin) (hT0 : s.core.anchorT0 = none) :
    s.boundaryDone.bit F.TURN_HOLD_SRC_LOCK = false := by
  rw [State.bit_congr _ ((boundaryDone_reg s (by decide)).trans
    (turnDecided_reg _ _ (by decide) (by decide) (by decide) (by decide) (by decide))), State.boundaryFound, boundaryMet_lock]
  exact originMet_lock (by rwa [slackShown_core]) (by rwa [slackShown_core])

end Sys2Proof.Machine
end

section
/-! Boundaries of a device that is no member of a pair: a turn starts, none does, or one goes on (R79, R82, R84, R86). -/

namespace Sys2Proof.Machine

/-! ### The grid seen from two states -/

/-- The words that the way of a boundary may write before the turn is decided, on a device alone. -/
def decisionWords : List Nat := [R.TURN_STAT, R.TURN_HOLD_SRC, R.TURN_SLACK_MIN]

/-- Two states with one grid of boundaries. -/
structure State.SameGrid (s t : State) : Prop where
  words : s.wordsBut t decisionWords
  origin : t.core.origin = s.core.origin
  ltOff : t.core.ltOff = s.core.ltOff
  notBefore : t.core.notBefore = s.core.notBefore
  time : t.time = s.time

section
variable {s t : State} (h : s.SameGrid t)
include h

theorem State.SameGrid.fget {f : Fld} (hf : f.addr ∉ decisionWords) : t.fget f = s.fget f := State.fget_congr f (h.words _ hf)

theorem State.SameGrid.bit {f : Fld} (hf : f.addr ∉ decisionWords) : t.bit f = s.bit f := State.bit_congr f (h.words _ hf)

theorem State.SameGrid.lockSrc : t.bit F.TURN_CFG_LOCK_SRC = s.bit F.TURN_CFG_LOCK_SRC := h.bit (by decide)

theorem State.SameGrid.span : t.span = s.span := h.fget (by decide)

theorem State.SameGrid.wget {w : Wide} (hw : ∀ i < w.nw, w.addr + 4 * i ∉ decisionWords) : t.wget w = s.wget w :=
  State.wget_congr w fun i hi => h.words _ (hw i hi)

theorem State.SameGrid.boundaryAt (b : Nat) : t.boundaryAt b = s.boundaryAt b := by
  unfold State.boundaryAt
  rw [h.wget (by decide), h.origin, h.span]

theorem State.SameGrid.tooSoon (b : Nat) : t.tooSoon b = s.tooSoon b := by
  unfold State.tooSoon
  rw [h.notBefore, h.lockSrc, h.boundaryAt, h.ltOff, h.time]

theorem State.SameGrid.lane {f : Fld} (hf : 0x2000000 ≤ f.addr) : t.fget f = s.fget f := h.fget (by
  simp only [decisionWords, R.TURN_STAT, R.TURN_HOLD_SRC, R.TURN_SLACK_MIN, List.mem_cons, List.not_mem_nil, or_false]
  omega)

theorem State.SameGrid.fillGuard : t.fillGuard = s.fillGuard := by
  unfold State.fillGuard State.kbps State.pcs
  dsimp only
  rw [h.lockSrc, h.fget (f := F.TURN_ANCHOR_LANE) (by decide), h.lane (f := F.LANE_RATE_KBPS _) (by simp only; omega),
    h.lane (f := F.LANE_CFG_PCS _) (by simp only; omega)]

/-- The closing window of the grid's origin holds the same words. -/
theorem State.SameGrid.trimWindow (hcore : t.core.windows = s.core.windows) (b : Nat) :
    (t.trimWindow b).core.windows = (s.trimWindow b).core.windows := by
  unfold State.trimWindow
  dsimp only
  rw [hcore, h.boundaryAt, h.span, h.fillGuard]

end

/-! ### A device alone -/

/-- The device is no member of a pair. -/
def State.alone (s : State) : Prop := s.fget F.SPL_STAT_STATE = 0 ∧ s.splice.paired = false

/-- The partner's heartbeat is not awaited. -/
def State.beatPassed (s : State) : State := { s with splice := { s.splice with beat := false } }

theorem beatPassed_core (s : State) : s.beatPassed.core = s.core := rfl

theorem outputsDue_core (s : State) : s.outputsDue.core =
    { s.core with outComm := s.core.outComm.map fun (o : OutSet) => { o with due := true } } := rfl

theorem stepEnds_core (s : State) : ∃ stepping, s.stepEnds.core = { s.core with stepping } :=
  ⟨s.stepEnds.core.stepping, congrArg State.core (stepEnds_eq s)⟩

theorem stepEnds_still {s : State} (h : s.core.stepping = false) : s.stepEnds = s := if_neg (by simp [h])

theorem beatMiss_alone {s : State} (h : s.alone) : s.beatMiss = s.beatPassed := by
  unfold State.beatMiss State.beatPassed
  simp [h.2]

theorem spliceHold_alone {s : State} (h : s.alone) (b : Nat) : s.spliceHold b = s := by
  unfold State.spliceHold
  simp [h.1]

/-- The holds with which boundary number `s.core.boundary` meets the device: the lock hold ends at T0. -/
def State.holdsAtBoundary (s : State) : State :=
  if s.core.boundary = s.core.origin ∧ s.core.anchorT0 = none then s.fset F.TURN_HOLD_SRC_LOCK 0 else s

/-- The windows that the boundary meets: at T0 the closing one is trimmed. -/
def State.windowsAtBoundary (s : State) : State :=
  if s.core.boundary = s.core.origin ∧ s.core.anchorT0 = none then s.trimWindow s.core.boundary else s

theorem originMet_reg (s : State) (a : Nat) : s.originMet.reg a = s.holdsAtBoundary.reg a := by
  unfold State.originMet State.holdsAtBoundary
  split <;> rfl

theorem holdsAtBoundary_reg (s : State) {a : Nat} (h : a ≠ R.TURN_HOLD_SRC) : s.holdsAtBoundary.reg a = s.reg a := by
  unfold State.holdsAtBoundary
  split
  · exact s.reg_fset_ne _ _ h
  · rfl

theorem slackShown_sameGrid (s : State) : s.SameGrid s.slackShown where
  words a ha := slackShown_reg s fun he => ha (by simp [decisionWords, he])
  origin := by rw [slackShown_core]
  ltOff := by rw [slackShown_core]
  notBefore := by rw [slackShown_core]
  time := by rw [s.slackShown_eq]

theorem originMet_core (s : State) : s.originMet.core = { s.core with windows := s.originMet.core.windows } := by
  unfold State.originMet
  split <;> rfl

theorem originMet_sameOn (s : State) : s.sameOn [.time, .strands, .splice, .ring, .image] s.originMet := by
  intro p hp
  unfold State.originMet
  simp only [List.mem_cons, List.not_mem_nil, or_false] at hp
  split <;> rcases hp with rfl | rfl | rfl | rfl | rfl <;> rfl

theorem originMet_alone {s : State} (h : s.alone) : s.slackShown.originMet.alone := by
  refine ⟨?_, ?_⟩
  · exact (State.fget_congr _ ((originMet_reg _ _).trans ((holdsAtBoundary_reg _ (by decide)).trans (slackShown_reg s (by decide))))).trans h.1
  · rw [← originMet_sameOn _ .splice (by simp), s.slackShown_eq]
    exact h.2

theorem originMet_windows (s : State) : s.slackShown.originMet.core.windows = s.windowsAtBoundary.core.windows := by
  have hfset : s.slackShown.SameGrid (s.slackShown.fset F.TURN_HOLD_SRC_LOCK 0) :=
    ⟨fun a ha => State.reg_fset_ne _ _ _ fun he => ha (by simp [decisionWords, he]), rfl, rfl, rfl, rfl⟩
  have hcore := slackShown_core s
  unfold State.originMet State.windowsAtBoundary
  rw [hcore]
  split
  · rw [hfset.trimWindow rfl, (slackShown_sameGrid s).trimWindow (by rw [hcore])]
  · rw [hcore]

theorem holdsAtBoundary_hold (s : State) : s.slackShown.holdsAtBoundary.reg R.TURN_HOLD_SRC = s.holdsAtBoundary.reg R.TURN_HOLD_SRC := by
  have hreg := slackShown_reg s (a := R.TURN_HOLD_SRC) (by decide)
  unfold State.holdsAtBoundary
  rw [slackShown_core]
  split
  · exact (State.reg_setReg_self _ _ _).trans (by rw [hreg]; exact (State.reg_setReg_self s R.TURN_HOLD_SRC _).symm)
  · exact hreg

/-- `t` is the state in which the boundary of `s` finds a device alone whose early turn, if any, meets no hold. -/
structure State.FoundAs (s t : State) : Prop extends s.SameGrid t where
  hold : t.reg R.TURN_HOLD_SRC = s.holdsAtBoundary.reg R.TURN_HOLD_SRC
  core : ∃ stepping, t.core = { s.core with
    windows := s.windowsAtBoundary.core.windows
    outComm := s.core.outComm.map fun (o : OutSet) => { o with due := true }
    stepping }
  strands : t.strands = s.strands
  still : s.core.stepping = false → t.reg R.TURN_STAT = s.reg R.TURN_STAT

theorem boundaryFound_alone {s : State} (h : s.alone) (hmeets : s.core.phase ≠ .early ∨ s.holdsAtBoundary.turnHold = false) :
    s.boundaryFound = s.slackShown.originMet.beatPassed.outputsDue.stepEnds := by
  have hmet := originMet_alone h
  have hhold : s.slackShown.originMet.beatPassed.turnHold = s.holdsAtBoundary.turnHold := by
    have hreg : s.slackShown.originMet.beatPassed.reg R.TURN_HOLD_SRC = s.holdsAtBoundary.reg R.TURN_HOLD_SRC :=
      (originMet_reg _ _).trans (holdsAtBoundary_hold s)
    unfold State.turnHold
    rw [State.fget_congr ⟨R.TURN_HOLD_SRC, 0, 6⟩ hreg]
  have hphase : s.slackShown.originMet.beatPassed.core.phase = s.core.phase := by
    show s.slackShown.originMet.core.phase = _
    rw [originMet_core, slackShown_core]
  have hskip : s.slackShown.originMet.beatPassed.prefixMet = s.slackShown.originMet.beatPassed := by
    refine if_neg fun ⟨hearly, hheld⟩ => ?_
    rcases hmeets with hmeets | hmeets
    · exact hmeets (hphase ▸ hearly)
    · exact absurd ((hhold.trans hmeets).symm.trans hheld) (by decide)
  have hpassed : s.slackShown.originMet.beatPassed.alone := ⟨hmet.1, hmet.2⟩
  rw [State.boundaryFound, State.boundaryMet, beatMiss_alone hmet, spliceHold_alone hpassed, hskip]

theorem boundaryFound_foundAs {s : State} (h : s.alone) (hmeets : s.core.phase ≠ .early ∨ s.holdsAtBoundary.turnHold = false) :
    s.FoundAs s.boundaryFound := by
  have heq := boundaryFound_alone h hmeets
  have hcore : s.slackShown.originMet.beatPassed.outputsDue.core = { s.core with
      windows := s.windowsAtBoundary.core.windows
      outComm := s.core.outComm.map fun (o : OutSet) => { o with due := true } } := by
    rw [outputsDue_core, beatPassed_core, originMet_core, slackShown_core, originMet_windows]
  have hreg : ∀ a, a ≠ R.TURN_STAT → s.boundaryFound.reg a = s.slackShown.holdsAtBoundary.reg a := fun a ha => by
    rw [heq, stepEnds_reg _ ha]
    exact originMet_reg _ a
  have hbefore : ∀ a, a ≠ R.TURN_HOLD_SRC → a ≠ R.TURN_SLACK_MIN → s.slackShown.holdsAtBoundary.reg a = s.reg a := fun a hhold hslack => by
    rw [holdsAtBoundary_reg _ hhold, slackShown_reg s hslack]
  obtain ⟨stepping, hsteps⟩ := stepEnds_core s.slackShown.originMet.beatPassed.outputsDue
  rw [hcore, ← heq] at hsteps
  have hunit : ∀ {α : Type} (g : State → α), (∀ t r c, g { t with regs := r, core := c } = g t) →
      g s.boundaryFound = g s.slackShown.originMet.beatPassed.outputsDue := fun g hg => by
    rw [heq, stepEnds_eq, hg]
  exact {
    words a ha := by
      simp only [decisionWords, List.mem_cons, List.not_mem_nil, or_false, not_or] at ha
      obtain ⟨hstat, hhold, hslack⟩ := ha
      rw [hreg a hstat, hbefore a hhold hslack]
    origin := by rw [hsteps]
    ltOff := by rw [hsteps]
    notBefore := by rw [hsteps]
    time := by
      rw [hunit State.time fun _ _ _ => rfl]
      exact (originMet_sameOn _ .time (by simp)).symm.trans (by rw [s.slackShown_eq])
    hold := (hreg _ (by decide)).trans (holdsAtBoundary_hold s)
    core := ⟨stepping, hsteps⟩
    strands := by
      rw [hunit State.strands fun _ _ _ => rfl]
      exact (originMet_sameOn _ .strands (by simp)).symm.trans (by rw [s.slackShown_eq])
    still hs := by
      rw [heq, stepEnds_still (by rw [hcore]; exact hs)]
      exact (originMet_reg _ _).trans (hbefore _ (by decide) (by decide)) }

/-! ### A turn starts, none does, or one goes on -/

section
variable {s r : State} (h : s.FoundAs r)
include h

theorem State.FoundAs.turnHold : r.turnHold = s.holdsAtBoundary.turnHold := by
  unfold State.turnHold
  rw [State.fget_congr ⟨R.TURN_HOLD_SRC, 0, 6⟩ h.hold]

theorem State.FoundAs.halt : r.bit F.TURN_HOLD_SRC_HALT = s.bit F.TURN_HOLD_SRC_HALT := by
  rw [State.bit_congr F.TURN_HOLD_SRC_HALT h.hold]
  unfold State.holdsAtBoundary
  split
  · exact s.bit_fset_apart _ _ _ (by decide) (by simp [Fld.apart])
  · rfl

theorem State.FoundAs.alone (ha : s.alone) : r.standby = false := by
  have hstate : r.fget F.SPL_STAT_STATE = 0 := (h.fget (by decide)).trans ha.1
  simp [State.standby, hstate]

theorem State.FoundAs.windowTaken (ha : s.alone) (b : Nat) : r.windowTaken b = r := by
  rw [State.windowTaken, h.alone ha]
  rfl

/-- The halt bars a start where no single step is asked for (R86). -/
theorem State.FoundAs.barred (hhalt : s.bit F.TURN_HOLD_SRC_HALT = true) (hstepping : s.bit F.TURN_STAT_STEPPING = false)
    (hstill : s.core.stepping = false) : r.turnHold = true ∧ r.stepStarts = false := by
  refine ⟨?_, ?_⟩
  · have hheld := h.halt.trans hhalt
    simp only [State.bit, State.turnHold, State.fget, Fld.read, R.TURN_HOLD_SRC, beq_iff_eq, bne_iff_ne] at hheld ⊢
    omega
  · have hstep : r.bit F.TURN_STAT_STEPPING = false := (State.bit_congr _ (h.still hstill)).trans hstepping
    rw [State.stepStarts, hstep, Bool.and_false]

end

end Sys2Proof.Machine
end

section
/-! The statement about boundaries: a cancelled early turn, a start, a boundary without a start, and a turn that goes on. -/

namespace Sys2Proof.Machine

/-! ### An early turn that meets a hold (R84) -/

/-- The device with its slack shown, as an early turn meets the boundary. -/
def State.heldPrefix (s : State) : State := s.slackShown.beatPassed

theorem heldPrefix_reg (s : State) {a : Nat} (h : a ≠ R.TURN_SLACK_MIN) : s.heldPrefix.reg a = s.reg a := slackShown_reg s h

theorem heldPrefix_core (s : State) : s.heldPrefix.core = s.core := slackShown_core s

theorem heldPrefix_strand (s : State) (g : Nat) : s.heldPrefix.strand g = s.strand g := by
  have hstrands : s.heldPrefix.strands = s.strands := by
    show s.slackShown.strands = _
    rw [s.slackShown_eq]
  unfold State.strand
  rw [hstrands]

theorem heldPrefix_strandOn (s : State) (g : Nat) : s.heldPrefix.strandOn g = s.strandOn g := by
  have himage : s.heldPrefix.image = s.image := by
    show s.slackShown.image = _
    rw [s.slackShown_eq]
  have hpart : s.heldPrefix.part = s.part := by
    show s.slackShown.part = _
    rw [s.slackShown_eq]
  have hiso : s.heldPrefix.isolated (gCord g) = s.isolated (gCord g) :=
    State.bit_congr _ (heldPrefix_reg s (by simp only [R.TURN_SLACK_MIN]; omega))
  unfold State.strandOn State.cordOn State.cordHere State.big
  rw [himage, hpart, hiso]

/-- What making the output sets due and the end of a single step leave: every part but the turn unit's, and every word but its status. -/
theorem dueStepEnds_unit (s : State) {α : Type} (g : State → α) (hg : ∀ t r c, g { t with regs := r, core := c } = g t) :
    g s.outputsDue.stepEnds = g s := by
  rw [stepEnds_eq, hg]
  exact hg s s.regs _

theorem dueStepEnds_reg (s : State) {a : Nat} (h : a ≠ R.TURN_STAT) : s.outputsDue.stepEnds.reg a = s.reg a := by
  rw [stepEnds_reg _ h]
  rfl

theorem dueStepEnds_cancelled (s : State) : s.outputsDue.stepEnds.bit F.TURN_STAT_CANCELLED = s.bit F.TURN_STAT_CANCELLED := by
  rw [stepEnds_cancelled]
  rfl

theorem dueStepEnds_asserts (s : State) : s.outputsDue.stepEnds.core.asserts = s.core.asserts := by
  obtain ⟨stepping, hcore⟩ := stepEnds_core s.outputsDue
  rw [hcore, outputsDue_core]

theorem cancelPrefix_asserts (s : State) : s.cancelPrefix.core.asserts = [] := rfl

section
variable {s : State} (h : s.alone) (hphase : s.core.phase = .early) (hhold : s.turnHold = true)
  (hgrid : s.core.boundary ≠ s.core.origin ∨ s.core.anchorT0 ≠ none)
include h hphase hhold hgrid

theorem boundaryFound_cancels : s.boundaryFound = s.heldPrefix.cancelPrefix.outputsDue.stepEnds := by
  have horigin : s.slackShown.originMet = s.slackShown := if_neg (by
    rw [slackShown_core]
    exact fun ⟨hb, hT0⟩ => hgrid.elim (· hb) (· hT0))
  have halone : s.slackShown.alone := horigin ▸ originMet_alone h
  have hpassed : s.heldPrefix.alone := ⟨halone.1, halone.2⟩
  have hheld : s.heldPrefix.turnHold = true := by
    rw [← hhold]
    unfold State.turnHold
    rw [State.fget_congr ⟨R.TURN_HOLD_SRC, 0, 6⟩ (heldPrefix_reg s (by decide))]
  have hearly : s.heldPrefix.core.phase = .early := heldPrefix_core s ▸ hphase
  rw [State.boundaryFound, State.boundaryMet, horigin, beatMiss_alone halone]
  show ((s.heldPrefix.spliceHold _).prefixMet).outputsDue.stepEnds = _
  rw [spliceHold_alone hpassed, State.prefixMet, if_pos ⟨hearly, hheld⟩]

theorem boundaryDone_cancels : s.boundaryDone.bit F.TURN_STAT_CANCELLED = true ∧ s.boundaryDone.ring.bights = [] ∧
    s.boundaryDone.core.asserts = [] ∧
    s.boundaryDone.fget F.TURN_CANCEL_CNT_COUNT = min (2 ^ 32 - 1) (s.fget F.TURN_CANCEL_CNT_COUNT + 1) ∧
    ∀ g, s.strandOn g = true → s.boundaryDone.strand g = (s.strand g).cancel := by
  have heq := boundaryFound_cancels h hphase hhold hgrid
  have hcounted : s.heldPrefix.cancelPrefix.fget F.TURN_CANCEL_CNT_COUNT = min (2 ^ 32 - 1) (s.fget F.TURN_CANCEL_CNT_COUNT + 1) := by
    have hcleared : s.heldPrefix.prefixCleared.fget F.TURN_CANCEL_CNT_COUNT = s.fget F.TURN_CANCEL_CNT_COUNT :=
      State.fget_congr _ ((prefixCleared_reg _ (by simp [observedWord, R.HST_EVT]) (by decide)).trans (heldPrefix_reg s (by decide)))
    rw [cancelPrefix_fget, State.fget_fset_other _ _ _ _ (by decide), fget_count_word, hcleared]
  have hshown : s.heldPrefix.cancelPrefix.bit F.TURN_STAT_CANCELLED = true := by
    rw [State.bit, cancelPrefix_fget]
    exact State.bit_fset_one _ F.TURN_STAT_CANCELLED (by decide) (by decide)
  have hring : s.boundaryFound.ring = s.heldPrefix.cancelPrefix.ring := by rw [heq, dueStepEnds_unit _ State.ring fun _ _ _ => rfl]
  have hstrands : s.boundaryFound.strands = s.heldPrefix.cancelPrefix.strands := by rw [heq, dueStepEnds_unit _ State.strands fun _ _ _ => rfl]
  refine ⟨?_, ?_, ?_, ?_, fun g hg => ?_⟩
  · rw [State.bit_congr _ (boundaryDone_reg s (by decide)), turnDecided_cancelled, heq, dueStepEnds_cancelled, hshown]
  · rw [boundaryDone_ring, turnDecided_bights, hring, cancelPrefix_bights, prefixCleared_bights]
  · rw [boundaryDone_core]
    show (s.boundaryFound.turnDecided s.core.boundary).core.asserts = []
    rw [(turnDecided_core _ _).1, heq, dueStepEnds_asserts, cancelPrefix_asserts]
  · have hreg : s.boundaryFound.reg R.TURN_CANCEL_CNT = s.heldPrefix.cancelPrefix.reg R.TURN_CANCEL_CNT := by
      rw [heq, dueStepEnds_reg _ (by decide)]
    rw [State.fget_congr _ (boundaryDone_reg s (by decide)),
      State.fget_congr _ (turnDecided_reg _ _ (by decide) (by decide) (by decide) (by decide) (by decide)), State.fget_congr _ hreg, hcounted]
  · have hstrand : s.boundaryDone.strand g = s.heldPrefix.cancelPrefix.strand g := by
      unfold State.strand
      rw [boundaryDone_strands, turnDecided_strands, hstrands]
    rw [hstrand, cancelPrefix_strand ((heldPrefix_strandOn s g).trans hg), heldPrefix_strand]

end

/-- A window that is left lies before or after the one that closes at the boundary. -/
theorem skipCore_windows (r : State) (b : Nat) : ∀ p, p ∈ (r.skipCore b).windows ↔
    p ∈ r.core.windows ∧ (p.1 < b * 2 ^ 18 ∨ (b + 1) * 2 ^ 18 ≤ p.1) := fun p => by
  show p ∈ SMap.drop _ _ _ ↔ _
  rw [SMap.drop, List.mem_filter, decide_eq_true_iff, not_and_or, Nat.not_le, Nat.not_lt]

/-! ### A turn starts (R79, R82) -/

section
variable {s : State} (h : s.alone)
include h

theorem boundaryDone_starts (hphase : s.core.phase ≠ .turn) (hhold : s.holdsAtBoundary.turnHold = false)
    (hsoon : s.tooSoon s.core.boundary = false) :
    s.boundaryDone.core.phase = .turn ∧ s.boundaryDone.core.readWin = s.core.boundary + 1 ∧
      s.boundaryDone.core.outComm.length = s.core.outComm.length ∧
      (∀ p, p ∈ s.boundaryDone.core.windows ↔ p ∈ s.windowsAtBoundary.core.windows ∧ s.core.boundary * 2 ^ 18 ≤ p.1) ∧
      s.boundaryDone.strands = s.strands ∧ s.boundaryDone.bit F.TURN_STAT_HALTED = false := by
  have hfound := boundaryFound_foundAs h (.inr hhold)
  obtain ⟨stepping, hcore⟩ := hfound.core
  have hstarts : s.boundaryFound.turnDecided s.core.boundary = s.boundaryFound.startTurn s.core.boundary :=
    turnDecided_starts (by rw [hcore]; exact hphase) (hfound.turnHold.trans hhold) ((hfound.tooSoon _).trans hsoon)
  rw [boundaryDone_core, boundaryDone_strands, State.bit_congr _ (boundaryDone_reg s (by decide)), turnDecided_strands, hstarts,
    startTurn_core, hfound.windowTaken h]
  refine ⟨rfl, rfl, ?_, fun p => ?_, hfound.strands, startTurn_runs _ _⟩
  · show s.boundaryFound.core.outComm.length = _
    rw [hcore]
    exact List.length_map _
  · show p ∈ s.boundaryFound.core.windows.filter (fun p => s.core.boundary * 2 ^ 18 ≤ p.1) ↔ _
    rw [hcore, List.mem_filter, decide_eq_true_iff]

/-! ### No turn starts (R79, R86) -/

/-- What a boundary shows at which no turn starts. -/
theorem boundaryDone_skips (hmeets : s.core.phase ≠ .early)
    (hskip : s.boundaryFound.turnDecided s.core.boundary = s.boundaryFound.skipTurn s.core.boundary) :
    s.boundaryDone.core.phase = s.core.phase ∧ s.boundaryDone.core.cur = s.core.cur ∧
      s.boundaryDone.core.missed = (if s.core.phase = .turn ∧ s.core.overran = false ∧ s.core.missed = none then some s.time.now else s.core.missed) ∧
      (s.core.phase ≠ .turn → s.bit F.TURN_HOLD_SRC_HALT = true → s.boundaryDone.bit F.TURN_STAT_HALTED = true) ∧
      s.boundaryDone.strands = s.strands ∧ s.boundaryDone.turnNum = s.turnNum ∧
      s.boundaryDone.fget F.TURN_SLIP_COUNT = min (2 ^ 32 - 1) (s.fget F.TURN_SLIP_COUNT + 1) ∧
      s.boundaryDone.fget F.TURN_IN_DROP_COUNT =
        min (2 ^ 32 - 1) (s.fget F.TURN_IN_DROP_COUNT + (s.windowsAtBoundary.windowOf s.core.boundary).length) ∧
      ∀ p, p ∈ s.boundaryDone.core.windows ↔ p ∈ s.windowsAtBoundary.core.windows ∧
        (p.1 < s.core.boundary * 2 ^ 18 ∨ (s.core.boundary + 1) * 2 ^ 18 ≤ p.1) := by
  have hfound := boundaryFound_foundAs h (.inl hmeets)
  obtain ⟨stepping, hcore⟩ := hfound.core
  have hreg : ∀ a, a ≠ R.HST_EVT → s.boundaryDone.reg a = (s.boundaryFound.skipTurn s.core.boundary).reg a := fun a ha => by
    rw [boundaryDone_reg s ha, hskip]
  have hwindow : s.boundaryFound.windowOf s.core.boundary = s.windowsAtBoundary.windowOf s.core.boundary := by
    unfold State.windowOf
    rw [hcore]
  have hskipCore : s.boundaryFound.skipCore s.core.boundary =
      { s.boundaryFound.core with
        windows := (s.boundaryFound.skipCore s.core.boundary).windows
        missed := if s.core.phase = .turn ∧ s.core.overran = false ∧ s.core.missed = none then some s.time.now else s.core.missed } := by
    unfold State.skipCore
    rw [hcore, hfound.time]
    simp only [Bool.not_eq_true', Option.isNone_iff_eq_none]
  have hwindows := skipCore_windows s.boundaryFound s.core.boundary
  rw [boundaryDone_core, boundaryDone_strands, turnDecided_strands, hskip, skipTurn_core, hskipCore]
  refine ⟨?_, ?_, rfl, fun hphase hhalt => ?_, hfound.strands, ?_, ?_, ?_, fun p => (hwindows p).trans ?_⟩
  · show s.boundaryFound.core.phase = _
    rw [hcore]
  · show s.boundaryFound.core.cur = _
    rw [hcore]
  · rw [State.bit_congr _ (hreg _ (by decide))]
    exact skipTurn_halted _ (by rw [hcore]; exact hphase) (hfound.halt.trans hhalt)
  · have hword : ∀ i, i < 2 → s.boundaryDone.reg (R.TURN_NUM + 4 * i) = s.reg (R.TURN_NUM + 4 * i) := fun i hi => by
      have : i = 0 ∨ i = 1 := by omega
      rcases this with rfl | rfl <;>
        exact (hreg _ (by decide)).trans ((skipTurn_reg _ _ (by decide) (by decide) (by decide)).trans (hfound.words _ (by decide)))
    exact State.wget_congr W.TURN_NUM_TURN hword
  · rw [State.fget_congr _ (hreg _ (by decide)), skipTurn_slip, hfound.fget (by decide)]
  · rw [State.fget_congr _ (hreg _ (by decide)), skipTurn_drop, hfound.fget (by decide), hwindow]
  · rw [hcore]

end

/-- The windows before and after the closing one are as they were. -/
theorem windowsAtBoundary_mem (s : State) {p : Nat × BinWord}
    (hp : p.1 < s.core.boundary * 2 ^ 18 ∨ (s.core.boundary + 1) * 2 ^ 18 ≤ p.1) :
    p ∈ s.core.windows → p ∈ s.windowsAtBoundary.core.windows := fun hmem => by
  unfold State.windowsAtBoundary
  split
  · refine List.mem_filter.mpr ⟨hmem, decide_eq_true (.inl ?_)⟩
    omega
  · exact hmem

/-- Settles O18: the decision about a turn, from the state in which the boundary finds the device. -/
theorem turnBoundary : Obligations.TurnBoundary := by
  unfold Obligations.TurnBoundary
  refine ⟨fun s h => exec_turnBoundary_idle h, fun s h => ?_, fun s h hstate hpaired hphase hhold hgrid _ => ?_,
    fun s h hstate hpaired hphase hhold hsoon => ?_, fun s h hstate hpaired hphase hbarred => ?_, fun s h hstate hpaired hphase => ?_⟩
  case refine_1 =>
    have hkept := boundaryDone_sameOn s
    refine ⟨_, exec_turnBoundary_runs h, ?_, ?_, boundaryDone_due s, boundaryDone_win s, (hkept .mem (by simp)).symm,
      (hkept .image (by simp)).symm, fun hb hT0 => boundaryDone_lock hb hT0⟩ <;> rw [boundaryDone_core]
  case refine_2 =>
    obtain ⟨hcancelled, hbights, hasserts, hcount, hstrands⟩ := boundaryDone_cancels ⟨hstate, hpaired⟩ hphase hhold hgrid
    refine ⟨_, exec_turnBoundary_runs h, hcancelled, hbights, hasserts, hcount, fun g hg => ?_⟩
    rw [hstrands g hg]
    exact ⟨rfl, rfl, rfl⟩
  case refine_3 =>
    obtain ⟨hturn, hread, hout, hwindows, hstrands, hruns⟩ := boundaryDone_starts ⟨hstate, hpaired⟩ hphase hhold hsoon
    have hkept := boundaryDone_sameOn s
    exact ⟨_, exec_turnBoundary_runs h, hturn, by rw [boundaryDone_core], by rw [boundaryDone_core], hread, boundaryDone_due s, hout,
      hwindows, hstrands, (hkept .instrs (by simp)).symm, (hkept .mem (by simp)).symm, hruns⟩
  case refine_4 =>
    have hslack : s.core.phase ≠ .turn ∧ s.core.phase ≠ .early := by rw [hphase]; exact ⟨nofun, nofun⟩
    have hfound := boundaryFound_foundAs (s := s) ⟨hstate, hpaired⟩ (.inl hslack.2)
    have hskip := turnDecided_skips (s := s.boundaryFound) (b := s.core.boundary) (.inr (hbarred.imp (fun hsoon => (hfound.tooSoon _).trans hsoon)
      fun ⟨hhalt, hstepping, hstill⟩ => hfound.barred hhalt hstepping hstill))
    obtain ⟨hph, -, -, hhalted, hstrands, hnum, hslip, -, hwindows⟩ := boundaryDone_skips ⟨hstate, hpaired⟩ hslack.2 hskip
    exact ⟨_, exec_turnBoundary_runs h, hph.trans hphase, by rw [boundaryDone_core], hhalted hslack.1, hstrands, hnum, hslip,
      fun p hp => ((hwindows p).mp hp).2⟩
  case refine_5 =>
    have hearly : s.core.phase ≠ .early := by rw [hphase]; nofun
    have hfound := boundaryFound_foundAs (s := s) ⟨hstate, hpaired⟩ (.inl hearly)
    have hgoes : s.boundaryFound.core.phase = .turn := by
      obtain ⟨stepping, hcore⟩ := hfound.core
      rw [hcore]
      exact hphase
    obtain ⟨hph, hcur, hmissed, -, hstrands, hnum, hslip, hdrop, hwindows⟩ :=
      boundaryDone_skips ⟨hstate, hpaired⟩ hearly (turnDecided_skips (b := s.core.boundary) (.inl hgoes))
    refine ⟨_, exec_turnBoundary_runs h, hph.trans hphase, hcur, by rw [boundaryDone_core], fun p hp => ((hwindows p).mp hp).2,
      fun p hp hout => (hwindows p).mpr ⟨windowsAtBoundary_mem s hout hp, hout⟩, hslip, hdrop, ?_, hstrands, hnum⟩
    rw [hmissed, hphase]
    simp only [true_and]

end Sys2Proof.Machine
end

section
/-! Two reads of a port that are one and the same value: the order of returns cannot tell them apart (R128). -/

namespace Sys2Proof.Machine

/-- A read of cord memory whose word has been read and that has not entered its register. -/
def readBack : PortOp :=
  { mode := 1, write := false, addr := 0, data := 0, be := 0xFF, strand := 0, step := 0, turn := 0, fire := 0, access := 2, ret := 6
    time := 0, accessed := true }

/-- Refutes O22: its clause on two reads, of which the second returns first, does not say that they differ. Where a port lists one read
twice, the first returns and equals the second, which then would have to enter before itself. -/
theorem not_ports : ¬ Obligations.Ports := by
  unfold Obligations.Ports
  rintro ⟨-, -, -, -, -, htwo, -⟩
  have hfirst : nextReturn {} [readBack, readBack] = some readBack := by decide
  exact Nat.lt_irrefl _ (htwo {} readBack readBack hfirst rfl (by decide) rfl)

end Sys2Proof.Machine
end

section
/-! Gating a power domain and powering it up (R117, R331, R342, R343). -/

namespace Sys2Proof.Machine

/-! ### Words of domains -/

theorem State.bit_PWR_DOM_EN_fset_SHUTTING (s : State) (n x : Nat) :
    (s.fset (F.PWR_DOM_SHUTTING n) x).bit (F.PWR_DOM_EN n) = s.bit (F.PWR_DOM_EN n) :=
  s.bit_fset_apart _ _ _ (by simp) (.inr (.inr (by simp)))

theorem State.bit_PWR_DOM_ON_fset_SHUTTING (s : State) (n x : Nat) :
    (s.fset (F.PWR_DOM_SHUTTING n) x).bit (F.PWR_DOM_ON n) = s.bit (F.PWR_DOM_ON n) :=
  s.bit_fset_apart _ _ _ (by simp) (.inr (.inr (by simp)))

theorem State.bit_PWR_DOM_EN_fset_ON (s : State) (n x : Nat) :
    (s.fset (F.PWR_DOM_ON n) x).bit (F.PWR_DOM_EN n) = s.bit (F.PWR_DOM_EN n) :=
  s.bit_fset_apart _ _ _ (by simp) (.inr (.inr (by simp)))

theorem State.bit_PWR_DOM_PENDING_fset_SHUTTING (s : State) (n x : Nat) :
    (s.fset (F.PWR_DOM_SHUTTING n) x).bit (F.PWR_DOM_PENDING_ENABLE n) = s.bit (F.PWR_DOM_PENDING_ENABLE n) :=
  s.bit_fset_apart _ _ _ (by simp) (.inr (.inl (by simp)))

theorem State.bit_PWR_DOM_SHUTTING_fset_PENDING (s : State) (n x : Nat) :
    (s.fset (F.PWR_DOM_PENDING_ENABLE n) x).bit (F.PWR_DOM_SHUTTING n) = s.bit (F.PWR_DOM_SHUTTING n) :=
  s.bit_fset_apart _ _ _ (by simp) (.inr (.inr (by simp)))

/-- A command of the host to a domain's register that reaches it is its effect, where that writes this word and the list of domains that
power up. -/
theorem hostCmd_domain {s : State} {n : Nat} (hn : n < 128) {mask v : W32} {f : State → State} (h : s.hostRuns (R.PWR_DOM n) = true)
    (hentry : (f s).power.entering = s.power.entering) (hexit : (f s).power.exiting = s.power.exiting)
    (hw : s.wordsBut (f s) [R.PWR_DOM n]) : s.hostCmd (R.PWR_DOM n) mask v f = f s :=
  have hother : ∀ a, a < R.PWR_DOM 0 ∨ R.PWR_DOM 128 ≤ a → (f s).reg a = s.reg a := fun a ha => hw a (by
    simp only [List.mem_singleton, R.PWR_DOM] at ha ⊢
    omega)
  hostCmd_runs h hentry hexit (hother _ (by decide)) (hother _ (by decide)) (hother _ (by decide))

/-! ### GATEABLE (R342) -/

theorem setIdle_iff (s : State) (k : Nat) : s.setIdle k = true ↔ ∀ j < 16, s.bit (F.LANE_CTL_EN (16 * k + j)) = false ∧
    (16 * k + j < 1024 → s.fget (F.CAP_STAT_STATE (16 * k + j)) = 0 ∧ s.bit (F.PAT_CTL_EN (16 * k + j)) = false ∧
      s.bit (F.PAT_STAT_SHUTTING (16 * k + j)) = false) := by
  simp only [State.setIdle, State.capState, capIdle, List.all_eq_true, List.mem_range, Bool.and_eq_true, Bool.or_eq_true, Bool.not_eq_true',
    beq_iff_eq, decide_eq_true_eq, and_assoc, ← Nat.not_lt, ← imp_iff_not_or]

theorem gateable_iff {s : State} {d : Nat} (hhere : s.domainHere d = true) (hinside : s.domainOutside d = false) :
    s.gateable d = true ↔ s.image.committed = true ∧ (
      (2 ≤ d ∧ d < 6 ∧ ∀ i < 32, s.cordOn (32 * (d - 2) + i) = false) ∨
      (12 ≤ d ∧ d < 20 ∧ ∀ i < 48, s.fget (F.BNK_GRN_USE (48 * (d - 12) + i)) = 0) ∨ (20 ≤ d ∧ s.setIdle (d - 20) = true)) := by
  simp only [State.gateable, hhere, hinside, Bool.and_true, Bool.false_or, Bool.and_eq_true, Bool.or_eq_true, Bool.not_eq_true',
    List.any_eq_false, List.all_eq_true, List.mem_range, decide_eq_true_eq, beq_iff_eq, and_assoc, or_assoc, Bool.not_eq_true]

/-! ### DOMAIN_GATE and DOMAIN_ENABLE -/

section
variable {s : State} {n : Nat}

theorem domainGate_absent (h : s.domainHere n = false) : s.domainGate n = s := if_pos (by simp [h])

theorem domainEnable_absent (h : s.domainHere n = false) : s.domainEnable n = s := if_pos (by simp [h])

theorem domainGate_withdraws (hhere : s.domainHere n = true) (hshut : s.bit (F.PWR_DOM_SHUTTING n) = true) :
    s.domainGate n = s.fset (F.PWR_DOM_PENDING_ENABLE n) 0 := by
  unfold State.domainGate
  simp [hhere, hshut]

theorem domainEnable_holds (hhere : s.domainHere n = true) (hshut : s.bit (F.PWR_DOM_SHUTTING n) = true) :
    s.domainEnable n = s.fset (F.PWR_DOM_PENDING_ENABLE n) 1 := by
  unfold State.domainEnable
  simp [hhere, hshut]

theorem domainGate_off (hhere : s.domainHere n = true) (hshut : s.bit (F.PWR_DOM_SHUTTING n) = false)
    (h : s.bit (F.PWR_DOM_EN n) = false ∨ s.gateable n = false) : s.domainGate n = s := by
  unfold State.domainGate
  rcases h with h | h <;> simp [hhere, hshut, h]

theorem domainEnable_on (hhere : s.domainHere n = true) (hshut : s.bit (F.PWR_DOM_SHUTTING n) = false)
    (hen : s.bit (F.PWR_DOM_EN n) = true) : s.domainEnable n = s := by
  unfold State.domainEnable
  simp [hhere, hshut, hen]

theorem domainEnable_starts (hhere : s.domainHere n = true) (hshut : s.bit (F.PWR_DOM_SHUTTING n) = false)
    (hen : s.bit (F.PWR_DOM_EN n) = false) : s.domainEnable n = s.domainUp n := by
  unfold State.domainEnable
  simp [hhere, hshut, hen]

/-- The word of a domain whose drain is under way. -/
def State.showsShutting (s : State) (n : Nat) : State := ((s.fset (F.PWR_DOM_EN n) 0).fset (F.PWR_DOM_ON n) 0).fset (F.PWR_DOM_SHUTTING n) 1

/-- Domain `n` powers up no more. -/
def State.powersNot (s : State) (n : Nat) : State :=
  { s with power := { s.power with powering := s.power.powering.filter (· != n) } }

theorem domainGate_shuts (hhere : s.domainHere n = true) (hshut : s.bit (F.PWR_DOM_SHUTTING n) = false)
    (hen : s.bit (F.PWR_DOM_EN n) = true) (hgate : s.gateable n = true) (hrun : s.fget F.PWR_STAT_STATE = 0) :
    s.domainGate n = (s.showsShutting n).powersNot n := by
  have hactive : (!s.bit (F.PWR_DOM_EN n) || !s.gateable n || decide (2 ≤ s.fget F.PWR_STAT_STATE)) = false := by
    simp [hen, hgate, hrun]
  have hpresent : (!s.domainHere n) = false := by simp [hhere]
  unfold State.domainGate State.showsShutting State.powersNot
  simp only [hactive, hpresent, hshut, Bool.false_eq_true, if_false]

end

/-- Writes of a domain's word, whatever becomes of the power record. -/
theorem wordsBut_fset {s t : State} {n : Nat} (f : Fld) (x : Nat) (hf : f.addr = R.PWR_DOM n) (h : s.wordsBut t [R.PWR_DOM n]) :
    s.wordsBut (t.fset f x) [R.PWR_DOM n] := fun a ha =>
  (t.reg_fset_ne f x (by rw [hf]; simpa using ha)).trans (h a ha)

theorem domainGate_shown (s : State) (n : Nat) : ((s.showsShutting n).powersNot n).bit (F.PWR_DOM_EN n) = false ∧
    ((s.showsShutting n).powersNot n).bit (F.PWR_DOM_ON n) = false ∧ ((s.showsShutting n).powersNot n).bit (F.PWR_DOM_SHUTTING n) = true ∧
    (∀ e, e ∈ ((s.showsShutting n).powersNot n).power.powering ↔ e ∈ s.power.powering ∧ e ≠ n) ∧
    ((s.showsShutting n).powersNot n).mem = s.mem ∧ s.wordsBut ((s.showsShutting n).powersNot n) [R.PWR_DOM n] := by
  have hen : (s.showsShutting n).bit (F.PWR_DOM_EN n) = false := by
    rw [State.showsShutting, State.bit_PWR_DOM_EN_fset_SHUTTING, State.bit_PWR_DOM_EN_fset_ON]
    exact State.bit_fset_zero _ _ (by simp) (by simp)
  have hon : (s.showsShutting n).bit (F.PWR_DOM_ON n) = false := by
    rw [State.showsShutting, State.bit_PWR_DOM_ON_fset_SHUTTING]
    exact State.bit_fset_zero _ _ (by simp) (by simp)
  have hpowering : ∀ e, e ∈ ((s.showsShutting n).powersNot n).power.powering ↔ e ∈ s.power.powering ∧ e ≠ n := fun e => by
    show e ∈ s.power.powering.filter (· != n) ↔ _
    simp
  have hshut : (s.showsShutting n).bit (F.PWR_DOM_SHUTTING n) = true := State.bit_fset_one _ _ (by simp) (by simp)
  have hwords : s.wordsBut (s.showsShutting n) [R.PWR_DOM n] :=
    wordsBut_fset _ _ rfl (wordsBut_fset _ _ rfl (wordsBut_fset _ _ rfl fun _ _ => rfl))
  exact ⟨hen, hon, hshut, hpowering, rfl, hwords⟩

/-- Starting to power up, the domain shows EN, and beside it nothing changes. -/
theorem domainUp_bit (s : State) (n : Nat) (f : Fld) (h : (F.PWR_DOM_EN n).apart f) : (s.domainUp n).bit f = s.bit f := by
  unfold State.domainUp
  rw [State.bit_fset_apart _ _ _ _ (by simp) h, State.bit_withPower]

theorem domainUp_starts (s : State) (n : Nat) : (s.domainUp n).bit (F.PWR_DOM_EN n) = true ∧
    (s.domainUp n).power = { s.power with powering := s.power.powering ++ [n] } ∧ s.wordsBut (s.domainUp n) [R.PWR_DOM n] ∧
    (s.domainUp n).bit (F.PWR_DOM_ON n) = s.bit (F.PWR_DOM_ON n) :=
  ⟨State.bit_fset_one _ _ (by simp) (by simp), rfl, wordsBut_fset _ _ rfl fun _ _ => rfl, domainUp_bit _ _ _ (.inr (.inl (by simp)))⟩

section
variable {d : BitVec 7} {s : State} (hruns : s.hostRuns (R.PWR_DOM d.toNat) = true)
include hruns

theorem exec_domainGate {t : State} (ht : s.domainGate d.toNat = t) (hentry : t.power.entering = s.power.entering)
    (hexit : t.power.exiting = s.power.exiting) (hw : s.wordsBut t [R.PWR_DOM d.toNat]) : exec (.domainGate d) s = .next t := by
  subst ht
  exact congrArg Host.Outcome.next (hostCmd_domain d.isLt hruns hentry hexit hw)

theorem exec_domainEnable {t : State} (ht : s.domainEnable d.toNat = t) (hentry : t.power.entering = s.power.entering)
    (hexit : t.power.exiting = s.power.exiting) (hw : s.wordsBut t [R.PWR_DOM d.toNat]) : exec (.domainEnable d) s = .next t := by
  subst ht
  exact congrArg Host.Outcome.next (hostCmd_domain d.isLt hruns hentry hexit hw)

/-- What changes nothing reaches the register all the same. -/
theorem exec_domainGate_idle (h : s.domainGate d.toNat = s) : exec (.domainGate d) s = .next s :=
  exec_domainGate hruns h rfl rfl fun _ _ => rfl

theorem exec_domainEnable_idle (h : s.domainEnable d.toNat = s) : exec (.domainEnable d) s = .next s :=
  exec_domainEnable hruns h rfl rfl fun _ _ => rfl

end

/-! ### The words that a gated domain keeps -/

theorem dropPorts_reg_low (s : State) (gone : Nat → Bool) {a : Nat} (h : a < 0x1000000) : (s.dropPorts gone).reg a = s.reg a := by
  refine State.each_keeps (fun t => t.reg a) fun t k _ => ?_
  have hne : a ≠ R.DMP_STAT (k / 4) (k % 4) := by simp only [R.DMP_STAT]; omega
  exact reg_ite rfl (by rw [State.reg_fset_ne _ _ _ hne, State.reg_fset_ne _ _ _ hne, State.reg_fset_ne _ _ _ hne])

theorem loseStrands_reg_low (s : State) (gone : Nat → Bool) {a : Nat} (h : a < 0x1000000) : (s.loseStrands gone).reg a = s.reg a := by
  have hports := dropPorts_reg_low s (fun c => gone (2 + c / 32)) h
  unfold State.loseStrands
  dsimp only
  generalize s.dropPorts _ = u at hports
  exact hports

theorem State.channelAtRest_reg_low (s : State) (n : Nat) {a : Nat} (h : a < 0x1000000) : (s.channelAtRest n).reg a = s.reg a := by
  have hset : ∀ (t : State) (f : Fld) (x : Nat), 0x1000000 ≤ f.addr → t.reg a = s.reg a → (t.fset f x).reg a = s.reg a :=
    fun t f x hf ht => (t.reg_fset_ne f x (by omega)).trans ht
  have hcap : 0x1000000 ≤ R.CAP_STAT n := by simp only [R.CAP_STAT]; omega
  have hctl : 0x1000000 ≤ R.PAT_CTL n := by simp only [R.PAT_CTL]; omega
  have hpat : 0x1000000 ≤ R.PAT_STAT n := by simp only [R.PAT_STAT]; omega
  have h1 : (if s.fget ⟨R.CAP_STAT n, 0, 4⟩ = 0 then s
      else (s.fset (F.CAP_STAT_STATE n) 0).fset (F.CAP_STAT_PENDING_ENABLE n) 0).reg a = s.reg a :=
    reg_ite rfl (hset _ _ _ hcap (hset _ _ _ hcap rfl))
  unfold State.channelAtRest
  dsimp only
  generalize (if s.fget ⟨R.CAP_STAT n, 0, 4⟩ = 0 then s else _) = u at h1
  have h2 : (if u.bit (F.PAT_CTL_EN n) = true then u.fset (F.PAT_CTL_EN n) 0 else u).reg a = s.reg a :=
    reg_ite (hset _ _ _ hctl h1) h1
  generalize (if u.bit (F.PAT_CTL_EN n) = true then u.fset (F.PAT_CTL_EN n) 0 else u) = v at h2
  exact reg_ite h2 (hset _ _ _ hpat (hset _ _ _ hpat (hset _ _ _ hpat (hset _ _ _ hpat h2))))

theorem channelsOff_reg_low (s : State) (which : Nat → Bool) {a : Nat} (h : a < 0x1000000) : (s.channelsOff which).reg a = s.reg a := by
  rw [channelsOff_eq]
  exact State.each_keeps (fun t => t.reg a) fun t n _ => t.channelAtRest_reg_low n h

theorem laneStatus_low (which : Nat → Bool) {a : Nat} (h : a < 0x1000000) : laneStatus which a = false := by
  have hlane : ¬ R.LANE_CFG 0 ≤ a := by simp only [R.LANE_CFG]; omega
  have hcap : ¬ R.CAP_CFG 0 ≤ a := by simp only [R.CAP_CFG]; omega
  have hpat : ¬ R.PAT_CFG 0 ≤ a := by simp only [R.PAT_CFG]; omega
  simp only [laneStatus, hlane, hcap, hpat, decide_false, Bool.false_and, Bool.or_false]

/-- What a lost lane's own words lose: status beside CAL_POLICY_CONFLICT, and the lock of the checker. -/
def State.laneAtRest (s : State) (n : Nat) : State :=
  let s1 := if s.reg (R.LANE_STAT n) &&& 0x80 = s.reg (R.LANE_STAT n) then s
    else s.setReg (R.LANE_STAT n) (s.reg (R.LANE_STAT n) &&& 0x80)
  if s1.bit (F.LANE_PRBS_CHK_LOCK n) then s1.fset (F.LANE_PRBS_CHK_LOCK n) 0 else s1

/-- The device without the records and the status words of the lanes that are lost. -/
def State.lanesGone (s : State) (which : Nat → Bool) : State :=
  { s with lanes := s.lanes.filter fun p => !which p.1, regs := s.regs.filter fun p => !laneStatus which p.1 }

theorem lanesLost_eq (s : State) (which : Nat → Bool) : s.lanesLost which =
    (s.lanesGone which).each ((List.range 1056).filter fun n => which n && s.laneHere n) State.laneAtRest := rfl

theorem State.laneAtRest_reg_low (s : State) (n : Nat) {a : Nat} (h : a < 0x1000000) : (s.laneAtRest n).reg a = s.reg a := by
  have hstat : a ≠ R.LANE_STAT n := by simp only [R.LANE_STAT]; omega
  have hprbs : a ≠ (F.LANE_PRBS_CHK_LOCK n).addr := by dsimp only; omega
  have h1 : (if s.reg (R.LANE_STAT n) &&& 0x80 = s.reg (R.LANE_STAT n) then s
      else s.setReg (R.LANE_STAT n) (s.reg (R.LANE_STAT n) &&& 0x80)).reg a = s.reg a := reg_ite rfl (s.reg_setReg_ne _ hstat)
  exact reg_ite ((State.reg_fset_ne _ _ _ hprbs).trans h1) h1

theorem lanesLost_reg_low (s : State) (which : Nat → Bool) {a : Nat} (h : a < 0x1000000) : (s.lanesLost which).reg a = s.reg a := by
  have hkept : (s.lanesGone which).reg a = s.reg a := by
    have hfilter := s.reg_filter (fun a => !laneStatus which a) a
    rw [laneStatus_low which h] at hfilter
    exact hfilter
  rw [lanesLost_eq]
  exact (State.each_keeps (fun t => t.reg a) fun t n _ => t.laneAtRest_reg_low n h).trans hkept

theorem loseUnits_reg_low (s : State) (d : Nat) {a : Nat} (h : a < 0x1000000) : (s.loseUnits d).reg a = s.reg a := by
  refine reg_ite rfl ((State.each_keeps (fun t => t.reg a) fun t u _ => ?_).trans rfl)
  have hne : a ≠ R.ACT_UNIT u := by simp only [R.ACT_UNIT]; omega
  exact reg_ite rfl (t.reg_setReg_ne _ hne)

/-! ### What a gated domain loses (R331) -/

/-- The domain alone. -/
def onlyDomain (d : Nat) : Nat → Bool := fun e => e == d

/-- The lanes and channels of the domain's lane set. -/
def lanesOf (d : Nat) : Nat → Bool := fun n => 20 + n / 16 == d

/-- The device after the domain has lost its contents, memory apart. -/
def State.contentsLost (s : State) (d : Nat) : State :=
  (((((((s.loseStrands (onlyDomain d)).loseEdge (onlyDomain d)).channelsOff (lanesOf d)).loseReports (onlyDomain d)).lanesListen
    (lanesOf d)).lanesLost (lanesOf d)).loseUnits d)

/-- The device whose drained domain has been gated. -/
def State.domainShut (s : State) (d : Nat) : State := ((s.loseMem (onlyDomain d)).contentsLost d).fset (F.PWR_DOM_SHUTTING d) 0

theorem domainGated_idle {s : State} {d : Nat} (h : s.bit (F.PWR_DOM_SHUTTING d) = false ∨ s.domainOwed d = true) :
    s.domainGated d = s := if_pos (by rcases h with h | h <;> simp [h])

section
variable {s : State} {d : Nat} (hshut : s.bit (F.PWR_DOM_SHUTTING d) = true) (howed : s.domainOwed d = false)
include hshut howed

/-- A drained domain is gated; an enable held meanwhile then starts it. -/
theorem domainGated_shut : s.domainGated d = if (s.domainShut d).bit (F.PWR_DOM_PENDING_ENABLE d)
    then ((s.domainShut d).fset (F.PWR_DOM_PENDING_ENABLE d) 0).domainUp d else s.domainShut d := if_neg (by simp [hshut, howed])

theorem domainGated_stays (h : (s.domainShut d).bit (F.PWR_DOM_PENDING_ENABLE d) = false) : s.domainGated d = s.domainShut d :=
  (domainGated_shut hshut howed).trans (if_neg (by simp [h]))

theorem domainGated_proceeds (h : (s.domainShut d).bit (F.PWR_DOM_PENDING_ENABLE d) = true) :
    s.domainGated d = ((s.domainShut d).fset (F.PWR_DOM_PENDING_ENABLE d) 0).domainUp d :=
  (domainGated_shut hshut howed).trans (if_pos h)

/-- A held enable changes the domain's word and the power record alone. -/
theorem domainGated_unit {α : Type} (f : State → α) (hf : ∀ t r p, f { t with regs := r, power := p } = f t) :
    f (s.domainGated d) = f (s.domainShut d) := by
  cases h : (s.domainShut d).bit (F.PWR_DOM_PENDING_ENABLE d) with
  | false => rw [domainGated_stays hshut howed h]
  | true =>
    rw [domainGated_proceeds hshut howed h]
    exact hf (s.domainShut d) _ _

end

theorem contentsLost_reg (s : State) (d : Nat) {a : Nat} (hlo : 0x1E000 ≤ a) (hhi : a < 0x40000) :
    (s.contentsLost d).reg a = s.reg a := by
  have hlow : a < 0x1000000 := by omega
  have hleave : ¬ leaveWord a := by
    simp only [leaveWord, R.HST_EVT, R.PIN_STAT]
    omega
  unfold State.contentsLost
  rw [loseUnits_reg_low _ _ hlow, lanesLost_reg_low _ _ hlow, lanesListen_reg hleave, loseReports_reg _ _ hlo,
    channelsOff_reg_low _ _ hlow, loseEdge_reg, loseStrands_reg_low _ _ hlow]

theorem contentsLost_sameOn (s : State) (d : Nat) : s.sameOn [.mem, .power] (s.contentsLost d) := by
  have cl : Closed (s.sameOn [.mem, .power]) 0x2A00018F78 := Closed.sameOn s _ (by decide)
  exact State.loseUnits_only (cl.mono (by decide)) (State.lanesLost_only (cl.mono (by decide)) (State.lanesListen_only (cl.mono (by decide))
    (State.loseReports_only (cl.mono (by decide)) (State.channelsOff_only (cl.mono (by decide)) (State.loseEdge_only (cl.mono (by decide))
      (State.loseStrands_only (cl.mono (by decide)) (s.sameOn_refl _) _) _) _) _) _) _) _

/-- The records of a lane set go: lanes, and the blocks of capture and pattern channels. -/
theorem lanesLost_lane (s : State) {which : Nat → Bool} {l : Nat} (h : which l = true) : (s.lanesLost which).lane l = {} := by
  have hlanes : (s.lanesLost which).lanes = s.lanes.filter fun p => !which p.1 := by
    rw [lanesLost_eq]
    refine (State.each_keeps State.lanes fun t n _ => ?_).trans rfl
    have cl : Closed (t.sameOn [.lanes]) 0x200000000 := Closed.sameOn t _ (by decide)
    have h1 := onlyIte (P := t.sameOn [.lanes]) (c := t.reg (R.LANE_STAT n) &&& 0x80 = t.reg (R.LANE_STAT n)) (t.sameOn_refl _)
      (State.setReg_only cl (t.sameOn_refl _) (R.LANE_STAT n) (t.reg (R.LANE_STAT n) &&& 0x80))
    unfold State.laneAtRest
    dsimp only
    generalize (if t.reg (R.LANE_STAT n) &&& 0x80 = t.reg (R.LANE_STAT n) then t else _) = u at h1
    exact (onlyIte (State.fset_only cl h1 (F.LANE_PRBS_CHK_LOCK n) 0) h1 .lanes (by simp)).symm
  have hfind := SMap.find_filter s.lanes (fun n => !which n) l
  rw [State.lane, SMap.get, hlanes, hfind, h]
  rfl

theorem channelsOff_channel (s : State) {which : Nat → Bool} {n : Nat} (h : which n = true) :
    SMap.find (s.channelsOff which).caps n = none ∧ SMap.find (s.channelsOff which).pats n = none := by
  have hcaps := SMap.find_filter s.caps (fun n => !which n) n
  have hpats := SMap.find_filter s.pats (fun n => !which n) n
  rw [h] at hcaps hpats
  rw [channelsOff_eq]
  exact ⟨(congrArg (SMap.find · n) (State.each_keeps State.caps fun t n _ => (t.channelAtRest_same n .caps (by simp)).symm)).trans hcaps,
    (congrArg (SMap.find · n) (State.each_keeps State.pats fun t n _ => (t.channelAtRest_same n .pats (by simp)).symm)).trans hpats⟩

theorem loseUnits_unit (s : State) {d u : Nat} (hu : u < 64) (h : 8 + u / 32 = d) : (s.loseUnits d).actUnit u = {} := by
  have hhalf : ¬ (d ≠ 8 ∧ d ≠ 9) := by omega
  have hunits : (s.loseUnits d).act.units = s.act.units.filter fun p => !(8 + p.1 / 32 == d) := by
    unfold State.loseUnits
    rw [if_neg hhalf]
    refine (State.each_keeps (fun t => t.act.units) fun t u _ => ?_).trans rfl
    split <;> rfl
  have hfind := SMap.find_filter s.act.units (fun u => !(8 + u / 32 == d)) u
  rw [State.actUnit, SMap.get, hunits, hfind]
  simp [h]

theorem contentsLost_unit (s : State) {d u : Nat} (hu : u < 64) (h : 8 + u / 32 = d) : (s.contentsLost d).actUnit u = {} :=
  loseUnits_unit _ hu h

theorem contentsLost_lane (s : State) {d l : Nat} (h : 20 + l / 16 = d) : (s.contentsLost d).lane l = {} ∧
    SMap.find (s.contentsLost d).caps l = none ∧ SMap.find (s.contentsLost d).pats l = none := by
  have hmine : lanesOf d l = true := by simp [lanesOf, h]
  unfold State.contentsLost
  generalize (s.loseStrands (onlyDomain d)).loseEdge (onlyDomain d) = u
  obtain ⟨hcaps, hpats⟩ := channelsOff_channel u hmine
  generalize u.channelsOff (lanesOf d) = v at hcaps hpats
  refine ⟨?_, ?_⟩
  · have hlane := lanesLost_lane ((v.loseReports (onlyDomain d)).lanesListen (lanesOf d)) hmine
    generalize ((v.loseReports (onlyDomain d)).lanesListen (lanesOf d)).lanesLost (lanesOf d) = w at hlane
    have hsame := State.loseUnits_only (Closed.sameOn w [.lanes] (by decide)) (w.sameOn_refl _) d .lanes (by simp)
    exact (congrArg (fun m => SMap.get (fun _ => ({} : Lane)) m l) hsame.symm).trans hlane
  · have cl : Closed (v.sameOn [.caps, .pats]) 0x2A00010900 := Closed.sameOn v _ (by decide)
    have hsame := State.loseUnits_only (cl.mono (by decide)) (State.lanesLost_only (cl.mono (by decide)) (State.lanesListen_only
      (cl.mono (by decide)) (State.loseReports_only (cl.mono (by decide)) (v.sameOn_refl _) (onlyDomain d)) (lanesOf d)) (lanesOf d)) d
    exact ⟨(congrArg (SMap.find · l) (hsame .caps (by simp)).symm).trans hcaps,
      (congrArg (SMap.find · l) (hsame .pats (by simp)).symm).trans hpats⟩

theorem rdByte_loseMem (s : State) (gone : Nat → Bool) (a : Nat) :
    (s.loseMem gone).rdByte a = if s.memGone gone a then 0 else s.rdByte a := by
  have hfind := SMap.find_filter s.mem (fun a => !s.memGone gone a) a
  unfold State.rdByte SMap.get State.loseMem
  rw [hfind]
  cases s.memGone gone a <;> rfl

/-- No scratch bank is lost with a domain other than the scratch domains 10 and 11. -/
theorem memGone_domain (s : State) {d a : Nat} (h10 : d ≠ 10) (h11 : d ≠ 11) (ha : a < 0x14000000 ∨ dramBase ≤ a) :
    s.memGone (onlyDomain d) a = true ↔
      (2 ^ 48 ≤ a ∧ d = 2 + (a - 2 ^ 48) / 2 ^ 18 / 32) ∨ (dramBase ≤ a ∧ a < 2 ^ 48 ∧ d = 12 + stackOf a) := by
  unfold State.memGone onlyDomain
  by_cases hcord : 2 ^ 48 ≤ a
  · rw [if_pos hcord, beq_iff_eq, eq_comm]
    exact ⟨fun h => .inl ⟨hcord, h⟩, fun h => h.elim (·.2) fun h => absurd hcord (Nat.not_le.mpr h.2.1)⟩
  · rw [if_neg hcord]
    by_cases hdram : dramBase ≤ a
    · rw [if_pos hdram, beq_iff_eq, eq_comm]
      exact ⟨fun h => .inr ⟨hdram, Nat.not_le.mp hcord, h⟩, fun h => h.elim (fun h => absurd h.1 hcord) (·.2.2)⟩
    · have hbank : (10 + bankOf a / 32 == d) = false := by
        have hlow := ha.resolve_right hdram
        simp only [beq_eq_false_iff_ne, bankOf]
        omega
      rw [if_neg hdram, hbank, Bool.false_and]
      exact ⟨nofun, fun h => h.elim (fun h => absurd h.1 hcord) fun h => absurd h.1 hdram⟩

/-- The device whose domain `d` is gated: what is lost, and what stays. -/
theorem domainShut_lost (s : State) (d : Nat) : (∀ u < 64, 8 + u / 32 = d → (s.domainShut d).actUnit u = {}) ∧
    (∀ l < 1056, 20 + l / 16 = d → (s.domainShut d).lane l = {} ∧ SMap.find (s.domainShut d).caps l = none ∧
      SMap.find (s.domainShut d).pats l = none) ∧
    (∀ a, (s.domainShut d).rdByte a = (s.loseMem (onlyDomain d)).rdByte a) ∧ (s.domainShut d).power = s.power := by
  have hsame := contentsLost_sameOn (s.loseMem (onlyDomain d)) d
  refine ⟨fun u hu h => contentsLost_unit _ hu h, fun l _ h => contentsLost_lane _ h, fun a => ?_, ?_⟩
  · exact congrArg (fun m => SMap.get memDefault m a) (hsame .mem (by simp)).symm
  · exact (hsame .power (by simp)).symm

theorem domainShut_shown (s : State) {d : Nat} (hd : d < 86) : (s.domainShut d).bit (F.PWR_DOM_SHUTTING d) = false ∧
    (s.domainShut d).bit (F.PWR_DOM_EN d) = s.bit (F.PWR_DOM_EN d) ∧
    (s.domainShut d).bit (F.PWR_DOM_PENDING_ENABLE d) = s.bit (F.PWR_DOM_PENDING_ENABLE d) := by
  have hword : ((s.loseMem (onlyDomain d)).contentsLost d).reg (R.PWR_DOM d) = s.reg (R.PWR_DOM d) :=
    contentsLost_reg _ _ (by simp only [R.PWR_DOM]; omega) (by simp only [R.PWR_DOM]; omega)
  refine ⟨State.bit_fset_zero _ _ (by simp) (by simp), ?_, ?_⟩
  · exact (State.bit_PWR_DOM_EN_fset_SHUTTING _ _ _).trans (State.bit_congr _ hword)
  · exact (State.bit_PWR_DOM_PENDING_fset_SHUTTING _ _ _).trans (State.bit_congr _ hword)

theorem domainGated_shown {s : State} {d : Nat} (hd : d < 86) (hshut : s.bit (F.PWR_DOM_SHUTTING d) = true) (howed : s.domainOwed d = false) :
    (s.domainGated d).bit (F.PWR_DOM_SHUTTING d) = false ∧ (s.domainGated d).bit (F.PWR_DOM_PENDING_ENABLE d) = false ∧
    (s.bit (F.PWR_DOM_PENDING_ENABLE d) = true →
      (s.domainGated d).bit (F.PWR_DOM_EN d) = true ∧ (s.domainGated d).power.powering = s.power.powering ++ [d]) ∧
    (s.bit (F.PWR_DOM_PENDING_ENABLE d) = false →
      (s.domainGated d).bit (F.PWR_DOM_EN d) = s.bit (F.PWR_DOM_EN d) ∧ (s.domainGated d).power = s.power) := by
  obtain ⟨hend, hen, hheld⟩ := domainShut_shown s hd
  obtain ⟨-, -, -, hpower⟩ := domainShut_lost s d
  cases hpend : s.bit (F.PWR_DOM_PENDING_ENABLE d) with
  | false =>
    rw [hpend] at hheld
    rw [domainGated_stays hshut howed hheld]
    exact ⟨hend, hheld, nofun, fun _ => ⟨hen, hpower⟩⟩
  | true =>
    rw [hpend] at hheld
    rw [domainGated_proceeds hshut howed hheld]
    generalize s.domainShut d = u at hend hpower
    obtain ⟨hup, hpowering, -, -⟩ := domainUp_starts (u.fset (F.PWR_DOM_PENDING_ENABLE d) 0) d
    refine ⟨?_, ?_, fun _ => ⟨hup, ?_⟩, nofun⟩
    · rw [domainUp_bit _ _ _ (.inr (.inl (by simp))), State.bit_PWR_DOM_SHUTTING_fset_PENDING, hend]
    · rw [domainUp_bit _ _ _ (.inr (.inl (by simp)))]
      exact State.bit_fset_zero _ _ (by simp) (by simp)
    · rw [hpowering, ← hpower]
      rfl

/-! ### DOMAIN_POWERED -/

theorem domainPowered_idle {s : State} {d : Nat} (h : d ∉ s.power.powering) : s.domainPowered d = s := if_neg (by simpa using h)

theorem domainPowered_up {s : State} {d : Nat} (h : d ∈ s.power.powering) : s.domainPowered d =
    { s with power := { s.power with powering := s.power.powering.filter (· != d) } }.fset (F.PWR_DOM_ON d) 1 := if_pos (by simpa using h)

/-! ### The statement -/

/-- Settles O52: the host's two commands write the domain's own word, and the end of a drain is the composition of the losses, none of which
reaches that word. -/
theorem powerDomains : Obligations.PowerDomains := by
  unfold Obligations.PowerDomains
  refine ⟨fun s d hhere hinside => ?_, fun d s hruns => ⟨fun habsent => ?_, fun hhere => ⟨fun hshut => ?_, fun hshut hidle => ?_,
    fun hshut hen hgate => ?_, fun hshut hen => ?_, fun hshut hen => ?_⟩⟩, fun d s => ⟨fun hidle => ?_, fun hshut howed hd => ?_,
    fun hup => ?_, fun hup => ?_⟩⟩
  · rw [gateable_iff hhere hinside, setIdle_iff]
  · exact ⟨exec_domainGate_idle hruns (domainGate_absent habsent), exec_domainEnable_idle hruns (domainEnable_absent habsent)⟩
  · have hw : ∀ x, s.wordsBut (s.fset (F.PWR_DOM_PENDING_ENABLE d.toNat) x) [R.PWR_DOM d.toNat] := fun x =>
      wordsBut_fset _ _ rfl fun _ _ => rfl
    exact ⟨exec_domainGate hruns (domainGate_withdraws hhere hshut) rfl rfl (hw 0),
      exec_domainEnable hruns (domainEnable_holds hhere hshut) rfl rfl (hw 1)⟩
  · exact exec_domainGate_idle hruns (domainGate_off hhere hshut hidle)
  · obtain ⟨-, hrun, -⟩ := hostRuns_parts hruns
    have hshuts := domainGate_shown s d.toNat
    exact ⟨_, exec_domainGate hruns (domainGate_shuts hhere hshut hen hgate hrun) rfl rfl hshuts.2.2.2.2.2, hshuts⟩
  · exact exec_domainEnable_idle hruns (domainEnable_on hhere hshut hen)
  · have hstarts := domainUp_starts s d.toNat
    exact ⟨_, exec_domainEnable hruns (domainEnable_starts hhere hshut hen) rfl rfl hstarts.2.2.1, hstarts⟩
  · exact congrArg Host.Outcome.next (domainGated_idle hidle)
  · obtain ⟨hend, hheld, hproceeds, hstays⟩ := domainGated_shown hd hshut howed
    obtain ⟨hunits, hlanes, hmem, -⟩ := domainShut_lost s d.toNat
    have hunit {α : Type} := domainGated_unit (α := α) hshut howed
    refine ⟨_, rfl, hend, hheld, hproceeds, hstays, fun u hu h => ?_, fun l hl h => ?_, fun h10 h11 a ha => ?_⟩
    · exact (hunit (·.actUnit u) fun _ _ _ => rfl).trans (hunits u hu h)
    · obtain ⟨hlane, hcap, hpat⟩ := hlanes l hl h
      exact ⟨(hunit (·.lane l) fun _ _ _ => rfl).trans hlane, (hunit (fun t => SMap.find t.caps l) fun _ _ _ => rfl).trans hcap,
        (hunit (fun t => SMap.find t.pats l) fun _ _ _ => rfl).trans hpat⟩
    · have hbyte := (hunit (·.rdByte a) fun _ _ _ => rfl).trans ((hmem a).trans (rdByte_loseMem s _ a))
      simp only [memGone_domain s h10 h11 ha] at hbyte
      exact hbyte
  · exact congrArg Host.Outcome.next (domainPowered_idle hup)
  · refine ⟨_, congrArg Host.Outcome.next (domainPowered_up hup), State.bit_fset_one _ _ (by simp) (by simp), ?_, fun e he => ?_, rfl⟩
    · simp
    · simp [he]

end Sys2Proof.Machine
end

section
/-! Streams and responses on the ring (R109, R113, R116, R117, R118, R120, R362). -/

namespace Sys2Proof.Machine

variable {s t : State} {p : Packet}

/-! ### Streams -/

theorem State.SeenAs.streamAsleep (h : s.SeenAs t) (p : Packet) : t.streamAsleep p = s.streamAsleep p := by
  have hlt : (if p.dstStn.toNat < 0x80 then 2 + p.dstStn.toNat / 32 else s.addrDomain p.addr.toNat) < 86 := by
    split
    · omega
    · exact addrDomain_lt s _
  simp only [State.streamAsleep, h.addrDomain, h.domainOn hlt]

/-- A stream of a listed master goes on its open way to its station. -/
theorem exec_stream_open (hr : s.inReset = false) (hm : masterOk p.src = true) (ho : s.wayOpen p = true) :
    exec (.stream p) s = .next (s.watch [16] fun s => (s.seeRequest 3 p).targetStream p) := by
  have hsend : s.streamRequest p = (s.seeRequest 3 p).targetStream p := send_open ho 3 _
  exact congrArg Host.Outcome.next ((if_neg (by simp [hr, hm])).trans (watch_congr _ hsend))

theorem targetStream_awake (h : s.streamAsleep p = false) : s.targetStream p = s := if_neg (by simp [h])

theorem targetStream_asleep (h : s.streamAsleep p = true) : s.targetStream p = s.droppedAsleep p := if_pos h

theorem seeRequest_parked (s : State) (op : Nat) (p : Packet) : (s.seeRequest op p).ring.parked = s.ring.parked :=
  have h := congrArg Ring.parked (seeRequest_ring s op p)
  h

theorem seeRequest_sameOn (s : State) (op : Nat) (p : Packet) : s.sameOn [.mem, .strands, .reports] (s.seeRequest op p) :=
  State.seeRequest_only (Closed.sameOn s _ (by decide)) (s.sameOn_refl _) op p

/-- A stream for a powered domain ends at its station. -/
theorem stream_awake (hr : s.inReset = false) (hm : masterOk p.src = true) (ho : s.wayOpen p = true) (ha : s.streamAsleep p = false) :
    exec (.stream p) s = .next (s.watch [16] fun s => s.seeRequest 3 p) :=
  (exec_stream_open hr hm ho).trans (congrArg Host.Outcome.next (watch_congr _
    (targetStream_awake (((seeRequest_seenAs s 3 p).streamAsleep p).trans ha))))

/-- One for a gated domain, where nothing observes, is dropped. -/
theorem stream_asleep (hr : s.inReset = false) (hm : masterOk p.src = true) (ho : s.wayOpen p = true) (hu : s.unobserved)
    (ha : s.streamAsleep p = true) : exec (.stream p) s = .next (s.watch [16] fun s => s.droppedAsleep p) :=
  (exec_stream_open hr hm ho).trans (congrArg Host.Outcome.next (watch_congr _ (by
    rw [seeRequest_unobserved hu]
    exact targetStream_asleep ha)))

/-! ### Responses -/

theorem seeResponse_sameOn (s : State) (src : Nat) (data : Bool) (p : Packet) (edges : Nat) :
    s.sameOn [.mem, .strands, .host] (s.seeResponse src data p edges) :=
  State.seeResponse_only (Closed.sameOn s _ (by decide)) (s.sameOn_refl _) src data p edges

theorem seeResponse_resps (s : State) (src : Nat) (data : Bool) (p : Packet) (edges : Nat) :
    (s.seeResponse src data p edges).ring.resps = s.ring.resps := by
  have htravel : (s.travel src (if data then 8 else 9) p).ring = s.ring :=
    (State.travel_only (Closed.sameOn s [.ring] (by decide)) (s.sameOn_refl _) _ _ _ .ring (by simp)).symm
  have htrace : ∀ (t : State) (r : TraceRec), (t.traceOffer r).ring = t.ring := fun t r =>
    (State.traceOffer_only (Closed.sameOn t [.ring] (by decide)) (t.sameOn_refl _) r .ring (by simp)).symm
  have hring : (s.seeResponse src data p edges).ring.unbinned = s.ring.unbinned := by
    unfold State.seeResponse
    dsimp only
    rw [monitor_ring, htrace, htravel]
  have h := congrArg Ring.resps hring
  exact h

/-- A response that nothing observes passes unseen. -/
theorem seeResponse_unobserved (h : s.unobserved) (src : Nat) (data : Bool) (p : Packet) (edges : Nat) :
    s.seeResponse src data p edges = s := by
  obtain ⟨hprobe, hmon, htrace⟩ := h
  unfold State.seeResponse
  dsimp only
  rw [travel_off hprobe, traceOffer_off htrace, monitor_off hmon]

/-- The host's part of the answer that a response brings (R362). -/
def Response.answers (r : Response) (h : HostPort) : HostPort :=
  { h with data := if r.p.status = 0 then payloadWord r.p (r.p.addr.toNat % 32 / 4) else 0, status := r.p.status.toNat }

theorem hostAnswer_host (s : State) (r : Response) : (s.hostAnswer r).host = r.answers s.host := by
  have hzero : (r.p.status.toNat = 0) = (r.p.status = 0) := by simp [BitVec.toNat_eq]
  have hbus : (if r.p.status.toNat = 0 then s else s.busError r.p.status.toNat r.p.addr.toNat (!r.data)).host = s.host := by
    split
    · rfl
    · exact (State.busError_only (Closed.sameOn s [.host] (by decide)) (s.sameOn_refl _) _ _ _ .host (by simp)).symm
  unfold State.hostAnswer Response.answers
  dsimp only
  rw [hbus]
  simp only [hzero]

theorem hostAnswer_okay {r : Response} (h : r.p.status = 0) : s.hostAnswer r =
    { s with host := { s.host with data := payloadWord r.p (r.p.addr.toNat % 32 / 4), status := 0 } } := by
  have hzero : r.p.status.toNat = 0 := by simp [h]
  unfold State.hostAnswer
  simp only [hzero, if_true]

theorem hostAnswer_sameOn (s : State) (r : Response) : s.sameOn [.mem, .strands, .ring] (s.hostAnswer r) :=
  State.hostAnswer_only (Closed.sameOn s _ (by decide)) (s.sameOn_refl _) r

/-- Where no request waits in the endpoint, none is tried. -/
theorem hostServe_empty (h : s.host.queue = []) : s.hostServe = s := if_pos (by simp [h])

/-- The response is off the ring, and seen on its way. -/
def State.arrived (s : State) (data : Bool) (edges : Nat) (r : Response) (rest : List Response) : State :=
  { s with ring := { s.ring with resps := rest } }.seeResponse r.stn data r.p edges

section
variable {data : Bool} {edges : Nat} {r : Response} {rest : List Response}

theorem response_absent (h : takeResponse data p s.ring.resps = none) : s.response data p edges = s := by
  unfold State.response
  rw [h]

theorem response_barred (h : takeResponse data p s.ring.resps = some (r, rest)) (ho : s.answerOpen r = false) :
    s.response data p edges = s := by
  unfold State.response
  rw [h]
  exact if_pos (by simpa [State.answerOpen] using ho)

theorem response_open (h : takeResponse data p s.ring.resps = some (r, rest)) (ho : s.answerOpen r = true) :
    s.response data p edges = if r.p.dstId = 0 then ((s.arrived data edges r rest).hostAnswer r).hostServe
      else s.arrived data edges r rest := by
  unfold State.response
  rw [h]
  exact if_neg (by simpa [State.answerOpen] using ho)

theorem arrived_keeps (s : State) (data : Bool) (edges : Nat) (r : Response) (rest : List Response) :
    (s.arrived data edges r rest).ring.resps = rest ∧ (s.arrived data edges r rest).mem = s.mem ∧
    (s.arrived data edges r rest).strands = s.strands ∧ (s.arrived data edges r rest).host = s.host := by
  have hsame := seeResponse_sameOn { s with ring := { s.ring with resps := rest } } r.stn data r.p edges
  exact ⟨seeResponse_resps _ _ _ _ _, (hsame .mem (by simp)).symm, (hsame .strands (by simp)).symm, (hsame .host (by simp)).symm⟩

theorem arrived_unobserved (h : s.unobserved) : s.arrived data edges r rest = { s with ring := { s.ring with resps := rest } } :=
  seeResponse_unobserved (s := { s with ring := { s.ring with resps := rest } }) h r.stn data r.p edges

variable (h : takeResponse data p s.ring.resps = some (r, rest)) (ho : s.answerOpen r = true)
include h ho

theorem response_inner (hd : r.p.dstId ≠ 0) : s.response data p edges = s.arrived data edges r rest :=
  (response_open h ho).trans (if_neg hd)

/-- A response to the host, where nothing waits in the endpoint, is its answer. -/
theorem response_host (hd : r.p.dstId = 0) (hq : s.host.queue = []) :
    s.response data p edges = (s.arrived data edges r rest).hostAnswer r := by
  obtain ⟨-, -, -, hhost⟩ := arrived_keeps s data edges r rest
  refine (response_open h ho).trans ((if_pos hd).trans (hostServe_empty ?_))
  rw [hostAnswer_host, hhost]
  exact hq

/-- What the delivery of a response leaves. -/
theorem response_answered (hq : r.p.dstId = 0 → s.host.queue = []) :
    (s.response data p edges).ring.resps = rest ∧ (s.response data p edges).mem = s.mem ∧
    (s.response data p edges).strands = s.strands ∧ (r.p.dstId ≠ 0 → (s.response data p edges).host = s.host) ∧
    (r.p.dstId = 0 → (s.response data p edges).host = r.answers s.host) := by
  obtain ⟨hresps, hmem, hstrands, hhost⟩ := arrived_keeps s data edges r rest
  by_cases hd : r.p.dstId = 0
  · have hsame := hostAnswer_sameOn (s.arrived data edges r rest) r
    rw [response_host h ho hd (hq hd)]
    refine ⟨?_, (hsame .mem (by simp)).symm.trans hmem, (hsame .strands (by simp)).symm.trans hstrands, fun hne => absurd hd hne, fun _ => ?_⟩
    · exact (congrArg Ring.resps (hsame .ring (by simp)).symm).trans hresps
    · rw [hostAnswer_host, hhost]
  · rw [response_inner h ho hd]
    exact ⟨hresps, hmem, hstrands, fun _ => hhost, fun he => absurd he hd⟩

/-- The same of the command: the poll block notes what rises in a register. -/
theorem watch_answered (hq : r.p.dstId = 0 → s.host.queue = []) :
    (s.watch allBits fun s => s.response data p edges).ring.resps = rest ∧
    (s.watch allBits fun s => s.response data p edges).mem = s.mem ∧
    (s.watch allBits fun s => s.response data p edges).strands = s.strands ∧
    (r.p.dstId ≠ 0 → (s.watch allBits fun s => s.response data p edges).host = s.host) ∧
    (r.p.dstId = 0 → (s.watch allBits fun s => s.response data p edges).host.status = r.p.status.toNat ∧
      (s.watch allBits fun s => s.response data p edges).host.data =
        (if r.p.status = 0 then payloadWord r.p (r.p.addr.toNat % 32 / 4) else 0)) := by
  rw [State.watch_unit _ _ _ State.ring fun _ _ => rfl, State.watch_unit _ _ _ State.mem fun _ _ => rfl,
    State.watch_unit _ _ _ State.strands fun _ _ => rfl, State.watch_unit _ _ _ State.host fun _ _ => rfl]
  obtain ⟨hresps, hmem, hstrands, hinner, hhost⟩ := response_answered (edges := edges) h ho hq
  exact ⟨hresps, hmem, hstrands, hinner, fun hd => by rw [hhost hd]; exact ⟨rfl, rfl⟩⟩

section
variable (hu : s.unobserved)
include hu

theorem watch_response_inner (hd : r.p.dstId ≠ 0) :
    (s.watch allBits fun s => s.response data p edges) = { s with ring := { s.ring with resps := rest } } := by
  have heq : s.response data p edges = { s with ring := { s.ring with resps := rest } } :=
    (response_inner h ho hd).trans (arrived_unobserved hu)
  exact (watch_congr (g := fun s => { s with ring := { s.ring with resps := rest } }) _ heq).trans (watch_sameRegs _ rfl rfl)

theorem watch_response_host (hd : r.p.dstId = 0) (hs : r.p.status = 0) (hq : s.host.queue = []) :
    (s.watch allBits fun s => s.response data p edges) = { s with
      ring := { s.ring with resps := rest }
      host := { s.host with data := payloadWord r.p (r.p.addr.toNat % 32 / 4), status := 0 } } := by
  have heq : s.response data p edges = { s with
      ring := { s.ring with resps := rest }
      host := { s.host with data := payloadWord r.p (r.p.addr.toNat % 32 / 4), status := 0 } } := by
    rw [response_host h ho hd hq, hostAnswer_okay hs, arrived_unobserved (data := data) (edges := edges) hu]
  exact (watch_congr (g := fun s => { s with
    ring := { s.ring with resps := rest }
    host := { s.host with data := payloadWord r.p (r.p.addr.toNat % 32 / 4), status := 0 } }) _ heq).trans (watch_sameRegs _ rfl rfl)

end

end

end Sys2Proof.Machine
end

section
/-! Probes, latency monitors, and the swap of slot tables (R106, R116, R118, R120, R121). -/

namespace Sys2Proof.Machine

variable {s : State}

/-! ### Words that no poll condition reads (R372) -/

/-- A word of the ring's probes, monitors and end stations, or of a cord's block. -/
def ringWord (a : Nat) : Prop := (0x90000 ≤ a ∧ a < 0x100000) ∨ (0x1000000 ≤ a ∧ a < 0x2000000)

/-- A write of a word of the rings or the cords raises no poll condition. -/
theorem pollBit_setReg_ring {x : Nat} {v : W32} (hx : ringWord x) {b : Nat} (h : s.pollBit b = false) :
    (s.setReg x v).pollBit b = false := by
  have hne : ∀ a, a < 0x90000 ∨ (0x100000 ≤ a ∧ a < 0x1000000) ∨ 0x2000000 ≤ a → a ≠ x := fun a ha he => by
    subst he
    unfold ringWord at hx
    omega
  have hget : ∀ f : Fld, f.addr < 0x90000 ∨ (0x100000 ≤ f.addr ∧ f.addr < 0x1000000) ∨ 0x2000000 ≤ f.addr →
      (s.setReg x v).fget f = s.fget f := fun f hf => State.fget_congr f (s.reg_setReg_ne v (hne _ hf))
  have hbit : ∀ f : Fld, f.addr < 0x90000 ∨ (0x100000 ≤ f.addr ∧ f.addr < 0x1000000) ∨ 0x2000000 ≤ f.addr →
      (s.setReg x v).bit f = s.bit f := fun f hf => State.bit_congr f (s.reg_setReg_ne v (hne _ hf))
  have hcap : s.anyCapDone = false → (s.setReg x v).anyCapDone = false := fun hs => by
    by_contra hd
    have hcaps : ∀ n, x ≠ R.CAP_STAT n := fun n => (hne _ (by simp only [R.CAP_STAT]; omega)).symm
    exact absurd (hs.symm.trans (State.anyCapDone_of_setReg hcaps (Bool.eq_true_of_not_eq_false hd))) (by decide)
  have hdma : ∀ e < 16, (s.setReg x v).bit (F.DMA_STAT_ERR e) = s.bit (F.DMA_STAT_ERR e) ∧
      (s.setReg x v).bit (F.DMA_STAT_TAIL_BAD e) = s.bit (F.DMA_STAT_TAIL_BAD e) := fun e he =>
    ⟨hbit _ (by simp only; omega), hbit _ (by simp only; omega)⟩
  have htxq : ∀ k < 64, (s.setReg x v).fget (F.TXQ_STAT_LEVEL k) = s.fget (F.TXQ_STAT_LEVEL k) ∧
      (s.setReg x v).bit (F.TXQ_STAT_OVF k) = s.bit (F.TXQ_STAT_OVF k) := fun k hk =>
    ⟨hget _ (by simp only; omega), hbit _ (by simp only; omega)⟩
  unfold State.pollBit at h ⊢
  split at h
  case h_7 => exact hcap h
  case h_8 =>
    simp only [List.any_eq_false, List.mem_range] at h ⊢
    exact fun e he => by rw [(hdma e he).1, (hdma e he).2]; exact h e he
  case h_9 =>
    simp only [List.any_eq_false, List.mem_range] at h ⊢
    exact fun k hk => by rw [(htxq k hk).1]; exact h k hk
  case h_10 =>
    simp only [List.any_eq_false, List.mem_range] at h ⊢
    exact fun k hk => by rw [(htxq k hk).2]; exact h k hk
  case h_21 => rfl
  all_goals
    simpa only [State.setReg_time, hbit F.FLT_FER_VALID (by decide), hbit F.FLT_STAT_SAFE (by decide), hbit F.FLT_STAT_GRACE_RUN (by decide),
      hget F.CFG_STAT_STATE (by decide), hget F.CFG_PART_STAT_STATE (by decide), hbit F.TURN_STAT_HALTED (by decide),
      hbit F.TURN_STAT_OVERRUN (by decide), hbit F.PWR_STAT_TRANSITION (by decide), hbit F.SPL_STAT_DIVERGED (by decide),
      hbit F.SPL_STAT_PARTNER_LOST (by decide), hbit F.SPL_STAT_PROMOTED (by decide), hbit F.TRG_STAT_FROZEN (by decide),
      hbit F.TRC_STAT_FULL (by decide), hbit F.TRC_STAT_OVF (by decide), hbit F.HST_BERR_VALID (by decide),
      hbit F.CFG_NVM_STAT_DONE (by decide), hbit F.ACT_HPOST_STAT_DONE (by decide)] using h

/-! ### Probes and monitors -/

theorem State.onlyWords_wset (s : State) {l : List Nat} (w : Wide) (x : Nat) (h : ∀ i < w.nw, w.addr + 4 * i ∈ l) :
    s.onlyWords (s.wset w x) l := State.onlyWords_setWords w.nw s w.addr _ h

/-- The words of a probe's counts. -/
def probeCounts (n : Nat) : List Nat := [R.NOC_PRB_CNT n, R.NOC_PRB_CNT n + 4, R.NOC_PRB_BYTES n, R.NOC_PRB_BYTES n + 4]

theorem clearProbe_onlyWords (s : State) (n : Nat) : s.onlyWords (s.clearProbe n) (probeCounts n) := by
  have hmem : ∀ a, (∀ i < 2, a + 4 * i ∈ probeCounts n) ↔ a ∈ probeCounts n ∧ a + 4 ∈ probeCounts n := fun a =>
    ⟨fun h => ⟨h 0 (by decide), h 1 (by decide)⟩, fun h i hi => by interval_cases i; exacts [h.1, h.2]⟩
  exact (s.onlyWords_wset (W.NOC_PRB_CNT_COUNT n) 0 ((hmem _).mpr (by simp [probeCounts]))).trans
    (State.onlyWords_wset _ (W.NOC_PRB_BYTES_COUNT n) 0 ((hmem _).mpr (by simp [probeCounts])))

theorem clearProbe_counts (s : State) (n : Nat) : (s.clearProbe n).wget (W.NOC_PRB_CNT_COUNT n) = 0 ∧
    (s.clearProbe n).wget (W.NOC_PRB_BYTES_COUNT n) = 0 := by
  refine ⟨?_, State.wget_wset _ _ _ (by simp)⟩
  rw [State.clearProbe, State.wget_wset_other _ _ _ _ (.inr (by simp only; omega))]
  exact State.wget_wset _ _ _ (by simp)

theorem exec_prbClr {n : BitVec 6} (h : s.hostRuns (R.NOC_PRB_CTL n.toNat) = true) :
    exec (.prbClr n) s = .next (s.clearProbe n.toNat) := by
  have hout : ∀ a, a < 0x91000 → a ∉ probeCounts n.toNat := fun a ha => by
    simp only [probeCounts, R.NOC_PRB_CNT, R.NOC_PRB_BYTES, List.mem_cons, List.not_mem_nil, or_false]
    omega
  exact congrArg Host.Outcome.next (hostCmd_onlyWords h (clearProbe_onlyWords s n.toNat) (hout _ (by decide)) (hout _ (by decide))
    (hout _ (by decide)))

/-- The monitor's histogram registers take the bins. -/
def State.showsBins (s : State) (n : Nat) (l : List Nat) : State :=
  s.each l fun s b => s.setReg (R.G32_HIST n b) (BitVec.ofNat 32 (s.latencyBin n b))

theorem showsBins_reg (s : State) (n : Nat) (l : List Nat) {a : Nat} (h : ∀ b ∈ l, a ≠ R.G32_HIST n b) :
    (s.showsBins n l).reg a = s.reg a := State.each_keeps (fun t => t.reg a) fun t b hb => t.reg_setReg_ne _ (h b hb)

theorem showsBins_hist (n : Nat) {l : List Nat} {b : Nat} (hb : b ∈ l) :
    ∀ s : State, (s.showsBins n l).reg (R.G32_HIST n b) = BitVec.ofNat 32 (s.latencyBin n b) := by
  induction l with
  | nil => exact absurd hb List.not_mem_nil
  | cons c l ih =>
    intro s
    by_cases hl : b ∈ l
    · exact ih hl (s.setReg (R.G32_HIST n c) (BitVec.ofNat 32 (s.latencyBin n c)))
    · obtain rfl := (List.mem_cons.mp hb).resolve_right hl
      refine (showsBins_reg (s.setReg (R.G32_HIST n b) (BitVec.ofNat 32 (s.latencyBin n b))) n l fun c hc he => hl ?_).trans
        (State.reg_setReg_self _ _ _)
      have : b = c := by
        simp only [R.G32_HIST] at he
        omega
      exact this ▸ hc

/-- The byte count `v` is answered and cleared, and the bins with it. -/
def State.clearsCount (s : State) (n : Nat) (v : W32) : State :=
  { s.setReg (R.G32_BW n) 0 with
    ring := { s.ring with bins := SMap.drop s.ring.bins (n * 16) (n * 16 + 16) }
    host := { s.host with data := v, status := 0 } }

/-- A read of a monitor's byte count: the histogram is shown, then the count and the bins are cleared. -/
theorem bwRead_eq (s : State) (n : Nat) : s.bwRead n = (s.showsBins n (List.range 16)).clearsCount n (s.reg (R.G32_BW n)) := by
  unfold State.bwRead State.clearsCount State.showsBins
  dsimp only

theorem clearsCount_reg (s : State) (n : Nat) (v : W32) (a : Nat) :
    (s.clearsCount n v).reg a = (s.setReg (R.G32_BW n) 0).reg a := rfl

theorem clearsCount_latencyBin (s : State) (n : Nat) (v : W32) {b : Nat} (hb : b < 16) : (s.clearsCount n v).latencyBin n b = 0 := by
  have hdrop := SMap.find_filter s.ring.bins (fun k => decide (¬(n * 16 ≤ k ∧ k < n * 16 + 16))) (n * 16 + b)
  have hin : decide (¬(n * 16 ≤ n * 16 + b ∧ n * 16 + b < n * 16 + 16)) = false := by simp [hb]
  rw [hin] at hdrop
  exact congrArg (·.getD 0) hdrop

theorem clearsCount_answers (s : State) (n : Nat) (v : W32) : (s.clearsCount n v).host.data = v ∧
    (s.clearsCount n v).host.status = 0 ∧ (s.clearsCount n v).reg (R.G32_BW n) = 0 :=
  ⟨rfl, rfl, (clearsCount_reg s n v _).trans (s.reg_setReg_self _ _)⟩

theorem bwRead_answers (s : State) (n : Nat) : (s.bwRead n).host.data = s.reg (R.G32_BW n) ∧ (s.bwRead n).host.status = 0 ∧
    (s.bwRead n).reg (R.G32_BW n) = 0 := by
  rw [bwRead_eq]
  exact clearsCount_answers _ _ _

theorem bwRead_hist (s : State) (n : Nat) {b : Nat} (hb : b < 16) :
    (s.bwRead n).reg (R.G32_HIST n b) = BitVec.ofNat 32 (s.latencyBin n b) ∧ (s.bwRead n).latencyBin n b = 0 := by
  rw [bwRead_eq]
  refine ⟨?_, clearsCount_latencyBin _ _ _ hb⟩
  rw [clearsCount_reg, State.reg_setReg_ne _ _ (by simp only [R.G32_HIST, R.G32_BW]; omega)]
  exact showsBins_hist n (List.mem_range.mpr hb) s

theorem bwRead_reg_low (s : State) (n : Nat) {a : Nat} (h : a < 0x92000) : (s.bwRead n).reg a = s.reg a := by
  rw [bwRead_eq, clearsCount_reg, State.reg_setReg_ne _ _ (by simp only [R.G32_BW]; omega)]
  exact showsBins_reg s n _ fun b _ => by simp only [R.G32_HIST]; omega

theorem bwRead_keeps (s : State) (n : Nat) : s.sameOn [.mem, .power] (s.bwRead n) :=
  State.bwRead_only (Closed.sameOn s _ (by decide)) (s.sameOn_refl _) n

theorem exec_g32BwRead {n : BitVec 3} (h : s.hostReads (R.G32_BW n.toNat) = true) :
    exec (.g32BwRead n) s = .next ((s.answer 0).bwRead n.toNat) := by
  have hpower : ((s.answer 0).bwRead n.toNat).power = s.power := (bwRead_keeps (s.answer 0) n.toNat .power (by simp)).symm
  have hreg : ∀ a, a < 0x92000 → ((s.answer 0).bwRead n.toNat).reg a = s.reg a := fun a ha => bwRead_reg_low _ _ ha
  exact congrArg Host.Outcome.next (hostGet_runs h hpower (hreg _ (by decide)) (hreg _ (by decide)) (hreg _ (by decide)))

/-! ### Stations -/

/-- The word of a station's status. -/
def stnWord (stn : Nat) : Nat := if stn < 0x80 then 0x1003000 + stn * 0x20000 else 0x98000 + (stn - 0x80) * 0x100

theorem stnActive_eq (stn : Nat) : stnActive stn = ⟨stnWord stn, 0, 1⟩ := by
  unfold stnActive stnWord
  split <;> rfl

theorem stnSwapPend_eq (stn : Nat) : stnSwapPend stn = ⟨stnWord stn, 1, 1⟩ := by
  unfold stnSwapPend stnWord
  split <;> rfl

theorem stnClosed_eq (stn : Nat) : stnClosed stn = ⟨stnWord stn, 2, 1⟩ := by
  unfold stnClosed stnWord
  split <;> rfl

theorem ringWord_stnWord {stn : Nat} (h : stn < 0xA0) : ringWord (stnWord stn) := by
  unfold ringWord stnWord
  split <;> omega

theorem execStationDrainEnd_eq (stn : StnId) (s : State) : exec (.stationDrainEnd stn) s = .next
    (if s.bit (stnClosed stn.toNat) && stn.toNat < 0xA0 && s.stnQuiet stn.toNat then s.fset (stnDraining stn.toNat) 0 else s) := rfl

/-- A station that no answer and no waiting request holds is quiet. -/
theorem stnQuiet_empty {stn : Nat} (hr : ∀ r ∈ s.ring.resps, r.stn ≠ stn) (hw : s.ring.waits = []) : s.stnQuiet stn = true := by
  have hresps : (s.ring.resps.any fun r => r.stn == stn && !s.wayBarred (s.colFirst r.stn r.p) r.stn r.p.dstStn.toNat) = false :=
    List.any_eq_false.mpr fun r h => by simp [hr r h]
  simp only [State.stnQuiet, hresps, hw, List.any_nil, Bool.or_false, Bool.not_false]

/-- One whose answer may leave is not. -/
theorem stnQuiet_answers {stn : Nat} {r : Response} (hr : r ∈ s.ring.resps) (hs : r.stn = stn) (ho : s.answerOpen r = true) :
    s.stnQuiet stn = false := by
  have hresps : (s.ring.resps.any fun r => r.stn == stn && !s.wayBarred (s.colFirst r.stn r.p) r.stn r.p.dstStn.toNat) = true :=
    List.any_eq_true.mpr ⟨r, hr, by simpa [State.answerOpen, hs] using ho⟩
  simp only [State.stnQuiet, hresps, Bool.true_or, Bool.not_true]

/-- The status word of a station whose copies have changed places. -/
def State.swapsTables (s : State) (stn : Nat) : State :=
  ((s.setBit (stnActive stn) (!s.bit (stnActive stn))).fset (stnSwapPend stn) 0).fset (stnClosed stn) 0

theorem swapTable_regs (s : State) (stn : Nat) : (s.swapTable stn).regs = (s.swapsTables stn).regs := rfl

theorem swapTable_bit (s : State) (stn : Nat) (f : Fld) : (s.swapTable stn).bit f = (s.swapsTables stn).bit f :=
  State.bit_congr f (State.reg_congr (swapTable_regs s stn) _)

theorem swapsTables_bits (s : State) (stn : Nat) : (s.swapsTables stn).bit (stnActive stn) = !s.bit (stnActive stn) ∧
    (s.swapsTables stn).bit (stnSwapPend stn) = false ∧ (s.swapsTables stn).bit (stnClosed stn) = false := by
  simp only [State.swapsTables, stnActive_eq, stnSwapPend_eq, stnClosed_eq]
  refine ⟨?_, ?_, State.bit_fset_zero _ _ (by simp) (by simp)⟩
  · rw [State.bit_fset_apart _ _ _ _ (by simp) (.inr (.inr (by simp))), State.bit_fset_apart _ _ _ _ (by simp) (.inr (.inr (by simp))),
      State.bit_setBit _ _ _ (by simp) (by simp)]
  · rw [State.bit_fset_apart _ _ _ _ (by simp) (.inr (.inr (by simp)))]
    exact State.bit_fset_zero _ _ (by simp) (by simp)

theorem swapTable_wordsBut (s : State) (stn : Nat) : s.wordsBut (s.swapTable stn) [(stnActive stn).addr] := fun a ha => by
  have hne : a ≠ stnWord stn := by simpa [stnActive_eq] using ha
  rw [State.reg_congr (swapTable_regs s stn)]
  simp only [State.swapsTables, State.setBit, stnActive_eq, stnSwapPend_eq, stnClosed_eq]
  rw [State.reg_fset_ne _ _ _ hne, State.reg_fset_ne _ _ _ hne, State.reg_fset_ne _ _ _ hne]

theorem swapTable_poll {stn : Nat} (hstn : stn < 0xA0) {b : Nat} (h : s.pollBit b = false) : (s.swapTable stn).pollBit b = false := by
  have hword := ringWord_stnWord hstn
  have hset : ∀ (t : State) (f : Fld) (x : Nat), f.addr = stnWord stn → t.pollBit b = false → (t.fset f x).pollBit b = false :=
    fun t f x hf ht => pollBit_setReg_ring (hf ▸ hword) ht
  refine (State.pollBit_congr (s := s.swapsTables stn) (swapTable_regs s stn) rfl b).trans ?_
  exact hset _ _ _ (by rw [stnClosed_eq]) (hset _ _ _ (by rw [stnSwapPend_eq]) (hset _ _ _ (by rw [stnActive_eq]) h))

theorem execTableSwap_ready {stn : StnId} (h : s.swapReady stn.toNat = true) :
    exec (.tableSwap stn) s = .next (s.watch allBits fun s => (s.swapTable stn.toNat).unpark.hostServe) :=
  congrArg Host.Outcome.next (if_pos h)

theorem execTableSwap_idle {stn : StnId} (h : s.swapReady stn.toNat = false) : exec (.tableSwap stn) s = .next s :=
  congrArg Host.Outcome.next (if_neg (by simp [h]))

/-- Where no request waits in front of a station, none goes on. -/
theorem unpark_empty (h : s.ring.parked = []) : s.unpark = s := by
  unfold State.unpark
  rw [h]
  show { s with ring := { s.ring with parked := [] } } = s
  rw [← h]

theorem swapTable_serves {stn : Nat} (hp : s.ring.parked = []) (hq : s.host.queue = []) :
    (s.swapTable stn).unpark.hostServe = s.swapTable stn := by
  have hunpark : (s.swapTable stn).unpark = s.swapTable stn := unpark_empty hp
  rw [hunpark]
  exact hostServe_empty hq

/-! ### The statement -/

/-- Settles O21: what passes is seen and leaves memory and strands; a response changes the list of responses and the endpoint; and the
swap writes one word, of which no poll condition hears. -/
theorem packetsSeen : Obligations.PacketsSeen := by
  unfold Obligations.PacketsSeen
  refine ⟨⟨fun p s hr hm ho ha => ⟨?_, fun hu => ?_⟩, fun p s hr hm ho hu ha => ?_, fun p edges s h => ?_, fun p edges s h => ?_,
    fun p edges s r rest ho => ⟨fun h => ?_, fun h => ?_⟩, fun p edges s r rest ho hq => ⟨fun h => ?_, fun h => ?_⟩,
    fun p edges s r rest hu hd ho => ⟨fun h => ?_, fun h => ?_⟩, fun p edges s r rest hu hd hs hq ho h => ?_⟩,
    fun n s h => ?_, fun n s h => ?_, fun stn s hstn hclosed hr hw => ?_, fun stn s h => ?_, fun stn s hstn hpend hdrained hslack => ?_,
    fun stn s h => ?_⟩
  case refine_1 =>
    have hsame := seeRequest_sameOn s 3 p
    refine ⟨_, stream_awake hr hm ho ha, ?_⟩
    rw [State.watch_unit _ _ _ State.mem fun _ _ => rfl, State.watch_unit _ _ _ State.strands fun _ _ => rfl,
      State.watch_unit _ _ _ State.reports fun _ _ => rfl, State.watch_unit _ _ _ State.ring fun _ _ => rfl]
    exact ⟨(hsame .mem (by simp)).symm, (hsame .strands (by simp)).symm, (hsame .reports (by simp)).symm, seeRequest_resps s 3 p,
      seeRequest_parked s 3 p⟩
  case refine_2 =>
    exact (stream_awake hr hm ho ha).trans (congrArg Host.Outcome.next (watch_unchanged _ (seeRequest_unobserved hu 3 p)))
  case refine_3 =>
    obtain ⟨hmem, hring⟩ := droppedAsleep_keeps s p
    obtain ⟨hcount, hreport⟩ := droppedAsleep_tells s p
    refine ⟨_, stream_asleep hr hm ho hu ha, ?_⟩
    rw [State.watch_unit _ _ _ State.mem fun _ _ => rfl, State.watch_unit _ _ _ State.ring fun _ _ => rfl,
      State.watch_unit _ _ _ State.reports fun _ _ => rfl,
      State.fget_congr F.NOC_ASLEEP_DROP_COUNT (State.watch_reg _ _ _ (by decide)), ← satAdd_one_word]
    exact ⟨hmem, hring, hcount, hreport⟩
  case refine_4 => exact congrArg Host.Outcome.next (watch_unchanged _ (response_absent h))
  case refine_5 => exact congrArg Host.Outcome.next (watch_unchanged _ (response_absent h))
  case refine_6 => exact congrArg Host.Outcome.next (watch_unchanged _ (response_barred h ho))
  case refine_7 => exact congrArg Host.Outcome.next (watch_unchanged _ (response_barred h ho))
  case refine_8 => exact ⟨_, rfl, watch_answered h ho hq⟩
  case refine_9 => exact ⟨_, rfl, watch_answered h ho hq⟩
  case refine_10 => exact congrArg Host.Outcome.next (watch_response_inner h ho hu hd)
  case refine_11 => exact congrArg Host.Outcome.next (watch_response_inner h ho hu hd)
  case refine_12 => exact congrArg Host.Outcome.next (watch_response_host h ho hu hd hs hq)
  case refine_13 =>
    obtain ⟨hcount, hbytes⟩ := clearProbe_counts s n.toNat
    exact ⟨_, exec_prbClr h, hcount, hbytes, rfl⟩
  case refine_14 =>
    obtain ⟨hdata, hstatus, hcleared⟩ := bwRead_answers (s.answer 0) n.toNat
    exact ⟨_, exec_g32BwRead h, hdata, hstatus, hcleared, fun b hb => bwRead_hist (s.answer 0) n.toNat hb,
      (bwRead_keeps (s.answer 0) n.toNat .mem (by simp)).symm⟩
  case refine_15 =>
    rw [execStationDrainEnd_eq, if_pos (by simp [hclosed, hstn, stnQuiet_empty hr hw])]
  case refine_16 =>
    have hidle : ¬ (s.bit (stnClosed stn.toNat) && stn.toNat < 0xA0 && s.stnQuiet stn.toNat) = true := by
      obtain h | h | ⟨r, hr, hs, ho⟩ := h
      · simp [Nat.not_lt.mpr h]
      · simp [h]
      · simp [stnQuiet_answers hr hs ho]
    rw [execStationDrainEnd_eq, if_neg hidle]
  case refine_17 =>
    have hready : s.swapReady stn.toNat = true := by simp [State.swapReady, hstn, hpend, hdrained, hslack]
    obtain ⟨hactive, hswap, hopen⟩ := swapsTables_bits s stn.toNat
    refine ⟨execTableSwap_ready hready, fun hp hq => ?_, (swapTable_bit _ _ _).trans hactive, (swapTable_bit _ _ _).trans hswap,
      (swapTable_bit _ _ _).trans hopen, rfl, swapTable_wordsBut s _⟩
    have hserves := swapTable_serves (stn := stn.toNat) hp hq
    refine (execTableSwap_ready hready).trans (congrArg Host.Outcome.next ((watch_congr (g := fun s => s.swapTable stn.toNat) _ hserves).trans
      (watch_quiet fun b _ hb => swapTable_poll hstn hb)))
  case refine_18 =>
    refine execTableSwap_idle ?_
    obtain h | h | h | h := h <;> simp [State.swapReady, h]

end Sys2Proof.Machine
end

section
/-! A pattern descriptor in two lines: its fetch takes a free value, how many lines one read takes (R109, R246). -/

namespace Sys2Proof.Machine

variable {s : State} {m : MasterId}

/-- Of lines that nothing observes, the first read takes one, or with more than one line left a free number of them. -/
theorem readLines_unseen (h : s.sees m = false) (n : Nat) (p : Nat × Nat) (l : List (Nat × Nat)) :
    s.readLines m (fun s => s) 0 (n + 1) (p :: l) =
      (if min 3 l.length = 0 then s else s.drawn).readLines m (fun s => s) 0 n
        (l.drop (if min 3 l.length = 0 then 0 else (s.freeBits 2).toNat % (min 3 l.length + 1))) := by
  have hunseen : (if min 3 l.length = 0 then s else s.drawn).sees m = false := by split <;> exact h
  rw [State.readLines, transact_unseen (by exact hunseen)]

/-- Two lines that nothing observes take one free value: whether the first read takes both. -/
theorem readLines_two_unseen (h : s.sees m = false) (p q : Nat × Nat) : s.readLines m (fun s => s) 0 2 [p, q] = s.drawn := by
  have hdrawn : s.drawn.sees m = false := h
  rw [readLines_unseen h]
  rcases Nat.mod_two_eq_zero_or_one (s.freeBits 2).toNat with hk | hk
  · simp [hk, readLines_unseen hdrawn, State.readLines]
  · simp [hk, State.readLines]

/-- The DRAM program is requested, and PAT_DESC_BASE lies 40 bytes into a pattern granule: descriptor 0 lies in two lines. Nothing
observes the rings. -/
def splitDescriptor : State := { State.reset with
  pats := [(0, { request := some (1, 0) })]
  regs := [(R.PAT_DESC_BASE 0, 40), (R.PAT_DESC_BASE 0 + 4, 0x100), (R.BNK_GRN 0, 2)] }

/-- The fetch of the descriptor reads its two lines. -/
theorem exec_splitDescriptor : exec (.patDescFetch 0) splitDescriptor =
    .next ((splitDescriptor.readLines 0x20 (fun s => s) 0 2 [(dramBase + 40, 24), (dramBase + 64, 8)]).setPat 0
      { request := some (1, 0), fetched := some (0, splitDescriptor.checkDesc 0 0) }) := by
  have hlines : linesOf (splitDescriptor.wget (W.PAT_DESC_BASE_BASE 0) + 32 * 0) 32 = [(dramBase + 40, 24), (dramBase + 64, 8)] := by
    decide
  have hallowed : (splitDescriptor.inDram (splitDescriptor.wget (W.PAT_DESC_BASE_BASE 0) + 32 * 0) &&
      splitDescriptor.dramAllows 0x20 (splitDescriptor.wget (W.PAT_DESC_BASE_BASE 0) + 32 * 0) false) = true := by decide
  rw [← hlines]
  exact congrArg (fun t : State => Host.Outcome.next (t.setPat 0 _)) (if_pos hallowed)

/-- Refutes O36: its clause on PAT_DESC_FETCH lets an allowed and unobserved read of the descriptor change the pattern channels alone,
where the read of a descriptor in two lines takes a free value. -/
theorem not_patternProgram : ¬ Obligations.PatternProgram := by
  unfold Obligations.PatternProgram
  rintro ⟨-, -, -, hfetch, -⟩
  obtain ⟨-, hwanted⟩ := hfetch 0 splitDescriptor
  obtain ⟨t, ht, -, -, -, hframe, -⟩ := hwanted 0 rfl
  have hsame : t.free = splitDescriptor.free := by rw [hframe (.inr ⟨by decide, by decide⟩)]
  have hdrawn : t.free = splitDescriptor.free + 1 := by
    rw [exec_splitDescriptor, readLines_two_unseen (by decide)] at ht
    cases ht
    rfl
  omega

end Sys2Proof.Machine
end

section
/-! Requests for the handover of a scratch bank (R134). -/

namespace Sys2Proof.Machine

variable {s t u v : State} {b : Nat} {m o : MasterId} {cords : Bool}

/-! ### What observes a request and its response -/

theorem seeResponse_reg (s : State) (src : Nat) (data : Bool) (p : Packet) (edges : Nat) {a : Nat} (h : ¬ observedWord a) :
    (s.seeResponse src data p edges).reg a = s.reg a := by
  unfold State.seeResponse
  dsimp only
  rw [monitor_reg _ _ _ _ h, traceOffer_reg _ _ h, travel_reg _ _ _ _ h]

theorem seeResponse_ring (s : State) (src : Nat) (data : Bool) (p : Packet) (edges : Nat) :
    (s.seeResponse src data p edges).ring.unbinned = s.ring.unbinned := by
  have htravel : (s.travel src (if data then 8 else 9) p).ring = s.ring :=
    (State.travel_only (Closed.sameOn s [.ring] (by decide)) (s.sameOn_refl _) _ _ _ .ring (by simp)).symm
  have htrace : ∀ (t : State) (r : TraceRec), (t.traceOffer r).ring = t.ring := fun t r =>
    (State.traceOffer_only (Closed.sameOn t [.ring] (by decide)) (t.sameOn_refl _) r .ring (by simp)).symm
  unfold State.seeResponse
  dsimp only
  rw [monitor_ring, htrace, htravel]

theorem seeResponse_seenAs (s : State) (src : Nat) (data : Bool) (p : Packet) (edges : Nat) :
    s.SeenAs (s.seeResponse src data p edges) where
  part := (State.seeResponse_only ((closed_identityOf s).mono rfl) ⟨rfl, rfl, rfl⟩ src data p edges).2.1
  words _ h := seeResponse_reg s src data p edges h
  owners := by
    have h := congrArg Ring.nextOwner (seeResponse_ring s src data p edges)
    exact h

theorem State.SeenAs.of_drawn (h : s.drawn.SeenAs t) : s.SeenAs t := ⟨h.part, h.words, h.owners⟩

/-- A request that is answered at once has its effect on the state as observation of the request leaves it, and observation of the
response leaves what the effect made (R118, R120, R345). -/
theorem transact_seenAs (s : State) (op : Nat) (p : Packet) (f : State → State) (ans : State → Nat × List W128) :
    ∃ u, s.SeenAs u ∧ u.mem = s.mem ∧ (f u).SeenAs (s.transact op p f ans) ∧ (s.transact op p f ans).mem = (f u).mem := by
  by_cases h : s.sees p.src = true
  · unfold State.transact
    rw [if_neg (by simp [h])]
    exact ⟨_, (seeRequest_seenAs _ _ _).of_drawn, seeRequest_mem _ _ _, (seeResponse_seenAs _ _ _ _ _).of_drawn.of_drawn.of_drawn,
      (seeResponse_sameOn _ _ _ _ _ .mem (by simp)).symm⟩
  · rw [transact_unseen (by simpa using h)]
    exact ⟨s, ⟨rfl, fun _ _ => rfl, rfl⟩, rfl, ⟨rfl, fun _ _ => rfl, rfl⟩, rfl⟩

/-! ### Requests -/

/-- The master may request a handover of the bank: the host, the boot sequencer, or an owner (R134). -/
def State.mayRequest (s : State) (b : Nat) (m : MasterId) : Bool :=
  m == 0 || m == 1 || isOwner m.toNat (s.fget (F.BNK_OWN_OWNER b)) (s.bit (F.BNK_OWN_CORDS b))

theorem mayRequest_iff : s.mayRequest b m = true ↔
    m = 0 ∨ m = 1 ∨ isOwner m.toNat (s.fget (F.BNK_OWN_OWNER b)) (s.bit (F.BNK_OWN_CORDS b)) = true := by
  simp only [State.mayRequest, Bool.or_eq_true, beq_iff_eq, or_assoc]

/-- From `s` to `t` a handover of the bank to a new owner has been requested: the current owner stays, and the memory. -/
def State.requests (s t : State) (b : Nat) (o : MasterId) (cords : Bool) : Prop :=
  t.fget (F.BNK_STAT_STATE b) = 1 ∧ SMap.find t.ring.nextOwner b = some (o, cords) ∧
    t.reg (R.BNK_OWN b) = s.reg (R.BNK_OWN b) ∧ t.mem = s.mem

/-- The bank's new owner is noted. -/
def State.names (s : State) (b : Nat) (o : MasterId) (cords : Bool) : State :=
  { s with ring := { s.ring with nextOwner := SMap.put s.ring.nextOwner b (o, cords) } }

theorem requestBank_pending (hmay : s.mayRequest b m = true) (hidle : s.fget (F.BNK_STAT_STATE b) = 0) (o : MasterId) (cords : Bool) :
    s.requestBank b m o cords = (s.names b o cords).fset (F.BNK_STAT_STATE b) 1 := by
  unfold State.mayRequest at hmay
  simp only [State.requestBank, hmay, hidle, BEq.rfl, Bool.and_self, if_true]
  rfl

theorem requestBank_refused (h : s.mayRequest b m = false ∨ s.fget (F.BNK_STAT_STATE b) ≠ 0) (o : MasterId) (cords : Bool) :
    s.requestBank b m o cords = (s.fset (F.BNK_STAT_REFUSED b) 1).fset (F.BNK_STAT_REF_ID b) m.toNat := by
  have hneg : (s.mayRequest b m && s.fget (F.BNK_STAT_STATE b) == 0) = false := by
    rcases h with h | h <;> simp [h]
  exact if_neg (by simpa [State.mayRequest] using hneg)

theorem requestBank_requests (hmay : s.mayRequest b m = true) (hidle : s.fget (F.BNK_STAT_STATE b) = 0) (o : MasterId)
    (cords : Bool) : s.requests (s.requestBank b m o cords) b o cords := by
  rw [requestBank_pending hmay hidle]
  exact ⟨State.fget_fset _ _ _ (by simp), SMap.find_put_self _ _ _, State.reg_fset_ne _ _ _ (by simp only [R.BNK_OWN]; omega), rfl⟩

/-- Observation before and after does not hide a request. -/
theorem State.requests.of_seen (hsu : s.SeenAs u) (hmem : u.mem = s.mem) (h : u.requests t b o cords) (htv : t.SeenAs v)
    (hmem' : v.mem = t.mem) : s.requests v b o cords := by
  obtain ⟨hstate, hnext, hown, hkept⟩ := h
  have hw : ∀ k, 0x3300000 ≤ k → ¬ observedWord k := fun k hk => by simp only [observedWord, R.HST_EVT]; omega
  have hown' : ¬ observedWord (R.BNK_OWN b) := hw _ (Nat.le_add_right _ _)
  exact ⟨(htv.fget (hw (F.BNK_STAT_STATE b).addr (by simp only; omega))).trans hstate, (congrArg (SMap.find · b) htv.owners).trans hnext,
    (htv.words _ hown').trans (hown.trans (hsu.words _ hown')), hmem'.trans (hkept.trans hmem)⟩

theorem State.SeenAs.mayRequest (h : s.SeenAs t) (b : Nat) (m : MasterId) : t.mayRequest b m = s.mayRequest b m := by
  have hown : ¬ observedWord (F.BNK_OWN_OWNER b).addr := by simp only [observedWord, R.HST_EVT]; omega
  simp only [State.mayRequest, h.fget (f := F.BNK_OWN_OWNER b) hown, h.bit (f := F.BNK_OWN_CORDS b) hown]

/-! ### The command -/

/-- What a write of BNK_OWN_n does at its register. -/
def State.bankWritten (s : State) (b : Nat) (m : MasterId) (v : W32) : State :=
  if s.bankHere b then s.requestBank b m (v.setWidth 8) (v.getLsbD 8) else s

theorem bankWritten_here (h : s.bankHere b = true) (m : MasterId) (v : W32) :
    s.bankWritten b m v = s.requestBank b m (v.setWidth 8) (v.getLsbD 8) := if_pos h

theorem exec_bnkOwnWrite_host (bank : BitVec 6) (v : W32) (s : State) : exec (.bnkOwnWrite bank 0 v) s =
    .next (s.hostCmd (R.BNK_OWN bank.toNat) 0xFFFFFFFF v fun s => s.bankWritten bank.toNat 0 v) := rfl

theorem exec_bnkOwnWrite_inner (h0 : m ≠ 0) (hr : s.inReset = false) (hm : masterOk m = true) (bank : BitVec 6) (v : W32) :
    exec (.bnkOwnWrite bank m v) s = .next (s.transact 1 (regPacket m (R.BNK_OWN bank.toNat) (some v))
      (fun s => s.bankWritten bank.toNat m v) fun _ => (0, [])) :=
  congrArg Host.Outcome.next ((if_neg h0).trans (if_neg (by simp [hr, hm])))

/-- The words that a host command may not write to be its own effect alone are not the bank's. -/
theorem bankStat_apart (b : Nat) :
    R.PWR_STAT ∉ [R.BNK_STAT b] ∧ R.HST_BERR ∉ [R.BNK_STAT b] ∧ R.TRC_STAT ∉ [R.BNK_STAT b] := by
  simp only [R.PWR_STAT, R.HST_BERR, R.TRC_STAT, R.BNK_STAT, List.mem_singleton]
  omega

/-- A write that reaches its register, by a master that may, of a bank with no handover pending (R134). -/
theorem bnkOwnWrite_requests {bank : BitVec 6} {v : W32}
    (hruns : (if m = 0 then s.hostRuns (R.BNK_OWN bank.toNat) else !s.inReset && masterOk m) = true)
    (hhere : s.bankHere bank.toNat = true) (hidle : s.fget (F.BNK_STAT_STATE bank.toNat) = 0)
    (hmay : s.mayRequest bank.toNat m = true) :
    ∃ t, exec (.bnkOwnWrite bank m v) s = .next t ∧ s.requests t bank.toNat (v.setWidth 8) (v.getLsbD 8) := by
  by_cases h0 : m = 0
  · subst h0
    have heff := requestBank_pending hmay hidle (v.setWidth 8) (v.getLsbD 8)
    obtain ⟨h1, h2, h3⟩ := bankStat_apart bank.toNat
    refine ⟨_, exec_bnkOwnWrite_host bank v s, ?_⟩
    rw [hostCmd_effect (by simpa using hruns) (l := [R.BNK_STAT bank.toNat]) ?_ ?_ h1 h2 h3, bankWritten_here hhere]
    · exact requestBank_requests hmay hidle _ _
    · rw [bankWritten_here hhere, heff]
      rfl
    · rw [bankWritten_here hhere, heff]
      exact fun a ha => State.reg_fset_ne _ _ _ (by simpa using ha)
  · rw [if_neg h0] at hruns
    obtain ⟨hr, hm⟩ : s.inReset = false ∧ masterOk m = true := by simpa using hruns
    obtain ⟨u, hsu, hmem, htv, hmem'⟩ := transact_seenAs s 1 (regPacket m (R.BNK_OWN bank.toNat) (some v))
      (fun s => s.bankWritten bank.toNat m v) fun _ => (0, [])
    have hw : ¬ observedWord (F.BNK_STAT_STATE bank.toNat).addr := by simp only [observedWord, R.HST_EVT]; omega
    rw [bankWritten_here ((hsu.bankHere _).trans hhere)] at htv hmem'
    exact ⟨_, exec_bnkOwnWrite_inner h0 hr hm bank v, State.requests.of_seen hsu hmem
      (requestBank_requests ((hsu.mayRequest _ _).trans hmay) ((hsu.fget hw).trans hidle) _ _) htv hmem'⟩

/-- From `s` to `t` a request for the bank has been refused, and who made it is shown. -/
def State.refusesBank (s t : State) (b : Nat) (m : MasterId) : Prop :=
  s.onlyWords t [R.BNK_STAT b] ∧ t.bit (F.BNK_STAT_REFUSED b) = true ∧ t.fget (F.BNK_STAT_REF_ID b) = m.toNat ∧
    t.fget (F.BNK_STAT_STATE b) = s.fget (F.BNK_STAT_STATE b)

theorem requestBank_refuses (h : s.mayRequest b m = false ∨ s.fget (F.BNK_STAT_STATE b) ≠ 0) (o : MasterId) (cords : Bool) :
    s.refusesBank (s.requestBank b m o cords) b m := by
  rw [requestBank_refused h]
  refine ⟨(State.onlyWords_fset _ _ (by simp)).trans (State.onlyWords_fset _ _ (by simp)), ?_, ?_, ?_⟩
  · rw [State.bit_fset_apart _ _ _ _ (by simp) (by simp [Fld.apart])]
    exact State.bit_fset_one _ _ (by simp) (by simp)
  · exact (State.fget_fset _ _ _ (by simp)).trans (Nat.mod_eq_of_lt m.isLt)
  · rw [State.fget_fset_apart _ _ _ _ (by simp) (by simp [Fld.apart]), State.fget_fset_apart _ _ _ _ (by simp) (by simp [Fld.apart])]

/-- A write that reaches its register, by any other master or during a handover, and that nothing observes (R134). -/
theorem bnkOwnWrite_refuses {bank : BitVec 6} {v : W32}
    (hruns : (if m = 0 then s.hostRuns (R.BNK_OWN bank.toNat) else !s.inReset && masterOk m && !s.sees m) = true)
    (hhere : s.bankHere bank.toNat = true)
    (h : s.mayRequest bank.toNat m = false ∨ s.fget (F.BNK_STAT_STATE bank.toNat) ≠ 0) :
    ∃ t, exec (.bnkOwnWrite bank m v) s = .next t ∧ s.refusesBank t bank.toNat m := by
  have heff : s.refusesBank (s.bankWritten bank.toNat m v) bank.toNat m := by
    rw [bankWritten_here hhere]
    exact requestBank_refuses h _ _
  refine ⟨s.bankWritten bank.toNat m v, ?_, heff⟩
  by_cases h0 : m = 0
  · subst h0
    obtain ⟨h1, h2, h3⟩ := bankStat_apart bank.toNat
    exact congrArg Host.Outcome.next (hostCmd_onlyWords (by simpa using hruns) heff.1 h1 h2 h3)
  · rw [if_neg h0] at hruns
    obtain ⟨⟨hr, hm⟩, hsees⟩ : (s.inReset = false ∧ masterOk m = true) ∧ s.sees m = false := by simpa using hruns
    rw [exec_bnkOwnWrite_inner h0 hr hm, transact_unseen (by exact hsees)]

end Sys2Proof.Machine
end

section
/-! The handover of a scratch bank, and the accesses that waited for it (R135, R136). -/

namespace Sys2Proof.Machine

variable {s t u : State} {b : Nat}

/-! ### What the service of a waiting access leaves -/

/-- `t` has the bank's owner and state as `s` has them, the owners to come, and the accesses that wait. -/
structure State.BankAs (s t : State) (b : Nat) : Prop where
  own : t.reg (R.BNK_OWN b) = s.reg (R.BNK_OWN b)
  state : t.fget (F.BNK_STAT_STATE b) = s.fget (F.BNK_STAT_STATE b)
  owners : t.ring.nextOwner = s.ring.nextOwner
  waits : t.ring.waits = s.ring.waits

theorem State.BankAs.refl (s : State) (b : Nat) : s.BankAs s b := ⟨rfl, rfl, rfl, rfl⟩

theorem State.BankAs.trans (h : s.BankAs t b) (h' : t.BankAs u b) : s.BankAs u b :=
  ⟨h'.own.trans h.own, h'.state.trans h.state, h'.owners.trans h.owners, h'.waits.trans h.waits⟩

/-- Two states with the same registers, owners to come and waiting accesses. -/
theorem State.BankAs.of_regs (hregs : t.regs = s.regs) (howners : t.ring.nextOwner = s.ring.nextOwner)
    (hwaits : t.ring.waits = s.ring.waits) : s.BankAs t b :=
  ⟨State.reg_congr hregs _, State.fget_congr _ (State.reg_congr hregs _), howners, hwaits⟩

theorem bankAs_fset {f : Fld} (s : State) (x : Nat) (hf : f.lo + f.w ≤ 32) (hown : f.addr ≠ R.BNK_OWN b)
    (hstate : f.apart (F.BNK_STAT_STATE b)) : s.BankAs (s.fset f x) b :=
  ⟨State.reg_fset_ne _ _ _ hown.symm, State.fget_fset_apart _ _ _ _ hf hstate, rfl, rfl⟩

/-- A source that reports is one of those that the spec lists (R310). -/
theorem src_lt_of_srcOn {src : Nat} (h : s.srcOn src = true) : src < 0x1000 := by
  by_contra hge
  have hnone : srcDomain src = none := by
    unfold srcDomain
    iterate 14 rw [if_neg (by omega)]
  simp [State.srcOn, State.srcPowered, hnone] at h

/-- A report is shown in the words of the listed sources. -/
theorem bankAs_raise (s : State) (r : Report) (b : Nat) : s.BankAs (s.raise r) b := by
  have hring := (raise_keeps s r).2
  have hreg : ∀ a, 0x30000 ≤ a → (s.raise r).reg a = s.reg a := fun a ha => by
    by_cases hon : s.srcOn r.src = true
    · have := src_lt_of_srcOn hon
      exact raise_reg s r (by simp only [R.FLT_SRC_STAT]; omega)
    · have hoff : s.raise r = s := if_pos (by simpa using hon)
      rw [hoff]
  exact ⟨hreg _ (by simp only [R.BNK_OWN]; omega), State.fget_congr _ (hreg _ (by simp only; omega)), by rw [hring], by rw [hring]⟩

theorem bankAs_nonOwnerAt (s : State) (m a acc strand step turn time b : Nat) :
    s.BankAs (s.nonOwnerAt m a acc strand step turn time) b := by
  have hcount : s.BankAs (s.count (F.BNK_STAT_NONOWN_CNT (bankOf a)) 1) b :=
    bankAs_fset s _ (by simp) (by show 0x3300004 + bankOf a * 0x10 ≠ 0x3300000 + b * 0x10; omega) (by simp [Fld.apart])
  unfold State.nonOwnerAt
  dsimp only
  split
  · exact hcount
  · exact hcount.trans (bankAs_raise _ _ b)

theorem bankAs_regionDenied (s : State) (m a acc : Nat) (hb : b < 64) : s.BankAs (s.regionDenied m a acc) b := by
  have hcount : s.BankAs (s.count F.BNK_DRAM_DENIED_COUNT 1) b :=
    bankAs_fset s _ (by decide) (by simp only [R.BNK_OWN]; omega) (.inl (by simp only; omega))
  unfold State.regionDenied
  dsimp only
  split
  · exact hcount
  · exact hcount.trans (bankAs_raise _ _ b)

theorem bankAs_memRefused (s : State) (m a acc : Nat) (hb : b < 64) : s.BankAs (s.memRefused m a acc) b := by
  unfold State.memRefused
  split_ifs
  · exact (bankAs_fset s _ (by decide) (by simp only [R.BNK_OWN]; omega) (.inl (by simp only; omega))).trans (bankAs_raise _ _ b)
  · exact bankAs_fset s _ (by decide) (by simp only [R.BNK_OWN]; omega) (.inl (by simp only; omega))
  · exact bankAs_regionDenied s m a acc hb
  · exact bankAs_nonOwnerAt s m a acc _ _ _ _ b

theorem bankAs_wrEnabled (s : State) (a : Nat) (bs : List (Bool × Byte)) (b : Nat) : s.BankAs (s.wrEnabled a bs) b :=
  .of_regs (by simp) (by simp) (by simp)

theorem bankAs_portWrite (s : State) (a t : Nat) (be : Byte) (w : W128) (b : Nat) : s.BankAs (s.portWrite a t be w) b := by
  unfold State.portWrite
  exact .of_regs (by simp) (by simp) (by simp)

theorem bankAs_updOp (s : State) (k : Nat) (o : PortOp) (f : PortOp → Option PortOp) (b : Nat) : s.BankAs (s.updOp k o f) b :=
  .of_regs rfl rfl rfl

theorem bankAs_accessDone (s : State) (k : Nat) (o : PortOp) (got : W128) (b : Nat) : s.BankAs (s.accessDone k o got) b :=
  bankAs_updOp s k o _ b

/-- An operation that reaches its memory tier. -/
theorem bankAs_performOp (s : State) (k : Nat) (o : PortOp) (hb : b < 64) : s.BankAs (s.performOp k o) b := by
  have hwrite : ∀ a, s.BankAs ((s.portWrite a o.access o.be o.data).accessDone k o 0) b := fun a =>
    (bankAs_portWrite s _ _ _ _ b).trans (bankAs_accessDone _ _ _ _ b)
  unfold State.performOp
  extract_lets c q acc a
  clear_value acc a
  split
  · split
    · exact hwrite _
    · exact bankAs_accessDone _ _ _ _ b
  split
  · split
    · exact .refl s b
    · exact (bankAs_nonOwnerAt s _ _ _ _ _ _ _ b).trans (bankAs_accessDone _ _ _ _ b)
    · split
      · exact hwrite _
      · exact bankAs_accessDone _ _ _ _ b
  split
  · split_ifs
    · exact (bankAs_memRefused s _ _ _ hb).trans (bankAs_accessDone _ _ _ _ b)
    · exact (bankAs_wrEnabled s _ _ b).trans (bankAs_accessDone _ _ _ _ b)
    · exact bankAs_accessDone _ _ _ _ b
  split
  · exact bankAs_accessDone _ _ _ _ b
  · refine .trans ?_ (bankAs_accessDone _ _ _ _ b)
    exact .of_regs rfl rfl rfl

theorem bankAs_respond (s : State) (p : Packet) (data : Bool) (status : Nat) (payload : List W128) (b : Nat) :
    s.BankAs (s.respond p data status payload) b := .of_regs rfl rfl rfl

theorem bankAs_serveWait (s : State) (w : BankWait) (hb : b < 64) : s.BankAs (s.serveWait w) b := by
  cases w with
  | packet p write posted =>
    cases write with
    | false => exact bankAs_respond s p _ _ _ b
    | true =>
      cases posted with
      | false => exact (bankAs_wrEnabled s _ _ b).trans (bankAs_respond _ p _ _ _ b)
      | true => exact bankAs_wrEnabled s _ _ b
  | port k o => exact (bankAs_updOp s k o _ b).trans (bankAs_performOp _ _ _ hb)

theorem serveWait_host (s : State) (w : BankWait) : (s.serveWait w).host = s.host :=
  (State.serveWait_only (Closed.sameOn s [.host] (by decide)) (s.sameOn_refl _) w .host (by simp)).symm

/-! ### The new owner takes the bank -/

/-- The bank's owner is the named one, or the cord group; no handover is pending and no owner is to come (R135). -/
def State.hasOwner (t : State) (b : Nat) (o : MasterId) (cords : Bool) : Prop :=
  t.fget (F.BNK_OWN_OWNER b) = (if cords then 0x80 else o.toNat) ∧ t.bit (F.BNK_OWN_CORDS b) = cords ∧
    t.fget (F.BNK_STAT_STATE b) = 0 ∧ SMap.find t.ring.nextOwner b = none

variable {o : MasterId} {cords : Bool}

theorem State.hasOwner.bankAs (h : s.hasOwner b o cords) (ht : s.BankAs t b) : t.hasOwner b o cords := by
  obtain ⟨howner, hcords, hstate, hnext⟩ := h
  exact ⟨(State.fget_congr (F.BNK_OWN_OWNER b) ht.own).trans howner, (State.bit_congr (F.BNK_OWN_CORDS b) ht.own).trans hcords,
    ht.state.trans hstate, by rw [ht.owners, hnext]⟩

/-- The owner to come is no longer noted. -/
def State.forgets (s : State) (b : Nat) : State := { s with ring := { s.ring with nextOwner := SMap.del s.ring.nextOwner b } }

theorem takeBank_named (h : SMap.find s.ring.nextOwner b = some (o, cords)) : s.takeBank b =
    (((s.forgets b).fset (F.BNK_OWN_OWNER b) (if cords then 0x80 else o.toNat)).setBit (F.BNK_OWN_CORDS b) cords).fset
      (F.BNK_STAT_STATE b) 0 := by
  unfold State.takeBank
  rw [h]
  rfl

theorem takeBank_owner (h : SMap.find s.ring.nextOwner b = some (o, cords)) : (s.takeBank b).hasOwner b o cords := by
  have hlt : (if cords then 0x80 else o.toNat) < 2 ^ 8 := by
    have := o.isLt
    split <;> omega
  have hstat : ∀ f : Fld, f.addr = R.BNK_OWN b → ∀ u : State, (u.fset (F.BNK_STAT_STATE b) 0).fget f = u.fget f := fun f hf u =>
    State.fget_congr f (State.reg_fset_ne _ _ _ (by rw [hf]; simp only [R.BNK_OWN]; omega))
  rw [takeBank_named h]
  refine ⟨?_, ?_, State.fget_fset _ _ _ (by simp), (SMap.find_del _ _ _).trans (if_pos rfl)⟩
  · rw [hstat _ rfl, State.setBit, State.fget_fset_apart _ _ _ _ (by simp) (by simp [Fld.apart]), State.fget_fset _ _ _ (by simp),
      Nat.mod_eq_of_lt hlt]
  · rw [State.bit, hstat (F.BNK_OWN_CORDS b) rfl, ← State.bit]
    exact State.bit_setBit _ _ _ (by simp) (by simp)

theorem takeBank_keeps (s : State) (b : Nat) : (s.takeBank b).mem = s.mem ∧ (s.takeBank b).host = s.host ∧
    (s.takeBank b).ring.waits = s.ring.waits ∧ (s.takeBank b).ring.resps = s.ring.resps := by
  unfold State.takeBank
  split <;> exact ⟨rfl, rfl, rfl, rfl⟩

/-! ### The command -/

/-- The accesses that wait in the bank. -/
def State.waitsIn (s : State) (b : Nat) : List (Nat × BankWait) := s.ring.waits.filter fun w => w.1 == b

/-- The bank's waiting accesses are off the list. -/
def State.clears (s : State) (b : Nat) : State := { s with ring := { s.ring with waits := s.ring.waits.filter fun w => w.1 != b } }

theorem handover_barred (h : s.fget (F.BNK_STAT_STATE b) = 0 ∨ s.oldOwnerBusy b = true) : s.handover b = s :=
  if_pos (by simpa using h)

theorem handover_ready (hpend : s.fget (F.BNK_STAT_STATE b) ≠ 0) (hbusy : s.oldOwnerBusy b = false) :
    s.handover b = ((s.takeBank b).clears b).each (s.waitsIn b) fun s w => s.serveWait w.2 :=
  if_neg (by simpa using ⟨hpend, hbusy⟩)

/-- The waiting accesses are served by the new owner, and none of the bank's waits any more. -/
theorem handover_owner (hb : b < 64) (hpend : s.fget (F.BNK_STAT_STATE b) ≠ 0) (hbusy : s.oldOwnerBusy b = false)
    (h : SMap.find s.ring.nextOwner b = some (o, cords)) :
    (s.handover b).hasOwner b o cords ∧ (∀ w ∈ (s.handover b).ring.waits, w.1 ≠ b) ∧ (s.handover b).host = s.host := by
  obtain ⟨-, hhost, -, -⟩ := takeBank_keeps s b
  have hserved : ((s.takeBank b).clears b).BankAs (s.handover b) b := by
    rw [handover_ready hpend hbusy]
    exact State.each_inv (P := fun t => ((s.takeBank b).clears b).BankAs t b) (.refl _ b) fun t w _ ht =>
      ht.trans (bankAs_serveWait t w.2 hb)
  have howner : ((s.takeBank b).clears b).hasOwner b o cords := takeBank_owner h
  refine ⟨howner.bankAs hserved, fun w hw => ?_, ?_⟩
  · rw [hserved.waits] at hw
    simpa using (List.mem_filter.mp hw).2
  · rw [handover_ready hpend hbusy]
    exact (State.each_keeps State.host fun t w _ => serveWait_host t w.2).trans hhost

/-- A handover of a bank in which no access waits leaves memory and responses. -/
theorem handover_unawaited (hpend : s.fget (F.BNK_STAT_STATE b) ≠ 0) (hbusy : s.oldOwnerBusy b = false)
    (hnone : ∀ w ∈ s.ring.waits, w.1 ≠ b) :
    (s.handover b).mem = s.mem ∧ (s.handover b).ring.resps = s.ring.resps := by
  obtain ⟨hmem, -, -, hresps⟩ := takeBank_keeps s b
  have hno : s.waitsIn b = [] := List.filter_eq_nil_iff.mpr fun w hw => by simpa using hnone w hw
  rw [handover_ready hpend hbusy, hno]
  exact ⟨hmem, hresps⟩

theorem exec_handoverComplete (bank : BitVec 6) (s : State) :
    exec (.handoverComplete bank) s = .next (s.watch allBits fun s => (s.handover bank.toNat).hostServe) := rfl

theorem handoverComplete_barred {bank : BitVec 6}
    (h : s.fget (F.BNK_STAT_STATE bank.toNat) = 0 ∨ s.oldOwnerBusy bank.toNat = true) :
    exec (.handoverComplete bank) s = .next (s.watch allBits State.hostServe) ∧
      (s.host.queue = [] → exec (.handoverComplete bank) s = .next s) := by
  have hserve : exec (.handoverComplete bank) s = .next (s.watch allBits State.hostServe) :=
    (exec_handoverComplete bank s).trans (congrArg Host.Outcome.next (watch_congr _ (by rw [handover_barred h])))
  exact ⟨hserve, fun hq => hserve.trans (congrArg Host.Outcome.next (watch_unchanged _ (hostServe_empty hq)))⟩

theorem handoverComplete_owner {bank : BitVec 6} (hpend : s.fget (F.BNK_STAT_STATE bank.toNat) ≠ 0)
    (hbusy : s.oldOwnerBusy bank.toNat = false) (hq : s.host.queue = [])
    (h : SMap.find s.ring.nextOwner bank.toNat = some (o, cords)) :
    ∃ t, exec (.handoverComplete bank) s = .next t ∧ t.hasOwner bank.toNat o cords ∧
      ((∀ w ∈ s.ring.waits, w.1 ≠ bank.toNat) → t.mem = s.mem ∧ t.ring.resps = s.ring.resps) ∧
      ∀ w ∈ t.ring.waits, w.1 ≠ bank.toNat := by
  obtain ⟨howner, hwaits, hhost⟩ := handover_owner bank.isLt hpend hbusy h
  have hserve : (s.handover bank.toNat).hostServe = s.handover bank.toNat := hostServe_empty (by rw [hhost, hq])
  refine ⟨s.watch allBits fun s => s.handover bank.toNat,
    (exec_handoverComplete bank s).trans (congrArg Host.Outcome.next (watch_congr _ hserve)), ?_, ?_, ?_⟩
  · refine howner.bankAs ⟨State.watch_reg _ _ _ ?_, State.watch_fget _ _ _ _ ?_, ?_, ?_⟩
    · simp only [R.BNK_OWN, R.HST_EVT]; omega
    · simp only [R.HST_EVT]; omega
    · exact State.watch_unit _ _ _ (fun t => t.ring.nextOwner) fun _ _ => rfl
    · exact State.watch_unit _ _ _ (fun t => t.ring.waits) fun _ _ => rfl
  · rw [State.watch_unit _ _ _ State.mem fun _ _ => rfl, State.watch_unit _ _ _ State.ring fun _ _ => rfl]
    exact handover_unawaited hpend hbusy
  · rw [State.watch_unit _ _ _ State.ring fun _ _ => rfl]
    exact hwaits

/-! ### Answers -/

theorem bankAnswer_owned {master : Nat} (h : s.fget (F.BNK_STAT_STATE b) = 0) : s.bankAnswer b master =
    if isOwner master (s.fget (F.BNK_OWN_OWNER b)) (s.bit (F.BNK_OWN_CORDS b)) then .granted else .refused := if_pos h

theorem bankAnswer_pending {master : Nat} (h : s.fget (F.BNK_STAT_STATE b) ≠ 0)
    (ho : SMap.find s.ring.nextOwner b = some (o, cords)) :
    s.bankAnswer b master = if isOwner master o.toNat cords then .waits else .refused := by
  unfold State.bankAnswer
  rw [if_neg h, ho]

/-- Settles O23: a request by its master and the bank's state, a handover by the service of what waits, which leaves the bank's words. -/
theorem bankOwnership : Obligations.BankOwnership := by
  unfold Obligations.BankOwnership
  refine ⟨fun bank m v s hruns hhere hidle hmay => ?_, fun bank m v s hruns hhere h => ?_,
    fun bank s h => handoverComplete_barred h, fun bank s o cords hpend hbusy hq h => ?_,
    fun s b m => ⟨bankAnswer_owned, fun o cords h ho => bankAnswer_pending h ho⟩⟩
  · exact bnkOwnWrite_requests hruns hhere hidle (mayRequest_iff.mpr hmay)
  · refine bnkOwnWrite_refuses hruns hhere (h.symm.imp_left fun ⟨hhost, hboot, hother⟩ => Bool.eq_false_iff.mpr fun hmay => ?_)
    rcases mayRequest_iff.mp hmay with h0 | h1 | ho
    · exact hhost h0
    · exact hboot h1
    · exact Bool.false_ne_true (hother.symm.trans ho)
  · obtain ⟨t, ht, ⟨howner, hcords, hstate, hnext⟩, hkept, hwaits⟩ := handoverComplete_owner hpend hbusy hq h
    exact ⟨t, ht, howner, hcords, hstate, hnext, hkept, hwaits⟩

end Sys2Proof.Machine
end

section
/-! The DMA engines' registers: TAIL, enable and disable (R343, R368, R371). -/

namespace Sys2Proof.Machine

variable {s : State} {k : Nat}

/-- The words that a host command may not write to be its own effect alone are not the engines'. -/
theorem dmaWords_apart {l : List Nat} (h : ∀ a ∈ l, a = R.HST_EVT ∨ (0x1000 ≤ a ∧ a < 0x1400)) :
    R.PWR_STAT ∉ l ∧ R.HST_BERR ∉ l ∧ R.TRC_STAT ∉ l :=
  ⟨fun hm => absurd (h _ hm) (by decide), fun hm => absurd (h _ hm) (by decide), fun hm => absurd (h _ hm) (by decide)⟩

/-! ### DMA_TAIL -/

theorem dmaTail_index {v : W32} (h : v.toNat % 2 ^ 16 < 2 ^ s.fget (F.DMA_CTL_K k)) :
    s.dmaTail k v = s.fset (F.DMA_TAIL_INDEX k) (v.toNat % 2 ^ 16) := by
  have hfield : field v.toNat 0 16 = v.toNat % 2 ^ 16 := by simp [field]
  exact (if_neg (by rw [hfield]; omega)).trans (by rw [hfield])

theorem dmaTail_bad {v : W32} (h : 2 ^ s.fget (F.DMA_CTL_K k) ≤ v.toNat % 2 ^ 16) :
    s.dmaTail k v = s.fset (F.DMA_STAT_TAIL_BAD k) 1 := by
  have hfield : field v.toNat 0 16 = v.toNat % 2 ^ 16 := by simp [field]
  exact if_pos (by rwa [hfield])

/-- The poll block's condition of the engines reads their DMA_STAT words alone. -/
theorem pollBit_dmaTail (s : State) (k x : Nat) : (s.fset (F.DMA_TAIL_INDEX k) x).pollBit 7 = s.pollBit 7 := by
  have hbit : ∀ (e : Nat) (f : Fld), f.addr = R.DMA_STAT e → (s.fset (F.DMA_TAIL_INDEX k) x).bit f = s.bit f := fun e f hf =>
    State.bit_congr f (State.reg_fset_ne _ _ _ (by rw [hf]; simp only [R.DMA_STAT]; omega))
  simp only [State.pollBit, hbit _ (F.DMA_STAT_ERR _) rfl, hbit _ (F.DMA_STAT_TAIL_BAD _) rfl]

theorem exec_dmaTail {e : BitVec 4} (v : W32) (h : s.hostRuns (R.DMA_TAIL e.toNat) = true) :
    exec (.dmaTail e v) s = .next (s.watch [7] fun s => s.dmaTail e.toNat v) := by
  have hw : s.wordsBut (s.watch [7] fun s => s.dmaTail e.toNat v) [R.DMA_TAIL e.toNat, R.DMA_STAT e.toNat, R.HST_EVT] := fun a ha => by
    simp only [List.mem_cons, List.not_mem_nil, or_false, not_or] at ha
    obtain ⟨htail, hstat, hevt⟩ := ha
    rw [State.watch_reg _ _ _ hevt]
    unfold State.dmaTail
    dsimp only
    split
    · exact State.reg_fset_ne _ _ _ hstat
    · exact State.reg_fset_ne _ _ _ htail
  have hpower : (s.watch [7] fun s => s.dmaTail e.toNat v).power = s.power := by
    refine (State.watch_unit _ _ _ State.power fun _ _ => rfl).trans ?_
    unfold State.dmaTail
    dsimp only
    split <;> rfl
  have := e.isLt
  obtain ⟨h1, h2, h3⟩ := dmaWords_apart (l := [R.DMA_TAIL e.toNat, R.DMA_STAT e.toNat, R.HST_EVT]) (by
    simp [R.DMA_TAIL, R.DMA_STAT, R.HST_EVT]
    omega)
  exact congrArg Host.Outcome.next (hostCmd_effect h hpower hw h1 h2 h3)

/-- A write of DMA_TAIL with an index of the ring. -/
theorem dmaTail_takes {e : BitVec 4} {v : W32} (h : s.hostRuns (R.DMA_TAIL e.toNat) = true)
    (hi : v.toNat % 2 ^ 16 < 2 ^ s.fget (F.DMA_CTL_K e.toNat)) :
    ∃ t, exec (.dmaTail e v) s = .next t ∧ t.fget (F.DMA_TAIL_INDEX e.toNat) = v.toNat % 2 ^ 16 ∧ s.onlyWords t [R.DMA_TAIL e.toNat] := by
  have hquiet : (s.watch [7] fun s => s.dmaTail e.toNat v) = s.fset (F.DMA_TAIL_INDEX e.toNat) (v.toNat % 2 ^ 16) := by
    rw [watch_congr (g := fun s => s.fset (F.DMA_TAIL_INDEX e.toNat) (v.toNat % 2 ^ 16)) _ (dmaTail_index hi)]
    refine watch_quiet fun b hb hoff => ?_
    rw [List.mem_singleton.mp hb] at hoff ⊢
    exact (pollBit_dmaTail s _ _).trans hoff
  refine ⟨_, (exec_dmaTail v h).trans (congrArg _ hquiet), ?_, State.onlyWords_fset _ _ (by simp)⟩
  exact (State.fget_fset _ _ _ (by simp)).trans (Nat.mod_mod _ _)

/-- A write of DMA_TAIL with an index beyond the ring. -/
theorem dmaTail_refuses {e : BitVec 4} {v : W32} (h : s.hostRuns (R.DMA_TAIL e.toNat) = true)
    (hi : 2 ^ s.fget (F.DMA_CTL_K e.toNat) ≤ v.toNat % 2 ^ 16) :
    ∃ t, exec (.dmaTail e v) s = .next t ∧ t.bit (F.DMA_STAT_TAIL_BAD e.toNat) = true ∧
      s.onlyWords t [R.DMA_STAT e.toNat, R.HST_EVT] := by
  have hbad : (s.watch [7] fun s => s.dmaTail e.toNat v) = s.watch [7] fun s => s.fset (F.DMA_STAT_TAIL_BAD e.toNat) 1 :=
    watch_congr _ (dmaTail_bad hi)
  refine ⟨_, (exec_dmaTail v h).trans (congrArg _ hbad), ?_, ?_⟩
  · rw [State.watch_bit _ _ _ _ (by simp only [R.HST_EVT]; omega)]
    exact State.bit_fset_one _ _ (by simp) (by simp)
  · exact (State.onlyWords_fset _ _ (by simp)).trans (State.onlyWords_watch _ _ _ (by simp))

/-! ### DMA_CTL -/

/-- A write of EN reaches its engine. -/
theorem exec_dmaEnable {e : BitVec 4} {t : State} (h : s.hostRuns (R.DMA_CTL e.toNat) = true) (ht : s.dmaEnable e.toNat = t)
    (hw : s.onlyWords t [R.DMA_CTL e.toNat, R.DMA_STAT e.toNat]) : exec (.dmaEnable e) s = .next t := by
  subst ht
  have := e.isLt
  obtain ⟨h1, h2, h3⟩ := dmaWords_apart (l := [R.DMA_CTL e.toNat, R.DMA_STAT e.toNat]) (by
    simp [R.DMA_CTL, R.DMA_STAT, R.HST_EVT]
    omega)
  exact congrArg Host.Outcome.next (hostCmd_onlyWords h hw h1 h2 h3)

theorem exec_dmaDisable {e : BitVec 4} {t : State} (h : s.hostRuns (R.DMA_CTL e.toNat) = true) (ht : s.dmaDisable e.toNat = t)
    (hpower : t.power = s.power) (hw : s.wordsBut t [R.DMA_CTL e.toNat, R.DMA_STAT e.toNat, R.DMA_HEAD e.toNat]) :
    exec (.dmaDisable e) s = .next t := by
  subst ht
  have := e.isLt
  obtain ⟨h1, h2, h3⟩ := dmaWords_apart (l := [R.DMA_CTL e.toNat, R.DMA_STAT e.toNat, R.DMA_HEAD e.toNat]) (by
    simp [R.DMA_CTL, R.DMA_STAT, R.DMA_HEAD, R.HST_EVT]
    omega)
  exact congrArg Host.Outcome.next (hostCmd_effect h hpower hw h1 h2 h3)

/-- EN and a held enable are 0. -/
def State.dmaOff (s : State) (k : Nat) : State := (s.fset (F.DMA_STAT_PENDING_ENABLE k) 0).fset (F.DMA_CTL_EN k) 0

/-- The engine finishes the descriptor at HEAD, whose completion word keeps its place. -/
def State.dmaFinishes (s : State) (k : Nat) : State :=
  { s with host := { s.host with cmpl := SMap.put s.host.cmpl k (s.dmaCmpl k) } }.fset (F.DMA_STAT_SHUTTING k) 1

theorem dmaFinishes_keeps (s : State) (k : Nat) :
    { s.dmaFinishes k with host := s.host } = s.fset (F.DMA_STAT_SHUTTING k) 1 := rfl

theorem dmaDisable_off (h : s.bit (F.DMA_CTL_EN k) = false) : s.dmaDisable k = s.fset (F.DMA_STAT_PENDING_ENABLE k) 0 :=
  if_pos (by simp [h])

theorem dmaDisable_on (h : s.bit (F.DMA_CTL_EN k) = true) :
    s.dmaDisable k = if (s.dmaOff k).dmaBusy k then (s.dmaOff k).dmaFinishes k else (s.dmaOff k).dmaStopped k :=
  if_neg (by simp [h])

theorem dmaOff_ring (s : State) (k : Nat) : (s.dmaOff k).reg (R.DMA_HEAD k) = s.reg (R.DMA_HEAD k) ∧
    (s.dmaOff k).bit (F.DMA_STAT_SHUTTING k) = s.bit (F.DMA_STAT_SHUTTING k) ∧
    (s.dmaOff k).dmaBusy k = s.dmaBusy k ∧ (s.dmaOff k).dmaCmpl k = s.dmaCmpl k := by
  have hword : ∀ a, a ≠ R.DMA_STAT k → a ≠ R.DMA_CTL k → (s.dmaOff k).reg a = s.reg a := fun a h1 h2 =>
    (State.reg_fset_ne _ _ _ h2).trans (State.reg_fset_ne _ _ _ h1)
  have hhead := hword (R.DMA_HEAD k) (by simp) (by simp)
  have htail := hword (R.DMA_TAIL k) (by simp) (by simp)
  have hring : (s.dmaOff k).wget (W.DMA_RING_ADDR k) = s.wget (W.DMA_RING_ADDR k) := State.wget_congr _ fun i hi => by
    simp only at hi ⊢
    exact hword _ (by simp only [R.DMA_STAT]; omega) (by simp only [R.DMA_CTL]; omega)
  have hshut : (s.dmaOff k).bit (F.DMA_STAT_SHUTTING k) = s.bit (F.DMA_STAT_SHUTTING k) :=
    (State.bit_fset_apart _ _ _ _ (by simp) (by simp [Fld.apart])).trans (State.bit_fset_apart _ _ _ _ (by simp) (by simp [Fld.apart]))
  refine ⟨hhead, hshut, ?_, ?_⟩
  · rw [State.dmaBusy, hshut, State.fget_congr (F.DMA_HEAD_INDEX k) hhead, State.fget_congr (F.DMA_TAIL_INDEX k) htail]
    rfl
  · rw [State.dmaCmpl, hring, State.fget_congr (F.DMA_HEAD_INDEX k) hhead]
    rfl

/-- What DMA_DISABLE leaves of an enabled engine. -/
theorem dmaDisable_shows (h : s.bit (F.DMA_CTL_EN k) = true) :
    (s.dmaDisable k).bit (F.DMA_CTL_EN k) = false ∧ (s.dmaDisable k).bit (F.DMA_STAT_PENDING_ENABLE k) = false ∧
      s.onlyWords { s.dmaDisable k with host := s.host } [R.DMA_CTL k, R.DMA_STAT k, R.DMA_HEAD k] := by
  have hpend : (s.dmaOff k).bit (F.DMA_STAT_PENDING_ENABLE k) = false :=
    (State.bit_fset_apart _ _ _ _ (by simp) (by simp [Fld.apart])).trans (State.bit_fset_zero _ _ (by simp) (by simp))
  have hen : (s.dmaOff k).bit (F.DMA_CTL_EN k) = false := State.bit_fset_zero _ _ (by simp) (by simp)
  have hoff : s.onlyWords (s.dmaOff k) [R.DMA_CTL k, R.DMA_STAT k, R.DMA_HEAD k] :=
    (State.onlyWords_fset _ _ (by simp)).trans (State.onlyWords_fset _ _ (by simp))
  rw [dmaDisable_on h]
  split
  · refine ⟨?_, ?_, ?_⟩
    · exact (State.bit_fset_apart _ _ _ _ (by simp) (by simp [Fld.apart])).trans hen
    · exact (State.bit_fset_apart _ _ _ _ (by simp) (by simp [Fld.apart])).trans hpend
    · have hkept : { (s.dmaOff k).dmaFinishes k with host := s.host } = (s.dmaOff k).fset (F.DMA_STAT_SHUTTING k) 1 :=
        dmaFinishes_keeps (s.dmaOff k) k
      rw [hkept]
      exact hoff.trans (State.onlyWords_fset _ _ (by simp))
  · refine ⟨?_, ?_, ?_⟩
    · exact (State.bit_fset_apart _ _ _ _ (by simp) (by simp [Fld.apart])).trans
        ((State.bit_fset_apart _ _ _ _ (by simp) (by simp [Fld.apart])).trans hen)
    · exact (State.bit_fset_apart _ _ _ _ (by simp) (by simp [Fld.apart])).trans
        ((State.bit_fset_apart _ _ _ _ (by simp) (by simp [Fld.apart])).trans hpend)
    · have hkept : { (s.dmaOff k).dmaStopped k with host := s.host } = (s.dmaOff k).dmaStopped k := rfl
      rw [hkept]
      exact hoff.trans ((State.onlyWords_fset _ _ (by simp)).trans (State.onlyWords_fset _ _ (by simp)))

theorem dmaBusy_iff : s.dmaBusy k = true ↔
    s.bit (F.DMA_STAT_SHUTTING k) = true ∨ s.fget (F.DMA_HEAD_INDEX k) ≠ s.fget (F.DMA_TAIL_INDEX k) := by
  simp [State.dmaBusy]

/-- A busy engine finishes its descriptor. -/
theorem dmaDisable_busy (h : s.bit (F.DMA_CTL_EN k) = true) (hbusy : s.dmaBusy k = true) :
    (s.dmaDisable k).bit (F.DMA_STAT_SHUTTING k) = true ∧ (s.dmaDisable k).reg (R.DMA_HEAD k) = s.reg (R.DMA_HEAD k) ∧
      SMap.find (s.dmaDisable k).host.cmpl k = some (s.dmaCmpl k) := by
  obtain ⟨hhead, -, hb, hcmpl⟩ := dmaOff_ring s k
  rw [dmaDisable_on h, if_pos (hb.trans hbusy)]
  refine ⟨State.bit_fset_one _ _ (by simp) (by simp), (State.reg_fset_ne _ _ _ (by simp)).trans hhead, ?_⟩
  exact (SMap.find_put_self _ _ _).trans (congrArg some hcmpl)

/-- An engine that owns no descriptor stops. -/
theorem dmaDisable_idle (h : s.bit (F.DMA_CTL_EN k) = true) (hidle : s.dmaBusy k = false) :
    (s.dmaDisable k).bit (F.DMA_STAT_SHUTTING k) = false ∧ (s.dmaDisable k).fget (F.DMA_HEAD_INDEX k) = 0 ∧
      (s.dmaDisable k).host = s.host := by
  obtain ⟨-, -, hb, -⟩ := dmaOff_ring s k
  rw [dmaDisable_on h, if_neg (by simp [hb, hidle])]
  refine ⟨?_, State.fget_fset _ _ _ (by simp), rfl⟩
  exact (State.bit_fset_apart _ _ _ _ (by simp) (by simp [Fld.apart])).trans (State.bit_fset_zero _ _ (by simp) (by simp))

end Sys2Proof.Machine
end

section
/-! What a DMA engine writes to host memory (R369, R370). -/

namespace Sys2Proof.Machine

variable {s : State}

/-! ### Bytes of host memory -/

theorem hostBytes_concat (s : State) (a : Nat) (bs : Bytes) (b : Byte) :
    (s.hostBytes a (bs ++ [b])).host.mem = SMap.put (s.hostBytes a bs).host.mem ((a + bs.length) % 2 ^ 64) b := by
  simp [State.hostBytes, List.zipIdx_append, List.foldl_append]

/-- A byte outside the written range, whose addresses count modulo 2^64. -/
theorem hostBytes_outside (a : Nat) (bs : Bytes) {x : Nat} (h : ∀ i < bs.length, x ≠ (a + i) % 2 ^ 64) :
    SMap.find (s.hostBytes a bs).host.mem x = SMap.find s.host.mem x := by
  induction bs using List.reverseRecOn with
  | nil => rfl
  | append_singleton bs b ih =>
    rw [List.length_append, List.length_singleton] at h
    rw [hostBytes_concat, SMap.find_put_ne _ _ (h _ (by omega))]
    exact ih fun i hi => h i (by omega)

/-- A byte of the written range, which is no longer than the address space. -/
theorem hostBytes_inside (a : Nat) (bs : Bytes) (hlen : bs.length ≤ 2 ^ 64) {i : Nat} (hi : i < bs.length) :
    SMap.find (s.hostBytes a bs).host.mem ((a + i) % 2 ^ 64) = some bs[i] := by
  induction bs using List.reverseRecOn with
  | nil => exact absurd hi (Nat.not_lt_zero _)
  | append_singleton bs b ih =>
    rw [List.length_append, List.length_singleton] at hi hlen
    rw [hostBytes_concat]
    by_cases hlast : i = bs.length
    · subst hlast
      simp
    · have hlt : i < bs.length := by omega
      rw [SMap.find_put_ne _ _ (by omega), ih (by omega) hlt, List.getElem_append_left hlt]

/-! ### Byte lists -/

theorem leBytes_getElem (n : Nat) : ∀ (v i : Nat) (h : i < (leBytes n v).length), (leBytes n v)[i] = BitVec.ofNat 8 (v / 256 ^ i) := by
  induction n with
  | zero => exact fun v i h => absurd h (Nat.not_lt_zero i)
  | succ n ih =>
    intro v i h
    cases i with
    | zero => simp [leBytes]
    | succ i =>
      have hi := ih (v / 256) i (Nat.lt_of_succ_lt_succ h)
      rw [Nat.div_div_eq_div_mul, ← Nat.pow_succ'] at hi
      exact hi

theorem rdBytes_length (s : State) (n : Nat) : ∀ a, (s.rdBytes a n).length = n := by
  induction n with
  | zero => exact fun _ => rfl
  | succ n ih => exact fun a => congrArg (· + 1) (ih _)

theorem rdBytes_getElem (s : State) (n : Nat) : ∀ (a i : Nat) (h : i < (s.rdBytes a n).length), (s.rdBytes a n)[i] = s.rdByte (a + i) := by
  induction n with
  | zero => exact fun a i h => absurd h (Nat.not_lt_zero i)
  | succ n ih =>
    intro a i h
    cases i with
    | zero => rfl
    | succ i =>
      have hi := ih (a + 1) i (Nat.lt_of_succ_lt_succ h)
      rw [Nat.add_right_comm] at hi
      exact hi

theorem blocks_length (f : Nat → Bytes) (hf : ∀ j, (f j).length = 64) (n : Nat) : ((List.range n).flatMap f).length = 64 * n := by
  simp [List.length_flatMap, hf, Nat.mul_comm]

/-- Blocks of 64 bytes one after another: byte `i` stands in block `i / 64`. -/
theorem blocks_getElem (f : Nat → Bytes) (hf : ∀ j, (f j).length = 64) (n : Nat) {i : Nat} (h : i < ((List.range n).flatMap f).length) :
    ((List.range n).flatMap f)[i] = (f (i / 64))[i % 64]'(by rw [hf]; omega) := by
  induction n with
  | zero => simp at h
  | succ n ih =>
    have hlen := blocks_length f hf n
    by_cases hi : i < 64 * n
    · simp only [List.range_succ, List.flatMap_append]
      rw [List.getElem_append_left (by omega)]
      exact ih (by omega)
    · rw [blocks_length f hf] at h
      have hblock : i / 64 = n := by omega
      have hbyte : i - 64 * n = i % 64 := by omega
      simp only [List.range_succ, List.flatMap_append, List.flatMap_cons, List.flatMap_nil, List.append_nil]
      rw [List.getElem_append_right (by omega)]
      simp only [hlen, hblock, hbyte]

/-! ### The bytes of a descriptor -/

/-- Byte `i` of what a descriptor moves: memory's, or 0 where its read is refused (R370). -/
def State.dmaByte (s : State) (desc : Bytes) (i : Nat) : Byte :=
  if s.dmaAnswer (num desc 0 8 + i / 64 * 64) = .granted then s.rdByte (num desc 0 8 + i) else 0

/-- What a descriptor moves. -/
def State.dmaData (s : State) (desc : Bytes) : Bytes :=
  (dmaParts desc).flatMap fun a => if s.dmaAnswer a == .granted then s.rdBytes a 64 else List.replicate 64 0

/-- Part `j` of what it moves. -/
def State.dmaBlock (s : State) (desc : Bytes) (j : Nat) : Bytes :=
  if s.dmaAnswer (num desc 0 8 + 64 * j) == .granted then s.rdBytes (num desc 0 8 + 64 * j) 64 else List.replicate 64 0

theorem dmaBlock_length (s : State) (desc : Bytes) (j : Nat) : (s.dmaBlock desc j).length = 64 := by
  unfold State.dmaBlock
  split
  · exact rdBytes_length s 64 _
  · exact List.length_replicate

theorem dmaBlock_getElem (s : State) (desc : Bytes) (i : Nat) (h : i % 64 < (s.dmaBlock desc (i / 64)).length) :
    (s.dmaBlock desc (i / 64))[i % 64] = s.dmaByte desc i := by
  have hpart : num desc 0 8 + i / 64 * 64 = num desc 0 8 + 64 * (i / 64) := by omega
  have hbyte : num desc 0 8 + 64 * (i / 64) + i % 64 = num desc 0 8 + i := by omega
  unfold State.dmaByte
  simp only [State.dmaBlock, hpart, beq_iff_eq]
  split
  · rw [rdBytes_getElem, hbyte]
  · exact List.getElem_replicate _

theorem dmaData_blocks (s : State) (desc : Bytes) : s.dmaData desc = (List.range (dmaLen desc / 64)).flatMap (s.dmaBlock desc) := by
  simp only [State.dmaData, dmaParts, List.flatMap_map]
  rfl

theorem dmaData_length (s : State) {desc : Bytes} (h : dmaLen desc % 64 = 0) : (s.dmaData desc).length = dmaLen desc := by
  rw [dmaData_blocks, blocks_length _ (dmaBlock_length s desc)]
  omega

theorem dmaData_getElem (s : State) (desc : Bytes) {i : Nat} (h : i < (s.dmaData desc).length) :
    (s.dmaData desc)[i] = s.dmaByte desc i := by
  simp only [dmaData_blocks]
  rw [blocks_getElem _ (dmaBlock_length s desc), dmaBlock_getElem]

end Sys2Proof.Machine
end

section
/-! What the reads of a DMA engine leave (R117, R136, R139, R345). -/

namespace Sys2Proof.Machine

variable {s t u : State}

/-- The registers of the DMA engines are as in `s`. -/
def State.dmaAs (s t : State) : Prop := ∀ a, 0x1000 ≤ a → a < 0x1400 → t.reg a = s.reg a

theorem State.dmaAs.trans (h : s.dmaAs t) (h' : t.dmaAs u) : s.dmaAs u := fun a hlo hhi => (h' a hlo hhi).trans (h a hlo hhi)

theorem dmaAs_fset (s : State) (f : Fld) (x : Nat) (h : 0x1400 ≤ f.addr) : s.dmaAs (s.fset f x) := fun a _ hhi =>
  State.reg_fset_ne _ _ _ (by omega)

/-- A read of the host that is refused is counted. -/
theorem dmaAs_memRefused (s : State) (a : Nat) : s.dmaAs (s.memRefused 0 a accRead) := by
  unfold State.memRefused
  split_ifs with hoff hacc
  · exact absurd hacc (by decide)
  · exact dmaAs_fset _ _ _ (by decide)
  · exact dmaAs_fset _ _ _ (by decide)
  · exact dmaAs_fset _ _ _ (by simp only; omega)

theorem State.SeenAs.dmaAs (h : s.SeenAs t) : s.dmaAs t := fun a hlo hhi =>
  h.words a (by simp only [observedWord, R.HST_EVT]; omega)

theorem dmaAs_transact (s : State) (op : Nat) (p : Packet) {f : State → State} (ans : State → Nat × List W128)
    (hf : ∀ t : State, t.dmaAs (f t)) : s.dmaAs (s.transact op p f ans) := by
  obtain ⟨u, hsu, -, htv, -⟩ := transact_seenAs s op p f ans
  exact hsu.dmaAs.trans ((hf u).trans htv.dmaAs)

theorem dmaAs_readLines (m : MasterId) {eff : State → State} (heff : ∀ t : State, t.dmaAs (eff t)) (status n : Nat) :
    ∀ (s : State) (l : List (Nat × Nat)), s.dmaAs (s.readLines m eff status n l) := by
  induction n with
  | zero => exact fun s l a _ _ => rfl
  | succ n ih =>
    intro s l
    cases l with
    | nil => exact fun a _ _ => rfl
    | cons p l =>
      have hdrawn : s.dmaAs (if min 3 l.length = 0 then s else s.drawn) := by split <;> exact fun a _ _ => rfl
      rw [State.readLines]
      exact hdrawn.trans ((dmaAs_transact _ _ _ _ heff).trans (ih _ _))

theorem dmaAs_dmaReads (n : Nat) : ∀ (s : State) (l : List Nat), s.dmaAs (s.dmaReads n l) := by
  induction n with
  | zero => exact fun s l a _ _ => rfl
  | succ n ih =>
    intro s l
    cases l with
    | nil => exact fun a _ _ => rfl
    | cons a l =>
      have heff : ∀ t : State, t.dmaAs (if s.dmaStatus a = 0 then t else t.memRefused 0 a accRead) := fun t => by
        split
        · exact fun _ _ _ => rfl
        · exact dmaAs_memRefused t a
      rw [State.dmaReads]
      exact (dmaAs_readLines 0 heff _ _ _ _).trans (ih _ _)

theorem dmaReads_keeps (s : State) (n : Nat) (l : List Nat) : (s.dmaReads n l).mem = s.mem ∧ (s.dmaReads n l).host = s.host := by
  have h := State.dmaReads_only (Closed.sameOn s [.mem, .host] (by decide)) (s.sameOn_refl _) n l
  exact ⟨(h .mem (by simp)).symm, (h .host (by simp)).symm⟩

end Sys2Proof.Machine
end

section
/-! The end of a DMA descriptor (R368–R371), and the statement about the engines. -/

namespace Sys2Proof.Machine

variable {s t u : State} {k : Nat}

/-! ### HEAD, ERR, and the end of a shutdown -/

/-- HEAD goes on by one place of the ring, and a code other than OK is shown. -/
def State.dmaMoves (s : State) (k code : Nat) : State :=
  let v := s.fset (F.DMA_HEAD_INDEX k) ((s.fget (F.DMA_HEAD_INDEX k) + 1) % 2 ^ s.fget (F.DMA_CTL_K k))
  if code = 0 then v else v.fset (F.DMA_STAT_ERR k) 1

/-- The engine stops, and a held enable is served. -/
def State.dmaEndsShutdown (s : State) (k : Nat) : State :=
  if (s.dmaStopped k).bit (F.DMA_STAT_PENDING_ENABLE k) then
    ((s.dmaStopped k).fset (F.DMA_STAT_PENDING_ENABLE k) 0).fset (F.DMA_CTL_EN k) 1
  else s.dmaStopped k

/-- Where the completion word goes. -/
def State.dmaPlace (s : State) (k : Nat) : Nat :=
  if s.bit (F.DMA_STAT_SHUTTING k) then (SMap.find s.host.cmpl k).getD (s.dmaCmpl k) else s.dmaCmpl k

/-- The completion word is written. -/
def State.dmaReports (s : State) (k code tag bytes : Nat) : State := s.hostBytes (s.dmaPlace k) (leBytes 8 (dmaWord code tag bytes))

theorem dmaMoves_shutting (s : State) (k code : Nat) :
    (s.dmaMoves k code).bit (F.DMA_STAT_SHUTTING k) = s.bit (F.DMA_STAT_SHUTTING k) := by
  unfold State.dmaMoves
  dsimp only
  split
  · exact State.bit_fset_apart _ _ _ _ (by simp) (by simp [Fld.apart])
  · exact (State.bit_fset_apart _ _ _ _ (by simp) (by simp [Fld.apart])).trans (State.bit_fset_apart _ _ _ _ (by simp) (by simp [Fld.apart]))

theorem dmaComplete_eq (s : State) (k code tag bytes : Nat) : s.dmaComplete k code tag bytes =
    if s.bit (F.DMA_STAT_SHUTTING k) then ((s.dmaReports k code tag bytes).dmaMoves k code).dmaEndsShutdown k
    else (s.dmaReports k code tag bytes).dmaMoves k code := by
  have hshut : ((s.dmaReports k code tag bytes).dmaMoves k code).bit (F.DMA_STAT_SHUTTING k) = s.bit (F.DMA_STAT_SHUTTING k) :=
    dmaMoves_shutting _ k code
  have heq : s.dmaComplete k code tag bytes =
      if !((s.dmaReports k code tag bytes).dmaMoves k code).bit (F.DMA_STAT_SHUTTING k) then
        (s.dmaReports k code tag bytes).dmaMoves k code
      else ((s.dmaReports k code tag bytes).dmaMoves k code).dmaEndsShutdown k := rfl
  rw [heq, hshut]
  cases s.bit (F.DMA_STAT_SHUTTING k) <;> rfl

/-- From `s` to `t` the engine's ring goes on, or its shutdown ends (R368, R370, R371). -/
def State.dmaSteps (s t : State) (k code : Nat) : Prop :=
  t.bit (F.DMA_STAT_ERR k) = (s.bit (F.DMA_STAT_ERR k) || code != 0) ∧
  (s.bit (F.DMA_STAT_SHUTTING k) = false →
    t.fget (F.DMA_HEAD_INDEX k) = (s.fget (F.DMA_HEAD_INDEX k) + 1) % 2 ^ s.fget (F.DMA_CTL_K k) % 2 ^ 16 ∧
    t.bit (F.DMA_CTL_EN k) = s.bit (F.DMA_CTL_EN k)) ∧
  (s.bit (F.DMA_STAT_SHUTTING k) = true → t.fget (F.DMA_HEAD_INDEX k) = 0 ∧ t.bit (F.DMA_STAT_SHUTTING k) = false ∧
    t.bit (F.DMA_STAT_PENDING_ENABLE k) = false ∧
    t.bit (F.DMA_CTL_EN k) = (s.bit (F.DMA_CTL_EN k) || s.bit (F.DMA_STAT_PENDING_ENABLE k)))

/-- The engine's fields once its ring has gone on by one. -/
theorem dmaMoves_shows (s : State) (k code : Nat) :
    (s.dmaMoves k code).bit (F.DMA_STAT_ERR k) = (s.bit (F.DMA_STAT_ERR k) || code != 0) ∧
    (s.dmaMoves k code).fget (F.DMA_HEAD_INDEX k) = (s.fget (F.DMA_HEAD_INDEX k) + 1) % 2 ^ s.fget (F.DMA_CTL_K k) % 2 ^ 16 ∧
    (s.dmaMoves k code).bit (F.DMA_CTL_EN k) = s.bit (F.DMA_CTL_EN k) ∧
    (s.dmaMoves k code).bit (F.DMA_STAT_PENDING_ENABLE k) = s.bit (F.DMA_STAT_PENDING_ENABLE k) := by
  let v := s.fset (F.DMA_HEAD_INDEX k) ((s.fget (F.DMA_HEAD_INDEX k) + 1) % 2 ^ s.fget (F.DMA_CTL_K k))
  have hhead : v.fget (F.DMA_HEAD_INDEX k) = (s.fget (F.DMA_HEAD_INDEX k) + 1) % 2 ^ s.fget (F.DMA_CTL_K k) % 2 ^ 16 :=
    State.fget_fset _ _ _ (by simp)
  have herr : v.bit (F.DMA_STAT_ERR k) = s.bit (F.DMA_STAT_ERR k) := State.bit_fset_apart _ _ _ _ (by simp) (by simp [Fld.apart])
  have hen : v.bit (F.DMA_CTL_EN k) = s.bit (F.DMA_CTL_EN k) := State.bit_fset_apart _ _ _ _ (by simp) (by simp [Fld.apart])
  have hpend : v.bit (F.DMA_STAT_PENDING_ENABLE k) = s.bit (F.DMA_STAT_PENDING_ENABLE k) :=
    State.bit_fset_apart _ _ _ _ (by simp) (by simp [Fld.apart])
  by_cases hok : code = 0
  · have hv : s.dmaMoves k code = v := if_pos hok
    rw [hv]
    exact ⟨by simp [herr, hok], hhead, hen, hpend⟩
  · have hv : s.dmaMoves k code = v.fset (F.DMA_STAT_ERR k) 1 := if_neg hok
    rw [hv]
    refine ⟨?_, ?_, ?_, ?_⟩
    · rw [State.bit_fset_one _ _ (by simp) (by simp)]
      simp [hok]
    · exact (State.fget_fset_apart _ _ _ _ (by simp) (by simp [Fld.apart])).trans hhead
    · exact (State.bit_fset_apart _ _ _ _ (by simp) (by simp [Fld.apart])).trans hen
    · exact (State.bit_fset_apart _ _ _ _ (by simp) (by simp [Fld.apart])).trans hpend

theorem dmaStopped_shows (s : State) (k : Nat) :
    (s.dmaStopped k).fget (F.DMA_HEAD_INDEX k) = 0 ∧ (s.dmaStopped k).bit (F.DMA_STAT_SHUTTING k) = false ∧
    (s.dmaStopped k).bit (F.DMA_STAT_ERR k) = s.bit (F.DMA_STAT_ERR k) ∧
    (s.dmaStopped k).bit (F.DMA_CTL_EN k) = s.bit (F.DMA_CTL_EN k) ∧
    (s.dmaStopped k).bit (F.DMA_STAT_PENDING_ENABLE k) = s.bit (F.DMA_STAT_PENDING_ENABLE k) := by
  have hother : ∀ f : Fld, (F.DMA_STAT_SHUTTING k).apart f → (F.DMA_HEAD_INDEX k).apart f → (s.dmaStopped k).bit f = s.bit f :=
    fun f h1 h2 => (State.bit_fset_apart _ _ _ _ (by simp) h2).trans (State.bit_fset_apart _ _ _ _ (by simp) h1)
  refine ⟨State.fget_fset _ _ _ (by simp), ?_, hother _ (by simp [Fld.apart]) (by simp [Fld.apart]),
    hother _ (by simp [Fld.apart]) (by simp [Fld.apart]), hother _ (by simp [Fld.apart]) (by simp [Fld.apart])⟩
  exact (State.bit_fset_apart _ _ _ _ (by simp) (by simp [Fld.apart])).trans (State.bit_fset_zero _ _ (by simp) (by simp))

theorem dmaEndsShutdown_shows (s : State) (k : Nat) :
    (s.dmaEndsShutdown k).fget (F.DMA_HEAD_INDEX k) = 0 ∧ (s.dmaEndsShutdown k).bit (F.DMA_STAT_SHUTTING k) = false ∧
    (s.dmaEndsShutdown k).bit (F.DMA_STAT_ERR k) = s.bit (F.DMA_STAT_ERR k) ∧
    (s.dmaEndsShutdown k).bit (F.DMA_STAT_PENDING_ENABLE k) = false ∧
    (s.dmaEndsShutdown k).bit (F.DMA_CTL_EN k) = (s.bit (F.DMA_CTL_EN k) || s.bit (F.DMA_STAT_PENDING_ENABLE k)) := by
  obtain ⟨hhead, hshut, herr, hen, hpend⟩ := dmaStopped_shows s k
  unfold State.dmaEndsShutdown
  rw [hpend]
  split
  · next hheld =>
    have hother : ∀ f : Fld, (F.DMA_STAT_PENDING_ENABLE k).apart f → (F.DMA_CTL_EN k).apart f →
        (((s.dmaStopped k).fset (F.DMA_STAT_PENDING_ENABLE k) 0).fset (F.DMA_CTL_EN k) 1).fget f = (s.dmaStopped k).fget f :=
      fun f h1 h2 => (State.fget_fset_apart _ _ _ _ (by simp) h2).trans (State.fget_fset_apart _ _ _ _ (by simp) h1)
    refine ⟨(hother _ (by simp [Fld.apart]) (by simp [Fld.apart])).trans hhead, ?_, ?_, ?_, ?_⟩
    · rw [State.bit, hother _ (by simp [Fld.apart]) (by simp [Fld.apart])]
      exact hshut
    · rw [State.bit, hother _ (by simp [Fld.apart]) (by simp [Fld.apart])]
      exact herr
    · exact (State.bit_fset_apart _ _ _ _ (by simp) (by simp [Fld.apart])).trans (State.bit_fset_zero _ _ (by simp) (by simp))
    · rw [State.bit_fset_one _ _ (by simp) (by simp), hheld, Bool.or_true]
  · next hfree =>
    have hfalse : s.bit (F.DMA_STAT_PENDING_ENABLE k) = false := by simpa using hfree
    exact ⟨hhead, hshut, herr, hpend.trans hfalse, by rw [hen, hfalse, Bool.or_false]⟩

theorem dmaComplete_steps (s : State) (k code tag bytes : Nat) : s.dmaSteps (s.dmaComplete k code tag bytes) k code := by
  obtain ⟨herr, hhead, hen, hpend⟩ := dmaMoves_shows (s.dmaReports k code tag bytes) k code
  rw [dmaComplete_eq]
  split
  · next hshut =>
    obtain ⟨hhead', hshut', herr', hpend', hen'⟩ := dmaEndsShutdown_shows ((s.dmaReports k code tag bytes).dmaMoves k code) k
    refine ⟨herr'.trans herr, fun h => absurd (h.symm.trans hshut) Bool.false_ne_true, fun _ => ⟨hhead', hshut', hpend', ?_⟩⟩
    rw [hen', hen, hpend]
    rfl
  · next hshut => exact ⟨herr, fun _ => ⟨hhead, hen⟩, fun h => absurd h hshut⟩

theorem dmaComplete_host (s : State) (k code tag bytes : Nat) :
    (s.dmaComplete k code tag bytes).host = (s.dmaReports k code tag bytes).host ∧ (s.dmaComplete k code tag bytes).mem = s.mem := by
  have hmoves : ∀ u : State, (u.dmaMoves k code).host = u.host ∧ (u.dmaMoves k code).mem = u.mem := fun u => by
    unfold State.dmaMoves
    dsimp only
    split <;> exact ⟨rfl, rfl⟩
  have hends : ∀ u : State, (u.dmaEndsShutdown k).host = u.host ∧ (u.dmaEndsShutdown k).mem = u.mem := fun u => by
    unfold State.dmaEndsShutdown
    split <;> exact ⟨rfl, rfl⟩
  rw [dmaComplete_eq]
  split
  · exact ⟨(hends _).1.trans (hmoves _).1, (hends _).2.trans (hmoves _).2⟩
  · exact hmoves _

/-! ### What a descriptor leaves -/

/-- A descriptor that has moved `bytes` bytes leaves them and its completion word in host memory, where the completion word comes last,
and moves its ring on (R370). -/
def State.dmaEnds (s t : State) (k : Nat) (desc : Bytes) (code bytes : Nat) (data : Nat → Byte) : Prop :=
  t.mem = s.mem ∧
  (∀ i < 8, SMap.find t.host.mem ((s.dmaPlace k + i) % 2 ^ 64) =
    some (BitVec.ofNat 8 ((1 + code * 2 + num desc 0x14 2 * 2 ^ 16 + bytes * 2 ^ 32) / 256 ^ i))) ∧
  (∀ x, x < 2 ^ 64 → (∀ i < 8, x ≠ (s.dmaPlace k + i) % 2 ^ 64) →
    (∀ i < bytes, x = (num desc 8 8 + i) % 2 ^ 64 → SMap.find t.host.mem x = some (data i)) ∧
    ((∀ i < bytes, x ≠ (num desc 8 8 + i) % 2 ^ 64) → SMap.find t.host.mem x = SMap.find s.host.mem x)) ∧
  s.dmaSteps t k code

theorem dmaReports_inside (s : State) (k code tag bytes : Nat) {i : Nat} (hi : i < 8) :
    SMap.find (s.dmaReports k code tag bytes).host.mem ((s.dmaPlace k + i) % 2 ^ 64) =
      some (BitVec.ofNat 8 (dmaWord code tag bytes / 256 ^ i)) := by
  have hlen := leBytes_length 8 (dmaWord code tag bytes)
  refine (hostBytes_inside _ _ (by rw [hlen]; decide) (by rw [hlen]; exact hi)).trans ?_
  rw [leBytes_getElem]

theorem dmaReports_outside (s : State) (k code tag bytes : Nat) {x : Nat} (h : ∀ i < 8, x ≠ (s.dmaPlace k + i) % 2 ^ 64) :
    SMap.find (s.dmaReports k code tag bytes).host.mem x = SMap.find s.host.mem x :=
  hostBytes_outside _ _ fun i hi => h i (by rwa [leBytes_length] at hi)

/-- The engine completes from a state `u` in which its reads are done and its bytes written. -/
theorem dmaComplete_ends (hk : k < 16) {desc : Bytes} {data : Bytes} (code : Nat) (hdma : s.dmaAs u) (hmem : u.mem = s.mem)
    (hcmpl : u.host.cmpl = s.host.cmpl) (hdata : u.host.mem = (s.hostBytes (num desc 8 8) data).host.mem)
    (hlen : data.length ≤ 2 ^ 64) (f : Nat → Byte) (hf : ∀ i (h : i < data.length), data[i] = f i) :
    s.dmaEnds (u.dmaComplete k code (dmaTag desc) data.length) k desc code data.length f := by
  have hfget : ∀ f : Fld, 0x1000 ≤ f.addr → f.addr < 0x1400 → u.fget f = s.fget f := fun f h1 h2 => State.fget_congr f (hdma _ h1 h2)
  have hbit : ∀ f : Fld, 0x1000 ≤ f.addr → f.addr < 0x1400 → u.bit f = s.bit f := fun f h1 h2 => State.bit_congr f (hdma _ h1 h2)
  have hring : u.wget (W.DMA_RING_ADDR k) = s.wget (W.DMA_RING_ADDR k) := State.wget_congr _ fun i hi => by
    simp only at hi ⊢
    exact hdma _ (by omega) (by omega)
  have hhead := hfget (F.DMA_HEAD_INDEX k) (by simp only; omega) (by simp only; omega)
  have hshut := hbit (F.DMA_STAT_SHUTTING k) (by simp only; omega) (by simp only; omega)
  have hplace : u.dmaPlace k = s.dmaPlace k := by simp only [State.dmaPlace, State.dmaCmpl, hring, hhead, hshut, hcmpl]
  obtain ⟨hhost, hkept⟩ := dmaComplete_host u k code (dmaTag desc) data.length
  obtain ⟨herr, hgoes, hstops⟩ := dmaComplete_steps u k code (dmaTag desc) data.length
  rw [hshut, hhead, hfget (F.DMA_CTL_K k) (by simp only; omega) (by simp only; omega),
    hbit (F.DMA_CTL_EN k) (by simp only; omega) (by simp only; omega)] at hgoes
  rw [hshut, hbit (F.DMA_CTL_EN k) (by simp only; omega) (by simp only; omega),
    hbit (F.DMA_STAT_PENDING_ENABLE k) (by simp only; omega) (by simp only; omega)] at hstops
  rw [hbit (F.DMA_STAT_ERR k) (by simp only; omega) (by simp only; omega)] at herr
  refine ⟨hkept.trans hmem, fun i hi => ?_, fun x hx hoff => ⟨fun i hi hat => ?_, fun hout => ?_⟩, herr, hgoes, hstops⟩
  · rw [hhost, ← hplace]
    exact dmaReports_inside u k code _ _ hi
  · rw [hhost, dmaReports_outside u k code _ _ (by rwa [hplace]), hdata, hat, hostBytes_inside _ _ hlen hi, hf]
  · rw [hhost, dmaReports_outside u k code _ _ (by rwa [hplace]), hdata, hostBytes_outside _ _ hout]

/-- The poll block notes a code other than OK in a register of its own. -/
theorem State.dmaEnds.watch {desc : Bytes} {code bytes : Nat} {data : Nat → Byte} {f : State → State} (bits : List Nat)
    (h : s.dmaEnds (f s) k desc code bytes data) : s.dmaEnds (s.watch bits f) k desc code bytes data := by
  obtain ⟨hmem, hin, hout, herr, hgoes, hstops⟩ := h
  have hhost : (s.watch bits f).host = (f s).host := State.watch_unit _ _ _ State.host fun _ _ => rfl
  have hfget : ∀ d : Fld, 0x1000 ≤ d.addr → (s.watch bits f).fget d = (f s).fget d := fun d hd =>
    State.watch_fget _ _ _ _ (by simp only [R.HST_EVT]; omega)
  have hbit : ∀ d : Fld, 0x1000 ≤ d.addr → (s.watch bits f).bit d = (f s).bit d := fun d hd =>
    State.watch_bit _ _ _ _ (by simp only [R.HST_EVT]; omega)
  refine ⟨(State.watch_unit _ _ _ State.mem fun _ _ => rfl).trans hmem, by rwa [hhost], by rwa [hhost], ?_, ?_, ?_⟩
  · rwa [hbit _ (by simp only; omega)]
  · rwa [hfget _ (by simp only; omega), hbit _ (by simp only; omega)]
  · rwa [hfget _ (by simp only; omega), hbit _ (by simp only; omega), hbit _ (by simp only; omega), hbit _ (by simp only; omega)]

/-! ### The command -/

/-- The engine executes the descriptor: the host is there, and it owns one, or finishes one (R368, R371). -/
def State.dmaServes (s : State) (k : Nat) (desc : Bytes) : Prop :=
  s.hostAway = false ∧ s.asleep = false ∧ (s.bit (F.DMA_STAT_SHUTTING k) = true ∨
    (s.bit (F.DMA_CTL_EN k) = true ∧ s.fget (F.DMA_HEAD_INDEX k) ≠ s.fget (F.DMA_TAIL_INDEX k))) ∧ desc.length = 32

theorem dmaServes_iff {desc : Bytes} : s.dmaServes k desc ↔
    (s.hostAway || s.asleep || !s.dmaRuns k || !s.dmaBusy k || desc.length != 32) = false := by
  simp only [State.dmaServes, State.dmaRuns, State.dmaBusy, Bool.or_eq_false_iff, Bool.not_eq_false', Bool.or_eq_true, bne_iff_ne,
    bne_eq_false_iff_eq]
  tauto

theorem dmaDone_idle {desc : Bytes} (h : ¬ s.dmaServes k desc) : s.dmaDone k desc = s :=
  if_pos (Bool.ne_false_iff.mp (mt dmaServes_iff.mpr h))

theorem dmaDone_serves {desc : Bytes} (h : s.dmaServes k desc) : s.dmaDone k desc =
    if s.dmaFormat desc then s.dmaComplete k 2 (dmaTag desc) 0
    else if (dmaParts desc).any fun a => s.dmaAnswer a == .waits then s
    else ((s.dmaReads (dmaParts desc).length (dmaParts desc)).hostBytes (num desc 8 8) (s.dmaData desc)).dmaComplete k
      (if ((dmaParts desc).filter fun a => s.dmaAnswer a == .refused).isEmpty then 0 else 1) (dmaTag desc) (dmaLen desc) :=
  if_neg (by simpa using dmaServes_iff.mp h)

/-- A descriptor that the engine does not take (R369, R370). -/
theorem dmaFormat_iff {desc : Bytes} : s.dmaFormat desc = true ↔
    num desc 0 8 % 64 ≠ 0 ∨ num desc 8 8 % 64 ≠ 0 ∨ num desc 0x10 4 % 64 ≠ 0 ∨ num desc 0x10 4 = 0 ∨ num desc 0x16 2 ≠ 0 ∨
      s.dmaInside (num desc 0 8) (num desc 0x10 4) = false := by
  simp only [State.dmaFormat, dmaLen, Bool.or_eq_true, bne_iff_ne, beq_iff_eq, Bool.not_eq_true', or_assoc]

theorem dmaDone_format (hk : k < 16) {desc : Bytes} (h : s.dmaServes k desc) (hbad : s.dmaFormat desc = true) (f : Nat → Byte) :
    s.dmaEnds (s.dmaDone k desc) k desc 2 0 f := by
  rw [dmaDone_serves h, if_pos hbad]
  exact dmaComplete_ends (data := []) hk 2 (fun _ _ _ => rfl) rfl rfl rfl (Nat.zero_le _) f fun i hi => absurd hi (Nat.not_lt_zero i)

theorem dmaDone_waits {desc : Bytes} (h : s.dmaServes k desc) (hgood : s.dmaFormat desc = false)
    (hwaits : ∃ a ∈ dmaParts desc, s.dmaAnswer a = .waits) : s.dmaDone k desc = s := by
  rw [dmaDone_serves h, if_neg (by simp [hgood])]
  exact if_pos (by simpa using hwaits)

/-- With no read waiting, the code is OK just where every read is granted. -/
theorem dmaCode_eq {desc : Bytes} (hwaits : ∀ a ∈ dmaParts desc, s.dmaAnswer a ≠ .waits) :
    (if ((dmaParts desc).filter fun a => s.dmaAnswer a == .refused).isEmpty then 0 else 1) =
      if ∀ a ∈ dmaParts desc, s.dmaAnswer a = .granted then 0 else 1 := by
  refine if_congr ?_ rfl rfl
  simp only [List.isEmpty_iff, List.filter_eq_nil_iff, beq_iff_eq]
  refine forall₂_congr fun a ha => ?_
  have hw := hwaits a ha
  cases hans : s.dmaAnswer a <;> simp_all

theorem dmaDone_moves (hk : k < 16) {desc : Bytes} (h : s.dmaServes k desc) (hgood : s.dmaFormat desc = false)
    (hwaits : ∀ a ∈ dmaParts desc, s.dmaAnswer a ≠ .waits) :
    s.dmaEnds (s.dmaDone k desc) k desc (if ∀ a ∈ dmaParts desc, s.dmaAnswer a = .granted then 0 else 1) (num desc 0x10 4)
      (s.dmaByte desc) := by
  have haligned : dmaLen desc % 64 = 0 := by
    by_contra hne
    exact Bool.false_ne_true (hgood.symm.trans (dmaFormat_iff.mpr (.inr (.inr (.inl hne)))))
  have hlen := dmaData_length s haligned
  have hfits : (s.dmaData desc).length ≤ 2 ^ 64 := by
    have := num_lt desc 0x10 4
    rw [hlen, dmaLen]
    omega
  obtain ⟨hmem, hhost⟩ := dmaReads_keeps s (dmaParts desc).length (dmaParts desc)
  have hends := dmaComplete_ends (u := (s.dmaReads (dmaParts desc).length (dmaParts desc)).hostBytes (num desc 8 8) (s.dmaData desc))
    (desc := desc) (data := s.dmaData desc) hk (if ∀ a ∈ dmaParts desc, s.dmaAnswer a = .granted then 0 else 1)
    (dmaAs_dmaReads _ _ _) hmem (by simp only [State.hostBytes, hhost]) (by simp only [State.hostBytes, hhost]) hfits (s.dmaByte desc)
    fun i hi => dmaData_getElem s desc hi
  rw [hlen] at hends
  rw [dmaDone_serves h, if_neg (by simp [hgood]), if_neg (by simpa using hwaits), dmaCode_eq hwaits]
  exact hends

theorem exec_dmaDescriptorDone (e : BitVec 4) (desc : Bytes) (s : State) :
    exec (.dmaDescriptorDone e desc) s = .next (s.watch [7, 16] fun s => s.dmaDone e.toNat desc) := rfl

theorem exec_dmaDescriptorDone_unchanged {e : BitVec 4} {desc : Bytes} (h : s.dmaDone e.toNat desc = s) :
    exec (.dmaDescriptorDone e desc) s = .next s :=
  (exec_dmaDescriptorDone e desc s).trans (congrArg _ (watch_unchanged _ h))

/-- Settles O56: TAIL and EN as their registers' effects, a descriptor by what its reads leave and what its completion writes. -/
theorem dmaEngines : Obligations.DmaEngines := by
  unfold Obligations.DmaEngines
  refine ⟨fun e v s h => ⟨fun hi => dmaTail_takes h hi, fun hi => dmaTail_refuses h hi⟩, fun e s h => ?_, fun e desc s => ?_⟩
  · intro k on shut
    refine ⟨fun hon => exec_dmaEnable h (if_pos hon) (s.onlyWords_refl _), fun hon hshut => ?_, fun hon hshut => ?_, fun hon => ?_, fun hon => ?_⟩
    · exact exec_dmaEnable h ((if_neg (by simpa using hon)).trans (if_pos hshut)) (State.onlyWords_fset _ _ (by simp [k]))
    · exact exec_dmaEnable h ((if_neg (by simpa using hon)).trans (if_neg (by simpa using hshut))) (State.onlyWords_fset _ _ (by simp [k]))
    · exact exec_dmaDisable h (dmaDisable_off hon) rfl (State.onlyWords_fset _ _ (by simp [k])).2
    · obtain ⟨hen, hpend, hwords⟩ := dmaDisable_shows hon
      have hpower : (s.dmaDisable k).power = s.power := hwords.unit State.power fun _ => rfl
      refine ⟨_, exec_dmaDisable h rfl hpower hwords.2, hen, hpend, hwords, fun hbusy => ?_, fun hidle => ?_⟩
      · exact dmaDisable_busy hon (dmaBusy_iff.mpr hbusy)
      · exact dmaDisable_idle hon (Bool.eq_false_iff.mpr (mt dmaBusy_iff.mp hidle))
  · intro k h src dst len runs bad cmpl ends
    have hplace : cmpl = s.dmaPlace k := by
      simp only [cmpl, State.dmaPlace, State.dmaCmpl]
      cases SMap.find s.host.cmpl k <;> simp [h, k]
    have hgood : ¬ bad → s.dmaFormat desc = false := fun hb => Bool.eq_false_iff.mpr (mt dmaFormat_iff.mp hb)
    have hends : ∀ t code bytes data, s.dmaEnds t k desc code bytes data → ends t code bytes data := fun t code bytes data ht => by
      simp only [ends, hplace]
      exact ht
    have hserves : runs → s.dmaServes k desc := id
    refine ⟨fun hr => exec_dmaDescriptorDone_unchanged (dmaDone_idle hr), fun hr hbad => ⟨_, exec_dmaDescriptorDone e desc s, ?_⟩,
      fun hr hb hw => exec_dmaDescriptorDone_unchanged (dmaDone_waits (hserves hr) (hgood hb) hw),
      fun hr hb hw => ⟨_, exec_dmaDescriptorDone e desc s, ?_⟩⟩
    · exact hends _ _ _ _ ((dmaDone_format e.isLt (hserves hr) (dmaFormat_iff.mpr hbad) _).watch _)
    · exact hends _ _ _ _ ((dmaDone_moves e.isLt (hserves hr) (hgood hb) hw).watch _)

end Sys2Proof.Machine
end
